-- ==== Sys2Proof/Word.lean ====
section
/-! DEFINITION. Word types, byte order helpers and the small list helpers every other file uses. -/

namespace Sys2Proof

/-- A 32-bit register or frame word. -/
abbrev Word32 := BitVec 32
/-- One byte. -/
abbrev Byte := BitVec 8
/-- A quantity in the signal format of R131: an integer count of 2^-16 V, A, degrees C or kW. -/
abbrev Sig := Int
/-- A quantity in the energy format of R131: an integer count of 2^-8 J (or As). -/
abbrev Energy := Int

/-- Bits `hi` to `lo` of a natural number, as a number. -/
def bits (w hi lo : Nat) : Nat := (w / 2 ^ lo) % 2 ^ (hi + 1 - lo)

/-- Bit `i` of a natural number. -/
def bitAt (w i : Nat) : Bool := (w / 2 ^ i) % 2 == 1

/-- A Boolean as a one-bit number. -/
def b2n (b : Bool) : Nat := if b then 1 else 0

/-- `v` with bits `hi` to `lo` replaced by `x`. -/
def putBits (v hi lo x : Nat) : Nat :=
  v - bits v hi lo * 2 ^ lo + (x % 2 ^ (hi + 1 - lo)) * 2 ^ lo

/-- The integer a two's-complement number of `n` bits stands for. -/
def signed (n v : Nat) : Int :=
  if v % 2 ^ n < 2 ^ (n - 1) then (v % 2 ^ n : Nat) else ((v % 2 ^ n : Nat) : Int) - (2 ^ n : Nat)

/-- The `n`-bit two's-complement number of an integer. -/
def unsigned (n : Nat) (i : Int) : Nat := (i % (2 ^ n : Nat)).toNat

/-- Saturating increment of a count at `cap`. -/
def satInc (cap n : Nat) : Nat := if n < cap then n + 1 else n

/-- `x` limited to the range `lo` to `hi`. -/
def clampI (lo hi x : Int) : Int := if x < lo then lo else if hi < x then hi else x

/-- `x` limited to the range `lo` to `hi`. -/
def clampN (lo hi x : Nat) : Nat := if x < lo then lo else if hi < x then hi else x

/-- Element `i` of a list, or `d` past its end. -/
def nth {α : Type} (l : List α) (i : Nat) (d : α) : α := l.getD i d

/-- A list with element `i` replaced by its image under `f`; unchanged where there is no such element. -/
def updAt {α : Type} : List α → Nat → (α → α) → List α
  | [], _, _ => []
  | a :: l, 0, f => f a :: l
  | a :: l, i + 1, f => a :: updAt l i f

/-- The bytes of a number, least significant first. -/
def leBytes : Nat → Nat → List Byte
  | 0, _ => []
  | k + 1, n => BitVec.ofNat 8 n :: leBytes k (n / 256)

/-- The number a list of bytes spells, least significant first. -/
def leNat : List Byte → Nat
  | [] => 0
  | b :: l => b.toNat + 256 * leNat l

/-- The bytes of a number, most significant first. -/
def beBytes (k n : Nat) : List Byte := (leBytes k n).reverse

/-- The number a list of bytes spells, most significant first. -/
def beNat (l : List Byte) : Nat := leNat l.reverse

/-- The numbers below `n`, rising. -/
def upto (n : Nat) : List Nat := List.range n

/-- The sum of `f` over the numbers below `n`. -/
def sumTo (n : Nat) (f : Nat → Int) : Int := (upto n).foldl (fun a i => a + f i) 0

end Sys2Proof
end

