-- ==== Sys2Proof/Syntax.lean ====
section
/-! DEFINITION. The commands of the block: one constructor of `Instr` for each row of spec/opcode_table.json, in the
table's order, and the operand types. -/

namespace Sys2Proof

/-- The twins (R8). -/
inductive Twin where | a | b
deriving DecidableEq, Repr

/-- The regions of die S (R9). -/
inductive Region where | g0 | g1
deriving DecidableEq, Repr

/-- The two feeds. -/
inductive FeedId where | a | b
deriving DecidableEq, Repr

/-- The access paths of R30. -/
inductive Path where | tw0 | tw1 | fabric | firmware
deriving DecidableEq, Repr

/-- The Mieno ports (R432). -/
inductive MPort where | me | mw
deriving DecidableEq, Repr

/-- The two heartbeat paths of R298. -/
inductive HbPath where | tick | s
deriving DecidableEq, Repr

/-- The supplies that die S and the twins monitor (R550). -/
inductive Supply where | vcoreA | vcoreB | vcoreS | vanaG0 | vanaG1
deriving DecidableEq, Repr

/-- Outcome of the common-logic vote in a tick (R10). -/
inductive Vote where | agree | oneDiffers | twoDiffer
deriving DecidableEq, Repr

/-- What ends a standby (R422). -/
inductive WakeCause where | address | pb | safe | mr
deriving DecidableEq, Repr

/-- What nine clocks found on a controller bus (R428). -/
inductive BusState where | released | sdaLow | sclLow
deriving DecidableEq, Repr

/-- How a transaction of a controller port ended (R424): the data read (0 for a write), or why it failed: a NACK, a failed
PEC, or an abort by a time limit or a lost arbitration. -/
inductive TwAnswer where
  | data (v : BitVec 16)
  | nack
  | pec
  | abort
deriving DecidableEq, Repr

/-- The electrical conditions die S latches at cycle 0 of a tick (R243), one feed. -/
structure FeedCond where
  vgsOn : Bool      -- VGS at or above 9.0 V
  vdsOn : Bool      -- VDS at or below 0.3 V
  off   : Bool      -- VGS below 1.5 V
deriving DecidableEq, Repr, Inhabited

/-- An error of a twin's memories: a read of the MRAM that corrected a single-bit error, one with an uncorrectable error in a page,
a write whose verification failed (R372), or an uncorrectable ECC error of the SRAM (R8, R18). -/
inductive NvErr where
  | sram
  | corrected
  | uncorrectable (page : Nat)
  | writeFail
deriving DecidableEq, Repr

/-- What is latched from the board at cycle 0 of a tick, and the internal errors of the tick. -/
structure TickIn where
  phaseX   : List Int           -- control-path results of the 72 phase-current modulators before trims and scaling, in 2^-20 of
                                -- full scale (R202, R205); full scale or beyond is an overload that saturates the modulator
  preX     : List Int           -- the same of PRE00 to PRE16
  tempC    : List (BitVec 12)   -- codes of the 8 temperature converters, converted in the previous tick (R211)
  tfltUv   : List Nat           -- the 64 TFLT inputs behind their filter, in microvolts (R213)
  pgi      : BitVec 16          -- PGI pins
  feedA    : FeedCond
  feedB    : FeedCond
  hsOn     : BitVec 4           -- hot-swap fully on
  hsOff    : BitVec 4           -- hot-swap off
  pbLow    : Bool               -- PB_n low
  vrefxMv  : Nat                -- VREFX in mV, as monitored by R219
  vote     : Vote
  crcFailA : Bool               -- twin A's sense frame fails its CRC (R15)
  crcFailB : Bool
  nvErrA   : Option NvErr       -- an error of twin A's MRAM or SRAM in the tick (R8, R372)
  nvErrB   : Option NvErr
  missA    : List Nat           -- slot entries twin A completed late or found their engine busy, in order (R60)
  missB    : List Nat
  parityA  : Option (Fin 8)     -- cluster of a lane parity error of twin A (R139)
  parityB  : Option (Fin 8)
  hbMissA  : Bool               -- twin A's tick-path heartbeat was not seen (R298)
  hbMissB  : Bool
deriving DecidableEq, Repr

/-- What is measured over a frond and taken at its boundary. -/
structure FrondIn where
  tempA : List Int              -- 10 die sensors of twin A, signal format (R354)
  tempB : List Int              -- 10 die sensors of twin B
  setp  : List (Nat × Nat × Nat)   -- per rail: complete input periods of SETPr that ended in the frond, the sum of their high
                                   -- times and the sum of their lengths, in 1.25 ns (R97)
  sHbA  : Bool                  -- twin A's S-path heartbeat arrived with its frond number (R299)
  sHbB  : Bool
deriving DecidableEq, Repr

/-- A request or reply frame of a step port, 64 bits (R164, R166). -/
abbrev StepFrame := BitVec 64

/-- A Mieno frame after die S has received it whole (R435). -/
structure MFrame where
  kind    : Nat
  format  : Nat
  ring    : Nat
  bcast   : Bool
  link    : Bool
  restart : Bool
  src     : Nat
  dst     : Nat
  fseq    : Nat
  hops    : Nat
  payload : List Byte
  crc     : Word32              -- the CRC-32 that came with it
deriving DecidableEq, Repr

/-- The measurements of a calibration window's fronds 4 to 55 (R229, R230), in parts per 2^20 of full scale, and LSB/16 rms. -/
structure CalMeas where
  offsetErr : Int
  gainErr   : Int
  noise     : Nat
  gainTrim  : BitVec 16
  offTrim   : BitVec 16
deriving DecidableEq, Repr

/-- Every operation and event of the part: one constructor per row of the table. -/
inductive Instr where
  | tick (i : TickIn)
  | actuationFrame (t : Twin) (cycle : Nat) (words : List Word32)
  | noValidCopySafeState
  | outboundBlockTx (chan : Nat) (answer : TwAnswer)
  | frondBoundary (i : FrondIn)
  | rowEpochBoundary
  | blkStatusClear (p : Path) (page : Nat) (mask : Word32)
  | clearRefusedClear (page : Nat)
  | blkIntForce (page : Nat) (mask : Word32)
  | blkLock (p : Path) (page : Nat) (v : Word32)
  | lockTimeout (p : Path) (page : Nat)
  | blkCommit (page : Nat)
  | registerWrite (p : Path) (page off : Nat) (v : Word32)
  | refclkLoss
  | refclkRelock
  | beaconError (t : Twin)
  | vcoreTwinLoss (t : Twin)
  | vcoreSLoss
  | regionLoss (g : Region)
  | timebaseUnlock (g : Region)
  | clusterFault (k : Fin 8)
  | unitLostReturn (k : Fin 8)
  | bankSwap
  | hotSwapFullyOn (r : Fin 4)
  | softStartDone (r : Fin 4)
  | softStopDone (r : Fin 4)
  | shortDetect (r : Fin 4)
  | phaseShed (r : Fin 4)
  | shedRamp (n : Fin 64)
  | shedTri (n : Fin 64)
  | burstStart (r : Fin 4)
  | fastLimitTrip (n : Fin 64) (uv : Int)
  | unitOverload (n : Fin 64)
  | railOverload (r : Fin 4)
  | railUv (r : Fin 4)
  | railOv (r : Fin 4)
  | railRetryEnd (r : Fin 4)
  | railRetryCountReset (r : Fin 4)
  | injectionDurationEnd
  | capArm
  | capForce
  | captureFilled
  | captureDone
  | capRd (v : Word32)
  | capReadReady
  | requestFrame (n : Fin 16) (f : StepFrame) (codeOk aligned late : Bool)
  | heldRequestDeliver (n : Fin 16)
  | stepPortLinkUp (n : Fin 16)
  | stepPortLinkDown (n : Fin 16)
  | stepUp (n : Fin 16)
  | stepDown (n : Fin 16)
  | announce (n : Fin 16)
  | release (n : Fin 16)
  | heartbeat (n : Fin 16)
  | ledgerLeaveConservative
  | stepSettle (load : Fin 256)
  | reservationExpire (load : Fin 256)
  | unannHalving
  | portStale (n : Fin 16)
  | capLevelFall (n : Fin 16)
  | freezeLong
  | imonInvalid (n : Fin 64)
  | preInvalid (c : Fin 17)
  | metrologyResult (c : Fin 17) (raw : BitVec 24)
  | refSettled
  | vrefxFallback
  | auxStepDone
  | auxStale (a : Fin 32)
  | intmonResult (i : Fin 20)
  | calWindowStart
  | calTakeover
  | calReconnect (m : CalMeas)
  | calReturn
  | calDisconnect
  | calWindowRestart
  | sensCalNow (v : Word32)
  | reverseCurrentTrip (f : FeedId)
  | hotSwapFastTrip (r : Fin 4)
  | feedReady (f : FeedId)
  | feedInvalid (f : FeedId)
  | feedFullyOn (f : FeedId)
  | feedPowerGood (f : FeedId)
  | feedTransfer
  | transferDeadEnd
  | transferInterlockFail
  | insTimeout (f : FeedId)
  | feedReturn
  | feedOv (f : FeedId)
  | feedRetryEnd (f : FeedId)
  | feedRetryCountReset (f : FeedId)
  | g1JudgementResume
  | vgdLow
  | hotSwapOnTimeout (r : Fin 4)
  | hotSwapSlowTrip (r : Fin 4)
  | countInvalid (m : Fin 4)
  | fullAnchor (m : Fin 4)
  | emptyAnchor (m : Fin 4)
  | reserveEntry (m : Fin 4)
  | bbuStatusPoll (m : Fin 4) (answer : Option (BitVec 16 × Byte))
  | bbuInsertion (m : Fin 4) (serial : BitVec 64)
  | bbuRemoval (m : Fin 4)
  | firstEstimate (m : Fin 4)
  | compatSwap (m : Fin 4)
  | chgComm (m : Fin 4)
  | twinSilent (t : Twin)
  | hbPathLost (t : Twin) (p : HbPath)
  | hbPathRestored (t : Twin) (p : HbPath)
  | twinSelfTestDone (t : Twin)
  | restartFail (t : Twin)
  | cutIn (t : Twin)
  | probationEnd (t : Twin)
  | autoRestart (t : Twin)
  | itemCompletion
  | compRd (v : Word32)
  | bootSelfTestDone (passA passB : Bool)
  | twinBootTimeout (t : Twin)
  | memberParentMet (i : Fin 32)
  | onDelayEnd (i : Fin 32)
  | memberQualified (i : Fin 32)
  | memberQualTimeout (i : Fin 32)
  | memberLossHold (i : Fin 32)
  | offDelayEnd (i : Fin 32)
  | offConfirmed (i : Fin 32)
  | offFail (i : Fin 32)
  | fhFailedClear (mask : Word32)
  | drainingEnd
  | offDwellEnd
  | shelfOn
  | shelfOff
  | pbShortPress
  | pbLongPress
  | safeNAssert
  | mrNReset
  | vauxWarn
  | vauxMin (below1v8 : Bool)
  | vauxReturn
  | resetRelease (strap0 strap1 : Fin 8) (votes : Nat)
  | holdLow
  | autoOn
  | rateCheckEnable
  | thermalHoldEnd (n : Fin 64)
  | writeHoldEnd
  | imagePageWriteDone (t : Twin)
  | peatCtrl (v : Word32)
  | peatRd (v : Word32)
  | peatReadReady
  | crustProgramDone (votes : Nat)
  | twBlock (n : Fin 2) (window : Bool) (bytes : List Byte) (pec : Option Byte)
  | regWrite (n : Fin 2) (page off : Nat) (words : List Word32)
  | regRead (n : Fin 2) (page off k : Nat)
  | seqItem (n : Fin 2) (tag seq code : Nat) (args : List Byte)
  | replyRead (n : Fin 2)
  | windowTimeout (n : Fin 2)
  | sclHeldTimeout (n : Fin 2)
  | sdaReleased (n : Fin 2)
  | alertResponse (n : Fin 2)
  | pmPage (n : Fin 2) (w : Option Byte)
  | pmOperation (n : Fin 2) (w : Option Byte)
  | pmClearFaults (n : Fin 2)
  | pmWriteProtect (n : Fin 2) (w : Option Byte)
  | pmCapability (n : Fin 2)
  | pmVoutMode (n : Fin 2)
  | pmVoutCommand (n : Fin 2) (w : Option (BitVec 16))
  | pmStatusByte (n : Fin 2)
  | pmStatusWord (n : Fin 2)
  | pmStatusVout (n : Fin 2)
  | pmStatusIout (n : Fin 2)
  | pmStatusInput (n : Fin 2)
  | pmStatusTemperature (n : Fin 2)
  | pmStatusCml (n : Fin 2)
  | pmReadVin (n : Fin 2)
  | pmReadIin (n : Fin 2)
  | pmReadVout (n : Fin 2)
  | pmReadIout (n : Fin 2)
  | pmReadTemperature1 (n : Fin 2)
  | pmReadPout (n : Fin 2)
  | pmRevision (n : Fin 2)
  | pmMfrId (n : Fin 2)
  | pmMfrModel (n : Fin 2)
  | pmMfrRevision (n : Fin 2)
  | pmMfrShelf (n : Fin 2)
  | pmMfrBudget (n : Fin 2)
  | pmMfrFaultPages (n : Fin 2)
  | openItem (src seq : Nat)
  | clearStatus
  | clearCounter
  | roleSwap
  | twinRestart
  | crustWrite
  | standby
  | standbyWake (c : WakeCause)
  | hostNotify (n : Fin 2) (acked : Bool)
  | hnFail (n : Fin 2)
  | poll (c : Fin 4) (i : Fin 16) (answer : TwAnswer)
  | twRetry (c : Fin 4) (answer : TwAnswer)
  | arbLost (n : Fin 6) (byte bit : Nat)
  | arbCond (n : Fin 6)
  | arbRetry (n : Fin 6)
  | controllerSclTimeout (c : Fin 4)
  | busRecovery (c : Fin 4) (b : BusState)
  | mienoLinkUp (p : MPort)
  | mienoLinkDown (p : MPort)
  | linkFrame (p : MPort) (t1 t2 t3 t4 : Int) (neighbour : Nat)
  | duplicateWindowReset (src : Nat)
  | budget (p : MPort) (f : MFrame)
  | advert (p : MPort) (f : MFrame)
  | timeFrame (p : MPort) (f : MFrame) (rx : Int)
  | mienoHeartbeat (p : MPort) (f : MFrame)
  | idConflictClear
  | digest (p : MPort) (f : MFrame)
  | fabCommand (p : MPort) (f : MFrame)
  | commandReply (p : MPort) (f : MFrame)
  | sporeChunk (p : MPort) (f : MFrame)
  | peatReq (p : MPort) (f : MFrame)
  | peatData (p : MPort) (f : MFrame)
  | unknownFrame (p : MPort) (f : MFrame)
  | mienoHeartbeatTx
  | timeHold
  | timeGo (v : Word32)
  | tsetHoldExpiry
  | digestTx
  | allocate
  | shareIncrease
  | memberSilent (id : Nat)
  | rowExt (v : Word32)
  | extHoldExpiry
  | fabGo (v : Word32)
  | fabResend
  | timedItemExecute
  | chStart (c : Fin 16)
  | chAbort (c : Fin 16)
  | chPause (c : Fin 16)
  | chResume (c : Fin 16)
  | sessionOpen
  | sessionClose
  | chunkCtl (p : Path) (v : Word32)
  | sessionIdleTimeout
  | sporeCommit (otherLoad : Option (Nat × Nat × Nat))
  | activate
  | compareSuspend
  | activationSwitch
  | managementPauseEnd
  | compareResume
  | confirm
  | rollback
  | confirmTimerExpiry
  | snapHold (p : Path) (n : Fin 2) (v : Word32)
  | holdExpired (n : Fin 2)
  | testenHigh
  | supplyOutOfRange (x : Supply)
  | supplyInRange (x : Supply)
  | safeNRelease
  | vgdOkRise
  | islandUnlock (t : Twin) (i : Fin 11)
  | timebaseRelock (g : Region)
deriving DecidableEq, Repr

end Sys2Proof
end

