-- ==== Sys2Proof/Machine/Digest.lean ====
section
/-! DEFINITION. SHA-384, the digest that R64, R398, R448, R493 and R495 name. The function is that of FIPS 180-4: it stands outside
the spec (log entry 34). -/

namespace Sys2Proof.Machine

/-- The round constants of SHA-384, in four parts. -/
def shaKa : List Nat := [
  0x428a2f98d728ae22, 0x7137449123ef65cd, 0xb5c0fbcfec4d3b2f, 0xe9b5dba58189dbbc,
  0x3956c25bf348b538, 0x59f111f1b605d019, 0x923f82a4af194f9b, 0xab1c5ed5da6d8118,
  0xd807aa98a3030242, 0x12835b0145706fbe, 0x243185be4ee4b28c, 0x550c7dc3d5ffb4e2,
  0x72be5d74f27b896f, 0x80deb1fe3b1696b1, 0x9bdc06a725c71235, 0xc19bf174cf692694,
  0xe49b69c19ef14ad2, 0xefbe4786384f25e3, 0x0fc19dc68b8cd5b5, 0x240ca1cc77ac9c65]
def shaKb : List Nat := [
  0x2de92c6f592b0275, 0x4a7484aa6ea6e483, 0x5cb0a9dcbd41fbd4, 0x76f988da831153b5,
  0x983e5152ee66dfab, 0xa831c66d2db43210, 0xb00327c898fb213f, 0xbf597fc7beef0ee4,
  0xc6e00bf33da88fc2, 0xd5a79147930aa725, 0x06ca6351e003826f, 0x142929670a0e6e70,
  0x27b70a8546d22ffc, 0x2e1b21385c26c926, 0x4d2c6dfc5ac42aed, 0x53380d139d95b3df,
  0x650a73548baf63de, 0x766a0abb3c77b2a8, 0x81c2c92e47edaee6, 0x92722c851482353b]
def shaKc : List Nat := [
  0xa2bfe8a14cf10364, 0xa81a664bbc423001, 0xc24b8b70d0f89791, 0xc76c51a30654be30,
  0xd192e819d6ef5218, 0xd69906245565a910, 0xf40e35855771202a, 0x106aa07032bbd1b8,
  0x19a4c116b8d2d0c8, 0x1e376c085141ab53, 0x2748774cdf8eeb99, 0x34b0bcb5e19b48a8,
  0x391c0cb3c5c95a63, 0x4ed8aa4ae3418acb, 0x5b9cca4f7763e373, 0x682e6ff3d6b2b8a3,
  0x748f82ee5defb2fc, 0x78a5636f43172f60, 0x84c87814a1f0ab72, 0x8cc702081a6439ec]
def shaKd : List Nat := [
  0x90befffa23631e28, 0xa4506cebde82bde9, 0xbef9a3f7b2c67915, 0xc67178f2e372532b,
  0xca273eceea26619c, 0xd186b8c721c0c207, 0xeada7dd6cde0eb1e, 0xf57d4f7fee6ed178,
  0x06f067aa72176fba, 0x0a637dc5a2c898a6, 0x113f9804bef90dae, 0x1b710b35131c471b,
  0x28db77f523047d84, 0x32caab7b40c72493, 0x3c9ebe0a15c9bebc, 0x431d67c49c100d4c,
  0x4cc5d4becb3e42b6, 0x597f299cfc657e2a, 0x5fcb6fab3ad6faec, 0x6c44198c4a475817]
def shaK : List Nat := shaKa ++ shaKb ++ shaKc ++ shaKd

/-- The initial hash value of SHA-384. -/
def shaInit : List Nat := [
  0xcbbb9d5dc1059ed8, 0x629a292a367cd507, 0x9159015a3070dd17, 0x152fecd8f70e5939,
  0x67332667ffc00b31, 0x8eb44a8768581511, 0xdb0c2e0d64f98fa7, 0x47b5481dbefa4fa4]

/-- A sum of 64-bit words. -/
def add64 (x y : Nat) : Nat := (x + y) % 2 ^ 64

/-- A 64-bit word rotated right. -/
def rotr64 (x n : Nat) : Nat := x / 2 ^ n + (x % 2 ^ n) * 2 ^ (64 - n)

/-- The two functions of the message schedule. -/
def shaSmall0 (x : Nat) : Nat := rotr64 x 1 ^^^ rotr64 x 8 ^^^ x / 2 ^ 7
def shaSmall1 (x : Nat) : Nat := rotr64 x 19 ^^^ rotr64 x 61 ^^^ x / 2 ^ 6

/-- The message schedule of a block, latest word first, with `n` more words. -/
def shaExtend : Nat → List Nat → List Nat
  | 0, w => w
  | n + 1, w =>
    shaExtend n (add64 (add64 (shaSmall1 (w.getD 1 0)) (w.getD 6 0)) (add64 (shaSmall0 (w.getD 14 0)) (w.getD 15 0)) :: w)

/-- One round: the working variables a to h, with a round constant plus schedule word. -/
def shaRound (s : List Nat) (kw : Nat) : List Nat :=
  let v (i : Nat) : Nat := s.getD i 0
  let s1 := rotr64 (v 4) 14 ^^^ rotr64 (v 4) 18 ^^^ rotr64 (v 4) 41
  let ch := (v 4 &&& v 5) ^^^ ((2 ^ 64 - 1 - v 4) &&& v 6)
  let t1 := add64 (add64 (v 7) s1) (add64 ch kw)
  let s0 := rotr64 (v 0) 28 ^^^ rotr64 (v 0) 34 ^^^ rotr64 (v 0) 39
  let maj := (v 0 &&& v 1) ^^^ (v 0 &&& v 2) ^^^ (v 1 &&& v 2)
  [add64 t1 (add64 s0 maj), v 0, v 1, v 2, add64 (v 3) t1, v 4, v 5, v 6]

/-- The hash value after one more block of sixteen words. -/
def shaBlock (h w : List Nat) : List Nat :=
  let l := (shaExtend 64 w.reverse).reverse
  List.zipWith add64 h ((List.zipWith add64 shaK l).foldl shaRound h)

/-- The blocks of a padded message, at most `n`. -/
def shaBlocks : Nat → List Nat → List Nat → List Nat
  | 0, h, _ => h
  | n + 1, h, w => if w.isEmpty then h else shaBlocks n (shaBlock h (w.take 16)) (w.drop 16)

/-- The 64-bit words of a list of bytes. -/
def words64 : List Byte → List Nat
  | a :: b :: c :: d :: e :: f :: g :: h :: l => beNat [a, b, c, d, e, f, g, h] :: words64 l
  | _ => []

/-- The padding: a 1 bit, zeros, and the length in bits. -/
def shaPad (l : List Byte) : List Byte :=
  l ++ [0x80#8] ++ List.replicate ((239 - l.length % 128) % 128) 0#8 ++ beBytes 16 (8 * l.length)

/-- SHA-384 of a list of bytes: the first 48 bytes of the hash value. -/
@[irreducible] def sha384 (l : List Byte) : List Byte :=
  let w := words64 (shaPad l)
  ((shaBlocks w.length shaInit w).take 6).flatMap (beBytes 8)

end Sys2Proof.Machine
end

