-- ==== Sys2Proof/Machine/RegMap.lean ====
section
/-! DEFINITION. The register map: the pages of R517 and one row for each register header of spec/, with the bits of each
access code (R29), the plane and the reset value. The addresses, masks and resets are the headers' own. -/

namespace Sys2Proof.Machine

/-- The planes of R21. -/
inductive Plane where | control | data | management
deriving DecidableEq, Repr

/-- One register header: first page, number of pages, first offset, number of registers, distance between them, reset
value, and the bits of each access code. -/
structure RegRow where
  pg : Nat
  npg : Nat
  off : Nat
  cnt : Nat
  stride : Nat
  rst : Nat
  rw : Nat
  rws : Nat
  ro : Nat
  wo : Nat
  w1c : Nat
  rwc : Nat
  plane : Plane
deriving DecidableEq, Repr

/-- One row of the page table of R517: first page, number of pages, TYPE, INSTANCE of the first page, whether INSTANCE
counts on, and the plane of the block. -/
structure PageRow where
  pg : Nat
  npg : Nat
  ty : Nat
  inst0 : Nat
  counts : Bool
  plane : Plane
deriving DecidableEq, Repr

/-- The pages of R517, first half. -/
def RegMap.pages1 : List PageRow := [
  ⟨0x000, 1, 0x01, 0, false, .management⟩, ⟨0x001, 1, 0x02, 0, false, .control⟩,
  ⟨0x002, 1, 0x03, 0, false, .management⟩, ⟨0x010, 16, 0x04, 0, false, .management⟩,
  ⟨0x020, 8, 0x10, 0, true, .control⟩, ⟨0x028, 4, 0x11, 0, true, .control⟩,
  ⟨0x030, 64, 0x12, 0, true, .control⟩, ⟨0x070, 1, 0x13, 0, false, .control⟩,
  ⟨0x074, 1, 0x20, 0, false, .control⟩, ⟨0x075, 1, 0x21, 0, false, .control⟩,
  ⟨0x076, 1, 0x22, 0, false, .control⟩, ⟨0x078, 1, 0x23, 0, false, .control⟩,
  ⟨0x080, 1, 0x30, 0, false, .control⟩, ⟨0x081, 1, 0x31, 0, false, .control⟩,
  ⟨0x082, 1, 0x32, 0, false, .data⟩, ⟨0x084, 17, 0x33, 0, true, .control⟩,
  ⟨0x098, 1, 0x40, 0, false, .control⟩, ⟨0x099, 1, 0x41, 0, false, .control⟩,
  ⟨0x09C, 4, 0x42, 0, true, .data⟩]

/-- The pages of R517, second half. -/
def RegMap.pages2 : List PageRow := [
  ⟨0x0A0, 1, 0x50, 0, false, .control⟩, ⟨0x0A1, 1, 0x51, 0, false, .management⟩,
  ⟨0x0A4, 1, 0x52, 0, false, .control⟩, ⟨0x0A5, 1, 0x53, 0, false, .control⟩,
  ⟨0x0A8, 1, 0x54, 0, false, .control⟩, ⟨0x0B0, 1, 0x60, 0, false, .management⟩,
  ⟨0x0B1, 1, 0x61, 0, false, .data⟩, ⟨0x0B2, 1, 0x62, 0, false, .management⟩,
  ⟨0x0B8, 2, 0x70, 0, true, .management⟩, ⟨0x0BA, 4, 0x71, 2, true, .management⟩,
  ⟨0x0C0, 1, 0x80, 0, false, .data⟩, ⟨0x0C1, 1, 0x81, 0, false, .data⟩,
  ⟨0x0C2, 1, 0x82, 0, false, .data⟩, ⟨0x0C8, 1, 0x90, 0, false, .data⟩,
  ⟨0x0D0, 1, 0xA0, 0, false, .management⟩, ⟨0x0D1, 1, 0xA1, 0, false, .management⟩,
  ⟨0x0E0, 1, 0xB0, 0, false, .control⟩]

/-- The row of R517 that holds a page, if the page is implemented. -/
def pageRow (pg : Nat) : Option PageRow :=
  (RegMap.pages1 ++ RegMap.pages2).find? fun r => r.pg ≤ pg && pg < r.pg + r.npg

/-- The plane of the block of a page (management where there is none). -/
def pagePlane (pg : Nat) : Plane := ((pageRow pg).map PageRow.plane).getD .management

/-- BLK_ID of an implemented page (R28, R517). -/
def blkId (pg : Nat) : Nat :=
  match pageRow pg with
  | none => 0
  | some r => r.ty * 2 ^ 24 + (r.inst0 + if r.counts then pg - r.pg else 0) * 2 ^ 16 + 0x0100 +
      (if r.ty = 0x04 then 0x10 else 0x01)

/-- The common registers of R28 in a page whose block's plane is `p`; page 0x000 has BLK_EN read-only (R522). -/
def commonRow (pg : Nat) (p : Plane) (off : Nat) : Option RegRow :=
  let row := fun rst rw rws ro wo w1c => some ⟨pg, 1, off, 1, 4, rst, rw, rws, ro, wo, w1c, 0, p⟩
  match off with
  | 0x000 => row 0 0 0 0xFFFFFFFF 0 0
  | 0x004 => if pg = 0 then row 1 0xFFFFFF0E 0 1 0 0
             else if p = .control then row 0 0x0000000E 0xFFFFFF01 0 0 0
             else row 0 0xFFFFFF0F 0 0 0 0
  | 0x008 => row 0 0 0 0 0 0xFFFFFFFF
  | 0x00C => row 0 0xFFFFFFFF 0 0 0 0
  | 0x010 => row 0 0 0 0 0xFFFFFFFF 0
  | 0x014 => row 0 0 0 0x00FFFFFF 0 0x80000000
  | 0x018 => row 0 0x000000FF 0 0 0 0
  | 0x01C => row 0 0x00000001 0 0 0 0
  | _ => none

/-- Register headers of spec/02_schedule_contract.md. -/
def RegMap.rows02 : List RegRow := [
  ⟨1, 1, 0x40, 1, 4, 0, 0, 0, 0xffffffff, 0, 0, 0, .control⟩,  -- FROND_NUM
  ⟨1, 1, 0x44, 1, 4, 0, 0, 0, 0xffffffff, 0, 0, 0, .control⟩,  -- EPOCH_POS
  ⟨1, 1, 0x48, 1, 4, 0, 0, 0, 0x7ff07ff, 0, 0, 0, .control⟩,  -- ISLAND_LOCK
  ⟨2, 1, 0x40, 1, 4, 0, 0x31, 0, 0, 0, 0, 0, .management⟩,  -- SCHED_CTRL
  ⟨2, 1, 0x44, 1, 4, 0, 0, 0, 0x31f, 0, 0, 0, .management⟩,  -- SCHED_STATE
  ⟨2, 1, 0x48, 1, 4, 0, 0, 0, 0xffff, 0, 0, 0, .management⟩,  -- SWAP_FROND
  ⟨2, 1, 0x4c, 1, 4, 0, 0, 0, 0xffffffff, 0, 0, 0, .management⟩,  -- LOAD_RESULT
  ⟨2, 1, 0x50, 1, 4, 0, 0, 0, 0xffffffff, 0, 0, 0, .management⟩,  -- MISS_COUNT
  ⟨2, 1, 0x54, 1, 4, 0, 0, 0, 0xff1fff, 0, 0, 0, .management⟩,  -- LAST_MISS
  ⟨2, 1, 0x58, 1, 4, 0, 0, 0, 0xffffffff, 0, 0, 0, .management⟩,  -- IMAGE_VER0/IMAGE_VER1
  ⟨2, 1, 0x5c, 1, 4, 0, 0, 0, 0xffffffff, 0, 0, 0, .management⟩,  -- IMAGE_VER0/IMAGE_VER1
  ⟨2, 1, 0x60, 1, 4, 0, 0, 0, 0xffffffff, 0, 0, 0, .management⟩,  -- TIER_FRONDS0/TIER_FRONDS3
  ⟨2, 1, 0x64, 1, 4, 0, 0, 0, 0xffffffff, 0, 0, 0, .management⟩,  -- TIER_FRONDS0/TIER_FRONDS3
  ⟨2, 1, 0x68, 1, 4, 0, 0, 0, 0xffffffff, 0, 0, 0, .management⟩,  -- TIER_FRONDS0/TIER_FRONDS3
  ⟨2, 1, 0x6c, 1, 4, 0, 0, 0, 0xffffffff, 0, 0, 0, .management⟩]  -- TIER_FRONDS0/TIER_FRONDS3

/-- Register headers of spec/03_phase_array.md. -/
def RegMap.rows03a : List RegRow := [
  ⟨0x28, 4, 0x40, 1, 4, 0x20200, 0, 0x1f0f7fff, 0, 0, 0, 0, .control⟩,  -- RAIL_CFG
  ⟨0x28, 4, 0x44, 1, 4, 0xc0000, 0, 0xffffffff, 0, 0, 0, 0, .control⟩,  -- RAIL_VSET
  ⟨0x28, 4, 0x48, 1, 4, 0x1010535, 0, 0xfffffff, 0, 0, 0, 0, .control⟩,  -- RAIL_PWM
  ⟨0x28, 4, 0x4c, 1, 4, 0x80050, 0, 0xff7fff, 0, 0, 0, 0, .control⟩,  -- RAIL_XP
  ⟨0x28, 4, 0x50, 1, 4, 0xbb80000, 0, 0xffff03ff, 0, 0, 0, 0, .control⟩,  -- RAIL_LL_SLEW
  ⟨0x28, 4, 0x54, 1, 4, 0x10032140, 0, 0xffffffff, 0, 0, 0, 0, .control⟩,  -- RAIL_SHED
  ⟨0x28, 4, 0x58, 1, 4, 0x20ffff, 0, 0xffffffff, 0, 0, 0, 0, .control⟩,  -- RAIL_PROT
  ⟨0x28, 4, 0x5c, 1, 4, 0x643c0c, 0, 0xffffff, 0, 0, 0, 0, .control⟩,  -- RAIL_WIN
  ⟨0x28, 4, 0x60, 1, 4, 0x1e85, 0, 0xffff, 0, 0, 0, 0, .control⟩,  -- RAIL_RETRY
  ⟨0x28, 4, 0x64, 1, 4, 0, 0, 0xffffffff, 0, 0, 0, 0, .control⟩,  -- RAIL_SP_MIN/RAIL_SP_MAX
  ⟨0x28, 4, 0x68, 1, 4, 0xc0000, 0, 0xffffffff, 0, 0, 0, 0, .control⟩,  -- RAIL_SP_MIN/RAIL_SP_MAX
  ⟨0x28, 4, 0x6c, 1, 4, 0x2710000a, 0, 0xffffffff, 0, 0, 0, 0, .control⟩,  -- RAIL_SP_FRANGE
  ⟨0x28, 4, 0x80, 1, 4, 0, 0, 0, 0xf0ffffff, 0, 0, 0, .control⟩,  -- RAIL_STATE
  ⟨0x28, 4, 0x84, 1, 4, 0, 0, 0, 0x1f, 0, 0, 0, .control⟩,  -- RAIL_FLAGS
  ⟨0x28, 4, 0x88, 1, 4, 0, 0, 0, 0xffffffff, 0, 0, 0, .control⟩,  -- RAIL_REF/RAIL_VOUT/RAIL_IOUT/RAIL_CAP
  ⟨0x28, 4, 0x8c, 1, 4, 0, 0, 0, 0xffffffff, 0, 0, 0, .control⟩,  -- RAIL_REF/RAIL_VOUT/RAIL_IOUT/RAIL_CAP
  ⟨0x28, 4, 0x90, 1, 4, 0, 0, 0, 0xffffffff, 0, 0, 0, .control⟩,  -- RAIL_REF/RAIL_VOUT/RAIL_IOUT/RAIL_CAP
  ⟨0x28, 4, 0x94, 1, 4, 0, 0, 0, 0xffffffff, 0, 0, 0, .control⟩,  -- RAIL_REF/RAIL_VOUT/RAIL_IOUT/RAIL_CAP
  ⟨0x30, 64, 0x40, 1, 4, 0x82b400, 0, 0xffff07, 0, 0, 0, 0, .control⟩,  -- PH_CFG
  ⟨0x30, 64, 0x44, 1, 4, 0x7d0, 0, 0xffff, 0, 0, 0, 0, .control⟩]  -- PH_OVL_TICKS

/-- Register headers of spec/03_phase_array.md. -/
def RegMap.rows03b : List RegRow := [
  ⟨0x30, 64, 0x48, 1, 4, 0, 0, 0, 0xfff3f07, 0, 0, 0, .control⟩,  -- PH_STATE
  ⟨0x30, 64, 0x4c, 1, 4, 0, 0, 0, 0xffffffff, 0, 0, 0, .control⟩,  -- PH_CURRENT/PH_TEMP
  ⟨0x30, 64, 0x50, 1, 4, 0, 0, 0, 0xffffffff, 0, 0, 0, .control⟩,  -- PH_CURRENT/PH_TEMP
  ⟨0x30, 64, 0x54, 1, 4, 0, 0, 0, 0xffff, 0, 0, 0, .control⟩,  -- PH_DUTY
  ⟨0x30, 64, 0x58, 1, 4, 0, 0, 0, 0xffffffff, 0, 0, 0, .control⟩,  -- PH_COUNTS
  ⟨0x70, 1, 0x40, 1, 4, 0, 0, 0, 0xffffffff, 0, 0, 0, .control⟩,  -- PA_ACTIVE_LO/PA_ACTIVE_HI
  ⟨0x70, 1, 0x44, 1, 4, 0, 0, 0, 0xffffffff, 0, 0, 0, .control⟩,  -- PA_ACTIVE_LO/PA_ACTIVE_HI
  ⟨0x70, 1, 0x48, 1, 4, 0, 0, 0, 0xffffffff, 0, 0, 0, .control⟩,  -- PA_FAULT_LO/PA_FAULT_HI
  ⟨0x70, 1, 0x4c, 1, 4, 0, 0, 0, 0xffffffff, 0, 0, 0, .control⟩,  -- PA_FAULT_LO/PA_FAULT_HI
  ⟨0x70, 1, 0x50, 1, 4, 0, 0, 0, 3, 0, 0, 0, .control⟩]  -- PA_TIMEBASE

/-- Register headers of spec/04_control_engine.md. -/
def RegMap.rows04a : List RegRow := [
  ⟨0x20, 8, 0x40, 1, 4, 0, 0, 0x7fff, 0, 0, 0, 0, .control⟩,  -- CW_ADDR
  ⟨0x20, 8, 0x44, 7, 4, 0, 0, 0xffffffff, 0, 0, 0, 0, .control⟩,  -- CW_B0/CW_B1/CW_B2/CW_A1/CW_A2/CW_LO/CW_HI
  ⟨0x20, 8, 0x60, 1, 4, 0, 0, 0x8000001f, 0, 0, 0, 0, .control⟩,  -- CW_CTL
  ⟨0x20, 8, 0x80, 1, 4, 0, 0, 0, 0xffffffff, 0, 0, 0, .control⟩,  -- CL_COUNTS
  ⟨0x28, 4, 0x100, 1, 4, 0, 0, 0x8f1fffff, 0, 0, 0, 0, .control⟩,  -- VLP_DESC/FFS_DESC
  ⟨0x28, 4, 0x104, 1, 4, 0, 0, 0x8f1fffff, 0, 0, 0, 0, .control⟩,  -- VLP_DESC/FFS_DESC
  ⟨0xe0, 1, 0x40, 1, 4, 0x10000, 0, 0x3ff3fdf, 0, 0, 0, 0, .control⟩,  -- INJ_CFG
  ⟨0xe0, 1, 0x44, 1, 4, 0, 0, 0xffffffff, 0, 0, 0, 0, .control⟩,  -- INJ_AMP/INJ_LIM_V/INJ_LIM_I/INJ_LIM_D
  ⟨0xe0, 1, 0x48, 1, 4, 0x1eb8, 0, 0xffffffff, 0, 0, 0, 0, .control⟩,  -- INJ_AMP/INJ_LIM_V/INJ_LIM_I/INJ_LIM_D
  ⟨0xe0, 1, 0x4c, 1, 4, 0x320000, 0, 0xffffffff, 0, 0, 0, 0, .control⟩,  -- INJ_AMP/INJ_LIM_V/INJ_LIM_I/INJ_LIM_D
  ⟨0xe0, 1, 0x50, 1, 4, 0x51e, 0, 0xffffffff, 0, 0, 0, 0, .control⟩,  -- INJ_AMP/INJ_LIM_V/INJ_LIM_I/INJ_LIM_D
  ⟨0xe0, 1, 0x54, 1, 4, 0, 0, 0xffffffff, 0, 0, 0, 0, .control⟩,  -- INJ_INC_START/INJ_INC_END
  ⟨0xe0, 1, 0x58, 1, 4, 0, 0, 0xffffffff, 0, 0, 0, 0, .control⟩,  -- INJ_INC_START/INJ_INC_END
  ⟨0xe0, 1, 0x5c, 1, 4, 0, 0, 0xffff0001, 0, 0, 0, 0, .control⟩,  -- INJ_CTRL
  ⟨0xe0, 1, 0x60, 1, 4, 0, 0, 0, 0xf, 0, 0, 0, .control⟩,  -- INJ_STATE
  ⟨0xe0, 1, 0x80, 1, 4, 0, 0x7f3, 0, 0, 0, 0, 0, .data⟩,  -- CAP_CFG
  ⟨0xe0, 1, 0x84, 1, 4, 0, 0xffffffff, 0, 0, 0, 0, 0, .data⟩,  -- CAP_SEL
  ⟨0xe0, 1, 0x88, 1, 4, 0, 0x1fffff, 0, 0, 0, 0, 0, .data⟩,  -- CAP_PRE
  ⟨0xe0, 1, 0x8c, 1, 4, 0, 0, 0, 0, 3, 0, 0, .data⟩,  -- CAP_CTRL
  ⟨0xe0, 1, 0x90, 1, 4, 0, 0, 0, 0x3f, 0, 0, 0, .data⟩]  -- CAP_STATE

/-- Register headers of spec/04_control_engine.md. -/
def RegMap.rows04b : List RegRow := [
  ⟨0xe0, 1, 0x94, 1, 4, 0, 0, 0, 0xffffff, 0, 0, 0, .data⟩,  -- CAP_TRIG
  ⟨0xe0, 1, 0x98, 1, 4, 0, 0, 0, 0xfffff, 0, 0, 0, .data⟩,  -- CAP_TRIG
  ⟨0xe0, 1, 0x9c, 1, 4, 0, 0x7ff, 0, 0, 0, 0, 0, .data⟩,  -- CAP_FAULT_SEL
  ⟨0xe0, 1, 0xa0, 1, 4, 0, 0x3fff, 0, 0, 0, 0, 0, .data⟩,  -- CAP_RD
  ⟨0xe0, 1, 0x400, 256, 4, 0, 0, 0, 0xffffffff, 0, 0, 0, .data⟩]  -- CAP_DATA

/-- Register headers of spec/05_step_admission.md. -/
def RegMap.rows05a : List RegRow := [
  ⟨0x74, 1, 0x40, 1, 4, 0x40408002, 0, 0xffffff07, 0, 0, 0, 0, .control⟩,  -- ADM_CFG
  ⟨0x74, 1, 0x44, 1, 4, 0x2810, 0, 0xfffff, 0, 0, 0, 0, .control⟩,  -- ADM_LIMITS
  ⟨0x74, 1, 0x48, 1, 4, 0x200a14, 0, 0xffffff, 0, 0, 0, 0, .control⟩,  -- ADM_UNANN
  ⟨0x74, 1, 0x4c, 1, 4, 0x6401, 0, 0xffffff, 0, 0, 0, 0, .control⟩,  -- ADM_TIMING
  ⟨0x74, 1, 0x80, 1, 4, 0, 0, 0, 0xffffffff, 0, 0, 0, .control⟩,  -- ADM_COUNT0/ADM_COUNT3
  ⟨0x74, 1, 0x84, 1, 4, 0, 0, 0, 0xffffffff, 0, 0, 0, .control⟩,  -- ADM_COUNT0/ADM_COUNT3
  ⟨0x74, 1, 0x88, 1, 4, 0, 0, 0, 0xffffffff, 0, 0, 0, .control⟩,  -- ADM_COUNT0/ADM_COUNT3
  ⟨0x74, 1, 0x8c, 1, 4, 0, 0, 0, 0xffffffff, 0, 0, 0, .control⟩,  -- ADM_COUNT0/ADM_COUNT3
  ⟨0x74, 1, 0x90, 1, 4, 0, 0, 0, 0xffffffff, 0, 0, 0, .control⟩,  -- UNANN_RAIL
  ⟨0x74, 1, 0xc0, 16, 4, 0, 0, 0, 0xffff0003, 0, 0, 0, .control⟩,  -- SP_STAT0/SP_STAT15
  ⟨0x75, 1, 0x40, 1, 4, 0x190, 0xffff, 0, 0, 0, 0, 0, .management⟩,  -- LDG_SLEW
  ⟨0x75, 1, 0x44, 1, 4, 0x1003e8, 0xffffffff, 0, 0, 0, 0, 0, .management⟩,  -- LDG_BUS
  ⟨0x75, 1, 0x48, 1, 4, 0x10c20180, 0xffffffff, 0, 0, 0, 0, 0, .management⟩,  -- LDG_RECT
  ⟨0x75, 1, 0x4c, 1, 4, 0x2003e8, 0xffffffff, 0, 0, 0, 0, 0, .management⟩,  -- LDG_LEARN
  ⟨0x75, 1, 0x50, 1, 4, 0x10, 0xff, 0, 0, 0, 0, 0, .management⟩,  -- LDG_LEARN_MIN
  ⟨0x75, 1, 0x60, 1, 4, 0, 0, 0, 0xffffffff, 0, 0, 0, .data⟩,  -- LDG_RAMP
  ⟨0x75, 1, 0x64, 1, 4, 0, 0, 0, 0xffffffff, 0, 0, 0, .data⟩,  -- LDG_ROW
  ⟨0x75, 1, 0x68, 1, 4, 1, 0, 0, 0xffff000f, 0, 0, 0, .control⟩,  -- LDG_STATE
  ⟨0x75, 1, 0x6c, 1, 4, 0, 0, 0, 0xffffffff, 0, 0, 0, .control⟩,  -- LDG_E_AV/LDG_E_NEED/LDG_P54/LDG_P_SH/LDG_B
  ⟨0x75, 1, 0x70, 1, 4, 0, 0, 0, 0xffffffff, 0, 0, 0, .control⟩]  -- LDG_E_AV/LDG_E_NEED/LDG_P54/LDG_P_SH/LDG_B

/-- Register headers of spec/05_step_admission.md. -/
def RegMap.rows05b : List RegRow := [
  ⟨0x75, 1, 0x74, 1, 4, 0, 0, 0, 0xffffffff, 0, 0, 0, .control⟩,  -- LDG_E_AV/LDG_E_NEED/LDG_P54/LDG_P_SH/LDG_B
  ⟨0x75, 1, 0x78, 1, 4, 0, 0, 0, 0xffffffff, 0, 0, 0, .control⟩,  -- LDG_E_AV/LDG_E_NEED/LDG_P54/LDG_P_SH/LDG_B
  ⟨0x75, 1, 0x7c, 1, 4, 0, 0, 0, 0xffffffff, 0, 0, 0, .control⟩,  -- LDG_E_AV/LDG_E_NEED/LDG_P54/LDG_P_SH/LDG_B
  ⟨0x75, 1, 0x80, 16, 4, 0, 0, 0, 0xffffffff, 0, 0, 0, .control⟩,  -- LDG_LIMIT_r/LDG_COMMIT_r/LDG_RESV_r/LDG_THERM_r
  ⟨0x76, 1, 0x40, 252, 0x10, 0, 0, 0x83ffffff, 0, 0, 0, 0, .control⟩,  -- GT_ENTRY word 0
  ⟨0x74, 1, 0xf00, 4, 0x10, 0, 0, 0x83ffffff, 0, 0, 0, 0, .control⟩,  -- GT_ENTRY word 0 (252-255)
  ⟨0x76, 1, 0x44, 252, 0x10, 0, 0, 0, 0xffffffff, 0, 0, 0, .control⟩,  -- GT_ENTRY word 1
  ⟨0x74, 1, 0xf04, 4, 0x10, 0, 0, 0, 0xffffffff, 0, 0, 0, .control⟩,  -- GT_ENTRY word 1 (252-255)
  ⟨0x76, 1, 0x48, 252, 0x10, 0, 0, 0, 0xffff0fff, 0, 0, 0, .control⟩,  -- GT_ENTRY word 2
  ⟨0x74, 1, 0xf08, 4, 0x10, 0, 0, 0, 0xffff0fff, 0, 0, 0, .control⟩,  -- GT_ENTRY word 2 (252-255)
  ⟨0x76, 1, 0x4c, 252, 0x10, 0, 0, 0xf0000000, 0xffffff, 0, 0, 0, .control⟩,  -- GT_ENTRY word 3
  ⟨0x74, 1, 0xf0c, 4, 0x10, 0, 0, 0xf0000000, 0xffffff, 0, 0, 0, .control⟩,  -- GT_ENTRY word 3 (252-255)
  ⟨0x78, 1, 0x40, 16, 4, 0x800, 0, 0xff07, 0, 0, 0, 0, .control⟩,  -- CAP_PORT0/CAP_PORT15
  ⟨0x78, 1, 0x80, 1, 4, 0, 0, 0xffffffff, 0, 0, 0, 0, .control⟩,  -- CAP_FORCE/CAP_LEVEL
  ⟨0x78, 1, 0x84, 1, 4, 0, 0, 0, 0xffffffff, 0, 0, 0, .control⟩,  -- CAP_FORCE/CAP_LEVEL
  ⟨0x78, 1, 0x88, 1, 4, 0x4008, 0, 0xffff, 0, 0, 0, 0, .control⟩,  -- CAP_TIMING
  ⟨0x78, 1, 0xc0, 16, 4, 0, 0, 0, 0xffff00ff, 0, 0, 0, .control⟩]  -- UNANN_PORT0/UNANN_PORT15

/-- Register headers of spec/06_sensing.md. -/
def RegMap.rows06a : List RegRow := [
  ⟨0x80, 1, 0x40, 1, 4, 0x1f4, 0, 0x7ff, 0, 0, 0, 0, .control⟩,  -- SENS_IMON
  ⟨0x80, 1, 0x44, 1, 4, 0x3212c320, 0, 0xffffffff, 0, 0, 0, 0, .control⟩,  -- SENS_TEMP
  ⟨0x80, 1, 0x48, 1, 4, 0x80001000, 0, 0x8000ff00, 0, 0, 0, 0, .control⟩,  -- SENS_CAL
  ⟨0x80, 1, 0x4c, 1, 4, 0, 0, 0, 0, 0xff, 0, 0, .control⟩,  -- SENS_CAL_NOW
  ⟨0x80, 1, 0x80, 1, 4, 0, 0, 0, 0xffff1fff, 0, 0, 0, .control⟩,  -- SENS_ROT
  ⟨0x80, 1, 0x84, 1, 4, 0x88888888, 0, 0, 0xffffffff, 0, 0, 0, .control⟩,  -- SENS_SUBST
  ⟨0x80, 1, 0x88, 1, 4, 0x1f, 0, 0, 0x3f, 0, 0, 0, .control⟩,  -- SENS_PRE_SUBST
  ⟨0x80, 1, 0x8c, 1, 4, 0, 0, 0, 0xffff007f, 0, 0, 0, .control⟩,  -- SENS_DEFER
  ⟨0x80, 1, 0x90, 1, 4, 0, 0, 0, 0xffffffff, 0, 0, 0, .control⟩,  -- IMON_INV_LO/IMON_INV_HI
  ⟨0x80, 1, 0x94, 1, 4, 0, 0, 0, 0xffffffff, 0, 0, 0, .control⟩,  -- IMON_INV_LO/IMON_INV_HI
  ⟨0x81, 1, 0x40, 1, 4, 0x1000, 0, 0xff03, 0, 0, 0, 0, .control⟩,  -- REF_CFG
  ⟨0x81, 1, 0x80, 1, 4, 0, 0, 0, 0xffff000f, 0, 0, 0, .control⟩,  -- REF_STATE
  ⟨0x82, 1, 0x40, 1, 4, 0x32400000, 0, 0xffff01ff, 0, 0, 0, 0, .data⟩,  -- AUX_CFG
  ⟨0x82, 1, 0x44, 1, 4, 0, 0, 0, 0xffff00ff, 0, 0, 0, .data⟩,  -- AUX_POS
  ⟨0x82, 1, 0x100, 256, 4, 0, 0, 0x1ffff1f, 0, 0, 0, 0, .data⟩,  -- AUX_ENTRY0/AUX_ENTRY255
  ⟨0x82, 1, 0x500, 32, 4, 0, 0, 0, 0xffffffff, 0, 0, 0, .data⟩,  -- AUX_RES0/AUX_RES31
  ⟨0x82, 1, 0x580, 32, 4, 1, 0, 0, 0xff1f, 0, 0, 0, .data⟩,  -- AUX_FLAGS0/AUX_FLAGS31
  ⟨0x84, 17, 0x40, 1, 4, 0x600, 0, 0xf3b, 0, 0, 0, 0, .control⟩,  -- PRE_CFG
  ⟨0x84, 17, 0x44, 1, 4, 0x100, 0, 0xffffffff, 0, 0, 0, 0, .control⟩,  -- PRE_SCALE
  ⟨0x84, 17, 0x48, 1, 4, 0, 0, 0xffffffff, 0, 0, 0, 0, .control⟩]  -- PRE_OFFSET

/-- Register headers of spec/06_sensing.md. -/
def RegMap.rows06b : List RegRow := [
  ⟨0x84, 17, 0x80, 1, 4, 0, 0, 0, 0xffffffff, 0, 0, 0, .control⟩,  -- PRE_CAL
  ⟨0x84, 17, 0x84, 1, 4, 0, 0, 0, 0xffffffff, 0, 0, 0, .data⟩,  -- PRE_MET
  ⟨0x84, 17, 0x88, 1, 4, 1, 0, 0, 0xffff003f, 0, 0, 0, .data⟩,  -- PRE_MET_FLAGS
  ⟨0x93, 1, 0xc0, 20, 4, 0, 0, 0, 0xffffffff, 0, 0, 0, .control⟩]  -- INTMON0/INTMON19

/-- Register headers of spec/07_feeds_busbar.md. -/
def RegMap.rows07 : List RegRow := [
  ⟨0x98, 1, 0x40, 1, 4, 0x1e850008, 0, 0xffff000c, 0, 0, 0, 0, .control⟩,  -- FEED_CFG
  ⟨0x98, 1, 0x44, 1, 4, 0, 0, 0, 0, 0, 0, 1, .control⟩,  -- FEED_PRIO
  ⟨0x98, 1, 0x48, 1, 4, 0xa258190, 0, 0xff3ff3ff, 0, 0, 0, 0, .control⟩,  -- FEED_WIN_A/FEED_WIN_B
  ⟨0x98, 1, 0x4c, 1, 4, 0xa258190, 0, 0xff3ff3ff, 0, 0, 0, 0, .control⟩,  -- FEED_WIN_A/FEED_WIN_B
  ⟨0x98, 1, 0x50, 1, 4, 0x19043202, 0, 0xffffffff, 0, 0, 0, 0, .control⟩,  -- FEED_TIME
  ⟨0x98, 1, 0x54, 1, 4, 0xa140032, 0, 0xffff03ff, 0, 0, 0, 0, .control⟩,  -- FEED_GATE
  ⟨0x98, 1, 0x58, 1, 4, 0x1e85300a, 0, 0xfffff0ff, 0, 0, 0, 0, .control⟩,  -- FEED_RETRY
  ⟨0x98, 1, 0x80, 1, 4, 0, 0, 0, 0xff077777, 0, 0, 0, .control⟩,  -- FEED_STATE
  ⟨0x98, 1, 0x84, 1, 4, 0, 0, 0, 0xffffffff, 0, 0, 0, .control⟩,  -- FEED_V_A/FEED_I_A/FEED_V_B/FEED_I_B/BUS_V
  ⟨0x98, 1, 0x88, 1, 4, 0, 0, 0, 0xffffffff, 0, 0, 0, .control⟩,  -- FEED_V_A/FEED_I_A/FEED_V_B/FEED_I_B/BUS_V
  ⟨0x98, 1, 0x8c, 1, 4, 0, 0, 0, 0xffffffff, 0, 0, 0, .control⟩,  -- FEED_V_A/FEED_I_A/FEED_V_B/FEED_I_B/BUS_V
  ⟨0x98, 1, 0x90, 1, 4, 0, 0, 0, 0xffffffff, 0, 0, 0, .control⟩,  -- FEED_V_A/FEED_I_A/FEED_V_B/FEED_I_B/BUS_V
  ⟨0x98, 1, 0x94, 1, 4, 0, 0, 0, 0xffffffff, 0, 0, 0, .control⟩,  -- FEED_V_A/FEED_I_A/FEED_V_B/FEED_I_B/BUS_V
  ⟨0x98, 1, 0x98, 1, 4, 0, 0, 0, 0xffffffff, 0, 0, 0, .control⟩,  -- FEED_XFER
  ⟨0x99, 1, 0x40, 4, 4, 0x640a000a, 0, 0xffff00ff, 0, 0, 0, 0, .control⟩,  -- HS_CFG0/HS_CFG3
  ⟨0x99, 1, 0x50, 4, 4, 0x7d0001f4, 0, 0xffffffff, 0, 0, 0, 0, .control⟩,  -- HS_SLOW0/HS_SLOW3
  ⟨0x99, 1, 0x80, 1, 4, 0, 0, 0, 0x73737373, 0, 0, 0, .control⟩,  -- HS_STATE
  ⟨0x99, 1, 0x90, 4, 4, 0, 0, 0, 0xffffffff, 0, 0, 0, .control⟩,  -- HS_ACC0/HS_ACC3
  ⟨0x99, 1, 0xa0, 1, 4, 0, 0, 0, 0xffffffff, 0, 0, 0, .control⟩]  -- HS_TRIPS

/-- Register headers of spec/08_battery_shelf.md. -/
def RegMap.rows08 : List RegRow := [
  ⟨0x9c, 4, 0x40, 1, 4, 0x10584080, 0xff7f7fff, 0, 0, 0, 0, 0, .data⟩,  -- BBU_CFG
  ⟨0x9c, 4, 0x44, 1, 4, 0x190001f4, 0xffffffff, 0, 0, 0, 0, 0, .data⟩,  -- BBU_SCALE
  ⟨0x9c, 4, 0x48, 1, 4, 0x1f4, 0xffff, 0, 0, 0, 0, 0, .data⟩,  -- BBU_RATED
  ⟨0x9c, 4, 0x4c, 1, 4, 0xd6b19064, 0xffffffff, 0, 0, 0, 0, 0, .data⟩,  -- BBU_THERM
  ⟨0x9c, 4, 0x50, 1, 4, 0x640a3c, 0xffffffff, 0, 0, 0, 0, 0, .data⟩,  -- BBU_CHG
  ⟨0x9c, 4, 0x54, 1, 4, 0x601400, 0xffffff00, 0, 0, 0, 0, 0, .data⟩,  -- BBU_DIS
  ⟨0x9c, 4, 0x58, 1, 4, 0x8143c00, 0xffffff00, 0, 0, 0, 0, 0, .data⟩,  -- BBU_EST
  ⟨0x9c, 1, 0xc0, 8, 4, 0x1f4, 0x3ffff, 0, 0, 0, 0, 0, .data⟩,  -- COMPAT_ID0/COMPAT_ID7
  ⟨0x9c, 1, 0xe0, 1, 4, 0, 0, 0, 0, 0, 0, 0xf, .data⟩,  -- BBU_COMPAT
  ⟨0x9c, 4, 0x80, 1, 4, 0xff000000, 0, 0, 0xff00ffc7, 0, 0, 0, .data⟩,  -- BBU_STATE
  ⟨0x9c, 4, 0x84, 1, 4, 0, 0, 0, 0xffffffff, 0, 0, 0, .control⟩,  -- BBU_Q/BBU_C/BBU_RESERVE
  ⟨0x9c, 4, 0x88, 1, 4, 0, 0, 0, 0xffffffff, 0, 0, 0, .control⟩,  -- BBU_Q/BBU_C/BBU_RESERVE
  ⟨0x9c, 4, 0x8c, 1, 4, 0, 0, 0, 0xffffffff, 0, 0, 0, .control⟩,  -- BBU_Q/BBU_C/BBU_RESERVE
  ⟨0x9c, 4, 0x90, 1, 4, 0, 0, 0, 0xffffffff, 0, 0, 0, .data⟩,  -- BBU_RUNTIME/BBU_TEMP/BBU_VPACK/BBU_I
  ⟨0x9c, 4, 0x94, 1, 4, 0, 0, 0, 0xffffffff, 0, 0, 0, .data⟩,  -- BBU_RUNTIME/BBU_TEMP/BBU_VPACK/BBU_I
  ⟨0x9c, 4, 0x98, 1, 4, 0, 0, 0, 0xffffffff, 0, 0, 0, .data⟩,  -- BBU_RUNTIME/BBU_TEMP/BBU_VPACK/BBU_I
  ⟨0x9c, 4, 0x9c, 1, 4, 0, 0, 0, 0xffffffff, 0, 0, 0, .data⟩,  -- BBU_RUNTIME/BBU_TEMP/BBU_VPACK/BBU_I
  ⟨0x9c, 4, 0xa0, 1, 4, 0, 0, 0, 0xffff0fff, 0, 0, 0, .data⟩,  -- BBU_LEARN
  ⟨0x9c, 1, 0x800, 80, 4, 0, 0, 0, 0xffffffff, 0, 0, 0, .data⟩]  -- BBU_CLASS

/-- Register headers of spec/09_twin_operation.md. -/
def RegMap.rows09a : List RegRow := [
  ⟨0xa0, 1, 0x40, 1, 4, 0xe4e0401, 0xffffff01, 0, 0, 0, 0, 0, .management⟩,  -- TWIN_CFG
  ⟨0xa0, 1, 0x44, 1, 4, 0x1e85, 0xffff, 0, 0, 0, 0, 0, .management⟩,  -- TWIN_RETRY
  ⟨0xa0, 1, 0x48, 1, 4, 0x45, 0, 0, 0x7f0777, 0, 0, 0, .control⟩,  -- TWIN_STATE
  ⟨0xa0, 1, 0x4c, 1, 4, 0, 0, 0, 0xffffffff, 0, 0, 0, .control⟩,  -- TWIN_COUNTS
  ⟨0xa0, 1, 0x50, 1, 4, 0, 0, 0, 0xffffffff, 0, 0, 0, .control⟩,  -- TWIN_QUAR
  ⟨0xa0, 1, 0x54, 1, 4, 0, 0, 0, 0xf7ffffff, 0, 0, 0, .control⟩,  -- LAST_DISAGREE
  ⟨0xa0, 1, 0x58, 1, 4, 0, 0, 0, 0xffffffff, 0, 0, 0, .control⟩,  -- HB_MISS
  ⟨0xa0, 1, 0x5c, 1, 4, 0, 0, 0, 0xffffffff, 0, 0, 0, .control⟩,  -- SELF_ERRS
  ⟨0xa0, 1, 0x60, 1, 4, 0, 0, 0, 0xffffffff, 0, 0, 0, .control⟩,  -- RESYNC_LAST
  ⟨0xa1, 1, 0x40, 1, 4, 0, 0, 0, 0xffffffff, 0, 0, 0, .management⟩,  -- JRN_NEXT/JRN_BOOT
  ⟨0xa1, 1, 0x44, 1, 4, 0, 0, 0, 0xffffffff, 0, 0, 0, .management⟩,  -- JRN_NEXT/JRN_BOOT
  ⟨0xa1, 1, 0x48, 1, 4, 0, 0, 0, 0x7f, 0, 0, 0, .management⟩,  -- COMP_WR
  ⟨0xa1, 1, 0x4c, 1, 4, 0, 0x7f, 0, 0, 0, 0, 0, .management⟩,  -- COMP_RD
  ⟨0xa1, 1, 0x50, 1, 4, 0, 0, 0, 0xffff, 0, 0, 0, .management⟩,  -- COMP_FILL
  ⟨0xa1, 1, 0x54, 1, 4, 0, 0x1f, 0, 0, 0, 0, 0, .management⟩,  -- SRC_SEL
  ⟨0xa1, 1, 0x58, 1, 4, 0, 0, 0, 0xffffffff, 0, 0, 0, .management⟩,  -- SRC_INFO
  ⟨0xa1, 1, 0x5c, 1, 4, 0, 0, 0, 0x1ff, 0, 0, 0, .management⟩,  -- SRC_FLAGS
  ⟨0xa1, 1, 0x60, 1, 4, 0, 0, 0, 0xffffffff, 0, 0, 0, .management⟩,  -- JRN_COUNTS
  ⟨0xa1, 1, 0x64, 1, 4, 0, 0, 0, 0xffffff, 0, 0, 0, .management⟩,  -- JRN_REFUSED
  ⟨0xa1, 1, 0x68, 1, 4, 0, 0, 0, 0xffffffff, 0, 0, 0, .management⟩]  -- JRN_RESET

/-- Register headers of spec/09_twin_operation.md. -/
def RegMap.rows09b : List RegRow := [
  ⟨0xa1, 1, 0x800, 512, 4, 0, 0, 0, 0xffffffff, 0, 0, 0, .management⟩]  -- COMP_ENTRY0/COMP_ENTRY127, four words each

/-- Register headers of spec/10_fiddlehead_supervision.md. -/
def RegMap.rows10 : List RegRow := [
  ⟨0xa4, 1, 0x40, 1, 4, 0x400003e8, 0, 0xc000ffff, 0, 0, 0, 0, .control⟩,  -- FH_CFG
  ⟨0xa4, 1, 0x80, 1, 4, 0, 0, 0, 0x3f007f, 0, 0, 0, .control⟩,  -- FH_STATE
  ⟨0xa4, 1, 0x84, 1, 4, 0, 0, 0, 0xffffffff, 0, 0, 0, .control⟩,  -- FH_GOOD/FH_FAILED
  ⟨0xa4, 1, 0x88, 1, 4, 0, 0, 0, 0, 0, 0xffffffff, 0, .control⟩,  -- FH_GOOD/FH_FAILED
  ⟨0xa4, 1, 0x100, 32, 0x20, 0x2000ffff, 0, 0xe000ffff, 0, 0, 0, 0, .control⟩,  -- MBR_CFG
  ⟨0xa4, 1, 0x104, 32, 0x20, 0, 0, 0x9f9f9f9f, 0, 0, 0, 0, .control⟩,  -- MBR_PARENTS
  ⟨0xa4, 1, 0x108, 32, 0x20, 0, 0, 0xffffffff, 0, 0, 0, 0, .control⟩,  -- MBR_DELAY
  ⟨0xa4, 1, 0x10c, 32, 0x20, 0xffff00c8, 0, 0xffff0fff, 0, 0, 0, 0, .control⟩,  -- MBR_QUAL
  ⟨0xa4, 1, 0x110, 32, 0x20, 0x3f000a, 0, 0, 0xff3f00ff, 0, 0, 0, .control⟩,  -- MBR_STATE
  ⟨0xa5, 1, 0x80, 1, 4, 0, 0, 0, 0xffff000f, 0, 0, 0, .control⟩,  -- SUP_STATE
  ⟨0xa5, 1, 0x84, 1, 4, 0, 0, 0, 0x1ff, 0, 0, 0, .control⟩,  -- RST_CAUSE
  ⟨0xa5, 1, 0x88, 1, 4, 0, 0, 0, 7, 0, 0, 0, .control⟩]  -- BOOT_STATE

/-- Register headers of spec/11_heat_budget.md. -/
def RegMap.rows11a : List RegRow := [
  ⟨0xa8, 1, 0x40, 1, 4, 0x8c73, 0, 0xffff, 0, 0, 0, 0, .control⟩,  -- THERM_LIM_TWIN/THERM_LIM_S/THERM_LIM_STAGE/THERM_LIM_BOARD
  ⟨0xa8, 1, 0x44, 1, 4, 0x8c73, 0, 0xffff, 0, 0, 0, 0, .control⟩,  -- THERM_LIM_TWIN/THERM_LIM_S/THERM_LIM_STAGE/THERM_LIM_BOARD
  ⟨0xa8, 1, 0x48, 1, 4, 0x826e, 0, 0xffff, 0, 0, 0, 0, .control⟩,  -- THERM_LIM_TWIN/THERM_LIM_S/THERM_LIM_STAGE/THERM_LIM_BOARD
  ⟨0xa8, 1, 0x4c, 1, 4, 0x6455, 0, 0xffff, 0, 0, 0, 0, .control⟩,  -- THERM_LIM_TWIN/THERM_LIM_S/THERM_LIM_STAGE/THERM_LIM_BOARD
  ⟨0xa8, 1, 0x50, 1, 4, 0x140a08, 0, 0xffffff, 0, 0, 0, 0, .control⟩,  -- THERM_RATE
  ⟨0xa8, 1, 0x54, 1, 4, 0xa03051e, 0, 0xffffffff, 0, 0, 0, 0, .control⟩,  -- THERM_BUDGET
  ⟨0xa8, 1, 0x58, 1, 4, 0, 0, 0x9f9f9f9f, 0, 0, 0, 0, .control⟩,  -- THERM_BOARD0/THERM_BOARD1
  ⟨0xa8, 1, 0x5c, 1, 4, 0, 0, 0x9f9f9f9f, 0, 0, 0, 0, .control⟩,  -- THERM_BOARD0/THERM_BOARD1
  ⟨0xa8, 1, 0x60, 1, 4, 0xd6b19064, 0, 0xffffffff, 0, 0, 0, 0, .control⟩,  -- THERM_NTC
  ⟨0xa8, 1, 0x64, 1, 4, 0x30e, 0, 0xffff, 0, 0, 0, 0, .control⟩,  -- THERM_HOLD
  ⟨0xa8, 1, 0x80, 1, 4, 0, 0, 0, 0xff0007f0, 0, 0, 0, .control⟩,  -- THERM_STATE
  ⟨0xa8, 1, 0x84, 1, 4, 0, 0, 0, 0xffffffff, 0, 0, 0, .control⟩,  -- DIE_TMAX/DIE_RATE_MAX/STAGE_TMAX
  ⟨0xa8, 1, 0x88, 1, 4, 0, 0, 0, 0xffffffff, 0, 0, 0, .control⟩,  -- DIE_TMAX/DIE_RATE_MAX/STAGE_TMAX
  ⟨0xa8, 1, 0x8c, 1, 4, 0, 0, 0, 0xffffffff, 0, 0, 0, .control⟩,  -- DIE_TMAX/DIE_RATE_MAX/STAGE_TMAX
  ⟨0xa8, 1, 0xc0, 10, 4, 0, 0, 0, 0xffffffff, 0, 0, 0, .control⟩,  -- TEMP_A0/TEMP_A9/TEMP_B0/TEMP_B9
  ⟨0xa8, 1, 0xf0, 10, 4, 0, 0, 0, 0xffffffff, 0, 0, 0, .control⟩,  -- TEMP_A0/TEMP_A9/TEMP_B0/TEMP_B9
  ⟨0xa8, 1, 0x120, 1, 4, 0, 0, 0, 0x7fffffff, 0, 0, 0, .control⟩,  -- SUSPECT_DIE
  ⟨0xa8, 1, 0x124, 1, 4, 0, 0, 0, 0xffffffff, 0, 0, 0, .control⟩,  -- STAGE_SUSPECT_LO/HI/STAGE_HOLD_LO/HI/STAGE_SHUT_LO/HI
  ⟨0xa8, 1, 0x128, 1, 4, 0, 0, 0, 0xffffffff, 0, 0, 0, .control⟩,  -- STAGE_SUSPECT_LO/HI/STAGE_HOLD_LO/HI/STAGE_SHUT_LO/HI
  ⟨0xa8, 1, 0x12c, 1, 4, 0, 0, 0, 0xffffffff, 0, 0, 0, .control⟩]  -- STAGE_SUSPECT_LO/HI/STAGE_HOLD_LO/HI/STAGE_SHUT_LO/HI

/-- Register headers of spec/11_heat_budget.md. -/
def RegMap.rows11b : List RegRow := [
  ⟨0xa8, 1, 0x130, 1, 4, 0, 0, 0, 0xffffffff, 0, 0, 0, .control⟩,  -- STAGE_SUSPECT_LO/HI/STAGE_HOLD_LO/HI/STAGE_SHUT_LO/HI
  ⟨0xa8, 1, 0x134, 1, 4, 0, 0, 0, 0, 0, 0xffffffff, 0, .control⟩,  -- STAGE_SUSPECT_LO/HI/STAGE_HOLD_LO/HI/STAGE_SHUT_LO/HI
  ⟨0xa8, 1, 0x138, 1, 4, 0, 0, 0, 0, 0, 0xffffffff, 0, .control⟩,  -- STAGE_SUSPECT_LO/HI/STAGE_HOLD_LO/HI/STAGE_SHUT_LO/HI
  ⟨0xa8, 1, 0x140, 8, 4, 0, 0, 0, 0xffffffff, 0, 0, 0, .control⟩]  -- BOARD_TEMP0/BOARD_TEMP7

/-- Register headers of spec/12_nv_peat_crust.md. -/
def RegMap.rows12a : List RegRow := [
  ⟨0xb0, 1, 0x40, 1, 4, 0, 0, 0, 0x3fff0003, 0, 0, 0, .management⟩,  -- NV_STATE
  ⟨0xb0, 1, 0x44, 1, 4, 0, 0, 0, 0xffffffff, 0, 0, 0, .management⟩,  -- NV_COUNTS
  ⟨0xb0, 1, 0x48, 1, 4, 0, 0, 0, 0xffff3fff, 0, 0, 0, .management⟩,  -- NV_TIE
  ⟨0xb0, 1, 0x4c, 1, 4, 0, 0x7f, 0, 0, 0, 0, 0, .management⟩,  -- RING_SEL
  ⟨0xb0, 1, 0x50, 1, 4, 0, 0, 0, 0xffffffff, 0, 0, 0, .management⟩,  -- RING_INFO
  ⟨0xb0, 1, 0x54, 1, 4, 0, 0, 0, 0x13f, 0, 0, 0, .management⟩,  -- RING_INFO
  ⟨0xb1, 1, 0x40, 1, 4, 0x554e4c48, 0xffffffff, 0, 0, 0, 0, 0, .data⟩,  -- PEAT_CFG
  ⟨0xb1, 1, 0x44, 1, 4, 0x1e850007, 0xffff0707, 0, 0, 0, 0, 0, .data⟩,  -- PEAT_TRIG
  ⟨0xb1, 1, 0x48, 1, 4, 0, 0, 0, 0, 0xffff, 0, 0, .data⟩,  -- PEAT_CTRL
  ⟨0xb1, 1, 0x80, 1, 4, 0, 0, 0, 0xffffffff, 0, 0, 0, .data⟩,  -- PEAT_HEAD/PEAT_TAIL
  ⟨0xb1, 1, 0x84, 1, 4, 0, 0, 0, 0xffffffff, 0, 0, 0, .data⟩,  -- PEAT_HEAD/PEAT_TAIL
  ⟨0xb1, 1, 0x88, 1, 4, 0, 0, 0, 0xffffffff, 0, 0, 0, .data⟩,  -- PEAT_LOST
  ⟨0xb1, 1, 0x8c, 1, 4, 0, 0xffffffff, 0, 0, 0, 0, 0, .data⟩,  -- PEAT_RD
  ⟨0xb1, 1, 0x90, 1, 4, 0, 0, 0, 3, 0, 0, 0, .data⟩,  -- PEAT_RD_STATE
  ⟨0xb1, 1, 0x800, 128, 4, 0, 0, 0, 0xffffffff, 0, 0, 0, .data⟩,  -- PEAT_DATA
  ⟨0xb2, 1, 0x40, 1, 4, 0, 0x7f1f, 0, 0, 0, 0, 0, .management⟩,  -- CRUST_SEL
  ⟨0xb2, 1, 0x44, 1, 4, 0, 0, 0, 0xffffff07, 0, 0, 0, .management⟩,  -- CRUST_INFO
  ⟨0xb2, 1, 0x48, 1, 4, 0, 0, 0, 0xffff, 0, 0, 0, .management⟩,  -- CRUST_VOTE
  ⟨0xb2, 1, 0x100, 24, 4, 0, 0xffffffff, 0, 0, 0, 0, 0, .management⟩,  -- CRUST_STAGE
  ⟨0xb2, 1, 0x200, 24, 4, 0, 0, 0, 0xffffffff, 0, 0, 0, .management⟩]  -- CRUST_VALUE

/-- Register headers of spec/12_nv_peat_crust.md. -/
def RegMap.rows12b : List RegRow := [
  ⟨0xb2, 1, 0x300, 4, 4, 0, 0, 0, 0xffffffff, 0, 0, 0, .management⟩,  -- CRUST_AUDIT/CRUST_OLD/CRUST_NEW
  ⟨0xb2, 1, 0x400, 24, 4, 0, 0, 0, 0xffffffff, 0, 0, 0, .management⟩,  -- CRUST_AUDIT/CRUST_OLD/CRUST_NEW
  ⟨0xb2, 1, 0x500, 24, 4, 0, 0, 0, 0xffffffff, 0, 0, 0, .management⟩,  -- CRUST_AUDIT/CRUST_OLD/CRUST_NEW
  ⟨0xb2, 1, 0x600, 12, 4, 0, 0, 0, 0xffffffff, 0, 0, 0, .management⟩]  -- CRUST_VENDOR_HASH

/-- Register headers of spec/13_two_wire_ports.md. -/
def RegMap.rows13 : List RegRow := [
  ⟨0xb8, 2, 0x40, 1, 4, 0x8000, 0xff06, 0, 0x7f0000, 0, 0, 0, .management⟩,  -- TWT_CFG
  ⟨0xb8, 2, 0x44, 1, 4, 0, 0, 0, 0xff07ff00, 0, 0, 0, .management⟩,  -- TWT_STATE
  ⟨0xb8, 2, 0x48, 1, 4, 0, 0, 0, 0xffffffff, 0, 0, 0, .management⟩,  -- TWT_COUNTS
  ⟨0xba, 4, 0x40, 1, 4, 0xda000001, 0xff000007, 0, 0, 0, 0, 0, .management⟩,  -- TWC_CFG
  ⟨0xba, 4, 0x44, 1, 4, 0, 0, 0, 0xff7f01, 0, 0, 0, .management⟩,  -- TWC_STATE
  ⟨0xba, 4, 0x48, 1, 4, 0, 0, 0, 0xffffffff, 0, 0, 0, .management⟩,  -- TWC_COUNTS
  ⟨0xba, 4, 0x100, 16, 8, 1, 0xffff80ff, 0, 0, 0, 0, 0, .management⟩,  -- POLL_CFG0/POLL_CFG15
  ⟨0xba, 4, 0x104, 16, 8, 0, 0, 0, 0x80ffffff, 0, 0, 0, .data⟩,  -- POLL_RES0/POLL_RES15
  ⟨0xba, 1, 0x200, 12, 4, 0, 0x8000017f, 0, 0, 0, 0, 0, .management⟩]  -- RECT_ADDR0/RECT_ADDR11

/-- Register headers of spec/14_mieno_row.md. -/
def RegMap.rows14a : List RegRow := [
  ⟨0xc0, 1, 0x40, 1, 4, 1, 1, 0, 0, 0, 0, 0, .data⟩,  -- MIE_CFG
  ⟨0xc0, 1, 0x44, 1, 4, 0, 0, 0, 0x303ff, 0, 0, 0, .data⟩,  -- MIE_ID
  ⟨0xc0, 1, 0x48, 1, 4, 0, 0, 0, 0xc3ffc3ff, 0, 0, 0, .data⟩,  -- MIE_PORTS
  ⟨0xc0, 1, 0x4c, 1, 4, 0, 0, 0, 0xffffffff, 0, 0, 0, .data⟩,  -- MIE_DELAY
  ⟨0xc0, 1, 0x80, 1, 4, 0, 0, 0, 0xffffffff, 0, 0, 0, .data⟩,  -- MIE_COUNT0/MIE_COUNT2
  ⟨0xc0, 1, 0x84, 1, 4, 0, 0, 0, 0xffffffff, 0, 0, 0, .data⟩,  -- MIE_COUNT0/MIE_COUNT2
  ⟨0xc0, 1, 0x88, 1, 4, 0, 0, 0, 0xffffffff, 0, 0, 0, .data⟩,  -- MIE_COUNT0/MIE_COUNT2
  ⟨0xc0, 1, 0x100, 14, 4, 0, 0xffffffff, 0, 0, 0, 0, 0, .data⟩,  -- FAB_TX0/FAB_TX13
  ⟨0xc0, 1, 0x140, 1, 4, 0, 0, 0, 0, 0xffffffff, 0, 0, .data⟩,  -- FAB_GO
  ⟨0xc0, 1, 0x180, 1, 4, 0, 0, 0, 0xffffffff, 0, 0, 0, .data⟩,  -- FAB_RX0/FAB_RX1
  ⟨0xc0, 1, 0x184, 1, 4, 0, 0, 0, 0xffffffff, 0, 0, 0, .data⟩,  -- FAB_RX0/FAB_RX1
  ⟨0xc1, 1, 0x40, 1, 4, 0xfffff, 0xfffff, 0, 0, 0, 0, 0, .data⟩,  -- ROW_CFG
  ⟨0xc1, 1, 0x44, 1, 4, 0x80040, 0xffffff, 0, 0, 0, 0, 0, .data⟩,  -- ROW_ALLOC
  ⟨0xc1, 1, 0x48, 1, 4, 0, 0x800fffff, 0, 0, 0, 0, 0, .data⟩,  -- ROW_EXT
  ⟨0xc1, 1, 0x80, 1, 4, 0x20000, 0, 0, 0xffffff00, 0, 0, 0, .data⟩,  -- ROW_STATE
  ⟨0xc1, 1, 0x84, 1, 4, 0xffff0000, 0, 0, 0xffffffff, 0, 0, 0, .data⟩,  -- ROW_PUB
  ⟨0xc1, 1, 0x88, 1, 4, 0, 0, 0, 0xffffffff, 0, 0, 0, .data⟩,  -- ROW_MEMBERS
  ⟨0xc1, 1, 0x8c, 1, 4, 0, 0x3ff, 0, 0, 0, 0, 0, .data⟩,  -- MEMBER_SEL
  ⟨0xc1, 1, 0x90, 1, 4, 0, 0, 0, 0xffffffff, 0, 0, 0, .data⟩,  -- MEMBER_INFO
  ⟨0xc1, 1, 0x94, 1, 4, 0, 0, 0, 0xf000ffff, 0, 0, 0, .data⟩]  -- MEMBER_INFO

/-- Register headers of spec/14_mieno_row.md. -/
def RegMap.rows14b : List RegRow := [
  ⟨0xc1, 1, 0x98, 1, 4, 0, 0, 0, 0xffffffff, 0, 0, 0, .data⟩,  -- ROW_DIGEST
  ⟨0xc1, 1, 0x9c, 1, 4, 0, 0, 0, 0xffffffff, 0, 0, 0, .data⟩,  -- ROW_DIGEST
  ⟨0xc2, 1, 0x40, 1, 4, 0, 0, 0, 0xffffffff, 0, 0, 0, .data⟩,  -- TIME_NOW
  ⟨0xc2, 1, 0x44, 1, 4, 0, 0, 0, 0xffffffff, 0, 0, 0, .data⟩,  -- TIME_NOW
  ⟨0xc2, 1, 0x48, 1, 4, 0, 0, 0, 0xffcf0007, 0, 0, 0, .data⟩,  -- TIME_STATE
  ⟨0xc2, 1, 0x4c, 1, 4, 0, 0, 0, 0xffffffff, 0, 0, 0, .data⟩,  -- TIME_OFFSET
  ⟨0xc2, 1, 0x50, 1, 4, 0, 0xffffffff, 0, 0, 0, 0, 0, .data⟩,  -- TIME_SET
  ⟨0xc2, 1, 0x54, 1, 4, 0, 0xffffffff, 0, 0, 0, 0, 0, .data⟩,  -- TIME_SET
  ⟨0xc2, 1, 0x58, 1, 4, 0xe4e, 0xffff, 0, 0, 0, 0, 0, .data⟩,  -- TIME_CFG
  ⟨0xc2, 1, 0x5c, 1, 4, 0, 0, 0, 0, 0xffffffff, 0, 0, .data⟩]  -- TIME_GO

/-- Register headers of spec/15_dma.md. -/
def RegMap.rows15 : List RegRow := [
  ⟨0xc8, 1, 0x40, 1, 4, 0, 0xf, 0, 0, 0, 0, 0, .data⟩,  -- DMA_SWREQ
  ⟨0xc8, 1, 0x100, 15, 0x20, 0, 0xf3, 0, 0, 0, 0, 0, .data⟩,  -- CH_CFG0/CH_CFG14
  ⟨0xc8, 1, 0x2e0, 1, 0x20, 0, 0, 0, 0xf3, 0, 0, 0, .data⟩,  -- CH_CFG15, RO (R476)
  ⟨0xc8, 1, 0x104, 15, 0x20, 0, 0xffffffff, 0, 0, 0, 0, 0, .data⟩,  -- CH_HEAD0/CH_HEAD14
  ⟨0xc8, 1, 0x2e4, 1, 0x20, 0, 0, 0, 0xffffffff, 0, 0, 0, .data⟩,  -- CH_HEAD15, RO (R476)
  ⟨0xc8, 1, 0x108, 16, 0x20, 0, 0, 0, 0x3f0007, 0, 0, 0, .data⟩,  -- CH_STATE0/CH_STATE15
  ⟨0xc8, 1, 0x10c, 16, 0x20, 0, 0, 0, 0xffffffff, 0, 0, 0, .data⟩,  -- CH_DESC/CH_SRC/CH_DST/CH_REMAIN
  ⟨0xc8, 1, 0x110, 16, 0x20, 0, 0, 0, 0xffffffff, 0, 0, 0, .data⟩,  -- CH_DESC/CH_SRC/CH_DST/CH_REMAIN
  ⟨0xc8, 1, 0x114, 16, 0x20, 0, 0, 0, 0xffffffff, 0, 0, 0, .data⟩,  -- CH_DESC/CH_SRC/CH_DST/CH_REMAIN
  ⟨0xc8, 1, 0x118, 16, 0x20, 0, 0, 0, 0xffffffff, 0, 0, 0, .data⟩,  -- CH_DESC/CH_SRC/CH_DST/CH_REMAIN
  ⟨0xc8, 1, 0x11c, 16, 0x20, 0, 0, 0, 0xffffffff, 0, 0, 0, .data⟩]  -- CH_COUNTS0/CH_COUNTS15

/-- Register headers of spec/17_spores.md. -/
def RegMap.rows17 : List RegRow := [
  ⟨0xd0, 1, 0x40, 1, 4, 0x3c0258, 0xffffff, 0, 0, 0, 0, 0, .management⟩,  -- UPD_CFG
  ⟨0xd0, 1, 0x80, 1, 4, 0, 0, 0, 0xffff003f, 0, 0, 0, .management⟩,  -- UPD_STATE
  ⟨0xd0, 1, 0x84, 1, 4, 0, 0, 0, 0xffff, 0, 0, 0, .management⟩,  -- UPD_OWNER
  ⟨0xd0, 1, 0x88, 1, 4, 0, 0, 0, 0xfffff, 0, 0, 0, .management⟩,  -- UPD_FILL
  ⟨0xd0, 1, 0x8c, 1, 4, 0, 0, 0, 0xffffffff, 0, 0, 0, .management⟩,  -- UPD_TIMER
  ⟨0xd0, 1, 0x90, 1, 4, 0, 0, 0, 0xffff, 0, 0, 0, .management⟩,  -- UPD_RESULT
  ⟨0xd0, 1, 0xc0, 1, 4, 0, 0xffff, 0, 0, 0, 0, 0, .management⟩,  -- CHUNK_SESS/CHUNK_OFF
  ⟨0xd0, 1, 0xc4, 1, 4, 0, 0x7ffff, 0, 0, 0, 0, 0, .management⟩,  -- CHUNK_SESS/CHUNK_OFF
  ⟨0xd0, 1, 0xc8, 1, 4, 0, 0, 0, 0, 0x800000ff, 0, 0, .management⟩,  -- CHUNK_CTL
  ⟨0xd0, 1, 0xcc, 1, 4, 0, 0, 0, 0xff, 0, 0, 0, .management⟩,  -- CHUNK_ST
  ⟨0xd0, 1, 0x400, 62, 4, 0, 0xffffffff, 0, 0, 0, 0, 0, .management⟩,  -- CHUNK_DATA
  ⟨0xd1, 1, 0x40, 1, 4, 0, 0, 0, 0x1ffff, 0, 0, 0, .management⟩,  -- KEY_EPOCH
  ⟨0xd1, 1, 0x44, 1, 4, 0, 0, 0, 0xffffffff, 0, 0, 0, .management⟩,  -- FW_FLOOR/IMAGE_FLOOR
  ⟨0xd1, 1, 0x48, 1, 4, 0, 0, 0, 0xffffffff, 0, 0, 0, .management⟩,  -- FW_FLOOR/IMAGE_FLOOR
  ⟨0xd1, 1, 0x100, 24, 4, 0, 0, 0, 0xffffffff, 0, 0, 0, .management⟩]  -- OWNER_KEY

/-- Register headers of spec/18_register_pages.md. -/
def RegMap.rows18 : List RegRow := [
  ⟨0, 1, 0x40, 1, 4, 0x406453b1, 0, 0, 0xffffffff, 0, 0, 0, .management⟩,  -- DEV_ID
  ⟨0, 1, 0x44, 1, 4, 0, 0, 0, 0xffffffff, 0, 0, 0, .management⟩,  -- DEV_SERIAL_LO/DEV_SERIAL_HI
  ⟨0, 1, 0x48, 1, 4, 0, 0, 0, 0xffffffff, 0, 0, 0, .management⟩,  -- DEV_SERIAL_LO/DEV_SERIAL_HI
  ⟨0, 1, 0x4c, 1, 4, 0, 0, 0, 0xffffffff, 0, 0, 0, .management⟩,  -- FW_VERSION
  ⟨0, 1, 0x50, 1, 4, 0, 0, 0, 0xffffffff, 0, 0, 0, .management⟩,  -- SNAP_COUNT
  ⟨0, 1, 0x54, 1, 4, 0, 0, 0, 0x7707, 0, 0, 0, .management⟩,  -- GLB_PINS
  ⟨0, 1, 0x58, 1, 4, 0, 0x80000000, 0, 0x1ffff, 0, 0, 0, .management⟩,  -- SNAP_HOLD0/SNAP_HOLD1
  ⟨0, 1, 0x5c, 1, 4, 0, 0x80000000, 0, 0x1ffff, 0, 0, 0, .management⟩,  -- SNAP_HOLD0/SNAP_HOLD1
  ⟨0, 1, 0x60, 8, 4, 0, 0, 0, 0xffffffff, 0, 0, 0, .management⟩,  -- FAULT_SUM0/FAULT_SUM7
  ⟨0, 1, 0x80, 4, 4, 0, 0xffffffff, 0, 0, 0, 0, 0, .management⟩]  -- SCRATCH0/SCRATCH3
/-- The section registers of R156: VS0 to VS7 at 0x200 and FS0 to FS3 at 0x300; the eighth word of a group is CTL. -/
def RegMap.rows04s : List RegRow := [
  ⟨0x28, 4, 0x21c, 8, 0x20, 0, 0, 0x8000001f, 0, 0, 0, 0, .control⟩,
  ⟨0x28, 4, 0x31c, 4, 0x20, 0, 0, 0x8000001f, 0, 0, 0, 0, .control⟩,
  ⟨0x28, 4, 0x200, 64, 4, 0, 0, 0xffffffff, 0, 0, 0, 0, .control⟩,
  ⟨0x28, 4, 0x300, 32, 4, 0, 0, 0xffffffff, 0, 0, 0, 0, .control⟩]

/-- The register headers among which those of a page are found. -/
def RegMap.rowsFor (pg : Nat) : List RegRow :=
  if pg = 0 then RegMap.rows18
  else if pg < 0x20 then RegMap.rows02
  else if pg < 0x28 then RegMap.rows04a
  else if pg < 0x2C then RegMap.rows03a ++ RegMap.rows04a ++ RegMap.rows04s
  else if pg < 0x74 then RegMap.rows03a ++ RegMap.rows03b
  else if pg < 0x80 then RegMap.rows05a ++ RegMap.rows05b
  else if pg < 0x98 then RegMap.rows06a ++ RegMap.rows06b
  else if pg < 0x9C then RegMap.rows07
  else if pg < 0xA0 then RegMap.rows08
  else if pg < 0xA4 then RegMap.rows09a ++ RegMap.rows09b
  else if pg < 0xA8 then RegMap.rows10
  else if pg < 0xB0 then RegMap.rows11a ++ RegMap.rows11b
  else if pg < 0xB8 then RegMap.rows12a ++ RegMap.rows12b
  else if pg < 0xC0 then RegMap.rows13
  else if pg < 0xC8 then RegMap.rows14a ++ RegMap.rows14b
  else if pg < 0xD0 then RegMap.rows15
  else if pg < 0xE0 then RegMap.rows17
  else RegMap.rows04a ++ RegMap.rows04b

/-- Whether the header row `r` names the register at a page and offset. -/
def RegRow.covers (r : RegRow) (pg off : Nat) : Bool :=
  decide (r.pg ≤ pg) && decide (pg < r.pg + r.npg) && decide (r.off ≤ off) &&
    decide ((off - r.off) % r.stride = 0) && decide ((off - r.off) / r.stride < r.cnt)

/-- The slot-table window registers of R73: read-only entry words in pages 0x010 to 0x01F and at 0x800 of page 0x002. -/
def inSlotWindow (pg off : Nat) : Bool :=
  (decide (0x10 ≤ pg) && decide (pg < 0x20) && decide (0x40 ≤ off)) ||
  (decide (pg = 2) && decide (0x800 ≤ off) && decide (off < 0xC00))

/-- The header row of the register at a page and offset, if there is one. -/
def regRow (pg off : Nat) : Option RegRow :=
  match pageRow pg with
  | none => none
  | some p =>
    if p.ty = 0x04 ∧ pg ≠ 0x010 ∧ off ≠ 0 ∧ off < 0x40 then none
    else if off < 0x40 then commonRow pg p.plane off
    else if inSlotWindow pg off then
      if off % 4 = 0 then some ⟨pg, 1, off, 1, 4, 0, 0, 0, 0xFFFFFFFF, 0, 0, 0, .management⟩ else none
    else (RegMap.rowsFor pg).find? fun r => r.covers pg off

/-- The value at reset of the writable fields of a register, where it differs within one header: BBU_CFG by module
(spec/08), MBR_CFG and MBR_QUAL by member (spec/10). -/
def resetOf (pg off : Nat) : Nat :=
  if 0x9C ≤ pg ∧ pg < 0xA0 ∧ off = 0x40 then 0x10584080 + (pg - 0x9C) * 0x00010421
  else if pg = 0xA4 ∧ 0x100 ≤ off ∧ off < 0x500 then
    let i := (off - 0x100) / 0x20
    let w := (off - 0x100) % 0x20
    if w = 0 then (if i = 4 ∨ i = 5 ∨ (22 ≤ i ∧ i ≤ 25) then 0x2000FFFF else 0x20000000)
    else if w = 12 then (if 22 ≤ i ∧ i ≤ 25 then 0xFFFF00C8 else 0x01F400C8)
    else ((regRow pg off).map RegRow.rst).getD 0
  else ((regRow pg off).map RegRow.rst).getD 0

/-- Whether the RW fields of a register are deferred to the next frond boundary (R566): the block registers of the pages
that R196, R292, R324 and R459 name. -/
def deferredPage (pg off : Nat) : Bool :=
  decide (0x40 ≤ off) &&
    (decide (pg = 0x75) || (decide (0x9C ≤ pg) && decide (pg < 0xA0)) || decide (pg = 0xA0) || decide (pg = 0xA1) ||
      (decide (0xC0 ≤ pg) && decide (pg ≤ 0xC2)))


/-- The range that a field description states: the registers (as in `RegRow`), the field's bits, and the limits. -/
structure RangeRow where
  pg : Nat
  npg : Nat
  off : Nat
  cnt : Nat
  stride : Nat
  hi : Nat
  lo : Nat
  min : Nat
  max : Nat
deriving DecidableEq, Repr

/-- Ranges that the field descriptions state. -/
def RegMap.rangesa : List RangeRow := [
  ⟨0x28, 4, 0x40, 1, 4, 14, 8, 2, 64⟩,  -- RAIL_CFG
  ⟨0x28, 4, 0x48, 1, 4, 27, 20, 8, 255⟩,  -- RAIL_PWM
  ⟨0x28, 4, 0x48, 1, 4, 19, 12, 8, 255⟩,  -- RAIL_PWM
  ⟨0x28, 4, 0x48, 1, 4, 11, 0, 667, 4000⟩,  -- RAIL_PWM
  ⟨0x28, 4, 0x4c, 1, 4, 14, 8, 0, 64⟩,  -- RAIL_XP
  ⟨0x28, 4, 0x4c, 1, 4, 7, 0, 8, 255⟩,  -- RAIL_XP
  ⟨0x28, 4, 0x50, 1, 4, 9, 0, 0, 500⟩,  -- RAIL_LL_SLEW
  ⟨0x28, 4, 0x54, 1, 4, 31, 20, 1, 4095⟩,  -- RAIL_SHED
  ⟨0x28, 4, 0x58, 1, 4, 31, 16, 1, 65535⟩,  -- RAIL_PROT
  ⟨0x28, 4, 0x5c, 1, 4, 23, 16, 40, 255⟩,  -- RAIL_WIN
  ⟨0x28, 4, 0x60, 1, 4, 15, 0, 1, 65535⟩,  -- RAIL_RETRY
  ⟨0x30, 64, 0x40, 1, 4, 23, 16, 10, 200⟩,  -- PH_CFG
  ⟨0x30, 64, 0x40, 1, 4, 15, 8, 20, 240⟩,  -- PH_CFG
  ⟨0x30, 64, 0x44, 1, 4, 15, 0, 1, 65535⟩,  -- PH_OVL_TICKS
  ⟨0xe0, 1, 0x40, 1, 4, 23, 16, 1, 255⟩,  -- INJ_CFG
  ⟨0xe0, 1, 0x80, 1, 4, 7, 4, 0, 8⟩,  -- CAP_CFG
  ⟨0x74, 1, 0x40, 1, 4, 23, 16, 1, 255⟩,  -- ADM_CFG
  ⟨0x74, 1, 0x40, 1, 4, 2, 0, 0, 4⟩,  -- ADM_CFG
  ⟨0x74, 1, 0x44, 1, 4, 7, 0, 1, 255⟩,  -- ADM_LIMITS
  ⟨0x74, 1, 0x48, 1, 4, 15, 8, 1, 255⟩,  -- ADM_UNANN
  ⟨0x74, 1, 0x48, 1, 4, 7, 0, 1, 255⟩,  -- ADM_UNANN
  ⟨0x74, 1, 0x4c, 1, 4, 23, 8, 1, 65535⟩,  -- ADM_TIMING
  ⟨0x74, 1, 0x4c, 1, 4, 7, 0, 1, 255⟩,  -- ADM_TIMING
  ⟨0x75, 1, 0x40, 1, 4, 15, 0, 1, 4000⟩,  -- LDG_SLEW
  ⟨0x75, 1, 0x44, 1, 4, 15, 0, 1, 65535⟩]  -- LDG_BUS

/-- Ranges that the field descriptions state. -/
def RegMap.rangesb : List RangeRow := [
  ⟨0x75, 1, 0x48, 1, 4, 23, 16, 100, 200⟩,  -- LDG_RECT
  ⟨0x75, 1, 0x4c, 1, 4, 31, 16, 1, 65535⟩,  -- LDG_LEARN
  ⟨0x75, 1, 0x4c, 1, 4, 15, 0, 1, 65535⟩,  -- LDG_LEARN
  ⟨0x75, 1, 0x50, 1, 4, 7, 0, 1, 255⟩,  -- LDG_LEARN_MIN
  ⟨0x78, 1, 0x40, 16, 4, 15, 8, 1, 127⟩,  -- CAP_PORT0/CAP_PORT15
  ⟨0x78, 1, 0x88, 1, 4, 15, 8, 1, 255⟩,  -- CAP_TIMING
  ⟨0x78, 1, 0x88, 1, 4, 7, 0, 1, 255⟩,  -- CAP_TIMING
  ⟨0x80, 1, 0x40, 1, 4, 10, 0, 100, 2000⟩,  -- SENS_IMON
  ⟨0x80, 1, 0x44, 1, 4, 31, 22, 50, 1023⟩,  -- SENS_TEMP
  ⟨0x80, 1, 0x44, 1, 4, 10, 0, 100, 2000⟩,  -- SENS_TEMP
  ⟨0x80, 1, 0x48, 1, 4, 15, 8, 1, 255⟩,  -- SENS_CAL
  ⟨0x81, 1, 0x40, 1, 4, 15, 8, 1, 255⟩,  -- REF_CFG
  ⟨0x82, 1, 0x40, 1, 4, 31, 24, 1, 255⟩,  -- AUX_CFG
  ⟨0x82, 1, 0x40, 1, 4, 23, 16, 1, 255⟩,  -- AUX_CFG
  ⟨0x82, 1, 0x40, 1, 4, 8, 0, 0, 256⟩,  -- AUX_CFG
  ⟨0x98, 1, 0x40, 1, 4, 31, 16, 1, 65535⟩,  -- FEED_CFG
  ⟨0x98, 1, 0x48, 1, 4, 31, 24, 1, 50⟩,  -- FEED_WIN_A/FEED_WIN_B
  ⟨0x98, 1, 0x4c, 1, 4, 31, 24, 1, 50⟩,  -- FEED_WIN_A/FEED_WIN_B
  ⟨0x98, 1, 0x48, 1, 4, 21, 12, 410, 630⟩,  -- FEED_WIN_A/FEED_WIN_B
  ⟨0x98, 1, 0x4c, 1, 4, 21, 12, 410, 630⟩,  -- FEED_WIN_A/FEED_WIN_B
  ⟨0x98, 1, 0x48, 1, 4, 9, 0, 300, 590⟩,  -- FEED_WIN_A/FEED_WIN_B
  ⟨0x98, 1, 0x4c, 1, 4, 9, 0, 300, 590⟩,  -- FEED_WIN_A/FEED_WIN_B
  ⟨0x98, 1, 0x50, 1, 4, 31, 22, 1, 1000⟩,  -- FEED_TIME
  ⟨0x98, 1, 0x50, 1, 4, 21, 15, 2, 100⟩,  -- FEED_TIME
  ⟨0x98, 1, 0x50, 1, 4, 14, 8, 1, 127⟩]  -- FEED_TIME

/-- Ranges that the field descriptions state. -/
def RegMap.rangesc : List RangeRow := [
  ⟨0x98, 1, 0x50, 1, 4, 7, 0, 1, 255⟩,  -- FEED_TIME
  ⟨0x98, 1, 0x54, 1, 4, 31, 24, 1, 255⟩,  -- FEED_GATE
  ⟨0x98, 1, 0x54, 1, 4, 23, 16, 1, 100⟩,  -- FEED_GATE
  ⟨0x98, 1, 0x54, 1, 4, 9, 0, 1, 1000⟩,  -- FEED_GATE
  ⟨0x98, 1, 0x58, 1, 4, 31, 16, 1, 65535⟩,  -- FEED_RETRY
  ⟨0x98, 1, 0x58, 1, 4, 7, 0, 2, 100⟩,  -- FEED_RETRY
  ⟨0x99, 1, 0x40, 4, 4, 31, 24, 5, 250⟩,  -- HS_CFG0/HS_CFG3
  ⟨0x99, 1, 0x40, 4, 4, 23, 16, 1, 255⟩,  -- HS_CFG0/HS_CFG3
  ⟨0x99, 1, 0x40, 4, 4, 7, 0, 1, 255⟩,  -- HS_CFG0/HS_CFG3
  ⟨0x99, 1, 0x50, 4, 4, 31, 16, 8, 65535⟩,  -- HS_SLOW0/HS_SLOW3
  ⟨0x99, 1, 0x50, 4, 4, 15, 0, 1, 65535⟩,  -- HS_SLOW0/HS_SLOW3
  ⟨0x9c, 4, 0x40, 1, 4, 28, 24, 1, 31⟩,  -- BBU_CFG
  ⟨0x9c, 4, 0x48, 1, 4, 15, 0, 1, 19400⟩,  -- BBU_RATED
  ⟨0x9c, 4, 0x4c, 1, 4, 31, 20, 2000, 4095⟩,  -- BBU_THERM
  ⟨0x9c, 4, 0x4c, 1, 4, 19, 10, 1, 1023⟩,  -- BBU_THERM
  ⟨0x9c, 4, 0x4c, 1, 4, 9, 0, 1, 1023⟩,  -- BBU_THERM
  ⟨0x9c, 4, 0x50, 1, 4, 15, 8, 1, 255⟩,  -- BBU_CHG
  ⟨0x9c, 4, 0x50, 1, 4, 7, 0, 1, 255⟩,  -- BBU_CHG
  ⟨0x9c, 4, 0x54, 1, 4, 15, 8, 0, 200⟩,  -- BBU_DIS
  ⟨0x9c, 4, 0x58, 1, 4, 23, 16, 1, 255⟩,  -- BBU_EST
  ⟨0x9c, 4, 0x58, 1, 4, 15, 8, 1, 255⟩,  -- BBU_EST
  ⟨0x9c, 1, 0xc0, 8, 4, 15, 0, 1, 19400⟩,  -- COMPAT_ID0/COMPAT_ID7
  ⟨0xa0, 1, 0x40, 1, 4, 31, 16, 1, 65535⟩,  -- TWIN_CFG
  ⟨0xa0, 1, 0x40, 1, 4, 15, 8, 1, 255⟩,  -- TWIN_CFG
  ⟨0xa0, 1, 0x44, 1, 4, 15, 0, 1, 65535⟩]  -- TWIN_RETRY

/-- Ranges that the field descriptions state. -/
def RegMap.rangesd : List RangeRow := [
  ⟨0xa4, 1, 0x40, 1, 4, 15, 0, 1, 65535⟩,  -- FH_CFG
  ⟨0xa4, 1, 0x10c, 32, 0x20, 31, 16, 1, 65535⟩,  -- MBR_QUAL
  ⟨0xa4, 1, 0x10c, 32, 0x20, 11, 0, 8, 4095⟩,  -- MBR_QUAL
  ⟨0xa8, 1, 0x40, 1, 4, 15, 8, 5, 160⟩,  -- THERM_LIM_TWIN/THERM_LIM_S/THERM_LIM_STAGE/THERM_LIM_BOARD
  ⟨0xa8, 1, 0x44, 1, 4, 15, 8, 5, 160⟩,  -- THERM_LIM_TWIN/THERM_LIM_S/THERM_LIM_STAGE/THERM_LIM_BOARD
  ⟨0xa8, 1, 0x48, 1, 4, 15, 8, 5, 160⟩,  -- THERM_LIM_TWIN/THERM_LIM_S/THERM_LIM_STAGE/THERM_LIM_BOARD
  ⟨0xa8, 1, 0x4c, 1, 4, 15, 8, 5, 160⟩,  -- THERM_LIM_TWIN/THERM_LIM_S/THERM_LIM_STAGE/THERM_LIM_BOARD
  ⟨0xa8, 1, 0x40, 1, 4, 7, 0, 0, 150⟩,  -- THERM_LIM_TWIN/THERM_LIM_S/THERM_LIM_STAGE/THERM_LIM_BOARD
  ⟨0xa8, 1, 0x44, 1, 4, 7, 0, 0, 150⟩,  -- THERM_LIM_TWIN/THERM_LIM_S/THERM_LIM_STAGE/THERM_LIM_BOARD
  ⟨0xa8, 1, 0x48, 1, 4, 7, 0, 0, 150⟩,  -- THERM_LIM_TWIN/THERM_LIM_S/THERM_LIM_STAGE/THERM_LIM_BOARD
  ⟨0xa8, 1, 0x4c, 1, 4, 7, 0, 0, 150⟩,  -- THERM_LIM_TWIN/THERM_LIM_S/THERM_LIM_STAGE/THERM_LIM_BOARD
  ⟨0xa8, 1, 0x50, 1, 4, 23, 16, 1, 255⟩,  -- THERM_RATE
  ⟨0xa8, 1, 0x50, 1, 4, 15, 8, 1, 255⟩,  -- THERM_RATE
  ⟨0xa8, 1, 0x50, 1, 4, 7, 0, 1, 255⟩,  -- THERM_RATE
  ⟨0xa8, 1, 0x54, 1, 4, 31, 24, 1, 60⟩,  -- THERM_BUDGET
  ⟨0xa8, 1, 0x54, 1, 4, 23, 16, 0, 30⟩,  -- THERM_BUDGET
  ⟨0xa8, 1, 0x54, 1, 4, 15, 8, 0, 100⟩,  -- THERM_BUDGET
  ⟨0xa8, 1, 0x54, 1, 4, 7, 0, 1, 255⟩,  -- THERM_BUDGET
  ⟨0xa8, 1, 0x60, 1, 4, 31, 20, 2000, 4095⟩,  -- THERM_NTC
  ⟨0xa8, 1, 0x60, 1, 4, 19, 10, 1, 1023⟩,  -- THERM_NTC
  ⟨0xa8, 1, 0x60, 1, 4, 9, 0, 1, 1023⟩,  -- THERM_NTC
  ⟨0xa8, 1, 0x64, 1, 4, 15, 0, 1, 65535⟩,  -- THERM_HOLD
  ⟨0xb1, 1, 0x44, 1, 4, 31, 16, 1, 65535⟩,  -- PEAT_TRIG
  ⟨0xb2, 1, 0x40, 1, 4, 14, 8, 0, 64⟩,  -- CRUST_SEL
  ⟨0xb2, 1, 0x40, 1, 4, 4, 0, 0, 23⟩]  -- CRUST_SEL

/-- Ranges that the field descriptions state. -/
def RegMap.rangese : List RangeRow := [
  ⟨0x76, 1, 0x4c, 252, 0x10, 31, 28, 0, 8⟩,  -- GT_ENTRY word 3: MIN_RAMP (R199)
  ⟨0x74, 1, 0xf0c, 4, 0x10, 31, 28, 0, 8⟩,  -- GT_ENTRY 252 to 255 word 3
  ⟨0xba, 4, 0x100, 16, 8, 7, 0, 1, 255⟩,  -- POLL_CFG0/POLL_CFG15
  ⟨0xba, 4, 0x40, 1, 4, 1, 0, 0, 2⟩,  -- TWC_CFG: SPEED
  ⟨0xc1, 1, 0x44, 1, 4, 23, 16, 1, 255⟩,  -- ROW_ALLOC
  ⟨0xc2, 1, 0x58, 1, 4, 15, 0, 1, 65535⟩,  -- TIME_CFG
  ⟨0xd0, 1, 0x40, 1, 4, 23, 16, 1, 255⟩,  -- UPD_CFG
  ⟨0xd0, 1, 0x40, 1, 4, 15, 0, 1, 65535⟩,  -- UPD_CFG
  ⟨0x28, 4, 0x44, 1, 4, 31, 0, 0, 983040⟩,  -- RAIL_VSET (0 V to 15.000 V)
  ⟨0x9c, 4, 0x44, 1, 4, 31, 16, 256, 65535⟩]  -- BBU_SCALE

/-- Every stated field range. -/
def RegMap.ranges : List RangeRow :=
  RegMap.rangesa ++ RegMap.rangesb ++ RegMap.rangesc ++ RegMap.rangesd ++ RegMap.rangese

/-- Whether a range row applies to the register at a page and offset. -/
def RangeRow.covers (r : RangeRow) (pg off : Nat) : Bool :=
  decide (r.pg ≤ pg) && decide (pg < r.pg + r.npg) && decide (r.off ≤ off) &&
    decide ((off - r.off) % r.stride = 0) && decide ((off - r.off) / r.stride < r.cnt)

/-- The limit of a range nearest to a field's value. A range over all 32 bits is that of a register in signal format, whose values
are signed (R131). -/
def RangeRow.nearest (r : RangeRow) (x : Nat) : Nat :=
  if r.hi = 31 ∧ r.lo = 0 ∧ 2 ^ 31 ≤ x then r.min else clampN r.min r.max x

/-- WP of TWT_CFG has the two values 0x00 and 0x80: another value is replaced by the nearer one, 0x40 by 0x80 (R429, log entry 120). -/
def clampWp (pg off v : Nat) : Nat :=
  if (pg = 0xB8 ∨ pg = 0xB9) ∧ off = 0x40 then putBits v 15 8 (if bits v 15 8 < 0x40 then 0 else 0x80) else v

/-- A register value with every field of a stated range replaced by its nearest limit (R123, R196, R237, R267, R292, R324,
R351, R368, R429, R459). -/
def clampReg (pg off v : Nat) : Nat :=
  RegMap.ranges.foldl (fun v r => if r.covers pg off then putBits v r.hi r.lo (r.nearest (bits v r.hi r.lo)) else v) (clampWp pg off v)

end Sys2Proof.Machine
end

