-- ==== Sys2Proof/Config.lean ====
section
/-! DEFINITION. What the specification leaves open (free values, with no body) and the external algorithms it names
without defining them (uninterpreted functions). Each is named in the assumption log. -/

namespace Sys2Proof.Config

/-- Free value: whether the quotient of `num` by `den` at the rounding site `site` is taken above its floor.
The specification states the formula and the result's format and no rounding (log entry 3). -/
opaque roundUp : Nat → Int → Int → Bool

/-- Free word number `n` (log entry 4): the result where the specification states none. -/
opaque freeWord : Nat → Nat → Nat

/-- Free value: the natural logarithm `ln (num/den)` in 2^-16, of the thermistor formula of R272 (log entry 5). -/
opaque lnFix : Int → Int → Int

/-- Free value: the error of a sine sample of phase and amplitude (R146); the specification bounds it and states no bits (log
entry 6). -/
opaque sinErr : Nat → Int → Int

/-- Free value: the result of internal monitor `i` in its unit, signal format, from the sum of its 32 words and the reference in use
(R227): the specification states no transfer of the monitors (log entry 86). -/
opaque monitorScale : Nat → Int → Int → Int

/-- ECDSA P-384 verification: key, message, signature (R494). -/
opaque ecdsaOk : List Byte → List Byte → List Byte → Bool
/-- RFC 3394 key unwrap with the device-unique key (R495): key bytes, wrapped bytes. -/
opaque keyUnwrap : List Byte → List Byte → Option (List Byte)
/-- AES-256-GCM decryption: key, IV, additional data, ciphertext, tag (R495). -/
opaque gcmOpen : List Byte → List Byte → List Byte → List Byte → List Byte → Option (List Byte)

/-- DEV_SERIAL, fixed at manufacture (R521). -/
opaque devSerial : BitVec 64
/-- The device-unique key of the crust (R398), readable on no path. -/
opaque deviceKey : List Byte
/-- The vendor key hash of the crust (R398), 48 bytes. -/
opaque vendorHash : List Byte
/-- The four chemistry-class records as shipped (R390), 80 bytes each. -/
opaque chemShipped : Nat → List Byte
/-- FACTORY_TRIM as set at test (R391, item 17), 64 bytes. -/
opaque factoryTrim : List Byte
/-- Version of the management firmware as shipped (FW_VERSION, from the run slot). -/
opaque fwShipped : BitVec 32

/-- Free value: the result of the formula of site `site` where its divisor is 0 (log entry 3). -/
opaque divByZero : Nat → Int → Int

/-- Quotient of two integers where the rounding is not stated: exact when it divides, else one of the two neighbours. -/
def rdiv (site : Nat) (num den : Int) : Int :=
  if den = 0 then divByZero site num
  else if num % den = 0 then num / den
  else num / den + (if roundUp site num den then 1 else 0)

end Sys2Proof.Config
end

