-- ==== Sys2Proof/Machine/PartsAdm.lean ====
section
/-! DEFINITION. Plain data of the machine, part 4: step ports, loads, decided steps and the budget ledger (spec/05). -/

namespace Sys2Proof.Machine

/-- One step port (R158 to R163, R170, R189 to R193, R570). -/
structure StepPort where
  linkUp : Bool
  slot : Option StepFrame     -- delivered in the sense frame of the present tick and not yet taken by ADMIT
  due1 : Option StepFrame     -- due for the sense frame of the next tick
  due2 : Option StepFrame     -- due for the one after it
  place : Option StepFrame    -- holding place
  placeIn : Nat               -- ticks still to begin before the one whose sense frame the held frame was due for has passed
  err1 : Bool                 -- line-error bits of the next two sense frames
  err2 : Bool
  errNow : Bool
  lineErr : Nat
  spacing : Nat
  busy : Nat                  -- earliest boundary, as a tick, at which a reply can start
  reply : Option StepFrame    -- reply decided in the present tick
  tx : Option StepFrame       -- reply frame whose sending began at the boundary into the present tick (R163)
  quiet : Nat                 -- fronds without a valid request frame while an entry is enabled
  fresh : Bool                -- that count started or restarted in the present frond
  stale : Bool
  unann : Nat                 -- leaky count
  unannTotal : Nat
  level : Nat                 -- cap level in force
  last1 : Nat                 -- last tick with a cause of level 1, 2, 3 or above
  last2 : Nat
  last3 : Nat
  fell : Bool                 -- the level fell at the boundary ahead
deriving DecidableEq, Repr

/-- The changing part of a grant-table entry (R178 to R183, R199, R322). -/
structure Load where
  alloc : Nat
  resv : Nat
  resvEnd : Option Nat
  lastSeq : Nat
  seqValid : Bool
  lastDec : Nat
  lastRamp : Nat
  lastMag : Nat
  startTseq : Nat
  lastKind : Nat
  lastStart : Option Nat      -- start tick of the last decision, where it placed a step
  stepEnd : Nat               -- end tick E of the previous step
  prevEnd : Nat               -- E of the step before it
  earlier : Bool              -- LAST_SEQ is from an earlier boot
  stale : Bool
  released : Bool             -- no step was decided since EN or the last release
deriving DecidableEq, Repr

/-- One decided step (R172, R182, R184). -/
structure StepRec where
  load : Nat
  rail : Nat
  kind : Nat                  -- request kind: 1 up, 2 down, 4 release
  mag : Nat                   -- |m| in 0.25 A
  neg : Bool                  -- m is negative
  start : Nat                 -- S
  cls : Nat                   -- ramp class of the reply
  dP : Int                    -- kW, signal format; step ups only
  cover : Nat                 -- W in ticks
  settled : Bool
  applied : Bool              -- ALLOC carries it
deriving DecidableEq, Repr

/-- A measurement of the rectifier ramp in progress (R173). -/
structure RampMeas where
  start : Nat
  base : Int                  -- rectifier output at S
  dP : Int
  t10 : Option Nat            -- tick in which 10 % was reached
deriving DecidableEq, Repr

/-- The ledger (R170 to R174, R194). -/
structure Ledger where
  cons : Bool
  learned : Bool
  lambda : Nat                -- µs
  rho : Nat                   -- 0.0625 kW/ms
  meas : Option RampMeas
  good : Option (Nat × Nat)   -- last valid measurement of the frond
  ir4 : List (List Int)       -- rail currents of the last 4 ticks, latest first
  lim : List Int              -- L_r
  therm : List Int            -- TH_r
  eAv : Int                   -- energy format
  p54 : Int                   -- kW, signal format
  batt : Int                  -- B
  bUsed : Int                 -- B_USED
  row : Int                   -- ROW
  freeze : Bool
  freezeEnd : Nat
  steps : List StepRec        -- earliest decided first
  ff : List Int               -- FF_NOW of the present tick
  ff1 : List Int              -- FF_NOW of the previous tick
  ff2 : List Int
  ffDone : Bool               -- the LEDGER entry of the present tick has written FF_NOW
  ir1 : List Int              -- rail currents of the previous tick and of the one before it, for R188
  ir2 : List Int
  railOver : Bool
  rowOver : Bool
  admitDue : Bool             -- an ADMIT entry fired in the present tick
  newResv : Int               -- ΔP of reservations granted in the present tick
  nudged : Bool               -- a nudge was placed in this frond
  nudge : Option Int          -- excess of the nudge placed in the present tick, kW
  winLeft : Nat               -- fronds since the last halving of the counts
  grant : Nat
  defer : Nat
  reduce : Nat
  deny : Nat
  capped : Nat
  dup : Nat
  invalid : Nat
  seqBad : Nat
  unannRail : List Nat
deriving DecidableEq, Repr

/-- Step admission as a whole (R158 to R201). -/
structure AdmSt where
  ports : List StepPort
  loads : List Load
  led : Ledger
deriving DecidableEq, Repr

def StepPort.reset : StepPort :=
  ⟨false, none, none, none, none, 0, false, false, false, 0, 0, 0, none, none, 0, true, false, 0, 0, 0, 0, 0, 0, false⟩

def Load.reset : Load := ⟨0, 0, none, 0, false, 0, 0, 0, 0, 0, none, 0, 0, false, false, true⟩

/-- The ledger after reset: conservative, nothing learned; TH_r is no bound until the heat budget computes it. -/
def Ledger.reset : Ledger :=
  { cons := true, learned := false, lambda := 0, rho := 0, meas := none, good := none, ir4 := List.replicate 4 [],
    lim := List.replicate 4 0, therm := List.replicate 4 0, eAv := 0, p54 := 0, batt := 0, bUsed := 0, row := 0,
    freeze := false, freezeEnd := 0, steps := [], ff := List.replicate 4 0, ff1 := List.replicate 4 0,
    ff2 := List.replicate 4 0, ffDone := false, ir1 := List.replicate 4 0, ir2 := List.replicate 4 0, railOver := false, rowOver := false,
    admitDue := false, newResv := 0, nudged := false, nudge := none, winLeft := 0, grant := 0, defer := 0, reduce := 0,
    deny := 0, capped := 0, dup := 0, invalid := 0, seqBad := 0, unannRail := List.replicate 4 0 }

def AdmSt.reset : AdmSt := ⟨List.replicate 16 .reset, List.replicate 256 .reset, .reset⟩

end Sys2Proof.Machine
end

