-- ==== Sys2Proof/Machine/PartsCore.lean ====
section
/-! DEFINITION. Plain data of the machine, part 1: time base, schedule, tick exchange, register file and status words
(spec/01, 02, 16, 18). -/

namespace Sys2Proof.Machine

/-- A byte memory: addresses strictly rising, no entry equal to what an unlisted address reads as. -/
abbrev Memory := List Host.Cell

/-- Time base (R37 to R41, R522). -/
structure TimeSt where
  started : Bool        -- a first tick has begun since reset release
  tseq : Nat            -- TSEQ of the present tick, 24 bits (R39)
  ticks : Nat           -- the model's own count of ticks since reset release
  frond : Nat           -- frond boundaries since reset (FROND_NUM)
  frondDue : Bool       -- the tick of phase 255 has run and the boundary after it has not been taken
  epoch : Nat           -- EPOCH_NUM
  inEpoch : Nat         -- FROND_IN_EPOCH
  aligned : Bool        -- EPOCH_ALIGNED
  epochDue : Bool       -- a row epoch boundary has been reached
  lockA : Nat           -- ISLAND_LOCK.LOCK_A, 11 bits
  lockB : Nat           -- ISLAND_LOCK.LOCK_B
  holdover : Bool       -- REFCLK holdover (R35)
  inG0 : Nat            -- frond boundaries VANA_G0 has been in range since its return, up to 2 (R540)
  inG1 : Nat
  lost0 : Bool          -- the region started without its VANA at reset release and is not valid yet (R540)
  lost1 : Bool
deriving DecidableEq, Repr

/-- One slot entry, four words (R45). -/
structure SlotEntry where
  w0 : BitVec 32
  w1 : BitVec 32
  w2 : BitVec 32
  w3 : BitVec 32
deriving DecidableEq, Repr

/-- One bank of the slot table: entry `i` is element `i`; entries past the end are all zeros (R65). -/
abbrev SlotBank := List SlotEntry

/-- An access of the management processor to a bank of 0x08 to 0x1F that waits for its MWIN window (R56): the bank, the byte
address within it, and the bytes of a write; a read has none. -/
structure MgtAccess where
  bank : Nat
  addr : Nat
  bytes : List Byte
deriving DecidableEq, Repr

/-- A result of the load checks (R67, R68). -/
structure LoadResult where
  code : Nat
  entry : Nat
  other : Nat
deriving DecidableEq, Repr

/-- Schedule control page (R69, R74 to R75). -/
structure SchedSt where
  active : Bool             -- ACTIVE_BANK
  loaded0 : Bool
  loaded1 : Bool
  bank0 : SlotBank
  bank1 : SlotBank
  armed : Bool              -- SWAP_ARMED
  swapFrond : Nat           -- SWAP_FROND, 16 bits
  checkBusy : Bool
  load : LoadResult         -- LOAD_RESULT
  loadB : LoadResult        -- twin B's result of the same checks; `load` is twin A's, and LOAD_RESULT where they agree (R68)
  ver0 : Nat                -- IMAGE_VER0
  ver1 : Nat
  missA : Nat
  missB : Nat
  lastPhase : Nat           -- LAST_MISS
  lastTwin : Twin
  lastEntry : Nat
  tier : Fin 4              -- tier of the present frond
  tierNext : Fin 4          -- tier selected for the next frond (R62)
  tierFloor : Nat           -- TIER_FLOOR as sampled at tick phase 254
  tierFronds : List Nat     -- TIER_FRONDS0 to 3
  img0 : List Byte          -- the image in each bank, whose COEFF segments a swap applies (R66)
  img1 : List Byte
  window : List Nat         -- banks that an MWIN entry of the present tick opens (R54, R56)
  mgt : List MgtAccess      -- accesses of the management processor that wait for a window, oldest first (R56)
deriving DecidableEq, Repr

/-- An outbound block of message cells (R19, R20): its channel and payload bytes; `last` once the LAST cell is in die S. -/
structure OutBlock where
  chan : Nat
  bytes : List Byte
  last : Bool
deriving DecidableEq, Repr

/-- A block waiting for message cells (R20): inbound, once the framer of its interface has received it whole and checked it;
outbound, once the twins have made it. Its channel, the payload bytes still to be placed, and whether its first cell has been
sent. -/
structure CellBlock where
  chan : Nat
  bytes : List Byte
  begun : Bool
deriving DecidableEq, Repr

/-- The words of a sense frame that carry measurements, as the twins hold them (R16, R206, R211, R213). -/
structure SenseWords where
  phase : List (BitVec 16)       -- 72 phase-current words
  pre : List (BitVec 16)         -- 17 precision words
  temp : List (BitVec 16)        -- 8 stage temperatures
  tflt : BitVec 64               -- TFLT_LOW, without the bits of an invalid region (R17)
deriving DecidableEq, Repr

/-- Die S: frames, applied result, pins and safe state (R9 to R20, R32 to R36, R489). -/
structure DieS where
  copyA : Option (List Word32)   -- first valid copy of twin A in this tick
  copyB : Option (List Word32)
  applied : List Word32          -- words of the last applied result
  appliedFrom : Twin             -- the twin whose copy was applied
  extras : Bool                  -- the pulses, grants, THR and cells of `applied` are in force in this tick (not held)
  held : Bool                    -- HELD of the present sense frame
  judged : Bool                  -- the present tick is closed
  counted : Bool                 -- the copies of the present tick have been counted (R299, R301)
  ruled : Bool                   -- a rule of R301 has been chosen for the present tick
  noneRun : Nat                  -- consecutive ticks without a valid copy
  voteMismatch : Bool
  sense : Option TickIn          -- the latest complete samples
  words : SenseWords             -- the words of the latest sense frame that reached the twins
  tempG0 : Bool                  -- a tick has begun and G0 was valid in the last one: its stage temperatures carry a conversion
  tempG1 : Bool
  safe : Bool                    -- package-level safe state
  finalRecord : Bool             -- the final record of this safe state or VAUX_WARN is started
  out : List OutBlock            -- outbound blocks of the interfaces
  inq : List CellBlock             -- inbound blocks still to be placed in cells, oldest first
  cells : List (List Byte)       -- the inbound cells of the present sense frame, 32 bytes each (R16, R19)
  en : Nat                       -- EN15 to EN00 as die S drives them (R18)
  thr : Nat                      -- ports whose THR pin is driven low (R18, R191)
  sent : List OutBlock           -- blocks transmitted in the present tick, latest first
  drvWord : Nat                  -- driver status word latched in the present tick (R244)
  fltLow : Bool                  -- FLT_n driven low
  alert0 : Bool
  alert1 : Bool
  wantFlt : Bool                 -- levels the twins demanded in the present tick (R489)
  want0 : Bool
  want1 : Bool
  validG0 : Bool                 -- G0_VALID
  validG1 : Bool
  lockG0 : Bool                  -- PWM timebase of G0 locked
  lockG1 : Bool
  clusterOk : BitVec 8           -- cluster k is in service
  strap0 : Nat                   -- ADDR0 level
  strap1 : Nat
deriving DecidableEq, Repr

/-- A commit of one page (R23): boundaries to wait, and the values sampled at tick phase 254. -/
structure Commit where
  page : Nat
  wait : Nat
  sampled : Option (List (Nat × Nat))
deriving DecidableEq, Repr

/-- A lock opened under R30. -/
structure Lock where
  path : Path
  page : Nat
  since : Nat
deriving DecidableEq, Repr

/-- The writable fields of every page: values in force where they differ from reset, shadow copies, deferred writes. The
keys are page * 0x1000 + offset (R5). -/
structure RegFile where
  force : List (Nat × Nat)
  shadow : List (Nat × Nat)
  deferred : List (Nat × Nat)
  commits : List Commit
  locks : List Lock
  late : List Nat           -- registers written since the last sample of their page (R23)
deriving DecidableEq, Repr

/-- A clear of a control-plane BLK_STATUS waiting for its boundary (R483, R484). -/
structure PendClear where
  mask : Nat
  wait : Nat
  newOcc : Nat
  cmd : Bool        -- it is the clear of the CLEAR_STATUS at the head of the queue
deriving DecidableEq, Repr

/-- BLK_STATUS and BLK_CAUSE of one page (R480, R481). -/
structure BlkStat where
  page : Nat
  status : Nat
  cause : Nat
  merged : Nat
  clearRefused : Bool
  tickOcc : Nat             -- bits with an occurrence in the present tick
  causeBit : Option Nat     -- the bit that supplied CAUSE in the present tick
  pend : List PendClear
  rose : Nat                -- bits that rose in the present tick (R386, R421)
deriving DecidableEq, Repr

/-- The identity page's own state (R521, R522). -/
structure IdentSt where
  bootShown : Bool          -- the first snapshot after reset release has been taken
  snapCount : Nat
  req0 : Bool               -- HOLD of SNAP_HOLD0
  req1 : Bool
  take0 : Bool              -- a hold is to be taken at the next frond boundary
  take1 : Bool
  left0 : Nat               -- fronds left of the hold in force
  left1 : Nat
deriving DecidableEq, Repr

/-- Package-level supply and mode events of R345 to R349, R422, R533 to R550. -/
structure SupplySt where
  inReset : Bool            -- device reset is asserted
  vcoreA : Bool             -- supplies in range
  vcoreB : Bool
  vcoreS : Bool
  vanaG0 : Bool
  vanaG1 : Bool
  vgdOk : Bool
  vauxWarn : Bool
  vauxMin : Bool
  holdLow : Bool
  holdSeen : Bool           -- a HOLD_LOW event came in the present frond
  testen : Bool
  standby : Bool            -- standby in force (R422)
  standbyReq : Bool         -- standby accepted, entered at the next boundary
  nackTo : Nat              -- tick until which every transaction of the target ports is NACKed after a wake by address (R422)
  auxSwitch : Bool          -- die S has closed the VHOLD-to-VAUX switch (R349, R535)
deriving DecidableEq, Repr

end Sys2Proof.Machine
end

