-- ==== Sys2Proof/Machine/PartsFeed.lean ====
section
/-! DEFINITION. Plain data of the machine, part 6: feeds, transfers, output hot-swaps and the fiddlehead (spec/07, 10). -/

namespace Sys2Proof.Machine

/-- Feed states, in the order of their codes (R247). -/
inductive FeedState where | absent | qualify | ready | turnOn | on | faultWait | latchedOff
deriving DecidableEq, Repr

/-- One feed (R243 to R259). -/
structure Feed where
  st : FeedState
  cmd : Bool            -- gate command computed by the twins
  applied : Bool        -- gate command of the applied result
  cmdWord : Bool        -- the applied command when the word that SUPV reads was latched
  drive : Bool          -- die S drives the gate
  fast : Bool           -- with the fast source
  revLatch : Bool       -- reverse-current trip: die S holds the gate off
  revTick : Bool        -- the trip as latched at cycle 0 of the present tick
  revWord : Bool        -- and as shown by the word that SUPV reads
  fullLatch : Bool      -- fully on, as latched at cycle 0 of the present tick
  fullOn : Bool         -- fully on, of the latest sense frame that the twins may use (R15, R17)
  fullWord : Bool       -- and of the word that SUPV reads
  offNow : Bool         -- the switch is off, as latched at cycle 0
  inside : Bool         -- V is inside the window
  entry : Bool          -- V is inside the entry window
  low : Bool            -- V is at or below UV_TH
  bad : Bool            -- its channel is invalid and the feed counts as invalid (R258)
  fail : Nat            -- fail count
  ovN : Nat             -- consecutive ticks at or above OV_TH
  qualN : Nat           -- ticks in QUALIFY
  onN : Nat             -- ticks in TURN_ON
  readyN : Nat          -- ticks READY and enabled
  pgRun : Nat           -- consecutive ticks with every condition of power-good
  pg : Bool
  pgHeld : Nat          -- ticks power-good has held
  uvSet : Bool          -- UV_x recorded for the present loss
  retryUsed : Nat
  retryLeft : Nat       -- ticks left of the retry timer
  held : Bool           -- the gate was held on through reset and is not adopted yet
deriving DecidableEq, Repr

/-- A transfer or insertion (R251 to R253, R573). -/
structure Xfer where
  dead : Option Nat     -- ticks left of the dead time of a transfer
  old : Option FeedId
  new : Option FeedId   -- the new feed, until it asserts power-good
  insertion : Bool
  start : Nat
  count : Nat
  lastDur : Nat
  ilock : Nat           -- consecutive ticks of INTERLOCK
  interlock : Bool      -- INTERLOCK of the present tick
  ilockWord : Bool      -- and as shown by the word that SUPV reads
  carry0 : Option FeedId  -- the carrying feed at the start of the tick
  judge : Bool          -- status is judged (R257)
  g1Good : Nat          -- frond boundaries with G1 valid since its return, up to 2
  noFeed : Bool
  adopted : Bool        -- the held state has been adopted (R259)
  ran : Bool            -- the present tick had a SUPV entry (R246)
deriving DecidableEq, Repr

/-- One output hot-swap (R261 to R266). -/
structure HotSwap where
  on : Bool             -- fully on, as the twins know it
  applied : Bool        -- HGATEr command of the applied result
  cmdWord : Bool
  drive : Bool          -- die S drives the gate
  trip : Bool           -- fast-trip latch of die S
  tripTick : Bool       -- as latched at cycle 0
  tripSeen : Bool       -- as in the latest sense frame that the twins may use
  handled : Bool        -- the trip has been acted on
  fullTick : Bool       -- fully on, as latched at cycle 0
  fullWord : Bool       -- as shown by the word that SUPV reads
  offNow : Bool
  onN : Nat             -- ticks commanded and not fully on
  acc : Int             -- ACC_r in 2^-16 A·ms / 2000
  pg : Bool
  trips : Nat
deriving DecidableEq, Repr

/-- Member states, in the order of their codes (R332). -/
inductive MemberState where
  | off | waiting | onDelay | qualifying | good | lost | offDelay | stopping | failed | blocked | unused
deriving DecidableEq, Repr

/-- One member (R327 to R339). -/
structure Member where
  st : MemberState
  out : Bool            -- its output is on
  timer : Nat           -- ticks in the state, or of LOSS_HOLD
  cause : Nat
  blk : Option Nat      -- the failed member that blocked it
  last : Bool           -- latest raw sample
  run : Nat             -- consecutive equal samples, up to 8
  deb : Bool            -- debounced level
  goodFor : Nat         -- samples the debounced level has been good
  qual : Bool           -- qualified good
  chg : List Nat        -- ticks of the raw changes within the last QUAL span
deriving DecidableEq, Repr

/-- Shelf states, in the order of their codes (R333). -/
inductive ShelfState where | down | poweringUp | up | poweringDown | halted | draining
deriving DecidableEq, Repr

/-- The fiddlehead (R327 to R352) and the push-button (R343). -/
structure Fiddle where
  members : List Member
  shelf : ShelfState
  order : List Nat      -- members in the enable order
  stops : List Nat      -- members being stopped, the present one first
  failed : Nat          -- FH_FAILED
  haltSrc : Nat
  onLatch : Bool
  dwell : Nat           -- ticks since the shelf reached DOWN, for OFF_DWELL
  drain : Nat           -- ticks in DRAINING
  pbLowRun : Nat        -- consecutive fronds with PB_n low, up to 16
  pbHighRun : Nat
  press : Bool          -- a press is in progress
  pressLen : Nat        -- its length in fronds
  longDone : Bool       -- the present press has acted as a long press
  ended : Bool          -- a press ended at the last boundary and has not acted
  safeTick : Bool       -- SAFE_n asserted, of the present sense frame
  safePin : Bool        -- SAFE_n is low
  bootReq : Bool        -- the request of R350 is still to be taken
  rstCause : Nat
  rstRecord : Bool
  passA : Bool
  passB : Bool
  booted : Bool         -- the boot self-test has been taken
deriving DecidableEq, Repr

def Feed.reset : Feed :=
  { st := .absent, cmd := false, applied := false, cmdWord := false, drive := false, fast := false, revLatch := false,
    revTick := false, revWord := false, fullLatch := false, fullOn := false, fullWord := false, offNow := true, inside := false,
    entry := false, low := false, bad := false, fail := 0, ovN := 0, qualN := 0, onN := 0, readyN := 0, pgRun := 0,
    pg := false, pgHeld := 0, uvSet := false, retryUsed := 0, retryLeft := 0, held := false }

def Xfer.reset : Xfer := ⟨none, none, none, false, 0, 0, 0, 0, false, false, none, true, 2, false, false, false⟩

def HotSwap.reset : HotSwap :=
  ⟨false, false, false, false, false, false, false, false, false, false, true, 0, 0, false, 0⟩

def Member.reset : Member := ⟨.unused, false, 0, 0, none, false, 0, false, 0, false, []⟩

def Fiddle.reset : Fiddle :=
  { members := List.replicate 32 .reset, shelf := .down, order := [], stops := [], failed := 0, haltSrc := 0,
    onLatch := false, dwell := 0, drain := 0, pbLowRun := 0, pbHighRun := 0, press := false, pressLen := 0,
    longDone := false, ended := false, safeTick := false, safePin := false, bootReq := true, rstCause := 1,
    rstRecord := false, passA := false, passB := false, booted := false }

end Sys2Proof.Machine
end

