-- ==== Sys2Proof/Machine/PartsMgmt.lean ====
section
/-! DEFINITION. Plain data of the machine, part 7: battery modules and the heat budget (spec/08, 11). -/

namespace Sys2Proof.Machine

/-- Module states, in the order of their codes (BBU_STATE). -/
inductive BbuState where | absent | estimating | estimated | anchored | reserve | fault
deriving DecidableEq, Repr

/-- A stored battery record (R290): its ring, identity, C in energy format, CYCLES, RELEARN, learning in progress. -/
structure BbuRec where
  ring : Nat
  ident : Nat
  c : Nat
  cycles : Nat
  relearn : Bool
  learning : Bool
deriving DecidableEq, Repr

/-- One battery module (R270 to R293). Charges are in units of 1/64,000,000 As, the unit of R273. -/
structure Bbu where
  st : BbuState
  present : Bool
  misses : Nat          -- consecutive polls without an answer
  newPresence : Bool    -- an answer came while absent; the serial is to be read
  serial : Nat
  swapSeen : Bool       -- compatibility mode: a presence that follows an absence
  absRun : Nat          -- compatibility mode: consecutive steps that show absence
  idCode : Nat
  idLast : Option Nat   -- code of the last step; none = outside every band
  idRun : Nat           -- consecutive agreeing steps
  idInvalid : Bool
  q : Int
  c : Int
  r : Int
  known : Bool          -- Q is estimated
  loaded : Bool         -- ESTIMATE_LOADED
  low : Bool            -- discharge brought Q to 0
  fullDue : Bool        -- an anchor takes effect at the next boundary
  emptyDue : Bool
  waitN : Nat           -- ticks in ESTIMATING
  restN : Nat           -- ticks of rest in ESTIMATING
  learning : Bool
  l : Int               -- L of the cycle
  lFronds : Nat
  lOut : Nat
  lRun : Nat            -- fronds of the present run of rest or charge
  lastResult : Nat
  cycles : Nat
  relearn : Bool
  pendCap : List BbuRec -- capacities that are pending under R291, latest first
  gapRun : Nat          -- consecutive ticks with an invalid word, up to 5
  uncounted : Bool      -- the present tick is uncounted
  countInv : Bool
  iAcc : Int            -- sum of I_m over the frond
  iN : Nat
  iAvg : Sig
  hist : List Int       -- frond means of the last 64 fronds, latest first
  v : Sig               -- V_m
  vPrev : Sig           -- V_m of the step before
  vF : Sig              -- V_m at the last frond boundary
  vLow : Nat            -- consecutive steps at or below CELLS × V_CUT
  temp : Sig
  tempOk : Bool
  termRun : Nat         -- fronds of the termination condition
  term : Bool           -- the charger reports termination
  statusOk : Bool       -- the charger status is available
  pollN : Nat           -- fronds since the last poll
  pollAgain : Bool      -- the present poll has failed once and is tried again in the next frond (R424)
  chgOn : Bool          -- charge command above 0
  chgBlock : Bool
  topped : Bool         -- a full anchor, and SoC has stayed at or above 95 % since
  sendDue : Bool        -- a charge command is to be sent
  stopDue : Bool        -- the command has become 0 at a frond boundary and the next SUPV entry sends it (R288)
  chgI : Nat            -- the charge command of the last boundary, in 0.1 A
  repeatN : Nat         -- fronds since the last command
  naks : Nat
  allow : Int           -- A_m in kW, signal format
  t3Hold : Bool         -- conditions not written since T3
  gone : Bool           -- an absence has been seen since reset (R285)
  idDue : Option Bool   -- compatibility mode: the code is to be read (R286), and whether after a swap
  before : BbuState     -- the state before FAULT
  thTold : Bool         -- TH_INVALID has been recorded for the invalid temperature of the module
  records : List BbuRec -- stored records of the slot, most recently seen first
deriving DecidableEq, Repr

/-- The heat budget (R354 to R369). -/
structure Therm where
  a : List Int          -- twin A sensors, signal format
  b : List Int
  histA : List (List Int)   -- readings after substitution of the last 9 boundaries, latest first
  histB : List (List Int)
  histS : List (List Int)
  susA : Nat            -- suspect masks
  susB : Nat
  susS : Nat
  subA : List Int       -- readings after substitution
  subB : List Int
  subS : List Int
  sOk : List Bool       -- a result of the die S sensor has been taken since G0 is valid
  moved : List Bool     -- the unit changed its switching condition in the frond
  sShut : List Nat      -- consecutive results of each die S sensor at or above S_SHUT, up to 2
  stAcc : List Int      -- sums of stage temperatures over the frond
  stN : List Nat
  stMean : List Int     -- frond means, and those of the frond before
  stPrev : List Int
  stHad : List Bool     -- the last frond had a mean of its own
  stOk : List Bool      -- the last two fronds had means of their own
  stRawAcc : List Int   -- sums of the conversions themselves, before substitution
  stRawN : List Nat
  stRaw : List (Option Int)   -- their frond means, where the frond had one
  stLast : List (Option Int)  -- the latest conversion that gave a value
  stBad : List Bool     -- the latest conversion gave 0x8000
  stHalf : List Bool    -- suspect with no adjacent unit that has a valid reading
  stRateHi : List Bool  -- the stage rate was above STAGE_RATE_WARN at the last boundary
  dieRateHi : Bool
  stSus : List Bool
  stWarn : List Bool
  stShut : List Bool
  shutA : Bool          -- TWIN_SHUT, since its last clear, was reported for twin A
  shutB : Bool          -- and for twin B
  hotFrond : List Bool  -- the stage was at or above STAGE_WARN in a tick of the frond
  holdN : List Nat      -- fronds the end condition of a thermal hold has held
  since : List Nat      -- fronds since the unit may be checked
  cond : List Bool      -- switching condition in the last tick
  near : List Bool      -- an adjacent unit changed its switching condition in the frond
  railPrev : List Int   -- frond-mean I_r of the last frond
  shedWait : List Bool  -- a thermal shed is put off to REGULATE
  rateEn : Bool
  dieWarn : Bool
  boardWarn : Bool
  boardShut : Bool      -- a board reading was at or above BOARD_SHUT at the last boundary
  dieMax : Int
  dieRate : Int
  board : List Int      -- board readings, 0 while not valid
  boardOk : List Bool
  margin : Int
  hold : Bool           -- write hold
  cool : Nat            -- consecutive boundaries with every reading in range
  nvWait : List (Nat × List Byte)   -- wear-ring values held during the write hold
deriving DecidableEq, Repr

def Bbu.reset : Bbu :=
  { st := .absent, present := false, misses := 0, newPresence := false, serial := 0, swapSeen := false, absRun := 0,
    idCode := 0, idLast := none, idRun := 0, idInvalid := false, q := 0, c := 0, r := 0, known := false, loaded := false,
    low := false, fullDue := false, emptyDue := false, waitN := 0, restN := 0, learning := false, l := 0, lFronds := 0,
    lOut := 0, lRun := 0, lastResult := 0, cycles := 0, relearn := false, pendCap := [], gapRun := 0, uncounted := false,
    countInv := false, iAcc := 0, iN := 0, iAvg := 0, hist := [], v := 0, vPrev := 0, vF := 0, vLow := 0, temp := 0,
    tempOk := false, termRun := 0, term := false, statusOk := false, pollN := 0, pollAgain := false, chgOn := false, chgBlock := false,
    topped := false, sendDue := false, repeatN := 0, naks := 0, allow := 0, t3Hold := false, gone := false,
    stopDue := false, chgI := 0, idDue := none, before := .absent, thTold := false, records := [] }

def Therm.reset : Therm :=
  { a := List.replicate 10 0, b := List.replicate 10 0, histA := [], histB := [], histS := [], susA := 0, susB := 0,
    susS := 0, subA := List.replicate 10 0, subB := List.replicate 10 0, subS := List.replicate 11 0, sOk := List.replicate 11 false,
    moved := List.replicate 64 false, sShut := List.replicate 11 0, stAcc := List.replicate 64 0, stN := List.replicate 64 0,
    stMean := List.replicate 64 0, stPrev := List.replicate 64 0, stHad := List.replicate 64 false, stOk := List.replicate 64 false,
    stRawAcc := List.replicate 64 0, stRawN := List.replicate 64 0, stRaw := List.replicate 64 none,
    stLast := List.replicate 64 none, stBad := List.replicate 64 false, stHalf := List.replicate 64 false,
    stRateHi := List.replicate 64 false, dieRateHi := false, stSus := List.replicate 64 false, stWarn := List.replicate 64 false, stShut := List.replicate 64 false,
    shutA := false, shutB := false, hotFrond := List.replicate 64 false,
    holdN := List.replicate 64 0, since := List.replicate 64 7813, cond := List.replicate 64 false, near := List.replicate 64 false,
    railPrev := List.replicate 4 0, shedWait := List.replicate 64 false, rateEn := false, dieWarn := false,
    boardWarn := false, boardShut := false, dieMax := 0, dieRate := 0, board := List.replicate 8 0,
    boardOk := List.replicate 8 false, margin := 0, hold := false, cool := 2, nvWait := [] }

end Sys2Proof.Machine
end

