-- ==== Sys2Proof/Machine/PartsMieno.lean ====
section
/-! DEFINITION. Plain data of the machine, part 9: the Mieno fabric, the row budget, Mieno time and the DMA engine
(spec/14, 15). -/

namespace Sys2Proof.Machine

/-- A frame waiting for an output port (R437): `own` where this device originated it, `rx` the receive instant of a TIME frame in
transit, or of the LINK frame that an own LINK frame answers. -/
structure TxFrame where
  f : MFrame
  own : Bool
  rx : Option Int
deriving DecidableEq, Repr

/-- One Mieno port (R432 to R437). -/
structure MiePort where
  up : Bool
  nbValid : Bool
  nb : Nat
  linkT1 : Option Int       -- when the port's latest LINK request left, in 2^-16 ns of the time counter
  delays : List Int         -- the last 16 measurements in 2^-16 ns, latest first
  timeQ : List TxFrame
  transitQ : List TxFrame   -- at most 32
  ownQ : List TxFrame
  busy : Nat                -- units of 4 ns until the frame being sent ends
  sent : List MFrame        -- frames whose sending began in the present tick, latest first
deriving DecidableEq, Repr

/-- A duplicate window (R438): bit i of `seen` stands for the sequence H - 1 - i. -/
structure RxWindow where
  src : Nat
  h : Nat
  seen : Nat
  age : Nat                 -- fronds without a frame
deriving DecidableEq, Repr

/-- An ADVERT (R447). -/
structure Advert where
  epoch : Nat
  demand : Nat
  max : Nat
  floor : Nat
  ver : Nat
  compat : Nat
  eligible : Bool
  ext : Bool
  total : Nat
deriving DecidableEq, Repr

/-- A member of the row (R442, R449, R455), this device included. -/
structure RowMember where
  id : Nat
  hbAge : Option Nat        -- fronds since its last HEARTBEAT, or where it sent none since its first ADVERT; none = not heard
  cls : Nat
  conflict : Bool           -- it reports ID_CONFLICT
  silent : Bool
  back : Bool               -- an ADVERT has come since it was declared silent
  adv : Option Advert       -- its latest ADVERT
  advPrev : Option Advert   -- the ADVERT of the epoch before that of the latest
  short : List Byte         -- its short digest
  digest : List Byte        -- its latest DIGEST frame: digest and record
deriving DecidableEq, Repr

/-- A publication's entry for this device (R452, R454). -/
structure Publication where
  epoch : Nat
  entry : Option Nat        -- from the source determined
  other : Option Nat        -- from another source
  incompat : Bool           -- versions do not allow the device in the source's row
deriving DecidableEq, Repr

/-- Time states, in the order of their codes (R444). -/
inductive MTimeState where | free | sync | resync | hold
deriving DecidableEq, Repr

/-- The command of the latest FAB_GO (R456). -/
structure FabTx where
  words : List Nat
  sends : Nat               -- times sent
  age : Nat                 -- fronds since it was sent last
deriving DecidableEq, Repr

/-- The reply shown in FAB_RX (R456). -/
structure FabRx where
  valid : Bool
  outcome : Nat
  status : Nat
  index : Nat
  seq : Nat
  result : Nat
deriving DecidableEq, Repr

/-- The fabric, the row and Mieno time (R432 to R462). -/
structure MieSt where
  me : MiePort
  mw : MiePort
  windows : List RxWindow
  fseq : Nat                -- FSEQ of the next frame originated
  restartN : Nat            -- frames originated since reset, up to 16
  rxBuf : List (MPort × MFrame)   -- frames awaiting the twins, oldest first, at most 32
  heard : Bool              -- a frame from another device has arrived since reset
  crcErr : Nat
  rxDrop : Nat
  queueDrop : Nat
  dup : Nat
  hopExpired : Nat
  unknown : Nat
  hbN : Nat                 -- fronds since the last HEARTBEAT sent
  idConf : Bool
  confEpochs : Nat          -- epochs without a conflicting HEARTBEAT
  members : List RowMember  -- identities rising
  src : Option Nat          -- source of the present epoch and its class
  srcCls : Nat
  pubs : List Publication   -- for the present and the next epoch
  share : Option Nat        -- L, in 1/16 kW; none = none applied yet
  incWait : Option (Nat × Nat)   -- an increase: value in 1/16 kW and frond in which it takes effect
  decrease : Option Nat     -- a late decrease, for the next boundary
  lastEntry : Nat           -- ROW_PUB
  lastEpoch : Nat
  decay : Nat
  cause : Nat               -- CAUSE of ROW_STATE
  excluded : Bool
  mismatch : Bool
  exMembers : Nat           -- members counted at MAX in the last computation known, and its epoch
  exEpoch : Nat
  dMax : Int                -- highest power of the epoch so far, signal format kW
  digRec : List Byte        -- record last broadcast
  digAge : Nat              -- epochs since the last DIGEST
  extLive : Bool            -- T_EXT is valid
  extAge : Nat              -- epochs since the last write of ROW_EXT
  time : Int                -- Mieno time in 2^-16 ns
  bnd : Nat                 -- Mieno time of the latest frond boundary, in ns (R445)
  rate : Int                -- rate correction in 2^-16 ns per frond
  tst : MTimeState
  off : Int                 -- latest offset o
  offNew : Bool             -- it was measured in the present frond
  stepDue : Bool            -- a step by -o at the next boundary
  goodN : Nat               -- consecutive frames within 100 ns
  noTime : Nat              -- fronds without a TIME frame
  degraded : Bool
  master : Option Nat
  goLeft : Nat              -- boundaries until TIME_GO takes effect
  setAge : Option Nat       -- epochs since time was set; none = not in class 2
  epochNo : Option Nat      -- row epoch number at the last boundary
  fabGo : Option (List Nat) -- a COMMAND frame to be sent at the next boundary
  fabTx : Option FabTx
  fabRx : FabRx
deriving DecidableEq, Repr

/-- DMA channel states, in the order of their codes (CH_STATE). -/
inductive DmaState where | idle | waitOwn | run | waitReq | paused | error
deriving DecidableEq, Repr

/-- One DMA channel (R463 to R478). -/
structure DmaCh where
  st : DmaState
  back : DmaState           -- the state PAUSED returns to
  en : Bool                 -- EN and PAUSE in force
  pause : Bool
  abort : Bool
  holds : Bool              -- a descriptor is held
  ctrl : Nat                -- its words 0 to 3
  source : Nat
  dest : Nat
  next : Nat
  desc : Nat
  src : Nat
  dst : Nat
  remain : Nat
  residue : List Byte       -- bytes read and not yet written, those from `src` on
  err : Nat
  done : Nat
  withdrawn : Nat
  fired : Bool              -- the channel fired in the present frond
  matched : Bool            -- and a firing matched, or the channel started in it
  ends : Option Nat         -- the completion cycle of its burst of the present tick that moved on a request (R475)
deriving DecidableEq, Repr

def MiePort.reset : MiePort := ⟨false, false, 0, none, [], [], [], [], 0, []⟩

def FabRx.reset : FabRx := ⟨false, 0, 0, 0, 0, 0⟩

def MieSt.reset : MieSt :=
  { me := .reset, mw := .reset, windows := [], fseq := 0, restartN := 0, rxBuf := [], heard := false, crcErr := 0,
    rxDrop := 0, queueDrop := 0, dup := 0, hopExpired := 0, unknown := 0, hbN := 0, idConf := false, confEpochs := 0,
    members := [], src := none, srcCls := 0, pubs := [], share := none, incWait := none, decrease := none,
    lastEntry := 0xFFFF, lastEpoch := 0, decay := 0, cause := 0, excluded := false, mismatch := false, exMembers := 0, exEpoch := 0,
    dMax := 0, digRec := [], digAge := 0, extLive := false, extAge := 0, time := 0, bnd := 0, rate := 0, tst := .free, off := 0,
    offNew := false, stepDue := false, goodN := 0, noTime := 0, degraded := false, master := none, goLeft := 0,
    setAge := none, epochNo := none, fabGo := none, fabTx := none, fabRx := .reset }

def DmaCh.reset : DmaCh :=
  { st := .idle, back := .run, en := false, pause := false, abort := false, holds := false, ctrl := 0, source := 0,
    dest := 0, next := 0, desc := 0, src := 0, dst := 0, remain := 0, residue := [], err := 0, done := 0,
    withdrawn := 0, fired := false, matched := false, ends := none }

end Sys2Proof.Machine
end

