-- ==== Sys2Proof/Machine/PartsPower.lean ====
section
/-! DEFINITION. Plain data of the machine, part 2: rails, phase units, clusters, injection and capture (spec/03, 04). -/

namespace Sys2Proof.Machine

/-- Rail states, in the order of their codes (R89). -/
inductive RailState where | off | softStart | regulate | softStop | faultWait | latchedOff
deriving DecidableEq, Repr

/-- PH_STATE, in the order of its codes (PH_STATE register). -/
inductive PhState where | unassigned | idle | active | marked | ramp | fault | lost
deriving DecidableEq, Repr

/-- One rail (R76 to R121). References are held in 2^-16 microvolts (`refU`), so that SLEW adds exactly. -/
structure Rail where
  st : RailState
  gateOn : Bool             -- HGATEr commanded on
  wantOn : Bool             -- an on request stands in FAULT_WAIT, or the rail waits for its hot-swap after R90
  startDue : Bool           -- the first SOFT_START tick begins at the next boundary (R91)
  firstTick : Bool          -- the present tick is the first SOFT_START tick
  refU : Int                -- reference
  leadSw : Option Nat       -- the leader, where it was switching in the previous tick (R100)
  tgtLast : Sig             -- last valid target of an external source (R97)
  target : Sig              -- target in force, after the ceiling
  setpLost : Bool
  ceiling : Bool
  tracking : Bool
  vs : Sig                  -- remote-sense voltage of the tick
  ir : Sig                  -- I_r of the tick
  cap : Sig                 -- C_r of the tick
  capRef : Sig              -- C_r before the last loss (R121)
  derated : Bool
  satC : Bool               -- the voltage loop is saturated at C_r in this tick
  hist : List Int           -- I_r of the last 32 ticks, latest first
  ovl : Nat                 -- rail overload count
  uv : Nat                  -- under-voltage count
  ovRun : Nat               -- consecutive ticks over the over-voltage level
  shortRun : Nat            -- consecutive ticks under 50 % of the ramp
  flimRun : Nat             -- consecutive ticks in which a quarter of the active units tripped
  limiting : Bool
  rawPg : Bool              -- raw power-good
  pgRun : Nat               -- ticks raw power-good has held
  dwell : Nat               -- consecutive ticks of the shed condition
  noMark : Nat              -- ticks left in which no unit is marked (R106)
  retryUsed : Nat
  retryLeft : Nat           -- ticks left of the retry timer
  ovDecl : Bool             -- over-voltage was declared in the present tick (R116)
  ovTrip : Bool             -- it was declared in an earlier tick and the rail has not tripped yet
  ptr : Nat                 -- rotating pointer of the twins (R108)
  ptrS : Nat                -- the pointer as die S holds it
  undo : Nat                -- slots the pointer advanced for the burst of the last computed frame
  undoOld : Nat             -- the pointer before that advance
  burst : Bool              -- a burst is requested for the next frame
  unann : Bool              -- unannounced step detected in this tick (R188)
  counter : Nat             -- period counter at the start of the tick, in timebase cycles
  fsw : Nat                 -- FSW_PERIOD in force
  setpWin : List (Nat × Nat × Nat)   -- SETPr in the last 8 fronds, latest first: periods, high time, length (R97)
  vAcc : Int                -- frond sums for RAIL_VOUT and RAIL_IOUT
  iAcc : Int
  accN : Nat
  vAvg : Sig
  iAvg : Sig
deriving DecidableEq, Repr

/-- One unit (R76, R83 to R86, R110 to R112, R571). -/
structure PhUnit where
  st : PhState
  slot : Nat
  offset : Nat
  toStart : Nat             -- cycles from the start of the tick to the next period start
  onTime : Nat              -- on-time of the present period in steps of 78.125 ps
  ext : Nat                 -- steps by which an extra pulse extends it (R109)
  age : Nat                 -- cycles since the present period started
  moved : Bool              -- the next period start is moved under R86
  hist : List Int           -- control-path current of the last 32 ticks, latest first
  cur : Sig                 -- control-path current of the tick
  valid : Bool              -- the current word of the tick is valid
  ovl : Nat                 -- overload count
  badRun : Nat              -- consecutive 0x8000 words
  imonInv : Bool            -- IMON_INV bit
  flim : Bool               -- fast-limit trip not yet in a sense frame
  flimNow : Bool            -- trip shown in the sense frame of the tick
  temp : Option Sig         -- latest stage temperature after substitution
  duty : Nat                -- duty word computed in the tick
  applied : Nat             -- duty word applied
  tri : Bool                -- TRI computed in the tick
  triOn : Bool              -- TRI applied
  xp : Bool                 -- XP bit computed in the tick
  clamps : Nat              -- CLAMP_COUNT
  flims : Nat               -- FLIM_COUNT
  since : Nat               -- ticks since PH_STATE changed
  hold : Bool               -- in thermal hold (R360)
  trip : Bool               -- a fast-limit trip keeps the unit low until its next period start (R110)
  pulse : List Nat          -- steps from the start of the next tick to the start of each extra pulse to come (R108, R109)
  xpAt : Option Nat         -- step of the present tick at which a separate extra pulse starts
  xpLeft : Nat              -- steps of a separate extra pulse still to come when the present tick ends
  curAcc : Int
  accN : Nat
  curAvg : Sig
deriving DecidableEq, Repr

/-- A PHASE entry that has run in the present tick: the entry's operands and engine, the active units of the rail it shared the
current among, the balance states and the cluster's saturation count before it ran (R104, R105, R138). -/
structure PhaseRun where
  srcA : Nat
  srcB : Nat
  dst : Nat
  engine : Nat
  rail : Nat
  acts : List Nat
  states : List (BitVec 8)
  sat : Nat
deriving DecidableEq, Repr

/-- One control-engine cluster (R120, R139, CL_COUNTS). -/
structure Cluster where
  goodFronds : Nat          -- frond boundaries in service since the last loss, up to 2: one full frond
  parityA : Nat
  parityB : Nat
  sat : Nat                 -- saturations in the present frond
  satLast : Nat             -- SAT_COUNT of the last frond
deriving DecidableEq, Repr

/-- Injection (R145 to R147). `stopCause` has the codes of INJ_STATE. -/
structure InjSt where
  running : Bool
  stopCause : Nat
  silent : Bool             -- ended in this tick: samples are 0 from the next tick
  started : Bool            -- this is the first tick of an injection
  endless : Bool
  dur : Nat
  left : Nat                -- fronds left
  gone : Nat                -- fronds done
  seeded : List Nat         -- generator blocks seeded in this injection
  fired : List Nat          -- words written by an INJ entry in this tick
deriving DecidableEq, Repr

/-- Capture states, in the order of their codes (R150). -/
inductive CapState where | idle | filling | armed | triggered | done | aborted
deriving DecidableEq, Repr

/-- Capture (R148 to R153). -/
structure CapSt where
  st : CapState
  armRefused : Bool
  abortTier : Bool
  rdReady : Bool
  rdAsked : Bool            -- a block was requested and its copy is not complete
  copying : Bool            -- the descriptors of that copy are built (R476)
  rdSig : Nat               -- CAP_RD in force
  rdBlock : Nat
  firings : Nat             -- CAPT firings since ARM
  wr : Nat                  -- ring index of the next sample
  count : Nat               -- samples held per signal, up to the depth
  post : Nat                -- POST samples left
  trigTseq : Nat
  trigIndex : Nat
  trigRing : Nat            -- ring index of the trigger sample
  trigTick : Bool           -- a trigger came in this tick or is waiting for its first sample
  data : List Nat           -- the block read out, 256 words
  cmp : Bool                -- the CMP engine holds a compressed block not yet collected (R474)
  took : Bool               -- a sample was taken in the present tick
deriving DecidableEq, Repr

end Sys2Proof.Machine
end

