-- ==== Sys2Proof/Machine/PartsSense.lean ====
section
/-! DEFINITION. Plain data of the machine, part 3: precision channels, reference, auxiliary sequencer, internal monitors and
calibration (spec/06). -/

namespace Sys2Proof.Machine

/-- One precision channel PRE00 to PRE16 (R206 to R208, R214, R215, R226, R240). -/
structure PreCh where
  val : Sig                 -- value of the last valid word, in the channel's unit
  badRun : Nat              -- consecutive 0x8000 words
  invalid : Bool            -- invalid from the fifth such word until a valid one
  overN : Nat                -- OVERRANGE count (R207, R235)
  gainTrim : Nat            -- PRE_CAL
  offTrim : Nat
  failed : Bool             -- modulator failed with no substitute
  openWire : Bool
  met : Sig                 -- PRE_MET
  metCount : Nat
  metSince : Nat            -- tick from which the 6 output periods of R215 count
  metUnset : Bool           -- flags of the latest result
  metRef : Bool
  metOver : Bool
  metSub : Bool
  refLow : Bool             -- REF_SETTLED was 0 since the last result
  acc : Int                 -- frond average of the control-path value
  accN : Nat
  avg : Sig
deriving DecidableEq, Repr

/-- The reference of the precision modulators (R216 to R219). -/
structure RefSt where
  inUse : Nat               -- coded as REF_SEL
  settled : Bool
  left : Nat                -- fronds until REF_SETTLED rises
  fallback : Bool
  badRun : Nat              -- consecutive ticks with VREFX outside its window
deriving DecidableEq, Repr

/-- One auxiliary input (R222 to R225). -/
structure AuxIn where
  res : Sig
  entry : Nat
  gain : Nat                -- GAIN code of the last completed step
  age : Nat                 -- fronds since the result
  stale : Bool
  overF : Bool
  openWire : Bool
  badWord : Bool
  unsettled : Bool
  full : Sig                -- VFS of the last completed step
deriving DecidableEq, Repr

/-- The auxiliary sequencer (R220 to R223). -/
structure AuxSeq where
  inputs : List AuxIn
  entry : Nat
  pos : Nat                 -- ticks done of the step in progress
  passes : Nat
  acc1 : Int                -- sums of the words of the two halves, in 2^-15 of full scale
  acc2 : Int
  bad : Bool                -- a word of the step was 0x8000
  gap : Bool                -- a word of the step had no AUXS entry to take it
  refLow : Bool             -- REF_SETTLED was 0 in the step
  due : Bool                -- the step is complete and its result not yet produced
deriving DecidableEq, Repr

/-- Calibration by spare rotation (R228 to R234). -/
structure CalSt where
  running : Bool            -- a window is in progress
  due : Bool                -- a window is to begin at this frond boundary
  window : Nat
  frond : Nat
  rotations : Nat
  now : Option Nat          -- a window asked for by SENS_CAL_NOW
  back : Option Nat         -- the window the rotation resumes at after it
  takeover : Bool           -- the channel's word is taken from the spare
  spareOn : Bool            -- the spare is connected
  idle : Bool               -- a deferred window passes without action
  unitOut : Bool            -- the unit left service for the window (R232)
  testFail : Bool
  measured : Bool           -- the window's measurements were made
  oldGain : Nat             -- trims before the window (R230)
  oldOff : Nat
  restart : Bool            -- the window waits to restart (R234)
  subst : List Nat          -- SENS_SUBST, one code per cluster
  preSubst : Nat            -- SENS_PRE_SUBST.CHANNEL
  preFailed : Bool
  deferCount : Nat
  deferLast : Nat
  failed : List Bool        -- phase-current modulators 0 to 71 failed
  phGain : List Nat         -- trims of the phase-current modulators, as PRE_CAL holds those of the others (R229)
  phOff : List Nat
  diffAcc : Int             -- sum of own word minus spare's word over fronds 58 to 61, and its number of ticks
  diffN : Nat
  owA : Int                 -- open-wire test (R226): sums and counts of the spare's words without and with the test current
  owAN : Nat
  owB : Int
  owBN : Nat
deriving DecidableEq, Repr

/-- Sensing as a whole (R205 to R234; the internal monitors R227). -/
structure SenseSt where
  pre : List PreCh
  ref : RefSt
  aux : AuxSeq
  cal : CalSt
  intmon : List Sig         -- INTMON0 to 19
  intUns : List Bool        -- REF_SETTLED was 0 in the conversion of the result (R227)
  intPos : Nat              -- tick of the internal monitor cycle, 0 to 1279
  intAcc : Int              -- sum of the words of the conversion in progress
  intLow : Bool             -- REF_SETTLED was 0 in it
  intBad : Bool             -- a word of it was not valid
  intDue : Option (Nat × Int × Bool)   -- a completed conversion: monitor, sum of 32 words, UNSETTLED
  overN : Nat               -- OVERRANGE count of page 0x080 (R207, R235)
deriving DecidableEq, Repr

end Sys2Proof.Machine
end

