-- ==== Sys2Proof/Machine/PartsTw.lean ====
section
/-! DEFINITION. Plain data of the machine, part 8: two-wire ports and image update (spec/13, 17). -/

namespace Sys2Proof.Machine

/-- The reply a target port keeps (R416): ready or waiting, status and body. -/
structure KeptReply where
  ready : Bool
  status : Nat
  body : List Byte
deriving DecidableEq, Repr

/-- One target port, TW0 or TW1 (R405 to R421). -/
structure TwTarget where
  base : Nat                -- base address in use
  page : Nat                -- PMBus PAGE
  lastCode : Nat
  blocks : Nat
  errors : Nat
  reply : Option KeptReply
  hnPend : Nat              -- pending Host Notify summary
  hnFails : Nat             -- consecutive failed fronds, up to 3; 4 once HN_FAIL is recorded
  hnWait : Nat              -- fronds until the next attempt may start
  arbN : Nat                -- retries used of the present transaction (R427)
  arbWait : Bool            -- a retry waits for STOP and the bus-free time
  arbFail : Bool            -- the present transaction has lost arbitration a fourth time
  scl : Bool                -- SCL is held for a REPLY whose reply is not ready (R407)
  tx : Option (List Byte)   -- the bytes the port drove in its latest answer or message; none = it did not acknowledge
deriving DecidableEq, Repr

/-- What a controller port's latest transaction was (R423). -/
inductive TwTx where
  | none
  | nudge
  | charge (m : Nat)
  | poll (i : Nat)
deriving DecidableEq, Repr

/-- One poll of a controller port (R423, R424). -/
structure PollRes where
  valid : Bool
  fails : Nat
  value : Nat
  age : Nat                 -- fronds since the last poll
deriving DecidableEq, Repr

/-- One controller port, TW2 to TW5 (R423 to R431). -/
structure TwCtl where
  arbIndex : Nat
  addr : Nat                -- target address of the latest failed transaction
  stuck : Bool
  stuckAge : Nat            -- fronds STUCK has been set
  fresh : Bool              -- no transaction since reset release: recovery comes first (R428)
  done : Nat
  failed : Nat
  tx : TwTx
  again : List TwTx         -- transactions that failed once in the present frond, oldest first
  retry : List TwTx         -- those of the frond before, which are retried now
  arbN : Nat
  arbWait : Bool
  arbFail : Bool            -- the present transaction has lost arbitration a fourth time
  polls : List PollRes
deriving DecidableEq, Repr

/-- A block that waits in die S during a management pause (R507). -/
inductive HeldBlk where
  | regWrite (n page off : Nat) (words : List Word32)
  | regRead (n page off k : Nat)
  | seq (n tag sq code : Nat) (args : List Byte)
  | opening (src sq : Nat)
  | vout (n v : Nat)
deriving DecidableEq, Repr

/-- Update states, in the order of their codes (UPD_STATE). -/
inductive UpdState where | idle | receiving | verifying | ready | armed | unconfirmed | rollingBack
deriving DecidableEq, Repr

/-- A section of a verified spore (R496). -/
structure SporeSection where
  ty : Nat
  item : Nat
  ver : Nat
  data : List Byte
deriving DecidableEq, Repr

/-- Image update (R498 to R513). -/
structure UpdSt where
  st : UpdState
  session : Nat             -- open session; 0 = none
  lastSession : Nat
  owner : Nat               -- SRC_ID of the lock holder
  total : Nat               -- TOTAL_LEN
  covered : List Nat        -- 8-byte units written, rising
  staging : List (Nat × List Byte)   -- image-page writes to be made: MRAM address and bytes
  doneA : Bool              -- twin A has written the first of them
  doneB : Bool
  idleTicks : Nat           -- tick of the last chunk or command of the session
  newVerified : Bool
  newInvalid : Bool         -- the new slot's content was invalidated
  runSlot : Nat
  setBank : Nat
  sets0 : List (Nat × Nat)  -- settings stored in bank 0: register address and value
  sets1 : List (Nat × Nat)
  fw : Nat                  -- running firmware version
  oldFw : Nat
  fwBoot : Nat              -- firmware version recorded at the previous boot
  sections : List SporeSection   -- of the verified spore, until applied
  hasImage : Bool
  target : Nat              -- target frond of the armed activation or rollback
  resumeAt : Nat            -- frond at which comparison resumes
  left : Nat                -- fronds left of the confirmation timer
  running : Bool            -- the confirmation timer runs
  pause : Bool              -- management pause
  switched : Bool           -- the switch of R506 has been made and comparison is still suspended
  rollCause : Nat           -- cause code of the rollback in progress
  result : Nat
  chunkSt : Nat
  held : List HeldBlk
deriving DecidableEq, Repr

def PollRes.reset : PollRes := ⟨false, 0, 0, 0⟩

def TwTarget.reset (base : Nat) : TwTarget := ⟨base, 0, 0, 0, 0, none, 0, 0, 0, 0, false, false, false, none⟩

def TwCtl.reset : TwCtl := ⟨0, 0, false, 0, true, 0, 0, .none, [], [], 0, false, false, List.replicate 16 .reset⟩

def UpdSt.reset (fw : Nat) : UpdSt :=
  { st := .idle, session := 0, lastSession := 0, owner := 0, total := 0, covered := [], staging := [], doneA := false,
    doneB := false, idleTicks := 0, newVerified := false, newInvalid := false, runSlot := 0, setBank := 0, sets0 := [],
    sets1 := [], fw := fw, oldFw := fw, fwBoot := fw, sections := [], hasImage := false, target := 0, resumeAt := 0, left := 0,
    running := false, pause := false, switched := false, rollCause := 0, result := 0, chunkSt := 0, held := [] }

end Sys2Proof.Machine
end

