-- ==== Sys2Proof/Machine/PartsTwin.lean ====
section
/-! DEFINITION. Plain data of the machine, part 5: twins, accepted work, MRAM, peat log and crust (spec/09, 12). -/

namespace Sys2Proof.Machine

/-- Twin states, in the order of their codes (R294). -/
inductive TwinState where | out | restart | resync | probation | standby | active
deriving DecidableEq, Repr

/-- One twin (R294 to R309). -/
structure TwinSt where
  st : TwinState
  tickMiss : Nat        -- consecutive heartbeats missed on the tick path, up to 2
  sMiss : Nat           -- consecutive heartbeats missed on the S path, up to 2
  tickCount : Nat       -- HB_MISS
  frondCount : Nat
  tickLost : Bool       -- the path is lost under R300
  sLost : Bool
  tickGood : Nat        -- consecutive heartbeats delivered since, up to 64
  sGood : Nat
  selfErr : Nat         -- SELF_ERR_KIND of the latest frame of the tick
  err : Nat             -- SELF_ERR_KIND that the twin reports in the frame of the present tick
  valid : Bool          -- a valid copy arrived in the last tick
  selfErrs : Nat
  quar : Nat            -- QUAR_A or QUAR_B
  quarAt : List Nat     -- epochs of the quarantines that count against QUAR_MAX
  crcTicks : Nat        -- ticks of rule 3 in the present frond
  missTicks : Nat       -- ticks of rule 6 in the present frond
  prob : Nat            -- fronds left in PROBATION
  since : Nat           -- tick of the last quarantine
  relock : Bool         -- the quarantine is for a clock fault
  retired : Bool        -- in OUT by QUAR_MAX
  silentOut : Bool      -- the quarantine was for silence
  outLeft : Nat         -- fronds until an automatic restart
  pages : Nat           -- pages to copy in RESYNC
  stale : List (Nat × Nat)   -- frame words and bits whose control-plane result was missed in the present tick (R60)
  lastWords : List Nat  -- words 2 to 111 of the twin's last frame
deriving DecidableEq, Repr

/-- Twin control (R297 to R302, pages 0x0A0). -/
structure TwinCtl where
  a : TwinSt
  b : TwinSt
  suspend : Bool        -- comparison is suspended: activation window in force
  missing : Nat
  disagree : Nat
  held : Nat
  lastRule : Nat
  lastTwin : Twin
  lastField : Nat
  lastTseq : Nat
  resPages : Nat
  resTicks : Nat
  swapRole : Bool       -- a ROLE_SWAP takes effect at the next boundary
  loadDiffer : Bool     -- the twins' load-check results differed in the present tick (R68, R301)
  outq : List CellBlock -- outbound blocks still to be placed in cells, oldest first (R20)
  dmaOver : List (Nat × Nat)    -- bytes of bank 0x39 that DMA wrote in the present tick after the engine of the word did (R51)
deriving DecidableEq, Repr

/-- A source of accepted work (R311, R312): H, the outcomes stored (sequence, status, result), and the sequences in flight. -/
structure Source where
  id : Nat
  h : Nat
  done : List (Nat × Nat × Nat)
  flight : List Nat
  last : Int            -- tick of its last item, counted from the present reset release: negative before it
deriving DecidableEq, Repr

/-- An accepted item (R314): a command code with its arguments; code 0 is OPEN. -/
structure WorkItem where
  jseq : Nat
  src : Nat
  seq : Nat
  code : Nat
  args : List Byte
  slot : Nat            -- completion-ring entry reserved
  tick : Nat            -- tick of acceptance
  fabric : Bool
  exec : Bool           -- an EXEC marker is journaled
  started : Bool        -- execution has begun and waits for a slow operation
  replay : Bool         -- accepted before the last reset
  result : Option (Nat × Nat)   -- status and result, where the execution has ended
  timed : Option Nat    -- EXEC_TIME of a TIMED item that still waits (R457)
deriving DecidableEq, Repr

/-- Accepted work (R310 to R323, page 0x0A1). -/
structure JrnSt where
  boot : Nat            -- boot count
  next : Nat            -- JSEQ of the next record
  sources : List (Option Source)
  queue : List WorkItem
  compWr : Nat
  compRd : Nat
  held : Nat
  accepted : Nat
  duplicate : Nat
  refused : Nat
  lastCode : Nat
  stepDenied : Nat
  itemsFailed : Nat
  gseq : List Nat       -- GSEQ of each load's current grant-journal slot; 0 = none
  replayDone : Bool
deriving DecidableEq, Repr

/-- MRAM and the NV controller (R370 to R382). -/
structure NvSt where
  a : Memory
  b : Memory
  dirtyA : List Nat     -- pages written while the twin was not running
  dirtyB : List Nat
  badA : List Nat       -- pages with a word that the twin's ECC cannot correct and no other copy replaced (R372)
  badB : List Nat
  busyA : Option Nat    -- page under a slow write
  busyB : Option Nat
  corrected : Nat
  repaired : Nat
  ties : Nat
  tiePage : Nat
  gen : List Nat        -- of each wear ring: generation of the latest slot
  slot : List Nat       -- its slot number
  force : List Nat      -- slot and generation of the value in force
  forceGen : List Nat
  roles : List (Nat × Nat × Nat)   -- role history that ring 1 holds, latest first: boot count, JRN_NEXT, new ACTIVE twin
deriving DecidableEq, Repr

/-- A trigger of the peat log in the present tick (R386). -/
structure PeatTrig where
  kind : Nat
  page : Nat
  bit : Nat
  code : Nat
deriving DecidableEq, Repr

/-- The peat log (R383 to R389). -/
structure PeatSt where
  next : Nat                   -- SEQ of the next record
  bootFirst : Nat              -- SEQ that the first record of the present boot takes
  count : Nat                  -- records retained, up to 4,096 (R383)
  tap : List (List Byte)       -- tap entries: records without SEQ and CRC
  tapFull : Nat
  merged : Nat
  lost : Bool                  -- the next record carries TAP_LOST
  bufs : List (List Nat)       -- last samples of the four signals, latest first
  trig : List PeatTrig         -- triggers of the present tick
  seen : List (Nat × Nat × Nat)  -- page, bit and frond of the last deposit
  standing : List Byte         -- the standing final record
  rdReady : Bool
  gone : Bool
  rdAsked : Bool
  rdSeq : Nat
  data : List Byte
deriving DecidableEq, Repr

/-- One change of a crust item (R394, R395): its cell and its audit record, which is blank where programming stopped before it. -/
structure CrustChange where
  value : List Byte
  audit : List Byte
deriving DecidableEq, Repr

/-- A crust change being programmed (R392, R396). -/
structure CrustJob where
  item : Nat
  value : List Byte
  src : Nat
  spore : Bool
deriving DecidableEq, Repr

/-- The changes programmed in one copy of the crust array, of each item in order (R390). -/
abbrev CrustCopy := List (List CrustChange)

/-- The crust (R390 to R398): the three copies of the array, the changes as the voted reader gives them, and the value in force
of each item. -/
structure CrustSt where
  copies : List CrustCopy
  items : List (List CrustChange)
  force : List (List Byte)
  job : Option CrustJob
  chem : List (List Byte)      -- class records in force (R391, item 7)
  votes : Nat                  -- bits masked by the vote at the last read
deriving DecidableEq, Repr

def TwinSt.reset (st : TwinState) : TwinSt :=
  { st := st, tickMiss := 0, sMiss := 0, tickCount := 0, frondCount := 0, tickLost := false, sLost := false, tickGood := 0,
    sGood := 0, selfErr := 0, err := 0, valid := true, selfErrs := 0, quar := 0, quarAt := [], crcTicks := 0, missTicks := 0,
    prob := 0, since := 0, relock := false, retired := false, silentOut := false, outLeft := 0, pages := 0, stale := [], lastWords := [] }

/-- Twin A is ACTIVE and twin B STANDBY (TWIN_STATE at reset). -/
def TwinCtl.reset : TwinCtl := ⟨.reset .active, .reset .standby, false, 0, 0, 0, 0, .a, 0, 0, 0, 0, false, false, [], []⟩

def JrnSt.reset : JrnSt :=
  ⟨0, 0, List.replicate 32 none, [], 0, 0, 0, 0, 0, 0, 0, 0, 0, List.replicate 256 0, false⟩

def NvSt.reset : NvSt :=
  ⟨[], [], [], [], [], [], none, none, 0, 0, 0, 0, List.replicate 128 0, List.replicate 128 63, List.replicate 128 0,
    List.replicate 128 0, []⟩

def PeatSt.reset : PeatSt := ⟨1, 1, 0, [], 0, 0, false, [[], [], [], []], [], [], [], false, false, false, 0, []⟩

/-- Width in bytes of a crust item (R391). -/
def crustWidth (i : Nat) : Nat :=
  nth [2, 16, 1, 4, 4, 2, 96, 81, 2, 1, 4, 4, 1, 1, 32, 8, 32, 64, 16, 16, 16, 16, 16, 16] i 0

/-- Change budget of a crust item (R391). -/
def crustBudget (i : Nat) : Nat :=
  nth [16, 32, 32, 64, 64, 16, 16, 8, 16, 8, 64, 64, 16, 16, 8, 32, 4, 4, 16, 16, 16, 16, 16, 16] i 0

/-- The shipped value of a crust item (R391). -/
def crustShipped (i : Nat) : List Byte :=
  if i = 1 then (upto 4).flatMap fun _ => leBytes 4 0x000D3333
  else if i = 3 then leBytes 4 0x00300000
  else if i = 7 then 0xFF#8 :: List.replicate 80 0
  else if i = 12 then [7]
  else if i = 13 then [3]
  else if i = 17 then (List.range 64).map fun k => Config.factoryTrim.getD k 0
  else List.replicate (crustWidth i) 0

def CrustSt.reset : CrustSt :=
  ⟨List.replicate 3 (List.replicate 24 []), List.replicate 24 [], (upto 24).map crustShipped, none, (upto 4).map Config.chemShipped, 0⟩

end Sys2Proof.Machine
end

