-- ==== Sys2Proof/Machine/State.lean ====
section
/-! DEFINITION. The state of the machine: plain data, and its value right after reset. -/

namespace Sys2Proof.Machine

/-- The reasons a step can stop. -/
inductive Fault where
  /-- Raised by TICK, ACTUATION_FRAME and FROND_BOUNDARY when a list operand does not have the number of words that the
  frame or the measurement has: such a command is not one of the table's. Safe: the machine stops. -/
  | malformedCommand
deriving DecidableEq, Repr

/-- The reasons a command has no meaning. -/
inductive Refusal where
  /-- Raised by the arms of exec for commands not modelled yet. Safe: the machine stops. -/
  | notModelled (mnemonic : String)
deriving DecidableEq, Repr

/-- Everything the specification gives the block, without the snapshot and the queue. -/
structure Dev where
  time : TimeSt
  sched : SchedSt
  die : DieS
  regs : RegFile
  stat : List BlkStat
  ident : IdentSt
  sup : SupplySt
  rails : List Rail
  units : List PhUnit
  clusters : List Cluster
  runs : List PhaseRun    -- the PHASE entries of the present tick
  inj : InjSt
  cap : CapSt
  sram : Memory           -- SRAM of the twins that compute, and the register files of banks 0x30 to 0x3C (R51)
  sramA : Option Memory   -- SRAM of twin A as it left operation; none while it holds what the computing twins hold
  sramB : Option Memory   -- the same of twin B
  sramS : Memory          -- SRAM of die S, 1 MiB (R3, R9)
  live : List Nat         -- coefficient records whose copy 1 is live (R132)
  sense : SenseSt
  adm : AdmSt
  twin : TwinCtl
  jrn : JrnSt
  nv : NvSt
  peat : PeatSt
  crust : CrustSt
  feedA : Feed
  feedB : Feed
  xfer : Xfer
  hs : List HotSwap
  fh : Fiddle
  bbus : List Bbu
  therm : Therm
  twT : List TwTarget
  twC : List TwCtl
  upd : UpdSt
  mie : MieSt
  dma : List DmaCh
deriving DecidableEq, Repr

/-- The state: the block, the status snapshot of R24, the views held for TW0 and TW1 (R521), and the commands waiting,
first in, first out. -/
structure State where
  d : Dev
  snap : Dev
  held0 : Option Dev
  held1 : Option Dev
  pending : List Instr
deriving DecidableEq, Repr

/-- The time base right after reset release: no tick has begun; TSEQ of the first is 0 (R39). -/
def TimeSt.reset : TimeSt :=
  ⟨false, 0, 0, 0, false, 0, 0, false, false, 0, 0, false, 2, 2, false, false⟩

/-- The schedule page at reset: no image is loaded. -/
def SchedSt.reset : SchedSt :=
  ⟨false, false, false, [], [], false, 0, false, ⟨0, 0, 0⟩, ⟨0, 0, 0⟩, 0, 0, 0, 0, 0, .a, 0, 0, 0, 0, [0, 0, 0, 0], [], [], [],
    []⟩

/-- Before the first sense frame: no valid sample. -/
def SenseWords.reset : SenseWords :=
  ⟨List.replicate 72 0x8000, List.replicate 17 0x8000, List.replicate 8 0x8000, 0⟩

/-- Die S at reset: nothing applied, outputs safe. -/
def DieS.reset : DieS :=
  ⟨none, none, [], .a, false, false, false, false, false, 0, false, none, .reset, false, false, false, false, [], [], [], 0, 0, [], 0, false, false,
    false, false, false, false, true, true, true, true, 0xFF, 0, 0⟩

def RegFile.reset : RegFile := ⟨[], [], [], [], [], []⟩

def IdentSt.reset : IdentSt := ⟨false, 0, false, false, false, false, 0, 0⟩

/-- Supplies at reset release: all in range. -/
def SupplySt.reset : SupplySt :=
  { inReset := false, vcoreA := true, vcoreB := true, vcoreS := true, vanaG0 := true, vanaG1 := true, vgdOk := true, vauxWarn := false,
    vauxMin := false, holdLow := false, holdSeen := false, testen := false, standby := false, standbyReq := false, nackTo := 0, auxSwitch := false }

def Rail.reset : Rail :=
  { st := .off, gateOn := false, wantOn := false, startDue := false, firstTick := false, refU := 0, leadSw := none,
    tgtLast := 0, target := 0, setpLost := false, ceiling := false, tracking := false, vs := 0, ir := 0, cap := 0, capRef := 0,
    derated := false, satC := false, hist := [], ovl := 0, uv := 0, ovRun := 0, shortRun := 0, flimRun := 0,
    limiting := false, rawPg := false, pgRun := 0, dwell := 0, noMark := 0, retryUsed := 0, retryLeft := 0,
    ovDecl := false, ovTrip := false, ptr := 0, ptrS := 0, undo := 0, undoOld := 0, burst := false, unann := false,
    counter := 0, fsw := 1333, setpWin := [], vAcc := 0, iAcc := 0, accN := 0, vAvg := 0, iAvg := 0 }

def PhUnit.reset : PhUnit :=
  { st := .unassigned, slot := 0, offset := 0, toStart := 0, onTime := 0, ext := 0, age := 0, moved := false, hist := [], cur := 0,
    valid := true, ovl := 0, badRun := 0, imonInv := false, flim := false, flimNow := false, temp := none, duty := 0,
    applied := 0, tri := true, triOn := true, xp := false, clamps := 0, flims := 0, since := 0, hold := false, trip := false,
    pulse := [], xpAt := none, xpLeft := 0, curAcc := 0,
    accN := 0, curAvg := 0 }

def Cluster.reset : Cluster := ⟨2, 0, 0, 0, 0⟩

def InjSt.reset : InjSt := ⟨false, 0, false, false, true, 0, 0, 0, [], []⟩

def CapSt.reset : CapSt := ⟨.idle, false, false, false, false, false, 0, 0, 0, 0, 0, 0, 0, 0, 0, false, [], false, false⟩

def PreCh.reset : PreCh :=
  ⟨0, 0, false, 0, 0, 0, false, false, 0, 0, 0, true, false, false, false, true, 0, 0, 0⟩

/-- The reference after reset: REF_SETTLED is 0 until REF_SETTLE fronds, 16 at reset, after it is enabled (R218). -/
def RefSt.reset : RefSt := ⟨0, false, 16, false, 0⟩

def AuxIn.reset : AuxIn := ⟨0, 0, 0, 0, false, false, false, false, true, 0⟩

def AuxSeq.reset : AuxSeq := ⟨List.replicate 32 .reset, 0, 0, 0, 0, 0, false, false, false, false⟩

def CalSt.reset : CalSt :=
  ⟨false, false, 0, 0, 0, none, none, false, false, false, false, false, false, 0, 0, false, List.replicate 8 8, 0x1F, false,
    0, 0, List.replicate 72 false, List.replicate 72 0, List.replicate 72 0, 0, 0, 0, 0, 0, 0⟩

def SenseSt.reset : SenseSt :=
  ⟨List.replicate 17 .reset, .reset, .reset, .reset, List.replicate 20 0, List.replicate 20 false, 0, 0, false, false, none, 0⟩

/-- The block right after reset. -/
def Dev.reset : Dev :=
  { time := .reset, sched := .reset, die := .reset, regs := .reset, stat := [], ident := .reset, sup := .reset,
    rails := List.replicate 4 .reset, units := List.replicate 64 .reset, clusters := List.replicate 8 .reset, runs := [],
    inj := .reset, cap := .reset, sram := [], sramA := none, sramB := none, sramS := [], live := [], sense := .reset,
    adm := .reset, twin := .reset, jrn := .reset,
    nv := .reset, peat := .reset, crust := .reset, feedA := .reset, feedB := .reset, xfer := .reset,
    hs := List.replicate 4 .reset, fh := .reset, bbus := List.replicate 4 .reset, therm := .reset,
    twT := [.reset 0x40, .reset 0x50], twC := List.replicate 4 .reset, upd := .reset Config.fwShipped.toNat, mie := .reset,
    dma := List.replicate 16 .reset }

/-- What the snapshot shows before the first frond boundary: every read-only field at its reset value, PA_TIMEBASE included
(R123, R24). -/
def Dev.atReset (d : Dev) : Dev := { d with die := { d.die with lockG0 := false, lockG1 := false } }

def Dev.resetView : Dev := Dev.reset.atReset

/-- The machine right after reset. -/
def State.reset : State := ⟨.reset, .resetView, none, none, []⟩

end Sys2Proof.Machine
end

