-- ==== Sys2Proof/Machine/Ops.lean ====
section
/-! DEFINITION. Named operations over memory, the register file and the parts of the state (R5, R23, R28, R29, R51). -/

namespace Sys2Proof.Machine

/-- The outcome of a command. -/
abbrev Out := Host.Outcome State Fault Refusal

/-- The state with the block's own part rewritten by `f`. -/
def State.upd (f : Dev → Dev) (s : State) : State := { s with d := f s.d }

/-- A command that completes with effect `f` on the block. -/
def done (f : Dev → Dev) (s : State) : Out := .next (s.upd f)

/-! ### Bit masks -/

/-- `v` without the bits of `m`. -/
def clrBits (v m : Nat) : Nat := v ^^^ (v &&& m)

/-- The bits of `m` taken from `x`, the others from `v`. -/
def mergeBits (v x m : Nat) : Nat := clrBits v m ||| (x &&& m)

/-! ### Byte memory: addresses strictly rising, no zero byte listed -/

/-- What an address that is not listed reads as. -/
def memDefault : Byte := 0

/-- The byte at an address. -/
def memRead : Memory → Nat → Byte
  | [], _ => memDefault
  | (k, v) :: m, a => if a = k then v else memRead m a

/-- The memory without the entry of an address. -/
def memErase : Memory → Nat → Memory
  | [], _ => []
  | (k, v) :: m, a => if k = a then memErase m a else (k, v) :: memErase m a

/-- The memory with a listed byte put in its place. -/
def memInsert : Memory → Nat → Byte → Memory
  | [], a, b => [(a, b)]
  | (k, v) :: m, a, b =>
    if a < k then (a, b) :: (k, v) :: m
    else if a = k then (a, b) :: m
    else (k, v) :: memInsert m a b

/-- Write of one byte; a byte equal to what an unlisted address reads as is not listed. -/
def memWrite (m : Memory) (a : Nat) (b : Byte) : Memory :=
  if b = memDefault then memErase m a else memInsert m a b

/-- Whether every address of a memory is above a bound and rising. -/
def memRising : Nat → Memory → Bool
  | _, [] => true
  | lo, (k, v) :: m => decide (lo ≤ k) && decide (v ≠ memDefault) && memRising (k + 1) m

/-- The canonical form of a memory. -/
def Memory.wf (m : Memory) : Bool := memRising 0 m

/-- `k` bytes from an address. -/
def memBytes (m : Memory) (a k : Nat) : List Byte := (upto k).map fun i => memRead m (a + i)

/-- Write of a list of bytes from an address. -/
def memWriteBytes (m : Memory) (a : Nat) : List Byte → Memory
  | [] => m
  | b :: l => memWriteBytes (memWrite m a b) (a + 1) l

/-- The little-endian 32-bit word at an address. -/
def memWord (m : Memory) (a : Nat) : Nat := leNat (memBytes m a 4)

/-- Write of a little-endian 32-bit word. -/
def memPutWord (m : Memory) (a v : Nat) : Memory := memWriteBytes m a (leBytes 4 v)

/-! ### Tables of numbered values, keys rising -/

/-- The value listed under a key. -/
def alGet : List (Nat × Nat) → Nat → Option Nat
  | [], _ => none
  | (k, v) :: l, a => if k = a then some v else alGet l a

/-- The table without a key. -/
def alErase : List (Nat × Nat) → Nat → List (Nat × Nat)
  | [], _ => []
  | (k, v) :: l, a => if k = a then alErase l a else (k, v) :: alErase l a

/-- The table with a key's value set. -/
def alSet : List (Nat × Nat) → Nat → Nat → List (Nat × Nat)
  | [], a, v => [(a, v)]
  | (k, x) :: l, a, v =>
    if a < k then (a, v) :: (k, x) :: l
    else if a = k then (a, v) :: l
    else (k, x) :: alSet l a v

/-! ### The register file -/

/-- The register address of R5. -/
def regAddr (pg off : Nat) : Nat := pg * 0x1000 + off

/-- The value at reset of the register at an address. -/
def resetAt (a : Nat) : Nat := resetOf (a / 0x1000) (a % 0x1000)

/-- The writable fields of a register, as in force. -/
def RegFile.val (r : RegFile) (pg off : Nat) : Nat := (alGet r.force (regAddr pg off)).getD (resetOf pg off)

/-- Sets the value in force; a value equal to the reset value is not listed. -/
def RegFile.setVal (r : RegFile) (a v : Nat) : RegFile :=
  { r with force := if v = resetAt a then alErase r.force a else alSet r.force a v }

/-- The canonical form of the values in force. -/
def forceWf : List (Nat × Nat) → Nat → Bool
  | [], _ => true
  | (k, v) :: l, lo => decide (lo ≤ k) && decide (v ≠ resetAt k) && forceWf l (k + 1)

/-- The value in force of a register of the block. -/
def Dev.reg (d : Dev) (pg off : Nat) : Nat := d.regs.val pg off

/-- A field of a register in force. -/
def Dev.fld (d : Dev) (pg off hi lo : Nat) : Nat := bits (d.reg pg off) hi lo

/-- A one-bit field of a register in force. -/
def Dev.flag (d : Dev) (pg off i : Nat) : Bool := bitAt (d.reg pg off) i

/-- A signed 32-bit register in force. -/
def Dev.sreg (d : Dev) (pg off : Nat) : Int := signed 32 (d.reg pg off)

/-- Sets a field of a register in force, without any further effect. -/
def Dev.setFld (d : Dev) (pg off hi lo v : Nat) : Dev :=
  { d with regs := d.regs.setVal (regAddr pg off) (putBits (d.reg pg off) hi lo v) }

/-- Sets a register in force, without any further effect. -/
def Dev.setReg (d : Dev) (pg off v : Nat) : Dev := { d with regs := d.regs.setVal (regAddr pg off) v }

/-- What a read shows of the writable fields of a register: RWS fields read their shadow copy (R568), deferred RW fields
the value written (R566). -/
def Dev.cfgRead (d : Dev) (pg off : Nat) : Nat :=
  let a := regAddr pg off
  let v := d.reg pg off
  match regRow pg off with
  | none => 0
  | some r =>
    mergeBits (mergeBits 0 ((alGet d.regs.shadow a).getD v) r.rws) ((alGet d.regs.deferred a).getD v) r.rw

/-! ### Parts of the state by number -/

def Dev.rail (d : Dev) (r : Nat) : Rail := nth d.rails r Rail.reset
def Dev.unit (d : Dev) (n : Nat) : PhUnit := nth d.units n PhUnit.reset
def Dev.cluster (d : Dev) (k : Nat) : Cluster := nth d.clusters k Cluster.reset

def Dev.updRail (d : Dev) (r : Nat) (f : Rail → Rail) : Dev := { d with rails := updAt d.rails r f }
def Dev.updUnit (d : Dev) (n : Nat) (f : PhUnit → PhUnit) : Dev := { d with units := updAt d.units n f }
def Dev.updCluster (d : Dev) (k : Nat) (f : Cluster → Cluster) : Dev := { d with clusters := updAt d.clusters k f }

/-- A fold of an effect over the numbers below `n`, rising. -/
def foldN (n : Nat) (f : Dev → Nat → Dev) (d : Dev) : Dev := (upto n).foldl f d

/-- An effect under a condition. -/
def Dev.when (c : Bool) (f : Dev → Dev) (d : Dev) : Dev := if c then f d else d

/-- The number of a code among the first `n` numbers for which `p` holds, least first. -/
def firstN (n : Nat) (p : Nat → Bool) : Option Nat := (upto n).find? p

/-- How many of the numbers below `n` satisfy `p`. -/
def countN (n : Nat) (p : Nat → Bool) : Nat := ((upto n).filter p).length

/-- An element put into a sorted list. -/
def insertBy {α : Type} (le : α → α → Bool) (a : α) : List α → List α
  | [] => [a]
  | b :: l => if le a b then a :: b :: l else b :: insertBy le a l

/-- A list sorted by `le`. -/
def sortBy {α : Type} (le : α → α → Bool) : List α → List α
  | [] => []
  | a :: l => insertBy le a (sortBy le l)

/-- An inbound block waits for message cells once its interface framer has received it whole and checked it (R20). -/
def Dev.inBlock (d : Dev) (chan : Nat) (l : List Byte) : Dev :=
  { d with die := { d.die with inq := d.die.inq ++ [⟨chan, l, false⟩] } }

/-- The twins make an outbound block (R20). -/
def Dev.putOut (d : Dev) (chan : Nat) (l : List Byte) : Dev :=
  { d with twin := { d.twin with outq := d.twin.outq ++ [⟨chan, l, false⟩] } }

/-- The tick phase of the present tick (R39). -/
def Dev.phase (d : Dev) : Nat := d.time.tseq % 256

/-- The frond number TSEQ[23:8] (R39). -/
def Dev.frondNo (d : Dev) : Nat := d.time.tseq / 256

/-- Saturation to a signed 32-bit number. -/
def sat32 (x : Int) : Int := clampI (-(2 ^ 31)) (2 ^ 31 - 1) x

/-! ### SRAM banks (R51) -/

/-- The byte address in the model's SRAM of an operand descriptor (R46). -/
def descAddr (desc : Nat) : Nat := bits desc 20 15 * 2 ^ 18 + bits desc 14 0 * 8

/-- A descriptor that names no operand. -/
def descUnused (desc : Nat) : Bool := bits desc 20 15 == 0x3F

/-- The signed word `i` at an operand. -/
def Dev.opWord (d : Dev) (desc i : Nat) : Int := signed 32 (memWord d.sram (descAddr desc + 4 * i))

/-- The word `i` at an operand, as a number. -/
def Dev.opNat (d : Dev) (desc i : Nat) : Nat := memWord d.sram (descAddr desc + 4 * i)

/-- Write of word `i` at an operand. -/
def Dev.putOp (d : Dev) (desc i : Nat) (v : Int) : Dev :=
  { d with sram := memPutWord d.sram (descAddr desc + 4 * i) (unsigned 32 v) }

end Sys2Proof.Machine
end

