-- ==== Sys2Proof/Machine/Flags.lean ====
section
/-! DEFINITION. Status words: occurrences, first cause and merging (R480, R481), and the cause codes of every page. -/

namespace Sys2Proof.Machine

/-- The cause code of a BLK_STATUS bit; where a bit has several, the first of its chapter's table. -/
def causeOf (pg bit : Nat) : Nat :=
  if pg = 0x02 then bit + 1
  else if pg = 0x70 then (if bit = 0 then 1 else bit + 2)
  else if pg = 0x98 then
    (if bit < 2 then bit + 1 else if bit < 12 then bit + 2 else if bit = 12 then 0xE else bit + 3)
  else if pg = 0xA4 then (if bit < 5 then bit + 1 else 8)
  else if pg = 0xA8 then (if bit < 9 then bit + 1 else bit + 2)
  else if pg = 0xB2 then (if bit < 2 then bit + 1 else bit + 2)
  else if 0xBA ≤ pg ∧ pg ≤ 0xBD then (if bit < 5 then bit + 1 else bit + 2)
  else if pg = 0xC8 then (if bit < 16 then 0x100 + bit else 0x1000 + 0x100 * (bit - 16))
  else if pg = 0xD0 then (if bit < 4 then bit + 1 else bit + 3)
  else bit + 1

/-- How many BLK_STATUS bits a page defines (R72 to R522); the bits above are reserved. -/
def statusBits (pg : Nat) : Nat :=
  if pg = 0 then 3 else if pg = 1 then 5 else if pg = 2 then 3
  else if 0x20 ≤ pg ∧ pg < 0x28 then 4 else if 0x28 ≤ pg ∧ pg < 0x2C then 11
  else if 0x30 ≤ pg ∧ pg < 0x70 then 5 else if pg = 0x70 then 3
  else if pg = 0x74 then 7 else if pg = 0x75 then 5 else if pg = 0x78 then 5
  else if pg = 0x80 then 8 else if pg = 0x81 then 3 else if pg = 0x82 then 4
  else if 0x84 ≤ pg ∧ pg < 0x95 then 4 else if pg = 0x98 then 16 else if pg = 0x99 then 13
  else if 0x9C ≤ pg ∧ pg < 0xA0 then 12 else if pg = 0xA0 then 12 else if pg = 0xA1 then 6
  else if pg = 0xA4 then 6 else if pg = 0xA5 then 5 else if pg = 0xA8 then 13
  else if pg = 0xB0 then 6 else if pg = 0xB1 then 3 else if pg = 0xB2 then 5
  else if pg = 0xB8 ∨ pg = 0xB9 then 10 else if 0xBA ≤ pg ∧ pg < 0xBE then 7
  else if pg = 0xC0 then 8 else if pg = 0xC1 then 8 else if pg = 0xC2 then 6
  else if pg = 0xC8 then 32 else if pg = 0xD0 then 8 else if pg = 0xD1 then 2 else if pg = 0xE0 then 4
  else 0

/-- The bit CLAMPED of a page, where it has one. -/
def clampBit (pg : Nat) : Option Nat :=
  if 0x28 ≤ pg ∧ pg < 0x2C then some 7 else if 0x30 ≤ pg ∧ pg < 0x70 then some 3
  else if pg = 0x74 then some 5 else if pg = 0x75 then some 4 else if pg = 0x78 then some 4
  else if pg = 0x80 then some 7 else if pg = 0x81 then some 2 else if pg = 0x82 then some 3
  else if 0x84 ≤ pg ∧ pg < 0x95 then some 3 else if pg = 0x98 then some 15 else if pg = 0x99 then some 12
  else if 0x9C ≤ pg ∧ pg < 0xA0 then some 11 else if pg = 0xA4 then some 5 else if pg = 0xA8 then some 12
  else if pg = 0xB8 ∨ pg = 0xB9 then some 9 else if 0xBA ≤ pg ∧ pg < 0xBE then some 6
  else if pg = 0xC0 then some 7 else if pg = 0xC1 then some 7 else if pg = 0xC2 then some 5
  else if pg = 0xD0 then some 7 else if pg = 0xE0 then some 1 else none

/-- The status words of a page at reset. -/
def BlkStat.zero (pg : Nat) : BlkStat := ⟨pg, 0, 0, 0, false, 0, none, [], 0⟩

/-- The status words of a page. -/
def Dev.statOf (d : Dev) (pg : Nat) : BlkStat := (d.stat.find? fun b => b.page == pg).getD (BlkStat.zero pg)

/-- The list of status words with those of a page rewritten. -/
def statUpd (pg : Nat) (f : BlkStat → BlkStat) : List BlkStat → List BlkStat
  | [] => [f (BlkStat.zero pg)]
  | b :: l => if b.page = pg then f b :: l else b :: statUpd pg f l

/-- Rewrites the status words of a page. -/
def Dev.updStat (d : Dev) (pg : Nat) (f : BlkStat → BlkStat) : Dev := { d with stat := statUpd pg f d.stat }

/-- BLK_STATUS of a page. -/
def Dev.status (d : Dev) (pg : Nat) : Nat := (d.statOf pg).status

/-- One BLK_STATUS bit of a page. -/
def Dev.stBit (d : Dev) (pg bit : Nat) : Bool := bitAt (d.status pg) bit

/-- A waiting clear notes an occurrence (R484). -/
def PendClear.note (m : Nat) (p : PendClear) : PendClear := { p with newOcc := p.newOcc ||| m }

/-- An occurrence of a bit in a page's status words: it sets the bit and counts at most once per tick (R480); the lowest-numbered bit of the
tick that found BLK_STATUS at 0 supplies CAUSE, every other occurrence adds 1 to MERGED (R481). -/
def BlkStat.occur (b : BlkStat) (bit code : Nat) : BlkStat :=
  let m := 2 ^ bit
  if bitAt b.tickOcc bit then { b with status := b.status ||| m, pend := b.pend.map (PendClear.note m) }
  else
    let b' := { b with status := b.status ||| m, tickOcc := b.tickOcc ||| m,
                       rose := if bitAt b.status bit then b.rose else b.rose ||| m,
                       pend := b.pend.map (PendClear.note m) }
    match b.causeBit with
    | none =>
      if b.status = 0 then { b' with cause := code, causeBit := some bit }
      else { b' with merged := satInc 255 b.merged }
    | some c =>
      if bit < c then { b' with cause := code, causeBit := some bit, merged := satInc 255 b.merged }
      else { b' with merged := satInc 255 b.merged }

/-- An occurrence of a bit with a cause code of its own. -/
def Dev.occurC (d : Dev) (pg bit code : Nat) : Dev := d.updStat pg fun b => b.occur bit code

/-- An occurrence of a bit. -/
def Dev.occur (d : Dev) (pg bit : Nat) : Dev := d.occurC pg bit (causeOf pg bit)

/-- Occurrences of every bit of a mask, lowest first, among the bits the page defines. -/
def Dev.occurMask (d : Dev) (pg mask : Nat) : Dev :=
  foldN (statusBits pg) (fun d i => if bitAt mask i then d.occur pg i else d) d

/-- A new tick: occurrences may count again (R480). -/
def BlkStat.newTick (b : BlkStat) : BlkStat := { b with tickOcc := 0, causeBit := none, rose := 0 }

/-- A clear of the bits of `mask` that are not in `refuse` (R484): a refused bit that was requested and set sets
CLEAR_REFUSED; CAUSE and MERGED return to 0 when BLK_STATUS does (R481). -/
def BlkStat.clear (b : BlkStat) (mask refuse : Nat) : BlkStat :=
  let st := clrBits b.status (clrBits mask refuse)
  let ref := (mask &&& refuse &&& b.status) != 0
  let b' := { b with status := st, clearRefused := b.clearRefused || ref }
  if st = 0 then { b' with cause := 0, merged := 0, causeBit := none, tickOcc := 0 } else b'

/-- The value BLK_CAUSE reads. -/
def BlkStat.causeReg (b : BlkStat) : Nat := b2n b.clearRefused * 2 ^ 31 + b.merged * 2 ^ 16 + b.cause % 2 ^ 16

/-- Sets or clears a bit of a 32-bit mask. -/
def setBit (v i : Nat) (x : Bool) : Nat := putBits v i i (b2n x)

/-- Records CLAMPED where the nearest limits changed a value. Page 0x076 holds no status bits: its CLAMPED is that of page 0x078, as
its REFUSED is (R196, R199, log entry 85). -/
def Dev.clamped (d : Dev) (pg old new : Nat) : Dev :=
  let p := if pg = 0x76 then 0x78 else pg
  if old = new then d
  else match clampBit p with
    | none => d
    | some b => d.occur p b

end Sys2Proof.Machine
end

