-- ==== Sys2Proof/Machine/Operands.lean ====
section
/-! DEFINITION. Frames and checks: the CRCs of R159, R317 and R565, request and reply frames of the step ports (R164, R166),
words of the tick frames (R16, R18). -/

namespace Sys2Proof.Machine

/-! ### CRCs -/

/-- One bit of a CRC of width `w`, most significant bit first. -/
def crcBit (w poly c : Nat) : Nat :=
  if bitAt c (w - 1) then ((2 * c) % 2 ^ w) ^^^ poly else 2 * c

/-- One byte of a CRC of width `w`. -/
def crcByte (w poly c : Nat) (b : Byte) : Nat :=
  (upto 8).foldl (fun c _ => crcBit w poly c) (c ^^^ (b.toNat * 2 ^ (w - 8)))

/-- CRC-8 of R159. -/
def crc8 (l : List Byte) : Nat := l.foldl (crcByte 8 0x07) 0

/-- CRC-16 of R317. -/
def crc16 (l : List Byte) : Nat := l.foldl (crcByte 16 0x1021) 0xFFFF

/-- One bit of the reflected CRC-32. -/
def crc32Bit (c : Nat) : Nat := if c % 2 = 1 then (c / 2) ^^^ 0xEDB88320 else c / 2

/-- CRC-32 of R565: reflected, initial value all ones, complemented. -/
def crc32 (l : List Byte) : Nat :=
  (l.foldl (fun c b => (upto 8).foldl (fun c _ => crc32Bit c) (c ^^^ b.toNat)) 0xFFFFFFFF) ^^^ 0xFFFFFFFF

/-- The bytes of a list of frame words, most significant byte first (R565). -/
def wordBytes (l : List Word32) : List Byte := l.flatMap fun w => beBytes 4 w.toNat

/-- The header and payload of a Mieno frame on the wire (R435). -/
def mieBytes (f : MFrame) : List Byte :=
  [BitVec.ofNat 8 (f.kind % 16 + 16 * (f.format % 16)),
    BitVec.ofNat 8 (f.ring % 2 + 2 * b2n f.bcast + 4 * b2n f.link + 8 * b2n f.restart)] ++
    leBytes 2 (f.src % 1024) ++ leBytes 2 (f.dst % 1024) ++ leBytes 2 f.fseq ++ leBytes 2 (f.hops % 2048) ++
    leBytes 2 f.payload.length ++ List.replicate 4 0 ++ f.payload

/-- The CRC-32 of a Mieno frame, over header and payload (R435, R565). -/
def mieCrc (f : MFrame) : Word32 := BitVec.ofNat 32 (crc32 (mieBytes f))

/-- A Mieno frame came with the CRC of its bytes. -/
def mieCrcOk (f : MFrame) : Bool := f.crc == mieCrc f

/-- A Mieno frame with its CRC. -/
def mieSeal (f : MFrame) : MFrame := { f with crc := mieCrc f }

/-- The ASCII bytes of a string. -/
def strBytes (s : String) : List Byte := s.toList.map fun c => BitVec.ofNat 8 c.toNat

/-! ### Step-port frames -/

/-- Bytes 1 to 6 of a frame, byte 0 being its bits [63:56]. -/
def frameBytes (f : StepFrame) : List Byte := beBytes 6 (bits f.toNat 55 8)

/-- The CRC-8 of a frame is correct. -/
def frameCrcOk (f : StepFrame) : Bool := crc8 (frameBytes f) == bits f.toNat 7 0

def reqLoad (f : StepFrame) : Nat := bits f.toNat 55 48
def reqKind (f : StepFrame) : Nat := bits f.toNat 47 44
def reqMag (f : StepFrame) : Nat := bits f.toNat 43 32
def reqRamp (f : StepFrame) : Nat := bits f.toNat 31 28
def reqHold (f : StepFrame) : Nat := bits f.toNat 27 24
def reqSeq (f : StepFrame) : Nat := bits f.toNat 23 16
def reqRsvd (f : StepFrame) : Nat := bits f.toNat 15 8

/-- The reply frame of R166. -/
def replyFrame (load seq dec cap ramp off mag : Nat) : StepFrame :=
  let body := load * 2 ^ 40 + seq * 2 ^ 32 + dec * 2 ^ 29 + cap * 2 ^ 27 + ramp * 2 ^ 23 + off * 2 ^ 15 + mag * 2 ^ 3
  BitVec.ofNat 64 (0x5C * 2 ^ 56 + body * 2 ^ 8 + crc8 (beBytes 6 body))

/-! ### Actuation frames (R18) -/

/-- Word `i` of a frame, as a number. -/
def frameWord (f : List Word32) (i : Nat) : Nat := (f.getD i 0).toNat

/-- The number of words of an actuation frame. -/
def actWords : Nat := 113

def actType (f : List Word32) : Nat := bits (frameWord f 0) 31 24
def actTseq (f : List Word32) : Nat := bits (frameWord f 0) 23 0
def actTwin (f : List Word32) : Nat := bits (frameWord f 1) 0 0
def actRole (f : List Word32) : Bool := bitAt (frameWord f 1) 1
def actErr (f : List Word32) : Nat := bits (frameWord f 1) 5 2
def actSuspend (f : List Word32) : Bool := bitAt (frameWord f 1) 6
def actDuty (f : List Word32) (n : Nat) : Nat := bits (frameWord f (2 + n / 2)) (16 * (n % 2) + 15) (16 * (n % 2))
def actTri (f : List Word32) (n : Nat) : Bool := bitAt (frameWord f (34 + n / 32)) (n % 32)
def actXp (f : List Word32) (n : Nat) : Bool := bitAt (frameWord f (36 + n / 32)) (n % 32)
def actGate (f : List Word32) (i : Nat) : Bool := bitAt (frameWord f 38) i
def actThr (f : List Word32) (n : Nat) : Bool := bitAt (frameWord f 39) n
def actGv (f : List Word32) (n : Nat) : Bool := bitAt (frameWord f 39) (16 + n)
def actGrant (f : List Word32) (n : Nat) : StepFrame :=
  BitVec.ofNat 64 (frameWord f (40 + 2 * n) * 2 ^ 32 + frameWord f (41 + 2 * n))
/-- Byte `j` of message cell `c`; the byte order of a cell within its words is that of the link, most significant byte
first (log entry 11). -/
def actCell (f : List Word32) (c j : Nat) : Byte :=
  BitVec.ofNat 8 (bits (frameWord f (72 + 8 * c + j / 4)) (31 - 8 * (j % 4)) (24 - 8 * (j % 4)))

/-- Whether the CRC-32 of an actuation frame is correct (R12). -/
def actCrcOk (f : List Word32) : Bool := crc32 (wordBytes (f.take 112)) == frameWord f 112

/-- Two copies agree (R12): every word but the first two and the CRC. -/
def actSame (f g : List Word32) : Bool := (f.take 112).drop 2 == (g.take 112).drop 2

end Sys2Proof.Machine
end

