-- ==== Sys2Proof/Machine/Nv.lean ====
section
/-! DEFINITION. Writes to MRAM and wear rings, the record places of the parameter area (R370 to R382), and counting with
saturation. -/

namespace Sys2Proof.Machine

/-- A twin that holds state and writes its MRAM. -/
def TwinState.running : TwinState → Bool
  | .probation | .standby | .active => true
  | _ => false

/-- The twin that is ACTIVE; A where none is. -/
def Dev.activeTwin (d : Dev) : Twin := if d.twin.b.st = .active then .b else .a

def Dev.twinOf (d : Dev) : Twin → TwinSt
  | .a => d.twin.a
  | .b => d.twin.b

def Dev.updTwin (d : Dev) (t : Twin) (f : TwinSt → TwinSt) : Dev :=
  match t with
  | .a => { d with twin := { d.twin with a := f d.twin.a } }
  | .b => { d with twin := { d.twin with b := f d.twin.b } }

/-- The other twin. -/
def otherTwin : Twin → Twin
  | .a => .b
  | .b => .a

/-- The pages that `k` bytes from an address touch. -/
def pagesOf (a k : Nat) : List Nat := (upto ((a % 256 + k + 255) / 256)).map (a / 256 + ·)

/-- Adds numbers to a list without repeats. -/
def addNew (l m : List Nat) : List Nat := m.foldl (fun l x => if l.contains x then l else l ++ [x]) l

/-- `k` bytes from an address can be read in each twin's copy: no word of their pages is uncorrectable (R372). -/
def NvSt.readableA (n : NvSt) (addr k : Nat) : Bool := !(pagesOf addr k).any n.badA.contains
def NvSt.readableB (n : NvSt) (addr k : Nat) : Bool := !(pagesOf addr k).any n.badB.contains

/-- A write to both twins' MRAM, with each twin's bytes; the pages of a twin that does not run are kept for its return
(R304, R371). -/
def Dev.nvPut2 (d : Dev) (addr : Nat) (ba bb : List Byte) : Dev :=
  let n := d.nv
  let ra := d.twin.a.st.running
  let rb := d.twin.b.st.running
  { d with nv := { n with
      a := if ra then memWriteBytes n.a addr ba else n.a, b := if rb then memWriteBytes n.b addr bb else n.b,
      badA := if ra then n.badA.filter fun p => !(pagesOf addr ba.length).contains p else n.badA,
      badB := if rb then n.badB.filter fun p => !(pagesOf addr bb.length).contains p else n.badB,
      dirtyA := if ra then n.dirtyA else addNew n.dirtyA (pagesOf addr ba.length),
      dirtyB := if rb then n.dirtyB else addNew n.dirtyB (pagesOf addr bb.length) } }

/-- A write of the same bytes to both copies. -/
def Dev.nvPut (d : Dev) (addr : Nat) (bs : List Byte) : Dev := d.nvPut2 addr bs bs

/-- Whether twin `t` is ACTIVE, as a number. -/
def Dev.isActiveN (d : Dev) (t : Twin) : Nat := b2n (decide ((d.twinOf t).st = .active))

/-- A read of MRAM by the twins: the ACTIVE twin's copy; where its words are uncorrectable, that of the other running twin; where
those are too, zeros, which fail every CRC (R372). The copies hold the same records but for the bits that name the writing twin
(R382). -/
def Dev.nvGet (d : Dev) (addr k : Nat) : List Byte :=
  let ra := d.twin.a.st.running && d.nv.readableA addr k
  let rb := d.twin.b.st.running && d.nv.readableB addr k
  if d.activeTwin = .b then
    if d.nv.readableB addr k then memBytes d.nv.b addr k else if ra then memBytes d.nv.a addr k else List.replicate k 0
  else if d.nv.readableA addr k then memBytes d.nv.a addr k
  else if rb then memBytes d.nv.b addr k else List.replicate k 0

/-- A record closed by its CRC-16. -/
def with16 (l : List Byte) : List Byte := l ++ leBytes 2 (crc16 l)

/-- A record closed by its CRC-32. -/
def with32 (l : List Byte) : List Byte := l ++ leBytes 4 (crc32 l)

/-- `l` cut or padded with zeros to `k` bytes. -/
def padTo (k : Nat) (l : List Byte) : List Byte := (upto k).map fun i => l.getD i 0

/-- One slot of a wear ring (R378). -/
def ringSlot (gen kind act info : Nat) (payload : List Byte) : List Byte :=
  with16 (leBytes 4 gen ++ [BitVec.ofNat 8 (kind + 128 * act), BitVec.ofNat 8 info] ++ padTo 8 payload)

/-- Writes the next slot of ring `n`. -/
def Dev.ringStep (d : Dev) (n kind info : Nat) (payload : List Byte) : Dev :=
  let g := nth d.nv.gen n 0 + 1
  let s := (nth d.nv.slot n 63 + 1) % 64
  let d := d.nvPut2 (0x330000 + 1024 * n + 16 * s) (ringSlot g kind (d.isActiveN .a) info payload)
    (ringSlot g kind (d.isActiveN .b) info payload)
  { d with nv := { d.nv with gen := updAt d.nv.gen n fun _ => g % 2 ^ 32, slot := updAt d.nv.slot n fun _ => s } }

/-- The latest slot of ring `n` becomes the value in force. -/
def Dev.ringForce (d : Dev) (n : Nat) : Dev :=
  { d with nv := { d.nv with force := updAt d.nv.force n fun _ => nth d.nv.slot n 0,
                             forceGen := updAt d.nv.forceGen n fun _ => nth d.nv.gen n 0 } }

/-- The role history in ring 1 (R380): 64 slots hold at most 21 values of three slots. -/
def Dev.noteRole (d : Dev) (n : Nat) (v : List Byte) : Dev :=
  if n = 1 ∧ v.length = 9 then
    let e := (leNat (v.take 4), leNat ((v.drop 4).take 4), (v.getD 8 0).toNat)
    { d with nv := { d.nv with roles := (e :: d.nv.roles).take 21 } }
  else d

/-- A write of a value to ring `n` (R380): one SINGLE slot, or PART slots and a COMMIT. -/
def Dev.ringWrite (d : Dev) (n : Nat) (v : List Byte) : Dev :=
  let d := d.noteRole n v
  if v.length ≤ 8 then (d.ringStep n 1 v.length v).ringForce n
  else
    let k := (v.length + 7) / 8
    let g0 := nth d.nv.gen n 0 + 1
    let d := (upto k).foldl (fun d i => d.ringStep n 2 i (padTo 8 (v.drop (8 * i)))) d
    (d.ringStep n 3 k (leBytes 4 g0)).ringForce n

/-- Generations are compared modulo 2^32 (R379). -/
def laterGen (g1 g2 : Nat) : Bool :=
  let k := (g1 % 2 ^ 32 + 2 ^ 32 - g2 % 2 ^ 32) % 2 ^ 32
  decide (1 ≤ k) && decide (k < 2 ^ 31)

/-! ### Record places of the parameter area (R370, R373) -/

/-- A record place: its address and length, whether its CRC is a CRC-32, where its sequence stands, and the byte and bit that
say it was written by the ACTIVE twin; a completion entry has no such bit. -/
structure Place where
  addr : Nat
  len : Nat
  wide : Bool
  key : Nat
  act : Nat × Nat
  comp : Bool
deriving DecidableEq, Repr

def journalPlace (i : Nat) : Place := ⟨0x300000 + 64 * i, 64, true, 0, (10, 1), false⟩
def grantPlace (i : Nat) : Place := ⟨0x320000 + 16 * i, 16, false, 10, (5, 3), false⟩
def compPlace (i : Nat) : Place := ⟨0x322000 + 16 * i, 16, false, 0, (0, 0), true⟩
def ringPlace (i : Nat) : Place := ⟨0x330000 + 16 * i, 16, false, 0, (4, 7), false⟩

/-- The places whose failure R323 reports. -/
def workPlaces : List Place :=
  (upto 2048).map journalPlace ++ (upto 512).map grantPlace ++ (upto 128).map compPlace

/-- The record of slot `i` of the source table; its layout is the model's (log entry 36). -/
def sourcePlace (i : Nat) : Place := ⟨0x324000 + 1280 * i, 1280, true, 8, (5, 0), false⟩

/-- Every place of a fixed length that is reconciled. -/
def allPlaces : List Place := workPlaces ++ (upto 32).map sourcePlace ++ (upto 8192).map ringPlace

/-- The CRC of a copy holds. -/
def Place.ok (p : Place) (l : List Byte) : Bool :=
  if p.wide then leNat (l.drop (p.len - 4)) == crc32 (l.take (p.len - 4))
  else leNat (l.drop (p.len - 2)) == crc16 (l.take (p.len - 2))

/-- The sequence or generation of a copy. -/
def Place.keyOf (p : Place) (l : List Byte) : Nat := leNat ((l.drop p.key).take 4)

/-- The twin that was ACTIVE when an entry's JSEQ was issued, from the role history (R382); A where it does not reach back. -/
def NvSt.roleAt (n : NvSt) (boot jseq : Nat) : Nat :=
  let l := n.roles.filter fun e => e.1 % 256 == boot
  match l.find? fun e => decide (e.2.1 ≤ jseq) with
  | some e => e.2.2
  | none =>
    match l.getLast? with
    | some e => if n.roles.length < 21 then 1 - e.2.2 else 0
    | none => 0

/-- Of two valid copies with one sequence, twin A's wins (R382). -/
def Dev.tieA (d : Dev) (p : Place) (a b : List Byte) : Bool :=
  if p.comp then d.nv.roleAt (a.getD 9 0).toNat (p.keyOf a) == 0
  else
    let act (l : List Byte) : Bool := bitAt (l.getD p.act.1 0).toNat p.act.2
    act a || !act b

/-- The record of a place in each twin's copy, where the twin runs, the words can be read and the CRC holds (R372, R373). -/
def Dev.placeA (d : Dev) (p : Place) : Option (List Byte) :=
  let l := memBytes d.nv.a p.addr p.len
  if d.twin.a.st.running && d.nv.readableA p.addr p.len && p.ok l then some l else none
def Dev.placeB (d : Dev) (p : Place) : Option (List Byte) :=
  let l := memBytes d.nv.b p.addr p.len
  if d.twin.b.st.running && d.nv.readableB p.addr p.len && p.ok l then some l else none

/-- A read of a record that leaves the device: the two copies resolved under R382; zeros where neither is valid (R374). -/
def Dev.placeRead (d : Dev) (p : Place) : List Byte :=
  match d.placeA p, d.placeB p with
  | some a, some b =>
    let winA := if a == b then true else if p.keyOf a == p.keyOf b then d.tieA p a b else laterGen (p.keyOf a) (p.keyOf b)
    if winA then a else b
  | some a, none => a
  | none, some b => b
  | none, none => List.replicate p.len 0

/-! ### The slots of a wear ring (R378, R379) -/

def slotGen (l : List Byte) : Nat := leNat (l.take 4)
def slotKind (l : List Byte) : Nat := (l.getD 4 0).toNat % 4
def slotInfo (l : List Byte) : Nat := (l.getD 5 0).toNat

/-- The valid slots of ring `n`. -/
def Dev.ringSlots (d : Dev) (n : Nat) : List (Option (List Byte)) :=
  (upto 64).map fun s =>
    let p := ringPlace (64 * n + s)
    let l := d.nvGet p.addr p.len
    if p.ok l then some l else none

/-- The latest of the valid slots for which `ok` holds. -/
def latestSlot (l : List (Option (List Byte))) (ok : Nat → List Byte → Bool) : Option (Nat × List Byte) :=
  (upto 64).foldl (fun best s =>
    match nth l s none with
    | none => best
    | some x =>
      if !ok s x then best
      else match best with
        | none => some (s, x)
        | some b => if laterGen (slotGen x) (slotGen b.2) then some (s, x) else best) none

/-- Slot `s` ends a value: a SINGLE slot, or a COMMIT slot whose parts are valid and in order (R379). -/
def slotForce (l : List (Option (List Byte))) (s : Nat) (x : List Byte) : Bool :=
  let n := slotInfo x
  slotKind x == 1 ||
    (slotKind x == 3 && decide (2 ≤ n) && decide (n ≤ 30) && (upto n).all fun i =>
      match nth l ((s + 64 - n + i) % 64) none with
      | some p => slotKind p == 2 && slotInfo p == i && slotGen p == (slotGen x + 2 ^ 32 - n + i) % 2 ^ 32
      | none => false)

/-- The bytes of the value that slot `s` ends. -/
def slotValue (l : List (Option (List Byte))) (s : Nat) (x : List Byte) : List Byte :=
  if slotKind x = 1 then (x.drop 6).take (min 8 (slotInfo x))
  else (upto (slotInfo x)).flatMap fun i => (((nth l ((s + 64 - slotInfo x + i) % 64) none).getD []).drop 6).take 8

/-- The values of 9 bytes that ring 1 holds, latest first (R380, R382). -/
def ringRoles (l : List (Option (List Byte))) : List (Nat × Nat × Nat) :=
  match latestSlot l fun _ _ => true with
  | none => []
  | some b =>
    ((upto 64).filterMap fun k =>
      let s := (b.1 + 64 - k) % 64
      match nth l s none with
      | some x =>
        if slotKind x == 3 && slotInfo x == 2 && slotForce l s x then
          let v := slotValue l s x
          some (leNat (v.take 4), leNat ((v.drop 4).take 4), (v.getD 8 0).toNat)
        else none
      | none => none).take 21

/-- A saturating 16-bit count. -/
def inc16 (n : Nat) : Nat := satInc 65535 n

/-- A saturating 8-bit count. -/
def inc8 (n : Nat) : Nat := satInc 255 n

/-- A grant-journal record (R317): written into the slot that does not hold the load's current decision; slot GSEQ mod 2. -/
def Dev.journalGrant (d : Dev) (load seq kind dec ramp mag off : Nat) : Dev :=
  let g := (nth d.jrn.gseq load 0 + 1) % 2 ^ 32
  let slot (act : Nat) : List Byte := with16
    (leBytes 3 d.time.tseq ++ [BitVec.ofNat 8 load, BitVec.ofNat 8 seq, BitVec.ofNat 8 (kind * 16 + act * 8 + dec)] ++
      leBytes 2 (ramp * 4096 + mag) ++ [BitVec.ofNat 8 off, BitVec.ofNat 8 d.jrn.boot] ++ leBytes 4 g)
  let d := d.nvPut2 (0x320000 + 32 * load + 16 * (g % 2)) (slot (d.isActiveN .a)) (slot (d.isActiveN .b))
  { d with jrn := { d.jrn with gseq := updAt d.jrn.gseq load fun _ => g } }

end Sys2Proof.Machine
end

