-- ==== Sys2Proof/Machine/Hooks.lean ====
section
/-! DEFINITION. Points at which one block's action reaches another: members of the fiddlehead that fail with their block
(R336 to R338), the ledger's feed threshold (R253), the write hold (R367), the crust's ceilings (R98). -/

namespace Sys2Proof.Machine

/-! ### Members -/

def Dev.mbr (d : Dev) (i : Nat) : Member := nth d.fh.members i Member.reset
def Dev.updFh (d : Dev) (f : Fiddle → Fiddle) : Dev := { d with fh := f d.fh }
def Dev.updMbr (d : Dev) (i : Nat) (f : Member → Member) : Dev :=
  d.updFh fun h => { h with members := updAt h.members i f }

/-- A member in a new state, its timer at 0. -/
def Member.to (m : Member) (st : MemberState) : Member := { m with st := st, timer := 0 }

def mbrOff (i : Nat) : Nat := 0x100 + 0x20 * i
def Dev.inSeq (d : Dev) (i : Nat) : Bool := d.flag 0xA4 (mbrOff i) 31
def Dev.anyParent (d : Dev) (i : Nat) : Bool := d.flag 0xA4 (mbrOff i) 30

/-- The parents named by a member (R330). -/
def Dev.parents (d : Dev) (i : Nat) : List Nat :=
  (upto 4).filterMap fun p =>
    if d.flag 0xA4 (mbrOff i + 4) (8 * p + 7) then some (d.fld 0xA4 (mbrOff i + 4) (8 * p + 4) (8 * p)) else none

/-- A parent condition, with the members for which `ok` holds counted as good (R330). -/
def Dev.condWith (d : Dev) (i : Nat) (ok : Nat → Bool) : Bool :=
  let ps := d.parents i
  if d.anyParent i ∧ !ps.isEmpty then ps.any ok else ps.all ok

/-- GOOD or LOST. -/
def Dev.mbrGood (d : Dev) (i : Nat) : Bool := (d.mbr i).st == .good || (d.mbr i).st == .lost

/-- The parent condition of a member. -/
def Dev.parentOk (d : Dev) (i : Nat) : Bool := d.condWith i d.mbrGood

/-- A member that runs and can lose its parents. -/
def MemberState.runs : MemberState → Bool
  | .onDelay | .qualifying | .good | .lost => true
  | _ => false

/-- A member that R338 can find: it runs, or it is FAILED with its output still on (R337). -/
def Member.stoppable (m : Member) : Bool := m.st.runs || (m.st == .failed && m.out)

/-- The members whose parent condition no longer holds once those of `bad` count as not good (R338). -/
def Dev.dependants (d : Dev) : Nat → List Nat → List Nat
  | 0, bad => bad
  | fuel + 1, bad =>
    let more := (upto 32).filter fun i =>
      !bad.contains i && (d.mbr i).stoppable && !d.condWith i fun p => d.mbrGood p && !bad.contains p
    if more.isEmpty then bad else d.dependants fuel (bad ++ more)

/-- The next member of the stop list enters OFF_DELAY; members already off are skipped (R334). -/
def Dev.stopNext (d : Dev) : Nat → Dev
  | 0 => d
  | fuel + 1 =>
    match d.fh.stops with
    | [] => d
    | i :: rest =>
      if (d.mbr i).out then
        if (d.mbr i).st = .offDelay ∨ (d.mbr i).st = .stopping then d else d.updMbr i fun m => m.to .offDelay
      else if (d.mbr i).st = .stopping then d
      else Dev.stopNext (d.updFh fun h => { h with stops := rest }) fuel

/-- Stops the members that depend on failed member `f`, in reverse enable order; each is blocked by it (R338). -/
def Dev.stopDependants (d : Dev) (f : Nat) : Dev :=
  let found := (d.dependants 32 [f]).filter (· != f)
  let d := found.foldl (fun d i =>
    d.updMbr i fun m => if m.out then { m with blk := some f } else { m.to .blocked with blk := some f }) d
  let list := d.fh.order.reverse.filter fun i => found.contains i && (d.mbr i).out && !d.fh.stops.contains i
  (d.updFh fun h => { h with stops := h.stops ++ list }).stopNext 33

/-- A member fails (R336): FH_FAILED, MEMBER_FAIL, and its dependants are stopped. `keep` leaves its output on (R337). -/
def Dev.failMember (d : Dev) (i cause : Nat) (keep : Bool) : Dev :=
  let d := d.updMbr i fun m => { m.to .failed with cause := cause, out := keep, blk := none }
  let d := d.updFh fun h =>
    { h with failed := setBit h.failed i true, order := if keep then h.order else h.order.filter (· != i) }
  (d.occur 0xA4 0).stopDependants i

/-- The fiddlehead sees that the block of member `m` entered FAULT_WAIT (R336); its output stays on for the retry. A member in
OFF_DELAY is stopped anew from its FAILED state (R334); one that is STOPPING already stays so, with its failure recorded (log entry
114). -/
def Dev.memberBlockFault (d : Dev) (m : Nat) : Dev :=
  match (d.mbr m).st with
  | .qualifying | .good | .lost | .offDelay => d.failMember m 4 true
  | .stopping =>
    ((d.updMbr m fun x => { x with cause := 4 }).updFh fun h => { h with failed := setBit h.failed m true }).occur 0xA4 0
  | _ => d

/-- The fiddlehead records member `m` as failed with cause REFUSED (R90, R93). -/
def Dev.memberRefused (d : Dev) (m : Nat) : Dev :=
  match (d.mbr m).st with
  | .qualifying | .good | .lost | .failed => d.failMember m 5 false
  | _ => d

/-! ### Other points -/

/-- The value in force of a crust item. -/
def Dev.crustVal (d : Dev) (i : Nat) : List Byte := nth d.crust.force i []

/-- A change is torn (R395): the CRC of its audit record, over the record and the cell, does not match. -/
def CrustChange.torn (c : CrustChange) : Bool :=
  let a := padTo 16 c.audit
  leNat (a.drop 14) != crc16 (a.take 14 ++ c.value)

/-- A change is programmed in copies 0, 1 and 2 (R392 step 5). -/
def CrustSt.program (c : CrustSt) (i : Nat) (ch : CrustChange) : CrustSt :=
  { c with copies := c.copies.map fun m => updAt m i fun l => l ++ [ch], items := updAt c.items i fun l => l ++ [ch] }

/-- The rail voltage ceiling of the crust, signal format (R98). -/
def Dev.railCeiling (d : Dev) (r : Nat) : Int := signed 32 (leNat ((d.crustVal 1).drop (4 * r) |>.take 4))

def Dev.feed (d : Dev) : FeedId → Feed
  | .a => d.feedA
  | .b => d.feedB

/-- The carrying feed: the feed in TURN_ON or ON (R250). -/
def Dev.carry (d : Dev) : Option FeedId :=
  if d.feedA.st = .turnOn ∨ d.feedA.st = .on then some .a
  else if d.feedB.st = .turnOn ∨ d.feedB.st = .on then some .b
  else none

def Dev.updXfer (d : Dev) (f : Xfer → Xfer) : Dev := { d with xfer := f d.xfer }

/-- What the status path of region G1 shows of the switches may be judged: G1 has been valid for one full frond (R257, R572). -/
def Dev.judging (d : Dev) : Bool := d.die.validG1 && d.xfer.judge

def Dev.updSup (d : Dev) (f : SupplySt → SupplySt) : Dev := { d with sup := f d.sup }

/-- The VHOLD-to-VAUX switch is closed while VGD_OK = 0 (R349) and whenever VHOLD is more than 50 mV below VAUX, of which HOLD_LOW
is the event that tells (log entry 92); it is open from VAUX_WARN (R535). -/
def SupplySt.switched (p : SupplySt) : SupplySt := { p with auxSwitch := !p.vauxWarn && !p.vauxMin && (!p.vgdOk || p.holdLow) }

/-- The window register of a feed. -/
def winOff : FeedId → Nat
  | .a => 0x48
  | .b => 0x4C

/-- A threshold in 0.1 V, signal format; which way a tenth rounds is not stated (log entry 3). -/
def tenthSig (n : Nat) : Int := Config.rdiv 20 ((n : Int) * 65536) 10

/-- The feed under-voltage threshold of the ledger (R253). -/
def Dev.vUv (d : Dev) : Int :=
  match d.carry with
  | some f => tenthSig (d.fld 0x98 (winOff f) 9 0)
  | none => tenthSig (max (d.fld 0x98 0x48 9 0) (d.fld 0x98 0x4C 9 0))

/-- A write hold is in force (R367). -/
def Dev.writeHold (d : Dev) : Bool := d.therm.hold

/-- Non-volatile writes wait: VAUX_WARN or a write hold (R347, R367). -/
def Dev.nvHeld (d : Dev) : Bool := d.sup.vauxWarn || d.therm.hold

/-- A value for wear ring `n`: written now, or the latest one kept until writes resume (R347, R367, R380). -/
def Dev.ringPut (d : Dev) (n : Nat) (v : List Byte) : Dev :=
  if d.nvHeld then { d with therm := { d.therm with nvWait := d.therm.nvWait.filter (fun p => p.1 != n) ++ [(n, v)] } }
  else d.ringWrite n v

def Dev.bbu (d : Dev) (m : Nat) : Bbu := nth d.bbus m Bbu.reset
def Dev.updBbu (d : Dev) (m : Nat) (f : Bbu → Bbu) : Dev := { d with bbus := updAt d.bbus m f }

/-- Target port n and controller port c (TW2 is port 0). -/
def Dev.twt (d : Dev) (n : Nat) : TwTarget := nth d.twT n (TwTarget.reset 0)
def Dev.updTwT (d : Dev) (n : Nat) (f : TwTarget → TwTarget) : Dev := { d with twT := updAt d.twT n f }
def Dev.twc (d : Dev) (c : Nat) : TwCtl := nth d.twC c TwCtl.reset
def Dev.updTwC (d : Dev) (c : Nat) (f : TwCtl → TwCtl) : Dev := { d with twC := updAt d.twC c f }

/-- Transactions of a controller port that completed, or failed for good with a NACK (R424). -/
def Dev.twDone (d : Dev) (c n : Nat) : Dev := d.updTwC c fun t => { t with done := min 65535 (t.done + n) }
/-- A transaction completed as failed is counted, with its address (R424). -/
def Dev.twGone (d : Dev) (c addr : Nat) : Dev := d.updTwC c fun t => { t with failed := satInc 65535 t.failed, addr := addr }
/-- The same, for one that was not acknowledged. -/
def Dev.twFail (d : Dev) (c addr : Nat) : Dev := (d.twGone c addr).occur (0xBA + c) 0
/-- The outbound block of a read (R423): the address for a write, the command code, the address for a read. -/
def Dev.sendRead (d : Dev) (c addr cmd : Nat) : Dev :=
  let l := [BitVec.ofNat 8 (2 * addr), BitVec.ofNat 8 cmd, BitVec.ofNat 8 (2 * addr + 1)]
  { d with die := { d.die with sent := ⟨0x12 + c, l, true⟩ :: d.die.sent } }

/-- A device off the fabric: in reset or in standby. -/
def Dev.offline (d : Dev) : Bool := d.sup.inReset || d.sup.standby

/-- No transaction of a controller port runs: the device is off the buses, the port's first bus recovery is due (R428), or a
retry waits for the bus (R427). -/
def Dev.twcBusy (d : Dev) (c : Nat) : Bool := d.offline || (d.twc c).fresh || (d.twc c).arbWait

def Dev.updJrn (d : Dev) (f : JrnSt → JrnSt) : Dev := { d with jrn := f d.jrn }
def Dev.updUpd (d : Dev) (f : UpdSt → UpdSt) : Dev := { d with upd := f d.upd }

def Dev.updMie (d : Dev) (f : MieSt → MieSt) : Dev := { d with mie := f d.mie }
def Dev.updDma (d : Dev) (c : Nat) (f : DmaCh → DmaCh) : Dev := { d with dma := updAt d.dma c f }
def Dev.ch (d : Dev) (c : Nat) : DmaCh := nth d.dma c DmaCh.reset

/-- A triggered event for the peat log of the tick (R386). -/
def Dev.peatTrig (d : Dev) (t : PeatTrig) : Dev := { d with peat := { d.peat with trig := d.peat.trig ++ [t] } }

end Sys2Proof.Machine
end

