-- ==== Sys2Proof/Machine/Members.lean ====
section
/-! DEFINITION. Membership, usable units, capacity and current of a rail (R76 to R85, R99). -/

namespace Sys2Proof.Machine

/-- Page of rail `r`. -/
def railPg (r : Nat) : Nat := 0x28 + r
/-- Page of unit `n`. -/
def unitPg (n : Nat) : Nat := 0x30 + n

/-- The rail of a unit with MEMBER = 1 (R76). -/
def Dev.memberOf (d : Dev) (n : Nat) : Option Nat :=
  if d.flag (unitPg n) 0x40 0 then some (d.fld (unitPg n) 0x40 2 1) else none

/-- Whether unit `n` is a member of rail `r`. -/
def Dev.isMember (d : Dev) (r n : Nat) : Bool := d.memberOf n == some r

/-- VALID of the region of cluster `k`. -/
def Dev.regionOk (d : Dev) (k : Nat) : Bool := if k < 4 then d.die.validG0 else d.die.validG1

/-- Whether cluster `k` is in service and its region valid. -/
def Dev.clusterUp (d : Dev) (k : Nat) : Bool := d.regionOk k && d.die.clusterOk.getLsbD k

/-- A usable unit (R79); a unit out for its calibration window is not (R232). -/
def Dev.usable (d : Dev) (n : Nat) : Bool :=
  (d.memberOf n).isSome && (d.unit n).st != .fault && (d.unit n).st != .lost && d.clusterUp (n / 8) &&
    !(d.sense.cal.unitOut && d.sense.cal.window == (n / 8) * 9 + n % 8)

/-- The usable units of a rail, rising. -/
def Dev.usableOf (d : Dev) (r : Nat) : List Nat := (upto 64).filter fun n => d.isMember r n && d.usable n

/-- A unit that counts as active on a rail (R85). -/
def Dev.isActive (d : Dev) (r n : Nat) : Bool := d.isMember r n && (d.unit n).st == .active

/-- The active units of a rail, in slot order (R85). -/
def Dev.activeOf (d : Dev) (r : Nat) : List Nat := (upto 64).filter (d.isActive r)

/-- N, the number of active units of a rail. -/
def Dev.nAct (d : Dev) (r : Nat) : Nat := (d.activeOf r).length

/-- The states in which a rail switches units (R89). -/
def RailState.switching : RailState → Bool
  | .softStart | .regulate | .softStop => true
  | _ => false

/-- C_r: the sum of OVL_TH, in 0.5 A steps, over the usable units (R79), signal format. -/
def Dev.capacity (d : Dev) (r : Nat) : Int :=
  (d.usableOf r).foldl (fun a n => a + (d.fld (unitPg n) 0x40 23 16 : Int) * 2 ^ 15) 0

/-- I_r: the sum of the currents of the rail's members that are not LOST (R99, R136). -/
def Dev.railCurrent (d : Dev) (r : Nat) : Int :=
  (upto 64).foldl (fun a n => if d.isMember r n && (d.unit n).st != .lost then a + (d.unit n).cur else a) 0

/-! ### Slot entries (R45, R46) -/

def SlotEntry.valid (e : SlotEntry) : Bool := bitAt e.w3.toNat 31
def SlotEntry.tierMask (e : SlotEntry) : Nat := bits e.w3.toNat 30 27
def SlotEntry.engine (e : SlotEntry) : Nat := bits e.w3.toNat 23 16
def SlotEntry.cls (e : SlotEntry) : Nat := bits e.w3.toNat 15 8
def SlotEntry.phase (e : SlotEntry) : Nat := bits e.w3.toNat 7 0
def SlotEntry.periodLog (e : SlotEntry) : Nat := bits e.w2.toNat 31 28
def SlotEntry.offset (e : SlotEntry) : Nat := bits e.w2.toNat 23 16
def SlotEntry.deadline (e : SlotEntry) : Nat := bits e.w2.toNat 15 8
/-- The 64-bit operand field: word 1 in bits [63:32]. -/
def SlotEntry.pair (e : SlotEntry) : Nat := e.w1.toNat * 2 ^ 32 + e.w0.toNat
def SlotEntry.srcA (e : SlotEntry) : Nat := bits e.pair 62 42
def SlotEntry.srcB (e : SlotEntry) : Nat := bits e.pair 41 21
def SlotEntry.dst (e : SlotEntry) : Nat := bits e.pair 20 0

/-- The cluster of a cluster or unit engine (R49). -/
def engineCluster (eng : Nat) : Nat := if eng < 8 then eng else (eng - 0x40) / 8

/-- The bank whose entries fire. -/
def SchedSt.bank (s : SchedSt) : SlotBank := if s.active then s.bank1 else s.bank0

/-- The RAIL and N fields of the header of the cascade block at a descriptor (R133). -/
def Dev.blockRail (d : Dev) (desc : Nat) : Nat := bits (d.opNat desc 0) 9 8
def Dev.blockN (d : Dev) (desc : Nat) : Nat := bits (d.opNat desc 0) 3 0

/-- `k` bytes of SRAM from an address set to zero, by the coefficient port (R133, R134). -/
def Dev.zeroMem (d : Dev) (a k : Nat) : Dev := { d with sram := memWriteBytes d.sram a (List.replicate k 0) }

/-- The PHASE entries of the active image for a rail. -/
def Dev.phaseEntries (d : Dev) (r : Nat) : List SlotEntry :=
  d.sched.bank.filter fun e => e.valid && e.cls == 0x21 && d.blockRail e.srcB == r

/-- The address of the state records of unit `8k + j` in a PHASE block (R132). -/
def Dev.balanceAddr (d : Dev) (desc j : Nat) : Nat :=
  let n := d.blockN desc
  descAddr desc + 64 + 64 * n + 16 * n * j

/-- The balance states of unit `n` of rail `r` are zeroed: it enters ACTIVE from IDLE (R134). -/
def Dev.zeroBalance (d : Dev) (r n : Nat) : Dev :=
  (d.phaseEntries r).foldl (fun d e =>
    if engineCluster e.engine = n / 8 then d.zeroMem (d.balanceAddr e.srcB (n % 8)) (16 * d.blockN e.srcB) else d) d

/-- One volt in the unit of `refU`: 2^-16 microvolts. -/
def microSig : Int := 1000000

/-- The reference of a rail in signal format. -/
def Rail.ref (x : Rail) : Int := Config.rdiv 1 x.refU microSig

end Sys2Proof.Machine
end

