-- ==== Sys2Proof/Machine/Ledger.lean ====
section
/-! DEFINITION. The budget ledger, feed-forward and cap levels (R170 to R174, R182 to R186, R188 to R195). -/

namespace Sys2Proof.Machine

def Dev.led (d : Dev) : Ledger := d.adm.led
def Dev.updLed (d : Dev) (f : Ledger → Ledger) : Dev := { d with adm := { d.adm with led := f d.adm.led } }
def Dev.port (d : Dev) (n : Nat) : StepPort := nth d.adm.ports n StepPort.reset
def Dev.updPort (d : Dev) (n : Nat) (f : StepPort → StepPort) : Dev :=
  { d with adm := { d.adm with ports := updAt d.adm.ports n f } }
def Dev.load (d : Dev) (i : Nat) : Load := nth d.adm.loads i Load.reset
def Dev.updLoad (d : Dev) (i : Nat) (f : Load → Load) : Dev :=
  { d with adm := { d.adm with loads := updAt d.adm.loads i f } }

/-- The number of the present tick, counted from reset release. -/
def Dev.now (d : Dev) : Nat := d.time.ticks

/-! ### Grant table (R199) -/

/-- Page of grant-table entry `i`. -/
def gtPg (i : Nat) : Nat := if i < 252 then 0x76 else 0x74

/-- Offset of word `w` of grant-table entry `i`. -/
def gtOff (i w : Nat) : Nat := (if i < 252 then 0x40 + 16 * i else 0xF00 + 16 * (i - 252)) + 4 * w

def Dev.gtEn (d : Dev) (i : Nat) : Bool := d.flag (gtPg i) (gtOff i 0) 31
def Dev.gtRail (d : Dev) (i : Nat) : Nat := d.fld (gtPg i) (gtOff i 0) 25 24
def Dev.gtMaxStep (d : Dev) (i : Nat) : Nat := d.fld (gtPg i) (gtOff i 0) 23 12
def Dev.gtBase (d : Dev) (i : Nat) : Nat := d.fld (gtPg i) (gtOff i 0) 11 0
def Dev.gtMinRamp (d : Dev) (i : Nat) : Nat := d.fld (gtPg i) (gtOff i 3) 31 28

/-- The loads of port `n` that are enabled. -/
def Dev.portLoads (d : Dev) (n : Nat) : List Nat := ((upto 16).map (16 * n + ·)).filter d.gtEn

/-- STATE of a grant-table entry: SETTLED from the end of S + D + 16 (R172). Which code stands between steps is the model's reading (log entry 10). -/
def Dev.gtState (d : Dev) (i : Nat) : Nat :=
  let x := d.load i
  if !d.gtEn i then 0
  else if x.stale then 5
  else if d.led.steps.any fun q => q.load == i && decide (d.now < q.start) then 2
  else if d.led.steps.any fun q => q.load == i && !q.settled then 3
  else if x.released then 1 else 4

/-! ### Terms -/

/-- 0.25 A steps as amperes in signal format. -/
def quarter (m : Nat) : Int := (m : Int) * 16384

/-- The highest current of a rail in the last four ticks. -/
def Dev.iMax (d : Dev) (r : Nat) : Int :=
  match nth d.led.ir4 r [] with
  | [] => 0
  | x :: l => l.foldl max x

/-- M_r: step ups decided and not settled. -/
def Dev.ledgerM (d : Dev) (r : Nat) : Int :=
  d.led.steps.foldl (fun a q => if q.rail = r ∧ q.kind = 1 ∧ !q.settled then a + quarter q.mag else a) 0

/-- V_r: unexpired reservations of the rail's loads. -/
def Dev.ledgerV (d : Dev) (r : Nat) : Int :=
  (upto 256).foldl (fun a i => if (d.load i).resv ≠ 0 ∧ d.gtRail i = r then a + quarter (d.load i).resv else a) 0

/-- Σ ΔP of unsettled step ups. -/
def Dev.sumDP (d : Dev) : Int := d.led.steps.foldl (fun a q => if q.kind = 1 ∧ !q.settled then a + q.dP else a) 0

/-- ΔP of `m` quarters of an ampere on rail `r`, kW (R170). -/
def Dev.deltaP (d : Dev) (r m : Nat) : Int :=
  Config.rdiv 10 ((m : Int) * (d.rail r).ref) (20 * (d.fld 0x75 0x48 23 16 : Int))

/-- P_SH: Σ V_REF × (I_r + M_r) / 1,000. -/
def Dev.pSh (d : Dev) : Int :=
  Config.rdiv 11 (sumTo 4 fun r => (d.rail r).ref * (d.iMax r + d.ledgerM r)) 65536000

/-- P_RM: K × RECT_CAP + B − P54 − Σ ΔP. -/
def Dev.pRm (d : Dev) : Int :=
  let cap : Int := (d.fld 0x75 0x48 15 0 : Int) * 8192
  (if d.led.cons then cap / 2 else cap) + d.led.batt - d.led.p54 - d.sumDP

/-- λ in µs: LAMBDA0 until measured (R173). -/
def Dev.lambda (d : Dev) : Nat := if d.led.learned then d.led.lambda else d.fld 0x75 0x4C 15 0

/-- ρ in 0.0625 kW/ms: RHO0 until measured; at least 1. -/
def Dev.rho (d : Dev) : Nat := max 1 (if d.led.learned then d.led.rho else d.fld 0x75 0x4C 31 16)

/-- The factor by which ρ is divided: 2 while conservative (R171). -/
def Dev.rhoDiv (d : Dev) : Nat := if d.led.cons then 2 else 1

/-- E(P) of R174 as a fraction of energy-format units: numerator; the denominator is `energyDen`. -/
def Dev.energyNum (d : Dev) (p : Int) : Int :=
  let x := max 0 (p - d.led.batt)
  x * d.lambda * 2097152 * d.rho + x * x * 256000 * d.rhoDiv

def Dev.energyDen (d : Dev) : Int := 256000 * 2097152 * d.rho

/-- The cover window W of a step of power `dP`, in ticks (R174). -/
def Dev.coverOf (d : Dev) (dP : Int) : Nat :=
  let den : Int := 65536 * d.rho
  2 * d.lambda + ((32000 * d.rhoDiv * max 0 dP + den - 1) / den).toNat

/-- P_OV(S, W): ΔP of unsettled step ups whose cover windows overlap [S, S + W). -/
def Dev.pOv (d : Dev) (s w : Nat) : Int :=
  d.led.steps.foldl (fun a q =>
    if q.kind = 1 ∧ !q.settled ∧ q.start < s + w ∧ s < q.start + q.cover then a + q.dP else a) 0

/-- A candidate step fits the energy term at S (R174). -/
def Dev.energyFits (d : Dev) (r s m : Nat) : Bool :=
  let dP := d.deltaP r m
  decide (d.energyNum (d.pOv s (d.coverOf dP) + dP) ≤ d.led.eAv * d.energyDen)

/-- E_NEED of LDG_E_NEED. -/
def Dev.eNeed (d : Dev) : Int :=
  d.led.steps.foldl (fun a q =>
    if q.kind = 1 ∧ !q.settled then max a (Config.rdiv 13 (d.energyNum (d.pOv q.start q.cover)) d.energyDen) else a) 0

/-- The slew limit of a tick, in 1/256 of 0.25 A: SLEW_LIM × 0.5 µs (R170). -/
def Dev.slewTick (d : Dev) : Nat := d.fld 0x75 0x40 15 0 * 512

/-- U(τ), in the same unit. -/
def Dev.slewAt (d : Dev) (t : Nat) : Nat :=
  d.led.steps.foldl (fun a q => if q.start ≤ t ∧ t < q.start + 2 ^ q.cls then a + q.mag * 2 ^ (8 - q.cls) else a) 0

/-- slew_fits of R181. -/
def Dev.slewFits (d : Dev) (s c m : Nat) : Bool :=
  (upto (2 ^ c)).all fun i => decide (d.slewAt (s + i) + m * 2 ^ (8 - c) ≤ d.slewTick)

/-- slowest_needed of R181. -/
def Dev.slowest (d : Dev) (m : Nat) : Nat → Nat → Nat
  | 0, c => c
  | fuel + 1, c => if c < 8 ∧ d.slewTick < m * 2 ^ (8 - c) then d.slowest m fuel (c + 1) else c

/-- The profile p(i) of R184 of one step at the boundary into tick `t`, times 256 × FF_DECAY. -/
def Dev.profile (d : Dev) (q : StepRec) (t : Nat) : Int :=
  let lead := d.fld 0x74 0x40 2 0
  let hold := d.fld 0x74 0x40 31 24
  let dec := d.fld 0x74 0x40 23 16
  let len := 2 ^ q.cls
  let m : Int := if q.neg then -quarter q.mag else quarter q.mag
  if t + lead < q.start then 0
  else
    let i := t + lead - q.start
    if i < len then m * (i + 1) * 2 ^ (8 - q.cls) * dec
    else if i < len + hold then m * 256 * dec
    else if i < len + hold + dec then m * 256 * ((dec : Int) - (i - len - hold + 1))
    else 0

/-- Where FF_NOW_r is written: the ledger file, byte address 0x1000 + 8r (R185). -/
def ffAddr (r : Nat) : Nat := 0x3A * 2 ^ 18 + 0x1000 + 8 * r

/-- Sets FF_NOW_r. -/
def Dev.putFf (d : Dev) (r : Nat) (v : Int) : Dev :=
  let d := d.updLed fun l => { l with ff := updAt l.ff r fun _ => v }
  { d with sram := memPutWord d.sram (ffAddr r) (unsigned 32 v) }

/-- FF_NOW of a rail as the LEDGER entry of the tick computes it (R185). -/
def Dev.ffVal (d : Dev) (r : Nat) : Int :=
  let sum := d.led.steps.foldl (fun a q => if q.rail = r then a + d.profile q (d.now + 2) else a) 0
  Config.rdiv 14 sum (256 * max 1 (d.fld 0x74 0x40 23 16 : Int))

/-- FF_NOW of every rail by the LEDGER entry (R185). -/
def Dev.ffTick (d : Dev) : Dev := foldN 4 (fun d r => d.putFf r (d.ffVal r)) d

/-- L_r from the present capacity (R170, R195). -/
def Dev.limitTick (d : Dev) : Dev :=
  let lim := (upto 4).map fun r =>
    min (if d.led.cons then d.capacity r / 2 else d.capacity r) (nth d.led.therm r 0)
  d.updLed fun l => { l with lim := lim }

/-- The value of a precision channel, and whether it is invalid (R208, R258). -/
def Dev.preVal (d : Dev) (c : Nat) : Int := (nth d.sense.pre c PreCh.reset).val
def Dev.preBad (d : Dev) (c : Nat) : Bool :=
  let p := nth d.sense.pre c PreCh.reset
  p.invalid || decide (5 ≤ p.badRun)

/-- P54 = PRE05 × PRE06 + PRE07 × PRE08, kW; with a channel invalid, as R258 says. -/
def Dev.p54Now (d : Dev) : Int :=
  let v (c : Nat) : Int := if d.preBad c then d.preVal 4 else d.preVal c
  if d.preBad 6 || d.preBad 8 then
    Config.rdiv 19 ((sumTo 4 fun r => (d.rail r).ref * (d.rail r).ir) * 200)
      (65536000 * max 1 (d.fld 0x75 0x48 23 16 : Int))
  else Config.rdiv 12 (v 5 * d.preVal 6 + v 7 * d.preVal 8) 65536000

/-- The voltage channel of a feed. -/
def feedCh : FeedId → Nat
  | .a => 5
  | .b => 7

/-- The bus voltage: PRE04, or the carrying feed's while PRE04 is invalid (R258). -/
def Dev.busNow (d : Dev) : Option Int :=
  if !d.preBad 4 then some (d.preVal 4)
  else match d.carry with
    | some f => if d.preBad (feedCh f) then none else some (d.preVal (feedCh f))
    | none => none

/-- V_bus of R138, not below 1 V. -/
def Dev.vBus (d : Dev) : Int := max (d.busNow.getD (d.preVal 4)) 65536

/-- E_AV: ½ × BUS_CAP × (V54² − V_UV²) − E_RES, not below 0, energy format. -/
def Dev.eAvNow (d : Dev) : Int :=
  match d.busNow with
  | none => 0
  | some v =>
  let u := d.vUv
  max 0 (Config.rdiv 15 ((d.fld 0x75 0x44 15 0 : Int) * (v * v - u * u)) 3355443200000
    - (d.fld 0x75 0x44 31 16 : Int) * 16)

/-! ### Cap levels (R189 to R193, R195) -/

/-- Whether an enabled load of port `n` is on a rail for which `p` holds. -/
def Dev.portOn (d : Dev) (n : Nat) (p : Nat → Bool) : Bool := (d.portLoads n).any fun i => p (d.gtRail i)

/-- The rail overrun I_r > L_r. -/
def Dev.railOverrun (d : Dev) (r : Nat) : Bool := decide (nth d.led.lim r 0 < d.iMax r)

/-- The committed overrun I_r + M_r > L_r. -/
def Dev.commitOverrun (d : Dev) (r : Nat) : Bool := decide (nth d.led.lim r 0 < d.iMax r + d.ledgerM r)

/-- The ledger overrun P_SH > ROW. -/
def Dev.rowOverrun (d : Dev) : Bool := decide (d.led.row < d.pSh)

def capPortPg : Nat := 0x78

/-- The budget level of a port. -/
def Dev.budgetLevel (d : Dev) (n : Nat) : Nat :=
  let top := if d.fld capPortPg (0x40 + 4 * n) 1 0 = 3 then 2 else 3
  if (d.rowOverrun && !(d.portLoads n).isEmpty) || d.portOn n d.railOverrun then top
  else if d.portOn n d.commitOverrun then 2 else 0

/-- The unannounced level of a port (R189). -/
def Dev.unannLevel (d : Dev) (n : Nat) : Nat :=
  let lim := d.fld capPortPg (0x40 + 4 * n) 15 8
  let c := (d.port n).unann
  if 2 * lim ≤ c then 2 else if lim ≤ c then 1 else 0

/-- The heartbeat level of a port (R190). -/
def Dev.hbLevel (d : Dev) (n : Nat) : Nat :=
  if (d.port n).stale then (if d.flag capPortPg (0x40 + 4 * n) 2 then 3 else 2) else 0

/-- The highest cause of a cap level of a port (R192). -/
def Dev.capCause (d : Dev) (n : Nat) : Nat :=
  max (max (d.fld capPortPg 0x80 (2 * n + 1) (2 * n)) (d.unannLevel n)) (max (d.hbLevel n) (d.budgetLevel n))

/-- The rise of a port's level in the tick its cause appears (R193, R200). -/
def Dev.capRaise (d : Dev) (n : Nat) : Dev :=
  let c := d.capCause n
  let old := (d.port n).level
  let t := d.now
  let d := d.updPort n fun p =>
    { p with level := max p.level c, last1 := if 1 ≤ c then t else p.last1, last2 := if 2 ≤ c then t else p.last2,
             last3 := if 3 ≤ c then t else p.last3 }
  let d := if old < 3 ∧ 3 ≤ c then d.occur 0x78 0 else d
  if old < 2 ∧ 2 ≤ c then d.occur 0x78 1 else d

/-- The overrun bits of page 0x075, recorded when an overrun appears (R198). -/
def Dev.overrunTick (d : Dev) : Dev :=
  let r := (upto 4).any d.railOverrun
  let s := d.rowOverrun
  let d := if r && !d.led.railOver then d.occur 0x75 0 else d
  let d := if s && !d.led.rowOver then d.occur 0x75 1 else d
  d.updLed fun l => { l with railOver := r, rowOver := s }

/-- Capping of a tick. -/
def Dev.capAll (d : Dev) : Dev := foldN 16 Dev.capRaise d.overrunTick

/-- The ledger re-budgets in the tick of a region fault (R195). -/
def Dev.rebudget (d : Dev) : Dev := d.limitTick.capAll

/-! ### Unannounced steps (R188) -/

/-- A tier of an entry's mask. -/
def SlotEntry.inTier (e : SlotEntry) (t : Nat) : Bool := bitAt e.tierMask t

/-- An entry fires in a tick phase and tier. -/
def SlotEntry.firesIn (e : SlotEntry) (p t : Nat) : Bool := e.valid && p % 2 ^ e.periodLog == e.phase && e.inTier t

/-- FF_NOW of a rail in the present tick: what the LEDGER entry of the tick has written, or will write where it comes later. -/
def Dev.ffNow (d : Dev) (r : Nat) : Int :=
  let later := !d.led.ffDone && d.sched.bank.any fun e => e.cls == 0x31 && e.firesIn d.phase d.sched.tier.val
  if later then d.ffVal r else nth d.led.ff r 0

/-- The detection of an unannounced step by a VLP entry, from its error and its rail current. -/
def Dev.unannDetect (d : Dev) (r : Nat) (e ir : Int) : Bool :=
  let th : Int := (d.fld 0x74 0x48 7 0 : Int) * 65536
  let rise := ir - nth d.led.ir2 r 0
  let ff := d.ffNow r - nth d.led.ff2 r 0
  let started := d.led.steps.any fun q => q.rail == r && decide (q.start ≤ d.now) && decide (d.now ≤ q.start + 8)
  (d.rail r).st == .regulate &&
    (decide (th + ff < rise) ||
      (decide ((d.fld 0x74 0x48 15 8 : Int) * (d.rail r).ref < e * 1000) && !started))

/-! ### Learning (R173) -/

/-- Rectifier output: P54 − B_USED. -/
def Dev.rectOut (d : Dev) : Int := d.led.p54 - d.led.bUsed

/-- The step whose measurement begins in the present tick: the only one that starts, a step up of LEARN_MIN or more. -/
def Dev.learnStart (d : Dev) : Option RampMeas :=
  match d.led.steps.filter fun q => q.start == d.now with
  | [q] =>
    if q.kind = 1 ∧ (d.fld 0x75 0x50 7 0 : Int) * 8192 ≤ q.dP then some ⟨d.now, d.rectOut, q.dP, none⟩ else none
  | _ => none

/-- The measurement of a tick: steps that start, the 10 % and 90 % points, and the end of the window. Another start within the
window discards it and is measured itself; a feed transfer, and a current channel invalid (R258), discard it and let none begin. -/
def Dev.learnTick (d : Dev) : Dev :=
  let t := d.now
  if d.led.freeze || d.preBad 6 || d.preBad 8 then d.updLed fun l => { l with meas := none }
  else if d.led.steps.any fun q => q.start == t then d.updLed fun l => { l with meas := d.learnStart }
  else
  match d.led.meas with
  | some m =>
    let rise := d.rectOut - m.base
    let t10 := if m.t10.isNone ∧ m.dP ≤ 10 * rise then some t else m.t10
    if m.start + 2048 ≤ t then d.updLed fun l => { l with meas := none }
    else if 9 * m.dP ≤ 10 * rise then
      let a := t10.getD t
      let lam := (Config.rdiv 16 ((a : Int) - m.start) 2).toNat
      let rho := if t = a then Config.freeWord 1 t % 65536
                 else (Config.rdiv 17 (m.dP * 25) (((t : Int) - a) * 64)).toNat
      d.updLed fun l => { l with meas := none, good := some (lam, rho) }
    else d.updLed fun l => { l with meas := some { m with t10 := t10 } }
  | none => d

/-- The update of λ and ρ once per frond (R173). -/
def Dev.learnFrond (d : Dev) : Dev :=
  match d.led.good with
  | none => d
  | some (lm, rm) =>
    let lam := d.lambda
    let rho := d.rho
    let q (a m : Nat) : Nat := (Config.rdiv 18 (3 * a + m) 4).toNat
    d.updLed fun l =>
      { l with good := none, learned := true, lambda := min 65535 (if lam < lm then lm else q lam lm),
               rho := min 65535 (if rm < rho then rm else q rho rm) }

end Sys2Proof.Machine
end

