-- ==== Sys2Proof/Machine/Rails.lean ====
section
/-! DEFINITION. Rails: capacity, reference, power-good, counts, trips, requests and retry (R76 to R121). -/

namespace Sys2Proof.Machine

/-- SLEW per tick in the unit of `refU`; 0 is taken as 1 microvolt (R91). -/
def Dev.slewU (d : Dev) (r : Nat) : Int :=
  let s := d.fld (railPg r) 0x50 31 16
  (if s = 0 then 1 else (s : Int)) * 65536

/-- The regulated point P = reference − LOADLINE × I_r, in the unit of `refU` (R99, R115). -/
def Dev.pointU (d : Dev) (r : Nat) : Int := (d.rail r).refU - (d.fld (railPg r) 0x50 9 0 : Int) * (d.rail r).ir

/-- The remote-sense voltage is below the power-good window (R115). -/
def Dev.belowWin (d : Dev) (r : Nat) : Bool :=
  decide ((d.rail r).vs * microSig * 400 < d.pointU r * (400 - (d.fld (railPg r) 0x5C 7 0 : Int)))

/-- The remote-sense voltage is above the power-good window (R115). -/
def Dev.aboveWin (d : Dev) (r : Nat) : Bool :=
  decide ((d.rail r).vs * microSig * 400 > d.pointU r * (400 + (d.fld (railPg r) 0x5C 7 0 : Int)))

/-- The remote-sense voltage is above reference × (1 + OV_BAND) (R116). -/
def Dev.aboveOv (d : Dev) (r : Nat) : Bool :=
  decide ((d.rail r).vs * microSig * 400 > (d.rail r).refU * (400 + (d.fld (railPg r) 0x5C 15 8 : Int)))

/-- The fold-back factor F of R111 as a fraction: `v` over `vt`, both in one unit. -/
def foldBack (v vt : Int) : Int × Int :=
  if vt ≤ 0 then (3, 10)
  else if 9 * vt ≤ 10 * v then (1, 1)
  else if 10 * v ≤ 3 * vt then (3, 10)
  else (70 * v - 3 * vt, 60 * vt)

/-- F of a rail in this tick: V_T is V_REF, the reference in signal format that VLP uses (R111). -/
def Dev.foldOf (d : Dev) (r : Nat) : Int × Int := foldBack (d.rail r).vs (d.rail r).ref

/-- Whether a 32-tick sum of currents exceeds `th` × F (R111, R113). -/
def overFold (sum th : Int) (f : Int × Int) : Bool := decide (sum * f.2 > 32 * th * f.1)

/-- A unit set to a state, with its TRI bit. -/
def PhUnit.to (u : PhUnit) (st : PhState) (tri : Bool) : PhUnit :=
  { u with st := st, tri := tri, since := 0, duty := if tri then 0 else u.duty }

/-- Every member unit of a rail in tri-state: those in FAULT and LOST keep their state, the others are IDLE (R89). -/
def Dev.triAll (d : Dev) (r : Nat) : Dev :=
  foldN 64 (fun d n =>
    if d.isMember r n then
      d.updUnit n fun u => if u.st = .fault ∨ u.st = .lost then { u with tri := true, duty := 0 } else u.to .idle true
    else d) d

/-- The counts of a rail at 0, as on leaving the switching states. -/
def Rail.quiet (x : Rail) : Rail :=
  { x with ovl := 0, uv := 0, ovRun := 0, shortRun := 0, flimRun := 0, limiting := false, rawPg := false, pgRun := 0,
           dwell := 0, ovDecl := false, ovTrip := false, satC := false, burst := false, firstTick := false, startDue := false, tracking := false, refU := 0 }

/-- An injection on a rail ends with a stop cause (R147); it counts as INJ_STOPPED unless the cause is 1 or 2 (R157). Of several
conditions of one tick the first that the model evaluates stands (log entry 118). -/
def Dev.injStop (d : Dev) (cause : Nat) : Dev :=
  if d.inj.running then
    let d := { d with inj := { d.inj with running := false, stopCause := cause, silent := true } }
    if cause = 1 ∨ cause = 2 then d else d.occur 0xE0 0
  else d

/-- The same, when the injection names rail `r`. -/
def Dev.injStopRail (d : Dev) (r cause : Nat) : Dev :=
  if d.fld 0xE0 0x40 7 6 = r then d.injStop cause else d

/-- A rail in REGULATE leaves it, which stops an injection on it (R147). -/
def Dev.injLeave (d : Dev) (r : Nat) : Dev := if (d.rail r).st = .regulate then d.injStopRail r 3 else d

/-- A rail enters FAULT_WAIT with a status bit as cause: every unit in tri-state, HGATEr off, the retry timer starts (R113,
R118); its fiddlehead member fails (R336). The last request stands: a rail that an off request was stopping does not
restart. -/
def Dev.tripRailBy (d : Dev) (r pg bit : Nat) : Dev :=
  let delay := d.fld (railPg r) 0x60 15 0 * 256
  let d := (d.injLeave r).triAll r
  let d := d.updRail r fun x =>
    { x.quiet with st := .faultWait, gateOn := false, retryLeft := delay }
  (d.occur pg bit).memberBlockFault r

/-- The same, with a status bit of the rail's page. -/
def Dev.tripRail (d : Dev) (r bit : Nat) : Dev := d.tripRailBy r (railPg r) bit

/-- A rail in OFF with every unit in tri-state and HGATEr off (R92). -/
def Dev.railOff (d : Dev) (r : Nat) : Dev :=
  ((d.injLeave r).triAll r).updRail r fun x => { x.quiet with st := .off, gateOn := false, wantOn := false }

/-- A switching rail without a usable unit enters FAULT_WAIT with cause NO_PHASE (R120). -/
def Dev.noPhase (d : Dev) (r : Nat) : Dev :=
  if (d.rail r).st.switching && (d.usableOf r).isEmpty then d.tripRail r 4 else d

/-- A unit leaves service into FAULT (R112, R119, R208, R362): TRI set, its share moved by the loss of its place among the
active units; an injection on its rail stops; a rail left with no usable unit trips. A unit that is no member keeps its
state (R571). -/
def Dev.faultUnit (d : Dev) (n : Nat) : Dev :=
  match d.memberOf n with
  | none => d
  | some r =>
    if (d.unit n).st = .fault ∨ (d.unit n).st = .lost then d.updUnit n fun u => { u with tri := true, duty := 0 }
    else ((d.updUnit n fun u => u.to .fault true).injStopRail r 5).noPhase r

/-- The rail capacities of the tick; DERATED ends when the capacity is back (R79, R121). -/
def Dev.capTick (d : Dev) (r : Nat) : Dev :=
  let c := d.capacity r
  d.updRail r fun x => { x with cap := c, derated := x.derated && decide (c < x.capRef) }

/-- Units of lost clusters enter LOST with TRI set (R120); LOST is recorded for members and others alike (R571); the
capacity is recomputed, the rail shown DERATED, an injection stopped, and rails without units trip. -/
def Dev.loseClusters (d : Dev) (p : Nat → Bool) : Dev :=
  let before := d.rails.map Rail.cap
  let d := foldN 64 (fun d n =>
    if p (n / 8) then
      let d := d.occur (unitPg n) 4
      match d.memberOf n with
      | none => d
      | some r => (d.updUnit n fun u => u.to .lost true).injStopRail r 5
    else d) d
  let d := foldN 8 (fun d k => if p k then d.updCluster k fun c => { c with goodFronds := 0 } else d) d
  let d := foldN 4 (fun d r =>
    let c0 := nth before r 0
    let d := d.capTick r
    if decide ((d.rail r).cap < c0) then
      let d := d.updRail r fun x => { x with capRef := c0, derated := true }
      (d.injStopRail r 6).noPhase r
    else d) d
  d.rebudget

/-- HGATEr is commanded on, or, while region G1 is not judged, when its judgement resumes (R90, R572). -/
def Dev.gateUp (d : Dev) (r : Nat) : Dev :=
  let j := d.judging
  d.updRail r fun x => { x with st := .off, gateOn := x.gateOn || j, wantOn := true }

/-- An on request of the fiddlehead to a rail in OFF turns HGATEr on, if BLK_EN = 1 and two units are usable; else the member
fails with cause REFUSED, as it does in LATCHED_OFF. In FAULT_WAIT the request stands (R90). -/
def Dev.railOn (d : Dev) (r : Nat) : Dev :=
  match (d.rail r).st with
  | .off =>
    if d.flag (railPg r) 4 0 && decide (2 ≤ (d.usableOf r).length) then d.gateUp r
    else d.memberRefused r
  | .latchedOff => d.memberRefused r
  | .faultWait => d.updRail r fun x => { x with wantOn := true }
  | _ => d

/-- An off request to a rail (R92, R118): a soft stop or an immediate stop; in FAULT_WAIT the restart is given up; a rail in
LATCHED_OFF goes to OFF. -/
def Dev.railOffReq (d : Dev) (r : Nat) : Dev :=
  match (d.rail r).st with
  | .softStart | .regulate =>
    if d.flag (railPg r) 0x40 6 then
      (d.injLeave r).updRail r fun x => { x with st := .softStop, dwell := 0, wantOn := false }
    else d.railOff r
  | .softStop => d.updRail r fun x => { x with wantOn := false }
  | .faultWait => d.updRail r fun x => { x with wantOn := false }
  | .off => d.updRail r fun x => { x with gateOn := false, wantOn := false, startDue := false }
  | .latchedOff => d.updRail r fun x => { x with st := .off, wantOn := false }

/-- The end of the retry timer (R93, R118). -/
def Dev.retryEnd (d : Dev) (r : Nat) : Dev :=
  let m := d.fld (railPg r) 0x40 19 16
  let x := d.rail r
  if !(d.flag (railPg r) 4 0) || !x.wantOn then d.railOff r
  else if decide (x.retryUsed < m) || m == 15 then
    let d := d.updRail r fun x => { x with retryUsed := satInc 15 x.retryUsed }
    if decide (2 ≤ (d.usableOf r).length) then d.gateUp r
    else d.tripRail r 4
  else (d.updRail r fun x => { x with st := .latchedOff, wantOn := false }).occur (railPg r) 8

/-! ### Target and reference of a tick -/

/-- The target before the ceiling: RAIL_VSET, or the last valid value of the external source (R96, R97). -/
def Dev.rawTarget (d : Dev) (r : Nat) : Int :=
  if d.fld (railPg r) 0x40 1 0 = 0 then d.sreg (railPg r) 0x44 else (d.rail r).tgtLast

/-- The target clamped to the crust's ceiling; CEILING is recorded when the clamp comes into force (R98). -/
def Dev.targetTick (d : Dev) (r : Nat) : Dev :=
  let t := d.rawTarget r
  let c := d.railCeiling r
  let high := decide (c < t)
  let d' := if high && !(d.rail r).ceiling then d.occur (railPg r) 6 else d
  d'.updRail r fun x => { x with target := if high then c else t, ceiling := high }

/-- The leader of a rail with TRACK_MODE 0b01 or 0b10 (R100). With the reserved code 0b11 the model lets the rail follow none
(log entry 76). -/
def Dev.leader (d : Dev) (r : Nat) : Option Nat :=
  let m := d.fld (railPg r) 0x40 3 2
  if m = 1 ∨ m = 2 then some (d.fld (railPg r) 0x40 5 4) else none

/-- The follower's reference from its leader's, limited to its own target (R100), in the unit of `refU`. -/
def Dev.trackU (d : Dev) (r l : Nat) : Int :=
  let tgt := (d.rail r).target * microSig
  let refL := (d.rail l).refU
  let v :=
    if d.fld (railPg r) 0x40 3 2 = 1 then refL
    else if (d.rail l).target = 0 then 0
    else Config.rdiv 2 (refL * (d.rail r).target) (d.rail l).target
  if tgt < v then tgt else v

/-- Movement of a reference towards a goal by at most one slew step. -/
def slewTo (x goal step : Int) : Int := if x < goal then min goal (x + step) else max goal (x - step)

/-- The reference of a rail for the tick (R91, R92, R98, R100). A follower in SOFT_START whose leader leaves for OFF or
FAULT_WAIT falls under two bullets of R100: the model holds its reference, as for every leader that does not switch. A follower in
SOFT_STOP under a leader in SOFT_START takes the lower of its own falling reference and the leader's, so that its stop completes
(R92, R93; log entry 76). -/
def Dev.refTick (d : Dev) (r : Nat) : Dev :=
  let x := d.rail r
  let step := d.slewU r
  let goal := x.target * microSig
  let own (st : RailState) : Int :=
    match st with
    | .softStart | .regulate => slewTo x.refU goal step
    | .softStop => max 0 (x.refU - step)
    | _ => x.refU
  match d.leader r with
  | none => if x.st.switching && !x.firstTick then d.updRail r fun y => { y with refU := own x.st, tracking := false, leadSw := none }
    else d.updRail r fun y => { y with leadSw := none }
  | some l =>
    let ls := (d.rail l).st
    let d := d.updRail r fun y => { y with leadSw := if ls.switching then some l else none }
    if !x.st.switching then d
    else if ls = .softStart ∨ ls = .softStop then
      let stops := ls == .softStop && x.st == .regulate
      let d := if stops then d.injStopRail r 3 else d
      let ref := if ls = .softStart ∧ x.st = .softStop then min (own .softStop) (d.trackU r l) else d.trackU r l
      d.updRail r fun y => { y with st := if stops then .softStop else y.st, refU := ref, tracking := true }
    else if ls = .regulate then
      if x.firstTick then d else d.updRail r fun y => { y with refU := own x.st, tracking := false }
    else
      match x.st with
      | .softStart => d.updRail r fun y => { y with tracking := true }
      | .regulate =>
        if x.leadSw = some l then
          (d.injStopRail r 3).updRail r fun y => { y with st := .softStop, refU := own .softStop, tracking := false }
        else d.updRail r fun y => { y with refU := own .regulate, tracking := false }
      | _ => d.updRail r fun y => { y with refU := own .softStop, tracking := false }

/-- The boundary into a rail's first SOFT_START tick, with the pointer of its bursts at slot 0 (log entry 117): the ramp begins at the remote-sense voltage if that lies between 0 V
and the target (R91), the period counter at 0 (R82), and every usable unit is active (R89). -/
def Dev.startTick (d : Dev) (r : Nat) : Dev :=
  if !(d.rail r).startDue then d.updRail r fun x => { x with firstTick := false }
  else
    let fsw := d.fld (railPg r) 0x48 11 0
    let d := d.updRail r fun x =>
      { x with st := .softStart, startDue := false, firstTick := true, counter := 0, fsw := fsw, ptr := 0, ptrS := 0, hist := [],
               refU := if 0 < x.vs ∧ x.vs < x.target then x.vs * microSig else 0 }
    foldN 64 (fun d n =>
      if d.isMember r n && d.usable n then d.updUnit n fun u => { u.to .active false with ovl := 0 } else d) d

/-- Counts of a rail in a tick: overload, under- and over-voltage, short, limiting, power-good (R95, R113 to R117). -/
def Dev.countTick (d : Dev) (r : Nat) : Dev :=
  let x := d.rail r
  if !x.st.switching then d
  else
    let hist := (x.ir :: x.hist).take 32
    let sum := hist.foldl (· + ·) 0
    let th := (d.fld (railPg r) 0x58 15 0 : Int) * 2 ^ 13
    let ovr := overFold sum th (d.foldOf r) || (x.satC && d.belowWin r)
    let ovl := if ovr then x.ovl + 1 else 0
    let uv := if x.st = .regulate ∧ d.belowWin r then x.uv + 1 else 0
    let ovRun := if d.aboveOv r then x.ovRun + 1 else 0
    let ov := x.ovDecl || (decide (2 ≤ ovRun) && !x.ovTrip)
    let sh := if x.st = .softStart ∧ 2 * x.vs * microSig < x.refU then x.shortRun + 1 else 0
    let act := d.activeOf r
    let trips := (act.filter fun n => (d.unit n).flimNow).length
    let flimRun := if act.length ≤ 4 * trips ∧ 0 < trips then x.flimRun + 1 else 0
    let lim := decide (0 < ovl) || (upto 64).any (fun n => d.isMember r n && decide (0 < (d.unit n).ovl)) || decide (4 ≤ flimRun)
    let pg := x.st == .regulate && !d.belowWin r && !d.aboveWin r && !lim && ovl == 0 && uv == 0
    let rose := (ovl != 0 && x.ovl == 0) || (uv != 0 && x.uv == 0)
    let d := d.updRail r fun x =>
      { x with hist := hist, ovl := ovl, uv := uv, ovRun := ovRun, ovDecl := ov, shortRun := sh, flimRun := flimRun, limiting := lim,
               rawPg := pg, pgRun := if pg then x.pgRun + 1 else 0 }
    if rose then d.injStopRail r 4 else d

/-- Units of a rail in IDLE that may be added, coolest first, lower number first on a tie; units without a reading last
(R102). -/
def coolOrder (l : List (Nat × Option Int)) : List Nat :=
  let le (a b : Nat × Option Int) : Bool :=
    match a.2, b.2 with
    | some x, some y => decide (x < y) || (x == y && decide (a.1 ≤ b.1))
    | some _, none => true
    | none, some _ => false
    | none, none => decide (a.1 ≤ b.1)
  (sortBy le l).map Prod.fst

/-- The stage temperature by which adding and shedding choose: none, so hotter than every reading, also for a unit whose word is
0x8000 and that has no adjacent unit to substitute from (R102). -/
def Dev.rankTemp (d : Dev) (n : Nat) : Nat × Option Int :=
  (n, if nth d.therm.stBad n false && nth d.therm.stHalf n false then none else (d.unit n).temp)

/-- A unit of rail `r` enters ACTIVE from IDLE: TRI clears, it starts under the new offsets, its overload count and its balance
states at 0 (R102, R134). -/
def Dev.activate (d : Dev) (r n : Nat) : Dev := (d.zeroBalance r n).updUnit n fun u => { u.to .active false with ovl := 0 }

/-- How many units are to be added so that I_r ≤ ADD_LEVEL × N. -/
def addNeed (ir lvl : Int) (n : Nat) : Nat → Nat
  | 0 => 0
  | fuel + 1 => if ir > lvl * n then addNeed ir lvl (n + 1) fuel + 1 else 0

/-- Adding (R89, R102): in SOFT_START every usable unit is active; in REGULATE with SHED_EN = 0 every usable unit outside
thermal hold is, and with SHED_EN = 1 as many as the current needs. -/
def Dev.addUnits (d : Dev) (r : Nat) : Dev :=
  let x := d.rail r
  let free := (upto 64).filter fun n => d.isMember r n && d.usable n && (d.unit n).st == .idle
  match x.st with
  | .softStart => free.foldl (fun d n => d.activate r n) d
  | .regulate =>
    let cand := free.filter fun n => !(d.unit n).hold
    if d.flag (railPg r) 0x40 7 then
      let lvl := (d.fld (railPg r) 0x54 9 0 : Int) * 2 ^ 13
      let need := addNeed x.ir lvl (d.nAct r) 64
      let pick := (coolOrder (cand.map d.rankTemp)).take need
      pick.foldl (fun d n => d.activate r n) d
    else cand.foldl (fun d n => d.activate r n) d
  | _ => d

/-- Adding in a tick, and the dwell of the shed condition (R102). -/
def Dev.addTick (d : Dev) (r : Nat) : Dev :=
  let d := d.addUnits r
  let shed := (d.fld (railPg r) 0x54 19 10 : Int) * 2 ^ 13
  let low := d.flag (railPg r) 0x40 7 && decide ((d.rail r).ir ≤ shed * ((d.nAct r : Int) - 1))
  if (d.rail r).st = .regulate then d.updRail r fun x => { x with dwell := if low then x.dwell + 1 else 0 } else d

/-- A grant or an unannounced step cancels shedding (R106): a mark of this tick is not made, a unit whose TRI is not yet
applied is restored, and no unit is marked for 64 ticks after the present one. A mark that was not made is no
shed, so the dwell of the shed condition stands (R102). -/
def Dev.cancelShed (d : Dev) (r : Nat) : Dev :=
  let undone := (upto 64).any fun n => d.isMember r n && (d.unit n).st == .marked && (d.unit n).since == 0
  let d := foldN 64 (fun d n =>
    let u := d.unit n
    if d.isMember r n && !u.hold && (u.st == .marked || (u.st == .ramp && u.since == 0)) then
      d.updUnit n fun u => u.to .active false
    else d) d
  let full := d.fld (railPg r) 0x54 31 20
  d.updRail r fun x => { x with noMark := 65, dwell := if undone then Nat.max x.dwell full else x.dwell }

/-- Marks a unit (R104): its duty word is 0 and its share moves to the remaining active units. -/
def Dev.mark (d : Dev) (n : Nat) : Dev := d.updUnit n fun u => { u.to .marked false with duty := 0 }

/-- The unit of a rail to be shed: the hottest active one, the higher number on a tie, one without a reading first (R102). -/
def Dev.hottest (d : Dev) (r : Nat) : Option Nat :=
  (coolOrder ((d.activeOf r).map d.rankTemp)).getLast?

/-! ### Interleave and period starts -/

/-- The on-time die S uses for a duty word, and whether a limit set it (R83). -/
def onTimeOf (duty fsw minOn minOff : Nat) : Nat × Bool :=
  if duty = 0 then (0, false)
  else if duty < 16 * minOn then (16 * minOn, true)
  else if duty ≤ 16 * (fsw - minOff) then (duty, false)
  else (16 * (fsw - minOff), true)

/-- The next period start of a unit whose offset changes (R86): the instant nearest the end `t` of its present period at
which the rail counter equals the new offset; the later of two equally near; none before `early`. `x` is the distance of
the offset from the counter. -/
def movedStart (t x fsw early : Nat) : Nat :=
  let r := (t + fsw - x % fsw) % fsw
  let later := if r = 0 then t else t + (fsw - r)
  if r ≠ 0 ∧ r < fsw - r ∧ r ≤ t ∧ early ≤ t - r then t - r
  else later + (early - later + fsw - 1) / fsw * fsw

/-- Slots and offsets of a rail's active units from the boundary into the tick (R85, R86). No start is moved to an instant before
the end of the present on-time plus MIN_OFF. -/
def Dev.interleave (d : Dev) (r : Nat) : Dev :=
  let x := d.rail r
  if !x.st.switching then d
  else
    let act := d.activeOf r
    let n := act.length
    let minOff := d.fld (railPg r) 0x48 27 20
    let d := act.zipIdx.foldl (fun d (p : Nat × Nat) =>
      let off := p.2 * x.fsw / n
      let u := d.unit p.1
      let dist := (off + x.fsw - x.counter % x.fsw) % x.fsw
      let early := (u.onTime + u.ext + 15) / 16 + minOff - u.age
      let start :=
        if u.triOn then dist
        else if u.offset = off then u.toStart
        else movedStart u.toStart dist x.fsw early
      d.updUnit p.1 fun u =>
        { u with slot := p.2, offset := off, toStart := start, moved := u.moved || (!u.triOn && start != u.toStart) }) d
    d.updRail r fun x => { x with ptr := if n = 0 then 0 else x.ptr % n, ptrS := if n = 0 then 0 else x.ptrS % n }

/-! ### The PWM of a unit in a tick of 400 timebase cycles, 6,400 steps (R83, R84, R108 to R110) -/

/-- An extra pulse begins at step `start` of the tick. -/
def PhUnit.pulseFrom (u : PhUnit) (w start : Nat) : PhUnit :=
  { u with xpAt := some (min start (u.xpAt.getD start)), xpLeft := max u.xpLeft (w - (6400 - start)) }

/-- An extra pulse that is due `p` steps into the tick, before the unit's next period start: it extends an on-time, waits for
the end of MIN_OFF, or begins; it is suppressed after a fast-limit trip, and dropped when it would start after the next period
start (R109, R110). `w` is XP_WIDTH and `off` MIN_OFF, in steps. -/
def PhUnit.pulseNow (u : PhUnit) (w off p : Nat) : PhUnit :=
  let high := u.onTime + u.ext
  let at1 := 16 * u.age + p
  let start := if high = 0 ∨ high + off ≤ at1 then p else high + off - 16 * u.age
  if u.trip then u
  else if at1 < high then { u with ext := u.ext + w }
  else if 16 * u.toStart < start then u
  else if 6400 ≤ start then { u with pulse := u.pulse ++ [start] }
  else u.pulseFrom w start

/-- An extra pulse due in the tick at or after the period start of the tick: within the new on-time it extends it; after it, it
waits for the end of MIN_OFF or begins. -/
def PhUnit.pulseAfter (u : PhUnit) (w off start p : Nat) : PhUnit :=
  let since := p - 16 * start
  let high := u.onTime + u.ext
  if since < high then { u with ext := u.ext + w }
  else
    let at1 := if high = 0 ∨ high + off ≤ since then p else 16 * start + high + off
    if 6400 ≤ at1 then { u with pulse := u.pulse ++ [at1] } else u.pulseFrom w at1

/-- The extra pulses of a unit that are due before step `lim` of the tick, in order. -/
def PhUnit.pulseBefore (u : PhUnit) (w off lim : Nat) : PhUnit :=
  (u.pulse.filter fun p => decide (p < lim)).foldl (fun u p => u.pulseNow w off p)
    { u with pulse := u.pulse.filter fun p => decide (lim ≤ p) }

/-- The extra pulses that are due in the tick after its period start, in order. -/
def PhUnit.pulseRest (u : PhUnit) (w off start : Nat) : PhUnit :=
  let due (p : Nat) : Bool := decide (16 * start ≤ p) && decide (p < 6400)
  (u.pulse.filter due).foldl (fun u p => u.pulseAfter w off start p) { u with pulse := u.pulse.filter fun p => !due p }

/-- A period starts `u.toStart` cycles into the tick: its on-time is that of the duty word in force and of the switching period
in force at that instant, `per`; the next start is `next` cycles into the tick, where the rail counter equals the offset again
(R83, R86). -/
def PhUnit.periodStart (u : PhUnit) (per next minOn minOff : Nat) : PhUnit :=
  let p := onTimeOf u.applied per minOn minOff
  { u with onTime := p.1, ext := 0, age := 400 - u.toStart, toStart := next - 400, moved := false, trip := false,
           clamps := if p.2 || u.moved then satInc 65535 u.clamps else u.clamps }

/-- Whether the rail counter wraps in the tick, and at which cycle. -/
def Rail.wrapAt (x : Rail) : Option Nat := if x.fsw ≤ x.counter + 400 then some (x.fsw - x.counter) else none

/-- One tick of a unit's PWM: its extra pulses, and at most one period start (R83, R84). A new FSW_PERIOD is in force from the
wrap of the rail counter on (R86). A unit in tri-state has no on-time, no pulse to come and no moved start (R83, R109). -/
def Dev.periodTick (d : Dev) (n : Nat) : Dev :=
  match d.memberOf n with
  | none => d
  | some r =>
    let x := d.rail r
    let u0 := d.unit n
    let f := let f := d.fld (railPg r) 0x48 11 0; if f = 0 then 1 else f
    let minOn := d.fld (railPg r) 0x48 19 12
    let minOff := d.fld (railPg r) 0x48 27 20
    let w := 16 * d.fld (railPg r) 0x4C 7 0
    let later (u : PhUnit) : PhUnit := { u with pulse := u.pulse.map fun p => p - 6400 }
    if u0.triOn || !x.st.switching then
      d.updUnit n fun u =>
        { u with pulse := [], xpAt := none, xpLeft := 0, onTime := 0, ext := 0, age := 0, moved := false, trip := false }
    else
      let u := { u0 with xpAt := none, xpLeft := u0.xpLeft - 6400 }
      let start := u.toStart
      if start < 400 then
        let u := u.pulseBefore w (16 * minOff) (16 * start)
        let wrapped := match x.wrapAt with
          | some c => decide (c ≤ start)
          | none => false
        let next := match x.wrapAt with
          | some c => if c ≤ start then start + f else c + u.offset
          | none => start + x.fsw
        let u := u.periodStart (if wrapped then f else x.fsw) next minOn minOff
        d.updUnit n fun _ => later (u.pulseRest w (16 * minOff) start)
      else
        let u := u.pulseBefore w (16 * minOff) 6400
        d.updUnit n fun _ => later { u with toStart := start - 400, age := u.age + 400 }

/-- The rail counter at the start of the next tick; a new FSW_PERIOD takes effect at a wrap (R82, R86). -/
def Dev.counterTick (d : Dev) (r : Nat) : Dev :=
  let f := d.fld (railPg r) 0x48 11 0
  d.updRail r fun x =>
    if x.st.switching then
      let c := x.counter + 400
      if c < x.fsw then { x with counter := c }
      else { x with counter := (c - x.fsw) % (if f = 0 then 1 else f), fsw := f }
    else x

/-- A burst of a rail: the XP bits of the first min(XP_COUNT, N) active units from the pointer, and the twins' pointer advanced
by one slot (R107, R108). -/
def Dev.burstRail (d : Dev) (r : Nat) : Dev :=
  let act := d.activeOf r
  let n := act.length
  let cnt := min (d.fld (railPg r) 0x4C 14 8) n
  let x := d.rail r
  if cnt = 0 then d.updRail r fun x => { x with burst := false }
  else
    let d := (upto cnt).foldl (fun d j => d.updUnit (nth act ((x.ptr + j) % n) 0) fun u => { u with xp := true }) d
    d.updRail r fun x => { x with burst := false, undoOld := x.ptr, undo := 1, ptr := (x.ptr + 1) % n }

/-- Die S applies the XP bits of a result, `xp`, beside pulses of earlier bursts that are still due: the pulse of the j-th unit of a burst, counted in slot order from die S's own
pointer, is due j × XP_SPACING cycles after the boundary, and the pointer advances by one slot (R108). -/
def Dev.applyBurst (d : Dev) (xp : Nat → Bool) (r : Nat) : Dev :=
  let act := d.activeOf r
  let n := act.length
  let x := d.rail r
  let order := ((upto n).map fun i => nth act ((x.ptrS + i) % n) 0).filter xp
  if order.isEmpty then d
  else
    let d := order.zipIdx.foldl (fun d (p : Nat × Nat) =>
      d.updUnit p.1 fun u => { u with pulse := u.pulse ++ [16 * p.2 * d.fld (railPg r) 0x4C 23 16] }) d
    d.updRail r fun x => { x with ptrS := (x.ptrS + 1) % n }

/-- The twins in a new tick: after a held result they take back the advance of the pointer that die S did not make (R108). -/
def Dev.burstUndo (d : Dev) : Dev :=
  let held := d.die.held
  { d with
    rails := d.rails.map fun x => { x with ptr := if held && x.undo == 1 then x.undoOld else x.ptr, undo := 0 },
    units := d.units.map fun u => { u with xp := false } }

/-! ### Thermal shed (R360) -/

/-- The frond-mean rate of a stage in 2^-16 °C per 0.128 ms (R358); 0 while rates are not checked or no two means exist. -/
def Dev.stageRise (d : Dev) (n : Nat) : Int :=
  if d.therm.rateEn && nth d.therm.stOk n false then nth d.therm.stMean n 0 - nth d.therm.stPrev n 0 else 0

/-- A stage rate above a level in °C/ms. -/
def Dev.rateAbove (d : Dev) (n level : Nat) : Bool := decide ((level : Int) * 128 * 65536 < d.stageRise n * 1000)

/-- A stage rate below a level in °C/ms. -/
def Dev.rateBelow (d : Dev) (n level : Nat) : Bool := decide (d.stageRise n * 1000 < (level : Int) * 128 * 65536)

/-- A thermal shed of a unit: it follows R104, is counted in RATE_SHED, and the unit is in thermal hold; the last active
unit of a rail is never shed. A unit already being shed goes on, in thermal hold. The dwell count of R102 goes on too: it starts again
after a shed of that rule (log entry 117). -/
def Dev.thermalMark (d : Dev) (r n : Nat) : Dev :=
  let going := (d.unit n).st == .marked || (d.unit n).st == .ramp
  if going ∨ ((d.unit n).st = .active ∧ 2 ≤ d.nAct r) then
    let d := (if going then d else d.mark n).updUnit n fun u => { u with hold := true }
    { d.occur 0xA8 4 with therm := { d.therm with holdN := updAt d.therm.holdN n fun _ => 0,
                                                  shedWait := updAt d.therm.shedWait n fun _ => false } }
  else d

/-- The thermal sheds that wait are made on a rail in REGULATE, in the first tick after the boundary of the request, or at the rail's
entry into REGULATE where the rate still exceeds the level (R360). -/
def Dev.thermalShed (d : Dev) (r : Nat) : Dev :=
  foldN 64 (fun d n =>
    if d.isMember r n && nth d.therm.shedWait n false then
      let d := { d with therm := { d.therm with shedWait := updAt d.therm.shedWait n fun _ => false } }
      if d.rateAbove n (d.fld 0xA8 0x50 23 16) then d.thermalMark r n else d
    else d) d

end Sys2Proof.Machine
end

