-- ==== Sys2Proof/Machine/Loops.lean ====
section
/-! DEFINITION. The control engine: sections, cascades, the control classes, coefficient commits, injection and capture
(spec/04). -/

namespace Sys2Proof.Machine

/-! ### Sections (R128 to R130) -/

/-- Saturation to 64 bits: the value and whether it saturated. -/
def sat64 (x : Int) : Int × Nat :=
  if x < -(2 ^ 63) then (-(2 ^ 63), 1) else if 2 ^ 63 - 1 < x then (2 ^ 63 - 1, 1) else (x, 0)

/-- One coefficient record: B0, B1, B2, A1, A2, LO, HI, BYPASS and SHIFT. -/
structure Section where
  b0 : Int
  b1 : Int
  b2 : Int
  a1 : Int
  a2 : Int
  lo : Int
  hi : Int
  bypass : Bool
  shift : Int
deriving DecidableEq, Repr

/-- A state record: x[n−1], x[n−2], y[n−1], y[n−2]. -/
structure SecState where
  x1 : Int
  x2 : Int
  y1 : Int
  y2 : Int
deriving DecidableEq, Repr

/-- A product shifted by SHIFT: left with saturation, or arithmetically right (R129, step 2). The model counts in SAT_COUNT the
saturations of the additions and subtractions of step 3 only, neither one of this shift nor one of step 4 (log entry 77). -/
def shiftProd (p sh : Int) : Int :=
  if 0 ≤ sh then (sat64 (p * 2 ^ sh.toNat)).1 else p / 2 ^ (-sh).toNat

/-- The clamp to [LO, HI]; with LO above HI the record is never live through a commit (R141). -/
def Section.clamp (c : Section) (x : Int) : Int := if x < c.lo then c.lo else if c.hi < x then c.hi else x

/-- The accumulator of R129, steps 1 to 3, and its saturations. -/
def Section.acc (c : Section) (s : SecState) (x : Int) : Int × Nat :=
  let p0 := shiftProd (c.b0 * x) c.shift
  let p1 := shiftProd (c.b1 * s.x1) c.shift
  let p2 := shiftProd (c.b2 * s.x2) c.shift
  let r1 := sat64 (p0 + p1)
  let r2 := sat64 (r1.1 + p2)
  let r3 := sat64 (r2.1 - c.a1 * s.y1)
  let r4 := sat64 (r3.1 - c.a2 * s.y2)
  (r4.1, r1.2 + r2.2 + r3.2 + r4.2)

/-- One section: its output, its new states and its saturations (R128 to R130). -/
def Section.run (c : Section) (s : SecState) (x : Int) : Int × SecState × Nat :=
  let r := c.acc s x
  let y := if c.bypass then c.clamp x else c.clamp (sat32 ((r.1 + 2 ^ 27) / 2 ^ 28))
  (y, ⟨x, s.x1, y, s.y1⟩, if c.bypass then 0 else r.2)

/-- The coefficient record at a byte address, in its live copy (R132). -/
def Dev.section (d : Dev) (a : Nat) : Section :=
  let b := if d.live.contains a then a + 32 else a
  let w := fun i => signed 32 (memWord d.sram (b + 4 * i))
  let ctl := memWord d.sram (b + 28)
  ⟨w 0, w 1, w 2, w 3, w 4, w 5, w 6, bitAt ctl 31, signed 5 (bits ctl 4 0)⟩

/-- The state record at a byte address. -/
def Dev.secState (d : Dev) (a : Nat) : SecState :=
  let w := fun i => signed 32 (memWord d.sram (a + 4 * i))
  ⟨w 0, w 1, w 2, w 3⟩

/-- Writes a state record. -/
def Dev.putState (d : Dev) (a : Nat) (s : SecState) : Dev :=
  { d with sram := memPutWord (memPutWord (memPutWord (memPutWord d.sram a (unsigned 32 s.x1)) (a + 4) (unsigned 32 s.x2))
      (a + 8) (unsigned 32 s.y1)) (a + 12) (unsigned 32 s.y2) }

/-- A cascade of `n` sections on an input (R128, R132): records from `recs`, states from `states`, saturations counted in
cluster `k`. -/
def Dev.cascade (d : Dev) (k recs states : Nat) : Nat → Nat → Int → Dev × Int
  | 0, _, x => (d, x)
  | n + 1, i, x =>
    let r := (d.section (recs + 64 * i)).run (d.secState (states + 16 * i)) x
    let d := d.putState (states + 16 * i) r.2.1
    let d := d.updCluster k fun c => { c with sat := c.sat + r.2.2 }
    Dev.cascade d k recs states n (i + 1) r.1

/-- The cascade of a BIQ, VLP or FFS block at a descriptor. -/
def Dev.blockCascade (d : Dev) (k desc n : Nat) (x : Int) : Dev × Int :=
  let b := descAddr desc
  d.cascade k (b + 64) (b + 64 + 64 * n) n 0 x

/-- BIQ (R135). -/
def Dev.fireBiq (d : Dev) (e : SlotEntry) : Dev :=
  let r := d.blockCascade (engineCluster e.engine) e.srcB (e.cls - 0x07) (d.opWord e.srcA 0)
  r.1.putOp e.dst 0 r.2

/-- FFS (R135): the profile sample of the tick through the shaper. The result goes to word 1 of the 64-bit unit that DST names:
an input block has its SUM result in word 0 and its FFS result in word 1 (R137), and an operand descriptor names 64-bit units
(log entry 78). -/
def Dev.fireFfs (d : Dev) (e : SlotEntry) : Dev :=
  let r := d.blockCascade (engineCluster e.engine) e.srcB (e.cls - 0x17) (d.opWord e.srcA 0)
  r.1.putOp e.dst 1 r.2

/-- The currents of a cluster's units that are members of a rail and not LOST (R136). -/
def Dev.clusterCurrent (d : Dev) (k r : Nat) : Int :=
  (upto 8).foldl (fun a j =>
    let n := 8 * k + j
    if d.isMember r n && (d.unit n).st != .lost then a + (d.unit n).cur else a) 0

/-- SUM (R136). -/
def Dev.fireSum (d : Dev) (e : SlotEntry) : Dev :=
  let part := if descUnused e.srcA then 0 else d.opWord e.srcA 0
  d.putOp e.dst 0 (part + d.clusterCurrent (engineCluster e.engine) (bits e.srcB 1 0))

/-- The injection sample of a block in this tick, word 1 of its header: 0 where no INJ entry has fired for it (R133, R145), and for
an entry that is dispatched before the INJ entry of the tick (log entry 118). -/
def Dev.injSample (d : Dev) (desc : Nat) : Int :=
  if d.inj.fired.contains (descAddr desc + 4) then d.opWord desc 1 else 0

/-- The sample of a point on a rail's block: INJ_POINT is the one of the block's header (R133, R145). -/
def Dev.injAt (d : Dev) (r desc point : Nat) : Int :=
  if d.fld 0xE0 0x40 7 6 = r ∧ bits (d.opNat desc 6) 2 0 = point then d.injSample desc else 0

/-- The header words that the device writes through the coefficient port: V_REF, C_R, LL and N_ACT of a VLP block, the units of
the cluster that are ACTIVE and MARKED on the rail in a PHASE block, as masks (log entry 79), and at the start of an injection
its point and unit (R133). The port writes in the last cycle of a tick, so every entry of the next one reads the new values; the
model writes them when the tick has its reference, before its first entry. -/
def Dev.coeffPort (d : Dev) : Dev :=
  d.sched.bank.foldl (fun d e =>
    if e.valid && ((decide (0x10 ≤ e.cls) && decide (e.cls < 0x18)) || e.cls == 0x21) then
      let r := d.blockRail e.srcB
      let k := engineCluster e.engine
      let mask (st : PhState) : Int :=
        (upto 8).foldl (fun v j => v + (b2n (d.isMember r (8 * k + j) && (d.unit (8 * k + j)).st == st) * 2 ^ j : Nat)) 0
      let inj := d.inj.started && d.inj.running && d.fld 0xE0 0x40 7 6 == r
      let d := if inj then d.putOp e.srcB 6 (d.fld 0xE0 0x40 4 2 + 256 * d.fld 0xE0 0x40 13 8 : Nat) else d
      if e.cls = 0x21 then d.putOp e.srcB 5 (mask .active + 256 * mask .marked)
      else
        (((d.putOp e.srcB 2 (d.rail r).ref).putOp e.srcB 3 (d.rail r).cap).putOp e.srcB 4 (d.fld (railPg r) 0x50 9 0)).putOp
          e.srcB 5 (d.nAct r)
    else d) d

/-- VLP (R137): the rail current, the error, the cascade, the current reference and the rail result block; V_REF, C_R, LL and
N_ACT are those of the block's header (R133). -/
def Dev.fireVlp (d : Dev) (e : SlotEntry) : Dev :=
  let k := engineCluster e.engine
  let r := d.blockRail e.srcB
  let n := e.cls - 0x0F
  let x := d.rail r
  let ll := d.opNat e.srcB 4
  let cap := d.opWord e.srcB 3
  let nact := d.opNat e.srcB 5
  let ir := (if descUnused e.srcA then 0 else d.opWord e.srcA 0) + d.clusterCurrent k r
  let ff := if descUnused e.srcA then 0 else d.opWord e.srcA 1
  let vref := d.opWord e.srcB 2
  let drop := Config.rdiv 3 ((ll : Int) * ir) 1000000
  let e0 := vref - drop - x.vs
  let err := vref + d.injAt r e.srcB 0 - drop - x.vs + d.injAt r e.srcB 1
  let c := d.blockCascade k e.srcB n (sat32 err)
  let d := c.1
  let iraw := c.2 + ff + d.injAt r e.srcB 2
  let iref := clampI 0 cap iraw
  let det := d.unannDetect r e0 ir
  let d := d.updRail r fun x => { x with satC := decide (cap ≤ iraw) }
  (((d.putOp e.dst 0 iref).putOp e.dst 1 vref).putOp e.dst 2 ir).putOp e.dst 3
    (nact % 128 + 256 * r + 1024 * b2n det)

/-- Rounding to the nearest integer; which way a tie goes is not stated (log entry 3). -/
def roundNear (site : Nat) (num den : Int) : Int :=
  let q := num / den
  let m := num % den
  if 2 * m < den then q else if den < 2 * m then q + 1
  else if Config.roundUp site num den then q + 1 else q

/-- The duty words and TRI bits of the cluster's units of a rail, from the result block at `srcA` and the cascade block at `srcB`,
the current shared among `nact` units (R138). The unit fields hold the cluster's actuation slice (R51). -/
def Dev.phaseWords (d : Dev) (k r srcA srcB : Nat) (nact : Int) : Dev :=
  let n := d.blockN srcB
  let b := descAddr srcB
  let iref := d.opWord srcA 0
  let vref := d.opWord srcA 1
  let vbus := d.vBus
  let fsw : Int := (d.rail r).fsw
  foldN 8 (fun d j =>
    let m := 8 * k + j
    if !d.isMember r m then d
    else
      match (d.unit m).st with
      | .active =>
        let c := d.cascade k (b + 64) (b + 64 + 64 * n + 16 * n * j) n 0
          (sat32 (Config.rdiv 4 iref (if nact = 0 then 1 else nact) - (d.unit m).cur))
        let y := c.2 + (if bits (d.opNat srcB 6) 13 8 = m then d.injAt r srcB 3 else 0)
        let w := roundNear 5 ((vref * 65536 + y * vbus) * 16 * fsw) (vbus * 65536)
        c.1.updUnit m fun u => { u with duty := (clampI 0 65535 w).toNat }
      | .marked => d.updUnit m fun u => { u with duty := 0 }
      | _ => d.updUnit m fun u => { u with duty := 0, tri := true }) d

/-- PHASE (R138): the words of the cluster's units of the rail, and the unannounced-step bit of the result block (R188). What the
entry started from is kept for the tick. -/
def Dev.firePhase (d : Dev) (e : SlotEntry) : Dev :=
  let k := engineCluster e.engine
  let r := d.blockRail e.srcB
  let n := d.blockN e.srcB
  let w3 := d.opNat e.srcA 3
  let st := memBytes d.sram (d.balanceAddr e.srcB 0) (128 * n)
  let sat0 := (d.cluster k).sat
  let d := if bitAt w3 10 then d.updRail r fun x => { x with unann := true } else d
  let d := d.phaseWords k r e.srcA e.srcB (bits w3 6 0 : Nat)
  { d with runs := d.runs ++ [⟨e.srcA, e.srcB, e.dst, e.engine, r, d.activeOf r, st, (d.cluster k).sat - sat0⟩] }

/-- A PHASE entry of the present tick shares the current anew, since the active units of its rail are no longer those it ran with:
the balance states of the units that had run are as before the entry, N_ACT of the result block is the present one, and the words
are computed again (R104 to R106, R112, R120). -/
def Dev.shareAgain (d : Dev) (x : PhaseRun) : Dev :=
  let k := engineCluster x.engine
  let n := d.blockN x.srcB
  let d := foldN 8 (fun d j =>
    if x.acts.contains (8 * k + j) then
      { d with sram := memWriteBytes d.sram (d.balanceAddr x.srcB j) ((x.states.drop (16 * n * j)).take (16 * n)) }
    else d) d
  let d := d.updCluster k fun c => { c with sat := c.sat - x.sat }
  let d := d.putOp x.srcA 3 (putBits (d.opNat x.srcA 3) 6 0 (d.nAct x.rail) : Nat)
  d.phaseWords k x.rail x.srcA x.srcB (d.nAct x.rail)

/-- The PHASE entries of a rail that ran with other active units than the present ones. -/
def Dev.reshare (d : Dev) (r : Nat) : Dev :=
  (d.runs.zipIdx).foldl (fun d (p : PhaseRun × Nat) =>
    if p.1.rail = r ∧ p.1.acts ≠ d.activeOf r then
      let k := engineCluster p.1.engine
      let d0 := (d.cluster k).sat - p.1.sat
      let d := d.shareAgain p.1
      { d with runs := updAt d.runs p.2 fun x => { x with acts := d.activeOf r, sat := (d.cluster k).sat - d0 } }
    else d) d

/-- The actuation slices as the frame of the tick takes them: units are added for those that left service in the tick (R105), the
shares of the units that remain are those of the present active units, and on a rail whose over-voltage was declared in the tick
every active unit has duty word 0 (R116). -/
def Dev.settleShares (d : Dev) : Dev :=
  foldN 4 (fun d r =>
    let d := (d.addUnits r).reshare r
    if (d.rail r).ovDecl then (d.activeOf r).foldl (fun d n => d.updUnit n fun u => { u with duty := 0 }) d else d) d

/-- OVL (R111, R112): the 32-tick average of every member of the cluster against OVL_TH × F. -/
def Dev.fireOvl (d : Dev) (e : SlotEntry) : Dev :=
  let k := engineCluster e.engine
  foldN 8 (fun d j =>
    let n := 8 * k + j
    match d.memberOf n with
    | none => d
    | some r =>
      let th := (d.fld (unitPg n) 0x40 23 16 : Int) * 2 ^ 15
      let sum := (d.unit n).hist.foldl (· + ·) 0
      let ov := overFold sum th (d.foldOf r)
      d.updUnit n fun u => { u with ovl := if ov then u.ovl + 1 else 0 }) d

/-- STAT: adds the currents of the cluster's units to their frond averages. -/
def Dev.fireStat (d : Dev) (e : SlotEntry) : Dev :=
  let k := engineCluster e.engine
  foldN 8 (fun d j => d.updUnit (8 * k + j) fun u => { u with curAcc := u.curAcc + u.cur, accN := u.accN + 1 }) d

/-- Zeroes the states of a rail's VLP and FFS blocks and of every unit in its PHASE blocks (R134): the blocks that the entries of
the active image name for the rail, an FFS block through the input block it feeds (R137), and those that the rail's VLP_DESC and
FFS_DESC name. -/
def Dev.zeroLoops (d : Dev) (r : Nat) : Dev :=
  let states (d : Dev) (desc n cnt : Nat) : Dev := d.zeroMem (descAddr desc + 64 + 64 * n) (16 * n * cnt)
  let casc (d : Dev) (off : Nat) : Dev :=
    if d.flag (railPg r) off 31 then states d (d.fld (railPg r) off 20 0) (d.fld (railPg r) off 27 24) 1 else d
  let vlp (e : SlotEntry) : Bool := e.valid && decide (0x10 ≤ e.cls) && decide (e.cls < 0x18) && d.blockRail e.srcB == r
  let inputs := (d.sched.bank.filter vlp).map SlotEntry.srcA
  let d := casc (casc d 0x100) 0x104
  d.sched.bank.foldl (fun d e =>
    if vlp e then states d e.srcB (e.cls - 0x0F) 1
    else if e.valid && decide (0x18 ≤ e.cls) && decide (e.cls < 0x1C) && inputs.contains e.dst then states d e.srcB (e.cls - 0x17) 1
    else if e.valid && e.cls == 0x21 && d.blockRail e.srcB == r then states d e.srcB (d.blockN e.srcB) 8
    else d) d

/-! ### Coefficient commits (R140, R141) -/

/-- Writes a section's eight words to the copy that is not live and makes it live. -/
def Dev.switchSection (d : Dev) (a : Nat) (ws : List Nat) : Dev :=
  let b := if d.live.contains a then a else a + 32
  { d with sram := (ws.zipIdx).foldl (fun m (p : Nat × Nat) => memPutWord m (b + 4 * p.2) p.1) d.sram,
           live := if d.live.contains a then d.live.filter (· != a) else a :: d.live }

/-- The eight words of the live copy of a record. -/
def Dev.liveWords (d : Dev) (a : Nat) : List Nat :=
  let b := if d.live.contains a then a + 32 else a
  (upto 8).map fun i => memWord d.sram (b + 4 * i)

/-- One dirty section: `keys` gives the register address of its word `i`, `a` the record if the section may be written.
A refused section keeps its live copy and sets COEFF_REFUSED. -/
def Dev.commitSection (d : Dev) (pg refBit : Nat) (sampled : List (Nat × Nat)) (keys : Nat → Nat) (a : Option Nat) : Dev :=
  if (upto 8).any fun i => (alGet sampled (keys i)).isSome then
    match a with
    | none => d.occur pg refBit
    | some a =>
      let old := d.liveWords a
      let ws := (upto 8).map fun i => (alGet sampled (keys i)).getD (nth old i 0)
      if signed 32 (nth ws 6 0) < signed 32 (nth ws 5 0) then d.occur pg refBit else d.switchSection a ws
  else d

/-- The record of section `i` mapped by a descriptor register, if the register is valid and holds the section. -/
def Dev.descRecord (d : Dev) (pg off i : Nat) : Option Nat :=
  if d.flag pg off 31 && decide (i < d.fld pg off 27 24) then some (descAddr (d.fld pg off 20 0) + 64 + 64 * i) else none

/-- The coefficient sections of a page's commit: those of a rail page or the window of a cluster page. -/
def Dev.commitCoeffs (d : Dev) (pg : Nat) (sampled : List (Nat × Nat)) : Dev :=
  if 0x28 ≤ pg ∧ pg < 0x2C then
    let d := foldN 8 (fun d i =>
      d.commitSection pg 10 sampled (fun w => regAddr pg (0x200 + 0x20 * i + 4 * w)) (d.descRecord pg 0x100 i)) d
    foldN 4 (fun d i =>
      d.commitSection pg 10 sampled (fun w => regAddr pg (0x300 + 0x20 * i + 4 * w)) (d.descRecord pg 0x104 i)) d
  else if 0x20 ≤ pg ∧ pg < 0x28 then
    let ad := d.fld pg 0x40 14 0
    let a := if ad % 8 = 0 ∧ 8 * ad + 64 ≤ 2 ^ 18 then some ((pg - 0x20) * 2 ^ 18 + 8 * ad) else none
    d.commitSection pg 2 sampled (fun w => regAddr pg (0x44 + 4 * w)) a
  else d

/-- Whether a register is a coefficient register, which commits by section and reads under R143. -/
def isCoeff (pg off : Nat) : Bool :=
  (decide (0x28 ≤ pg) && decide (pg < 0x2C) && decide (0x200 ≤ off) && decide (off < 0x380)) ||
  (decide (0x20 ≤ pg) && decide (pg < 0x28) && decide (0x44 ≤ off) && decide (off ≤ 0x60))

/-- The live word that a clean coefficient register reads (R143). -/
def Dev.coeffLive (d : Dev) (pg off : Nat) : Nat :=
  let word (a : Option Nat) (i : Nat) : Nat := (a.map fun a => nth (d.liveWords a) i 0).getD 0
  if 0x300 ≤ off then word (d.descRecord pg 0x104 ((off - 0x300) / 0x20)) ((off % 0x20) / 4)
  else if 0x200 ≤ off then word (d.descRecord pg 0x100 ((off - 0x200) / 0x20)) ((off % 0x20) / 4)
  else
    let ad := d.fld pg 0x40 14 0
    if ad % 8 = 0 ∧ 8 * ad + 64 ≤ 2 ^ 18 then word (some ((pg - 0x20) * 2 ^ 18 + 8 * ad)) ((off - 0x44) / 4) else 0

/-! ### Injection (R145 to R147) -/

/-- The limit register of an injection point. -/
def injLimOff (point : Nat) : Nat := if point < 2 then 0x48 else if point = 2 then 0x4C else 0x50

/-- The amplitude in force: negative values are taken as 0, values above the limit of the point as the limit. -/
def Dev.injAmp (d : Dev) : Int :=
  let a := max 0 (d.sreg 0xE0 0x44)
  min a (max 0 (d.sreg 0xE0 (injLimOff (d.fld 0xE0 0x40 4 2))))

/-- A committed INJ_CTRL (R147): START = 1 starts or restarts an injection, START = 0 ends it. -/
def Dev.injCommit (d : Dev) : Dev :=
  if d.flag 0xE0 0x5C 0 then
    let dur := d.fld 0xE0 0x5C 31 16
    { d with inj := { running := true, stopCause := 0, silent := false, started := true, endless := dur == 0, dur := dur,
                      left := dur, gone := 0, seeded := [], fired := [] } }
  else d.injStop 2

/-- The increment of the present frond: fixed for a sine, linear over the duration for a chirp (R146). A chirp without a last
frond (DUR = 0), or with one frond, keeps INC_START (log entry 80). -/
def Dev.injInc (d : Dev) : Nat :=
  let a := d.reg 0xE0 0x54
  let b := d.reg 0xE0 0x58
  if d.fld 0xE0 0x40 1 0 = 2 ∧ 1 < d.inj.dur then
    unsigned 32 ((a : Int) + Config.rdiv 6 (((b : Int) - a) * d.inj.gone) (d.inj.dur - 1))
  else a

/-- The order and the second tap of the PRBS register; under the reserved code the register is a free value of 15 bits (log
entry 9). -/
def prbsTaps (c : Nat) : Nat × Nat := if c = 0 then (9, 5) else if c = 1 then (11, 9) else (15, 14)

/-- A shift of the Fibonacci register: the output bit is the last stage, the sum of the taps enters the first (R146). -/
def prbsNext (c r : Nat) : Nat :=
  let t := prbsTaps c
  let fb := (bits r (t.1 - 1) (t.1 - 1) + bits r (t.2 - 1) (t.2 - 1)) % 2
  if c = 3 then Config.freeWord 6 r % 2 ^ 15 else (r * 2 + fb) % 2 ^ t.1

/-- sin θ for θ in 2^-40 between 0 and a quarter turn, by its series to the eleventh power: within 10^-7 of the sine. -/
def sinSeries (t : Int) : Int :=
  let one : Int := 2 ^ 40
  let q := t * t / one
  let step (k acc : Int) : Int := one - q * acc / (k * one)
  t * step 6 (step 20 (step 42 (step 72 (step 110 one)))) / one

/-- sin(2π × φ / 2^32) in 2^-40, φ of 32 bits. -/
def sinTurn (phi : Nat) : Int :=
  let x : Nat := phi % 2 ^ 30
  let quarter := phi / 2 ^ 30 % 4
  let y : Nat := if quarter % 2 = 0 then x else 2 ^ 30 - x
  let s := sinSeries ((y : Int) * 1727108826179 / 2 ^ 30)
  if quarter < 2 then s else -s

/-- A sine sample (R146): AMP × sin(2π × φ / 2^32) with an error of at most 10^-4 × AMP, which is free (log entry 6). -/
def sineSample (amp : Int) (phi : Nat) : Int :=
  let e := amp * 999 / 10000000
  amp * sinTurn phi / 2 ^ 40 + clampI (-e) e (Config.sinErr phi amp)

/-- INJ (R146): one sample to word 1 of the 64-bit unit that DST names, word 1 of the consuming block (R133, R145, log entry 78);
the generator block at SRC_B holds the phase accumulator, the increment, the shift register and the hold count, and starts from
the same state at the start of every injection: phase and hold count 0 (log entry 118). -/
def Dev.fireInj (d : Dev) (e : SlotEntry) : Dev :=
  let g := descAddr e.srcB
  let a := descAddr e.dst + 4
  let put (d : Dev) (v : Int) : Dev :=
    { d with sram := memPutWord d.sram a (unsigned 32 v), inj := { d.inj with fired := a :: d.inj.fired } }
  if !d.inj.running && !d.inj.silent then put d 0
  else
    let wave := d.fld 0xE0 0x40 1 0
    let code := d.fld 0xE0 0x40 25 24
    let ones := 2 ^ (prbsTaps code).1 - 1
    let fresh := !d.inj.seeded.contains g
    let phi := if fresh then 0 else memWord d.sram g
    let sr := if fresh then (if code = 3 then Config.freeWord 6 0 % 2 ^ 15 else ones) else memWord d.sram (g + 8)
    let hold := if fresh then 0 else memWord d.sram (g + 12)
    let inc := d.injInc
    let amp := d.injAmp
    let d := { d with inj := { d.inj with seeded := if fresh then g :: d.inj.seeded else d.inj.seeded } }
    let s : Int :=
      if wave = 0 then 0
      else if wave = 3 then (if bitAt sr ((prbsTaps code).1 - 1) then amp else -amp)
      else sineSample amp phi
    let next := d.fld 0xE0 0x40 23 16 ≤ hold + 1
    let m := memPutWord d.sram g ((phi + inc) % 2 ^ 32)
    let m := memPutWord m (g + 4) inc
    let m := memPutWord m (g + 8) (if next then prbsNext code sr else sr)
    let m := memPutWord m (g + 12) (if next then 0 else hold + 1)
    put { d with sram := m } s

/-- INJECTION_DURATION_END (R147). -/
def execInjectionDurationEnd (s : State) : Out :=
  done (fun d => if d.inj.running && !d.inj.endless && d.inj.left == 0 then d.injStop 1 else d) s

/-! ### Capture (R148 to R153) -/

/-- Signals recorded: NSIG + 1. -/
def Dev.capSigs (d : Dev) : Nat := d.fld 0xE0 0x80 1 0 + 1

/-- Depth per signal (R148). -/
def Dev.capDepth (d : Dev) : Nat :=
  match d.fld 0xE0 0x80 1 0 with
  | 0 => 1048576
  | 1 => 524288
  | _ => 262144

/-- PRE, with larger values taken as the depth. -/
def Dev.capPre (d : Dev) : Nat := min (d.fld 0xE0 0x88 20 0) d.capDepth

/-- The ring index of the oldest retained sample. -/
def Dev.capOldest (d : Dev) : Nat := if d.cap.count < d.capDepth then 0 else d.cap.wr

/-- INDEX of CAP_TRIG: the trigger sample from the oldest retained one. -/
def Dev.capIndex (d : Dev) : Nat := (d.cap.trigRing + d.capDepth - d.capOldest) % d.capDepth

/-- CAP_TRIG holds the index of the trigger sample, once that sample is taken (R151). -/
def Dev.capIndexed (d : Dev) : Dev :=
  if d.cap.st = .triggered ∧ !d.cap.trigTick then { d with cap := { d.cap with trigIndex := d.capIndex } } else d

/-- A trigger (R150, R151): accepted in FILLING and ARMED; the trigger sample is the first one taken in or after its tick. -/
def Dev.capTrigger (d : Dev) : Dev :=
  if d.cap.st = .filling ∨ d.cap.st = .armed then
    let post := d.capDepth - d.capPre
    { d with cap := { d.cap with
        st := .triggered, trigTseq := d.time.tseq, trigTick := !d.cap.took, post := if d.cap.took then post - 1 else post,
        trigRing := if d.cap.took then (d.cap.wr + d.capDepth - 1) % d.capDepth else d.cap.trigRing } }.capIndexed
  else d

/-- The byte address in the capture buffer of sample `i` of signal `g`. -/
def Dev.capAddr (d : Dev) (g i : Nat) : Nat := 0x20 * 2 ^ 18 + 4 * (g * d.capDepth + i)

/-- CAPT (R149): one sample of each signal at every 2^DECIM-th firing while recording, counted from ARM (log entry 118). -/
def Dev.fireCapt (d : Dev) (e : SlotEntry) : Dev :=
  let rec1 := d.cap.st == CapState.filling || d.cap.st == CapState.armed || (d.cap.st == CapState.triggered && d.cap.post != 0)
  if !rec1 then d
  else
    let c := d.cap
    let n := c.firings + 1
    let d := { d with cap := { c with firings := n } }
    if n % 2 ^ d.fld 0xE0 0x80 7 4 ≠ 0 then d
    else
      let depth := d.capDepth
      let sel := d.reg 0xE0 0x84
      let m := (upto d.capSigs).foldl (fun m g =>
        memPutWord m (d.capAddr g c.wr) (d.opNat e.srcA (bits sel (8 * g + 7) (8 * g)))) d.sram
      { d with sram := m, cap := { d.cap with
          wr := (c.wr + 1) % depth, count := if c.count < depth then c.count + 1 else depth,
          post := if c.st = CapState.triggered then c.post - 1 else c.post,
          trigRing := if c.trigTick then c.wr else c.trigRing, trigTick := false, took := true } }.capIndexed

/-- Capture in progress moves to ABORTED when the tier leaves T0 (R152). -/
def Dev.capAbort (d : Dev) : Dev :=
  if d.cap.st = .filling ∨ d.cap.st = .armed ∨ d.cap.st = .triggered then
    { d with cap := { d.cap with st := .aborted, abortTier := true, trigTick := false } }.occur 0xE0 3
  else d

/-- Writing ARM = 1 (R150, R152). -/
def Dev.capArm (d : Dev) : Dev :=
  if d.sched.tier ≠ 0 then { d with cap := { d.cap with armRefused := true } }
  else if d.cap.st = .idle ∨ d.cap.st = .done ∨ d.cap.st = .aborted then
    { d with cap := { d.cap with st := .filling, armRefused := false, abortTier := false, rdReady := false, copying := false, firings := 0,
                                 wr := 0, count := 0, post := 0, trigTick := false, took := false } }
  else { d with cap := { d.cap with armRefused := false } }

/-- Writing FORCE = 1: a trigger, where the register trigger is enabled (R151). -/
def Dev.capForce (d : Dev) : Dev := if d.flag 0xE0 0x80 8 then d.capTrigger else d

/-- A write to CAP_RD (R153): a block is selected, RD_READY cleared and the copy asked for. -/
def Dev.capRdWrite (d : Dev) (v : Nat) : Dev :=
  let d := d.setReg 0xE0 0xA0 (v &&& 0x3FFF)
  { d with cap := { d.cap with rdReady := false, rdAsked := true, copying := false, rdSig := bits v 13 12, rdBlock := bits v 11 0 } }

/-- CAP_ARM. -/
def execCapArm (s : State) : Out := done Dev.capArm s

/-- CAP_FORCE. -/
def execCapForce (s : State) : Out := done Dev.capForce s

/-- CAPTURE_FILLED (R150): PRE samples per signal are held. -/
def execCaptureFilled (s : State) : Out :=
  done (fun d =>
    if d.cap.st = .filling ∧ d.capPre ≤ d.cap.count then { d with cap := { d.cap with st := .armed } } else d) s

/-- CAPTURE_DONE (R150): the POST samples are taken. -/
def execCaptureDone (s : State) : Out :=
  done (fun d =>
    if d.cap.st = .triggered ∧ d.cap.post = 0 then
      { d with cap := { d.cap with st := .done } }.occur 0xE0 2
    else d) s

/-- CAP_RD (R153). -/
def execCapRd (v : Word32) (s : State) : Out := done (fun d => d.capRdWrite v.toNat) s

/-- A capture is recording: RD_READY stays 0 (R153). -/
def Dev.capRuns (d : Dev) : Bool := d.cap.st == .filling || d.cap.st == .armed || d.cap.st == .triggered

end Sys2Proof.Machine
end

