-- ==== Sys2Proof/Machine/Safe.lean ====
section
/-! DEFINITION. The package-level safe state and the final peat record (R33, R259, R388). -/

namespace Sys2Proof.Machine

/-- Address of peat record `s` (R383). -/
def peatAddr (s : Nat) : Nat := 0x100000 + 512 * (s % 4096)

/-- A peat record closed by its CRC: bytes 28 to 31 hold the CRC-32 of the others. -/
def peatSeal (l : List Byte) : List Byte :=
  l.take 28 ++ leBytes 4 (crc32 (l.take 28 ++ l.drop 32)) ++ l.drop 32

/-- Replaces `k` bytes of a record at `o`. -/
def putField (l : List Byte) (o : Nat) (v : List Byte) : List Byte := l.take o ++ v ++ l.drop (o + v.length)

/-- The identity check of module slot `m` (R384): the CRC-16 over the serial, or over the slot and code. -/
def identCheck (m ident : Nat) : Nat :=
  crc16 (if 2 ^ 64 ≤ ident then leBytes 1 m ++ leBytes 1 ident else leBytes 8 ident)

/-- The CAPACITY field of a record (R384): C in As, cycle number and identity check; those of the pending capacity where there is
one (R291). -/
def Dev.capField (d : Dev) (m : Nat) : List Byte :=
  let b := d.bbu m
  let id := if bitAt (leNat (d.crustVal 9)) m then 2 ^ 64 + 256 * m + b.idCode else b.serial
  match b.pendCap with
  | r :: _ => leBytes 4 (r.c / 256) ++ leBytes 2 r.cycles ++ leBytes 2 (identCheck m r.ident)
  | [] => leBytes 4 (b.c / 64000000).toNat ++ leBytes 2 b.cycles ++ leBytes 2 (identCheck m id)

/-- The BBU field of a record (R384): the states of `old`, with the capacities that are pending now. -/
def Dev.bbuField (d : Dev) (old : List Byte) : List Byte :=
  (upto 4).map fun m => BitVec.ofNat 8 (setBit (old.getD m 0).toNat 3 !(d.bbu m).pendCap.isEmpty)

/-- The final record (R388): the standing record is stamped with SEQ, TSEQ, KIND and FLAGS and written into both copies. -/
def Dev.finalRecord (d : Dev) (kind : Nat) : Dev :=
  let p := d.peat
  let st := padTo 512 p.standing
  let st := putField (putField st 76 (d.bbuField (st.drop 76))) 96 ((upto 4).flatMap d.capField)
  let old := (st.getD 15 0).toNat
  let flags := setBit (setBit old 1 true) 2 (p.lost || !p.tap.isEmpty)
  let l := putField (putField (putField (putField st 0 (leBytes 4 p.next)) 12 (leBytes 3 d.time.tseq)) 15
    [BitVec.ofNat 8 flags]) 16 [BitVec.ofNat 8 kind]
  let l := peatSeal l
  let addr := peatAddr p.next
  let d := { d with nv := { d.nv with a := memWriteBytes d.nv.a addr l, b := memWriteBytes d.nv.b addr l } }
  { d with peat := { d.peat with next := (p.next + 1) % 2 ^ 32, count := min 4096 (p.count + 1), tap := [], lost := false },
           die := { d.die with finalRecord := true } }.occur 0xB1 1

def Dev.updFeed (d : Dev) (f : FeedId) (g : Feed → Feed) : Dev :=
  match f with
  | .a => { d with feedA := g d.feedA }
  | .b => { d with feedB := g d.feedB }

def Dev.hsw (d : Dev) (r : Nat) : HotSwap := nth d.hs r HotSwap.reset
def Dev.updHs (d : Dev) (r : Nat) (f : HotSwap → HotSwap) : Dev := { d with hs := updAt d.hs r f }

/-- Die S stops driving every PWM output and pulls every HGATE to its source (R33, R345). -/
def Dev.outputsOff (d : Dev) : Dev :=
  { d with units := d.units.map fun u => { u with triOn := true, pulse := [] },
           hs := d.hs.map fun h => { h with drive := false } }

/-- The package-level safe state (R33): outputs off, the feed gates by HOLD_OPEN (R259), and one final record, unless one
was written since VAUX_WARN was set. -/
def Dev.enterSafe (d : Dev) (kind : Nat) : Dev :=
  if d.die.safe then d
  else
    let d := { d with die := { d.die with safe := true, fltLow := true } }.outputsOff
    let d := if d.flag 0x98 0x40 2 then
        (d.updFeed .a fun f => { f with drive := false }).updFeed .b fun f => { f with drive := false } else d
    if d.die.finalRecord && d.sup.vauxWarn then d else d.finalRecord kind

end Sys2Proof.Machine
end

