-- ==== Sys2Proof/Machine/Fiddle.lean ====
section
/-! DEFINITION. The selection of a feed (R250, R573), and the fiddlehead: members, the shelf sequence, requests and forced off (R327 to R344, R365). -/

namespace Sys2Proof.Machine

/-! ### The selection of a feed -/

def otherFeed : FeedId → FeedId
  | .a => .b
  | .b => .a

/-- 0 for Feed A, 1 for Feed B: the place of a feed's bits in page 0x098. -/
def feedIdx : FeedId → Nat
  | .a => 0
  | .b => 1

/-- A feed is enabled while its member is on (R247). -/
def Dev.feedEn (d : Dev) (f : FeedId) : Bool := (d.mbr (4 + feedIdx f)).out

/-- Feed valid under R250 or R258. -/
def Dev.feedValid (d : Dev) (f : FeedId) : Bool :=
  !(d.feed f).bad && decide ((d.feed f).fail < d.fld 0x98 0x50 7 0)

/-- READY and enabled (R250). A feed that is no longer valid is on its way to ABSENT and is not selected (R247, R258). -/
def Dev.selectable (d : Dev) (f : FeedId) : Bool := (d.feed f).st == .ready && d.feedEn f && d.feedValid f

/-- The preferred feed, from the crust (R250). -/
def Dev.preferred (d : Dev) : FeedId := if bits ((d.crustVal 2).getD 0 0).toNat 0 0 = 0 then .a else .b

/-- Steps 2 and 3 of R250. -/
def Dev.pick (d : Dev) : Option FeedId :=
  let p := d.preferred
  if d.selectable p then some p else if d.selectable (otherFeed p) then some (otherFeed p) else none

/-- A feed leaves its state with its gate command 0: READY if valid, ABSENT otherwise. -/
def Dev.feedPark (d : Dev) (f : FeedId) : Dev :=
  let ok := d.feedValid f
  d.updFeed f fun x => { x with st := if ok then .ready else .absent, cmd := false, pg := false, pgRun := 0, readyN := 0 }

/-- A transfer fails (R252). -/
def Dev.xferFail (d : Dev) (code : Nat) : Dev :=
  (d.updXfer fun x => { x with dead := none, new := none, lastDur := 0xFFFF, ilock := 0 }).occurC 0x98 1 code

/-- The new feed of a transfer left TURN_ON or ON before its power-good (R252). -/
def Dev.targetLost (d : Dev) (f : FeedId) : Dev := if d.xfer.new = some f then d.xferFail 0x13 else d

/-- A carrying feed whose member is off while no other feed can be selected is turned off plainly and starts no transfer
(R573); a new feed that is no longer turned on fails its transfer (R252). -/
def Dev.feedPlainOff (d : Dev) : Dev :=
  match d.carry with
  | some c =>
    if !d.feedEn c && d.pick.isNone then ((d.feedPark c).targetLost c).updXfer fun x => { x with carry0 := none } else d
  | none => d

/-! ### Requests to a member's block -/

/-- A member's output turns on: a rail gets an on request (R90); the other outputs are the member's own. -/
def Dev.outOn (d : Dev) (i : Nat) : Dev :=
  let d := d.updMbr i fun m => { m with out := true }
  if i < 4 then d.railOn i else d

/-- A member's output turns off: a rail gets an off request (R92), a feed that has no alternative is turned off in that tick where
its SUPV entry runs (R246, R573), and a battery module loses its allowance (R328). -/
def Dev.outOff (d : Dev) (i : Nat) : Dev :=
  let d := d.updMbr i fun m => { m with out := false }
  if i < 4 then d.railOffReq i else if i < 6 then (if d.xfer.ran then d.feedPlainOff else d)
  else if 22 ≤ i ∧ i < 26 then d.updBbu (i - 22) fun b => { b with allow := 0 } else d

/-- The block of a rail or feed member is in its own retry (R337). -/
def Dev.blockWaits (d : Dev) (i : Nat) : Bool :=
  if i < 4 then (d.rail i).st == .faultWait
  else if i = 4 then d.feedA.st == .faultWait
  else if i = 5 then d.feedB.st == .faultWait else false

/-- The block of a rail or feed member is latched off. -/
def Dev.blockLatched (d : Dev) (i : Nat) : Bool :=
  if i < 4 then (d.rail i).st == .latchedOff
  else if i = 4 then d.feedA.st == .latchedOff
  else if i = 5 then d.feedB.st == .latchedOff else false

/-- The retry of a member's block has ended: it is latched off, or the rail went to OFF instead of restarting (R93, R337). -/
def Dev.blockEnded (d : Dev) (i : Nat) : Bool :=
  d.blockLatched i || (decide (i < 4) && (d.rail i).st == .off && !(d.rail i).gateOn && !(d.rail i).wantOn)

/-- A member fails on its own good signal: its output stays on only while its block waits for a retry (R336, R337). -/
def Dev.failOwn (d : Dev) (i cause : Nat) : Dev :=
  let keep := d.blockWaits i
  let d := d.failMember i cause keep
  if keep then d else d.outOff i

/-- Raw good of a feed member (R327, R328). -/
def Dev.feedGood (d : Dev) (f : FeedId) : Bool :=
  let x := d.feed f
  x.pg || (d.feedValid f && (x.st == .ready || x.st == .turnOn || (x.st == .on && x.fullOn)))

/-- Raw good of a member (R327). -/
def Dev.rawGood (d : Dev) (i : Nat) : Bool :=
  if i < 4 then (d.rail i).rawPg
  else if i = 4 then d.feedGood .a
  else if i = 5 then d.feedGood .b
  else if i < 22 then (d.die.sense.map fun t => t.pgi.getLsbD (i - 6)).getD false
  else if i < 26 then
    let b := d.bbu (i - 22)
    b.present && (b.st == .estimated || b.st == .anchored || b.st == .reserve) && !b.idInvalid && !b.countInv
  else (d.mbr i).out

/-- Off-confirmed (R327); an enable is confirmed by the boundary that deasserts its pin. -/
def Dev.offConfirmed (d : Dev) (i : Nat) : Bool :=
  if i < 4 then (d.rail i).st == .off
  else if i = 4 then d.feedA.st != .turnOn && d.feedA.st != .on
  else if i = 5 then d.feedB.st != .turnOn && d.feedB.st != .on
  else if i < 22 then !bitAt d.die.en (i - 6)
  else true

/-! ### The shelf -/

/-- Every member with IN_SEQ = 1 is OFF, FAILED and BLOCKED ones included (R334); a rail in LATCHED_OFF whose member the
fiddlehead so turns off goes to OFF (R118). -/
def Dev.membersOff (d : Dev) : Dev :=
  let d := foldN 4 (fun d r => if d.inSeq r && (d.rail r).st == .latchedOff then d.railOffReq r else d) d
  d.updFh fun h =>
    { h with order := [], stops := [],
             members := h.members.zipIdx.map fun p =>
               if d.inSeq p.2 then { p.1.to .off with blk := none, out := false } else p.1 }

/-- The shelf reaches DOWN: every member with IN_SEQ = 1 is OFF. -/
def Dev.shelfDown (d : Dev) (st : ShelfState) : Dev :=
  d.membersOff.updFh fun h => { h with shelf := st, dwell := 0 }

/-- The end of stopping: with the stop list empty a power-down reaches DOWN (R334); after a forced off the shelf stays HALTED
with its members off (R344). -/
def Dev.stopsDone (d : Dev) : Dev :=
  if !d.fh.stops.isEmpty then d
  else match d.fh.shelf with
    | .poweringDown => d.shelfDown .down
    | .halted => d.membersOff
    | _ => d

/-- Every enabled member is stopped in reverse enable order, one at a time: a member already being stopped comes first (R334). -/
def Dev.stopAll (d : Dev) : Dev :=
  let list := d.fh.order.reverse.filter fun i => (d.mbr i).out
  let off := d.fh.stops.filter fun i => (d.mbr i).st == .stopping
  let busy (i : Nat) : Bool := (d.mbr i).st == .offDelay
  ((d.updFh fun h => { h with stops := off ++ list.filter busy ++ list.filter fun i => !busy i }).stopNext 33).stopsDone

/-- Members whose outputs have not turned on return to OFF (R340). -/
def Dev.dropWaiting (d : Dev) : Dev :=
  d.updFh fun h => { h with members := h.members.map fun m => if m.st = .waiting ∨ m.st = .onDelay then m.to .off else m }

/-- The shelf enters UP in the tick in which no member waits or qualifies (R333). -/
def Dev.shelfUp (d : Dev) : Dev :=
  if d.fh.shelf = .poweringUp ∧
      !(d.fh.members.any fun m => m.st == .waiting || m.st == .onDelay || m.st == .qualifying) then
    d.updFh fun h => { h with shelf := .up }
  else d

/-- A power-up from DOWN (R333). -/
def Dev.powerUp (d : Dev) : Dev :=
  (d.updFh fun h =>
    { h with shelf := .poweringUp, onLatch := false, haltSrc := 0,
             members := h.members.zipIdx.map fun p =>
               if d.inSeq p.2 then { p.1.to .waiting with blk := none, cause := 0 } else p.1 }).shelfUp

/-- An on request (R333, R341, R365). -/
def Dev.onRequest (d : Dev) : Dev :=
  if d.stBit 0xA8 10 then d
  else match d.fh.shelf with
    | .down => d.powerUp
    | .poweringDown | .draining => d.updFh fun h => { h with onLatch := true }
    | _ => d

/-- The shelf goes from DRAINING to POWERING_DOWN (R340). -/
def Dev.drained (d : Dev) : Dev := (d.updFh fun h => { h with shelf := .poweringDown, drain := 0 }).stopAll

/-- No member is still qualifying. -/
def Dev.noneQualifying (d : Dev) : Bool := !(d.fh.members.any fun m => m.st == .qualifying)

/-- An off request (R334, R340, R341). In DOWN it has no effect, on a latched power-up either (log entry 96). -/
def Dev.offRequest (d : Dev) : Dev :=
  match d.fh.shelf with
  | .up => ((d.dropWaiting).updFh fun h => { h with shelf := .poweringDown }).stopAll
  | .poweringUp =>
    let d := d.dropWaiting.updFh fun h => { h with shelf := .draining, drain := 0 }
    if d.noneQualifying then d.drained else d
  | .poweringDown | .draining => d.updFh fun h => { h with onLatch := false }
  | _ => d

/-- A forced off (R344): every rail is off in this tick, and the other members are stopped while the shelf is HALTED. -/
def Dev.forcedOff (d : Dev) (src : Nat) : Dev :=
  let d := foldN 4 (fun d r =>
    let d := d.railOff r
    if d.inSeq r then d.updMbr r fun m => { m.to .off with out := false, blk := none } else d) d
  let d := d.updFh fun h =>
    { h with shelf := .halted, haltSrc := src, onLatch := false, order := h.order.filter (4 ≤ ·) }
  (d.dropWaiting.occur 0xA4 3).stopAll

/-! ### Members in a tick -/

/-- QUAL of a member in samples. -/
def Dev.qualOf (d : Dev) (i : Nat) : Nat := d.fld 0xA4 (mbrOff i + 0xC) 11 0
/-- TIMEOUT of a member in ticks. -/
def Dev.timeoutOf (d : Dev) (i : Nat) : Nat := d.fld 0xA4 (mbrOff i + 0xC) 31 16 * 2000

/-- A sample of raw good (R335): debounce of 8 samples, the QUAL window, and the changes within the last span, counted while
the member is QUALIFYING. -/
def Member.sample (m : Member) (g : Bool) (now qual : Nat) : Member :=
  let chg := (if g != m.last && m.st == .qualifying then now :: m.chg else m.chg).filter fun t => decide (now < t + 2 * qual)
  let run := if g = m.last then satInc 8 m.run else 1
  let deb := if 8 ≤ run then g else m.deb
  let goodFor := if deb then (if m.deb then satInc 4095 m.goodFor else 0) else 0
  { m with last := g, run := run, deb := deb, goodFor := goodFor, chg := chg,
           qual := deb && (m.qual || decide (qual ≤ goodFor)) }

/-- Whether a WAITING member's condition can no longer hold (R333, step 4): the failed parent that decides it. -/
def Dev.cannotHold (d : Dev) (i : Nat) : Option Nat :=
  let ps := d.parents i
  let dead (p : Nat) : Bool := (d.mbr p).st == .failed || (d.mbr p).st == .blocked
  let bad := ps.filter dead
  let root (p : Nat) : Nat := if (d.mbr p).st = .failed then p else (d.mbr p).blk.getD p
  if bad.isEmpty then none
  else if d.anyParent i && bad.length != ps.length then none
  else bad.head?.map root

/-- One member in a tick of SUPV. -/
def Dev.mbrTick (d : Dev) (i : Nat) : Dev :=
  let g := d.rawGood i
  let even := d.time.tseq % 2 == 0
  let q := d.qualOf i
  let d := d.updMbr i fun m => { (if even then m.sample g d.now q else m) with timer := m.timer + 1 }
  let m := d.mbr i
  match m.st with
  | .qualifying => if 16 < m.chg.length then ((d.occur 0xA4 1).failOwn i 2) else d
  | .good => if m.deb then d else d.updMbr i fun m => m.to .lost
  | .lost => if m.deb then d.updMbr i fun m => m.to .good else d
  | .waiting =>
    match d.cannotHold i with
    | some f => d.updMbr i fun m => { m.to .blocked with blk := some f }
    | none => d
  | .failed => if m.out && d.blockEnded i then d.updMbr i fun m => { m with out := false } else d
  | _ => d

/-- The fiddlehead powers members up: the shelf is POWERING_UP, or UP for members that return under R338. -/
def Dev.fhRuns (d : Dev) : Bool := d.fh.shelf == .poweringUp || d.fh.shelf == .up

/-- The members blocked by `f` whose parent condition is met return to WAITING (R338). -/
def Dev.resume (d : Dev) (f : Nat) : Dev :=
  foldN 32 (fun d i =>
    if (d.mbr i).st = .blocked ∧ (d.mbr i).blk = some f ∧ d.parentOk i then
      d.updMbr i fun m => { m.to .waiting with blk := none }
    else d) d

/-- Members that a returned member with RESUME blocked, and whose parent condition is met only later, resume then (R338; log
entry 108). -/
def Dev.resumeTick (d : Dev) : Dev :=
  if d.fhRuns then
    foldN 32 (fun d f => if (d.mbr f).st = .good && d.flag 0xA4 (mbrOff f) 29 then d.resume f else d) d
  else d

/-- The fiddlehead in a tick (R327, R333, R338). -/
def Dev.fhTick (d : Dev) : Dev :=
  let d := (foldN 32 Dev.mbrTick d).resumeTick
  let d := d.updFh fun h => { h with dwell := h.dwell + 1, drain := h.drain + 1 }
  d.shelfUp

/-! ### Commands -/

/-- MEMBER_PARENT_MET (R333): not while VAUX_WARN is set (R334). -/
def execMemberParentMet (i : Fin 32) (s : State) : Out :=
  done (fun d =>
    if d.fhRuns && (d.mbr i.val).st == .waiting && d.parentOk i.val && !d.sup.vauxWarn then
      d.updMbr i.val fun m => m.to .onDelay
    else d) s

/-- ON_DELAY_END (R333). -/
def execOnDelayEnd (i : Fin 32) (s : State) : Out :=
  done (fun d =>
    let m := d.mbr i.val
    if m.st = .onDelay ∧ 20 * d.fld 0xA4 (mbrOff i.val + 8) 15 0 ≤ m.timer then
      let d := d.updFh fun h => { h with order := h.order.filter (· != i.val) ++ [i.val] }
      (d.updMbr i.val fun m => { m.to .qualifying with chg := [] }).outOn i.val
    else d) s

/-- Good has qualified in the member's present state: it is qualified, and the state has lasted a whole QUAL window (R335; the
chapter's worked example shows members whose good stood before their output turned on). -/
def Dev.qualNow (d : Dev) (i : Nat) : Bool := (d.mbr i).qual && decide (2 * d.qualOf i ≤ (d.mbr i).timer)

/-- MEMBER_QUALIFIED (R333, R335, R337). -/
def execMemberQualified (i : Fin 32) (s : State) : Out :=
  done (fun d =>
    let m := d.mbr i.val
    if m.st = .qualifying ∧ d.qualNow i.val then
      let d := (d.updMbr i.val fun m => m.to .good).shelfUp
      if d.fh.shelf = .draining ∧ d.noneQualifying then d.drained else d
    else if m.st = .failed ∧ m.out ∧ d.qualNow i.val then
      let d := d.updMbr i.val fun m => { m.to .good with cause := 0 }
      if d.flag 0xA4 (mbrOff i.val) 29 then d.resume i.val else d
    else d) s

/-- The shelf after a member left QUALIFYING. -/
def Dev.afterFail (d : Dev) : Dev :=
  if d.fh.shelf = .draining ∧ d.noneQualifying then d.drained else d.shelfUp

/-- MEMBER_QUAL_TIMEOUT (R336). -/
def execMemberQualTimeout (i : Fin 32) (s : State) : Out :=
  done (fun d =>
    if (d.mbr i.val).st = .qualifying ∧ d.timeoutOf i.val ≤ (d.mbr i.val).timer then (d.failOwn i.val 1).afterFail else d) s

/-- MEMBER_LOSS_HOLD (R336). -/
def execMemberLossHold (i : Fin 32) (s : State) : Out :=
  done (fun d =>
    let h := d.fld 0xA4 (mbrOff i.val) 15 0
    if (d.mbr i.val).st = .lost ∧ h ≠ 0xFFFF ∧ 2000 * h ≤ (d.mbr i.val).timer then d.failOwn i.val 3 else d) s

/-- OFF_DELAY_END (R334). -/
def execOffDelayEnd (i : Fin 32) (s : State) : Out :=
  done (fun d =>
    let m := d.mbr i.val
    if m.st = .offDelay ∧ 20 * d.fld 0xA4 (mbrOff i.val + 8) 31 16 ≤ m.timer then
      (d.updMbr i.val fun m => m.to .stopping).outOff i.val
    else d) s

/-- A stopped member leaves the order, OFF or BLOCKED, and the next one is stopped (R334, R338). -/
def Dev.memberStopped (d : Dev) (i : Nat) : Dev :=
  let d := d.updMbr i fun m => { m.to (if m.blk.isSome && d.fh.shelf != .poweringDown then .blocked else .off) with out := false }
  let d := d.updFh fun h => { h with order := h.order.filter (· != i), stops := h.stops.filter (· != i) }
  (d.stopNext 33).stopsDone

/-- OFF_CONFIRMED (R334). -/
def execOffConfirmed (i : Fin 32) (s : State) : Out :=
  done (fun d => if (d.mbr i.val).st = .stopping ∧ d.offConfirmed i.val then d.memberStopped i.val else d) s

/-- OFF_FAIL (R334): the member counts as off. -/
def execOffFail (i : Fin 32) (s : State) : Out :=
  done (fun d =>
    if (d.mbr i.val).st = .stopping ∧ !d.offConfirmed i.val ∧ d.timeoutOf i.val ≤ (d.mbr i.val).timer then
      (d.occur 0xA4 2).memberStopped i.val
    else d) s

/-- A clear of FH_FAILED bits (R339): refused while the member's block is in FAULT_WAIT or LATCHED_OFF; in UP the member and
those it blocked return to WAITING. -/
def Dev.fhClear (d : Dev) (mask : Nat) : Dev :=
  foldN 32 (fun d i =>
    if !(bitAt mask i && bitAt d.fh.failed i) then d
    else if d.blockWaits i || d.blockLatched i then d.updStat 0xA4 fun b => { b with clearRefused := true }
    else
      let d := d.updFh fun h => { h with failed := setBit h.failed i false }
      if d.fh.shelf = .up ∧ (d.mbr i).st = .failed then
        let d := d.outOff i
        let d := d.updFh fun h => { h with order := h.order.filter (· != i) }
        let d := d.updMbr i fun m => { m.to .waiting with cause := 0 }
        foldN 32 (fun d j =>
          if (d.mbr j).blk = some i then
            if (d.mbr j).st = .blocked then d.updMbr j fun m => { m.to .waiting with blk := none } else d
          else d) d
      else d) d

/-- FH_FAILED_CLEAR (R339). -/
def execFhFailedClear (mask : Word32) (s : State) : Out := done (fun d => d.fhClear mask.toNat) s

/-- DRAINING_END (R340): every qualifying member is resolved, or 4,000 ticks have passed. -/
def execDrainingEnd (s : State) : Out :=
  done (fun d => if d.fh.shelf = .draining ∧ (d.noneQualifying ∨ 4000 ≤ d.fh.drain) then d.drained else d) s

/-- OFF_DWELL_END (R341). -/
def execOffDwellEnd (s : State) : Out :=
  done (fun d =>
    if d.fh.shelf = .down ∧ d.fh.onLatch ∧ 20 * d.fld 0xA4 0x40 15 0 ≤ d.fh.dwell ∧ !d.stBit 0xA8 10 then d.powerUp
    else d) s

end Sys2Proof.Machine
end

