-- ==== Sys2Proof/Machine/Feeds.lean ====
section
/-! DEFINITION. Feeds, transfers and output hot-swaps (spec/07). -/

namespace Sys2Proof.Machine

/-- A limit of 0.1 V per step in signal format is compared as a product: `v` against `n` tenths. -/
def tenths (n : Nat) : Int := (n : Int) * 65536

/-- The preferred feed returns (R250): the carrying feed is ON, the preferred one has been READY and enabled for
RETURN_DELAY fronds, and its voltage is near the bus. -/
def Dev.returning (d : Dev) (c : FeedId) : Bool :=
  let p := d.preferred
  let gap := (d.preVal (feedCh p) - d.preVal 4).natAbs
  c != p && (d.feed c).st == .on && d.flag 0x98 0x40 3 && d.selectable p && d.die.validG0 &&
    decide (256 * d.fld 0x98 0x40 31 16 ≤ (d.feed p).readyN) && !d.preBad 4 && !d.preBad (feedCh p) &&
    decide ((gap : Int) * 10 ≤ tenths (d.fld 0x98 0x54 23 16))

/-- The selected feed but for the return of the preferred one (R250). -/
def Dev.selected (d : Dev) : Option FeedId :=
  match d.carry with
  | some c => if d.feedEn c && d.feedValid c then some c else d.pick
  | none => d.pick

/-! ### State changes -/

/-- A feed enters FAULT_WAIT with the status bit `bit` of Feed A's (R247, R256, R336). -/
def Dev.feedFaultRaw (d : Dev) (f : FeedId) (bit : Nat) : Dev :=
  let delay := 256 * d.fld 0x98 0x58 31 16
  let d := d.updFeed f fun x =>
    { x with st := .faultWait, cmd := false, pg := false, pgRun := 0, retryLeft := delay, readyN := 0 }
  (d.occur 0x98 (bit + feedIdx f)).memberBlockFault (4 + feedIdx f)

/-- The same, with the failure of a transfer towards it. -/
def Dev.feedFault (d : Dev) (f : FeedId) (bit : Nat) : Dev := (d.feedFaultRaw f bit).targetLost f

/-- A transfer or insertion begins its turn-on: the new gate command is 1 (R251). -/
def Dev.turnOn (d : Dev) (f : FeedId) : Dev :=
  (d.updFeed f fun x => { x with st := .turnOn, cmd := true, onN := 0, readyN := 0 }).updXfer fun x =>
    { x with dead := none, new := some f, ilock := 0 }

/-- A freeze begins or goes on (R194): its estimated end is the start plus the dead time plus XFER_GUARD. -/
def Dev.freezeBegin (d : Dev) : Dev :=
  let e := d.now + d.fld 0x98 0x50 21 15 + d.fld 0x74 0x4C 23 8
  d.updLed fun l => { l with freeze := true, freezeEnd := if l.freeze then max l.freezeEnd e else e }

/-- Tick t of a transfer from `old` (R251). -/
def Dev.startTransfer (d : Dev) (old : FeedId) : Dev :=
  let d := if (d.feed old).st = .turnOn ∨ (d.feed old).st = .on then (d.feedPark old).targetLost old else d
  let d := if d.xfer.new.isSome then d.xferFail 0x13 else d
  (d.updXfer fun x =>
    { x with dead := some (d.fld 0x98 0x50 21 15), old := some old, new := none, insertion := false, start := d.now,
             count := inc16 x.count, ilock := 0 }).freezeBegin

/-- An insertion: the bus carries no feed (R251). -/
def Dev.startInsertion (d : Dev) (f : FeedId) : Dev :=
  let d := d.updXfer fun x => { x with old := none, insertion := true, start := d.now, count := inc16 x.count }
  let d := if d.led.freeze then d.freezeBegin else d
  d.turnOn f

/-- XFER of FEED_STATE. -/
def Xfer.active (x : Xfer) : Bool := !x.insertion && (x.dead.isSome || x.new.isSome)

/-! ### A tick of SUPV -/

/-- Measurement of a feed in a tick: window, counts (R247, R249, R255, R257, R258). -/
def Dev.feedMeasure (d : Dev) (f : FeedId) : Dev :=
  if !d.die.validG0 then d
  else
    let off := winOff f
    let uv := tenths (d.fld 0x98 off 9 0)
    let ov := tenths (d.fld 0x98 off 21 12)
    let hy := tenths (d.fld 0x98 off 31 24)
    let v := d.preVal (feedCh f) * 10
    let inval := d.preBad (feedCh f)
    d.updFeed f fun x =>
      if inval then
        if x.st = .on ∧ x.fullOn then x else { x with bad := true, inside := false, entry := false }
      else
        let ins := decide (uv < v) && decide (v < ov)
        { x with bad := false, inside := ins, entry := decide (uv + hy < v) && decide (v < ov - hy), low := decide (v ≤ uv),
                 fail := if ins then 0 else satInc 65535 x.fail, ovN := if ov ≤ v then satInc 65535 x.ovN else 0 }

/-- The driver status word is judged (R247, R260). -/
def Dev.feedJudge (d : Dev) (f : FeedId) : Dev :=
  let x := d.feed f
  if x.st = .on then
    if x.revWord then d.feedFault f 2
    else if !x.fullWord && x.cmdWord then d.feedFault f 10
    else d
  else d

/-- Automatic moves of a feed in a tick: by voltage while its measurement has a meaning (R257), LATCHED_OFF with its member off
and not FAILED (R247, R337), timers, power-good withdrawn, and the run towards it (R249). -/
def Dev.feedOwn (d : Dev) (f : FeedId) : Dev :=
  let en := d.feedEn f
  let failed := (d.mbr (if f = .a then 4 else 5)).st == .failed
  let judge := d.judging
  let g0 := d.die.validG0
  d.updFeed f fun x =>
    let x := match x.st with
      | .absent => if x.entry && g0 then { x with st := .qualify, qualN := 0 } else x
      | .qualify => if !g0 then x else if x.inside then { x with qualN := x.qualN + 1 } else { x with st := .absent }
      | .ready => { x with readyN := if en then x.readyN + 1 else 0 }
      | .turnOn => if judge then { x with onN := x.onN + 1 } else x
      | .faultWait => { x with retryLeft := x.retryLeft - 1 }
      | .latchedOff => if en || failed || !judge then x else { x with st := .absent }
      | .on => x
    let good := x.st == .on && x.fullOn && x.inside && x.fail == 0
    if !judge then { x with pgHeld := if x.pg then x.pgHeld + 1 else 0 }
    else if good then { x with pgRun := x.pgRun + 1, pgHeld := if x.pg then x.pgHeld + 1 else 0 }
    else { x with pgRun := 0, pg := false, pgHeld := 0 }

/-- The first SUPV entry after reset adopts a held gate (R259). No driver status word was latched in the tick before, so the
feed's fully-on condition of the present frame is what the word of R247 would show. -/
def Dev.feedAdopt (d : Dev) : Dev :=
  if d.xfer.adopted then d
  else
    let one (d : Dev) (f : FeedId) : Dev :=
      d.updFeed f fun x =>
        if x.held then
          if x.fullOn && x.inside then { x with st := .on, cmd := true, held := false, retryUsed := 0, fullWord := true }
          else { x with st := .absent, cmd := false, held := false }
        else x
    (one (one d .a) .b).updXfer fun x => { x with adopted := true }

/-- UV_x of a carrying feed that stays alone, not set from a frozen value (R254, R258). -/
def Dev.feedUv (d : Dev) (f : FeedId) : Dev :=
  let x := d.feed f
  if d.feedValid f then d.updFeed f fun x => { x with uvSet := false }
  else if x.st = .on ∧ d.feedEn f ∧ d.pick.isNone ∧ x.low ∧ !x.uvSet ∧ !d.preBad (feedCh f) then
    (d.updFeed f fun x => { x with uvSet := true }).occur 0x98 (6 + feedIdx f)
  else d

/-- NO_FEED: no feed is in ON and at least one feed member is on (R253). -/
def Dev.noFeedTick (d : Dev) : Dev :=
  let no := d.feedA.st != .on && d.feedB.st != .on && (d.feedEn .a || d.feedEn .b)
  let d := if no && !d.xfer.noFeed then d.occur 0x98 13 else d
  d.updXfer fun x => { x with noFeed := no }

/-- The feeds in a tick with a SUPV entry (R246). -/
def Dev.feedTick (d : Dev) : Dev :=
  let d := d.updXfer fun x => { x with carry0 := d.carry, ran := true }
  let d := (d.feedMeasure .a).feedMeasure .b
  let d := d.feedAdopt
  let d := (d.feedOwn .a).feedOwn .b
  let d := if d.judging then (d.feedJudge .a).feedJudge .b else d
  let d := d.feedPlainOff
  let j := d.judging
  let d := d.updXfer fun x =>
    { x with dead := x.dead.map fun n => if j then n - 1 else n,
             ilock := if x.new.isSome && x.ilockWord && j then x.ilock + 1 else 0 }
  ((d.feedUv .a).feedUv .b).noFeedTick

/-! ### Hot-swaps -/

/-- The command of a hot-swap goes to 0 and its rail enters FAULT_WAIT, with the status bit `bit` of rail 0's (R261, R262). -/
def Dev.hsFault (d : Dev) (r bit : Nat) : Dev :=
  (d.updHs r fun h => { h with on := false, onN := 0, pg := false }).tripRailBy r 0x99 (bit + r)

/-- A hot-swap trip (R262, R263, R264) is counted as well; a fast trip (bit 0) is acted on once. -/
def Dev.hsTrip (d : Dev) (r bit : Nat) : Dev :=
  (d.updHs r fun h => { h with trips := inc8 h.trips, handled := h.handled || bit == 0 }).hsFault r bit

/-- ILIM of a hot-swap, signal format. -/
def Dev.hsIlim (d : Dev) (r : Nat) : Int := (d.fld 0x99 (0x50 + 4 * r) 31 16 : Int) * 8192

/-- One hot-swap in a tick with a SUPV entry: ACC_r (R263), fast trips and gate loss (R262, R264, R572), the timer of R261,
and power-good (R265). -/
def Dev.hsTick (d : Dev) (r : Nat) : Dev :=
  let ir := (d.rail r).ir
  let lim := d.hsIlim r
  let j := d.judging
  let x := d.rail r
  let d := if j && x.st == .off && x.wantOn && !x.gateOn then d.railOn r else d
  let gate := (d.rail r).gateOn
  let d := d.updHs r fun h =>
    let acc := max 0 (h.acc + (ir - lim))
    { h with acc := acc, onN := if gate && !h.on then (if j then h.onN + 1 else h.onN) else 0,
             on := h.on && gate,
             handled := h.handled && h.tripSeen,
             pg := if acc != 0 then false else if j then h.on && h.fullWord else h.pg }
  if !j then d
  else
    let h := d.hsw r
    if h.tripSeen && !h.handled then d.hsTrip r 0
    else if h.on && !h.fullWord && h.cmdWord && !h.tripSeen then d.hsTrip r 8
    else d

/-- STATE of HS_STATE. -/
def Dev.hsState (d : Dev) (r : Nat) : Nat :=
  let h := d.hsw r
  if h.trip then 3 else if h.on then 2 else if (d.rail r).gateOn then 1 else 0

/-- The fully-on and trip bits of a sense frame, once region G1 is judged (R17, R257, R572). -/
def Dev.takeSwitches (d : Dev) : Dev :=
  if d.judging then
    { d with feedA := { d.feedA with fullOn := d.feedA.fullLatch }, feedB := { d.feedB with fullOn := d.feedB.fullLatch },
             hs := d.hs.map fun h => { h with tripSeen := h.tripTick } }
  else d

/-! ### Commands -/

/-- HOT_SWAP_FULLY_ON (R91, R261): the rail's first SOFT_START tick begins at the following boundary. Power-good is true
from this tick on unless the current-time product stands (R265). -/
def execHotSwapFullyOn (r : Fin 4) (s : State) : Out :=
  done (fun d =>
    let h := d.hsw r.val
    if (d.rail r.val).gateOn && (d.rail r.val).st == .off && h.fullWord && !h.on && !h.trip && d.judging && d.xfer.ran then
      (d.updHs r.val fun h => { h with on := true, onN := 0, pg := h.acc == 0 }).updRail r.val fun x => { x with startDue := true }
    else d) s

/-- REVERSE_CURRENT_TRIP (R245): die S opens the switch and holds it until a command of 0 has been applied. -/
def execReverseCurrentTrip (f : FeedId) (s : State) : Out :=
  done (fun d => d.updFeed f fun x => if x.drive then { x with drive := false, revLatch := true } else x) s

/-- HOT_SWAP_FAST_TRIP (R245). -/
def execHotSwapFastTrip (r : Fin 4) (s : State) : Out :=
  done (fun d => d.updHs r.val fun h => if h.drive then { h with drive := false, trip := true } else h) s

/-- FEED_READY (R247): QUALIFY for INS_DELAY. -/
def execFeedReady (f : FeedId) (s : State) : Out :=
  done (fun d =>
    let x := d.feed f
    if d.xfer.ran ∧ d.die.validG0 ∧ x.st = .qualify ∧ x.inside ∧ 2000 * d.fld 0x98 0x50 31 22 ≤ x.qualN then
      d.updFeed f fun x => { x with st := .ready, readyN := 0 }
    else d) s

/-- FEED_INVALID (R247): a READY feed outside its window for FAIL_TICKS ticks is ABSENT. -/
def execFeedInvalid (f : FeedId) (s : State) : Out :=
  done (fun d =>
    if d.xfer.ran ∧ (d.feed f).st = .ready ∧ !d.feedValid f then d.updFeed f fun x => { x with st := .absent, readyN := 0 } else d) s

/-- FEED_FULLY_ON (R248). -/
def execFeedFullyOn (f : FeedId) (s : State) : Out :=
  done (fun d =>
    if d.xfer.ran ∧ (d.feed f).st = .turnOn ∧ (d.feed f).fullOn ∧ d.judging then
      d.updFeed f fun x => { x with st := .on, onN := 0, pgRun := if x.inside && x.fail == 0 then 1 else 0 }
    else d) s

/-- FEED_POWER_GOOD (R249, R251): the transfer towards the feed is complete, and a freeze ends. -/
def execFeedPowerGood (f : FeedId) (s : State) : Out :=
  done (fun d =>
    let x := d.feed f
    if d.xfer.ran ∧ x.st = .on ∧ !x.pg ∧ x.fail = 0 ∧ d.fld 0x98 0x50 14 8 ≤ x.pgRun ∧ d.judging then
      let d := d.updFeed f fun x => { x with pg := true, pgHeld := 0 }
      let d := d.updLed fun l => { l with freeze := false, freezeEnd := 0 }
      if d.xfer.new = some f then
        (d.updXfer fun x => { x with new := none, lastDur := min 0xFFFE (d.now - x.start) }).occur 0x98 0
      else d
    else d) s

/-- FEED_TRANSFER (R251, R254, R573): the selection differs from the carrying feed. -/
def execFeedTransfer (s : State) : Out :=
  done (fun d =>
    if d.xfer.dead.isSome || !d.xfer.ran then d
    else
      match d.xfer.carry0 with
      | some c =>
        let st := (d.feed c).st
        if st = .turnOn ∨ st = .on then
          match d.selected with
          | some x => if x = c then d else d.startTransfer c
          | none => if (st = .on ∧ d.feedEn c) ∨ !d.feedEn c then d else d.startTransfer c
        else d.startTransfer c
      | none =>
        match d.carry, d.selected with
        | none, some x => if d.judging then d.startInsertion x else d
        | _, _ => d) s

/-- TRANSFER_DEAD_END (R251, R252, R573). -/
def execTransferDeadEnd (s : State) : Out :=
  done (fun d =>
    if d.xfer.dead = some 0 ∧ d.judging ∧ d.xfer.ran then
      match d.pick with
      | some x => d.turnOn x
      | none => d.xferFail 0x13
    else d) s

/-- TRANSFER_INTERLOCK_FAIL (R252). -/
def execTransferInterlockFail (s : State) : Out :=
  done (fun d =>
    if 16 ≤ d.xfer.ilock ∧ d.xfer.ran then
      let new := d.xfer.new
      let old := d.xfer.old
      let d := d.xferFail 3
      let d := match new with
        | some n => d.feedPark n
        | none => d
      match old with
      | some o => d.feedFaultRaw o 10
      | none => d
    else d) s

/-- INS_TIMEOUT (R247, R252). -/
def execInsTimeout (f : FeedId) (s : State) : Out :=
  done (fun d =>
    if d.xfer.ran ∧ d.judging ∧ (d.feed f).st = .turnOn ∧ 2000 * d.fld 0x98 0x54 9 0 ≤ (d.feed f).onN then
      let was := d.xfer.new = some f
      let d := d.feedFaultRaw f 8
      if was then d.xferFail 2 else d
    else d) s

/-- FEED_RETURN (R250): the preferred feed is selected again, and a transfer to it starts. -/
def execFeedReturn (s : State) : Out :=
  done (fun d =>
    match d.xfer.carry0, d.carry with
    | some c, some c' => if c = c' ∧ d.xfer.dead.isNone ∧ d.xfer.ran ∧ d.judging ∧ d.returning c then d.startTransfer c else d
    | _, _ => d) s

/-- FEED_OV (R255). -/
def execFeedOv (f : FeedId) (s : State) : Out :=
  done (fun d =>
    let x := d.feed f
    if d.xfer.ran ∧ (x.st = .turnOn ∨ x.st = .on) ∧ !d.preBad (feedCh f) ∧ d.fld 0x98 0x50 7 0 ≤ x.ovN then d.feedFault f 4 else d) s

/-- FEED_RETRY_END (R256). -/
def execFeedRetryEnd (f : FeedId) (s : State) : Out :=
  done (fun d =>
    let x := d.feed f
    let m := d.fld 0x98 0x58 15 12
    if d.xfer.ran ∧ d.judging ∧ x.st = .faultWait ∧ x.retryLeft = 0 then
      if x.retryUsed < m ∨ m = 15 then d.updFeed f fun x => { x with st := .absent, retryUsed := satInc 15 x.retryUsed }
      else (d.updFeed f fun x => { x with st := .latchedOff }).occurC 0x98 12 (0xE + feedIdx f)
    else d) s

/-- FEED_RETRY_COUNT_RESET (R256). -/
def execFeedRetryCountReset (f : FeedId) (s : State) : Out :=
  done (fun d =>
    if d.xfer.ran ∧ (d.feed f).pg ∧ 256 * d.fld 0x98 0x58 31 16 ≤ (d.feed f).pgHeld then d.updFeed f fun x => { x with retryUsed := 0 }
    else d) s

/-- What arose during the loss of G1 is judged (R572). -/
def Dev.judgeSwitches (d : Dev) : Dev :=
  foldN 4 (fun d r =>
    let h := d.hsw r
    if h.tripSeen && !h.handled then d.hsTrip r 0
    else if h.on && !h.fullWord && h.cmdWord then d.hsTrip r 8
    else d) ((d.feedJudge .a).feedJudge .b)

/-- G1_JUDGEMENT_RESUME (R257, R572): G1 has been valid for a full frond; what arose during the loss is judged from here, in
a tick whose SUPV entry has run (R246), else by the next SUPV entry. -/
def execG1JudgementResume (s : State) : Out :=
  done (fun d =>
    if d.die.validG1 && !d.xfer.judge && decide (2 ≤ d.xfer.g1Good) then
      let d := (d.updXfer fun x => { x with judge := true }).takeSwitches
      if d.xfer.ran then d.judgeSwitches else d
    else d) s

/-- VGD_LOW (R260). -/
def execVgdLow (s : State) : Out :=
  done (fun d => if d.sup.vgdOk then (d.updSup fun p => SupplySt.switched { p with vgdOk := false }).occur 0x98 14 else d) s

/-- VGD_OK_RISE (R242, R260): gate turn-on may begin again. -/
def execVgdOkRise (s : State) : Out := done (fun d => d.updSup fun p => SupplySt.switched { p with vgdOk := true, holdLow := false, holdSeen := false }) s

/-- HOT_SWAP_ON_TIMEOUT (R261). -/
def execHotSwapOnTimeout (r : Fin 4) (s : State) : Out :=
  done (fun d =>
    if d.xfer.ran && d.judging && (d.rail r.val).gateOn && !(d.hsw r.val).on && decide (2000 * d.fld 0x99 (0x40 + 4 * r.val) 7 0 ≤ (d.hsw r.val).onN) then
      d.hsFault r.val 8
    else d) s

/-- HOT_SWAP_SLOW_TRIP (R263). -/
def execHotSwapSlowTrip (r : Fin 4) (s : State) : Out :=
  done (fun d =>
    if (d.fld 0x99 (0x50 + 4 * r.val) 15 0 : Int) * 131072000 ≤ (d.hsw r.val).acc ∧ (d.rail r.val).gateOn ∧ d.xfer.ran then d.hsTrip r.val 4
    else d) s

/-! ### Die S at a boundary -/

/-- The feed gates of an applied result (R245, R248, R260): a command of 0 opens the gate and ends the hold of a trip; a
turn-on is withheld while the other feed is not off, which INTERLOCK shows, while VGD_OK = 0, or under a trip hold. -/
def Dev.applyFeedGates (d : Dev) (ca cb : Bool) : Dev :=
  let one (x y : Feed) (c other : Bool) (v : Bool) : Feed × Bool :=
    if !c then ({ x with applied := c, drive := false, revLatch := false }, false)
    else if x.drive then ({ x with applied := c }, false)
    else
      let block := !y.offNow || y.drive || (other && !y.drive)
      let go := v && !x.revLatch && !block
      ({ x with applied := c, drive := go }, block)
  let v := d.sup.vgdOk
  let a := one d.feedA d.feedB ca cb v
  let b := one d.feedB d.feedA cb ca v
  let soft (p : FeedId) : Bool :=
    decide ((d.preVal (feedCh p) - d.preVal 4) * 10 ≤ tenths (d.fld 0x98 0x54 23 16))
  { d with feedA := { a.1 with fast := if a.1.drive && !d.feedA.drive then soft .a else a.1.fast },
           feedB := { b.1 with fast := if b.1.drive && !d.feedB.drive then soft .b else b.1.fast },
           xfer := { d.xfer with interlock := a.2 || b.2 } }

/-- The hot-swap gates of an applied result (R245, R260, R261). -/
def Dev.applyHsGate (d : Dev) (r : Nat) (c : Bool) : Dev :=
  let v := d.sup.vgdOk
  d.updHs r fun h =>
    if !c then { h with applied := c, drive := false, trip := false }
    else { h with applied := c, drive := h.drive || (v && !h.trip) }

/-- What die S latches at cycle 0 (R243, R244): the word latched in the previous tick is the one SUPV reads. -/
def Dev.latchSwitches (d : Dev) (i : TickIn) : Dev :=
  let one (x : Feed) (c : FeedCond) : Feed :=
    { x with revWord := x.revTick, revTick := x.revLatch, fullWord := x.fullLatch, cmdWord := x.applied,
             fullLatch := c.vgsOn && c.vdsOn, offNow := c.off }
  { d with feedA := one d.feedA i.feedA, feedB := one d.feedB i.feedB, xfer := { d.xfer with ilockWord := d.xfer.interlock },
           hs := d.hs.zipIdx.map fun p =>
             { p.1 with fullWord := p.1.fullTick, fullTick := i.hsOn.getLsbD p.2, offNow := i.hsOff.getLsbD p.2,
                        tripTick := p.1.trip, cmdWord := p.1.applied } }

end Sys2Proof.Machine
end

