-- ==== Sys2Proof/Machine/Battery.lean ====
section
/-! DEFINITION. Battery shelf estimation (spec/08). Charges are kept in the unit of R273, 1/64,000,000 As. -/

namespace Sys2Proof.Machine

/-- Page of module `m`. -/
def bbuPg (m : Nat) : Nat := 0x9C + m

/-- Units of R273 in one step of the energy format. -/
def unitE : Int := 250000

def Dev.bbuEn (d : Dev) (m : Nat) : Bool := d.flag (bbuPg m) 0x40 31

/-- Compatibility mode (R285): the crust's item 9. -/
def Dev.bbuCompat (d : Dev) (m : Nat) : Bool := bitAt ((d.crustVal 9).getD 0 0).toNat m

/-- The chemistry class of a module. -/
def Dev.bbuClass (d : Dev) (m : Nat) : Nat :=
  if d.bbuCompat m then d.fld 0x9C (0xC0 + 4 * (d.bbu m).idCode) 17 16 else d.fld (bbuPg m) 0x40 30 29

/-- Rated capacity in units: 0.1 Ah is 360 As. -/
def Dev.bbuRated (d : Dev) (m : Nat) : Int :=
  (if d.bbuCompat m then d.fld 0x9C (0xC0 + 4 * (d.bbu m).idCode) 15 0 else d.fld (bbuPg m) 0x48 15 0 : Int) * 360 * 64000000

def Dev.cells (d : Dev) (m : Nat) : Int := d.fld (bbuPg m) 0x40 28 24
/-- DEADBAND in 1/32 A. -/
def Dev.deadband (d : Dev) (m : Nat) : Int := d.fld (bbuPg m) 0x58 31 24

/-- A 16-bit field of the class record of a module. -/
def Dev.classWord (d : Dev) (m o : Nat) : Int := leNat (((nth d.crust.chem (d.bbuClass m) []).drop o).take 2)

/-- The class record's points do not decrease (R284). -/
def Dev.classOk (d : Dev) (m : Nat) : Bool :=
  (upto 31).all fun i => decide (d.classWord m (2 * i) ≤ d.classWord m (2 * i + 2))

/-- The present word of a module in 1/32 A. -/
def Dev.bbuWord (d : Dev) (m : Nat) : Int := d.preVal (9 + m) / 2048

/-- SoC_v of R284 at a pack voltage, times `c`: linear between the points, 0 and `c` outside them. -/
def Dev.socAt (d : Dev) (m : Nat) (v c : Int) : Int :=
  if !d.classOk m then 0
  else
    let x := v * 1000
    let at' (i : Nat) : Int := d.classWord m (2 * i) * 65536 * d.cells m
    if x ≤ at' 0 then 0
    else if at' 31 ≤ x then c
    else
      match (upto 31).find? fun i => decide (at' i ≤ x) && decide (x < at' (i + 1)) with
      | none => 0
      | some i => Config.rdiv 30 (((i : Int) * (at' (i + 1) - at' i) + (x - at' i)) * c) (31 * (at' (i + 1) - at' i))

/-- A thermistor temperature of R272: `v` and `vfs` of the step, constants in K and 100 ohms; signal format. -/
def ntcTemp (beta r25 rb : Nat) (v vfs : Int) : Int :=
  let l := Config.lnFix ((rb : Int) * v) ((r25 : Int) * (vfs - v))
  Config.rdiv 31 (29815 * (beta : Int) * 4294967296) ((beta : Int) * 6553600 + 29815 * l) - 17901158

/-- The result of an auxiliary input. -/
def Dev.auxOf (d : Dev) (a : Nat) : AuxIn := nth d.sense.aux.inputs a AuxIn.reset

/-- A result that is neither INVALID nor STALE, with a step completed. -/
def AuxIn.usable (x : AuxIn) : Bool := !(x.openWire || x.badWord || x.overF || x.stale) && x.full != 0

/-! ### Identity and learning -/

/-- The identity of a module: its serial, or the slot and code in compatibility mode (R290). -/
def Dev.bbuIdent (d : Dev) (m : Nat) : Nat := if d.bbuCompat m then 2 ^ 64 + 256 * m + (d.bbu m).idCode else (d.bbu m).serial

/-- The bytes of a battery record; the layout of the 16 bytes is the model's (log entry 15). -/
def recBytes (r : BbuRec) : List Byte :=
  leBytes 8 r.ident ++ leBytes 4 r.c ++ leBytes 2 r.cycles ++
    [BitVec.ofNat 8 (b2n r.relearn + 2 * b2n r.learning), BitVec.ofNat 8 (r.ident / 2 ^ 64)]

/-- The record of the identity that a module has now, but for its ring. -/
def Dev.bbuRec (d : Dev) (m : Nat) : BbuRec :=
  let b := d.bbu m
  ⟨0, d.bbuIdent m, (b.c / unitE).toNat, b.cycles, b.relearn, b.learning⟩

/-- Writes a record of module slot `m`: the ring of its identity, or that of the least recently seen of the four (R290, R380). A
write while writes are held waits (R347, R367). -/
def Dev.bbuPut (d : Dev) (m : Nat) (x : BbuRec) : Dev :=
  let b := d.bbu m
  let used := b.records.map BbuRec.ring
  let ring := match b.records.find? fun r => r.ident == x.ident with
    | some r => r.ring
    | none =>
      if b.records.length < 4 then ((upto 4).find? fun i => !used.contains i).getD 0 else (b.records.getLast?.map BbuRec.ring).getD 0
  let r := { x with ring := ring }
  (d.updBbu m fun b => { b with records := r :: b.records.filter fun x => x.ring != ring }).ringPut (2 + 4 * m + ring) (recBytes r)

/-- Writes the record of a module's identity. -/
def Dev.bbuStore (d : Dev) (m : Nat) : Dev := d.bbuPut m (d.bbuRec m)

/-- A learning cycle ends without acceptance (R280); the stored flag follows (R290). -/
def Dev.learnDq (d : Dev) (m code : Nat) : Dev :=
  if (d.bbu m).learning then
    ((d.updBbu m fun b => { b with learning := false, lastResult := code }).occur (bbuPg m) 4).bbuStore m
  else d

/-- Acceptance of a candidate capacity (R281, R291): between 50 % and 120 % of the rated capacity. -/
def Dev.learnDone (d : Dev) (m : Nat) : Dev :=
  let b := d.bbu m
  if !b.learning then d
  else
    let rated := d.bbuRated m
    let band := decide (10 * b.lOut > b.lFronds)
    if band then d.learnDq m 3
    else if 2 * b.l < rated ∨ 5 * b.l > 6 * rated then d.learnDq m 6
    else
      let d := d.updBbu m fun b =>
        { b with learning := false, c := b.l, cycles := inc16 b.cycles, relearn := false, lastResult := 1 }
      let d := d.occur (bbuPg m) 5
      if d.nvHeld then d.updBbu m fun b => { b with pendCap := d.bbuRec m :: b.pendCap } else d.bbuStore m

/-- A module starts its first estimate (R283). -/
def Dev.bbuStart (d : Dev) (m : Nat) : Dev :=
  d.updBbu m fun b =>
    { b with st := .estimating, present := true, waitN := 0, restN := 0, known := false, loaded := false, low := false,
             fullDue := false, emptyDue := false, chgOn := false, stopDue := false, chgI := 0, sendDue := true, topped := false, countInv := false,
             q := 0, r := 0, learning := false }

/-- Identity of a present module (R282, R285, R290): a known one keeps what was learned, a capacity that is still pending included
(R291); a new one takes its rated capacity and needs relearning. Without an accepted cycle C is the rated capacity (R281). -/
def Dev.bbuIdentify (d : Dev) (m : Nat) (fresh : Bool) : Dev :=
  let id := d.bbuIdent m
  let rated := d.bbuRated m
  match ((d.bbu m).pendCap ++ (d.bbu m).records).find? fun r => r.ident == id && !fresh with
  | some r =>
    let d := d.updBbu m fun b =>
      { b with c := if r.cycles = 0 then rated else (r.c : Int) * unitE, cycles := r.cycles, relearn := r.relearn,
               lastResult := if r.learning then 5 else b.lastResult,
               records := (b.records.filter fun x => x.ident == id) ++ b.records.filter fun x => x.ident != id }
    if r.learning then (d.occur (bbuPg m) 4).bbuStore m else d
  | none =>
    let n := (((d.bbu m).records.find? fun r => r.ident == id).map BbuRec.cycles).getD 0
    (d.updBbu m fun b => { b with c := rated, cycles := n, relearn := true }).bbuStore m

/-- Removal (R282, R283). -/
def Dev.bbuRemove (d : Dev) (m : Nat) : Dev :=
  let d := d.learnDq m 7
  (d.updBbu m fun b =>
    { b with st := .absent, present := false, newPresence := false, chgOn := false, stopDue := false, chgI := 0, sendDue := true,
             gone := true, idDue := none, idInvalid := false, allow := 0, known := false,
             statusOk := false, term := false, swapSeen := false }).occur (bbuPg m) 1

/-! ### Each tick -/

/-- Charge counting of one module in a tick in which ACC fires (R273, R274, R276). R stays 0 while Q is not known. RESERVE follows
only where discharge has brought Q from above 0 to 0. -/
def Dev.accModule (d : Dev) (m : Nat) : Dev :=
  if !d.bbuEn m then d
  else
    let w0 := d.bbuWord m
    let dead := d.deadband m
    let w := if w0 < dead ∧ -dead < w0 then 0 else w0
    let bad := decide (0 < (nth d.sense.pre (9 + m) PreCh.reset).badRun)
    d.updBbu m fun b =>
      let r' := if !b.known then 0 else if 0 ≤ w then max 0 (b.r - w) else b.r + max 0 (-w - b.q)
      let q' := if 0 ≤ w then min b.c (b.q + (w - (b.r - r'))) else max 0 (b.q + w)
      let gap := if bad then satInc 5 b.gapRun else 0
      let back := b.countInv && gap == 0
      let st := if back && b.st == .anchored then .estimated
                else if b.st == .reserve && r' == 0 && decide (0 < q') then .estimated else b.st
      { b with q := q', r := r', l := if b.learning then b.l - w else b.l, gapRun := gap, uncounted := false,
               countInv := b.countInv && !back, st := st, low := b.low || (decide (w < 0) && q' == 0 && decide (0 < b.q) && b.known),
               iAcc := b.iAcc + w0, iN := b.iN + 1 }

/-- A tick of the modules: counted by an ACC entry, or uncounted (R273, R274), and the times of R283. -/
def Dev.accTick (d : Dev) (fired : Bool) : Dev :=
  let ok := fired && d.die.validG0
  foldN 4 (fun d m =>
    let d := if ok then d.accModule m
             else if d.bbuEn m then d.updBbu m fun b => { b with uncounted := true } else d
    let w := d.bbuWord m
    let rest := decide (w ≤ d.deadband m) && decide (-(d.deadband m) ≤ w)
    d.updBbu m fun b =>
      if b.st = .estimating then { b with waitN := b.waitN + 1, restN := if rest then b.restN + 1 else 0 } else b) d

/-- The modules in a tick with a SUPV entry: charge commands that stop at once (R288, R328). -/
def Dev.bbuSupv (d : Dev) : Dev :=
  let t3 := d.sched.tier == 3
  foldN 4 (fun d m =>
    d.updBbu m fun b =>
      let b := if t3 then { b with t3Hold := true } else b
      let off := d.sup.vauxWarn || b.t3Hold || !(d.mbr (22 + m)).out
      if (off && b.chgOn) || b.stopDue then { b with chgOn := false, stopDue := false, chgI := 0, sendDue := true }
      else if t3 && b.present && decide (64 ≤ b.repeatN) then { b with sendDue := true }
      else b) d

/-- B and B_USED of the ledger in a tick (R289); a module whose member is off counts 0 (R328). -/
def Dev.battTick (d : Dev) : Dev :=
  let live := d.die.validG0 && d.sched.tier != 3
  let b := sumTo 4 fun m =>
    if live && (nth d.sense.pre (9 + m) PreCh.reset).badRun == 0 && (d.mbr (22 + m)).out then (d.bbu m).allow else 0
  let used := sumTo 4 fun m => if d.bbuEn m then Config.rdiv 32 (max 0 (-(d.preVal (9 + m))) * (d.bbu m).vF) 65536000 else 0
  d.updLed fun l => { l with batt := b, bUsed := used }

/-! ### Auxiliary results -/

/-- A step of an input completed (R275, R285, R286); a class record that decreases is not used (R284). -/
def Dev.auxDone (d : Dev) (a : Nat) : Dev :=
  foldN 4 (fun d m =>
    let x := d.auxOf a
    let cfg := d.reg (bbuPg m) 0x40
    let d :=
      if bits cfg 9 5 = a then
        let v := Config.rdiv 33 (x.res * (d.fld (bbuPg m) 0x44 31 16 : Int)) 256
        let cut := d.cells m * d.classWord m 64 * 65536
        let ok := d.classOk m
        d.updBbu m fun b => { b with vPrev := b.v, v := v, vLow := if ok ∧ v * 1000 ≤ cut then b.vLow + 1 else 0 }
      else d
    let d :=
      if bits cfg 4 0 = a ∧ d.bbuCompat m then
        let here := decide (x.res * 100 ≤ x.full * 95) && !x.openWire
        d.updBbu m fun b =>
          if here then { b with absRun := 0, swapSeen := b.swapSeen || !b.present }
          else { b with absRun := satInc 2 b.absRun, gone := b.gone || decide (1 ≤ b.absRun) }
      else d
    if bits cfg 14 10 = a ∧ d.bbuCompat m ∧ (d.bbu m).idDue.isSome then
      let code := (upto 8).find? fun (c : Nat) => decide ((32 * x.res - 2 * (2 * (c : Int) + 1) * x.full).natAbs ≤ x.full.natAbs)
      let ok := x.usable
      let d := d.updBbu m fun b =>
        let run := if b.idLast == code && ok then satInc 2 b.idRun else 1
        let code := if ok then code else none
        { b with idLast := code, idRun := run,
                 idCode := if 2 ≤ run then code.getD b.idCode else b.idCode,
                 idInvalid := if code.isNone then true else if 2 ≤ run then false else b.idInvalid }
      let d := if (d.bbu m).idLast.isNone then d.occur (bbuPg m) 6 else d
      if (d.bbu m).idLast.isSome && decide (2 ≤ (d.bbu m).idRun) then
        let fresh := (d.bbu m).idDue.getD false
        (d.updBbu m fun b => { b with idDue := none }).bbuIdentify m fresh
      else d
    else d) d

/-! ### Each frond -/

/-- The frond mean of a module's current and the learning band (R278 to R280). -/
def Dev.bbuMeans (d : Dev) (m : Nat) : Dev :=
  let b := d.bbu m
  let avg := if b.iN = 0 then b.iAvg else Config.rdiv 34 (b.iAcc * 2048) b.iN
  let dead := d.deadband m * 2048
  let d := d.updBbu m fun b =>
    { b with vF := b.v, iAvg := avg, hist := (avg :: b.hist).take 64, iAcc := 0, iN := 0, pollN := b.pollN + 1, repeatN := b.repeatN + 1 }
  if !(d.bbu m).learning then d
  else
    -- rate −I_avg / C in C per hour: above 1 or below 0.05
    let i := -avg * 3600 * 64000000
    let c := b.c * 65536
    let out := decide (c < i) || decide (20 * i < c)
    let rest := decide (-dead ≤ avg)
    let d := d.updBbu m fun b =>
      { b with lFronds := b.lFronds + 1, lOut := if out then b.lOut + 1 else b.lOut, lRun := if rest then b.lRun + 1 else 0 }
    if 469 < (d.bbu m).lRun then d.learnDq m 4 else d

/-- The temperature of a module (R272), its validity, of which the loss is recorded once for a present module (R293), and the
learning window of R280. -/
def Dev.bbuTemp (d : Dev) (m : Nat) : Dev :=
  let x := d.auxOf (d.fld (bbuPg m) 0x40 4 0)
  let ok := x.usable
  let cfg := d.reg (bbuPg m) 0x4C
  let t := if ok then ntcTemp (bits cfg 31 20) (bits cfg 19 10) (bits cfg 9 0) x.res x.full else (d.bbu m).temp
  let new := (d.bbu m).present && !ok && !(d.bbu m).thTold
  let d := if new then d.occur (bbuPg m) 7 else d
  let d := d.updBbu m fun b => { b with temp := t, tempOk := ok, thTold := b.present && !ok }
  if !ok ∨ t < 15 * 65536 ∨ 35 * 65536 < t then d.learnDq m 2 else d

/-- Anchors take effect (R275, R277, R279, R281). -/
def Dev.bbuAnchor (d : Dev) (m : Nat) : Dev :=
  let b := d.bbu m
  if b.emptyDue then
    let d := d.learnDone m
    d.updBbu m fun b => { b with emptyDue := false, fullDue := false, q := 0, r := 0, st := .anchored, known := true, low := false }
  else if b.fullDue then
    (d.updBbu m fun b =>
      { b with fullDue := false, q := b.c, r := 0, st := .anchored, low := false, known := true, topped := true, learning := true,
               l := 0, lFronds := 0, lOut := 0, lRun := 0 }).bbuStore m
  else d

/-- The charge command and its temperature block (R287): a changed command above 0 and a repeated one are due at the boundary, a
change to 0 is left to the next SUPV entry (R288). The block stands while the temperature is not valid. -/
def Dev.bbuCharge (d : Dev) (m : Nat) : Dev :=
  let b := d.bbu m
  let lo : Int := (if b.chgBlock then 6 else 5) * 65536
  let hi : Int := (if b.chgBlock then 44 else 45) * 65536
  let block := b.present && (if b.tempOk then decide (b.temp < lo) || decide (hi < b.temp) else b.chgBlock)
  let topped := b.topped && decide (95 * b.c ≤ 100 * b.q)
  let want := b.present && b.st != .estimating && b.st != .fault && b.tempOk && !block && (d.feedA.pg || d.feedB.pg) &&
    !d.sup.vauxWarn && !topped && (d.mbr (22 + m)).out && !b.idInvalid && d.sched.tier != 3 &&
    decide (0 < d.fld (bbuPg m) 0x50 31 16)
  let d := if block && !b.chgBlock then d.occur (bbuPg m) 2 else d
  let cmd := if want then d.fld (bbuPg m) 0x50 31 16 else 0
  d.updBbu m fun b =>
    let stop := decide (cmd = 0) && b.chgI != 0
    { b with chgBlock := block, topped := topped, t3Hold := false, chgOn := want, chgI := cmd, stopDue := b.stopDue || stop,
             sendDue := b.sendDue || (!stop && (cmd != b.chgI || decide (64 ≤ b.repeatN))) }

/-- The allowance A_m (R289, R328). -/
def Dev.bbuAllow (d : Dev) (m : Nat) : Dev :=
  let b := d.bbu m
  let max' : Int := (d.fld (bbuPg m) 0x54 31 16 : Int) * 8192
  let floor := decide (b.q * 200 ≤ (d.fld (bbuPg m) 0x54 15 8 : Int) * b.c)
  let none' := !b.present || b.st == .absent || b.st == .fault || b.countInv || b.idInvalid || !b.tempOk ||
    decide (b.temp < -20 * 65536) || decide (60 * 65536 < b.temp) || !(d.mbr (22 + m)).out || !d.bbuEn m
  let a : Int := if none' then 0
    else if b.st = .reserve ∨ b.st = .estimating then max' / 2
    else if floor then 0 else max'
  d.updBbu m fun b => { b with allow := a }

/-- Time at the termination condition of compatibility mode (R275), in fronds. -/
def Dev.bbuTerm (d : Dev) (m : Nat) : Dev :=
  let b := d.bbu m
  let high := d.classOk m && decide (d.cells m * d.classWord m 66 * 65536 ≤ b.v * 1000)
  let i := b.iAvg
  let small := decide (0 < i) && decide (i * 10 ≤ (d.fld (bbuPg m) 0x50 15 8 : Int) * 65536)
  d.updBbu m fun b => { b with termRun := if high && small then b.termRun + 1 else 0 }

/-- Until its first accepted cycle a module's C is its rated capacity, which a write may have changed (R281). -/
def Dev.bbuRatedFrond (d : Dev) (m : Nat) : Dev :=
  if (d.bbu m).present && (d.bbu m).cycles == 0 then
    d.updBbu m fun b => { b with c := d.bbuRated m, q := min b.q (d.bbuRated m) }
  else d

/-- CLAMPED where SoC_v is estimated from a class record that is not used: in RESERVE, whose runtime comes from it (R278, R284). -/
def Dev.bbuClassFrond (d : Dev) (m : Nat) : Dev :=
  if (d.bbu m).st = .reserve ∧ !d.classOk m then d.occur (bbuPg m) 11 else d

/-- The modules at a frond boundary: the data plane of a frond that is not in T3. A module that is not enabled counts for nothing:
no allowance and no command (log entry 94). -/
def Dev.bbuFrond (d : Dev) : Dev :=
  foldN 4 (fun d m =>
    let d := d.bbuRatedFrond m
    if d.sched.tier = 3 then d.updBbu m fun b => { b with repeatN := b.repeatN + 1 }
    else if !d.bbuEn m then d.updBbu m fun b => { b with allow := 0, chgOn := false, chgI := 0, stopDue := false }
    else ((((((d.bbuMeans m).bbuTemp m).bbuTerm m).bbuAnchor m).bbuCharge m).bbuAllow m).bbuClassFrond m) d

/-- Capacities that stayed pending are written when writes resume (R291). -/
def Dev.bbuFlush (d : Dev) : Dev :=
  foldN 4 (fun d m =>
    let l := (d.bbu m).pendCap
    let d := d.updBbu m fun b => { b with pendCap := [] }
    l.reverse.foldl (fun d r => if r.ident = d.bbuIdent m ∧ (d.bbu m).present then d.bbuStore m else d.bbuPut m r) d) d

/-- RUNTIME of R278, in seconds, signal format; in ABSENT, ESTIMATING and FAULT, for which the rule gives none, the model takes
Q / I_d (log entry 94). Before the first frond mean it is its reset value, 0 (R292). -/
def Dev.bbuRuntime (d : Dev) (m : Nat) : Int :=
  let b := d.bbu m
  let sum := b.hist.foldl (· + ·) 0
  let n : Int := max 1 (b.hist.length : Int)
  let id := Config.rdiv 35 (-sum) n
  if b.hist.isEmpty then 0
  else if id ≤ d.deadband m * 2048 then 0x7FFFFFFF
  else
    let q := if b.st = .reserve then
        d.socAt m (b.v + Config.rdiv 36 (id * (d.fld (bbuPg m) 0x44 15 0 : Int)) 100000) b.c
      else b.q
    clampI 0 0x7FFFFFFF (Config.rdiv 37 (q * 4294967296) (64000000 * id))

/-- SOC of BBU_STATE: in 0.5 %; 0xFF while unknown. -/
def Bbu.soc (b : Bbu) : Nat := if !b.known ∨ b.c ≤ 0 then 0xFF else (clampI 0 200 (Config.rdiv 38 (b.q * 200) b.c)).toNat

/-! ### Commands -/

/-- COUNT_INVALID (R274). -/
def execCountInvalid (m : Fin 4) (s : State) : Out :=
  done (fun d =>
    let b := d.bbu m.val
    if d.bbuEn m.val && !b.countInv && (decide (5 ≤ b.gapRun) || b.uncounted) then
      ((d.learnDq m.val 8).updBbu m.val fun b => { b with countInv := true, allow := 0 }).occur (bbuPg m.val) 9
    else d) s

/-- A full anchor is detected (R275). -/
def Dev.fullSeen (d : Dev) (m : Nat) : Bool :=
  let b := d.bbu m
  b.present &&
    (if b.statusOk && !d.bbuCompat m then b.term && b.chgOn
     else decide (d.fld (bbuPg m) 0x50 7 0 * 2000000 ≤ b.termRun * 256) && decide (0 < b.termRun))

/-- FULL_ANCHOR (R275). -/
def execFullAnchor (m : Fin 4) (s : State) : Out :=
  done (fun d =>
    if d.fullSeen m.val && !(d.bbu m.val).emptyDue then
      d.updBbu m.val fun b => { b with fullDue := true }
    else d) s

/-- EMPTY_ANCHOR (R275): of two anchors in one frond only this one takes effect. -/
def execEmptyAnchor (m : Fin 4) (s : State) : Out :=
  done (fun d =>
    let b := d.bbu m.val
    if b.present && decide (2 ≤ b.vLow) && decide (d.bbuWord m.val < -(d.deadband m.val)) then
      d.updBbu m.val fun b => { b with emptyDue := true, fullDue := false }
    else d) s

/-- RESERVE_ENTRY (R276). -/
def execReserveEntry (m : Fin 4) (s : State) : Out :=
  done (fun d =>
    let b := d.bbu m.val
    if b.low && !b.emptyDue && b.q == 0 && (b.st == .estimated || b.st == .anchored) then
      ((d.updBbu m.val fun b => { b with st := .reserve, relearn := true, low := false }).occur (bbuPg m.val) 3).bbuStore m.val
    else d) s

/-- The state to which a module returns from FAULT: its first estimate goes on (R283), RESERVE lasts until it ends as R276 says, and
from any other state it is ESTIMATED (log entry 14). -/
def Bbu.afterFault (b : Bbu) : BbuState :=
  match b.before with
  | .estimating => .estimating
  | .reserve => if b.r == 0 && decide (0 < b.q) then .estimated else .reserve
  | _ => .estimated

/-- An answered status poll: presence, termination, and the charger's fault (log entry 14). -/
def Bbu.answered (b : Bbu) (charger : Byte) : Bbu :=
  let bad := charger.getLsbD 2
  { b with pollN := b2n b.pollAgain, pollAgain := false, misses := 0, newPresence := b.newPresence || !b.present, statusOk := true,
           term := charger.getLsbD 0,
           before := if bad && b.present && b.st != .fault then b.st else b.before,
           st := if bad && b.present then .fault else if b.st = .fault then b.afterFault else b.st }

/-- A status poll completed without an answer (R282, R424). -/
def Bbu.missed (b : Bbu) : Bbu :=
  { b with pollN := b2n b.pollAgain, pollAgain := false, misses := satInc 3 b.misses, statusOk := false, term := false }

/-- BBU_STATUS_POLL (R275, R282, R423): the answer carries STATUS_WORD and the charger state; none is no answer. A poll without an answer is tried
again in the next frond (R424); while STUCK is set it fails at once (R428), and after a fourth loss of arbitration there is no answer
(R427). -/
def execBbuStatusPoll (m : Fin 4) (answer : Option (BitVec 16 × Byte)) (s : State) : Out :=
  done (fun d =>
    let t := d.twc 2
    let addr := d.fld (bbuPg m.val) 0x40 22 16
    if d.twcBusy 2 || !d.bbuEn m.val || d.bbuCompat m.val || decide ((d.bbu m.val).pollN < 64) then d
    else if t.stuck then (d.twGone 2 addr).updBbu m.val Bbu.missed
    else
      let d := ((d.sendRead 2 addr 0x79).sendRead 2 addr 0xD4).updTwC 2 fun t => { t with arbN := 0, arbFail := false }
      match if t.arbFail then none else answer with
      | some a => (((d.twDone 2 2).inBlock 0x14 (leBytes 2 a.1.toNat)).inBlock 0x14 [a.2]).updBbu m.val fun b => b.answered a.2
      | none =>
        let d := if t.arbFail then d else d.occur 0xBC 0
        if (d.bbu m.val).pollAgain then (d.twGone 2 addr).updBbu m.val Bbu.missed
        else d.updBbu m.val fun b => { b with pollN := 63, pollAgain := true }) s

/-- BBU_INSERTION (R282, R283, R423): the serial number is read over TW4, which while STUCK is set fails at once (R428). -/
def execBbuInsertion (m : Fin 4) (serial : BitVec 64) (s : State) : Out :=
  done (fun d =>
    let addr := d.fld (bbuPg m.val) 0x40 22 16
    if d.twcBusy 2 || !(d.bbu m.val).newPresence || (d.bbu m.val).present then d
    else if (d.twc 2).stuck then d.twGone 2 addr
    else
      let d := (((d.sendRead 2 addr 0x9E).twDone 2 1).inBlock 0x14 (leBytes 8 serial.toNat)).updBbu m.val fun b => { b with newPresence := false, serial := serial.toNat }
      ((d.bbuStart m.val).bbuIdentify m.val false).occur (bbuPg m.val) 0) s

/-- BBU_REMOVAL (R282, R285). -/
def execBbuRemoval (m : Fin 4) (s : State) : Out :=
  done (fun d =>
    let b := d.bbu m.val
    if b.present && (if d.bbuCompat m.val then decide (2 ≤ b.absRun) else decide (3 ≤ b.misses)) then d.bbuRemove m.val
    else d) s

/-- FIRST_ESTIMATE (R283, R284). The table and the capacity of a module in compatibility mode are those of its code, so its estimate
waits until the code is read (log entry 94). -/
def execFirstEstimate (m : Fin 4) (s : State) : Out :=
  done (fun d =>
    let b := d.bbu m.val
    let rest := decide (200000 * d.fld (bbuPg m.val) 0x58 23 16 ≤ b.restN)
    let late := decide (2000000 * d.fld (bbuPg m.val) 0x58 15 8 ≤ b.waitN)
    if b.st = .estimating ∧ b.idDue = none ∧ (rest ∨ late) then
      let amp := (d.preVal (9 + m.val)).natAbs
      let v := if rest then Config.rdiv 39 (b.v + b.vPrev) 2
               else b.v + Config.rdiv 36 ((amp : Int) * (d.fld (bbuPg m.val) 0x44 15 0 : Int)) 100000
      let q := d.socAt m.val v b.c
      let d := if d.classOk m.val then d else d.occur (bbuPg m.val) 11
      d.updBbu m.val fun b => { b with st := .estimated, q := q, r := 0, known := true, loaded := !rest }
    else d) s

/-- COMPAT_SWAP (R285): the presence of a module that was absent. Its code is to be read (R286); only a presence that follows an
absence seen since reset is a swap (log entry 94). -/
def execCompatSwap (m : Fin 4) (s : State) : Out :=
  done (fun d =>
    let b := d.bbu m.val
    if d.bbuCompat m.val && d.bbuEn m.val && b.swapSeen && !b.present then
      ((d.bbuStart m.val).updBbu m.val fun x =>
        { x with swapSeen := false, idInvalid := false, idRun := 0, idLast := none, idDue := some b.gone }).occur (bbuPg m.val) 0
    else d) s

/-- CHG_COMM (R287): three charge commands without acknowledgement. -/
def execChgComm (m : Fin 4) (s : State) : Out :=
  done (fun d =>
    if 3 ≤ (d.bbu m.val).naks then (d.updBbu m.val fun b => { b with naks := 0 }).occur (bbuPg m.val) 8 else d) s

end Sys2Proof.Machine
end

