-- ==== Sys2Proof/Machine/Twins.lean ====
section
/-! DEFINITION. Twin states, heartbeats, the disagreement decision, quarantine and return (R12, R13, R294 to R309). -/

namespace Sys2Proof.Machine

/-- The moment of a frond boundary: the tick of phase 255 has run, the boundary has been taken, and the tick of phase 0 has
not begun. -/
def Dev.atBoundary (d : Dev) : Bool := d.time.started && d.phase == 255 && !d.time.frondDue

def Dev.updCtl (d : Dev) (f : TwinCtl → TwinCtl) : Dev := { d with twin := f d.twin }

/-- One twin is in OUT, RESTART or RESYNC (R295). -/
def Dev.single (d : Dev) : Bool := !(d.twin.a.st.running && d.twin.b.st.running)

/-- `t` as a number. -/
def twinIdx : Twin → Nat
  | .a => 0
  | .b => 1

/-! ### Roles, quarantine and OUT -/

/-- The role history of R380: the boot count, JRN_NEXT and the new ACTIVE twin go into ring 1. -/
def Dev.roleWrite (d : Dev) (t : Twin) : Dev :=
  d.ringPut 1 (leBytes 4 d.jrn.boot ++ leBytes 4 d.jrn.next ++ leBytes 1 (twinIdx t))

/-- Twin `t` becomes ACTIVE (R297). -/
def Dev.makeActive (d : Dev) (t : Twin) : Dev :=
  ((d.updTwin t fun x => { x with st := .active, prob := 0 }).roleWrite t).occur 0xA0 7

/-- Where twin `t` is ACTIVE and the other sends copies, the other becomes ACTIVE (R297); `t` leaves at once, into OUT or
RESTART as its caller says. A PROBATION twin takes the role too: from then on it holds the only copy (R294, log entry 95). -/
def Dev.passRole (d : Dev) (t : Twin) : Dev :=
  if (d.twinOf t).st = .active ∧ (d.twinOf (otherTwin t)).st.running then
    (d.updTwin t fun x => { x with st := .out }).makeActive (otherTwin t)
  else d

/-- A twin that leaves operation keeps its own SRAM as it stands; the other goes on with its own (R3, R8). -/
def Dev.keepSram (d : Dev) (t : Twin) : Dev :=
  if (d.twinOf t).st.running then
    match t with
    | .a => { d with sramA := some d.sram }
    | .b => { d with sramB := some d.sram }
  else d

/-- The SRAM of twin `t` (R8, R51). -/
def Dev.sramOf (d : Dev) : Twin → Memory
  | .a => d.sramA.getD d.sram
  | .b => d.sramB.getD d.sram

/-- Twin `t` enters OUT (R307, R364); `auto` where silence or a failed restart brought it there. -/
def Dev.twinOut (d : Dev) (t : Twin) (auto : Bool) : Dev :=
  let d := (d.keepSram t).passRole t
  (d.updTwin t fun x =>
    { x with st := .out, retired := !auto, outLeft := d.fld 0xA0 0x44 15 0, prob := 0 }).occur 0xA0 10

/-- The island PLLs of twin `t` that are locked (R42). -/
def Dev.locks (d : Dev) : Twin → Nat
  | .a => d.time.lockA
  | .b => d.time.lockB

def Dev.setLocks (d : Dev) (t : Twin) (v : Nat) : Dev :=
  match t with
  | .a => { d with time := { d.time with lockA := v } }
  | .b => { d with time := { d.time with lockB := v } }

/-- A clock fault of twin `t`: one was recorded in the present tick (R38, R72), or an island of it has lost its lock and has not
locked again (R303). -/
def Dev.clockFault (d : Dev) (t : Twin) : Bool :=
  let o := (d.statOf 0x01).tickOcc
  bitAt o (1 + twinIdx t) || bitAt o (3 + twinIdx t) || d.locks t != 0x7FF

/-- Twin `t` enters RESTART; its paths and counts start afresh (R303). -/
def Dev.twinRestart (d : Dev) (t : Twin) : Dev :=
  (d.keepSram t).updTwin t fun x =>
    { x with st := .restart, since := d.now, relock := d.clockFault t, retired := false, tickMiss := 0, sMiss := 0,
             tickLost := false, sLost := false, tickGood := 0, sGood := 0, prob := 0, pages := 0 }

/-- Quarantine of twin `t` (R301, R303, R307): counted, and RESTART, or OUT past QUAR_MAX within QUAR_WINDOW. -/
def Dev.quarantine (d : Dev) (t : Twin) (silent : Bool) : Dev :=
  let d := ((d.keepSram t).passRole t).occur 0xA0 (1 + twinIdx t)
  let win := d.fld 0xA0 0x40 31 16
  let d := d.updTwin t fun x =>
    { x with quar := inc8 x.quar, silentOut := silent,
             quarAt := d.time.epoch :: x.quarAt.filter fun e => decide (d.time.epoch < e + win) }
  if d.fld 0xA0 0x40 15 8 < (d.twinOf t).quarAt.length then d.twinOut t false else d.twinRestart t

/-- A rule of R301 applies and names twin `t`. A PROBATION twin named by rules 2 to 7 is quarantined in any case (R306); the
twin in SINGLE operation never is. -/
def Dev.ruleApplies (d : Dev) (rule : Nat) (t : Twin) (quar : Bool) (field : Nat) : Dev :=
  let d := d.updCtl fun c => { c with lastRule := rule, lastTwin := t, lastField := field, lastTseq := d.time.tseq }
  let q := quar || (decide (2 ≤ rule) && (d.twinOf t).st == .probation)
  if q && !d.single then d.quarantine t (rule == 1) else d

/-! ### Copies of a tick -/

/-- The first differing field of two copies, coded as LAST_DISAGREE.FIELD. -/
def actField (f g : List Word32) : Nat :=
  let same (lo hi : Nat) : Bool := (f.drop lo).take (hi + 1 - lo) == (g.drop lo).take (hi + 1 - lo)
  if !same 2 33 then 0
  else if !same 34 37 then 1
  else if !(same 38 38 && frameWord f 39 % 65536 == frameWord g 39 % 65536) then 2
  else if !same 39 71 then 3
  else 4

/-- The result that die S applies (R13): the words, the twin they come from. Where two valid copies differ, or comparison is
suspended, and both or neither report ROLE = active, the rule names no winner: the model takes twin A's copy (log entry 75). -/
def Dev.chosen (d : Dev) : Option (Twin × List Word32) :=
  match d.die.copyA, d.die.copyB with
  | none, none => none
  | some f, none => some (.a, f)
  | none, some g => some (.b, g)
  | some f, some g =>
    if d.twin.suspend then if actRole f then some (.a, f) else if actRole g then some (.b, g) else some (.a, f)
    else if actSame f g then some (.a, f)
    else if actErr f ≠ 0 ∧ actErr g = 0 then some (.b, g)
    else if actErr f = 0 ∧ actErr g ≠ 0 then some (.a, f)
    else if actRole g && !actRole f then some (.b, g)
    else some (.a, f)

/-- A twin's copy of the present tick. -/
def Dev.copyOf (d : Dev) : Twin → Option (List Word32)
  | .a => d.die.copyA
  | .b => d.die.copyB

/-- SELF_ERR_KIND that a twin's valid copy reports. -/
def Dev.errOf (d : Dev) (t : Twin) : Nat := ((d.copyOf t).map actErr).getD 0

/-- The two copies are valid, compared and different. -/
def Dev.differ (d : Dev) : Bool :=
  match d.die.copyA, d.die.copyB with
  | some f, some g => !d.twin.suspend && !actSame f g
  | _, _ => false

def Dev.differField (d : Dev) : Nat :=
  if d.differ then actField (d.die.copyA.getD []) (d.die.copyB.getD []) else 0

/-- LAST_DISAGREE names the load-check result for row 5 of R301. -/
def loadField : Nat := 5

/-- A running twin without a valid copy in the tick. -/
def Dev.missing (d : Dev) (t : Twin) : Bool := (d.twinOf t).st.running && (d.copyOf t).isNone

/-- The twin that is not ACTIVE of the pair. -/
def Dev.otherRole (d : Dev) : Twin := otherTwin d.activeTwin

/-- The counts of a tick: disagreements, ticks with one copy missing (none where row 6 does not apply, R302), held ticks, error
reports, S-path lapses (R299, R301). A valid copy between two lapses does not end their run; a frond heartbeat does (log entry 95). -/
def Dev.twinCounts (d : Dev) : Dev :=
  let d := if d.differ then (d.updCtl fun c => { c with disagree := inc16 c.disagree }).occur 0xA0 0 else d
  let d := if d.missing .a != d.missing .b && !d.twin.suspend then d.updCtl fun c => { c with missing := inc16 c.missing } else d
  let d := if d.chosen.isNone then (d.updCtl fun c => { c with held := inc16 c.held }).occur 0xA0 8 else d
  [Twin.a, Twin.b].foldl (fun d t =>
    let e := d.errOf t
    let miss := d.missing t
    let d := d.updTwin t fun x =>
      { x with selfErr := e, valid := (d.copyOf t).isSome,
               selfErrs := if e = 0 then x.selfErrs else inc16 x.selfErrs,
               sMiss := if miss && !d.twin.suspend then satInc 2 x.sMiss else x.sMiss,
               frondCount := if miss && !d.twin.suspend then inc8 x.frondCount else x.frondCount,
               sGood := if miss && !d.twin.suspend then 0 else x.sGood }
    if e ≠ 0 ∧ d.single then d.occur 0xA0 11 else d) d

/-- The first matching rule of R301 for a tick, without rule 1, which is TWIN_SILENT's own. While comparison is suspended rules
3, 4, 6 and 7 do not apply, and rule 5 does (R302). A disagreement to which no row applies is recorded with RULE 0; FAULT_TWIN then
keeps its value (log entry 95). -/
def Dev.decideTick (d : Dev) : Dev :=
  let load := d.twin.loadDiffer
  let d := d.updCtl fun c => { c with loadDiffer := false }
  let hard (t : Twin) : Bool := let e := d.errOf t; e == 1 || e == 2 || e == 3
  let crc (t : Twin) : Bool := d.errOf t == 4
  let fld := d.differField
  if hard .a || hard .b then
    d.ruleApplies 2 (if hard .a && hard .b then d.otherRole else if hard .a then .a else .b) true fld
  else if d.twin.suspend then (if load then d.ruleApplies 5 d.otherRole true loadField else d)
  else if d.differ && (crc .a != crc .b) then
    let t := if crc .a then Twin.a else .b
    let d := (d.updTwin t fun x => { x with crcTicks := x.crcTicks + 1 }).occur 0xA0 6
    d.ruleApplies 3 t (decide (4 ≤ (d.twinOf t).crcTicks)) fld
  else if d.differ && d.errOf .a == 0 && d.errOf .b == 0 then d.ruleApplies 4 d.otherRole true fld
  else if load then d.ruleApplies 5 d.otherRole true loadField
  else if d.missing .a != d.missing .b then
    let t := if d.missing .a then Twin.a else .b
    let d := d.updTwin t fun x => { x with missTicks := x.missTicks + 1 }
    d.ruleApplies 6 t (decide (8 ≤ (d.twinOf t).missTicks)) fld
  else if (crc .a || crc .b) && d.die.copyA.isSome && d.die.copyB.isSome && !d.differ then
    (d.occur 0xA0 6).ruleApplies 7 (if crc .a then .a else .b) false fld
  else if d.differ then d.updCtl fun c => { c with lastRule := 0, lastField := fld, lastTseq := d.time.tseq }
  else d

/-- The counts of a tick are taken once, when no copy can come any more. -/
def Dev.countTwins (d : Dev) : Dev :=
  if d.die.counted || !d.time.started then d
  else { d with die := { d.die with counted := true } }.twinCounts

/-- The judgement of a tick's copies, made once at its end: counts, and the rule that applies. -/
def Dev.endTick (d : Dev) : Dev :=
  let d := d.countTwins
  if d.die.ruled || !d.time.started then d else { d with die := { d.die with ruled := true } }.decideTick

/-! ### Heartbeats -/

/-- The tick-path heartbeat of twin `t` in a tick (R298). -/
def Dev.tickHb (d : Dev) (t : Twin) (miss : Bool) : Dev :=
  if (d.twinOf t).st.running then
    d.updTwin t fun x =>
      if miss then { x with tickMiss := satInc 2 x.tickMiss, tickCount := inc8 x.tickCount, tickGood := 0 }
      else { x with tickMiss := 0, tickGood := satInc 64 x.tickGood }
  else d

/-- The S-path heartbeat of twin `t` in a frond (R299). -/
def Dev.frondHb (d : Dev) (t : Twin) (ok : Bool) : Dev :=
  if (d.twinOf t).st.running then
    d.updTwin t fun x =>
      if ok then { x with sMiss := 0, sGood := satInc 64 x.sGood }
      else { x with sMiss := satInc 2 x.sMiss, frondCount := inc8 x.frondCount, sGood := 0 }
  else d

/-- The condition of R299 and R300 for declaring a twin silent. -/
def TwinSt.silent (x : TwinSt) : Bool :=
  x.st.running &&
    (if x.tickLost then x.sMiss == 2 else if x.sLost then x.tickMiss == 2 else x.tickMiss == 2 && x.sMiss == 2)

/-- TWIN_SILENT (R299): the first row of R301, judged after the copies of the tick; no other row applies in the tick. -/
def execTwinSilent (t : Twin) (s : State) : Out :=
  done (fun d =>
    let c := d.countTwins
    if (c.twinOf t).silent && !c.die.ruled then
      let c := { c with die := { c.die with ruled := true } }.updCtl fun x => { x with loadDiffer := false }
      (c.occur 0xA0 (3 + twinIdx t)).ruleApplies 1 t true c.differField
    else d) s

/-- HB_PATH_LOST (R300), judged after the copies of the tick. -/
def execHbPathLost (t : Twin) (p : HbPath) (s : State) : Out :=
  done (fun d =>
    let c := d.countTwins
    let x := c.twinOf t
    if !x.st.running || x.tickLost || x.sLost then d
    else match p with
      | .tick => if x.tickMiss = 2 ∧ x.sMiss = 0 then (c.updTwin t fun x => { x with tickLost := true }).occur 0xA0 5 else d
      | .s => if x.sMiss = 2 ∧ x.tickMiss = 0 then (c.updTwin t fun x => { x with sLost := true }).occur 0xA0 5 else d) s

/-- A path of a twin is lost (R300). -/
def TwinSt.pathLost (x : TwinSt) : Bool := x.tickLost || x.sLost

/-- HB_PATH_RESTORED (R300): a lost path that has delivered 64 heartbeats is lost no more, and HB_PATH clears once no path of
either twin is lost (log entry 18). -/
def execHbPathRestored (t : Twin) (p : HbPath) (s : State) : Out :=
  done (fun d =>
    let x := d.twinOf t
    let back := match p with
      | .tick => x.tickLost && x.tickGood == 64
      | .s => x.sLost && x.sGood == 64
    if !back then d
    else
      let d := d.updTwin t fun x =>
        match p with
        | .tick => { x with tickLost := false }
        | .s => { x with sLost := false }
      if d.twin.a.pathLost || d.twin.b.pathLost then d else d.updStat 0xA0 fun b => b.clear 0x20 0) s

/-! ### Return -/

/-- Pages of twin `t`'s MRAM written while it did not run. -/
def Dev.dirtyOf (d : Dev) : Twin → List Nat
  | .a => d.nv.dirtyA
  | .b => d.nv.dirtyB

/-- TWIN_SELF_TEST_DONE (R303, R304): RESTART to RESYNC, within the time allowed, which the model counts from the quarantine; the
island PLLs have locked again (log entry 113). -/
def execTwinSelfTestDone (t : Twin) (s : State) : Out :=
  done (fun d =>
    let x := d.twinOf t
    if x.st = .restart ∧ d.now ≤ x.since + (if x.relock then 256 else 32) then
      (d.updTwin t fun x => { x with st := .resync, pages := (d.dirtyOf t).length }).setLocks t 0x7FF
    else d) s

/-- RESTART_FAIL (R303, R307). -/
def execRestartFail (t : Twin) (s : State) : Out :=
  done (fun d =>
    let x := d.twinOf t
    if x.st = .restart ∧ x.since + (if x.relock then 256 else 32) ≤ d.now then (d.twinOut t true).occur 0xA0 9 else d) s

/-- The pages of one memory copied into another. -/
def copyPages (src dst : Memory) (l : List Nat) : Memory :=
  l.foldl (fun m p => memWriteBytes m (256 * p) (memBytes src (256 * p) 256)) dst

/-- CUT_IN (R305): at a frond boundary, and not in the package-level safe state (R309), the twin returns in PROBATION with the other's MRAM pages and SRAM; capture on both twins enters
IDLE and its record is discarded (R304). -/
def execCutIn (t : Twin) (s : State) : Out :=
  done (fun d =>
    if (d.twinOf t).st = .resync ∧ d.atBoundary ∧ (d.twinOf (otherTwin t)).st.running ∧ !d.die.safe then
      let l := d.dirtyOf t
      let n := d.nv
      let nv := match t with
        | .a => { n with a := copyPages n.b n.a l, dirtyA := [] }
        | .b => { n with b := copyPages n.a n.b l, dirtyB := [] }
      let ticks := d.now + 1 - (d.twinOf t).since
      let d := (d.updTwin t fun x => { x with st := .probation, prob := 64, valid := true,
                                              crcTicks := 0, missTicks := 0 }).updCtl fun c =>
        { c with resPages := min 65535 l.length, resTicks := min 65535 ticks }
      let d : Dev := match t with
        | .a => { d with sramA := none }
        | .b => { d with sramB := none }
      { d with nv := nv, cap := { CapSt.reset with rdSig := d.cap.rdSig, rdBlock := d.cap.rdBlock } }
    else d) s

/-- PROBATION_END (R306): 64 clean fronds under comparison. -/
def execProbationEnd (t : Twin) (s : State) : Out :=
  done (fun d =>
    if (d.twinOf t).st = .probation ∧ (d.twinOf t).prob = 0 then d.updTwin t fun x => { x with st := .standby } else d) s

/-- AUTO_RESTART (R307): each attempt counts as a quarantine. -/
def execAutoRestart (t : Twin) (s : State) : Out :=
  done (fun d =>
    let x := d.twinOf t
    if x.st = .out ∧ !x.retired ∧ x.outLeft = 0 ∧ d.flag 0xA0 0x40 0 then d.quarantine t x.silentOut else d) s

/-- The twins at a frond boundary: the per-frond counts of rules 3 and 6 end, the PROBATION count and the restart delay run,
a ROLE_SWAP takes effect (R297, R301, R306, R307). -/
def Dev.twinFrond (d : Dev) (hbA hbB : Bool) : Dev :=
  let sus := d.twin.suspend
  let each (x : TwinSt) : TwinSt :=
    { x with crcTicks := 0, missTicks := 0, prob := if x.st = .probation ∧ !sus then x.prob - 1 else x.prob,
             outLeft := x.outLeft - 1 }
  let d := (d.frondHb .a hbA).frondHb .b hbB
  let d := (d.updTwin .a each).updTwin .b each
  if d.twin.swapRole then
    let d := d.updCtl fun c => { c with swapRole := false }
    let t := d.activeTwin
    if (d.twinOf (otherTwin t)).st = .standby ∧ (d.twinOf t).st = .active ∧ !sus then
      (d.updTwin t fun x => { x with st := .standby }).makeActive (otherTwin t)
    else d
  else d

end Sys2Proof.Machine
end

