-- ==== Sys2Proof/Machine/Schedule.lean ====
section
/-! DEFINITION. Schedule images: their layout (R64 to R66), the load checks (R67, R68) with the schedule contract they rest
on (R44 to R58), loading (R69, R71) and the bank swap (R69, R70, R142). -/

namespace Sys2Proof.Machine

/-! ### What the checks know of an entry -/

/-- The three planes and the islands of R42 that engines belong to. -/
inductive Island where | cluster | schedule | data | management
deriving DecidableEq, Repr

/-- The island of an engine code; none for a reserved code (R49). -/
def engineIsland (e : Nat) : Option Island :=
  if e < 8 ∨ (0x40 ≤ e ∧ e < 0x80) then some .cluster
  else if 0x80 ≤ e ∧ e ≤ 0x82 then some .schedule
  else if 0x90 ≤ e ∧ e ≤ 0xA4 then some .data
  else if e = 0xC0 then some .management else none

/-- An engine of a cluster, and that cluster. -/
def clusterOf (e : Nat) : Option Nat := if engineIsland e = some .cluster then some (engineCluster e) else none

/-- Class codes of R54. -/
def classKnown (c : Nat) : Bool :=
  (decide (0x08 ≤ c) && decide (c ≤ 0x1B)) || (decide (0x20 ≤ c) && decide (c ≤ 0x24)) ||
    [0x30, 0x31, 0x33, 0x34, 0x40].contains c || (decide (0x38 ≤ c) && decide (c ≤ 0x3E))

/-- The plane of a class. -/
def classPlane (c : Nat) : Plane := if c < 0x38 then .control else if c = 0x40 then .management else .data

/-- L of R54, in cycles of the engine's island; 0 for MWIN, whose window is its deadline. -/
def classLatency (c : Nat) : Nat :=
  if c < 0x10 then 6 + 5 * (c - 0x07) else if c < 0x18 then 8 + 5 * (c - 0x0F) else if c < 0x1C then 8 + 5 * (c - 0x17)
  else if c = 0x20 then 6 else if c = 0x21 then 28 else if c = 0x22 then 10 else if c = 0x23 then 12 else if c = 0x24 then 8
  else if c = 0x30 then 64 else if c = 0x31 then 40 else if c = 0x33 then 24 else if c = 0x34 then 16
  else if c = 0x38 then 6 else if c = 0x39 then 140 else if c = 0x3A then 20 else if c = 0x3B then 12
  else if c = 0x3C ∨ c = 0x3D then 10 else if c = 0x3E then 8 else 0

/-- The engines of a class (R54). -/
def classOnEngine (c e : Nat) : Bool :=
  let ck := decide (e < 8)
  let un := decide (0x40 ≤ e) && decide (e < 0x80)
  if c < 0x10 then ck || un else if c < 0x18 then un else if c < 0x1C then ck || un
  else if c < 0x24 then ck else if c = 0x24 then ck || un
  else if c = 0x30 then e == 0x80 else if c = 0x31 ∨ c = 0x34 then e == 0x81 else if c = 0x33 then e == 0x82
  else if c = 0x38 then e == 0xA0 else if c = 0x39 then e == 0xA1 else if c = 0x3A then e == 0xA2
  else if c = 0x3B then decide (0x90 ≤ e) && decide (e < 0xA0) else if c = 0x3C ∨ c = 0x3D then e == 0xA3
  else if c = 0x3E then e == 0xA4 else e == 0xC0

/-- The classes permitted in a tier (R61). -/
def tierAllows (t c : Nat) : Bool :=
  if t = 0 then true
  else if t = 1 then c != 0x38
  else if t = 2 then !([0x38, 0x39, 0x3D].contains c)
  else decide (c < 0x38) || c == 0x3A || c == 0x40

/-- An access of an entry to a bank: bank, start address in 64-bit units, and whether it writes. -/
structure Access where
  bank : Nat
  addr : Nat
  write : Bool
deriving DecidableEq, Repr

/-- A class that keeps states at SRC_B (R132, R146). -/
def keepsStates (c : Nat) : Bool := decide (c < 0x1C) || c == 0x21 || c == 0x24

/-- An operand in use. -/
def operandAccess (desc : Nat) (w : Bool) : List Access := if descUnused desc then [] else [⟨bits desc 20 15, bits desc 14 0, w⟩]

/-- The accesses to the banks of the three operands: SRC_A is read and DST is written, SRC_B is written where the class keeps
states there. For MWIN the rule says only that the management processor accesses the SRC_A and DST banks; the model takes SRC_A
as the bank that is read and DST as the one that may be written (log entry 74). CAPT accesses the whole capture buffer beside
its DST (R149). -/
def SlotEntry.operands (e : SlotEntry) : List Access :=
  operandAccess e.srcA false ++ operandAccess e.srcB (keepsStates e.cls) ++ operandAccess e.dst true ++
    (if e.cls = 0x38 then (upto 16).map fun i => ⟨0x20 + i, 0, true⟩ else [])

/-- The accesses to the implicit banks (R54). -/
def SlotEntry.implicit (e : SlotEntry) : List Access :=
  let c := e.cls
  let sense : List Access := [⟨0x30, 0, false⟩]
  if (0x10 ≤ c ∧ c < 0x18) ∨ c = 0x20 ∨ c = 0x21 ∨ c = 0x22 ∨ c = 0x38 ∨ c = 0x3E then sense
  else if c = 0x30 then sense ++ [⟨0x39, 0, true⟩, ⟨0x3A, 0, true⟩, ⟨0x3B, 0, true⟩]
  else if c = 0x31 ∨ c = 0x34 then sense ++ [⟨0x3A, 0, true⟩]
  else if c = 0x33 then sense ++ [⟨0x39, 0, true⟩]
  else if c = 0x3C ∨ c = 0x3D then [⟨0x39, 0, true⟩]
  else []

/-- Every access of an entry. -/
def SlotEntry.accesses (e : SlotEntry) : List Access := e.operands ++ e.implicit

/-- The size of a bank in 64-bit units (R51). -/
def bankUnits (b : Nat) : Nat :=
  if b < 0x30 then 32768 else if b = 0x30 then 128 else if b < 0x39 then 8 else if b = 0x39 then 64
  else if b = 0x3A then 1024 else if b = 0x3B ∨ b = 0x3C then 512 else 0

/-- Whether engine `e` reaches a bank in the way an access does (R51). -/
def reaches (e : Nat) (a : Access) : Bool :=
  let k := clusterOf e
  let dma := decide (0x90 ≤ e) && decide (e < 0xA0)
  let b := a.bank
  if b < 8 then k == some b || (e == 0xA0 && !a.write)
  else if b < 0x20 then engineIsland e == some .data || e == 0xC0
  else if b < 0x30 then (e == 0xA0 && a.write) || e == 0xA1 || e == 0xA2 || dma
  else if b = 0x30 then !a.write
  else if b < 0x39 then k == some (b - 0x31) && a.write
  else if b = 0x39 then e == 0x80 || e == 0x82 || dma || e == 0xA3
  else if b = 0x3A then decide (0x80 ≤ e) && decide (e ≤ 0x82) || (e == 0xA3 && a.write) || (k.isSome && !a.write)
  else if b = 0x3B then e == 0x80 || e == 0x81
  else if b = 0x3C then !a.write || k == some (a.addr / 64)
  else false

/-- Din of R44. -/
def dinOf (i : Island) (t : Nat) : Nat :=
  match i with
  | .cluster => 4
  | .schedule => 1
  | .data => if t = 2 then 5 else 4
  | .management => nth [7, 13, 25, 49] t 49

/-- Dout of R44. -/
def doutOf : Island → Nat
  | .schedule => 1
  | .cluster | .data | .management => 4

/-- The island of an entry's engine. -/
def SlotEntry.island (e : SlotEntry) : Island := (engineIsland e.engine).getD .management

/-- The worst-case completion cycle C in a tier (R57). -/
def SlotEntry.completion (e : SlotEntry) (t : Nat) : Nat :=
  let l := classLatency e.cls
  let x := match e.island with
    | .cluster | .schedule => l
    | .data => if t = 2 then l + (l + 2) / 3 else l
    | .management => l * nth [2, 4, 8, 16] t 16
  if e.cls = 0x40 then e.deadline else e.offset + dinOf e.island t + x + doutOf e.island

/-- A tier of an entry's mask. -/
def tiers (e : SlotEntry) : List Nat := (upto 4).filter e.inTier

/-- Two entries can fire in one tick of some common tier (R48). -/
def sameTick (e f : SlotEntry) : Bool := e.phase % 2 ^ Nat.min e.periodLog f.periodLog == f.phase % 2 ^ Nat.min e.periodLog f.periodLog

/-- Their occupancy intervals overlap in a common tier (R52). -/
def occupyTogether (e f : SlotEntry) : Bool :=
  sameTick e f && (tiers e).any fun t => f.inTier t && decide (e.offset ≤ f.completion t) && decide (f.offset ≤ e.completion t)

/-- An entry only reads a bank. -/
def SlotEntry.onlyReads (e : SlotEntry) (b : Nat) : Bool := e.accesses.all fun a => a.bank != b || !a.write

/-- Two entries both access one bank, or one area of bank 0x3C, but for two that only read bank 0x30 or 0x3C (R52). -/
def shareBank (e f : SlotEntry) : Bool :=
  e.accesses.any fun a => f.accesses.any fun b =>
    a.bank == b.bank && (a.bank != 0x3C || a.addr / 64 == b.addr / 64) &&
      !((a.bank == 0x30 || a.bank == 0x3C) && e.onlyReads a.bank && f.onlyReads a.bank)

/-- Two engines are the same or share lanes (R50). -/
def shareEngine (e f : Nat) : Bool :=
  e == f || ((decide (e < 8) || decide (f < 8)) && (clusterOf e).isSome && clusterOf e == clusterOf f)

/-! ### The image -/

/-- A 16-bit little-endian field. -/
def bytesHalf (l : List Byte) (o : Nat) : Nat := leNat ((l.drop o).take 2)

/-- Bytes `o` to `o + k - 1` are all zero. -/
def zeroBytes (l : List Byte) (o k : Nat) : Bool := ((l.drop o).take k).all fun b => b == 0

/-- A 32-bit little-endian field. -/
def imgWord (l : List Byte) (o : Nat) : Nat := leNat ((l.drop o).take 4)

/-- ENTRY_COUNT, SEGMENT_COUNT and TOTAL_LEN of an image. -/
def imgEntries (l : List Byte) : Nat := imgWord l 0x10
def imgSegments (l : List Byte) : Nat := imgWord l 0x14
def imgTotal (l : List Byte) : Nat := imgWord l 0x18

/-- The entry table of an image. -/
def entryTable (l : List Byte) : SlotBank :=
  (upto (imgEntries l)).map fun i =>
    let w := fun k => BitVec.ofNat 32 (imgWord l (0x100 + 16 * i + 4 * k))
    ⟨w 0, w 1, w 2, w 3⟩

/-- A segment (R66): its header fields and its data. -/
structure ImgSegment where
  bank : Nat
  flags : Nat
  rsvd : Nat
  start : Nat
  len : Nat
  data : List Byte
deriving DecidableEq, Repr

/-- `n` segments read one after another. -/
def readSegments : Nat → List Byte → List ImgSegment
  | 0, _ => []
  | n + 1, l =>
    let len := bytesHalf l 6
    ⟨(l.getD 0 0).toNat, (l.getD 1 0).toNat, bytesHalf l 2, bytesHalf l 4, len, (l.drop 8).take (8 * len)⟩ ::
      readSegments n (l.drop (8 + 8 * len))

/-- The segments of an image. -/
def segmentsOf (l : List Byte) : List ImgSegment := readSegments (imgSegments l) ((l.take (imgTotal l)).drop (0x100 + 16 * imgEntries l))

/-- Two segments overlap. -/
def ImgSegment.overlaps (a b : ImgSegment) : Bool :=
  a.bank == b.bank && decide (a.start < b.start + b.len) && decide (b.start < a.start + a.len)

/-- A segment by itself keeps R66; `named` tells whether the active image names a bank. -/
def ImgSegment.ok (s : ImgSegment) (named : Nat → Bool) : Bool :=
  decide (s.flags < 2) && s.rsvd == 0 && decide (1 ≤ s.len) && decide (s.len ≤ 32768) && decide (s.start + s.len ≤ 32768) &&
    s.data.length == 8 * s.len &&
    (if s.flags = 1 then decide (s.bank < 8) else decide (8 ≤ s.bank) && decide (s.bank < 0x20) && !named s.bank)

/-! ### Load checks (R67) -/

/-- The least number below `n` for which `p` holds, as a failure with a code. -/
def firstBad (code n : Nat) (p : Nat → Bool) : Option LoadResult := (firstN n p).map fun i => ⟨code, i, 0⟩

/-- HDR_FORMAT. -/
def hdrBad (l : List Byte) : Bool :=
  imgWord l 0 != 0x534C5442 || bytesHalf l 4 != 2 || bytesHalf l 6 != 0x100 || imgWord l 8 != 0x4064 ||
    imgEntries l == 0 || decide (4096 < imgEntries l) || decide (1024 < imgSegments l) || decide (491520 < imgTotal l) ||
    imgTotal l != l.length || decide (imgTotal l < 0x100 + 16 * imgEntries l + 8 * imgSegments l) ||
    !zeroBytes l 0x1C 4 || !zeroBytes l 0x50 48 || !zeroBytes l 0xE0 32

/-- HASH_MISMATCH. -/
def hashBad (l : List Byte) : Bool := sha384 ((l.take (imgTotal l)).drop 0x100) != (l.drop 0x20).take 48

/-- FIELD_RANGE of a valid entry. -/
def fieldBad (e : SlotEntry) : Bool :=
  bits e.w3.toNat 26 24 != 0 || bits e.w2.toNat 27 24 != 0 || bits e.w2.toNat 7 0 != 0 || bitAt e.w1.toNat 31 ||
    (engineIsland e.engine).isNone || !classKnown e.cls || decide (8 < e.periodLog) ||
    decide (2 ^ e.periodLog ≤ e.phase) || decide (199 < e.offset) || decide (199 < e.deadline)

/-- TIER_CLASS (R63). -/
def tierBad (e : SlotEntry) : Bool :=
  if classPlane e.cls = .control then e.tierMask != 15 else (tiers e).any fun t => !tierAllows t e.cls

/-- The operand lies outside its bank: its address, or for a cascade block of a class with a count, its end (R132). -/
def outOfBank (e : SlotEntry) (a : Access) : Bool :=
  decide (bankUnits a.bank ≤ a.addr) ||
    (a.write && decide (e.cls < 0x1C) && a.bank == bits e.srcB 20 15 && a.addr == bits e.srcB 14 0 && decide (a.bank < 8) &&
      (let n := if e.cls < 0x10 then e.cls - 0x07 else if e.cls < 0x18 then e.cls - 0x0F else e.cls - 0x17
       decide (32768 < a.addr + 8 + 10 * n)))

/-- BANK_REACH (R55); the DST of a CAPT entry must name bank 0x20, and its SRC_A a cluster bank or the sense buffer (R149). -/
def reachBad (e : SlotEntry) : Bool :=
  !classOnEngine e.cls e.engine || (e.operands.any fun a => !reaches e.engine a || outOfBank e a) ||
    (e.cls == 0x38 && (bits e.dst 20 15 != 0x20 || !(decide (bits e.srcA 20 15 < 8) || bits e.srcA 20 15 == 0x30)))

/-- SENSE_EARLY (R53). -/
def senseBad (e : SlotEntry) : Bool := decide (e.offset < 48) && e.accesses.any fun a => a.bank == 0x30

/-- DEADLINE (R58), and the window of MWIN (R57). -/
def deadlineBad (e : SlotEntry) : Bool :=
  decide ((if classPlane e.cls = .control then 199 else 191) < e.deadline) ||
    (tiers e).any fun t =>
      decide (e.deadline < e.completion t) ||
        (e.cls == 0x40 && decide (e.deadline < e.offset + dinOf e.island t + doutOf e.island + 1))

/-- CUTOFF (R53). -/
def cutoffBad (e : SlotEntry) : Bool :=
  (e.accesses.any fun a => a.write && decide (0x31 ≤ a.bank) && decide (a.bank ≤ 0x39)) &&
    (tiers e).any fun t => decide (159 < e.completion t)

/-- ADMIT_ORDER. -/
def admitBad (l : SlotBank) (e : SlotEntry) : Bool :=
  e.cls == 0x30 && (upto 256).any fun p => (upto 4).any fun t =>
    e.firesIn p t && !(l.any fun f => f.cls == 0x31 && f.firesIn p t && decide (f.completion t < e.offset))

/-- A check of every valid entry by itself. -/
def eachEntry (code : Nat) (l : SlotBank) (bad : SlotEntry → Bool) : Option LoadResult :=
  firstBad code l.length fun i => let e := nth l i ⟨0, 0, 0, 0⟩; e.valid && bad e

/-- A check of pairs: the lowest entry that conflicts with one of lower index, and the lowest it conflicts with (R68). -/
def eachPair (code : Nat) (l : SlotBank) (bad : SlotEntry → SlotEntry → Bool) : Option LoadResult :=
  let at' (i : Nat) : SlotEntry := nth l i ⟨0, 0, 0, 0⟩
  let hit (i j : Nat) : Bool := (at' i).valid && (at' j).valid && bad (at' i) (at' j)
  ((upto l.length).findSome? fun i => (firstN i (hit i)).map fun j => ⟨code, i, j⟩)

/-- The segment check. -/
def segmentCheck (l : List Byte) (named : Nat → Bool) : Option LoadResult :=
  let ss := segmentsOf l
  let s (i : Nat) : ImgSegment := nth ss i ⟨0xFF, 0, 0, 0, 0, []⟩
  firstBad 3 (imgSegments l) fun i => !(s i).ok named || (upto i).any fun j => (s i).overlaps (s j)

/-- The load checks in their order; the first failure ends them. -/
def loadCheck (named : Nat → Bool) (l : List Byte) : LoadResult :=
  let t := entryTable l
  if hdrBad l then ⟨1, 0, 0⟩
  else if hashBad l then ⟨2, 0, 0⟩
  else (segmentCheck l named
    <|> eachEntry 4 t fieldBad
    <|> eachEntry 5 t tierBad
    <|> eachEntry 6 t reachBad
    <|> eachEntry 7 t senseBad
    <|> eachEntry 8 t deadlineBad
    <|> eachEntry 9 t cutoffBad
    <|> eachPair 10 t (fun e f => occupyTogether e f && shareBank e f)
    <|> eachPair 11 t (fun e f => occupyTogether e f && shareEngine e.engine f.engine)
    <|> eachEntry 12 t (admitBad t)).getD ⟨0, 0, 0⟩

/-! ### Loading and swapping (R66, R69 to R71) -/

def Dev.updSched (d : Dev) (f : SchedSt → SchedSt) : Dev := { d with sched := f d.sched }

/-- The inactive bank is loaded. -/
def SchedSt.otherLoaded (s : SchedSt) : Bool := if s.active then s.loaded0 else s.loaded1

/-- An entry of the active image names a bank. -/
def SchedSt.names (s : SchedSt) (b : Nat) : Bool := s.bank.any fun e => e.valid && e.operands.any fun a => a.bank == b

/-- SWAP_REFUSED with a cause (R75). -/
def Dev.swapRefused (d : Dev) (cause : Nat) : Dev := d.occurC 0x02 2 cause

/-- An armed swap is cancelled and reported (R71). -/
def Dev.swapCancel (d : Dev) : Dev :=
  if d.sched.armed then (d.updSched fun s => { s with armed := false }).swapRefused 5 else d

/-- The contents of one bank: entries, loaded, image, versions. -/
def SchedSt.setBank (s : SchedSt) (b : Bool) (t : SlotBank) (ok : Bool) (img : List Byte) (v : Nat) : SchedSt :=
  if b then { s with bank1 := t, loaded1 := ok, img1 := img, ver1 := v }
  else { s with bank0 := t, loaded0 := ok, img0 := img, ver0 := v }

/-- Segments written to their banks. -/
def Dev.writeSegments (d : Dev) (l : List ImgSegment) : Dev :=
  l.foldl (fun d s => { d with sram := memWriteBytes d.sram (s.bank * 2 ^ 18 + 8 * s.start) s.data }) d

/-- Loads an image into bank `b` (R69, R71): the bank is not loaded until the checks of both twins pass; segments without
COEFF are written now. `other` is the result of a twin B whose checks, by an error of that twin, do not end as twin A's do; the
results are compared while both twins run, and a difference is a disagreement (R68, R301). -/
def Dev.loadInto (d : Dev) (b : Bool) (l : List Byte) (other : Option LoadResult) : Dev :=
  let r := loadCheck d.sched.names l
  let rB := if d.single then r else other.getD r
  let bad := if r.code = 0 then rB else r
  let ver := bytesHalf l 0x0E * 65536 + bytesHalf l 0x0C
  let d := d.updSched fun s => (s.setBank b (entryTable l) (bad.code == 0 && rB == r) l ver)
  let d := d.updSched fun s => { s with load := bad, loadB := rB }
  let d := if rB = r then d
    else ((d.updCtl fun c => { c with disagree := inc16 c.disagree, loadDiffer := true }).occur 0xA0 0)
  if bad.code = 0 then d.writeSegments ((segmentsOf l).filter fun s => s.flags == 0) else d.occur 0x02 1

/-- Loads an image into the inactive bank. -/
def Dev.loadImage (d : Dev) (l : List Byte) (other : Option LoadResult) : Dev := d.swapCancel.loadInto (!d.sched.active) l other

/-- The state areas of the cascade blocks that the entries of a table name, as SRAM address and length (R132). -/
def stateAreas (m : Memory) (t : SlotBank) : List (Nat × Nat) :=
  t.filterMap fun e =>
    let a := descAddr e.srcB
    let n := bits (memWord m a) 3 0
    if !e.valid || descUnused e.srcB then none
    else if e.cls < 0x1C then some (a + 64 + 64 * n, 16 * n)
    else if e.cls = 0x21 then some (a + 64 + 64 * n, 128 * n)
    else none

/-- The COEFF segments of the new image are applied (R66, R142): loop states carry over unchanged, and the records loaded
have copy 0 live (R132). -/
def Dev.applyCoeffs (d : Dev) : Dev :=
  let ss := (segmentsOf (if d.sched.active then d.sched.img1 else d.sched.img0)).filter fun s => s.flags == 1
  let old := d.sram
  let d := d.writeSegments ss
  let keep := stateAreas d.sram d.sched.bank
  let m := keep.foldl (fun m a => memWriteBytes m a.1 (memBytes old a.1 a.2)) d.sram
  let inSeg (a : Nat) : Bool := ss.any fun s => decide (s.bank * 2 ^ 18 + 8 * s.start ≤ a) && decide (a < s.bank * 2 ^ 18 + 8 * (s.start + s.len))
  { d with sram := m, live := d.live.filter fun a => !inSeg a }

/-- The number of the frond that the next boundary opens, as TSEQ[23:8] (R39). -/
def Dev.nextFrond (d : Dev) : Nat := (d.time.tseq / 256 + 1) % 65536

/-- A bank swap is armed for the boundary that opens the next frond (R69). -/
def Dev.swapDue (d : Dev) : Bool := d.sched.armed && d.sched.swapFrond == d.nextFrond

/-- Fronds from the executing frond to a target, modulo 65,536. -/
def Dev.frondsAhead (d : Dev) (f : Nat) : Nat := (f + 65536 - d.frondNo % 65536) % 65536

/-- A target frond is allowed by R69. -/
def Dev.frondOk (d : Dev) (f : Nat) : Bool := decide (4 ≤ d.frondsAhead f) && decide (d.frondsAhead f ≤ 1024)

/-- Arms a swap, or refuses it (R69, R75). -/
def Dev.armSwap (d : Dev) (f : Nat) : Dev :=
  if !d.sched.otherLoaded then d.swapRefused 3
  else if !d.frondOk f then d.swapRefused 4
  else d.updSched fun s => { s with armed := true, swapFrond := f % 65536 }

/-- The swap at its boundary. -/
def Dev.bankSwap (d : Dev) : Dev :=
  if d.sched.otherLoaded then (d.updSched fun s => { s with active := !s.active, armed := false }).applyCoeffs
  else (d.updSched fun s => { s with armed := false }).swapRefused 3

/-- BANK_SWAP (R69, R70): at the boundary of the target frond both twins go to the new bank. -/
def execBankSwap (s : State) : Out := done (fun d => if d.atBoundary && d.swapDue then d.bankSwap else d) s

end Sys2Proof.Machine
end

