-- ==== Sys2Proof/Machine/Dma.lean ====
section
/-! DEFINITION. The DMA engine: descriptors, bursts and the funnel, pause and abort, pacing (R463 to R477). -/

namespace Sys2Proof.Machine

/-- The DMA page. -/
def dmaPg : Nat := 0xC8

/-- CH_CFG of channel `c`. -/
def chOff (c : Nat) : Nat := 0x100 + 0x20 * c

def Dev.chEn (d : Dev) (c : Nat) : Bool := d.flag dmaPg (chOff c) 0
def Dev.chPauseReg (d : Dev) (c : Nat) : Bool := d.flag dmaPg (chOff c) 1
def Dev.reqSel (d : Dev) (c : Nat) : Nat := d.fld dmaPg (chOff c) 7 4

/-! ### Addresses (R464) -/

def dmaBank (a : Nat) : Nat := bits a 29 24
def dmaOff (a : Nat) : Nat := bits a 17 0

/-- The byte address in the model's SRAM of a DMA address. -/
def dmaAddr (a : Nat) : Nat := dmaBank a * 2 ^ 18 + dmaOff a

def bankSize (b : Nat) : Nat := if b = 0x39 then 512 else 262144

/-- A transfer of `len` bytes from an address stays within R464. -/
def dmaRangeOk (a len : Nat) : Bool :=
  let b := dmaBank a
  bits a 31 30 == 0 && bits a 23 18 == 0 && ((decide (0x08 ≤ b) && decide (b ≤ 0x2F)) || b == 0x39) &&
    decide (dmaOff a + len ≤ bankSize b) && decide (dmaOff a < bankSize b)

/-- An address that may hold a descriptor (R464, R468). -/
def dmaDescOk (a : Nat) : Bool :=
  a % 32 == 0 && bits a 31 30 == 0 && bits a 23 18 == 0 && decide (0x08 ≤ dmaBank a) && decide (dmaBank a ≤ 0x1F)

/-! ### Ending a descriptor (R470) -/

def codeBank : Nat := 1
def codeAborted : Nat := 4

/-- The channel enters ERROR with a code; ERRc is set (R470, R479). -/
def Dev.chError (d : Dev) (c code : Nat) : Dev :=
  (d.updDma c fun h => { h with st := .error, err := code, holds := false, residue := [], pause := h.pause, abort := false }).occurC
    dmaPg (16 + c) (0x1000 + 0x100 * c + code)

/-- STATUS, then CONTROL with OWN = 0 (R470). -/
def Dev.writeBack (d : Dev) (c code moved : Nat) : Dev :=
  let h := d.ch c
  let a := dmaAddr h.desc
  let st := 2 ^ 31 + (if code = 0 then 0 else 2 ^ 30) + code * 2 ^ 24 + moved
  let d := { d with sram := memPutWord (memPutWord d.sram (a + 16) st) a (setBit h.ctrl 31 false) }
  let d := d.updDma c fun h => { h with done := inc16 h.done, holds := false, residue := [] }
  if bitAt h.ctrl 29 then d.occurC dmaPg c (0x100 + c) else d

/-- EN reads 0. -/
def Dev.enOff (d : Dev) (c : Nat) : Dev := (d.setFld dmaPg (chOff c) 0 0 0).updDma c fun h => { h with en := false }

/-- The end of the descriptor held, with a code (R470, R473). -/
def Dev.endDesc (d : Dev) (c code : Nat) : Dev :=
  let h := d.ch c
  let d := d.writeBack c code (bits h.ctrl 18 0 - h.remain)
  if code = 0 then
    if bitAt h.ctrl 30 then (d.updDma c fun h => { h with st := .idle }).enOff c
    else d.updDma c fun x => { x with st := .run, desc := h.next }
  else if code = codeAborted then d.updDma c fun h => { h with st := .idle, abort := false }
  else d.chError c code

/-! ### Fetch (R467) -/

/-- The first failure of a descriptor, 0 where there is none. -/
def Dev.descCheck (d : Dev) (c ctrl source dest next : Nat) : Nat :=
  let len := bits ctrl 18 0
  if !dmaRangeOk source len || !dmaRangeOk dest len then 2
  else if len = 0 ∨ 262144 < len ∨ bits ctrl 27 19 ≠ 0 then 3
  else if !bitAt ctrl 30 && !dmaDescOk next then 5
  else if bitAt ctrl 28 && (d.reqSel c == 3 || decide (8 ≤ d.reqSel c)) then 7
  else 0

/-- A descriptor fetch. -/
def Dev.chFetch (d : Dev) (c : Nat) : Dev :=
  let a := dmaAddr (d.ch c).desc
  let w (i : Nat) : Nat := memWord d.sram (a + 4 * i)
  if !bitAt (w 0) 31 then d.updDma c fun h => { h with st := .waitOwn }
  else
    let code := d.descCheck c (w 0) (w 1) (w 2) (w 3)
    let d' := d.updDma c fun h =>
      { h with st := .run, holds := true, ctrl := w 0, source := w 1, dest := w 2, next := w 3, src := w 1, dst := w 2,
               remain := bits (w 0) 18 0, residue := [] }
    if code = 0 then d' else d'.endDesc c code

/-! ### Bursts and the funnel (R469) -/

/-- One byte moved: from the residue, or from a read of an aligned 64-bit word where the descriptor needs all of it, or of
one byte. A write into the residue's own source bytes is seen by it, since the result is that of ascending byte order. -/
def Dev.moveByte (d : Dev) (c : Nat) : Dev :=
  let h := d.ch c
  let s := dmaAddr h.src
  let fresh :=
    if s % 8 = 0 ∧ 8 ≤ h.remain then memBytes d.sram s 8 else [memRead d.sram s]
  let l := if h.residue.isEmpty then fresh else h.residue
  let t := dmaAddr h.dst
  let b := l.headD 0
  let rest := l.drop 1
  let rest := if s < t ∧ t ≤ s + rest.length then updAt rest (t - s - 1) fun _ => b else rest
  let d : Dev := { d with sram := memWrite d.sram t b }
  let d : Dev := if dmaBank h.dst = 0x39 then { d with twin := { d.twin with dmaOver := alSet d.twin.dmaOver (dmaOff h.dst) b.toNat } } else d
  d.updDma c fun h => { h with residue := rest, src := h.src + 1, dst := h.dst + 1, remain := h.remain - 1 }

/-- `n` bytes moved. -/
def Dev.moveBytes (d : Dev) (c n : Nat) : Dev := foldN n (fun d _ => d.moveByte c) d

/-- The bytes of the next burst: up to the next 32-byte boundary of the destination, or the end of the descriptor. -/
def DmaCh.burstLen (h : DmaCh) : Nat := min h.remain (32 - h.dst % 32)

/-- The request that REQ_SEL names (R474). -/
def Dev.dmaRequest (d : Dev) (c : Nat) : Bool :=
  let q := d.reqSel c
  if q = 0 then true
  else if q = 1 then d.cap.cmp
  else if q = 2 then !d.mie.rxBuf.isEmpty
  else if 4 ≤ q ∧ q < 8 then d.flag dmaPg 0x40 (q - 4)
  else false

/-- The request of REQ_SEL `q` falls in a firing at `cycle`: it is withdrawn from the bursts that moved on it and complete after that
(R475). -/
def Dev.reqFalls (d : Dev) (q cycle : Nat) : Dev :=
  foldN 16 (fun d c =>
    if d.reqSel c = q ∧ (d.ch c).ends.any fun t => decide (cycle ≤ t) then
      d.updDma c fun h => { h with ends := none, withdrawn := inc16 h.withdrawn }
    else d) d

/-- The request of REQ_SEL 0x2 falls where a firing has emptied the receive buffer (R474). -/
def Dev.rxFalls (d : Dev) (cycle : Nat) : Dev := if d.mie.rxBuf.isEmpty then d.reqFalls 2 cycle else d

/-- A burst of a firing of `e`, and the write-back where it moved the last byte. DESIGN CHOICE: the compressed block of REQ_SEL 0x1
is collected by the firing that moves the last byte of a descriptor paced by it (log entry 123). -/
def Dev.chBurst (d : Dev) (c : Nat) (e : SlotEntry) : Dev :=
  let paced := bitAt (d.ch c).ctrl 28
  if paced && !d.dmaRequest c then d.updDma c fun h => { h with st := .waitReq }
  else
    let ends := if paced then some (e.completion d.sched.tier.val) else none
    let d := (d.updDma c fun h => { h with st := .run, ends := ends }).moveBytes c (d.ch c).burstLen
    if (d.ch c).remain ≠ 0 then d
    else if paced && d.reqSel c == 1 then
      let d : Dev := { d with cap := { d.cap with cmp := false } }
      ((d.updDma c fun h => { h with ends := none }).reqFalls 1 e.offset).endDesc c 0
    else d.endDesc c 0

/-! ### Pause and abort (R472, R473) -/

/-- The residue is written and the channel enters PAUSED. -/
def Dev.chFlush (d : Dev) (c : Nat) : Dev :=
  (d.moveBytes c (min (d.ch c).residue.length (d.ch c).remain)).updDma c fun h => { h with st := .paused, back := .run, residue := [] }

/-- PAUSE takes effect (R472): a channel in WAIT_OWN or WAIT_REQ enters PAUSED at once. -/
def Dev.chPauseOn (d : Dev) (c : Nat) : Dev :=
  d.updDma c fun h =>
    if h.st = .waitOwn ∨ h.st = .waitReq then { h with pause := true, st := .paused, back := h.st, residue := [] }
    else { h with pause := true }

/-- PAUSE is cleared (R472): the channel returns to its earlier work. -/
def Dev.chPauseOff (d : Dev) (c : Nat) : Dev :=
  d.updDma c fun h => if h.st = .paused ∧ !h.abort then { h with pause := false, st := h.back } else { h with pause := false }

/-- EN is set in IDLE (R468). The frond in which a channel starts is no whole frond of it, so that it ends no descriptor with BANK
(R465; log entry 123). -/
def Dev.chStartUp (d : Dev) (c : Nat) : Dev :=
  let head := d.reg dmaPg (chOff c + 4)
  let d := d.updDma c fun h => { h with en := true }
  if (d.ch c).st ≠ .idle then d
  else if dmaDescOk head then
    d.updDma c fun h =>
      { h with st := .run, holds := false, desc := head, residue := [], err := 0, abort := false, matched := true }
  else d.chError c 6

/-- EN is cleared outside IDLE (R473): a channel in WAIT_REQ pauses at once, as under R472. -/
def Dev.chStop (d : Dev) (c : Nat) : Dev :=
  let d := d.updDma c fun h => { h with en := false }
  d.updDma c fun h =>
    if h.st = .idle then h
    else if h.holds && h.st = .waitReq then { h with abort := true, st := .paused, back := .waitReq, residue := [] }
    else if h.holds then { h with abort := true }
    else { h with st := .idle, err := 0, abort := false, residue := [] }

/-! ### Firings (R463, R465) -/

/-- The banks of an entry's operands match the descriptor held. -/
def DmaCh.banksMatch (h : DmaCh) (e : SlotEntry) : Bool :=
  bits e.srcA 20 15 == dmaBank h.src && bits e.dst 20 15 == dmaBank h.dst

/-- A firing of channel `c` by entry `e`: it matches by the descriptor's bank, and where bytes of a descriptor held are to be moved by
the banks of its source and destination too (R465). -/
def Dev.chFire (d : Dev) (c : Nat) (e : SlotEntry) : Dev :=
  let h := d.ch c
  if h.st = .idle ∨ h.st = .error then d
  else
    let d := d.updDma c fun h => { h with fired := true }
    let hit (d : Dev) : Dev := d.updDma c fun h => { h with matched := true }
    if bits e.srcB 20 15 ≠ dmaBank h.desc || (h.holds && h.st != .paused && !h.banksMatch e) then d
    else if h.abort then
      if h.st = .paused then (hit d).endDesc c codeAborted else (hit d).chFlush c
    else if h.st = .paused then hit d
    else if h.pause then (hit d).chFlush c
    else if h.holds then (hit d).chBurst c e
    else
      let d := (hit d).chFetch c
      if (d.ch c).holds && (d.ch c).banksMatch e then d.chBurst c e else d

/-- The DMA engine at a frond boundary: a channel that fired and never matched fails with BANK (R465). -/
def Dev.dmaFrond (d : Dev) : Dev :=
  foldN 16 (fun d c =>
    let h := d.ch c
    let d := d.updDma c fun h => { h with fired := false, matched := false }
    if h.fired && !h.matched then (if h.holds then d.endDesc c codeBank else d.chError c codeBank) else d) d

/-! ### Channel 15 (R153, R476) -/

/-- Where the copy of a capture block lies in bank 0x1F, and where its two descriptors lie: the rules name the bank only (log
entry 91). -/
def capBlockAt : Nat := 0x1F03F800
def capDescAt : Nat := 0x1F03FC00

/-- The DMA address of a byte of the model's SRAM. -/
def dmaOfAddr (a : Nat) : Nat := a / 2 ^ 18 * 2 ^ 24 + a % 2 ^ 18

/-- The descriptors that copy the block of CAP_RD: one, or two where the block crosses the end of a bank or of the signal's
ring. -/
def Dev.capDescs (d : Dev) : List (List Nat) :=
  let p := (d.capOldest + 256 * d.cap.rdBlock) % d.capDepth
  let a := d.capAddr d.cap.rdSig p
  let n := min 1024 (2 ^ 18 - a % 2 ^ 18)
  let own := 2 ^ 31
  let last := 2 ^ 30
  if n = 1024 then [[own + last + 1024, dmaOfAddr a, capBlockAt, 0]]
  else
    [[own + n, dmaOfAddr a, capBlockAt, capDescAt + 32],
     [own + last + (1024 - n), dmaOfAddr (d.capAddr d.cap.rdSig ((p + n / 4) % d.capDepth)), capBlockAt + n, 0]]

/-- The device builds the descriptors of a block asked for and starts channel 15; not while a capture runs. -/
def Dev.capCopy (d : Dev) : Dev :=
  if d.cap.rdAsked && !d.cap.copying && !d.capRuns then
    let l := d.capDescs
    let m := l.zipIdx.foldl (fun m p =>
      memWriteBytes m (dmaAddr (capDescAt + 32 * p.2)) (p.1.flatMap fun w => leBytes 4 w)) d.sram
    { d with sram := m, cap := { d.cap with copying := true } }.updDma 15 fun h =>
      { h with st := .run, holds := false, desc := capDescAt, residue := [], err := 0, abort := false, matched := true }
  else d

/-- CAP_READ_READY (R153): channel 15 has copied the block into bank 0x1F; not while a capture runs. -/
def execCapReadReady (s : State) : Out :=
  done (fun d =>
    if d.cap.rdAsked && d.cap.copying && !d.capRuns && (d.ch 15).st == .idle then
      let ws := (upto 256).map fun i => memWord d.sram (dmaAddr capBlockAt + 4 * i)
      { d with cap := { d.cap with rdReady := true, rdAsked := false, copying := false, data := ws } }
    else d) s

/-- Cycle 0 of a tick: the EN and PAUSE bits written take effect (R472); channel 15 has neither, and starts with the copy of a
capture block (R476). -/
def Dev.dmaTick (d : Dev) : Dev :=
  let d := d.capCopy
  foldN 15 (fun d c =>
    let en := d.chEn c
    let pa := d.chPauseReg c
    let d := d.updDma c fun h => { h with ends := none }
    let d := if en && !(d.ch c).en then d.chStartUp c else if !en && (d.ch c).en then d.chStop c else d
    if pa && !(d.ch c).pause then d.chPauseOn c else if !pa && (d.ch c).pause then d.chPauseOff c else d) d

/-- Channel 15 belongs to the capture read-out (R476). -/
def dmaOwn (c : Fin 16) : Bool := c.val != 15

/-- CH_START (R468). -/
def execChStart (c : Fin 16) (s : State) : Out :=
  done (fun d =>
    if dmaOwn c && (d.ch c).st == .idle then (d.setFld dmaPg (chOff c) 0 0 1).chStartUp c else d) s

/-- CH_ABORT (R473). -/
def execChAbort (c : Fin 16) (s : State) : Out :=
  done (fun d =>
    if dmaOwn c && (d.ch c).st != .idle then (d.setFld dmaPg (chOff c) 0 0 0).chStop c else d) s

/-- CH_PAUSE (R472). -/
def execChPause (c : Fin 16) (s : State) : Out :=
  done (fun d => if dmaOwn c then (d.setFld dmaPg (chOff c) 1 1 1).chPauseOn c else d) s

/-- CH_RESUME (R472). -/
def execChResume (c : Fin 16) (s : State) : Out :=
  done (fun d => if dmaOwn c then (d.setFld dmaPg (chOff c) 1 1 0).chPauseOff c else d) s

end Sys2Proof.Machine
end

