-- ==== Sys2Proof/Machine/Admission.lean ====
section
/-! DEFINITION. Step ports, the ADMIT pass and the capping events (spec/05). -/

namespace Sys2Proof.Machine

/-! ### Delivery (R159 to R162, R570) -/

/-- A request frame passes R159. -/
def requestOk (f : StepFrame) (codeOk aligned : Bool) : Bool :=
  codeOk && aligned && bits f.toNat 63 56 == 0x3C && frameCrcOk f

/-- A frame that passes R159 becomes due for the next sense frame, or the one after it; a second one for the same sense
frame goes to the holding place, or is discarded and counted (R570). -/
def StepPort.receive (p : StepPort) (f : StepFrame) (late : Bool) : StepPort × Bool :=
  match late, p.due1, p.due2, p.place with
  | false, none, _, _ => ({ p with due1 := some f }, false)
  | true, _, none, _ => ({ p with due2 := some f }, false)
  | _, _, _, none => ({ p with place := some f, placeIn := if late then 2 else 1 }, false)
  | _, _, _, some _ => ({ p with spacing := inc8 p.spacing }, true)

/-- REQUEST_FRAME (R159, R160). A port that is not LINK_UP delivers nothing (R161): a frame that passes R159 is counted there in SPACING
(R570; log entry 84), and one that does not leaves no trace (log entry 119). -/
def Dev.requestFrame (d : Dev) (n : Nat) (f : StepFrame) (codeOk aligned late : Bool) : Dev :=
  if !(d.port n).linkUp then
    if requestOk f codeOk aligned then (d.updPort n fun p => { p with spacing := inc8 p.spacing }).occur 0x74 1 else d
  else if requestOk f codeOk aligned then
    let p := (d.port n).receive f late
    let d := d.updPort n fun _ => p.1
    if p.2 then d.occur 0x74 1 else d
  else
    (d.updPort n fun p =>
      { p with err1 := p.err1 || !late, err2 := p.err2 || late, lineErr := inc8 p.lineErr }).occur 0x74 0

def execRequestFrame (n : Fin 16) (f : StepFrame) (codeOk aligned late : Bool) (s : State) : Out :=
  done (fun d => d.requestFrame n.val f codeOk aligned late) s

/-- A held frame whose first sense frame has gone out takes the slot of the next one; a frame due for that one takes the holding
place (R570). -/
def StepPort.unhold (p : StepPort) : StepPort :=
  if p.place.isSome ∧ p.placeIn = 0 then { p with due1 := p.place, place := p.due1, placeIn := 1 } else p

/-- A port enters a new tick: what is due is delivered in its sense frame (R160), a held frame first (R570). -/
def StepPort.newTick (p : StepPort) : StepPort :=
  let p := p.unhold
  { p with slot := p.due1, due1 := p.due2, due2 := none, placeIn := p.placeIn - 1, errNow := p.err1, err1 := p.err2,
           err2 := false, reply := none }

/-- HELD_REQUEST_DELIVER (R570): the held frame takes the slot of the next tick's sense frame; without the command it does so when
that tick begins. -/
def execHeldRequestDeliver (n : Fin 16) (s : State) : Out := done (fun d => d.updPort n.val StepPort.unhold) s

/-- STEP_PORT_LINK_UP (R161). -/
def execStepPortLinkUp (n : Fin 16) (s : State) : Out :=
  done (fun d => d.updPort n.val fun p => { p with linkUp := true }) s

/-- Frames that passed R159 and wait for their delivery. -/
def StepPort.waiting (p : StepPort) : Nat := b2n p.due1.isSome + b2n p.due2.isSome + b2n p.place.isSome

/-- The frames that wait are discarded without delivery; no frame that passes R159 is lost without a count (R570), and the model
counts them in SPACING (log entry 84). -/
def StepPort.dropWaiting (p : StepPort) : StepPort :=
  { p with due1 := none, due2 := none, place := none, placeIn := 0, spacing := min 255 (p.spacing + p.waiting) }

/-- STEP_PORT_LINK_DOWN (R161): nothing more is delivered; a request delivered before is still answered (R168). -/
def execStepPortLinkDown (n : Fin 16) (s : State) : Out :=
  done (fun d =>
    let some1 := decide (0 < (d.port n.val).waiting)
    let d := d.updPort n.val fun p => { p.dropWaiting with linkUp := false }
    if some1 then d.occur 0x74 1 else d) s

/-! ### Replies -/

/-- The outcome of a decision: code, ramp class, offset and magnitude. -/
structure Decision where
  dec : Nat
  ramp : Nat
  off : Nat
  mag : Nat
deriving DecidableEq, Repr

/-- The RAMP of a reply for which the specification states none: a free value (log entry 12). -/
def freeRamp (f : StepFrame) : Nat := Config.freeWord 2 f.toNat % 9

/-- Counts a decision (ADM_COUNT0 to 2). -/
def Ledger.count (l : Ledger) (dec : Nat) : Ledger :=
  match dec with
  | 0 => { l with grant := inc16 l.grant }
  | 1 => { l with defer := inc16 l.defer }
  | 2 => { l with reduce := inc16 l.reduce }
  | 3 => { l with deny := inc16 l.deny }
  | _ => { l with capped := inc16 l.capped }

/-- The reply of a port in this tick: its frame goes into both actuation frames. The transmitter is busy from the boundary at which
die S applies one (R163). -/
def Dev.reply (d : Dev) (n : Nat) (f : StepFrame) (x : Decision) : Dev :=
  let fr := replyFrame (reqLoad f) (reqSeq f) x.dec (d.port n).level x.ramp x.off x.mag
  d.updPort n fun p => { p with reply := some fr }

/-! ### The decision of R181 -/

/-- b, the reply's reference tick. -/
def Dev.refB (d : Dev) : Nat := d.now + 1

def Dev.offsetMax (d : Dev) : Nat := d.fld 0x74 0x40 15 8

/-- first(e): the offset at which the load's previous step has ended. -/
def Dev.firstOff (d : Dev) (i : Nat) : Nat := (d.load i).stepEnd - (d.refB + 5)

/-- The earliest offset from `o0` to OFFSET_MAX for which `p` holds. -/
def Dev.earliest (d : Dev) (o0 : Nat) (p : Nat → Bool) : Option Nat :=
  ((upto (d.offsetMax + 1)).filter (o0 ≤ ·)).find? p

/-- The largest magnitude up to `m` for which `p` holds; 0 where none does. -/
def largest (p : Nat → Bool) : Nat → Nat
  | 0 => 0
  | m + 1 => if p (m + 1) then m + 1 else largest p m

/-- Slew and energy at an offset. -/
def Dev.stepFits (d : Dev) (r c o m : Nat) : Bool :=
  d.slewFits (d.refB + 5 + o) c m && d.energyFits r (d.refB + 5 + o) m

/-- A decided step enters the ledger (R180, R182, R185): the timeline, the energy account, M_r, and the feed-forward of this
tick. -/
def Dev.place (d : Dev) (i kind m : Nat) (neg : Bool) (c o : Nat) : Dev :=
  let r := d.gtRail i
  let s := d.refB + 5 + o
  let dP := if kind = 1 then d.deltaP r m else 0
  let q : StepRec := ⟨i, r, kind, m, neg, s, c, dP, d.coverOf dP, false, false⟩
  let add := Config.rdiv 14 (d.profile q (d.now + 2)) (256 * max 1 (d.fld 0x74 0x40 23 16 : Int))
  let d := d.putFf r (nth d.led.ff r 0 + add)
  let d := d.updLed fun l => { l with steps := l.steps ++ [q] }
  let d := d.updLoad i fun x =>
    { x with prevEnd := x.stepEnd, stepEnd := s + 2 ^ c, lastStart := some s, startTseq := s % 2 ^ 24, released := kind == 4 }
  if kind = 1 then d.cancelShed r else d

/-- Stores a decision in the entry and the journal (R178, R180); decisions under VAUX_WARN or a write hold are not journaled (R347, R367). -/
def Dev.record (d : Dev) (i : Nat) (f : StepFrame) (x : Decision) (mag : Nat) : Dev :=
  let d := d.updLed fun l => l.count x.dec
  let d := d.updLoad i fun e =>
    { e with lastSeq := reqSeq f, seqValid := true, lastDec := x.dec, lastRamp := x.ramp, lastMag := mag,
             lastKind := reqKind f, earlier := false }
  if d.nvHeld then d else d.journalGrant i (reqSeq f) (reqKind f) x.dec x.ramp x.mag x.off

/-- A decision without a step. -/
def Dev.noStep (d : Dev) (i : Nat) : Dev := d.updLoad i fun e => { e with lastStart := none }

/-- Ends a decision: record and reply. -/
def Dev.finish (d : Dev) (n i : Nat) (f : StepFrame) (x : Decision) : Dev := (d.record i f x x.mag).reply n f x

/-- A denial of R181. -/
def Dev.denyReq (d : Dev) (n i : Nat) (f : StepFrame) (dec : Nat) : Dev := (d.noStep i).finish n i f ⟨dec, reqRamp f, 0, 0⟩

/-- release: never deferred; the load returns to BASE (R181, R182). -/
def Dev.decideRelease (d : Dev) (n i : Nat) (f : StepFrame) : Dev :=
  let a := (d.load i).alloc
  let base := d.gtBase i
  let d := d.updLoad i fun e => { e with resv := 0, resvEnd := none }
  let d := d.place i 4 (if base ≤ a then a - base else base - a) (base ≤ a) (reqRamp f) 0
  d.finish n i f ⟨0, reqRamp f, 0, min 4095 a⟩

/-- step_down (R181). -/
def Dev.decideDown (d : Dev) (n i : Nat) (f : StepFrame) : Dev :=
  let m := reqMag f
  let c := d.slowest m 8 (max (reqRamp f) (d.gtMinRamp i))
  let o0 := d.firstOff i
  if d.offsetMax < o0 then d.denyReq n i f 3
  else
    match d.earliest o0 fun o => d.slewFits (d.refB + 5 + o) c m with
    | some o => (d.place i 2 m true c o).finish n i f ⟨if o = 0 then 0 else 1, c, o, m⟩
    | none => ((d.occur 0x75 3).place i 2 m true c o0).finish n i f ⟨if o0 = 0 then 0 else 1, c, o0, m⟩

/-- The magnitude that caps, limits and rooms leave of a step up or announce, in 0.25 A; negative where there is no room
(R181). `own` is the load's own reservation. -/
def Dev.roomOf (d : Dev) (n i : Nat) (f : StepFrame) (own : Nat) : Int :=
  let r := d.gtRail i
  let m : Int := min (reqMag f) (d.gtMaxStep i)
  let m := if (d.port n).level = 1 ∧ reqKind f = 1 then min m (d.fld 0x74 0x44 19 8 : Int) else m
  let rail := nth d.led.lim r 0 - d.iMax r - d.ledgerM r - (d.ledgerV r - quarter own)
  let m := min m (rail / 16384)
  let vref := (d.rail r).ref
  if 0 < vref then
    min m (min ((d.led.row - d.pSh) * 4000 / vref) (d.pRm * 20 * (d.fld 0x75 0x48 23 16 : Int) / vref))
  else m

/-- Step ups and announces are denied on a rail that is not in REGULATE, under VAUX_WARN (R181) and under a write hold
(R367). -/
def Dev.upBlocked (d : Dev) (i : Nat) : Bool :=
  d.sup.vauxWarn || d.writeHold || (d.rail (d.gtRail i)).st != .regulate

def Dev.minGrant (d : Dev) : Nat := d.fld 0x74 0x44 7 0

/-- announce (R181, R183). -/
def Dev.decideAnnounce (d : Dev) (n i : Nat) (f : StepFrame) : Dev :=
  if 2 ≤ (d.port n).level then d.denyReq n i f 4
  else if d.upBlocked i then d.denyReq n i f 3
  else
    let m := (d.roomOf n i f 0).toNat
    if m < d.minGrant then d.denyReq n i f 3
    else
      let e := if reqHold f = 0 then none else some (d.now + 2 ^ (reqHold f + 3))
      let d := (d.noStep i).updLoad i fun x => { x with resv := m, resvEnd := e }
      let dP := d.deltaP (d.gtRail i) m
      let d := d.updLed fun l => { l with newResv := l.newResv + dP }
      d.finish n i f ⟨if m = reqMag f then 0 else 2, reqRamp f, 0, m⟩

/-- step_up (R181). -/
def Dev.decideUp (d : Dev) (n i : Nat) (f : StepFrame) : Dev :=
  if 2 ≤ (d.port n).level then d.denyReq n i f 4
  else if d.upBlocked i then d.denyReq n i f 3
  else
    let r := d.gtRail i
    let m := (d.roomOf n i f (d.load i).resv).toNat
    if m < d.minGrant then d.denyReq n i f 3
    else
      let c := d.slowest m 8 (max (reqRamp f) (d.gtMinRamp i))
      let o0 := max (d.firstOff i) ((if d.led.freeze then d.led.freezeEnd else 0) - d.refB - 5)
      let give (d : Dev) (x : Decision) : Dev :=
        ((d.updLoad i fun e => { e with resv := e.resv - x.mag }).place i 1 x.mag false x.ramp x.off).finish n i f x
      match d.earliest o0 fun o => d.stepFits r c o m with
      | some o => give d ⟨if m = reqMag f then (if o = 0 then 0 else 1) else 2, c, o, m⟩
      | none =>
        if d.offsetMax < o0 then d.denyReq n i f 3
        else
          let m' := largest (d.stepFits r c o0) m
          if m' < d.minGrant then d.denyReq n i f 3 else give d ⟨2, c, o0, m'⟩

/-! ### Duplicates (R179, R322) -/

/-- The earlier placement of a load's last step is taken out of the ledger. -/
def Dev.unplace (d : Dev) (i s : Nat) : Dev :=
  let d := d.updLed fun l => { l with steps := l.steps.filter fun q => !(q.load == i && q.start == s) }
  d.updLoad i fun e => { e with stepEnd := e.prevEnd }

/-- The search for a step that is placed again: from first(e), and for a step up under the freeze, by the tests of its kind;
where no offset is found for the original magnitude `m` the step is withdrawn (log entry 13). `mag` is MAG of the original reply,
which for a release is not the step's magnitude. -/
def Dev.placeAgain (d : Dev) (n i : Nat) (f : StepFrame) (kind m c dec mag : Nat) (neg : Bool) : Dev :=
  let r := d.gtRail i
  let again (d : Dev) (o : Nat) : Dev :=
    let x : Decision := ⟨dec, c, o, mag⟩
    let d := d.place i kind m neg c o
    let d := if d.nvHeld then d else d.journalGrant i (reqSeq f) kind dec c mag o
    d.reply n f x
  let withdraw (d : Dev) : Dev :=
    let d := d.updLoad i fun e => { e with lastStart := none, lastDec := 3, lastMag := 0 }
    let d := if d.nvHeld then d else d.journalGrant i (reqSeq f) kind 3 c 0 0
    d.reply n f ⟨3, c, 0, 0⟩
  let o0 := d.firstOff i
  if kind = 2 then
    if d.offsetMax < o0 then withdraw d
    else
      match d.earliest o0 fun o => d.slewFits (d.refB + 5 + o) c m with
      | some o => again d o
      | none => again (d.occur 0x75 3) o0
  else if kind = 4 then again d 0
  else
    match d.earliest (max o0 ((if d.led.freeze then d.led.freezeEnd else 0) - d.refB - 5)) fun o => d.stepFits r c o m with
    | some o => again d o
    | none => withdraw d

/-- ALLOC with the effect of a settled placement taken back. -/
def Dev.takeBack (d : Dev) (i s : Nat) : Dev :=
  match d.led.steps.find? fun q => q.load == i && q.start == s with
  | some q =>
    if !q.applied then d
    else if q.kind = 1 then d.updLoad i fun e => { e with alloc := e.alloc - q.mag }
    else if q.kind = 2 then d.updLoad i fun e => { e with alloc := e.alloc + q.mag }
    else d
  | none => d

/-- A duplicate receives its original decision again (R179). -/
def Dev.duplicate (d : Dev) (n i : Nat) (f : StepFrame) : Dev :=
  let e := d.load i
  if e.earlier then
    { d with jrn := { d.jrn with stepDenied := inc16 d.jrn.stepDenied } }.reply n f ⟨3, reqRamp f, 0, 0⟩
  else
    let d := d.updLed fun l => { l with dup := inc16 l.dup }
    match e.lastStart with
    | none => d.reply n f ⟨e.lastDec, e.lastRamp, 0, e.lastMag⟩
    | some s =>
      if d.refB + 5 ≤ s then d.reply n f ⟨e.lastDec, e.lastRamp, s - d.refB - 5, e.lastMag⟩
      else
        let q := (d.led.steps.find? fun q => q.load == i && q.start == s)
        let m := if e.lastKind = 4 then ((q.map StepRec.mag).getD 0) else e.lastMag
        let neg := (q.map StepRec.neg).getD (e.lastKind != 1)
        ((d.takeBack i s).unplace i s).placeAgain n i f e.lastKind m e.lastRamp e.lastDec e.lastMag neg

/-! ### The ADMIT pass (R175 to R178) -/

/-- The ports with a delivered request, in the order of the tick (R176). -/
def Dev.admitOrder (d : Dev) : List Nat :=
  ((upto 16).map fun k => (d.time.tseq + k) % 16).filter fun n => (d.port n).slot.isSome

/-- R177. -/
def Dev.reqValid (d : Dev) (n : Nat) (f : StepFrame) : Bool :=
  decide (1 ≤ reqKind f) && decide (reqKind f ≤ 5) && decide (reqRamp f ≤ 8) && reqRsvd f == 0 &&
    reqLoad f / 16 == n && d.gtEn (reqLoad f)

/-- A valid request restarts the heartbeat count of its port, and its entry leaves STALE (R190). -/
def Dev.seen (d : Dev) (n i : Nat) : Dev :=
  (d.updPort n fun p => { p with quiet := 0, fresh := true, stale := false }).updLoad i fun e => { e with stale := false }

/-- The nudge of R186: the whole excess, at most once per frond, in the tick in which it is computed. -/
def Dev.nudgeTick (d : Dev) : Dev :=
  let x := d.sumDP + d.led.newResv + d.led.bUsed
  if d.led.admitDue && !d.led.nudged && decide ((d.fld 0x75 0x48 31 24 : Int) * 8192 < x) then
    d.updLed fun l => { l with nudged := true, nudge := some x }
  else d

/-- After the last request of the tick the nudge is computed. -/
def Dev.admitEnd (d : Dev) : Dev := if d.admitOrder.isEmpty then d.nudgeTick else d

/-- What a delivered request of port `n` meets before its decision: the spacing of R163 and R181, validity (R177), and the
sequence (R178). `cmp` says whether the kind is compared. -/
def Dev.request (d : Dev) (n : Nat) (f : StepFrame) (cmp : Bool) (decide : Dev → Nat → StepFrame → Dev) : Dev :=
  let i := reqLoad f
  let ok := d.reqValid n f
  let d := d.updPort n fun p => { p with slot := none }
  let d := if ok then d.seen n i else d
  let d :=
    if d.refB < (d.port n).busy then (d.updPort n fun p => { p with spacing := inc8 p.spacing }).occur 0x74 1
    else if !ok then
      ((d.updLed fun l => { l with invalid := inc16 l.invalid }).occur 0x74 2).reply n f ⟨3, freeRamp f, 0, 0⟩
    else
      let e := d.load i
      let dist := (reqSeq f + 256 - e.lastSeq) % 256
      if !cmp || !e.seqValid || (Nat.ble 1 dist && Nat.ble dist 128) then decide d i f
      else if dist = 0 then d.duplicate n i f
      else ((d.updLed fun l => { l with seqBad := inc16 l.seqBad }).occur 0x74 4).reply n f ⟨3, freeRamp f, 0, 0⟩
  d.admitEnd

/-- A delivered request is taken when it is the next in the order of the tick, an ADMIT entry fired, and it is of the kind
the command names; a reserved kind is taken by any of them and is invalid. -/
def Dev.admitted (d : Dev) (n kind : Nat) : Option StepFrame :=
  if d.led.admitDue && d.admitOrder.head? == some n then
    match (d.port n).slot with
    | some f => if reqKind f = kind ∨ reqKind f = 0 ∨ 5 < reqKind f then some f else none
    | none => none
  else none

/-- A heartbeat that reports a draw above ALLOC by more than UNANN_TOL counts one unannounced step (R189). -/
def Dev.heartbeatCount (d : Dev) (n i : Nat) (f : StepFrame) : Dev :=
  if (d.load i).alloc + d.fld 0x74 0x48 23 16 < reqMag f then
    let lim := d.fld capPortPg (0x40 + 4 * n) 15 8
    let c := inc8 (d.port n).unann
    let d' := d.updPort n fun p => { p with unann := c, unannTotal := inc16 p.unannTotal }
    (if (d.port n).unann < lim ∧ lim ≤ c then d'.occur 0x78 2 else d').capRaise n
  else d

/-- The answer to a heartbeat (R165, R167, R189). -/
def Dev.decideHeartbeat (d : Dev) (n i : Nat) (f : StepFrame) : Dev :=
  let d := d.heartbeatCount n i f
  (d.updLed fun l => l.count 0).reply n f ⟨0, freeRamp f, 0, min 4095 (d.load i).alloc⟩

/-- A delivered request is decided by its kind; a release and a heartbeat whatever their SEQ (R178, R181). -/
def Dev.decideReq (d : Dev) (n : Nat) (f : StepFrame) : Dev :=
  if reqKind f = 2 then d.request n f true fun d i f => d.decideDown n i f
  else if reqKind f = 3 then d.request n f true fun d i f => d.decideAnnounce n i f
  else if reqKind f = 4 then d.request n f false fun d i f => d.decideRelease n i f
  else if reqKind f = 5 then d.request n f false fun d i f => d.decideHeartbeat n i f
  else d.request n f true fun d i f => d.decideUp n i f

/-- The command of a kind: the request that is next in the order of the tick is decided, where it is of that kind. -/
def Dev.admitCmd (d : Dev) (n kind : Nat) : Dev :=
  match d.admitted n kind with
  | some f => d.decideReq n f
  | none => d

/-- Every request delivered in a tick is decided in that tick (R176): those that no command has taken are decided, in order, before
the twins compose the frame of the tick. -/
def Dev.settleRequests (d : Dev) : Dev :=
  if d.led.admitDue then
    d.admitOrder.foldl (fun d n =>
      match (d.port n).slot with
      | some f => d.decideReq n f
      | none => d) d
  else d

/-- STEP_UP (R181). -/
def execStepUp (n : Fin 16) (s : State) : Out := done (fun d => d.admitCmd n.val 1) s

/-- STEP_DOWN (R181). -/
def execStepDown (n : Fin 16) (s : State) : Out := done (fun d => d.admitCmd n.val 2) s

/-- ANNOUNCE (R181, R183). -/
def execAnnounce (n : Fin 16) (s : State) : Out := done (fun d => d.admitCmd n.val 3) s

/-- RELEASE (R178, R181). -/
def execRelease (n : Fin 16) (s : State) : Out := done (fun d => d.admitCmd n.val 4) s

/-- HEARTBEAT (R165, R167, R189). -/
def execHeartbeat (n : Fin 16) (s : State) : Out := done (fun d => d.admitCmd n.val 5) s

/-! ### Ledger events -/

/-- LEDGER_LEAVE_CONSERVATIVE (R171): after the first measurement, or at frond 128. -/
def execLedgerLeaveConservative (s : State) : Out :=
  done (fun d => if d.led.cons && (d.led.learned || decide (128 ≤ d.time.frond)) then d.updLed fun l => { l with cons := false } else d) s

/-- A step has settled: at the end of tick S + D + 16 (R172). -/
def Dev.settleDue (d : Dev) (q : StepRec) : Bool := !q.settled && decide (q.start + 2 ^ q.cls + 16 ≤ d.now)

/-- STEP_SETTLE (R172): every step of the load that is due leaves M_r. -/
def execStepSettle (i : Fin 256) (s : State) : Out :=
  done (fun d => d.updLed fun l =>
    { l with steps := l.steps.map fun q => if q.load = i.val ∧ d.settleDue q then { q with settled := true } else q }) s

/-- RESERVATION_EXPIRE (R183). -/
def execReservationExpire (i : Fin 256) (s : State) : Out :=
  done (fun d =>
    match (d.load i.val).resvEnd with
    | some e => if e ≤ d.now then d.updLoad i.val fun x => { x with resv := 0, resvEnd := none } else d
    | none => d) s

/-- UNANN_HALVING (R189): every CAP_WIN fronds the counts halve, rounding down. -/
def execUnannHalving (s : State) : Out :=
  done (fun d =>
    if d.fld capPortPg 0x88 15 8 ≤ d.led.winLeft then
      let d := d.updLed fun l => { l with winLeft := 0 }
      { d with adm := { d.adm with ports := d.adm.ports.map fun p => { p with unann := p.unann / 2 } } }
    else d) s

/-- PORT_STALE (R190): every enabled entry becomes STALE and the cap level rises. -/
def execPortStale (n : Fin 16) (s : State) : Out :=
  done (fun d =>
    let p := d.port n.val
    if !p.stale && !(d.portLoads n.val).isEmpty && decide (4 * d.fld 0x74 0x4C 7 0 ≤ p.quiet) then
      let d := (d.portLoads n.val).foldl (fun d i => d.updLoad i fun x => { x with stale := true }) d
      ((d.updPort n.val fun p => { p with stale := true }).occur 0x74 3).capRaise n.val
    else d) s

/-- The last tick with a cause of level `k` or above. -/
def StepPort.lastOf (p : StepPort) (k : Nat) : Nat := if k = 1 then p.last1 else if k = 2 then p.last2 else p.last3

/-- CAP_LEVEL_FALL (R193): decided in tick phase 255, one level at a boundary, after CAP_HOLD fronds without a cause. -/
def execCapLevelFall (n : Fin 16) (s : State) : Out :=
  done (fun d =>
    let p := d.port n.val
    if d.phase = 255 ∧ d.time.frondDue = true ∧ 0 < p.level ∧ !p.fell ∧ p.lastOf p.level + 256 * d.fld capPortPg 0x88 7 0 ≤ d.now then
      d.updPort n.val fun p => { p with level := p.level - 1, fell := true }
    else d) s

/-- FREEZE_LONG (R194). -/
def execFreezeLong (s : State) : Out :=
  done (fun d =>
    if d.led.freeze && decide (d.led.freezeEnd ≤ d.now) then
      (d.updLed fun l => { l with freezeEnd := l.freezeEnd + d.fld 0x74 0x4C 23 8 }).occur 0x75 2
    else d) s

/-! ### The tick of the ledger -/

/-- ALLOC takes effect at S + D (R182). -/
def Dev.allocTick (d : Dev) : Dev :=
  let t := d.now
  let due := d.led.steps.filter fun q => !q.applied && decide (q.start + 2 ^ q.cls ≤ t)
  let d := due.foldl (fun d q =>
    d.updLoad q.load fun e =>
      { e with alloc := if q.kind = 4 then d.gtBase q.load
                        else if q.neg then e.alloc - q.mag else min 65535 (e.alloc + q.mag) }) d
  d.updLed fun l =>
    { l with steps := l.steps.map fun q => if q.start + 2 ^ q.cls ≤ t then { q with applied := true } else q }

/-- Steps whose every effect has ended leave the list, but for the last one of each load, which a late duplicate takes back (R179). -/
def Dev.pruneSteps (d : Dev) : Dev :=
  let tail := d.fld 0x74 0x40 31 24 + d.fld 0x74 0x40 23 16 + 16
  d.updLed fun l =>
    { l with steps := l.steps.filter fun q =>
        !(q.settled && q.applied && decide (q.start + 2 ^ q.cls + tail < d.now)) || (d.load q.load).lastStart == some q.start }

/-- What the LEDGER entry writes (R170, R185). -/
def Dev.ledgerFire (d : Dev) : Dev :=
  let d := d.pruneSteps.allocTick
  let p := d.p54Now
  let e := d.eAvNow
  (d.updLed fun l => { l with p54 := p, eAv := e }).limitTick.learnTick.ffTick.updLed fun l => { l with ffDone := true }

/-- The ADMIT entry fires: the requests delivered in this tick may be decided. -/
def Dev.admitFire (d : Dev) : Dev := (d.updLed fun l => { l with admitDue := true }).admitEnd

/-- The step ports and the ledger enter a new tick. -/
def Dev.admNewTick (d : Dev) : Dev :=
  { d with adm := { d.adm with ports := d.adm.ports.map StepPort.newTick,
                               led := { d.adm.led with admitDue := false, newResv := 0, nudge := none, ffDone := false,
                                                       ff1 := d.adm.led.ff, ff2 := d.adm.led.ff1 } } }

/-- The rail currents of the tick enter the ledger's histories. -/
def Dev.ledgerCurrents (d : Dev) : Dev :=
  let now := (upto 4).map fun r => (d.rail r).ir
  d.updLed fun l =>
    { l with ir4 := (upto 4).map (fun r => (nth now r 0 :: nth l.ir4 r []).take 4),
             ir1 := (upto 4).map fun r => (nth l.ir4 r []).headD 0, ir2 := l.ir1 }

/-- A tick in which requests were delivered and no ADMIT entry fired (R175). -/
def Dev.noAdmit (d : Dev) : Dev :=
  if !d.led.admitDue && !d.admitOrder.isEmpty then
    { d.occur 0x74 6 with adm := { d.adm with ports := d.adm.ports.map fun p => { p with slot := none } } }
  else d

/-- The frond of step admission: heartbeat counts, the halving window, one nudge and one fall of a level per frond, and the
learned ramp (R171, R173, R186, R189, R190, R193). -/
def Dev.admFrond (d : Dev) : Dev :=
  let d := foldN 16 (fun d n =>
    let any := !(d.portLoads n).isEmpty
    d.updPort n fun p =>
      { p with fell := false, quiet := if any && !p.fresh then p.quiet + 1 else 0, fresh := !any, stale := p.stale && any }) d
  (d.updLed fun l => { l with nudged := false, winLeft := l.winLeft + 1 }).learnFrond

end Sys2Proof.Machine
end

