-- ==== Sys2Proof/Machine/Thermal.lean ====
section
/-! DEFINITION. Temperature and heat budget (spec/11). -/

namespace Sys2Proof.Machine

def Dev.updTherm (d : Dev) (f : Therm → Therm) : Dev := { d with therm := f d.therm }

/-- A level in °C, signal format. -/
def degC (n : Nat) : Int := (n : Int) * 65536

/-- WARN of a limit register: 0 twin, 1 die S, 2 stage, 3 board. -/
def Dev.warnOf (d : Dev) (c : Nat) : Int := degC (d.fld 0xA8 (0x40 + 4 * c) 7 0)
/-- SHUT of a limit register. -/
def Dev.shutOf (d : Dev) (c : Nat) : Int := degC (d.fld 0xA8 (0x40 + 4 * c) 15 8)

/-- A list element replaced. -/
def setAt {α : Type} (l : List α) (i : Nat) (v : α) : List α := updAt l i fun _ => v

/-! ### Die sensors -/

/-- The median of a list: the middle element, or the mean of the middle two (R356). -/
def median (l : List Int) : Int :=
  let s := sortBy (fun a b => decide (a ≤ b)) l
  let n := s.length
  if n % 2 = 1 then nth s (n / 2) 0 else Config.rdiv 40 (nth s (n / 2 - 1) 0 + nth s (n / 2) 0) 2

/-- The cross-check of one die (R356): the readings after substitution, and the mask of suspects. -/
def crossCheck (l : List (Option Int)) : List Int × Nat :=
  let valid := l.zipIdx.filterMap fun p => p.1.map fun v => (v, p.2)
  let judge (v : Int) (i : Nat) : Int × Bool :=
    let m := median ((valid.filter fun q => q.2 != i).map Prod.fst)
    if valid.length < 4 then (v, false) else if 6 * 65536 < (v - m).natAbs then (m, true) else (v, false)
  let res := l.zipIdx.map fun p => match p.1 with
    | none => ((0 : Int), false)
    | some v => judge v p.2
  (res.map Prod.fst, res.zipIdx.foldl (fun a p => if p.1.2 then a + 2 ^ p.2 else a) 0)

/-- A die S sensor with a valid reading (R355). -/
def Dev.sValid (d : Dev) (i : Nat) : Bool := d.die.validG0 && nth d.therm.sOk i false

/-- Every die S sensor carries a value. -/
def Dev.sAll (d : Dev) : Bool := (upto 11).all d.sValid

/-- The highest difference over eight boundaries of a history of readings (R358); none while checks are off. -/
def Therm.rise (t : Therm) (h : List (List Int)) : Int :=
  if !t.rateEn || h.length < 9 then 0
  else
    let now := nth h 0 []
    let old := nth h 8 []
    ((upto now.length).map fun i => nth now i 0 - nth old i 0).foldl max ((nth now 0 0) - (nth old 0 0))

/-- The die sensors at a frond boundary (R354, R356, R358). -/
def Dev.dieSense (d : Dev) (ta tb : List Int) : Dev :=
  let ca := crossCheck (ta.map some)
  let cb := crossCheck (tb.map some)
  let cs := crossCheck ((upto 11).map fun i => if d.sValid i then some (nth d.sense.intmon i 0) else none)
  let fresh := (ca.2 ||| d.therm.susA) != d.therm.susA || (cb.2 ||| d.therm.susB) != d.therm.susB ||
    (cs.2 ||| d.therm.susS) != d.therm.susS
  let all := d.sAll
  let d := d.updTherm fun t =>
    { t with a := ta, b := tb, subA := ca.1, subB := cb.1, subS := cs.1, susA := ca.2, susB := cb.2, susS := cs.2,
             histA := (ca.1 :: t.histA).take 9, histB := (cb.1 :: t.histB).take 9,
             histS := if all then (cs.1 :: t.histS).take 9 else [] }
  if fresh then d.occur 0xA8 0 else d

/-- Every die reading after substitution: both twins, and the valid sensors of die S. -/
def Dev.dieAll (d : Dev) : List Int :=
  d.therm.subA ++ d.therm.subB ++ ((upto 11).filter d.sValid).map fun i => nth d.therm.subS i 0

/-- The largest of a list. -/
def maxOf (l : List Int) : Int :=
  match l with
  | [] => 0
  | x :: r => r.foldl max x

/-- STAGE_TMAX: the hottest stage reading after substitution; 0 while no stage has a reading. -/
def Dev.stageMax (d : Dev) : Int := maxOf ((upto 64).filterMap fun n => (d.unit n).temp)

/-- Two consecutive fronds with one sensor of a twin at or above TWIN_SHUT (R359). -/
def Dev.twinHot (d : Dev) (t : Twin) : Bool :=
  let h := match t with
    | .a => d.therm.histA
    | .b => d.therm.histB
  (upto 10).any fun i => 2 ≤ h.length && decide (d.shutOf 0 ≤ nth (nth h 0 []) i 0) && decide (d.shutOf 0 ≤ nth (nth h 1 []) i 0)

/-- No sensor of a twin is at or above TWIN_SHUT. -/
def Dev.twinCool (d : Dev) (t : Twin) : Bool :=
  let l := match t with
    | .a => d.therm.subA
    | .b => d.therm.subB
  l.all fun x => decide (x < d.shutOf 0)

/-- TWIN_SHUT of a twin (R364). -/
def Dev.twinShut (d : Dev) (t : Twin) : Dev :=
  if (d.twinOf t).st ≠ .out ∧ d.twinHot t then
    let o := (d.twinOf (otherTwin t)).st
    let d := (d.occurC 0xA8 8 (9 + twinIdx t)).updTherm fun x => match t with
      | .a => { x with shutA := true }
      | .b => { x with shutB := true }
    if (o = .active ∨ o = .standby) ∧ d.twinCool (otherTwin t) then d.twinOut t false else d.enterSafe 8
  else d

/-- Checks of the die readings at a boundary (R359, R364, R367). -/
def Dev.dieChecks (d : Dev) : Dev :=
  let ds := [d.therm.rise d.therm.histA, d.therm.rise d.therm.histB] ++
    (if d.therm.histS.isEmpty then [] else [d.therm.rise d.therm.histS])
  let rate := maxOf ds
  let hi := decide ((d.fld 0xA8 0x50 7 0 : Int) * 16384 * 1024 < rate * 1000)
  let warn := d.therm.subA.any (fun x => decide (d.warnOf 0 ≤ x)) || d.therm.subB.any (fun x => decide (d.warnOf 0 ≤ x)) ||
    (upto 11).any fun i => d.sValid i && decide (d.warnOf 1 ≤ nth d.therm.subS i 0)
  let all := d.dieAll
  let outside := all.any fun x => decide (x < -40 * 65536) || decide (125 * 65536 < x)
  let within := all.all fun x => decide (-38 * 65536 ≤ x) && decide (x ≤ 123 * 65536)
  let d := if hi && !d.therm.dieRateHi then d.occur 0xA8 2 else d
  let d := if warn && !d.therm.dieWarn then d.occur 0xA8 5 else d
  let d := if outside && !d.therm.hold then d.occur 0xA8 11 else d
  let d := d.updTherm fun t =>
    { t with dieRateHi := hi, dieWarn := warn, dieMax := maxOf all, dieRate := Config.rdiv 41 (rate * 1000) 1024,
             hold := t.hold || outside, cool := if within then satInc 2 t.cool else 0 }
  (d.twinShut .a).twinShut .b

/-- A completed internal monitor of die S: S_SHUT in two consecutive results (R359). -/
def Dev.intmonDone (d : Dev) (i : Nat) : Dev :=
  if 11 ≤ i then d
  else
    let v := if bitAt d.therm.susS i then nth d.therm.subS i 0 else nth d.sense.intmon i 0
    let d := d.updTherm fun t =>
      { t with sOk := setAt t.sOk i true,
               sShut := updAt t.sShut i fun n => if d.shutOf 1 ≤ v then satInc 2 n else 0 }
    if nth d.therm.sShut i 0 = 2 then d.enterSafe 7 else d

/-! ### Stages -/

/-- The units of the rail of `n`, in its switching condition (R357). -/
def PhState.switches : PhState → Bool
  | .active | .marked | .ramp => true
  | _ => false

/-- The adjacent units of a unit (R357). -/
def Dev.adjacent (d : Dev) (n : Nat) : List Nat :=
  match d.memberOf n with
  | none => []
  | some r =>
    let ok (m : Nat) : Bool := d.isMember r m && ((d.unit m).st.switches == (d.unit n).st.switches)
    ((upto n).reverse.find? ok).toList ++ (((upto 64).drop (n + 1)).find? ok).toList

/-- A suspect stage, by comparison or by its word. -/
def Therm.suspect (t : Therm) (n : Nat) : Bool := nth t.stSus n false || nth t.stBad n false

/-- The mean of a list. -/
def meanOf (site : Nat) (l : List Int) : Int := Config.rdiv site (l.foldl (· + ·) 0) l.length

/-- The stage temperature of a unit in a tick, after substitution (R357), and whether no adjacent unit has a valid reading. -/
def Dev.stageTemp (d : Dev) (n : Nat) : Option Int × Bool :=
  let t := d.therm
  if t.suspect n then
    match (d.adjacent n).filterMap fun m => if nth t.stBad m false then none else nth t.stLast m none with
    | [] => (some (d.warnOf 2), true)
    | l => (some (meanOf 42 l), false)
  else (nth t.stLast n none, false)

/-- The stage words of a frame carry conversions of cluster `k`: its region is valid, and was valid in the tick before, in which
they were made (R16); the first frame after reset release carries none. -/
def Dev.tempsOk (d : Dev) (k : Nat) : Bool := d.regionOk k && (if k < 4 then d.die.tempG0 else d.die.tempG1)

/-- A stage reading after substitution joins the sum of its frond (R359). -/
def Dev.stageSum (d : Dev) (n : Nat) (v : Int) : Dev :=
  d.updTherm fun t => { t with stAcc := updAt t.stAcc n (· + v), stN := updAt t.stN n (· + 1) }

/-- The stage words of a tick (R16, R211, R212): unit 8k + ((TSEQ − 1) mod 8) of every cluster with a conversion. For a word without
a reading the mean of the adjacent units joins the frond's sum, where they have one (R357, R359). -/
def Dev.stageSense (d : Dev) (x : SenseWords) : Dev :=
  let d :=
    foldN 8 (fun d k =>
      if !d.tempsOk k then d
      else
        let n := 8 * k + (d.time.tseq + 7) % 8
        let w := nth x.temp k 0x8000
        if w = 0x8000#16 then
          let was := d.therm.suspect n
          let d := d.updTherm fun t => { t with stBad := setAt t.stBad n true }
          let d := if was then d else d.occur 0xA8 1
          match d.stageTemp n with
          | (some v, false) => d.stageSum n v
          | _ => d
        else
          let v := w.toInt * 1024
          let d := d.updTherm fun t =>
            { t with stBad := setAt t.stBad n false, stLast := setAt t.stLast n (some v),
                     stRawAcc := updAt t.stRawAcc n (· + v), stRawN := updAt t.stRawN n (· + 1) }
          d.stageSum n ((d.stageTemp n).1.getD v)) d
  { d with die := { d.die with tempG0 := d.die.validG0, tempG1 := d.die.validG1 } }

/-- One stage in a tick: its temperature, STAGE_WARN and STAGE_SHUT (R359, R362). A stage taken as STAGE_WARN
under R357 counts as one at STAGE_WARN here too (log entry 97). -/
def Dev.stageTick (d : Dev) (n : Nat) : Dev :=
  let x := d.stageTemp n
  let d := (d.updUnit n fun u => { u with temp := x.1 }).updTherm fun t => { t with stHalf := setAt t.stHalf n x.2 }
  match x.1 with
  | none => d
  | some v =>
    let hot := decide (d.warnOf 2 ≤ v)
    let d := if hot && !nth d.therm.stWarn n false then d.occur 0xA8 6 else d
    let d := d.updTherm fun t =>
      { t with stWarn := setAt t.stWarn n hot, holdN := if hot then setAt t.holdN n 0 else t.holdN,
               hotFrond := if hot then setAt t.hotFrond n true else t.hotFrond }
    if d.shutOf 2 ≤ v ∧ !nth d.therm.stShut n false then
      ((d.occur 0xA8 9).updTherm fun t => { t with stShut := setAt t.stShut n true }).faultUnit n
    else d

/-- Units one of whose adjacent units of the tick before leaves their switching condition now (R357). -/
def Dev.nearMoved (d : Dev) : Dev :=
  let was (n : Nat) : Bool := nth d.therm.cond n false
  let moves (n : Nat) : Bool := (d.unit n).st.switches != was n
  let left (n : Nat) : Bool :=
    match d.memberOf n with
    | none => false
    | some r =>
      let ok (m : Nat) : Bool := d.isMember r m && was m == was n
      (((upto n).reverse.find? ok).any moves) || ((((upto 64).drop (n + 1)).find? ok).any moves)
  if (upto 64).any moves then
    d.updTherm fun t => { t with near := (upto 64).map fun n => nth t.near n false || left n }
  else d

/-- The changes of switching condition since the last look are noted (R357). -/
def Dev.condMark (d : Dev) : Dev :=
  let c := (upto 64).map fun n => (d.unit n).st.switches
  d.nearMoved.updTherm fun t =>
    { t with cond := c, moved := (upto 64).map fun n => nth t.moved n false || nth t.cond n false != nth c n false }

/-- The thermal part of the SUPV entry in a tick. -/
def Dev.thermTick (d : Dev) : Dev := foldN 64 Dev.stageTick d.condMark

/-- TH_r of the ledger (R363). -/
def Dev.thermLedger (d : Dev) : Dev :=
  let sh := d.shutOf 2
  let wn := d.warnOf 2
  let h (n : Nat) : Int :=
    let o := (d.fld (unitPg n) 0x40 23 16 : Int) * 32768
    if nth d.therm.stHalf n false then Config.rdiv 43 o 2
    else match (d.unit n).temp with
      | none => o
      | some v => if v ≤ wn then o else if sh ≤ v then 0 else Config.rdiv 44 (o * (sh - v)) (sh - wn)
  let th := (upto 4).map fun r =>
    (d.usableOf r).foldl (fun a n => if (d.unit n).hold then a else a + h n) 0
  d.updLed fun l => { l with therm := th }

/-- The frond means of the stages (R357, R358). -/
def Dev.stageMeans (d : Dev) : Dev :=
  d.updTherm fun t =>
    let mean (acc : List Int) (cnt : List Nat) (n : Nat) : Int := Config.rdiv 45 (nth acc n 0) ((nth cnt n 0 : Nat) : Int)
    { t with stPrev := t.stMean,
             stMean := (upto 64).map fun n => if nth t.stN n 0 = 0 then nth t.stMean n 0 else mean t.stAcc t.stN n,
             stHad := (upto 64).map fun n => decide (0 < nth t.stN n 0),
             stOk := (upto 64).map fun n => decide (0 < nth t.stN n 0) && nth t.stHad n false,
             stRaw := (upto 64).map fun n => if nth t.stRawN n 0 = 0 then none else some (mean t.stRawAcc t.stRawN n),
             stAcc := List.replicate 64 0, stN := List.replicate 64 0, stRawAcc := List.replicate 64 0,
             stRawN := List.replicate 64 0 }

/-- The rail's frond-mean current changed by more than 20 % of C_r between consecutive fronds (R357). -/
def Dev.railJump (d : Dev) (r : Nat) : Bool :=
  decide ((d.rail r).cap < 5 * ((d.rail r).iAvg - nth d.therm.railPrev r 0).natAbs)

/-- The cross-check of one stage (R357). -/
def Dev.stageCheck (d : Dev) (n : Nat) : Dev :=
  match d.memberOf n with
  | none => d
  | some r =>
    let adj := d.adjacent n
    let moved := nth d.therm.moved n false || nth d.therm.near n false || adj.any (fun m => nth d.therm.moved m false) || d.railJump r
    let since := if moved then 0 else satInc 7813 (nth d.therm.since n 0)
    let d := d.updTherm fun t => { t with since := setAt t.since n since }
    match nth d.therm.stRaw n none with
    | none => d
    | some v =>
      let ms := adj.filterMap fun m => nth d.therm.stRaw m none
      if since < 7813 ∨ ms.isEmpty then d
      else
        let sus := ms.all fun m => decide (15 * 65536 < (v - m).natAbs)
        let was := d.therm.suspect n
        let d := d.updTherm fun t => { t with stSus := setAt t.stSus n sus }
        if sus && !was then d.occur 0xA8 1 else d

/-- The rate checks and the thermal hold of one stage at a boundary (R359, R360): a shed that is requested is made in the tick that
begins there, or when the rail enters REGULATE. A frond with a tick at or above STAGE_WARN does not count towards the end of a hold. -/
def Dev.stageRates (d : Dev) (n : Nat) : Dev :=
  let hi := d.rateAbove n (d.fld 0xA8 0x50 15 8)
  let d := if hi && !nth d.therm.stRateHi n false then d.occur 0xA8 3 else d
  let cold := !nth d.therm.hotFrond n false && match (d.unit n).temp with
    | none => true
    | some v => decide (v < d.warnOf 2)
  let d := d.updTherm fun t =>
    { t with stRateHi := setAt t.stRateHi n hi,
             holdN := updAt t.holdN n fun k => if cold && d.rateBelow n (d.fld 0xA8 0x50 15 8) then satInc 65535 k else 0 }
  match d.memberOf n with
  | none => d
  | some _ =>
    if d.rateAbove n (d.fld 0xA8 0x50 23 16) then
      d.updTherm fun t => { t with shedWait := setAt t.shedWait n true }
    else d

/-! ### Board -/

/-- The AUX input of board sensor `e`, where it is in use. -/
def Dev.boardInput (d : Dev) (e : Nat) : Option Nat :=
  let w := d.reg 0xA8 (0x58 + 4 * (e / 4))
  if bitAt w (8 * (e % 4) + 7) then some (bits w (8 * (e % 4) + 4) (8 * (e % 4))) else none

/-- The board reading of sensor `e` (R355), where it is valid. -/
def Dev.boardRead (d : Dev) (e : Nat) : Option Int :=
  match d.boardInput e with
  | none => none
  | some a =>
    let x := d.auxOf a
    if x.usable then
      some (ntcTemp (d.fld 0xA8 0x60 31 20) (d.fld 0xA8 0x60 19 10) (d.fld 0xA8 0x60 9 0) x.res x.full)
    else none

/-- The board sensors at a frond boundary (R359, R365). -/
def Dev.boardFrond (d : Dev) : Dev :=
  let rs := (upto 8).map d.boardRead
  let vals := rs.filterMap id
  let warn := vals.any fun x => decide (d.warnOf 3 ≤ x)
  let shut := vals.any fun x => decide (d.shutOf 3 ≤ x)
  let newShut := shut && !d.therm.boardShut
  let d := if warn && !d.therm.boardWarn then d.occur 0xA8 7 else d
  let d := d.updTherm fun t =>
    { t with board := rs.map fun x => x.getD 0, boardOk := rs.map Option.isSome, boardWarn := warn, boardShut := shut }
  if newShut then d.offRequest.occur 0xA8 10 else d

/-- The heat budget at a frond boundary. -/
def Dev.thermFrond (d : Dev) (ta tb : List Int) : Dev :=
  let d := ((d.dieSense ta tb).dieChecks).stageMeans.condMark
  let d := foldN 64 Dev.stageCheck d
  let d := foldN 64 Dev.stageRates d
  let d := d.boardFrond
  let none64 := List.replicate 64 false
  d.updTherm fun t => { t with moved := none64, near := none64, hotFrond := none64, railPrev := (upto 4).map fun r => (d.rail r).iAvg }

/-! ### Tier selection -/

/-- P_SAVE of a tier in 0.01 W (R366). -/
def pSave (t : Nat) : Int := nth [0, 40, 90, 140] t 0

/-- The scale in which margins are compared: 2^-16 °C / 128,000. -/
def tierScale : Int := 128000

/-- The margin of tier `t` for one class of dies. -/
def Dev.marginOf (d : Dev) (tmax rise shut : Int) (t : Nat) : Int :=
  tierScale * (shut - tmax) - max 0 rise * (d.fld 0xA8 0x54 15 8 : Int) * 125000 -
    128 * (d.fld 0xA8 0x54 7 0 : Int) * (pSave d.sched.tier.val - pSave t) * 65536

/-- The hottest twin reading and highest rise, without a twin in OUT. -/
def Dev.twinHeat (d : Dev) : Int × Int :=
  let la := if d.twin.a.st = .out then [] else [(maxOf d.therm.subA, d.therm.rise d.therm.histA)]
  let lb := if d.twin.b.st = .out then [] else [(maxOf d.therm.subB, d.therm.rise d.therm.histB)]
  let l := la ++ lb
  (maxOf (l.map Prod.fst), maxOf (l.map Prod.snd))

/-- The margin of tier `t` (R366). -/
def Dev.tierMargin (d : Dev) (t : Nat) : Int :=
  let h := d.twinHeat
  let m := d.marginOf h.1 h.2 (d.shutOf 0) t
  let vs := ((upto 11).filter d.sValid).map fun i => nth d.therm.subS i 0
  if !d.die.validG0 || vs.isEmpty then m else min m (d.marginOf (maxOf vs) (d.therm.rise d.therm.histS) (d.shutOf 1) t)

/-- The selection of the next tier in tick phase 253 (R62, R366). -/
def Dev.tierSelect (d : Dev) : Dev :=
  let cur := d.sched.tier.val
  let low := max d.sched.tierFloor (if d.therm.dieWarn then 1 else 0)
  let unit : Int := tierScale * 65536
  let need (t : Nat) : Int :=
    unit * ((d.fld 0xA8 0x54 31 24 : Int) + (if t < cur then (d.fld 0xA8 0x54 23 16 : Int) else 0))
  let t := ((upto 4).find? fun t => decide (low ≤ t) && decide (need t ≤ d.tierMargin t)).getD 3
  let d := d.updTherm fun x => { x with margin := clampI 0 255 (Config.rdiv 46 (d.tierMargin t) unit) }
  { d with sched := { d.sched with tierNext := Fin.ofNat 4 t } }

/-! ### Commands -/

/-- RATE_CHECK_ENABLE (R358). -/
def execRateCheckEnable (s : State) : Out :=
  done (fun d => if 64 ≤ d.time.frond then d.updTherm fun t => { t with rateEn := true } else d) s

/-- THERMAL_HOLD_END (R360). -/
def execThermalHoldEnd (n : Fin 64) (s : State) : Out :=
  done (fun d =>
    if (d.unit n.val).hold ∧ d.fld 0xA8 0x64 15 0 ≤ nth d.therm.holdN n.val 0 then
      d.updUnit n.val fun u => { u with hold := false }
    else d) s

/-- The wear-ring values held back are written in ring order (R367). -/
def Dev.nvFlush (d : Dev) : Dev :=
  let l := sortBy (fun a b => decide (a.1 ≤ b.1)) d.therm.nvWait
  (l.foldl (fun d p => d.ringWrite p.1 p.2) d).updTherm fun t => { t with nvWait := [] }

/-- WRITE_HOLD_END (R367): the deferred writes are made, unless VAUX_WARN still holds them. -/
def execWriteHoldEnd (s : State) : Out :=
  done (fun d =>
    if d.therm.hold ∧ d.therm.cool = 2 then
      let d := d.updTherm fun t => { t with hold := false }
      if d.sup.vauxWarn then d else d.nvFlush.bbuFlush
    else d) s

end Sys2Proof.Machine
end

