-- ==== Sys2Proof/Machine/Sensing.lean ====
section
/-! DEFINITION. The sensing front end: words of a tick, precision channels, reference, auxiliary sequencer, internal
monitors and calibration (spec/06). -/

namespace Sys2Proof.Machine

/-- Page of precision channel `c`. -/
def prePg (c : Nat) : Nat := 0x84 + c

def Dev.pre (d : Dev) (c : Nat) : PreCh := nth d.sense.pre c PreCh.reset
def Dev.updPre (d : Dev) (c : Nat) (f : PreCh → PreCh) : Dev :=
  { d with sense := { d.sense with pre := updAt d.sense.pre c f } }
def Dev.updRef (d : Dev) (f : RefSt → RefSt) : Dev := { d with sense := { d.sense with ref := f d.sense.ref } }
def Dev.updAux (d : Dev) (f : AuxSeq → AuxSeq) : Dev := { d with sense := { d.sense with aux := f d.sense.aux } }
def Dev.updCal (d : Dev) (f : CalSt → CalSt) : Dev := { d with sense := { d.sense with cal := f d.sense.cal } }

/-- "No valid sample" (R207). -/
def noSample : BitVec 16 := 0x8000#16

/-- The value of a control-path word in the signal format: shifted left by `sh` bits (R206). -/
def wordSig (w : BitVec 16) (sh : Nat) : Int := w.toInt * 2 ^ sh

/-- Shift of a precision channel: 16 − log2(1/LSB) (R206); PRE14, PRE15 and a spare that is not connected have 2^-15. -/
def preShift (c : Nat) : Nat :=
  if c < 4 then 5
  else if c = 4 ∨ c = 5 ∨ c = 7 then 7
  else if c = 6 ∨ c = 8 then 12
  else if c < 13 then 11
  else if c = 13 then 13
  else 1

/-- The spare code of cluster `k` in SENS_SUBST. -/
def CalSt.substOf (c : CalSt) (k : Nat) : Nat := nth c.subst k 8

/-- The window is that of a spare itself (R229). -/
def winIsSpare (w : Nat) : Bool := (decide (w < 72) && w % 9 == 8) || w == 88

/-- A modulator result with its trims: offset correction in 2^-20 of full scale added, then the gain correction in 2^-18, in 2^-38
of full scale (R206; PRE_CAL; log entry 87). -/
def trimmed (x : Int) (off gain : Nat) : Int := (x + signed 16 off) * (2 ^ 18 + signed 16 gain)

/-- An input overload has saturated the modulator (R207). -/
def overload (x : Int) : Bool := decide (2 ^ 20 ≤ x) || decide (x ≤ -(2 ^ 20))

/-- A scaled value as a word, and whether it lay outside the range of R206 (R207). -/
def rangeWord (v : Int) : BitVec 16 × Bool :=
  if 32767 < v then (0x7FFF#16, true) else if v < -32767 then (0x8001#16, true) else (BitVec.ofInt 16 v, false)

/-- The control-path word of phase-current modulator `m` (R206, R209): (V_IMON − V_IREF) / IMON_GAIN over an input range of ±1.25 V, in
1/256 A. -/
def Dev.phaseOf (d : Dev) (i : TickIn) (m : Nat) : BitVec 16 × Bool :=
  let x := nth i.phaseX m (2 ^ 20)
  let c := d.sense.cal
  if overload x then (noSample, false)
  else rangeWord (Config.rdiv 71 (trimmed x (nth c.phOff m 0) (nth c.phGain m 0) * 15625)
    (2 ^ 27 * (d.fld 0x80 0x40 10 0 : Int)))

/-- V_ref of the reference in use, signal format (R216): the VREFX level that die S monitors, or VANA_G0 by its monitor (log
entry 88). -/
def Dev.vrefAt (d : Dev) (mv : Nat) : Int :=
  match d.sense.ref.inUse with
  | 1 => Config.rdiv 70 ((mv : Int) * 65536) 1000
  | 2 => nth d.sense.intmon 14 0
  | _ => 163840

/-- A configuration register of a precision channel; those of PRE16 have no effect (R239). -/
def Dev.preReg (d : Dev) (p off : Nat) : Nat := if p = 16 then resetOf (prePg 16) off else d.reg (prePg p) off

/-- A modulator result in the unit of precision channel `p`, signal format, as a numerator over `den` (R206): the input range is
±V_ref / gain, SCALE has 8 fractional bits, and OFFSET is subtracted after scaling. `x` over `den` is the fraction of V_ref × 2^8. -/
def Dev.preScaled (d : Dev) (vref : Int) (p : Nat) (x den : Int) : Int :=
  x * vref * (d.preReg p 0x44 : Int) - signed 32 (d.preReg p 0x48) * den

/-- The divisor that belongs to a trimmed control-path result in 2^-38 of full scale. -/
def Dev.preDen (d : Dev) (p : Nat) : Int := 2 ^ (46 + bits (d.preReg p 0x40) 1 0)

/-- The control-path word of precision modulator `m` with the configuration of channel `p`: a spare uses that of the channel it is
connected to (R239). PRE14 and PRE15 are fractions of their full scale (R206). -/
def Dev.preOf (d : Dev) (i : TickIn) (m p : Nat) : BitVec 16 × Bool :=
  let x := nth i.preX m (2 ^ 20)
  let y := trimmed x (d.pre m).offTrim (d.pre m).gainTrim
  if overload x then (noSample, false)
  else if p = 14 ∨ p = 15 then rangeWord (Config.rdiv 72 y (2 ^ 23))
  else rangeWord (Config.rdiv 73 (d.preScaled (d.vrefAt i.vrefxMv) p y (d.preDen p)) (d.preDen p * 2 ^ preShift p))

/-- The channel that PRE16 is connected to: the one it substitutes for, or that of the window in progress. -/
def CalSt.spareFor (c : CalSt) : Option Nat :=
  if c.preSubst < 16 then some c.preSubst
  else if c.running && c.spareOn && decide (72 ≤ c.window) && decide (c.window < 88) then some (c.window - 72) else none

/-- In fronds 4 to 55 of its own window `w` a spare is disconnected, whatever it substitutes for (R229). -/
def CalSt.ownWindow (c : CalSt) (w : Nat) : Bool := c.running && c.window == w && decide (4 ≤ c.frond) && decide (c.frond ≤ 55)

/-- The word of modulator `9k + j` as the sense frame carries it (R229, R231): from the spare during a takeover or a
substitution, 0x8000 for a failed modulator without substitute or a spare that is not connected. -/
def Dev.phaseWord (d : Dev) (i : TickIn) (k j : Nat) : BitVec 16 × Bool :=
  let c := d.sense.cal
  let own := d.phaseOf i (9 * k + j)
  let spare := if c.ownWindow (9 * k + 8) then (noSample, false) else d.phaseOf i (9 * k + 8)
  if j = 8 then
    if c.substOf k < 8 ∨ (c.running ∧ c.spareOn ∧ c.window < 72 ∧ c.window / 9 = k) then spare else (noSample, false)
  else if c.substOf k = j then spare
  else if c.takeover ∧ c.window = 9 * k + j then spare
  else if nth c.failed (9 * k + j) false then (noSample, false)
  else own

/-- The word of precision channel `p` as the sense frame carries it. -/
def Dev.preWord (d : Dev) (i : TickIn) (p : Nat) : BitVec 16 × Bool :=
  let c := d.sense.cal
  let spare (q : Nat) : BitVec 16 × Bool := if c.ownWindow 88 then (noSample, false) else d.preOf i 16 q
  if p = 16 then
    match c.spareFor with
    | some q => spare q
    | none => (noSample, false)
  else if c.preSubst = p then spare p
  else if c.takeover ∧ c.window = 72 + p then spare p
  else if (d.pre p).failed then (noSample, false)
  else d.preOf i p p

/-- The word of a stage temperature (R211, R212): 0x8000 for V_TFLT below TFLT_FAULT or a temperature above 200 °C. A temperature below
the range of the word is taken as its lowest value (log entry 89). -/
def Dev.tempWord (d : Dev) (c : BitVec 12) : BitVec 16 :=
  let v : Int := (c.toNat : Int) * 2500
  let slope : Int := d.fld 0x80 0x44 10 0
  let t := v - (d.fld 0x80 0x44 21 11 : Int) * 4096
  if v < (d.fld 0x80 0x44 31 22 : Int) * 4096 then noSample
  else if 200 * 4096 * slope < t * 100 then noSample
  else (rangeWord (Config.rdiv 74 (t * 25) (16 * slope))).1

/-- The TFLT_LOW bits: each TFLT input below TFLT_FAULT (R213). -/
def Dev.tfltBits (d : Dev) (i : TickIn) : BitVec 64 :=
  BitVec.ofNat 64 ((upto 64).foldl (fun v n =>
    if nth i.tfltUv n 0 < 1000 * d.fld 0x80 0x44 31 22 then v + 2 ^ n else v) 0)

/-- What die S places in the sense frame of a tick (R206, R211, R213). -/
def Dev.sampleWords (d : Dev) (i : TickIn) : SenseWords :=
  ⟨(upto 72).map fun m => (d.phaseWord i (m / 9) (m % 9)).1, (upto 17).map fun p => (d.preWord i p).1,
    i.tempC.map d.tempWord, d.tfltBits i⟩

/-- Saturated words are counted, those of a valid region (R17, R207). -/
def Dev.countOver (d : Dev) (i : TickIn) : Dev :=
  let d := foldN 72 (fun d m =>
    if d.regionOk (m / 9) && (d.phaseWord i (m / 9) (m % 9)).2 then
      { d.occur 0x80 6 with sense := { d.sense with overN := satInc 65535 d.sense.overN } }
    else d) d
  foldN 17 (fun d c =>
    if d.die.validG0 && (d.preWord i c).2 then
      (d.occur (prePg c) 1).updPre c fun p => { p with overN := satInc 65535 p.overN }
    else d) d

/-- The phase-current word of a unit in a tick (R207, R208): an invalid word keeps the previous valid one. A tick in tri-state counts
as 0 A in the average of R111, in an invalid region too. -/
def Dev.unitSense (d : Dev) (x : SenseWords) (n : Nat) : Dev :=
  if !d.regionOk (n / 8) then d.updUnit n fun u => { u with hist := ((if u.triOn then 0 else u.cur) :: u.hist).take 32 }
  else
    let w := nth x.phase (n / 8 * 9 + n % 8) noSample
    let d := d.updUnit n fun u =>
      let u := if w = noSample then { u with valid := false, badRun := satInc 5 u.badRun }
               else { u with valid := true, badRun := 0, cur := wordSig w 8 }
      { u with hist := ((if u.triOn then 0 else u.cur) :: u.hist).take 32, flimNow := u.flim, flim := false }
    if (d.unit n).flimNow then d.occur (unitPg n) 2 else d

/-- TFLT_LOW in a tick (R119, R571): recorded when it appears, which includes its standing as the region becomes valid (R17); a member
leaves service. `prev` are the bits of the frame before, without those of a region that was invalid. -/
def Dev.tfltSense (d : Dev) (x : SenseWords) (prev : BitVec 64) (n : Nat) : Dev :=
  if d.regionOk (n / 8) && x.tflt.getLsbD n then
    let d := if prev.getLsbD n then d else d.occur (unitPg n) 1
    d.faultUnit n
  else d

/-- The TFLT_LOW bits of valid regions (R17). -/
def Dev.validTflt (d : Dev) (b : BitVec 64) : BitVec 64 :=
  b &&& BitVec.ofNat 64 ((upto 64).foldl (fun v n => if d.regionOk (n / 8) then v + 2 ^ n else v) 0)

/-- The word of a precision channel in a tick (R207, R208); that of the spare has the format of the channel it is connected to. -/
def Dev.preSense (d : Dev) (x : SenseWords) (c : Nat) : Dev :=
  if !d.die.validG0 then d
  else
    let w := nth x.pre c noSample
    let sh := preShift (if c = 16 then (d.sense.cal.spareFor).getD 16 else c)
    d.updPre c fun p =>
      if w = noSample then { p with badRun := if c = 16 then p.badRun else satInc 5 p.badRun }
      else
        let v := wordSig w sh
        { p with val := v, badRun := 0, invalid := false, acc := p.acc + v, accN := p.accN + 1 }

/-- VREFX outside 2.375 V to 2.625 V while it is selected (R219), and the reference unsettled for metrology (R215). -/
def Dev.refSense (d : Dev) (mv : Nat) : Dev :=
  let d := d.updRef fun r =>
    { r with badRun := if r.inUse = 1 ∧ (mv < 2375 ∨ 2625 < mv) then satInc 8 r.badRun else 0 }
  if d.sense.ref.settled then d
  else { d with sense := { d.sense with pre := d.sense.pre.map fun p => { p with refLow := true } } }

/-- One tick of the internal monitor cycle (R227): 64 ticks for each monitor, 32 of settling and 32 whose PRE15 words are summed. -/
def Dev.intTick (d : Dev) (x : SenseWords) : Dev :=
  let w := nth x.pre 15 noSample
  let low := !d.sense.ref.settled
  let bad := !d.die.validG0 || w == noSample
  let q := d.sense
  let pos := q.intPos % 64
  let acc := (if pos = 0 then 0 else q.intAcc) + (if pos < 32 then 0 else w.toInt)
  let lows := (if pos = 0 then false else q.intLow) || low
  let bads := (if pos = 0 then false else q.intBad) || (decide (32 ≤ pos) && bad)
  { d with sense := { q with
      intPos := (q.intPos + 1) % 1280, intAcc := acc, intLow := lows, intBad := bads,
      intDue := if pos = 63 then (if bads then none else some (q.intPos / 64, acc, lows)) else q.intDue } }

/-- The words of fronds 58 to 61 of a window, the channel's own and the spare's (R229). -/
def Dev.calDiff (d : Dev) (i : TickIn) : Dev :=
  let c := d.sense.cal
  let w := c.window
  if c.running && !c.idle && !c.restart && c.spareOn && decide (58 ≤ c.frond) && decide (c.frond ≤ 61) && !winIsSpare w then
    let own := (if w < 72 then d.phaseOf i w else d.preOf i (w - 72) (w - 72)).1
    let spare := (if w < 72 then d.phaseOf i (9 * (w / 9) + 8) else d.preOf i 16 (w - 72)).1
    if own = noSample ∨ spare = noSample then d
    else d.updCal fun c => { c with diffAcc := c.diffAcc + (own.toInt - spare.toInt), diffN := c.diffN + 1 }
  else d

/-- The precision channel whose open-wire test its window makes (R226). -/
def Dev.openTest (d : Dev) : Bool :=
  let c := d.sense.cal
  let ow := d.fld (prePg (c.window - 72)) 0x40 5 3
  decide (72 ≤ c.window) && decide (c.window < 88) && decide (1 ≤ ow) && decide (ow ≤ 4)

/-- The spare's words of fronds 48 to 51, without current, and 52 to 55, with the test current (R226). -/
def Dev.calOpen (d : Dev) (i : TickIn) : Dev :=
  let c := d.sense.cal
  let x := nth i.preX 16 (2 ^ 20)
  let y := trimmed x (d.pre 16).offTrim (d.pre 16).gainTrim
  if c.running && !c.idle && !c.restart && c.spareOn && d.openTest && !overload x then
    if 48 ≤ c.frond ∧ c.frond ≤ 51 then d.updCal fun c => { c with owA := c.owA + y, owAN := c.owAN + 1 }
    else if 52 ≤ c.frond ∧ c.frond ≤ 55 then d.updCal fun c => { c with owB := c.owB + y, owBN := c.owBN + 1 }
    else d
  else d

/-- The two averages differ by more than 1/8 of the input full scale, 2^38 in the unit of the words. -/
def CalSt.openFound (c : CalSt) : Bool :=
  c.owAN != 0 && c.owBN != 0 && decide (2 ^ 35 * c.owAN * c.owBN < (c.owB * c.owAN - c.owA * c.owBN).natAbs)

/-- IMON_INVALID (R208). -/
def execImonInvalid (n : Fin 64) (s : State) : Out :=
  done (fun d =>
    if 5 ≤ (d.unit n.val).badRun ∧ (d.unit n.val).imonInv = false then
      ((d.occur 0x80 4).updUnit n.val fun u => { u with imonInv := true }).faultUnit n.val
    else d) s

/-- PRE_INVALID (R208, R258): a rail whose remote sense is lost trips as for an under-voltage. -/
def execPreInvalid (c : Fin 17) (s : State) : Out :=
  done (fun d =>
    if c.val < 16 ∧ 5 ≤ (d.pre c.val).badRun ∧ (d.pre c.val).invalid = false then
      let d := (d.occur 0x80 5).updPre c.val fun p => { p with invalid := true }
      if c.val < 4 ∧ (d.rail c.val).st.switching then d.tripRail c.val 3 else d
    else d) s

/-- Six output periods of a MET_RATE code in ticks (R214); of a reserved code, which has no rate, a free value (log entry 4). -/
def metTicks (code : Nat) : Nat :=
  nth [1200000, 600000, 240000, 120000, 60000, 24000, 12000, 6000, 3000] code (Config.freeWord 7 code)

/-- METROLOGY_RESULT (R214, R215): a result of the 24-bit path, trimmed and scaled as the control path is; for a substituted channel
the spare's. PRE14 and PRE15 have no result registers (R204). -/
def execMetrologyResult (c : Fin 17) (raw : BitVec 24) (s : State) : Out :=
  done (fun d =>
    if c.val = 14 ∨ c.val = 15 then d
    else
      let sub := d.sense.cal.preSubst == c.val
      let q := if c.val = 16 then (d.sense.cal.spareFor).getD 16 else c.val
      let m := if sub then 16 else c.val
      let y := (raw.toInt + 8 * signed 16 (d.pre m).offTrim) * (2 ^ 18 + signed 16 (d.pre m).gainTrim)
      let mv := (d.die.sense.map TickIn.vrefxMv).getD 0
      let value := Config.rdiv 75 (d.preScaled (d.vrefAt mv) q y (8 * d.preDen q)) (8 * d.preDen q)
      let lim := 32767 * 2 ^ preShift q
      let out := decide (lim < value) || decide (value < -lim)
      let settled := d.sense.ref.settled
      let early := decide (d.now < (d.pre c.val).metSince + metTicks (bits (d.preReg q 0x40) 11 8))
      let d := d.updPre c.val fun p =>
        { p with met := sat32 value, metCount := (p.metCount + 1) % 65536, metUnset := early, metRef := p.refLow || !settled,
                 metOver := out, metSub := sub, refLow := !settled }
      if out then d.occur (prePg c.val) 1 else d) s

/-- REF_SETTLED (R218). -/
def execRefSettled (s : State) : Out :=
  done (fun d => if d.sense.ref.left = 0 then d.updRef fun r => { r with settled := true } else d) s

/-- A new reference takes effect: REF_SETTLED falls for REF_SETTLE fronds and rises at a frond boundary (R218): the boundary at which
a commit takes effect, or the end of the frond of a fallback, is not one of them. -/
def Dev.newRef (d : Dev) (sel : Nat) (fb : Bool) : Dev :=
  d.updRef fun _ => ⟨sel, false, d.fld 0x81 0x40 15 8 + 1, fb, 0⟩

/-- VREFX_FALLBACK (R219). -/
def execVrefxFallback (s : State) : Out :=
  done (fun d => if d.sense.ref.inUse = 1 ∧ 8 ≤ d.sense.ref.badRun then (d.newRef 0 true).occur 0x81 1 else d) s

/-! ### Auxiliary sequencer (R220 to R225) -/

def Dev.auxIn (d : Dev) (a : Nat) : AuxIn := nth d.sense.aux.inputs a AuxIn.reset

/-- The table entry `i` in force. -/
def Dev.auxEntry (d : Dev) (i : Nat) : Nat := d.reg 0x82 (0x100 + 4 * i)

/-- The entry asks for an open-wire test. -/
def owTest (e : Nat) : Bool := decide (1 ≤ bits e 24 22) && decide (bits e 24 22 ≤ 4)

/-- Ticks of a half of an entry's step. -/
def auxHalf (e : Nat) : Nat := bits e 21 14 + 32 * (bits e 13 10 + 1)

/-- Words averaged in a half. -/
def auxWords (e : Nat) : Nat := 32 * (bits e 13 10 + 1)

/-- Ticks of an entry's step (R220). -/
def auxTotal (e : Nat) : Nat := if owTest e then 2 * auxHalf e else auxHalf e

/-- The next step of the sequence begins. -/
def Dev.auxNext (d : Dev) : Dev :=
  let len := d.fld 0x82 0x40 8 0
  d.updAux fun q =>
    let wrap := decide (len ≤ q.entry + 1)
    { q with entry := if wrap then 0 else q.entry + 1, passes := if wrap then satInc 65535 q.passes else q.passes, pos := 0,
             acc1 := 0, acc2 := 0, bad := false, gap := false, refLow := false, due := false }

/-- One tick of the sequencer (R220, R221, R223): die S steps the multiplexer; an AUXS entry that fires takes the word. -/
def Dev.auxTick (d : Dev) (w : BitVec 16) (fired : Bool) : Dev :=
  let d := if d.sense.aux.due then d.auxNext else d
  if d.fld 0x82 0x40 8 0 = 0 then d
  else
    let e := d.auxEntry d.sense.aux.entry
    let settled := d.sense.ref.settled
    d.updAux fun q =>
      let take := decide (bits e 21 14 ≤ q.pos % auxHalf e)
      let first := decide (q.pos < auxHalf e)
      let v := if w = noSample then 0 else w.toInt
      { q with acc1 := if take && first then q.acc1 + v else q.acc1, acc2 := if take && !first then q.acc2 + v else q.acc2,
               bad := q.bad || (take && w == noSample), gap := q.gap || (take && !fired), refLow := q.refLow || !settled,
               pos := q.pos + 1, due := decide (auxTotal e ≤ q.pos + 1) }

/-- V_ref of the reference in use (R216). -/
def Dev.vref (d : Dev) : Int := d.vrefAt ((d.die.sense.map TickIn.vrefxMv).getD 0)

/-- AUX_STEP_DONE (R220, R222 to R225). -/
def execAuxStepDone (s : State) : Out :=
  done (fun d =>
    let q := d.sense.aux
    if !q.due then d
    else if q.gap then d.auxNext
    else
      let e := d.auxEntry q.entry
      let a := bits e 4 0
      let n : Int := auxWords e
      let g := bits e 9 8
      let vfs := Config.rdiv 8 d.vref (2 ^ g)
      let res := Config.rdiv 9 (q.acc1 * vfs) (n * 32768)
      let out := decide (q.acc1 * 1000 < -5 * n * 32768) || decide (1005 * n * 32768 < q.acc1 * 1000)
      let diff := if q.acc1 < q.acc2 then q.acc2 - q.acc1 else q.acc1 - q.acc2
      let opn := owTest e && decide ((d.fld 0x82 0x40 31 24 : Int) * n * 32768 * 65536 < diff * vfs * 100)
      let d := d.updAux fun q =>
        { q with inputs := updAt q.inputs a fun x =>
            { x with res := res, entry := q.entry, gain := g, age := 0, stale := false, overF := out,
                     openWire := if owTest e then opn else x.openWire, badWord := q.bad, unsettled := q.refLow, full := vfs } }
      let d := if opn then d.occur 0x82 0 else d
      let d := if out then d.occur 0x82 1 else d
      d.auxNext.auxDone a) s

/-- An auxiliary result is INVALID (R224). -/
def AuxIn.invalid (x : AuxIn) : Bool := x.openWire || x.badWord || x.overF || x.stale

/-- AUX_STALE (R223): the input's result is older than AUX_STALE fronds. -/
def execAuxStale (a : Fin 32) (s : State) : Out :=
  done (fun d =>
    let x := d.auxIn a.val
    if x.full ≠ 0 ∧ x.stale = false ∧ d.fld 0x82 0x40 23 16 < x.age then
      (d.updAux fun q => { q with inputs := updAt q.inputs a.val fun x => { x with stale := true } }).occur 0x82 2
    else d) s

/-- INTMON_RESULT (R227): the conversion of monitor `i` is complete; die S scales the average of its words to its unit. -/
def execIntmonResult (i : Fin 20) (s : State) : Out :=
  done (fun d =>
    match d.sense.intDue with
    | some (k, sum, low) =>
      if k = i.val then
        let value := Config.monitorScale k sum d.vref
        { d with sense := { d.sense with
            intDue := none, intmon := updAt d.sense.intmon k fun _ => value,
            intUns := updAt d.sense.intUns k fun _ => low } }.intmonDone k
      else d
    | none => d) s

/-! ### Calibration (R228 to R234) -/

/-- The cluster of a window's modulator, for windows 0 to 71. -/
def winCluster (w : Nat) : Nat := w / 9

/-- The unit a window serves. -/
def winUnit (w : Nat) : Nat := 8 * (w / 9) + w % 9

/-- The spare of a window's channel is available (R232). -/
def CalSt.spareFree (c : CalSt) (w : Nat) : Bool :=
  if w < 72 then c.substOf (winCluster w) == 8 else c.preSubst == 0x1F && !c.preFailed

/-- A phase-current window without a spare may run: the unit's rail keeps enough usable units (R232). -/
def Dev.windowOk (d : Dev) (w : Nat) : Bool :=
  let n := winUnit w
  match d.memberOf n with
  | none => true
  | some r =>
    let th := (d.fld (unitPg n) 0x40 23 16 : Int) * 2 ^ 15
    let rest : Int := ((d.usableOf r).filter (· != n)).length
    let load := (d.rail r).ir + d.ledgerM r
    decide (load ≤ th * (rest - 1))

/-- CAL_WINDOW_START (R228, R232). -/
def execCalWindowStart (s : State) : Out :=
  done (fun d =>
    let c := d.sense.cal
    if !c.due then d
    else
      let w := c.window
      let d := d.updCal fun c =>
        { c with due := false, running := true, frond := 0, takeover := false, idle := false, testFail := false,
                 measured := false, spareOn := false, restart := false, diffAcc := 0, diffN := 0, owA := 0, owAN := 0, owB := 0,
                 owBN := 0 }
      if winIsSpare w then d
      else if c.spareFree w then d.updCal fun c => { c with spareOn := true }
      else if w < 72 ∧ d.windowOk w = true then d
      else
        (d.updCal fun c => { c with idle := true, deferCount := satInc 65535 c.deferCount, deferLast := w }).occur 0x80 3) s

/-- CAL_TAKEOVER (R229, R232): from frond 4 the spare carries the channel; without a spare the unit leaves service. -/
def execCalTakeover (s : State) : Out :=
  done (fun d =>
    let c := d.sense.cal
    if c.running && c.frond == 4 && !c.idle && !c.restart && !winIsSpare c.window then
      if c.spareOn then d.updCal fun c => { c with takeover := true }
      else if c.window < 72 then
        (d.updCal fun c => { c with unitOut := true }).updUnit (winUnit c.window) fun u =>
          if u.st = .active ∨ u.st = .marked ∨ u.st = .ramp then u.to .idle true else u
      else d
    else d) s

/-- A modulator's measurements fail the self-test (R230). -/
def calFails (m : CalMeas) : Bool :=
  decide (5 * 2 ^ 20 < 1000 * m.offsetErr.natAbs) || decide (2 ^ 20 < 100 * m.gainErr.natAbs) || decide (64 < m.noise)

/-- CAL_RECONNECT (R226, R229, R230): the modulator returns to its input with its new trims, unless it failed. -/
def execCalReconnect (m : CalMeas) (s : State) : Out :=
  done (fun d =>
    let c := d.sense.cal
    if c.running && c.frond == 56 && !c.idle && !c.restart then
      let bad := calFails m
      let d := d.updCal fun c => { c with testFail := bad, measured := true, diffAcc := 0, diffN := 0 }
      let d := if bad then d.occur 0x80 0 else d
      if 72 ≤ c.window then
        let p := c.window - 72
        let ch := d.pre p
        let d := d.updCal fun c => { c with oldGain := ch.gainTrim, oldOff := ch.offTrim }
        let test := d.openTest
        let opn := test && c.openFound
        let d := d.updPre p fun q =>
          { q with gainTrim := if bad then q.gainTrim else m.gainTrim.toNat,
                   offTrim := if bad then q.offTrim else m.offTrim.toNat,
                   openWire := if test then opn else q.openWire }
        if opn then d.occur (prePg p) 0 else d
      else
        d.updCal fun c =>
          { c with oldGain := nth c.phGain c.window 0, oldOff := nth c.phOff c.window 0,
                   phGain := if bad then c.phGain else updAt c.phGain c.window fun _ => m.gainTrim.toNat,
                   phOff := if bad then c.phOff else updAt c.phOff c.window fun _ => m.offTrim.toNat }
    else d) s

/-- The channel's modulator keeps the trims it had before the window (R230, R234). -/
def Dev.oldTrims (d : Dev) : Dev :=
  let c := d.sense.cal
  if !c.measured then d
  else if 72 ≤ c.window then d.updPre (c.window - 72) fun q => { q with gainTrim := c.oldGain, offTrim := c.oldOff }
  else d.updCal fun c =>
    { c with phGain := updAt c.phGain c.window fun _ => c.oldGain, phOff := updAt c.phOff c.window fun _ => c.oldOff }

/-- The mean difference of fronds 58 to 61 exceeds CMP_TH, in 1/4,096 of the full scale of the word, 8 steps of it (R229, R230, log
entry 90). -/
def Dev.cmpFails (d : Dev) : Bool :=
  let c := d.sense.cal
  decide (8 * d.fld 0x80 0x48 15 8 * c.diffN < c.diffAcc.natAbs)

/-- CAL_RETURN (R229 to R232): the channel's own word returns, or the spare substitutes, or the modulator is out. A spare that fails
while it substitutes goes on doing so: a substitution lasts until reset (R231). -/
def execCalReturn (s : State) : Out :=
  done (fun d =>
    let c := d.sense.cal
    if c.running && c.frond == 62 && !c.idle && !c.restart then
      let w := c.window
      let cmp := !winIsSpare w && !c.unitOut && d.cmpFails
      let bad := c.testFail || cmp
      let d := if cmp && !c.testFail then (d.occur 0x80 0).oldTrims else d
      let d := d.updCal fun c => { c with takeover := false, unitOut := false }
      if !bad then d
      else if winIsSpare w then
        (d.updCal fun c =>
          if w < 72 then { c with subst := updAt c.subst (winCluster w) fun x => if x < 8 then x else 9 } else { c with preFailed := true }).occur 0x80 2
      else if c.spareOn then
        (d.updCal fun c =>
          if w < 72 then { c with subst := updAt c.subst (winCluster w) fun _ => w % 9 }
          else { c with preSubst := w - 72 }).occur 0x80 1
      else if w < 72 then d.updCal fun c => { c with failed := updAt c.failed w fun _ => true }
      else (d.updPre (w - 72) fun q => { q with failed := true }).occur (prePg (w - 72)) 2
    else d) s

/-- CAL_DISCONNECT (R229): the spare is disconnected; a substituting spare stays with its channel. -/
def execCalDisconnect (s : State) : Out :=
  done (fun d =>
    if d.sense.cal.running && d.sense.cal.frond == 63 then d.updCal fun c => { c with spareOn := false } else d) s

/-- The condition under which a stopped window restarts (R234). -/
def Dev.calReady (d : Dev) : Bool :=
  let w := d.sense.cal.window
  if w < 72 then d.regionOk (winCluster w) && decide (2 ≤ (d.cluster (winCluster w)).goodFronds)
  else d.sense.ref.settled && d.die.validG0 && decide (2 ≤ (d.cluster 0).goodFronds)

/-- CAL_WINDOW_RESTART (R234): from frond 0; a takeover in force continues. -/
def execCalWindowRestart (s : State) : Out :=
  done (fun d =>
    if d.sense.cal.restart && d.calReady then
      d.updCal fun c =>
        { c with restart := false, frond := 0, testFail := false, measured := false, diffAcc := 0, diffN := 0, owA := 0, owAN := 0,
                 owB := 0, owBN := 0 }
    else d) s

/-- Events of a tick that stop a window (R234): REF_SETTLED low in a precision window, or its region invalid, which also discards the
measurements, in a window that waits for its restart too. -/
def Dev.calTick (d : Dev) : Dev :=
  let c := d.sense.cal
  if c.running && !c.idle then
    let gone := if c.window < 72 then !d.regionOk (winCluster c.window) else !d.die.validG0
    let stop := gone || (decide (72 ≤ c.window) && !d.sense.ref.settled)
    let d := if gone then d.oldTrims else d
    if stop then d.updCal fun c => { c with restart := true } else d
  else d

/-- The rotation at a frond boundary (R228, R233): the window in progress advances; after its 64 fronds the next is due. -/
def Dev.calBoundary (d : Dev) : Dev :=
  let en := d.flag 0x80 0x48 31
  d.updCal fun c =>
    if c.running then
      if c.restart then c
      else if c.frond < 63 then { c with frond := c.frond + 1 }
      else
        let next := (c.back.getD c.window + (if c.back.isSome then 0 else 1)) % 89
        let rot := if c.back.isNone ∧ c.window = 88 then satInc 65535 c.rotations else c.rotations
        match c.now with
        | some w => { c with running := false, frond := 0, window := w, back := some next, now := none, due := true, rotations := rot }
        | none => { c with running := false, frond := 0, window := next, back := none, due := en, rotations := rot }
    else if c.due then c
    else
      match c.now with
      | some w => { c with window := w, back := some c.window, now := none, due := true }
      | none => { c with due := en }

/-- A write to SENS_CAL_NOW (R233); windows above 88 are ignored. -/
def Dev.calNow (d : Dev) (v : Nat) : Dev :=
  if bitAt v 7 ∧ bits v 6 0 ≤ 88 then d.updCal fun c => { c with now := some (bits v 6 0) } else d

/-- SENS_CAL_NOW. -/
def execSensCalNow (v : Word32) (s : State) : Out := done (fun d => d.calNow v.toNat) s

end Sys2Proof.Machine
end

