-- ==== Sys2Proof/Machine/Work.lean ====
section
/-! DEFINITION. Accepted work: sources, outcomes, the journal, the queue and the completion ring (R310 to R323). -/

namespace Sys2Proof.Machine

/-- Two lists of bytes of a record for the two twins (R316): they differ in the ROLE byte. -/
def Dev.journalRec (d : Dev) (t : Twin) (kind src seq : Nat) (payload : List Byte) : List Byte :=
  with32 (leBytes 4 d.jrn.next ++ leBytes 2 src ++ leBytes 2 seq ++ [BitVec.ofNat 8 kind, BitVec.ofNat 8 d.jrn.boot,
    BitVec.ofNat 8 (twinIdx t + 2 * d.isActiveN t), BitVec.ofNat 8 payload.length] ++ leBytes 3 d.time.tseq ++ [0#8] ++
    padTo 44 payload)

/-- A journal record in its place of the ring of 2,048 (R315, R316). -/
def Dev.journal (d : Dev) (kind src seq : Nat) (payload : List Byte) : Dev :=
  let d' := d.nvPut2 (0x300000 + 64 * (d.jrn.next % 2048)) (d.journalRec .a kind src seq payload)
    (d.journalRec .b kind src seq payload)
  d'.updJrn fun j => { j with next := (j.next + 1) % 2 ^ 32 }

/-! ### Sources (R311, R312) -/

/-- The slot of a source in the table. -/
def Dev.srcSlot (d : Dev) (id : Nat) : Option Nat :=
  firstN 32 fun i => match nth d.jrn.sources i none with
    | some x => x.id == id
    | none => false

def Dev.source (d : Dev) (id : Nat) : Option Source := (d.srcSlot id).bind fun i => nth d.jrn.sources i none

/-- The record of a source in the source table (R311): SRC_ID, H, the ACT bit, JRN_NEXT at the write, and for each sequence, by its low
eight bits, its status and result; status 0xFF is one in flight. The layout is the model's (log entry 36). -/
def Source.bytes (x : Source) (next act : Nat) : List Byte :=
  let entry (i : Nat) : List Byte :=
    if x.flight.any fun q => q % 256 == i then [0xFF, 0, 0, 0]
    else match x.done.find? fun e => e.1 % 256 == i with
      | some e => leBytes 2 (e.2.1 % 256) ++ leBytes 2 e.2.2
      | none => [0, 0, 0, 0]
  with32 (padTo 1276 (leBytes 2 x.id ++ leBytes 2 x.h ++ [1, BitVec.ofNat 8 act, 0, 0] ++ leBytes 4 next ++ leBytes 4 0 ++
    (upto 256).flatMap entry))

/-- Slot `i` of the source table is written in both twins' MRAM (R371). -/
def Dev.putSource (d : Dev) (i : Nat) : Dev :=
  match nth d.jrn.sources i none with
  | none => d
  | some x => d.nvPut2 (0x324000 + 1280 * i) (x.bytes d.jrn.next (d.isActiveN .a)) (x.bytes d.jrn.next (d.isActiveN .b))

/-- The entry of a source is rewritten, in MRAM too. -/
def Dev.updSource (d : Dev) (id : Nat) (f : Source → Source) : Dev :=
  match d.srcSlot id with
  | none => d
  | some i => (d.updJrn fun j => { j with sources := updAt j.sources i fun x => x.map f }).putSource i

/-- The slot an OPEN of a new source takes: a free one, or that of the source whose last item is oldest, where it is idle for
7,813 fronds and has nothing in flight (R312). -/
def Dev.openSlot (d : Dev) : Option Nat :=
  match firstN 32 fun i => (nth d.jrn.sources i none).isNone with
  | some i => some i
  | none =>
    let last (i : Nat) : Int := ((nth d.jrn.sources i none).map Source.last).getD 0
    let old := (upto 32).foldl (fun k i => if last i < last k then i else k) 0
    match nth d.jrn.sources old none with
    | some x => if x.flight.isEmpty ∧ x.last + 7813 * 256 ≤ d.now then some old else none
    | none => some old

/-! ### Outcomes (R313) -/

/-- Items accepted and not completed. -/
def Dev.pendingItems (d : Dev) : Nat := d.jrn.queue.length

/-- The ring has no entry left to reserve (R319). -/
def Dev.ringFull (d : Dev) : Bool := decide (128 ≤ d.jrn.held + d.pendingItems)

/-- A refusal: counted, with the bit of R326 that its code sets. -/
def Dev.refuseItem (d : Dev) (code : Nat) : Dev :=
  let d := d.updJrn fun j => { j with refused := inc16 j.refused, lastCode := code }
  if code = 0x10 ∨ code = 0x11 then d.occur 0xA1 4
  else if code = 0x14 then d.occur 0xA1 0
  else if code = 0x13 then d.occur 0xA1 3
  else if code = 0x16 then d.occur 0xA1 5
  else d

/-- What an outcome tells its sender: code, status and result of DUP_DONE, ring index. -/
structure Verdict where
  code : Nat
  status : Nat
  result : Nat
  index : Nat
deriving DecidableEq, Repr

def Verdict.plain (code : Nat) : Verdict := ⟨code, 0, 0, 0xFF⟩

/-- The staged crust value, 96 bytes (R392). -/
def Dev.crustStage (d : Dev) : List Byte := (upto 24).flatMap fun i => leBytes 4 (d.reg 0xB2 (0x100 + 4 * i))

/-- An item is accepted (R313, R315, R319): the stage of a CRUST_WRITE is copied, the record journaled, a ring entry reserved
and the item queued. -/
def Dev.acceptItem (d : Dev) (src seq code : Nat) (args : List Byte) (fabric : Bool) : Dev × Verdict :=
  let slot := (d.jrn.compWr + d.pendingItems) % 128
  let d := if code = 7 ∧ !fabric then d.nvPut (0x390000 + 128 * slot) (padTo 128 d.crustStage) else d
  let item : WorkItem := { jseq := d.jrn.next, src := src, seq := seq, code := code, args := args, slot := slot,
                           tick := d.now, fabric := fabric, exec := false, started := false, replay := false,
                           timed := none,
                           result := if code = 0 then some (1, 0) else none }
  let kind := if code = 0 then 4 else if fabric then 2 else 1
  let d := d.journal kind src seq (BitVec.ofNat 8 code :: args)
  let d := d.updJrn fun j => { j with queue := j.queue ++ [item], accepted := inc16 j.accepted }
  let d := d.updSource src fun x => { x with h := seq, flight := x.flight ++ [seq], last := d.now }
  (d, ⟨0, 0, 0, slot⟩)

/-- The device takes no new item: VAUX_WARN or a write hold, or the ring is full. -/
def Dev.closed (d : Dev) : Option Nat := if d.nvHeld then some 0x16 else if d.ringFull then some 0x14 else none

/-- The outcome of a sequenced item (R313); a sequence of the window that was never accepted is SEQ_OLD (log entry 19). -/
def Dev.decideItem (d : Dev) (src seq code : Nat) (args : List Byte) (fabric : Bool) : Dev × Verdict :=
  let no (c : Nat) : Dev × Verdict := (d.refuseItem c, .plain c)
  match d.source src with
  | none => no 0x12
  | some x =>
    let k := (seq + 65536 - x.h) % 65536
    if k = 0 ∨ 65281 ≤ k then
      let dup := d.updJrn fun j => { j with duplicate := inc16 j.duplicate }
      match x.done.find? fun e => e.1 == seq with
      | some e => (dup, ⟨1, e.2.1, e.2.2, 0xFF⟩)
      | none => if x.flight.contains seq then (dup, .plain 2) else no 0x11
    else if k = 1 then
      match d.closed with
      | some c => no c
      | none => d.acceptItem src seq code args fabric
    else if k ≤ 32768 then no 0x10
    else no 0x11

/-- The outcome of an OPEN (R312); the refusals for VAUX_WARN and a full ring come first (log entry 20). -/
def Dev.decideOpen (d : Dev) (src seq : Nat) (fabric : Bool) : Dev × Verdict :=
  let no (c : Nat) : Dev × Verdict := (d.refuseItem c, .plain c)
  let fresh : Source := ⟨src, seq, [], [], d.now⟩
  match d.closed with
  | some c => no c
  | none =>
    match d.source src with
    | some x =>
      if x.flight.isEmpty then (d.updSource src fun _ => fresh).acceptItem src seq 0 [] fabric else no 0x15
    | none =>
      match d.openSlot with
      | none => no 0x13
      | some i =>
        (d.updJrn fun j => { j with sources := updAt j.sources i fun _ => some fresh }).acceptItem src seq 0 [] fabric

/-- An item of either kind: code 0 is OPEN. -/
def Dev.decideAny (d : Dev) (src seq code : Nat) (args : List Byte) (fabric : Bool) : Dev × Verdict :=
  if code = 0 then d.decideOpen src seq fabric else d.decideItem src seq code args fabric

/-! ### Execution and completion (R314, R319, R321) -/

/-- The item at the head of the queue. -/
def Dev.head (d : Dev) : Option WorkItem := d.jrn.queue.head?

/-- Rewrites the head of the queue. -/
def Dev.updHead (d : Dev) (f : WorkItem → WorkItem) : Dev :=
  d.updJrn fun j => { j with queue := updAt j.queue 0 f }

/-- The head's execution has ended with a status and a result. -/
def Dev.endItem (d : Dev) (status result : Nat) : Dev := d.updHead fun w => { w with result := some (status, result) }

/-- DONE and FAILED (R319). -/
def stDone : Nat := 1
def stFailed : Nat := 2

/-- Executes `f` on the head item where it is a command of code `code` that has not begun. -/
def Dev.execHead (d : Dev) (code : Nat) (f : Dev → WorkItem → Dev) : Dev :=
  match d.head with
  | none => d
  | some w => if w.code = code ∧ w.result.isNone ∧ !w.started ∧ w.timed.isNone then f d w else d

/-- The head waits for a slow operation. -/
def Dev.startItem (d : Dev) : Dev := d.updHead fun w => { w with started := true }

/-- The EXEC marker before the first irreversible step of a class C item (R321). -/
def Dev.execMark (d : Dev) (w : WorkItem) : Dev :=
  if w.exec then d
  else (d.journal 3 w.src w.seq (leBytes 4 w.jseq)).updHead fun w => { w with exec := true }

/-- The head where it has begun and is of code `code`. -/
def Dev.inProgress (d : Dev) (code : Nat) : Bool :=
  match d.head with
  | none => false
  | some w => decide (w.code = code) && w.started && w.result.isNone

/-- UPD_STATE changes: bit 2 of both Host Notify summaries is set (R421, R513). -/
def Dev.setUpd (d : Dev) (st : UpdState) : Dev :=
  if d.upd.st = st then d
  else
    let d := d.updUpd fun u => { u with st := st }
    foldN 2 (fun d n => if d.flag (0xB8 + n) 0x40 1 then d.updTwT n fun t => { t with hnPend := t.hnPend ||| 4 } else d) d
/-- A CONFIRM ends (R509): the old settings bank is released and the state is IDLE. -/
def Dev.confirmOver (d : Dev) : Dev :=
  (d.updUpd fun u => { u with sections := [], running := false, left := 0, newVerified := false }).setUpd .idle
/-- A crust change of a CONFIRM is refused or torn (R509): the changes before it stand and the state still becomes IDLE. -/
def Dev.confirmFail (d : Dev) (item : Nat) : Dev := d.confirmOver.endItem stFailed (0x100 + item)

/-! ### Changes of the crust (R395, R397) -/

/-- The changes of a crust item. -/
def Dev.crustChanges (d : Dev) (i : Nat) : List CrustChange := nth d.crust.items i []
/-- Changes spent, torn ones included. -/
def Dev.crustUsed (d : Dev) (i : Nat) : Nat := (d.crustChanges i).length
/-- Frozen under R397. -/
def Dev.crustFrozen (d : Dev) (i : Nat) : Bool := decide (crustBudget i ≤ d.crustUsed i)

/-- FROZEN where a change has spent the last unit of an item's budget (R397). -/
def Dev.crustSpent (d : Dev) (i : Nat) : Dev := if d.crustFrozen i then d.occur 0xB2 4 else d

/-- The change of job `j`, which stands in the crust, is torn (R395): the command that made it ends. -/
def Dev.crustTorn (d : Dev) (j : CrustJob) : Dev :=
  let d := (d.occur 0xB2 2).crustSpent j.item
  if d.inProgress 7 then d.endItem stFailed 6
  else if d.inProgress 0x24 then d.confirmFail j.item
  else d

/-- A completion entry (R319). -/
def Dev.compEntry (d : Dev) (w : WorkItem) (status result : Nat) : List Byte :=
  with16 (leBytes 4 w.jseq ++ leBytes 2 w.src ++ leBytes 2 w.seq ++ [BitVec.ofNat 8 status, BitVec.ofNat 8 d.jrn.boot] ++
    leBytes 2 result ++ leBytes 2 (d.frondNo % 65536))

/-- The status an item completes with: DONE becomes DONE_AFTER_RESET in the boot replay (R321). -/
def WorkItem.finalStatus (w : WorkItem) (st : Nat) : Nat := if w.replay ∧ st = stDone then 5 else st

/-- ITEM_COMPLETION (R319): the entry is written, held, and stored for the sequence; a completion for a target port's source
sets its Host Notify bit (R421). While non-volatile writes wait, so does the completion (R347, R367). -/
def Dev.completeHead (d : Dev) : Dev :=
  if d.nvHeld then d
  else match d.head with
  | none => d
  | some w =>
    match w.result with
    | none => d
    | some (st0, res) =>
      let st := w.finalStatus st0
      let d := d.nvPut (0x322000 + 16 * w.slot) (d.compEntry w st res)
      let d := d.updJrn fun j =>
        { j with queue := j.queue.drop 1, compWr := (w.slot + 1) % 128, held := j.held + 1,
                 itemsFailed := if st = 4 then inc16 j.itemsFailed else j.itemsFailed,
                 replayDone := j.replayDone || (w.replay && !(j.queue.drop 1).any WorkItem.replay) }
      let d := d.updSource w.src fun x =>
        { x with flight := x.flight.filter (· != w.seq), done := ((w.seq, st, res) :: x.done).take 256 }
      let d := if st = 3 ∨ st = 4 then d.occur 0xA1 1 else d
      let port := w.src / 4096
      if port = 1 ∨ port = 2 then
        d.updTwT (port - 1) fun t => if d.flag (0xB7 + port) 0x40 1 then { t with hnPend := t.hnPend ||| 2 } else t
      else d

/-- COMP_RD (R319): moves the oldest held index within the held range. -/
def Dev.moveCompRd (d : Dev) (v : Nat) : Dev :=
  let i := v % 128
  let k := (i + 128 - d.jrn.compRd) % 128
  if k ≤ d.jrn.held then d.updJrn fun j => { j with compRd := i, held := j.held - k } else d

/-- COMP_RD (R319): accepted through the register window. -/
def execCompRd (v : Word32) (s : State) : Out := done (fun d => d.moveCompRd v.toNat) s

/-- An item of the replay waits: no new item is accepted before it (R321, R350). -/
def Dev.replaying (d : Dev) : Bool := d.jrn.queue.any WorkItem.replay

/-- OPEN (R312): it waits in die S during a management pause (R507) and while the replay goes on. -/
def execOpenItem (src seq : Nat) (s : State) : Out :=
  done (fun d =>
    if d.upd.pause || d.replaying then d.updUpd fun u => { u with held := u.held ++ [.opening src seq] }
    else (d.decideOpen src seq (decide (src / 4096 = 3))).1) s

end Sys2Proof.Machine
end

