-- ==== Sys2Proof/Machine/Mieno.lean ====
section
/-! DEFINITION. The Mieno fabric: frames, forwarding, duplicate windows, members, Mieno time and its steering
(R432 to R446). -/

namespace Sys2Proof.Machine

def miePg : Nat := 0xC0
def rowPg : Nat := 0xC1
def mtPg : Nat := 0xC2

def Dev.mport (d : Dev) : MPort → MiePort
  | .me => d.mie.me
  | .mw => d.mie.mw

def Dev.updMp (d : Dev) (p : MPort) (f : MiePort → MiePort) : Dev :=
  match p with
  | .me => d.updMie fun m => { m with me := f m.me }
  | .mw => d.updMie fun m => { m with mw := f m.mw }

def otherMp : MPort → MPort
  | .me => .mw
  | .mw => .me

def mpIdx : MPort → Nat
  | .me => 0
  | .mw => 1

/-- The Mieno identity of the device (R440). -/
def Dev.rowId (d : Dev) : Nat := leNat (d.crustVal 0) % 1024
/-- ROW_ROLE. -/
def Dev.rowRole (d : Dev) (i : Nat) : Bool := bitAt (leNat (d.crustVal 13)) i
/-- SHELF_MAX and SHELF_FLOOR, kW in signal format. -/
def Dev.shelfMax (d : Dev) : Int := signed 32 (leNat (d.crustVal 3))
def Dev.shelfFloor (d : Dev) : Int := signed 32 (leNat (d.crustVal 4))

/-- A power in 1/16 kW, signal format. -/
def sixteenth (n : Nat) : Int := (n : Int) * 4096

/-- A power of signal format in 1/16 kW, 16 bits. -/
def toSixteenth (site : Nat) (x : Int) : Nat := (clampI 0 0xFFFF (Config.rdiv site x 4096)).toNat

/-! ### Frames originated (R435, R437) -/

/-- A frame of this device: it takes the next FSEQ, RESTART on the first 16, and leaves on `ports`, RING to match. `rx` is the
receive instant of the frame that it answers. -/
def Dev.originateFor (d : Dev) (rx : Option Int) (ports : List MPort) (kind : Nat) (bcast link : Bool) (dst : Nat) (payload : List Byte) :
    Dev :=
  let m := d.mie
  let mk (p : MPort) : MFrame :=
    { kind := kind, format := 1, ring := mpIdx p, bcast := bcast, link := link, restart := decide (m.restartN < 16),
      src := d.rowId, dst := dst, fseq := m.fseq, hops := 1023, payload := payload, crc := 0 }
  let d := d.updMie fun m => { m with fseq := (m.fseq + 1) % 65536, restartN := satInc 16 m.restartN }
  ports.foldl (fun d p => d.updMp p fun q =>
    if kind = 3 then { q with timeQ := q.timeQ ++ [⟨mk p, true, rx⟩] }
    else { q with ownQ := q.ownQ ++ [⟨mk p, true, rx⟩] }) d

/-- A frame that answers none. -/
def Dev.originate (d : Dev) (ports : List MPort) (kind : Nat) (bcast link : Bool) (dst : Nat) (payload : List Byte) : Dev :=
  d.originateFor none ports kind bcast link dst payload

def Dev.broadcast (d : Dev) (kind : Nat) (payload : List Byte) : Dev := d.originate [.me, .mw] kind true false 0 payload
def Dev.unicast (d : Dev) (kind dst : Nat) (payload : List Byte) : Dev := d.originate [.me, .mw] kind false false dst payload

/-! ### Output ports: sending in a tick (R437) -/

/-- Bytes of a frame on the wire. -/
def wireLen (f : MFrame) : Nat := 22 + f.payload.length

/-- The link delay in use on a port: the mean of its last 16 measurements (R434). -/
def MiePort.delay (q : MiePort) : Int :=
  if q.delays.isEmpty then 0 else Config.rdiv 50 (q.delays.foldl (· + ·) 0) q.delays.length

/-- What leaves of a frame whose sending begins at own time `t`, without its CRC: an originated TIME frame carries the time, one in
transit its residence time in CORR (R443). -/
def stampFrame (x : TxFrame) (t : Int) : MFrame :=
  if x.f.kind ≠ 3 then x.f
  else if x.own then
    { x.f with payload := putField x.f.payload 0 (leBytes 8 (unsigned 64 (t / 65536))) }
  else match x.rx with
    | none => x.f
    | some r =>
      let corr := signed 64 (leNat ((x.f.payload.drop 8).take 8)) + (t - r)
      { x.f with payload := putField x.f.payload 8 (leBytes 8 (unsigned 64 corr)) }

/-- The next frame of a port: TIME frames first, then transit, then the device's own. -/
def MiePort.nextTx (q : MiePort) : Option (TxFrame × MiePort) :=
  match q.timeQ, q.transitQ, q.ownQ with
  | x :: l, _, _ => some (x, { q with timeQ := l })
  | [], x :: l, _ => some (x, { q with transitQ := l })
  | [], [], x :: l => some (x, { q with ownQ := l })
  | [], [], [] => none

/-- The send time of a LINK request is the stamp t1 of its exchange (R434). -/
def MiePort.stampLink (q : MiePort) (x : TxFrame) (t : Int) : MiePort :=
  if x.f.kind = 0xB ∧ x.own ∧ x.rx = none then { q with linkT1 := some t } else q

/-- A port sends for the rest of a tick: `left` units of 4 ns, a byte takes two (R432). -/
def MiePort.send (t0 : Int) : Nat → Nat → MiePort → MiePort
  | 0, _, q => q
  | fuel + 1, left, q =>
    if left ≤ q.busy then { q with busy := q.busy - left }
    else
      let left := left - q.busy
      match q.nextTx with
      | none => { q with busy := 0 }
      | some (x, q') =>
        let t := t0 + ((125 - left : Nat) : Int) * 262144
        let f := mieSeal (stampFrame x t)
        MiePort.send t0 fuel left { q'.stampLink x t with busy := 2 * wireLen f, sent := f :: q'.sent }

/-- The length of a tick in 2^-16 ns. -/
def tickNs : Int := 500 * 65536

/-- The instant of the time counter at the /S/ of a frame received in the tick that has run. Its position in the tick is the operand's,
modulo a tick, in whole steps of 0.8 ns (R434, R443; log entry 121). -/
def Dev.instant (d : Dev) (x : Int) : Int := d.mie.time - tickNs + (x % tickNs * 5 / 262144) * 262144 / 5

/-- The output ports in a tick; they stop in reset and in standby (R346, R422). -/
def Dev.mieTick (d : Dev) : Dev :=
  let go (q : MiePort) : MiePort := MiePort.send d.mie.time 4 125 { q with sent := [] }
  d.updMie fun m => { m with me := go m.me, mw := go m.mw, time := m.time + tickNs }

/-! ### Reception: checks, duplicate windows, forwarding (R436 to R439) -/

/-- What a window does with a frame: accepted with its new window, a duplicate, or stale. -/
inductive WinResult where
  | accepted (w : RxWindow)
  | duplicate
  | stale
deriving DecidableEq, Repr

/-- The duplicate window on a frame (R438); a sender without a window starts one at the frame. -/
def winJudge (w : Option RxWindow) (f : MFrame) : WinResult :=
  match w with
  | none => .accepted ⟨f.src, f.fseq, 0, 0⟩
  | some w =>
    let k := (f.fseq + 65536 - w.h) % 65536
    if k = 0 then .duplicate
    else if k ≤ 32768 then .accepted { w with h := f.fseq, seen := (w.seen * 2 ^ k + 2 ^ (k - 1)) % 2 ^ 64, age := 0 }
    else
      let b := 65536 - k
      if b ≤ 64 then
        if bitAt w.seen (b - 1) then .duplicate else .accepted { w with seen := setBit w.seen (b - 1) true, age := 0 }
      else if f.restart ∧ f.fseq < 16 then .accepted ⟨f.src, f.fseq, 0, 0⟩
      else .stale

def Dev.window (d : Dev) (src : Nat) : Option RxWindow := d.mie.windows.find? fun w => w.src == src

/-- A sender's window replaced. -/
def Dev.putWindow (d : Dev) (w : RxWindow) : Dev :=
  d.updMie fun m => { m with windows := w :: m.windows.filter fun x => x.src != w.src }

/-- Frames of a kind and format that are delivered (R436). -/
def frameKnown (f : MFrame) : Bool := f.format == 1 && decide (1 ≤ f.kind) && decide (f.kind ≤ 0xB)

/-- The frame is for this device. -/
def Dev.isMine (d : Dev) (f : MFrame) : Bool := f.bcast || f.dst == d.rowId

/-- The transit of a frame (R437): to the other port, HOPS reduced by 1; a full queue drops it. A TIME frame carries the delay
of the link it entered on (R443). A link-local frame is never forwarded (R435). -/
def Dev.forward (d : Dev) (p : MPort) (f : MFrame) (rx : Option Int) : Dev :=
  let out := otherMp p
  let g := { f with hops := f.hops - 1 }
  if f.link then d
  else if f.kind = 3 ∧ f.format = 1 then
    let corr := signed 64 (leNat ((f.payload.drop 8).take 8)) + (d.mport p).delay
    let g := { g with payload := putField g.payload 8 (leBytes 8 (unsigned 64 corr)) }
    d.updMp out fun q => { q with timeQ := q.timeQ ++ [⟨g, false, rx⟩] }
  else if 32 ≤ (d.mport out).transitQ.length then
    (d.updMie fun m => { m with queueDrop := inc16 m.queueDrop }).occur miePg 3
  else d.updMp out fun q => { q with transitQ := q.transitQ ++ [⟨g, false, none⟩] }

/-- A frame arrives whole on a port: its checks, the sender's window and its transit. The flag tells whether the frame is
accepted for delivery to this device. A frame of a reserved kind or format is forwarded and counted, never delivered. -/
def Dev.receive (d : Dev) (p : MPort) (f : MFrame) (rx : Option Int) : Dev × Bool :=
  if d.offline then (d, false)
  else if !mieCrcOk f then ((d.updMie fun m => { m with crcErr := inc16 m.crcErr }).occur miePg 2, false)
  else if f.hops = 0 then (d.updMie fun m => { m with hopExpired := inc16 m.hopExpired }, false)
  else if f.src = d.rowId then (d, false)
  else
    let d := d.updMie fun m => { m with heard := true }
    match winJudge (d.window f.src) f with
    | .duplicate => (d.updMie fun m => { m with dup := inc16 m.dup }, false)
    | .stale => (d, false)
    | .accepted w =>
      let d := d.putWindow w
      if !frameKnown f then ((d.updMie fun m => { m with unknown := inc16 m.unknown }).forward p f rx, false)
      else ((if f.bcast || f.dst != d.rowId then d.forward p f rx else d), d.isMine f)

/-- A slot entry of a Mieno class handles a frame kind: MALL any, MBT those of budget and time, which of the frames for the twins are
BUDGET and ADVERT (R54, R436). -/
def classHandles (cls kind : Nat) : Bool := cls == 0x3D || (cls == 0x3C && decide (kind ≤ 2))

/-- Whether the active image has an entry that handles a frame kind in the tier in force (R63, R436); the load checks let no entry have
the bit of a tier that does not permit its class. -/
def Dev.kindFires (d : Dev) (kind : Nat) : Bool :=
  d.sched.bank.any fun e => e.valid && bitAt e.tierMask d.sched.tier.val && classHandles e.cls kind

/-- The twins send a frame of a kind: an entry that handles the kind fires in the tier in force (R61, R63, R455; log entry 109). -/
def Dev.twinSends (d : Dev) (kind : Nat) : Bool := d.kindFires kind && !d.offline

/-- The channel of frames that enter on a port (R436). -/
def mpChan : MPort → Nat
  | .me => 1
  | .mw => 2

/-- A frame reaches the twins in message cells (R20, R436). -/
def Dev.frameCells (d : Dev) (p : MPort) (f : MFrame) : Dev := d.inBlock (mpChan p) (mieBytes f)

/-- A frame for the twins waits in the receive buffer; a full buffer drops it (R441). -/
def Dev.buffer (d : Dev) (p : MPort) (f : MFrame) : Dev :=
  if 32 ≤ d.mie.rxBuf.length then (d.updMie fun m => { m with rxDrop := inc16 m.rxDrop }).occur miePg 3
  else d.updMie fun m => { m with rxBuf := m.rxBuf ++ [(p, f)] }

/-- Frames of a kind wait in the receive buffer whatever fires: all during a management pause (R507), a COMMAND while the replay goes
on (R321). -/
def Dev.kindWaits (d : Dev) (kind : Nat) : Bool := d.upd.pause || (kind == 6 && d.replaying)

/-- A frame for the twins: handled by `g` at once where its class fires and nothing waits before it, else buffered (R441; log
entry 21). -/
def Dev.toTwins (d : Dev) (p : MPort) (f : MFrame) (g : Dev → Dev) : Dev :=
  if d.kindWaits f.kind then d.buffer p f
  else if d.kindFires f.kind && d.mie.rxBuf.all (fun x => !d.kindFires x.2.kind) then g (d.frameCells p f)
  else d.buffer p f

/-! ### Members (R449, R455) -/

def RowMember.new (id : Nat) : RowMember := ⟨id, none, 0, false, false, false, none, none, List.replicate 8 0, []⟩

def Dev.member (d : Dev) (id : Nat) : Option RowMember := d.mie.members.find? fun x => x.id == id

/-- The list of members, by rising identity, with one more. -/
def memberIns (y : RowMember) : List RowMember → List RowMember
  | [] => [y]
  | x :: l => if y.id < x.id then y :: x :: l else x :: memberIns y l

/-- The list of members with one rewritten, and made where it is not there. -/
def memberUpd (id : Nat) (f : RowMember → RowMember) (l : List RowMember) : List RowMember :=
  if l.any fun x => x.id == id then l.map fun x => if x.id = id then f x else x else memberIns (f (.new id)) l

def Dev.updMember (d : Dev) (id : Nat) (f : RowMember → RowMember) : Dev :=
  d.updMie fun m => { m with members := memberUpd id f m.members }

/-! ### Time class and master (R442) -/

/-- The device's time class. -/
def Dev.timeClass (d : Dev) : Nat :=
  if !d.rowRole 0 || d.time.holdover || d.mie.idConf then 0 else if d.mie.setAge.isSome then 2 else 1

/-- The candidates: identity and class, the device's own first. -/
def Dev.candidates (d : Dev) : List (Nat × Nat) :=
  (if 1 ≤ d.timeClass then [(d.rowId, d.timeClass)] else []) ++
    d.mie.members.filterMap fun x =>
      match x.hbAge with
      | some a => if a < 48 ∧ 1 ≤ x.cls ∧ x.id ≠ d.rowId then some (x.id, x.cls) else none
      | none => none

/-- The time master: the highest class and, among those, the lowest identity. -/
def Dev.bestMaster (d : Dev) : Option Nat :=
  (d.candidates.foldl (fun (b : Option (Nat × Nat)) x =>
    match b with
    | none => some x
    | some y => if y.2 < x.2 ∨ (y.2 = x.2 ∧ x.1 < y.1) then some x else b) none).map Prod.fst

/-- The selection of the master; a change from one master to another is recorded (R462). -/
def Dev.selectMaster (d : Dev) : Dev :=
  let b := d.bestMaster
  let changed := d.mie.master.isSome && b.isSome && d.mie.master != b
  let d := d.updMie fun m => { m with master := b }
  if changed then d.occur mtPg 2 else d

def Dev.isMaster (d : Dev) : Bool := d.mie.master == some d.rowId

/-- The device holds Mieno time (R445). -/
def Dev.timeHeld (d : Dev) : Bool := d.mie.tst != .free

/-- Mieno time in ns. -/
def Dev.mieNs (d : Dev) : Nat := (d.mie.time / 65536).toNat % 2 ^ 64

/-- The row epoch number (R445). -/
def Dev.mieEpoch (d : Dev) : Nat := d.mieNs / 16384000

/-- RESYNC is entered: a step by −o follows at the next boundary (R444). -/
def Dev.toResync (d : Dev) (step : Bool) : Dev :=
  (d.updMie fun m => { m with tst := .resync, stepDue := step, goodN := 0 }).occur mtPg 0

/-- A TIME frame of the master selected (R443, R444): the offset o of its receive instant `rx`, and the time state. -/
def Dev.takeTime (d : Dev) (p : MPort) (f : MFrame) (rx : Int) : Dev :=
  let est := (leNat (f.payload.take 8) : Int) * 65536 + signed 64 (leNat ((f.payload.drop 8).take 8)) + (d.mport p).delay
  let o := rx - est
  let a : Int := if o < 0 then -o else o
  let good := decide (a ≤ 100 * 65536)
  let d := d.updMie fun m => { m with off := o, offNew := true, noTime := 0 }
  match d.mie.tst with
  | .free =>
    if d.isMaster then d
    else (d.updMie fun m => { m with time := m.time - o, offNew := false }).toResync false
  | .sync => if 1000 * 65536 < a then d.toResync true else d
  | .resync =>
    let d := d.updMie fun m => { m with goodN := if good then m.goodN + 1 else 0 }
    if d.mie.goodN = 4 then d.updMie fun m => { m with tst := .sync, goodN := 0 } else d
  | .hold => if a ≤ 1000 * 65536 then d.updMie fun m => { m with tst := .sync } else d.toResync true

/-- TIME (R443, R444): frames of any master but the one selected are ignored. The operand is the position of its /S/ in the tick. -/
def execTimeFrame (p : MPort) (f : MFrame) (rx : Int) (s : State) : Out :=
  done (fun d =>
    if f.kind ≠ 3 ∨ !frameKnown f then d
    else
      let rx := d.instant rx
      let (d, mine) := d.receive p f (some rx)
      if !mine then d
      else if d.mie.master = some f.src then d.takeTime p f rx
      else d.occur mtPg 3) s

/-- TIME_HOLD (R444): 8 fronds without a TIME frame move SYNC to HOLD. -/
def execTimeHold (s : State) : Out :=
  done (fun d =>
    if d.mie.tst = .sync ∧ !d.isMaster ∧ 8 ≤ d.mie.noTime then
      (d.updMie fun m => { m with tst := .hold }).occur mtPg 1
    else d) s

/-- TIME_GO: a write starts the count of two boundaries (R445). -/
def Dev.timeGo (d : Dev) : Dev := d.updMie fun m => { m with goLeft := 2 }

/-- TIME_GO. -/
def execTimeGo (_ : Word32) (s : State) : Out := done Dev.timeGo s

/-- TSET_HOLD_EXPIRY (R442): the class falls from external. -/
def execTsetHoldExpiry (s : State) : Out :=
  done (fun d =>
    match d.mie.setAge with
    | some a =>
      if d.fld mtPg 0x58 15 0 ≤ a then (d.updMie fun m => { m with setAge := none }).selectMaster else d
    | none => d) s

/-- The steering of a frond boundary (R444): −o/4 in phase and −o/64 in rate; a step by −o on entry to RESYNC, and at every
boundary in REFCLK holdover, which sets DEGRADED. Without a frame in the frond there is no new o and no phase step. -/
def Dev.steer (d : Dev) : Dev :=
  let m := d.mie
  let o := m.off
  let active := m.tst == .sync || m.tst == .resync
  if active && d.time.holdover then
    let d' := d.updMie fun m => { m with time := if m.offNew then m.time - o else m.time, offNew := false, stepDue := false, degraded := true }
    if m.degraded then d' else d'.occur mtPg 4
  else
    let d := d.updMie fun m => { m with degraded := false }
    if m.stepDue then d.updMie fun m => { m with time := m.time - o, stepDue := false, offNew := false }
    else if active && m.offNew then
      let r := m.rate - Config.rdiv 52 o 64
      d.updMie fun m => { m with time := m.time - Config.rdiv 51 o 4 + r, rate := r, offNew := false }
    else d.updMie fun m => { m with time := m.time + m.rate }

/-- A link-local LINK frame leaves on a port (R434), a request or the answer to the one received at `rx`; its payload is not stated
and the model sends none (log entry 98). -/
def Dev.sendLink (d : Dev) (p : MPort) (rx : Option Int) : Dev := d.originateFor rx [p] 0xB false true 0 []

/-- Once per frond each port sends a LINK frame (R434, R441). -/
def Dev.linkFrond (d : Dev) : Dev := if d.offline then d else (d.sendLink .me none).sendLink .mw none

/-- Mieno time at a frond boundary: steering, TIME_GO, the master and its TIME frame (R442 to R445). The time of the boundary reaches the
twins in tick phase 0. -/
def Dev.timeFrond (d : Dev) : Dev :=
  let d := d.steer
  let d := d.updMie fun m => { m with noTime := if d.isMaster then 0 else satInc 255 m.noTime }
  let d : Dev :=
    if d.mie.goLeft = 1 then
      let t : Nat := d.reg mtPg 0x50 + d.reg mtPg 0x54 * 2 ^ 32
      d.updMie fun m => { m with goLeft := 0, time := Int.ofNat t * 65536, setAge := some 0, epochNo := none }
    else d.updMie fun m => { m with goLeft := m.goLeft - 1 }
  let d := (d.updMie fun m => { m with bnd := d.mieNs }).selectMaster
  let d := if d.isMaster && d.mie.tst == .free then d.updMie fun m => { m with tst := .sync } else d
  if d.isMaster && !d.mie.idConf && !d.offline then
    d.broadcast 3 (leBytes 8 d.mieNs ++ leBytes 8 0 ++ [BitVec.ofNat 8 d.timeClass] ++ List.replicate 7 0)
  else d

/-! ### Links (R433, R434) -/

/-- MIENO_LINK_UP (R433). -/
def execMienoLinkUp (p : MPort) (s : State) : Out :=
  done (fun d => if d.offline then d else d.updMp p fun q => { q with up := true }) s

/-- MIENO_LINK_DOWN (R433): a package-level interface fault of the port. -/
def execMienoLinkDown (p : MPort) (s : State) : Out :=
  done (fun d =>
    if (d.mport p).up then (d.updMp p fun q => { q with up := false }).occur miePg (mpIdx p) else d) s

/-- LINK (R434): the exchange of a frond with the neighbour: the answer to this port's LINK frame gives the link delay and the
neighbour's identity, and the neighbour's own LINK frame is answered (log entry 98). The neighbour's stamps t2 and t3 are operands; the
device's own are the send time of the port's latest request and the receive instant, whose position in the tick is the operand t4 (a
port that has sent no request yet takes t1 likewise). -/
def execLinkFrame (p : MPort) (t1 t2 t3 t4 : Int) (neighbour : Nat) (s : State) : Out :=
  done (fun d =>
    if d.offline then d
    else
      let t4 := d.instant t4
      let t1 := (d.mport p).linkT1.getD (d.instant t1)
      let m := Config.rdiv 53 ((t4 - t1) - (t3 - t2)) 2
      ((d.sendLink p (some t4)).updMp p fun q => { q with nbValid := true, nb := neighbour, delays := (m :: q.delays).take 16 }).updMie fun m =>
        { m with heard := true }) s

/-- DUPLICATE_WINDOW_RESET (R438): a window with no frame for 64 fronds. -/
def execDuplicateWindowReset (src : Nat) (s : State) : Out :=
  done (fun d => d.updMie fun m =>
    { m with windows := m.windows.filter fun w => !(w.src == src && decide (64 ≤ w.age)) }) s

/-- UNKNOWN_FRAME (R436): forwarded, never delivered, counted. -/
def execUnknownFrame (p : MPort) (f : MFrame) (s : State) : Out :=
  done (fun d => if frameKnown f then d else (d.receive p f none).1) s

/-! ### HEARTBEAT (R440, R441, R455) -/

/-- The HEARTBEAT payload (R441). -/
def Dev.hbPayload (d : Dev) : List Byte :=
  leBytes 8 Config.devSerial.toNat ++ leBytes 2 (d.jrn.boot % 65536) ++ [BitVec.ofNat 8 d.timeClass,
    BitVec.ofNat 8 (b2n (decide (d.sched.tier.val = 3)) + 2 * b2n d.mie.idConf + 4 * b2n d.die.safe)]

/-- MIENO_HEARTBEAT_TX (R441): every 16 fronds. -/
def execMienoHeartbeatTx (s : State) : Out :=
  done (fun d =>
    if 16 ≤ d.mie.hbN ∧ !d.offline then (d.updMie fun m => { m with hbN := 0 }).broadcast 4 d.hbPayload else d) s

/-- A HEARTBEAT with the device's own identity and another serial sets ID_CONFLICT (R440). -/
def Dev.checkConflict (d : Dev) (f : MFrame) : Dev :=
  if f.src = d.rowId ∧ leNat (f.payload.take 8) ≠ Config.devSerial.toNat then
    let was := d.mie.idConf
    let d := d.updMie fun m => { m with idConf := true, confEpochs := 0 }
    if was then d else d.occur miePg 4
  else d

/-- MIENO_HEARTBEAT (R440, R442, R455): the sender is recorded as a member with its class; a silent one that has sent an ADVERT returns. -/
def execMienoHeartbeat (p : MPort) (f : MFrame) (s : State) : Out :=
  done (fun d =>
    if f.kind ≠ 4 ∨ !frameKnown f then d
    else
      let d := if mieCrcOk f ∧ f.hops ≠ 0 ∧ !d.offline then d.checkConflict f else d
      let (d, mine) := d.receive p f none
      if mine then
        (d.updMember f.src fun x =>
          { x with hbAge := some 0, cls := (f.payload.getD 10 0).toNat % 4,
                   conflict := bitAt (f.payload.getD 11 0).toNat 1, silent := x.silent && !x.back }).selectMaster
      else d) s

/-- ID_CONFLICT_CLEAR (R440): 8 epochs without a conflicting HEARTBEAT. -/
def execIdConflictClear (s : State) : Out :=
  done (fun d =>
    if d.mie.idConf ∧ 8 ≤ d.mie.confEpochs then d.updMie fun m => { m with idConf := false, confEpochs := 0 } else d) s

end Sys2Proof.Machine
end

