-- ==== Sys2Proof/Machine/PowerArray.lean ====
section
/-! DEFINITION. Meanings of the phase-array commands: regions and clusters, rails, phases, bursts, limits and retry
(spec/03). Each event has a condition; where it does not hold the event did not occur and nothing changes (log entry 7). -/

namespace Sys2Proof.Machine

/-- VALID of a region. -/
def Dev.regionValid (d : Dev) : Region → Bool
  | .g0 => d.die.validG0
  | .g1 => d.die.validG1

/-- The supply of a region. -/
def Dev.vana (d : Dev) : Region → Bool
  | .g0 => d.sup.vanaG0
  | .g1 => d.sup.vanaG1

/-- The clusters of a region (R9). -/
def inRegion (g : Region) (k : Nat) : Bool :=
  match g with
  | .g0 => decide (k < 4)
  | .g1 => decide (4 ≤ k)

/-- The stage readings of a region are forgotten: no conversion since its region last became valid (R102). -/
def Dev.forgetStages (d : Dev) (g : Region) : Dev :=
  foldN 64 (fun d n =>
    if inRegion g (n / 8) then
      { d.updUnit n fun u => { u with temp := none } with
        therm := { d.therm with stLast := updAt d.therm.stLast n fun _ => none, stBad := updAt d.therm.stBad n fun _ => false } }
    else d) d

/-- Sets VALID and the timebase lock of a region. -/
def Dev.setRegion (d : Dev) (g : Region) (v : Bool) : Dev :=
  let d := if v then d.forgetStages g else d
  match g with
  | .g0 => { d with die := { d.die with validG0 := v, lockG0 := v } }
  | .g1 =>
    { d with die := { d.die with validG1 := v, lockG1 := v },
             xfer := if v then d.xfer else { d.xfer with judge := false, g1Good := 0 } }

/-- The TIMEBASE bit of a region in page 0x070 (R127). -/
def timebaseBit : Region → Nat
  | .g0 => 1
  | .g1 => 2

/-- A region becomes invalid (R17, R120, R127): VALID and the timebase lock fall, TIMEBASE is recorded once, the units of its
clusters are LOST and the ledger re-budgets. -/
def Dev.loseRegion (d : Dev) (g : Region) : Dev :=
  if d.regionValid g then ((d.setRegion g false).occur 0x70 (timebaseBit g)).loseClusters (inRegion g) else d

/-- REGION_LOSS (R32, R120): the region's VANA or tick replica is lost. -/
def execRegionLoss (g : Region) (s : State) : Out := done (fun d => d.loseRegion g) s

/-- TIMEBASE_UNLOCK (R127): a region-level fault of the timebase's region. -/
def execTimebaseUnlock (g : Region) (s : State) : Out := done (fun d => d.loseRegion g) s

/-- The precision channels settle again after the return of their region (R215). -/
def Dev.metRestart (d : Dev) : Dev :=
  { d with sense := { d.sense with pre := d.sense.pre.map fun p => { p with metSince := d.now } } }

/-- The region started without its VANA at reset release and is not valid yet (R540). -/
def Dev.vanaLost (d : Dev) : Region → Bool
  | .g0 => d.time.lost0
  | .g1 => d.time.lost1

/-- TIMEBASE_RELOCK (R127): the timebase is locked again; the region is valid where its VANA is in range. A region that
started without its VANA waits for the full frond of R540. -/
def execTimebaseRelock (g : Region) (s : State) : Out :=
  done (fun d =>
    if d.vana g && !d.vanaLost g && !d.regionValid g then (d.setRegion g true).when (g == .g0) Dev.metRestart else d) s

/-- CLUSTER_FAULT (R31, R120). -/
def execClusterFault (k : Fin 8) (s : State) : Out :=
  done (fun d =>
    ({ d with die := { d.die with clusterOk := d.die.clusterOk &&& ~~~(1#8 <<< k.val) } }).loseClusters (fun j => j == k.val)) s

/-- Whether the LOST units of cluster `k` may return (R120): it has been valid for one full frond. -/
def Dev.lostReturn (d : Dev) (k : Nat) : Bool := d.clusterUp k && decide (2 ≤ (d.cluster k).goodFronds)

/-- The state in which a unit is back in service: FAULT while its TFLT, OVL or STAGE_SHUT bit or its IMON_INV bit is set, else IDLE
(R119, R208, R362, R571). -/
def Dev.backState (d : Dev) (n : Nat) : PhState :=
  if d.stBit (unitPg n) 0 || d.stBit (unitPg n) 1 || nth d.therm.stShut n false || (d.unit n).imonInv then .fault else .idle

/-- UNIT_LOST_RETURN (R120): LOST units of the cluster return to IDLE, to be added under R102; one with a fault that waits for its
clear returns to FAULT (log entry 41). For a cluster whose fault stands
the event says that the fault is over: the cluster is valid again, and its full frond begins (log entry 8). -/
def execUnitLostReturn (k : Fin 8) (s : State) : Out :=
  done (fun d =>
    if d.lostReturn k.val then
      foldN 8 (fun d j =>
        let st := d.backState (8 * k.val + j)
        d.updUnit (8 * k.val + j) fun u => if u.st = .lost then u.to st true else u) d
    else if d.die.clusterOk.getLsbD k.val then d
    else
      { d with die := { d.die with clusterOk := d.die.clusterOk ||| (1#8 <<< k.val) } }.updCluster k.val fun c =>
        { c with goodFronds := 0 }) s

/-- The ramp of a rail in SOFT_START has reached its target (R91). -/
def Dev.rampDone (d : Dev) (r : Nat) : Bool :=
  (d.rail r).st == .softStart && decide ((d.rail r).target * microSig ≤ (d.rail r).refU)

/-- SOFT_START_DONE (R91). -/
def execSoftStartDone (r : Fin 4) (s : State) : Out :=
  done (fun d =>
    if d.rampDone r.val then
      (d.updRail r.val fun x => { x with st := .regulate, dwell := 0, shortRun := 0 }).thermalShed r.val
    else d) s

/-- SOFT_STOP_DONE (R92): the reference is at 0 V. -/
def execSoftStopDone (r : Fin 4) (s : State) : Out :=
  done (fun d => if (d.rail r.val).st = .softStop ∧ (d.rail r.val).refU = 0 then d.railOff r.val else d) s

/-- SHORT_DETECT (R95): 32 consecutive ticks under half the ramp. -/
def execShortDetect (r : Fin 4) (s : State) : Out :=
  done (fun d =>
    if (d.rail r.val).st = .softStart ∧ 32 ≤ (d.rail r.val).shortRun then d.tripRail r.val 1 else d) s

/-- The shed condition of R102 has held for SHED_DWELL ticks on a rail that may shed. -/
def Dev.shedDue (d : Dev) (r : Nat) : Bool :=
  (d.rail r).st == .regulate && d.flag (railPg r) 0x40 7 && (d.rail r).noMark == 0 &&
    decide (d.fld (railPg r) 0x54 31 20 ≤ (d.rail r).dwell) && decide (d.fld (railPg r) 0x40 14 8 < d.nAct r)

/-- PHASE_SHED (R102, R104): the hottest active unit is marked and the dwell starts again. -/
def execPhaseShed (r : Fin 4) (s : State) : Out :=
  done (fun d =>
    if d.shedDue r.val then
      match d.hottest r.val with
      | none => d
      | some n => (d.mark n).updRail r.val fun x => { x with dwell := 0 }
    else d) s

/-- SHED_RAMP (R104): in the tick after the mark the unit is in RAMP and its TRI bit is computed. -/
def execShedRamp (n : Fin 64) (s : State) : Out :=
  done (fun d =>
    if (d.unit n.val).st = .marked ∧ 1 ≤ (d.unit n.val).since then d.updUnit n.val fun u => u.to .ramp true else d) s

/-- SHED_TRI (R104): the tick after, TRI is applied and the unit is IDLE. -/
def execShedTri (n : Fin 64) (s : State) : Out :=
  done (fun d =>
    if (d.unit n.val).st = .ramp ∧ 1 ≤ (d.unit n.val).since then
      d.updUnit n.val fun u => { u.to .idle true with triOn := true }
    else d) s

/-- BURST_START (R107, R108). -/
def execBurstStart (r : Fin 4) (s : State) : Out :=
  done (fun d => if (d.rail r.val).burst then d.burstRail r.val else d) s

/-- The level of a unit's fast-limit comparator above V_IREF, in microvolts (R210): FLIM_TH in 0.5 A times IMON_GAIN in 0.01 mV/A, as
in force since the latest frond boundary. -/
def Dev.flimLevel (d : Dev) (n : Nat) : Nat := 5 * d.fld (unitPg n) 0x40 15 8 * d.fld 0x80 0x40 10 0

/-- FAST_LIMIT_TRIP (R110, R210): V_IMON − V_IREF, `uv` microvolts, exceeds the level: the pulse ends, the unit stays low and
every extra pulse due before its next period start is suppressed, the trip is counted and shown in the next sense frame. The comparator
of a unit that does not switch, in tri-state or with MEMBER = 0, is taken as any other's (log entry 117). -/
def execFastLimitTrip (n : Fin 64) (uv : Int) (s : State) : Out :=
  done (fun d => if uv ≤ d.flimLevel n.val then d else d.updUnit n.val fun u =>
    { u with flim := true, flims := satInc 65535 u.flims, onTime := min u.onTime (16 * u.age), ext := 0, trip := true,
             xpLeft := 0, pulse := u.pulse.filter fun p => decide (16 * u.toStart ≤ p) }) s

/-- UNIT_OVERLOAD (R112). -/
def execUnitOverload (n : Fin 64) (s : State) : Out :=
  done (fun d =>
    if (d.memberOf n.val).isSome ∧ 0 < (d.unit n.val).ovl ∧ d.fld (unitPg n.val) 0x44 15 0 ≤ (d.unit n.val).ovl then
      ((d.occur (unitPg n.val) 0).updUnit n.val fun u => { u with ovl := 0 }).faultUnit n.val
    else d) s

/-- A count of a switching rail has reached its limit. -/
def Dev.reached (d : Dev) (r count limit : Nat) : Bool := (d.rail r).st.switching && decide (0 < count) && decide (limit ≤ count)

/-- RAIL_OVERLOAD (R113). -/
def execRailOverload (r : Fin 4) (s : State) : Out :=
  done (fun d =>
    if d.reached r.val (d.rail r.val).ovl (d.fld (railPg r.val) 0x58 31 16) then d.tripRail r.val 0 else d) s

/-- RAIL_UV (R116). -/
def execRailUv (r : Fin 4) (s : State) : Out :=
  done (fun d =>
    if d.reached r.val (d.rail r.val).uv (d.fld (railPg r.val) 0x5C 23 16) then d.tripRail r.val 3 else d) s

/-- RAIL_OV (R116): in the tick after the one in which over-voltage was declared. -/
def execRailOv (r : Fin 4) (s : State) : Out :=
  done (fun d => if (d.rail r.val).st.switching && (d.rail r.val).ovTrip then d.tripRail r.val 2 else d) s

/-- RAIL_RETRY_END (R118). -/
def execRailRetryEnd (r : Fin 4) (s : State) : Out :=
  done (fun d => if (d.rail r.val).st = .faultWait ∧ (d.rail r.val).retryLeft = 0 then d.retryEnd r.val else d) s

/-- RAIL_RETRY_COUNT_RESET (R118): raw power-good held for RETRY_DELAY fronds. -/
def execRailRetryCountReset (r : Fin 4) (s : State) : Out :=
  done (fun d =>
    if 256 * d.fld (railPg r.val) 0x60 15 0 ≤ (d.rail r.val).pgRun then d.updRail r.val fun x => { x with retryUsed := 0 }
    else d) s

end Sys2Proof.Machine
end

