-- ==== Sys2Proof/Machine/Row.lean ====
section
/-! DEFINITION. The row budget: ADVERTs, the source, the shares and their application (R447 to R455). -/

namespace Sys2Proof.Machine

/-- The epoch number as frames carry it. -/
def Dev.epoch32 (d : Dev) : Nat := d.time.epoch % 2 ^ 32

/-- ROW_EN. -/
def Dev.rowEn (d : Dev) : Bool := d.flag miePg 0x40 0

/-- A standalone device (R453). -/
def Dev.standalone (d : Dev) : Bool := !d.rowEn || !d.mie.heard

/-- ROW_TOTAL and ROW_SPARE, 1/16 kW. -/
def Dev.rowTotal (d : Dev) : Nat := d.fld rowPg 0x40 19 0
def Dev.rowSpare (d : Dev) : Nat := d.fld rowPg 0x44 15 0

/-- EXT_VALID: a T_EXT is offered and has not expired. -/
def Dev.extValid (d : Dev) : Bool := d.mie.extLive && d.flag rowPg 0x48 31

/-- IMAGE_VER and COMPAT_MIN of the active image. -/
def Dev.imageVer (d : Dev) : Nat := (if d.sched.active then d.sched.ver1 else d.sched.ver0) % 65536
def Dev.compatMin (d : Dev) : Nat := (if d.sched.active then d.sched.ver1 else d.sched.ver0) / 65536

/-- Two versions are compatible (R454). -/
def compatible (v1 c1 v2 c2 : Nat) : Bool := decide (c2 ≤ v1) && decide (c1 ≤ v2)

/-- The row configuration record and its digests (R448). -/
def Dev.rowRecord (d : Dev) : List Byte :=
  leBytes 4 d.rowTotal ++ leBytes 2 d.rowSpare ++ leBytes 1 (d.fld rowPg 0x44 23 16) ++ [1#8]

def Dev.rowDigest (d : Dev) : List Byte := sha384 d.rowRecord
def Dev.shortDigest (d : Dev) : List Byte := d.rowDigest.take 8

/-! ### ADVERT (R447) -/

/-- The device's own ADVERT. -/
def Dev.ownAdvert (d : Dev) : Advert :=
  { epoch := d.epoch32, demand := toSixteenth 55 d.mie.dMax, max := toSixteenth 56 d.shelfMax,
    floor := toSixteenth 57 d.shelfFloor, ver := d.imageVer, compat := d.compatMin, eligible := d.rowRole 1,
    ext := d.extValid, total := if d.extValid then d.fld rowPg 0x48 19 0 else d.rowTotal }

def Advert.bytes (a : Advert) (cons warn : Bool) (short : List Byte) : List Byte :=
  leBytes 4 a.epoch ++ leBytes 2 a.demand ++ leBytes 2 a.max ++ leBytes 2 a.floor ++ leBytes 2 a.ver ++ leBytes 2 a.compat ++
    [BitVec.ofNat 8 (b2n a.eligible + 2 * b2n a.ext + 4 * b2n cons + 8 * b2n warn), 0#8] ++ leBytes 4 a.total ++ short

/-- An ADVERT read from a payload. -/
def readAdvert (l : List Byte) : Advert :=
  let g (o k : Nat) : Nat := leNat ((l.drop o).take k)
  { epoch := g 0 4, demand := g 4 2, max := g 6 2, floor := g 8 2, ver := g 10 2, compat := g 12 2,
    eligible := bitAt (g 14 1) 0, ext := bitAt (g 14 1) 1, total := g 16 4 }

/-- A member of the row: heard in a HEARTBEAT or an ADVERT since reset (R450). -/
def RowMember.heard (x : RowMember) : Bool := x.hbAge.isSome || x.adv.isSome

/-- The ADVERT of epoch `e`, where one is held. -/
def RowMember.advertOf (x : RowMember) (e : Nat) : Option Advert :=
  (x.adv.filter fun a => a.epoch == e).or (x.advPrev.filter fun a => a.epoch == e)

/-- A member that is excluded whatever its versions: silent, or with a conflict of identity (R440, R455). -/
def Dev.memberOut (d : Dev) (x : RowMember) : Bool := x.silent || x.conflict || (x.id == d.rowId && d.mie.idConf)

/-- The short digests known of the members differ (R454). -/
def Dev.digestCheck (d : Dev) : Dev :=
  let l := (d.mie.members.filter fun x => x.adv.isSome || !x.digest.isEmpty).map RowMember.short
  let mm := match l with
    | [] => false
    | x :: r => r.any (· != x)
  let was := d.mie.mismatch
  let d := d.updMie fun m => { m with mismatch := mm }
  if mm && !was then d.occur rowPg 1 else d

/-- A member's ADVERT recorded; a silent member returns with an ADVERT and a HEARTBEAT (R455). -/
def Dev.recordAdvert (d : Dev) (id : Nat) (a : Advert) (short : List Byte) : Dev :=
  (d.updMember id fun x =>
    { x with adv := some a, advPrev := if x.adv.map Advert.epoch = some a.epoch then x.advPrev else x.adv, short := short,
             back := true, silent := x.silent && (match x.hbAge with | some n => decide (48 ≤ n) | none => false) }).digestCheck

/-- A received ADVERT (R449). The silence of a member that has sent no HEARTBEAT yet counts from its first ADVERT (R455). -/
def Dev.takeAdvert (d : Dev) (f : MFrame) : Dev :=
  (d.updMember f.src fun x => { x with hbAge := some (x.hbAge.getD 0) }).recordAdvert f.src (readAdvert f.payload) (padTo 8 (f.payload.drop 20))

/-- ADVERT. -/
def execAdvert (p : MPort) (f : MFrame) (s : State) : Out :=
  done (fun d =>
    if f.kind ≠ 2 ∨ !frameKnown f then d
    else
      let (d, mine) := d.receive p f none
      if mine then d.toTwins p f fun d => d.takeAdvert f else d) s

/-- The ADVERT at frond 0 of an epoch (R447); a device in tier T3 sends none (R455). -/
def Dev.sendAdvert (d : Dev) : Dev :=
  if d.rowEn && !d.mie.idConf && d.twinSends 2 then
    let a := d.ownAdvert
    let sh := d.shortDigest
    (d.recordAdvert d.rowId a sh).broadcast 2 (a.bytes d.led.cons d.sup.vauxWarn sh)
  else d

/-! ### DIGEST (R448) -/

/-- A received DIGEST. -/
def Dev.takeDigest (d : Dev) (f : MFrame) : Dev :=
  (d.updMember f.src fun x => { x with digest := padTo 56 f.payload, short := padTo 8 f.payload }).digestCheck

/-- DIGEST. -/
def execDigest (p : MPort) (f : MFrame) (s : State) : Out :=
  done (fun d =>
    if f.kind ≠ 5 ∨ !frameKnown f then d
    else
      let (d, mine) := d.receive p f none
      if mine then d.toTwins p f fun d => d.takeDigest f else d) s

/-- DIGEST_TX (R448): when the record changes and every 64 epochs. -/
def execDigestTx (s : State) : Out :=
  done (fun d =>
    if (d.mie.digRec != d.rowRecord || decide (64 ≤ d.mie.digAge)) && d.twinSends 5 then
      (d.updMie fun m => { m with digRec := d.rowRecord, digAge := 0 }).broadcast 5 (d.rowDigest ++ d.rowRecord)
    else d) s

/-! ### The source (R449) -/

/-- The members with an ADVERT of epoch `e`, with it. -/
def Dev.advertsOf (d : Dev) (e : Nat) : List (RowMember × Advert) :=
  d.mie.members.filterMap fun x => (x.advertOf e).map fun a => (x, a)

/-- The majority digest: the most frequent; on a tie the one of the lowest identity. -/
def majority (l : List (RowMember × Advert)) : List Byte :=
  let n (x : List Byte) : Nat := (l.filter fun y => y.1.short == x).length
  (l.foldl (fun (b : Nat × List Byte) x => if b.1 < n x.1.short then (n x.1.short, x.1.short) else b) (0, [])).2

/-- An ADVERT of epoch `e` whose versions exclude its sender from the row of the present source (R449, R454; log entry 54). -/
def Dev.versionOut (d : Dev) (e : Nat) (a : Advert) : Bool :=
  match (d.mie.src.bind d.member).bind fun x => x.advertOf e with
  | some s => !compatible a.ver a.compat s.ver s.compat
  | none => false

/-- The source determined from the ADVERTs of epoch `e`, for the epoch after it, and its class: 2 external, 1 elected; none where there
is none. -/
def Dev.sourceAfter (d : Dev) (e : Nat) : Option (Nat × Nat) :=
  let l := d.advertsOf e
  match l.find? fun x => x.2.ext with
  | some x => some (x.1.id, 2)
  | none =>
    let m := majority l
    (l.find? fun x => x.2.eligible && x.1.short == m && !d.memberOut x.1 && !d.versionOut e x.2).map fun x => (x.1.id, 1)

/-- The source for the next epoch (R449). -/
def Dev.nextSource (d : Dev) : Option (Nat × Nat) := d.sourceAfter d.epoch32

/-! ### Shares (R450, R451) -/

/-- What the computation knows of one live member. -/
structure Claim where
  id : Nat
  floor : Nat
  max : Nat
  demand : Nat
deriving DecidableEq, Repr

/-- want(i) of R450. -/
def Claim.want (spare : Nat) (c : Claim) : Nat := Nat.min c.max (Nat.max c.floor (c.demand + spare))

/-- The greatest whole level h, of at most 17 bits, with Σ min(g, h) ≤ r. -/
def level (gs : List Nat) (r : Nat) : Nat :=
  let total (h : Nat) : Nat := gs.foldl (fun a g => a + min g h) 0
  (upto 17).foldl (fun h i => let h' := h + 2 ^ (16 - i); if total h' ≤ r then h' else h) 0

/-- Sum of a quantity over claims. -/
def sumClaims (l : List Claim) (f : Claim → Nat) : Nat := l.foldl (fun a c => a + f c) 0

/-- The shares of the live members in whole 1/16 kW, rounded down, and whether the floors alone do not fit (R450). -/
def shares (l : List Claim) (t : Int) (spare : Nat) : List (Nat × Nat) × Bool :=
  let sf := sumClaims l Claim.floor
  if t ≤ (sf : Int) then
    (l.map fun c => (c.id, if sf = 0 then 0 else (max 0 t).toNat * c.floor / sf), true)
  else
    let r := (t - sf).toNat
    let need := sumClaims l fun c => c.want spare - c.floor
    if r ≤ need then
      let h := level (l.map fun c => c.want spare - c.floor) r
      (l.map fun c => (c.id, c.floor + min (c.want spare - c.floor) h), false)
    else
      let r := r - need
      let room := sumClaims l fun c => c.max - c.want spare
      (l.map fun c =>
        let g := c.max - c.want spare
        (c.id, if room = 0 then c.want spare else c.want spare + min g (r * g / room)), false)

/-- The entries of a publication: EXCLUDED, or a share. -/
def entryExcluded : Nat := 0xFFFE
def entryNone : Nat := 0xFFFF

/-- A member that the computation counts at its last advertised MAX (R450, R454, R455). -/
def Dev.rowExcluded (d : Dev) (x : RowMember) : Bool :=
  d.memberOut x || (match x.advertOf d.epoch32 with
    | none => true
    | some a => !compatible a.ver a.compat d.imageVer d.compatMin)

/-- ROW_TOTAL of a member: that of its record where its digest is the member's short digest, else that of its ADVERT. -/
def RowMember.rowTotal (x : RowMember) : Option Nat :=
  if !x.digest.isEmpty && x.digest.take 8 == x.short then some (leNat ((x.digest.drop 48).take 4)) else x.adv.map Advert.total

/-- The computation of R450: the total used, the entry of each member, and whether the floors do not fit. -/
def Dev.computeShares (d : Dev) : Int × List (Nat × Nat) × Bool :=
  let ms := d.mie.members.filter RowMember.heard
  let own := d.shortDigest
  let t0 : Nat := if d.extValid then d.fld rowPg 0x48 19 0 else d.rowTotal
  let t1 := ms.foldl (fun t x => if x.short != own then min t (x.rowTotal.getD t) else t) t0
  let ex := ms.filter d.rowExcluded
  let t : Int := ex.foldl (fun t x => t - (((x.adv.map Advert.max).getD 0 : Nat) : Int)) (t1 : Int)
  let live := ms.filterMap fun x =>
    if d.rowExcluded x then none else (x.advertOf d.epoch32).map fun a => (⟨x.id, a.floor, a.max, a.demand⟩ : Claim)
  let r := shares live t d.rowSpare
  (t, ex.map (fun x => (x.id, entryExcluded)) ++ r.1.map (fun x => (x.1, min 0xFFFD x.2)), r.2)

/-- The entry of an identity in a publication. -/
def entryOf (l : List (Nat × Nat)) (id : Nat) : Nat := ((l.find? fun x => x.1 == id).map Prod.snd).getD entryNone

/-- One BUDGET part (R451). -/
def Dev.budgetPart (d : Dev) (t : Int) (l : List (Nat × Nat)) (cls p : Nat) : List Byte :=
  leBytes 4 ((d.epoch32 + 1) % 2 ^ 32) ++ leBytes 4 (max 0 t).toNat ++ leBytes 2 d.imageVer ++ leBytes 2 d.compatMin ++
    [BitVec.ofNat 8 (p + 16 * cls), 0#8, 0#8, 0#8] ++ (upto 120).flatMap fun k => leBytes 2 (entryOf l (120 * p + k))

/-! ### Taking a share (R452 to R454) -/

/-- The entry in effect of a publication: of two sources' entries the smaller, and EXCLUDED wins (R454). -/
def Publication.eff (p : Publication) : Option Nat :=
  match p.entry, p.other with
  | none, _ => none
  | some x, none => some x
  | some x, some y => if x = entryExcluded ∨ y = entryExcluded then some entryExcluded else some (min x y)

def Dev.pubOf (d : Dev) (e : Nat) : Publication :=
  (d.mie.pubs.find? fun p => p.epoch == e).getD ⟨e, none, none, false⟩

def Dev.putPub (d : Dev) (p : Publication) : Dev :=
  d.updMie fun m => { m with pubs := p :: m.pubs.filter fun x => x.epoch != p.epoch }

/-- The row term (R453): the share and its decay towards SHELF_FLOOR, at most SHELF_MAX. -/
def Dev.rowTerm (d : Dev) : Int :=
  if d.standalone then d.shelfMax
  else
    let l := match d.mie.share with
      | some n => sixteenth n
      | none => d.shelfMax
    let f := d.shelfFloor
    let k := d.mie.decay
    min d.shelfMax (if k = 0 then l else min l (f + Config.rdiv 58 ((l - f) * (8 - k : Int)) 8))

/-- The row term enters the ledger (R27, R452). -/
def Dev.setRow (d : Dev) : Dev := d.updLed fun l => { l with row := d.rowTerm }

/-- A share becomes the last applied. -/
def Dev.applyShare (d : Dev) (v e : Nat) : Dev :=
  (d.updMie fun m =>
    { m with share := some v, decay := 0, lastEntry := v, lastEpoch := e % 65536, incWait := none, decrease := none }).setRow

/-- One step of the decay, with its cause (R453). -/
def Dev.decayStep (d : Dev) (cause : Nat) (excl : Bool) : Dev :=
  (d.updMie fun m => { m with decay := satInc 8 m.decay, cause := cause, excluded := excl, incWait := none }).setRow

/-- The publication of epoch `e` acts: at the boundary that opens it, or late (R452). -/
def Dev.actOnPub (d : Dev) (e : Nat) (late : Bool) : Dev :=
  let p := d.pubOf e
  let stop (d : Dev) (cause : Nat) (excl : Bool) : Dev :=
    if late then d.updMie fun m => { m with cause := cause, excluded := excl } else d.decayStep cause excl
  if d.mie.idConf then stop d 2 true
  else match p.eff with
    | none => if late then d else (stop d 4 false).occur rowPg 3
    | some v =>
      if p.incompat then stop d 1 true
      else if v = entryExcluded then
        stop (d.updMie fun m => { m with lastEntry := v, lastEpoch := e % 65536 }) 3 true
      else if v = entryNone then stop d 4 false
      else
        let d := d.updMie fun m => { m with cause := 0, excluded := false }
        if sixteenth v ≤ d.rowTerm then
          (if late then d.updMie fun m => { m with decrease := some v } else d.applyShare v e)
        else d.updMie fun m => { m with incWait := some (v, d.time.frond + (if late then 3 else 2)) }

/-- A part of a publication reaches the device (R452, R454): epoch, source, versions and entry. -/
def Dev.takeEntry (d : Dev) (src epoch ver compat v : Nat) : Dev :=
  let e := d.epoch32
  let next := (e + 1) % 2 ^ 32
  if epoch ≠ e ∧ epoch ≠ next then d
  else
    let by' := if epoch = next then d.nextSource.map Prod.fst else d.mie.src
    let p := d.pubOf epoch
    let p' := if by' = some src then
        { p with entry := some v, incompat := !compatible d.imageVer d.compatMin ver compat }
      else { p with other := some (match p.other with | some y => min y v | none => v) }
    let d := d.putPub p'
    let d := if p'.entry.isSome ∧ p'.other.isSome ∧ (p.entry.isNone ∨ p.other.isNone) then d.occur rowPg 4 else d
    let d := if p'.incompat ∧ !p.incompat then d.occur rowPg 2 else d
    if epoch = e then d.actOnPub e true else d

/-- A received BUDGET part (R451, R452); one of another epoch is ignored (R454). -/
def Dev.takeBudget (d : Dev) (f : MFrame) : Dev :=
  let g (o k : Nat) : Nat := leNat ((f.payload.drop o).take k)
  let part := g 12 1 % 16
  let n := countN 120 fun k => g (16 + 2 * k) 2 == entryExcluded
  let d := d.updMie fun m =>
    if g 0 4 ≠ d.epoch32 ∧ g 0 4 ≠ (d.epoch32 + 1) % 2 ^ 32 then m
    else if m.exEpoch = g 0 4 then { m with exMembers := m.exMembers + n } else { m with exMembers := n, exEpoch := g 0 4 }
  if d.rowId / 120 = part then d.takeEntry f.src (g 0 4) (g 8 2) (g 10 2) (g (16 + 2 * (d.rowId % 120)) 2) else d

/-- BUDGET. -/
def execBudget (p : MPort) (f : MFrame) (s : State) : Out :=
  done (fun d =>
    if f.kind ≠ 1 ∨ !frameKnown f then d
    else
      let (d, mine) := d.receive p f none
      if mine then d.toTwins p f fun d => d.takeBudget f else d) s

/-- ALLOCATE (R450, R451): the source computes the shares and publishes them; it takes its own entry. -/
def execAllocate (s : State) : Out :=
  done (fun d =>
    match d.nextSource with
    | none => d
    | some (id, cls) =>
      if id = d.rowId ∧ d.time.inEpoch = 32 ∧ d.rowEn ∧ !d.mie.idConf ∧ d.twinSends 1 then
        let r := d.computeShares
        let next := (d.epoch32 + 1) % 2 ^ 32
        let d := if r.2.2 then d.occur rowPg 5 else d
        let d := (upto 9).foldl (fun d p =>
          if r.2.1.any fun x => x.1 / 120 == p then d.broadcast 1 (d.budgetPart r.1 r.2.1 cls p) else d) d
        let d := d.updMie fun m =>
          { m with exMembers := (r.2.1.filter fun x => x.2 == entryExcluded).length, exEpoch := next }
        d.takeEntry id next d.imageVer d.compatMin (entryOf r.2.1 id)
      else d) s

/-- SHARE_INCREASE (R452). -/
def execShareIncrease (s : State) : Out :=
  done (fun d =>
    match d.mie.incWait with
    | some (v, f) => if f ≤ d.time.frond then d.applyShare v d.epoch32 else d
    | none => d) s

/-- MEMBER_SILENT (R455): no HEARTBEAT for 48 fronds. -/
def execMemberSilent (id : Nat) (s : State) : Out :=
  done (fun d =>
    match d.member id with
    | some x =>
      match x.hbAge with
      | some a => if 48 ≤ a ∧ !x.silent then (d.updMember id fun x => { x with silent := true, back := false }).occur rowPg 6 else d
      | none => d
    | none => d) s

/-- A register write that takes effect at the next frond boundary (R566). -/
def Dev.deferWrite (d : Dev) (a v : Nat) : Dev := { d with regs := { d.regs with deferred := alSet d.regs.deferred a v } }

/-- A write of ROW_EXT waits for the frond boundary as the page's other RW fields do (R459, R566). -/
def Dev.rowExtWrite (d : Dev) (v : Nat) : Dev := d.deferWrite (regAddr rowPg 0x48) (v &&& 0x800FFFFF)

/-- A written ROW_EXT takes effect (R449, R566): with VALID = 1 it restarts EXT_HOLD, with VALID = 0 it ends T_EXT. -/
def Dev.rowExtFrond (d : Dev) : Dev :=
  match alGet d.regs.deferred (regAddr rowPg 0x48) with
  | some v => d.updMie fun m => if bitAt v 31 then { m with extLive := true, extAge := 0 } else { m with extLive := false }
  | none => d

/-- ROW_EXT. -/
def execRowExt (v : Word32) (s : State) : Out := done (fun d => d.rowExtWrite v.toNat) s

/-- EXT_HOLD_EXPIRY (R449): T_EXT expires and VALID reads 0. -/
def execExtHoldExpiry (s : State) : Out :=
  done (fun d =>
    if d.mie.extLive ∧ d.fld rowPg 0x44 23 16 ≤ d.mie.extAge then
      (d.updMie fun m => { m with extLive := false }).setFld rowPg 0x48 31 31 0
    else d) s

/-! ### Epochs, fronds and ticks -/

/-- The highest power of the epoch (R447), in a tick. -/
def Dev.demandTick (d : Dev) : Dev :=
  let p := Config.rdiv 54 (sumTo 4 fun r => (d.rail r).ref * (d.iMax r + d.ledgerM r + d.ledgerV r)) 65536000
  d.updMie fun m => { m with dMax := max m.dMax p }

/-- The row's part of a frond boundary: ages, late decreases, the row term (R438, R452, R455). -/
def Dev.rowFrond (d : Dev) : Dev :=
  let d := d.updMie fun m =>
    { m with hbN := satInc 255 m.hbN, windows := m.windows.map fun w => { w with age := satInc 255 w.age },
             members := m.members.map fun x => { x with hbAge := x.hbAge.map (satInc 255) } }
  let d := match d.mie.decrease with
    | some v => d.applyShare v d.epoch32
    | none => d
  d.setRow

/-- What the row does at a new epoch (R447, R449, R452, R453); the count and the position have moved at the frond boundary. -/
def Dev.newEpoch (d : Dev) : Dev :=
  let src := d.sourceAfter ((d.epoch32 + 0xFFFFFFFF) % 2 ^ 32)
  let changed := d.mie.src.isSome && src.map Prod.fst != d.mie.src
  let d : Dev := { d with time := { d.time with epochDue := false } }
  let d := d.updMie fun m =>
    { m with src := src.map Prod.fst, srcCls := (src.map Prod.snd).getD 0, confEpochs := satInc 255 m.confEpochs,
             setAge := m.setAge.map (satInc 65535), extAge := satInc 255 m.extAge, digAge := satInc 64 m.digAge }
  let d := if changed then d.occur rowPg 0 else d
  let d := if d.standalone then
      (d.updMie fun m => { m with decay := 0, cause := 0, excluded := false, incWait := none }).setRow
    else d.actOnPub d.epoch32 false
  let d := d.updMie fun m => { m with pubs := m.pubs.filter fun p => p.epoch == d.epoch32 }
  d.sendAdvert.updMie fun m => { m with dMax := 0 }

/-- ROW_EPOCH_BOUNDARY (R40). -/
def execRowEpochBoundary (s : State) : Out := done (fun d => if d.time.epochDue then d.newEpoch else d) s

/-- The epoch count and the position within the epoch at a frond boundary (R40, R445): by count, or where Mieno time crosses a
multiple of 16,384,000 ns. A new epoch is at position 0 from this boundary on. -/
def Dev.epochFrond (d : Dev) : Dev :=
  if d.timeHeld then
    let n := d.mieEpoch
    let cross := match d.mie.epochNo with
      | some k => decide (k < n)
      | none => false
    let d := d.updMie fun m => { m with epochNo := some n }
    if cross then { d with time := { d.time with epoch := n, inEpoch := 0, epochDue := true, aligned := true } }
    else { d with time := { d.time with inEpoch := satInc 127 d.time.inEpoch } }
  else
    let d := d.updMie fun m => { m with epochNo := none }
    if 127 ≤ d.time.inEpoch then
      { d with time := { d.time with epoch := d.time.epoch + 1, inEpoch := 0, epochDue := true } }
    else { d with time := { d.time with inEpoch := d.time.inEpoch + 1 } }

end Sys2Proof.Machine
end

