-- ==== Sys2Proof/Machine/Supervision.lean ====
section
/-! DEFINITION. Shelf requests, the push-button, SAFE_n, MR_n and VAUX (R341 to R350, R538, R545). -/

namespace Sys2Proof.Machine

/-- The code of a shelf state (FH_STATE.SHELF). -/
def ShelfState.code : ShelfState → Nat
  | .down => 0 | .poweringUp => 1 | .up => 2 | .poweringDown => 3 | .halted => 4 | .draining => 5

/-- SHELF_ON (R342, R365). -/
def execShelfOn (s : State) : Out :=
  done (fun d => d.execHead 3 fun d _ =>
    if d.fh.shelf = .halted then d.endItem stFailed 4
    else if d.stBit 0xA8 10 then d.endItem stFailed d.fh.shelf.code
    else let d := d.onRequest; d.endItem stDone d.fh.shelf.code) s

/-- SHELF_OFF (R342). -/
def execShelfOff (s : State) : Out :=
  done (fun d => d.execHead 4 fun d _ => let d := d.offRequest; d.endItem stDone d.fh.shelf.code) s

/-- PB_EN of FH_CFG. -/
def Dev.pbEn (d : Dev) : Bool := d.flag 0xA4 0x40 30

/-- PB_n at a frond boundary (R343). A press that ends at the boundary at which it reaches 62,500 fronds is a long one: it stands
until the next boundary, so that PB_LONG_PRESS finds it. -/
def Dev.pbFrond (d : Dev) : Dev :=
  let low := (d.die.sense.map TickIn.pbLow).getD false
  d.updFh fun h =>
    let lo := if low then satInc 16 h.pbLowRun else 0
    let hi := if low then 0 else satInc 16 h.pbHighRun
    if h.press then
      if hi = 16 ∧ (h.longDone ∨ h.pressLen + 1 ≠ 62500) then
        { h with pbLowRun := lo, pbHighRun := hi, press := false, pressLen := 0, longDone := false,
                 ended := !h.longDone && decide (h.pressLen + 1 < 62500) }
      else { h with pbLowRun := lo, pbHighRun := hi, pressLen := satInc 65535 h.pressLen }
    else if lo = 16 then { h with pbLowRun := lo, pbHighRun := hi, press := true, pressLen := 0, longDone := false }
    else { h with pbLowRun := lo, pbHighRun := hi }

/-- PB_SHORT_PRESS (R343, R345): off in POWERING_UP or UP, on in any other state; from HALTED through DOWN. A press that ends
while SAFE_n is low is ignored. -/
def execPbShortPress (s : State) : Out :=
  done (fun d =>
    if d.fh.ended then
      let d := d.updFh fun h => { h with ended := false }
      if !d.pbEn || d.fh.safePin then d
      else match d.fh.shelf with
        | .poweringUp | .up => d.offRequest
        | .halted => ((d.shelfDown .down).updFh fun h => { h with haltSrc := 0 }).onRequest
        | _ => d.onRequest
    else d) s

/-- PB_LONG_PRESS (R343, R344). -/
def execPbLongPress (s : State) : Out :=
  done (fun d =>
    if d.fh.press ∧ 62500 ≤ d.fh.pressLen ∧ !d.fh.longDone ∧ d.pbEn then
      ((d.updFh fun h => { h with longDone := true }).occur 0xA5 4).forcedOff 1
    else d) s

/-- SAFE_N_ASSERT (R345): die S on its own stops the outputs, and holds them while SAFE_n is low. The twins see it in the sense
frame of the next tick. -/
def execSafeNAssert (s : State) : Out :=
  done (fun d => (d.updFh fun h => { h with safePin := true }).outputsOff) s

/-- SAFE_N_RELEASE (R345): the outputs follow the applied results again from the next tick. -/
def execSafeNRelease (s : State) : Out := done (fun d => d.updFh fun h => { h with safePin := false }) s

/-- Reset is asserted (R346, R347, R537) with the cause RST_CAUSE will show: FLT_n is low, the other open-drain outputs are
released and the EN outputs low. A reset that TESTEN held asserted is over with a new one (R545). -/
def Dev.assertReset (d : Dev) (cause : Nat) : Dev :=
  let rec' := d.die.finalRecord
  let d := d.updFh fun h => { h with rstCause := if d.sup.inReset then h.rstCause else cause, rstRecord := (d.sup.inReset && h.rstRecord) || rec' }
  { d.updSup fun p => { p with inReset := true, testen := false } with
    die := { d.die with fltLow := true, alert0 := false, alert1 := false, en := 0, thr := 0 } }

/-- MR_N_RESET (R346). -/
def execMrNReset (s : State) : Out := done (fun d => (d.enterSafe 6).assertReset 3) s

/-- A crust change in progress is torn (R396): the cell is programmed and its audit record is blank. -/
def Dev.crustTear (d : Dev) : Dev :=
  match d.crust.job with
  | none => d
  | some j => Dev.crustTorn { d with crust := { d.crust.program j.item ⟨j.value, []⟩ with job := none } } j

/-- VAUX_WARN (R347, R396): writes stop, the final record starts, crust programming is torn. -/
def execVauxWarn (s : State) : Out :=
  done (fun d =>
    if d.sup.vauxWarn then d
    else
      let d := (d.updSup fun p => SupplySt.switched { p with vauxWarn := true }).occur 0xA5 0
      (d.finalRecord 2).crustTear) s

/-- VAUX_MIN (R347, R538): reset into the safe state; below 1.8 V it is a power-on reset and no gate stays held. -/
def execVauxMin (below1v8 : Bool) (s : State) : Out :=
  done (fun d =>
    let d := (d.enterSafe 8).assertReset 2
    let d := d.updSup fun p => SupplySt.switched { p with vauxMin := true }
    if below1v8 then
      let d := d.updFh fun h => { h with rstCause := 1 }
      let d := (d.updFeed .a fun f => { f with drive := false, applied := false }).updFeed .b fun f =>
        { f with drive := false, applied := false }
      d
    else d) s

/-- VAUX_RETURN (R347): VAUX_WARN clears and the writes held since resume. -/
def execVauxReturn (s : State) : Out :=
  done (fun d =>
    let d := d.updSup fun p => SupplySt.switched { p with vauxWarn := false, vauxMin := false }
    let d := { d with die := { d.die with finalRecord := false } }
    if d.therm.hold then d else d.nvFlush.bbuFlush) s

/-- HOLD_LOW (R349): the condition holds as long as the event comes again in every frond (log entry 115). -/
def execHoldLow (s : State) : Out :=
  done (fun d =>
    if d.sup.holdLow then d.updSup fun p => { p with holdSeen := true }
    else if d.sup.vauxWarn then d
    else (d.updSup fun p => SupplySt.switched { p with holdLow := true, holdSeen := true }).occur 0xA5 1) s

/-- At a frond boundary HOLD_LOW's condition ends where no event of the frond has said that VHOLD is still low (log entry 115). -/
def Dev.holdFrond (d : Dev) : Dev :=
  d.updSup fun p => SupplySt.switched { p with holdLow := p.holdLow && p.holdSeen, holdSeen := false }

/-- AUTO_ON (R350): at the first frond boundary after the boot replay. -/
def execAutoOn (s : State) : Out :=
  done (fun d =>
    if d.fh.bootReq && d.atBoundary && d.jrn.replayDone then
      let d := d.updFh fun h => { h with bootReq := false }
      let pb := (d.die.sense.map TickIn.pbLow).getD false
      if !d.flag 0xA4 0x40 31 || d.fh.shelf == .halted then d
      else if d.fh.safePin || pb then
        (d.updFh fun h => { h with shelf := .halted, haltSrc := if d.fh.safePin then 2 else 1 }).occur 0xA4 3
      else d.onRequest
    else d) s

/-- TESTEN_HIGH (R545): at reset release TESTEN is high; reset stays asserted, FLT_n is low and no two-wire address is
answered. -/
def execTestenHigh (s : State) : Out :=
  done (fun d =>
    if d.sup.inReset then
      { d.updSup fun p => { p with testen := true } with die := { d.die with fltLow := true } }
    else d) s

/-- The loss of VCORE_S (R32): the safe state, and reset until it is back in range (R348). -/
def Dev.loseCoreS (d : Dev) : Dev :=
  ((d.updSup fun p => { p with vcoreS := false }).enterSafe 8).assertReset 4

/-- VCORE_S_LOSS (R32, R33). -/
def execVcoreSLoss (s : State) : Out := done Dev.loseCoreS s

/-- Loss of a twin's core supply (R32): its PLLs lose lock; die S applies the other twin's copies. -/
def Dev.loseCore (d : Dev) (t : Twin) : Dev :=
  match t with
  | .a => { d.updSup fun p => { p with vcoreA := false } with time := { d.time with lockA := 0 } }
  | .b => { d.updSup fun p => { p with vcoreB := false } with time := { d.time with lockB := 0 } }

/-- VCORE_TWIN_LOSS (R32). -/
def execVcoreTwinLoss (t : Twin) (s : State) : Out := done (fun d => d.loseCore t) s

/-- A region's supply leaves its range (R32, R550). -/
def Dev.vanaLoss (d : Dev) (g : Region) : Dev :=
  let d := match g with
    | .g0 => { d.updSup fun p => { p with vanaG0 := false } with time := { d.time with inG0 := 0 } }
    | .g1 => { d.updSup fun p => { p with vanaG1 := false } with time := { d.time with inG1 := 0 } }
  d.loseRegion g

/-- SUPPLY_OUT_OF_RANGE (R550): the supply is lost at its level (R533). -/
def execSupplyOutOfRange (x : Supply) (s : State) : Out :=
  done (fun d => match x with
    | .vcoreA => d.loseCore .a
    | .vcoreB => d.loseCore .b
    | .vcoreS => d.loseCoreS
    | .vanaG0 => d.vanaLoss .g0
    | .vanaG1 => d.vanaLoss .g1) s

/-- A region's supply is in range again (R540, R550): the region is valid at once, where it was in range at reset release; else
after one full frond, at the boundary that ends it. -/
def Dev.vanaBack (d : Dev) (g : Region) : Dev :=
  let d := match g with
    | .g0 => { d.updSup fun p => { p with vanaG0 := true } with time := { d.time with inG0 := 0 } }
    | .g1 => { d.updSup fun p => { p with vanaG1 := true } with time := { d.time with inG1 := 0 } }
  if !d.regionValid g && !d.vanaLost g then (d.setRegion g true).when (g == .g0) Dev.metRestart else d

/-- SUPPLY_IN_RANGE (R550): a twin's PLLs lock again, at once in the model (log entry 113); a region returns. -/
def execSupplyInRange (x : Supply) (s : State) : Out :=
  done (fun d => match x with
    | .vcoreA => { d.updSup fun p => { p with vcoreA := true } with time := { d.time with lockA := 0x7FF } }
    | .vcoreB => { d.updSup fun p => { p with vcoreB := true } with time := { d.time with lockB := 0x7FF } }
    | .vcoreS => d.updSup fun p => { p with vcoreS := true }
    | .vanaG0 => d.vanaBack .g0
    | .vanaG1 => d.vanaBack .g1) s

/-- A region whose supply was not in range at reset release becomes valid once it has been for one full frond (R540), at a
frond boundary. -/
def Dev.regionFrond (d : Dev) : Dev :=
  let d := { d with time := { d.time with
    inG0 := if d.sup.vanaG0 then satInc 2 d.time.inG0 else 0, inG1 := if d.sup.vanaG1 then satInc 2 d.time.inG1 else 0 } }
  let d : Dev := if d.time.inG0 = 2 ∧ !d.die.validG0 ∧ d.time.lost0 then
      { (d.setRegion .g0 true).metRestart with time := { d.time with lost0 := false } } else d
  if d.time.inG1 = 2 ∧ !d.die.validG1 ∧ d.time.lost1 then
    { d.setRegion .g1 true with time := { d.time with lost1 := false } } else d

end Sys2Proof.Machine
end

