-- ==== Sys2Proof/Machine/Reads.lean ====
section
/-! DEFINITION. What a register read shows: the read-only fields of every page, the snapshot and the held views (R24, R28, R29,
R143, R399, R521, R568). -/

namespace Sys2Proof.Machine

/-- The little-endian word at byte `o` of a list of bytes. -/
def bytesWord (l : List Byte) (o : Nat) : Nat := leNat ((l.drop o).take 4)

/-- A 32-bit mask of the numbers `lo` to `lo + 31` for which `p` holds. -/
def maskOf (lo : Nat) (p : Nat → Bool) : Nat := (upto 32).foldl (fun v i => v + b2n (p (lo + i)) * 2 ^ i) 0

/-- A signed quantity as a register value. -/
def sigWord (x : Int) : Nat := unsigned 32 (sat32 x)

/-- The number of a twin state, a feed state and so on: the position of its constructor. -/
def TwinState.code : TwinState → Nat
  | .out => 0 | .restart => 1 | .resync => 2 | .probation => 3 | .standby => 4 | .active => 5
def RailState.code : RailState → Nat
  | .off => 0 | .softStart => 1 | .regulate => 2 | .softStop => 3 | .faultWait => 4 | .latchedOff => 5
def PhState.code : PhState → Nat
  | .unassigned => 0 | .idle => 1 | .active => 2 | .marked => 3 | .ramp => 4 | .fault => 5 | .lost => 6
def FeedState.code : FeedState → Nat
  | .absent => 0 | .qualify => 1 | .ready => 2 | .turnOn => 3 | .on => 4 | .faultWait => 5 | .latchedOff => 6
def MemberState.code : MemberState → Nat
  | .off => 0 | .waiting => 1 | .onDelay => 2 | .qualifying => 3 | .good => 4 | .lost => 5 | .offDelay => 6 | .stopping => 7
  | .failed => 8 | .blocked => 9 | .unused => 10
def BbuState.code : BbuState → Nat
  | .absent => 0 | .estimating => 1 | .estimated => 2 | .anchored => 3 | .reserve => 4 | .fault => 5
def CapState.code : CapState → Nat
  | .idle => 0 | .filling => 1 | .armed => 2 | .triggered => 3 | .done => 4 | .aborted => 5
def DmaState.code : DmaState → Nat
  | .idle => 0 | .waitOwn => 1 | .run => 2 | .waitReq => 3 | .paused => 4 | .error => 5
def UpdState.code : UpdState → Nat
  | .idle => 0 | .receiving => 1 | .verifying => 2 | .ready => 3 | .armed => 4 | .unconfirmed => 5 | .rollingBack => 6
def MTimeState.code : MTimeState → Nat
  | .free => 0 | .sync => 1 | .resync => 2 | .hold => 3

/-! ### Pages 0x000 to 0x002 and the slot window -/

/-- Bit b of FAULT_SUMi: page 32i + b has BLK_STATUS other than 0 (R411, page 0x000). -/
def Dev.faultSum (d : Dev) (i : Nat) : Nat := maskOf (32 * i) fun p => (pageRow p).isSome && d.status p != 0

/-- Page 0x000 (R521, R522), without SNAP_HOLD. -/
def Dev.ro000 (d : Dev) (off : Nat) : Nat :=
  if off = 0x40 then 0x406453B1
  else if off = 0x44 then Config.devSerial.toNat % 2 ^ 32
  else if off = 0x48 then Config.devSerial.toNat / 2 ^ 32
  else if off = 0x4C then d.upd.fw % 2 ^ 32
  else if off = 0x50 then d.ident.snapCount
  else if off = 0x54 then
    d.die.strap1 % 8 * 2 ^ 12 + d.die.strap0 % 8 * 2 ^ 8 + b2n d.die.fltLow * 4 + b2n d.die.alert1 * 2 + b2n d.die.alert0
  else if 0x60 ≤ off ∧ off < 0x80 then d.faultSum ((off - 0x60) / 4)
  else 0

/-- Page 0x001. -/
def Dev.ro001 (d : Dev) (off : Nat) : Nat :=
  if off = 0x40 then d.time.frond % 2 ^ 32
  else if off = 0x44 then d.time.epoch % 2 ^ 24 * 256 + b2n d.time.aligned * 128 + d.time.inEpoch % 128
  else if off = 0x48 then d.time.lockB * 2 ^ 16 + d.time.lockA
  else 0

/-- Word `w` of entry `i` of the bank that WIN_BANK selects (R73). -/
def Dev.slotWord (d : Dev) (i w : Nat) : Nat :=
  let bank := if d.flag 0x02 0x40 0 then d.sched.bank1 else d.sched.bank0
  match bank[i]? with
  | none => 0
  | some e =>
    if w = 0 then e.w0.toNat else if w = 1 then clrBits e.w1.toNat 0x80000000
    else if w = 2 then clrBits e.w2.toNat 0x0F0000FF else clrBits e.w3.toNat 0x07000000

/-- The version fields of a bank's image. -/
def imageVerReg (loaded : Bool) (v : Nat) : Nat := if loaded then v else v / 2 ^ 16 * 2 ^ 16

/-- Page 0x002 (R69, R74). -/
def Dev.ro002 (d : Dev) (off : Nat) : Nat :=
  let s := d.sched
  if off = 0x44 then
    s.tier.val * 2 ^ 8 + b2n s.armed * 16 + b2n s.checkBusy * 8 + b2n s.loaded1 * 4 + b2n s.loaded0 * 2 + b2n s.active
  else if off = 0x48 then s.swapFrond % 2 ^ 16
  else if off = 0x4C then s.load.other % 2 ^ 12 * 2 ^ 20 + s.load.entry % 2 ^ 12 * 2 ^ 8 + s.load.code % 2 ^ 8
  else if off = 0x50 then s.missB * 2 ^ 16 + s.missA
  else if off = 0x54 then s.lastPhase * 2 ^ 16 + twinIdx s.lastTwin * 2 ^ 12 + s.lastEntry
  else if off = 0x58 then imageVerReg s.loaded0 s.ver0
  else if off = 0x5C then imageVerReg s.loaded1 s.ver1
  else if 0x60 ≤ off ∧ off < 0x70 then nth s.tierFronds ((off - 0x60) / 4) 0
  else if 0x800 ≤ off ∧ off < 0xC00 then d.slotWord (4032 + (off - 0x800) / 16) (off % 16 / 4)
  else 0

/-- The slot-table window, pages 0x010 to 0x01F (R73): entries follow one another from offset 0x040, 252 in a page. -/
def Dev.ro010 (d : Dev) (pg off : Nat) : Nat :=
  if off < 0x40 then 0 else d.slotWord (252 * (pg - 0x10) + (off - 0x40) / 16) (off % 16 / 4)

/-! ### The power array -/

/-- Pages 0x020 to 0x027: CL_COUNTS. -/
def Dev.ro020 (d : Dev) (k off : Nat) : Nat :=
  let c := d.cluster k
  if off = 0x80 then c.parityB * 2 ^ 24 + c.parityA * 2 ^ 16 + min 65535 c.satLast else 0

/-- Pages 0x028 to 0x02B. PG of RAIL_FLAGS is the qualified good of the rail's member (R115, R335). -/
def Dev.ro028 (d : Dev) (r off : Nat) : Nat :=
  let x := d.rail r
  if off = 0x80 then
    x.retryUsed % 16 * 2 ^ 28 + countN 64 (d.isMember r) * 2 ^ 17 + d.nAct r * 2 ^ 10 + x.ptr % 64 * 2 ^ 4 +
      b2n x.derated * 8 + x.st.code
  else if off = 0x84 then
    b2n x.ceiling * 16 + b2n x.setpLost * 8 + b2n x.tracking * 4 + b2n x.limiting * 2 + b2n (d.mbr r).qual
  else if off = 0x88 then sigWord x.ref
  else if off = 0x8C then sigWord x.vAvg
  else if off = 0x90 then sigWord x.iAvg
  else if off = 0x94 then sigWord x.cap
  else 0

/-- Pages 0x030 to 0x06F. -/
def Dev.ro030 (d : Dev) (n off : Nat) : Nat :=
  let u := d.unit n
  if off = 0x48 then u.offset % 2 ^ 12 * 2 ^ 16 + u.slot % 64 * 2 ^ 8 + u.st.code
  else if off = 0x4C then sigWord u.curAvg
  else if off = 0x50 then sigWord (u.temp.getD 0)
  else if off = 0x54 then u.applied % 2 ^ 16
  else if off = 0x58 then u.clamps * 2 ^ 16 + u.flims
  else 0

/-- Page 0x070. -/
def Dev.ro070 (d : Dev) (off : Nat) : Nat :=
  let act (n : Nat) : Bool := (d.unit n).st.switches
  let bad (n : Nat) : Bool := (d.unit n).st == .fault || (d.unit n).st == .lost
  if off = 0x40 then maskOf 0 act else if off = 0x44 then maskOf 32 act
  else if off = 0x48 then maskOf 0 bad else if off = 0x4C then maskOf 32 bad
  else if off = 0x50 then b2n d.die.lockG1 * 2 + b2n d.die.lockG0
  else 0

/-! ### Admission -/

/-- Page 0x074. -/
def Dev.ro074 (d : Dev) (off : Nat) : Nat :=
  let l := d.led
  if off = 0x80 then l.defer * 2 ^ 16 + l.grant
  else if off = 0x84 then l.deny * 2 ^ 16 + l.reduce
  else if off = 0x88 then l.dup * 2 ^ 16 + l.capped
  else if off = 0x8C then l.seqBad * 2 ^ 16 + l.invalid
  else if off = 0x90 then (upto 4).foldl (fun v r => v + nth l.unannRail r 0 * 2 ^ (8 * r)) 0
  else if 0xC0 ≤ off ∧ off < 0x100 then
    let p := d.port ((off - 0xC0) / 4)
    p.lineErr * 2 ^ 24 + p.spacing * 2 ^ 16 + b2n p.stale * 2 + b2n p.linkUp
  else 0

/-- Page 0x075. -/
def Dev.ro075 (d : Dev) (off : Nat) : Nat :=
  let l := d.led
  if off = 0x60 then (if l.learned then l.rho % 2 ^ 16 * 2 ^ 16 + l.lambda % 2 ^ 16 else 0)
  else if off = 0x64 then sigWord l.row
  else if off = 0x68 then
    (if l.freeze then min 65535 (l.freezeEnd - d.now) else 0) * 2 ^ 16 + b2n d.sup.vauxWarn * 8 + b2n l.learned * 4 +
      b2n l.freeze * 2 + b2n l.cons
  else if off = 0x6C then sigWord l.eAv
  else if off = 0x70 then sigWord d.eNeed
  else if off = 0x74 then sigWord l.p54
  else if off = 0x78 then sigWord d.pSh
  else if off = 0x7C then sigWord l.batt
  else if 0x80 ≤ off ∧ off < 0xC0 then
    let r := (off - 0x80) / 16
    let w := off % 16 / 4
    sigWord (if w = 0 then nth l.lim r 0 else if w = 1 then d.ledgerM r else if w = 2 then d.ledgerV r else nth l.therm r 0)
  else 0

/-- The read-only fields of word `w` of grant-table entry `i` (R199). -/
def Dev.gtRead (d : Dev) (i w : Nat) : Nat :=
  let x := d.load i
  if w = 1 then d.gtState i * 2 ^ 28 + x.resv % 2 ^ 12 * 2 ^ 16 + x.alloc % 2 ^ 16
  else if w = 2 then
    x.lastSeq % 2 ^ 8 * 2 ^ 24 + b2n x.seqValid * 2 ^ 23 + x.lastDec % 8 * 2 ^ 20 + x.lastRamp % 16 * 2 ^ 16 + x.lastMag % 2 ^ 12
  else if w = 3 then x.startTseq % 2 ^ 24
  else 0

/-- Page 0x076, and entries 252 to 255 at 0xF00 of page 0x074. -/
def Dev.ro076 (d : Dev) (off : Nat) : Nat :=
  if off < 0x40 then 0 else d.gtRead ((off - 0x40) / 16) (off % 16 / 4)

/-- Page 0x078. -/
def Dev.ro078 (d : Dev) (off : Nat) : Nat :=
  if off = 0x84 then (upto 16).foldl (fun v n => v + (d.port n).level % 4 * 2 ^ (2 * n)) 0
  else if 0xC0 ≤ off ∧ off < 0x100 then
    let p := d.port ((off - 0xC0) / 4)
    p.unannTotal * 2 ^ 16 + p.unann % 2 ^ 8
  else 0

/-! ### Sensing -/

/-- Page 0x080. -/
def Dev.ro080 (d : Dev) (off : Nat) : Nat :=
  let c := d.sense.cal
  if off = 0x80 then c.rotations * 2 ^ 16 + c.window % 2 ^ 7 * 2 ^ 6 + c.frond % 64
  else if off = 0x84 then (upto 8).foldl (fun v k => v + nth c.subst k 8 % 16 * 2 ^ (4 * k)) 0
  else if off = 0x88 then b2n c.preFailed * 32 + c.preSubst % 32
  else if off = 0x8C then c.deferCount * 2 ^ 16 + c.deferLast % 128
  else if off = 0x90 then maskOf 0 fun n => (d.unit n).imonInv
  else if off = 0x94 then maskOf 32 fun n => (d.unit n).imonInv
  else 0

/-- Page 0x081. -/
def Dev.ro081 (d : Dev) (off : Nat) : Nat :=
  if off = 0x80 then
    (clampI 0 65535 (Config.rdiv 76 (nth d.sense.intmon 13 0 * 1000) 65536)).toNat * 2 ^ 16 + b2n d.sense.ref.fallback * 8 + b2n d.sense.ref.settled * 4 +
      d.sense.ref.inUse % 4
  else 0

/-- Page 0x082 (R222 to R225). -/
def Dev.ro082 (d : Dev) (off : Nat) : Nat :=
  if off = 0x44 then d.sense.aux.passes * 2 ^ 16 + d.sense.aux.entry % 256
  else if 0x500 ≤ off ∧ off < 0x580 then sigWord (d.auxIn ((off - 0x500) / 4)).res
  else if 0x580 ≤ off ∧ off < 0x600 then
    let x := d.auxIn ((off - 0x580) / 4)
    x.entry % 256 * 2 ^ 8 + b2n x.stale * 16 + b2n x.overF * 8 + b2n x.openWire * 4 + b2n x.invalid * 2 + b2n x.unsettled
  else 0

/-- Pages 0x084 to 0x094. -/
def Dev.ro084 (d : Dev) (c off : Nat) : Nat :=
  let p := d.pre c
  if off = 0x80 then p.gainTrim % 2 ^ 16 * 2 ^ 16 + p.offTrim % 2 ^ 16
  else if off = 0x84 then sigWord p.met
  else if off = 0x88 then
    p.metCount % 2 ^ 16 * 2 ^ 16 + b2n p.failed * 32 + b2n p.metSub * 16 + b2n p.openWire * 8 + b2n p.metOver * 4 +
      b2n p.metRef * 2 + b2n p.metUnset
  else if c = 15 ∧ 0xC0 ≤ off ∧ off < 0x110 then sigWord (nth d.sense.intmon ((off - 0xC0) / 4) 0)
  else 0

/-! ### Feeds, hot-swaps and modules -/

/-- One feed's byte of FEED_STATE. -/
def Dev.feedBits (d : Dev) (f : FeedId) : Nat :=
  let x := d.feed f
  b2n (d.feedEn f) * 64 + b2n x.fullOn * 32 + b2n x.pg * 16 + x.st.code

/-- FEED_STATE. -/
def Dev.feedState (d : Dev) : Nat :=
  d.feedB.retryUsed % 16 * 2 ^ 28 + d.feedA.retryUsed % 16 * 2 ^ 24 + b2n d.xfer.active * 2 ^ 18 +
    (match d.carry with
      | none => 0
      | some .a => 1
      | some .b => 2) * 2 ^ 16 + d.feedBits .b * 2 ^ 8 + d.feedBits .a

/-- Page 0x098; FEED_PRIO is the crust's (R391, item 2). -/
def Dev.ro098 (d : Dev) (off : Nat) : Nat :=
  if off = 0x44 then leNat (d.crustVal 2) % 2
  else if off = 0x80 then d.feedState
  else if off = 0x84 then sigWord (d.pre 5).avg
  else if off = 0x88 then sigWord (d.pre 6).avg
  else if off = 0x8C then sigWord (d.pre 7).avg
  else if off = 0x90 then sigWord (d.pre 8).avg
  else if off = 0x94 then sigWord (d.pre 4).avg
  else if off = 0x98 then d.xfer.count * 2 ^ 16 + min 65535 d.xfer.lastDur
  else 0

/-- Page 0x099. -/
def Dev.ro099 (d : Dev) (off : Nat) : Nat :=
  if off = 0x80 then
    (upto 4).foldl (fun v r =>
      let h := d.hsw r
      v + (b2n h.on * 64 + b2n h.pg * 32 + b2n (decide (0 < h.acc)) * 16 + d.hsState r) * 2 ^ (8 * r)) 0
  else if 0x90 ≤ off ∧ off < 0xA0 then sigWord (Config.rdiv 61 (d.hsw ((off - 0x90) / 4)).acc 2000)
  else if off = 0xA0 then (upto 4).foldl (fun v r => v + (d.hsw r).trips % 256 * 2 ^ (8 * r)) 0
  else 0

/-- BAND_PCT: the out-of-band share of the present learning cycle, in %. -/
def Bbu.bandPct (b : Bbu) : Nat :=
  if b.lFronds = 0 then 0 else (clampI 0 255 (Config.rdiv 62 (100 * (b.lOut : Int)) b.lFronds)).toNat

/-- A charge in units of 1/64,000,000 As as a register value in energy format. -/
def chargeWord (site : Nat) (q : Int) : Nat := sigWord (Config.rdiv site (q * 256) 64000000)

/-- Pages 0x09C to 0x09F; BBU_COMPAT and the class records are the crust's. -/
def Dev.ro09C (d : Dev) (m off : Nat) : Nat :=
  let b := d.bbu m
  if off = 0x80 then
    b.soc % 256 * 2 ^ 24 + b2n (!b.pendCap.isEmpty) * 2 ^ 15 + b2n b.loaded * 2 ^ 14 + b.idCode % 8 * 2 ^ 11 +
      b2n (d.bbuCompat m) * 2 ^ 10 + b2n b.learning * 2 ^ 9 + b2n b.relearn * 2 ^ 8 + b2n b.chgBlock * 2 ^ 7 +
      b2n b.chgOn * 2 ^ 6 + b.st.code
  else if off = 0x84 then chargeWord 63 b.q
  else if off = 0x88 then chargeWord 64 b.c
  else if off = 0x8C then chargeWord 65 b.r
  else if off = 0x90 then sigWord (d.bbuRuntime m)
  else if off = 0x94 then sigWord b.temp
  else if off = 0x98 then sigWord b.v
  else if off = 0x9C then sigWord b.iAvg
  else if off = 0xA0 then b.cycles * 2 ^ 16 + b.lastResult % 16 * 2 ^ 8 + b.bandPct
  else if m = 0 ∧ off = 0xE0 then leNat (d.crustVal 9) % 16
  else if m = 0 ∧ 0x800 ≤ off ∧ off < 0x940 then
    bytesWord (nth d.crust.chem ((off - 0x800) / 80) []) ((off - 0x800) % 80)
  else 0

/-! ### Twins, work, fiddlehead, thermal -/

/-- Page 0x0A0. -/
def Dev.ro0A0 (d : Dev) (off : Nat) : Nat :=
  let t := d.twin
  if off = 0x48 then
    (max (if t.a.st = .probation then t.a.prob else 0) (if t.b.st = .probation then t.b.prob else 0)) % 128 * 2 ^ 16 +
      b2n d.single * 2 ^ 10 + b2n t.suspend * 2 ^ 9 + twinIdx d.activeTwin * 2 ^ 8 + t.b.st.code * 16 + t.a.st.code
  else if off = 0x4C then t.missing * 2 ^ 16 + t.disagree
  else if off = 0x50 then t.held * 2 ^ 16 + t.b.quar * 2 ^ 8 + t.a.quar
  else if off = 0x54 then t.lastRule * 2 ^ 29 + twinIdx t.lastTwin * 2 ^ 28 + t.lastField * 2 ^ 24 + t.lastTseq % 2 ^ 24
  else if off = 0x58 then t.b.frondCount * 2 ^ 24 + t.a.frondCount * 2 ^ 16 + t.b.tickCount * 2 ^ 8 + t.a.tickCount
  else if off = 0x5C then t.b.selfErrs * 2 ^ 16 + t.a.selfErrs
  else if off = 0x60 then t.resPages * 2 ^ 16 + t.resTicks
  else 0

/-- The completion-ring entry `i` is held. -/
def Dev.compHeld (d : Dev) (i : Nat) : Bool := decide ((i + 128 - d.jrn.compRd) % 128 < d.jrn.held)

/-- Page 0x0A1; COMP_RD reads the index that completions and reads move (R319). -/
def Dev.ro0A1 (d : Dev) (off : Nat) : Nat :=
  let j := d.jrn
  let src := nth j.sources (d.fld 0xA1 0x54 4 0) none
  if off = 0x40 then j.next else if off = 0x44 then j.boot
  else if off = 0x48 then j.compWr
  else if off = 0x4C then j.compRd
  else if off = 0x50 then d.pendingItems * 2 ^ 8 + j.held
  else if off = 0x58 then (src.map fun x => x.id * 2 ^ 16 + x.h).getD 0
  else if off = 0x5C then (src.map fun x => 2 ^ 8 + min 255 x.flight.length).getD 0
  else if off = 0x60 then j.duplicate * 2 ^ 16 + j.accepted
  else if off = 0x64 then j.lastCode * 2 ^ 16 + j.refused
  else if off = 0x68 then j.stepDenied * 2 ^ 16 + j.itemsFailed
  else if 0x800 ≤ off then
    let i := (off - 0x800) / 16
    if d.compHeld i then bytesWord (d.placeRead (compPlace i)) (off % 16) else 0
  else 0

/-- Page 0x0A4; FH_FAILED is W1C. -/
def Dev.ro0A4 (d : Dev) (off : Nat) : Nat :=
  let h := d.fh
  if off = 0x80 then
    h.order.length * 2 ^ 16 + b2n (d.sup.vauxWarn && h.shelf == .poweringUp) * 64 + h.haltSrc * 16 + b2n h.onLatch * 8 +
      h.shelf.code
  else if off = 0x84 then maskOf 0 fun i => (d.mbr i).st == .good
  else if off = 0x88 then h.failed
  else if 0x100 ≤ off ∧ off % 0x20 = 0x10 then
    let i := (off - 0x100) / 0x20
    let m := d.mbr i
    min 255 m.chg.length * 2 ^ 24 + (h.order.findIdx? (· == i)).getD 0x3F % 64 * 2 ^ 16 + m.cause % 16 * 16 + m.st.code
  else 0

/-- Page 0x0A5. -/
def Dev.ro0A5 (d : Dev) (off : Nat) : Nat :=
  let h := d.fh
  if off = 0x80 then
    min 65535 (if h.press then h.pressLen else 0) * 2 ^ 16 + b2n d.sup.holdLow * 8 + b2n h.safeTick * 4 + b2n h.press * 2 +
      b2n d.sup.vauxWarn
  else if off = 0x84 then b2n h.rstRecord * 2 ^ 8 + h.rstCause
  else if off = 0x88 then b2n d.jrn.replayDone * 4 + b2n h.passB * 2 + b2n h.passA
  else 0

/-- Page 0x0A8; STAGE_SHUT is W1C. -/
def Dev.ro0A8 (d : Dev) (off : Nat) : Nat :=
  let t := d.therm
  if off = 0x80 then
    (clampI 0 255 t.margin).toNat * 2 ^ 24 + b2n t.rateEn * 2 ^ 10 + b2n t.hold * 2 ^ 9 + b2n t.boardWarn * 2 ^ 8 +
      b2n (t.stWarn.any id) * 2 ^ 7 + b2n t.dieWarn * 2 ^ 6 + d.sched.tierNext.val * 16
  else if off = 0x84 then sigWord t.dieMax
  else if off = 0x88 then sigWord t.dieRate
  else if off = 0x8C then sigWord d.stageMax
  else if 0xC0 ≤ off ∧ off < 0xE8 then sigWord (nth t.a ((off - 0xC0) / 4) 0)
  else if 0xF0 ≤ off ∧ off < 0x118 then sigWord (nth t.b ((off - 0xF0) / 4) 0)
  else if off = 0x120 then t.susS % 2 ^ 11 * 2 ^ 20 + t.susB % 2 ^ 10 * 2 ^ 10 + t.susA % 2 ^ 10
  else if off = 0x124 then maskOf 0 t.suspect
  else if off = 0x128 then maskOf 32 t.suspect
  else if off = 0x12C then maskOf 0 fun n => (d.unit n).hold
  else if off = 0x130 then maskOf 32 fun n => (d.unit n).hold
  else if off = 0x134 then maskOf 0 fun n => nth t.stShut n false
  else if off = 0x138 then maskOf 32 fun n => nth t.stShut n false
  else if 0x140 ≤ off ∧ off < 0x160 then sigWord (nth t.board ((off - 0x140) / 4) 0)
  else 0

/-! ### Stores -/

/-- Page 0x0B0. -/
def Dev.ro0B0 (d : Dev) (off : Nat) : Nat :=
  let n := d.nv
  let r := d.fld 0xB0 0x4C 6 0
  if off = 0x40 then
    (match n.busyA, n.busyB with
      | some p, _ => p
      | none, some p => p
      | none, none => 0) % 2 ^ 14 * 2 ^ 16 + b2n n.busyB.isSome * 2 + b2n n.busyA.isSome
  else if off = 0x44 then n.corrected * 2 ^ 16 + n.repaired
  else if off = 0x48 then n.ties * 2 ^ 16 + n.tiePage % 2 ^ 14
  else if off = 0x50 then nth n.forceGen r 0 % 2 ^ 32
  else if off = 0x54 then b2n (nth n.gen r 0 != nth n.forceGen r 0) * 2 ^ 8 + nth n.force r 0 % 64
  else 0

/-- The latest and the oldest retained SEQ of the peat log, modulo 2^32: 0 while the log is empty (R383). -/
def PeatSt.head (p : PeatSt) : Nat := if p.count = 0 then 0 else (p.next + 2 ^ 32 - 1) % 2 ^ 32
def PeatSt.tail (p : PeatSt) : Nat := if p.count = 0 then 0 else (p.next + 2 ^ 32 - p.count) % 2 ^ 32

/-- Page 0x0B1 (R389). -/
def Dev.ro0B1 (d : Dev) (off : Nat) : Nat :=
  let p := d.peat
  if off = 0x80 then p.head
  else if off = 0x84 then p.tail
  else if off = 0x88 then p.tapFull * 2 ^ 16 + p.merged
  else if off = 0x90 then b2n p.gone * 2 + b2n p.rdReady
  else if 0x800 ≤ off ∧ off < 0xA00 then (if p.rdReady then bytesWord p.data (off - 0x800) else 0)
  else 0

/-- Cell `k` of an item: cell 0 is the shipped value. -/
def Dev.crustCell (d : Dev) (i k : Nat) : List Byte :=
  if k = 0 then crustShipped i else (((d.crustChanges i)[k - 1]?).map CrustChange.value).getD []

/-- Page 0x0B2. -/
def Dev.ro0B2 (d : Dev) (off : Nat) : Nat :=
  let i := d.fld 0xB2 0x40 4 0
  let k := d.fld 0xB2 0x40 14 8
  let shown := k != 0 && decide (k ≤ d.crustUsed i)
  if off = 0x44 then
    crustWidth i * 2 ^ 24 + crustBudget i * 2 ^ 16 + d.crustUsed i * 2 ^ 8 + b2n ((d.crustChanges i).any CrustChange.torn) * 4 +
      b2n (d.crustFrozen i) * 2 + b2n d.crust.job.isSome
  else if off = 0x48 then d.crust.votes
  else if 0x200 ≤ off ∧ off < 0x260 then (if i = 7 then 0 else bytesWord (d.crustVal i) (off - 0x200))
  else if 0x300 ≤ off ∧ off < 0x310 then
    (if shown then bytesWord ((((d.crustChanges i)[k - 1]?).map CrustChange.audit).getD []) (off - 0x300) else 0)
  else if 0x400 ≤ off ∧ off < 0x460 then (if shown then bytesWord (d.crustCell i (k - 1)) (off - 0x400) else 0)
  else if 0x500 ≤ off ∧ off < 0x560 then (if shown then bytesWord (d.crustCell i k) (off - 0x500) else 0)
  else if 0x600 ≤ off ∧ off < 0x630 then bytesWord (padTo 48 Config.vendorHash) (off - 0x600)
  else 0

/-! ### Two-wire ports, Mieno, DMA, update, capture -/

/-- Pages 0x0B8 and 0x0B9. -/
def Dev.ro0B8 (d : Dev) (n off : Nat) : Nat :=
  let t := d.twt n
  if off = 0x40 then t.base % 128 * 2 ^ 16
  else if off = 0x44 then t.page % 256 * 2 ^ 24 + t.hnPend % 8 * 2 ^ 16 + t.lastCode % 256 * 2 ^ 8
  else if off = 0x48 then t.blocks * 2 ^ 16 + t.errors
  else 0

/-- Pages 0x0BA to 0x0BD. -/
def Dev.ro0BA (d : Dev) (c off : Nat) : Nat :=
  let t := d.twc c
  if off = 0x44 then t.arbIndex % 256 * 2 ^ 16 + t.addr % 128 * 2 ^ 8 + b2n t.stuck
  else if off = 0x48 then t.done * 2 ^ 16 + t.failed
  else if 0x104 ≤ off ∧ off < 0x184 ∧ (off - 0x104) % 8 = 0 then
    let p := nth t.polls ((off - 0x104) / 8) .reset
    b2n p.valid * 2 ^ 31 + p.fails * 2 ^ 16 + p.value % 2 ^ 16
  else 0

/-- Page 0x0C0. -/
def Dev.ro0C0 (d : Dev) (off : Nat) : Nat :=
  let m := d.mie
  if off = 0x44 then b2n (d.rowRole 1) * 2 ^ 17 + b2n (d.rowRole 0) * 2 ^ 16 + d.rowId
  else if off = 0x48 then
    (b2n m.mw.up * 2 ^ 15 + b2n m.mw.nbValid * 2 ^ 14 + m.mw.nb % 2 ^ 10) * 2 ^ 16 +
      (b2n m.me.up * 2 ^ 15 + b2n m.me.nbValid * 2 ^ 14 + m.me.nb % 2 ^ 10)
  else if off = 0x4C then
    unsigned 16 (Config.rdiv 60 m.mw.delay 4096) * 2 ^ 16 + unsigned 16 (Config.rdiv 60 m.me.delay 4096)
  else if off = 0x80 then m.crcErr * 2 ^ 16 + m.dup
  else if off = 0x84 then m.rxDrop * 2 ^ 16 + m.hopExpired
  else if off = 0x88 then m.queueDrop * 2 ^ 16 + m.unknown
  else if off = 0x180 then b2n m.fabRx.valid * 2 ^ 31 + m.fabRx.outcome * 2 ^ 16 + m.fabRx.status * 2 ^ 8 + m.fabRx.index
  else if off = 0x184 then m.fabRx.seq * 2 ^ 16 + m.fabRx.result
  else 0

/-- STATE of MEMBER_INFO; where several codes fit, the order is the model's (log entry 22). -/
def Dev.memberCode (d : Dev) (id : Nat) : Nat :=
  match d.member id with
  | none => 0
  | some x =>
    if !x.heard then 0 else if x.conflict then 4 else if x.silent then 2
    else match x.adv with
      | none => 5
      | some a =>
        if !compatible a.ver a.compat d.imageVer d.compatMin then 3 else if (x.advertOf d.epoch32).isNone then 5 else 1

/-- Page 0x0C1; VALID of ROW_EXT reads 0 once the value has expired. -/
def Dev.ro0C1 (d : Dev) (off : Nat) : Nat :=
  let m := d.mie
  let id := d.fld rowPg 0x8C 9 0
  let adv := (d.member id).bind RowMember.adv
  if off = 0x80 then
    m.src.getD 0 * 2 ^ 22 + m.srcCls % 4 * 2 ^ 20 + b2n (m.src == some d.rowId) * 2 ^ 19 + b2n m.mismatch * 2 ^ 18 +
      b2n d.standalone * 2 ^ 17 + b2n m.excluded * 2 ^ 16 + m.cause % 16 * 2 ^ 12 + m.decay % 16 * 2 ^ 8
  else if off = 0x84 then m.lastEntry * 2 ^ 16 + m.lastEpoch % 2 ^ 16
  else if off = 0x88 then m.exMembers % 2 ^ 16 * 2 ^ 16 + (m.members.filter RowMember.heard).length
  else if off = 0x90 then (adv.map fun a => a.max % 2 ^ 16 * 2 ^ 16 + a.demand % 2 ^ 16).getD 0
  else if off = 0x94 then d.memberCode id * 2 ^ 28 + (adv.map fun a => a.ver % 2 ^ 16).getD 0
  else if off = 0x98 then bytesWord d.shortDigest 0
  else if off = 0x9C then bytesWord d.shortDigest 4
  else 0

/-- Page 0x0C2. -/
def Dev.ro0C2 (d : Dev) (off : Nat) : Nat :=
  let m := d.mie
  let ns := if m.tst = .free then 0 else d.mieNs
  if off = 0x40 then ns % 2 ^ 32
  else if off = 0x44 then ns / 2 ^ 32 % 2 ^ 32
  else if off = 0x48 then
    m.master.getD 0 * 2 ^ 22 + b2n d.isMaster * 2 ^ 19 + b2n m.degraded * 2 ^ 18 + d.timeClass % 4 * 2 ^ 16 + m.tst.code
  else if off = 0x4C then sigWord m.off
  else 0

/-- Page 0x0C8. -/
def Dev.ro0C8 (d : Dev) (off : Nat) : Nat :=
  if off < 0x100 then 0
  else
    let h := d.ch ((off - 0x100) / 0x20)
    let w := off % 0x20
    if w = 0x08 then h.err % 64 * 2 ^ 16 + h.st.code
    else if w = 0x0C then h.desc else if w = 0x10 then h.src else if w = 0x14 then h.dst else if w = 0x18 then h.remain
    else if w = 0x1C then h.done * 2 ^ 16 + h.withdrawn
    else 0

/-- Bytes covered by the coverage map (R500). -/
def UpdSt.filled (u : UpdSt) : Nat := min u.total (8 * u.covered.length)

/-- Page 0x0D0. -/
def Dev.ro0D0 (d : Dev) (off : Nat) : Nat :=
  let u := d.upd
  if off = 0x80 then
    u.session * 2 ^ 16 + u.setBank % 2 * 32 + b2n u.newVerified * 16 + u.runSlot % 2 * 8 + u.st.code
  else if off = 0x84 then u.owner
  else if off = 0x88 then u.filled % 2 ^ 20
  else if off = 0x8C then
    (if u.st = .unconfirmed then (clampI 0 65535 (Config.rdiv 59 (2 * (u.left : Int)) 15625)).toNat else 0) * 2 ^ 16 +
      u.target % 2 ^ 16
  else if off = 0x90 then u.result
  else if off = 0xCC then u.chunkSt
  else 0

/-- Page 0x0D1. -/
def Dev.ro0D1 (d : Dev) (off : Nat) : Nat :=
  if off = 0x40 then b2n ((d.crustVal 6).any (· != 0#8)) * 2 ^ 16 + leNat (d.crustVal 5) % 2 ^ 16
  else if off = 0x44 then leNat (d.crustVal 10)
  else if off = 0x48 then leNat (d.crustVal 11)
  else if 0x100 ≤ off ∧ off < 0x160 then bytesWord (d.crustVal 6) (off - 0x100)
  else 0

/-- Page 0x0E0. -/
def Dev.ro0E0 (d : Dev) (off : Nat) : Nat :=
  let c := d.cap
  if off = 0x60 then d.inj.stopCause % 8 * 2 + b2n d.inj.running
  else if off = 0x90 then b2n c.armRefused * 32 + b2n c.abortTier * 16 + b2n c.rdReady * 8 + c.st.code
  else if off = 0x94 then c.trigTseq % 2 ^ 24
  else if off = 0x98 then c.trigIndex % 2 ^ 20
  else if 0x400 ≤ off ∧ off < 0x800 then (if c.rdReady then nth c.data ((off - 0x400) / 4) 0 else 0)
  else 0

/-! ### Reads -/

/-- The read-only fields of a register of a page's block, from one view of the block. -/
def Dev.roBlock (d : Dev) (pg off : Nat) : Nat :=
  if pg = 0 then d.ro000 off else if pg = 1 then d.ro001 off else if pg = 2 then d.ro002 off
  else if pg < 0x20 then d.ro010 pg off
  else if pg < 0x28 then d.ro020 (pg - 0x20) off
  else if pg < 0x2C then d.ro028 (pg - 0x28) off
  else if pg < 0x70 then d.ro030 (pg - 0x30) off
  else if pg = 0x70 then d.ro070 off
  else if pg = 0x74 then (if 0xF00 ≤ off then d.gtRead (252 + (off - 0xF00) / 16) (off % 16 / 4) else d.ro074 off)
  else if pg = 0x75 then d.ro075 off
  else if pg = 0x76 then d.ro076 off
  else if pg = 0x78 then d.ro078 off
  else if pg = 0x80 then d.ro080 off
  else if pg = 0x81 then d.ro081 off
  else if pg = 0x82 then d.ro082 off
  else if pg < 0x95 then d.ro084 (pg - 0x84) off
  else if pg = 0x98 then d.ro098 off
  else if pg = 0x99 then d.ro099 off
  else if pg < 0xA0 then d.ro09C (pg - 0x9C) off
  else if pg = 0xA0 then d.ro0A0 off
  else if pg = 0xA1 then d.ro0A1 off
  else if pg = 0xA4 then d.ro0A4 off
  else if pg = 0xA5 then d.ro0A5 off
  else if pg = 0xA8 then d.ro0A8 off
  else if pg = 0xB0 then d.ro0B0 off
  else if pg = 0xB1 then d.ro0B1 off
  else if pg = 0xB2 then d.ro0B2 off
  else if pg < 0xBA then d.ro0B8 (pg - 0xB8) off
  else if pg < 0xBE then d.ro0BA (pg - 0xBA) off
  else if pg = 0xC0 then d.ro0C0 off
  else if pg = 0xC1 then d.ro0C1 off
  else if pg = 0xC2 then d.ro0C2 off
  else if pg = 0xC8 then d.ro0C8 off
  else if pg = 0xD0 then d.ro0D0 off
  else if pg = 0xD1 then d.ro0D1 off
  else if pg = 0xE0 then d.ro0E0 off
  else 0

/-- Whether the read-only fields of a register are current, and do not come from the snapshot: the pages that their chapters
state to be current, and the values that the data plane writes as produced (R24, R521; log entry 23). The results of the schedule
monitor on page 0x002, MISS_COUNT and LAST_MISS, are control-plane values (R8, R60) and come from the snapshot (R22). -/
def liveReg (pg off : Nat) : Bool :=
  (decide (0x10 ≤ pg) && decide (pg < 0x20)) || (pg == 0x02 && off != 0x50 && off != 0x54) ||
    [0xB1, 0xB2, 0xB8, 0xB9, 0xBA, 0xBB, 0xBC, 0xBD, 0xC8, 0xD0, 0xD1].contains pg ||
    (pg == 0x75 && (off == 0x60 || off == 0x64)) || (pg == 0x82 && decide (0x500 ≤ off)) ||
    (decide (0x84 ≤ pg) && decide (pg < 0x95) && (off == 0x84 || off == 0x88)) ||
    (pg == 0xE0 && decide (0x80 ≤ off)) || (pg == 0xA1 && off == 0x4C)

/-- The view that an access path reads: the held one on TW0 and TW1 while a hold is in force (R521). -/
def State.view (s : State) : Path → Dev
  | .tw0 => s.held0.getD s.snap
  | .tw1 => s.held1.getD s.snap
  | .fabric => s.snap
  | .firmware => s.snap

/-- What SNAP_HOLDn reads. -/
def State.snapHold (s : State) (n : Nat) : Nat :=
  let held := if n = 0 then s.held0 else s.held1
  let req := if n = 0 then s.d.ident.req0 else s.d.ident.req1
  b2n req * 2 ^ 31 + (match held with
    | none => 0
    | some v => 2 ^ 16 + v.ident.snapCount % 2 ^ 16)

/-- The lock opened by a path on a page. -/
def Dev.lockOf (d : Dev) (p : Path) (pg : Nat) : Option Lock := d.regs.locks.find? fun l => l.path == p && l.page == pg

/-- The common registers of a page (R28, R480, R481): BLK_STATUS and BLK_CAUSE of a control-plane block come from the
snapshot. -/
def State.readCommon (s : State) (p : Path) (pg off : Nat) : Nat :=
  let b := (if pagePlane pg = .control then s.view p else s.d).statOf pg
  if off = 0 then blkId pg
  else if off = 4 then s.d.cfgRead pg off ||| (if pg = 0 then 1 else 0)
  else if off = 8 then b.status
  else if off = 0x0C then s.d.cfgRead pg off
  else if off = 0x14 then b.causeReg
  else if off = 0x18 then b2n (s.d.lockOf p pg).isSome
  else if off = 0x1C then b2n (s.d.regs.commits.any fun c => c.page == pg)
  else 0

/-- The W1C fields that are no BLK_STATUS read as their state; write-only fields read 0. -/
def State.readBlock (s : State) (p : Path) (pg off : Nat) : Nat :=
  let ro := (if liveReg pg off then s.d else s.view p).roBlock pg off
  if pg = 0 ∧ (off = 0x58 ∨ off = 0x5C) then s.snapHold ((off - 0x58) / 4)
  else if pg = 0xA1 ∧ off = 0x4C then ro
  else if isCoeff pg off then
    (if (alGet s.d.regs.shadow (regAddr pg off)).isSome then s.d.cfgRead pg off
     else (s.view p).coeffLive pg off &&& ((regRow pg off).map RegRow.rws).getD 0)
  else if pg = 0xC1 ∧ off = 0x48 then
    (if s.d.extValid || (alGet s.d.regs.deferred (regAddr pg off)).isSome then s.d.cfgRead pg off else s.d.cfgRead pg off % 2 ^ 31)
  else s.d.cfgRead pg off ||| ro

/-- A register read on a path (R29): an offset without a register, or a page that is not implemented, reads 0. -/
def State.readReg (s : State) (p : Path) (pg off : Nat) : Nat :=
  if (regRow pg off).isNone then 0
  else if off < 0x40 then s.readCommon p pg off
  else s.readBlock p pg off

end Sys2Proof.Machine
end

