-- ==== Sys2Proof/Machine/Peat.lean ====
section
/-! DEFINITION. The peat log (R26, R383 to R389) and the slow writes of image pages (R375 to R377). -/

namespace Sys2Proof.Machine

def Dev.updPeat (d : Dev) (f : PeatSt → PeatSt) : Dev := { d with peat := f d.peat }

/-! ### The wave fields (R385) -/

/-- The delta of two 16-bit samples, in 16-bit two's complement. -/
def waveDelta (a b : Nat) : Int := signed 16 (b + 65536 - a % 65536)

/-- The deltas of a list of samples, oldest first. -/
def deltas : List Nat → List Int
  | [] => []
  | [_] => []
  | a :: b :: l => waveDelta a b :: deltas (b :: l)

/-- Whether a delta fits `w` bits of two's complement. -/
def fitsW (w : Nat) (x : Int) : Bool := decide (-(2 ^ (w - 1)) ≤ x) && decide (x < 2 ^ (w - 1))

/-- The smallest width from 2 to 16 that holds every delta. -/
def deltaWidth (l : List Int) : Nat := ((upto 15).map (2 + ·)).find? (fun w => l.all (fitsW w)) |>.getD 16

/-- One wave field of 96 bytes, from the samples held, latest first; it keeps no more samples than are held. -/
def waveField (buf : List Nat) : List Byte :=
  let s := (buf.take 128).reverse
  let w := deltaWidth (deltas s)
  let n := min s.length (min 128 (1 + 736 / w))
  let kept := s.drop (s.length - n)
  let packed := ((deltas kept).zipIdx).foldl (fun a x => a + unsigned w x.1 * 2 ^ (w * x.2)) 0
  leBytes 2 (kept.headD 0) ++ [BitVec.ofNat 8 w, BitVec.ofNat 8 n] ++ leBytes 92 packed

/-- A sample of the four signals is taken every 2^DECIM ticks from the halfwords of the sense frame's words 8 to 56. -/
def Dev.peatSample (d : Dev) (frame : List Nat) : Dev :=
  if d.now % 2 ^ d.fld 0xB1 0x44 10 8 ≠ 0 then d
  else
    let sig (i : Nat) : Nat :=
      let h := min 97 (d.fld 0xB1 0x40 (8 * i + 7) (8 * i))
      bits (nth frame (8 + h / 2) 0) (16 * (h % 2) + 15) (16 * (h % 2))
    d.updPeat fun p => { p with bufs := (upto 4).map fun i => (sig i :: nth p.bufs i []).take 128 }

/-! ### Records (R384) -/

/-- A quantity as a 16-bit field. -/
def half16 (site : Nat) (x den : Int) : List Byte := leBytes 2 (unsigned 16 (Config.rdiv site x den))

/-- A record without SEQ, TAP_LOST and CRC: the time of the latest frond boundary (R445), the snapshot of the present tick and the
wave fields. -/
def Dev.peatRecord (d : Dev) (t : PeatTrig) : List Byte :=
  let held := d.timeHeld
  let wave := d.peat.bufs.all fun b => 2 ≤ b.length
  let bus := (if d.die.validG0 then nth d.die.words.pre 4 noSample else noSample).toNat
  leBytes 4 0 ++ leBytes 8 (if held then d.mie.bnd else 0) ++ leBytes 3 d.time.tseq ++
    [BitVec.ofNat 8 (b2n held + 8 * b2n wave), BitVec.ofNat 8 t.kind, BitVec.ofNat 8 t.bit] ++ leBytes 2 t.page ++
    leBytes 2 t.code ++
    [BitVec.ofNat 8 (d.twin.a.st.code + 8 * d.twin.b.st.code + 64 * twinIdx d.activeTwin + 128 * b2n d.twin.suspend),
     BitVec.ofNat 8 d.sched.tier.val] ++ leBytes 2 d.jrn.boot ++ leBytes 6 0 ++
    ((upto 4).map fun r =>
      let x := d.rail r
      BitVec.ofNat 8 (x.st.code + 8 * b2n (d.mbr r).qual + 16 * b2n x.limiting + 32 * b2n x.derated)) ++
    ((upto 4).flatMap fun r => half16 66 (d.rail r).vs 32 ++ half16 67 (d.rail r).ir 8192) ++
    leBytes 4 (d.ro070 0x40) ++ leBytes 4 (d.ro070 0x44) ++ leBytes 4 (d.ro070 0x48) ++ leBytes 4 (d.ro070 0x4C) ++
    leBytes 4 d.feedState ++ leBytes 2 bus ++ half16 68 d.pSh 1024 ++
    ((upto 4).map fun m => BitVec.ofNat 8 ((d.bbu m).st.code + 8 * b2n (!(d.bbu m).pendCap.isEmpty))) ++
    leBytes 4 (d.ro078 0x84) ++ half16 69 d.led.row 4096 ++ leBytes 2 (clampI 0 65535 d.led.eAv).toNat ++
    leBytes 1 (d.ro075 0x68 % 16) ++ leBytes 7 0 ++ (upto 4).flatMap d.capField ++
    (upto 4).flatMap fun i => waveField (nth d.peat.bufs i [])

/-- Fronds that have passed since frond number `n`, which is 32 bits wide. -/
def Dev.frondsSince (d : Dev) (n : Nat) : Nat := (d.time.frond + 2 ^ 32 - n % 2 ^ 32) % 2 ^ 32

/-- The standing final record is refreshed at a frond boundary (R388); deposits older than the longest HOLDOFF are forgotten. -/
def Dev.peatStanding (d : Dev) : Dev :=
  d.updPeat fun p =>
    { p with standing := d.peatRecord ⟨0, 0xFFFF, 0, 0⟩, seen := p.seen.filter fun e => decide (d.frondsSince e.2.2 ≤ 65535) }

/-! ### Triggers and the tap (R26, R386, R387) -/

/-- Whether a page is one of the admission pages of KIND 0x03. -/
def admPage (pg : Nat) : Bool := pg == 0x74 || pg == 0x75 || pg == 0x78

/-- The FAULT and ADMISSION triggers of the bits that rose in the tick. -/
def Dev.riseTriggers (d : Dev) : List PeatTrig :=
  d.stat.flatMap fun b =>
    let kind := if admPage b.page then 3 else 1
    let on := if admPage b.page then d.flag 0xB1 0x44 2 else d.flag 0xB1 0x44 1 && d.flag b.page 0x04 3
    if on then ((upto 32).filter (bitAt b.rose)).map fun i => ⟨kind, b.page, i, b.cause % 65536⟩ else []

/-- Lower KIND, then lower PAGE, then lower BIT. -/
def PeatTrig.before (a b : PeatTrig) : Bool :=
  decide (a.kind < b.kind) || (a.kind == b.kind && (decide (a.page < b.page) || (a.page == b.page && decide (a.bit ≤ b.bit))))

/-- A FAULT or ADMISSION trigger within HOLDOFF of its last deposit. -/
def Dev.heldOff (d : Dev) (t : PeatTrig) : Bool :=
  (t.kind == 1 || t.kind == 3) &&
    d.peat.seen.any fun e => e.1 == t.page && e.2.1 == t.bit && decide (d.frondsSince e.2.2 < d.fld 0xB1 0x44 31 16)

/-- The tap holds eight entries (R26). -/
def tapSize : Nat := 8

/-- The triggers of the tick: at most one snapshot is deposited; the others are counted. -/
def Dev.peatDeposit (d : Dev) : Dev :=
  let all := sortBy PeatTrig.before (d.riseTriggers ++ d.peat.trig)
  let live := all.filter fun t => !d.heldOff t
  let d := d.updPeat fun p => { p with trig := [] }
  let merge (n : Nat) (d : Dev) : Dev := d.updPeat fun p => { p with merged := min 65535 (p.merged + n) }
  match live with
  | [] => merge all.length d
  | t :: _ =>
    let d := merge (all.length - 1) d
    if tapSize ≤ d.peat.tap.length then
      (d.updPeat fun p => { p with tapFull := inc16 p.tapFull, lost := true }).occur 0xB1 0
    else
      d.updPeat fun p =>
        { p with tap := p.tap ++ [d.peatRecord t],
                 seen := if t.kind = 1 ∨ t.kind = 3 then
                     (t.page, t.bit, d.time.frond) :: p.seen.filter fun e => !(e.1 == t.page && e.2.1 == t.bit)
                   else p.seen }

/-- A PEAT entry: one tap entry becomes a record in both twins' MRAM (R387); non-volatile writes wait under R347 and R367. -/
def Dev.peatFire (d : Dev) : Dev :=
  match d.peat.tap with
  | [] => d
  | l :: rest =>
    if d.nvHeld then d
    else
      let p := d.peat
      let flags := (l.getD 15 0).toNat + 4 * b2n p.lost
      let r := peatSeal (putField (putField l 0 (leBytes 4 p.next)) 15 [BitVec.ofNat 8 flags])
      let d := d.nvPut (peatAddr p.next) r
      (d.updPeat fun p => { p with next := (p.next + 1) % 2 ^ 32, count := min 4096 (p.count + 1), tap := rest, lost := false }).occur 0xB1 1

/-! ### Commands -/

/-- PEAT_CTRL (R386): any write requests a REGISTER record with the tag. -/
def execPeatCtrl (v : Word32) (s : State) : Out := done (fun d => d.peatTrig ⟨4, 0xFFFF, 0, bits v.toNat 15 0⟩) s

/-- PEAT_RD (R389). -/
def Dev.peatRdWrite (d : Dev) (v : Nat) : Dev :=
  (d.setReg 0xB1 0x8C v).updPeat fun p => { p with rdReady := false, gone := false, rdAsked := true, rdSeq := v }

/-- PEAT_RD (R389). -/
def execPeatRd (v : Word32) (s : State) : Out := done (fun d => d.peatRdWrite v.toNat) s

/-- A copy of record `sq` is valid. -/
def peatOk (l : List Byte) (sq : Nat) : Bool :=
  leNat (l.take 4) == sq && leNat ((l.drop 28).take 4) == crc32 (l.take 28 ++ l.drop 32)

/-- A tie decided by rule 2 or 3 of R382. -/
def Dev.tie (d : Dev) (addr : Nat) : Dev :=
  { d with nv := { d.nv with ties := inc16 d.nv.ties, tiePage := addr / 256 } }.occur 0xB0 0

/-- Both copies of peat record `sq`, resolved under R382; a twin that does not run supplies no copy. -/
def Dev.peatResolve (d : Dev) (sq : Nat) : Dev × Option (List Byte) :=
  let addr := peatAddr sq
  let a := memBytes d.nv.a addr 512
  let b := memBytes d.nv.b addr 512
  let va := d.twin.a.st.running && d.nv.readableA addr 512 && peatOk a sq
  let vb := d.twin.b.st.running && d.nv.readableB addr 512 && peatOk b sq
  let same := leNat (a.take 4) == leNat (b.take 4)
  if va && vb then
    if a == b then (d, some a)
    else (d.tie addr, some (if bitAt (a.getD 22 0).toNat 6 && bitAt (b.getD 22 0).toNat 6 then b else a))
  else if va then (if d.twin.b.st.running && same then d.tie addr else d, some a)
  else if vb then (if d.twin.a.st.running && same then d.tie addr else d, some b)
  else (d, none)

/-- A sequence within PEAT_TAIL to PEAT_HEAD, which is 32 bits wide (R383). -/
def PeatSt.retained (p : PeatSt) (sq : Nat) : Bool := decide ((p.head + 2 ^ 32 - sq % 2 ^ 32) % 2 ^ 32 < p.count)

/-- A record of the log (R389): none once it is no longer retained. -/
def Dev.peatLookup (d : Dev) (sq : Nat) : Dev × Option (List Byte) := if d.peat.retained sq then d.peatResolve sq else (d, none)

/-- PEAT_READ_READY (R389): the record, or GONE. -/
def execPeatReadReady (s : State) : Out :=
  done (fun d =>
    if !d.peat.rdAsked then d
    else
      let sq := d.peat.rdSeq
      let r := d.peatLookup sq
      match r.2 with
      | some l => r.1.updPeat fun p => { p with rdAsked := false, rdReady := true, data := l }
      | none => r.1.updPeat fun p => { p with rdAsked := false, gone := true }) s

/-! ### Slow writes of image pages (R375 to R377) -/

/-- The staging buffer's first write begins on each running twin that has neither made nor begun it. -/
def Dev.pageStart (d : Dev) : Dev :=
  match d.upd.staging with
  | [] => d
  | w :: _ =>
    if d.nvHeld then d
    else
      let pg := w.1 / 256
      let n := d.nv
      let goA := d.twin.a.st.running && !d.upd.doneA && n.busyA.isNone
      let goB := d.twin.b.st.running && !d.upd.doneB && n.busyB.isNone
      { d with nv := { n with busyA := if goA then some pg else n.busyA, busyB := if goB then some pg else n.busyB } }

/-- The first write has been made by every running twin: it leaves the staging buffer. -/
def Dev.pageNext (d : Dev) : Dev :=
  let u := d.upd
  let a := u.doneA || !d.twin.a.st.running
  let b := u.doneB || !d.twin.b.st.running
  if a && b && (u.doneA || u.doneB) then
    let w := u.staging.headD (0, [])
    let miss (done : Bool) (l : List Nat) : List Nat := if done then l else addNew l (pagesOf w.1 w.2.length)
    let d := { d with nv := { d.nv with dirtyA := miss u.doneA d.nv.dirtyA, dirtyB := miss u.doneB d.nv.dirtyB } }
    (d.updUpd fun u => { u with staging := u.staging.drop 1, doneA := false, doneB := false }).pageStart
  else d

/-- IMAGE_PAGE_WRITE_DONE (R375): twin `t` has written the page of its slow write. -/
def execImagePageWriteDone (t : Twin) (s : State) : Out :=
  done (fun d =>
    match t, d.nv.busyA, d.nv.busyB, d.upd.staging with
    | .a, some _, _, w :: _ =>
      let d := { d with nv := { d.nv with a := memWriteBytes d.nv.a w.1 w.2, busyA := none } }
      (d.updUpd fun u => { u with doneA := true }).pageNext
    | .b, _, some _, w :: _ =>
      let d := { d with nv := { d.nv with b := memWriteBytes d.nv.b w.1 w.2, busyB := none } }
      (d.updUpd fun u => { u with doneB := true }).pageNext
    | .a, some _, _, [] => { d with nv := { d.nv with busyA := none } }
    | .b, _, some _, [] => { d with nv := { d.nv with busyB := none } }
    | _, _, _, _ => d) s

end Sys2Proof.Machine
end

