-- ==== Sys2Proof/Machine/Crust.lean ====
section
/-! DEFINITION. Changes of the crust (R391 to R397). -/

namespace Sys2Proof.Machine

/-- The items that a command may change (R391); the others change by a spore. -/
def crustByCommand (i : Nat) : Bool := decide (i < 24) && !([5, 6, 10, 11, 12, 17].contains i)

/-- A target-port base address is allowed (R391): base and base + 1 are valid and not reserved by SMBus. -/
def twBaseOk (b : Nat) : Bool :=
  decide (0x10 ≤ b) && decide (b ≤ 0x76) && !([0x28, 0x37, 0x61].contains b) && !([0x28, 0x37, 0x61].contains (b + 1))

/-- Whether a value keeps an item's rules (R391); `d` holds the values in force. -/
def Dev.crustRule (d : Dev) (i : Nat) (v : List Byte) : Bool :=
  let n := leNat v
  let sig := signed 32 n
  if v.length ≠ crustWidth i then false
  else if i = 0 then decide (n < 1024)
  else if i = 1 then (upto 4).all fun r =>
    let x := signed 32 (leNat ((v.drop (4 * r)).take 4))
    decide (0 ≤ x) && decide (x ≤ 983040)
  else if i = 2 then decide (n < 2)
  else if i = 4 then decide (0 ≤ sig) && decide (sig ≤ d.shelfMax)
  else if i = 5 then decide (leNat (d.crustVal 5) < n)
  else if i = 7 then decide ((v.getD 0 0).toNat < 4)
  else if i = 8 then
    (!bitAt n 7 || twBaseOk (bits n 6 0)) && (!bitAt n 15 || twBaseOk (bits n 14 8))
  else if i = 9 then decide (n < 16)
  else if i = 10 then decide (leNat (d.crustVal 10) ≤ n)
  else if i = 11 then decide (leNat (d.crustVal 11) ≤ n)
  else if i = 12 then decide (n < 8)
  else if i = 13 then decide (n < 4)
  else true

/-- A value equal to the one in force; a CHEM_CLASS value is compared with the record in force for its class. -/
def Dev.crustSame (d : Dev) (i : Nat) (v : List Byte) : Bool :=
  if i = 7 then v.drop 1 == nth d.crust.chem (v.getD 0 0).toNat [] else v == d.crustVal i

/-- What the checks of a change find (R392 step 4, R393): 0x0000 it is to be programmed, 0x0001 equal, or the refusal. A frozen
item refuses every change (R397), a value equal to the one in force being none (R29). The order of the refusals is the model's (log
entry 24). -/
def Dev.crustCheck (d : Dev) (i : Nat) (v : List Byte) (path crcOk : Bool) : Nat :=
  if !path then 3
  else if d.crustFrozen i then (if crcOk && d.crustSame i v then 1 else 2)
  else if !crcOk then 4
  else if !d.crustRule i v then 5
  else if d.crustSame i v then 1
  else 0

/-- Programming of a change begins (R392 step 5, R396). -/
def Dev.crustStart (d : Dev) (i : Nat) (v : List Byte) (src : Nat) (spore : Bool) : Dev :=
  { d with crust := { d.crust with job := some ⟨i, v, src, spore⟩ } }

/-- The audit record of R394, with the time of the latest frond boundary (R445). -/
def Dev.crustAudit (d : Dev) (j : CrustJob) : List Byte :=
  let l := [BitVec.ofNat 8 j.item, BitVec.ofNat 8 (d.crustUsed j.item + 1)] ++ leBytes 2 j.src ++
    leBytes 8 (if d.timeHeld then d.mie.bnd else 0) ++
    [BitVec.ofNat 8 (b2n d.timeHeld + 2 * b2n j.spore), BitVec.ofNat 8 d.jrn.boot]
  l ++ leBytes 2 (crc16 (l ++ j.value))

/-- A programmed change stands (R394, R395, R397): CHANGED, FROZEN when the budget is spent, KEY_CHANGED and FLOOR_RAISED. -/
def Dev.crustDone (d : Dev) (j : CrustJob) : Dev :=
  let d := (d.occur 0xB2 0).crustSpent j.item
  let d := if j.item = 5 ∨ j.item = 6 then d.occur 0xD1 0 else d
  if j.item = 10 ∨ j.item = 11 then d.occur 0xD1 1 else d

/-- The change of job `j` in copies 0, 1 and 2, cell and audit record (R392 step 5). -/
def Dev.crustProgram (d : Dev) (j : CrustJob) : Dev :=
  { d with crust := { d.crust.program j.item ⟨j.value, d.crustAudit j⟩ with job := none } }

/-! ### The voted reader (R390) -/

/-- The majority of three bytes, bit by bit. -/
def voteByte (a b c : Byte) : Byte := (a &&& b) ||| (a &&& c) ||| (b &&& c)

def voteBytes (a b c : List Byte) : List Byte :=
  (upto (max a.length (max b.length c.length))).map fun i => voteByte (a.getD i 0) (b.getD i 0) (c.getD i 0)

/-- One change as the reader gives it. -/
def voteChange (x y z : CrustChange) : CrustChange :=
  ⟨voteBytes x.value y.value z.value, voteBytes x.audit y.audit z.audit⟩

/-- The changes of an item in the three copies; a cell that a copy does not hold reads as all zeros there. -/
def voteItem (x y z : List CrustChange) : List CrustChange :=
  let none1 : CrustChange := ⟨[], []⟩
  (upto (max x.length (max y.length z.length))).map fun i => voteChange (nth x i none1) (nth y i none1) (nth z i none1)

/-- The bits on which three copies of some bytes disagree. -/
def bitsDiffer (a b c : List Byte) : Nat :=
  (upto (max a.length (max b.length c.length))).foldl (fun n i =>
    let x := (a.getD i 0 ^^^ b.getD i 0) ||| (a.getD i 0 ^^^ c.getD i 0)
    n + ((upto 8).filter fun k => x.getLsbD k).length) 0

/-- The bits on which the three copies of the crust disagree (R390). -/
def Dev.crustDiffer (d : Dev) : Nat :=
  let c (k i : Nat) : List CrustChange := nth (nth d.crust.copies k []) i []
  let none1 : CrustChange := ⟨[], []⟩
  (upto 24).foldl (fun n i =>
    (upto (max (c 0 i).length (max (c 1 i).length (c 2 i).length))).foldl (fun n j =>
      let x (k : Nat) : CrustChange := nth (c k i) j none1
      n + bitsDiffer (x 0).value (x 1).value (x 2).value + bitsDiffer (x 0).audit (x 1).audit (x 2).audit) n) 0

/-- The three copies are read, as at reset release and after each change. -/
def Dev.crustRead (d : Dev) : Dev :=
  let c (k : Nat) : CrustCopy := nth d.crust.copies k []
  { d with crust := { d.crust with
      items := (upto 24).map fun i => voteItem (nth (c 0) i []) (nth (c 1) i []) (nth (c 2) i []) } }

/-- The value of the latest complete change, or the shipped one (R395). -/
def latestValue (i : Nat) (l : List CrustChange) : List Byte :=
  ((l.reverse.find? fun c => !c.torn).map CrustChange.value).getD (crustShipped i)

/-- The class record in force for class `k`: the latest complete cell of item 7 that names it, or the shipped record (R391). -/
def latestChem (k : Nat) (l : List CrustChange) : List Byte :=
  match l.reverse.find? fun c => !c.torn && (c.value.getD 0 0).toNat == k with
  | some c => c.value.drop 1
  | none => Config.chemShipped k

/-- At a frond boundary the changes completed before it take effect (R392). -/
def Dev.crustFrond (d : Dev) : Dev :=
  let items := d.crust.items
  { d with crust := { d.crust with force := (upto 24).map fun i => latestValue i (nth items i []),
                                   chem := (upto 4).map fun k => latestChem k (nth items 7 []) } }

/-! ### CRUST_WRITE -/

/-- The value staged for a CRUST_WRITE: the record of its completion-ring entry (R392 step 3). -/
def Dev.stagedValue (d : Dev) (w : WorkItem) : List Byte := d.nvGet (0x390000 + 128 * w.slot) 96

/-- A CRUST_WRITE that ends without programming (R393). -/
def Dev.crustEnd (d : Dev) (r : Nat) : Dev :=
  if r = 1 then d.endItem stDone 1 else (d.occurC 0xB2 1 3).endItem stFailed r

/-- CRUST_WRITE (R392, R393, R396): class C; the command holds the queue until programming can start. -/
def execCrustWrite (s : State) : Out :=
  done (fun d => d.execHead 7 fun d w =>
    let i := (w.args.getD 0 0).toNat
    let len := (w.args.getD 1 0).toNat
    let v := (d.stagedValue w).take len
    let r := d.crustCheck i v (crustByCommand i) (leNat ((w.args.drop 2).take 2) == crc16 v)
    if r ≠ 0 then d.crustEnd r
    else if d.nvHeld || d.crust.job.isSome then d
    else ((d.execMark w).crustStart i v w.src false).startItem) s

/-! ### CONFIRM's crust sections (R509) -/

/-- The crust sections of the spore that are not applied yet: each is checked, and the first to be programmed begins; when
none is left the CONFIRM completes, and a refused one ends it. While non-volatile writes wait, so does the next one. -/
def Dev.confirmNext (d : Dev) (src : Nat) : List SporeSection → Dev
  | [] => ((d.confirmOver).occur 0xD0 4).endItem stDone 0
  | x :: rest =>
    let v := x.data
    let r := d.crustCheck x.item v (decide (x.item < 24) && !crustByCommand x.item) true
    if r = 1 then d.confirmNext src rest
    else if r ≠ 0 then (d.occurC 0xB2 1 3).confirmFail x.item
    else if d.nvHeld then d.updUpd fun u => { u with sections := x :: rest }
    else (d.updUpd fun u => { u with sections := rest }).crustStart x.item v src true

/-- A read of the crust by the voted reader (R390): the bits on which the copies disagree are masked, counted and shown. `n` are
those of the array that State does not hold (log entry 72). -/
def Dev.crustVote (d : Dev) (n : Nat) : Dev :=
  let k := d.crustDiffer + n
  let d : Dev := { d with crust := { d.crust with votes := min 65535 k } }
  if k = 0 then d else d.occur 0xB2 3

/-- The change of job `j` as it is read back is complete (R392 step 5, R395). -/
def Dev.crustVerified (d : Dev) (j : CrustJob) : Bool :=
  match (d.crustChanges j.item).getLast? with
  | some c => !c.torn
  | none => false

/-- CRUST_PROGRAM_DONE (R392 to R395): cell and audit record are programmed, the crust is read, the change is verified, and the
command that made it goes on. -/
def execCrustProgramDone (votes : Nat) (s : State) : Out :=
  done (fun d =>
    match d.crust.job with
    | none => d.crustVote votes
    | some j =>
      let d := (d.crustProgram j).crustRead.crustVote votes
      if !d.crustVerified j then d.crustTorn j
      else
        let d := d.crustDone j
        if j.spore then
          if d.inProgress 0x24 then d.confirmNext j.src d.upd.sections else d
        else if d.inProgress 7 then d.endItem stDone 0 else d) s

end Sys2Proof.Machine
end

