-- ==== Sys2Proof/Machine/Commit.lean ====
section
/-! DEFINITION. Shadow commits (R23, R568): what a commit carries, the clamps and refusals of the chapters, and the effects
at the frond boundary (R77, R93, R101, R103, R142, R147, R199, R217, R221, R331, R368, R571). -/

namespace Sys2Proof.Machine

/-- The proposed values of the registers that the commits of a boundary carry, by address. -/
abbrev Changes := List (Nat × Nat)

/-- The value a register would have after the changes. -/
def Dev.after (d : Dev) (ch : Changes) (pg off : Nat) : Nat := (alGet ch (regAddr pg off)).getD (d.reg pg off)

/-- The fields that a commit would leave in a forbidden order keep their values (R103, R368, and the descriptions of
RAIL_SP_FRANGE and FEED_WIN). -/
def pairKept (pg off old v : Nat) : Nat :=
  if 0x28 ≤ pg ∧ pg < 0x2C ∧ off = 0x54 ∧ bits v 9 0 ≤ bits v 19 10 then putBits v 19 0 (bits old 19 0)
  else if 0x28 ≤ pg ∧ pg < 0x2C ∧ off = 0x6C ∧ bits v 31 16 ≤ bits v 15 0 then old
  else if pg = 0x98 ∧ (off = 0x48 ∨ off = 0x4C) ∧ bits v 21 12 ≤ bits v 9 0 + 2 * bits v 31 24 then old
  else if pg = 0xA8 ∧ 0x40 ≤ off ∧ off ≤ 0x4C ∧ bits v 15 8 < bits v 7 0 + 5 then putBits v 15 0 (bits old 15 0)
  else v

/-- What a commit proposes: the RWS fields of each register written, every field within its range (R123). Coefficient
registers go by section and are not among the changes. -/
def Dev.propose (d : Dev) (sampled : List (Nat × Nat)) : Dev × Changes :=
  sampled.foldl (fun (x : Dev × Changes) (e : Nat × Nat) =>
    let pg := e.1 / 0x1000
    let off := e.1 % 0x1000
    match regRow pg off with
    | none => x
    | some r =>
      if isCoeff pg off then x
      else
        let old := x.1.reg pg off
        let v := mergeBits old e.2 r.rws
        let v' := pairKept pg off old (clampReg pg off v)
        (x.1.clamped pg v v', alSet x.2 e.1 v')) (d, [])

/-- A committed AMP above the limit of its point is clamped to the limit (R147). -/
def Dev.clampAmp (d : Dev) (ch : Changes) : Dev × Changes :=
  if ch.any fun c => c.1 / 0x1000 == 0xE0 then
    let lim := max 0 (signed 32 (d.after ch 0xE0 (injLimOff (bits (d.after ch 0xE0 0x40) 4 2))))
    if lim < signed 32 (d.after ch 0xE0 0x44) then
      (d.clamped 0xE0 1 0, alSet ch (regAddr 0xE0 0x44) (unsigned 32 lim))
    else (d, ch)
  else (d, ch)

/-! ### Tracking (R101) -/

/-- The leader a rail would have. With TRACK_MODE = 0b00 it has none, whatever TRACK_SRC names: the model does not refuse such a
change as one that names its own rail (R101, log entry 76). -/
def Dev.leaderAfter (d : Dev) (ch : Changes) (r : Nat) : Option Nat :=
  let c := d.after ch (railPg r) 0x40
  if bits c 3 2 = 0 then none else some (bits c 5 4)

/-- Whether following leaders from `x` comes to `r` within `n` steps. -/
def Dev.leadsTo (d : Dev) (ch : Changes) (r : Nat) : Nat → Nat → Bool
  | 0, _ => false
  | n + 1, x =>
    match d.leaderAfter ch x with
    | none => false
    | some l => l == r || d.leadsTo ch r n l

/-- Changes of tracking that name their own rail or lie on a cycle are refused, each rail by itself. -/
def Dev.trackCheck (d : Dev) (ch : Changes) : Dev × Changes :=
  (upto 4).foldl (fun (x : Dev × Changes) r =>
    let old := d.reg (railPg r) 0x40
    let v := d.after ch (railPg r) 0x40
    if bits old 5 2 != bits v 5 2 && d.leadsTo ch r 4 r then
      (x.1.occur (railPg r) 9, alSet x.2 (regAddr (railPg r) 0x40) (putBits v 5 2 (bits old 5 2)))
    else x) (d, ch)

/-! ### Assignment (R77) -/

/-- The rail a unit would be a member of. -/
def Dev.memberAfter (d : Dev) (ch : Changes) (n : Nat) : Option Nat :=
  let c := d.after ch (unitPg n) 0x40
  if bitAt c 0 then some (bits c 2 1) else none

/-- The changes alter the membership of a rail. -/
def Dev.railAltered (d : Dev) (ch : Changes) (r : Nat) : Bool :=
  (upto 64).any fun n => (d.memberOf n == some r) != (d.memberAfter ch n == some r)

/-- The cause for which an assignment is refused: 0x0002 before 0x0001, 0 where it stands. -/
def Dev.assignCause (d : Dev) (ch : Changes) : Nat :=
  let alt := (upto 4).filter (d.railAltered ch)
  if alt.any fun r => (d.rail r).st != .off then 2
  else if alt.any fun r =>
      bitAt (d.after ch (railPg r) 4) 0 && decide (countN 64 (fun n => d.memberAfter ch n == some r) < 2) then 1
  else 0

/-- An address of PH_CFG. -/
def isPhCfg (a : Nat) : Bool := decide (0x30 ≤ a / 0x1000) && decide (a / 0x1000 < 0x70) && a % 0x1000 == 0x40

/-- The complete assignment is checked, and every PH_CFG change refused where it fails. -/
def Dev.assignCheck (d : Dev) (ch : Changes) : Dev × Changes :=
  let c := d.assignCause ch
  if c = 0 then (d, ch) else (d.occurC 0x70 0 c, ch.filter fun x => !isPhCfg x.1)

/-! ### Grant table, reference, member table (R199, R217, R331) -/

/-- The RAIL or EN of an enabled entry would change while its load is away from BASE or has an unsettled step. -/
def Dev.grantRefused (d : Dev) (ch : Changes) (i : Nat) : Bool :=
  let v := d.after ch (gtPg i) (gtOff i 0)
  ((d.gtEn i && !bitAt v 31) || bits v 25 24 != d.gtRail i) &&
    ((d.load i).alloc != d.gtBase i || d.led.steps.any fun q => q.load == i && !q.settled)

/-- Refused grant-table entries keep every field. -/
def Dev.grantCheck (d : Dev) (ch : Changes) : Dev × Changes :=
  if ch.any fun c => c.1 / 0x1000 == 0x76 || (c.1 / 0x1000 == 0x74 && decide (0xF00 ≤ c.1 % 0x1000)) then
    (upto 256).foldl (fun (x : Dev × Changes) i =>
      if d.grantRefused ch i then
        (x.1.occur 0x78 3, alErase (alErase x.2 (regAddr (gtPg i) (gtOff i 0))) (regAddr (gtPg i) (gtOff i 3)))
      else x) (d, ch)
  else (d, ch)

/-- A rail state in which the reference may change (R217). -/
def RailState.refFree : RailState → Bool
  | .off | .faultWait | .latchedOff => true
  | .softStart | .regulate | .softStop => false

/-- The changes hold a new REF_SEL: another one than in force, or than the reference in use, which a fallback has switched (R217,
R219). -/
def Dev.refNew (d : Dev) (ch : Changes) : Bool :=
  let v := bits (d.after ch 0x81 0x40) 1 0
  (alGet ch (regAddr 0x81 0x40)).isSome && (v != d.fld 0x81 0x40 1 0 || v != d.sense.ref.inUse)

/-- A new REF_SEL is refused while a rail runs. -/
def Dev.refCheck (d : Dev) (ch : Changes) : Dev × Changes :=
  let v := d.after ch 0x81 0x40
  if d.refNew ch && !(d.rails.all fun x => x.st.refFree) then
    (d.occur 0x81 0, if bits v 1 0 = d.fld 0x81 0x40 1 0 then alErase ch (regAddr 0x81 0x40)
      else alSet ch (regAddr 0x81 0x40) (putBits v 1 0 (d.fld 0x81 0x40 1 0)))
  else (d, ch)

/-- An address of the member table. -/
def isMbr (a : Nat) : Bool := a / 0x1000 == 0xA4 && decide (0x100 ≤ a % 0x1000)

/-- The parents a member would have. -/
def Dev.parentsAfter (d : Dev) (ch : Changes) (i : Nat) : List Nat :=
  let v := d.after ch 0xA4 (mbrOff i + 4)
  (upto 4).filterMap fun p => if bitAt v (8 * p + 7) then some (bits v (8 * p + 4) (8 * p)) else none

/-- Members whose parents are all among `ok` join it, until no more do: what is left over lies on or under a cycle. -/
def Dev.rooted (d : Dev) (ch : Changes) : Nat → List Nat → List Nat
  | 0, ok => ok
  | n + 1, ok => d.rooted ch n ((upto 32).filter fun i => ok.contains i || (d.parentsAfter ch i).all ok.contains)

/-- IN_SEQ a member would have. -/
def Dev.inSeqAfter (d : Dev) (ch : Changes) (i : Nat) : Bool := bitAt (d.after ch 0xA4 (mbrOff i)) 31

/-- The cause for which a member table is refused, 0 where it is not. -/
def Dev.tableCause (d : Dev) (ch : Changes) : Nat :=
  if (d.rooted ch 32 []).length != 32 then 5
  else if d.fh.shelf != .down && d.fh.shelf != .halted then 6
  else if (upto 32).any fun i => d.inSeqAfter ch i && (d.parentsAfter ch i).any fun p =>
      !d.inSeqAfter ch p || (decide (p < 4) && !bitAt (d.after ch (railPg p) 4) 0) then 7
  else 0

/-- A refused member table stays as it is. -/
def Dev.tableCheck (d : Dev) (ch : Changes) : Dev × Changes :=
  if ch.any fun c => isMbr c.1 then
    let c := d.tableCause ch
    if c = 0 then (d, ch) else (d.occurC 0xA4 4 c, ch.filter fun x => !isMbr x.1)
  else (d, ch)

/-! ### Effects of the changes that stand -/

/-- The values take effect. -/
def Dev.applyChanges (d : Dev) (ch : Changes) : Dev :=
  { d with regs := ch.foldl (fun g c => g.setVal c.1 c.2) d.regs }

/-- PH_STATE of a unit that becomes a member (R571). -/
def Dev.joinState (d : Dev) (n : Nat) : PhState :=
  if !d.clusterUp (n / 8) || decide ((d.cluster (n / 8)).goodFronds < 2) then .lost
  else d.backState n

/-- Units that join or leave a rail (R76, R571). -/
def Dev.applyMembers (old d : Dev) : Dev :=
  foldN 64 (fun d n =>
    let o := old.memberOf n
    let m := d.memberOf n
    if o == m then d
    else if m.isNone then d.updUnit n fun u => { u.to .unassigned true with toStart := 0 }
    else d.updUnit n fun u => u.to (d.joinState n) true) d

/-- A rail whose BLK_EN falls receives an off request where it runs, or where it is in OFF and waits for its hot-swap: it stays in
OFF; its member is refused (R93). -/
def Dev.applyBlkEn (old d : Dev) : Dev :=
  foldN 4 (fun d r =>
    if old.flag (railPg r) 4 0 && !d.flag (railPg r) 4 0 &&
        ((d.rail r).st.switching || ((d.rail r).st == .off && (d.rail r).gateOn)) then
      (d.railOffReq r).memberRefused r
    else d) d

/-- ALLOC starts at BASE when EN is set (R182). -/
def Dev.applyGrants (old d : Dev) : Dev :=
  foldN 256 (fun d i =>
    if d.gtEn i && !old.gtEn i then
      d.updLoad i fun e => { e with alloc := d.gtBase i, resv := 0, resvEnd := none, released := true, stale := false }
    else d) d

/-- Members enter UNUSED or leave it with IN_SEQ (R329). -/
def Dev.applyTable (d : Dev) : Dev :=
  foldN 32 (fun d i =>
    let m := d.mbr i
    if d.inSeq i && m.st == .unused then d.updMbr i fun m => m.to .off
    else if !d.inSeq i && m.st != .unused then d.updMbr i fun m => { m.to .unused with out := false }
    else d) d

/-- The auxiliary sequencer restarts at entry 0 (R221). -/
def Dev.auxRestart (d : Dev) : Dev :=
  d.updAux fun q => { q with entry := 0, pos := 0, acc1 := 0, acc2 := 0, bad := false, gap := false, refLow := false, due := false }

/-- Metrology of channel `c` settles again after a change of MET_RATE, GAIN or SCALE (R215); those of PRE16 have no effect (R239). -/
def Dev.metChanged (old d : Dev) : Dev :=
  foldN 16 (fun d c =>
    if old.reg (prePg c) 0x40 % 4 != d.reg (prePg c) 0x40 % 4 || old.fld (prePg c) 0x40 11 8 != d.fld (prePg c) 0x40 11 8 ||
        old.reg (prePg c) 0x44 != d.reg (prePg c) 0x44 then
      d.updPre c fun p => { p with metSince := d.now }
    else d) d

/-- Whether a page has an entry among the changes. -/
def hasPage (ch : Changes) (pg : Nat) : Bool := ch.any fun c => c.1 / 0x1000 == pg

/-- The shadow copies that a commit carried return to the value in force (R568), but for the fields written after the sample
(R23). -/
def RegFile.dropShadow (g : RegFile) (sampled : List (Nat × Nat)) : RegFile :=
  { g with shadow := g.shadow.filter fun e => !(sampled.any fun s => s.1 == e.1) || g.late.contains e.1 }

/-- Writes after a sample are told apart only while the sample has not taken effect (R23). -/
def RegFile.trimLate (g : RegFile) : RegFile :=
  { g with late := g.late.filter fun a => g.commits.any fun c => c.page == a / 0x1000 && c.sampled.isSome }

/-- Every change that stands takes effect together. A commit that does not carry INJ_CTRL neither starts nor ends an injection (log
entry 118). -/
def Dev.commitEffects (old : Dev) (ch : Changes) (pages : List Nat) (d : Dev) : Dev :=
  let d := d.applyChanges ch
  let d := old.applyMembers d
  let d := old.applyBlkEn d
  let d := if hasPage ch 0x76 || hasPage ch 0x74 then old.applyGrants d else d
  let d := if ch.any fun c => isMbr c.1 then d.applyTable else d
  let d := if old.refNew ch && old.rails.all fun x => x.st.refFree then d.newRef (d.fld 0x81 0x40 1 0) false else d
  let d := if pages.contains 0x82 then d.auxRestart else d
  let d := old.metChanged d
  if (alGet ch (regAddr 0xE0 0x5C)).isSome then d.injCommit else d

/-- The changes of a boundary after every clamp and refusal. -/
def Dev.checkAll (d : Dev) (sampled : List (Nat × Nat)) : Dev × Changes :=
  let (d, ch) := d.propose sampled
  let (d, ch) := d.clampAmp ch
  let (d, ch) := d.trackCheck ch
  let (d, ch) := d.assignCheck ch
  let (d, ch) := d.grantCheck ch
  let (d, ch) := d.refCheck ch
  d.tableCheck ch

/-- The commits that a boundary leaves waiting: a commit made too late waits one boundary more, and coefficients due where a
bank swap takes effect wait one frond (R23, R142). -/
def Commit.keep (swap : Bool) (c : Commit) : Option Commit :=
  if 1 < c.wait then some { c with wait := c.wait - 1 }
  else match c.sampled with
    | none => none
    | some l =>
      let co := l.filter fun e => isCoeff (e.1 / 0x1000) (e.1 % 0x1000)
      if swap && !co.isEmpty then some { c with sampled := some co } else none

/-- The commits of a frond boundary. -/
def Dev.commitFrond (d : Dev) : Dev :=
  let swap := d.swapDue
  let due := d.regs.commits.filter fun c => decide (c.wait ≤ 1) && c.sampled.isSome
  let sampled := due.flatMap fun c => c.sampled.getD []
  let (d1, ch) := d.checkAll sampled
  let d1 := Dev.commitEffects d ch (due.map Commit.page) d1
  let d1 := if swap then d1 else due.foldl (fun d c => d.commitCoeffs c.page (c.sampled.getD [])) d1
  let gone := sampled.filter fun e => !(swap && isCoeff (e.1 / 0x1000) (e.1 % 0x1000))
  { d1 with regs := { (d1.regs.dropShadow gone) with commits := d.regs.commits.filterMap (Commit.keep swap) }.trimLate }

/-- The sample of the commits made before tick phase 254 (R23). -/
def Dev.commitSample (d : Dev) : Dev :=
  let take (c : Commit) : Commit :=
    if c.wait ≤ 1 ∧ c.sampled.isNone then { c with sampled := some (d.regs.shadow.filter fun e => e.1 / 0x1000 == c.page) }
    else c
  let fresh (a : Nat) : Bool := d.regs.commits.any fun c => decide (c.wait ≤ 1) && c.sampled.isNone && c.page == a / 0x1000
  { d with regs := { d.regs with commits := d.regs.commits.map take, late := d.regs.late.filter fun a => !fresh a } }

/-- A commit made in tick phase 254 or 255, before the boundary. -/
def Dev.lateInFrond (d : Dev) : Bool := d.phase == 254 || (d.phase == 255 && d.time.frondDue)

/-- BLK_COMMIT is written with 1 (R23). -/
def Dev.commitPage (d : Dev) (pg : Nat) : Dev :=
  let w := if d.lateInFrond then 2 else 1
  if d.regs.commits.any fun c => c.page == pg && c.wait == w && c.sampled.isNone then d
  else { d with regs := { d.regs with commits := d.regs.commits ++ [⟨pg, w, none⟩] } }

end Sys2Proof.Machine
end

