-- ==== Sys2Proof/Machine/Settings.lean ====
section
/-! DEFINITION. The settings store (R331, R381, R382): record places, the directory of a bank, and the settings a bank holds. The
rules state no layout of the directory and of a group's data; the model's is in log entry 36. -/

namespace Sys2Proof.Machine

/-- MRAM address of a bank of the settings store (R370), and its size. -/
def setBankAt (b : Nat) : Nat := 0x350000 + 0x20000 * b
def setBankSize : Nat := 0x20000

/-- A group in the directory of a bank: its number and the offsets of its two record places (R381). -/
structure SetGroup where
  group : Nat
  place0 : Nat
  place1 : Nat
deriving DecidableEq, Repr

/-- One twin's copy of MRAM: its bytes, and its pages with a word that cannot be corrected (R372). -/
structure NvCopy where
  mem : Memory
  bad : List Nat
deriving DecidableEq, Repr

def Dev.nvCopy (d : Dev) : Twin → NvCopy
  | .a => ⟨d.nv.a, d.nv.badA⟩
  | .b => ⟨d.nv.b, d.nv.badB⟩

/-- `k` bytes at offset `o` of a bank in one copy of MRAM; zeros, which hold no record, where they cannot be read. -/
def bankBytes (m : NvCopy) (b o k : Nat) : List Byte :=
  if (pagesOf (setBankAt b + o) k).any m.bad.contains then List.replicate k 0 else memBytes m.mem (setBankAt b + o) k

/-- The directory at the start of a bank: the number of groups, then 16 bytes for each. -/
def setDir (m : NvCopy) (b : Nat) : List SetGroup :=
  (upto (min 128 (leNat (bankBytes m b 0 2)))).map fun k =>
    let e := bankBytes m b (16 + 16 * k) 16
    ⟨leNat (e.take 2), leNat ((e.drop 4).take 4), leNat ((e.drop 8).take 4)⟩

/-- The bytes of a directory. -/
def dirBytes (l : List SetGroup) : List Byte :=
  leBytes 2 l.length ++ leBytes 14 0 ++
    l.flatMap fun g => leBytes 2 g.group ++ leBytes 2 0 ++ leBytes 4 g.place0 ++ leBytes 4 g.place1 ++ leBytes 4 0

/-- A record of R381: header and data, with the bit that names the ACTIVE twin. -/
def setRecord (group gen format act : Nat) (data : List Byte) : List Byte :=
  let h := leBytes 2 group ++ leBytes 2 data.length ++ leBytes 4 gen ++ leBytes 2 format ++ [BitVec.ofNat 8 act, 0]
  h ++ leBytes 4 (crc32 (h ++ data)) ++ data

/-- A valid record at offset `o` of a bank: its bytes (R381). -/
def recordAt (m : NvCopy) (b group o : Nat) : Option (List Byte) :=
  let h := bankBytes m b o 16
  let l := bankBytes m b o (16 + leNat ((h.drop 2).take 2))
  if leNat (h.take 2) = group ∧ o + l.length ≤ setBankSize ∧ leNat ((h.drop 12).take 4) = crc32 (h.take 12 ++ l.drop 16) then some l
  else none

/-- GEN, FORMAT and ACT of a record. -/
def recGen (l : List Byte) : Nat := leNat ((l.drop 4).take 4)
def recFormat (l : List Byte) : Nat := leNat ((l.drop 8).take 2)
def recAct (l : List Byte) : Bool := bitAt (l.getD 10 0).toNat 0

/-- Of two records the one with the later GEN. -/
def laterRec : Option (List Byte) → Option (List Byte) → Option (List Byte)
  | some x, some y => some (if laterGen (recGen y) (recGen x) then y else x)
  | some x, none => some x
  | none, y => y

/-- The current record of a group: the valid one with the later GEN. -/
def SetGroup.current (g : SetGroup) (m : NvCopy) (b : Nat) : Option (List Byte) :=
  laterRec (recordAt m b g.group g.place0) (recordAt m b g.group g.place1)

/-- The group that holds the member table and FH_CFG, and the places the device gives it in a bank without a directory. -/
def fhGroup : SetGroup := ⟨1, 0x1000, 0x2000⟩

/-- The group's entry in the directory of a bank. -/
def fhEntry (m : NvCopy) (b : Nat) : Option SetGroup := (setDir m b).find? fun g => g.group == fhGroup.group

/-- The data of the group: for each register its address and its value. -/
def setData (l : List (Nat × Nat)) : List Byte := l.flatMap fun e => leBytes 4 e.1 ++ leBytes 4 e.2

/-- The settings that data of the group spell, `n` of them at most: only writable registers of page 0x0A4 are settings. -/
def setPairs : Nat → List Byte → List (Nat × Nat)
  | 0, _ => []
  | n + 1, l =>
    if l.length < 8 then []
    else
      let a := leNat (l.take 4)
      let rest := setPairs n (l.drop 8)
      if a / 0x1000 = 0xA4 ∧ ((regRow 0xA4 (a % 0x1000)).map RegRow.rws).getD 0 ≠ 0 then alSet rest a (leNat ((l.drop 4).take 4))
      else rest

/-- The settings that a bank holds in one copy of MRAM. -/
def setsOf (m : NvCopy) (b : Nat) : List (Nat × Nat) :=
  match (fhEntry m b).bind fun g => g.current m b with
  | some l => setPairs (l.length / 8) (l.drop 16)
  | none => []

/-- Of two valid settings records twin A's wins: the one with the later GEN, and of equal ones that of the twin ACTIVE at
writing (R373, R382). -/
def recWinA (x y : List Byte) : Bool :=
  if recGen x == recGen y then recAct x || !recAct y else laterGen (recGen x) (recGen y)

/-- The settings that a bank holds at boot, from the copy whose record wins (R373, R382). -/
def Dev.setsAt (d : Dev) (b : Nat) : List (Nat × Nat) :=
  let cur (t : Twin) : Option (List Byte) := (fhEntry (d.nvCopy t) b).bind fun g => g.current (d.nvCopy t) b
  match cur .a, cur .b with
  | some x, some y => if recWinA x y then setsOf (d.nvCopy .a) b else setsOf (d.nvCopy .b) b
  | none, some _ => setsOf (d.nvCopy .b) b
  | _, none => setsOf (d.nvCopy .a) b

/-- The list of settings of a bank, as the machine holds it beside the bytes. -/
def UpdSt.putSets (u : UpdSt) (b : Nat) (l : List (Nat × Nat)) : UpdSt := if b = 0 then { u with sets0 := l } else { u with sets1 := l }

/-- The directory of a bank that has no entry for the group gets one. -/
def Dev.setDirPut (d : Dev) (b : Nat) : Dev :=
  let m := d.nvCopy d.activeTwin
  if (fhEntry m b).isSome then d else d.nvPut (setBankAt b) (dirBytes (setDir m b ++ [fhGroup]))

/-- A write of the group in a bank: into the place that does not hold the current record, with the next GEN, both twins
(R371, R381). One that would run past the end of the bank is refused whole, and the bank keeps its settings (R377). -/
def Dev.setWrite (d : Dev) (b : Nat) (l : List (Nat × Nat)) : Dev :=
  let d := d.setDirPut b
  let m := d.nvCopy d.activeTwin
  let g := (fhEntry m b).getD fhGroup
  let cur := g.current m b
  let at0 := cur.isSome && cur == recordAt m b g.group g.place0
  let gen := ((cur.map recGen).getD 0 + 1) % 2 ^ 32
  let fmt := (cur.map recFormat).getD (Config.freeWord 8 0 % 65536)
  let rec1 (t : Twin) : List Byte := setRecord g.group gen fmt (d.isActiveN t) (setData l)
  let o := if at0 then g.place1 else g.place0
  if setBankSize < o + (rec1 .a).length then d.occur 0xB0 3
  else (d.nvPut2 (setBankAt b + o) (rec1 .a) (rec1 .b)).updUpd fun u => u.putSets b l

/-- A whole bank is written with the bytes of a settings section (R504); a section longer than the bank is refused whole
(R377). -/
def Dev.setBankPut (d : Dev) (b : Nat) (l : List Byte) : Dev :=
  let d := if setBankSize < l.length then d.occur 0xB0 3 else d.nvPut (setBankAt b) (padTo setBankSize l)
  let m := d.nvCopy d.activeTwin
  d.updUpd fun u => u.putSets b (setsOf m b)

end Sys2Proof.Machine
end

