-- ==== Sys2Proof/Machine/Spores.lean ====
section
/-! DEFINITION. Spores (R493 to R515): sessions, chunks, verification, activation, confirmation and rollback. -/

namespace Sys2Proof.Machine

/-- The update page. -/
def updPg : Nat := 0xD0

/-- MRAM address of a spore slot (R370). -/
def slotBase (n : Nat) : Nat := n * 0x80000

/-- The new slot (R498). -/
def UpdSt.newSlot (u : UpdSt) : Nat := 1 - u.runSlot

/-- The path number of a source: 1 TW0, 2 TW1, 3 the fabric (R311). -/
def srcPort (src : Nat) : Nat := src / 4096

/-- A twin is in RESTART or RESYNC. -/
def TwinState.returning : TwinState → Bool
  | .restart | .resync => true
  | .out | .probation | .standby | .active => false

def Dev.twinReturning (d : Dev) : Bool := d.twin.a.st.returning || d.twin.b.st.returning

/-- The argument of an item, `k` bytes from `o`, little-endian. -/
def WorkItem.arg (w : WorkItem) (o k : Nat) : Nat := leNat ((w.args.drop o).take k)

/-! ### Sessions (R498, R499, R502) -/

/-- A session ends before activation: the new slot is invalidated and what was verified is cleared. -/
def Dev.sessionEnd (d : Dev) : Dev :=
  (d.updUpd fun u =>
    { u with session := 0, owner := 0, total := 0, covered := [], staging := [], doneA := false, doneB := false,
             newVerified := false, newInvalid := true, sections := [], hasImage := false }).setUpd .idle

/-- A session is opened. -/
def Dev.sessionStart (d : Dev) (src total : Nat) : Dev :=
  let n := if 0xFFFE ≤ d.upd.lastSession then 1 else d.upd.lastSession + 1
  ((d.updUpd fun u =>
    { u with session := n, lastSession := n, owner := src, total := total, covered := [], staging := [], doneA := false,
             doneB := false, newVerified := false, newInvalid := true, sections := [], hasImage := false,
             idleTicks := d.now }).setUpd .receiving).endItem stDone n

/-- The refusal of a SESSION_OPEN, in the order of R499; 0 where there is none. -/
def Dev.sessionRefusal (d : Dev) (src total : Nat) : Nat :=
  if d.upd.session ≠ 0 then 1
  else if d.upd.st = .unconfirmed ∨ d.upd.st = .rollingBack then 2
  else if !bitAt (leNat (d.crustVal 12)) (srcPort src - 1) then 3
  else if total < 528 ∨ 524288 < total then 4
  else if d.twinReturning then 5
  else 0

/-- SESSION_OPEN (R499). -/
def execSessionOpen (s : State) : Out :=
  done (fun d => d.execHead 0x20 fun d w =>
    if d.upd.session ≠ 0 ∧ d.upd.owner = w.src then
      (d.updUpd fun u => { u with idleTicks := d.now }).endItem stDone d.upd.session
    else
      let r := d.sessionRefusal w.src (w.arg 0 4)
      if r ≠ 0 then d.endItem stFailed r else d.sessionStart w.src (w.arg 0 4)) s

/-- SESSION_CLOSE (R502). -/
def execSessionClose (s : State) : Out :=
  done (fun d => d.execHead 0x21 fun d w =>
    if d.upd.session ≠ 0 ∧ d.upd.session = w.arg 0 2 then d.sessionEnd.endItem stDone 0 else d.endItem stDone 1) s

/-- SESSION_IDLE_TIMEOUT (R502): SESS_IDLE seconds without a chunk or command of the session. -/
def execSessionIdleTimeout (s : State) : Out :=
  done (fun d =>
    if d.upd.session != 0 && (d.upd.st == .receiving || d.upd.st == .ready) &&
        decide (d.upd.idleTicks + d.fld updPg 0x40 23 16 * 2000000 ≤ d.now) then
      d.sessionEnd.occur updPg 5
    else d) s

/-! ### Chunks (R500, R501) -/

/-- The new slot as it will read once the staging buffer is written. -/
def Dev.newContent (d : Dev) : List Byte :=
  let base := slotBase d.upd.newSlot
  d.upd.staging.foldl (fun l w => putField l (w.1 - base) w.2) (d.nvGet base d.upd.total)

/-- A write cut at page boundaries; it touches at most `n` pages. -/
def splitPages : Nat → Nat → List Byte → List (Nat × List Byte)
  | 0, _, _ => []
  | n + 1, a, l =>
    if l.isEmpty then []
    else (a, l.take (256 - a % 256)) :: splitPages n (a + (256 - a % 256)) (l.drop (256 - a % 256))

/-- Bytes waiting in the staging buffer, which holds 4,096. -/
def UpdSt.staged (u : UpdSt) : Nat := u.staging.foldl (fun n w => n + w.2.length) 0

/-- The 8-byte units that `k` bytes from an offset touch. -/
def unitsOf (off k : Nat) : List Nat := (upto ((off % 8 + k + 7) / 8)).map (off / 8 + ·)

/-- The outcome of a chunk of the open session, and its effect. -/
def Dev.chunk (d : Dev) (off : Nat) (l : List Byte) : Dev × Nat :=
  let u := d.upd
  let k := l.length
  if off % 8 ≠ 0 ∨ (k % 8 ≠ 0 ∧ off + k ≠ u.total) ∨ u.total < off + k ∨ k = 0 ∨ 248 < k then (d, 2)
  else
    let us := unitsOf off k
    let old := (d.newContent.drop off).take k
    let differs := (upto k).any fun i => u.covered.contains ((off + i) / 8) && old.getD i 0 != l.getD i 0
    if differs then (d, 1)
    else if us.all u.covered.contains then (d, 0)
    else if 4096 < u.staged + k then (d, 3)
    else
      ((d.updUpd fun u =>
        { u with covered := addNew u.covered us, staging := u.staging ++ splitPages 3 (slotBase u.newSlot + off) l }).pageStart, 0)

/-- A chunk restarts the idle count and leaves its outcome in CHUNK_ST. -/
def Dev.takeChunk (d : Dev) (off : Nat) (l : List Byte) : Dev :=
  let (d, r) := d.chunk off l
  d.updUpd fun u => { u with chunkSt := r, idleTicks := d.now }

/-- The number of an access path among sources (R311). -/
def pathPort : Path → Nat
  | .tw0 => 1
  | .tw1 => 2
  | .fabric => 3
  | .firmware => 0

/-- The path may write the chunk registers: no session is open, or the lock holder's path writes (R500). -/
def Dev.chunkPath (d : Dev) (p : Path) : Bool := d.upd.session == 0 || srcPort d.upd.owner == pathPort p

/-- The bytes of CHUNK_DATA. -/
def Dev.chunkData (d : Dev) (k : Nat) : List Byte := ((upto 62).flatMap fun i => leBytes 4 (d.reg updPg (0x400 + 4 * i))).take k

/-- A write of CHUNK_CTL with GO = 1 (R500). -/
def Dev.chunkCtl (d : Dev) (p : Path) (v : Nat) : Dev :=
  if bitAt v 31 && d.chunkPath p then
    if d.upd.session = 0 ∨ d.fld updPg 0xC0 15 0 ≠ d.upd.session then d.updUpd fun u => { u with chunkSt := 4 }
    else if 248 < bits v 7 0 then (d.updUpd fun u => { u with chunkSt := 2, idleTicks := d.now })
    else d.takeChunk (d.fld updPg 0xC4 18 0) (d.chunkData (bits v 7 0))
  else d

/-- CHUNK_CTL (R500). -/
def execChunkCtl (p : Path) (v : Word32) (s : State) : Out := done (fun d => d.chunkCtl p v.toNat) s

/-! ### Verification (R494 to R497, R503) -/

/-- The public key that a certificate field holds, and whether it is all zeros. -/
def allZero (l : List Byte) : Bool := l.all fun b => b == 0

/-- `k` bytes of a spore from an offset. -/
def sub (l : List Byte) (o k : Nat) : List Byte := (l.drop o).take k

/-- A valid VENDOR_SIG (R494). -/
def vendorOk (l : List Byte) : Bool :=
  !allZero (sub l 0x120 96) && sha384 (sub l 0xC0 96) == Config.vendorHash &&
    Config.ecdsaOk (sub l 0xC0 96) (sub l 0 0xC0) (sub l 0x120 96)

/-- A valid OWNER_SIG, or a VENDOR_SIG standing in for it while OWNER_KEY is all zeros (R494, R497). -/
def Dev.ownerOk (d : Dev) (l : List Byte) : Bool :=
  if allZero (d.crustVal 6) then vendorOk l
  else !allZero (sub l 0x180 96) && Config.ecdsaOk (d.crustVal 6) (sub l 0 0xC0) (sub l 0x180 96)

/-- The image's own OWNER_SIG (R64, R497); while OWNER_KEY is all zeros the spore's VENDOR_SIG stands in. -/
def Dev.imageSigOk (d : Dev) (l img : List Byte) : Bool :=
  if allZero (d.crustVal 6) then vendorOk l else Config.ecdsaOk (d.crustVal 6) (sub img 0 0x80) (sub img 0x80 96)

/-- Step 3: the header. -/
def headerBad (l : List Byte) (total : Nat) : Bool :=
  let n := imgWord l 0x10
  imgWord l 0 != 0x53504F31 || bytesHalf l 4 != 1 || imgWord l 8 != 0x4064 || decide (n < 16) || decide (523776 < n) ||
    n + 512 != total || decide (16 ≤ bytesHalf l 6) ||
    !zeroBytes l 0x0E 2 || !zeroBytes l 0x1A 6 || !zeroBytes l 0x94 44 || !zeroBytes l 0x1E0 32

/-- The sections of a payload (R496); none where the layout is broken. -/
def readSections : Nat → List Byte → Option (List SporeSection)
  | 0, l => if l.isEmpty then some [] else none
  | n + 1, l =>
    if l.isEmpty then some []
    else
      let len := imgWord l 4
      let pad := (len + 15) / 16 * 16
      let ty := (l.getD 0 0).toNat
      if l.length < 16 + pad ∨ ty = 0 ∨ 4 < ty ∨ !zeroBytes l 1 1 ∨ !zeroBytes l 12 4 ∨ !zeroBytes l (16 + len) (pad - len) ∨
          (ty ≠ 4 ∧ bytesHalf l 2 ≠ 0) then none
      else (readSections n (l.drop (16 + pad))).map (⟨ty, bytesHalf l 2, imgWord l 8, sub l 16 len⟩ :: ·)

/-- Step 8: the sections against the header: at most one of types 1 to 3, up to 24 crust values, KIND, and the versions. -/
def sectionsOk (l : List Byte) (ss : List SporeSection) : Bool :=
  let n (t : Nat) : Nat := (ss.filter fun x => x.ty == t).length
  let ver (t : Nat) : Nat := ((ss.find? fun x => x.ty == t).map SporeSection.ver).getD 0
  decide (n 1 ≤ 1) && decide (n 2 ≤ 1) && decide (n 3 ≤ 1) && decide (n 4 ≤ 24) &&
    ((upto 4).all fun t => bitAt (bytesHalf l 6) t == decide (0 < n (t + 1))) &&
    ver 1 == imgWord l 0x14 && ver 2 == bytesHalf l 0x18 &&
    ss.all fun x =>
      if x.ty = 3 then decide (x.data.length ≤ 131072)
      else if x.ty = 4 then x.ver == 0 && decide (x.item < 24) && x.data.length == crustWidth x.item
      else true

/-- Step 9 for one section: 0 where it is authorised, else the code. A crust item that changes only by command is refused;
which of the two codes is reported is not stated, so it is a free value (log entry 26). -/
def Dev.signBad (d : Dev) (l : List Byte) (ss : List SporeSection) (x : SporeSection) : Nat :=
  if x.ty = 1 then (if vendorOk l then 0 else 7)
  else if x.ty = 2 then (if d.ownerOk l && d.imageSigOk l x.data then 0 else 8)
  else if x.ty = 3 then (if d.ownerOk l then 0 else 8)
  else if x.item = 10 ∨ x.item = 17 then (if vendorOk l then 0 else 7)
  else if x.item = 6 then
    (if d.ownerOk l && ss.any fun y => y.ty == 4 && y.item == 5 then 0 else 8)
  else if x.item = 5 ∨ x.item = 11 ∨ x.item = 12 then (if d.ownerOk l then 0 else 8)
  else 7 + Config.freeWord 3 x.item % 2

/-- Step 10 for one section: FW_FLOOR, IMAGE_FLOOR and the rules of R391. -/
def Dev.floorBad (d : Dev) (x : SporeSection) : Bool :=
  if x.ty = 1 then decide (x.ver < leNat (d.crustVal 10))
  else if x.ty = 2 then decide (x.ver < leNat (d.crustVal 11))
  else if x.ty = 4 then !d.crustRule x.item x.data
  else false

/-- Steps 2 to 10 of R503 on the content of the new slot: the result, and the sections. -/
def Dev.verify (d : Dev) (l : List Byte) : Nat × List SporeSection :=
  let u := d.upd
  match firstN ((u.total + 7) / 8) fun i => !u.covered.contains i with
  | some i => (0x8000 + i / 32, [])
  | none =>
    if headerBad l u.total then (2, [])
    else if leNat (d.crustVal 5) < bytesHalf l 0x0C then (3, [])
    else match Config.keyUnwrap Config.deviceKey (sub l 0x50 40) with
      | none => (4, [])
      | some key =>
        match Config.gcmOpen key (sub l 0x78 12) (sub l 0 0xC0) (l.drop 512) (sub l 0x84 16) with
        | none => (5, [])
        | some plain =>
          if sha384 plain ≠ sub l 0x20 48 then (6, [])
          else match readSections 28 plain with
            | none => (10, [])
            | some ss =>
              if !sectionsOk l ss then (10, [])
              else match ss.find? fun x => d.signBad l ss x != 0 with
                | some x => (d.signBad l ss x, [])
                | none => if ss.any d.floorBad then (9, []) else (0, ss)

/-- The section of a type. -/
def sectionOf (ss : List SporeSection) (t : Nat) : Option SporeSection := ss.find? fun x => x.ty == t

/-- Settings of the bank in use, and those of the other. -/
def UpdSt.sets (u : UpdSt) : List (Nat × Nat) := if u.setBank = 0 then u.sets0 else u.sets1
def UpdSt.otherSets (u : UpdSt) : List (Nat × Nat) := if u.setBank = 0 then u.sets1 else u.sets0

/-- The settings bank not in use. -/
def UpdSt.otherBank (u : UpdSt) : Nat := 1 - u.setBank % 2

/-- The effects of a successful commit (R504); without a settings section the other bank takes the settings in use. -/
def Dev.commitDone (d : Dev) (ss : List SporeSection) : Dev :=
  let d := match sectionOf ss 3 with
    | none => d.setWrite d.upd.otherBank d.upd.sets
    | some x => d.setBankPut d.upd.otherBank x.data
  (d.updUpd fun u =>
    { u with
      newVerified := true, newInvalid := false, sections := ss.filter (fun x => x.ty != 2 && x.ty != 3),
      hasImage := (sectionOf ss 2).isSome, result := 0 }).setUpd .ready

/-- A failed commit: UPD_RESULT, VERIFY_FAIL or LOAD_FAIL, and the state RECEIVING again; one that fails for want of the session
leaves slot and state as they are. -/
def Dev.commitFailed (d : Dev) (r : Nat) : Dev :=
  let d := d.updUpd fun u => if r = 1 then { u with result := 1 } else { u with result := r, newVerified := false, sections := [] }
  let d := if r = 1 then d else d.setUpd .receiving
  let d := if r = 1 then d else d.occur updPg (if r = 11 then 1 else 0)
  d.endItem stFailed r

/-- SPORE_COMMIT (R503, R504); VERIFYING lasts for this command. It waits for the slow writes of the slot's pages, which it reads
(R376), and while non-volatile writes wait (R347, R367). `other` is twin B's result of the load checks where an error
of that twin makes it another one than twin A's (R68). -/
def execSporeCommit (other : Option (Nat × Nat × Nat)) (s : State) : Out :=
  done (fun d => d.execHead 0x22 fun d w =>
    let u := d.upd
    if u.session = 0 ∨ u.session ≠ w.arg 0 2 ∨ u.owner ≠ w.src then d.commitFailed 1
    else if !d.upd.staging.isEmpty || d.nvHeld then d
    else
      let d := (d.updUpd fun u => { u with idleTicks := d.now }).setUpd .verifying
      let (r, ss) := d.verify d.newContent
      if r ≠ 0 then d.commitFailed r
      else
        let d := d.execMark w
        let d := match sectionOf ss 2 with
          | none => d
          | some x => d.loadImage x.data (other.map fun (r : Nat × Nat × Nat) => ⟨r.1, r.2.1, r.2.2⟩)
        if (sectionOf ss 2).isSome ∧ !d.sched.otherLoaded then d.commitFailed 11
        else (d.commitDone ss).endItem stDone 0) s

/-! ### Activation (R505 to R507) -/

/-- ACTIVATE (R505): on acceptance the state is ARMED and the command holds the queue. A target frond that R69 does not allow
for the swap is reported on the schedule page too (R69, R75). -/
def execActivate (s : State) : Out :=
  done (fun d => d.execHead 0x23 fun d w =>
    let f := w.arg 2 2
    if d.upd.st ≠ .ready then d.endItem stFailed 1
    else if !d.frondOk f then (if d.upd.hasImage then d.swapRefused 4 else d).endItem stFailed 2
    else if d.twinReturning then d.endItem stFailed 3
    else if d.upd.owner ≠ w.src ∨ d.upd.session ≠ w.arg 0 2 then d.endItem stFailed 5
    else if d.nvHeld then d
    else
      let d := (d.execMark w).startItem
      let d := (d.updUpd fun u => { u with target := f, idleTicks := d.now }).setUpd .armed
      if d.upd.hasImage then d.armSwap f else d) s

/-- An activation or a rollback waits for its target frond. -/
def UpdSt.waits (u : UpdSt) : Bool := u.st == .armed || u.st == .rollingBack

/-- COMPARE_SUSPEND (R506): at F − 4, or the boundary after execution if that is later. -/
def execCompareSuspend (s : State) : Out :=
  done (fun d =>
    if d.atBoundary && d.upd.waits && (!d.twin.suspend || d.upd.switched) &&
        decide ((d.upd.target + 65536 - d.nextFrond) % 65536 ≤ 4) then
      (d.updCtl fun c => { c with suspend := true }).updUpd fun u => { u with switched := false }
    else d) s

/-- The settings of the bank now in use take effect as a shadow commit (R506). -/
def Dev.applySettings (d : Dev) : Dev :=
  let l := d.upd.sets.filter fun e => d.reg 0xA4 (e.1 % 0x1000) != e.2
  let (d1, ch) := d.checkAll l
  Dev.commitEffects d ch [] d1

/-- The switch at the target frond: the settings bank, the run slot, the management pause. -/
def Dev.switchOver (d : Dev) : Dev :=
  (d.updUpd fun u =>
    { u with setBank := 1 - u.setBank, runSlot := u.newSlot, pause := true, switched := true,
             resumeAt := (u.target + 64) % 65536 }).applySettings

/-- CONFIRM_TIME in fronds of 128 µs: the first frond boundary at or after it. -/
def Dev.confirmFronds (d : Dev) : Nat := (d.fld updPg 0x40 15 0 * 15625 + 1) / 2

/-- The switch of an activation: the session ends, the firmware is the new one, and the confirmation timer starts. -/
def Dev.switchNew (d : Dev) : Dev :=
  let fw := match sectionOf d.upd.sections 1 with
    | none => d.upd.fw
    | some x => x.ver
  ((d.switchOver).updUpd fun u =>
    { u with oldFw := u.fw, fw := fw, session := 0, owner := 0, total := 0, covered := [], left := d.confirmFronds, running := true,
             rollCause := 0, sections := u.sections.filter fun x => x.ty == 4 }).setUpd .unconfirmed

/-- The switch of a rollback: the old firmware, settings and slot; the rejected slot is invalidated (R510). -/
def Dev.switchOld (d : Dev) : Dev :=
  ((d.switchOver).updUpd fun u =>
    { u with fw := u.oldFw, newVerified := false, newInvalid := true, sections := [], hasImage := false, left := 0,
             running := false }).setUpd .idle

/-- ACTIVATION_SWITCH (R506, R510), at the boundary of the target frond. -/
def execActivationSwitch (s : State) : Out :=
  done (fun d =>
    if d.atBoundary && d.nextFrond == d.upd.target then
      if d.upd.st = .armed then d.switchNew else if d.upd.st = .rollingBack then d.switchOld else d
    else d) s

/-- The end of the management pause: ACTIVATE or ROLLBACK completes (R506, R510). -/
def Dev.pauseEnd (d : Dev) : Dev :=
  let d := d.updUpd fun u => { u with pause := false }
  if d.upd.rollCause = 0 then
    let d := d.occur updPg 2
    if d.inProgress 0x23 then d.endItem stDone 0 else d
  else
    let d := (d.occurC updPg 3 d.upd.rollCause).updUpd fun u => { u with rollCause := 0 }
    let d := foldN 2 (fun d n => if d.flag (0xB8 + n) 0x40 1 then d.updTwT n fun t => { t with hnPend := t.hnPend ||| 4 } else d) d
    if d.inProgress 0x25 then d.endItem stDone 0 else d

/-- COMPARE_RESUME (R506): 64 fronds after the switch. -/
def execCompareResume (s : State) : Out :=
  done (fun d =>
    if d.atBoundary && d.upd.switched && d.nextFrond == d.upd.resumeAt then
      (d.updCtl fun c => { c with suspend := false }).updUpd fun u => { u with switched := false }
    else d) s

/-! ### Confirmation and rollback (R508 to R510) -/

/-- CONFIRM (R509): the crust sections one after another, then IDLE and CONFIRMED. Fired again, it goes on with a section that
waited for writes to resume. -/
def execConfirm (s : State) : Out :=
  done (fun d =>
    if d.inProgress 0x24 then
      (if d.crust.job.isNone then d.confirmNext ((d.head.map WorkItem.src).getD 0) d.upd.sections else d)
    else d.execHead 0x24 fun d w =>
      if d.upd.st ≠ .unconfirmed then d.endItem stDone 1
      else d.startItem.confirmNext w.src d.upd.sections) s

/-- A rollback is armed for frond `g`; the bank goes back where the activation swapped it. -/
def Dev.rollStart (d : Dev) (g cause : Nat) : Dev :=
  let d := (d.updUpd fun u => { u with target := g % 65536, rollCause := cause, running := false, left := 0 }).setUpd .rollingBack
  if d.upd.hasImage then d.armSwap g else d

/-- ROLLBACK (R510). -/
def execRollback (s : State) : Out :=
  done (fun d => d.execHead 0x25 fun d w =>
    if d.upd.st ≠ .unconfirmed then d.endItem stFailed 1
    else if !d.frondOk (w.arg 0 2) then (if d.upd.hasImage then d.swapRefused 4 else d).endItem stFailed 2
    else if d.nvHeld then d
    else ((d.execMark w).startItem).rollStart (w.arg 0 2) 4) s

/-- CONFIRM_TIMER_EXPIRY (R510): checked at frond boundaries; the rollback is at the eighth frond after it. A CONFIRM
that executes prevails (R512). -/
def execConfirmTimerExpiry (s : State) : Out :=
  done (fun d =>
    if d.atBoundary && d.upd.running && d.upd.left == 0 && d.upd.st == .unconfirmed && !d.inProgress 0x24 then d.rollStart (d.nextFrond + 8) 5 else d) s

end Sys2Proof.Machine
end

