-- ==== Sys2Proof/Machine/Clears.lean ====
section
/-! DEFINITION. Clears of status bits and counters (R339, R483 to R487, R567), and the sequenced commands that act on status,
twins and standby (R297, R420, R422). -/

namespace Sys2Proof.Machine

/-- The bits `i` for which `p` holds, as a mask. -/
def maskWhere (n : Nat) (p : Nat → Bool) : Nat := (upto n).foldl (fun v i => if p i then v ||| 2 ^ i else v) 0

/-- A twin is in OUT. -/
def Dev.outTwin (d : Dev) (t : Twin) : Bool := (d.twinOf t).st == .out

/-- Bits of a unit page that refuse a clear (R112, R119, R126, R571). -/
def Dev.unitRefuse (d : Dev) (n i : Nat) : Bool :=
  let soft := (d.memberOf n).elim false fun r => (d.rail r).st == .softStart
  if i = 0 then soft
  else if i = 1 then d.die.words.tflt.getLsbD n
  else if i = 4 then (d.unit n).st == .lost || ((d.memberOf n).isNone && !d.clusterUp (n / 8))
  else false

/-- Bits of a battery page (R293). -/
def Dev.bbuRefuse (d : Dev) (m i : Nat) : Bool :=
  let b := d.bbu m
  if i = 2 then b.chgBlock else if i = 3 then b.st == .reserve else if i = 6 then b.idInvalid
  else if i = 7 then !b.tempOk else if i = 9 then b.countInv else false

/-- Bits of page 0x098 (R268). -/
def Dev.feedRefuse (d : Dev) (i : Nat) : Bool :=
  if i = 6 ∨ i = 7 then d.carry.elim false fun f => !d.feedValid f
  else if i = 13 then d.xfer.noFeed else if i = 14 then !d.sup.vgdOk else false

/-- TWIN_SHUT names a twin in OUT (R369). -/
def Dev.shutNamed (d : Dev) : Bool := (d.therm.shutA && d.outTwin .a) || (d.therm.shutB && d.outTwin .b)

/-- Bits of page 0x0A8 (R362, R365, R369). -/
def Dev.thermRefuse (d : Dev) (i : Nat) : Bool :=
  let t := d.therm
  if i = 5 then t.dieWarn else if i = 6 then t.stWarn.any id else if i = 7 ∨ i = 10 then t.boardWarn
  else if i = 8 then d.shutNamed else if i = 9 then t.stShut.any id else if i = 11 then t.hold else false

/-- The condition under which the clear of a bit is refused for persistence (R484), page by page. -/
def Dev.persists (d : Dev) (pg i : Nat) : Bool :=
  if 0x30 ≤ pg ∧ pg < 0x70 then d.unitRefuse (pg - 0x30) i
  else if pg = 0x70 then (if i = 1 then !d.die.lockG0 else if i = 2 then !d.die.lockG1 else false)
  else if pg = 0x74 then i == 3 && d.adm.ports.any StepPort.stale
  else if pg = 0x75 then (if i = 0 then d.led.railOver else if i = 1 then d.led.rowOver else false)
  else if pg = 0x78 then
    (if i = 0 then d.adm.ports.any fun p => decide (3 ≤ p.level) else if i = 1 then d.adm.ports.any fun p => decide (2 ≤ p.level) else false)
  else if pg = 0x80 then
    (if i = 4 then d.units.any fun u => decide (0 < u.badRun) else if i = 5 then d.sense.pre.any PreCh.invalid else false)
  else if pg = 0x82 then
    (if i = 0 then d.sense.aux.inputs.any AuxIn.openWire else if i = 2 then d.sense.aux.inputs.any AuxIn.stale else false)
  else if 0x84 ≤ pg ∧ pg < 0x95 then
    (if i = 0 then (d.pre (pg - 0x84)).openWire else if i = 2 then (d.pre (pg - 0x84)).failed else false)
  else if pg = 0x98 then d.feedRefuse i
  else if 0x9C ≤ pg ∧ pg < 0xA0 then d.bbuRefuse (pg - 0x9C) i
  else if pg = 0xA0 then
    (if i = 10 then d.outTwin .a || d.outTwin .b
     else if i = 5 then d.twin.a.tickLost || d.twin.a.sLost || d.twin.b.tickLost || d.twin.b.sLost else false)
  else if pg = 0xA1 then i == 0 && d.ringFull
  else if pg = 0xA4 then (if i = 0 then d.fh.failed != 0 else if i = 3 then d.fh.shelf == .halted else false)
  else if pg = 0xA5 then
    (if i = 0 then d.sup.vauxWarn else if i = 1 then d.sup.holdLow else if i = 2 then d.fh.safePin else false)
  else if pg = 0xA8 then d.thermRefuse i
  else if pg = 0xB8 ∨ pg = 0xB9 then i == 5 && (d.twt (pg - 0xB8)).hnPend != 0
  else if 0xBA ≤ pg ∧ pg < 0xBE then i == 4 && (d.twc (pg - 0xBA)).stuck
  else if pg = 0xC0 then (if i = 0 then !d.mie.me.up else if i = 1 then !d.mie.mw.up else if i = 4 then d.mie.idConf else false)
  else if pg = 0xC1 then
    (if i = 1 then d.mie.mismatch else if i = 2 then d.mie.excluded && d.mie.cause == 1 else if i = 6 then d.mie.members.any RowMember.silent else false)
  else if pg = 0xC2 then (if i = 0 then d.mie.tst == .resync else if i = 1 then d.mie.tst == .hold else if i = 4 then d.mie.degraded else false)
  else if pg = 0xC8 then decide (16 ≤ i) && (d.ch (i - 16)).st == .error
  else false

/-- A unit in FAULT none of whose fault conditions is reported any more returns to IDLE (R112, R119, R208, R362). -/
def Dev.unitBack (d : Dev) (n : Nat) : Dev :=
  let u := d.unit n
  if u.st == .fault && !d.stBit (unitPg n) 0 && !d.stBit (unitPg n) 1 && !u.imonInv && !nth d.therm.stShut n false then
    d.updUnit n fun u => u.to .idle true
  else d

/-- What a chapter ties to the clear of a bit (R487): units return, latched rails and feeds leave LATCHED_OFF. -/
def Dev.afterClear (d : Dev) (pg cleared : Nat) : Dev :=
  if 0x30 ≤ pg ∧ pg < 0x70 then (if bitAt cleared 0 || bitAt cleared 1 then d.unitBack (pg - 0x30) else d)
  else if 0x28 ≤ pg ∧ pg < 0x2C then
    (if bitAt cleared 8 && (d.rail (pg - 0x28)).st == .latchedOff then
      d.updRail (pg - 0x28) fun x => { x with st := .off, wantOn := false }
     else d)
  else if pg = 0x80 then
    (if bitAt cleared 4 then
      foldN 64 Dev.unitBack { d with units := d.units.map fun u => { u with imonInv := false } } else d)
  else if pg = 0x98 then
    (if bitAt cleared 12 then
      let un (f : Feed) : Feed := if f.st = .latchedOff then { f with st := .absent, cmd := false } else f
      { d with feedA := un d.feedA, feedB := un d.feedB } else d)
  else if pg = 0xA8 then (if bitAt cleared 8 then d.updTherm fun t => { t with shutA := false, shutB := false } else d)
  else d

/-- A clear takes effect (R484); `newOcc` are the bits with an occurrence since the write. -/
def Dev.clearNow (d : Dev) (pg mask newOcc : Nat) : Dev :=
  let st := d.status pg
  let refuse := newOcc ||| maskWhere (statusBits pg) (d.persists pg)
  (d.updStat pg fun b => b.clear mask refuse).afterClear pg (clrBits (st &&& mask) refuse)

/-- The bits of `mask` that are set and would be refused. -/
def Dev.refusedOf (d : Dev) (pg mask newOcc : Nat) : Nat :=
  d.status pg &&& mask &&& (newOcc ||| maskWhere (statusBits pg) (d.persists pg))

/-- Whether clears of a page wait for the frond boundary (R483). -/
def controlPage (pg : Nat) : Bool := (pageRow pg).isSome && pagePlane pg == .control

/-- A requested clear: at once, or at the boundary of a commit written at the same moment (R483). -/
def Dev.clearRequest (d : Dev) (pg mask : Nat) (cmd : Bool) : Dev :=
  if controlPage pg then
    d.updStat pg fun b => { b with pend := b.pend ++ [⟨mask, if d.lateInFrond then 2 else 1, 0, cmd⟩] }
  else d.clearNow pg mask 0

/-- One waiting clear at a frond boundary. -/
def Dev.clearDue (d : Dev) (pg : Nat) (p : PendClear) : Dev :=
  let bad := d.refusedOf pg p.mask p.newOcc
  let d := d.clearNow pg p.mask p.newOcc
  if p.cmd && d.inProgress 1 then d.endItem stDone (b2n (bad != 0)) else d

/-- The waiting clears of a frond boundary. -/
def Dev.clearFrond (d : Dev) : Dev :=
  let due := d.stat.flatMap fun b => (b.pend.filter fun p => decide (p.wait ≤ 1)).map fun p => (b.page, p)
  let d := { d with stat := d.stat.map fun b =>
    { b with pend := (b.pend.filter fun p => decide (1 < p.wait)).map fun p => { p with wait := p.wait - 1 } } }
  due.foldl (fun d x => d.clearDue x.1 x.2) d

/-- A write of BLK_STATUS reaches an implemented page that has status bits. -/
def Dev.statusWrite (d : Dev) (pg mask : Nat) : Dev := if statusBits pg = 0 then d else d.clearRequest pg mask false

/-- The lock of a page on a path is closed. -/
def Dev.closeLock (d : Dev) (p : Path) (pg : Nat) : Dev :=
  { d with regs := { d.regs with locks := d.regs.locks.filter fun l => !(l.path == p && l.page == pg) } }

/-- BLK_STATUS_CLEAR (R483, R484, R486): a write to the page, which closes the path's lock (R30). -/
def execBlkStatusClear (p : Path) (page : Nat) (mask : Word32) (s : State) : Out :=
  done (fun d => (d.statusWrite page mask.toNat).closeLock p page) s

/-- CLEAR_REFUSED is cleared by writing 1 to it (R485). -/
def Dev.clearRefusedOff (d : Dev) (pg : Nat) : Dev := d.updStat pg fun b => { b with clearRefused := false }

/-- CLEAR_REFUSED_CLEAR (R485). -/
def execClearRefusedClear (page : Nat) (s : State) : Out :=
  done (fun d => if statusBits page = 0 then d else d.clearRefusedOff page) s

/-- BLK_INT_FORCE (R28): the bits are set and their causes recorded, without any reaction. -/
def execBlkIntForce (page : Nat) (mask : Word32) (s : State) : Out := done (fun d => d.occurMask page mask.toNat) s

/-- CLEAR_STATUS (R420, R486): it completes when the clear has taken effect. -/
def execClearStatus (s : State) : Out :=
  done (fun d => d.execHead 1 fun d w =>
    let pg := w.arg 0 2
    let m := w.arg 2 4
    if controlPage pg && statusBits pg != 0 then d.startItem.clearRequest pg m true
    else
      let bad := d.refusedOf pg m 0
      (d.statusWrite pg m).endItem stDone (b2n (bad != 0))) s

/-! ### Counters (R567) -/

/-- The counting fields of a register that is cleared only through the sequenced command window, and their clear. -/
def clearCount (pg off : Nat) : Option (Dev → Dev) :=
  if pg = 0x80 ∧ off = 0x08 then some fun d => { d with sense := { d.sense with overN := 0 } }
  else if 0x84 ≤ pg ∧ pg ≤ 0x94 ∧ off = 0x08 then some fun d => d.updPre (pg - 0x84) fun p => { p with overN := 0 }
  else if pg = 0x02 ∧ off = 0x50 then some fun d => d.updSched fun s => { s with missA := 0, missB := 0 }
  else if 0x30 ≤ pg ∧ pg < 0x70 ∧ off = 0x58 then some fun d => d.updUnit (pg - 0x30) fun u => { u with clamps := 0, flims := 0 }
  else if pg = 0x74 ∧ off = 0x80 then some fun d => d.updLed fun l => { l with grant := 0, defer := 0 }
  else if pg = 0x74 ∧ off = 0x84 then some fun d => d.updLed fun l => { l with reduce := 0, deny := 0 }
  else if pg = 0x74 ∧ off = 0x88 then some fun d => d.updLed fun l => { l with capped := 0, dup := 0 }
  else if pg = 0x74 ∧ off = 0x8C then some fun d => d.updLed fun l => { l with invalid := 0, seqBad := 0 }
  else if pg = 0x74 ∧ off = 0x90 then some fun d => d.updLed fun l => { l with unannRail := [0, 0, 0, 0] }
  else if pg = 0x74 ∧ 0xC0 ≤ off ∧ off < 0x100 ∧ off % 4 = 0 then
    some fun d => d.updPort ((off - 0xC0) / 4) fun p => { p with lineErr := 0, spacing := 0 }
  else if pg = 0x78 ∧ 0xC0 ≤ off ∧ off < 0x100 ∧ off % 4 = 0 then
    some fun d => d.updPort ((off - 0xC0) / 4) fun p => { p with unannTotal := 0 }
  else if pg = 0x98 ∧ off = 0x98 then some fun d => d.updXfer fun x => { x with count := 0 }
  else if pg = 0x99 ∧ off = 0xA0 then some fun d => { d with hs := d.hs.map fun h => { h with trips := 0 } }
  else if pg = 0xA0 ∧ off = 0x4C then some fun d => d.updCtl fun c => { c with missing := 0, disagree := 0 }
  else if pg = 0xA0 ∧ off = 0x50 then
    some fun d => d.updCtl fun c => { c with held := 0, a := { c.a with quar := 0 }, b := { c.b with quar := 0 } }
  else if pg = 0xA0 ∧ off = 0x58 then
    some fun d => d.updCtl fun c =>
      { c with a := { c.a with tickCount := 0, frondCount := 0 }, b := { c.b with tickCount := 0, frondCount := 0 } }
  else if pg = 0xA0 ∧ off = 0x5C then
    some fun d => d.updCtl fun c => { c with a := { c.a with selfErrs := 0 }, b := { c.b with selfErrs := 0 } }
  else if pg = 0xA1 ∧ off = 0x60 then some fun d => d.updJrn fun j => { j with accepted := 0, duplicate := 0 }
  else if pg = 0xA1 ∧ off = 0x64 then some fun d => d.updJrn fun j => { j with refused := 0 }
  else if pg = 0xA1 ∧ off = 0x68 then some fun d => d.updJrn fun j => { j with stepDenied := 0, itemsFailed := 0 }
  else if pg = 0xB0 ∧ off = 0x44 then some fun d => { d with nv := { d.nv with corrected := 0, repaired := 0 } }
  else if pg = 0xB0 ∧ off = 0x48 then some fun d => { d with nv := { d.nv with ties := 0 } }
  else if pg = 0xB1 ∧ off = 0x88 then some fun d => d.updPeat fun p => { p with tapFull := 0, merged := 0 }
  else if (pg = 0xB8 ∨ pg = 0xB9) ∧ off = 0x48 then some fun d => d.updTwT (pg - 0xB8) fun t => { t with blocks := 0, errors := 0 }
  else if 0xBA ≤ pg ∧ pg < 0xBE ∧ off = 0x48 then some fun d => d.updTwC (pg - 0xBA) fun t => { t with done := 0, failed := 0 }
  else if pg = 0xC0 ∧ off = 0x80 then some fun d => d.updMie fun m => { m with crcErr := 0, dup := 0 }
  else if pg = 0xC0 ∧ off = 0x84 then some fun d => d.updMie fun m => { m with rxDrop := 0, hopExpired := 0 }
  else if pg = 0xC0 ∧ off = 0x88 then some fun d => d.updMie fun m => { m with queueDrop := 0, unknown := 0 }
  else if pg = 0xC8 ∧ 0x100 ≤ off ∧ off < 0x300 ∧ off % 0x20 = 0x1C then
    some fun d => d.updDma ((off - 0x100) / 0x20) fun h => { h with done := 0, withdrawn := 0 }
  else none

/-- CLEAR_COUNTER (R420, R567): the fields clear at the next frond boundary, where the command completes. -/
def execClearCounter (s : State) : Out :=
  done (fun d => d.execHead 2 fun d w =>
    match clearCount (w.arg 0 2) (w.arg 2 2) with
    | none => d.endItem stFailed 2
    | some _ => d.startItem) s

/-- A CLEAR_COUNTER in progress at a frond boundary. -/
def Dev.counterFrond (d : Dev) : Dev :=
  if d.inProgress 2 then
    match d.head with
    | none => d
    | some w =>
      match clearCount (w.arg 0 2) (w.arg 2 2) with
      | none => d.endItem stFailed 2
      | some f => (f d).endItem stDone 0
  else d

/-! ### Twins and standby (R297, R420, R422) -/

/-- The twins are ACTIVE and STANDBY, and comparison is not suspended. -/
def Dev.mayRoleSwap (d : Dev) : Bool :=
  (d.twinOf d.activeTwin).st == .active && (d.twinOf (otherTwin d.activeTwin)).st == .standby && !d.twin.suspend

/-- ROLE_SWAP (R297): it takes effect, and completes, at the next frond boundary. -/
def execRoleSwap (s : State) : Out :=
  done (fun d => d.execHead 5 fun d w =>
    if d.mayRoleSwap then if d.nvHeld then d else ((d.execMark w).startItem).updCtl fun c => { c with swapRole := true }
    else d.endItem stFailed 1) s

/-- The twins at a frond boundary, and a ROLE_SWAP that waits for it. -/
def Dev.rolesFrond (d : Dev) (hbA hbB : Bool) : Dev :=
  let ok := d.mayRoleSwap
  let d := d.twinFrond hbA hbB
  if d.inProgress 5 then (if ok then d.endItem stDone 0 else d.endItem stFailed 1) else d

/-- TWIN_RESTART (R307, R420): a twin in OUT. -/
def execTwinRestart (s : State) : Out :=
  done (fun d => d.execHead 6 fun d w =>
    let t : Twin := if w.arg 0 1 = 0 then .a else .b
    if w.arg 0 1 ≤ 1 ∧ (d.twinOf t).st = .out then (d.twinRestart t).endItem stDone 0 else d.endItem stFailed 1) s

/-- STANDBY (R422): accepted while the shelf is DOWN or HALTED. -/
def execStandby (s : State) : Out :=
  done (fun d => d.execHead 8 fun d _ =>
    if d.fh.shelf = .down ∨ d.fh.shelf = .halted then
      (d.updSup fun u => { u with standbyReq := true }).endItem stDone 0
    else d.endItem stFailed 1) s

/-- Standby begins at the frond boundary after the command's completion (R422): outputs off, every island PLL stopped, the feed
gates by HOLD_OPEN. -/
def Dev.standbyFrond (d : Dev) : Dev :=
  if d.sup.standbyReq && (d.head.map WorkItem.code) != some 8 then
    let d := (d.updSup fun u => { u with standby := true, standbyReq := false }).outputsOff
    let d : Dev := { d with time := { d.time with lockA := 0, lockB := 0 } }
    if d.flag 0x98 0x40 2 then
      (d.updFeed .a fun f => { f with drive := false }).updFeed .b fun f => { f with drive := false } else d
  else d

/-- STANDBY_WAKE (R422): MR_n resets the device; the other causes resume the tick with the PLLs locked, at once (log entry 110), and an address is followed
by 3 ms (6,000 ticks) in which every transaction is NACKed. -/
def execStandbyWake (c : WakeCause) (s : State) : Out :=
  done (fun d =>
    if d.sup.standby then
      let d : Dev := { d.updSup fun u => { u with standby := false } with time := { d.time with
        lockA := if d.sup.vcoreA then 0x7FF else d.time.lockA, lockB := if d.sup.vcoreB then 0x7FF else d.time.lockB } }
      match c with
      | .mr => (d.enterSafe 6).assertReset 3
      | .address => d.updSup fun u => { u with nackTo := d.now + 6000 }
      | .pb | .safe => d
    else d) s

/-! ### Locks and commits (R23, R30) -/

/-- A write of BLK_LOCK (R30): 0x5A opens the page for the path, another value closes it. -/
def Dev.lockWrite (d : Dev) (p : Path) (pg v : Nat) : Dev :=
  let d := d.closeLock p pg
  if v % 256 = 0x5A then { d with regs := { d.regs with locks := ⟨p, pg, d.now⟩ :: d.regs.locks } } else d

/-- BLK_LOCK. -/
def execBlkLock (p : Path) (page : Nat) (v : Word32) (s : State) : Out :=
  done (fun d => if (regRow page 0x18).isSome then d.lockWrite p page v.toNat else d) s

/-- LOCK_TIMEOUT (R30): 256 ticks after it was opened. -/
def execLockTimeout (p : Path) (page : Nat) (s : State) : Out :=
  done (fun d =>
    if d.regs.locks.any fun l => l.path == p && l.page == page && decide (l.since + 256 ≤ d.now) then d.closeLock p page else d) s

/-- BLK_COMMIT (R23). -/
def execBlkCommit (page : Nat) (s : State) : Out :=
  done (fun d => if (regRow page 0x1C).isSome then d.commitPage page else d) s

end Sys2Proof.Machine
end

