-- ==== Sys2Proof/Machine/Access.lean ====
section
/-! DEFINITION. Register writes on an access path (R23, R28 to R30, R339, R362, R417, R521, R566 to R569): access codes, the
status of a write, the special registers, and the snapshot holds. -/

namespace Sys2Proof.Machine

/-- FAB_GO asks for a send at the next frond boundary (R456). -/
def Dev.fabGoWrite (d : Dev) : Dev := d.updMie fun m => { m with fabGo := some [] }

/-- A clear of STAGE_SHUT bits (R362): refused while the unit's temperature is at or above STAGE_WARN; else the unit returns. -/
def Dev.stageClear (d : Dev) (lo mask : Nat) : Dev :=
  foldN 32 (fun d i =>
    let n := lo + i
    if !(bitAt mask i && nth d.therm.stShut n false) then d
    else if ((d.unit n).temp.map fun t => decide (d.warnOf 2 ≤ t)).getD false then
      d.updStat 0xA8 fun b => { b with clearRefused := true }
    else (d.updTherm fun t => { t with stShut := setAt t.stShut n false }).unitBack n) d

/-! ### Snapshot holds (R521) -/

/-- A write of SNAP_HOLDn: HOLD = 1 takes a hold at the next frond boundary, HOLD = 0 releases it. -/
def State.snapWrite (s : State) (n v : Nat) : State :=
  let h := bitAt v 31
  let s := s.upd fun d => { d with ident :=
    if n = 0 then { d.ident with req0 := h, take0 := h } else { d.ident with req1 := h, take1 := h } }
  if h then s else if n = 0 then { s with held0 := none } else { s with held1 := none }

/-- The port whose path a path is. -/
def holdPath (p : Path) (n : Nat) : Bool := (p == .tw0 && n == 0) || (p == .tw1 && n == 1)

/-- SNAP_HOLDn is writable only from its own port. -/
def State.snapFrom (s : State) (p : Path) (n v : Nat) : State := if holdPath p n then s.snapWrite n v else s

/-- SNAP_HOLD (R521): a write of page 0 on the path, which closes the path's lock of the page (R30). -/
def execSnapHold (p : Path) (n : Fin 2) (v : Word32) (s : State) : Out :=
  .next ((s.snapFrom p n.val v.toNat).upd fun d => d.closeLock p 0)

/-- HOLD_EXPIRED (R521): a hold has lasted 64 fronds. -/
def execHoldExpired (n : Fin 2) (s : State) : Out :=
  let held := if n.val = 0 then s.held0.isSome else s.held1.isSome
  let left := if n.val = 0 then s.d.ident.left0 else s.d.ident.left1
  .next (if held && left == 0 then (s.snapWrite n.val 0).upd fun d => d.occur 0 2 else s)

/-! ### Writes -/

/-- The chunk registers of page 0x0D0 (R500). -/
def isChunkReg (pg off : Nat) : Bool :=
  pg == updPg && ((decide (0xC0 ≤ off) && decide (off ≤ 0xC8)) || (decide (0x400 ≤ off) && decide (off < 0x4F8)))

/-- The value in force of a register, which a write of an RWC field is compared with (R569). -/
def State.inForce (s : State) (pg off : Nat) : Nat := s.d.cfgRead pg off ||| s.d.roBlock pg off

/-- The RWC bits of a write of `v` that differ from the value in force (R569). -/
def State.rwcDiff (s : State) (r : RegRow) (pg off v : Nat) : Nat := (s.inForce pg off ^^^ v) &&& r.rwc

/-- The status of a write of `v` where the path reads `cur` and the RWC bits of `rwc` differ from the value in force (R417,
R569). -/
def writeStatus (r : RegRow) (cur rwc v : Nat) : Nat :=
  let rsvd := clrBits (v % 2 ^ 32) (r.rw ||| r.rws ||| r.ro ||| r.wo ||| r.w1c ||| r.rwc)
  if (cur ^^^ v) &&& r.ro != 0 then 1 else if rsvd != 0 then 2 else if rwc != 0 then 6 else 0

/-- The values of a page that its pending commits have sampled and that have not taken effect (R23). -/
def RegFile.sampledPage (g : RegFile) (pg : Nat) : Bool := g.commits.any fun c => c.page == pg && c.sampled.isSome

/-- The RWS fields of a write go to the shadow copy (R23, R568); after the sample of the page's commit the write stays there
until a further commit (R23). -/
def Dev.shadowWrite (d : Dev) (pg off v mask : Nat) : Dev :=
  if mask = 0 then d
  else
    let a := regAddr pg off
    let old := (alGet d.regs.shadow a).getD (d.reg pg off)
    { d with regs := { d.regs with
        shadow := alSet d.regs.shadow a (mergeBits old v mask)
        late := if d.regs.sampledPage pg then a :: d.regs.late else d.regs.late } }

/-- The RW fields of a write act at once, within their ranges, or wait for the frond boundary (R29, R566). -/
def Dev.plainWrite (d : Dev) (pg off v mask : Nat) : Dev :=
  if mask = 0 then d
  else if deferredPage pg off then
    let a := regAddr pg off
    d.deferWrite a (mergeBits ((alGet d.regs.deferred a).getD (d.reg pg off)) v mask)
  else
    let x := mergeBits (d.reg pg off) v mask
    let y := clampReg pg off x
    (d.setReg pg off y).clamped pg x y

/-- A write of a common register (R28). -/
def Dev.commonWrite (d : Dev) (p : Path) (pg off v : Nat) (r : RegRow) : Dev :=
  if off = 0x08 then d.statusWrite pg v
  else if off = 0x10 then d.occurMask pg v
  else if off = 0x14 then (if bitAt v 31 then d.clearRefusedOff pg else d)
  else if off = 0x18 then d.lockWrite p pg v
  else if off = 0x1C then (if bitAt v 0 then d.commitPage pg else d)
  else (d.plainWrite pg off v r.rw).shadowWrite pg off v r.rws

/-- A write of a block register. -/
def Dev.blockWrite (d : Dev) (p : Path) (pg off v : Nat) (r : RegRow) : Dev :=
  if pg = 0x80 ∧ off = 0x4C then d.calNow v
  else if pg = 0xE0 ∧ off = 0x8C then
    let d := if bitAt v 0 then d.capArm else d
    if bitAt v 1 then d.capForce else d
  else if pg = 0xE0 ∧ off = 0xA0 then (d.plainWrite pg off v r.rw).capRdWrite v
  else if pg = 0xA1 ∧ off = 0x4C then d.moveCompRd v
  else if pg = 0xA4 ∧ off = 0x88 then d.fhClear v
  else if pg = 0xA8 ∧ off = 0x134 then d.stageClear 0 v
  else if pg = 0xA8 ∧ off = 0x138 then d.stageClear 32 v
  else if pg = 0xB1 ∧ off = 0x48 then d.peatTrig ⟨4, 0xFFFF, 0, bits v 15 0⟩
  else if pg = 0xB1 ∧ off = 0x8C then (d.plainWrite pg off v r.rw).peatRdWrite v
  else if pg = 0xC0 ∧ off = 0x140 then d.fabGoWrite
  else if pg = 0xC1 ∧ off = 0x48 then d.rowExtWrite v
  else if pg = 0xC2 ∧ off = 0x5C then d.timeGo
  else if pg = 0xC8 ∧ 0x2E0 ≤ off ∧ off < 0x300 then d
  else if pg = 0xC8 ∧ 0x100 ≤ off ∧ off % 0x20 = 4 ∧ (d.ch ((off - 0x100) / 0x20)).st ≠ .idle then d
  else if pg = updPg ∧ off = 0xC8 then d.chunkCtl p v
  else (d.plainWrite pg off v r.rw).shadowWrite pg off v r.rws

/-- A write of one register on a path, and its status (R417): unimplemented pages and reserved offsets take nothing; a direct
write of an RWC field with another value sets REFUSED (R392); the first write to a page closes the path's lock (R30). -/
def State.applyWrite (s : State) (p : Path) (pg off v : Nat) : State × Nat :=
  if (pageRow pg).isNone then (s, 3)
  else match regRow pg off with
    | none => (s.upd fun d => d.closeLock p pg, if v % 2 ^ 32 = 0 then 0 else 2)
    | some r =>
      if pg = 0 ∧ (off = 0x58 ∨ off = 0x5C) then
        let n := (off - 0x58) / 4
        ((s.snapFrom p n v).upd fun d => d.closeLock p pg, writeStatus r (s.readReg p pg off) 0 v)
      else if isChunkReg pg off && !s.d.chunkPath p then (s.upd fun d => d.closeLock p pg, 5)
      else
        let rwc := s.rwcDiff r pg off v
        let st := writeStatus r (s.readReg p pg off) rwc v
        (s.upd fun d =>
          let d := if off < 0x40 then d.commonWrite p pg off v r else d.blockWrite p pg off v r
          let d := if rwc != 0 then d.occurC 0xB2 1 2 else d
          if off = 0x18 then d else d.closeLock p pg, st)

/-- REGISTER_WRITE (R29). -/
def execRegisterWrite (p : Path) (page off : Nat) (v : Word32) (s : State) : Out := .next (s.applyWrite p page off v.toNat).1

end Sys2Proof.Machine
end

