-- ==== Sys2Proof/Machine/Fabric.lean ====
section
/-! DEFINITION. Commands, replies, spore chunks and peat records over the fabric, and the frames that wait for the twins
(R441, R446, R456 to R458, R501, R507). -/

namespace Sys2Proof.Machine

/-! ### The sending side (R446, R456) -/

/-- FAB_TX as in force. -/
def Dev.fabWords (d : Dev) : List Nat := (upto 14).map fun w => d.reg miePg (0x100 + 4 * w)

/-- The destination of a command to send. -/
def fabDst (ws : List Nat) : Nat := bits (nth ws 0 0) 9 0
/-- TIMED of a command to send. -/
def fabTimed (ws : List Nat) : Bool := bitAt (nth ws 0 0) 31
/-- Its sequence. -/
def fabSeq (ws : List Nat) : Nat := bits (nth ws 1 0) 15 0

/-- The payload of the COMMAND frame: SEQ, code, TIMED, EXEC_TIME and the arguments, at most 40 bytes. -/
def fabPayload (ws : List Nat) : List Byte :=
  leBytes 2 (fabSeq ws) ++ [BitVec.ofNat 8 (bits (nth ws 1 0) 23 16), BitVec.ofNat 8 (b2n (fabTimed ws))] ++
    leBytes 4 (nth ws 2 0) ++ leBytes 4 (nth ws 3 0) ++
    ((upto 10).flatMap fun i => leBytes 4 (nth ws (4 + i) 0)).take (Nat.min 40 (bits (nth ws 0 0) 23 16))

/-- A command of FAB_TX is sent, or refused: no COMMAND frame leaves under ID_CONFLICT (R440), and one with TIMED = 1 sets
TX_REFUSED in RESYNC and in FREE (R446). The flag tells whether the frame left. -/
def Dev.fabSend (d : Dev) (ws : List Nat) : Dev × Bool :=
  if d.mie.idConf || d.offline then (d, false)
  else if fabTimed ws && (d.mie.tst == .free || d.mie.tst == .resync) then (d.occur miePg 5, false)
  else (d.unicast 6 (fabDst ws) (fabPayload ws), true)

/-- The commands to be sent at a frond boundary, and the age of the one that waits for its reply (R456). A
send waits for a tier in which MALL fires (R61, R63; log entry 109). -/
def Dev.fabFrond (d : Dev) : Dev :=
  let d := d.updMie fun m => { m with fabTx := m.fabTx.map fun t => { t with age := t.age + 1 } }
  match d.mie.fabGo with
  | none => d
  | some _ =>
    if !d.kindFires 6 then d else
    let ws := d.fabWords
    let r := (d.updMie fun m => { m with fabGo := none, fabRx := { m.fabRx with valid := false } }).fabSend ws
    r.1.updMie fun m => { m with fabTx := if r.2 then some ⟨ws, 1, 0⟩ else none }

/-- FAB_GO (R456): the write asks for a send at the next frond boundary. -/
def execFabGo (_ : Word32) (s : State) : Out := done Dev.fabGoWrite s

/-- FAB_RESEND (R456): every 16 fronds without a reply, with the same SEQ, up to 8 times; then NO_REPLY. A send waits
for a tier in which MALL fires (log entry 109). -/
def execFabResend (s : State) : Out :=
  done (fun d =>
    match d.mie.fabTx with
    | none => d
    | some t =>
      if t.age < 16 then d
      else if 8 < t.sends then (d.updMie fun m => { m with fabTx := none }).occur miePg 6
      else if !d.kindFires 6 then d
      else (d.fabSend t.words).1.updMie fun m => { m with fabTx := some { t with sends := t.sends + 1, age := 0 } }) s

/-! ### Commands and replies (R419, R420, R456) -/

/-- The argument bytes of a sequenced command (R420); none for a code that is not in the table. -/
def argLen (code : Nat) : Option Nat :=
  if code = 0 then some 0 else if code = 1 then some 6 else if code = 2 then some 4 else if code = 3 ∨ code = 4 then some 0
  else if code = 5 then some 0 else if code = 6 then some 1 else if code = 7 then some 4 else if code = 8 then some 0
  else if code = 0x20 then some 4 else if code = 0x21 ∨ code = 0x22 then some 2 else if code = 0x23 then some 4
  else if code = 0x24 then some 0 else if code = 0x25 then some 2 else none

/-- The 7-byte body of an outcome (R419). -/
def verdictBody (seq : Nat) (v : Verdict) : List Byte :=
  [BitVec.ofNat 8 v.code] ++ leBytes 2 seq ++ [BitVec.ofNat 8 v.status] ++ leBytes 2 v.result ++ [BitVec.ofNat 8 v.index]

/-- A TIMED item waits for its EXEC_TIME (R457). -/
def Dev.setTimed (d : Dev) (src seq t : Nat) : Dev :=
  d.updJrn fun j => { j with queue := j.queue.map fun w =>
    if w.src = src ∧ w.seq = seq then { w with timed := some t, result := none } else w }

/-- A received COMMAND: permission, form, then the outcome of R313; the reply goes to the sender (R456). -/
def Dev.takeCommand (d : Dev) (f : MFrame) : Dev :=
  let seq := leNat (f.payload.take 2)
  let code := ((f.payload.drop 2).getD 0 0).toNat
  let timed := bitAt ((f.payload.drop 3).getD 0 0).toNat 0
  let args := f.payload.drop 12
  let src := 0x3000 + f.src
  let sporesOff := !bitAt ((d.crustVal 12).getD 0 0).toNat 2
  let r : Dev × Verdict :=
    if code = 7 ∨ code = 8 ∨ (0x20 ≤ code ∧ code ≤ 0x25 ∧ sporesOff) then (d, .plain 0x20)
    else if argLen code ≠ some args.length ∨ f.payload.length < 12 then (d, .plain 0x21)
    else d.decideAny src seq code args true
  let d := if timed ∧ r.2.code = 0 then r.1.setTimed src seq (leNat ((f.payload.drop 4).take 8)) else r.1
  d.unicast 7 f.src (verdictBody seq r.2)

/-- COMMAND (R456). -/
def execFabCommand (p : MPort) (f : MFrame) (s : State) : Out :=
  done (fun d =>
    if f.kind ≠ 6 ∨ !frameKnown f then d
    else
      let r := d.receive p f none
      if r.2 then r.1.toTwins p f fun d => d.takeCommand f else r.1) s

/-- A received COMMAND_REPLY to the latest command sent (R456). -/
def Dev.takeReply (d : Dev) (f : MFrame) : Dev :=
  let b (i : Nat) : Nat := ((f.payload.drop i).getD 0 0).toNat
  let seq := leNat ((f.payload.drop 1).take 2)
  match d.mie.fabTx with
  | none => d
  | some t =>
    if fabDst t.words = f.src ∧ fabSeq t.words = seq then
      d.updMie fun m => { m with fabTx := none, fabRx := ⟨true, b 0, b 3, b 6, seq, leNat ((f.payload.drop 4).take 2)⟩ }
    else d

/-- COMMAND_REPLY (R456). -/
def execCommandReply (p : MPort) (f : MFrame) (s : State) : Out :=
  done (fun d =>
    if f.kind ≠ 7 ∨ !frameKnown f then d
    else
      let r := d.receive p f none
      if r.2 then r.1.toTwins p f fun d => d.takeReply f else r.1) s

/-! ### Spore chunks and peat records (R458, R501) -/

/-- A received SPORE_CHUNK (R501): from the lock holder, for its session; any other is CHUNK_REFUSED. -/
def Dev.takeSporeChunk (d : Dev) (f : MFrame) : Dev :=
  if d.upd.session ≠ 0 ∧ d.upd.owner = 0x3000 + f.src ∧ leNat (f.payload.take 2) = d.upd.session then
    d.takeChunk (leNat ((f.payload.drop 2).take 4)) (f.payload.drop 8)
  else d.occur updPg 6

/-- SPORE_CHUNK (R501). -/
def execSporeChunk (p : MPort) (f : MFrame) (s : State) : Out :=
  done (fun d =>
    if f.kind ≠ 8 ∨ !frameKnown f then d
    else
      let r := d.receive p f none
      if r.2 then r.1.toTwins p f fun d => d.takeSporeChunk f else r.1) s

/-- The four PEAT_DATA frames of a record; a GONE frame carries no bytes of it. -/
def Dev.sendPeat (d : Dev) (dst sq : Nat) (rec : Option (List Byte)) : Dev :=
  foldN 4 (fun d k =>
    d.unicast 0xA dst (leBytes 4 sq ++ [BitVec.ofNat 8 k, if rec.isSome then 0#8 else 1#8, 0#8, 0#8] ++
      match rec with
      | none => []
      | some l => (l.drop (128 * k)).take 128)) d

/-- The answer to a request for a record. -/
def Dev.peatAnswer (d : Dev) (dst sq : Nat) : Dev :=
  let r := d.peatLookup sq
  r.1.sendPeat dst sq r.2

/-- A received PEAT_REQ (R386, R458). -/
def Dev.takePeatReq (d : Dev) (f : MFrame) : Dev :=
  let flags := (f.payload.getD 0 0).toNat
  let d := if bitAt flags 0 && d.flag 0xB1 0x44 0 then
    d.peatTrig ⟨5, 0xFFFF, 0, leNat ((f.payload.drop 1).take 2)⟩ else d
  if bitAt flags 1 then d.peatAnswer f.src (leNat ((f.payload.drop 3).take 4)) else d

/-- PEAT_REQ (R458). -/
def execPeatReq (p : MPort) (f : MFrame) (s : State) : Out :=
  done (fun d =>
    if f.kind ≠ 9 ∨ !frameKnown f then d
    else
      let r := d.receive p f none
      if r.2 then r.1.toTwins p f fun d => d.takePeatReq f else r.1) s

/-- PEAT_DATA (R458): delivered to the twins, which hold no state for the record of another device. -/
def execPeatData (p : MPort) (f : MFrame) (s : State) : Out :=
  done (fun d =>
    if f.kind ≠ 0xA ∨ !frameKnown f then d
    else
      let r := d.receive p f none
      if r.2 then r.1.toTwins p f id else r.1) s

/-! ### Frames that waited (R441, R507) -/

/-- What the twins do with a frame that waited in die S, by its kind. -/
def Dev.handleFrame (d : Dev) (f : MFrame) : Dev :=
  if f.kind = 1 then d.takeBudget f
  else if f.kind = 2 then d.takeAdvert f
  else if f.kind = 5 then d.takeDigest f
  else if f.kind = 6 then d.takeCommand f
  else if f.kind = 7 then d.takeReply f
  else if f.kind = 8 then d.takeSporeChunk f
  else if f.kind = 9 then d.takePeatReq f
  else d

/-- An entry of a Mieno class fires: the frames of the receive buffer that it handles, oldest first (R54, R441); a COMMAND waits for
the end of the replay (R321). -/
def Dev.rxDrain (d : Dev) (cls : Nat) : Dev :=
  if d.upd.pause then d
  else
    let l := d.mie.rxBuf
    let takes (x : MPort × MFrame) : Bool := classHandles cls x.2.kind && !(x.2.kind == 6 && d.replaying)
    let d := d.updMie fun m => { m with rxBuf := l.filter fun x => !takes x }
    (l.filter takes).foldl (fun d x => (d.frameCells x.1 x.2).handleFrame x.2) d

/-! ### Timed items (R457) -/

/-- 128 fronds in ns. -/
def fronds128 : Nat := 16384000

/-- The head of the queue is a TIMED item that still waits. -/
def Dev.timedHead (d : Dev) : Option (WorkItem × Nat) :=
  match d.head with
  | none => none
  | some w => w.timed.map fun t => (w, t)

/-- TIMED_ITEM_EXECUTE (R457): at a frond boundary the item at the head fails, waits, or may begin. -/
def execTimedItemExecute (s : State) : Out :=
  done (fun d =>
    if !d.atBoundary then d
    else match d.timedHead with
    | none => d
    | some (w, t) =>
      let fail (r : Nat) : Dev := (d.updHead fun w => { w with timed := none }).endItem stFailed r
      if d.mie.tst != .sync && d.mie.tst != .hold then fail 0xFFF0
      else if t + fronds128 < d.mieNs then fail 0xFFF1
      else if d.mieNs + fronds128 < t then fail 0xFFF2
      else if d.mieNs < t then d
      else d.updHead fun x => { x with timed := none, result := if w.code = 0 then some (stDone, 0) else x.result }) s

end Sys2Proof.Machine
end

