-- ==== Sys2Proof/Machine/TwoWire.lean ====
section
/-! DEFINITION. The two-wire ports: addresses, blocks and PEC, the register and sequenced windows, Host Notify, controller
transactions, arbitration and bus recovery (R403 to R431). -/

namespace Sys2Proof.Machine

/-- Page of target port `n`. -/
def twtPg (n : Nat) : Nat := 0xB8 + n
/-- Page of controller port `c` (TW2 is port 0). -/
def twcPg (c : Nat) : Nat := 0xBA + c
/-- The access path of a target port. -/
def twPath (n : Nat) : Path := if n = 0 then .tw0 else .tw1

/-- The base address of R405: the crust's while its override bit is 1, else the strap's. -/
def Dev.twBase (d : Dev) (n : Nat) : Nat :=
  let v := leNat (d.crustVal 8)
  if bitAt v (8 * n + 7) then bits v (8 * n + 6) (8 * n)
  else if n = 0 then 0x40 + 2 * d.die.strap0 else 0x50 + 2 * d.die.strap1

/-- The STOP that ends a transaction on a target port: a change of the base address takes effect (R405). -/
def Dev.twStop (d : Dev) (n : Nat) : Dev := d.updTwT n fun t => { t with base := d.twBase n }

/-- What a target port drove in a transaction; none where it did not acknowledge. -/
def Dev.drive (d : Dev) (n : Nat) (x : Option (List Byte)) : Dev := d.updTwT n fun t => { t with tx := x }

/-- An error of a block is counted (TWT_COUNTS). -/
def Dev.twError (d : Dev) (n : Nat) : Dev := d.updTwT n fun t => { t with errors := satInc 65535 t.errors }

/-- A target port does not acknowledge, with a status bit of its page (R414, R415). -/
def Dev.twNack (d : Dev) (n bit : Nat) : Dev := ((d.drive n none).twError n).occur (twtPg n) bit

/-! ### The register window (R415 to R417) -/

/-- A status other than OK sets WINDOW_ERR and LAST_CODE (R417). -/
def Dev.windowStatus (d : Dev) (n st : Nat) : Dev :=
  if st = 0 then d else ((d.updTwT n fun t => { t with lastCode := st }).twError n).occur (twtPg n) 8

/-- A block's reply replaces the one the port keeps (R416). -/
def Dev.keepReply (d : Dev) (n st : Nat) (body : List Byte) : Dev :=
  (d.windowStatus n st).updTwT n fun t => { t with reply := some ⟨true, st, body⟩ }

/-- The words of a REG_WRITE in ascending offset order, and the first error (R416, R417). -/
def State.writeWords (s : State) (p : Path) (pg off : Nat) : List Word32 → State × Nat
  | [] => (s, 0)
  | w :: ws =>
    let r := s.applyWrite p pg off w.toNat
    let q := r.1.writeWords p pg (off + 4) ws
    (q.1, if r.2 ≠ 0 then r.2 else q.2)

/-- The offset and length of a transfer (R415, R417). -/
def transferStatus (off k : Nat) : Nat :=
  if k = 0 ∨ 62 < k then 7 else if off % 4 ≠ 0 ∨ 0x1000 < off + 4 * k then 8 else 0

/-- The channel of a target port (R19). -/
def twtChan (n : Nat) : Nat := 0x10 + n

/-- A whole block of a target port reaches the twins in message cells (R20, R410): from its command code on, without its PEC (log entry
11). -/
def Dev.blockCells (d : Dev) (n code : Nat) (data : List Byte) : Dev := d.inBlock (twtChan n) (BitVec.ofNat 8 code :: data)

/-- The data of a block write: its byte count and payload. -/
def counted (l : List Byte) : List Byte := BitVec.ofNat 8 l.length :: l

/-- REG_WRITE. -/
def State.windowWrite (s : State) (n pg off : Nat) (ws : List Word32) : State :=
  let s := s.upd fun d => d.blockCells n 1 (counted (leBytes 2 pg ++ leBytes 2 off ++ ws.flatMap (fun w => leBytes 4 w.toNat)))
  let st := transferStatus off ws.length
  if st ≠ 0 then s.upd fun d => d.keepReply n st []
  else
    let r := s.writeWords (twPath n) pg off ws
    r.1.upd fun d => d.keepReply n r.2 []

/-- A write-only register (R417). -/
def woReg (pg off : Nat) : Bool :=
  match regRow pg off with
  | none => false
  | some r => r.wo != 0 && r.rw == 0 && r.rws == 0 && r.w1c == 0 && r.rwc == 0

/-- The status of reading one word. -/
def readStatus (pg off : Nat) : Nat := if (pageRow pg).isNone then 3 else if woReg pg off then 4 else 0

/-- REG_READ: status, then the words (R416, R417). -/
def State.windowRead (s : State) (n pg off k : Nat) : State :=
  let s := s.upd fun d => d.blockCells n 2 (counted (leBytes 2 pg ++ leBytes 2 off ++ leBytes 1 k))
  let st := transferStatus off k
  if st ≠ 0 then s.upd fun d => d.keepReply n st []
  else
    let offs := (upto k).map fun i => off + 4 * i
    let st := (offs.find? fun o => readStatus pg o != 0).map (readStatus pg) |>.getD 0
    let body := offs.flatMap fun o => leBytes 4 (if readStatus pg o ≠ 0 then 0 else s.readReg (twPath n) pg o)
    s.upd fun d => d.keepReply n st body

/-- SEQ: one sequenced item (R418, R419). -/
def Dev.windowSeq (d : Dev) (n tag seq code : Nat) (args : List Byte) : Dev :=
  let d := d.blockCells n 0x10 (counted (leBytes 1 tag ++ leBytes 2 seq ++ leBytes 1 code ++ args))
  if argLen code ≠ some args.length then d.keepReply n 0x0C []
  else
    let r := d.decideAny ((1 + n) * 4096 + tag) seq code args false
    r.1.keepReply n 0 (verdictBody seq r.2)

/-- The device answers on no two-wire address: in reset, in standby, and for 3 ms after an address has woken it (R348, R422). -/
def Dev.twDead (d : Dev) : Bool := d.sup.inReset || d.sup.standby || decide (d.now < d.sup.nackTo)

/-- A block received on a target port is counted (TWT_COUNTS); a port that does not answer receives none. -/
def Dev.recvBlock (d : Dev) (n : Nat) : Dev :=
  if d.twDead then d else d.updTwT n fun t => { t with blocks := satInc 65535 t.blocks }

/-- A port of the state receives a block. -/
def State.recvBlock (s : State) (n : Nat) : State := s.upd fun d => d.recvBlock n

/-- A block for the twins waits in die S during a management pause (R507): the port's reply is not ready. -/
def Dev.holdBlock (d : Dev) (n : Nat) (b : HeldBlk) : Dev :=
  (d.updUpd fun u => { u with held := u.held ++ [b] }).updTwT n fun t => { t with reply := some ⟨false, 0, []⟩ }

/-- A block that carries an item of a source. -/
def HeldBlk.isItem : HeldBlk → Bool
  | .seq .. | .opening .. => true
  | _ => false

/-- A block waits in die S: during a management pause (R507), and one that carries an item while the replay goes on (R321, R350). -/
def Dev.holds (d : Dev) (b : HeldBlk) : Bool := d.upd.pause || (b.isItem && d.replaying)

/-- A window command: refused in reset and standby, held during a management pause, else `f`; its STOP follows. -/
def State.windowCmd (s : State) (n : Nat) (b : HeldBlk) (f : State → State) : State :=
  if s.d.twDead then s.upd fun d => d.drive n none
  else
    let s := if s.d.holds b then s.upd fun d => d.holdBlock n b else f s
    s.upd fun d => (d.drive n (some [])).twStop n

/-- REG_WRITE (R415, R416). -/
def execRegWrite (n : Fin 2) (page off : Nat) (words : List Word32) (s : State) : Out :=
  .next ((s.recvBlock n.val).windowCmd n.val (.regWrite n.val page off words) fun s => s.windowWrite n.val page off words)

/-- REG_READ (R415, R416). -/
def execRegRead (n : Fin 2) (page off k : Nat) (s : State) : Out :=
  .next ((s.recvBlock n.val).windowCmd n.val (.regRead n.val page off k) fun s => s.windowRead n.val page off k)

/-- SEQ (R418). -/
def execSeqItem (n : Fin 2) (tag seq code : Nat) (args : List Byte) (s : State) : Out :=
  .next ((s.recvBlock n.val).windowCmd n.val (.seq n.val tag seq code args) fun s => s.upd fun d => d.windowSeq n.val tag seq code args)

/-- The bytes of a REPLY block read: count, status, body, and the PEC over both address bytes and the command code. -/
def Dev.replyBytes (d : Dev) (n st : Nat) (body : List Byte) : List Byte :=
  let a := 2 * ((d.twt n).base + 1)
  let l := BitVec.ofNat 8 (1 + body.length) :: BitVec.ofNat 8 st :: body
  l ++ [BitVec.ofNat 8 (crc8 ([BitVec.ofNat 8 a, 0x11#8, BitVec.ofNat 8 (a + 1)] ++ l))]

/-- The answer to a REPLY, and the STOP that follows. -/
def Dev.answer (d : Dev) (n st : Nat) (body : List Byte) : Dev :=
  ((d.drive n (some (d.replyBytes n st body))).twStop n).updTwT n fun t => { t with scl := false }

/-- REPLY (R407, R416): the port's kept reply, or NO_REPLY; while the reply is not ready the port holds SCL. -/
def Dev.windowReply (d : Dev) (n : Nat) : Dev :=
  match (d.twt n).reply with
  | none => (d.windowStatus n 0x0B).answer n 0x0B []
  | some r => if r.ready then d.answer n r.status r.body else d.updTwT n fun t => { t with scl := true }

/-- A REPLY that holds SCL is answered once its reply is ready (R407, R416). -/
def Dev.replyReady (d : Dev) (n : Nat) : Dev :=
  match (d.twt n).scl, (d.twt n).reply with
  | true, some r => if r.ready then d.answer n r.status r.body else d
  | _, _ => d

/-- REPLY. -/
def execReplyRead (n : Fin 2) (s : State) : Out :=
  done (fun d => if d.twDead then d.drive n.val none else (d.recvBlock n.val).windowReply n.val) s

/-- WINDOW_TIMEOUT (R408): the reply is not ready 24 ms after SCL was held; it is discarded, even if it becomes ready later. -/
def execWindowTimeout (n : Fin 2) (s : State) : Out :=
  done (fun d =>
    match (d.twt n.val).reply with
    | none => d
    | some r =>
      if r.ready then d
      else
        let d := (d.windowStatus n.val 0x0A).answer n.val 0x0A []
        (d.updTwT n.val fun t => { t with reply := none }).occur (twtPg n.val) 3) s

/-- A held block is processed once the pause is over; a reply that timed out meanwhile is not kept (R408), and one for which a REPLY
holds SCL answers it. -/
def State.runHeld (s : State) (b : HeldBlk) : State :=
  let late (n : Nat) (f : State → State) : State :=
    let gone := ((s.d.twt n).reply.map KeptReply.ready).getD true
    let s := f s
    s.upd fun d => if gone then d.updTwT n fun t => { t with reply := none } else d.replyReady n
  match b with
  | .regWrite n pg off ws => late n fun s => s.windowWrite n pg off ws
  | .regRead n pg off k => late n fun s => s.windowRead n pg off k
  | .seq n tag sq code args => late n fun s => s.upd fun d => d.windowSeq n tag sq code args
  | .opening src sq => s.upd fun d => (d.decideOpen src sq (decide (src / 4096 = 3))).1
  | .vout r v =>
    s.upd fun d =>
      ({ d with regs := { d.regs with shadow := alSet d.regs.shadow (regAddr (railPg r) 0x44) v } }).commitPage (railPg r)

/-- What waited in die S and need wait no longer is processed in order. -/
def State.release (s : State) : State :=
  let l := s.d.upd.held
  let s := s.upd fun d => d.updUpd fun u => { u with held := l.filter d.holds }
  (l.filter fun b => !s.d.holds b).foldl State.runHeld s

/-- MANAGEMENT_PAUSE_END (R506, R507): ACTIVATE or ROLLBACK completes, and what waited in die S is processed in order. -/
def execManagementPauseEnd (s : State) : Out := .next (if s.d.upd.pause then (s.upd Dev.pauseEnd).release else s)

/-- ITEM_COMPLETION (R319): with the last item of the replay what waited for it is processed (R321, R350). -/
def execItemCompletion (s : State) : Out :=
  let t := s.upd Dev.completeHead
  .next (if s.d.replaying && !t.d.replaying then t.release else t)

/-! ### Framing (R406, R409, R410) -/

/-- SCL_HELD_TIMEOUT (R409): the framer discards its partial block, which is no state of a completed block; the time limit is
recorded as TIMEOUT. -/
def execSclHeldTimeout (n : Fin 2) (s : State) : Out :=
  done (fun d => if d.twDead then d else (d.drive n.val none).occur (twtPg n.val) 3) s

/-- SDA_RELEASED (R409): the port releases SDA after 35 ms without a clock. -/
def execSdaReleased (n : Fin 2) (s : State) : Out :=
  done (fun d => if d.twDead then d else (d.drive n.val none).occur (twtPg n.val) 4) s

/-- ALERT_RESPONSE (R406): the base address in bits [7:1], while the port's ALERT pin is asserted; the pin stays low. -/
def execAlertResponse (n : Fin 2) (s : State) : Out :=
  done (fun d =>
    let low := if n.val = 0 then d.die.alert0 else d.die.alert1
    if d.twDead || !low then d.drive n.val none
    else (d.drive n.val (some [BitVec.ofNat 8 (2 * (d.twt n.val).base)])).twStop n.val) s

/-! ### Host Notify (R421) -/

/-- HOST_NOTIFY (R421): at most once per frond while the summary is not 0; an acknowledged message clears what it carried. One that has lost
arbitration a fourth time is not acknowledged (R427). -/
def execHostNotify (n : Fin 2) (acked : Bool) (s : State) : Out :=
  done (fun d =>
    let t := d.twt n.val
    if d.twDead || !d.flag (twtPg n.val) 0x40 1 || t.hnPend == 0 || t.hnWait != 0 || t.arbWait then d
    else
      let acked := acked && !t.arbFail
      (d.updTwT n.val fun t =>
        let fails := if acked then 0 else satInc 3 t.hnFails
        { t with tx := some [0x10#8, BitVec.ofNat 8 (2 * t.base), BitVec.ofNat 8 t.hnPend, 0#8], arbN := 0, arbFail := false,
                 hnPend := if acked then 0 else t.hnPend, hnFails := if t.hnFails = 4 ∧ !acked then 4 else fails,
                 hnWait := if !acked ∧ 3 ≤ fails then 64 else 1 }).twStop n.val) s

/-- HN_FAIL (R421): three consecutive failed fronds; attempts follow every 64 fronds. -/
def execHnFail (n : Fin 2) (s : State) : Out :=
  done (fun d =>
    if (d.twt n.val).hnFails = 3 then
      (d.updTwT n.val fun t => { t with hnFails := 4, hnWait := 64 }).occur (twtPg n.val) 5
    else d) s

/-! ### Controller transactions (R423, R424) -/

/-- LINEAR11 of `num / den` (R412): the smallest exponent whose mantissa fits 11 signed bits; the rounding of the mantissa is
not stated (log entry 3). -/
def linear11 (site : Nat) (num den : Int) : Nat :=
  let mant (k : Nat) : Int := if k ≤ 16 then Config.rdiv site (num * 2 ^ (16 - k)) den else Config.rdiv site num (den * 2 ^ (k - 16))
  let fits (k : Nat) : Bool := decide (-1024 ≤ mant k) && decide (mant k ≤ 1023)
  let k := (firstN 32 fits).getD 31
  unsigned 5 ((k : Int) - 16) * 2048 + unsigned 11 (mant k)

/-- A write word of a controller port, with its PEC where the port uses it (R423). -/
def Dev.writeWord (d : Dev) (c addr cmd v : Nat) : List Byte :=
  let l := [BitVec.ofNat 8 (2 * addr), BitVec.ofNat 8 cmd] ++ leBytes 2 v
  if d.flag (twcPg c) 0x40 2 then l ++ [BitVec.ofNat 8 (crc8 l)] else l

/-- The channel of controller port `c`. -/
def twChan (c : Nat) : Nat := 0x12 + c

/-- The valid rectifiers of a port (0 TW2, 1 TW3). -/
def Dev.rectifiers (d : Dev) (p : Nat) : List Nat :=
  ((upto 12).map fun k => d.reg 0xBA (0x200 + 4 * k)).filterMap fun v =>
    if bitAt v 31 ∧ bits v 8 8 = p then some (bits v 6 0) else none

/-- The nudge computed in a tick goes out as one group command on each port with rectifiers (R186, R423). -/
def Dev.placeNudge (d : Dev) : Dev :=
  match d.led.nudge with
  | none => d
  | some x =>
    let count := (d.rectifiers 0).length + (d.rectifiers 1).length
    let v := linear11 70 (x * 1000) (65536 * (count : Int))
    let d := d.updLed fun l => { l with nudge := none }
    foldN 2 (fun d p =>
      if (d.rectifiers p).isEmpty then d
      else d.putOut (twChan p) ((d.rectifiers p).flatMap fun a => d.writeWord p a (d.fld (twcPg p) 0x40 31 24) v)) d

/-- The address of the charger of module `m`. -/
def Dev.chgAddr (d : Dev) (m : Nat) : Nat := d.fld (bbuPg m) 0x40 22 16

/-- Charge commands that are due go out on TW4 (R287, R288), those of compatibility mode too (R285). -/
def Dev.placeCharges (d : Dev) : Dev :=
  foldN 4 (fun d m =>
    let b := d.bbu m
    if b.sendDue && d.bbuEn m then
      let v := linear11 71 (if b.chgOn then d.fld (bbuPg m) 0x50 31 16 else 0) 10
      (d.updBbu m fun b => { b with sendDue := false, repeatN := 0 }).putOut (twChan 2) (d.writeWord 2 (d.chgAddr m) 0xD5 v)
    else d) d

/-- What an outbound block of a controller port is: a charge command to a module's charger, or a nudge. -/
def Dev.blockKind (d : Dev) (c : Nat) (l : List Byte) : TwTx :=
  let a := (l.getD 0 0).toNat / 2
  if c = 2 ∧ l.getD 1 0 = 0xD5#8 then
    match firstN 4 fun m => d.bbuEn m && d.chgAddr m == a with
    | some m => .charge m
    | none => .none
  else if c < 2 then .nudge else .none

/-- The target address of a transaction. -/
def Dev.txAddr (d : Dev) (c : Nat) : TwTx → Nat
  | .none => 0
  | .nudge => (d.rectifiers c).headD 0
  | .charge m => d.chgAddr m
  | .poll i => d.fld (twcPg c) (0x100 + 8 * i) 30 24

/-- The status bit of a failed attempt (R431); an abort is recorded by its own event. -/
def Dev.txError (d : Dev) (c : Nat) : TwAnswer → Dev
  | .data _ => d
  | .nack => d.occur (twcPg c) 0
  | .pec => d.occur (twcPg c) 1
  | .abort => d

/-- A poll's result: the value, or VALID = 0 and one more failure (R424). -/
def Dev.pollDone (d : Dev) (c i : Nat) (v : Option (BitVec 16)) : Dev :=
  let word := d.flag (twcPg c) (0x100 + 8 * i) 15
  d.updTwC c fun t => { t with polls := updAt t.polls i fun p =>
    match v with
    | some x => { p with valid := true, fails := 0, value := if word then x.toNat else x.toNat % 256 }
    | none => { p with valid := false, fails := inc8 p.fails } }

/-- A transaction completed; the reply of a read reaches the twins in message cells (R20, R423). -/
def Dev.txDone (d : Dev) (c : Nat) (x : TwTx) (v : BitVec 16) : Dev :=
  let d := d.twDone c 1
  match x with
  | .poll i =>
    (d.inBlock (twChan c) (leBytes (if d.flag (twcPg c) (0x100 + 8 * i) 15 then 2 else 1) v.toNat)).pollDone c i (some v)
  | .charge m => d.updBbu m fun b => { b with naks := 0 }
  | _ => d

/-- A transaction failed for good: counted, with its address (R424). -/
def Dev.txFailed (d : Dev) (c : Nat) (x : TwTx) : Dev :=
  let a := d.txAddr c x
  let d := d.twGone c a
  match x with
  | .poll i => d.pollDone c i none
  | .charge m => d.updBbu m fun b => { b with naks := b.naks + 1 }
  | _ => d

/-- How a transaction ends: one that has lost arbitration a fourth time fails, whatever is answered (R427). -/
def Dev.txAnswer (d : Dev) (c : Nat) (answer : TwAnswer) : TwAnswer := if (d.twc c).arbFail then .abort else answer

/-- The first attempt of a transaction: while STUCK is set it fails at once (R428); a failure is retried in the next frond. -/
def Dev.txFirst (d : Dev) (c : Nat) (x : TwTx) (answer : TwAnswer) : Dev :=
  let answer := d.txAnswer c answer
  let d := d.updTwC c fun t => { t with tx := x, arbN := 0, arbFail := false }
  if (d.twc c).stuck then d.txFailed c x
  else match answer with
    | .data v => d.txDone c x v
    | a => (d.txError c a).updTwC c fun t => { t with again := t.again ++ [x] }

/-- OUTBOUND_BLOCK_TX (R20): the first block of the channel whose LAST cell is in die S leaves on its interface; on a
controller port it is a transaction (R423). -/
def execOutboundBlockTx (chan : Nat) (answer : TwAnswer) (s : State) : Out :=
  done (fun d =>
    match d.die.out.find? fun b => b.chan == chan && b.last with
    | none => d
    | some b =>
      let c := chan - 0x12
      let tw := decide (0x12 ≤ chan) && decide (chan ≤ 0x15)
      if d.offline || (tw && d.twcBusy c) then d
      else
        let d := { d with die := { d.die with out := d.die.out.erase b, sent := b :: d.die.sent } }
        if tw then d.txFirst c (d.blockKind c b.bytes) answer else d) s

/-- POLL (R423, R424): every PERIOD fronds, after the port's bus recovery at reset release (R428). -/
def execPoll (c : Fin 4) (i : Fin 16) (answer : TwAnswer) (s : State) : Out :=
  done (fun d =>
    let cfg := twcPg c.val
    let off := 0x100 + 8 * i.val
    if d.twcBusy c.val || !d.flag cfg off 31 then d
    else if (nth (d.twc c.val).polls i.val .reset).age < d.fld cfg off 7 0 then d
    else
      let d := d.updTwC c.val fun t => { t with polls := updAt t.polls i.val fun p => { p with age := 0 } }
      let d := if (d.twc c.val).stuck then d else d.sendRead c.val (d.fld cfg off 30 24) (d.fld cfg off 23 16)
      d.txFirst c.val (.poll i.val) answer) s

/-- TW_RETRY (R424): the oldest transaction that failed once in the frond before is tried again; a second failure completes it as failed. -/
def execTwRetry (c : Fin 4) (answer : TwAnswer) (s : State) : Out :=
  done (fun d =>
    match (d.twc c.val).retry with
    | [] => d
    | x :: rest =>
      if d.twcBusy c.val then d
      else
        let answer := d.txAnswer c.val answer
        let d := d.updTwC c.val fun t => { t with tx := x, retry := rest, arbN := 0, arbFail := false }
        if (d.twc c.val).stuck then d.txFailed c.val x
        else match answer with
          | .data v => d.txDone c.val x v
          | a => (d.txError c.val a).txFailed c.val x) s

/-- CONTROLLER_SCL_TIMEOUT (R424): the port aborts with a STOP and sets TIMEOUT. -/
def execControllerSclTimeout (c : Fin 4) (s : State) : Out :=
  done (fun d => if d.offline then d else d.occur (twcPg c.val) 5) s

/-! ### Arbitration and bus recovery (R425 to R428) -/

/-- A lost arbitration of port `n` (0, 1 targets as controllers of Host Notify, 2 to 5 controllers): up to 3 retries; the
fourth loss fails the transaction that is then being sent. -/
def Dev.arbLoss (d : Dev) (n : Nat) : Dev :=
  if n < 2 then
    d.updTwT n fun t =>
      { t with arbN := if t.arbN = 3 then 0 else t.arbN + 1, arbWait := decide (t.arbN < 3), arbFail := t.arbN == 3 }
  else
    d.updTwC (n - 2) fun t =>
      { t with arbN := if t.arbN = 3 then 0 else t.arbN + 1, arbWait := decide (t.arbN < 3), arbFail := t.arbN == 3 }

/-- ARB_LOST (R425): the index of the bit is recorded. -/
def execArbLost (n : Fin 6) (byte bit : Nat) (s : State) : Out :=
  done (fun d =>
    if d.offline then d
    else if n.val < 2 then (d.occur (twtPg n.val) 6).arbLoss n.val
    else ((d.updTwC (n.val - 2) fun t => { t with arbIndex := (9 * byte + bit) % 256 }).occur (twcPg (n.val - 2)) 2).arbLoss n.val) s

/-- ARB_COND (R425). -/
def execArbCond (n : Fin 6) (s : State) : Out :=
  done (fun d =>
    if d.offline then d
    else if n.val < 2 then (d.occur (twtPg n.val) 7).arbLoss n.val
    else (d.occur (twcPg (n.val - 2)) 3).arbLoss n.val) s

/-- ARB_RETRY (R427): after a STOP and the bus-free time the whole transaction begins again. -/
def execArbRetry (n : Fin 6) (s : State) : Out :=
  done (fun d =>
    if n.val < 2 then d.updTwT n.val fun t => { t with arbWait := false }
    else d.updTwC (n.val - 2) fun t => { t with arbWait := false }) s

/-- BUS_RECOVERY (R428): up to nine clocks; a bus that stays low sets STUCK with its cause. While STUCK is set it is repeated every
64 fronds. -/
def execBusRecovery (c : Fin 4) (b : BusState) (s : State) : Out :=
  done (fun d =>
    if d.offline || ((d.twc c.val).stuck && decide ((d.twc c.val).stuckAge < 64)) then d
    else
      let d := d.updTwC c.val fun t => { t with fresh := false, stuck := b != .released, stuckAge := 0 }
      match b with
      | .released => d
      | .sdaLow => d.occurC (twcPg c.val) 4 5
      | .sclLow => d.occurC (twcPg c.val) 4 6) s

/-- The two-wire ports at a frond boundary: ages of polls and of STUCK, the wait of Host Notify, and the transactions whose retry is due
(R424). -/
def Dev.twFrond (d : Dev) : Dev :=
  { d with
    twT := d.twT.map fun t => { t with hnWait := t.hnWait - 1 }
    twC := d.twC.map fun t =>
      { t with stuckAge := if t.stuck then t.stuckAge + 1 else 0, retry := t.retry ++ t.again, again := [],
               polls := t.polls.map fun p => { p with age := satInc 65535 p.age } } }

end Sys2Proof.Machine
end

