-- ==== Sys2Proof/Machine/Boot.lean ====
section
/-! DEFINITION. Reset release and boot: what a reset keeps, the reconciliation of the parameter area, the boot replay and the
roles (R291, R296, R318 to R323, R348, R373, R379, R388, R511, R539, R540). -/

namespace Sys2Proof.Machine

/-! ### Reconciliation (R373) -/

/-- The losing copy of a place is rewritten with the winner and counted; a tie of R382 is recorded (R373). -/
def Dev.rewritePlace (d : Dev) (addr : Nat) (w : List Byte) (tied : Bool) : Dev :=
  let d := if tied then d.tie addr else d
  let keep (p : Nat) : Bool := !(pagesOf addr w.length).contains p
  { d with nv := { d.nv with a := memWriteBytes d.nv.a addr w, b := memWriteBytes d.nv.b addr w,
                             badA := d.nv.badA.filter keep, badB := d.nv.badB.filter keep, repaired := inc16 d.nv.repaired } }.occur 0xB0 1

/-- Reconciliation of one place (R373). -/
def Dev.reconcileAt (d : Dev) (p : Place) : Dev :=
  let a := memBytes d.nv.a p.addr p.len
  let b := memBytes d.nv.b p.addr p.len
  let va := p.ok a && d.nv.readableA p.addr p.len
  let vb := p.ok b && d.nv.readableB p.addr p.len
  if (a == b && va == vb) || !(va || vb) then d
  else
    let same := p.keyOf a == p.keyOf b
    let winA := if va != vb then va else if same then d.tieA p a b else laterGen (p.keyOf a) (p.keyOf b)
    d.rewritePlace p.addr (if winA then a else b) same

/-- Reconciliation of a record place of the settings store (R373, R381, R382). -/
def Dev.reconcileSet (d : Dev) (b group o : Nat) : Dev :=
  let gen (t : Twin) : Nat := leNat (bankBytes (d.nvCopy t) b (o + 4) 4)
  match recordAt (d.nvCopy .a) b group o, recordAt (d.nvCopy .b) b group o with
  | none, none => d
  | some x, none => d.rewritePlace (setBankAt b + o) x (recGen x == gen .b)
  | none, some y => d.rewritePlace (setBankAt b + o) y (recGen y == gen .a)
  | some x, some y =>
    if x == y then d else d.rewritePlace (setBankAt b + o) (if recWinA x y then x else y) (recGen x == recGen y)

/-- Reconciliation of a bank of the settings store. The directory carries no CRC: that of the twin whose copy lists groups counts,
twin A's where both do (log entry 36). -/
def Dev.reconcileBank (d : Dev) (b : Nat) : Dev :=
  let da := setDir (d.nvCopy .a) b
  let db := setDir (d.nvCopy .b) b
  let l := if da.isEmpty then db else da
  let d : Dev :=
    if da == db then d
    else
      { d with nv := { d.nv with a := memWriteBytes d.nv.a (setBankAt b) (dirBytes l),
                                 b := memWriteBytes d.nv.b (setBankAt b) (dirBytes l) } }
  l.foldl (fun d g => (d.reconcileSet b g.group g.place0).reconcileSet b g.group g.place1) d

/-- Both twins reconcile their copies, after which they agree. -/
def Dev.reconcile (d : Dev) : Dev :=
  let d := allPlaces.foldl Dev.reconcileAt d
  let d := (d.reconcileBank 0).reconcileBank 1
  { d with nv := { d.nv with dirtyA := [], dirtyB := [] } }

/-- A copy that counts: its twin runs, its words can be read, and its CRC holds. -/
def Dev.placeOk (d : Dev) (p : Place) : Bool :=
  (d.twin.a.st.running && d.nv.readableA p.addr p.len && p.ok (memBytes d.nv.a p.addr p.len)) ||
    (d.twin.b.st.running && d.nv.readableB p.addr p.len && p.ok (memBytes d.nv.b p.addr p.len))

/-- A place in which nothing has been written. -/
def Dev.placeBlank (d : Dev) (p : Place) : Bool :=
  (!d.twin.a.st.running || d.nv.readableA p.addr p.len && (memBytes d.nv.a p.addr p.len).all (· == 0)) &&
    (!d.twin.b.st.running || d.nv.readableB p.addr p.len && (memBytes d.nv.b p.addr p.len).all (· == 0))

/-- JRN_ERR where a record fails in every copy (R323). -/
def Dev.placeErrors (d : Dev) : Dev :=
  if workPlaces.any fun p => !d.placeOk p && !d.placeBlank p then d.occur 0xA1 2 else d

/-- The oldest held completions whose entries fail in every copy are skipped (R323); `n` bounds them. One further on is skipped
when the oldest reaches it, and reads as zeros (R374). -/
def Dev.skipLost (d : Dev) : Nat → Dev
  | 0 => d
  | n + 1 =>
    if d.jrn.held ≠ 0 ∧ !d.placeOk (compPlace d.jrn.compRd) then
      Dev.skipLost (d.updJrn fun j => { j with compRd := (j.compRd + 1) % 128, held := j.held - 1 }) n
    else d

/-! ### Wear rings at boot (R318, R379) -/

/-- The default of a ring: the boot count starts at 0; no other default is stated (log entry 4). -/
def ringDefault (n : Nat) : List Byte :=
  if n = 0 then leBytes 4 0 else leBytes 8 (Config.freeWord 5 n)

/-- The boot count increments once in every boot, before the replay (R318). -/
def Dev.countBoot (d : Dev) : Dev :=
  let n := (d.jrn.boot + 1) % 2 ^ 32
  (d.updJrn fun j => { j with boot := n }).ringPut 0 (leBytes 4 n)

/-- The battery record that 16 bytes spell (log entry 15). -/
def recOf (ring : Nat) (l : List Byte) : BbuRec :=
  let f := (l.getD 14 0).toNat
  ⟨ring, leNat (l.take 8) + 2 ^ 64 * (l.getD 15 0).toNat, leNat ((l.drop 8).take 4), leNat ((l.drop 12).take 2), bitAt f 0,
    bitAt f 1⟩

/-- A battery record as its ring holds it at boot: none where the ring holds no value of two parts. -/
def putRec (l : List BbuRec) (ring : Nat) (v : List Byte) : List BbuRec :=
  if v.length = 16 then
    if l.any fun x => x.ring == ring then l.map fun x => if x.ring = ring then recOf ring v else x else l ++ [recOf ring v]
  else l.filter fun x => x.ring != ring

/-- The value that ring `n` holds at boot is taken up: the boot count, the role history or a battery record (R318, R379, R380). -/
def Dev.ringTaken (d : Dev) (n : Nat) (v : List Byte) (roles : List (Nat × Nat × Nat)) : Dev :=
  if n = 0 then d.updJrn fun j => { j with boot := leNat (v.take 4) }
  else if n = 1 then { d with nv := { d.nv with roles := roles } }
  else if n < 18 then d.updBbu ((n - 2) / 4) fun b => { b with records := putRec b.records ((n - 2) % 4) v }
  else d

/-- Ring `n` at boot (R379): the latest valid slot and the value in force are found. Where some slot is valid and no value is in
force the item's default applies and TORN_RING is set; a ring with no valid slot is written with its default as generation 1 in
slot 0. -/
def Dev.bootRing (d : Dev) (n : Nat) : Dev :=
  let l := d.ringSlots n
  let note (d : Dev) (gen slot forceGen force : Nat) : Dev :=
    { d with nv := { d.nv with gen := updAt d.nv.gen n fun _ => gen, slot := updAt d.nv.slot n fun _ => slot,
                               forceGen := updAt d.nv.forceGen n fun _ => forceGen, force := updAt d.nv.force n fun _ => force } }
  match latestSlot l fun _ _ => true with
  | none => ((note d 0 63 0 0).ringTaken n [] []).ringPut n (ringDefault n)
  | some x =>
    match latestSlot l (slotForce l) with
    | some f => (note d (slotGen x.2) x.1 (slotGen f.2) f.1).ringTaken n (slotValue l f.1 f.2) (ringRoles l)
    | none => (((note d (slotGen x.2) x.1 0 0).ringTaken n [] [])).occur 0xB0 5

/-- The wear rings at boot. A value that was still waiting to be written at the reset is lost. -/
def Dev.bootRings (d : Dev) : Dev := foldN 128 Dev.bootRing d

/-! ### The final record at boot (R291, R388) -/

/-- The valid headers of the peat log in one copy of MRAM (R383). -/
def peatHeads (m : NvCopy) : List Nat :=
  (upto 4096).filterMap fun i =>
    let a := peatAddr i
    let sq := leNat (memBytes m.mem a 4)
    if sq % 4096 = i ∧ !(pagesOf a 512).any m.bad.contains ∧ peatOk (memBytes m.mem a 512) sq then some sq else none

/-- The scan of the 4,096 headers (R383): the next SEQ is one above the latest valid one, or 1; the log retains what reaches back to
the oldest valid one. -/
def Dev.peatScan (d : Dev) : Dev :=
  let l := (if d.twin.a.st.running then peatHeads (d.nvCopy .a) else []) ++ if d.twin.b.st.running then peatHeads (d.nvCopy .b) else []
  match l with
  | [] => d.updPeat fun p => { p with next := 1, count := 0 }
  | x :: rest =>
    let top := rest.foldl (fun a s => if laterGen s a then s else a) x
    let far := l.foldl (fun n s => let k := (top + 2 ^ 32 - s) % 2 ^ 32; if k < 4096 then max n k else n) 0
    d.updPeat fun p => { p with next := (top + 1) % 2 ^ 32, count := far + 1 }

/-- The first final record among records of the log, read one after another (R382). -/
def Dev.finalScan (d : Dev) : List Nat → Dev × Option (List Byte)
  | [] => (d, none)
  | sq :: rest =>
    let r := d.peatResolve sq
    match r.2 with
    | some l => if bitAt (l.getD 15 0).toNat 1 then (r.1, some l) else r.1.finalScan rest
    | none => r.1.finalScan rest

/-- The latest final record above the first record of the last boot (R388). -/
def Dev.finalFound (d : Dev) : Dev × Option (List Byte) :=
  let p := d.peat
  let n := (p.next + 2 ^ 32 - p.bootFirst) % 2 ^ 32
  d.finalScan ((upto (min (min 4096 p.count) (n - 1))).map fun i => (p.next + 2 ^ 32 - 1 - i) % 2 ^ 32)

/-- A pending capacity of the record is merged into the stored record of the same identity where its cycle number exceeds the
stored one; the cycle it belongs to is complete (R281, R291). -/
def Dev.mergeCap (l : List Byte) (d : Dev) (m : Nat) : Dev :=
  let f := (l.drop (96 + 8 * m)).take 8
  let cyc := leNat ((f.drop 4).take 2)
  match (d.bbu m).records.find? fun r => identCheck m r.ident == leNat (f.drop 6) with
  | none => d
  | some r =>
    if bitAt (l.getD (76 + m) 0).toNat 3 ∧ r.cycles < cyc then
      let r' : BbuRec := { r with c := leNat (f.take 4) * 256, cycles := cyc, relearn := false, learning := false }
      let d := d.updBbu m fun b => { b with records := b.records.map fun x => if x.ring = r.ring then r' else x }
      (d.ringPut (2 + 4 * m + r.ring) (recBytes r')).occur (bbuPg m) 10
    else d

/-- FINAL_FOUND and the capacities it carries; the present boot's first record is the next one. -/
def Dev.mergeFinal (d : Dev) : Dev :=
  let r := d.finalFound
  let d := match r.2 with
    | none => r.1
    | some l => foldN 4 (Dev.mergeCap l) (r.1.occur 0xB1 2)
  d.updPeat fun p => { p with bootFirst := p.next }

/-! ### RESET_RELEASE -/

/-- The conditions of R348: VAUX above the return level, which VAUX_RETURN reports, and VCORE_S; no row of the table raises MR_n, so
RESET_RELEASE itself says that it is high (log entry 116). A reset that TESTEN keeps asserted is not released (R545). -/
def Dev.mayRelease (d : Dev) : Bool := d.sup.inReset && !d.sup.vauxMin && !d.sup.vauxWarn && d.sup.vcoreS && !d.sup.testen

/-- A reset while an activation is unconfirmed boots the previous run slot (R511). -/
def UpdSt.unsettled (u : UpdSt) : Bool := u.st == .unconfirmed || u.st == .rollingBack

/-- The update state after a reset: an open session ends (R502), and an unconfirmed activation goes back (R511). -/
def UpdSt.afterReset (u : UpdSt) : UpdSt :=
  let back := u.unsettled
  { UpdSt.reset u.fw with
    runSlot := if back then u.newSlot else u.runSlot, setBank := if back then 1 - u.setBank else u.setBank,
    sets0 := u.sets0, sets1 := u.sets1, fw := if back then u.oldFw else u.fw, oldFw := if back then u.oldFw else u.fw,
    fwBoot := u.fwBoot, newInvalid := u.newInvalid || u.session != 0 || back }

/-- The image of the run slot in use after a reset. -/
def Dev.runImage (d : Dev) : List Byte :=
  if d.sched.active != (d.upd.unsettled && d.upd.hasImage) then d.sched.img1 else d.sched.img0

/-- A feed after a reset: a held gate stays on while VGD is present, and the reverse-current trip stays (R259). -/
def Feed.afterReset (f : Feed) (vgd : Bool) : Feed :=
  let h := f.drive && vgd
  { Feed.reset with drive := h, applied := h, held := h, revLatch := f.revLatch }

/-- What a reset keeps: MRAM, crust, accepted work, the supplies, held gates; everything else is as at reset. The
package-level safe state lasts until a twin has passed its self-test (R296). -/
def Dev.kept (d : Dev) (strap0 strap1 : Nat) : Dev :=
  let p := d.sup
  let j := d.jrn
  let src (x : Source) : Source := { x with last := x.last - d.now }
  { Dev.reset with
    sup := SupplySt.switched { SupplySt.reset with
      vcoreA := p.vcoreA, vcoreB := p.vcoreB, vcoreS := p.vcoreS, vanaG0 := p.vanaG0, vanaG1 := p.vanaG1, vgdOk := p.vgdOk },
    die := { DieS.reset with strap0 := strap0, strap1 := strap1, safe := true, fltLow := true },
    jrn := { JrnSt.reset with boot := j.boot, next := j.next, sources := j.sources.map fun x => x.map src, queue := j.queue,
                              compWr := j.compWr, compRd := j.compRd, held := j.held, gseq := j.gseq },
    nv := { d.nv with busyA := none, busyB := none, corrected := 0, repaired := 0, ties := 0, tiePage := 0 },
    peat := { PeatSt.reset with next := d.peat.next, bootFirst := d.peat.bootFirst },
    crust := { d.crust with votes := 0 },
    feedA := d.feedA.afterReset p.vgdOk, feedB := d.feedB.afterReset p.vgdOk,
    bbus := d.bbus.map fun b => { Bbu.reset with records := b.records },
    fh := { Fiddle.reset with rstCause := d.fh.rstCause, rstRecord := d.fh.rstRecord, safePin := d.fh.safePin },
    upd := d.upd.afterReset }

/-- The settings of the bank in use (R331, R381) and the member table they hold (R329). -/
def Dev.bootSettings (d : Dev) : Dev :=
  let d := d.updUpd fun u => { u with sets0 := d.setsAt 0, sets1 := d.setsAt 1 }
  (d.upd.sets.foldl (fun d e => d.setReg 0xA4 (e.1 % 0x1000) e.2) d).applyTable

/-- FW_CHANGED (R522). -/
def Dev.bootFw (d : Dev) : Dev :=
  if d.upd.fw = d.upd.fwBoot then d else (d.occur 0 1).updUpd fun u => { u with fwBoot := u.fw }

/-- The regions whose VANA is not in range at reset release (R540), and VGD_LOW where VGD is not (R260). -/
def Dev.bootRegions (d : Dev) : Dev :=
  let d := if d.sup.vgdOk then d else d.occur 0x98 14
  let d : Dev := if d.sup.vanaG0 then d else { d.vanaLoss .g0 with time := { d.time with lost0 := true, inG0 := 0 } }
  if d.sup.vanaG1 then d else { d.vanaLoss .g1 with time := { d.time with lost1 := true, inG1 := 0 } }

/-- The block at reset release (R348, R350, R390, R405). A crust change that the reset tore shows as torn (R395). Of the running image the bank and the segments without COEFF are
written; its COEFF segments are not applied, which the spec leaves open (R66, log entry 39). -/
def Dev.afterReset (old : Dev) (strap0 strap1 votes : Nat) : Dev :=
  let job := old.crust.job
  let old := old.crustTear
  let d := (((old.kept strap0 strap1).crustRead).crustFrond).crustVote votes
  let d := match job with
    | some j => (d.occur 0xB2 2).crustSpent j.item
    | none => d
  let d := d.bootSettings.bootFw.bootRegions
  let d := foldN 2 (fun d n => d.updTwT n fun _ => TwTarget.reset (d.twBase n)) d
  let d := if old.runImage.isEmpty then d else d.loadInto false old.runImage none
  if old.upd.unsettled then d.occurC updPg 3 6 else d

/-- RESET_RELEASE (R348): the straps and the crust are read and the boot begins; held snapshots end (R521). -/
def execResetRelease (strap0 strap1 : Fin 8) (votes : Nat) (s : State) : Out :=
  .next (if s.d.mayRelease then
      let d := s.d.afterReset strap0.val strap1.val votes
      { s with d := d, snap := d.atReset, held0 := none, held1 := none }
    else s)

/-! ### BOOT_SELF_TEST_DONE and TWIN_BOOT_TIMEOUT -/

/-- Twin `t` passes: its own report, its core supply (R539), and it is not out already. -/
def Dev.twinPasses (d : Dev) (t : Twin) (pass : Bool) : Bool :=
  pass && (match t with | .a => d.sup.vcoreA | .b => d.sup.vcoreB) && (d.twinOf t).st.running

/-- Twin `t` does not take part: it stays in OUT until a TWIN_RESTART or a reset (R296, R539). -/
def Dev.twinFails (d : Dev) (t : Twin) : Dev :=
  if (d.twinOf t).st = .out then d
  else (((d.keepSram t).updTwin t fun x => { x with st := .out, retired := true, prob := 0 }).occur 0xA5 3).occur 0xA0 10

/-- Roles (R296). -/
def Dev.bootRoles (d : Dev) (pa pb : Bool) : Dev :=
  let d := if pa then d.updTwin .a fun x => { x with st := .active } else d.twinFails .a
  if pb then d.updTwin .b fun x => { x with st := if pa then .standby else .active } else d.twinFails .b

/-- Class C of R321, as R420 gives it. -/
def classC (code : Nat) : Bool := [5, 7, 0x22, 0x23, 0x25].contains code

/-- An item in the replay (R321, R323): one whose record is lost ends FAILED_RESET; one of class C that took effect ends as it
had; every other is executed again. -/
def Dev.replayItem (d : Dev) (w : WorkItem) : WorkItem :=
  { w with
    replay := true, started := false,
    result :=
      if !d.placeOk (journalPlace (w.jseq % 2048)) then some (4, 0)
      else if w.code = 0 then some (stDone, 0)
      else if w.exec && classC w.code then w.result.filter fun r => r.1 == stDone
      else none }

/-- The items that wait become replay items; the replay is complete when none is left. -/
def Dev.startReplay (d : Dev) : Dev :=
  d.updJrn fun j => { j with queue := j.queue.map d.replayItem, replayDone := j.queue.isEmpty }

/-- The current slot of load `l` (R317). -/
def Dev.grantSlot (d : Dev) (l : Nat) : Option (List Byte) :=
  let p0 := grantPlace (2 * l)
  let p1 := grantPlace (2 * l + 1)
  let b0 := d.nvGet p0.addr 16
  let b1 := d.nvGet p1.addr 16
  if p0.ok b0 && p1.ok b1 then some (if laterGen (p1.keyOf b1) (p0.keyOf b0) then b1 else b0)
  else if p0.ok b0 then some b0
  else if p1.ok b1 then some b1
  else none

/-- A load's sequence fields are restored and marked as from an earlier boot (R322). -/
def Dev.restoreGrant (d : Dev) (l : Nat) : Dev :=
  match d.grantSlot l with
  | none => d.updJrn fun j => { j with gseq := updAt j.gseq l fun _ => 0 }
  | some b =>
    let rm := leNat ((b.drop 6).take 2)
    (d.updJrn fun j => { j with gseq := updAt j.gseq l fun _ => (grantPlace 0).keyOf b }).updLoad l fun e =>
      { e with lastSeq := (b.getD 4 0).toNat, seqValid := true, lastDec := (b.getD 5 0).toNat % 8, lastRamp := rm / 4096,
               lastMag := rm % 4096, earlier := true }

/-- The boot after the self-tests of at least one twin: reconciliation, the rings, the peat log and its final record, the boot count,
the replay. The island PLLs of a twin that passes have locked by then: the spec names no instant (log entry 113). -/
def Dev.bootWork (d : Dev) (pa pb : Bool) : Dev :=
  let d := if pa && pb then d.reconcile else d
  let d := ((d.placeErrors.skipLost 128).bootRings.peatScan.mergeFinal.countBoot).startReplay
  let d := foldN 256 Dev.restoreGrant d
  { d with time := { d.time with lockA := if pa then 0x7FF else d.time.lockA, lockB := if pb then 0x7FF else d.time.lockB },
           die := { d.die with safe := false, noneRun := 0, fltLow := false } }

/-- BOOT_SELF_TEST_DONE (R296): roles, and the boot of R318 to R323; with no twin the safe state stays. -/
def execBootSelfTestDone (passA passB : Bool) (s : State) : Out :=
  done (fun d =>
    if d.fh.booted || d.sup.inReset then d
    else
      let pa := d.twinPasses .a passA
      let pb := d.twinPasses .b passB
      let d := (d.bootRoles pa pb).updFh fun h => { h with booted := true, passA := pa, passB := pb }
      if pa || pb then d.bootWork pa pb
      else { d with die := { d.die with safe := true, fltLow := true } }.outputsOff) s

/-- TWIN_BOOT_TIMEOUT (R539): the twin fails its boot self-test. -/
def execTwinBootTimeout (t : Twin) (s : State) : Out :=
  done (fun d => if d.fh.booted || d.sup.inReset then d else d.twinFails t) s

end Sys2Proof.Machine
end

