-- ==== Sys2Proof/Machine/Pmbus.lean ====
section
/-! DEFINITION. The PMBus address of the target ports, and the framing of whole blocks (R410 to R415). Reads come from the
reply table that each frond boundary refreshes: the status snapshot. -/

namespace Sys2Proof.Machine

/-! ### Refusals and answers (R411, R414) -/

/-- PMBUS_REFUSED: the device does not acknowledge (R414). -/
def Dev.pmRefuse (d : Dev) (n : Nat) : Dev := (d.twNack n 2).twStop n

/-- The bytes of a PMBus read: with PEC_REQ = 1 the PEC over both address bytes, the command code and the data follows (R410). -/
def Dev.pmBytes (d : Dev) (n code : Nat) (l : List Byte) : List Byte :=
  let a := 2 * (d.twt n).base
  if d.flag (twtPg n) 0x40 2 then
    l ++ [BitVec.ofNat 8 (crc8 ([BitVec.ofNat 8 a, BitVec.ofNat 8 code, BitVec.ofNat 8 (a + 1)] ++ l))]
  else l

/-- A PMBus read of command `code` on port `n`: `f` gives the data bytes from the reply table and the rail of PAGE; with PAGE = 0xFF it
is refused (R411, R414). -/
def State.pmRead (s : State) (n code : Nat) (f : Dev → Nat → List Byte) : State :=
  let pg := (s.d.twt n).page
  (s.recvBlock n).upd fun d =>
    if d.twDead then d.drive n none
    else if pg = 0xFF then d.pmRefuse n
    else (d.drive n (some (d.pmBytes n code (f s.snap pg)))).twStop n

/-- A PMBus write on port `n`: refused, or `f` and an acknowledge. -/
def Dev.pmWrite (d : Dev) (n : Nat) (ok : Bool) (f : Dev → Dev) : Dev :=
  if d.twDead then d.drive n none
  else if !ok then d.pmRefuse n
  else ((f d).drive n (some [])).twStop n

/-- A byte, a word, and a block of a read. -/
def byteOf (v : Nat) : List Byte := [BitVec.ofNat 8 v]
def wordOf (v : Nat) : List Byte := leBytes 2 v
def blockOf (l : List Byte) : List Byte := BitVec.ofNat 8 l.length :: l

/-! ### Encodings and sources (R411, R412) -/

/-- A voltage of signal format in LINEAR16 with exponent −12. -/
def linear16 (site : Nat) (x : Int) : Nat := unsigned 16 (Config.rdiv site x 16)

/-- A quantity of signal format in LINEAR11. -/
def sigLinear (site : Nat) (x : Int) : Nat := linear11 site x 65536

/-- OPERATION: 0x80 while the rail is in REGULATE or SOFT_START. -/
def Dev.pmOperation (d : Dev) (r : Nat) : Nat := if (d.rail r).st = .regulate ∨ (d.rail r).st = .softStart then 0x80 else 0

/-- READ_IIN: the current of the carrying feed; 0 with no feed. -/
def Dev.pmIin (d : Dev) : Int :=
  match d.carry with
  | some .a => (d.pre 6).avg
  | some .b => (d.pre 8).avg
  | none => 0

/-- READ_TEMPERATURE_1: the hottest stage of the rail's members; a rail without one has no stated reading (log entry 4). -/
def Dev.pmTemp (d : Dev) (r : Nat) : Nat :=
  match (upto 64).filterMap fun n => if d.isMember r n then (d.unit n).temp else none with
  | [] => Config.freeWord 4 r % 65536
  | t :: ts => sigLinear 72 (ts.foldl max t)

/-! ### Status (R413) -/

/-- A status bit of a rail page. -/
def Dev.railBit (d : Dev) (r i : Nat) : Bool := d.stBit (railPg r) i
def Dev.railOv (d : Dev) (r : Nat) : Bool := d.railBit r 2
def Dev.railUv (d : Dev) (r : Nat) : Bool := d.railBit r 3
def Dev.railOc (d : Dev) (r : Nat) : Bool := d.railBit r 0 || d.railBit r 1
def Dev.feedUvBit (d : Dev) : Bool := d.stBit 0x98 6 || d.stBit 0x98 7
def Dev.feedOvBit (d : Dev) : Bool := d.stBit 0x98 4 || d.stBit 0x98 5
def Dev.stageShutBit (d : Dev) : Bool := d.stBit 0xA8 9
def Dev.stageWarnBit (d : Dev) : Bool := d.stBit 0xA8 6

/-- STATUS_CML of port `n`: BAD_CMD, PMBUS_REFUSED, PEC_ERR, and TIMEOUT or SDA_RELEASED. -/
def Dev.pmCml (d : Dev) (n : Nat) : Nat :=
  let p := twtPg n
  b2n (d.stBit p 1) * 128 + b2n (d.stBit p 2) * 64 + b2n (d.stBit p 0) * 32 + b2n (d.stBit p 3 || d.stBit p 4) * 2

/-- STATUS_VOUT, STATUS_IOUT, STATUS_INPUT and STATUS_TEMPERATURE. -/
def Dev.pmVout (d : Dev) (r : Nat) : Nat := b2n (d.railOv r) * 128 + b2n (d.railUv r) * 16
def Dev.pmIout (d : Dev) (r : Nat) : Nat := b2n (d.railOc r) * 128
def Dev.pmInput (d : Dev) : Nat := b2n d.feedOvBit * 128 + b2n d.feedUvBit * 16
def Dev.pmTemperature (d : Dev) : Nat := b2n d.stageShutBit * 128 + b2n d.stageWarnBit * 64

/-- STATUS_BYTE of a rail on port `n`. -/
def Dev.pmStatusByte (d : Dev) (n r : Nat) : Nat :=
  b2n (decide ((d.rail r).st ≠ .regulate)) * 64 + b2n (d.railOv r) * 32 + b2n (d.railOc r) * 16 + b2n d.feedUvBit * 8 +
    b2n (d.stageShutBit || d.stageWarnBit) * 4 + b2n (d.pmCml n != 0) * 2 +
    b2n (clrBits (d.status (railPg r)) 0xF != 0)

/-- STATUS_WORD: the byte below, and VOUT, IOUT, INPUT and POWER_GOOD#. -/
def Dev.pmStatusWord (d : Dev) (n r : Nat) : Nat :=
  b2n (d.railOv r || d.railUv r) * 2 ^ 15 + b2n (d.railOc r) * 2 ^ 14 + b2n (d.feedUvBit || d.feedOvBit) * 2 ^ 13 +
    b2n (!(d.mbr r).qual) * 2 ^ 11 + d.pmStatusByte n r

/-- MFR_FAULT_PAGES: bit p of byte p/8 while page p has BLK_STATUS other than 0. -/
def Dev.pmFaultPages (d : Dev) : List Byte := (upto 8).flatMap fun i => leBytes 4 (d.faultSum i)

/-! ### Writes -/

/-- PAGE. -/
def Dev.pagePut (d : Dev) (n v : Nat) : Dev :=
  d.pmWrite n (decide (v ≤ 3) || v == 0xFF) fun d => (d.blockCells n 0 (leBytes 1 v)).updTwT n fun t => { t with page := v }

/-- WRITE_PROTECT: 0x80 or 0x00. -/
def Dev.wpPut (d : Dev) (n v : Nat) : Dev :=
  d.pmWrite n (v == 0x80 || v == 0) fun d => (d.blockCells n 0x10 (leBytes 1 v)).setFld (twtPg n) 0x40 15 8 v

/-- The rails that a write under PAGE names. -/
def pageRails (pg : Nat) : List Nat := if pg = 0xFF then [0, 1, 2, 3] else [pg]

/-- VOUT_COMMAND (R412): with WRITE_PROTECT = 0x00 and SP_SRC = 0b00 the shadow of RAIL_VSET is written and the rail page is
committed; during a management pause the write waits (R507). -/
def Dev.voutPut (d : Dev) (n v : Nat) : Dev :=
  let rs := pageRails (d.twt n).page
  d.pmWrite n (d.fld (twtPg n) 0x40 15 8 == 0 && rs.all fun r => d.fld (railPg r) 0x40 1 0 == 0) fun d =>
    let d := d.blockCells n 0x21 (leBytes 2 v)
    rs.foldl (fun d r =>
      if d.upd.pause then d.updUpd fun u => { u with held := u.held ++ [.vout r (v * 16)] }
      else
        ({ d with regs := { d.regs with shadow := alSet d.regs.shadow (regAddr (railPg r) 0x44) (v * 16) } }).commitPage (railPg r)) d

/-! ### The commands (R411) -/

/-- PAGE (R411). -/
def execPmPage (n : Fin 2) (w : Option Byte) (s : State) : Out :=
  .next (match w with
    | some v => s.upd fun d => (d.recvBlock n.val).pagePut n.val v.toNat
    | none => s.pmRead n.val 0x00 fun _ r => byteOf r)

/-- OPERATION (R411): writes are refused. -/
def execPmOperation (n : Fin 2) (w : Option Byte) (s : State) : Out :=
  .next (match w with
    | some _ => s.upd fun d => (d.recvBlock n.val).pmWrite n.val false id
    | none => s.pmRead n.val 0x01 fun d r => byteOf (d.pmOperation r))

/-- CLEAR_FAULTS (R414): its command code is not acknowledged. -/
def execPmClearFaults (n : Fin 2) (s : State) : Out := done (fun d => (d.recvBlock n.val).pmWrite n.val false id) s

/-- WRITE_PROTECT (R411). -/
def execPmWriteProtect (n : Fin 2) (w : Option Byte) (s : State) : Out :=
  .next (match w with
    | some v => s.upd fun d => (d.recvBlock n.val).wpPut n.val v.toNat
    | none => s.pmRead n.val 0x10 fun d _ => byteOf (d.fld (twtPg n.val) 0x40 15 8))

/-- CAPABILITY (R411). -/
def execPmCapability (n : Fin 2) (s : State) : Out := .next (s.pmRead n.val 0x19 fun _ _ => byteOf 0xD0)

/-- VOUT_MODE (R411). -/
def execPmVoutMode (n : Fin 2) (s : State) : Out := .next (s.pmRead n.val 0x20 fun _ _ => byteOf 0x14)

/-- VOUT_COMMAND (R411, R412). -/
def execPmVoutCommand (n : Fin 2) (w : Option (BitVec 16)) (s : State) : Out :=
  .next (match w with
    | some v => s.upd fun d => (d.recvBlock n.val).voutPut n.val v.toNat
    | none => s.pmRead n.val 0x21 fun d r => wordOf (linear16 73 (signed 32 (d.cfgRead (railPg r) 0x44))))

/-- STATUS_BYTE (R413). -/
def execPmStatusByte (n : Fin 2) (s : State) : Out := .next (s.pmRead n.val 0x78 fun d r => byteOf (d.pmStatusByte n.val r))

/-- STATUS_WORD (R413). -/
def execPmStatusWord (n : Fin 2) (s : State) : Out := .next (s.pmRead n.val 0x79 fun d r => wordOf (d.pmStatusWord n.val r))

/-- STATUS_VOUT (R413). -/
def execPmStatusVout (n : Fin 2) (s : State) : Out := .next (s.pmRead n.val 0x7A fun d r => byteOf (d.pmVout r))

/-- STATUS_IOUT (R413). -/
def execPmStatusIout (n : Fin 2) (s : State) : Out := .next (s.pmRead n.val 0x7B fun d r => byteOf (d.pmIout r))

/-- STATUS_INPUT (R413). -/
def execPmStatusInput (n : Fin 2) (s : State) : Out := .next (s.pmRead n.val 0x7C fun d _ => byteOf d.pmInput)

/-- STATUS_TEMPERATURE (R413). -/
def execPmStatusTemperature (n : Fin 2) (s : State) : Out := .next (s.pmRead n.val 0x7D fun d _ => byteOf d.pmTemperature)

/-- STATUS_CML (R413). -/
def execPmStatusCml (n : Fin 2) (s : State) : Out := .next (s.pmRead n.val 0x7E fun d _ => byteOf (d.pmCml n.val))

/-- READ_VIN (R411): BUS_V. -/
def execPmReadVin (n : Fin 2) (s : State) : Out := .next (s.pmRead n.val 0x88 fun d _ => wordOf (sigLinear 74 (d.pre 4).avg))

/-- READ_IIN (R411). -/
def execPmReadIin (n : Fin 2) (s : State) : Out := .next (s.pmRead n.val 0x89 fun d _ => wordOf (sigLinear 75 d.pmIin))

/-- READ_VOUT (R411): RAIL_VOUT in LINEAR16. -/
def execPmReadVout (n : Fin 2) (s : State) : Out := .next (s.pmRead n.val 0x8B fun d r => wordOf (linear16 76 (d.rail r).vAvg))

/-- READ_IOUT (R411). -/
def execPmReadIout (n : Fin 2) (s : State) : Out := .next (s.pmRead n.val 0x8C fun d r => wordOf (sigLinear 77 (d.rail r).iAvg))

/-- READ_TEMPERATURE_1 (R411). -/
def execPmReadTemperature1 (n : Fin 2) (s : State) : Out := .next (s.pmRead n.val 0x8D fun d r => wordOf (d.pmTemp r))

/-- READ_POUT (R411): RAIL_VOUT × RAIL_IOUT in W. -/
def execPmReadPout (n : Fin 2) (s : State) : Out :=
  .next (s.pmRead n.val 0x96 fun d r => wordOf (linear11 78 ((d.rail r).vAvg * (d.rail r).iAvg) (2 ^ 32)))

/-- PMBUS_REVISION (R411). -/
def execPmRevision (n : Fin 2) (s : State) : Out := .next (s.pmRead n.val 0x98 fun _ _ => byteOf 0x33)

/-- MFR_ID (R411). -/
def execPmMfrId (n : Fin 2) (s : State) : Out := .next (s.pmRead n.val 0x99 fun _ _ => blockOf (strBytes "RINTIDEX"))

/-- MFR_MODEL (R411). -/
def execPmMfrModel (n : Fin 2) (s : State) : Out := .next (s.pmRead n.val 0x9A fun _ _ => blockOf (strBytes "SBZ4064"))

/-- MFR_REVISION (R411). -/
def execPmMfrRevision (n : Fin 2) (s : State) : Out := .next (s.pmRead n.val 0x9B fun _ _ => blockOf (strBytes "B1"))

/-- MFR_SHELF (R411): FH_STATE[15:0]. -/
def execPmMfrShelf (n : Fin 2) (s : State) : Out := .next (s.pmRead n.val 0xD0 fun d _ => wordOf (d.roBlock 0xA4 0x80 % 65536))

/-- MFR_BUDGET (R411): P_SH, then ROW, each LINEAR11 in kW. -/
def execPmMfrBudget (n : Fin 2) (s : State) : Out :=
  .next (s.pmRead n.val 0xD1 fun d _ => blockOf (wordOf (sigLinear 79 d.pSh) ++ wordOf (sigLinear 80 d.led.row)))

/-- MFR_FAULT_PAGES (R411). -/
def execPmMfrFaultPages (n : Fin 2) (s : State) : Out := .next (s.pmRead n.val 0xD2 fun d _ => blockOf d.pmFaultPages)

/-! ### Whole blocks (R410, R415) -/

/-- The command codes of the PMBus address that are supported, but for CLEAR_FAULTS. -/
def pmCode (c : Nat) : Bool :=
  [0x00, 0x01, 0x10, 0x19, 0x20, 0x21, 0x78, 0x79, 0x7A, 0x7B, 0x7C, 0x7D, 0x7E, 0x88, 0x89, 0x8B, 0x8C, 0x8D, 0x96, 0x98, 0x99,
    0x9A, 0x9B, 0xD0, 0xD1, 0xD2].contains c

/-- A write block on the PMBus address; a command code alone is the first part of a read, which its own command carries. -/
def Dev.pmBlock (d : Dev) (n code : Nat) (data : List Byte) : Dev :=
  if code = 3 then d.pmRefuse n
  else if !pmCode code then (d.twNack n 1).twStop n
  else match data with
  | [] => d.twStop n
  | [b] => if code = 0 then d.pagePut n b.toNat else if code = 0x10 then d.wpPut n b.toNat else d.pmRefuse n
  | [lo, hi] => if code = 0x21 then d.voutPut n (lo.toNat + 256 * hi.toNat) else d.pmRefuse n
  | _ => d.pmRefuse n

/-- The words of a list of bytes, little-endian, 4 bytes each. -/
def wordsOf : List Byte → List Word32
  | a :: b :: c :: e :: l => BitVec.ofNat 32 (leNat [a, b, c, e]) :: wordsOf l
  | _ => []

/-- A write block on base + 1: the command code, the byte count and the payload (R415, R417). -/
def State.windowBlock (s : State) (n : Nat) (code : Nat) (data : List Byte) : State :=
  let pay := data.drop 1
  let fits := !data.isEmpty && (data.getD 0 0).toNat == pay.length
  let pg := leNat (pay.take 2)
  let off := leNat ((pay.drop 2).take 2)
  let bad (s : State) : State := s.upd fun d => ((d.keepReply n 7 []).drive n (some [])).twStop n
  if code = 1 then
    let ws := wordsOf (pay.drop 4)
    if fits && pay.length == 4 + 4 * ws.length && decide (1 ≤ ws.length) && decide (ws.length ≤ 62) then
      s.windowCmd n (.regWrite n pg off ws) fun s => s.windowWrite n pg off ws
    else bad s
  else if code = 2 then
    let k := (pay.getD 4 0).toNat
    if fits && pay.length == 5 then s.windowCmd n (.regRead n pg off k) fun s => s.windowRead n pg off k else bad s
  else if code = 0x10 then
    let tag := (pay.getD 0 0).toNat
    let sq := leNat ((pay.drop 1).take 2)
    let c := (pay.getD 3 0).toNat
    let as := pay.drop 4
    if fits && decide (4 ≤ pay.length) && decide (pay.length ≤ 44) then
      s.windowCmd n (.seq n tag sq c as) fun s => s.upd fun d => d.windowSeq n tag sq c as
    else bad s
  else s.upd fun d => (d.twNack n 1).twStop n

/-- The PEC of a write block: over the address byte and the bytes that follow (R410). -/
def Dev.blockPec (d : Dev) (n : Nat) (window : Bool) (bytes : List Byte) : Nat :=
  crc8 (BitVec.ofNat 8 (2 * ((d.twt n).base + b2n window)) :: bytes)

/-- A block whose PEC is missing or wrong is discarded (R410, R417). -/
def Dev.pecFail (d : Dev) (n : Nat) (window : Bool) : Dev :=
  let d := if window then d.keepReply n 9 [] else d.twError n
  ((d.occur (twtPg n) 0).drive n none).twStop n

/-- TW_BLOCK (R410): a complete block to one of the port's addresses, from the command code on, and its PEC; `window` is base
+ 1. Its PEC is checked, and the block is carried out. -/
def execTwBlock (n : Fin 2) (window : Bool) (bytes : List Byte) (pec : Option Byte) (s : State) : Out :=
  .next (
    if s.d.twDead then s.upd fun d => d.drive n.val none
    else
      let s := s.recvBlock n.val
      let bad := match pec with
        | some p => p.toNat != s.d.blockPec n.val window bytes
        | none => window || s.d.flag (twtPg n.val) 0x40 2
      if bad then s.upd fun d => d.pecFail n.val window
      else match bytes with
      | [] => s.upd fun d => d.twStop n.val
      | code :: data =>
        if window then s.windowBlock n.val code.toNat data else s.upd fun d => d.pmBlock n.val code.toNat data)

end Sys2Proof.Machine
end

