-- ==== Sys2Proof/Machine/Frames.lean ====
section
/-! DEFINITION. The tick frames: message cells (R19, R20), the sense frame that die S sends (R16), and the actuation frame
that each twin composes from what it has computed (R18). -/

namespace Sys2Proof.Machine

/-! ### Message cells -/

/-- The 32 bytes of a message cell (R19). -/
def cellBytes (chan : Nat) (l : List Byte) (first last : Bool) : List Byte :=
  [BitVec.ofNat 8 chan, BitVec.ofNat 8 l.length, BitVec.ofNat 8 (b2n first + 2 * b2n last)] ++ l ++
    List.replicate (29 - l.length) 0

/-- Up to `n` cells taken from the waiting blocks in order, one block after the other (R20), and the blocks left. -/
def takeCells : Nat → List CellBlock → List (List Byte) × List CellBlock
  | 0, q => ([], q)
  | _ + 1, [] => ([], [])
  | n + 1, b :: q =>
    let rest := b.bytes.drop 29
    let more := takeCells n (if rest.isEmpty then q else { b with bytes := rest, begun := true } :: q)
    (cellBytes b.chan (b.bytes.take 29) (!b.begun) rest.isEmpty :: more.1, more.2)

/-- The 40 frame words of five cells, the most significant byte of a word first (log entry 11); a cell not used is all zeros,
CHAN 0x00. -/
def cellWords (l : List (List Byte)) : List Nat :=
  (upto 40).map fun w => beNat ((upto 4).map fun j => (nth l (w / 8) []).getD (4 * (w % 8) + j) 0)

/-- The inbound cells of a new tick: up to five from the blocks waiting (R16, R20). -/
def Dev.takeInbound (d : Dev) : Dev :=
  let x := takeCells 5 d.die.inq
  { d with die := { d.die with cells := x.1, inq := x.2 } }

/-- The cells of the frame of a tick have left the twins, whether or not die S applied it (R13, R20). -/
def Dev.dropOutbound (d : Dev) : Dev := { d with twin := { d.twin with outq := (takeCells 5 d.twin.outq).2 } }

/-- The message cells of an applied frame join the blocks of their channels; empty cells and cells with a reserved CHAN are
discarded (R19, R20). Where the rules state nothing the model's choice is (log entry 73): a LEN above 29 is taken as 29, a cell
without FIRST for which no block of its channel is open is discarded, and a FIRST cell starts a block of its own although one
of its channel is open. -/
def Dev.takeCell (d : Dev) (f : List Word32) (c : Nat) : Dev :=
  let ch := (actCell f c 0).toNat
  let len := Nat.min 29 (actCell f c 1).toNat
  let flags := (actCell f c 2).toNat
  let data := (upto len).map fun j => actCell f c (3 + j)
  let known := ch == 1 || ch == 2 || (decide (0x10 ≤ ch) && decide (ch ≤ 0x15))
  if !known then d
  else
    let last := bitAt flags 1
    if bitAt flags 0 then { d with die := { d.die with out := d.die.out ++ [⟨ch, data, last⟩] } }
    else
      match d.die.out.findIdx? fun b => b.chan == ch && !b.last with
      | none => d
      | some i =>
        { d with die := { d.die with out := updAt d.die.out i fun b => { b with bytes := b.bytes ++ data, last := last } } }

/-- The driver status word as latched in a tick (R244). -/
def Dev.driverWord (d : Dev) (i : TickIn) : Nat :=
  let feed (x : Feed) (c : FeedCond) : Nat := b2n c.vgsOn + 2 * b2n c.vdsOn + 4 * b2n x.revTick + 8 * b2n c.off
  feed d.feedA i.feedA + 16 * feed d.feedB i.feedB + i.hsOn.toNat * 2 ^ 8 + i.hsOff.toNat * 2 ^ 12 +
    b2n d.sup.vgdOk * 2 ^ 16 + b2n d.xfer.interlock * 2 ^ 17

/-! ### The sense frame -/

/-- Two halfwords of a frame word. -/
def packHalf (l : List (BitVec 16)) (w : Nat) : Nat := (nth l (2 * w) 0).toNat + (nth l (2 * w + 1) 0).toNat * 2 ^ 16

/-- Words 0 to 128 of the sense frame of the tick (R16); words 89 to 128 carry the inbound message cells. -/
def Dev.frameBody (d : Dev) (i : TickIn) (x : SenseWords) : List Nat :=
  let st := b2n d.die.validG0 + 2 * b2n d.die.validG1 + 4 * b2n d.sense.ref.settled + 8 * b2n d.sup.vauxWarn +
    16 * b2n d.feedA.fullLatch + 32 * b2n d.feedB.fullLatch +
    (upto 4).foldl (fun v r => v + b2n (d.hsw r).tripTick * 2 ^ (6 + r)) 0 +
    b2n d.fh.safePin * 2 ^ 10 + b2n i.pbLow * 2 ^ 11 + b2n d.time.holdover * 2 ^ 12 + b2n d.die.voteMismatch * 2 ^ 13 +
    b2n d.die.held * 2 ^ 14
  let flim (lo : Nat) : Nat := maskOf lo fun n => (d.unit n).flim
  let tflt (lo : Nat) : Nat := maskOf lo fun n => x.tflt.getLsbD n
  let port (f : StepPort → Bool) : Nat := (upto 16).foldl (fun v n => v + b2n (f (d.port n)) * 2 ^ n) 0
  [0xC5 * 2 ^ 24 + d.time.tseq, st, flim 0, flim 32, tflt 0, tflt 32, i.pgi.toNat + port (fun p => p.slot.isSome) * 2 ^ 16,
    port StepPort.errNow] ++
  (upto 36).map (packHalf x.phase) ++ (upto 9).map (packHalf x.pre) ++ (upto 4).map (packHalf x.temp) ++
  (upto 16).flatMap (fun n =>
    let f := ((d.port n).slot.map BitVec.toNat).getD 0
    [bits f 63 32, bits f 31 0]) ++
  cellWords d.die.cells

/-- The whole sense frame, closed by its CRC-32. -/
def Dev.senseFrame (d : Dev) (i : TickIn) (x : SenseWords) : List Nat :=
  let b := d.frameBody i x
  b ++ [crc32 (b.flatMap fun w => beBytes 4 w)]

/-- The byte address of the sense buffer, bank 0x30. -/
def senseAddr : Nat := 0x30 * 2 ^ 18

/-! ### The actuation frame -/

/-- A 64-bit mask as two frame words, the low one first (R18). -/
def maskWords (p : Nat → Bool) : List Nat := [maskOf 0 p, maskOf 32 p]

/-- Word 38: the gate commands of the feeds and hot-swaps, and EN15 to EN00 from the members' outputs (R18, R327). -/
def Dev.gateWord (d : Dev) : Nat :=
  b2n d.feedA.cmd + 2 * b2n d.feedB.cmd + (upto 4).foldl (fun v r => v + b2n (d.rail r).gateOn * 2 ^ (2 + r)) 0 +
    (upto 16).foldl (fun v n => v + b2n (d.mbr (6 + n)).out * 2 ^ (6 + n)) 0

/-- Word 39: THR for the ports at cap level 3, GV for the ports with a reply (R18, R191). -/
def Dev.portWord (d : Dev) : Nat :=
  (upto 16).foldl (fun v n =>
    v + b2n (decide (3 ≤ (d.port n).level)) * 2 ^ n + b2n (d.port n).reply.isSome * 2 ^ (16 + n)) 0

/-- Words 38 to 111, which bank 0x39 holds (R18, R51), as the engines compute them. -/
def Dev.composedWords (d : Dev) : List Nat :=
  [d.gateWord, d.portWord] ++
    (upto 16).flatMap (fun n =>
      let f := ((d.port n).reply.map BitVec.toNat).getD 0
      [bits f 63 32, bits f 31 0]) ++
    cellWords (takeCells 5 d.twin.outq).1

/-- Words 38 to 111 with the bytes that a DMA channel has written in bank 0x39 since the engines did (R51, R464). -/
def Dev.commonWords (d : Dev) : List Nat :=
  let l := d.composedWords
  if d.twin.dmaOver.isEmpty then l
  else l.zipIdx.map fun p =>
    leNat (((leBytes 4 p.1).zipIdx).map fun b => ((alGet d.twin.dmaOver (4 * p.2 + b.2)).map (BitVec.ofNat 8)).getD b.1)

/-- Bank 0x39 holds the common slice of the frame of the tick, from byte 0 on; DMA reads it there (R51, R464, log entry 72). -/
def Dev.mirrorSlice (d : Dev) : Dev :=
  { d with sram := memWriteBytes d.sram (0x39 * 2 ^ 18) (d.commonWords.flatMap fun w => leBytes 4 w) }

/-- Words 2 to 111 of a frame: the actuation slices of the clusters and the common slice (R18, R51). -/
def Dev.sliceWords (d : Dev) : List Nat :=
  let duty := (upto 64).map fun n => BitVec.ofNat 16 (d.unit n).duty
  (upto 32).map (packHalf duty) ++ maskWords (fun n => (d.unit n).tri) ++ maskWords (fun n => (d.unit n).xp) ++ d.commonWords

/-- The slices of twin `t`: the bits of a control-plane result that it missed are those of its last frame (R60). -/
def Dev.twinSlices (d : Dev) (t : Twin) : List Nat :=
  let x := d.twinOf t
  x.stale.foldl (fun l p => updAt l (p.1 - 2) fun w => mergeBits w (nth x.lastWords (p.1 - 2) 0) p.2) d.sliceWords

/-- Words 0 to 111 of the frame that twin `t` composes in the present tick (R18): its header and its slices. -/
def Dev.actBody (d : Dev) (t : Twin) : List Nat :=
  let x := d.twinOf t
  [0x3A * 2 ^ 24 + d.time.tseq,
    twinIdx t + 2 * b2n (x.st == .active) + 4 * (x.err % 16) + 64 * b2n d.twin.suspend + 128 * d.sched.tier.val] ++ d.twinSlices t

/-- The slices of the frame of the tick stay in a running twin for the next one (R60). -/
def Dev.keepFrame (d : Dev) (t : Twin) : Dev :=
  if (d.twinOf t).st.running then d.updTwin t fun x => { x with lastWords := d.twinSlices t } else d

/-- The whole frame of twin `t`, closed by its CRC-32. -/
def Dev.actFrame (d : Dev) (t : Twin) : List Word32 :=
  let b := (d.actBody t).map (BitVec.ofNat 32)
  b ++ [BitVec.ofNat 32 (crc32 (wordBytes b))]

/-- Blocks that the twins have computed in the tick are made before the frame is composed (R186, R287). -/
def Dev.placeOut (d : Dev) : Dev := d.placeNudge.placeCharges

end Sys2Proof.Machine
end

