-- ==== Sys2Proof/WellFormed.lean ====
section
/-! DEFINITION. Which command terms are well formed: list operands have the number of words their frames have, numbers lie
in the widths of the fields that carry them. -/

namespace Sys2Proof

/-- An MRAM error names a page of the 16,384 (R370). -/
def NvErr.wf : NvErr → Bool
  | .uncorrectable p => decide (p < 16384)
  | _ => true

/-- What is latched in a tick has the counts of R205, R211 and R213: 72 phase-current modulators, 17 precision modulators, 8
temperature converters, 64 TFLT inputs. -/
def TickIn.wf (i : TickIn) : Bool :=
  i.phaseX.length == 72 && i.preX.length == 17 && i.tempC.length == 8 && i.tfltUv.length == 64 && i.nvErrA.all NvErr.wf && i.nvErrB.all NvErr.wf

/-- The measurements of a frond: ten sensors of each twin (R354) and one pulse measurement per rail (R97). -/
def FrondIn.wf (i : FrondIn) : Bool :=
  i.tempA.length == 10 && i.tempB.length == 10 && i.setp.length == 4 && i.setp.all fun x => (x.1 == 0 || decide (0 < x.2.2)) && decide (x.2.1 ≤ x.2.2)

/-- The fields of a Mieno frame lie in their widths, and it has at most 256 payload bytes (R435). -/
def MFrame.wf (f : MFrame) : Bool :=
  decide (f.kind < 16) && decide (f.format < 16) && decide (f.ring < 2) && decide (f.src < 1024) && decide (f.dst < 1024) &&
    decide (f.fseq < 65536) && decide (f.hops < 2048) && decide (f.payload.length ≤ 256)

/-- A register access names a page of 16 bits and an offset of 12 (R517). -/
def pageOff (pg off : Nat) : Bool := decide (pg < 0x10000) && decide (off < 0x1000)

/-- The well-formed commands. -/
def Instr.wf : Instr → Bool
  | .tick i => i.wf
  | .actuationFrame _ c ws => ws.length == 113 && decide (c < 200)
  | .frondBoundary i => i.wf
  | .outboundBlockTx ch _ => decide (ch < 256)
  | .blkStatusClear _ p _ => decide (p < 0x10000)
  | .clearRefusedClear p => decide (p < 0x10000)
  | .blkIntForce p _ => decide (p < 0x10000)
  | .blkLock _ p _ => decide (p < 0x10000)
  | .lockTimeout _ p => decide (p < 0x10000)
  | .blkCommit p => decide (p < 0x10000)
  | .registerWrite _ p o _ => pageOff p o
  | .regWrite _ p o ws => pageOff p o && decide (ws.length < 63)
  | .regRead _ p o k => pageOff p o && decide (k < 256)
  | .seqItem _ t sq c as => decide (t < 256) && decide (sq < 65536) && decide (c < 256) && decide (as.length < 256)
  | .twBlock _ _ bs _ => decide (bs.length < 256)
  | .openItem sr sq => decide (sr < 0x10000) && decide (sq < 65536)
  | .linkFrame _ _ _ _ _ n => decide (n < 1024)
  | .duplicateWindowReset n => decide (n < 1024)
  | .memberSilent n => decide (n < 1024)
  | .budget _ f | .advert _ f | .timeFrame _ f _ | .mienoHeartbeat _ f | .digest _ f | .fabCommand _ f
  | .commandReply _ f | .sporeChunk _ f | .peatReq _ f | .peatData _ f | .unknownFrame _ f => f.wf
  | _ => true

end Sys2Proof
end

