-- ==== Sys2Proof/Machine/Tick.lean ====
section
/-! DEFINITION. The tick: TICK, ACTUATION_FRAME, the safe state without a valid copy, and the clock's events (R10 to R20, R35 to
R39, R47, R488, R489). -/

namespace Sys2Proof.Machine

/-! ### The end of a tick -/

/-- An unmasked bit is set in a block that bit `i` of its BLK_CTRL routes (R488). -/
def Dev.demands (d : Dev) (i : Nat) : Bool :=
  d.stat.any fun b => bitAt (d.reg b.page 0x04) i && (b.status &&& d.reg b.page 0x0C) != 0

/-- Bit 0 of the Host Notify summary of port `n`: a bit routed to its ALERT pin was set in the tick (R421). -/
def Dev.hnRose (d : Dev) (n : Nat) : Dev :=
  let rose := d.stat.any fun b => bitAt (d.reg b.page 0x04) (1 + n) && (b.rose &&& d.reg b.page 0x0C) != 0
  if rose && d.flag (twtPg n) 0x40 1 then d.updTwT n fun t => { t with hnPend := t.hnPend ||| 1 } else d

/-- An occurrence of the present tick among the bits of `mask`. -/
def Dev.occurred (d : Dev) (pg mask : Nat) : Bool := ((d.statOf pg).tickOcc &&& mask) != 0

/-- A fault selected in CAP_FAULT_SEL was detected in the tick (R151). -/
def Dev.capFault (d : Dev) : Bool :=
  let sel (i : Nat) : Bool := d.flag 0xE0 0x9C i
  let hit (n r : Nat) : Bool :=
    let u := d.unit n
    d.isMember r n && (u.st == .fault || u.st == .lost) && u.since == 0
  (upto 4).any (fun r => (sel r && d.occurred (railPg r) 0x1F) || (sel (4 + r) && (upto 64).any fun n => hit n r)) ||
    (sel 8 && (d.occurred 0x98 0xC || d.occurred 0x99 0xFFF)) || (sel 9 && d.occurred 0xA0 1) || (sel 10 && d.occurred 0x70 6)

/-- What the twins still compute in a tick before they compose its frame: requests that no command has taken are decided (R176),
shares move where the tick changed them (R104, R105, R112), and the outbound blocks of the tick are made (R186, R287). -/
def Dev.sealTick (d : Dev) : Dev := d.settleRequests.settleShares.placeOut

/-- The end of the present tick, taken once: the copies are judged, units are added for those that left service in the tick
(R105), the outbound cells of its frame leave the twins, bank 0x39 holds its common slice (R51), NO_FEED shows what the
tick's events left (R253), the levels of the pins are demanded (R488), capture triggers, and the peat-log tap takes the tick's snapshot. -/
def Dev.closeTick (d : Dev) : Dev :=
  if !d.time.started || d.die.judged then d
  else
    let d := d.sealTick
    let d := (d.keepFrame .a).keepFrame .b
    let d := d.endTick.mirrorSlice.dropOutbound
    let d := if d.xfer.ran then d.noFeedTick else d
    let d := { d with die := { d.die with judged := true } }
    let d := { d with die := { d.die with want0 := d.demands 1, want1 := d.demands 2, wantFlt := d.demands 3 } }
    let d := foldN 2 Dev.hnRose d
    let d := if d.flag 0xE0 0x80 10 && d.capFault then d.capTrigger else d
    d.peatDeposit

/-- The status words enter a new tick (R480). -/
def Dev.newTick (d : Dev) : Dev := { d with stat := d.stat.map BlkStat.newTick }

/-! ### The boundary into a tick: the applied result -/

/-- The duty words, tri-state masks and extra pulses of a result (R87, R108); the outputs stay in tri-state while die S holds them
(R33, R345), and a unit with MEMBER = 0 at all times (R76). -/
def Dev.applyUnits (d : Dev) (f : List Word32) : Dev :=
  if d.die.safe || d.fh.safePin then d
  else
    let d := foldN 64 (fun d n =>
      d.updUnit n fun u => { u with applied := actDuty f n, triOn := actTri f n || (d.memberOf n).isNone }) d
    foldN 4 (fun d r => d.applyBurst (actXp f) r) d

/-- The EN, THR and step-port outputs of a boundary (R18): EN is held with the gate commands where no copy came (log entry 81),
THR and replies are not repeated (R13). A port's transmitter is busy from the boundary at which its reply starts to the one after
the next (R163). -/
def Dev.applyPorts (d : Dev) (f : Option (List Word32)) : Dev :=
  let en := match f with
    | some w => if d.die.safe then 0 else bits (frameWord w 38) 21 6
    | none => d.die.en
  let d : Dev := { d with die := { d.die with en := en, thr := (f.map fun w => bits (frameWord w 39) 15 0).getD 0 } }
  foldN 16 (fun d n => d.updPort n fun p =>
    match f with
    | some w => if actGv w n then { p with tx := some (actGrant w n), busy := d.now + 3 } else { p with tx := none }
    | none => { p with tx := none }) d

/-- The gate commands in force at the boundary: those of the result, or the held ones (R13, R245). -/
def Dev.applyGates (d : Dev) (f : Option (List Word32)) : Dev :=
  if d.die.safe then d
  else
    let ca := (f.map fun w => actGate w 0).getD d.feedA.applied
    let cb := (f.map fun w => actGate w 1).getD d.feedB.applied
    let d := d.applyFeedGates ca cb
    if d.fh.safePin then d
    else foldN 4 (fun d r => d.applyHsGate r ((f.map fun w => actGate w (2 + r)).getD (d.hsw r).applied)) d

/-- The pins at a boundary with an applied result: the demanded levels; FLT_n is low throughout the safe state (R488, R489). -/
def Dev.drivePins (d : Dev) (fresh : Bool) : Dev :=
  if fresh then
    { d with die := { d.die with alert0 := d.die.want0, alert1 := d.die.want1, fltLow := d.die.wantFlt || d.die.safe } }
  else { d with die := { d.die with fltLow := d.die.fltLow || d.die.safe } }

/-- Die S applies the result chosen in the tick before, or holds the last one (R13, R14). In the first tick there is none to
hold. -/
def Dev.applyResult (d : Dev) : Dev :=
  let x := d.chosen
  let first := !d.time.started
  let fresh := x.isSome
  let d := match x with
    | some (t, f) =>
      let d := { d with die := { d.die with applied := f, appliedFrom := t, extras := true, held := false, noneRun := 0 } }
      (foldN 5 (fun d c => d.takeCell f c) d).applyUnits f
    | none =>
      { d with die := { d.die with extras := false, held := !first, noneRun := if first then 0 else d.die.noneRun + 1 } }
  let d := (((d.applyGates (x.map Prod.snd)).applyPorts (x.map Prod.snd))).drivePins (fresh || first)
  { d with die := { d.die with copyA := none, copyB := none, judged := false, counted := false, ruled := false, sent := [] } }

/-! ### The samples of a tick -/

/-- A tick without a valid sample: every modulator is overloaded. -/
def TickIn.blank : TickIn :=
  { phaseX := List.replicate 72 (2 ^ 20), preX := List.replicate 17 (2 ^ 20), tempC := List.replicate 8 0,
    tfltUv := List.replicate 64 2500000, pgi := 0, feedA := ⟨false, false, true⟩, feedB := ⟨false, false, true⟩, hsOn := 0, hsOff := 0,
    pbLow := false, vrefxMv := 2500, vote := .agree, crcFailA := false, crcFailB := false, nvErrA := none, nvErrB := none,
    missA := [], missB := [], parityA := none, parityB := none, hbMissA := false, hbMissB := false }

/-- Every running twin's sense frame failed its CRC (R15). -/
def Dev.frameLost (d : Dev) (i : TickIn) : Bool :=
  (i.crcFailA || !d.twin.a.st.running) && (i.crcFailB || !d.twin.b.st.running) && (d.twin.a.st.running || d.twin.b.st.running)

/-- The sense frame of the tick reaches the twins: the sense buffer holds the frame, and the driver status word latched in the
tick before, which came by the bulk window (R16, R244). A frame that every running twin lost leaves the buffer, and no request of
it is delivered. -/
def Dev.takeFrame (d : Dev) (i : TickIn) (x : SenseWords) (lost : Bool) (drv : Nat) : Dev :=
  let d : Dev := { d with sram := memWriteBytes d.sram (senseAddr + 0x208) (leBytes 4 drv) }
  if lost then { d with adm := { d.adm with ports := d.adm.ports.map fun p => { p with slot := none } } }
  else
    let f := d.senseFrame i x
    let d : Dev := { d with sram := memWriteBytes d.sram senseAddr (f.flatMap fun w => leBytes 4 w) }
    d.takeSwitches.peatSample f

/-- The samples of a tick as the twins take them (R207, R208, R211 to R219): a stage temperature comes with its own frame only. -/
def Dev.takeSamples (d : Dev) (x : SenseWords) (lost : Bool) : Dev :=
  let prev := d.die.words.tflt
  let d := foldN 17 (fun d c => d.preSense x c) d
  let d := foldN 64 (fun d n => d.unitSense x n) d
  let d := if lost then d else d.stageSense x
  let d := foldN 64 (fun d n => d.tfltSense x prev n) d
  { d with die := { d.die with words := { x with tflt := d.validTflt x.tflt } } }

/-- What die S does with the samples of a tick whatever the twins receive: saturated words are counted, the reference is watched, the
monitor cycle and the calibration go on (R207, R219, R227, R229, R234). -/
def Dev.dieSamples (d : Dev) (i : TickIn) (x : SenseWords) : Dev :=
  (((((d.countOver i).refSense i.vrefxMv).intTick x).calDiff i).calOpen i).calTick

/-- SAFE_n as the twins see it in the sense frame (R345): its assertion is recorded and forces the shelf off. -/
def Dev.safeSense (d : Dev) : Dev :=
  let d' := if d.fh.safePin && !d.fh.safeTick then (d.occur 0xA5 2).forcedOff 2 else d
  d'.updFh fun h => { h with safeTick := h.safePin }

/-! ### Rails in a tick -/

/-- Leaders come before their followers. -/
def Dev.railOrder (d : Dev) : List Nat :=
  let up (r : Option Nat) : Option Nat := r.bind d.leader
  let depth (r : Nat) : Nat :=
    if (d.leader r).isNone then 0 else if (up (d.leader r)).isNone then 1 else if (up (up (d.leader r))).isNone then 2 else 3
  sortBy (fun a b => decide (depth a ≤ depth b)) [0, 1, 2, 3]

/-- The voltages, currents, capacities, targets and references of the rails for a tick, and adding (R79, R91, R96, R99 to
R102). -/
def Dev.railsTick (d : Dev) : Dev :=
  let d := foldN 4 (fun d r =>
    let v := d.preVal r
    let c := d.railCurrent r
    d.updRail r fun x =>
      { x with vs := v, ir := c, vAcc := x.vAcc + v, iAcc := x.iAcc + c, accN := x.accN + 1,
               noMark := x.noMark - 1, retryLeft := x.retryLeft - 1, burst := false,
               ovTrip := x.ovTrip || x.ovDecl, ovDecl := false }) d
  let d := foldN 4 Dev.capTick d.ledgerCurrents
  let d := foldN 4 Dev.targetTick d
  let d := foldN 4 (fun d r => if (d.rail r).startDue then d.zeroLoops r else d) d
  let d := foldN 4 Dev.startTick d
  let d := d.railOrder.foldl Dev.refTick d
  let d := foldN 4 (fun d r => if (d.rail r).st = .regulate then d.thermalShed r else d) d
  foldN 4 Dev.addTick d

/-- A rail with an unannounced step in the tick counts it, requests a burst and cancels shedding (R188); a granted step that
starts at the next boundary requests a burst (R107). -/
def Dev.burstTick (d : Dev) (r : Nat) : Dev :=
  let d := if (d.rail r).unann then
      let d := d.updLed fun l => { l with unannRail := updAt l.unannRail r inc8 }
      (d.updRail r fun x => { x with unann := false, burst := true }).cancelShed r
    else d
  if d.led.steps.any fun q => q.rail == r && q.kind == 1 && q.start == d.now + 1 then
    d.updRail r fun x => { x with burst := true }
  else d

/-! ### Slot entries -/

/-- The SUPV entry: feeds, hot-swaps, members, modules and stages (R246, R261, R288, R327, R359). -/
def Dev.fireSupv (d : Dev) : Dev := ((foldN 4 Dev.hsTick d.feedTick).fhTick.bbuSupv).thermTick

/-- The LEDGER entry (R170, R185, R289, R363). -/
def Dev.fireLedger (d : Dev) : Dev := (d.thermLedger.battTick.setRow.ledgerFire).capAll

/-- MWIN (R54, R56): the banks of SRC_A and DST are open to the management processor, and its accesses that wait for one of them
are made, in order. -/
def Dev.fireMwin (d : Dev) (e : SlotEntry) : Dev :=
  let open1 (b : Nat) : Bool := [e.srcA, e.dst].any fun o => !descUnused o && bits o 20 15 == b
  let d := d.updSched fun s => { s with window := addNew s.window ([e.srcA, e.dst].map fun o => bits o 20 15) }
  let d := (d.sched.mgt.filter fun a => open1 a.bank).foldl (fun d a =>
    { d with sram := memWriteBytes d.sram (a.bank * 2 ^ 18 + a.addr % 2 ^ 18) a.bytes }) d
  d.updSched fun s => { s with mgt := s.mgt.filter fun a => !open1 a.bank }

/-- COMP (R54): 64 samples are read at SRC_A and the compressed block is written at DST, up to the end of its bank. The spec states
no algorithm: the length of the block, at most that of the samples, and its words are free values of the samples (log entry 58). -/
def Dev.fireComp (d : Dev) (e : SlotEntry) : Dev :=
  let x := leNat (memBytes d.sram (descAddr e.srcA) 256)
  let room := 2 ^ 18 - descAddr e.dst % 2 ^ 18
  let len := Nat.min room (Config.freeWord 10 x % 257)
  let block := ((upto 64).flatMap fun i => leBytes 4 (Config.freeWord 11 (64 * x + i))).take len
  { d with sram := if descUnused e.dst then d.sram else memWriteBytes d.sram (descAddr e.dst) block,
           cap := { d.cap with cmp := true } }

/-- The actuation slice of cluster `k` as bytes of its bank (R51): the duty words of its units, then their TRI and XP bits (log
entry 112). -/
def Dev.sliceBytes (d : Dev) (k : Nat) : List Byte :=
  let mask (p : PhUnit → Bool) : Nat := (upto 8).foldl (fun v j => v + b2n (p (d.unit (8 * k + j))) * 2 ^ j) 0
  ((upto 8).flatMap fun j => leBytes 2 (d.unit (8 * k + j)).duty) ++ [BitVec.ofNat 8 (mask PhUnit.tri), BitVec.ofNat 8 (mask PhUnit.xp)]

/-- The slice of cluster `k` as its bank holds it. -/
def Dev.sliceIn (d : Dev) (k : Nat) : Dev :=
  let a := (0x31 + k) * 2 ^ 18
  foldN 8 (fun d j => d.updUnit (8 * k + j) fun u =>
    { u with duty := leNat (memBytes d.sram (a + 2 * j) 2), tri := bitAt (memRead d.sram (a + 16)).toNat j,
             xp := bitAt (memRead d.sram (a + 17)).toNat j }) d

/-- The clusters whose slices an entry writes as plain memory (R51). -/
def SlotEntry.slices (e : SlotEntry) : List Nat :=
  (upto 8).filter fun k => e.operands.any fun a => a.write && a.bank == 0x31 + k

/-- An entry of a class whose result is plain words, with the slices that it writes (R51, R54). -/
def Dev.throughSlice (f : Dev → SlotEntry → Dev) (d : Dev) (e : SlotEntry) : Dev :=
  let d : Dev := e.slices.foldl (fun d k => { d with sram := memWriteBytes d.sram ((0x31 + k) * 2 ^ 18) (d.sliceBytes k) }) d
  e.slices.foldl Dev.sliceIn (f d e)

/-- Bytes of bank 0x39 that a class has written since a DMA channel did (R51). -/
def Dev.overDrop (d : Dev) (lo hi : Nat) : Dev :=
  { d with twin := { d.twin with dmaOver := d.twin.dmaOver.filter fun p => decide (p.1 < lo) || decide (hi < p.1) } }

/-- What a slot entry does when it is dispatched (R47, R54). -/
def Dev.fireEntry (d : Dev) (e : SlotEntry) : Dev :=
  let c := e.cls
  if 0x08 ≤ c ∧ c ≤ 0x0F then Dev.throughSlice Dev.fireBiq d e
  else if 0x10 ≤ c ∧ c ≤ 0x17 then Dev.throughSlice Dev.fireVlp d e
  else if 0x18 ≤ c ∧ c ≤ 0x1B then Dev.throughSlice Dev.fireFfs d e
  else if c = 0x20 then Dev.throughSlice Dev.fireSum d e
  else if c = 0x21 then d.firePhase e
  else if c = 0x22 then d.fireOvl e
  else if c = 0x23 then d.fireStat e
  else if c = 0x24 then Dev.throughSlice Dev.fireInj d e
  else if c = 0x30 then d.admitFire.overDrop 4 135
  else if c = 0x31 then d.fireLedger
  else if c = 0x33 then d.fireSupv.overDrop 0 3
  else if c = 0x34 then d.accTick true
  else if c = 0x38 then d.fireCapt e
  else if c = 0x39 then d.fireComp e
  else if c = 0x3A then d.peatFire
  else if c = 0x3B then d.chFire (e.engine - 0x90) e
  else if c = 0x3C ∨ c = 0x3D then ((d.rxDrain c).rxFalls e.offset).overDrop 136 295
  else if c = 0x40 then d.fireMwin e
  else d

/-- The entries that fire in the tick, by OFFSET. -/
def Dev.firing (d : Dev) : List SlotEntry :=
  sortBy (fun a b => decide (a.offset ≤ b.offset)) (d.sched.bank.filter fun e => e.firesIn d.phase d.sched.tier.val)

/-- Before the supervision entry of a tick, and at the end of one without it, the rails' counts are taken (R113 to R117). -/
def Dev.fireAll (d : Dev) : Dev :=
  let l := d.firing
  let pre := l.takeWhile fun e => e.cls != 0x33
  let post := l.dropWhile fun e => e.cls != 0x33
  let d := foldN 4 Dev.countTick (pre.foldl Dev.fireEntry d)
  let d := post.foldl Dev.fireEntry d
  if l.any fun e => e.cls == 0x34 then d else d.accTick false

/-! ### Internal errors of a tick -/

/-- SELF_ERR_KIND that a twin reports in the frame of the tick: of several errors the model reports the first (log entry 82). -/
def Dev.selfErr (d : Dev) (t : Twin) (kind : Nat) : Dev := d.updTwin t fun x => { x with err := if x.err = 0 then kind else x.err }

/-- The bits of the frame words that a control-plane entry computes, as word and mask (R18, R51, R60): its cluster's slice, the gate
and EN commands of SUPV, or the step-port words of ADMIT. -/
def SlotEntry.frameBits (e : SlotEntry) : List (Nat × Nat) :=
  let slice (b : Nat) : List (Nat × Nat) :=
    let k := b - 0x31
    if 0x31 ≤ b ∧ b < 0x39 then
      ((upto 4).map fun i => (2 + 4 * k + i, 2 ^ 32 - 1)) ++ [34, 36].map fun w => (w + k / 4, 0xFF * 2 ^ (8 * (k % 4)))
    else []
  if e.cls < 0x25 then (e.operands.filter Access.write).flatMap fun a => slice a.bank
  else if e.cls = 0x33 then [(38, 2 ^ 32 - 1)]
  else if e.cls = 0x30 then (upto 33).map fun i => (39 + i, 2 ^ 32 - 1)
  else []

/-- The schedule misses of a twin in a tick (R60): each is counted, the last one recorded, and the twin reports 0x2. A control-plane
entry that missed counts as missing at cycle 159, so that its part of the twin's frame keeps the words of the tick before (log entry
111). -/
def Dev.schedMiss (d : Dev) (t : Twin) (l : List Nat) : Dev :=
  l.foldl (fun d e =>
    let p := d.phase
    let late := (nth d.sched.bank e ⟨0, 0, 0, 0⟩).frameBits
    ((((d.updSched fun s =>
      { s with missA := if t = .a then inc16 s.missA else s.missA, missB := if t = .b then inc16 s.missB else s.missB,
               lastPhase := p, lastTwin := t, lastEntry := e }).occur 0x02 0).selfErr t 2).updTwin t fun x =>
      { x with stale := x.stale ++ late })) d

/-- A lane parity error of a twin (R139): counted, and the twin reports 0x3. -/
def Dev.parityErr (d : Dev) (t : Twin) (m : Option (Fin 8)) : Dev :=
  match m with
  | none => d
  | some k =>
    ((d.updCluster k.val fun c =>
      match t with
      | .a => { c with parityA := inc8 c.parityA }
      | .b => { c with parityB := inc8 c.parityB }).occur (0x20 + k.val) (twinIdx t)).selfErr t 3

/-- An error of a twin's SRAM or MRAM (R8, R372). A page that cannot be read is taken from the other running twin's copy; where that one
cannot be read either, its records count as failing their CRC in both copies. A write that fails is reported as SELF_ERR_KIND 0x1. -/
def Dev.nvError (d : Dev) (t : Twin) (e : Option NvErr) : Dev :=
  match e with
  | none => d
  | some .sram => d.selfErr t 1
  | some .corrected => { d with nv := { d.nv with corrected := inc16 d.nv.corrected } }
  | some .writeFail => (d.occur 0xB0 4).selfErr t 1
  | some (.uncorrectable p) =>
    let n := d.nv
    if (d.twinOf (otherTwin t)).st.running && !(if t = Twin.a then n.badB else n.badA).contains p then
      { d with nv := { n with
          a := if t = Twin.a then copyPages n.b n.a [p] else n.a, b := if t = Twin.b then copyPages n.a n.b [p] else n.b,
          badA := if t = Twin.a then n.badA.filter (· != p) else n.badA,
          badB := if t = Twin.b then n.badB.filter (· != p) else n.badB,
          repaired := inc16 n.repaired } }.occur 0xB0 1
    else
      { d with nv := { n with badA := addNew n.badA [p], badB := addNew n.badB [p] } }.occur 0xB0 2

/-- The vote of the common logic (R10): a single disagreement is masked and shown in the next sense frame; two are a
package-level fault. -/
def Dev.voteTick (d : Dev) (v : Vote) : Dev :=
  match v with
  | .agree => { d with die := { d.die with voteMismatch := false } }
  | .oneDiffers => { d with die := { d.die with voteMismatch := true } }
  | .twoDiffer => { d with die := { d.die with voteMismatch := true } }.enterSafe 8

/-- The errors and heartbeats of a tick. -/
def Dev.errorTick (d : Dev) (i : TickIn) : Dev :=
  let d := (d.tickHb .a i.hbMissA).tickHb .b i.hbMissB
  let d := (d.schedMiss .a i.missA).schedMiss .b i.missB
  let d := (d.parityErr .a i.parityA).parityErr .b i.parityB
  let d := (d.nvError .a i.nvErrA).nvError .b i.nvErrB
  d.voteTick i.vote

/-! ### TICK -/

/-- The boundary into a tick: offsets are recomputed, die S applies the chosen result, latches the switches and places inbound
blocks in cells (R11, R13, R20, R86, R243); the tick's error reports and windows begin afresh. -/
def Dev.tickApply (d : Dev) (i : TickIn) : Dev :=
  let d := foldN 4 Dev.interleave d
  let d := ((((d.latchSwitches i).applyResult).burstUndo).takeInbound).updXfer fun x => { x with ran := false }
  let fresh := fun t : TwinSt => { t with err := 0, stale := [] }
  let d : Dev := { d with twin := { d.twin with a := fresh d.twin.a, b := fresh d.twin.b, dmaOver := [] } }
  let d := { d with runs := [], inj := { d.inj with silent := false } }
  let d := d.updSched fun s => { s with window := [] }
  { d with die := { d.die with drvWord := d.driverWord i } }

/-- The time of a new tick (R39): TSEQ is 0 in the first tick after reset release. -/
def TimeSt.tick (t : TimeSt) : TimeSt :=
  if t.started then { t with tseq := (t.tseq + 1) % 2 ^ 24, ticks := t.ticks + 1 } else { t with started := true }

/-- Samples and frame of a tick. A twin that lost its frame reports it (R15); while the other twin has the frame, the tick's work is
that of the other, and in what the first computes otherwise the operand of its ACTUATION_FRAME says (log entry 67). -/
def Dev.tickSense (d : Dev) (i : TickIn) (drv : Nat) : Dev :=
  let lost := d.frameLost i
  let d := if i.crcFailA then d.selfErr .a 4 else d
  let d := if i.crcFailB then d.selfErr .b 4 else d
  let eff := if lost then d.die.sense.getD TickIn.blank else i
  let x := d.sampleWords i
  let d := (d.admNewTick.takeFrame i x lost drv).dieSamples i x
  let d : Dev := { d with units := d.units.map fun u => { u with since := u.since + 1 } }
  let d := d.takeSamples (if lost then d.die.words else x) lost
  let d := if lost then d else d.safeSense
  { d with die := { d.die with sense := some eff }, xfer := { d.xfer with judge := d.xfer.judge && d.die.validG1 } }

/-- TIER_FLOOR is sampled in tick phase 254, and raises the tier selected for the next frond (R62). -/
def Dev.sampleFloor (d : Dev) : Dev :=
  let f := d.fld 0x02 0x40 5 4
  d.updSched fun s => { s with tierFloor := f, tierNext := Fin.ofNat 4 (Nat.max s.tierNext.val f) }

/-- The slot entries of a tick and what follows from them. -/
def Dev.tickWork (d : Dev) (i : TickIn) : Dev :=
  let d := { d with inj := { d.inj with fired := [] }, cap := { d.cap with took := false } }
  let d := if d.inj.started && d.inj.running && d.flag 0xE0 0x80 9 then d.capTrigger else d
  let d := if d.phase = 254 then d.commitSample.sampleFloor else d
  let d := d.coeffPort.dmaTick.fireAll
  let d := d.auxTick (if d.die.validG0 then nth d.die.words.pre 14 noSample else noSample) (d.firing.any fun e => e.cls == 0x3E)
  let d := { d with inj := { d.inj with started := false } }
  let d := foldN 4 Dev.burstTick d
  let d := foldN 64 Dev.periodTick d
  let d := (foldN 4 Dev.counterTick d).noAdmit
  let d := if d.phase = 253 then d.tierSelect else d
  (d.errorTick i).mieTick.demandTick

/-- The effect of a tick (R11). -/
def Dev.runTick (d : Dev) (i : TickIn) : Dev :=
  let drv := d.die.drvWord
  let fresh := d.atBoundary
  let d := d.closeTick
  let d := if fresh then d else d.newTick
  let d := d.tickApply i
  let d := { d with time := d.time.tick }
  let d := (d.tickSense i drv).railsTick.tickWork i
  { d with time := { d.time with frondDue := d.phase == 255 } }

/-- The tick beacon runs: not in reset, in standby, or where the frond boundary is still to be taken. -/
def Dev.ticks (d : Dev) : Bool := !d.sup.inReset && !d.sup.standby && !d.time.frondDue

/-- TICK (R11). -/
def execTick (i : TickIn) (s : State) : Out :=
  if i.wf then done (fun d => if d.ticks then d.runTick i else d) s else .fault .malformedCommand

/-! ### Actuation frames -/

/-- A copy is valid (R12): its CRC, its TSEQ, and its arrival by cycle 196; it has the frame type of R18 and comes from a twin
that sends frames (R294). -/
def Dev.copyValid (d : Dev) (t : Twin) (cycle : Nat) (f : List Word32) : Bool :=
  d.time.started && (d.twinOf t).st.running && actType f == 0x3A && actCrcOk f && actTseq f == d.time.tseq &&
    decide (cycle ≤ 196)

/-- The words that arrive at die S: those that the twin composed in the tick, with the bits changed in which its computation or
its link differed. -/
def Dev.arriving (d : Dev) (t : Twin) (errs : List Word32) : List Word32 := List.zipWith (fun w e => w ^^^ e) (d.actFrame t) errs

/-- A copy arrives: the first valid one of each twin in a tick is kept. -/
def Dev.takeCopy (d : Dev) (t : Twin) (cycle : Nat) (f : List Word32) : Dev :=
  if d.copyValid t cycle f && !d.die.counted && (d.copyOf t).isNone then
    match t with
    | .a => { d with die := { d.die with copyA := some f } }
    | .b => { d with die := { d.die with copyB := some f } }
  else d

/-- ACTUATION_FRAME (R12, R18): twin `t` composes the frame of the tick from what it has computed, and die S receives it by
`cycle`, with the bits of `errs` in error: 113 words, all zero for a frame as composed (log entry 67). -/
def execActuationFrame (t : Twin) (cycle : Nat) (errs : List Word32) (s : State) : Out :=
  if errs.length = 113 then
    done (fun d =>
      let d := if d.time.started && !d.die.judged then d.sealTick else d
      d.takeCopy t cycle (d.arriving t errs)) s
  else .fault .malformedCommand

/-- Consecutive ticks without a valid copy, the present one included. -/
def Dev.noCopyRun (d : Dev) : Nat := d.die.noneRun + b2n d.chosen.isNone

/-- Twin `t` in RESYNC abandons its transfer; it is OUT until the device restarts (R309). -/
def Dev.abandonResync (d : Dev) (t : Twin) : Dev :=
  if (d.twinOf t).st = .resync then (d.updTwin t fun x => { x with st := .out, retired := true, pages := 0 }).occur 0xA0 10 else d

/-- NO_VALID_COPY_SAFE_STATE (R14, R309). -/
def execNoValidCopySafeState (s : State) : Out :=
  done (fun d => if d.time.started ∧ 4 ≤ d.noCopyRun then ((d.enterSafe 8).abandonResync .a).abandonResync .b else d) s

/-! ### Clocks -/

/-- REFCLK_LOSS (R35): holdover begins, with a package-level clock fault. -/
def execRefclkLoss (s : State) : Out :=
  done (fun d => if d.time.holdover then d else { d with time := { d.time with holdover := true } }.occur 0x01 0) s

/-- REFCLK_RELOCK (R35): at a frond boundary, after one stable frond, the PLLs relock. -/
def execRefclkRelock (s : State) : Out :=
  done (fun d => if d.atBoundary then { d with time := { d.time with holdover := false } } else d) s

/-- BEACON_ERROR (R38): recorded, and the twin reports SELF_ERR_KIND = 0x2 in the frame of the tick. -/
def execBeaconError (t : Twin) (s : State) : Out := done (fun d => (d.occur 0x01 (3 + twinIdx t)).selfErr t 2) s

/-- ISLAND_UNLOCK: an island PLL of a twin loses lock (R42, R72). -/
def execIslandUnlock (t : Twin) (i : Fin 11) (s : State) : Out :=
  done (fun d =>
    let d := match t with
      | .a => { d with time := { d.time with lockA := clrBits d.time.lockA (2 ^ i.val) } }
      | .b => { d with time := { d.time with lockB := clrBits d.time.lockB (2 ^ i.val) } }
    d.occur 0x01 (1 + twinIdx t)) s

end Sys2Proof.Machine
end

