-- ==== Sys2Proof/Machine/Boundary.lean ====
section
/-! DEFINITION. The frond boundary (R23 to R25, R39, R62, R96, R97, R521). -/

namespace Sys2Proof.Machine

/-- The periods of SETPr that ended in the frond join those of the last 8 fronds (R97). -/
def Dev.setpSample (d : Dev) (i : FrondIn) (r : Nat) : Dev :=
  d.updRail r fun x => { x with setpWin := (nth i.setp r (0, 0, 0) :: x.setpWin).take 8 }

/-- The quantity x of R96 as a fraction, before its clamp; none where the set-point is lost (R97). The average over the periods of
the last 8 fronds is that of their whole length (log entry 83): high time over length, periods over length. -/
def Dev.setpoint (d : Dev) (r : Nat) : Option (Int × Int) :=
  let src := d.fld (railPg r) 0x40 1 0
  if src = 1 then
    let x := d.auxIn (d.fld (railPg r) 0x40 28 24)
    if x.invalid || x.unsettled || decide (x.full ≤ 0) then none else some (x.res, x.full)
  else
    let w := (d.rail r).setpWin.foldl (fun (a b : Nat × Nat × Nat) => (a.1 + b.1, a.2.1 + b.2.1, a.2.2 + b.2.2)) (0, 0, 0)
    let per : Int := w.2.2
    let lo : Int := d.fld (railPg r) 0x6C 15 0
    let hi : Int := d.fld (railPg r) 0x6C 31 16
    if w.1 = 0 ∨ per = 0 then none
    else if src = 2 then some (w.2.1, per)
    else some (800000000 * (w.1 : Int) - 100 * lo * per, 100 * per * (hi - lo))

/-- The set-point of a rail at a frond boundary (R96, R97): a lost one keeps the last valid target, that of RAIL_VSET included,
and is recorded when it becomes lost. -/
def Dev.setpFrond (d : Dev) (i : FrondIn) (r : Nat) : Dev :=
  let d := d.setpSample i r
  if d.fld (railPg r) 0x40 1 0 = 0 then
    let v := d.sreg (railPg r) 0x44
    d.updRail r fun x => { x with setpLost := false, tgtLast := v }
  else
    match d.setpoint r with
    | none =>
      let d' := if (d.rail r).setpLost then d else d.occur (railPg r) 5
      d'.updRail r fun x => { x with setpLost := true }
    | some p =>
      let lo := d.sreg (railPg r) 0x64
      let hi := d.sreg (railPg r) 0x68
      let t := lo + Config.rdiv 81 (clampI 0 p.2 p.1 * (hi - lo)) p.2
      d.updRail r fun x => { x with setpLost := false, tgtLast := t }

/-- The mean of a frond, or the last one where nothing was summed. -/
def frondMean (site : Nat) (acc : Int) (n : Nat) (last : Sig) : Sig := if n = 0 then last else Config.rdiv site acc n

/-- The frond means shown in the snapshot: rails, precision channels and units. -/
def Dev.meansFrond (d : Dev) : Dev :=
  { d with
    rails := d.rails.map fun x =>
      { x with vAvg := frondMean 82 x.vAcc x.accN x.vAvg, iAvg := frondMean 83 x.iAcc x.accN x.iAvg, vAcc := 0, iAcc := 0, accN := 0 },
    units := d.units.map fun u => { u with curAvg := frondMean 84 u.curAcc u.accN u.curAvg, curAcc := 0, accN := 0 },
    sense := { d.sense with pre := d.sense.pre.map fun p => { p with avg := frondMean 85 p.acc p.accN p.avg, acc := 0, accN := 0 } } }

/-- The clusters at a frond boundary: fronds in service (R120), and the saturations of the frond (R155). -/
def Dev.clusterFrond (d : Dev) : Dev :=
  foldN 8 (fun d k =>
    let up := d.clusterUp k
    let n := (d.cluster k).sat
    let d := d.updCluster k fun c =>
      { c with goodFronds := if up then satInc 2 c.goodFronds else 0, satLast := Nat.min 65535 n, sat := 0 }
    if n = 0 then d else d.occur (0x20 + k) 3) d

/-- The deferred writes of a frond take effect (R566), every field within its range (R123). -/
def Dev.deferredFrond (d : Dev) : Dev :=
  let d := d.rowExtFrond
  let l := d.regs.deferred
  l.foldl (fun d e =>
    let pg := e.1 / 0x1000
    let off := e.1 % 0x1000
    let y := clampReg pg off e.2
    (d.setReg pg off y).clamped pg e.2 y) { d with regs := { d.regs with deferred := [] } }

/-- The injection at a frond boundary: the fronds of its duration pass (R146, R147). -/
def InjSt.frond (j : InjSt) : InjSt := if j.running then { j with left := j.left - 1, gone := j.gone + 1 } else j

/-- The tier of the next frond takes effect (R62): the fronds of each tier are counted, and a capture in progress is aborted
when the tier leaves T0 (R152). -/
def Dev.tierFrond (d : Dev) : Dev :=
  let old := d.sched.tier
  let new := d.sched.tierNext
  let d := d.updSched fun s => { s with tier := new, tierFronds := updAt s.tierFronds old.val (satInc 0xFFFFFFFF) }
  if old = 0 ∧ new ≠ 0 then d.capAbort else d

/-- Counts of fronds that run between events: the settling of the reference (R218), the ages of auxiliary results (R223), the
confirmation timer (R509), the fronds of region G1 (R257). -/
def Dev.agesFrond (d : Dev) : Dev :=
  let d := d.updRef fun r => { r with left := r.left - 1 }
  let d := d.updAux fun q => { q with inputs := q.inputs.map fun x => { x with age := satInc 65535 x.age } }
  let d := d.updUpd fun u => { u with left := if u.running then u.left - 1 else u.left }
  d.updXfer fun x => { x with g1Good := if d.die.validG1 then satInc 2 x.g1Good else 0 }

/-- The settings of R331 stored in the bank in use, while non-volatile writes are made. -/
def Dev.settingsFrond (d : Dev) : Dev :=
  if d.nvHeld then d
  else
    let l := d.regs.force.filter fun e =>
      e.1 / 0x1000 == 0xA4 && decide (0x40 ≤ e.1 % 0x1000) && ((regRow 0xA4 (e.1 % 0x1000)).map RegRow.rws).getD 0 != 0
    if l == d.upd.sets then d else d.setWrite d.upd.setBank l

/-- What takes effect at a frond boundary: roles, commits, deferred writes and clears (R23, R27, R297, R392, R483, R566). -/
def Dev.boundaryCommit (d : Dev) (i : FrondIn) : Dev :=
  let d : Dev := { d.clusterFrond with inj := d.inj.frond }
  let d := (d.rolesFrond i.sHbA i.sHbB).deferredFrond
  (d.commitFrond.crustFrond.clearFrond).counterFrond

/-- What the control plane and the data plane do at a frond boundary. -/
def Dev.boundaryWork (d : Dev) (i : FrondIn) : Dev :=
  let d := foldN 4 (fun d r => d.setpFrond i r) d
  let d := (d.meansFrond.thermFrond i.tempA i.tempB).pbFrond.regionFrond.holdFrond
  let d := d.agesFrond.calBoundary
  let d := (d.admFrond.bbuFrond.placeCharges).tierFrond
  let d := d.linkFrond.timeFrond.epochFrond.rowFrond.dmaFrond
  let d := d.fabFrond.twFrond
  (d.settingsFrond.peatStanding).standbyFrond

/-- The new frond: its number, and the first snapshot after reset release (R522). -/
def Dev.newFrond (d : Dev) : Dev :=
  let d := if d.ident.bootShown then d else { d with ident := { d.ident with bootShown := true } }.occur 0 0
  { d with time := { d.time with frond := (d.time.frond + 1) % 2 ^ 32, frondDue := false },
           ident := { d.ident with snapCount := (d.ident.snapCount + 1) % 2 ^ 32 } }

/-- The boundary of the block itself. -/
def Dev.runBoundary (d : Dev) (i : FrondIn) : Dev :=
  ((d.closeTick.newTick.boundaryCommit i).boundaryWork i).newFrond

/-- Holds of the snapshot (R521): one asked for is taken at this boundary, one in force runs; standby ends them. -/
def State.holdsFrond (s : State) : State :=
  let x := s.d.ident
  if s.d.sup.standby then
    { s with held0 := none, held1 := none,
             d := { s.d with ident := { x with req0 := false, req1 := false, take0 := false, take1 := false } } }
  else
    { s with
      held0 := if x.take0 then some s.d else s.held0, held1 := if x.take1 then some s.d else s.held1,
      d := { s.d with ident := { x with
        take0 := false, take1 := false,
        left0 := if x.take0 then 64 else x.left0 - 1, left1 := if x.take1 then 64 else x.left1 - 1 } } }

/-- FROND_BOUNDARY (R39): the boundary after the tick of phase 255; the snapshot of R24 is taken. -/
def execFrondBoundary (i : FrondIn) (s : State) : Out :=
  if i.wf then
    if s.d.time.frondDue then
      let d := s.d.runBoundary i
      .next ({ s with d := d, snap := d }.holdsFrond)
    else .next s
  else .fault .malformedCommand

end Sys2Proof.Machine
end

