-- ==== Sys2Proof/Machine/Dispatch.lean ====
section
/-! DEFINITION. The meaning of every command: one arm per constructor, each one call of the command's meaning. -/

namespace Sys2Proof.Machine

/-- The effect of a command on everything but the queue. -/
def exec (i : Instr) (s : State) : Host.Outcome State Fault Refusal :=
  match i with
  | .tick t => Sys2Proof.Machine.execTick t s
  | .actuationFrame t cycle words => Sys2Proof.Machine.execActuationFrame t cycle words s
  | .noValidCopySafeState => Sys2Proof.Machine.execNoValidCopySafeState s
  | .outboundBlockTx chan answer => Sys2Proof.Machine.execOutboundBlockTx chan answer s
  | .frondBoundary x => Sys2Proof.Machine.execFrondBoundary x s
  | .rowEpochBoundary => Sys2Proof.Machine.execRowEpochBoundary s
  | .blkStatusClear p page mask => Sys2Proof.Machine.execBlkStatusClear p page mask s
  | .clearRefusedClear page => Sys2Proof.Machine.execClearRefusedClear page s
  | .blkIntForce page mask => Sys2Proof.Machine.execBlkIntForce page mask s
  | .blkLock p page v => Sys2Proof.Machine.execBlkLock p page v s
  | .lockTimeout p page => Sys2Proof.Machine.execLockTimeout p page s
  | .blkCommit page => Sys2Proof.Machine.execBlkCommit page s
  | .registerWrite p page off v => Sys2Proof.Machine.execRegisterWrite p page off v s
  | .refclkLoss => Sys2Proof.Machine.execRefclkLoss s
  | .refclkRelock => Sys2Proof.Machine.execRefclkRelock s
  | .beaconError t => Sys2Proof.Machine.execBeaconError t s
  | .vcoreTwinLoss t => Sys2Proof.Machine.execVcoreTwinLoss t s
  | .vcoreSLoss => Sys2Proof.Machine.execVcoreSLoss s
  | .regionLoss g => Sys2Proof.Machine.execRegionLoss g s
  | .timebaseUnlock g => Sys2Proof.Machine.execTimebaseUnlock g s
  | .clusterFault k => Sys2Proof.Machine.execClusterFault k s
  | .unitLostReturn k => Sys2Proof.Machine.execUnitLostReturn k s
  | .bankSwap => Sys2Proof.Machine.execBankSwap s
  | .hotSwapFullyOn r => Sys2Proof.Machine.execHotSwapFullyOn r s
  | .softStartDone r => Sys2Proof.Machine.execSoftStartDone r s
  | .softStopDone r => Sys2Proof.Machine.execSoftStopDone r s
  | .shortDetect r => Sys2Proof.Machine.execShortDetect r s
  | .phaseShed r => Sys2Proof.Machine.execPhaseShed r s
  | .shedRamp n => Sys2Proof.Machine.execShedRamp n s
  | .shedTri n => Sys2Proof.Machine.execShedTri n s
  | .burstStart r => Sys2Proof.Machine.execBurstStart r s
  | .fastLimitTrip n uv => Sys2Proof.Machine.execFastLimitTrip n uv s
  | .unitOverload n => Sys2Proof.Machine.execUnitOverload n s
  | .railOverload r => Sys2Proof.Machine.execRailOverload r s
  | .railUv r => Sys2Proof.Machine.execRailUv r s
  | .railOv r => Sys2Proof.Machine.execRailOv r s
  | .railRetryEnd r => Sys2Proof.Machine.execRailRetryEnd r s
  | .railRetryCountReset r => Sys2Proof.Machine.execRailRetryCountReset r s
  | .injectionDurationEnd => Sys2Proof.Machine.execInjectionDurationEnd s
  | .capArm => Sys2Proof.Machine.execCapArm s
  | .capForce => Sys2Proof.Machine.execCapForce s
  | .captureFilled => Sys2Proof.Machine.execCaptureFilled s
  | .captureDone => Sys2Proof.Machine.execCaptureDone s
  | .capRd v => Sys2Proof.Machine.execCapRd v s
  | .capReadReady => Sys2Proof.Machine.execCapReadReady s
  | .requestFrame n f codeOk aligned late => Sys2Proof.Machine.execRequestFrame n f codeOk aligned late s
  | .heldRequestDeliver n => Sys2Proof.Machine.execHeldRequestDeliver n s
  | .stepPortLinkUp n => Sys2Proof.Machine.execStepPortLinkUp n s
  | .stepPortLinkDown n => Sys2Proof.Machine.execStepPortLinkDown n s
  | .stepUp n => Sys2Proof.Machine.execStepUp n s
  | .stepDown n => Sys2Proof.Machine.execStepDown n s
  | .announce n => Sys2Proof.Machine.execAnnounce n s
  | .release n => Sys2Proof.Machine.execRelease n s
  | .heartbeat n => Sys2Proof.Machine.execHeartbeat n s
  | .ledgerLeaveConservative => Sys2Proof.Machine.execLedgerLeaveConservative s
  | .stepSettle load => Sys2Proof.Machine.execStepSettle load s
  | .reservationExpire load => Sys2Proof.Machine.execReservationExpire load s
  | .unannHalving => Sys2Proof.Machine.execUnannHalving s
  | .portStale n => Sys2Proof.Machine.execPortStale n s
  | .capLevelFall n => Sys2Proof.Machine.execCapLevelFall n s
  | .freezeLong => Sys2Proof.Machine.execFreezeLong s
  | .imonInvalid n => Sys2Proof.Machine.execImonInvalid n s
  | .preInvalid c => Sys2Proof.Machine.execPreInvalid c s
  | .metrologyResult c raw => Sys2Proof.Machine.execMetrologyResult c raw s
  | .refSettled => Sys2Proof.Machine.execRefSettled s
  | .vrefxFallback => Sys2Proof.Machine.execVrefxFallback s
  | .auxStepDone => Sys2Proof.Machine.execAuxStepDone s
  | .auxStale a => Sys2Proof.Machine.execAuxStale a s
  | .intmonResult x => Sys2Proof.Machine.execIntmonResult x s
  | .calWindowStart => Sys2Proof.Machine.execCalWindowStart s
  | .calTakeover => Sys2Proof.Machine.execCalTakeover s
  | .calReconnect m => Sys2Proof.Machine.execCalReconnect m s
  | .calReturn => Sys2Proof.Machine.execCalReturn s
  | .calDisconnect => Sys2Proof.Machine.execCalDisconnect s
  | .calWindowRestart => Sys2Proof.Machine.execCalWindowRestart s
  | .sensCalNow v => Sys2Proof.Machine.execSensCalNow v s
  | .reverseCurrentTrip f => Sys2Proof.Machine.execReverseCurrentTrip f s
  | .hotSwapFastTrip r => Sys2Proof.Machine.execHotSwapFastTrip r s
  | .feedReady f => Sys2Proof.Machine.execFeedReady f s
  | .feedInvalid f => Sys2Proof.Machine.execFeedInvalid f s
  | .feedFullyOn f => Sys2Proof.Machine.execFeedFullyOn f s
  | .feedPowerGood f => Sys2Proof.Machine.execFeedPowerGood f s
  | .feedTransfer => Sys2Proof.Machine.execFeedTransfer s
  | .transferDeadEnd => Sys2Proof.Machine.execTransferDeadEnd s
  | .transferInterlockFail => Sys2Proof.Machine.execTransferInterlockFail s
  | .insTimeout f => Sys2Proof.Machine.execInsTimeout f s
  | .feedReturn => Sys2Proof.Machine.execFeedReturn s
  | .feedOv f => Sys2Proof.Machine.execFeedOv f s
  | .feedRetryEnd f => Sys2Proof.Machine.execFeedRetryEnd f s
  | .feedRetryCountReset f => Sys2Proof.Machine.execFeedRetryCountReset f s
  | .g1JudgementResume => Sys2Proof.Machine.execG1JudgementResume s
  | .vgdLow => Sys2Proof.Machine.execVgdLow s
  | .hotSwapOnTimeout r => Sys2Proof.Machine.execHotSwapOnTimeout r s
  | .hotSwapSlowTrip r => Sys2Proof.Machine.execHotSwapSlowTrip r s
  | .countInvalid m => Sys2Proof.Machine.execCountInvalid m s
  | .fullAnchor m => Sys2Proof.Machine.execFullAnchor m s
  | .emptyAnchor m => Sys2Proof.Machine.execEmptyAnchor m s
  | .reserveEntry m => Sys2Proof.Machine.execReserveEntry m s
  | .bbuStatusPoll m answer => Sys2Proof.Machine.execBbuStatusPoll m answer s
  | .bbuInsertion m serial => Sys2Proof.Machine.execBbuInsertion m serial s
  | .bbuRemoval m => Sys2Proof.Machine.execBbuRemoval m s
  | .firstEstimate m => Sys2Proof.Machine.execFirstEstimate m s
  | .compatSwap m => Sys2Proof.Machine.execCompatSwap m s
  | .chgComm m => Sys2Proof.Machine.execChgComm m s
  | .twinSilent t => Sys2Proof.Machine.execTwinSilent t s
  | .hbPathLost t p => Sys2Proof.Machine.execHbPathLost t p s
  | .hbPathRestored t p => Sys2Proof.Machine.execHbPathRestored t p s
  | .twinSelfTestDone t => Sys2Proof.Machine.execTwinSelfTestDone t s
  | .restartFail t => Sys2Proof.Machine.execRestartFail t s
  | .cutIn t => Sys2Proof.Machine.execCutIn t s
  | .probationEnd t => Sys2Proof.Machine.execProbationEnd t s
  | .autoRestart t => Sys2Proof.Machine.execAutoRestart t s
  | .itemCompletion => Sys2Proof.Machine.execItemCompletion s
  | .compRd v => Sys2Proof.Machine.execCompRd v s
  | .bootSelfTestDone passA passB => Sys2Proof.Machine.execBootSelfTestDone passA passB s
  | .twinBootTimeout t => Sys2Proof.Machine.execTwinBootTimeout t s
  | .memberParentMet x => Sys2Proof.Machine.execMemberParentMet x s
  | .onDelayEnd x => Sys2Proof.Machine.execOnDelayEnd x s
  | .memberQualified x => Sys2Proof.Machine.execMemberQualified x s
  | .memberQualTimeout x => Sys2Proof.Machine.execMemberQualTimeout x s
  | .memberLossHold x => Sys2Proof.Machine.execMemberLossHold x s
  | .offDelayEnd x => Sys2Proof.Machine.execOffDelayEnd x s
  | .offConfirmed x => Sys2Proof.Machine.execOffConfirmed x s
  | .offFail x => Sys2Proof.Machine.execOffFail x s
  | .fhFailedClear mask => Sys2Proof.Machine.execFhFailedClear mask s
  | .drainingEnd => Sys2Proof.Machine.execDrainingEnd s
  | .offDwellEnd => Sys2Proof.Machine.execOffDwellEnd s
  | .shelfOn => Sys2Proof.Machine.execShelfOn s
  | .shelfOff => Sys2Proof.Machine.execShelfOff s
  | .pbShortPress => Sys2Proof.Machine.execPbShortPress s
  | .pbLongPress => Sys2Proof.Machine.execPbLongPress s
  | .safeNAssert => Sys2Proof.Machine.execSafeNAssert s
  | .mrNReset => Sys2Proof.Machine.execMrNReset s
  | .vauxWarn => Sys2Proof.Machine.execVauxWarn s
  | .vauxMin below1v8 => Sys2Proof.Machine.execVauxMin below1v8 s
  | .vauxReturn => Sys2Proof.Machine.execVauxReturn s
  | .resetRelease strap0 strap1 votes => Sys2Proof.Machine.execResetRelease strap0 strap1 votes s
  | .holdLow => Sys2Proof.Machine.execHoldLow s
  | .autoOn => Sys2Proof.Machine.execAutoOn s
  | .rateCheckEnable => Sys2Proof.Machine.execRateCheckEnable s
  | .thermalHoldEnd n => Sys2Proof.Machine.execThermalHoldEnd n s
  | .writeHoldEnd => Sys2Proof.Machine.execWriteHoldEnd s
  | .imagePageWriteDone t => Sys2Proof.Machine.execImagePageWriteDone t s
  | .peatCtrl v => Sys2Proof.Machine.execPeatCtrl v s
  | .peatRd v => Sys2Proof.Machine.execPeatRd v s
  | .peatReadReady => Sys2Proof.Machine.execPeatReadReady s
  | .crustProgramDone votes => Sys2Proof.Machine.execCrustProgramDone votes s
  | .twBlock n window bytes pec => Sys2Proof.Machine.execTwBlock n window bytes pec s
  | .regWrite n page off words => Sys2Proof.Machine.execRegWrite n page off words s
  | .regRead n page off k => Sys2Proof.Machine.execRegRead n page off k s
  | .seqItem n tag seq code args => Sys2Proof.Machine.execSeqItem n tag seq code args s
  | .replyRead n => Sys2Proof.Machine.execReplyRead n s
  | .windowTimeout n => Sys2Proof.Machine.execWindowTimeout n s
  | .sclHeldTimeout n => Sys2Proof.Machine.execSclHeldTimeout n s
  | .sdaReleased n => Sys2Proof.Machine.execSdaReleased n s
  | .alertResponse n => Sys2Proof.Machine.execAlertResponse n s
  | .pmPage n w => Sys2Proof.Machine.execPmPage n w s
  | .pmOperation n w => Sys2Proof.Machine.execPmOperation n w s
  | .pmClearFaults n => Sys2Proof.Machine.execPmClearFaults n s
  | .pmWriteProtect n w => Sys2Proof.Machine.execPmWriteProtect n w s
  | .pmCapability n => Sys2Proof.Machine.execPmCapability n s
  | .pmVoutMode n => Sys2Proof.Machine.execPmVoutMode n s
  | .pmVoutCommand n w => Sys2Proof.Machine.execPmVoutCommand n w s
  | .pmStatusByte n => Sys2Proof.Machine.execPmStatusByte n s
  | .pmStatusWord n => Sys2Proof.Machine.execPmStatusWord n s
  | .pmStatusVout n => Sys2Proof.Machine.execPmStatusVout n s
  | .pmStatusIout n => Sys2Proof.Machine.execPmStatusIout n s
  | .pmStatusInput n => Sys2Proof.Machine.execPmStatusInput n s
  | .pmStatusTemperature n => Sys2Proof.Machine.execPmStatusTemperature n s
  | .pmStatusCml n => Sys2Proof.Machine.execPmStatusCml n s
  | .pmReadVin n => Sys2Proof.Machine.execPmReadVin n s
  | .pmReadIin n => Sys2Proof.Machine.execPmReadIin n s
  | .pmReadVout n => Sys2Proof.Machine.execPmReadVout n s
  | .pmReadIout n => Sys2Proof.Machine.execPmReadIout n s
  | .pmReadTemperature1 n => Sys2Proof.Machine.execPmReadTemperature1 n s
  | .pmReadPout n => Sys2Proof.Machine.execPmReadPout n s
  | .pmRevision n => Sys2Proof.Machine.execPmRevision n s
  | .pmMfrId n => Sys2Proof.Machine.execPmMfrId n s
  | .pmMfrModel n => Sys2Proof.Machine.execPmMfrModel n s
  | .pmMfrRevision n => Sys2Proof.Machine.execPmMfrRevision n s
  | .pmMfrShelf n => Sys2Proof.Machine.execPmMfrShelf n s
  | .pmMfrBudget n => Sys2Proof.Machine.execPmMfrBudget n s
  | .pmMfrFaultPages n => Sys2Proof.Machine.execPmMfrFaultPages n s
  | .openItem src seq => Sys2Proof.Machine.execOpenItem src seq s
  | .clearStatus => Sys2Proof.Machine.execClearStatus s
  | .clearCounter => Sys2Proof.Machine.execClearCounter s
  | .roleSwap => Sys2Proof.Machine.execRoleSwap s
  | .twinRestart => Sys2Proof.Machine.execTwinRestart s
  | .crustWrite => Sys2Proof.Machine.execCrustWrite s
  | .standby => Sys2Proof.Machine.execStandby s
  | .standbyWake c => Sys2Proof.Machine.execStandbyWake c s
  | .hostNotify n acked => Sys2Proof.Machine.execHostNotify n acked s
  | .hnFail n => Sys2Proof.Machine.execHnFail n s
  | .poll c x answer => Sys2Proof.Machine.execPoll c x answer s
  | .twRetry c answer => Sys2Proof.Machine.execTwRetry c answer s
  | .arbLost n byte bit => Sys2Proof.Machine.execArbLost n byte bit s
  | .arbCond n => Sys2Proof.Machine.execArbCond n s
  | .arbRetry n => Sys2Proof.Machine.execArbRetry n s
  | .controllerSclTimeout c => Sys2Proof.Machine.execControllerSclTimeout c s
  | .busRecovery c b => Sys2Proof.Machine.execBusRecovery c b s
  | .mienoLinkUp p => Sys2Proof.Machine.execMienoLinkUp p s
  | .mienoLinkDown p => Sys2Proof.Machine.execMienoLinkDown p s
  | .linkFrame p t1 t2 t3 t4 neighbour => Sys2Proof.Machine.execLinkFrame p t1 t2 t3 t4 neighbour s
  | .duplicateWindowReset src => Sys2Proof.Machine.execDuplicateWindowReset src s
  | .budget p f => Sys2Proof.Machine.execBudget p f s
  | .advert p f => Sys2Proof.Machine.execAdvert p f s
  | .timeFrame p f rx => Sys2Proof.Machine.execTimeFrame p f rx s
  | .mienoHeartbeat p f => Sys2Proof.Machine.execMienoHeartbeat p f s
  | .idConflictClear => Sys2Proof.Machine.execIdConflictClear s
  | .digest p f => Sys2Proof.Machine.execDigest p f s
  | .fabCommand p f => Sys2Proof.Machine.execFabCommand p f s
  | .commandReply p f => Sys2Proof.Machine.execCommandReply p f s
  | .sporeChunk p f => Sys2Proof.Machine.execSporeChunk p f s
  | .peatReq p f => Sys2Proof.Machine.execPeatReq p f s
  | .peatData p f => Sys2Proof.Machine.execPeatData p f s
  | .unknownFrame p f => Sys2Proof.Machine.execUnknownFrame p f s
  | .mienoHeartbeatTx => Sys2Proof.Machine.execMienoHeartbeatTx s
  | .timeHold => Sys2Proof.Machine.execTimeHold s
  | .timeGo v => Sys2Proof.Machine.execTimeGo v s
  | .tsetHoldExpiry => Sys2Proof.Machine.execTsetHoldExpiry s
  | .digestTx => Sys2Proof.Machine.execDigestTx s
  | .allocate => Sys2Proof.Machine.execAllocate s
  | .shareIncrease => Sys2Proof.Machine.execShareIncrease s
  | .memberSilent id => Sys2Proof.Machine.execMemberSilent id s
  | .rowExt v => Sys2Proof.Machine.execRowExt v s
  | .extHoldExpiry => Sys2Proof.Machine.execExtHoldExpiry s
  | .fabGo v => Sys2Proof.Machine.execFabGo v s
  | .fabResend => Sys2Proof.Machine.execFabResend s
  | .timedItemExecute => Sys2Proof.Machine.execTimedItemExecute s
  | .chStart c => Sys2Proof.Machine.execChStart c s
  | .chAbort c => Sys2Proof.Machine.execChAbort c s
  | .chPause c => Sys2Proof.Machine.execChPause c s
  | .chResume c => Sys2Proof.Machine.execChResume c s
  | .sessionOpen => Sys2Proof.Machine.execSessionOpen s
  | .sessionClose => Sys2Proof.Machine.execSessionClose s
  | .chunkCtl p v => Sys2Proof.Machine.execChunkCtl p v s
  | .sessionIdleTimeout => Sys2Proof.Machine.execSessionIdleTimeout s
  | .sporeCommit otherLoad => Sys2Proof.Machine.execSporeCommit otherLoad s
  | .activate => Sys2Proof.Machine.execActivate s
  | .compareSuspend => Sys2Proof.Machine.execCompareSuspend s
  | .activationSwitch => Sys2Proof.Machine.execActivationSwitch s
  | .managementPauseEnd => Sys2Proof.Machine.execManagementPauseEnd s
  | .compareResume => Sys2Proof.Machine.execCompareResume s
  | .confirm => Sys2Proof.Machine.execConfirm s
  | .rollback => Sys2Proof.Machine.execRollback s
  | .confirmTimerExpiry => Sys2Proof.Machine.execConfirmTimerExpiry s
  | .snapHold p n v => Sys2Proof.Machine.execSnapHold p n v s
  | .holdExpired n => Sys2Proof.Machine.execHoldExpired n s
  | .testenHigh => Sys2Proof.Machine.execTestenHigh s
  | .supplyOutOfRange x => Sys2Proof.Machine.execSupplyOutOfRange x s
  | .supplyInRange x => Sys2Proof.Machine.execSupplyInRange x s
  | .safeNRelease => Sys2Proof.Machine.execSafeNRelease s
  | .vgdOkRise => Sys2Proof.Machine.execVgdOkRise s
  | .islandUnlock t x => Sys2Proof.Machine.execIslandUnlock t x s
  | .timebaseRelock g => Sys2Proof.Machine.execTimebaseRelock g s

end Sys2Proof.Machine
end

