-- ==== Sys2Proof/Safety.lean ====
section
/-! DEFINITION. The terms in which claims are stated: which parts of the block a command may change, the shape and the canonical
form that every reachable state has, and what counts as a safe run. -/

namespace Sys2Proof.Machine

/-- The parts of the block's state. -/
inductive Part where
  | time | sched | die | regs | stat | ident | sup | rails | units | clusters | runs | inj | cap | sram | sramA | sramB | sramS
  | live | sense | adm | twin | jrn | nv | peat | crust | feedA | feedB | xfer | hs | fh | bbus | therm | twT | twC | upd | mie | dma
deriving DecidableEq, Repr

/-- Two states of the block agree on a part. -/
def Part.same (d e : Dev) : Part → Prop
  | .time => e.time = d.time
  | .sched => e.sched = d.sched
  | .die => e.die = d.die
  | .regs => e.regs = d.regs
  | .stat => e.stat = d.stat
  | .ident => e.ident = d.ident
  | .sup => e.sup = d.sup
  | .rails => e.rails = d.rails
  | .units => e.units = d.units
  | .clusters => e.clusters = d.clusters
  | .runs => e.runs = d.runs
  | .inj => e.inj = d.inj
  | .cap => e.cap = d.cap
  | .sram => e.sram = d.sram
  | .sramA => e.sramA = d.sramA
  | .sramB => e.sramB = d.sramB
  | .sramS => e.sramS = d.sramS
  | .live => e.live = d.live
  | .sense => e.sense = d.sense
  | .adm => e.adm = d.adm
  | .twin => e.twin = d.twin
  | .jrn => e.jrn = d.jrn
  | .nv => e.nv = d.nv
  | .peat => e.peat = d.peat
  | .crust => e.crust = d.crust
  | .feedA => e.feedA = d.feedA
  | .feedB => e.feedB = d.feedB
  | .xfer => e.xfer = d.xfer
  | .hs => e.hs = d.hs
  | .fh => e.fh = d.fh
  | .bbus => e.bbus = d.bbus
  | .therm => e.therm = d.therm
  | .twT => e.twT = d.twT
  | .twC => e.twC = d.twC
  | .upd => e.upd = d.upd
  | .mie => e.mie = d.mie
  | .dma => e.dma = d.dma

/-- From `d` to `e` no part of the block changes but those listed. -/
def Dev.onlyIn (l : List Part) (d e : Dev) : Prop := ∀ p : Part, p ∉ l → p.same d e

/-- From `s` to `t` nothing changes but the listed parts of the block: the snapshot, the held views and the queue stand. -/
def State.onlyIn (l : List Part) (s t : State) : Prop :=
  t.snap = s.snap ∧ t.held0 = s.held0 ∧ t.held1 = s.held1 ∧ t.pending = s.pending ∧ Dev.onlyIn l s.d t.d

/-- The block has its fixed number of everything: 4 rails, 64 units, 8 clusters, 4 output hot-swaps, 32 members, 4 modules, 2 target
and 4 controller ports, 16 channels, 16 step ports, 256 loads, 17 precision channels, 32 auxiliary inputs, 20 monitors, 32
sources. -/
def Dev.shape (d : Dev) : Bool :=
  d.rails.length == 4 && d.units.length == 64 && d.clusters.length == 8 && d.hs.length == 4 && d.fh.members.length == 32 &&
    d.bbus.length == 4 && d.twT.length == 2 && d.twC.length == 4 && d.dma.length == 16 && d.adm.ports.length == 16 &&
    d.adm.loads.length == 256 && d.sense.pre.length == 17 && d.sense.aux.inputs.length == 32 && d.sense.intmon.length == 20 &&
    d.jrn.sources.length == 32

/-- The byte memories have their canonical form: the SRAM of the computing twins, what a twin out of operation holds, the SRAM of
die S and both copies of the MRAM. -/
def Dev.canon (d : Dev) : Bool :=
  Memory.wf d.sram && Memory.wf (d.sramA.getD []) && Memory.wf (d.sramB.getD []) && Memory.wf d.sramS && Memory.wf d.nv.a &&
    Memory.wf d.nv.b

/-- The register values in force have their canonical form: addresses rising, none equal to its reset value. -/
def Dev.regsCanon (d : Dev) : Bool := forceWf d.regs.force 0

/-- A run is safe while no step of it stops: every step answers a next state. -/
def State.runsOn (s : State) : Prop := ∃ t, step s = .next t

/-- An occurrence of a status bit with a cause code, and the status words of every other page as they were. -/
def Dev.recordedC (d e : Dev) (pg bit code : Nat) : Prop :=
  e.statOf pg = (d.statOf pg).occur bit code ∧ ∀ q, q ≠ pg → e.statOf q = d.statOf q

/-- An occurrence of a status bit, and the status words of every other page as they were. -/
def Dev.recorded (d e : Dev) (pg bit : Nat) : Prop := d.recordedC e pg bit (causeOf pg bit)

/-- Two lists have the same length and agree everywhere but at `i`. -/
def sameBut {α : Type} (i : Nat) (l m : List α) : Prop := m.length = l.length ∧ ∀ j, j ≠ i → m[j]? = l[j]?

/-- Command `c` completes in state `s`: exec answers a next state, in which at most the parts `l` of the block differ and the
block has `P`. -/
def Completes (c : Instr) (s : State) (l : List Part) (P : Dev → Prop) : Prop :=
  ∃ t, exec c s = .next t ∧ State.onlyIn l s t ∧ P t.d

/-- Every PWM output is in tri-state without a pulse under way, and no output hot-swap is driven (R33, R345). -/
def Dev.outputsStopped (d : Dev) : Prop :=
  (∀ u ∈ d.units, u.triOn = true ∧ u.pulse = []) ∧ ∀ h ∈ d.hs, h.drive = false

/-- Item `w` of command code `code` is at the head of the queue of accepted work and has not begun (R314). -/
def Dev.runnable (d : Dev) (code : Nat) (w : WorkItem) : Prop :=
  d.head = some w ∧ w.code = code ∧ w.result = none ∧ w.started = false ∧ w.timed = none

/-- The journal state in which only the head item `w` differs: its execution has ended with a status and a result (R319). -/
def Dev.ended (d : Dev) (w : WorkItem) (status result : Nat) : JrnSt :=
  { d.jrn with queue := { w with result := some (status, result) } :: d.jrn.queue.drop 1 }

/-- A power-up has begun (R333): every member in the sequence waits, nothing is latched, and the shelf is POWERING_UP, or UP where
no member is in the sequence. -/
def Dev.startsUp (d e : Dev) : Prop :=
  e.fh.onLatch = false ∧ e.fh.haltSrc = 0 ∧ (e.fh.shelf = .poweringUp ∨ e.fh.shelf = .up) ∧
    ((∃ i, i < 32 ∧ d.inSeq i = true) → e.fh.shelf = .poweringUp) ∧
    ∀ i, i < 32 → d.inSeq i = true → (e.mbr i).st = .waiting ∧ (e.mbr i).cause = 0 ∧ (e.mbr i).blk = none

/-- The members that a power-down stops (R334): one that is being stopped comes first, then those that are on, in reverse enable
order, the one in OFF_DELAY before the others. -/
def Dev.toStop (d : Dev) : List Nat :=
  let on := d.fh.order.reverse.filter fun i => (d.mbr i).out
  (d.fh.stops.filter fun i => (d.mbr i).st == .stopping) ++ (on.filter fun i => (d.mbr i).st == .offDelay) ++
    on.filter fun i => (d.mbr i).st != .offDelay

/-- A power-down has begun (R334): the first member to stop is in OFF_DELAY, or was already being stopped; with none to stop the
shelf is DOWN and every member of the sequence OFF. -/
def Dev.startsDown (d e : Dev) : Prop :=
  if d.toStop = [] then e.fh.shelf = .down ∧ ∀ i, i < 32 → d.inSeq i = true → (e.mbr i).st = .off ∧ (e.mbr i).out = false
  else e.fh.shelf = .poweringDown ∧ e.fh.stops = d.toStop ∧
    ∀ i, d.toStop.head? = some i → (e.mbr i).st = .offDelay ∨ (e.mbr i).st = .stopping

/-- The shelf is HALTED with every rail off and every member of the rails in the sequence OFF (R344). -/
def Dev.allHalted (d e : Dev) (src : Nat) : Prop :=
  e.fh.shelf = .halted ∧ e.fh.haltSrc = src ∧ e.fh.onLatch = false ∧
    ∀ r, r < 4 → (e.rail r).st = .off ∧ (e.rail r).gateOn = false ∧
      (d.inSeq r = true → (e.mbr r).st = .off ∧ (e.mbr r).out = false)

/-- Outside the place of the next peat record both copies of the MRAM read as before (R383, R388). -/
def Dev.peatOnly (d e : Dev) : Prop :=
  ∀ a, (a < peatAddr d.peat.next ∨ peatAddr d.peat.next + 512 ≤ a) →
    memRead e.nv.a a = memRead d.nv.a a ∧ memRead e.nv.b a = memRead d.nv.b a

/-- The registers whose write has an effect of its own beyond the value written (R28, R150, R234, R319, R339, R362, R387, R389,
R450, R456, R445, R466, R500, R521). -/
def specialReg (pg off : Nat) : Bool :=
  decide (off < 0x40) || isChunkReg pg off ||
    [(0x00, 0x58), (0x00, 0x5C), (0x80, 0x4C), (0xE0, 0x8C), (0xE0, 0xA0), (0xA1, 0x4C), (0xA4, 0x88), (0xA8, 0x134),
     (0xA8, 0x138), (0xB1, 0x48), (0xB1, 0x8C), (0xC0, 0x140), (0xC1, 0x48), (0xC2, 0x5C), (updPg, 0xC8)].contains (pg, off) ||
    (pg == 0xC8 && ((decide (0x2E0 ≤ off) && decide (off < 0x300)) || (decide (0x100 ≤ off) && off % 0x20 == 4)))

/-- Every register but the one at an address keeps its value in force, and every shadow copy and deferred write stands. -/
def Dev.onlyReg (d e : Dev) (a : Nat) : Prop :=
  (∀ pg off, regAddr pg off ≠ a → e.reg pg off = d.reg pg off) ∧ e.regs.shadow = d.regs.shadow ∧
    e.regs.deferred = d.regs.deferred ∧ e.regs.commits = d.regs.commits

/-- Twin `t` has been quarantined (R297, R303, R307): counted, and in RESTART, or in OUT where the quarantines within
QUAR_WINDOW exceed QUAR_MAX; where it was ACTIVE beside a twin that sends copies, that one is ACTIVE now. -/
def Dev.quarantined (d e : Dev) (t : Twin) : Prop :=
  let x := d.twinOf t
  let o := d.twinOf (otherTwin t)
  let n := 1 + (x.quarAt.filter fun k => decide (d.time.epoch < k + d.fld 0xA0 0x40 31 16)).length
  (e.twinOf t).quar = inc8 x.quar ∧ (e.twinOf t).st = (if d.fld 0xA0 0x40 15 8 < n then .out else .restart) ∧
    (e.twinOf (otherTwin t)).st = if x.st = .active ∧ o.st.running = true then .active else o.st

/-- A change of UPD_STATE sets bit 2 of the Host Notify summary of every target port that sends it; nothing changes there where
the state stays (R421, R513). -/
def Dev.updNotified (d e : Dev) : Prop :=
  if e.upd.st = d.upd.st then e.twT = d.twT
  else ∀ n, n < 2 → e.twt n = if d.flag (0xB8 + n) 0x40 1 then { d.twt n with hnPend := (d.twt n).hnPend ||| 4 } else d.twt n

/-- Target port `n` has counted one block, driven the bytes `l` and taken its base address at the STOP; the other port stands. -/
def Dev.served (d e : Dev) (n : Nat) (l : List Byte) : Prop :=
  e.twt n = { d.twt n with blocks := satInc 65535 (d.twt n).blocks, tx := some l, base := d.twBase n } ∧ sameBut n d.twT e.twT

/-- Target port `n` has counted one block and one error, did not acknowledge, and recorded a bit of its page; the other port
stands. -/
def Dev.turnedAway (d e : Dev) (n bit : Nat) : Prop :=
  let t := d.twt n
  e.twt n = { t with blocks := satInc 65535 t.blocks, errors := satInc 65535 t.errors, tx := none, base := d.twBase n } ∧
    sameBut n d.twT e.twT ∧ d.recorded e (twtPg n) bit

/-- The PMBus reads of port `n` with the command code and the data bytes of each (R411, R413), from the reply table `d` and the rail `r` of PAGE. -/
def pmReads (n : Fin 2) (d : Dev) (r : Nat) : List (Instr × Nat × List Byte) :=
  [(.pmPage n none, 0x00, [BitVec.ofNat 8 r]), (.pmOperation n none, 0x01, byteOf (d.pmOperation r)),
   (.pmWriteProtect n none, 0x10, byteOf (d.fld (twtPg n) 0x40 15 8)), (.pmCapability n, 0x19, [0xD0#8]), (.pmVoutMode n, 0x20, [0x14#8]),
   (.pmVoutCommand n none, 0x21, wordOf (linear16 73 (signed 32 (d.cfgRead (railPg r) 0x44)))),
   (.pmStatusByte n, 0x78, byteOf (d.pmStatusByte n r)), (.pmStatusWord n, 0x79, wordOf (d.pmStatusWord n r)),
   (.pmStatusVout n, 0x7A, byteOf (b2n (d.railOv r) * 128 + b2n (d.railUv r) * 16)),
   (.pmStatusIout n, 0x7B, byteOf (b2n (d.railOc r) * 128)), (.pmStatusInput n, 0x7C, byteOf d.pmInput),
   (.pmStatusTemperature n, 0x7D, byteOf d.pmTemperature), (.pmStatusCml n, 0x7E, byteOf (d.pmCml n)),
   (.pmReadVin n, 0x88, wordOf (sigLinear 74 (d.pre 4).avg)), (.pmReadIin n, 0x89, wordOf (sigLinear 75 d.pmIin)),
   (.pmReadVout n, 0x8B, wordOf (linear16 76 (d.rail r).vAvg)), (.pmReadIout n, 0x8C, wordOf (sigLinear 77 (d.rail r).iAvg)),
   (.pmReadTemperature1 n, 0x8D, wordOf (d.pmTemp r)),
   (.pmReadPout n, 0x96, wordOf (linear11 78 ((d.rail r).vAvg * (d.rail r).iAvg) (2 ^ 32))), (.pmRevision n, 0x98, [0x33#8]),
   (.pmMfrId n, 0x99, blockOf (strBytes "RINTIDEX")), (.pmMfrModel n, 0x9A, blockOf (strBytes "SBZ4064")),
   (.pmMfrRevision n, 0x9B, blockOf (strBytes "B1")), (.pmMfrShelf n, 0xD0, wordOf (d.roBlock 0xA4 0x80 % 65536)),
   (.pmMfrBudget n, 0xD1, blockOf (wordOf (sigLinear 79 d.pSh) ++ wordOf (sigLinear 80 d.led.row))),
   (.pmMfrFaultPages n, 0xD2, blockOf d.pmFaultPages)]

/-- The boot count that wear ring 0 holds: its value in force, or 0 where there is none (R318, R379). -/
def Dev.ringCount (d : Dev) : Nat :=
  let l := d.ringSlots 0
  match latestSlot l (slotForce l) with
  | none => 0
  | some f => leNat ((slotValue l f.1 f.2).take 4)

/-- The block that a read on controller port `c` sends (R423): the address for a write, the command code, the address for a read. -/
def readBlk (c addr cmd : Nat) : OutBlock :=
  ⟨0x12 + c, [BitVec.ofNat 8 (2 * addr), BitVec.ofNat 8 cmd, BitVec.ofNat 8 (2 * addr + 1)], true⟩

/-- The command that a frame arriving on a port is (R436): its kind chooses it; a LINK frame has its own command. -/
def frameCmd (p : MPort) (f : MFrame) (rx : Int) : Instr :=
  if !frameKnown f then .unknownFrame p f
  else if f.kind = 1 then .budget p f
  else if f.kind = 2 then .advert p f
  else if f.kind = 3 then .timeFrame p f rx
  else if f.kind = 4 then .mienoHeartbeat p f
  else if f.kind = 5 then .digest p f
  else if f.kind = 6 then .fabCommand p f
  else if f.kind = 7 then .commandReply p f
  else if f.kind = 8 then .sporeChunk p f
  else if f.kind = 9 then .peatReq p f
  else .peatData p f

/-- A decision on request `f` of load `i` is stored in the entry (R178) and, but under VAUX_WARN or a write hold, in the grant journal of both
twins (R180, R317, R347, R367). -/
def Dev.decided (d e : Dev) (i : Nat) (f : StepFrame) (dec c o m : Nat) : Prop :=
  let x := e.load i
  x.lastSeq = reqSeq f ∧ x.seqValid = true ∧ x.earlier = false ∧ x.lastDec = dec ∧ x.lastRamp = c ∧ x.lastMag = m ∧
    x.lastKind = reqKind f ∧
    if d.nvHeld then e.jrn = d.jrn ∧ e.nv = d.nv
    else e.jrn = (d.journalGrant i (reqSeq f) (reqKind f) dec c m o).jrn ∧ e.nv = (d.journalGrant i (reqSeq f) (reqKind f) dec c m o).nv

/-- A frame that arrives on a port is taken by the twins at once: accepted for this device, not of a kind that waits, an entry that
handles its kind in the active image, and nothing that waits before it (R436, R441, R507). -/
def Dev.takesNow (d : Dev) (p : MPort) (f : MFrame) : Prop :=
  frameKnown f = true ∧ (d.receive p f none).2 = true ∧ d.kindWaits f.kind = false ∧ d.kindFires f.kind = true ∧
    (d.mie.rxBuf.all fun x => !d.kindFires x.2.kind) = true

/-- A frame of this device waits on each port for sending, RING to match, with the next FSEQ (R435, R437). -/
def Dev.sends (d e : Dev) (kind : Nat) (bcast : Bool) (dst : Nat) (payload : List Byte) : Prop :=
  e.mie.fseq = (d.mie.fseq + 1) % 65536 ∧
    ∀ p, ∃ x : TxFrame, (e.mport p).ownQ = (d.mport p).ownQ ++ [x] ∧ x.own = true ∧ x.f.kind = kind ∧ x.f.bcast = bcast ∧
      x.f.dst = dst ∧ x.f.payload = payload ∧ x.f.src = d.rowId ∧ x.f.fseq = d.mie.fseq ∧ x.f.ring = mpIdx p ∧ x.f.hops = 1023

end Sys2Proof.Machine
end

