-- ==== Sys2Proof/Certificates/Slice0/Obligations.lean ====
section
/-! DEFINITION. The statements for the provers: what each command and each step of the block does. -/

open Sys2Proof Sys2Proof.Machine

/-- For every state and every command at the front of its queue, the step is exec of that command on the state with the rest of the queue; on an empty queue the step answers the state itself. That the block idles on an empty queue is the model's choice (log entry 1). -/
def Obligations.StepRunsFrontCommand : Prop :=
  (∀ (s : State) (c : Instr) (rest : List Instr), s.pending = c :: rest → step s = exec c { s with pending := rest }) ∧
  (∀ s : State, s.pending = [] → step s = .next s)

/-- Every well-formed command answers a next state in every state and leaves the queue as it is; a command answers a fault only where it is not well formed, and none is refused. -/
def Obligations.WellFormedCommandsComplete : Prop :=
  ∀ (c : Instr) (s : State),
    (c.wf = true → ∃ t, exec c s = .next t ∧ t.pending = s.pending) ∧
    (∀ f, exec c s = .fault f → f = .malformedCommand ∧ c.wf = false) ∧ ∀ r, exec c s ≠ .refused r

/-- Where every waiting command is well formed, the step answers a next state whose queue is the rest of the queue. -/
def Obligations.QueueStaysWellFormed : Prop :=
  ∀ s : State, s.pending.all Instr.wf = true →
    ∃ t, step s = .next t ∧ t.pending = s.pending.tail ∧ t.pending.all Instr.wf = true

/-- From every state whose SRAM and whose two MRAM copies have their canonical form, every step that answers a next state gives one in which they have it. -/
def Obligations.MemoriesStayCanonical : Prop :=
  ∀ s t : State, s.d.canon = true → step s = .next t → t.d.canon = true

/-- From every state with 4 rails, 64 units, 8 clusters, 4 output hot-swaps, 32 members, 4 modules, 2 target and 4 controller ports, 16 channels, 16 step ports, 256 loads, 17 precision channels, 32 auxiliary inputs, 20 monitors and 32 sources, every step that answers a next state gives one with them. -/
def Obligations.ShapeIsKept : Prop :=
  ∀ s t : State, s.d.shape = true → step s = .next t → t.d.shape = true

/-- From every state whose listed register values have rising addresses and differ from their reset values, every step that answers a next state gives one in which they do: a register that holds its reset value is never listed. -/
def Obligations.RegistersStayCanonical : Prop :=
  ∀ s t : State, s.d.regsCanon = true → step s = .next t → t.d.regsCanon = true

/-- The state after reset has the shape and the canonical forms of the invariants and an empty queue; there twin A is ACTIVE and twin B STANDBY, every rail is OFF with its gate off and every unit in tri-state, both feeds are ABSENT, the shelf is DOWN, no tick has begun, no status bit is set, and a register without a state field of its own reads its reset value. The values the spec gives no reset value for are the model's choice (log entry 27). -/
def Obligations.ResetState : Prop :=
  State.reset.d.canon = true ∧ State.reset.d.shape = true ∧ State.reset.d.regsCanon = true ∧ State.reset.pending = [] ∧
  State.reset.d.twin.a.st = .active ∧ State.reset.d.twin.b.st = .standby ∧
  (∀ r, r < 4 → (State.reset.d.rail r).st = .off ∧ (State.reset.d.rail r).gateOn = false) ∧
  (∀ u ∈ State.reset.d.units, u.triOn = true ∧ u.tri = true) ∧
  State.reset.d.feedA.st = .absent ∧ State.reset.d.feedB.st = .absent ∧ State.reset.d.fh.shelf = .down ∧
  State.reset.d.time.started = false ∧ (∀ pg, State.reset.d.status pg = 0) ∧
  ∀ pg off, State.reset.d.reg pg off = resetOf pg off

/-- TICK and FROND_BOUNDARY with operands that do not have the number of words of their frame or measurement, and ACTUATION_FRAME with other than 113 words, are no commands of the table and fault by name in every state. That such a term faults is the model's choice (log entry 28). -/
def Obligations.MalformedLists : Prop :=
  (∀ (s : State) (i : TickIn), i.wf = false → exec (.tick i) s = .fault .malformedCommand) ∧
  (∀ (s : State) (i : FrondIn), i.wf = false → exec (.frondBoundary i) s = .fault .malformedCommand) ∧
  (∀ (s : State) (t : Twin) (c : Nat) (ws : List Word32), ws.length ≠ 113 →
    exec (.actuationFrame t c ws) s = .fault .malformedCommand)

/-- A TICK of a running block completes in every state: the first one begins the time base, every later one advances TSEQ by 1 modulo 2^24; the boundary is due after it exactly where the tick's phase is 255; the frond number, the snapshot and its holds stand. Where reset is asserted, standby is in force or the boundary is still to be taken, no tick runs and nothing changes (log entry 7). -/
def Obligations.TickAdvancesTime : Prop :=
  (∀ (s : State) (i : TickIn), i.wf = true → s.d.sup.inReset = false → s.d.sup.standby = false → s.d.time.frondDue = false →
    ∃ t, exec (.tick i) s = .next t ∧ t.snap = s.snap ∧ t.held0 = s.held0 ∧ t.held1 = s.held1 ∧ t.pending = s.pending ∧
      t.d.time.started = true ∧ t.d.time.frond = s.d.time.frond ∧
      t.d.time.tseq = (if s.d.time.started then (s.d.time.tseq + 1) % 2 ^ 24 else s.d.time.tseq) ∧
      (t.d.time.frondDue = true ↔ t.d.time.tseq % 256 = 255) ∧
      t.d.sup = s.d.sup ∧ t.d.ident = s.d.ident ∧ t.d.crust = s.d.crust ∧ t.d.live = s.d.live ∧ t.d.sramS = s.d.sramS ∧
      t.d.twC = s.d.twC) ∧
  (∀ (s : State) (i : TickIn), i.wf = true →
    (s.d.sup.inReset = true ∨ s.d.sup.standby = true ∨ s.d.time.frondDue = true) → exec (.tick i) s = .next s)

/-- At the boundary after the tick of phase 255 FROND_BOUNDARY completes in every state: FROND_NUM advances by 1, the boundary is no longer due, TSEQ stands, and the snapshot is the block as it now is, but for the counts of the holds; a hold asked for is taken, one in force stands, and standby ends both. At any other moment nothing changes. -/
def Obligations.FrondBoundaryTakesSnapshot : Prop :=
  (∀ (s : State) (i : FrondIn), i.wf = true → s.d.time.frondDue = true →
    ∃ t, exec (.frondBoundary i) s = .next t ∧ t.pending = s.pending ∧ t.d.time.frondDue = false ∧
      t.d.time.frond = (s.d.time.frond + 1) % 2 ^ 32 ∧ t.d.time.tseq = s.d.time.tseq ∧ t.d.time.ticks = s.d.time.ticks ∧
      (∃ x, t.d = { t.snap with ident := x }) ∧
      (t.d.sup.standby = true → t.held0 = none ∧ t.held1 = none) ∧
      (t.d.sup.standby = false →
        t.held0 = (if s.d.ident.take0 then some t.snap else s.held0) ∧
        t.held1 = (if s.d.ident.take1 then some t.snap else s.held1))) ∧
  (∀ (s : State) (i : FrondIn), i.wf = true → s.d.time.frondDue = false → exec (.frondBoundary i) s = .next s)

/-- An ACTUATION_FRAME completes: its twin composes the frame from what the tick has computed, and of die S it changes at most the copy kept of that twin. The copy that arrives is the composed frame with the bits of its operand in error; it is kept exactly where its CRC-32, its TSEQ and its arrival by cycle 196 are right, the twin sends frames and no earlier copy of the twin in the tick is kept. A frame as composed, arriving in time in a tick with a 24-bit TSEQ, is always kept. That a command states the bits in error is the model's form (log entry 67). -/
def Obligations.FirstValidCopyIsKept : Prop :=
  (∀ (s : State) (t : Twin) (c : Nat) (errs : List Word32), errs.length = 113 →
    Completes (.actuationFrame t c errs) s
      [.die, .stat, .rails, .units, .clusters, .runs, .sram, .adm, .twin, .jrn, .nv, .bbus] fun e =>
      let ws := List.zipWith (fun w x => w ^^^ x) (e.actFrame t) errs
      (∃ a b, e.die = { s.d.die with copyA := a, copyB := b }) ∧
      (∀ u, u ≠ t → e.copyOf u = s.d.copyOf u) ∧
      e.copyOf t =
        (if s.d.time.started = true ∧ (s.d.twinOf t).st.running = true ∧ actType ws = 0x3A ∧ actCrcOk ws = true ∧
            actTseq ws = s.d.time.tseq ∧ c ≤ 196 ∧ s.d.die.counted = false ∧ s.d.copyOf t = none
        then some ws else s.d.copyOf t) ∧
      ((s.d.time.started = false ∨ s.d.die.judged = true) → e = { s.d with die := e.die })) ∧
  (∀ (s : State) (t : Twin) (c : Nat), s.d.time.started = true → (s.d.twinOf t).st.running = true → s.d.time.tseq < 2 ^ 24 →
    c ≤ 196 → s.d.die.counted = false → s.d.copyOf t = none →
    ∃ u, exec (.actuationFrame t c (List.replicate 113 0)) s = .next u ∧ u.d.copyOf t = some (u.d.actFrame t))

/-- REFCLK_LOSS begins the holdover and records it once; REFCLK_RELOCK ends it at a frond boundary; BEACON_ERROR and ISLAND_UNLOCK record the bit of their twin; a beacon error is reported as SELF_ERR_KIND 0x2 in the frame of the twin where it reports nothing yet, and an unlock clears exactly the lock bit of its island. That the first of several errors of a tick is the one reported is the model's choice (log entry 82). -/
def Obligations.ClockEvents : Prop :=
  (∀ (s : State), s.d.time.holdover = false →
    Completes .refclkLoss s [.time, .stat] fun e => e.time = { s.d.time with holdover := true } ∧ s.d.recorded e 0x01 0) ∧
  (∀ (s : State), s.d.atBoundary = true →
    Completes .refclkRelock s [.time] fun e => e.time = { s.d.time with holdover := false }) ∧
  (∀ (s : State) (t : Twin),
    Completes (.beaconError t) s [.stat, .twin] fun e =>
      s.d.recorded e 0x01 (match t with | .a => 3 | .b => 4) ∧
      e.twinOf t = { s.d.twinOf t with err := if (s.d.twinOf t).err = 0 then 2 else (s.d.twinOf t).err } ∧
      ∀ u, u ≠ t → e.twinOf u = s.d.twinOf u) ∧
  (∀ (s : State) (t : Twin) (i : Fin 11),
    Completes (.islandUnlock t i) s [.time, .stat] fun e =>
      s.d.recorded e 0x01 (match t with | .a => 1 | .b => 2) ∧
      (∀ j : Fin 11,
        bitAt e.time.lockA j = (bitAt s.d.time.lockA j && !(decide (t = .a) && decide (j = i))) ∧
        bitAt e.time.lockB j = (bitAt s.d.time.lockB j && !(decide (t = .b) && decide (j = i)))))

/-- REGION_LOSS, TIMEBASE_UNLOCK, TIMEBASE_RELOCK, CLUSTER_FAULT and UNIT_LOST_RETURN complete: the loss of a region clears its VALID and records its TIMEBASE bit once, a lost cluster leaves service, and in both cases every member unit of the lost clusters is LOST in tri-state, its LOST bit is recorded and its cluster waits a full frond; the relock makes the region valid and forgets its stage readings; the loss of G1 also ends the judgement of its switches; the return takes the LOST units of a cluster that has been valid for a full frond to IDLE in tri-state, or to FAULT where a fault of the unit waits for its clear (the model's choice, log entry 41), makes a faulted cluster valid again so that its full frond begins, and does nothing to a cluster whose full frond still runs. Everything in no listed part stands. That the event also tells the end of a cluster's fault is the model's reading (log entry 8). -/
def Obligations.RegionsAndClusters : Prop :=
  (∀ (s : State) (g : Region) (c : Instr), c ∈ [Instr.regionLoss g, Instr.timebaseUnlock g] → s.d.shape = true →
    s.d.regionValid g = true →
    Completes c s [.adm, .stat, .clusters, .inj, .fh, .die, .units, .rails, .xfer] fun e =>
      e.xfer = (if g = .g1 then { s.d.xfer with judge := false, g1Good := 0 } else s.d.xfer) ∧
      e.regionValid g = false ∧ (∀ h, h ≠ g → e.regionValid h = s.d.regionValid h) ∧
      e.statOf 0x70 = (s.d.statOf 0x70).occur (timebaseBit g) (causeOf 0x70 (timebaseBit g)) ∧
      (∀ n, n < 64 → inRegion g (n / 8) = true →
        e.statOf (unitPg n) = (s.d.statOf (unitPg n)).occur 4 5 ∧
        (s.d.memberOf n ≠ none → (e.unit n).st = .lost ∧ (e.unit n).tri = true) ∧
        (s.d.memberOf n = none → e.unit n = s.d.unit n)) ∧
      ∀ k, k < 8 → if inRegion g k then (e.cluster k).goodFronds = 0 else e.cluster k = s.d.cluster k) ∧
  (∀ (s : State) (g : Region), s.d.shape = true → s.d.vana g = true → s.d.vanaLost g = false → s.d.regionValid g = false →
    Completes (.timebaseRelock g) s [.die, .units, .therm, .sense] fun e =>
      e.regionValid g = true ∧ (∀ h, h ≠ g → e.regionValid h = s.d.regionValid h) ∧
      (∀ n, n < 64 → e.unit n = if inRegion g (n / 8) then { s.d.unit n with temp := none } else s.d.unit n) ∧
      e.sense = if g = .g0 then { s.d.sense with pre := s.d.sense.pre.map fun p => { p with metSince := s.d.now } } else s.d.sense) ∧
  (∀ (s : State) (k : Fin 8), s.d.shape = true →
    Completes (.clusterFault k) s [.adm, .stat, .clusters, .inj, .fh, .die, .units, .rails] fun e =>
      (∀ j : Fin 8, e.die.clusterOk.getLsbD j = (s.d.die.clusterOk.getLsbD j && decide (j ≠ k))) ∧
      (∀ j, j < 8 →
        e.statOf (unitPg (8 * k + j)) = (s.d.statOf (unitPg (8 * k + j))).occur 4 5 ∧
        (s.d.memberOf (8 * k + j) ≠ none → (e.unit (8 * k + j)).st = .lost ∧ (e.unit (8 * k + j)).tri = true)) ∧
      (e.cluster k).goodFronds = 0 ∧ ∀ j, j < 8 → j ≠ k.val → e.cluster j = s.d.cluster j) ∧
  (∀ (s : State) (k : Fin 8), s.d.shape = true → s.d.lostReturn k = true →
    Completes (.unitLostReturn k) s [.units] fun e =>
      (∀ n, n < 64 → n / 8 = k.val → (s.d.unit n).st = .lost → (e.unit n).st = s.d.backState n ∧ (e.unit n).tri = true) ∧
      ∀ n, n < 64 → (n / 8 ≠ k.val ∨ (s.d.unit n).st ≠ .lost) → e.unit n = s.d.unit n) ∧
  (∀ (s : State) (k : Fin 8), s.d.shape = true → s.d.die.clusterOk.getLsbD k = false →
    Completes (.unitLostReturn k) s [.die, .clusters] fun e =>
      (∃ b, e.die = { s.d.die with clusterOk := b }) ∧
      (∀ j : Fin 8, e.die.clusterOk.getLsbD j = (s.d.die.clusterOk.getLsbD j || decide (j = k))) ∧
      e.cluster k = { s.d.cluster k with goodFronds := 0 } ∧ sameBut k.val s.d.clusters e.clusters) ∧
  (∀ (s : State) (k : Fin 8), s.d.die.clusterOk.getLsbD k = true → s.d.lostReturn k = false →
    exec (.unitLostReturn k) s = .next s)

/-- SOFT_START_DONE on a rail whose reference has reached its target puts the rail, and only that, in REGULATE, and where no thermal shed waits for the rail it changes no unit; SOFT_STOP_DONE on a rail whose reference has reached 0 V puts it in OFF with its gate off and its members in tri-state with duty 0, and changes no other rail. -/
def Obligations.RailRampEnds : Prop :=
  (∀ (s : State) (r : Fin 4), s.d.shape = true → s.d.rampDone r = true →
    Completes (.softStartDone r) s [.stat, .units, .therm, .rails] fun e =>
      e.rail r = { s.d.rail r with st := .regulate, dwell := 0, shortRun := 0 } ∧ sameBut r.val s.d.rails e.rails ∧
      ((∀ n, n < 64 → s.d.isMember r n = true → nth s.d.therm.shedWait n false = false) →
        e.units = s.d.units ∧ e.stat = s.d.stat ∧ e.therm = s.d.therm)) ∧
  (∀ (s : State) (r : Fin 4), s.d.shape = true → (s.d.rail r).st = .softStop → (s.d.rail r).refU = 0 →
    Completes (.softStopDone r) s [.stat, .inj, .units, .rails] fun e =>
      (e.rail r).st = .off ∧ (e.rail r).gateOn = false ∧ sameBut r.val s.d.rails e.rails ∧
      ∀ n, n < 64 → if s.d.isMember r n then (e.unit n).tri = true ∧ (e.unit n).duty = 0 else e.unit n = s.d.unit n)

/-- SHORT_DETECT, RAIL_OVERLOAD and RAIL_UV, where their count has reached its limit, and RAIL_OV in a tick after the one in which over-voltage was declared complete with the rail in FAULT_WAIT, its gate off and the whole RETRY_DELAY ahead, its own cause recorded on its page, every member unit in tri-state with duty 0, and every other rail and every unit of no member as before. -/
def Obligations.RailTrips : Prop :=
  ∀ (s : State) (r : Fin 4) (c : Instr) (bit : Nat), s.d.shape = true →
    ((c = .shortDetect r ∧ bit = 1 ∧ (s.d.rail r).st = .softStart ∧ 32 ≤ (s.d.rail r).shortRun) ∨
     (c = .railOverload r ∧ bit = 0 ∧ s.d.reached r (s.d.rail r).ovl (s.d.fld (railPg r) 0x58 31 16) = true) ∨
     (c = .railUv r ∧ bit = 3 ∧ s.d.reached r (s.d.rail r).uv (s.d.fld (railPg r) 0x5C 23 16) = true) ∨
     (c = .railOv r ∧ bit = 2 ∧ (s.d.rail r).st.switching = true ∧ (s.d.rail r).ovTrip = true)) →
    Completes c s [.stat, .inj, .fh, .units, .rails] fun e =>
      (e.rail r).st = .faultWait ∧ (e.rail r).gateOn = false ∧ (e.rail r).retryUsed = (s.d.rail r).retryUsed ∧
      (e.rail r).retryLeft = s.d.fld (railPg r) 0x60 15 0 * 256 ∧
      e.statOf (railPg r) = (s.d.statOf (railPg r)).occur bit (bit + 1) ∧ sameBut r.val s.d.rails e.rails ∧
      ∀ n, n < 64 → if s.d.isMember r n then (e.unit n).tri = true ∧ (e.unit n).duty = 0 else e.unit n = s.d.unit n

/-- RAIL_RETRY_END on a rail in FAULT_WAIT whose timer has ended completes with the rail in OFF and no retry counted where BLK_EN is 0 or no request stands, else with one retry counted and the gate on, or waiting for the judgement of region G1, where the retries allow it and two units are usable, else with a retry counted and a new wait for NO_PHASE, and in LATCHED_OFF with RETRY_EXHAUSTED where the retries are used up. RAIL_RETRY_COUNT_RESET after RETRY_DELAY fronds of raw power-good sets the count to 0 and changes nothing else. -/
def Obligations.RailRetry : Prop :=
  (∀ (s : State) (r : Fin 4), s.d.shape = true → (s.d.rail r).st = .faultWait → (s.d.rail r).retryLeft = 0 →
    Completes (.railRetryEnd r) s [.stat, .inj, .fh, .units, .rails] fun e =>
      sameBut r.val s.d.rails e.rails ∧
      (let m := s.d.fld (railPg r) 0x40 19 16
       let x := s.d.rail r
       if s.d.flag (railPg r) 4 0 = false ∨ x.wantOn = false then
         (e.rail r).st = .off ∧ (e.rail r).gateOn = false ∧ (e.rail r).retryUsed = x.retryUsed ∧ e.fh = s.d.fh
       else if x.retryUsed < m ∨ m = 15 then
         (e.rail r).retryUsed = satInc 15 x.retryUsed ∧
         if 2 ≤ (s.d.usableOf r).length then
           (e.rail r).st = .off ∧ (e.rail r).gateOn = ((s.d.rail r).gateOn || s.d.judging) ∧ (e.rail r).wantOn = true ∧ e.stat = s.d.stat ∧ e.units = s.d.units
         else
           (e.rail r).st = .faultWait ∧ (e.rail r).gateOn = false ∧
           (e.rail r).retryLeft = s.d.fld (railPg r) 0x60 15 0 * 256 ∧
           e.statOf (railPg r) = (s.d.statOf (railPg r)).occur 4 5
       else (e.rail r).st = .latchedOff ∧ s.d.recorded e (railPg r) 8 ∧ e.units = s.d.units ∧ e.fh = s.d.fh)) ∧
  (∀ (s : State) (r : Fin 4), s.d.shape = true → 256 * s.d.fld (railPg r) 0x60 15 0 ≤ (s.d.rail r).pgRun →
    Completes (.railRetryCountReset r) s [.rails] fun e =>
      e.rail r = { s.d.rail r with retryUsed := 0 } ∧ sameBut r.val s.d.rails e.rails)

/-- PHASE_SHED, where the shed condition has held for its dwell, marks one active unit of the rail with duty 0 and restarts the dwell: no active unit of the rail is hotter, and where an active unit has no reading the marked one has none; SHED_RAMP takes a marked unit to RAMP with TRI computed, SHED_TRI takes it from RAMP to IDLE with TRI applied; no other unit changes. -/
def Obligations.PhaseShedding : Prop :=
  (∀ (s : State) (r : Fin 4), s.d.shape = true → s.d.shedDue r = true →
    Completes (.phaseShed r) s [.units, .rails] fun e =>
      e.rail r = { s.d.rail r with dwell := 0 } ∧ sameBut r.val s.d.rails e.rails ∧
      ∃ n, n < 64 ∧ s.d.isActive r n = true ∧ (e.unit n).st = .marked ∧ (e.unit n).duty = 0 ∧ sameBut n s.d.units e.units ∧
        ∀ m, m < 64 → s.d.isActive r m = true →
          match (s.d.rankTemp n).2, (s.d.rankTemp m).2 with
          | some x, some y => y < x ∨ (y = x ∧ m ≤ n)
          | some _, none => False
          | none, some _ => True
          | none, none => m ≤ n) ∧
  (∀ (s : State) (n : Fin 64), s.d.shape = true → (s.d.unit n).st = .marked → 1 ≤ (s.d.unit n).since →
    Completes (.shedRamp n) s [.units] fun e =>
      (e.unit n).st = .ramp ∧ (e.unit n).tri = true ∧ (e.unit n).triOn = (s.d.unit n).triOn ∧ sameBut n.val s.d.units e.units) ∧
  (∀ (s : State) (n : Fin 64), s.d.shape = true → (s.d.unit n).st = .ramp → 1 ≤ (s.d.unit n).since →
    Completes (.shedTri n) s [.units] fun e =>
      (e.unit n).st = .idle ∧ (e.unit n).tri = true ∧ (e.unit n).triOn = true ∧ sameBut n.val s.d.units e.units)

/-- BURST_START on a rail with a burst requested sets XP of the first min(XP_COUNT, N) active units from the pointer, advances the pointer by one slot modulo N and changes no other unit; FAST_LIMIT_TRIP with a current above the level of FLIM_TH shows and counts the trip, ends the on-time of that unit alone and drops its extra pulses due before its next period start, and below the level changes nothing; UNIT_OVERLOAD of a member whose count has reached OVL_TICKS records OVL, leaves the unit in FAULT or LOST in tri-state with its count at 0. -/
def Obligations.BurstsAndLimits : Prop :=
  (∀ (s : State) (r : Fin 4), s.d.shape = true → (s.d.rail r).burst = true →
    Completes (.burstStart r) s [.units, .rails] fun e =>
      let act := s.d.activeOf r
      let cnt := min (s.d.fld (railPg r) 0x4C 14 8) act.length
      let pick := (List.range cnt).map fun j => nth act (((s.d.rail r).ptr + j) % act.length) 0
      (e.rail r).burst = false ∧ sameBut r.val s.d.rails e.rails ∧
      (e.rail r).ptr = (if cnt = 0 then (s.d.rail r).ptr else ((s.d.rail r).ptr + 1) % act.length) ∧
      ∀ n, n < 64 → if n ∈ pick then (e.unit n).xp = true ∧ (e.unit n).st = .active else e.unit n = s.d.unit n) ∧
  (∀ (s : State) (n : Fin 64) (uv : Int), s.d.shape = true → (s.d.flimLevel n : Int) < uv →
    Completes (.fastLimitTrip n uv) s [.units] fun e =>
      (e.unit n).flim = true ∧ (e.unit n).flims = satInc 65535 (s.d.unit n).flims ∧ (e.unit n).trip = true ∧
      (∀ p, p ∈ (e.unit n).pulse ↔ p ∈ (s.d.unit n).pulse ∧ 16 * (s.d.unit n).toStart ≤ p) ∧
      (e.unit n).onTime ≤ 16 * (s.d.unit n).age ∧ (e.unit n).st = (s.d.unit n).st ∧ sameBut n.val s.d.units e.units) ∧
  (∀ (s : State) (n : Fin 64) (uv : Int), uv ≤ s.d.flimLevel n → exec (.fastLimitTrip n uv) s = .next s) ∧
  (∀ (s : State) (n : Fin 64), s.d.shape = true → s.d.memberOf n ≠ none → 0 < (s.d.unit n).ovl →
    s.d.fld (unitPg n) 0x44 15 0 ≤ (s.d.unit n).ovl →
    Completes (.unitOverload n) s [.stat, .inj, .fh, .units, .rails] fun e =>
      ((e.unit n).st = if (s.d.unit n).st = .lost then .lost else .fault) ∧ (e.unit n).tri = true ∧ (e.unit n).ovl = 0 ∧
      (e.unit n).duty = 0 ∧ e.statOf (unitPg n) = (s.d.statOf (unitPg n)).occur 0 1)

/-- MEMBER_PARENT_MET takes a waiting member whose parent condition holds to ON_DELAY; ON_DELAY_END turns its output on, gives it the next place in the enable order and takes it to QUALIFYING, or to FAILED with cause REFUSED where its rail refuses the request; MEMBER_QUALIFIED takes a QUALIFYING member, and a FAILED one whose output is still on, to GOOD. No other member changes where nothing follows from it. -/
def Obligations.MembersPowerUp : Prop :=
  (∀ (s : State) (i : Fin 32), s.d.shape = true → s.d.fhRuns = true → (s.d.mbr i).st = .waiting → s.d.parentOk i = true →
    s.d.sup.vauxWarn = false →
    Completes (.memberParentMet i) s [.fh] fun e =>
      e.fh = { s.d.fh with members := e.fh.members } ∧ sameBut i.val s.d.fh.members e.fh.members ∧
      e.mbr i = { s.d.mbr i with st := .onDelay, timer := 0 }) ∧
  (∀ (s : State) (i : Fin 32), s.d.shape = true → (s.d.mbr i).st = .onDelay →
    20 * s.d.fld 0xA4 (mbrOff i + 8) 15 0 ≤ (s.d.mbr i).timer →
    Completes (.onDelayEnd i) s [.stat, .fh, .rails] fun e =>
      let order := s.d.fh.order.filter (· != i.val) ++ [i.val]
      if i.val < 4 ∧ ((s.d.rail i).st = .latchedOff ∨
          ((s.d.rail i).st = .off ∧ ¬ (s.d.flag (railPg i) 4 0 = true ∧ 2 ≤ (s.d.usableOf i).length))) then
        (e.mbr i).st = .failed ∧ (e.mbr i).cause = 5 ∧ (e.mbr i).out = false ∧ bitAt e.fh.failed i = true ∧ e.rails = s.d.rails ∧
        e.statOf 0xA4 = (s.d.statOf 0xA4).occur 0 1
      else
        (e.mbr i).st = .qualifying ∧ (e.mbr i).out = true ∧ (e.mbr i).timer = 0 ∧ e.fh.order = order ∧
        sameBut i.val s.d.fh.members e.fh.members ∧ e.stat = s.d.stat ∧
        (4 ≤ i.val → e.rails = s.d.rails) ∧
        (i.val < 4 → (s.d.rail i).st = .off →
          e.rail i = { s.d.rail i with gateOn := (s.d.rail i).gateOn || s.d.judging, wantOn := true })) ∧
  (∀ (s : State) (i : Fin 32), s.d.shape = true → s.d.fh.shelf ≠ .draining → (s.d.mbr i).st = .qualifying →
    s.d.qualNow i = true →
    Completes (.memberQualified i) s [.fh] fun e =>
      e.mbr i = { s.d.mbr i with st := .good, timer := 0 } ∧ sameBut i.val s.d.fh.members e.fh.members ∧
      e.fh.order = s.d.fh.order ∧ (s.d.fh.shelf ≠ .poweringUp → e.fh.shelf = s.d.fh.shelf)) ∧
  (∀ (s : State) (i : Fin 32), s.d.shape = true → (s.d.mbr i).st = .failed → (s.d.mbr i).out = true → s.d.qualNow i = true →
    Completes (.memberQualified i) s [.fh] fun e =>
      e.mbr i = { s.d.mbr i with st := .good, timer := 0, cause := 0 } ∧ e.fh.order = s.d.fh.order ∧ e.fh.shelf = s.d.fh.shelf ∧
      ∀ j, j < 32 → j ≠ i.val → e.mbr j = s.d.mbr j ∨
        ((s.d.mbr j).st = .blocked ∧ (s.d.mbr j).blk = some i.val ∧ s.d.flag 0xA4 (mbrOff i) 29 = true ∧
          (e.mbr j).st = .waiting))

/-- MEMBER_QUAL_TIMEOUT and MEMBER_LOSS_HOLD record the failure with its cause in FH_FAILED and MEMBER_FAIL and leave the member FAILED with its output on only while its block waits for a retry; OFF_DELAY_END turns the output off and leaves the member STOPPING; a carrying feed whose member so goes off while no other feed can be selected is turned off plainly in a tick whose SUPV entry runs, and a battery module loses its allowance; OFF_CONFIRMED and OFF_FAIL take it out of the order and the stop list, OFF or BLOCKED; FH_FAILED_CLEAR clears exactly the requested bits whose block is neither in FAULT_WAIT nor in LATCHED_OFF, returns those members to WAITING in UP, and shows a refusal. -/
def Obligations.MembersFailAndStop : Prop :=
  (∀ (s : State) (i : Fin 32), s.d.shape = true → i.val ∉ s.d.fh.stops → (s.d.mbr i).st = .qualifying →
    s.d.timeoutOf i ≤ (s.d.mbr i).timer →
    Completes (.memberQualTimeout i) s [.stat, .inj, .fh, .units, .rails, .feedA, .feedB, .xfer, .bbus] fun e =>
      (i.val < 22 ∨ 26 ≤ i.val → e.bbus = s.d.bbus) ∧
      (i.val ≠ 4 → i.val ≠ 5 → e.feedA = s.d.feedA ∧ e.feedB = s.d.feedB ∧ e.xfer = s.d.xfer) ∧
      bitAt e.fh.failed i = true ∧ e.statOf 0xA4 = (s.d.statOf 0xA4).occur 0 1 ∧
      (s.d.fh.shelf ≠ .draining →
        (e.mbr i).st = .failed ∧ (e.mbr i).cause = 1 ∧ (e.mbr i).out = s.d.blockWaits i)) ∧
  (∀ (s : State) (i : Fin 32), s.d.shape = true → i.val ∉ s.d.fh.stops → (s.d.mbr i).st = .lost →
    s.d.fld 0xA4 (mbrOff i) 15 0 ≠ 0xFFFF → 2000 * s.d.fld 0xA4 (mbrOff i) 15 0 ≤ (s.d.mbr i).timer →
    Completes (.memberLossHold i) s [.stat, .inj, .fh, .units, .rails, .feedA, .feedB, .xfer, .bbus] fun e =>
      (i.val < 22 ∨ 26 ≤ i.val → e.bbus = s.d.bbus) ∧
      (i.val ≠ 4 → i.val ≠ 5 → e.feedA = s.d.feedA ∧ e.feedB = s.d.feedB ∧ e.xfer = s.d.xfer) ∧
      bitAt e.fh.failed i = true ∧ e.statOf 0xA4 = (s.d.statOf 0xA4).occur 0 1 ∧ (e.mbr i).st = .failed ∧
      (e.mbr i).cause = 3 ∧ (e.mbr i).out = s.d.blockWaits i ∧ e.fh.shelf = s.d.fh.shelf) ∧
  (∀ (s : State) (i : Fin 32), s.d.shape = true → (s.d.mbr i).st = .offDelay →
    20 * s.d.fld 0xA4 (mbrOff i + 8) 31 16 ≤ (s.d.mbr i).timer →
    Completes (.offDelayEnd i) s [.stat, .inj, .fh, .units, .rails, .feedA, .feedB, .xfer, .bbus] fun e =>
      e.mbr i = { s.d.mbr i with st := .stopping, timer := 0, out := false } ∧
      e.fh = { s.d.fh with members := e.fh.members } ∧ sameBut i.val s.d.fh.members e.fh.members ∧
      (i.val < 4 → e.feedA = s.d.feedA ∧ e.feedB = s.d.feedB ∧ e.xfer = s.d.xfer) ∧
      (6 ≤ i.val → i.val < 22 ∨ 26 ≤ i.val → e = { s.d with fh := e.fh }) ∧
      (∀ m, m < 4 → i.val = 22 + m →
        e = { s.d with fh := e.fh, bbus := e.bbus } ∧ e.bbu m = { s.d.bbu m with allow := 0 } ∧ sameBut m s.d.bbus e.bbus) ∧
      (4 ≤ i.val → i.val < 6 →
        match s.d.carry with
        | none => e = { s.d with fh := e.fh }
        | some c =>
          if s.d.xfer.ran = true ∧ e.feedEn c = false ∧ e.pick = none then
            (e.feed c).cmd = false ∧ (e.feed c).st = (if s.d.feedValid c then .ready else .absent) ∧
            e.feed (otherFeed c) = s.d.feed (otherFeed c) ∧ e.rails = s.d.rails ∧ e.units = s.d.units
          else e.rails = s.d.rails ∧ e.units = s.d.units)) ∧
  (∀ (s : State) (i : Fin 32) (c : Instr), s.d.shape = true → (s.d.mbr i).st = .stopping →
    ((c = .offConfirmed i ∧ s.d.offConfirmed i = true) ∨
     (c = .offFail i ∧ s.d.offConfirmed i = false ∧ s.d.timeoutOf i ≤ (s.d.mbr i).timer)) →
    Completes c s [.stat, .inj, .fh, .units, .rails] fun e =>
      (e.mbr i).out = false ∧ i.val ∉ e.fh.order ∧ i.val ∉ e.fh.stops ∧
      ((e.mbr i).st = .off ∨ ((e.mbr i).st = .blocked ∧ (s.d.mbr i).blk ≠ none ∧ s.d.fh.shelf ≠ .poweringDown)) ∧
      (if c = .offFail i then e.statOf 0xA4 = (s.d.statOf 0xA4).occur 2 3 else e.statOf 0xA4 = s.d.statOf 0xA4)) ∧
  (∀ (s : State) (mask : Word32), s.d.shape = true →
    Completes (.fhFailedClear mask) s [.stat, .inj, .fh, .units, .rails, .feedA, .feedB, .xfer, .bbus] fun e =>
      (∀ i, i < 32 →
        bitAt e.fh.failed i = (bitAt s.d.fh.failed i && (!bitAt mask.toNat i || s.d.blockWaits i || s.d.blockLatched i))) ∧
      (∀ i, i < 32 → bitAt s.d.fh.failed i = true → bitAt mask.toNat i = true →
        s.d.blockWaits i = false → s.d.blockLatched i = false → s.d.fh.shelf = .up → (s.d.mbr i).st = .failed →
        (e.mbr i).st = .waiting ∧ (e.mbr i).out = false ∧ (e.mbr i).cause = 0) ∧
      (e.statOf 0xA4).clearRefused = ((s.d.statOf 0xA4).clearRefused || (List.range 32).any fun i =>
        bitAt s.d.fh.failed i && bitAt mask.toNat i && (s.d.blockWaits i || s.d.blockLatched i)) ∧
      e.fh.shelf = s.d.fh.shelf)

/-- SHELF_ON and SHELF_OFF execute the item at the head: an on request powers up from DOWN, is latched in a power-down, and fails in HALTED or under the thermal block; an off request stops the members in reverse enable order from UP, drains a power-up, and drops a latched request. PB_SHORT_PRESS and PB_LONG_PRESS act as off, on and forced-off requests, DRAINING_END and OFF_DWELL_END go on with the power-down and the latched power-up, and AUTO_ON takes the request of reset at a frond boundary once the boot replay is over. -/
def Obligations.ShelfSequence : Prop :=
  (∀ (s : State) (w : WorkItem), s.d.shape = true → s.d.runnable 3 w →
    Completes .shelfOn s [.jrn, .fh] fun e =>
      if s.d.fh.shelf = .halted then e.jrn = s.d.ended w 2 4 ∧ e.fh = s.d.fh
      else if s.d.stBit 0xA8 10 = true then e.jrn = s.d.ended w 2 s.d.fh.shelf.code ∧ e.fh = s.d.fh
      else e.jrn = s.d.ended w 1 e.fh.shelf.code ∧
        (s.d.fh.shelf = .down → s.d.startsUp e) ∧
        (s.d.fh.shelf = .poweringDown ∨ s.d.fh.shelf = .draining → e.fh = { s.d.fh with onLatch := true }) ∧
        (s.d.fh.shelf = .poweringUp ∨ s.d.fh.shelf = .up → e.fh = s.d.fh)) ∧
  (∀ (s : State) (w : WorkItem), s.d.shape = true → s.d.runnable 4 w →
    Completes .shelfOff s [.jrn, .stat, .inj, .fh, .units, .rails] fun e =>
      e.jrn = s.d.ended w 1 e.fh.shelf.code ∧
      (s.d.fh.shelf = .up → s.d.startsDown e) ∧
      (s.d.fh.shelf = .poweringUp →
        (if s.d.noneQualifying then e.fh.shelf = .poweringDown ∨ e.fh.shelf = .down else e.fh.shelf = .draining) ∧
        ∀ i, i < 32 → (s.d.mbr i).st = .waiting ∨ (s.d.mbr i).st = .onDelay →
          (e.mbr i).st = .off ∨ (e.mbr i).st = .offDelay) ∧
      (s.d.fh.shelf = .poweringDown ∨ s.d.fh.shelf = .draining → e.fh = { s.d.fh with onLatch := false }) ∧
      (s.d.fh.shelf = .down ∨ s.d.fh.shelf = .halted → e.fh = s.d.fh)) ∧
  (∀ (s : State), s.d.shape = true → s.d.fh.ended = true →
    Completes .pbShortPress s [.stat, .inj, .fh, .units, .rails] fun e =>
      e.fh.ended = false ∧
      if s.d.pbEn = false ∨ s.d.fh.safePin = true then e = { s.d with fh := { s.d.fh with ended := false } }
      else (s.d.fh.shelf = .up → s.d.startsDown e) ∧
        (s.d.stBit 0xA8 10 = false → s.d.fh.shelf = .down ∨ s.d.fh.shelf = .halted → s.d.startsUp e) ∧
        (s.d.stBit 0xA8 10 = true → s.d.fh.shelf = .halted → e.fh.shelf = .down ∧ e.fh.haltSrc = 0)) ∧
  (∀ (s : State), s.d.shape = true → s.d.fh.press = true → 62500 ≤ s.d.fh.pressLen → s.d.fh.longDone = false →
    s.d.pbEn = true →
    Completes .pbLongPress s [.stat, .inj, .fh, .units, .rails] fun e =>
      s.d.allHalted e 1 ∧ e.fh.longDone = true ∧ e.statOf 0xA4 = (s.d.statOf 0xA4).occur 3 4 ∧
      e.statOf 0xA5 = (s.d.statOf 0xA5).occur 4 5) ∧
  (∀ (s : State), s.d.shape = true → s.d.fh.shelf = .draining → (s.d.noneQualifying = true ∨ 4000 ≤ s.d.fh.drain) →
    Completes .drainingEnd s [.stat, .inj, .fh, .units, .rails] fun e => s.d.startsDown e) ∧
  (∀ (s : State), s.d.shape = true → s.d.fh.shelf = .down → s.d.fh.onLatch = true →
    20 * s.d.fld 0xA4 0x40 15 0 ≤ s.d.fh.dwell → s.d.stBit 0xA8 10 = false →
    Completes .offDwellEnd s [.fh] fun e => s.d.startsUp e) ∧
  (∀ (s : State), s.d.shape = true → s.d.fh.bootReq = true → s.d.atBoundary = true → s.d.jrn.replayDone = true →
    Completes .autoOn s [.stat, .fh] fun e =>
      e.fh.bootReq = false ∧
      let pb := (s.d.die.sense.map TickIn.pbLow).getD false
      if s.d.flag 0xA4 0x40 31 = false ∨ s.d.fh.shelf = .halted then e = { s.d with fh := { s.d.fh with bootReq := false } }
      else if s.d.fh.safePin = true ∨ pb = true then
        e.fh.shelf = .halted ∧ e.fh.haltSrc = (if s.d.fh.safePin then 2 else 1) ∧ s.d.recorded e 0xA4 3
      else s.d.fh.shelf = .down → s.d.stBit 0xA8 10 = false → s.d.startsUp e)

/-- NO_VALID_COPY_SAFE_STATE from the fourth tick without a valid copy, VCORE_S_LOSS, MR_N_RESET and VAUX_MIN enter the package-level safe state: FLT_n is low, every PWM output is in tri-state and no output hot-swap is driven; with HOLD_OPEN both feed gates open and with HOLD_OPEN = 0 they stay as they are, but for a loss of VAUX below 1.8 V, which opens them; the MRAM changes only in the place of one final record, which is written but where VAUX_WARN stands and one was written since it was set; without a valid copy a twin in RESYNC abandons its transfer and is OUT. All but the first assert reset with their RST_CAUSE. The RST_CAUSE codes of VCORE_S_LOSS are the model's reading (log entry 40). -/
def Obligations.SafeStateEntries : Prop :=
  ∀ (s : State) (c : Instr) (cause : Option Nat), s.d.shape = true → s.d.die.safe = false → s.d.sup.inReset = false →
    ((c = .noValidCopySafeState ∧ s.d.time.started = true ∧ 4 ≤ s.d.noCopyRun ∧ cause = none) ∨ (c = .vcoreSLoss ∧ cause = some 4) ∨
     (c = .mrNReset ∧ cause = some 3) ∨ (c = .vauxMin false ∧ cause = some 2) ∨ (c = .vauxMin true ∧ cause = some 1)) →
    Completes c s [.feedB, .stat, .feedA, .sup, .hs, .nv, .fh, .die, .units, .peat, .twin] fun e =>
      e.die.safe = true ∧ e.die.fltLow = true ∧ e.outputsStopped ∧
      (if s.d.flag 0x98 0x40 2 = true ∨ c = .vauxMin true then e.feedA.drive = false ∧ e.feedB.drive = false
       else e.feedA = s.d.feedA ∧ e.feedB = s.d.feedB) ∧
      s.d.peatOnly e ∧
      (if s.d.die.finalRecord = true ∧ s.d.sup.vauxWarn = true then e.nv = s.d.nv ∧ e.peat = s.d.peat
       else e.peat.next = (s.d.peat.next + 1) % 2 ^ 32 ∧ e.statOf 0xB1 = (s.d.statOf 0xB1).occur 1 2) ∧
      (∀ t, (e.twinOf t).st = if c = .noValidCopySafeState ∧ (s.d.twinOf t).st = .resync then .out else (s.d.twinOf t).st) ∧
      (c ≠ .noValidCopySafeState → e.twin = s.d.twin) ∧
      match cause with
      | none => e.sup = s.d.sup ∧ e.fh = s.d.fh
      | some k => e.sup.inReset = true ∧ e.fh.rstCause = k

/-- The events of the supplies also set the VHOLD-to-VAUX switch of R535. VAUX_WARN sets its bit, tears a crust change in progress and writes the final record; VAUX_RETURN clears it; HOLD_LOW is recorded once, and an event during the condition says that VHOLD is still low (the model's reading, log entry 115); the losses and returns of the core supplies of the twins unlock and lock their PLLs; a supply of a region that returns makes the region valid where it had been valid after reset release; SAFE_N_ASSERT stops the outputs and SAFE_N_RELEASE gives them back; TESTEN_HIGH in reset drives FLT_n low; VGD_LOW and VGD_OK_RISE follow VGD. -/
def Obligations.SupplyEvents : Prop :=
  (∀ (s : State), s.d.shape = true → s.d.sup.vauxWarn = false →
    Completes .vauxWarn s [.jrn, .crust, .stat, .sup, .upd, .nv, .die, .peat, .twT] fun e =>
      e.sup = SupplySt.switched { s.d.sup with vauxWarn := true } ∧ e.sup.auxSwitch = false ∧ e.statOf 0xA5 = (s.d.statOf 0xA5).occur 0 1 ∧ e.crust.job = none ∧
      e.peat.next = (s.d.peat.next + 1) % 2 ^ 32 ∧ e.die.finalRecord = true ∧ s.d.peatOnly e) ∧
  (∀ (s : State), Completes .vauxReturn s [.sup, .bbus, .nv, .die, .therm] fun e =>
      e.sup = SupplySt.switched { s.d.sup with vauxWarn := false, vauxMin := false } ∧ e.die = { s.d.die with finalRecord := false } ∧
      (s.d.therm.hold = true → e.nv = s.d.nv ∧ e.therm = s.d.therm ∧ e.bbus = s.d.bbus)) ∧
  (∀ (s : State), s.d.sup.vauxWarn = false → s.d.sup.holdLow = false →
    Completes .holdLow s [.stat, .sup] fun e =>
      e.sup = SupplySt.switched { s.d.sup with holdLow := true, holdSeen := true } ∧ e.sup.auxSwitch = !s.d.sup.vauxMin ∧ s.d.recorded e 0xA5 1) ∧
  (∀ (s : State), s.d.sup.holdLow = true →
    Completes .holdLow s [.sup] fun e => e.sup = { s.d.sup with holdSeen := true }) ∧
  (∀ (s : State) (t : Twin) (c : Instr),
    c ∈ [Instr.vcoreTwinLoss t, Instr.supplyOutOfRange (match t with | .a => .vcoreA | .b => .vcoreB)] →
    Completes c s [.sup, .time] fun e =>
      match t with
      | .a => e.sup = { s.d.sup with vcoreA := false } ∧ e.time = { s.d.time with lockA := 0 }
      | .b => e.sup = { s.d.sup with vcoreB := false } ∧ e.time = { s.d.time with lockB := 0 }) ∧
  (∀ (s : State) (x : Supply),
    Completes (.supplyInRange x) s [.time, .sup, .die, .units, .therm, .sense] fun e =>
      match x with
      | .vcoreA => e = { s.d with sup := { s.d.sup with vcoreA := true }, time := { s.d.time with lockA := 0x7FF } }
      | .vcoreB => e = { s.d with sup := { s.d.sup with vcoreB := true }, time := { s.d.time with lockB := 0x7FF } }
      | .vcoreS => e = { s.d with sup := { s.d.sup with vcoreS := true } }
      | .vanaG0 => e.sup = { s.d.sup with vanaG0 := true } ∧ e.regionValid .g1 = s.d.regionValid .g1 ∧
          e.regionValid .g0 = (s.d.regionValid .g0 || !s.d.time.lost0)
      | .vanaG1 => e.sup = { s.d.sup with vanaG1 := true } ∧ e.regionValid .g0 = s.d.regionValid .g0 ∧
          e.regionValid .g1 = (s.d.regionValid .g1 || !s.d.time.lost1)) ∧
  (∀ (s : State) (g : Region), s.d.shape = true →
    Completes (.supplyOutOfRange (match g with | .g0 => .vanaG0 | .g1 => .vanaG1)) s
      [.adm, .stat, .clusters, .inj, .fh, .die, .units, .rails, .sup, .time, .xfer] fun e =>
      e.vana g = false ∧ e.regionValid g = false ∧ ∀ h, h ≠ g → e.vana h = s.d.vana h ∧ e.regionValid h = s.d.regionValid h) ∧
  (∀ (s : State), Completes .safeNAssert s [.hs, .fh, .units] fun e =>
      e.outputsStopped ∧ e.fh = { s.d.fh with safePin := true } ∧
      e.units.map (fun u => { u with triOn := true, pulse := [] }) = s.d.units.map fun u => { u with triOn := true, pulse := [] }) ∧
  (∀ (s : State), Completes .safeNRelease s [.fh] fun e => e.fh = { s.d.fh with safePin := false }) ∧
  (∀ (s : State), s.d.sup.inReset = true →
    Completes .testenHigh s [.sup, .die] fun e =>
      e.sup = { s.d.sup with testen := true } ∧ e.die = { s.d.die with fltLow := true }) ∧
  (∀ (s : State), s.d.sup.vgdOk = true →
    Completes .vgdLow s [.stat, .sup] fun e =>
      e.sup = SupplySt.switched { s.d.sup with vgdOk := false } ∧ s.d.recorded e 0x98 14) ∧
  (∀ (s : State), Completes .vgdOkRise s [.sup] fun e =>
      e.sup = SupplySt.switched { s.d.sup with vgdOk := true, holdLow := false, holdSeen := false } ∧ e.sup.auxSwitch = false)

/-- REVERSE_CURRENT_TRIP and HOT_SWAP_FAST_TRIP open a driven switch and latch the trip until a command of 0. In a tick whose SUPV entry has run, FEED_READY, FEED_INVALID and FEED_FULLY_ON move the feed between QUALIFY, READY, ABSENT, TURN_ON and ON; FEED_POWER_GOOD ends a freeze and the transfer towards the feed, whose duration it stores; FEED_RETRY_COUNT_RESET returns the retry count to 0. The other feed and every other switch stand. -/
def Obligations.FeedEvents : Prop :=
  (∀ (s : State) (f : FeedId), (s.d.feed f).drive = true →
    Completes (.reverseCurrentTrip f) s [.feedA, .feedB] fun e =>
      e.feed f = { s.d.feed f with drive := false, revLatch := true } ∧ e.feed (otherFeed f) = s.d.feed (otherFeed f)) ∧
  (∀ (s : State) (r : Fin 4), s.d.shape = true → (s.d.hsw r).drive = true →
    Completes (.hotSwapFastTrip r) s [.hs] fun e =>
      e.hsw r = { s.d.hsw r with drive := false, trip := true } ∧ sameBut r.val s.d.hs e.hs) ∧
  (∀ (s : State) (f : FeedId), s.d.xfer.ran = true → s.d.die.validG0 = true → (s.d.feed f).st = .qualify → (s.d.feed f).inside = true →
    2000 * s.d.fld 0x98 0x50 31 22 ≤ (s.d.feed f).qualN →
    Completes (.feedReady f) s [.feedA, .feedB] fun e =>
      e.feed f = { s.d.feed f with st := .ready, readyN := 0 } ∧ e.feed (otherFeed f) = s.d.feed (otherFeed f)) ∧
  (∀ (s : State) (f : FeedId), s.d.xfer.ran = true → (s.d.feed f).st = .ready → s.d.feedValid f = false →
    Completes (.feedInvalid f) s [.feedA, .feedB] fun e =>
      e.feed f = { s.d.feed f with st := .absent, readyN := 0 } ∧ e.feed (otherFeed f) = s.d.feed (otherFeed f)) ∧
  (∀ (s : State) (f : FeedId), s.d.xfer.ran = true → (s.d.feed f).st = .turnOn → (s.d.feed f).fullOn = true → s.d.judging = true →
    Completes (.feedFullyOn f) s [.feedA, .feedB] fun e =>
      (e.feed f).st = .on ∧ (e.feed f).cmd = (s.d.feed f).cmd ∧ (e.feed f).pg = (s.d.feed f).pg ∧
      e.feed (otherFeed f) = s.d.feed (otherFeed f)) ∧
  (∀ (s : State) (f : FeedId), s.d.xfer.ran = true → (s.d.feed f).st = .on → (s.d.feed f).pg = false → (s.d.feed f).fail = 0 →
    s.d.fld 0x98 0x50 14 8 ≤ (s.d.feed f).pgRun → s.d.judging = true →
    Completes (.feedPowerGood f) s [.adm, .feedB, .stat, .feedA, .xfer] fun e =>
      (e.feed f).pg = true ∧ (e.feed f).st = .on ∧ e.feed (otherFeed f) = s.d.feed (otherFeed f) ∧
      e.adm = { s.d.adm with led := { s.d.adm.led with freeze := false, freezeEnd := 0 } } ∧
      if s.d.xfer.new = some f then
        e.xfer = { s.d.xfer with new := none, lastDur := min 0xFFFE (s.d.now - s.d.xfer.start) } ∧ s.d.recorded e 0x98 0
      else e.xfer = s.d.xfer ∧ e.stat = s.d.stat) ∧
  (∀ (s : State) (f : FeedId), s.d.xfer.ran = true → (s.d.feed f).pg = true → 256 * s.d.fld 0x98 0x58 31 16 ≤ (s.d.feed f).pgHeld →
    Completes (.feedRetryCountReset f) s [.feedA, .feedB] fun e =>
      e.feed f = { s.d.feed f with retryUsed := 0 } ∧ e.feed (otherFeed f) = s.d.feed (otherFeed f))

/-- In a tick whose SUPV entry has run, INS_TIMEOUT and FEED_OV take the feed to FAULT_WAIT with its gate command 0, the whole RETRY_DELAY ahead and its bit recorded, and fail a transfer towards it; FEED_RETRY_END counts a retry and leaves the feed ABSENT, or LATCHED_OFF with RETRY_EXHAUSTED where the retries are used up. -/
def Obligations.FeedFaults : Prop :=
  (∀ (s : State) (f : FeedId) (c : Instr) (bit code : Nat), s.d.xfer.ran = true →
    ((c = .insTimeout f ∧ s.d.judging = true ∧ bit = 8 ∧ code = 2 ∧ (s.d.feed f).st = .turnOn ∧
        2000 * s.d.fld 0x98 0x54 9 0 ≤ (s.d.feed f).onN) ∨
     (c = .feedOv f ∧ bit = 4 ∧ code = 0x13 ∧ ((s.d.feed f).st = .turnOn ∨ (s.d.feed f).st = .on) ∧
        s.d.preBad (feedCh f) = false ∧ s.d.fld 0x98 0x50 7 0 ≤ (s.d.feed f).ovN)) →
    Completes c s [.feedB, .stat, .feedA, .xfer, .fh] fun e =>
      (e.feed f).st = .faultWait ∧ (e.feed f).cmd = false ∧ (e.feed f).pg = false ∧
      (e.feed f).retryLeft = 256 * s.d.fld 0x98 0x58 31 16 ∧ e.feed (otherFeed f) = s.d.feed (otherFeed f) ∧
      let st := (s.d.statOf 0x98).occur (bit + feedIdx f) (causeOf 0x98 (bit + feedIdx f))
      if s.d.xfer.new = some f then
        e.statOf 0x98 = st.occur 1 code ∧ e.xfer = { s.d.xfer with dead := none, new := none, lastDur := 0xFFFF, ilock := 0 }
      else e.statOf 0x98 = st ∧ e.xfer = s.d.xfer) ∧
  (∀ (s : State) (f : FeedId), s.d.xfer.ran = true → s.d.judging = true → (s.d.feed f).st = .faultWait → (s.d.feed f).retryLeft = 0 →
    Completes (.feedRetryEnd f) s [.feedB, .stat, .feedA] fun e =>
      e.feed (otherFeed f) = s.d.feed (otherFeed f) ∧
      let m := s.d.fld 0x98 0x58 15 12
      if (s.d.feed f).retryUsed < m ∨ m = 15 then
        e.feed f = { s.d.feed f with st := .absent, retryUsed := satInc 15 (s.d.feed f).retryUsed } ∧ e.stat = s.d.stat
      else e.feed f = { s.d.feed f with st := .latchedOff } ∧ s.d.recordedC e 0x98 12 (0xE + feedIdx f))

/-- In a tick whose SUPV entry has run, FEED_TRANSFER and FEED_RETURN start a transfer from the carrying feed when the selection differs: its command is 0, it is READY or ABSENT, the dead time runs, the transfer is counted and the freeze begins; with no carrying feed FEED_TRANSFER inserts the selected feed; TRANSFER_DEAD_END turns on the feed selected then or fails the transfer as target lost; TRANSFER_INTERLOCK_FAIL after 16 ticks commands both gates off, puts the old feed in FAULT_WAIT and parks the new one. -/
def Obligations.FeedTransfers : Prop :=
  (∀ (s : State) (cmd : Instr) (c : FeedId), s.d.xfer.ran = true → s.d.xfer.carry0 = some c →
    ((cmd = .feedTransfer ∧ s.d.xfer.dead = none ∧
        (∃ x, s.d.selected = some x ∧ x ≠ c)) ∨
     (cmd = .feedReturn ∧ s.d.judging = true ∧ s.d.carry = some c ∧ s.d.xfer.dead = none ∧ s.d.returning c = true)) →
    ((s.d.feed c).st = .turnOn ∨ (s.d.feed c).st = .on) →
    Completes cmd s [.adm, .feedB, .stat, .feedA, .xfer] fun e =>
      (e.feed c).cmd = false ∧ (e.feed c).st = (if s.d.feedValid c then .ready else .absent) ∧
      e.feed (otherFeed c) = s.d.feed (otherFeed c) ∧
      e.xfer.dead = some (s.d.fld 0x98 0x50 21 15) ∧ e.xfer.old = some c ∧ e.xfer.new = none ∧ e.xfer.insertion = false ∧
      e.xfer.count = inc16 s.d.xfer.count ∧ e.xfer.start = s.d.now ∧ e.adm.led.freeze = true ∧
      s.d.now + s.d.fld 0x98 0x50 21 15 + s.d.fld 0x74 0x4C 23 8 ≤ e.adm.led.freezeEnd) ∧
  (∀ (s : State) (x : FeedId), s.d.xfer.ran = true → s.d.xfer.carry0 = none → s.d.xfer.dead = none → s.d.carry = none → s.d.selected = some x →
    s.d.judging = true →
    Completes .feedTransfer s [.adm, .feedB, .stat, .feedA, .xfer] fun e =>
      (e.feed x).st = .turnOn ∧ (e.feed x).cmd = true ∧ e.feed (otherFeed x) = s.d.feed (otherFeed x) ∧
      e.xfer.new = some x ∧ e.xfer.insertion = true ∧ e.xfer.count = inc16 s.d.xfer.count ∧ e.stat = s.d.stat) ∧
  (∀ (s : State), s.d.xfer.ran = true → s.d.judging = true → s.d.xfer.dead = some 0 →
    Completes .transferDeadEnd s [.feedB, .stat, .feedA, .xfer] fun e =>
      e.xfer.dead = none ∧
      match s.d.pick with
      | some x => (e.feed x).st = .turnOn ∧ (e.feed x).cmd = true ∧ e.feed (otherFeed x) = s.d.feed (otherFeed x) ∧
          e.xfer.new = some x ∧ e.stat = s.d.stat
      | none => e.feedA = s.d.feedA ∧ e.feedB = s.d.feedB ∧ e.xfer.lastDur = 0xFFFF ∧ s.d.recordedC e 0x98 1 0x13) ∧
  (∀ (s : State) (o n : FeedId), s.d.xfer.ran = true → 16 ≤ s.d.xfer.ilock → s.d.xfer.new = some n → s.d.xfer.old = some o → o ≠ n →
    Completes .transferInterlockFail s [.feedB, .stat, .feedA, .xfer, .fh] fun e =>
      (e.feed o).st = .faultWait ∧ (e.feed o).cmd = false ∧ (e.feed n).cmd = false ∧
      (e.feed n).st = (if s.d.feedValid n then .ready else .absent) ∧
      e.xfer = { s.d.xfer with dead := none, new := none, lastDur := 0xFFFF, ilock := 0 } ∧
      e.statOf 0x98 = ((s.d.statOf 0x98).occur 1 3).occur (10 + feedIdx o) (causeOf 0x98 (10 + feedIdx o)))

/-- In a tick whose SUPV entry has run, HOT_SWAP_FULLY_ON makes the rail start its first SOFT_START tick at the next boundary; HOT_SWAP_ON_TIMEOUT and HOT_SWAP_SLOW_TRIP, the second a counted trip, put the rail in FAULT_WAIT with its gate off and record their bit; G1_JUDGEMENT_RESUME judges the switches again: a feed with a trip shown enters FAULT_WAIT, and so does the rail of an output whose trip is shown; in a tick without a SUPV entry the next one judges them. -/
def Obligations.HotSwaps : Prop :=
  (∀ (s : State) (r : Fin 4), s.d.shape = true → s.d.xfer.ran = true → (s.d.rail r).gateOn = true → (s.d.rail r).st = .off → s.d.judging = true →
    (s.d.hsw r).fullWord = true → (s.d.hsw r).on = false → (s.d.hsw r).trip = false →
    Completes (.hotSwapFullyOn r) s [.hs, .rails] fun e =>
      e.hsw r = { s.d.hsw r with on := true, onN := 0, pg := (s.d.hsw r).acc == 0 } ∧ sameBut r.val s.d.hs e.hs ∧
      e.rail r = { s.d.rail r with startDue := true } ∧ sameBut r.val s.d.rails e.rails) ∧
  (∀ (s : State) (r : Fin 4) (c : Instr) (bit : Nat), s.d.shape = true → s.d.xfer.ran = true → (s.d.rail r).gateOn = true →
    ((c = .hotSwapOnTimeout r ∧ bit = 8 + r ∧ s.d.judging = true ∧ (s.d.hsw r).on = false ∧
        2000 * s.d.fld 0x99 (0x40 + 4 * r) 7 0 ≤ (s.d.hsw r).onN) ∨
     (c = .hotSwapSlowTrip r ∧ bit = 4 + r ∧ (s.d.fld 0x99 (0x50 + 4 * r) 15 0 : Int) * 131072000 ≤ (s.d.hsw r).acc)) →
    Completes c s [.stat, .hs, .inj, .fh, .units, .rails] fun e =>
      (e.rail r).st = .faultWait ∧ (e.rail r).gateOn = false ∧
      (e.rail r).retryLeft = s.d.fld (railPg r) 0x60 15 0 * 256 ∧ sameBut r.val s.d.rails e.rails ∧
      (e.hsw r).trips = (if c = .hotSwapSlowTrip r then inc8 (s.d.hsw r).trips else (s.d.hsw r).trips) ∧
      (e.hsw r).on = false ∧ (e.hsw r).pg = false ∧ (e.hsw r).acc = (s.d.hsw r).acc ∧
      sameBut r.val s.d.hs e.hs ∧ e.statOf 0x99 = (s.d.statOf 0x99).occur bit (bit + 1) ∧
      ∀ n, n < 64 → if s.d.isMember r n then (e.unit n).tri = true ∧ (e.unit n).duty = 0 else e.unit n = s.d.unit n) ∧
  (∀ (s : State), s.d.xfer.ran = false → s.d.die.validG1 = true → s.d.xfer.judge = false → 2 ≤ s.d.xfer.g1Good →
    Completes .g1JudgementResume s [.feedB, .feedA, .hs, .xfer] fun e =>
      e.xfer = { s.d.xfer with judge := true } ∧ (∀ f, e.feed f = { s.d.feed f with fullOn := (s.d.feed f).fullLatch }) ∧
      e.hs = s.d.hs.map fun h => { h with tripSeen := h.tripTick }) ∧
  (∀ (s : State), s.d.shape = true → s.d.xfer.ran = true → s.d.die.validG1 = true → s.d.xfer.judge = false → 2 ≤ s.d.xfer.g1Good →
    Completes .g1JudgementResume s [.feedB, .stat, .feedA, .hs, .xfer, .inj, .fh, .units, .rails] fun e =>
      e.xfer.judge = true ∧
      (∀ f, if (s.d.feed f).st = .on ∧ ((s.d.feed f).revWord = true ∨
              ((s.d.feed f).fullWord = false ∧ (s.d.feed f).cmdWord = true)) then
          (e.feed f).st = .faultWait ∧ (e.feed f).cmd = false
        else e.feed f = { s.d.feed f with fullOn := (s.d.feed f).fullLatch }) ∧
      ∀ r, r < 4 →
        let h := s.d.hsw r
        if (h.tripTick = true ∧ h.handled = false) ∨ (h.on = true ∧ h.fullWord = false ∧ h.cmdWord = true) then
          (e.rail r).st = .faultWait ∧ (e.rail r).gateOn = false ∧ (e.hsw r).trips = inc8 h.trips ∧ (e.hsw r).on = false
        else e.rail r = s.d.rail r ∧ e.hsw r = { h with tripSeen := h.tripTick })

/-- A write to an unimplemented page changes nothing, and one to a reserved offset only closes the lock of its path on the page. A write of a block register without an effect of its own changes the register file alone but for the bits of a clamp or of a refused crust change: its RWS fields go to the shadow copy, its RW fields are in force at once within their ranges, or wait for the frond boundary where their chapter defers them; RO, WO and W1C fields keep their values; no other register changes; the lock of the path on the page closes. -/
def Obligations.RegisterWrites : Prop :=
  (∀ (s : State) (p : Path) (pg off : Nat) (v : Word32), pageRow pg = none → exec (.registerWrite p pg off v) s = .next s) ∧
  (∀ (s : State) (p : Path) (pg off : Nat) (v : Word32), pageRow pg ≠ none → regRow pg off = none →
    Completes (.registerWrite p pg off v) s [.regs] fun e =>
      e.regs = { s.d.regs with locks := s.d.regs.locks.filter fun l => !(l.path == p && l.page == pg) }) ∧
  (∀ (s : State) (p : Path) (pg off : Nat) (v : Word32) (r : RegRow), pageRow pg ≠ none → regRow pg off = some r →
    specialReg pg off = false → off < 0x1000 →
    Completes (.registerWrite p pg off v) s [.stat, .regs] fun e =>
      e.regs.locks = s.d.regs.locks.filter (fun l => !(l.path == p && l.page == pg)) ∧
      e.regs.commits = s.d.regs.commits ∧
      (∀ a, a ≠ regAddr pg off →
        alGet e.regs.force a = alGet s.d.regs.force a ∧ alGet e.regs.shadow a = alGet s.d.regs.shadow a ∧
        alGet e.regs.deferred a = alGet s.d.regs.deferred a) ∧
      (if r.rws = 0 then e.regs.shadow = s.d.regs.shadow
       else alGet e.regs.shadow (regAddr pg off) =
          some (mergeBits ((alGet s.d.regs.shadow (regAddr pg off)).getD (e.reg pg off)) v.toNat r.rws)) ∧
      (if r.rw = 0 then e.regs.force = s.d.regs.force ∧ e.regs.deferred = s.d.regs.deferred
       else if deferredPage pg off then
         e.regs.force = s.d.regs.force ∧
         alGet e.regs.deferred (regAddr pg off) =
           some (mergeBits ((alGet s.d.regs.deferred (regAddr pg off)).getD (s.d.reg pg off)) v.toNat r.rw)
       else e.regs.deferred = s.d.regs.deferred ∧
         e.reg pg off = clampReg pg off (mergeBits (s.d.reg pg off) v.toNat r.rw)) ∧
      (r.rwc = 0 → deferredPage pg off = false →
        clampReg pg off (mergeBits (s.d.reg pg off) v.toNat r.rw) = mergeBits (s.d.reg pg off) v.toNat r.rw →
        e.stat = s.d.stat))

/-- BLK_LOCK with 0x5A opens the page for its path and for no other, any other value closes it; LOCK_TIMEOUT closes it 256 ticks after it was opened; BLK_COMMIT leaves one commit of the page waiting for the next frond boundary, or for the second where it comes in tick phase 254 or 255. -/
def Obligations.LocksAndCommits : Prop :=
  (∀ (s : State) (p : Path) (pg : Nat) (v : Word32), regRow pg 0x18 ≠ none →
    Completes (.blkLock p pg v) s [.regs] fun e =>
      (∃ l, e.regs = { s.d.regs with locks := l }) ∧
      (∀ l : Lock, ¬ (l.path = p ∧ l.page = pg) → (l ∈ e.regs.locks ↔ l ∈ s.d.regs.locks)) ∧
      ∀ l : Lock, l.path = p → l.page = pg → (l ∈ e.regs.locks ↔ v.toNat % 256 = 0x5A ∧ l.since = s.d.now)) ∧
  (∀ (s : State) (p : Path) (pg : Nat), (∃ l ∈ s.d.regs.locks, l.path = p ∧ l.page = pg ∧ l.since + 256 ≤ s.d.now) →
    Completes (.lockTimeout p pg) s [.regs] fun e =>
      (∃ l, e.regs = { s.d.regs with locks := l }) ∧
      ∀ l : Lock, (l ∈ e.regs.locks ↔ l ∈ s.d.regs.locks ∧ ¬ (l.path = p ∧ l.page = pg))) ∧
  (∀ (s : State) (pg : Nat), regRow pg 0x1C ≠ none →
    Completes (.blkCommit pg) s [.regs] fun e =>
      let c : Commit := ⟨pg, if s.d.lateInFrond then 2 else 1, none⟩
      (∃ l, e.regs = { s.d.regs with commits := l }) ∧ c ∈ e.regs.commits ∧
      (c ∈ s.d.regs.commits → e.regs = s.d.regs) ∧
      ∀ x, x ≠ c → (x ∈ e.regs.commits ↔ x ∈ s.d.regs.commits))

/-- BLK_STATUS_CLEAR on a page of the control plane waits for its boundary; on any other page it acts at once: each requested bit is cleared unless it persists, a refused one shows in CLEAR_REFUSED, and every other page stands; either way the write closes the lock of its path on the page; CLEAR_REFUSED_CLEAR clears the flag alone. BLK_INT_FORCE records the forced bits the page defines, lowest first, and in a tick in which none of them has occurred sets every one. -/
def Obligations.StatusClears : Prop :=
  (∀ (s : State) (p : Path) (pg : Nat) (mask : Word32), statusBits pg ≠ 0 →
    Completes (.blkStatusClear p pg mask) s [.stat, .regs] fun e =>
      e.regs = { s.d.regs with locks := s.d.regs.locks.filter fun l => !(l.path == p && l.page == pg) } ∧
      (∀ q, q ≠ pg → e.statOf q = s.d.statOf q) ∧
      if controlPage pg then
        e.statOf pg = { s.d.statOf pg with pend := (s.d.statOf pg).pend ++ [⟨mask.toNat, if s.d.lateInFrond then 2 else 1, 0, false⟩] }
      else
        (∀ i, i < statusBits pg → e.stBit pg i = (s.d.stBit pg i && (!bitAt mask.toNat i || s.d.persists pg i))) ∧
        (e.statOf pg).clearRefused = ((s.d.statOf pg).clearRefused ||
          (List.range (statusBits pg)).any fun i => s.d.stBit pg i && bitAt mask.toNat i && s.d.persists pg i)) ∧
  (∀ (s : State) (pg : Nat), statusBits pg ≠ 0 →
    Completes (.clearRefusedClear pg) s [.stat] fun e =>
      e.statOf pg = { s.d.statOf pg with clearRefused := false } ∧ ∀ q, q ≠ pg → e.statOf q = s.d.statOf q) ∧
  (∀ (s : State) (pg : Nat) (mask : Word32),
    Completes (.blkIntForce pg mask) s [.stat] fun e =>
      (∀ q, q ≠ pg → e.statOf q = s.d.statOf q) ∧
      e.statOf pg = ((List.range (statusBits pg)).filter (bitAt mask.toNat)).foldl (fun b i => b.occur i (causeOf pg i)) (s.d.statOf pg) ∧
      ∀ i, i < statusBits pg → bitAt mask.toNat i = true → e.stBit pg i = true)

/-- SNAP_HOLDn with HOLD = 1 from its own port asks for a hold at the next frond boundary and leaves a held view in place, with HOLD = 0 it releases the view; a write from another path changes no hold; either way the write closes the lock of its path on page 0; HOLD_EXPIRED after 64 fronds releases the view and records it. -/
def Obligations.SnapshotHolds : Prop :=
  (∀ (s : State) (p : Path) (n : Fin 2) (v : Word32),
    ∃ t, exec (.snapHold p n v) s = .next t ∧ t.snap = s.snap ∧ t.pending = s.pending ∧ Dev.onlyIn [.ident, .regs] s.d t.d ∧
      t.d.regs = { s.d.regs with locks := s.d.regs.locks.filter fun l => !(l.path == p && l.page == 0) } ∧
      (holdPath p n = false → t.held0 = s.held0 ∧ t.held1 = s.held1 ∧ t.d.ident = s.d.ident) ∧
      (holdPath p n = true →
        let h := bitAt v.toNat 31
        (n = 0 → t.d.ident = { s.d.ident with req0 := h, take0 := h } ∧ t.held0 = (if h then s.held0 else none) ∧ t.held1 = s.held1) ∧
        (n = 1 → t.d.ident = { s.d.ident with req1 := h, take1 := h } ∧ t.held1 = (if h then s.held1 else none) ∧ t.held0 = s.held0))) ∧
  (∀ (s : State) (n : Fin 2),
    ((n = 0 ∧ s.held0.isSome = true ∧ s.d.ident.left0 = 0) ∨ (n = 1 ∧ s.held1.isSome = true ∧ s.d.ident.left1 = 0)) →
    ∃ t, exec (.holdExpired n) s = .next t ∧ t.snap = s.snap ∧ t.pending = s.pending ∧ Dev.onlyIn [.ident, .stat] s.d t.d ∧
      s.d.recorded t.d 0 2 ∧
      (n = 0 → t.held0 = none ∧ t.held1 = s.held1 ∧ t.d.ident.req0 = false ∧ t.d.ident.take0 = false) ∧
      (n = 1 → t.held1 = none ∧ t.held0 = s.held0 ∧ t.d.ident.req1 = false ∧ t.d.ident.take1 = false))

/-- On a port whose link is up a request frame that passes the checks becomes due for its sense frame, goes to the holding place where another is due, and is discarded, counted and recorded where that is taken too; a frame that fails a check is counted and recorded as a line error of its sense frame; on a port whose link is down a frame that passes is discarded, counted and recorded, and one that fails leaves no trace. HELD_REQUEST_DELIVER gives the held frame, once the sense frame of the first has gone out, the slot of the next sense frame, and a frame that was due for it the holding place; a link down delivers nothing more, and the frames that waited are discarded, counted and recorded. No other port changes. That the frames a link down discards count in SPACING, and that a bad frame on a port without link leaves no trace, are the model's choices (log entries 84 and 119). -/
def Obligations.StepPortFrames : Prop :=
  (∀ (s : State) (n : Fin 16) (f : StepFrame) (co al late : Bool), s.d.shape = true →
    Completes (.requestFrame n f co al late) s [.adm, .stat] fun e =>
      e.adm.led = s.d.adm.led ∧ e.adm.loads = s.d.adm.loads ∧ sameBut n.val s.d.adm.ports e.adm.ports ∧
      let p := s.d.port n
      if co = true ∧ al = true ∧ bits f.toNat 63 56 = 0x3C ∧ frameCrcOk f = true then
        if p.linkUp = false then e.port n = { p with spacing := inc8 p.spacing } ∧ s.d.recorded e 0x74 1
        else if late = false ∧ p.due1 = none then e.port n = { p with due1 := some f } ∧ e.stat = s.d.stat
        else if late = true ∧ p.due2 = none then e.port n = { p with due2 := some f } ∧ e.stat = s.d.stat
        else if p.place = none then e.port n = { p with place := some f, placeIn := if late then 2 else 1 } ∧ e.stat = s.d.stat
        else e.port n = { p with spacing := inc8 p.spacing } ∧ s.d.recorded e 0x74 1
      else if p.linkUp = false then e = s.d
      else e.port n = { p with err1 := p.err1 || !late, err2 := p.err2 || late, lineErr := inc8 p.lineErr } ∧
        s.d.recorded e 0x74 0) ∧
  (∀ (s : State) (n : Fin 16), s.d.shape = true → (s.d.port n).place ≠ none → (s.d.port n).placeIn = 0 →
    Completes (.heldRequestDeliver n) s [.adm] fun e =>
      e.port n = { s.d.port n with due1 := (s.d.port n).place, place := (s.d.port n).due1, placeIn := 1 } ∧
      e.adm.led = s.d.adm.led ∧ e.adm.loads = s.d.adm.loads ∧ sameBut n.val s.d.adm.ports e.adm.ports) ∧
  (∀ (s : State) (n : Fin 16), s.d.shape = true →
    Completes (.stepPortLinkUp n) s [.adm] fun e =>
      e.port n = { s.d.port n with linkUp := true } ∧
      e.adm.led = s.d.adm.led ∧ e.adm.loads = s.d.adm.loads ∧ sameBut n.val s.d.adm.ports e.adm.ports) ∧
  (∀ (s : State) (n : Fin 16), s.d.shape = true →
    Completes (.stepPortLinkDown n) s [.adm, .stat] fun e =>
      e.port n = { s.d.port n with
        linkUp := false, due1 := none, due2 := none, place := none, placeIn := 0,
        spacing := min 255 ((s.d.port n).spacing + (s.d.port n).waiting) } ∧
      (if (s.d.port n).waiting = 0 then e.stat = s.d.stat else s.d.recorded e 0x74 1) ∧
      e.adm.led = s.d.adm.led ∧ e.adm.loads = s.d.adm.loads ∧ sameBut n.val s.d.adm.ports e.adm.ports)

/-- A delivered request taken in the ADMIT pass whose KIND, RAMP or reserved byte is reserved, whose LOAD_ID names another port or whose entry has EN = 0 receives DENY with MAG = 0, is counted as INVALID, is not journaled and changes no entry. Its reply answers at a moment the transmitter is free (R163); the RAMP of the reply is a free value (log entry 12). -/
def Obligations.InvalidRequests : Prop :=
  ∀ (s : State) (n : Fin 16) (f : StepFrame) (kind : Nat) (c : Instr), s.d.shape = true →
    (kind, c) ∈ [(1, Instr.stepUp n), (2, Instr.stepDown n), (3, Instr.announce n), (4, Instr.release n), (5, Instr.heartbeat n)] →
    s.d.admitted n kind = some f → (s.d.port n).busy ≤ s.d.refB →
    ¬ (1 ≤ reqKind f ∧ reqKind f ≤ 5 ∧ reqRamp f ≤ 8 ∧ reqRsvd f = 0 ∧ reqLoad f / 16 = n.val ∧ s.d.gtEn (reqLoad f) = true) →
    Completes c s [.adm, .stat] fun e =>
      (∃ ramp, (e.port n).reply = some (replyFrame (reqLoad f) (reqSeq f) 3 (s.d.port n).level ramp 0 0)) ∧
      (e.port n).slot = none ∧ e.adm.led.invalid = inc16 s.d.adm.led.invalid ∧ e.adm.led.steps = s.d.adm.led.steps ∧
      e.adm.loads = s.d.adm.loads ∧ sameBut n.val s.d.adm.ports e.adm.ports ∧ s.d.recorded e 0x74 2

/-- A valid, new step up is answered with CAPPED from level 2, with DENY under VAUX_WARN, a write hold or a rail not in REGULATE, and otherwise with GRANT, DEFER or REDUCE only for a magnitude that fits the room, the slew limit and the energy at its start, which then enters the ledger, or with DENY; one whose whole magnitude has room and fits at once is granted at once; a step down is placed in full within OFFSET_MAX, at the earliest offset that the slew limit leaves, where there is one; an announce reserves at most the room and is granted where the whole magnitude has room; a release is never deferred and returns to BASE; a heartbeat is answered with ALLOC, restarts its port's count and counts an unannounced draw. Each of these commands completes for every such request; each decision but that on a heartbeat is stored in its entry and, but under VAUX_WARN or a write hold, journaled; no other entry and no other port changes. -/
def Obligations.StepDecisions : Prop :=
  (∀ (s : State) (n : Fin 16) (f : StepFrame), s.d.shape = true → s.d.admitted n 1 = some f → (s.d.port n).busy ≤ s.d.refB → s.d.reqValid n f = true →
    (let q := (s.d.load (reqLoad f)).lastSeq
     let dist := (reqSeq f + 256 - q) % 256
     (s.d.load (reqLoad f)).seqValid = false ∨ (1 ≤ dist ∧ dist ≤ 128)) →
    Completes (.stepUp n) s [.jrn, .adm, .sram, .nv, .units, .rails] fun e =>
      let i := reqLoad f
      (∀ j, j ≠ i → e.load j = s.d.load j) ∧ sameBut n.val s.d.adm.ports e.adm.ports ∧
      ∃ dec c o m, s.d.decided e i f dec c o m ∧ (e.port n).reply = some (replyFrame i (reqSeq f) dec (s.d.port n).level c o m) ∧
        (2 ≤ (s.d.port n).level → dec = 4) ∧ ((s.d.port n).level < 2 → s.d.upBlocked i = true → dec = 3) ∧
        (dec = 3 ∨ dec = 4 → m = 0 ∧ e.adm.led.steps = s.d.adm.led.steps ∧ e.units = s.d.units ∧ e.rails = s.d.rails ∧
          e.sram = s.d.sram) ∧
        (dec ≠ 3 → dec ≠ 4 → (dec = 0 ∨ dec = 1 ∨ dec = 2) ∧ s.d.minGrant ≤ m ∧
          m ≤ (s.d.roomOf n i f (s.d.load i).resv).toNat ∧ (0 < m → s.d.stepFits (s.d.gtRail i) c o m = true) ∧
          (dec = 0 → m = reqMag f ∧ o = 0) ∧ (dec = 1 → m = reqMag f ∧ 0 < o) ∧
          (e.load i).stepEnd = s.d.refB + 5 + o + 2 ^ c ∧ (e.load i).resv = (s.d.load i).resv - m ∧
          ∃ q, e.adm.led.steps = s.d.adm.led.steps ++ [q] ∧ q.load = i ∧ q.kind = 1 ∧ q.mag = m ∧ q.start = s.d.refB + 5 + o ∧
            q.cls = c ∧ q.dP = s.d.deltaP (s.d.gtRail i) m) ∧
        ((s.d.port n).level < 2 → s.d.upBlocked i = false → (s.d.roomOf n i f (s.d.load i).resv).toNat = reqMag f →
          s.d.minGrant ≤ reqMag f → s.d.firstOff i = 0 → s.d.adm.led.freeze = false →
          s.d.stepFits (s.d.gtRail i) (s.d.slowest (reqMag f) 8 (max (reqRamp f) (s.d.gtMinRamp i))) 0 (reqMag f) = true →
          dec = 0 ∧ o = 0 ∧ m = reqMag f ∧ c = s.d.slowest (reqMag f) 8 (max (reqRamp f) (s.d.gtMinRamp i)))) ∧
  (∀ (s : State) (n : Fin 16) (f : StepFrame), s.d.shape = true → s.d.admitted n 2 = some f → (s.d.port n).busy ≤ s.d.refB → s.d.reqValid n f = true →
    (let q := (s.d.load (reqLoad f)).lastSeq
     let dist := (reqSeq f + 256 - q) % 256
     (s.d.load (reqLoad f)).seqValid = false ∨ (1 ≤ dist ∧ dist ≤ 128)) →
    Completes (.stepDown n) s [.jrn, .adm, .stat, .sram, .nv] fun e =>
      let i := reqLoad f
      (∀ j, j ≠ i → e.load j = s.d.load j) ∧ sameBut n.val s.d.adm.ports e.adm.ports ∧
      ∃ dec c o m, s.d.decided e i f dec c o m ∧ (e.port n).reply = some (replyFrame i (reqSeq f) dec (s.d.port n).level c o m) ∧
        if s.d.offsetMax < s.d.firstOff i then dec = 3 ∧ m = 0 ∧ e.adm.led.steps = s.d.adm.led.steps
        else dec = (if o = 0 then 0 else 1) ∧ m = reqMag f ∧ s.d.firstOff i ≤ o ∧ o ≤ s.d.offsetMax ∧
          ∃ q, e.adm.led.steps = s.d.adm.led.steps ++ [q] ∧ q.load = i ∧ q.kind = 2 ∧ q.neg = true ∧ q.mag = m ∧
            q.start = s.d.refB + 5 + o ∧ q.cls = c ∧
          ∀ k, s.d.firstOff i ≤ k → k ≤ s.d.offsetMax → s.d.slewFits (s.d.refB + 5 + k) c m = true →
            o ≤ k ∧ s.d.slewFits (s.d.refB + 5 + o) c m = true) ∧
  (∀ (s : State) (n : Fin 16) (f : StepFrame), s.d.shape = true → s.d.admitted n 3 = some f → (s.d.port n).busy ≤ s.d.refB → s.d.reqValid n f = true →
    (let q := (s.d.load (reqLoad f)).lastSeq
     let dist := (reqSeq f + 256 - q) % 256
     (s.d.load (reqLoad f)).seqValid = false ∨ (1 ≤ dist ∧ dist ≤ 128)) →
    Completes (.announce n) s [.jrn, .adm, .nv] fun e =>
      let i := reqLoad f
      (∀ j, j ≠ i → e.load j = s.d.load j) ∧ sameBut n.val s.d.adm.ports e.adm.ports ∧
      e.adm.led.steps = s.d.adm.led.steps ∧
      ∃ dec m, s.d.decided e i f dec (reqRamp f) 0 m ∧ (e.port n).reply = some (replyFrame i (reqSeq f) dec (s.d.port n).level (reqRamp f) 0 m) ∧
        (2 ≤ (s.d.port n).level → dec = 4) ∧ ((s.d.port n).level < 2 → s.d.upBlocked i = true → dec = 3) ∧
        ((s.d.port n).level < 2 → s.d.upBlocked i = false → s.d.minGrant ≤ (s.d.roomOf n i f 0).toNat → dec ≠ 3 ∧ dec ≠ 4) ∧
        (dec = 3 ∨ dec = 4 → m = 0 ∧ (e.load i).resv = (s.d.load i).resv) ∧
        (dec ≠ 3 → dec ≠ 4 → dec = (if m = reqMag f then 0 else 2) ∧ m = (s.d.roomOf n i f 0).toNat ∧ s.d.minGrant ≤ m ∧
          (e.load i).resv = m ∧ (e.load i).resvEnd = if reqHold f = 0 then none else some (s.d.now + 2 ^ (reqHold f + 3)))) ∧
  (∀ (s : State) (n : Fin 16) (f : StepFrame), s.d.shape = true → s.d.admitted n 4 = some f →
    (s.d.port n).busy ≤ s.d.refB → s.d.reqValid n f = true →
    Completes (.release n) s [.jrn, .adm, .sram, .nv] fun e =>
      let i := reqLoad f
      let a := (s.d.load i).alloc
      s.d.decided e i f 0 (reqRamp f) 0 (min 4095 a) ∧
      (e.port n).reply = some (replyFrame i (reqSeq f) 0 (s.d.port n).level (reqRamp f) 0 (min 4095 a)) ∧
      (e.load i).resv = 0 ∧ (e.load i).resvEnd = none ∧ (e.load i).alloc = a ∧ (e.load i).stepEnd = s.d.refB + 5 + 2 ^ reqRamp f ∧
      (∀ j, j ≠ i → e.load j = s.d.load j) ∧ sameBut n.val s.d.adm.ports e.adm.ports ∧
      ∃ q, e.adm.led.steps = s.d.adm.led.steps ++ [q] ∧ q.load = i ∧ q.kind = 4 ∧ q.start = s.d.refB + 5 ∧
        (q.mag : Int) = ((a : Int) - s.d.gtBase i).natAbs) ∧
  (∀ (s : State) (n : Fin 16) (f : StepFrame), s.d.shape = true → s.d.admitted n 5 = some f →
    (s.d.port n).busy ≤ s.d.refB → s.d.reqValid n f = true →
    Completes (.heartbeat n) s [.adm, .stat] fun e =>
      let i := reqLoad f
      (∃ ramp lvl, (e.port n).reply = some (replyFrame i (reqSeq f) 0 lvl ramp 0 (min 4095 (s.d.load i).alloc)) ∧
        (s.d.port n).level ≤ lvl) ∧
      (e.port n).quiet = 0 ∧ (e.port n).stale = false ∧ e.load i = { s.d.load i with stale := false } ∧
      (∀ j, j ≠ i → e.load j = s.d.load j) ∧ sameBut n.val s.d.adm.ports e.adm.ports ∧
      e.adm.led.steps = s.d.adm.led.steps ∧
      ((s.d.load i).alloc + s.d.fld 0x74 0x48 23 16 < reqMag f → (e.port n).unann = inc8 (s.d.port n).unann))

/-- LEDGER_LEAVE_CONSERVATIVE, STEP_SETTLE, RESERVATION_EXPIRE, UNANN_HALVING, PORT_STALE, CAP_LEVEL_FALL and FREEZE_LONG act once their condition has come: conservative budgeting ends; exactly the due steps of the load settle; the reservation is 0; every count halves; the port and each of its enabled entries is STALE and its level covers every cause; the level falls by one; the freeze is prolonged by its guard and recorded. Nothing else of the ledger, the ports and the entries changes. -/
def Obligations.LedgerAndCaps : Prop :=
  (∀ (s : State), s.d.adm.led.cons = true → (s.d.adm.led.learned = true ∨ 128 ≤ s.d.time.frond) →
    Completes .ledgerLeaveConservative s [.adm] fun e =>
      e.adm = { s.d.adm with led := { s.d.adm.led with cons := false } }) ∧
  (∀ (s : State) (i : Fin 256),
    Completes (.stepSettle i) s [.adm] fun e =>
      e.adm = { s.d.adm with led := { s.d.adm.led with steps := s.d.adm.led.steps.map fun q =>
        if q.load = i.val ∧ q.start + 2 ^ q.cls + 16 ≤ s.d.now then { q with settled := true } else q } }) ∧
  (∀ (s : State) (i : Fin 256) (t : Nat), s.d.shape = true → (s.d.load i).resvEnd = some t → t ≤ s.d.now →
    Completes (.reservationExpire i) s [.adm] fun e =>
      e.load i = { s.d.load i with resv := 0, resvEnd := none } ∧ sameBut i.val s.d.adm.loads e.adm.loads ∧
      e.adm.ports = s.d.adm.ports ∧ e.adm.led = s.d.adm.led) ∧
  (∀ (s : State), s.d.fld 0x78 0x88 15 8 ≤ s.d.adm.led.winLeft →
    Completes .unannHalving s [.adm] fun e =>
      e.adm = { s.d.adm with led := { s.d.adm.led with winLeft := 0 },
                             ports := s.d.adm.ports.map fun p => { p with unann := p.unann / 2 } }) ∧
  (∀ (s : State) (n : Fin 16), s.d.shape = true → (s.d.port n).stale = false → s.d.portLoads n ≠ [] →
    4 * s.d.fld 0x74 0x4C 7 0 ≤ (s.d.port n).quiet →
    Completes (.portStale n) s [.adm, .stat] fun e =>
      (e.port n).stale = true ∧ sameBut n.val s.d.adm.ports e.adm.ports ∧ e.adm.led = s.d.adm.led ∧
      (∀ i, i < 256 → e.load i = if i ∈ s.d.portLoads n then { s.d.load i with stale := true } else s.d.load i) ∧
      (if s.d.flag 0x78 (0x40 + 4 * n) 2 then 3 else 2) ≤ (e.port n).level ∧ (s.d.port n).level ≤ (e.port n).level ∧
      e.statOf 0x74 = (s.d.statOf 0x74).occur 3 4) ∧
  (∀ (s : State) (n : Fin 16), s.d.shape = true → s.d.phase = 255 → s.d.time.frondDue = true → 0 < (s.d.port n).level → (s.d.port n).fell = false →
    (s.d.port n).lastOf (s.d.port n).level + 256 * s.d.fld 0x78 0x88 7 0 ≤ s.d.now →
    Completes (.capLevelFall n) s [.adm] fun e =>
      e.port n = { s.d.port n with level := (s.d.port n).level - 1, fell := true } ∧
      sameBut n.val s.d.adm.ports e.adm.ports ∧ e.adm.led = s.d.adm.led ∧ e.adm.loads = s.d.adm.loads) ∧
  (∀ (s : State), s.d.adm.led.freeze = true → s.d.adm.led.freezeEnd ≤ s.d.now →
    Completes .freezeLong s [.adm, .stat] fun e =>
      e.adm = { s.d.adm with led := { s.d.adm.led with freezeEnd := s.d.adm.led.freezeEnd + s.d.fld 0x74 0x4C 23 8 } } ∧
      s.d.recorded e 0x75 2)

/-- IMON_INVALID after five invalid words in a row records IMON_INV and takes a member unit to FAULT in tri-state, a unit of no rail keeps its state; PRE_INVALID records the channel and makes it invalid, and the rail whose remote sense is lost enters FAULT_WAIT with the cause of an under-voltage; every other channel stands. -/
def Obligations.InvalidWords : Prop :=
  (∀ (s : State) (n : Fin 64), s.d.shape = true → 5 ≤ (s.d.unit n).badRun → (s.d.unit n).imonInv = false →
    Completes (.imonInvalid n) s [.stat, .inj, .fh, .units, .rails] fun e =>
      (e.unit n).imonInv = true ∧ e.statOf 0x80 = (s.d.statOf 0x80).occur 4 5 ∧
      (s.d.memberOf n = none → e.unit n = { s.d.unit n with imonInv := true } ∧ e.rails = s.d.rails ∧ sameBut n.val s.d.units e.units) ∧
      (s.d.memberOf n ≠ none →
        (e.unit n).st = (if (s.d.unit n).st = .lost then .lost else .fault) ∧ (e.unit n).tri = true ∧ (e.unit n).duty = 0)) ∧
  (∀ (s : State) (c : Fin 17), s.d.shape = true → c.val < 16 → 5 ≤ (s.d.pre c).badRun → (s.d.pre c).invalid = false →
    Completes (.preInvalid c) s [.stat, .inj, .fh, .units, .sense, .rails] fun e =>
      e.pre c = { s.d.pre c with invalid := true } ∧ sameBut c.val s.d.sense.pre e.sense.pre ∧
      e.sense = { s.d.sense with pre := e.sense.pre } ∧ e.statOf 0x80 = (s.d.statOf 0x80).occur 5 6 ∧
      if c.val < 4 ∧ (s.d.rail c).st.switching = true then
        (e.rail c).st = .faultWait ∧ (e.rail c).gateOn = false ∧ e.statOf (railPg c) = (s.d.statOf (railPg c)).occur 3 4 ∧
        sameBut c.val s.d.rails e.rails
      else e.rails = s.d.rails ∧ e.units = s.d.units ∧ e.fh = s.d.fh ∧ e.inj = s.d.inj)

/-- METROLOGY_RESULT stores the result of a channel that has result registers with its flags, counts it and records an overrange; REF_SETTLED and VREFX_FALLBACK move the reference; AUX_STEP_DONE stores the result of the step for its input with age 0 unless a word was missed, and begins the next step in either case; AUX_STALE marks an old result; INTMON_RESULT stores the monitor, and the second shut-down result in a row of a die S sensor enters the safe state. Every other channel, input and monitor stands. -/
def Obligations.Measurements : Prop :=
  (∀ (s : State) (c : Fin 17) (raw : BitVec 24), s.d.shape = true → c.val ≠ 14 → c.val ≠ 15 →
    Completes (.metrologyResult c raw) s [.stat, .sense] fun e =>
      let q := if c.val = 16 then (s.d.sense.cal.spareFor).getD 16 else c.val
      let m := if s.d.sense.cal.preSubst = c.val then 16 else c.val
      let y := (raw.toInt + 8 * signed 16 (s.d.pre m).offTrim) * (2 ^ 18 + signed 16 (s.d.pre m).gainTrim)
      let v := Config.rdiv 75 (s.d.preScaled s.d.vref q y (8 * s.d.preDen q)) (8 * s.d.preDen q)
      (e.pre c).met = sat32 v ∧ (e.pre c).metCount = ((s.d.pre c).metCount + 1) % 65536 ∧
      ((e.pre c).metUnset = true ↔ s.d.now < (s.d.pre c).metSince + metTicks (bits (s.d.preReg q 0x40) 11 8)) ∧
      (e.pre c).metRef = ((s.d.pre c).refLow || !s.d.sense.ref.settled) ∧ (e.pre c).refLow = !s.d.sense.ref.settled ∧
      ((e.pre c).metSub = true ↔ s.d.sense.cal.preSubst = c.val) ∧ (e.pre c).val = (s.d.pre c).val ∧
      sameBut c.val s.d.sense.pre e.sense.pre ∧ e.sense = { s.d.sense with pre := e.sense.pre } ∧
      if 32767 * 2 ^ preShift q < v ∨ v < -(32767 * 2 ^ preShift q) then
        (e.pre c).metOver = true ∧ s.d.recorded e (prePg c) 1
      else (e.pre c).metOver = false ∧ e.stat = s.d.stat) ∧
  (∀ (s : State) (c : Fin 17) (raw : BitVec 24), c.val = 14 ∨ c.val = 15 → exec (.metrologyResult c raw) s = .next s) ∧
  (∀ (s : State), s.d.sense.ref.left = 0 →
    Completes .refSettled s [.sense] fun e => e.sense = { s.d.sense with ref := { s.d.sense.ref with settled := true } }) ∧
  (∀ (s : State), s.d.sense.ref.inUse = 1 → 8 ≤ s.d.sense.ref.badRun →
    Completes .vrefxFallback s [.stat, .sense] fun e =>
      e.sense = { s.d.sense with ref := ⟨0, false, s.d.fld 0x81 0x40 15 8 + 1, true, 0⟩ } ∧ s.d.recorded e 0x81 1) ∧
  (∀ (s : State), s.d.shape = true → s.d.sense.aux.due = true →
    Completes .auxStepDone s [.stat, .bbus, .nv, .therm, .sense] fun e =>
      let q := s.d.sense.aux
      let w := s.d.auxEntry q.entry
      let a := bits w 4 0
      e.sense.pre = s.d.sense.pre ∧ e.sense.ref = s.d.sense.ref ∧ e.sense.cal = s.d.sense.cal ∧
      e.sense.aux.due = false ∧ e.sense.aux.pos = 0 ∧
      e.sense.aux.entry = (if s.d.fld 0x82 0x40 8 0 ≤ q.entry + 1 then 0 else q.entry + 1) ∧
      if q.gap then e.sense.aux.inputs = q.inputs ∧ e.stat = s.d.stat ∧ e.bbus = s.d.bbus ∧ e.nv = s.d.nv ∧ e.therm = s.d.therm
      else sameBut a q.inputs e.sense.aux.inputs ∧ (e.auxIn a).age = 0 ∧ (e.auxIn a).stale = false ∧
        (e.auxIn a).entry = q.entry ∧ (e.auxIn a).badWord = q.bad ∧ (e.auxIn a).unsettled = q.refLow ∧
        (e.auxIn a).full = Config.rdiv 8 s.d.vref (2 ^ bits w 9 8) ∧
        (e.auxIn a).res = Config.rdiv 9 (q.acc1 * (e.auxIn a).full) ((auxWords w : Int) * 32768) ∧
        ((e.auxIn a).overF = true ↔
          q.acc1 * 1000 < -5 * (auxWords w : Int) * 32768 ∨ 1005 * (auxWords w : Int) * 32768 < q.acc1 * 1000)) ∧
  (∀ (s : State) (a : Fin 32), s.d.shape = true → (s.d.auxIn a).full ≠ 0 → (s.d.auxIn a).stale = false →
    s.d.fld 0x82 0x40 23 16 < (s.d.auxIn a).age →
    Completes (.auxStale a) s [.stat, .sense] fun e =>
      e.auxIn a = { s.d.auxIn a with stale := true } ∧ (e.auxIn a).invalid = true ∧
      sameBut a.val s.d.sense.aux.inputs e.sense.aux.inputs ∧ s.d.recorded e 0x82 2) ∧
  (∀ (s : State) (i : Fin 20) (sum : Int) (low : Bool), s.d.shape = true → s.d.sense.intDue = some (i.val, sum, low) →
    Completes (.intmonResult i) s [.feedB, .stat, .feedA, .hs, .nv, .die, .units, .therm, .peat, .sense] fun e =>
      let v := Config.monitorScale i sum s.d.vref
      nth e.sense.intmon i 0 = v ∧ sameBut i.val s.d.sense.intmon e.sense.intmon ∧ e.sense.pre = s.d.sense.pre ∧
      e.sense.intDue = none ∧ (s.d.sense.intUns.length = 20 → nth e.sense.intUns i false = low) ∧
      (11 ≤ i.val → e = { s.d with sense := e.sense }) ∧
      (s.d.therm.sShut.length = 11 → i.val < 11 → bitAt s.d.therm.susS i = false → s.d.shutOf 1 ≤ v →
        1 ≤ nth s.d.therm.sShut i 0 → nth s.d.therm.sShut i 0 < 3 → e.die.safe = true)) ∧
  (∀ (s : State) (i : Fin 20), s.d.sense.intDue.map (fun w => w.1) ≠ some i.val → exec (.intmonResult i) s = .next s)

/-- CAL_WINDOW_START begins the window that is due with its spare connected where it is free, without one where the rail keeps enough units, and otherwise idle and counted as deferred; CAL_TAKEOVER in frond 4 carries the channel on the spare or takes the unit out of service; CAL_RECONNECT in frond 56 stores the new trims unless the self-test fails, and the outcome of an open-wire test; CAL_RETURN in frond 62 ends the takeover, and a failed modulator is substituted by its spare, its spare marked failed, or itself failed; CAL_DISCONNECT, CAL_WINDOW_RESTART and SENS_CAL_NOW change the calibration state alone. -/
def Obligations.CalibrationWindows : Prop :=
  (∀ (s : State), s.d.sense.cal.due = true →
    Completes .calWindowStart s [.stat, .sense] fun e =>
      let c := s.d.sense.cal
      let w := c.window
      e.sense = { s.d.sense with cal := e.sense.cal } ∧ e.sense.cal.running = true ∧ e.sense.cal.due = false ∧
      e.sense.cal.diffAcc = 0 ∧ e.sense.cal.diffN = 0 ∧ e.sense.cal.testFail = false ∧ e.sense.cal.frond = 0 ∧ e.sense.cal.window = w ∧ e.sense.cal.takeover = false ∧ e.sense.cal.subst = c.subst ∧
      (if winIsSpare w then e.sense.cal.idle = false ∧ e.sense.cal.spareOn = false ∧ e.stat = s.d.stat
       else if c.spareFree w then e.sense.cal.idle = false ∧ e.sense.cal.spareOn = true ∧ e.stat = s.d.stat
       else if w < 72 ∧ s.d.windowOk w = true then e.sense.cal.idle = false ∧ e.sense.cal.spareOn = false ∧ e.stat = s.d.stat
       else e.sense.cal.idle = true ∧ e.sense.cal.deferCount = satInc 65535 c.deferCount ∧ e.sense.cal.deferLast = w ∧
         s.d.recorded e 0x80 3)) ∧
  (∀ (s : State), s.d.shape = true → s.d.sense.cal.running = true → s.d.sense.cal.frond = 4 → s.d.sense.cal.idle = false →
    s.d.sense.cal.restart = false → winIsSpare s.d.sense.cal.window = false →
    Completes .calTakeover s [.units, .sense] fun e =>
      let c := s.d.sense.cal
      if c.spareOn then e.sense = { s.d.sense with cal := { c with takeover := true } } ∧ e.units = s.d.units
      else if c.window < 72 then
        e.sense = { s.d.sense with cal := { c with unitOut := true } } ∧ sameBut (winUnit c.window) s.d.units e.units ∧
        (e.unit (winUnit c.window)).st ≠ .active ∧ e.usable (winUnit c.window) = false
      else e = s.d) ∧
  (∀ (s : State) (m : CalMeas), s.d.shape = true → s.d.sense.cal.running = true → s.d.sense.cal.frond = 56 →
    s.d.sense.cal.idle = false → s.d.sense.cal.restart = false → s.d.sense.cal.window < 89 →
    s.d.sense.cal.phGain.length = 72 → s.d.sense.cal.phOff.length = 72 →
    Completes (.calReconnect m) s [.stat, .sense] fun e =>
      let w := s.d.sense.cal.window
      e.sense.cal.testFail = calFails m ∧ e.sense.cal.measured = true ∧ e.sense.cal.diffAcc = 0 ∧ e.sense.cal.diffN = 0 ∧ e.sense.aux = s.d.sense.aux ∧
      (calFails m = true → e.statOf 0x80 = (s.d.statOf 0x80).occur 0 1) ∧
      if 72 ≤ w then
        sameBut (w - 72) s.d.sense.pre e.sense.pre ∧ e.sense.cal.oldGain = (s.d.pre (w - 72)).gainTrim ∧
        e.sense.cal.oldOff = (s.d.pre (w - 72)).offTrim ∧
        (e.pre (w - 72)).gainTrim = (if calFails m then (s.d.pre (w - 72)).gainTrim else m.gainTrim.toNat) ∧
        (e.pre (w - 72)).offTrim = (if calFails m then (s.d.pre (w - 72)).offTrim else m.offTrim.toNat) ∧
        (e.pre (w - 72)).openWire = (if s.d.openTest then s.d.sense.cal.openFound else (s.d.pre (w - 72)).openWire) ∧
        (s.d.openTest = true → s.d.sense.cal.openFound = true → e.stBit (prePg (w - 72)) 0 = true)
      else e.sense.pre = s.d.sense.pre ∧ e.sense.cal.oldGain = nth s.d.sense.cal.phGain w 0 ∧
        e.sense.cal.oldOff = nth s.d.sense.cal.phOff w 0 ∧ sameBut w s.d.sense.cal.phGain e.sense.cal.phGain ∧
        sameBut w s.d.sense.cal.phOff e.sense.cal.phOff ∧
        nth e.sense.cal.phGain w 0 = (if calFails m then nth s.d.sense.cal.phGain w 0 else m.gainTrim.toNat) ∧
        nth e.sense.cal.phOff w 0 = (if calFails m then nth s.d.sense.cal.phOff w 0 else m.offTrim.toNat)) ∧
  (∀ (s : State), s.d.shape = true → s.d.sense.cal.running = true → s.d.sense.cal.frond = 62 →
    s.d.sense.cal.idle = false → s.d.sense.cal.restart = false →
    Completes .calReturn s [.stat, .sense] fun e =>
      let c := s.d.sense.cal
      let w := c.window
      let cmp := !winIsSpare w && !c.unitOut && decide (8 * s.d.fld 0x80 0x48 15 8 * c.diffN < c.diffAcc.natAbs)
      let bad := c.testFail || cmp
      e.sense.cal.takeover = false ∧ e.sense.cal.unitOut = false ∧
      (bad = false → e.stat = s.d.stat ∧ e.sense = { s.d.sense with cal := { c with takeover := false, unitOut := false } }) ∧
      (bad = true → winIsSpare w = true → w < 72 →
        e.sense.cal.subst = updAt c.subst (winCluster w) (fun x => if x < 8 then x else 9) ∧
        e.statOf 0x80 = (s.d.statOf 0x80).occur 2 3) ∧
      (c.testFail = false → cmp = true → c.measured = true → 72 ≤ w → w < 89 →
        (e.pre (w - 72)).gainTrim = c.oldGain ∧ (e.pre (w - 72)).offTrim = c.oldOff) ∧
      (c.testFail = false → cmp = true → c.measured = true → w < 72 →
        e.sense.cal.phGain = updAt c.phGain w (fun _ => c.oldGain) ∧ e.sense.cal.phOff = updAt c.phOff w (fun _ => c.oldOff)) ∧
      (bad = true → winIsSpare w = false → c.spareOn = true → w < 72 →
        e.sense.cal.subst = updAt c.subst (winCluster w) (fun _ => w % 9) ∧ e.sense.pre = s.d.sense.pre) ∧
      (bad = true → winIsSpare w = false → c.spareOn = true → 72 ≤ w → e.sense.cal.preSubst = w - 72) ∧
      (bad = true → winIsSpare w = false → c.spareOn = false → w < 72 →
        e.sense.cal.failed = updAt c.failed w (fun _ => true) ∧ e.sense.pre = s.d.sense.pre)) ∧
  (∀ (s : State), s.d.sense.cal.running = true → s.d.sense.cal.frond = 63 →
    Completes .calDisconnect s [.sense] fun e =>
      e.sense = { s.d.sense with cal := { s.d.sense.cal with spareOn := false } }) ∧
  (∀ (s : State), s.d.sense.cal.restart = true → s.d.calReady = true →
    Completes .calWindowRestart s [.sense] fun e =>
      e.sense.cal = { s.d.sense.cal with
        restart := false, frond := 0, testFail := false, measured := false, diffAcc := 0, diffN := 0, owA := 0, owAN := 0,
        owB := 0, owBN := 0 } ∧
      e.sense = { s.d.sense with cal := e.sense.cal }) ∧
  (∀ (s : State) (v : Word32),
    Completes (.sensCalNow v) s [.sense] fun e =>
      e.sense = if bitAt v.toNat 7 = true ∧ bits v.toNat 6 0 ≤ 88
        then { s.d.sense with cal := { s.d.sense.cal with now := some (bits v.toNat 6 0) } } else s.d.sense)

/-- RATE_CHECK_ENABLE completes and turns the rate checks on from frond 64 of the run, and before it changes nothing; THERMAL_HOLD_END completes and frees a unit whose end condition has held long enough and no other, and a unit whose condition has not held so long stays held; WRITE_HOLD_END completes and ends the write hold after two cool boundaries, and writes what waited, one ring after the other in their order and then what the modules kept, unless VAUX_WARN still holds it; before the second cool boundary it changes nothing. -/
def Obligations.HeatEvents : Prop :=
  (∀ (s : State), 64 ≤ s.d.time.frond →
    Completes .rateCheckEnable s [.therm] fun e => e.therm = { s.d.therm with rateEn := true }) ∧
  (∀ (s : State), s.d.time.frond < 64 → exec .rateCheckEnable s = .next s) ∧
  (∀ (s : State) (n : Fin 64), s.d.shape = true → (s.d.unit n).hold = true →
    s.d.fld 0xA8 0x64 15 0 ≤ nth s.d.therm.holdN n 0 →
    Completes (.thermalHoldEnd n) s [.units] fun e =>
      e.unit n = { s.d.unit n with hold := false } ∧ sameBut n.val s.d.units e.units) ∧
  (∀ (s : State) (n : Fin 64), (s.d.unit n).hold = false ∨ nth s.d.therm.holdN n 0 < s.d.fld 0xA8 0x64 15 0 →
    exec (.thermalHoldEnd n) s = .next s) ∧
  (∀ (s : State), s.d.therm.hold = true → s.d.therm.cool = 2 →
    Completes .writeHoldEnd s [.bbus, .nv, .therm] fun e =>
      e.therm.hold = false ∧
      if s.d.sup.vauxWarn then e.nv = s.d.nv ∧ e.bbus = s.d.bbus ∧ e.therm = { s.d.therm with hold := false }
      else e.therm = { s.d.therm with hold := false, nvWait := [] } ∧ (∀ m, m < 4 → (e.bbu m).pendCap = []) ∧
        ((∀ m, m < 4 → (s.d.bbu m).pendCap = []) → e.bbus = s.d.bbus ∧
          (s.d.therm.nvWait = [] → e.nv = s.d.nv) ∧
          ∀ n b, s.d.therm.nvWait = [(n, [b])] → n < s.d.nv.gen.length → n < s.d.nv.slot.length → n < s.d.nv.force.length →
            n ≠ 1 → nth e.nv.gen n 0 = (nth s.d.nv.gen n 0 + 1) % 2 ^ 32 ∧ nth e.nv.force n 0 = nth e.nv.slot n 0 ∧
            (s.d.twin.a.st.running = true → e.nv.a = memWriteBytes s.d.nv.a (0x330000 + 1024 * n + 16 * nth e.nv.slot n 0)
              (ringSlot (nth s.d.nv.gen n 0 + 1) 1 (s.d.isActiveN .a) 1 [b])))) ∧
  (∀ (s : State), s.d.therm.hold = false ∨ s.d.therm.cool ≠ 2 → exec .writeHoldEnd s = .next s)

/-- COUNT_INVALID stops the allowance of a module and records its bit; FULL_ANCHOR and EMPTY_ANCHOR make an anchor due; RESERVE_ENTRY, FIRST_ESTIMATE, BBU_REMOVAL and CHG_COMM move the module as their rules say; BBU_STATUS_POLL sends both reads, records an answer, is tried again in the next frond after a first attempt without one, counts a miss after the second, and fails at once while the port is STUCK; BBU_INSERTION and COMPAT_SWAP begin an estimate for a module that has come. Every other module stands. -/
def Obligations.BatteryEvents : Prop :=
  (∀ (s : State) (m : Fin 4), s.d.shape = true → s.d.bbuEn m = true → (s.d.bbu m).countInv = false →
    (5 ≤ (s.d.bbu m).gapRun ∨ (s.d.bbu m).uncounted = true) →
    Completes (.countInvalid m) s [.stat, .bbus, .nv, .therm] fun e =>
      ((s.d.bbu m).learning = false → e.nv = s.d.nv ∧ e.therm = s.d.therm) ∧ 
      (e.bbu m).countInv = true ∧ (e.bbu m).allow = 0 ∧ (e.bbu m).learning = false ∧ sameBut m.val s.d.bbus e.bbus ∧
      (let st := s.d.statOf (bbuPg m)
       e.statOf (bbuPg m) = (if (s.d.bbu m).learning then st.occur 4 5 else st).occur 9 10) ∧ ∀ q, q ≠ bbuPg m → e.statOf q = s.d.statOf q) ∧
  (∀ (s : State) (m : Fin 4), s.d.shape = true → s.d.fullSeen m = true → (s.d.bbu m).emptyDue = false →
    (s.d.bbu m).topped = false →
    Completes (.fullAnchor m) s [.bbus] fun e =>
      e.bbu m = { s.d.bbu m with fullDue := true } ∧ sameBut m.val s.d.bbus e.bbus) ∧
  (∀ (s : State) (m : Fin 4), s.d.shape = true → (s.d.bbu m).present = true → 2 ≤ (s.d.bbu m).vLow →
    s.d.bbuWord m < -(s.d.deadband m) →
    Completes (.emptyAnchor m) s [.bbus] fun e =>
      e.bbu m = { s.d.bbu m with emptyDue := true, fullDue := false } ∧ sameBut m.val s.d.bbus e.bbus) ∧
  (∀ (s : State) (m : Fin 4), s.d.shape = true → (s.d.bbu m).low = true → (s.d.bbu m).emptyDue = false → (s.d.bbu m).q = 0 →
    ((s.d.bbu m).st = .estimated ∨ (s.d.bbu m).st = .anchored) →
    Completes (.reserveEntry m) s [.stat, .bbus, .nv, .therm] fun e =>
      e.bbu m = { s.d.bbu m with st := .reserve, relearn := true, low := false, records := (e.bbu m).records } ∧
      ((e.bbu m).records.head?.map BbuRec.relearn) = some true ∧ (s.d.nvHeld = true → e.nv = s.d.nv) ∧ (s.d.nvHeld = false → e.therm = s.d.therm) ∧ sameBut m.val s.d.bbus e.bbus ∧
      s.d.recorded e (bbuPg m) 3) ∧
  (∀ (s : State) (m : Fin 4) (answer : Option (BitVec 16 × Byte)), s.d.shape = true → s.d.bbuEn m = true →
    s.d.bbuCompat m = false → 64 ≤ (s.d.bbu m).pollN → s.d.twcBusy 2 = false → (s.d.twc 2).stuck = false →
    Completes (.bbuStatusPoll m answer) s [.die, .stat, .bbus, .twC] fun e =>
      let b := s.d.bbu m
      let t := s.d.twc 2
      let addr := s.d.fld (bbuPg m) 0x40 22 16
      let sent := readBlk 2 addr 0xD4 :: readBlk 2 addr 0x79 :: s.d.die.sent
      sameBut m.val s.d.bbus e.bbus ∧ sameBut 2 s.d.twC e.twC ∧
      match (if t.arbFail then none else answer) with
      | none =>
          e.die = { s.d.die with sent := sent } ∧ (if t.arbFail then e.stat = s.d.stat else s.d.recorded e 0xBC 0) ∧
          if b.pollAgain then
            e.bbu m = { b with pollN := 1, pollAgain := false, misses := satInc 3 b.misses, statusOk := false, term := false } ∧
            e.twc 2 = { t with arbN := 0, arbFail := false, failed := satInc 65535 t.failed, addr := addr }
          else e.bbu m = { b with pollN := 63, pollAgain := true } ∧ e.twc 2 = { t with arbN := 0, arbFail := false }
      | some a =>
          (e.bbu m).pollN = b2n b.pollAgain ∧ (e.bbu m).pollAgain = false ∧
          (e.bbu m).misses = 0 ∧ (e.bbu m).statusOk = true ∧ (e.bbu m).term = a.2.getLsbD 0 ∧
          (e.bbu m).newPresence = (b.newPresence || !b.present) ∧
          (e.bbu m).st = (if a.2.getLsbD 2 = true ∧ b.present = true then .fault else if b.st = .fault then b.afterFault else b.st) ∧
          e.twc 2 = { t with arbN := 0, arbFail := false, done := min 65535 (t.done + 2) } ∧ e.stat = s.d.stat ∧
          e.die = { s.d.die with sent := sent, inq := s.d.die.inq ++ [⟨0x14, leBytes 2 a.1.toNat, false⟩, ⟨0x14, [a.2], false⟩] }) ∧
  (∀ (s : State) (m : Fin 4) (answer : Option (BitVec 16 × Byte)), s.d.shape = true → s.d.bbuEn m = true →
    s.d.bbuCompat m = false → 64 ≤ (s.d.bbu m).pollN → s.d.twcBusy 2 = false → (s.d.twc 2).stuck = true →
    Completes (.bbuStatusPoll m answer) s [.bbus, .twC] fun e =>
      let b := s.d.bbu m
      let t := s.d.twc 2
      sameBut m.val s.d.bbus e.bbus ∧ sameBut 2 s.d.twC e.twC ∧
      e.bbu m = { b with pollN := b2n b.pollAgain, pollAgain := false, misses := satInc 3 b.misses, statusOk := false, term := false } ∧
      e.twc 2 = { t with failed := satInc 65535 t.failed, addr := s.d.fld (bbuPg m) 0x40 22 16 }) ∧
  (∀ (s : State) (m : Fin 4) (serial : BitVec 64), s.d.shape = true → (s.d.bbu m).newPresence = true →
    (s.d.bbu m).present = false → s.d.twcBusy 2 = false → (s.d.twc 2).stuck = false →
    Completes (.bbuInsertion m serial) s [.die, .stat, .bbus, .twC, .nv, .therm] fun e =>
      e.die = { s.d.die with sent := readBlk 2 (s.d.fld (bbuPg m) 0x40 22 16) 0x9E :: s.d.die.sent,
                             inq := s.d.die.inq ++ [⟨0x14, leBytes 8 serial.toNat, false⟩] } ∧
      e.twc 2 = { s.d.twc 2 with done := min 65535 ((s.d.twc 2).done + 1) } ∧ sameBut 2 s.d.twC e.twC ∧
      (e.bbu m).st = .estimating ∧ (e.bbu m).present = true ∧ (e.bbu m).known = false ∧ (e.bbu m).serial = serial.toNat ∧
      (e.bbu m).newPresence = false ∧ sameBut m.val s.d.bbus e.bbus ∧ (let st := s.d.statOf (bbuPg m)
       e.statOf (bbuPg m) = st.occur 0 1 ∨ e.statOf (bbuPg m) = (st.occur 4 5).occur 0 1) ∧ ∀ q, q ≠ bbuPg m → e.statOf q = s.d.statOf q) ∧
  (∀ (s : State) (m : Fin 4), s.d.shape = true → (s.d.bbu m).present = true →
    (if s.d.bbuCompat m then 2 ≤ (s.d.bbu m).absRun else 3 ≤ (s.d.bbu m).misses) →
    Completes (.bbuRemoval m) s [.stat, .bbus, .nv, .therm] fun e =>
      ((s.d.bbu m).learning = false → e.nv = s.d.nv ∧ e.therm = s.d.therm) ∧ (e.bbu m).gone = true ∧ (e.bbu m).chgI = 0 ∧ (e.bbu m).idDue = none ∧ (e.bbu m).sendDue = true ∧
      (e.bbu m).st = .absent ∧ (e.bbu m).present = false ∧ (e.bbu m).chgOn = false ∧ (e.bbu m).allow = 0 ∧
      (e.bbu m).known = false ∧ (e.bbu m).learning = false ∧ sameBut m.val s.d.bbus e.bbus ∧
      (let st := s.d.statOf (bbuPg m)
       e.statOf (bbuPg m) = (if (s.d.bbu m).learning then st.occur 4 5 else st).occur 1 2) ∧ ∀ q, q ≠ bbuPg m → e.statOf q = s.d.statOf q) ∧
  (∀ (s : State) (m : Fin 4), s.d.shape = true → (s.d.bbu m).st = .estimating →
    (s.d.bbu m).idDue = none →
    let b := s.d.bbu m
    let rest := decide (200000 * s.d.fld (bbuPg m) 0x58 23 16 ≤ b.restN)
    let late := decide (2000000 * s.d.fld (bbuPg m) 0x58 15 8 ≤ b.waitN)
    let v := if rest then Config.rdiv 39 (b.v + b.vPrev) 2
      else b.v + Config.rdiv 36 (((s.d.preVal (9 + m)).natAbs : Int) * (s.d.fld (bbuPg m) 0x44 15 0 : Int)) 100000
    rest = true ∨ late = true →
    Completes (.firstEstimate m) s [.stat, .bbus] fun e =>
      e.bbu m = { b with st := .estimated, q := s.d.socAt m v b.c, r := 0, known := true, loaded := !rest } ∧
      sameBut m.val s.d.bbus e.bbus ∧
      (if s.d.classOk m then e.stat = s.d.stat else s.d.recorded e (bbuPg m) 11)) ∧
  (∀ (s : State) (m : Fin 4), s.d.shape = true → s.d.bbuCompat m = true → s.d.bbuEn m = true → (s.d.bbu m).swapSeen = true →
    (s.d.bbu m).present = false →
    Completes (.compatSwap m) s [.stat, .bbus] fun e =>
      (e.bbu m).st = .estimating ∧ (e.bbu m).present = true ∧ (e.bbu m).swapSeen = false ∧
      (e.bbu m).known = false ∧ (e.bbu m).idInvalid = false ∧ (e.bbu m).idDue = some (s.d.bbu m).gone ∧ (e.bbu m).chgOn = false ∧ sameBut m.val s.d.bbus e.bbus ∧ s.d.recorded e (bbuPg m) 0) ∧
  (∀ (s : State) (m : Fin 4), s.d.shape = true → 3 ≤ (s.d.bbu m).naks →
    Completes (.chgComm m) s [.stat, .bbus] fun e =>
      e.bbu m = { s.d.bbu m with naks := 0 } ∧ sameBut m.val s.d.bbus e.bbus ∧ s.d.recorded e (bbuPg m) 8)

/-- TWIN_SILENT, judged after the copies of the tick, applies rule 1: it is recorded as the last rule, and outside SINGLE operation the twin is quarantined; HB_PATH_LOST marks the path lost and records HB_PATH; HB_PATH_RESTORED ends that after 64 heartbeats, and HB_PATH clears once no path of either twin is lost (the model's reading, log entry 18). The other twin stands. That the copies of the tick are counted first is the model's reading (log entry 16). -/
def Obligations.TwinHeartbeats : Prop :=
  (∀ (s : State) (t : Twin), let c := s.d.countTwins
    (c.twinOf t).silent = true → c.die.ruled = false →
    Completes (.twinSilent t) s [.stat, .twin, .nv, .die, .therm, .sramA, .sramB] fun e =>
      (match t with
        | .a => e.sramB = s.d.sramB ∧ e.sramA = (if c.single then s.d.sramA else some s.d.sram)
        | .b => e.sramA = s.d.sramA ∧ e.sramB = (if c.single then s.d.sramB else some s.d.sram)) ∧
      e.die.ruled = true ∧ e.twin.loadDiffer = false ∧ e.twin.lastRule = 1 ∧ e.twin.lastTwin = t ∧ e.twin.lastTseq = s.d.time.tseq ∧
      if c.single then e.twinOf t = c.twinOf t ∧ e.twinOf (otherTwin t) = c.twinOf (otherTwin t) else c.quarantined e t) ∧
  (∀ (s : State) (t : Twin) (p : HbPath), let c := s.d.countTwins
    (c.twinOf t).st.running = true → (c.twinOf t).tickLost = false → (c.twinOf t).sLost = false →
    (p = .tick → (c.twinOf t).tickMiss = 2 ∧ (c.twinOf t).sMiss = 0) →
    (p = .s → (c.twinOf t).sMiss = 2 ∧ (c.twinOf t).tickMiss = 0) →
    Completes (.hbPathLost t p) s [.stat, .twin, .die] fun e =>
      c.recorded e 0xA0 5 ∧ e.die = c.die ∧ e.twinOf (otherTwin t) = c.twinOf (otherTwin t) ∧
      e.twinOf t = (match p with
        | .tick => { c.twinOf t with tickLost := true }
        | .s => { c.twinOf t with sLost := true })) ∧
  (∀ (s : State) (t : Twin) (p : HbPath),
    (p = .tick → (s.d.twinOf t).tickLost = true ∧ (s.d.twinOf t).tickGood = 64) →
    (p = .s → (s.d.twinOf t).sLost = true ∧ (s.d.twinOf t).sGood = 64) →
    Completes (.hbPathRestored t p) s [.stat, .twin] fun e =>
      (∀ q, q ≠ 0xA0 → e.statOf q = s.d.statOf q) ∧
      (if e.twin.a.pathLost = true ∨ e.twin.b.pathLost = true then e.stat = s.d.stat
       else ∀ i, e.stBit 0xA0 i = (s.d.stBit 0xA0 i && decide (i ≠ 5))) ∧
      e.twinOf (otherTwin t) = s.d.twinOf (otherTwin t) ∧
      e.twinOf t = (match p with
        | .tick => { s.d.twinOf t with tickLost := false }
        | .s => { s.d.twinOf t with sLost := false }))

/-- TWIN_SELF_TEST_DONE takes a RESTART twin to RESYNC within its time with its island PLLs locked (the moment is the model's choice, log entry 113); RESTART_FAIL takes it to OUT after that time and records TWIN_OUT and RESTART_FAIL; CUT_IN at a frond boundary outside the package-level safe state returns a RESYNC twin in PROBATION for 64 fronds with the pages it missed and idles the capture unit; PROBATION_END makes it STANDBY; AUTO_RESTART counts as a quarantine. The other twin stands. -/
def Obligations.TwinReturns : Prop :=
  (∀ (s : State) (t : Twin), (s.d.twinOf t).st = .restart →
    s.d.now ≤ (s.d.twinOf t).since + (if (s.d.twinOf t).relock then 256 else 32) →
    Completes (.twinSelfTestDone t) s [.twin, .time] fun e =>
      e.time = (match t with | .a => { s.d.time with lockA := 0x7FF } | .b => { s.d.time with lockB := 0x7FF }) ∧
      e.twinOf t = { s.d.twinOf t with st := .resync, pages := (s.d.dirtyOf t).length } ∧
      e.twinOf (otherTwin t) = s.d.twinOf (otherTwin t)) ∧
  (∀ (s : State) (t : Twin), (s.d.twinOf t).st = .restart →
    (s.d.twinOf t).since + (if (s.d.twinOf t).relock then 256 else 32) ≤ s.d.now →
    Completes (.restartFail t) s [.stat, .twin, .nv, .therm] fun e =>
      (e.twinOf t).st = .out ∧ (e.twinOf t).retired = false ∧ (e.twinOf t).outLeft = s.d.fld 0xA0 0x44 15 0 ∧
      e.twinOf (otherTwin t) = s.d.twinOf (otherTwin t) ∧ e.nv = s.d.nv ∧ e.therm = s.d.therm ∧
      e.statOf 0xA0 = ((s.d.statOf 0xA0).occur 10 11).occur 9 10) ∧
  (∀ (s : State) (t : Twin), (s.d.twinOf t).st = .resync → s.d.atBoundary = true →
    (s.d.twinOf (otherTwin t)).st.running = true → s.d.die.safe = false →
    Completes (.cutIn t) s [.cap, .twin, .nv, .sramA, .sramB] fun e =>
      (match t with
        | .a => e.sramA = none ∧ e.sramB = s.d.sramB
        | .b => e.sramB = none ∧ e.sramA = s.d.sramA) ∧
      (e.twinOf t).st = .probation ∧ (e.twinOf t).prob = 64 ∧ e.twinOf (otherTwin t) = s.d.twinOf (otherTwin t) ∧
      e.twin.resPages = min 65535 (s.d.dirtyOf t).length ∧ e.cap.st = .idle ∧
      e.nv = (match t with
        | .a => { s.d.nv with a := copyPages s.d.nv.b s.d.nv.a s.d.nv.dirtyA, dirtyA := [] }
        | .b => { s.d.nv with b := copyPages s.d.nv.a s.d.nv.b s.d.nv.dirtyB, dirtyB := [] })) ∧
  (∀ (s : State) (t : Twin), (s.d.twinOf t).st = .probation → (s.d.twinOf t).prob = 0 →
    Completes (.probationEnd t) s [.twin] fun e =>
      e.twinOf t = { s.d.twinOf t with st := .standby } ∧ e.twinOf (otherTwin t) = s.d.twinOf (otherTwin t)) ∧
  (∀ (s : State) (t : Twin), (s.d.twinOf t).st = .out → (s.d.twinOf t).retired = false → (s.d.twinOf t).outLeft = 0 →
    s.d.flag 0xA0 0x40 0 = true →
    Completes (.autoRestart t) s [.stat, .twin, .nv, .therm] fun e =>
      s.d.quarantined e t ∧ e.twinOf (otherTwin t) = s.d.twinOf (otherTwin t) ∧ e.nv = s.d.nv ∧ e.therm = s.d.therm)

/-- RESET_RELEASE latches the straps, keeps the boot count, the sequence of accepted work and its queue, resets the twins, the Mieno and the DMA channels and ends the held snapshots; the safe state lasts (the model's reading of R296) until BOOT_SELF_TEST_DONE gives the roles: ACTIVE and STANDBY, or ACTIVE alone, or with no twin the safe state stays with every output stopped; a boot counts once, on from the count that wear ring 0 holds, and the island PLLs of the twins that pass are locked (the moment is the model's choice, log entry 113). TWIN_BOOT_TIMEOUT takes its twin out. IMAGE_PAGE_WRITE_DONE puts the bytes of the slow write into that twin's MRAM. -/
def Obligations.ResetAndBoot : Prop :=
  (∀ (s : State) (a b : Fin 8) (votes : Nat), s.d.mayRelease = true →
    ∃ t, exec (.resetRelease a b votes) s = .next t ∧ t.pending = s.pending ∧ t.snap = t.d.atReset ∧ t.held0 = none ∧ t.held1 = none ∧
      t.d.sup.inReset = false ∧ t.d.sramA = none ∧ t.d.sramB = none ∧ t.d.die.strap0 = a.val ∧ t.d.die.strap1 = b.val ∧ t.d.die.safe = true ∧
      t.d.fh.booted = false ∧ t.d.jrn.boot = s.d.jrn.boot ∧ t.d.jrn.next = s.d.jrn.next ∧
      t.d.jrn.queue = s.d.crustTear.jrn.queue ∧ t.d.twin = TwinCtl.reset ∧ t.d.mie = MieSt.reset ∧
      t.d.dma = List.replicate 16 DmaCh.reset ∧ t.d.cap = CapSt.reset) ∧
  (∀ (s : State) (passA passB : Bool), s.d.fh.booted = false → s.d.sup.inReset = false →
    Completes (.bootSelfTestDone passA passB) s
        [.jrn, .adm, .stat, .time, .twin, .hs, .nv, .fh, .die, .units, .therm, .sramA, .sramB, .bbus, .peat] fun e =>
      let pa := s.d.twinPasses .a passA
      let pb := s.d.twinPasses .b passB
      e.fh = { s.d.fh with booted := true, passA := pa, passB := pb } ∧
      e.twin.a.st = (if pa then .active else .out) ∧
      e.twin.b.st = (if pb then if pa then .standby else .active else .out) ∧
      if pa ∨ pb then
        e.die = { s.d.die with safe := false, noneRun := 0, fltLow := false } ∧ 
        e.jrn.boot = ((if pa && pb then (s.d.bootRoles pa pb).reconcile else s.d.bootRoles pa pb).ringCount + 1) % 2 ^ 32 ∧
        e.time = { s.d.time with lockA := if pa then 0x7FF else s.d.time.lockA, lockB := if pb then 0x7FF else s.d.time.lockB } ∧
        e.jrn.queue.length = s.d.jrn.queue.length ∧ e.hs = s.d.hs ∧ e.units = s.d.units
      else e.die = { s.d.die with safe := true, fltLow := true } ∧ e.outputsStopped ∧ e.jrn = s.d.jrn ∧ e.nv = s.d.nv ∧ e.time = s.d.time) ∧
  (∀ (s : State) (t : Twin), s.d.fh.booted = false → s.d.sup.inReset = false →
    Completes (.twinBootTimeout t) s [.stat, .twin, .sramA, .sramB] fun e =>
      (e.twinOf t).st = .out ∧ e.twinOf (otherTwin t) = s.d.twinOf (otherTwin t) ∧
      ((s.d.twinOf t).st ≠ .out → (e.twinOf t).retired = true ∧
        e.statOf 0xA5 = (s.d.statOf 0xA5).occur 3 (causeOf 0xA5 3) ∧ e.statOf 0xA0 = (s.d.statOf 0xA0).occur 10 (causeOf 0xA0 10))) ∧
  (∀ (s : State) (t : Twin) (pg a : Nat) (bytes : List Byte) (rest : List (Nat × List Byte)),
    s.d.upd.staging = (a, bytes) :: rest → (match t with | .a => s.d.nv.busyA | .b => s.d.nv.busyB) = some pg →
    Completes (.imagePageWriteDone t) s [.upd, .nv] fun e =>
      (match t with
        | .a => e.nv.a = memWriteBytes s.d.nv.a a bytes ∧ e.nv.b = s.d.nv.b
        | .b => e.nv.b = memWriteBytes s.d.nv.b a bytes ∧ e.nv.a = s.d.nv.a) ∧
      e.upd.staging = (if (match t with
          | .a => s.d.upd.doneB || !s.d.twin.b.st.running
          | .b => s.d.upd.doneA || !s.d.twin.a.st.running) then rest else (a, bytes) :: rest))

/-- OPEN of a source that is not in the table accepts an item into a free slot, or is refused with VAUX_WARN or a full ring; in a management pause and while the replay goes on an OPEN waits in die S; an item whose execution has ended completes: its entry is written, held and counted, its sequence stored for its source, and it leaves the queue, but while non-volatile writes are held nothing happens; with the last item of the replay what waited for it is processed; COMP_RD releases entries within the held range and only those. That VAUX_WARN and a full ring are judged before the source is the model's choice (log entry 20). -/
def Obligations.AcceptedWork : Prop :=
  (∀ (s : State) (src seq i : Nat), s.d.shape = true → s.d.upd.pause = false → s.d.replaying = false → s.d.closed = none → s.d.source src = none →
    s.d.openSlot = some i →
    Completes (.openItem src seq) s [.jrn, .stat, .upd, .nv] fun e =>
      e.source src = some ⟨src, seq, [], [seq], s.d.now⟩ ∧ sameBut i s.d.jrn.sources e.jrn.sources ∧
      (∃ w, e.jrn.queue = s.d.jrn.queue ++ [w] ∧ w.src = src ∧ w.seq = seq ∧ w.code = 0 ∧ w.jseq = s.d.jrn.next ∧
        w.result = some (1, 0) ∧ w.slot = (s.d.jrn.compWr + s.d.pendingItems) % 128) ∧
      e.jrn.next = (s.d.jrn.next + 1) % 2 ^ 32 ∧ e.jrn.accepted = inc16 s.d.jrn.accepted ∧ e.stat = s.d.stat ∧
      e.upd = s.d.upd) ∧
  (∀ (s : State) (src seq : Nat), (s.d.upd.pause = true ∨ s.d.replaying = true) →
    Completes (.openItem src seq) s [.upd] fun e => e.upd = { s.d.upd with held := s.d.upd.held ++ [.opening src seq] }) ∧
  (∀ (s : State) (src seq c : Nat), s.d.upd.pause = false → s.d.replaying = false → s.d.closed = some c →
    Completes (.openItem src seq) s [.jrn, .stat, .upd, .nv] fun e =>
      e.jrn = { s.d.jrn with refused := inc16 s.d.jrn.refused, lastCode := c } ∧ e.nv = s.d.nv ∧ e.upd = s.d.upd ∧
      (c = 0x14 → s.d.recorded e 0xA1 0) ∧ (c = 0x16 → s.d.recorded e 0xA1 5)) ∧
  (∀ (s : State) (w : WorkItem) (st0 res : Nat), s.d.shape = true → s.d.nvHeld = false → s.d.head = some w → w.result = some (st0, res) →
    (w.replay = false ∨ (s.d.jrn.queue.drop 1).any WorkItem.replay = true ∨ s.d.upd.held = []) →
    Completes .itemCompletion s [.jrn, .stat, .nv, .twT] fun e =>
      let st := w.finalStatus st0
      e.jrn.queue = s.d.jrn.queue.drop 1 ∧ e.jrn.compWr = (w.slot + 1) % 128 ∧ e.jrn.held = s.d.jrn.held + 1 ∧
      e.jrn.compRd = s.d.jrn.compRd ∧ e.jrn.next = s.d.jrn.next ∧
      (let n := (s.d.nvPut (0x322000 + 16 * w.slot) (s.d.compEntry w st res)).nv
       match s.d.srcSlot w.src with
       | none => e.nv = n
       | some i => ∀ a, (a < 0x324000 + 1280 * i ∨ 0x324000 + 1280 * i + 1280 ≤ a) →
          memRead e.nv.a a = memRead n.a a ∧ memRead e.nv.b a = memRead n.b a) ∧
      e.source w.src = (s.d.source w.src).map (fun x =>
        { x with flight := x.flight.filter (· != w.seq), done := ((w.seq, st, res) :: x.done).take 256 }) ∧
      (if st = 3 ∨ st = 4 then s.d.recorded e 0xA1 1 else e.stat = s.d.stat) ∧
      (w.src / 4096 ≠ 1 → w.src / 4096 ≠ 2 → e.twT = s.d.twT)) ∧
  (∀ (s : State), s.d.nvHeld = true → exec .itemCompletion s = .next s) ∧
  (∀ (s : State) (w : WorkItem), s.d.nvHeld = false → s.d.head = some w → w.result.isSome = true → w.replay = true →
    (s.d.jrn.queue.drop 1).any WorkItem.replay = false →
    ∃ t, exec .itemCompletion s = .next t ∧ t.d.replaying = false ∧ t.d.jrn.replayDone = true ∧
      t.d.upd.held = if s.d.upd.pause then s.d.upd.held else []) ∧
  (∀ (s : State) (v : Word32),
    Completes (.compRd v) s [.jrn] fun e =>
      let k := (v.toNat % 128 + 128 - s.d.jrn.compRd) % 128
      e.jrn = if k ≤ s.d.jrn.held then { s.d.jrn with compRd := v.toNat % 128, held := s.d.jrn.held - k } else s.d.jrn)

/-- At the head of the queue: CLEAR_STATUS clears at once, or waits for the boundary on a control page; CLEAR_COUNTER waits for the boundary or fails; ROLE_SWAP waits for the boundary where it is allowed, with its EXEC marker, which waits while writes are held, and fails else; TWIN_RESTART restarts a twin in OUT and fails else; STANDBY is requested with the shelf DOWN or HALTED and fails else; STANDBY_WAKE ends standby with the island PLLs locked (at once: the model's choice, log entry 110), and for 3 ms after a wake by an address the device answers no transaction; TIMED_ITEM_EXECUTE fails an item whose time cannot be met and lets one begin whose time has come. -/
def Obligations.WindowCommands : Prop :=
  (∀ (s : State) (w : WorkItem), s.d.runnable 1 w →
    Completes .clearStatus s [.jrn, .feedB, .stat, .feedA, .units, .rails] fun e =>
      let pg := w.arg 0 2
      let m := w.arg 2 4
      if controlPage pg = true ∧ statusBits pg ≠ 0 then
        e.jrn = { s.d.jrn with queue := { w with started := true } :: s.d.jrn.queue.drop 1 } ∧
        e.statOf pg = { s.d.statOf pg with pend := (s.d.statOf pg).pend ++ [⟨m, if s.d.lateInFrond then 2 else 1, 0, true⟩] }
      else
        e.jrn = s.d.ended w 1 (b2n (s.d.refusedOf pg m 0 != 0)) ∧
        (statusBits pg ≠ 0 → e.statOf pg = (s.d.statOf pg).clear m (maskWhere (statusBits pg) (s.d.persists pg)))) ∧
  (∀ (s : State) (w : WorkItem), s.d.runnable 2 w →
    Completes .clearCounter s [.jrn, .adm, .twin, .hs, .xfer, .sched, .twC, .mie, .nv, .units, .peat, .twT, .dma] fun e =>
      e.jrn = (if (clearCount (w.arg 0 2) (w.arg 2 2)).isSome
        then { s.d.jrn with queue := { w with started := true } :: s.d.jrn.queue.drop 1 } else s.d.ended w 2 2) ∧
      e.adm = s.d.adm ∧ e.twin = s.d.twin) ∧
  (∀ (s : State) (w : WorkItem), s.d.runnable 5 w →
    Completes .roleSwap s [.jrn, .twin, .nv] fun e =>
      if s.d.mayRoleSwap then if s.d.nvHeld then e = s.d else
        e.twin = { s.d.twin with swapRole := true } ∧
        e.jrn.queue = { w with exec := true, started := true } :: s.d.jrn.queue.drop 1
      else e.twin = s.d.twin ∧ e.nv = s.d.nv ∧ e.jrn = s.d.ended w 2 1) ∧
  (∀ (s : State) (w : WorkItem), s.d.runnable 6 w →
    Completes .twinRestart s [.jrn, .twin] fun e =>
      let t : Twin := if w.arg 0 1 = 0 then .a else .b
      if w.arg 0 1 ≤ 1 ∧ (s.d.twinOf t).st = .out then
        (e.twinOf t).st = .restart ∧ (e.twinOf t).since = s.d.now ∧ e.twinOf (otherTwin t) = s.d.twinOf (otherTwin t) ∧
        e.jrn = s.d.ended w 1 0
      else e.twin = s.d.twin ∧ e.jrn = s.d.ended w 2 1) ∧
  (∀ (s : State) (w : WorkItem), s.d.runnable 8 w →
    Completes .standby s [.jrn, .sup] fun e =>
      if s.d.fh.shelf = .down ∨ s.d.fh.shelf = .halted then
        e.sup = { s.d.sup with standbyReq := true } ∧ e.jrn = s.d.ended w 1 0
      else e.sup = s.d.sup ∧ e.jrn = s.d.ended w 2 1) ∧
  (∀ (s : State) (c : WakeCause), s.d.sup.standby = true →
    Completes (.standbyWake c) s [.feedB, .stat, .feedA, .sup, .hs, .nv, .fh, .die, .units, .peat, .time] fun e =>
      let time := { s.d.time with lockA := if s.d.sup.vcoreA then 0x7FF else s.d.time.lockA,
                                  lockB := if s.d.sup.vcoreB then 0x7FF else s.d.time.lockB }
      e.sup.standby = false ∧ e.time = time ∧
      if c = .mr then e.sup.inReset = true ∧ e.die.safe = true
      else if c = .address then
        e = { s.d with sup := { s.d.sup with standby := false, nackTo := s.d.now + 6000 }, time := time } ∧ e.twDead = true
      else e = { s.d with sup := { s.d.sup with standby := false }, time := time }) ∧
  (∀ (s : State) (w : WorkItem) (t : Nat), s.d.atBoundary = true → s.d.head = some w → w.timed = some t →
    Completes .timedItemExecute s [.jrn] fun e =>
      let fails (r : Nat) : JrnSt := s.d.ended { w with timed := none } 2 r
      if s.d.mie.tst ≠ .sync ∧ s.d.mie.tst ≠ .hold then e.jrn = fails 0xFFF0
      else if t + fronds128 < s.d.mieNs then e.jrn = fails 0xFFF1
      else if s.d.mieNs + fronds128 < t then e.jrn = fails 0xFFF2
      else if s.d.mieNs < t then e.jrn = s.d.jrn
      else e.head = some { w with timed := none, result := if w.code = 0 then some (1, 0) else w.result } ∧
        e.jrn.queue.drop 1 = s.d.jrn.queue.drop 1)

/-- CRUST_WRITE at the head of the queue ends with the result of its checks, or waits while writes are held or another change is programmed, or starts programming with its EXEC marker; CRUST_PROGRAM_DONE programs the change with its audit record into each of the three copies, reads and verifies it and ends the command that made it, as torn where the change does not verify; the bits on which the copies disagree are shown. Which check is reported first is the model's order (log entry 24). -/
def Obligations.CrustChanges : Prop :=
  (∀ (s : State) (w : WorkItem), s.d.runnable 7 w →
    Completes .crustWrite s [.jrn, .crust, .stat, .nv] fun e =>
      let i := (w.args.getD 0 0).toNat
      let v := (s.d.stagedValue w).take (w.args.getD 1 0).toNat
      let r := s.d.crustCheck i v (crustByCommand i) (leNat ((w.args.drop 2).take 2) == crc16 v)
      if r = 1 then e.jrn = s.d.ended w 1 1 ∧ e.crust = s.d.crust ∧ e.stat = s.d.stat ∧ e.nv = s.d.nv
      else if r ≠ 0 then e.jrn = s.d.ended w 2 r ∧ e.crust = s.d.crust ∧ e.nv = s.d.nv ∧ s.d.recordedC e 0xB2 1 3
      else if s.d.nvHeld = true ∨ s.d.crust.job.isSome = true then e = s.d
      else e.crust = { s.d.crust with job := some ⟨i, v, w.src, false⟩ } ∧ e.stat = s.d.stat ∧
        e.jrn.queue = { w with exec := true, started := true } :: s.d.jrn.queue.drop 1) ∧
  (∀ (s : State) (votes : Nat) (j : CrustJob) (w : WorkItem), s.d.crust.job = some j → j.spore = false → s.d.head = some w →
    w.code = 7 → w.started = true → w.result = none →
    Completes (.crustProgramDone votes) s [.jrn, .crust, .stat, .upd, .twT] fun e =>
      let c : CrustChange := ⟨j.value, s.d.crustAudit j⟩
      let p := (s.d.crustProgram j).crustRead
      e.upd = s.d.upd ∧ e.twT = s.d.twT ∧ e.crust.job = none ∧
      e.crust.force = s.d.crust.force ∧ e.crust.chem = s.d.crust.chem ∧
      e.crust.votes = min 65535 (p.crustDiffer + votes) ∧
      e.crust.copies = s.d.crust.copies.map (fun m => updAt m j.item (fun l => l ++ [c])) ∧ e.crust.items = p.crust.items ∧
      (s.d.crust.items.length = 24 → s.d.crust.copies = List.replicate 3 s.d.crust.items →
        p.crustDiffer = 0 ∧ e.crust.items = updAt s.d.crust.items j.item (fun l => l ++ [c])) ∧
      if p.crustVerified j then e.jrn = s.d.ended w 1 0 ∧ e.stBit 0xB2 0 = true
      else e.jrn = s.d.ended w 2 6 ∧ e.stBit 0xB2 2 = true)

/-- SESSION_OPEN answers the owner of the open session with its number, refuses in the stated order, or opens a new session in RECEIVING; SESSION_CLOSE and SESSION_IDLE_TIMEOUT end the session and invalidate the new slot; CHUNK_CTL leaves the outcome of the chunk in CHUNK_ST, an accepted chunk covers all its units, a refused one changes nothing else, and a write by a path that does not hold the session changes nothing. -/
def Obligations.SporeSessions : Prop :=
  (∀ (s : State) (w : WorkItem), s.d.shape = true → s.d.runnable 0x20 w →
    Completes .sessionOpen s [.jrn, .upd, .twT] fun e =>
      let r := s.d.sessionRefusal w.src (w.arg 0 4)
      if s.d.upd.session ≠ 0 ∧ s.d.upd.owner = w.src then
        e.upd = { s.d.upd with idleTicks := s.d.now } ∧ e.jrn = s.d.ended w 1 s.d.upd.session ∧ e.twT = s.d.twT
      else if r ≠ 0 then e.upd = s.d.upd ∧ e.jrn = s.d.ended w 2 r ∧ e.twT = s.d.twT
      else
        let n := if 0xFFFE ≤ s.d.upd.lastSession then 1 else s.d.upd.lastSession + 1
        e.upd.session = n ∧ e.upd.owner = w.src ∧ e.upd.total = w.arg 0 4 ∧ e.upd.covered = [] ∧ e.upd.staging = [] ∧
        e.upd.newInvalid = true ∧ e.upd.newVerified = false ∧ e.upd.st = .receiving ∧ s.d.updNotified e ∧
        e.jrn = s.d.ended w 1 n) ∧
  (∀ (s : State) (w : WorkItem), s.d.shape = true → s.d.runnable 0x21 w →
    Completes .sessionClose s [.jrn, .upd, .twT] fun e =>
      if s.d.upd.session ≠ 0 ∧ s.d.upd.session = w.arg 0 2 then
        e.upd.session = 0 ∧ e.upd.st = .idle ∧ e.upd.newInvalid = true ∧ e.upd.newVerified = false ∧ e.upd.covered = [] ∧
        s.d.updNotified e ∧ e.jrn = s.d.ended w 1 0
      else e.upd = s.d.upd ∧ e.twT = s.d.twT ∧ e.jrn = s.d.ended w 1 1) ∧
  (∀ (s : State), s.d.shape = true → s.d.upd.session ≠ 0 → (s.d.upd.st = .receiving ∨ s.d.upd.st = .ready) →
    s.d.upd.idleTicks + s.d.fld updPg 0x40 23 16 * 2000000 ≤ s.d.now →
    Completes .sessionIdleTimeout s [.stat, .upd, .twT] fun e =>
      e.upd.session = 0 ∧ e.upd.st = .idle ∧ e.upd.newInvalid = true ∧ s.d.updNotified e ∧ s.d.recorded e updPg 5) ∧
  (∀ (s : State) (p : Path) (v : Word32),
    Completes (.chunkCtl p v) s [.upd, .nv] fun e =>
      let off := s.d.fld updPg 0xC4 18 0
      let l := s.d.chunkData (bits v.toNat 7 0)
      if bitAt v.toNat 31 = false ∨ s.d.chunkPath p = false then e = s.d
      else if s.d.upd.session = 0 ∨ s.d.fld updPg 0xC0 15 0 ≠ s.d.upd.session then e = { s.d with upd := { s.d.upd with chunkSt := 4 } }
      else if 248 < bits v.toNat 7 0 then e = { s.d with upd := { s.d.upd with chunkSt := 2, idleTicks := s.d.now } }
      else e.upd.chunkSt = (s.d.chunk off l).2 ∧ e.upd.idleTicks = s.d.now ∧
        (e.upd.chunkSt = 0 → ∀ k ∈ unitsOf off l.length, k ∈ e.upd.covered) ∧
        (e.upd.chunkSt ≠ 0 → e = { s.d with upd := { s.d.upd with chunkSt := e.upd.chunkSt, idleTicks := s.d.now } }))

/-- SPORE_COMMIT fails for a command that does not hold the session, waits for the slow writes of the slot and while writes are held, and fails with the code of the first failed check, or with 11 where the load checks of a twin refuse the image or the twins' results differ, and else leaves the new slot verified and the state READY; ACTIVATE fails in the stated order, a target frond that cannot be is reported on the schedule page too where an image goes with it, or arms the switch at its target frond; COMPARE_SUSPEND and COMPARE_RESUME suspend and resume comparison; ACTIVATION_SWITCH makes the switch of an activation or of a rollback at the boundary of the target frond. -/
def Obligations.SporeActivation : Prop :=
  (∀ (s : State) (w : WorkItem) (other : Option (Nat × Nat × Nat)), s.d.runnable 0x22 w →
    Completes (.sporeCommit other) s [.jrn, .stat, .sched, .sram, .upd, .nv, .twT, .twin] fun e =>
      let u := s.d.upd
      let r := s.d.verify s.d.newContent
      if u.session = 0 ∨ u.session ≠ w.arg 0 2 ∨ u.owner ≠ w.src then
        e.jrn = s.d.ended w 2 1 ∧ e.upd = { u with result := 1 } ∧ e.stat = s.d.stat ∧
        e.twin = s.d.twin ∧ e.sched = s.d.sched ∧ e.nv = s.d.nv
      else if s.d.upd.staging ≠ [] ∨ s.d.nvHeld = true then e = s.d
      else if r.1 ≠ 0 then
        e.jrn = s.d.ended w 2 r.1 ∧ e.upd.result = r.1 ∧ e.upd.newVerified = false ∧ e.upd.st = .receiving ∧
        e.upd.session = u.session ∧ s.d.recorded e updPg 0 ∧ e.nv = s.d.nv ∧ e.sched = s.d.sched ∧ e.twin = s.d.twin
      else if (sectionOf r.2 2).isSome ∧ e.sched.otherLoaded = false then
        e.jrn.queue = { w with exec := true, result := some (2, 11) } :: s.d.jrn.queue.drop 1 ∧ e.upd.result = 11 ∧
        e.upd.newVerified = false ∧ e.upd.st = .receiving
      else
        e.jrn.queue = { w with exec := true, result := some (1, 0) } :: s.d.jrn.queue.drop 1 ∧ e.upd.result = 0 ∧
        e.upd.newVerified = true ∧ e.upd.newInvalid = false ∧ e.upd.st = .ready ∧ e.upd.session = u.session ∧
        e.upd.hasImage = (sectionOf r.2 2).isSome ∧ (other = none → e.twin = s.d.twin) ∧
        ((sectionOf r.2 2).isNone = true → e.twin = s.d.twin ∧ e.sched = s.d.sched ∧ (∀ q, q ≠ 0xB0 → e.statOf q = s.d.statOf q) ∧
          (e.stBit 0xB0 3 = false → e.stat = s.d.stat)) ∧
        ((sectionOf r.2 3).isNone = true → e.stBit 0xB0 3 = false → (if s.d.upd.otherBank = 0 then e.upd.sets0 else e.upd.sets1) = s.d.upd.sets)) ∧
  (∀ (s : State) (w : WorkItem), s.d.runnable 0x23 w →
    Completes .activate s [.jrn, .stat, .sched, .upd, .nv, .twT] fun e =>
      let u := s.d.upd
      let f := w.arg 2 2
      let fails (r : Nat) : Prop := e.jrn = s.d.ended w 2 r ∧ e.upd = u ∧ e.sched = s.d.sched ∧ e.nv = s.d.nv
      if u.st ≠ .ready then fails 1
      else if s.d.frondOk f = false then fails 2 ∧ (if u.hasImage then s.d.recordedC e 0x02 2 4 else e.stat = s.d.stat)
      else if s.d.twinReturning = true then fails 3
      else if u.owner ≠ w.src ∨ u.session ≠ w.arg 0 2 then fails 5
      else if s.d.nvHeld = true then e = s.d
      else
        e.upd = { u with st := .armed, target := f, idleTicks := s.d.now } ∧
        e.jrn.queue = { w with exec := true, started := true } :: s.d.jrn.queue.drop 1 ∧
        (u.hasImage = false → e.sched = s.d.sched) ∧
        (u.hasImage = true → s.d.sched.otherLoaded = true →
          e.sched = { s.d.sched with armed := true, swapFrond := f % 65536 })) ∧
  (∀ (s : State), s.d.atBoundary = true → s.d.upd.waits = true → (s.d.twin.suspend = false ∨ s.d.upd.switched = true) →
    (s.d.upd.target + 65536 - s.d.nextFrond) % 65536 ≤ 4 →
    Completes .compareSuspend s [.twin, .upd] fun e =>
      e.twin = { s.d.twin with suspend := true } ∧ e.upd = { s.d.upd with switched := false }) ∧
  (∀ (s : State), s.d.atBoundary = true → s.d.nextFrond = s.d.upd.target →
    (s.d.upd.st = .armed ∨ s.d.upd.st = .rollingBack) →
    Completes .activationSwitch s [.adm, .stat, .regs, .upd, .inj, .fh, .units, .sense, .twT, .rails] fun e =>
      let u := s.d.upd
      e.upd.setBank = 1 - u.setBank ∧ e.upd.runSlot = u.newSlot ∧ e.upd.pause = true ∧ e.upd.switched = true ∧
      e.upd.resumeAt = (u.target + 64) % 65536 ∧
      if u.st = .armed then
        e.upd.st = .unconfirmed ∧ e.upd.oldFw = u.fw ∧ e.upd.session = 0 ∧ e.upd.left = s.d.confirmFronds ∧
        e.upd.running = true ∧ e.upd.fw = (match sectionOf u.sections 1 with | none => u.fw | some x => x.ver)
      else e.upd.st = .idle ∧ e.upd.fw = u.oldFw ∧ e.upd.newInvalid = true ∧ e.upd.running = false ∧ e.upd.sections = []) ∧
  (∀ (s : State), s.d.atBoundary = true → s.d.upd.switched = true → s.d.nextFrond = s.d.upd.resumeAt →
    Completes .compareResume s [.twin, .upd] fun e =>
      e.twin = { s.d.twin with suspend := false } ∧ e.upd = { s.d.upd with switched := false })

/-- MANAGEMENT_PAUSE_END ends the pause, records ACTIVATED or ROLLED_BACK, completes the command that caused the switch and then processes what was held, in order, but for items while the replay goes on; CONFIRM ends at once outside UNCONFIRMED, completes where no crust section is left, and else goes through the sections; ROLLBACK and CONFIRM_TIMER_EXPIRY arm the rollback, the timer not while a CONFIRM executes. -/
def Obligations.SporeConfirmation : Prop :=
  (∀ (s : State), s.d.upd.pause = true →
    ∃ u : State, exec .managementPauseEnd s =
        .next ((s.d.upd.held.filter fun b => !(b.isItem && s.d.replaying)).foldl State.runHeld u) ∧
      State.onlyIn [.jrn, .stat, .upd, .twT] s u ∧
      u.d.upd = { s.d.upd with pause := false, held := s.d.upd.held.filter (fun b => b.isItem && s.d.replaying), rollCause := 0 } ∧
      (if s.d.upd.rollCause = 0 then s.d.recorded u.d updPg 2 else s.d.recordedC u.d updPg 3 s.d.upd.rollCause) ∧
      ∀ w, s.d.head = some w → w.started = true → w.result = none →
        w.code = (if s.d.upd.rollCause = 0 then 0x23 else 0x25) → u.d.jrn = s.d.ended w 1 0) ∧
  (∀ (s : State) (w : WorkItem), s.d.runnable 0x24 w → s.d.upd.st ≠ .unconfirmed →
    Completes .confirm s [.jrn, .crust, .stat, .upd, .twT] fun e =>
      e.jrn = s.d.ended w 1 1 ∧ e.crust = s.d.crust ∧ e.stat = s.d.stat ∧ e.upd = s.d.upd ∧ e.twT = s.d.twT) ∧
  (∀ (s : State) (w : WorkItem), s.d.runnable 0x24 w → s.d.upd.st = .unconfirmed →
    match s.d.upd.sections with
    | [] =>
      Completes .confirm s [.jrn, .crust, .stat, .upd, .twT] fun e =>
        e.upd = { s.d.upd with st := .idle, sections := [], running := false, left := 0, newVerified := false } ∧
        e.jrn = s.d.ended { w with started := true } 1 0 ∧ e.crust = s.d.crust ∧ s.d.recorded e updPg 4
    | x :: rest =>
      let r := s.d.crustCheck x.item x.data (decide (x.item < 24) && !crustByCommand x.item) true
      if r = 1 then
        exec .confirm s = exec .confirm { s with d := { s.d with upd := { s.d.upd with sections := rest } } }
      else Completes .confirm s [.jrn, .crust, .stat, .upd, .twT] fun e =>
        if r ≠ 0 then
          e.upd.st = .idle ∧ e.upd.running = false ∧ e.jrn = s.d.ended { w with started := true } 2 (0x100 + x.item) ∧
          e.crust = s.d.crust ∧ s.d.recordedC e 0xB2 1 3
        else
          e.jrn = { s.d.jrn with queue := { w with started := true } :: s.d.jrn.queue.drop 1 } ∧ e.stat = s.d.stat ∧
          if s.d.nvHeld = true then e.upd = s.d.upd ∧ e.crust = s.d.crust
          else e.upd = { s.d.upd with sections := rest } ∧
            e.crust = { s.d.crust with job := some ⟨x.item, x.data, w.src, true⟩ }) ∧
  (∀ (s : State) (w : WorkItem), s.d.runnable 0x25 w →
    Completes .rollback s [.jrn, .stat, .sched, .upd, .nv, .twT] fun e =>
      let u := s.d.upd
      let g := w.arg 0 2
      if u.st ≠ .unconfirmed then e.jrn = s.d.ended w 2 1 ∧ e.upd = u ∧ e.sched = s.d.sched
      else if s.d.frondOk g = false then
        e.jrn = s.d.ended w 2 2 ∧ e.upd = u ∧ e.sched = s.d.sched ∧
        (if u.hasImage then s.d.recordedC e 0x02 2 4 else e.stat = s.d.stat)
      else if s.d.nvHeld = true then e = s.d
      else
        e.upd = { u with st := .rollingBack, target := g % 65536, rollCause := 4, running := false, left := 0 } ∧
        e.jrn.queue = { w with exec := true, started := true } :: s.d.jrn.queue.drop 1) ∧
  (∀ (s : State), s.d.atBoundary = true → s.d.upd.running = true → s.d.upd.left = 0 → s.d.upd.st = .unconfirmed →
    Completes .confirmTimerExpiry s [.stat, .sched, .upd, .twT] fun e =>
      if s.d.inProgress 0x24 then e = s.d
      else e.upd = { s.d.upd with
        st := .rollingBack, target := (s.d.nextFrond + 8) % 65536, rollCause := 5, running := false, left := 0 } ∧
      (s.d.upd.hasImage = false → e.sched = s.d.sched ∧ e.stat = s.d.stat))

/-- INJECTION_DURATION_END stops the injection with cause 1; CAP_ARM starts filling an empty capture in tier T0 from IDLE, DONE or ABORTED and is refused outside T0; CAP_FORCE triggers where the register trigger is enabled; CAPTURE_FILLED and CAPTURE_DONE end the filling and the capture; CAP_RD asks for a block; CAP_READ_READY, once DMA channel 15 has copied it and not before, gives the 256 words of bank 0x1F where the copy lies (its place there is the model's, log entry 91). -/
def Obligations.CaptureAndInjection : Prop :=
  (∀ (s : State), s.d.inj.running = true → s.d.inj.endless = false → s.d.inj.left = 0 →
    Completes .injectionDurationEnd s [.stat, .inj] fun e =>
      e.inj = { s.d.inj with running := false, stopCause := 1, silent := true } ∧ e.stat = s.d.stat) ∧
  (∀ (s : State),
    Completes .capArm s [.cap] fun e =>
      if s.d.sched.tier ≠ 0 then e.cap = { s.d.cap with armRefused := true }
      else if s.d.cap.st = .idle ∨ s.d.cap.st = .done ∨ s.d.cap.st = .aborted then
        e.cap.st = .filling ∧ e.cap.count = 0 ∧ e.cap.wr = 0 ∧ e.cap.rdReady = false ∧ e.cap.armRefused = false
      else e.cap = { s.d.cap with armRefused := false }) ∧
  (∀ (s : State),
    Completes .capForce s [.cap] fun e =>
      if s.d.flag 0xE0 0x80 8 = true ∧ (s.d.cap.st = .filling ∨ s.d.cap.st = .armed) then
        e.cap.st = .triggered ∧ e.cap.trigTseq = s.d.time.tseq ∧
        e.cap.post = (if s.d.cap.took then s.d.capDepth - s.d.capPre - 1 else s.d.capDepth - s.d.capPre)
      else e.cap = s.d.cap) ∧
  (∀ (s : State), s.d.cap.st = .filling → s.d.capPre ≤ s.d.cap.count →
    Completes .captureFilled s [.cap] fun e => e.cap = { s.d.cap with st := .armed }) ∧
  (∀ (s : State), s.d.cap.st = .triggered → s.d.cap.post = 0 →
    Completes .captureDone s [.cap, .stat] fun e =>
      e.cap = { s.d.cap with st := .done } ∧ s.d.recorded e 0xE0 2) ∧
  (∀ (s : State) (v : Word32),
    Completes (.capRd v) s [.cap, .regs] fun e =>
      e.cap = { s.d.cap with
        rdReady := false, rdAsked := true, copying := false, rdSig := bits v.toNat 13 12, rdBlock := bits v.toNat 11 0 } ∧
      e.reg 0xE0 0xA0 = v.toNat &&& 0x3FFF ∧ s.d.onlyReg e (regAddr 0xE0 0xA0)) ∧
  (∀ (s : State), s.d.cap.rdAsked = true → s.d.cap.copying = true → (s.d.ch 15).st = .idle → s.d.cap.st ≠ .filling →
    s.d.cap.st ≠ .armed → s.d.cap.st ≠ .triggered →
    Completes .capReadReady s [.cap] fun e =>
      e.cap.rdReady = true ∧ e.cap.rdAsked = false ∧ e.cap.copying = false ∧ e.cap.data.length = 256 ∧
      ∀ i, i < 256 → e.cap.data[i]? =
        some (memWord s.d.sram (dmaAddr capBlockAt + 4 * i))) ∧
  (∀ (s : State), s.d.cap.rdAsked = false ∨ s.d.cap.copying = false ∨ (s.d.ch 15).st ≠ .idle →
    exec .capReadReady s = .next s)

/-- PEAT_CTL adds a trigger of kind 4 with its code; PEAT_RD asks for a record; PEAT_READ_READY answers with a retained record of which a running twin holds a valid copy, or with GONE, and moves no byte of MRAM. -/
def Obligations.PeatReads : Prop :=
  (∀ (s : State) (v : Word32),
    Completes (.peatCtrl v) s [.peat] fun e =>
      e.peat = { s.d.peat with trig := s.d.peat.trig ++ [⟨4, 0xFFFF, 0, bits v.toNat 15 0⟩] }) ∧
  (∀ (s : State) (v : Word32),
    Completes (.peatRd v) s [.regs, .peat] fun e =>
      e.peat = { s.d.peat with rdReady := false, gone := false, rdAsked := true, rdSeq := v.toNat } ∧
      e.reg 0xB1 0x8C = v.toNat ∧ s.d.onlyReg e (regAddr 0xB1 0x8C)) ∧
  (∀ (s : State), s.d.peat.rdAsked = true →
    Completes .peatReadReady s [.stat, .nv, .peat] fun e =>
      let sq := s.d.peat.rdSeq
      let a := memBytes s.d.nv.a (peatAddr sq) 512
      let b := memBytes s.d.nv.b (peatAddr sq) 512
      let va := s.d.twin.a.st.running && s.d.nv.readableA (peatAddr sq) 512 && peatOk a sq
      let vb := s.d.twin.b.st.running && s.d.nv.readableB (peatAddr sq) 512 && peatOk b sq
      e.nv.a = s.d.nv.a ∧ e.nv.b = s.d.nv.b ∧
      if s.d.peat.retained sq = true ∧ (va = true ∨ vb = true) then
        e.peat = { s.d.peat with rdAsked := false, rdReady := true, data := e.peat.data } ∧
        (va = true → vb = false → e.peat.data = a) ∧ (va = false → e.peat.data = b) ∧
        (va = true → vb = true → e.peat.data = a ∨ e.peat.data = b)
      else e.peat = { s.d.peat with rdAsked := false, gone := true } ∧ e.stat = s.d.stat ∧ e.nv = s.d.nv)

/-- BANK_SWAP at the boundary of its target frond makes the other loaded bank active, or is refused where that bank is not loaded; CH_ABORT clears EN: a channel that holds a descriptor aborts in its next matching firings, any other becomes IDLE; CH_PAUSE takes effect at once in WAIT_OWN and WAIT_REQ and else waits for the next matching firing; CH_RESUME returns a PAUSED channel that does not abort to its earlier work. The other channels stand. -/
def Obligations.SwapsAndChannels : Prop :=
  (∀ (s : State), s.d.atBoundary = true → s.d.swapDue = true →
    Completes .bankSwap s [.stat, .sched, .sram, .live] fun e =>
      if s.d.sched.otherLoaded then
        e.sched = { s.d.sched with active := !s.d.sched.active, armed := false } ∧ e.stat = s.d.stat ∧
        ∀ a ∈ e.live, a ∈ s.d.live
      else e.sched = { s.d.sched with armed := false } ∧ e.sram = s.d.sram ∧ e.live = s.d.live ∧ s.d.recordedC e 0x02 2 3) ∧
  (∀ (s : State) (c : Fin 16), s.d.shape = true → dmaOwn c = true → (s.d.ch c).st ≠ .idle →
    Completes (.chAbort c) s [.regs, .dma] fun e =>
      e.flag dmaPg (chOff c) 0 = false ∧ s.d.onlyReg e (regAddr dmaPg (chOff c)) ∧ sameBut c.val s.d.dma e.dma ∧
      e.ch c = (if (s.d.ch c).holds ∧ (s.d.ch c).st = .waitReq
        then { s.d.ch c with en := false, abort := true, st := .paused, back := .waitReq, residue := [] }
        else if (s.d.ch c).holds then { s.d.ch c with en := false, abort := true }
        else { s.d.ch c with en := false, st := .idle, err := 0, abort := false, residue := [] })) ∧
  (∀ (s : State) (c : Fin 16), s.d.shape = true → dmaOwn c = true →
    Completes (.chPause c) s [.regs, .dma] fun e =>
      e.flag dmaPg (chOff c) 1 = true ∧ s.d.onlyReg e (regAddr dmaPg (chOff c)) ∧ sameBut c.val s.d.dma e.dma ∧
      e.ch c = (if (s.d.ch c).st = .waitOwn ∨ (s.d.ch c).st = .waitReq
        then { s.d.ch c with pause := true, st := .paused, back := (s.d.ch c).st, residue := [] }
        else { s.d.ch c with pause := true })) ∧
  (∀ (s : State) (c : Fin 16), s.d.shape = true → dmaOwn c = true →
    Completes (.chResume c) s [.regs, .dma] fun e =>
      e.flag dmaPg (chOff c) 1 = false ∧ s.d.onlyReg e (regAddr dmaPg (chOff c)) ∧ sameBut c.val s.d.dma e.dma ∧
      e.ch c = (if (s.d.ch c).st = .paused ∧ (s.d.ch c).abort = false then { s.d.ch c with pause := false, st := (s.d.ch c).back }
        else { s.d.ch c with pause := false }))

/-- A channel of the management plane (0 to 14) starts when EN is set while it is IDLE: its first descriptor address is CH_HEAD; where CH_HEAD is not 32-byte aligned or lies outside banks 0x08 to 0x1F the channel is in ERROR with code 0x06, and no byte of SRAM has changed. The other channels and registers stand. -/
def Obligations.ChannelStart : Prop :=
  ∀ (s : State) (c : Fin 16), s.d.shape = true → dmaOwn c = true → (s.d.ch c).st = .idle → s.d.reg dmaPg (chOff c + 4) < 2 ^ 32 →
    Completes (.chStart c) s [.stat, .regs, .dma] fun e =>
      let head := s.d.reg dmaPg (chOff c + 4)
      e.flag dmaPg (chOff c) 0 = true ∧ s.d.onlyReg e (regAddr dmaPg (chOff c)) ∧ sameBut c.val s.d.dma e.dma ∧
      (e.ch c).en = true ∧ (e.ch c).holds = false ∧ (∀ a, memRead e.sram a = memRead s.d.sram a) ∧
      let good := head % 32 = 0 ∧ ∃ b off, 0x08 ≤ b ∧ b ≤ 0x1F ∧ off < 2 ^ 18 ∧ head = b * 2 ^ 24 + off
      (good → (e.ch c).st = .run ∧ (e.ch c).desc = head ∧ e.stat = s.d.stat) ∧
      (¬ good → (e.ch c).st = .error ∧ (e.ch c).err = 0x06 ∧ s.d.recordedC e dmaPg (16 + c) (0x1000 + 0x100 * c + 6))

/-- A REG_WRITE with a legal offset and length writes its words and keeps OK or the first error as its reply, an illegal one writes nothing and keeps BAD_LEN or BAD_OFFSET; a REG_READ keeps the words read; a SEQ keeps the outcome of its item, or BAD_ARGS where the argument length is wrong; during a management pause each waits in die S with a reply that is not ready, and so does a SEQ while the replay goes on; a REPLY gives the kept reply, or holds SCL while it is not ready. Each counts one block, changes no other port, and, where it does not wait, goes to the twins in message cells (from its command code on: the model's, log entry 11). -/
def Obligations.RegisterWindow : Prop :=
  (∀ (s : State) (n : Fin 2) (page off : Nat) (ws : List Word32), s.d.shape = true → s.d.twDead = false → s.d.upd.pause = false →
    ∃ t, exec (.regWrite n page off ws) s = .next t ∧ t.snap = s.snap ∧ t.pending = s.pending ∧
      (t.d.twt n).tx = some [] ∧
      let st := transferStatus off ws.length
      let l := counted (leBytes 2 page ++ leBytes 2 off ++ ws.flatMap (fun w => leBytes 4 w.toNat))
      let r := ((s.recvBlock n).upd fun d => d.blockCells n 1 l).writeWords (twPath n) page off ws
      if st ≠ 0 then
        State.onlyIn [.die, .stat, .twT] s t ∧ t.d.die = (s.d.blockCells n 1 l).die ∧ (t.d.twt n).reply = some ⟨true, st, []⟩ ∧ (t.d.twt n).lastCode = st ∧
        (t.d.twt n).blocks = satInc 65535 (s.d.twt n).blocks ∧ s.d.recorded t.d (twtPg n) 8 ∧ sameBut n.val s.d.twT t.d.twT
      else (t.d.twt n).reply = some ⟨true, r.2, []⟩ ∧ t.d.regs = r.1.d.regs ∧ t.held0 = r.1.held0 ∧ t.held1 = r.1.held1) ∧
  (∀ (s : State) (n : Fin 2) (page off k : Nat), s.d.shape = true → s.d.twDead = false → s.d.upd.pause = false →
    Completes (.regRead n page off k) s [.die, .stat, .upd, .twT] fun e =>
      let l := counted (leBytes 2 page ++ leBytes 2 off ++ leBytes 1 k)
      e.die = (s.d.blockCells n 2 l).die ∧ e.upd = s.d.upd ∧ sameBut n.val s.d.twT e.twT ∧ (e.twt n).tx = some [] ∧
      (e.twt n).blocks = satInc 65535 (s.d.twt n).blocks ∧
      if transferStatus off k ≠ 0 then (e.twt n).reply = some ⟨true, transferStatus off k, []⟩
      else ∃ r, (e.twt n).reply = some r ∧ r.ready = true ∧
        r.status = (((List.range k).map fun i => readStatus page (off + 4 * i)).find? fun x => x != 0).getD 0 ∧
        r.body = (List.range k).flatMap fun i => leBytes 4
          (if readStatus page (off + 4 * i) ≠ 0 then 0
            else ((s.recvBlock n).upd fun d => d.blockCells n 2 l).readReg (twPath n) page (off + 4 * i))) ∧
  (∀ (s : State) (n : Fin 2) (tag seq code : Nat) (args : List Byte), s.d.shape = true → s.d.twDead = false →
    s.d.upd.pause = false → s.d.replaying = false →
    Completes (.seqItem n tag seq code args) s [.die, .jrn, .stat, .upd, .nv, .twT] fun e =>
      let l := counted (leBytes 1 tag ++ leBytes 2 seq ++ leBytes 1 code ++ args)
      e.die = (s.d.blockCells n 0x10 l).die ∧ e.upd = s.d.upd ∧ sameBut n.val s.d.twT e.twT ∧
      let r := ((s.d.recvBlock n).blockCells n 0x10 l).decideAny ((1 + n) * 4096 + tag) seq code args false
      if argLen code ≠ some args.length then
        (e.twt n).reply = some ⟨true, 0x0C, []⟩ ∧ e.jrn = s.d.jrn ∧ e.nv = s.d.nv ∧ s.d.recorded e (twtPg n) 8
      else (e.twt n).reply = some ⟨true, 0, verdictBody seq r.2⟩ ∧ e.jrn = r.1.jrn ∧ e.nv = r.1.nv ∧ e.stat = r.1.stat) ∧
  (∀ (s : State) (n : Fin 2) (page off k tag seq code : Nat) (ws : List Word32) (args : List Byte) (c : Instr) (b : HeldBlk),
    s.d.shape = true → s.d.twDead = false → s.d.holds b = true →
    ((c = .regWrite n page off ws ∧ b = .regWrite n page off ws) ∨ (c = .regRead n page off k ∧ b = .regRead n page off k) ∨
     (c = .seqItem n tag seq code args ∧ b = .seq n tag seq code args)) →
    Completes c s [.upd, .twT] fun e =>
      e.upd = { s.d.upd with held := s.d.upd.held ++ [b] } ∧ (e.twt n).reply = some ⟨false, 0, []⟩ ∧
      sameBut n.val s.d.twT e.twT) ∧
  (∀ (s : State) (n : Fin 2), s.d.shape = true → s.d.twDead = false →
    Completes (.replyRead n) s [.stat, .twT] fun e =>
      sameBut n.val s.d.twT e.twT ∧ (e.twt n).reply = (s.d.twt n).reply ∧
      (e.twt n).blocks = satInc 65535 (s.d.twt n).blocks ∧
      match (s.d.twt n).reply with
      | none => (e.twt n).tx = some (s.d.replyBytes n 0x0B []) ∧ (e.twt n).lastCode = 0x0B ∧ (e.twt n).base = s.d.twBase n ∧
          (e.twt n).scl = false ∧ s.d.recorded e (twtPg n) 8
      | some r => e.stat = s.d.stat ∧
          if r.ready then
            (e.twt n).tx = some (s.d.replyBytes n r.status r.body) ∧ (e.twt n).base = s.d.twBase n ∧ (e.twt n).scl = false
          else e.twt n = { s.d.twt n with blocks := satInc 65535 (s.d.twt n).blocks, scl := true })

/-- WINDOW_TIMEOUT discards a reply that is not ready and records TIMEOUT; SCL_HELD_TIMEOUT and SDA_RELEASED record their bits and drive nothing; ALERT_RESPONSE answers with the base address while the pin is asserted; HOST_NOTIFY sends the summary and an acknowledge clears it, but for a message that has lost arbitration a fourth time; HN_FAIL is recorded after three failed fronds; a TW_BLOCK with a wrong or missing PEC is discarded, and a block that spells a command has that command's effect. -/
def Obligations.TargetPortEvents : Prop :=
  (∀ (s : State) (n : Fin 2) (r : KeptReply), s.d.shape = true → (s.d.twt n).reply = some r → r.ready = false →
    Completes (.windowTimeout n) s [.stat, .twT] fun e =>
      (e.twt n).reply = none ∧ (e.twt n).lastCode = 0x0A ∧ (e.twt n).tx = some (s.d.replyBytes n 0x0A []) ∧
      (e.twt n).base = s.d.twBase n ∧ (e.twt n).scl = false ∧
      sameBut n.val s.d.twT e.twT ∧ e.statOf (twtPg n) = ((s.d.statOf (twtPg n)).occur 8 9).occur 3 4 ∧
      ∀ q, q ≠ twtPg n → e.statOf q = s.d.statOf q) ∧
  (∀ (s : State) (n : Fin 2), s.d.shape = true → s.d.twDead = false →
    Completes (.sclHeldTimeout n) s [.stat, .twT] (fun e =>
      e.twt n = { s.d.twt n with tx := none } ∧ sameBut n.val s.d.twT e.twT ∧ s.d.recorded e (twtPg n) 3) ∧
    Completes (.sdaReleased n) s [.stat, .twT] fun e =>
      e.twt n = { s.d.twt n with tx := none } ∧ sameBut n.val s.d.twT e.twT ∧ s.d.recorded e (twtPg n) 4) ∧
  (∀ (s : State) (n : Fin 2), s.d.shape = true → s.d.twDead = false →
    Completes (.alertResponse n) s [.twT] fun e =>
      sameBut n.val s.d.twT e.twT ∧
      let low := if n.val = 0 then s.d.die.alert0 else s.d.die.alert1
      e.twt n = if low then { s.d.twt n with tx := some [BitVec.ofNat 8 (2 * (s.d.twt n).base)], base := s.d.twBase n }
        else { s.d.twt n with tx := none }) ∧
  (∀ (s : State) (n : Fin 2) (acked : Bool), s.d.shape = true → s.d.twDead = false → s.d.flag (twtPg n) 0x40 1 = true →
    (s.d.twt n).hnPend ≠ 0 → (s.d.twt n).hnWait = 0 → (s.d.twt n).arbWait = false →
    Completes (.hostNotify n acked) s [.twT] fun e =>
      let t := s.d.twt n
      sameBut n.val s.d.twT e.twT ∧
      (e.twt n).tx = some [0x10#8, BitVec.ofNat 8 (2 * t.base), BitVec.ofNat 8 t.hnPend, 0#8] ∧
      (e.twt n).base = s.d.twBase n ∧ (e.twt n).arbN = 0 ∧ (e.twt n).arbFail = false ∧
      (acked = true → t.arbFail = false → (e.twt n).hnPend = 0 ∧ (e.twt n).hnFails = 0) ∧
      ((acked = false ∨ t.arbFail = true) → (e.twt n).hnPend = t.hnPend ∧
        (e.twt n).hnWait = if 2 ≤ t.hnFails then 64 else 1)) ∧
  (∀ (s : State) (n : Fin 2), s.d.shape = true → (s.d.twt n).hnFails = 3 →
    Completes (.hnFail n) s [.stat, .twT] fun e =>
      e.twt n = { s.d.twt n with hnFails := 4, hnWait := 64 } ∧ sameBut n.val s.d.twT e.twT ∧ s.d.recorded e (twtPg n) 5) ∧
  (∀ (s : State) (n : Fin 2) (window : Bool) (bytes : List Byte) (pec : Option Byte), s.d.shape = true → s.d.twDead = false →
    (match pec with
      | some p => p.toNat ≠ s.d.blockPec n window bytes
      | none => window = true ∨ s.d.flag (twtPg n) 0x40 2 = true) →
    Completes (.twBlock n window bytes pec) s [.stat, .twT] fun e =>
      sameBut n.val s.d.twT e.twT ∧ (e.twt n).tx = none ∧ (e.twt n).blocks = satInc 65535 (s.d.twt n).blocks ∧
      (e.twt n).errors = satInc 65535 (s.d.twt n).errors ∧
      (if window then (e.twt n).reply = some ⟨true, 9, []⟩ ∧
          e.statOf (twtPg n) = ((s.d.statOf (twtPg n)).occur 8 9).occur 0 1
        else (e.twt n).reply = (s.d.twt n).reply ∧ s.d.recorded e (twtPg n) 0)) ∧
  (∀ (s : State) (n : Fin 2) (pec : Option Byte) (b lo hi : Byte),
    let good (window : Bool) (bytes : List Byte) : Prop := match pec with
      | some p => p.toNat = s.d.blockPec n window bytes
      | none => window = false ∧ s.d.flag (twtPg n) 0x40 2 = false
    (good false [0x00#8, b] → exec (.twBlock n false [0x00#8, b] pec) s = exec (.pmPage n (some b)) s) ∧
    (good false [0x10#8, b] → exec (.twBlock n false [0x10#8, b] pec) s = exec (.pmWriteProtect n (some b)) s) ∧
    (good false [0x21#8, lo, hi] →
      exec (.twBlock n false [0x21#8, lo, hi] pec) s = exec (.pmVoutCommand n (some (hi ++ lo))) s) ∧
    (good false [0x03#8] → exec (.twBlock n false [0x03#8] pec) s = exec (.pmClearFaults n) s) ∧
    (∀ (page off k : Nat), page < 65536 → off < 65536 → k < 256 →
      let l := [0x02#8, 5#8] ++ leBytes 2 page ++ leBytes 2 off ++ [BitVec.ofNat 8 k]
      good true l → exec (.twBlock n true l pec) s = exec (.regRead n page off k) s) ∧
    (∀ (page off : Nat) (ws : List Word32), page < 65536 → off < 65536 → 1 ≤ ws.length → ws.length ≤ 62 →
      let l := [0x01#8, BitVec.ofNat 8 (4 + 4 * ws.length)] ++ leBytes 2 page ++ leBytes 2 off ++
        ws.flatMap fun w => leBytes 4 w.toNat
      good true l → exec (.twBlock n true l pec) s = exec (.regWrite n page off ws) s) ∧
    (∀ (tag seq code : Nat) (args : List Byte), tag < 256 → seq < 65536 → code < 256 → args.length ≤ 40 →
      let l := [0x10#8, BitVec.ofNat 8 (4 + args.length)] ++ [BitVec.ofNat 8 tag] ++ leBytes 2 seq ++ [BitVec.ofNat 8 code] ++ args
      good true l → exec (.twBlock n true l pec) s = exec (.seqItem n tag seq code args) s)) ∧
  (∀ (s : State) (n : Fin 2) (b : Byte) (pec : Byte), s.d.shape = true → s.d.twDead = false →
    pec.toNat = s.d.blockPec n false [0x00#8, b] → (b.toNat ≤ 3 ∨ b = 0xFF#8) →
    Completes (.twBlock n false [0x00#8, b] (some pec)) s [.die, .twT] fun e =>
      (e.twt n).page = b.toNat ∧ (e.twt n).tx = some [] ∧ e.die = (s.d.blockCells n 0 (leBytes 1 b.toNat)).die)

/-- Every PMBus read answers the bytes of its register from the reply table (the status snapshot) for the rail of PAGE, with the PEC where the port requires it, and is not acknowledged with PMBUS_REFUSED while PAGE is 0xFF (the literal reading of R411); PAGE takes 0 to 3 and 0xFF; WRITE_PROTECT takes 0x80 and 0; VOUT_COMMAND writes the shadow of RAIL_VSET and commits the rail page where protection is off and SP_SRC is 0; every other write is refused. In reset and standby the port does not answer. -/
def Obligations.PmbusCommands : Prop :=
  (∀ (s : State) (n : Fin 2) (x : Instr × Nat × List Byte), s.d.shape = true → s.d.twDead = false → (s.d.twt n).page ≠ 0xFF →
    x ∈ pmReads n s.snap (s.d.twt n).page → Completes x.1 s [.stat, .twT] fun e => s.d.served e n (s.d.pmBytes n x.2.1 x.2.2) ∧ e.stat = s.d.stat) ∧
  (∀ (s : State) (n : Fin 2), s.d.shape = true → s.d.twDead = false → (s.d.twt n).page ≠ 0xFF →
    let d := s.snap
    let r := (s.d.twt n).page
    let gives (c : Instr) (code : Nat) (l : List Byte) : Prop := Completes c s [.twT] fun e =>
      s.d.served e n (if s.d.flag (twtPg n) 0x40 2 then
        let a := 2 * (s.d.twt n).base
        l ++ [BitVec.ofNat 8 (crc8 ([BitVec.ofNat 8 a, BitVec.ofNat 8 code, BitVec.ofNat 8 (a + 1)] ++ l))] else l)
    gives (.pmPage n none) 0x00 [BitVec.ofNat 8 r] ∧
    gives (.pmOperation n none) 0x01 [if (d.rail r).st = .regulate ∨ (d.rail r).st = .softStart then 0x80#8 else 0#8] ∧
    gives (.pmWriteProtect n none) 0x10 [BitVec.ofNat 8 (d.fld (twtPg n) 0x40 15 8)] ∧
    gives (.pmCapability n) 0x19 [0xD0#8] ∧ gives (.pmVoutMode n) 0x20 [0x14#8] ∧
    gives (.pmVoutCommand n none) 0x21 (leBytes 2 (linear16 73 (signed 32 (d.cfgRead (railPg r) 0x44)))) ∧
    gives (.pmStatusByte n) 0x78 [BitVec.ofNat 8 (d.pmStatusByte n r)] ∧
    gives (.pmStatusWord n) 0x79 (leBytes 2 (d.pmStatusWord n r)) ∧
    gives (.pmStatusVout n) 0x7A [BitVec.ofNat 8 (b2n (d.stBit (railPg r) 2) * 128 + b2n (d.stBit (railPg r) 3) * 16)] ∧
    gives (.pmStatusIout n) 0x7B [BitVec.ofNat 8 (b2n (d.stBit (railPg r) 0 || d.stBit (railPg r) 1) * 128)] ∧
    gives (.pmStatusInput n) 0x7C [BitVec.ofNat 8 (b2n (d.stBit 0x98 4 || d.stBit 0x98 5) * 128 +
      b2n (d.stBit 0x98 6 || d.stBit 0x98 7) * 16)] ∧
    gives (.pmStatusTemperature n) 0x7D [BitVec.ofNat 8 (b2n (d.stBit 0xA8 9) * 128 + b2n (d.stBit 0xA8 6) * 64)] ∧
    gives (.pmStatusCml n) 0x7E [BitVec.ofNat 8 (b2n (d.stBit (twtPg n) 1) * 128 + b2n (d.stBit (twtPg n) 2) * 64 +
      b2n (d.stBit (twtPg n) 0) * 32 + b2n (d.stBit (twtPg n) 3 || d.stBit (twtPg n) 4) * 2)] ∧
    gives (.pmReadVin n) 0x88 (leBytes 2 (linear11 74 (d.pre 4).avg 65536)) ∧
    gives (.pmReadIin n) 0x89 (leBytes 2 (linear11 75 d.pmIin 65536)) ∧
    gives (.pmReadVout n) 0x8B (leBytes 2 (unsigned 16 (Config.rdiv 76 (d.rail r).vAvg 16))) ∧
    gives (.pmReadIout n) 0x8C (leBytes 2 (linear11 77 (d.rail r).iAvg 65536)) ∧
    gives (.pmReadTemperature1 n) 0x8D (leBytes 2 (d.pmTemp r)) ∧
    gives (.pmReadPout n) 0x96 (leBytes 2 (linear11 78 ((d.rail r).vAvg * (d.rail r).iAvg) (2 ^ 32))) ∧
    gives (.pmRevision n) 0x98 [0x33#8] ∧ gives (.pmMfrId n) 0x99 (8#8 :: strBytes "RINTIDEX") ∧
    gives (.pmMfrModel n) 0x9A (7#8 :: strBytes "SBZ4064") ∧ gives (.pmMfrRevision n) 0x9B (2#8 :: strBytes "B1") ∧
    gives (.pmMfrShelf n) 0xD0 (leBytes 2 (d.roBlock 0xA4 0x80 % 65536)) ∧
    gives (.pmMfrBudget n) 0xD1 (4#8 :: (leBytes 2 (linear11 79 d.pSh 65536) ++ leBytes 2 (linear11 80 d.led.row 65536))) ∧
    gives (.pmMfrFaultPages n) 0xD2 (32#8 :: (List.range 8).flatMap fun i => leBytes 4 (d.faultSum i))) ∧
  (∀ (s : State) (n : Fin 2) (x : Instr × Nat × List Byte) (d : Dev) (r : Nat), s.d.shape = true → s.d.twDead = false →
    (s.d.twt n).page = 0xFF → x ∈ pmReads n d r → Completes x.1 s [.stat, .twT] fun e => s.d.turnedAway e n 2) ∧
  (∀ (s : State) (n : Fin 2) (x : Instr × Nat × List Byte) (d : Dev) (r : Nat), s.d.shape = true → s.d.twDead = true →
    x ∈ pmReads n d r → Completes x.1 s [.twT] fun e =>
      e.twt n = { s.d.twt n with tx := none } ∧ sameBut n.val s.d.twT e.twT) ∧
  (∀ (s : State) (n : Fin 2) (v : Byte), s.d.shape = true → s.d.twDead = false →
    Completes (.pmPage n (some v)) s [.die, .stat, .twT] fun e =>
      if v.toNat ≤ 3 ∨ v = 0xFF#8 then
        e.die = (s.d.blockCells n 0 (leBytes 1 v.toNat)).die ∧ e.twt n = { s.d.twt n with
          blocks := satInc 65535 (s.d.twt n).blocks, page := v.toNat, tx := some [], base := s.d.twBase n } ∧
        sameBut n.val s.d.twT e.twT ∧ e.stat = s.d.stat
      else s.d.turnedAway e n 2 ∧ e.die = s.d.die) ∧
  (∀ (s : State) (n : Fin 2) (v : Byte), s.d.shape = true → s.d.twDead = false →
    Completes (.pmWriteProtect n (some v)) s [.die, .stat, .regs, .twT] fun e =>
      if v = 0x80#8 ∨ v = 0x00#8 then
        e.die = (s.d.blockCells n 0x10 (leBytes 1 v.toNat)).die ∧ s.d.served e n [] ∧ e.stat = s.d.stat ∧ e.fld (twtPg n) 0x40 15 8 = v.toNat ∧
        (∀ i, (i < 8 ∨ 16 ≤ i) → e.flag (twtPg n) 0x40 i = s.d.flag (twtPg n) 0x40 i) ∧ s.d.onlyReg e (regAddr (twtPg n) 0x40)
      else s.d.turnedAway e n 2 ∧ e.regs = s.d.regs ∧ e.die = s.d.die) ∧
  (∀ (s : State) (n : Fin 2) (v : BitVec 16), s.d.shape = true → s.d.twDead = false →
    Completes (.pmVoutCommand n (some v)) s [.die, .stat, .regs, .upd, .twT] fun e =>
      let rs := pageRails (s.d.twt n).page
      if s.d.fld (twtPg n) 0x40 15 8 = 0 ∧ ∀ r ∈ rs, s.d.fld (railPg r) 0x40 1 0 = 0 then
        e.die = (s.d.blockCells n 0x21 (leBytes 2 v.toNat)).die ∧
        s.d.served e n [] ∧ e.stat = s.d.stat ∧ e.regs.force = s.d.regs.force ∧
        if s.d.upd.pause then
          e.upd = { s.d.upd with held := s.d.upd.held ++ rs.map fun r => .vout r (v.toNat * 16) } ∧ e.regs = s.d.regs
        else
          e.upd = s.d.upd ∧ ∀ r ∈ rs, alGet e.regs.shadow (regAddr (railPg r) 0x44) = some (v.toNat * 16) ∧
            ⟨railPg r, if s.d.lateInFrond then 2 else 1, none⟩ ∈ e.regs.commits
      else s.d.turnedAway e n 2 ∧ e.regs = s.d.regs ∧ e.upd = s.d.upd ∧ e.die = s.d.die) ∧
  (∀ (s : State) (n : Fin 2) (v : Byte), s.d.shape = true → s.d.twDead = false →
    Completes (.pmOperation n (some v)) s [.stat, .twT] (fun e => s.d.turnedAway e n 2) ∧
    Completes (.pmClearFaults n) s [.stat, .twT] fun e => s.d.turnedAway e n 2)

/-- OUTBOUND_BLOCK_TX takes the first complete block of a channel out of die S; a block of a controller port, a POLL that is due and a TW_RETRY are transactions: one that succeeds is counted and its value kept, a first failure is to be retried in the next frond and a second counts as failed with its address, and while STUCK is set each fails at once; ARB_LOST and ARB_COND record their bits and leave the transaction waiting for a retry at most three times, and after a fourth loss it fails whatever is answered; ARB_RETRY ends the wait; BUS_RECOVERY sets or clears STUCK and is repeated every 64 fronds while STUCK is set. The transactions of the other ports stand. -/
def Obligations.ControllerPorts : Prop :=
  (∀ (s : State) (chan : Nat) (a : TwAnswer) (b : OutBlock), s.d.offline = false → (chan < 0x12 ∨ 0x15 < chan) →
    (s.d.die.out.find? fun b => b.chan == chan && b.last) = some b →
    Completes (.outboundBlockTx chan a) s [.stat, .bbus, .twC, .die] fun e =>
      e.die = { s.d.die with out := s.d.die.out.erase b, sent := b :: s.d.die.sent } ∧ e.stat = s.d.stat ∧
      e.bbus = s.d.bbus ∧ e.twC = s.d.twC) ∧
  (∀ (s : State) (c : Fin 4) (a : TwAnswer) (b : OutBlock), s.d.shape = true → s.d.twcBusy c = false →
    (s.d.die.out.find? fun b => b.chan == 0x12 + c.val && b.last) = some b →
    Completes (.outboundBlockTx (0x12 + c.val) a) s [.stat, .bbus, .twC, .die] fun e =>
      let x := s.d.blockKind c b.bytes
      e.die = { s.d.die with out := s.d.die.out.erase b, sent := b :: s.d.die.sent } ∧
      (e.twc c).tx = x ∧ (e.twc c).arbN = 0 ∧ (e.twc c).arbFail = false ∧ sameBut c.val s.d.twC e.twC ∧
      if (s.d.twc c).stuck then
        (e.twc c).failed = satInc 65535 (s.d.twc c).failed ∧ (e.twc c).addr = s.d.txAddr c x ∧ e.stat = s.d.stat ∧
        (e.twc c).again = (s.d.twc c).again
      else match (if (s.d.twc c).arbFail then .abort else a) with
      | .data _ => (e.twc c).done = min 65535 ((s.d.twc c).done + 1) ∧ (e.twc c).again = (s.d.twc c).again ∧ e.stat = s.d.stat
      | .nack => (e.twc c).again = (s.d.twc c).again ++ [x] ∧ s.d.recorded e (twcPg c) 0 ∧ e.bbus = s.d.bbus
      | .pec => (e.twc c).again = (s.d.twc c).again ++ [x] ∧ s.d.recorded e (twcPg c) 1 ∧ e.bbus = s.d.bbus
      | .abort => (e.twc c).again = (s.d.twc c).again ++ [x] ∧ e.stat = s.d.stat ∧ e.bbus = s.d.bbus) ∧
  (∀ (s : State) (c : Fin 4) (i : Fin 16) (a : TwAnswer), s.d.shape = true → s.d.twcBusy c = false →
    (s.d.twc c).polls.length = 16 →
    s.d.flag (twcPg c) (0x100 + 8 * i) 31 = true →
    s.d.fld (twcPg c) (0x100 + 8 * i) 7 0 ≤ (nth (s.d.twc c).polls i PollRes.reset).age →
    Completes (.poll c i a) s [.die, .stat, .bbus, .twC] fun e =>
      let p := nth (s.d.twc c).polls i PollRes.reset
      let p' := nth (e.twc c).polls i PollRes.reset
      let addr := s.d.fld (twcPg c) (0x100 + 8 * i) 30 24
      let die := { s.d.die with sent := readBlk c addr (s.d.fld (twcPg c) (0x100 + 8 * i) 23 16) :: s.d.die.sent }
      e.bbus = s.d.bbus ∧ sameBut c.val s.d.twC e.twC ∧ sameBut i.val (s.d.twc c).polls (e.twc c).polls ∧ p'.age = 0 ∧
      (e.twc c).tx = .poll i ∧ (e.twc c).retry = (s.d.twc c).retry ∧ (e.twc c).arbN = 0 ∧ (e.twc c).arbFail = false ∧
      if (s.d.twc c).stuck then
        p'.valid = false ∧ p'.fails = inc8 p.fails ∧ (e.twc c).failed = satInc 65535 (s.d.twc c).failed ∧
        (e.twc c).addr = addr ∧ (e.twc c).again = (s.d.twc c).again ∧ e.stat = s.d.stat ∧ e.die = s.d.die
      else match (if (s.d.twc c).arbFail then .abort else a) with
      | .data v => p' = ⟨true, 0, if s.d.flag (twcPg c) (0x100 + 8 * i) 15 then v.toNat else v.toNat % 256, 0⟩ ∧
          (e.twc c).done = min 65535 ((s.d.twc c).done + 1) ∧ (e.twc c).again = (s.d.twc c).again ∧ e.stat = s.d.stat ∧
          e.die = { die with inq := die.inq ++
            [⟨0x12 + c, leBytes (if s.d.flag (twcPg c) (0x100 + 8 * i) 15 then 2 else 1) v.toNat, false⟩] }
      | .nack => (e.twc c).again = (s.d.twc c).again ++ [.poll i] ∧ p' = { p with age := 0 } ∧ s.d.recorded e (twcPg c) 0 ∧ e.die = die
      | .pec => (e.twc c).again = (s.d.twc c).again ++ [.poll i] ∧ p' = { p with age := 0 } ∧ s.d.recorded e (twcPg c) 1 ∧ e.die = die
      | .abort => (e.twc c).again = (s.d.twc c).again ++ [.poll i] ∧ p' = { p with age := 0 } ∧ e.stat = s.d.stat ∧ e.die = die) ∧
  (∀ (s : State) (c : Fin 4) (a : TwAnswer) (x : TwTx) (rest : List TwTx), s.d.shape = true → s.d.twcBusy c = false →
    (s.d.twc c).retry = x :: rest →
    Completes (.twRetry c a) s [.die, .stat, .bbus, .twC] fun e =>
      ((∀ i, x ≠ .poll i) → e.die = s.d.die) ∧
      sameBut c.val s.d.twC e.twC ∧ (e.twc c).retry = rest ∧ (e.twc c).tx = x ∧ (e.twc c).again = (s.d.twc c).again ∧
      ((∃ v, a = .data v ∧ (s.d.twc c).stuck = false ∧ (s.d.twc c).arbFail = false) →
        (e.twc c).done = min 65535 ((s.d.twc c).done + 1) ∧ (e.twc c).failed = (s.d.twc c).failed ∧ e.stat = s.d.stat) ∧
      (((∀ v, a ≠ .data v) ∨ (s.d.twc c).stuck = true ∨ (s.d.twc c).arbFail = true) →
        (e.twc c).failed = satInc 65535 (s.d.twc c).failed ∧ (e.twc c).addr = s.d.txAddr c x ∧
        (e.twc c).done = (s.d.twc c).done ∧ e.die = s.d.die)) ∧
  (∀ (s : State) (c : Fin 4), s.d.offline = false →
    Completes (.controllerSclTimeout c) s [.stat] fun e => s.d.recorded e (twcPg c) 5) ∧
  (∀ (s : State) (n : Fin 6) (byte bit : Nat), s.d.shape = true → s.d.offline = false →
    let out (lost : Bool) (e : Dev) : Prop :=
      if n.val < 2 then
        let t := s.d.twt n
        e.twt n = { t with arbN := if t.arbN = 3 then 0 else t.arbN + 1, arbWait := decide (t.arbN < 3), arbFail := t.arbN == 3 } ∧
        sameBut n.val s.d.twT e.twT ∧ e.twC = s.d.twC ∧ s.d.recorded e (twtPg n) (if lost then 6 else 7)
      else
        let c := n.val - 2
        let t := s.d.twc c
        e.twc c = { t with
          arbIndex := if lost then (9 * byte + bit) % 256 else t.arbIndex, arbN := if t.arbN = 3 then 0 else t.arbN + 1,
          arbWait := decide (t.arbN < 3), arbFail := t.arbN == 3 } ∧
        sameBut c s.d.twC e.twC ∧ e.twT = s.d.twT ∧ s.d.recorded e (twcPg c) (if lost then 2 else 3)
    Completes (.arbLost n byte bit) s [.stat, .twC, .twT] (out true) ∧
    Completes (.arbCond n) s [.stat, .twC, .twT] (out false)) ∧
  (∀ (s : State) (n : Fin 6), s.d.shape = true →
    Completes (.arbRetry n) s [.twC, .twT] fun e =>
      if n.val < 2 then
        e.twt n = { s.d.twt n with arbWait := false } ∧ sameBut n.val s.d.twT e.twT ∧ e.twC = s.d.twC
      else e.twc (n - 2) = { s.d.twc (n - 2) with arbWait := false } ∧ sameBut (n.val - 2) s.d.twC e.twC ∧ e.twT = s.d.twT) ∧
  (∀ (s : State) (c : Fin 4) (b : BusState), s.d.shape = true → s.d.offline = false →
    ((s.d.twc c).stuck = true → 64 ≤ (s.d.twc c).stuckAge) →
    Completes (.busRecovery c b) s [.stat, .twC] fun e =>
      e.twc c = { s.d.twc c with fresh := false, stuck := b != .released, stuckAge := 0 } ∧ sameBut c.val s.d.twC e.twC ∧
      match b with
      | .released => e.stat = s.d.stat
      | .sdaLow => s.d.recordedC e (twcPg c) 4 5
      | .sclLow => s.d.recordedC e (twcPg c) 4 6) ∧
  (∀ (s : State) (c : Fin 4) (b : BusState), (s.d.twc c).stuck = true → (s.d.twc c).stuckAge < 64 →
    exec (.busRecovery c b) s = .next s)

/-- A frame is dropped and counted for its CRC or its hops, dropped for its own source, counted as a duplicate or dropped as stale by the sender's window; an accepted frame moves the window and, unless it is a unicast for this device, leaves by the other port with HOPS reduced by 1, or is dropped and counted where the transit queue is full, and a link-local frame goes no further; a frame of an unknown kind is counted and never delivered; a frame for the twins waits in the receive buffer, or is dropped and counted where that is full, during a management pause, while its class does not fire, behind one that can be taken, and a COMMAND while the replay goes on. -/
def Obligations.MienoReception : Prop :=
  (∀ (s : State) (p : MPort) (f : MFrame) (rx : Int), (f.kind = 0xB → f.format ≠ 1) →
    (s.d.offline = true ∨ mieCrcOk f = false ∨ f.hops = 0 ∨
      (f.src = s.d.rowId ∧ (frameKnown f = false ∨ f.kind ≠ 4 ∨ leNat (f.payload.take 8) = Config.devSerial.toNat))) →
    Completes (frameCmd p f rx) s [.stat, .mie] fun e =>
      if s.d.offline then e = s.d
      else if mieCrcOk f = false then e.mie = { s.d.mie with crcErr := inc16 s.d.mie.crcErr } ∧ s.d.recorded e miePg 2
      else if f.hops = 0 then e.mie = { s.d.mie with hopExpired := inc16 s.d.mie.hopExpired } ∧ e.stat = s.d.stat
      else e = s.d) ∧
  (∀ (s : State) (p : MPort) (f : MFrame), frameKnown f = true → f.kind = 4 → s.d.offline = false → mieCrcOk f = true → f.hops ≠ 0 →
    f.src = s.d.rowId → leNat (f.payload.take 8) ≠ Config.devSerial.toNat →
    Completes (.mienoHeartbeat p f) s [.stat, .mie] fun e =>
      e.mie = { s.d.mie with idConf := true, confEpochs := 0 } ∧
      if s.d.mie.idConf then e.stat = s.d.stat else s.d.recorded e miePg 4) ∧
  (∀ (s : State) (p : MPort) (f : MFrame) (rx : Int), (f.kind = 0xB → f.format ≠ 1) → s.d.offline = false → mieCrcOk f = true →
    f.hops ≠ 0 → f.src ≠ s.d.rowId → (winJudge (s.d.window f.src) f = .duplicate ∨ winJudge (s.d.window f.src) f = .stale) →
    Completes (frameCmd p f rx) s [.stat, .mie] fun e =>
      e.stat = s.d.stat ∧
      (winJudge (s.d.window f.src) f = .duplicate → e.mie = { s.d.mie with heard := true, dup := inc16 s.d.mie.dup }) ∧
      (winJudge (s.d.window f.src) f = .stale → e.mie = { s.d.mie with heard := true })) ∧
  (∀ (s : State) (p : MPort) (f : MFrame) (rx : Int) (w : RxWindow), (f.kind = 0xB → f.format ≠ 1) → s.d.offline = false →
    mieCrcOk f = true → f.hops ≠ 0 → f.src ≠ s.d.rowId → winJudge (s.d.window f.src) f = .accepted w →
    (frameKnown f = false ∨ s.d.isMine f = false) →
    Completes (frameCmd p f rx) s [.stat, .mie] fun e =>
      e.window f.src = some w ∧ e.mie.heard = true ∧ e.mie.rxBuf = s.d.mie.rxBuf ∧ e.mport p = s.d.mport p ∧
      e.mie.unknown = (if frameKnown f then s.d.mie.unknown else inc16 s.d.mie.unknown) ∧
      let o := s.d.mport (otherMp p)
      let o' := e.mport (otherMp p)
      if f.link then o' = o ∧ e.stat = s.d.stat ∧ e.mie.queueDrop = s.d.mie.queueDrop
      else if f.kind = 3 ∧ f.format = 1 then o'.timeQ.length = o.timeQ.length + 1 ∧ o' = { o with timeQ := o'.timeQ }
      else if 32 ≤ o.transitQ.length then
        o' = o ∧ e.mie.queueDrop = inc16 s.d.mie.queueDrop ∧ s.d.recorded e miePg 3
      else o' = { o with transitQ := o.transitQ ++ [⟨{ f with hops := f.hops - 1 }, false, none⟩] } ∧ e.stat = s.d.stat) ∧
  (∀ (s : State) (p : MPort) (f : MFrame), frameKnown f = true → f.kind ≠ 3 → f.kind ≠ 4 → f.kind ≠ 0xB →
    (s.d.receive p f none).2 = true →
    (s.d.kindWaits f.kind = true ∨ s.d.kindFires f.kind = false ∨ (s.d.mie.rxBuf.all fun x => !s.d.kindFires x.2.kind) = false) →
    Completes (frameCmd p f 0) s [.stat, .mie] fun e =>
      if 32 ≤ s.d.mie.rxBuf.length then
        e.mie.rxBuf = s.d.mie.rxBuf ∧ e.mie.rxDrop = inc16 s.d.mie.rxDrop ∧
        (s.d.recorded e miePg 3 ∨ e.statOf miePg = ((s.d.statOf miePg).occur 3 4).occur 3 4)
      else e.mie.rxBuf = s.d.mie.rxBuf ++ [(p, f)] ∧ e.mie.rxDrop = s.d.mie.rxDrop)

/-- An ADVERT and a DIGEST are recorded for their sender, a HEARTBEAT with its class, and a silent sender of which an ADVERT has come is silent no more; a BUDGET part that holds the device's entry for the next epoch gives the publication its entry; a COMMAND has the outcome of its item and is answered by a COMMAND_REPLY; a reply to the command sent shows in FAB_RX; a SPORE_CHUNK is taken from the lock holder and refused from another; a PEAT_REQ triggers a record where that is enabled; PEAT_DATA reaches the twins and changes nothing else; a TIME frame of the master gives the offset of its receive instant (log entry 121) and moves the time state, one of another master is recorded. -/
def Obligations.MienoDelivery : Prop :=
  (∀ (s : State) (p : MPort) (f : MFrame), s.d.takesNow p f →
    let r := (s.d.receive p f none).1.frameCells p f
    let g (o k : Nat) : Nat := leNat ((f.payload.drop o).take k)
    let b (i : Nat) : Nat := ((f.payload.drop i).getD 0 0).toNat
    let got (e : Dev) : Prop := e.die = r.die ∧ e.mie.rxBuf = s.d.mie.rxBuf
    (f.kind = 1 → Completes (.budget p f) s [.die, .adm, .stat, .mie] fun e => got e ∧
      (g 12 1 % 16 = s.d.rowId / 120 → g 0 4 = (s.d.epoch32 + 1) % 2 ^ 32 → s.d.nextSource.map Prod.fst = some f.src →
        (e.pubOf (g 0 4)).entry = some (g (16 + 2 * (s.d.rowId % 120)) 2) ∧ e.adm = s.d.adm ∧ e.mie.share = s.d.mie.share)) ∧
    (f.kind = 2 → Completes (.advert p f) s [.die, .stat, .mie] fun e => got e ∧
      ∃ x, e.member f.src = some x ∧ x.adv = some (readAdvert f.payload) ∧ x.short = padTo 8 (f.payload.drop 20) ∧ x.back = true ∧
        ∀ y, s.d.member f.src = some y →
          x.advPrev = (if y.adv.map Advert.epoch = some (g 0 4) then y.advPrev else y.adv) ∧ x.hbAge = some (y.hbAge.getD 0)) ∧
    (f.kind = 5 → Completes (.digest p f) s [.die, .stat, .mie] fun e => got e ∧
      ∃ x, e.member f.src = some x ∧ x.digest = padTo 56 f.payload ∧ x.short = padTo 8 f.payload) ∧
    (f.kind = 6 → Completes (.fabCommand p f) s [.die, .jrn, .stat, .mie, .nv] fun e => got e ∧
      let seq := g 0 2
      let args := f.payload.drop 12
      let v := r.decideAny (0x3000 + f.src) seq (b 2) args true
      (b 2 = 7 ∨ b 2 = 8 → r.sends e 7 false f.src (verdictBody seq (Verdict.plain 0x20)) ∧ e.jrn = s.d.jrn) ∧
      (b 2 < 7 → argLen (b 2) = some args.length → 12 ≤ f.payload.length → bitAt (b 3) 0 = false →
        r.sends e 7 false f.src (verdictBody seq v.2) ∧ e.jrn = v.1.jrn ∧ e.nv = v.1.nv)) ∧
    (f.kind = 7 → Completes (.commandReply p f) s [.die, .stat, .mie] fun e => got e ∧
      ∀ t, s.d.mie.fabTx = some t →
        if fabDst t.words = f.src ∧ fabSeq t.words = g 1 2 then
          e.mie.fabTx = none ∧ e.mie.fabRx.valid = true ∧ e.mie.fabRx.seq = fabSeq t.words ∧ e.mie.fabRx.outcome = b 0 ∧
          e.mie.fabRx.result = g 4 2
        else e.mie.fabTx = some t ∧ e.mie.fabRx = s.d.mie.fabRx) ∧
    (f.kind = 8 → Completes (.sporeChunk p f) s [.die, .stat, .upd, .mie, .nv] fun e => got e ∧
      if s.d.upd.session ≠ 0 ∧ s.d.upd.owner = 0x3000 + f.src ∧ g 0 2 = s.d.upd.session then
        e.upd.idleTicks = s.d.now ∧ e.upd.chunkSt = (r.chunk (g 2 4) (f.payload.drop 8)).2
      else e.upd = s.d.upd ∧ e.nv = s.d.nv ∧ e.statOf updPg = (s.d.statOf updPg).occur 6 (causeOf updPg 6)) ∧
    (f.kind = 9 → Completes (.peatReq p f) s [.die, .stat, .mie, .nv, .peat] fun e => got e ∧
      let x : List PeatTrig := if bitAt (b 0) 0 = true ∧ s.d.flag 0xB1 0x44 0 = true then [⟨5, 0xFFFF, 0, g 1 2⟩] else []
      e.peat = { s.d.peat with trig := s.d.peat.trig ++ x } ∧
      (bitAt (b 0) 1 = false → e.mie = r.mie) ∧ (bitAt (b 0) 1 = true → e.mie.fseq = (s.d.mie.fseq + 4) % 65536)) ∧
    (f.kind = 0xA → Completes (.peatData p f) s [.die, .stat, .mie] fun e => e = r)) ∧
  (∀ (s : State) (p : MPort) (f : MFrame), frameKnown f = true → f.kind = 4 → (s.d.receive p f none).2 = true →
    Completes (.mienoHeartbeat p f) s [.stat, .mie] fun e =>
      ∃ x, e.member f.src = some x ∧ x.hbAge = some 0 ∧ x.cls = (f.payload.getD 10 0).toNat % 4 ∧
        x.conflict = bitAt (f.payload.getD 11 0).toNat 1 ∧
        ∀ y, s.d.member f.src = some y → x.silent = (y.silent && !y.back)) ∧
  (∀ (s : State) (p : MPort) (f : MFrame) (rx : Int), frameKnown f = true → f.kind = 3 →
    (s.d.receive p f (some (s.d.instant rx))).2 = true →
    Completes (.timeFrame p f rx) s [.stat, .mie] fun e =>
      let o := s.d.instant rx - ((leNat (f.payload.take 8) : Int) * 65536 + signed 64 (leNat ((f.payload.drop 8).take 8)) +
        (s.d.mport p).delay)
      if s.d.mie.master = some f.src then
        e.mie.off = o ∧ e.mie.noTime = 0 ∧
        (s.d.mie.tst = .free → s.d.isMaster = false → e.mie.tst = .resync ∧ e.mie.time = s.d.mie.time - o) ∧
        ((s.d.mie.tst = .sync ∨ s.d.mie.tst = .hold) → (if o.natAbs ≤ 65536000
          then e.mie.tst = .sync ∧ e.statOf mtPg = s.d.statOf mtPg
          else e.mie.tst = .resync ∧ e.mie.stepDue = true ∧ e.statOf mtPg = (s.d.statOf mtPg).occur 0 1)) ∧
        (s.d.mie.tst = .resync → (e.mie.tst = .sync ↔ o.natAbs ≤ 6553600 ∧ s.d.mie.goodN = 3))
      else e.mie.off = s.d.mie.off ∧ e.mie.tst = s.d.mie.tst ∧ e.statOf mtPg = (s.d.statOf mtPg).occur 3 (causeOf mtPg 3))

/-- MIENO_LINK_UP and MIENO_LINK_DOWN complete with their port up or down, the loss recorded; LINK_FRAME completes with the neighbour, the link delay measured and the answer that leaves (its stamps and its answer are the model's reading, log entries 98 and 121); UNKNOWN_FRAME completes with the sender's window moved and the frame counted and not delivered; DUPLICATE_WINDOW_RESET completes with exactly the idle window of the sender gone; ID_CONFLICT_CLEAR completes with the conflict over after 8 epochs. MIENO_HEARTBEAT_TX and DIGEST_TX send their frame on both rings when it is due; TIME_HOLD, TIME_GO and TSET_HOLD_EXPIRY move the time state; ALLOCATE publishes every part that holds an entry and takes the own entry; SHARE_INCREASE applies the share that waited; MEMBER_SILENT, EXT_HOLD_EXPIRY, FAB_GO and FAB_RESEND act as their rules say, ROW_EXT waits for the frond boundary; ROW_EPOCH_BOUNDARY begins the row epoch that the frond boundary opened: the source is that of the ADVERTs of the epoch before, and only the publications of this epoch stay. -/
def Obligations.RowEvents : Prop :=
  (∀ (s : State) (p : MPort), s.d.offline = false →
    Completes (.mienoLinkUp p) s [.mie] fun e =>
      e.mport p = { s.d.mport p with up := true } ∧ e.mport (otherMp p) = s.d.mport (otherMp p)) ∧
  (∀ (s : State) (p : MPort), (s.d.mport p).up = true →
    Completes (.mienoLinkDown p) s [.stat, .mie] fun e =>
      e.mport p = { s.d.mport p with up := false } ∧ e.mport (otherMp p) = s.d.mport (otherMp p) ∧
      s.d.recorded e miePg (mpIdx p)) ∧
  (∀ (s : State) (p : MPort) (t1 t2 t3 t4 : Int) (nb : Nat), s.d.offline = false →
    Completes (.linkFrame p t1 t2 t3 t4 nb) s [.mie] fun e =>
      e.mport p = { s.d.mport p with
        nbValid := true, nb := nb,
        delays := (Config.rdiv 53 ((s.d.instant t4 - (s.d.mport p).linkT1.getD (s.d.instant t1)) - (t3 - t2)) 2 ::
          (s.d.mport p).delays).take 16,
        ownQ := (e.mport p).ownQ } ∧
      (∃ x : TxFrame, (e.mport p).ownQ = (s.d.mport p).ownQ ++ [x] ∧ x.own = true ∧ x.rx = some (s.d.instant t4) ∧ x.f.kind = 0xB ∧ x.f.link = true ∧
        x.f.src = s.d.rowId ∧ x.f.fseq = s.d.mie.fseq ∧ x.f.ring = mpIdx p) ∧ e.mie.fseq = (s.d.mie.fseq + 1) % 65536 ∧
      e.mport (otherMp p) = s.d.mport (otherMp p) ∧ e.mie.heard = true) ∧
  (∀ (s : State) (src : Nat),
    Completes (.duplicateWindowReset src) s [.mie] fun e =>
      e.mie = { s.d.mie with windows := e.mie.windows } ∧
      ∀ w, w ∈ e.mie.windows ↔ w ∈ s.d.mie.windows ∧ ¬ (w.src = src ∧ 64 ≤ w.age)) ∧
  (∀ (s : State), s.d.mie.idConf = true → 8 ≤ s.d.mie.confEpochs →
    Completes .idConflictClear s [.mie] fun e => e.mie = { s.d.mie with idConf := false, confEpochs := 0 }) ∧
  (∀ (s : State) (p : MPort) (f : MFrame) (w : RxWindow), frameKnown f = false → s.d.offline = false → mieCrcOk f = true →
    f.hops ≠ 0 → f.src ≠ s.d.rowId → winJudge (s.d.window f.src) f = .accepted w →
    Completes (.unknownFrame p f) s [.stat, .mie] fun e =>
      e.window f.src = some w ∧ e.mie.unknown = inc16 s.d.mie.unknown ∧ e.mie.rxBuf = s.d.mie.rxBuf ∧
      (f.link = false → ((f.kind = 3 ∧ f.format = 1) ∨ (s.d.mport (otherMp p)).transitQ.length < 32) → e.stat = s.d.stat)) ∧
  (∀ (s : State), 16 ≤ s.d.mie.hbN → s.d.offline = false →
    Completes .mienoHeartbeatTx s [.mie] fun e => e.mie.hbN = 0 ∧ s.d.sends e 4 true 0 s.d.hbPayload) ∧
  (∀ (s : State), s.d.mie.tst = .sync → s.d.isMaster = false → 8 ≤ s.d.mie.noTime →
    Completes .timeHold s [.stat, .mie] fun e => e.mie = { s.d.mie with tst := .hold } ∧ s.d.recorded e mtPg 1) ∧
  (∀ (s : State) (v : Word32), Completes (.timeGo v) s [.mie] fun e => e.mie = { s.d.mie with goLeft := 2 }) ∧
  (∀ (s : State) (a : Nat), s.d.mie.setAge = some a → s.d.fld mtPg 0x58 15 0 ≤ a →
    Completes .tsetHoldExpiry s [.stat, .mie] fun e =>
      e.mie.setAge = none ∧ e.timeClass < 2 ∧ e.mie.master = e.bestMaster ∧ e.mie.tst = s.d.mie.tst) ∧
  (∀ (s : State), (s.d.mie.digRec ≠ s.d.rowRecord ∨ 64 ≤ s.d.mie.digAge) → s.d.twinSends 5 = true →
    Completes .digestTx s [.mie] fun e =>
      e.mie.digRec = s.d.rowRecord ∧ e.mie.digAge = 0 ∧ s.d.sends e 5 true 0 (s.d.rowDigest ++ s.d.rowRecord)) ∧
  (∀ (s : State) (cls : Nat), s.d.nextSource = some (s.d.rowId, cls) → s.d.time.inEpoch = 32 → s.d.rowEn = true →
    s.d.mie.idConf = false → s.d.twinSends 1 = true →
    Completes .allocate s [.adm, .stat, .mie] fun e =>
      let r := s.d.computeShares
      let next := (s.d.epoch32 + 1) % 2 ^ 32
      (e.pubOf next).entry = some (entryOf r.2.1 s.d.rowId) ∧ e.mie.exEpoch = next ∧
      e.mie.exMembers = (r.2.1.filter fun x => x.2 == entryExcluded).length ∧
      ∀ q k, k < 9 → (∃ x ∈ r.2.1, x.1 / 120 = k) →
        ∃ x ∈ (e.mport q).ownQ, x.f.kind = 1 ∧ x.f.bcast = true ∧ x.f.payload = s.d.budgetPart r.1 r.2.1 cls k) ∧
  (∀ (s : State) (v k : Nat), s.d.mie.incWait = some (v, k) → k ≤ s.d.time.frond →
    Completes .shareIncrease s [.adm, .mie] fun e =>
      e.mie.share = some v ∧ e.mie.decay = 0 ∧ e.mie.incWait = none ∧ e.mie.lastEntry = v ∧ e.adm.led.row = e.rowTerm) ∧
  (∀ (s : State) (id a : Nat) (x : RowMember), s.d.member id = some x → x.hbAge = some a → 48 ≤ a → x.silent = false →
    Completes (.memberSilent id) s [.stat, .mie] fun e =>
      (e.member id).map RowMember.silent = some true ∧ s.d.recorded e rowPg 6) ∧
  (∀ (s : State) (v : Word32),
    Completes (.rowExt v) s [.regs] fun e =>
      alGet e.regs.deferred (regAddr rowPg 0x48) = some (v.toNat &&& 0x800FFFFF) ∧
      e.regs = { s.d.regs with deferred := e.regs.deferred } ∧
      ∀ a, a ≠ regAddr rowPg 0x48 → alGet e.regs.deferred a = alGet s.d.regs.deferred a) ∧
  (∀ (s : State), s.d.mie.extLive = true → s.d.fld rowPg 0x44 23 16 ≤ s.d.mie.extAge →
    Completes .extHoldExpiry s [.regs, .mie] fun e =>
      e.mie = { s.d.mie with extLive := false } ∧ e.flag rowPg 0x48 31 = false ∧ s.d.onlyReg e (regAddr rowPg 0x48)) ∧
  (∀ (s : State) (v : Word32), Completes (.fabGo v) s [.mie] fun e => e.mie.fabGo.isSome = true ∧ e.mie.fabTx = s.d.mie.fabTx) ∧
  (∀ (s : State) (t : FabTx), s.d.mie.fabTx = some t → 16 ≤ t.age →
    Completes .fabResend s [.stat, .mie] fun e =>
      if 8 < t.sends then e.mie = { s.d.mie with fabTx := none } ∧ s.d.recorded e miePg 6
      else if s.d.kindFires 6 = false then e = s.d
      else e.mie.fabTx = some { t with sends := t.sends + 1, age := 0 } ∧
        (s.d.mie.idConf = false → s.d.offline = false → fabTimed t.words = false →
          s.d.sends e 6 false (fabDst t.words) (fabPayload t.words) ∧ e.stat = s.d.stat)) ∧
  (∀ (s : State), s.d.time.epochDue = true →
    Completes .rowEpochBoundary s [.adm, .stat, .time, .mie] fun e =>
      e.time = { s.d.time with epochDue := false } ∧ e.mie.dMax = 0 ∧
      e.mie.src = (s.d.sourceAfter ((s.d.epoch32 + 0xFFFFFFFF) % 2 ^ 32)).map Prod.fst ∧
      ∀ p ∈ e.mie.pubs, p.epoch = e.epoch32 ∧ p ∈ s.d.mie.pubs)
end

