-- ==== Sys2Proof/Laws/Lists.lean ====
section
/-! SUPPORT. Lists of parts by number, tables of numbered values, and the register file they make. -/

namespace Sys2Proof

@[simp] theorem updAt_length {α : Type} (l : List α) (i : Nat) (f : α → α) : (updAt l i f).length = l.length := by
  induction l generalizing i with
  | nil => rfl
  | cons a l ih => cases i <;> simp [updAt, ih]

theorem updAt_getElem?_same {α : Type} (l : List α) (i : Nat) (f : α → α) : (updAt l i f)[i]? = l[i]?.map f := by
  induction l generalizing i with
  | nil => rfl
  | cons a l ih => cases i <;> simp [updAt, ih]

theorem updAt_getElem?_other {α : Type} (l : List α) {i j : Nat} (f : α → α) (h : j ≠ i) : (updAt l i f)[j]? = l[j]? := by
  induction l generalizing i j with
  | nil => rfl
  | cons a l ih =>
    cases i <;> cases j <;> simp_all [updAt]

/-- What stands at a number after the update of the element at that number. -/
theorem nth_updAt_same {α : Type} (l : List α) {i : Nat} (f : α → α) (d : α) (h : i < l.length) :
    nth (updAt l i f) i d = f (nth l i d) := by
  rw [nth, nth, List.getD_eq_getElem?_getD, List.getD_eq_getElem?_getD, updAt_getElem?_same, List.getElem?_eq_getElem h]
  rfl

/-- What stands at another number stays. -/
@[simp] theorem nth_updAt_other {α : Type} (l : List α) {i j : Nat} (f : α → α) (d : α) (h : j ≠ i) :
    nth (updAt l i f) j d = nth l j d := by
  simp [nth, List.getD_eq_getElem?_getD, updAt_getElem?_other l f h]

@[simp] theorem mem_upto {n i : Nat} : i ∈ upto n ↔ i < n := by simp [upto]

end Sys2Proof

namespace Sys2Proof.Machine

theorem alGet_alErase_same (l : List (Nat × Nat)) (a : Nat) : alGet (alErase l a) a = none := by
  induction l with
  | nil => rfl
  | cons c l ih =>
    rw [alErase]
    split
    · exact ih
    · rw [alGet, if_neg ‹_›]; exact ih

theorem alGet_alErase_other (l : List (Nat × Nat)) {a x : Nat} (h : x ≠ a) : alGet (alErase l a) x = alGet l x := by
  induction l with
  | nil => rfl
  | cons c l ih =>
    rw [alErase]
    split
    · rw [alGet, if_neg (by omega)]; exact ih
    · rw [alGet, alGet, ih]

theorem alGet_alSet_same (l : List (Nat × Nat)) (a v : Nat) : alGet (alSet l a v) a = some v := by
  induction l with
  | nil => simp [alSet, alGet]
  | cons c l ih =>
    rw [alSet]
    split
    · simp [alGet]
    · split
      · simp [alGet]
      · rw [alGet, if_neg (by omega)]; exact ih

theorem alGet_alSet_other (l : List (Nat × Nat)) {a x : Nat} (v : Nat) (h : x ≠ a) : alGet (alSet l a v) x = alGet l x := by
  induction l with
  | nil => simp [alSet, alGet, Ne.symm h]
  | cons c l ih =>
    rw [alSet]
    split
    · rw [alGet, if_neg (by omega)]
    · split
      · rw [alGet, if_neg (by omega), alGet, if_neg (by omega)]
      · rw [alGet, alGet, ih]

/-- The value in force of the register at an address, before it is named by page and offset. -/
theorem RegFile.val_eq (r : RegFile) (pg off : Nat) :
    r.val pg off = (alGet r.force (regAddr pg off)).getD (resetOf pg off) := rfl

theorem resetAt_regAddr {pg off : Nat} (h : off < 0x1000) : resetAt (regAddr pg off) = resetOf pg off := by
  have hp : (pg * 0x1000 + off) / 0x1000 = pg := by omega
  have ho : (pg * 0x1000 + off) % 0x1000 = off := by omega
  simp only [resetAt, regAddr, hp, ho]

/-- A register just set has the value set. -/
theorem RegFile.setVal_same (r : RegFile) {pg off : Nat} (v : Nat) (h : off < 0x1000) :
    (r.setVal (regAddr pg off) v).val pg off = v := by
  unfold RegFile.setVal RegFile.val
  split
  · rename_i e; simp only [alGet_alErase_same, Option.getD_none]; rw [e, resetAt_regAddr h]
  · simp only [alGet_alSet_same, Option.getD_some]

/-- Every register at another address keeps its value. -/
theorem RegFile.setVal_other (r : RegFile) {a pg off : Nat} (v : Nat) (h : regAddr pg off ≠ a) :
    (r.setVal a v).val pg off = r.val pg off := by
  unfold RegFile.setVal RegFile.val
  split
  · simp only [alGet_alErase_other _ h]
  · simp only [alGet_alSet_other _ v h]

@[simp] theorem RegFile.setVal_shadow (r : RegFile) (a v : Nat) : (r.setVal a v).shadow = r.shadow := rfl
@[simp] theorem RegFile.setVal_deferred (r : RegFile) (a v : Nat) : (r.setVal a v).deferred = r.deferred := rfl

theorem forceWf_le {l : List (Nat × Nat)} {lo lo' : Nat} (hle : lo' ≤ lo) (h : forceWf l lo = true) : forceWf l lo' = true := by
  cases l with
  | nil => rfl
  | cons c l => simp only [forceWf, Bool.and_eq_true, decide_eq_true_eq] at h ⊢; exact ⟨⟨by omega, h.1.2⟩, h.2⟩

theorem alErase_wf {l : List (Nat × Nat)} {lo : Nat} (a : Nat) (h : forceWf l lo = true) : forceWf (alErase l a) lo = true := by
  induction l generalizing lo with
  | nil => rfl
  | cons c l ih =>
    simp only [forceWf, Bool.and_eq_true, decide_eq_true_eq] at h
    rw [alErase]
    split
    · exact forceWf_le (by omega) (ih h.2)
    · simp only [forceWf, Bool.and_eq_true, decide_eq_true_eq]; exact ⟨h.1, ih h.2⟩

theorem alSet_wf {l : List (Nat × Nat)} {lo a v : Nat} (hv : v ≠ resetAt a) (ha : lo ≤ a) (h : forceWf l lo = true) :
    forceWf (alSet l a v) lo = true := by
  induction l generalizing lo with
  | nil => simp [alSet, forceWf, hv, ha]
  | cons c l ih =>
    simp only [forceWf, Bool.and_eq_true, decide_eq_true_eq] at h
    rw [alSet]
    split
    · simp only [forceWf, Bool.and_eq_true, decide_eq_true_eq]; exact ⟨⟨ha, hv⟩, ⟨by omega, h.1.2⟩, h.2⟩
    · split
      · rename_i e
        simp only [forceWf, Bool.and_eq_true, decide_eq_true_eq]
        exact ⟨⟨ha, hv⟩, e ▸ h.2⟩
      · simp only [forceWf, Bool.and_eq_true, decide_eq_true_eq]
        exact ⟨h.1, ih (by omega) h.2⟩

/-- Setting a register keeps the canonical form of the values in force. -/
theorem RegFile.setVal_wf {r : RegFile} (a v : Nat) (h : forceWf r.force 0 = true) : forceWf (r.setVal a v).force 0 = true := by
  unfold RegFile.setVal
  split
  · exact alErase_wf a h
  · exact alSet_wf ‹_› (by omega) h

/-- A register of the block just set has the value set. -/
theorem Dev.setReg_same (d : Dev) {pg off : Nat} (v : Nat) (h : off < 0x1000) : (d.setReg pg off v).reg pg off = v :=
  RegFile.setVal_same d.regs v h

/-- Two registers below 4096 bytes of their pages with one address are one register. -/
theorem regAddr_inj {pg off pg' off' : Nat} (h : off < 0x1000) (h' : off' < 0x1000) (e : regAddr pg off = regAddr pg' off') :
    pg = pg' ∧ off = off' := by
  unfold regAddr at e; omega

end Sys2Proof.Machine
end

