-- ==== Sys2Proof/Laws/Memory.lean ====
section
/-! SUPPORT. The byte memories: every operation keeps the canonical form, a read after a write to the same address gives the byte
written, and a write leaves every other address alone. -/

namespace Sys2Proof.Machine

theorem memRising_le {lo lo' : Nat} {m : Memory} (hle : lo' ≤ lo) (h : memRising lo m = true) : memRising lo' m = true := by
  cases m with
  | nil => rfl
  | cons c m => simp only [memRising, Bool.and_eq_true, decide_eq_true_eq] at h ⊢; exact ⟨⟨by omega, h.1.2⟩, h.2⟩

/-- Below its bound a rising memory lists nothing. -/
theorem memRead_below {lo a : Nat} {m : Memory} (h : memRising lo m = true) (ha : a < lo) : memRead m a = memDefault := by
  induction m generalizing lo with
  | nil => rfl
  | cons c m ih =>
    simp only [memRising, Bool.and_eq_true, decide_eq_true_eq] at h
    rw [memRead, if_neg (by omega)]
    exact ih h.2 (by omega)

theorem memErase_rising {lo : Nat} {m : Memory} (a : Nat) (h : memRising lo m = true) : memRising lo (memErase m a) = true := by
  induction m generalizing lo with
  | nil => rfl
  | cons c m ih =>
    simp only [memRising, Bool.and_eq_true, decide_eq_true_eq] at h
    rw [memErase]
    split
    · exact memRising_le (by omega) (ih h.2)
    · simp only [memRising, Bool.and_eq_true, decide_eq_true_eq]; exact ⟨h.1, ih h.2⟩

theorem memInsert_rising {lo a : Nat} {m : Memory} {b : Byte} (hb : b ≠ memDefault) (ha : lo ≤ a)
    (h : memRising lo m = true) : memRising lo (memInsert m a b) = true := by
  induction m generalizing lo with
  | nil => simp [memInsert, memRising, hb, ha]
  | cons c m ih =>
    simp only [memRising, Bool.and_eq_true, decide_eq_true_eq] at h
    rw [memInsert]
    split
    · simp only [memRising, Bool.and_eq_true, decide_eq_true_eq]; exact ⟨⟨ha, hb⟩, ⟨by omega, h.1.2⟩, h.2⟩
    · split
      · rename_i e
        simp only [memRising, Bool.and_eq_true, decide_eq_true_eq]
        exact ⟨⟨ha, hb⟩, e ▸ h.2⟩
      · simp only [memRising, Bool.and_eq_true, decide_eq_true_eq]
        exact ⟨h.1, ih (by omega) h.2⟩

/-- A write of one byte keeps the canonical form. -/
theorem memWrite_wf {m : Memory} (a : Nat) (b : Byte) (h : Memory.wf m = true) : Memory.wf (memWrite m a b) = true := by
  unfold memWrite
  split
  · exact memErase_rising a h
  · exact memInsert_rising ‹_› (by omega) h

/-- A write of bytes keeps the canonical form. -/
theorem memWriteBytes_wf {m : Memory} (a : Nat) (l : List Byte) (h : Memory.wf m = true) :
    Memory.wf (memWriteBytes m a l) = true := by
  induction l generalizing m a with
  | nil => exact h
  | cons b l ih => exact ih (a + 1) (memWrite_wf a b h)

/-- A write of a word keeps the canonical form. -/
theorem memPutWord_wf {m : Memory} (a v : Nat) (h : Memory.wf m = true) : Memory.wf (memPutWord m a v) = true :=
  memWriteBytes_wf a _ h

theorem memErase_read_same (m : Memory) (a : Nat) : memRead (memErase m a) a = memDefault := by
  induction m with
  | nil => rfl
  | cons c m ih =>
    rw [memErase]
    split
    · exact ih
    · rw [memRead, if_neg (by omega)]; exact ih

theorem memErase_read_other (m : Memory) {a x : Nat} (hx : x ≠ a) : memRead (memErase m a) x = memRead m x := by
  induction m with
  | nil => rfl
  | cons c m ih =>
    rw [memErase]
    split
    · rw [memRead, if_neg (by omega)]; exact ih
    · rw [memRead, memRead, ih]

theorem memInsert_read_same (m : Memory) (a : Nat) (b : Byte) : memRead (memInsert m a b) a = b := by
  induction m with
  | nil => simp [memInsert, memRead]
  | cons c m ih =>
    rw [memInsert]
    split
    · simp [memRead]
    · split
      · simp [memRead]
      · rw [memRead, if_neg ‹_›]; exact ih

theorem memInsert_read_other (m : Memory) {a x : Nat} (b : Byte) (hx : x ≠ a) : memRead (memInsert m a b) x = memRead m x := by
  induction m with
  | nil => simp [memInsert, memRead, hx]
  | cons c m ih =>
    rw [memInsert]
    split
    · rw [memRead, if_neg hx]
    · split
      · rw [memRead, if_neg hx, memRead, if_neg (by omega)]
      · rw [memRead, memRead, ih]

/-- A read of the address just written gives the byte written. -/
@[simp] theorem memRead_memWrite_same (m : Memory) (a : Nat) (b : Byte) : memRead (memWrite m a b) a = b := by
  unfold memWrite
  split
  · rename_i e; rw [memErase_read_same, e]
  · exact memInsert_read_same m a b

/-- A write leaves every other address alone. -/
theorem memRead_memWrite_other (m : Memory) {a x : Nat} (b : Byte) (hx : x ≠ a) : memRead (memWrite m a b) x = memRead m x := by
  unfold memWrite
  split
  · exact memErase_read_other m hx
  · exact memInsert_read_other m b hx

/-- A write of bytes leaves every address outside them alone. -/
theorem memRead_memWriteBytes_outside (m : Memory) {a x : Nat} (l : List Byte) (hx : x < a ∨ a + l.length ≤ x) :
    memRead (memWriteBytes m a l) x = memRead m x := by
  induction l generalizing m a with
  | nil => rfl
  | cons b l ih =>
    simp only [List.length_cons] at hx
    rw [memWriteBytes, ih (memWrite m a b) (by omega), memRead_memWrite_other m b (by omega)]

/-- A read inside the bytes just written gives the byte written there. -/
theorem memRead_memWriteBytes_inside (m : Memory) (a : Nat) (l : List Byte) (i : Nat) (hi : i < l.length) :
    memRead (memWriteBytes m a l) (a + i) = l[i] := by
  induction l generalizing m a i with
  | nil => simp at hi
  | cons b l ih =>
    cases i with
    | zero => rw [memWriteBytes, memRead_memWriteBytes_outside _ _ (by omega)]; simp
    | succ i =>
      have h := ih (memWrite m a b) (a + 1) i (by simpa using hi)
      rw [memWriteBytes, List.getElem_cons_succ, ← h]
      congr 1; omega

/-- The bytes just written read back whole. -/
theorem memBytes_memWriteBytes (m : Memory) (a : Nat) (l : List Byte) : memBytes (memWriteBytes m a l) a l.length = l := by
  apply List.ext_getElem
  · simp [memBytes, upto]
  · intro i _ h
    simp [memBytes, upto, memRead_memWriteBytes_inside m a l i h]

/-- Two canonical memories that read the same everywhere are the same list. -/
theorem memory_ext {lo : Nat} {m n : Memory} (hm : memRising lo m = true) (hn : memRising lo n = true)
    (h : ∀ a, memRead m a = memRead n a) : m = n := by
  induction m generalizing lo n with
  | nil =>
    cases n with
    | nil => rfl
    | cons c n =>
      simp only [memRising, Bool.and_eq_true, decide_eq_true_eq] at hn
      have := h c.1
      simp only [memRead, if_true] at this
      exact absurd this.symm hn.1.2
  | cons c m ih =>
    simp only [memRising, Bool.and_eq_true, decide_eq_true_eq] at hm
    cases n with
    | nil =>
      have := h c.1
      simp only [memRead, if_true] at this
      exact absurd this hm.1.2
    | cons e n =>
      simp only [memRising, Bool.and_eq_true, decide_eq_true_eq] at hn
      have key : c.1 = e.1 := by
        rcases Nat.lt_trichotomy c.1 e.1 with lt | eq | gt
        · have := h c.1
          rw [memRead, if_pos rfl, memRead, if_neg (by omega), memRead_below hn.2 (by omega)] at this
          exact absurd this hm.1.2
        · exact eq
        · have := h e.1
          rw [memRead, if_neg (by omega), memRead, if_pos rfl, memRead_below hm.2 (by omega)] at this
          exact absurd this.symm hn.1.2
      have hv : c.2 = e.2 := by
        have := h c.1
        rwa [memRead, if_pos rfl, memRead, if_pos key] at this
      have rest : m = n := by
        apply ih hm.2 (key ▸ hn.2)
        intro a
        by_cases ha : a ≤ c.1
        · rw [memRead_below hm.2 (by omega), memRead_below (lo := e.1 + 1) hn.2 (by omega)]
        · have := h a
          rwa [memRead, if_neg (by omega), memRead, if_neg (by omega)] at this
      obtain ⟨k, v⟩ := c
      obtain ⟨k', v'⟩ := e
      simp only at key hv
      rw [key, hv, rest]

/-- The three memories of the block right after reset have the canonical form. -/
theorem reset_memories_wf : Memory.wf State.reset.d.sram = true ∧ Memory.wf State.reset.d.nv.a = true ∧
    Memory.wf State.reset.d.nv.b = true := ⟨rfl, rfl, rfl⟩

end Sys2Proof.Machine
end

