-- ==== Sys2Proof/Laws/Mieno.lean ====
section
/-! SUPPORT. The table of members (R439, R445): what it shows of a device after one member was rewritten. -/

namespace Sys2Proof.Machine

theorem memberIns_find_same (y : RowMember) (l : List RowMember) (h : (l.any fun x => x.id == y.id) = false) :
    (memberIns y l).find? (fun x => x.id == y.id) = some y := by
  induction l with
  | nil => simp [memberIns]
  | cons x l ih =>
    simp only [List.any_cons, Bool.or_eq_false_iff] at h
    simp only [memberIns]
    split
    · simp
    · simp [h.1, ih h.2]

theorem memberIns_find_other (y : RowMember) (l : List RowMember) {id : Nat} (h : id ≠ y.id) :
    (memberIns y l).find? (fun x => x.id == id) = l.find? (fun x => x.id == id) := by
  have hy : (y.id == id) = false := by simpa using Ne.symm h
  induction l with
  | nil => simp [memberIns, hy]
  | cons x l ih =>
    simp only [memberIns]
    split
    · simp [hy]
    · simp only [List.find?_cons, ih]

/-- A device's entry after it was rewritten: the rewriting of what stood there, or of a new entry. -/
theorem memberUpd_find_same (id : Nat) (f : RowMember → RowMember) (l : List RowMember) (hf : ∀ x, (f x).id = x.id) :
    (memberUpd id f l).find? (fun x => x.id == id) = some (f ((l.find? fun x => x.id == id).getD (.new id))) := by
  rw [memberUpd]
  split
  · rename_i h
    induction l with
    | nil => simp at h
    | cons x l ih =>
      by_cases hx : x.id = id
      · simp [hx, hf]
      · have h' : (l.any fun x => x.id == id) = true := by simpa [hx] using h
        simp [hx, ih h']
  · rename_i h
    have h0 : (f (.new id)).id = id := by rw [hf]; rfl
    have h1 : l.find? (fun x => x.id == id) = none := by simpa using h
    have h2 := memberIns_find_same (f (.new id)) l (by rw [h0]; simpa using h)
    rw [h0] at h2
    rw [h1, h2]; rfl

/-- Every other device's entry stays. -/
theorem memberUpd_find_other (id : Nat) (f : RowMember → RowMember) (l : List RowMember) (hf : ∀ x, (f x).id = x.id) {j : Nat}
    (h : j ≠ id) : (memberUpd id f l).find? (fun x => x.id == j) = l.find? fun x => x.id == j := by
  rw [memberUpd]
  split
  · clear * - hf h
    induction l with
    | nil => rfl
    | cons x l ih =>
      by_cases hx : x.id = id
      · have : (id == j) = false := by simpa using Ne.symm h
        simp [hx, hf, this, ih]
      · simp only [List.map_cons, if_neg hx, List.find?_cons, ih]
  · exact memberIns_find_other _ l (by rw [hf]; exact h)

end Sys2Proof.Machine
end

