-- ==== Sys2Proof/Laws/OnlyIn.lean ====
section
/-! SUPPORT. For each shared operation, the parts of the block that it may change. -/

namespace Sys2Proof.Machine

set_option linter.unusedTactic false
set_option linter.unreachableTactic false

theorem Dev.onlyIn_refl (l : List Part) (d : Dev) : d.onlyIn l d := by intro p _; cases p <;> rfl

theorem Dev.onlyIn_trans {l : List Part} {d e f : Dev} (h : Dev.onlyIn l d e) (k : Dev.onlyIn l e f) : Dev.onlyIn l d f := by
  intro p hp
  have h := h p hp
  have k := k p hp
  cases p <;> exact k.trans h

theorem Dev.onlyIn_mono {l m : List Part} {d e : Dev} (h : Dev.onlyIn m d e) (hs : m ⊆ l) : Dev.onlyIn l d e :=
  fun p hp => h p fun q => hp (hs q)

/-- A change of parts `m`, all in `l`, after a change of parts `l`. -/
theorem Dev.onlyIn_via {l m : List Part} {d e f : Dev} (h : Dev.onlyIn m e f) (hs : m ⊆ l) (k : Dev.onlyIn l d e) :
    Dev.onlyIn l d f := Dev.onlyIn_trans k (Dev.onlyIn_mono h hs)

theorem Dev.onlyIn_foldl {α : Type} {l : List Part} {g : Dev → α → Dev} {xs : List α} {d e : Dev}
    (h : ∀ x a, Dev.onlyIn l x (g x a)) (k : Dev.onlyIn l d e) : Dev.onlyIn l d (xs.foldl g e) := by
  induction xs generalizing e with
  | nil => exact k
  | cons a xs ih => exact ih (Dev.onlyIn_trans k (h e a))

theorem Dev.onlyIn_foldl_fst {α β : Type} {l : List Part} {g : Dev × β → α → Dev × β} {xs : List α} {d : Dev} {e : Dev × β}
    (h : ∀ x a, Dev.onlyIn l x.1 (g x a).1) (k : Dev.onlyIn l d e.1) : Dev.onlyIn l d (xs.foldl g e).1 := by
  induction xs generalizing e with
  | nil => exact k
  | cons a xs ih => exact ih (Dev.onlyIn_trans k (h e a))

theorem Dev.onlyIn_then {l : List Part} {d e f : Dev} (h : Dev.onlyIn l e f) (k : Dev.onlyIn l d e) : Dev.onlyIn l d f :=
  Dev.onlyIn_trans k h

theorem Dev.onlyIn_ite {c : Prop} [Decidable c] {l : List Part} {d e f : Dev} (h : Dev.onlyIn l d e) (k : Dev.onlyIn l d f) :
    Dev.onlyIn l d (if c then e else f) := by
  split
  · exact h
  · exact k

theorem Dev.onlyIn_cut {l : List Part} {d e : Dev} (x : Dev) (h : Dev.onlyIn l d x) (k : Dev.onlyIn l d x → Dev.onlyIn l d e) :
    Dev.onlyIn l d e := k h

theorem Dev.onlyIn_fst {α : Type} {l : List Part} {d e : Dev} {p : Dev × α} {a : α} (h : p = (e, a)) (k : Dev.onlyIn l d p.1) :
    Dev.onlyIn l d e := by rw [h] at k; exact k

theorem Dev.onlyIn_put_time {l : List Part} {d e : Dev} {v0} (k : Dev.onlyIn l d e) (h0 : Part.time ∈ l) :
    Dev.onlyIn l d { e with time := v0 } :=
  Dev.onlyIn_trans k fun p hp => by cases p <;> first | rfl | exact absurd ‹_› hp

theorem Dev.onlyIn_put_time_die {l : List Part} {d e : Dev} {v0} {v1} (k : Dev.onlyIn l d e) (h0 : Part.time ∈ l) (h1 : Part.die ∈ l) :
    Dev.onlyIn l d { e with time := v0, die := v1 } :=
  Dev.onlyIn_trans k fun p hp => by cases p <;> first | rfl | exact absurd ‹_› hp

theorem Dev.onlyIn_put_time_ident {l : List Part} {d e : Dev} {v0} {v1} (k : Dev.onlyIn l d e) (h0 : Part.time ∈ l) (h1 : Part.ident ∈ l) :
    Dev.onlyIn l d { e with time := v0, ident := v1 } :=
  Dev.onlyIn_trans k fun p hp => by cases p <;> first | rfl | exact absurd ‹_› hp

theorem Dev.onlyIn_put_sched {l : List Part} {d e : Dev} {v0} (k : Dev.onlyIn l d e) (h0 : Part.sched ∈ l) :
    Dev.onlyIn l d { e with sched := v0 } :=
  Dev.onlyIn_trans k fun p hp => by cases p <;> first | rfl | exact absurd ‹_› hp

theorem Dev.onlyIn_put_die {l : List Part} {d e : Dev} {v0} (k : Dev.onlyIn l d e) (h0 : Part.die ∈ l) :
    Dev.onlyIn l d { e with die := v0 } :=
  Dev.onlyIn_trans k fun p hp => by cases p <;> first | rfl | exact absurd ‹_› hp

theorem Dev.onlyIn_put_die_peat {l : List Part} {d e : Dev} {v0} {v1} (k : Dev.onlyIn l d e) (h0 : Part.die ∈ l) (h1 : Part.peat ∈ l) :
    Dev.onlyIn l d { e with die := v0, peat := v1 } :=
  Dev.onlyIn_trans k fun p hp => by cases p <;> first | rfl | exact absurd ‹_› hp

theorem Dev.onlyIn_put_die_xfer {l : List Part} {d e : Dev} {v0} {v1} (k : Dev.onlyIn l d e) (h0 : Part.die ∈ l) (h1 : Part.xfer ∈ l) :
    Dev.onlyIn l d { e with die := v0, xfer := v1 } :=
  Dev.onlyIn_trans k fun p hp => by cases p <;> first | rfl | exact absurd ‹_› hp

theorem Dev.onlyIn_put_regs {l : List Part} {d e : Dev} {v0} (k : Dev.onlyIn l d e) (h0 : Part.regs ∈ l) :
    Dev.onlyIn l d { e with regs := v0 } :=
  Dev.onlyIn_trans k fun p hp => by cases p <;> first | rfl | exact absurd ‹_› hp

theorem Dev.onlyIn_put_stat {l : List Part} {d e : Dev} {v0} (k : Dev.onlyIn l d e) (h0 : Part.stat ∈ l) :
    Dev.onlyIn l d { e with stat := v0 } :=
  Dev.onlyIn_trans k fun p hp => by cases p <;> first | rfl | exact absurd ‹_› hp

theorem Dev.onlyIn_put_ident {l : List Part} {d e : Dev} {v0} (k : Dev.onlyIn l d e) (h0 : Part.ident ∈ l) :
    Dev.onlyIn l d { e with ident := v0 } :=
  Dev.onlyIn_trans k fun p hp => by cases p <;> first | rfl | exact absurd ‹_› hp

theorem Dev.onlyIn_put_sup {l : List Part} {d e : Dev} {v0} (k : Dev.onlyIn l d e) (h0 : Part.sup ∈ l) :
    Dev.onlyIn l d { e with sup := v0 } :=
  Dev.onlyIn_trans k fun p hp => by cases p <;> first | rfl | exact absurd ‹_› hp

theorem Dev.onlyIn_put_rails {l : List Part} {d e : Dev} {v0} (k : Dev.onlyIn l d e) (h0 : Part.rails ∈ l) :
    Dev.onlyIn l d { e with rails := v0 } :=
  Dev.onlyIn_trans k fun p hp => by cases p <;> first | rfl | exact absurd ‹_› hp

theorem Dev.onlyIn_put_rails_units {l : List Part} {d e : Dev} {v0} {v1} (k : Dev.onlyIn l d e) (h0 : Part.rails ∈ l) (h1 : Part.units ∈ l) :
    Dev.onlyIn l d { e with rails := v0, units := v1 } :=
  Dev.onlyIn_trans k fun p hp => by cases p <;> first | rfl | exact absurd ‹_› hp

theorem Dev.onlyIn_put_rails_units_sense {l : List Part} {d e : Dev} {v0} {v1} {v2} (k : Dev.onlyIn l d e) (h0 : Part.rails ∈ l) (h1 : Part.units ∈ l) (h2 : Part.sense ∈ l) :
    Dev.onlyIn l d { e with rails := v0, units := v1, sense := v2 } :=
  Dev.onlyIn_trans k fun p hp => by cases p <;> first | rfl | exact absurd ‹_› hp

theorem Dev.onlyIn_put_units {l : List Part} {d e : Dev} {v0} (k : Dev.onlyIn l d e) (h0 : Part.units ∈ l) :
    Dev.onlyIn l d { e with units := v0 } :=
  Dev.onlyIn_trans k fun p hp => by cases p <;> first | rfl | exact absurd ‹_› hp

theorem Dev.onlyIn_put_units_hs {l : List Part} {d e : Dev} {v0} {v1} (k : Dev.onlyIn l d e) (h0 : Part.units ∈ l) (h1 : Part.hs ∈ l) :
    Dev.onlyIn l d { e with units := v0, hs := v1 } :=
  Dev.onlyIn_trans k fun p hp => by cases p <;> first | rfl | exact absurd ‹_› hp

theorem Dev.onlyIn_put_clusters {l : List Part} {d e : Dev} {v0} (k : Dev.onlyIn l d e) (h0 : Part.clusters ∈ l) :
    Dev.onlyIn l d { e with clusters := v0 } :=
  Dev.onlyIn_trans k fun p hp => by cases p <;> first | rfl | exact absurd ‹_› hp

theorem Dev.onlyIn_put_runs {l : List Part} {d e : Dev} {v0} (k : Dev.onlyIn l d e) (h0 : Part.runs ∈ l) :
    Dev.onlyIn l d { e with runs := v0 } :=
  Dev.onlyIn_trans k fun p hp => by cases p <;> first | rfl | exact absurd ‹_› hp

theorem Dev.onlyIn_put_runs_inj {l : List Part} {d e : Dev} {v0} {v1} (k : Dev.onlyIn l d e) (h0 : Part.runs ∈ l) (h1 : Part.inj ∈ l) :
    Dev.onlyIn l d { e with runs := v0, inj := v1 } :=
  Dev.onlyIn_trans k fun p hp => by cases p <;> first | rfl | exact absurd ‹_› hp

theorem Dev.onlyIn_put_inj {l : List Part} {d e : Dev} {v0} (k : Dev.onlyIn l d e) (h0 : Part.inj ∈ l) :
    Dev.onlyIn l d { e with inj := v0 } :=
  Dev.onlyIn_trans k fun p hp => by cases p <;> first | rfl | exact absurd ‹_› hp

theorem Dev.onlyIn_put_inj_cap {l : List Part} {d e : Dev} {v0} {v1} (k : Dev.onlyIn l d e) (h0 : Part.inj ∈ l) (h1 : Part.cap ∈ l) :
    Dev.onlyIn l d { e with inj := v0, cap := v1 } :=
  Dev.onlyIn_trans k fun p hp => by cases p <;> first | rfl | exact absurd ‹_› hp

theorem Dev.onlyIn_put_inj_sram {l : List Part} {d e : Dev} {v0} {v1} (k : Dev.onlyIn l d e) (h0 : Part.inj ∈ l) (h1 : Part.sram ∈ l) :
    Dev.onlyIn l d { e with inj := v0, sram := v1 } :=
  Dev.onlyIn_trans k fun p hp => by cases p <;> first | rfl | exact absurd ‹_› hp

theorem Dev.onlyIn_put_cap {l : List Part} {d e : Dev} {v0} (k : Dev.onlyIn l d e) (h0 : Part.cap ∈ l) :
    Dev.onlyIn l d { e with cap := v0 } :=
  Dev.onlyIn_trans k fun p hp => by cases p <;> first | rfl | exact absurd ‹_› hp

theorem Dev.onlyIn_put_cap_sram {l : List Part} {d e : Dev} {v0} {v1} (k : Dev.onlyIn l d e) (h0 : Part.cap ∈ l) (h1 : Part.sram ∈ l) :
    Dev.onlyIn l d { e with cap := v0, sram := v1 } :=
  Dev.onlyIn_trans k fun p hp => by cases p <;> first | rfl | exact absurd ‹_› hp

theorem Dev.onlyIn_put_sram {l : List Part} {d e : Dev} {v0} (k : Dev.onlyIn l d e) (h0 : Part.sram ∈ l) :
    Dev.onlyIn l d { e with sram := v0 } :=
  Dev.onlyIn_trans k fun p hp => by cases p <;> first | rfl | exact absurd ‹_› hp

theorem Dev.onlyIn_put_sram_live {l : List Part} {d e : Dev} {v0} {v1} (k : Dev.onlyIn l d e) (h0 : Part.sram ∈ l) (h1 : Part.live ∈ l) :
    Dev.onlyIn l d { e with sram := v0, live := v1 } :=
  Dev.onlyIn_trans k fun p hp => by cases p <;> first | rfl | exact absurd ‹_› hp

theorem Dev.onlyIn_put_sramA {l : List Part} {d e : Dev} {v0} (k : Dev.onlyIn l d e) (h0 : Part.sramA ∈ l) :
    Dev.onlyIn l d { e with sramA := v0 } :=
  Dev.onlyIn_trans k fun p hp => by cases p <;> first | rfl | exact absurd ‹_› hp

theorem Dev.onlyIn_put_sramB {l : List Part} {d e : Dev} {v0} (k : Dev.onlyIn l d e) (h0 : Part.sramB ∈ l) :
    Dev.onlyIn l d { e with sramB := v0 } :=
  Dev.onlyIn_trans k fun p hp => by cases p <;> first | rfl | exact absurd ‹_› hp

theorem Dev.onlyIn_put_sense {l : List Part} {d e : Dev} {v0} (k : Dev.onlyIn l d e) (h0 : Part.sense ∈ l) :
    Dev.onlyIn l d { e with sense := v0 } :=
  Dev.onlyIn_trans k fun p hp => by cases p <;> first | rfl | exact absurd ‹_› hp

theorem Dev.onlyIn_put_adm {l : List Part} {d e : Dev} {v0} (k : Dev.onlyIn l d e) (h0 : Part.adm ∈ l) :
    Dev.onlyIn l d { e with adm := v0 } :=
  Dev.onlyIn_trans k fun p hp => by cases p <;> first | rfl | exact absurd ‹_› hp

theorem Dev.onlyIn_put_twin {l : List Part} {d e : Dev} {v0} (k : Dev.onlyIn l d e) (h0 : Part.twin ∈ l) :
    Dev.onlyIn l d { e with twin := v0 } :=
  Dev.onlyIn_trans k fun p hp => by cases p <;> first | rfl | exact absurd ‹_› hp

theorem Dev.onlyIn_put_jrn {l : List Part} {d e : Dev} {v0} (k : Dev.onlyIn l d e) (h0 : Part.jrn ∈ l) :
    Dev.onlyIn l d { e with jrn := v0 } :=
  Dev.onlyIn_trans k fun p hp => by cases p <;> first | rfl | exact absurd ‹_› hp

theorem Dev.onlyIn_put_nv {l : List Part} {d e : Dev} {v0} (k : Dev.onlyIn l d e) (h0 : Part.nv ∈ l) :
    Dev.onlyIn l d { e with nv := v0 } :=
  Dev.onlyIn_trans k fun p hp => by cases p <;> first | rfl | exact absurd ‹_› hp

theorem Dev.onlyIn_put_peat {l : List Part} {d e : Dev} {v0} (k : Dev.onlyIn l d e) (h0 : Part.peat ∈ l) :
    Dev.onlyIn l d { e with peat := v0 } :=
  Dev.onlyIn_trans k fun p hp => by cases p <;> first | rfl | exact absurd ‹_› hp

theorem Dev.onlyIn_put_crust {l : List Part} {d e : Dev} {v0} (k : Dev.onlyIn l d e) (h0 : Part.crust ∈ l) :
    Dev.onlyIn l d { e with crust := v0 } :=
  Dev.onlyIn_trans k fun p hp => by cases p <;> first | rfl | exact absurd ‹_› hp

theorem Dev.onlyIn_put_feedA {l : List Part} {d e : Dev} {v0} (k : Dev.onlyIn l d e) (h0 : Part.feedA ∈ l) :
    Dev.onlyIn l d { e with feedA := v0 } :=
  Dev.onlyIn_trans k fun p hp => by cases p <;> first | rfl | exact absurd ‹_› hp

theorem Dev.onlyIn_put_feedA_feedB {l : List Part} {d e : Dev} {v0} {v1} (k : Dev.onlyIn l d e) (h0 : Part.feedA ∈ l) (h1 : Part.feedB ∈ l) :
    Dev.onlyIn l d { e with feedA := v0, feedB := v1 } :=
  Dev.onlyIn_trans k fun p hp => by cases p <;> first | rfl | exact absurd ‹_› hp

theorem Dev.onlyIn_put_feedA_feedB_xfer {l : List Part} {d e : Dev} {v0} {v1} {v2} (k : Dev.onlyIn l d e) (h0 : Part.feedA ∈ l) (h1 : Part.feedB ∈ l) (h2 : Part.xfer ∈ l) :
    Dev.onlyIn l d { e with feedA := v0, feedB := v1, xfer := v2 } :=
  Dev.onlyIn_trans k fun p hp => by cases p <;> first | rfl | exact absurd ‹_› hp

theorem Dev.onlyIn_put_feedA_feedB_xfer_hs {l : List Part} {d e : Dev} {v0} {v1} {v2} {v3} (k : Dev.onlyIn l d e) (h0 : Part.feedA ∈ l) (h1 : Part.feedB ∈ l) (h2 : Part.xfer ∈ l) (h3 : Part.hs ∈ l) :
    Dev.onlyIn l d { e with feedA := v0, feedB := v1, xfer := v2, hs := v3 } :=
  Dev.onlyIn_trans k fun p hp => by cases p <;> first | rfl | exact absurd ‹_› hp

theorem Dev.onlyIn_put_feedA_feedB_hs {l : List Part} {d e : Dev} {v0} {v1} {v2} (k : Dev.onlyIn l d e) (h0 : Part.feedA ∈ l) (h1 : Part.feedB ∈ l) (h2 : Part.hs ∈ l) :
    Dev.onlyIn l d { e with feedA := v0, feedB := v1, hs := v2 } :=
  Dev.onlyIn_trans k fun p hp => by cases p <;> first | rfl | exact absurd ‹_› hp

theorem Dev.onlyIn_put_feedB {l : List Part} {d e : Dev} {v0} (k : Dev.onlyIn l d e) (h0 : Part.feedB ∈ l) :
    Dev.onlyIn l d { e with feedB := v0 } :=
  Dev.onlyIn_trans k fun p hp => by cases p <;> first | rfl | exact absurd ‹_› hp

theorem Dev.onlyIn_put_xfer {l : List Part} {d e : Dev} {v0} (k : Dev.onlyIn l d e) (h0 : Part.xfer ∈ l) :
    Dev.onlyIn l d { e with xfer := v0 } :=
  Dev.onlyIn_trans k fun p hp => by cases p <;> first | rfl | exact absurd ‹_› hp

theorem Dev.onlyIn_put_hs {l : List Part} {d e : Dev} {v0} (k : Dev.onlyIn l d e) (h0 : Part.hs ∈ l) :
    Dev.onlyIn l d { e with hs := v0 } :=
  Dev.onlyIn_trans k fun p hp => by cases p <;> first | rfl | exact absurd ‹_› hp

theorem Dev.onlyIn_put_fh {l : List Part} {d e : Dev} {v0} (k : Dev.onlyIn l d e) (h0 : Part.fh ∈ l) :
    Dev.onlyIn l d { e with fh := v0 } :=
  Dev.onlyIn_trans k fun p hp => by cases p <;> first | rfl | exact absurd ‹_› hp

theorem Dev.onlyIn_put_bbus {l : List Part} {d e : Dev} {v0} (k : Dev.onlyIn l d e) (h0 : Part.bbus ∈ l) :
    Dev.onlyIn l d { e with bbus := v0 } :=
  Dev.onlyIn_trans k fun p hp => by cases p <;> first | rfl | exact absurd ‹_› hp

theorem Dev.onlyIn_put_therm {l : List Part} {d e : Dev} {v0} (k : Dev.onlyIn l d e) (h0 : Part.therm ∈ l) :
    Dev.onlyIn l d { e with therm := v0 } :=
  Dev.onlyIn_trans k fun p hp => by cases p <;> first | rfl | exact absurd ‹_› hp

theorem Dev.onlyIn_put_twT {l : List Part} {d e : Dev} {v0} (k : Dev.onlyIn l d e) (h0 : Part.twT ∈ l) :
    Dev.onlyIn l d { e with twT := v0 } :=
  Dev.onlyIn_trans k fun p hp => by cases p <;> first | rfl | exact absurd ‹_› hp

theorem Dev.onlyIn_put_twT_twC {l : List Part} {d e : Dev} {v0} {v1} (k : Dev.onlyIn l d e) (h0 : Part.twT ∈ l) (h1 : Part.twC ∈ l) :
    Dev.onlyIn l d { e with twT := v0, twC := v1 } :=
  Dev.onlyIn_trans k fun p hp => by cases p <;> first | rfl | exact absurd ‹_› hp

theorem Dev.onlyIn_put_twC {l : List Part} {d e : Dev} {v0} (k : Dev.onlyIn l d e) (h0 : Part.twC ∈ l) :
    Dev.onlyIn l d { e with twC := v0 } :=
  Dev.onlyIn_trans k fun p hp => by cases p <;> first | rfl | exact absurd ‹_› hp

theorem Dev.onlyIn_put_upd {l : List Part} {d e : Dev} {v0} (k : Dev.onlyIn l d e) (h0 : Part.upd ∈ l) :
    Dev.onlyIn l d { e with upd := v0 } :=
  Dev.onlyIn_trans k fun p hp => by cases p <;> first | rfl | exact absurd ‹_› hp

theorem Dev.onlyIn_put_mie {l : List Part} {d e : Dev} {v0} (k : Dev.onlyIn l d e) (h0 : Part.mie ∈ l) :
    Dev.onlyIn l d { e with mie := v0 } :=
  Dev.onlyIn_trans k fun p hp => by cases p <;> first | rfl | exact absurd ‹_› hp

theorem Dev.onlyIn_put_dma {l : List Part} {d e : Dev} {v0} (k : Dev.onlyIn l d e) (h0 : Part.dma ∈ l) :
    Dev.onlyIn l d { e with dma := v0 } :=
  Dev.onlyIn_trans k fun p hp => by cases p <;> first | rfl | exact absurd ‹_› hp

theorem Dev.atReset_onlyIn (d : Dev) : Dev.onlyIn [.die] d (Dev.atReset d) := by
  unfold Dev.atReset
  repeat' first
    | with_reducible apply Dev.onlyIn_refl
    | (fail_if_success with_reducible apply Dev.onlyIn_put_dma); (with_reducible apply Dev.onlyIn_put_die) <;> [skip; decide]

theorem Dev.setFld_onlyIn (d : Dev) (pg off hi lo v : ℕ) : Dev.onlyIn [.regs] d (Dev.setFld d pg off hi lo v) := by
  unfold Dev.setFld
  repeat' first
    | with_reducible apply Dev.onlyIn_refl
    | (fail_if_success with_reducible apply Dev.onlyIn_put_dma); (with_reducible apply Dev.onlyIn_put_regs) <;> [skip; decide]

theorem Dev.setReg_onlyIn (d : Dev) (pg off v : ℕ) : Dev.onlyIn [.regs] d (Dev.setReg d pg off v) := by
  unfold Dev.setReg
  repeat' first
    | with_reducible apply Dev.onlyIn_refl
    | (fail_if_success with_reducible apply Dev.onlyIn_put_dma); (with_reducible apply Dev.onlyIn_put_regs) <;> [skip; decide]

theorem Dev.updRail_onlyIn (d : Dev) (r : ℕ) (f : Rail → Rail) : Dev.onlyIn [.rails] d (Dev.updRail d r f) := by
  unfold Dev.updRail
  repeat' first
    | with_reducible apply Dev.onlyIn_refl
    | (fail_if_success with_reducible apply Dev.onlyIn_put_dma); (with_reducible apply Dev.onlyIn_put_rails) <;> [skip; decide]

theorem Dev.updUnit_onlyIn (d : Dev) (n : ℕ) (f : PhUnit → PhUnit) : Dev.onlyIn [.units] d (Dev.updUnit d n f) := by
  unfold Dev.updUnit
  repeat' first
    | with_reducible apply Dev.onlyIn_refl
    | (fail_if_success with_reducible apply Dev.onlyIn_put_dma); (with_reducible apply Dev.onlyIn_put_units) <;> [skip; decide]

theorem Dev.updCluster_onlyIn (d : Dev) (k : ℕ) (f : Cluster → Cluster) : Dev.onlyIn [.clusters] d (Dev.updCluster d k f) := by
  unfold Dev.updCluster
  repeat' first
    | with_reducible apply Dev.onlyIn_refl
    | (fail_if_success with_reducible apply Dev.onlyIn_put_dma); (with_reducible apply Dev.onlyIn_put_clusters) <;> [skip; decide]

theorem foldN_onlyIn {l : List Part} (n : ℕ) (f : Dev → ℕ → Dev) (d : Dev) (hf : ∀ y0 y1, Dev.onlyIn l y0 (f y0 y1)) : Dev.onlyIn l d (foldN n f d) := by
  unfold foldN
  repeat' first
    | with_reducible apply Dev.onlyIn_refl
    | with_reducible apply Dev.onlyIn_then (hf _ _)
    | (with_reducible apply Dev.onlyIn_foldl) <;> [(intro _ _); skip]

theorem Dev.when_onlyIn {l : List Part} (c : Bool) (f : Dev → Dev) (d : Dev) (hf : ∀ y0, Dev.onlyIn l y0 (f y0)) : Dev.onlyIn l d (Dev.when c f d) := by
  unfold Dev.when
  repeat' first
    | with_reducible apply Dev.onlyIn_refl
    | with_reducible apply Dev.onlyIn_then (hf _)
    | (with_reducible apply Dev.onlyIn_ite)

theorem Dev.inBlock_onlyIn (d : Dev) (chan : ℕ) (l : List Byte) : Dev.onlyIn [.die] d (Dev.inBlock d chan l) := by
  unfold Dev.inBlock
  repeat' first
    | with_reducible apply Dev.onlyIn_refl
    | (fail_if_success with_reducible apply Dev.onlyIn_put_dma); (with_reducible apply Dev.onlyIn_put_die) <;> [skip; decide]

theorem Dev.putOut_onlyIn (d : Dev) (chan : ℕ) (l : List Byte) : Dev.onlyIn [.twin] d (Dev.putOut d chan l) := by
  unfold Dev.putOut
  repeat' first
    | with_reducible apply Dev.onlyIn_refl
    | (fail_if_success with_reducible apply Dev.onlyIn_put_dma); (with_reducible apply Dev.onlyIn_put_twin) <;> [skip; decide]

theorem Dev.putOp_onlyIn (d : Dev) (desc i : ℕ) (v : ℤ) : Dev.onlyIn [.sram] d (Dev.putOp d desc i v) := by
  unfold Dev.putOp
  repeat' first
    | with_reducible apply Dev.onlyIn_refl
    | (fail_if_success with_reducible apply Dev.onlyIn_put_dma); (with_reducible apply Dev.onlyIn_put_sram) <;> [skip; decide]

theorem Dev.updStat_onlyIn (d : Dev) (pg : ℕ) (f : BlkStat → BlkStat) : Dev.onlyIn [.stat] d (Dev.updStat d pg f) := by
  unfold Dev.updStat
  repeat' first
    | with_reducible apply Dev.onlyIn_refl
    | (fail_if_success with_reducible apply Dev.onlyIn_put_dma); (with_reducible apply Dev.onlyIn_put_stat) <;> [skip; decide]

theorem Dev.occurC_onlyIn (d : Dev) (pg bit code : ℕ) : Dev.onlyIn [.stat] d (Dev.occurC d pg bit code) := by
  unfold Dev.occurC
  repeat' first
    | with_reducible apply Dev.onlyIn_refl
    | (with_reducible apply Dev.onlyIn_via (Dev.updStat_onlyIn _ _ _)) <;> [decide; skip]

theorem Dev.occur_onlyIn (d : Dev) (pg bit : ℕ) : Dev.onlyIn [.stat] d (Dev.occur d pg bit) := by
  unfold Dev.occur
  repeat' first
    | with_reducible apply Dev.onlyIn_refl
    | (with_reducible apply Dev.onlyIn_via (Dev.occurC_onlyIn _ _ _ _)) <;> [decide; skip]

theorem Dev.occurMask_onlyIn (d : Dev) (pg mask : ℕ) : Dev.onlyIn [.stat] d (Dev.occurMask d pg mask) := by
  unfold Dev.occurMask
  repeat' first
    | with_reducible apply Dev.onlyIn_refl
    | (with_reducible apply Dev.onlyIn_then (foldN_onlyIn _ _ _ ?_)) <;> [skip; (intro _ _ )]
    | (with_reducible apply Dev.onlyIn_via (Dev.occur_onlyIn _ _ _)) <;> [decide; skip]
    | (with_reducible apply Dev.onlyIn_ite)

theorem Dev.clamped_onlyIn (d : Dev) (pg old new : ℕ) : Dev.onlyIn [.stat] d (Dev.clamped d pg old new) := by
  unfold Dev.clamped
  repeat' first
    | with_reducible apply Dev.onlyIn_refl
    | (with_reducible apply Dev.onlyIn_via (Dev.occur_onlyIn _ _ _)) <;> [decide; skip]
    | (extract_lets +onlyGivenNames x; clear_value x; revert x; intros)
    | (with_reducible apply Dev.onlyIn_ite)
    | split

theorem Dev.updTwin_onlyIn (d : Dev) (t : Twin) (f : TwinSt → TwinSt) : Dev.onlyIn [.twin] d (Dev.updTwin d t f) := by
  unfold Dev.updTwin
  repeat' first
    | with_reducible apply Dev.onlyIn_refl
    | (fail_if_success with_reducible apply Dev.onlyIn_put_dma); (with_reducible apply Dev.onlyIn_put_twin) <;> [skip; decide]
    | (extract_lets +onlyGivenNames x; clear_value x; revert x; intros)
    | (with_reducible apply Dev.onlyIn_ite)
    | split

theorem Dev.nvPut2_onlyIn (d : Dev) (addr : ℕ) (ba bb : List Byte) : Dev.onlyIn [.nv] d (Dev.nvPut2 d addr ba bb) := by
  unfold Dev.nvPut2
  repeat' first
    | with_reducible apply Dev.onlyIn_refl
    | (fail_if_success with_reducible apply Dev.onlyIn_put_dma); (with_reducible apply Dev.onlyIn_put_nv) <;> [skip; decide]

theorem Dev.nvPut_onlyIn (d : Dev) (addr : ℕ) (bs : List Byte) : Dev.onlyIn [.nv] d (Dev.nvPut d addr bs) := by
  unfold Dev.nvPut
  repeat' first
    | with_reducible apply Dev.onlyIn_refl
    | (with_reducible apply Dev.onlyIn_via (Dev.nvPut2_onlyIn _ _ _ _)) <;> [decide; skip]

theorem Dev.ringStep_onlyIn (d : Dev) (n kind info : ℕ) (payload : List Byte) : Dev.onlyIn [.nv] d (Dev.ringStep d n kind info payload) := by
  unfold Dev.ringStep
  repeat' first
    | with_reducible apply Dev.onlyIn_refl
    | (with_reducible apply Dev.onlyIn_via (Dev.nvPut2_onlyIn _ _ _ _)) <;> [decide; skip]
    | (fail_if_success with_reducible apply Dev.onlyIn_put_dma); (with_reducible apply Dev.onlyIn_put_nv) <;> [skip; decide]

theorem Dev.ringForce_onlyIn (d : Dev) (n : ℕ) : Dev.onlyIn [.nv] d (Dev.ringForce d n) := by
  unfold Dev.ringForce
  repeat' first
    | with_reducible apply Dev.onlyIn_refl
    | (fail_if_success with_reducible apply Dev.onlyIn_put_dma); (with_reducible apply Dev.onlyIn_put_nv) <;> [skip; decide]

theorem Dev.noteRole_onlyIn (d : Dev) (n : ℕ) (v : List Byte) : Dev.onlyIn [.nv] d (Dev.noteRole d n v) := by
  unfold Dev.noteRole
  repeat' first
    | with_reducible apply Dev.onlyIn_refl
    | (fail_if_success with_reducible apply Dev.onlyIn_put_dma); (with_reducible apply Dev.onlyIn_put_nv) <;> [skip; decide]
    | (extract_lets +onlyGivenNames x; clear_value x; revert x; intros)
    | (with_reducible apply Dev.onlyIn_ite)

theorem Dev.ringWrite_onlyIn (d : Dev) (n : ℕ) (v : List Byte) : Dev.onlyIn [.nv] d (Dev.ringWrite d n v) := by
  unfold Dev.ringWrite
  repeat' first
    | with_reducible apply Dev.onlyIn_refl
    | with_reducible assumption
    | (with_reducible apply Dev.onlyIn_via (Dev.noteRole_onlyIn _ _ _)) <;> [decide; skip]
    | (with_reducible apply Dev.onlyIn_via (Dev.ringForce_onlyIn _ _)) <;> [decide; skip]
    | (with_reducible apply Dev.onlyIn_via (Dev.ringStep_onlyIn _ _ _ _ _)) <;> [decide; skip]
    | (with_reducible apply Dev.onlyIn_foldl) <;> [(intro _ _); skip]
    | (extract_lets +onlyGivenNames x; refine Dev.onlyIn_cut x ?_ ?_ <;> [(dsimp -zeta -proj only [x]; clear x); (intro _; clear_value x; revert x; intros)])
    | (extract_lets +onlyGivenNames x; clear_value x; revert x; intros)
    | (with_reducible apply Dev.onlyIn_ite)

theorem Dev.journalGrant_onlyIn (d : Dev) (load seq kind dec ramp mag off : ℕ) : Dev.onlyIn [.jrn, .nv] d (Dev.journalGrant d load seq kind dec ramp mag off) := by
  unfold Dev.journalGrant
  repeat' first
    | with_reducible apply Dev.onlyIn_refl
    | (with_reducible apply Dev.onlyIn_via (Dev.nvPut2_onlyIn _ _ _ _)) <;> [decide; skip]
    | (fail_if_success with_reducible apply Dev.onlyIn_put_dma); (with_reducible apply Dev.onlyIn_put_jrn) <;> [skip; decide]

theorem Dev.updFh_onlyIn (d : Dev) (f : Fiddle → Fiddle) : Dev.onlyIn [.fh] d (Dev.updFh d f) := by
  unfold Dev.updFh
  repeat' first
    | with_reducible apply Dev.onlyIn_refl
    | (fail_if_success with_reducible apply Dev.onlyIn_put_dma); (with_reducible apply Dev.onlyIn_put_fh) <;> [skip; decide]

theorem Dev.updMbr_onlyIn (d : Dev) (i : ℕ) (f : Member → Member) : Dev.onlyIn [.fh] d (Dev.updMbr d i f) := by
  unfold Dev.updMbr
  repeat' first
    | with_reducible apply Dev.onlyIn_refl
    | (with_reducible apply Dev.onlyIn_via (Dev.updFh_onlyIn _ _)) <;> [decide; skip]

theorem Dev.stopNext_onlyIn (d : Dev) (x1 : ℕ) : Dev.onlyIn [.fh] d (Dev.stopNext d x1) := by
  induction x1 generalizing d with
  | zero => exact Dev.onlyIn_refl _ _
  | succ n ih =>
    rw [Dev.stopNext]
    repeat' first
      | with_reducible apply Dev.onlyIn_refl
      | with_reducible apply Dev.onlyIn_then (ih _)
      | (with_reducible apply Dev.onlyIn_via (Dev.updMbr_onlyIn _ _ _)) <;> [decide; skip]
      | (with_reducible apply Dev.onlyIn_via (Dev.updFh_onlyIn _ _)) <;> [decide; skip]
      | (with_reducible apply Dev.onlyIn_ite)
      | split

theorem Dev.stopDependants_onlyIn (d : Dev) (f : ℕ) : Dev.onlyIn [.fh] d (Dev.stopDependants d f) := by
  unfold Dev.stopDependants
  repeat' first
    | with_reducible apply Dev.onlyIn_refl
    | (with_reducible apply Dev.onlyIn_via (Dev.updMbr_onlyIn _ _ _)) <;> [decide; skip]
    | (with_reducible apply Dev.onlyIn_via (Dev.stopNext_onlyIn _ _)) <;> [decide; skip]
    | (with_reducible apply Dev.onlyIn_via (Dev.updFh_onlyIn _ _)) <;> [decide; skip]
    | (with_reducible apply Dev.onlyIn_foldl) <;> [(intro _ _); skip]

theorem Dev.failMember_onlyIn (d : Dev) (i cause : ℕ) (keep : Bool) : Dev.onlyIn [.stat, .fh] d (Dev.failMember d i cause keep) := by
  unfold Dev.failMember
  repeat' first
    | with_reducible apply Dev.onlyIn_refl
    | (with_reducible apply Dev.onlyIn_via (Dev.updMbr_onlyIn _ _ _)) <;> [decide; skip]
    | (with_reducible apply Dev.onlyIn_via (Dev.updFh_onlyIn _ _)) <;> [decide; skip]
    | (with_reducible apply Dev.onlyIn_via (Dev.stopDependants_onlyIn _ _)) <;> [decide; skip]
    | (with_reducible apply Dev.onlyIn_via (Dev.occur_onlyIn _ _ _)) <;> [decide; skip]

theorem Dev.memberBlockFault_onlyIn (d : Dev) (m : ℕ) : Dev.onlyIn [.stat, .fh] d (Dev.memberBlockFault d m) := by
  unfold Dev.memberBlockFault
  repeat' first
    | with_reducible apply Dev.onlyIn_refl
    | (with_reducible apply Dev.onlyIn_via (Dev.failMember_onlyIn _ _ _ _)) <;> [decide; skip]
    | (with_reducible apply Dev.onlyIn_via (Dev.occur_onlyIn _ _ _)) <;> [decide; skip]
    | (with_reducible apply Dev.onlyIn_via (Dev.updFh_onlyIn _ _)) <;> [decide; skip]
    | (with_reducible apply Dev.onlyIn_via (Dev.updMbr_onlyIn _ _ _)) <;> [decide; skip]
    | (with_reducible apply Dev.onlyIn_ite)
    | split

theorem Dev.memberRefused_onlyIn (d : Dev) (m : ℕ) : Dev.onlyIn [.stat, .fh] d (Dev.memberRefused d m) := by
  unfold Dev.memberRefused
  repeat' first
    | with_reducible apply Dev.onlyIn_refl
    | (with_reducible apply Dev.onlyIn_via (Dev.failMember_onlyIn _ _ _ _)) <;> [decide; skip]
    | (with_reducible apply Dev.onlyIn_ite)
    | split

theorem Dev.updXfer_onlyIn (d : Dev) (f : Xfer → Xfer) : Dev.onlyIn [.xfer] d (Dev.updXfer d f) := by
  unfold Dev.updXfer
  repeat' first
    | with_reducible apply Dev.onlyIn_refl
    | (fail_if_success with_reducible apply Dev.onlyIn_put_dma); (with_reducible apply Dev.onlyIn_put_xfer) <;> [skip; decide]

theorem Dev.updSup_onlyIn (d : Dev) (f : SupplySt → SupplySt) : Dev.onlyIn [.sup] d (Dev.updSup d f) := by
  unfold Dev.updSup
  repeat' first
    | with_reducible apply Dev.onlyIn_refl
    | (fail_if_success with_reducible apply Dev.onlyIn_put_dma); (with_reducible apply Dev.onlyIn_put_sup) <;> [skip; decide]

theorem Dev.ringPut_onlyIn (d : Dev) (n : ℕ) (v : List Byte) : Dev.onlyIn [.nv, .therm] d (Dev.ringPut d n v) := by
  unfold Dev.ringPut
  repeat' first
    | with_reducible apply Dev.onlyIn_refl
    | (with_reducible apply Dev.onlyIn_via (Dev.ringWrite_onlyIn _ _ _)) <;> [decide; skip]
    | (fail_if_success with_reducible apply Dev.onlyIn_put_dma); (with_reducible apply Dev.onlyIn_put_therm) <;> [skip; decide]
    | (extract_lets +onlyGivenNames x; clear_value x; revert x; intros)
    | (with_reducible apply Dev.onlyIn_ite)

theorem Dev.updBbu_onlyIn (d : Dev) (m : ℕ) (f : Bbu → Bbu) : Dev.onlyIn [.bbus] d (Dev.updBbu d m f) := by
  unfold Dev.updBbu
  repeat' first
    | with_reducible apply Dev.onlyIn_refl
    | (fail_if_success with_reducible apply Dev.onlyIn_put_dma); (with_reducible apply Dev.onlyIn_put_bbus) <;> [skip; decide]

theorem Dev.updTwT_onlyIn (d : Dev) (n : ℕ) (f : TwTarget → TwTarget) : Dev.onlyIn [.twT] d (Dev.updTwT d n f) := by
  unfold Dev.updTwT
  repeat' first
    | with_reducible apply Dev.onlyIn_refl
    | (fail_if_success with_reducible apply Dev.onlyIn_put_dma); (with_reducible apply Dev.onlyIn_put_twT) <;> [skip; decide]

theorem Dev.updTwC_onlyIn (d : Dev) (c : ℕ) (f : TwCtl → TwCtl) : Dev.onlyIn [.twC] d (Dev.updTwC d c f) := by
  unfold Dev.updTwC
  repeat' first
    | with_reducible apply Dev.onlyIn_refl
    | (fail_if_success with_reducible apply Dev.onlyIn_put_dma); (with_reducible apply Dev.onlyIn_put_twC) <;> [skip; decide]

theorem Dev.twDone_onlyIn (d : Dev) (c n : ℕ) : Dev.onlyIn [.twC] d (Dev.twDone d c n) := by
  unfold Dev.twDone
  repeat' first
    | with_reducible apply Dev.onlyIn_refl
    | (with_reducible apply Dev.onlyIn_via (Dev.updTwC_onlyIn _ _ _)) <;> [decide; skip]

theorem Dev.twGone_onlyIn (d : Dev) (c addr : ℕ) : Dev.onlyIn [.twC] d (Dev.twGone d c addr) := by
  unfold Dev.twGone
  repeat' first
    | with_reducible apply Dev.onlyIn_refl
    | (with_reducible apply Dev.onlyIn_via (Dev.updTwC_onlyIn _ _ _)) <;> [decide; skip]

theorem Dev.twFail_onlyIn (d : Dev) (c addr : ℕ) : Dev.onlyIn [.stat, .twC] d (Dev.twFail d c addr) := by
  unfold Dev.twFail
  repeat' first
    | with_reducible apply Dev.onlyIn_refl
    | (with_reducible apply Dev.onlyIn_via (Dev.occur_onlyIn _ _ _)) <;> [decide; skip]
    | (with_reducible apply Dev.onlyIn_via (Dev.twGone_onlyIn _ _ _)) <;> [decide; skip]

theorem Dev.sendRead_onlyIn (d : Dev) (c addr cmd : ℕ) : Dev.onlyIn [.die] d (Dev.sendRead d c addr cmd) := by
  unfold Dev.sendRead
  repeat' first
    | with_reducible apply Dev.onlyIn_refl
    | (fail_if_success with_reducible apply Dev.onlyIn_put_dma); (with_reducible apply Dev.onlyIn_put_die) <;> [skip; decide]

theorem Dev.updJrn_onlyIn (d : Dev) (f : JrnSt → JrnSt) : Dev.onlyIn [.jrn] d (Dev.updJrn d f) := by
  unfold Dev.updJrn
  repeat' first
    | with_reducible apply Dev.onlyIn_refl
    | (fail_if_success with_reducible apply Dev.onlyIn_put_dma); (with_reducible apply Dev.onlyIn_put_jrn) <;> [skip; decide]

theorem Dev.updUpd_onlyIn (d : Dev) (f : UpdSt → UpdSt) : Dev.onlyIn [.upd] d (Dev.updUpd d f) := by
  unfold Dev.updUpd
  repeat' first
    | with_reducible apply Dev.onlyIn_refl
    | (fail_if_success with_reducible apply Dev.onlyIn_put_dma); (with_reducible apply Dev.onlyIn_put_upd) <;> [skip; decide]

theorem Dev.updMie_onlyIn (d : Dev) (f : MieSt → MieSt) : Dev.onlyIn [.mie] d (Dev.updMie d f) := by
  unfold Dev.updMie
  repeat' first
    | with_reducible apply Dev.onlyIn_refl
    | (fail_if_success with_reducible apply Dev.onlyIn_put_dma); (with_reducible apply Dev.onlyIn_put_mie) <;> [skip; decide]

theorem Dev.updDma_onlyIn (d : Dev) (c : ℕ) (f : DmaCh → DmaCh) : Dev.onlyIn [.dma] d (Dev.updDma d c f) := by
  unfold Dev.updDma
  repeat' first
    | with_reducible apply Dev.onlyIn_refl
    | (fail_if_success with_reducible apply Dev.onlyIn_put_mie); (with_reducible apply Dev.onlyIn_put_dma) <;> [skip; decide]

theorem Dev.peatTrig_onlyIn (d : Dev) (t : PeatTrig) : Dev.onlyIn [.peat] d (Dev.peatTrig d t) := by
  unfold Dev.peatTrig
  repeat' first
    | with_reducible apply Dev.onlyIn_refl
    | (fail_if_success with_reducible apply Dev.onlyIn_put_dma); (with_reducible apply Dev.onlyIn_put_peat) <;> [skip; decide]

theorem Dev.zeroMem_onlyIn (d : Dev) (a k : ℕ) : Dev.onlyIn [.sram] d (Dev.zeroMem d a k) := by
  unfold Dev.zeroMem
  repeat' first
    | with_reducible apply Dev.onlyIn_refl
    | (fail_if_success with_reducible apply Dev.onlyIn_put_dma); (with_reducible apply Dev.onlyIn_put_sram) <;> [skip; decide]

theorem Dev.zeroBalance_onlyIn (d : Dev) (r n : ℕ) : Dev.onlyIn [.sram] d (Dev.zeroBalance d r n) := by
  unfold Dev.zeroBalance
  repeat' first
    | with_reducible apply Dev.onlyIn_refl
    | (with_reducible apply Dev.onlyIn_via (Dev.zeroMem_onlyIn _ _ _)) <;> [decide; skip]
    | (with_reducible apply Dev.onlyIn_foldl) <;> [(intro _ _); skip]
    | (with_reducible apply Dev.onlyIn_ite)

theorem Dev.updLed_onlyIn (d : Dev) (f : Ledger → Ledger) : Dev.onlyIn [.adm] d (Dev.updLed d f) := by
  unfold Dev.updLed
  repeat' first
    | with_reducible apply Dev.onlyIn_refl
    | (fail_if_success with_reducible apply Dev.onlyIn_put_dma); (with_reducible apply Dev.onlyIn_put_adm) <;> [skip; decide]

theorem Dev.updPort_onlyIn (d : Dev) (n : ℕ) (f : StepPort → StepPort) : Dev.onlyIn [.adm] d (Dev.updPort d n f) := by
  unfold Dev.updPort
  repeat' first
    | with_reducible apply Dev.onlyIn_refl
    | (fail_if_success with_reducible apply Dev.onlyIn_put_dma); (with_reducible apply Dev.onlyIn_put_adm) <;> [skip; decide]

theorem Dev.updLoad_onlyIn (d : Dev) (i : ℕ) (f : Load → Load) : Dev.onlyIn [.adm] d (Dev.updLoad d i f) := by
  unfold Dev.updLoad
  repeat' first
    | with_reducible apply Dev.onlyIn_refl
    | (fail_if_success with_reducible apply Dev.onlyIn_put_dma); (with_reducible apply Dev.onlyIn_put_adm) <;> [skip; decide]

theorem Dev.putFf_onlyIn (d : Dev) (r : ℕ) (v : ℤ) : Dev.onlyIn [.sram, .adm] d (Dev.putFf d r v) := by
  unfold Dev.putFf
  repeat' first
    | with_reducible apply Dev.onlyIn_refl
    | (with_reducible apply Dev.onlyIn_via (Dev.updLed_onlyIn _ _)) <;> [decide; skip]
    | (fail_if_success with_reducible apply Dev.onlyIn_put_dma); (with_reducible apply Dev.onlyIn_put_sram) <;> [skip; decide]

theorem Dev.ffTick_onlyIn (d : Dev) : Dev.onlyIn [.sram, .adm] d (Dev.ffTick d) := by
  unfold Dev.ffTick
  repeat' first
    | with_reducible apply Dev.onlyIn_refl
    | (with_reducible apply Dev.onlyIn_then (foldN_onlyIn _ _ _ ?_)) <;> [skip; (intro _ _ )]
    | (with_reducible apply Dev.onlyIn_via (Dev.putFf_onlyIn _ _ _)) <;> [decide; skip]

theorem Dev.limitTick_onlyIn (d : Dev) : Dev.onlyIn [.adm] d (Dev.limitTick d) := by
  unfold Dev.limitTick
  repeat' first
    | with_reducible apply Dev.onlyIn_refl
    | (with_reducible apply Dev.onlyIn_via (Dev.updLed_onlyIn _ _)) <;> [decide; skip]

theorem Dev.capRaise_onlyIn (d : Dev) (n : ℕ) : Dev.onlyIn [.stat, .adm] d (Dev.capRaise d n) := by
  unfold Dev.capRaise
  repeat' first
    | with_reducible apply Dev.onlyIn_refl
    | with_reducible assumption
    | (with_reducible apply Dev.onlyIn_via (Dev.updPort_onlyIn _ _ _)) <;> [decide; skip]
    | (with_reducible apply Dev.onlyIn_via (Dev.occur_onlyIn _ _ _)) <;> [decide; skip]
    | (extract_lets +onlyGivenNames x; refine Dev.onlyIn_cut x ?_ ?_ <;> [(dsimp -zeta -proj only [x]; clear x); (intro _; clear_value x; revert x; intros)])
    | (extract_lets +onlyGivenNames x; clear_value x; revert x; intros)
    | (with_reducible apply Dev.onlyIn_ite)

theorem Dev.overrunTick_onlyIn (d : Dev) : Dev.onlyIn [.stat, .adm] d (Dev.overrunTick d) := by
  unfold Dev.overrunTick
  repeat' first
    | with_reducible apply Dev.onlyIn_refl
    | (with_reducible apply Dev.onlyIn_via (Dev.occur_onlyIn _ _ _)) <;> [decide; skip]
    | (with_reducible apply Dev.onlyIn_via (Dev.updLed_onlyIn _ _)) <;> [decide; skip]
    | (with_reducible apply Dev.onlyIn_ite)

theorem Dev.capAll_onlyIn (d : Dev) : Dev.onlyIn [.stat, .adm] d (Dev.capAll d) := by
  unfold Dev.capAll
  repeat' first
    | with_reducible apply Dev.onlyIn_refl
    | (with_reducible apply Dev.onlyIn_then (foldN_onlyIn _ _ _ ?_)) <;> [skip; (intro _ _ )]
    | (with_reducible apply Dev.onlyIn_via (Dev.capRaise_onlyIn _ _)) <;> [decide; skip]
    | (with_reducible apply Dev.onlyIn_via (Dev.overrunTick_onlyIn _)) <;> [decide; skip]

theorem Dev.rebudget_onlyIn (d : Dev) : Dev.onlyIn [.stat, .adm] d (Dev.rebudget d) := by
  unfold Dev.rebudget
  repeat' first
    | with_reducible apply Dev.onlyIn_refl
    | (with_reducible apply Dev.onlyIn_via (Dev.capAll_onlyIn _)) <;> [decide; skip]
    | (with_reducible apply Dev.onlyIn_via (Dev.limitTick_onlyIn _)) <;> [decide; skip]

theorem Dev.learnTick_onlyIn (d : Dev) : Dev.onlyIn [.adm] d (Dev.learnTick d) := by
  unfold Dev.learnTick
  repeat' first
    | with_reducible apply Dev.onlyIn_refl
    | (with_reducible apply Dev.onlyIn_via (Dev.updLed_onlyIn _ _)) <;> [decide; skip]
    | (extract_lets +onlyGivenNames x; clear_value x; revert x; intros)
    | (with_reducible apply Dev.onlyIn_ite)
    | split

theorem Dev.learnFrond_onlyIn (d : Dev) : Dev.onlyIn [.adm] d (Dev.learnFrond d) := by
  unfold Dev.learnFrond
  repeat' first
    | with_reducible apply Dev.onlyIn_refl
    | (with_reducible apply Dev.onlyIn_via (Dev.updLed_onlyIn _ _)) <;> [decide; skip]
    | (extract_lets +onlyGivenNames x; clear_value x; revert x; intros)
    | (with_reducible apply Dev.onlyIn_ite)
    | split

theorem Dev.triAll_onlyIn (d : Dev) (r : ℕ) : Dev.onlyIn [.units] d (Dev.triAll d r) := by
  unfold Dev.triAll
  repeat' first
    | with_reducible apply Dev.onlyIn_refl
    | (with_reducible apply Dev.onlyIn_then (foldN_onlyIn _ _ _ ?_)) <;> [skip; (intro _ _ )]
    | (with_reducible apply Dev.onlyIn_via (Dev.updUnit_onlyIn _ _ _)) <;> [decide; skip]
    | (with_reducible apply Dev.onlyIn_ite)

theorem Dev.injStop_onlyIn (d : Dev) (cause : ℕ) : Dev.onlyIn [.stat, .inj] d (Dev.injStop d cause) := by
  unfold Dev.injStop
  repeat' first
    | with_reducible apply Dev.onlyIn_refl
    | with_reducible assumption
    | (with_reducible apply Dev.onlyIn_via (Dev.occur_onlyIn _ _ _)) <;> [decide; skip]
    | (fail_if_success with_reducible apply Dev.onlyIn_put_dma); (with_reducible apply Dev.onlyIn_put_inj) <;> [skip; decide]
    | (extract_lets +onlyGivenNames x; refine Dev.onlyIn_cut x ?_ ?_ <;> [(dsimp -zeta -proj only [x]; clear x); (intro _; clear_value x; revert x; intros)])
    | (extract_lets +onlyGivenNames x; clear_value x; revert x; intros)
    | (with_reducible apply Dev.onlyIn_ite)

theorem Dev.injStopRail_onlyIn (d : Dev) (r cause : ℕ) : Dev.onlyIn [.stat, .inj] d (Dev.injStopRail d r cause) := by
  unfold Dev.injStopRail
  repeat' first
    | with_reducible apply Dev.onlyIn_refl
    | (with_reducible apply Dev.onlyIn_via (Dev.injStop_onlyIn _ _)) <;> [decide; skip]
    | (with_reducible apply Dev.onlyIn_ite)

theorem Dev.injLeave_onlyIn (d : Dev) (r : ℕ) : Dev.onlyIn [.stat, .inj] d (Dev.injLeave d r) := by
  unfold Dev.injLeave
  repeat' first
    | with_reducible apply Dev.onlyIn_refl
    | (with_reducible apply Dev.onlyIn_via (Dev.injStopRail_onlyIn _ _ _)) <;> [decide; skip]
    | (with_reducible apply Dev.onlyIn_ite)

theorem Dev.tripRailBy_onlyIn (d : Dev) (r pg bit : ℕ) : Dev.onlyIn [.stat, .rails, .units, .inj, .fh] d (Dev.tripRailBy d r pg bit) := by
  unfold Dev.tripRailBy
  repeat' first
    | with_reducible apply Dev.onlyIn_refl
    | (with_reducible apply Dev.onlyIn_via (Dev.triAll_onlyIn _ _)) <;> [decide; skip]
    | (with_reducible apply Dev.onlyIn_via (Dev.injLeave_onlyIn _ _)) <;> [decide; skip]
    | (with_reducible apply Dev.onlyIn_via (Dev.updRail_onlyIn _ _ _)) <;> [decide; skip]
    | (with_reducible apply Dev.onlyIn_via (Dev.memberBlockFault_onlyIn _ _)) <;> [decide; skip]
    | (with_reducible apply Dev.onlyIn_via (Dev.occur_onlyIn _ _ _)) <;> [decide; skip]

theorem Dev.tripRail_onlyIn (d : Dev) (r bit : ℕ) : Dev.onlyIn [.stat, .rails, .units, .inj, .fh] d (Dev.tripRail d r bit) := by
  unfold Dev.tripRail
  repeat' first
    | with_reducible apply Dev.onlyIn_refl
    | (with_reducible apply Dev.onlyIn_via (Dev.tripRailBy_onlyIn _ _ _ _)) <;> [decide; skip]

theorem Dev.railOff_onlyIn (d : Dev) (r : ℕ) : Dev.onlyIn [.stat, .rails, .units, .inj] d (Dev.railOff d r) := by
  unfold Dev.railOff
  repeat' first
    | with_reducible apply Dev.onlyIn_refl
    | (with_reducible apply Dev.onlyIn_via (Dev.updRail_onlyIn _ _ _)) <;> [decide; skip]
    | (with_reducible apply Dev.onlyIn_via (Dev.triAll_onlyIn _ _)) <;> [decide; skip]
    | (with_reducible apply Dev.onlyIn_via (Dev.injLeave_onlyIn _ _)) <;> [decide; skip]

theorem Dev.noPhase_onlyIn (d : Dev) (r : ℕ) : Dev.onlyIn [.stat, .rails, .units, .inj, .fh] d (Dev.noPhase d r) := by
  unfold Dev.noPhase
  repeat' first
    | with_reducible apply Dev.onlyIn_refl
    | (with_reducible apply Dev.onlyIn_via (Dev.tripRail_onlyIn _ _ _)) <;> [decide; skip]
    | (with_reducible apply Dev.onlyIn_ite)

theorem Dev.faultUnit_onlyIn (d : Dev) (n : ℕ) : Dev.onlyIn [.stat, .rails, .units, .inj, .fh] d (Dev.faultUnit d n) := by
  unfold Dev.faultUnit
  repeat' first
    | with_reducible apply Dev.onlyIn_refl
    | (with_reducible apply Dev.onlyIn_via (Dev.updUnit_onlyIn _ _ _)) <;> [decide; skip]
    | (with_reducible apply Dev.onlyIn_via (Dev.noPhase_onlyIn _ _)) <;> [decide; skip]
    | (with_reducible apply Dev.onlyIn_via (Dev.injStopRail_onlyIn _ _ _)) <;> [decide; skip]
    | (with_reducible apply Dev.onlyIn_ite)
    | split

theorem Dev.capTick_onlyIn (d : Dev) (r : ℕ) : Dev.onlyIn [.rails] d (Dev.capTick d r) := by
  unfold Dev.capTick
  repeat' first
    | with_reducible apply Dev.onlyIn_refl
    | (with_reducible apply Dev.onlyIn_via (Dev.updRail_onlyIn _ _ _)) <;> [decide; skip]

theorem Dev.loseClusters_onlyIn (d : Dev) (p : ℕ → Bool) : Dev.onlyIn [.stat, .rails, .units, .clusters, .inj, .adm, .fh] d (Dev.loseClusters d p) := by
  unfold Dev.loseClusters
  repeat' first
    | with_reducible apply Dev.onlyIn_refl
    | with_reducible assumption
    | (with_reducible apply Dev.onlyIn_then (foldN_onlyIn _ _ _ ?_)) <;> [skip; (intro _ _ )]
    | (with_reducible apply Dev.onlyIn_via (Dev.occur_onlyIn _ _ _)) <;> [decide; skip]
    | (with_reducible apply Dev.onlyIn_via (Dev.injStopRail_onlyIn _ _ _)) <;> [decide; skip]
    | (with_reducible apply Dev.onlyIn_via (Dev.updUnit_onlyIn _ _ _)) <;> [decide; skip]
    | (with_reducible apply Dev.onlyIn_via (Dev.updCluster_onlyIn _ _ _)) <;> [decide; skip]
    | (with_reducible apply Dev.onlyIn_via (Dev.capTick_onlyIn _ _)) <;> [decide; skip]
    | (with_reducible apply Dev.onlyIn_via (Dev.updRail_onlyIn _ _ _)) <;> [decide; skip]
    | (with_reducible apply Dev.onlyIn_via (Dev.noPhase_onlyIn _ _)) <;> [decide; skip]
    | (with_reducible apply Dev.onlyIn_via (Dev.rebudget_onlyIn _)) <;> [decide; skip]
    | (extract_lets +onlyGivenNames x; refine Dev.onlyIn_cut x ?_ ?_ <;> [(dsimp -zeta -proj only [x]; clear x); (intro _; clear_value x; revert x; intros)])
    | (extract_lets +onlyGivenNames x; clear_value x; revert x; intros)
    | (with_reducible apply Dev.onlyIn_ite)
    | split

theorem Dev.gateUp_onlyIn (d : Dev) (r : ℕ) : Dev.onlyIn [.rails] d (Dev.gateUp d r) := by
  unfold Dev.gateUp
  repeat' first
    | with_reducible apply Dev.onlyIn_refl
    | (with_reducible apply Dev.onlyIn_via (Dev.updRail_onlyIn _ _ _)) <;> [decide; skip]

theorem Dev.railOn_onlyIn (d : Dev) (r : ℕ) : Dev.onlyIn [.stat, .rails, .fh] d (Dev.railOn d r) := by
  unfold Dev.railOn
  repeat' first
    | with_reducible apply Dev.onlyIn_refl
    | (with_reducible apply Dev.onlyIn_via (Dev.gateUp_onlyIn _ _)) <;> [decide; skip]
    | (with_reducible apply Dev.onlyIn_via (Dev.memberRefused_onlyIn _ _)) <;> [decide; skip]
    | (with_reducible apply Dev.onlyIn_via (Dev.updRail_onlyIn _ _ _)) <;> [decide; skip]
    | (with_reducible apply Dev.onlyIn_ite)
    | split

theorem Dev.railOffReq_onlyIn (d : Dev) (r : ℕ) : Dev.onlyIn [.stat, .rails, .units, .inj] d (Dev.railOffReq d r) := by
  unfold Dev.railOffReq
  repeat' first
    | with_reducible apply Dev.onlyIn_refl
    | (with_reducible apply Dev.onlyIn_via (Dev.updRail_onlyIn _ _ _)) <;> [decide; skip]
    | (with_reducible apply Dev.onlyIn_via (Dev.injLeave_onlyIn _ _)) <;> [decide; skip]
    | (with_reducible apply Dev.onlyIn_via (Dev.railOff_onlyIn _ _)) <;> [decide; skip]
    | (with_reducible apply Dev.onlyIn_ite)
    | split

theorem Dev.retryEnd_onlyIn (d : Dev) (r : ℕ) : Dev.onlyIn [.stat, .rails, .units, .inj, .fh] d (Dev.retryEnd d r) := by
  unfold Dev.retryEnd
  repeat' first
    | with_reducible apply Dev.onlyIn_refl
    | with_reducible assumption
    | (with_reducible apply Dev.onlyIn_via (Dev.railOff_onlyIn _ _)) <;> [decide; skip]
    | (with_reducible apply Dev.onlyIn_via (Dev.updRail_onlyIn _ _ _)) <;> [decide; skip]
    | (with_reducible apply Dev.onlyIn_via (Dev.gateUp_onlyIn _ _)) <;> [decide; skip]
    | (with_reducible apply Dev.onlyIn_via (Dev.tripRail_onlyIn _ _ _)) <;> [decide; skip]
    | (with_reducible apply Dev.onlyIn_via (Dev.occur_onlyIn _ _ _)) <;> [decide; skip]
    | (extract_lets +onlyGivenNames x; refine Dev.onlyIn_cut x ?_ ?_ <;> [(dsimp -zeta -proj only [x]; clear x); (intro _; clear_value x; revert x; intros)])
    | (extract_lets +onlyGivenNames x; clear_value x; revert x; intros)
    | (with_reducible apply Dev.onlyIn_ite)

theorem Dev.targetTick_onlyIn (d : Dev) (r : ℕ) : Dev.onlyIn [.stat, .rails] d (Dev.targetTick d r) := by
  unfold Dev.targetTick
  repeat' first
    | with_reducible apply Dev.onlyIn_refl
    | (with_reducible apply Dev.onlyIn_via (Dev.occur_onlyIn _ _ _)) <;> [decide; skip]
    | (with_reducible apply Dev.onlyIn_via (Dev.updRail_onlyIn _ _ _)) <;> [decide; skip]
    | (with_reducible apply Dev.onlyIn_ite)

theorem Dev.refTick_onlyIn (d : Dev) (r : ℕ) : Dev.onlyIn [.stat, .rails, .inj] d (Dev.refTick d r) := by
  unfold Dev.refTick
  repeat' first
    | with_reducible apply Dev.onlyIn_refl
    | with_reducible assumption
    | (with_reducible apply Dev.onlyIn_via (Dev.updRail_onlyIn _ _ _)) <;> [decide; skip]
    | (with_reducible apply Dev.onlyIn_via (Dev.injStopRail_onlyIn _ _ _)) <;> [decide; skip]
    | (extract_lets +onlyGivenNames x; refine Dev.onlyIn_cut x ?_ ?_ <;> [(dsimp -zeta -proj only [x]; clear x); (intro _; clear_value x; revert x; intros)])
    | (extract_lets +onlyGivenNames x; clear_value x; revert x; intros)
    | (with_reducible apply Dev.onlyIn_ite)
    | split

theorem Dev.startTick_onlyIn (d : Dev) (r : ℕ) : Dev.onlyIn [.rails, .units] d (Dev.startTick d r) := by
  unfold Dev.startTick
  repeat' first
    | with_reducible apply Dev.onlyIn_refl
    | with_reducible assumption
    | (with_reducible apply Dev.onlyIn_via (Dev.updRail_onlyIn _ _ _)) <;> [decide; skip]
    | (with_reducible apply Dev.onlyIn_then (foldN_onlyIn _ _ _ ?_)) <;> [skip; (intro _ _ )]
    | (with_reducible apply Dev.onlyIn_via (Dev.updUnit_onlyIn _ _ _)) <;> [decide; skip]
    | (extract_lets +onlyGivenNames x; refine Dev.onlyIn_cut x ?_ ?_ <;> [(dsimp -zeta -proj only [x]; clear x); (intro _; clear_value x; revert x; intros)])
    | (extract_lets +onlyGivenNames x; clear_value x; revert x; intros)
    | (with_reducible apply Dev.onlyIn_ite)

theorem Dev.countTick_onlyIn (d : Dev) (r : ℕ) : Dev.onlyIn [.stat, .rails, .inj] d (Dev.countTick d r) := by
  unfold Dev.countTick
  repeat' first
    | with_reducible apply Dev.onlyIn_refl
    | with_reducible assumption
    | (with_reducible apply Dev.onlyIn_via (Dev.updRail_onlyIn _ _ _)) <;> [decide; skip]
    | (with_reducible apply Dev.onlyIn_via (Dev.injStopRail_onlyIn _ _ _)) <;> [decide; skip]
    | (extract_lets +onlyGivenNames x; refine Dev.onlyIn_cut x ?_ ?_ <;> [(dsimp -zeta -proj only [x]; clear x); (intro _; clear_value x; revert x; intros)])
    | (extract_lets +onlyGivenNames x; clear_value x; revert x; intros)
    | (with_reducible apply Dev.onlyIn_ite)

theorem Dev.activate_onlyIn (d : Dev) (r n : ℕ) : Dev.onlyIn [.units, .sram] d (Dev.activate d r n) := by
  unfold Dev.activate
  repeat' first
    | with_reducible apply Dev.onlyIn_refl
    | (with_reducible apply Dev.onlyIn_via (Dev.updUnit_onlyIn _ _ _)) <;> [decide; skip]
    | (with_reducible apply Dev.onlyIn_via (Dev.zeroBalance_onlyIn _ _ _)) <;> [decide; skip]

theorem Dev.addUnits_onlyIn (d : Dev) (r : ℕ) : Dev.onlyIn [.units, .sram] d (Dev.addUnits d r) := by
  unfold Dev.addUnits
  repeat' first
    | with_reducible apply Dev.onlyIn_refl
    | (with_reducible apply Dev.onlyIn_via (Dev.activate_onlyIn _ _ _)) <;> [decide; skip]
    | (with_reducible apply Dev.onlyIn_foldl) <;> [(intro _ _); skip]
    | (extract_lets +onlyGivenNames x; clear_value x; revert x; intros)
    | (with_reducible apply Dev.onlyIn_ite)
    | split

theorem Dev.addTick_onlyIn (d : Dev) (r : ℕ) : Dev.onlyIn [.rails, .units, .sram] d (Dev.addTick d r) := by
  unfold Dev.addTick
  repeat' first
    | with_reducible apply Dev.onlyIn_refl
    | with_reducible assumption
    | (with_reducible apply Dev.onlyIn_via (Dev.addUnits_onlyIn _ _)) <;> [decide; skip]
    | (with_reducible apply Dev.onlyIn_via (Dev.updRail_onlyIn _ _ _)) <;> [decide; skip]
    | (extract_lets +onlyGivenNames x; refine Dev.onlyIn_cut x ?_ ?_ <;> [(dsimp -zeta -proj only [x]; clear x); (intro _; clear_value x; revert x; intros)])
    | (extract_lets +onlyGivenNames x; clear_value x; revert x; intros)
    | (with_reducible apply Dev.onlyIn_ite)

theorem Dev.cancelShed_onlyIn (d : Dev) (r : ℕ) : Dev.onlyIn [.rails, .units] d (Dev.cancelShed d r) := by
  unfold Dev.cancelShed
  repeat' first
    | with_reducible apply Dev.onlyIn_refl
    | (with_reducible apply Dev.onlyIn_then (foldN_onlyIn _ _ _ ?_)) <;> [skip; (intro _ _ )]
    | (with_reducible apply Dev.onlyIn_via (Dev.updUnit_onlyIn _ _ _)) <;> [decide; skip]
    | (with_reducible apply Dev.onlyIn_via (Dev.updRail_onlyIn _ _ _)) <;> [decide; skip]
    | (extract_lets +onlyGivenNames x; clear_value x; revert x; intros)
    | (with_reducible apply Dev.onlyIn_ite)

theorem Dev.mark_onlyIn (d : Dev) (n : ℕ) : Dev.onlyIn [.units] d (Dev.mark d n) := by
  unfold Dev.mark
  repeat' first
    | with_reducible apply Dev.onlyIn_refl
    | (with_reducible apply Dev.onlyIn_via (Dev.updUnit_onlyIn _ _ _)) <;> [decide; skip]

theorem Dev.interleave_onlyIn (d : Dev) (r : ℕ) : Dev.onlyIn [.rails, .units] d (Dev.interleave d r) := by
  unfold Dev.interleave
  repeat' first
    | with_reducible apply Dev.onlyIn_refl
    | with_reducible assumption
    | (with_reducible apply Dev.onlyIn_via (Dev.updUnit_onlyIn _ _ _)) <;> [decide; skip]
    | (with_reducible apply Dev.onlyIn_via (Dev.updRail_onlyIn _ _ _)) <;> [decide; skip]
    | (with_reducible apply Dev.onlyIn_foldl) <;> [(intro _ _); skip]
    | (extract_lets +onlyGivenNames x; refine Dev.onlyIn_cut x ?_ ?_ <;> [(dsimp -zeta -proj only [x]; clear x); (intro _; clear_value x; revert x; intros)])
    | (extract_lets +onlyGivenNames x; clear_value x; revert x; intros)
    | (with_reducible apply Dev.onlyIn_ite)

theorem Dev.periodTick_onlyIn (d : Dev) (n : ℕ) : Dev.onlyIn [.units] d (Dev.periodTick d n) := by
  unfold Dev.periodTick
  repeat' first
    | with_reducible apply Dev.onlyIn_refl
    | (with_reducible apply Dev.onlyIn_via (Dev.updUnit_onlyIn _ _ _)) <;> [decide; skip]
    | (extract_lets +onlyGivenNames x; clear_value x; revert x; intros)
    | (with_reducible apply Dev.onlyIn_ite)
    | split

theorem Dev.counterTick_onlyIn (d : Dev) (r : ℕ) : Dev.onlyIn [.rails] d (Dev.counterTick d r) := by
  unfold Dev.counterTick
  repeat' first
    | with_reducible apply Dev.onlyIn_refl
    | (with_reducible apply Dev.onlyIn_via (Dev.updRail_onlyIn _ _ _)) <;> [decide; skip]

theorem Dev.burstRail_onlyIn (d : Dev) (r : ℕ) : Dev.onlyIn [.rails, .units] d (Dev.burstRail d r) := by
  unfold Dev.burstRail
  repeat' first
    | with_reducible apply Dev.onlyIn_refl
    | with_reducible assumption
    | (with_reducible apply Dev.onlyIn_via (Dev.updRail_onlyIn _ _ _)) <;> [decide; skip]
    | (with_reducible apply Dev.onlyIn_via (Dev.updUnit_onlyIn _ _ _)) <;> [decide; skip]
    | (with_reducible apply Dev.onlyIn_foldl) <;> [(intro _ _); skip]
    | (extract_lets +onlyGivenNames x; refine Dev.onlyIn_cut x ?_ ?_ <;> [(dsimp -zeta -proj only [x]; clear x); (intro _; clear_value x; revert x; intros)])
    | (extract_lets +onlyGivenNames x; clear_value x; revert x; intros)
    | (with_reducible apply Dev.onlyIn_ite)

theorem Dev.applyBurst_onlyIn (d : Dev) (xp : ℕ → Bool) (r : ℕ) : Dev.onlyIn [.rails, .units] d (Dev.applyBurst d xp r) := by
  unfold Dev.applyBurst
  repeat' first
    | with_reducible apply Dev.onlyIn_refl
    | with_reducible assumption
    | (with_reducible apply Dev.onlyIn_via (Dev.updUnit_onlyIn _ _ _)) <;> [decide; skip]
    | (with_reducible apply Dev.onlyIn_via (Dev.updRail_onlyIn _ _ _)) <;> [decide; skip]
    | (with_reducible apply Dev.onlyIn_foldl) <;> [(intro _ _); skip]
    | (extract_lets +onlyGivenNames x; refine Dev.onlyIn_cut x ?_ ?_ <;> [(dsimp -zeta -proj only [x]; clear x); (intro _; clear_value x; revert x; intros)])
    | (extract_lets +onlyGivenNames x; clear_value x; revert x; intros)
    | (with_reducible apply Dev.onlyIn_ite)

theorem Dev.burstUndo_onlyIn (d : Dev) : Dev.onlyIn [.rails, .units] d (Dev.burstUndo d) := by
  unfold Dev.burstUndo
  repeat' first
    | with_reducible apply Dev.onlyIn_refl
    | (fail_if_success with_reducible apply Dev.onlyIn_put_dma); (with_reducible apply Dev.onlyIn_put_rails_units) <;> [skip; decide; decide]

theorem Dev.thermalMark_onlyIn (d : Dev) (r n : ℕ) : Dev.onlyIn [.stat, .units, .therm] d (Dev.thermalMark d r n) := by
  unfold Dev.thermalMark
  repeat' first
    | with_reducible apply Dev.onlyIn_refl
    | with_reducible assumption
    | (with_reducible apply Dev.onlyIn_via (Dev.updUnit_onlyIn _ _ _)) <;> [decide; skip]
    | (with_reducible apply Dev.onlyIn_via (Dev.mark_onlyIn _ _)) <;> [decide; skip]
    | (with_reducible apply Dev.onlyIn_via (Dev.occur_onlyIn _ _ _)) <;> [decide; skip]
    | (fail_if_success with_reducible apply Dev.onlyIn_put_dma); (with_reducible apply Dev.onlyIn_put_therm) <;> [skip; decide]
    | (extract_lets +onlyGivenNames x; refine Dev.onlyIn_cut x ?_ ?_ <;> [(dsimp -zeta -proj only [x]; clear x); (intro _; clear_value x; revert x; intros)])
    | (extract_lets +onlyGivenNames x; clear_value x; revert x; intros)
    | (with_reducible apply Dev.onlyIn_ite)

theorem Dev.thermalShed_onlyIn (d : Dev) (r : ℕ) : Dev.onlyIn [.stat, .units, .therm] d (Dev.thermalShed d r) := by
  unfold Dev.thermalShed
  repeat' first
    | with_reducible apply Dev.onlyIn_refl
    | with_reducible assumption
    | (with_reducible apply Dev.onlyIn_then (foldN_onlyIn _ _ _ ?_)) <;> [skip; (intro _ _ )]
    | (with_reducible apply Dev.onlyIn_via (Dev.thermalMark_onlyIn _ _ _)) <;> [decide; skip]
    | (fail_if_success with_reducible apply Dev.onlyIn_put_dma); (with_reducible apply Dev.onlyIn_put_therm) <;> [skip; decide]
    | (extract_lets +onlyGivenNames x; refine Dev.onlyIn_cut x ?_ ?_ <;> [(dsimp -zeta -proj only [x]; clear x); (intro _; clear_value x; revert x; intros)])
    | (extract_lets +onlyGivenNames x; clear_value x; revert x; intros)
    | (with_reducible apply Dev.onlyIn_ite)

theorem Dev.finalRecord_onlyIn (d : Dev) (kind : ℕ) : Dev.onlyIn [.die, .stat, .nv, .peat] d (Dev.finalRecord d kind) := by
  unfold Dev.finalRecord
  repeat' first
    | with_reducible apply Dev.onlyIn_refl
    | (with_reducible apply Dev.onlyIn_via (Dev.occur_onlyIn _ _ _)) <;> [decide; skip]
    | (fail_if_success with_reducible apply Dev.onlyIn_put_dma); (with_reducible apply Dev.onlyIn_put_nv) <;> [skip; decide]
    | (fail_if_success with_reducible apply Dev.onlyIn_put_dma); (with_reducible apply Dev.onlyIn_put_die_peat) <;> [skip; decide; decide]

theorem Dev.updFeed_onlyIn (d : Dev) (f : FeedId) (g : Feed → Feed) : Dev.onlyIn [.feedA, .feedB] d (Dev.updFeed d f g) := by
  unfold Dev.updFeed
  repeat' first
    | with_reducible apply Dev.onlyIn_refl
    | (fail_if_success with_reducible apply Dev.onlyIn_put_dma); (with_reducible apply Dev.onlyIn_put_feedA) <;> [skip; decide]
    | (fail_if_success with_reducible apply Dev.onlyIn_put_dma); (with_reducible apply Dev.onlyIn_put_feedB) <;> [skip; decide]
    | (with_reducible apply Dev.onlyIn_ite)
    | split

theorem Dev.updHs_onlyIn (d : Dev) (r : ℕ) (f : HotSwap → HotSwap) : Dev.onlyIn [.hs] d (Dev.updHs d r f) := by
  unfold Dev.updHs
  repeat' first
    | with_reducible apply Dev.onlyIn_refl
    | (fail_if_success with_reducible apply Dev.onlyIn_put_dma); (with_reducible apply Dev.onlyIn_put_hs) <;> [skip; decide]

theorem Dev.outputsOff_onlyIn (d : Dev) : Dev.onlyIn [.units, .hs] d (Dev.outputsOff d) := by
  unfold Dev.outputsOff
  repeat' first
    | with_reducible apply Dev.onlyIn_refl
    | (fail_if_success with_reducible apply Dev.onlyIn_put_dma); (with_reducible apply Dev.onlyIn_put_units_hs) <;> [skip; decide; decide]

theorem Dev.enterSafe_onlyIn (d : Dev) (kind : ℕ) : Dev.onlyIn [.die, .stat, .units, .nv, .peat, .feedA, .feedB, .hs] d (Dev.enterSafe d kind) := by
  unfold Dev.enterSafe
  repeat' first
    | with_reducible apply Dev.onlyIn_refl
    | with_reducible assumption
    | (with_reducible apply Dev.onlyIn_via (Dev.outputsOff_onlyIn _)) <;> [decide; skip]
    | (with_reducible apply Dev.onlyIn_via (Dev.updFeed_onlyIn _ _ _)) <;> [decide; skip]
    | (with_reducible apply Dev.onlyIn_via (Dev.finalRecord_onlyIn _ _)) <;> [decide; skip]
    | (fail_if_success with_reducible apply Dev.onlyIn_put_dma); (with_reducible apply Dev.onlyIn_put_die) <;> [skip; decide]
    | (extract_lets +onlyGivenNames x; refine Dev.onlyIn_cut x ?_ ?_ <;> [(dsimp -zeta -proj only [x]; clear x); (intro _; clear_value x; revert x; intros)])
    | (extract_lets +onlyGivenNames x; clear_value x; revert x; intros)
    | (with_reducible apply Dev.onlyIn_ite)

theorem Dev.feedPark_onlyIn (d : Dev) (f : FeedId) : Dev.onlyIn [.feedA, .feedB] d (Dev.feedPark d f) := by
  unfold Dev.feedPark
  repeat' first
    | with_reducible apply Dev.onlyIn_refl
    | (with_reducible apply Dev.onlyIn_via (Dev.updFeed_onlyIn _ _ _)) <;> [decide; skip]

theorem Dev.xferFail_onlyIn (d : Dev) (code : ℕ) : Dev.onlyIn [.stat, .xfer] d (Dev.xferFail d code) := by
  unfold Dev.xferFail
  repeat' first
    | with_reducible apply Dev.onlyIn_refl
    | (with_reducible apply Dev.onlyIn_via (Dev.occurC_onlyIn _ _ _ _)) <;> [decide; skip]
    | (with_reducible apply Dev.onlyIn_via (Dev.updXfer_onlyIn _ _)) <;> [decide; skip]

theorem Dev.targetLost_onlyIn (d : Dev) (f : FeedId) : Dev.onlyIn [.stat, .xfer] d (Dev.targetLost d f) := by
  unfold Dev.targetLost
  repeat' first
    | with_reducible apply Dev.onlyIn_refl
    | (with_reducible apply Dev.onlyIn_via (Dev.xferFail_onlyIn _ _)) <;> [decide; skip]
    | (with_reducible apply Dev.onlyIn_ite)

theorem Dev.feedPlainOff_onlyIn (d : Dev) : Dev.onlyIn [.stat, .feedA, .feedB, .xfer] d (Dev.feedPlainOff d) := by
  unfold Dev.feedPlainOff
  repeat' first
    | with_reducible apply Dev.onlyIn_refl
    | (with_reducible apply Dev.onlyIn_via (Dev.updXfer_onlyIn _ _)) <;> [decide; skip]
    | (with_reducible apply Dev.onlyIn_via (Dev.targetLost_onlyIn _ _)) <;> [decide; skip]
    | (with_reducible apply Dev.onlyIn_via (Dev.feedPark_onlyIn _ _)) <;> [decide; skip]
    | (with_reducible apply Dev.onlyIn_ite)
    | split

theorem Dev.outOn_onlyIn (d : Dev) (i : ℕ) : Dev.onlyIn [.stat, .rails, .fh] d (Dev.outOn d i) := by
  unfold Dev.outOn
  repeat' first
    | with_reducible apply Dev.onlyIn_refl
    | with_reducible assumption
    | (with_reducible apply Dev.onlyIn_via (Dev.updMbr_onlyIn _ _ _)) <;> [decide; skip]
    | (with_reducible apply Dev.onlyIn_via (Dev.railOn_onlyIn _ _)) <;> [decide; skip]
    | (extract_lets +onlyGivenNames x; refine Dev.onlyIn_cut x ?_ ?_ <;> [(dsimp -zeta -proj only [x]; clear x); (intro _; clear_value x; revert x; intros)])
    | (with_reducible apply Dev.onlyIn_ite)

theorem Dev.outOff_onlyIn (d : Dev) (i : ℕ) : Dev.onlyIn [.stat, .rails, .units, .inj, .feedA, .feedB, .xfer, .fh, .bbus] d (Dev.outOff d i) := by
  unfold Dev.outOff
  repeat' first
    | with_reducible apply Dev.onlyIn_refl
    | with_reducible assumption
    | (with_reducible apply Dev.onlyIn_via (Dev.updMbr_onlyIn _ _ _)) <;> [decide; skip]
    | (with_reducible apply Dev.onlyIn_via (Dev.railOffReq_onlyIn _ _)) <;> [decide; skip]
    | (with_reducible apply Dev.onlyIn_via (Dev.feedPlainOff_onlyIn _)) <;> [decide; skip]
    | (with_reducible apply Dev.onlyIn_via (Dev.updBbu_onlyIn _ _ _)) <;> [decide; skip]
    | (extract_lets +onlyGivenNames x; refine Dev.onlyIn_cut x ?_ ?_ <;> [(dsimp -zeta -proj only [x]; clear x); (intro _; clear_value x; revert x; intros)])
    | (with_reducible apply Dev.onlyIn_ite)

theorem Dev.failOwn_onlyIn (d : Dev) (i cause : ℕ) : Dev.onlyIn [.stat, .rails, .units, .inj, .feedA, .feedB, .xfer, .fh, .bbus] d (Dev.failOwn d i cause) := by
  unfold Dev.failOwn
  repeat' first
    | with_reducible apply Dev.onlyIn_refl
    | with_reducible assumption
    | (with_reducible apply Dev.onlyIn_via (Dev.failMember_onlyIn _ _ _ _)) <;> [decide; skip]
    | (with_reducible apply Dev.onlyIn_via (Dev.outOff_onlyIn _ _)) <;> [decide; skip]
    | (extract_lets +onlyGivenNames x; refine Dev.onlyIn_cut x ?_ ?_ <;> [(dsimp -zeta -proj only [x]; clear x); (intro _; clear_value x; revert x; intros)])
    | (extract_lets +onlyGivenNames x; clear_value x; revert x; intros)
    | (with_reducible apply Dev.onlyIn_ite)

theorem Dev.membersOff_onlyIn (d : Dev) : Dev.onlyIn [.stat, .rails, .units, .inj, .fh] d (Dev.membersOff d) := by
  unfold Dev.membersOff
  repeat' first
    | with_reducible apply Dev.onlyIn_refl
    | (with_reducible apply Dev.onlyIn_then (foldN_onlyIn _ _ _ ?_)) <;> [skip; (intro _ _ )]
    | (with_reducible apply Dev.onlyIn_via (Dev.railOffReq_onlyIn _ _)) <;> [decide; skip]
    | (with_reducible apply Dev.onlyIn_via (Dev.updFh_onlyIn _ _)) <;> [decide; skip]
    | (with_reducible apply Dev.onlyIn_ite)

theorem Dev.shelfDown_onlyIn (d : Dev) (st : ShelfState) : Dev.onlyIn [.stat, .rails, .units, .inj, .fh] d (Dev.shelfDown d st) := by
  unfold Dev.shelfDown
  repeat' first
    | with_reducible apply Dev.onlyIn_refl
    | (with_reducible apply Dev.onlyIn_via (Dev.updFh_onlyIn _ _)) <;> [decide; skip]
    | (with_reducible apply Dev.onlyIn_via (Dev.membersOff_onlyIn _)) <;> [decide; skip]

theorem Dev.stopsDone_onlyIn (d : Dev) : Dev.onlyIn [.stat, .rails, .units, .inj, .fh] d (Dev.stopsDone d) := by
  unfold Dev.stopsDone
  repeat' first
    | with_reducible apply Dev.onlyIn_refl
    | (with_reducible apply Dev.onlyIn_via (Dev.shelfDown_onlyIn _ _)) <;> [decide; skip]
    | (with_reducible apply Dev.onlyIn_via (Dev.membersOff_onlyIn _)) <;> [decide; skip]
    | (with_reducible apply Dev.onlyIn_ite)
    | split

theorem Dev.stopAll_onlyIn (d : Dev) : Dev.onlyIn [.stat, .rails, .units, .inj, .fh] d (Dev.stopAll d) := by
  unfold Dev.stopAll
  repeat' first
    | with_reducible apply Dev.onlyIn_refl
    | (with_reducible apply Dev.onlyIn_via (Dev.stopsDone_onlyIn _)) <;> [decide; skip]
    | (with_reducible apply Dev.onlyIn_via (Dev.stopNext_onlyIn _ _)) <;> [decide; skip]
    | (with_reducible apply Dev.onlyIn_via (Dev.updFh_onlyIn _ _)) <;> [decide; skip]

theorem Dev.dropWaiting_onlyIn (d : Dev) : Dev.onlyIn [.fh] d (Dev.dropWaiting d) := by
  unfold Dev.dropWaiting
  repeat' first
    | with_reducible apply Dev.onlyIn_refl
    | (with_reducible apply Dev.onlyIn_via (Dev.updFh_onlyIn _ _)) <;> [decide; skip]

theorem Dev.shelfUp_onlyIn (d : Dev) : Dev.onlyIn [.fh] d (Dev.shelfUp d) := by
  unfold Dev.shelfUp
  repeat' first
    | with_reducible apply Dev.onlyIn_refl
    | (with_reducible apply Dev.onlyIn_via (Dev.updFh_onlyIn _ _)) <;> [decide; skip]
    | (with_reducible apply Dev.onlyIn_ite)

theorem Dev.powerUp_onlyIn (d : Dev) : Dev.onlyIn [.fh] d (Dev.powerUp d) := by
  unfold Dev.powerUp
  repeat' first
    | with_reducible apply Dev.onlyIn_refl
    | (with_reducible apply Dev.onlyIn_via (Dev.shelfUp_onlyIn _)) <;> [decide; skip]
    | (with_reducible apply Dev.onlyIn_via (Dev.updFh_onlyIn _ _)) <;> [decide; skip]

theorem Dev.onRequest_onlyIn (d : Dev) : Dev.onlyIn [.fh] d (Dev.onRequest d) := by
  unfold Dev.onRequest
  repeat' first
    | with_reducible apply Dev.onlyIn_refl
    | (with_reducible apply Dev.onlyIn_via (Dev.powerUp_onlyIn _)) <;> [decide; skip]
    | (with_reducible apply Dev.onlyIn_via (Dev.updFh_onlyIn _ _)) <;> [decide; skip]
    | (with_reducible apply Dev.onlyIn_ite)
    | split

theorem Dev.drained_onlyIn (d : Dev) : Dev.onlyIn [.stat, .rails, .units, .inj, .fh] d (Dev.drained d) := by
  unfold Dev.drained
  repeat' first
    | with_reducible apply Dev.onlyIn_refl
    | (with_reducible apply Dev.onlyIn_via (Dev.stopAll_onlyIn _)) <;> [decide; skip]
    | (with_reducible apply Dev.onlyIn_via (Dev.updFh_onlyIn _ _)) <;> [decide; skip]

theorem Dev.offRequest_onlyIn (d : Dev) : Dev.onlyIn [.stat, .rails, .units, .inj, .fh] d (Dev.offRequest d) := by
  unfold Dev.offRequest
  repeat' first
    | with_reducible apply Dev.onlyIn_refl
    | with_reducible assumption
    | (with_reducible apply Dev.onlyIn_via (Dev.stopAll_onlyIn _)) <;> [decide; skip]
    | (with_reducible apply Dev.onlyIn_via (Dev.updFh_onlyIn _ _)) <;> [decide; skip]
    | (with_reducible apply Dev.onlyIn_via (Dev.dropWaiting_onlyIn _)) <;> [decide; skip]
    | (with_reducible apply Dev.onlyIn_via (Dev.drained_onlyIn _)) <;> [decide; skip]
    | (extract_lets +onlyGivenNames x; refine Dev.onlyIn_cut x ?_ ?_ <;> [(dsimp -zeta -proj only [x]; clear x); (intro _; clear_value x; revert x; intros)])
    | (with_reducible apply Dev.onlyIn_ite)
    | split

theorem Dev.forcedOff_onlyIn (d : Dev) (src : ℕ) : Dev.onlyIn [.stat, .rails, .units, .inj, .fh] d (Dev.forcedOff d src) := by
  unfold Dev.forcedOff
  repeat' first
    | with_reducible apply Dev.onlyIn_refl
    | with_reducible assumption
    | (with_reducible apply Dev.onlyIn_then (foldN_onlyIn _ _ _ ?_)) <;> [skip; (intro _ _ )]
    | (with_reducible apply Dev.onlyIn_via (Dev.railOff_onlyIn _ _)) <;> [decide; skip]
    | (with_reducible apply Dev.onlyIn_via (Dev.updMbr_onlyIn _ _ _)) <;> [decide; skip]
    | (with_reducible apply Dev.onlyIn_via (Dev.updFh_onlyIn _ _)) <;> [decide; skip]
    | (with_reducible apply Dev.onlyIn_via (Dev.stopAll_onlyIn _)) <;> [decide; skip]
    | (with_reducible apply Dev.onlyIn_via (Dev.occur_onlyIn _ _ _)) <;> [decide; skip]
    | (with_reducible apply Dev.onlyIn_via (Dev.dropWaiting_onlyIn _)) <;> [decide; skip]
    | (extract_lets +onlyGivenNames x; refine Dev.onlyIn_cut x ?_ ?_ <;> [(dsimp -zeta -proj only [x]; clear x); (intro _; clear_value x; revert x; intros)])
    | (with_reducible apply Dev.onlyIn_ite)

theorem Dev.mbrTick_onlyIn (d : Dev) (i : ℕ) : Dev.onlyIn [.stat, .rails, .units, .inj, .feedA, .feedB, .xfer, .fh, .bbus] d (Dev.mbrTick d i) := by
  unfold Dev.mbrTick
  repeat' first
    | with_reducible apply Dev.onlyIn_refl
    | with_reducible assumption
    | (with_reducible apply Dev.onlyIn_via (Dev.updMbr_onlyIn _ _ _)) <;> [decide; skip]
    | (with_reducible apply Dev.onlyIn_via (Dev.failOwn_onlyIn _ _ _)) <;> [decide; skip]
    | (with_reducible apply Dev.onlyIn_via (Dev.occur_onlyIn _ _ _)) <;> [decide; skip]
    | (extract_lets +onlyGivenNames x; refine Dev.onlyIn_cut x ?_ ?_ <;> [(dsimp -zeta -proj only [x]; clear x); (intro _; clear_value x; revert x; intros)])
    | (extract_lets +onlyGivenNames x; clear_value x; revert x; intros)
    | (with_reducible apply Dev.onlyIn_ite)
    | split

theorem Dev.resume_onlyIn (d : Dev) (f : ℕ) : Dev.onlyIn [.fh] d (Dev.resume d f) := by
  unfold Dev.resume
  repeat' first
    | with_reducible apply Dev.onlyIn_refl
    | (with_reducible apply Dev.onlyIn_then (foldN_onlyIn _ _ _ ?_)) <;> [skip; (intro _ _ )]
    | (with_reducible apply Dev.onlyIn_via (Dev.updMbr_onlyIn _ _ _)) <;> [decide; skip]
    | (with_reducible apply Dev.onlyIn_ite)

theorem Dev.resumeTick_onlyIn (d : Dev) : Dev.onlyIn [.fh] d (Dev.resumeTick d) := by
  unfold Dev.resumeTick
  repeat' first
    | with_reducible apply Dev.onlyIn_refl
    | (with_reducible apply Dev.onlyIn_then (foldN_onlyIn _ _ _ ?_)) <;> [skip; (intro _ _ )]
    | (with_reducible apply Dev.onlyIn_via (Dev.resume_onlyIn _ _)) <;> [decide; skip]
    | (with_reducible apply Dev.onlyIn_ite)

theorem Dev.fhTick_onlyIn (d : Dev) : Dev.onlyIn [.stat, .rails, .units, .inj, .feedA, .feedB, .xfer, .fh, .bbus] d (Dev.fhTick d) := by
  unfold Dev.fhTick
  repeat' first
    | with_reducible apply Dev.onlyIn_refl
    | (with_reducible apply Dev.onlyIn_via (Dev.resumeTick_onlyIn _)) <;> [decide; skip]
    | (with_reducible apply Dev.onlyIn_then (foldN_onlyIn _ _ _ ?_)) <;> [skip; (intro _ _ )]
    | (with_reducible apply Dev.onlyIn_via (Dev.mbrTick_onlyIn _ _)) <;> [decide; skip]
    | (with_reducible apply Dev.onlyIn_via (Dev.updFh_onlyIn _ _)) <;> [decide; skip]
    | (with_reducible apply Dev.onlyIn_via (Dev.shelfUp_onlyIn _)) <;> [decide; skip]

theorem Dev.afterFail_onlyIn (d : Dev) : Dev.onlyIn [.stat, .rails, .units, .inj, .fh] d (Dev.afterFail d) := by
  unfold Dev.afterFail
  repeat' first
    | with_reducible apply Dev.onlyIn_refl
    | (with_reducible apply Dev.onlyIn_via (Dev.drained_onlyIn _)) <;> [decide; skip]
    | (with_reducible apply Dev.onlyIn_via (Dev.shelfUp_onlyIn _)) <;> [decide; skip]
    | (with_reducible apply Dev.onlyIn_ite)

theorem Dev.memberStopped_onlyIn (d : Dev) (i : ℕ) : Dev.onlyIn [.stat, .rails, .units, .inj, .fh] d (Dev.memberStopped d i) := by
  unfold Dev.memberStopped
  repeat' first
    | with_reducible apply Dev.onlyIn_refl
    | (with_reducible apply Dev.onlyIn_via (Dev.updMbr_onlyIn _ _ _)) <;> [decide; skip]
    | (with_reducible apply Dev.onlyIn_via (Dev.updFh_onlyIn _ _)) <;> [decide; skip]
    | (with_reducible apply Dev.onlyIn_via (Dev.stopsDone_onlyIn _)) <;> [decide; skip]
    | (with_reducible apply Dev.onlyIn_via (Dev.stopNext_onlyIn _ _)) <;> [decide; skip]

theorem Dev.fhClear_onlyIn (d : Dev) (mask : ℕ) : Dev.onlyIn [.stat, .rails, .units, .inj, .feedA, .feedB, .xfer, .fh, .bbus] d (Dev.fhClear d mask) := by
  unfold Dev.fhClear
  repeat' first
    | with_reducible apply Dev.onlyIn_refl
    | with_reducible assumption
    | (with_reducible apply Dev.onlyIn_then (foldN_onlyIn _ _ _ ?_)) <;> [skip; (intro _ _ )]
    | (with_reducible apply Dev.onlyIn_via (Dev.updStat_onlyIn _ _ _)) <;> [decide; skip]
    | (with_reducible apply Dev.onlyIn_via (Dev.updFh_onlyIn _ _)) <;> [decide; skip]
    | (with_reducible apply Dev.onlyIn_via (Dev.outOff_onlyIn _ _)) <;> [decide; skip]
    | (with_reducible apply Dev.onlyIn_via (Dev.updMbr_onlyIn _ _ _)) <;> [decide; skip]
    | (extract_lets +onlyGivenNames x; refine Dev.onlyIn_cut x ?_ ?_ <;> [(dsimp -zeta -proj only [x]; clear x); (intro _; clear_value x; revert x; intros)])
    | (with_reducible apply Dev.onlyIn_ite)

theorem Dev.feedFaultRaw_onlyIn (d : Dev) (f : FeedId) (bit : ℕ) : Dev.onlyIn [.stat, .feedA, .feedB, .fh] d (Dev.feedFaultRaw d f bit) := by
  unfold Dev.feedFaultRaw
  repeat' first
    | with_reducible apply Dev.onlyIn_refl
    | (with_reducible apply Dev.onlyIn_via (Dev.updFeed_onlyIn _ _ _)) <;> [decide; skip]
    | (with_reducible apply Dev.onlyIn_via (Dev.memberBlockFault_onlyIn _ _)) <;> [decide; skip]
    | (with_reducible apply Dev.onlyIn_via (Dev.occur_onlyIn _ _ _)) <;> [decide; skip]

theorem Dev.feedFault_onlyIn (d : Dev) (f : FeedId) (bit : ℕ) : Dev.onlyIn [.stat, .feedA, .feedB, .xfer, .fh] d (Dev.feedFault d f bit) := by
  unfold Dev.feedFault
  repeat' first
    | with_reducible apply Dev.onlyIn_refl
    | (with_reducible apply Dev.onlyIn_via (Dev.targetLost_onlyIn _ _)) <;> [decide; skip]
    | (with_reducible apply Dev.onlyIn_via (Dev.feedFaultRaw_onlyIn _ _ _)) <;> [decide; skip]

theorem Dev.turnOn_onlyIn (d : Dev) (f : FeedId) : Dev.onlyIn [.feedA, .feedB, .xfer] d (Dev.turnOn d f) := by
  unfold Dev.turnOn
  repeat' first
    | with_reducible apply Dev.onlyIn_refl
    | (with_reducible apply Dev.onlyIn_via (Dev.updXfer_onlyIn _ _)) <;> [decide; skip]
    | (with_reducible apply Dev.onlyIn_via (Dev.updFeed_onlyIn _ _ _)) <;> [decide; skip]

theorem Dev.freezeBegin_onlyIn (d : Dev) : Dev.onlyIn [.adm] d (Dev.freezeBegin d) := by
  unfold Dev.freezeBegin
  repeat' first
    | with_reducible apply Dev.onlyIn_refl
    | (with_reducible apply Dev.onlyIn_via (Dev.updLed_onlyIn _ _)) <;> [decide; skip]

theorem Dev.startTransfer_onlyIn (d : Dev) (old : FeedId) : Dev.onlyIn [.stat, .adm, .feedA, .feedB, .xfer] d (Dev.startTransfer d old) := by
  unfold Dev.startTransfer
  repeat' first
    | with_reducible apply Dev.onlyIn_refl
    | (with_reducible apply Dev.onlyIn_via (Dev.targetLost_onlyIn _ _)) <;> [decide; skip]
    | (with_reducible apply Dev.onlyIn_via (Dev.feedPark_onlyIn _ _)) <;> [decide; skip]
    | (with_reducible apply Dev.onlyIn_via (Dev.xferFail_onlyIn _ _)) <;> [decide; skip]
    | (with_reducible apply Dev.onlyIn_via (Dev.freezeBegin_onlyIn _)) <;> [decide; skip]
    | (with_reducible apply Dev.onlyIn_via (Dev.updXfer_onlyIn _ _)) <;> [decide; skip]
    | (with_reducible apply Dev.onlyIn_ite)

theorem Dev.startInsertion_onlyIn (d : Dev) (f : FeedId) : Dev.onlyIn [.adm, .feedA, .feedB, .xfer] d (Dev.startInsertion d f) := by
  unfold Dev.startInsertion
  repeat' first
    | with_reducible apply Dev.onlyIn_refl
    | (with_reducible apply Dev.onlyIn_via (Dev.updXfer_onlyIn _ _)) <;> [decide; skip]
    | (with_reducible apply Dev.onlyIn_via (Dev.freezeBegin_onlyIn _)) <;> [decide; skip]
    | (with_reducible apply Dev.onlyIn_via (Dev.turnOn_onlyIn _ _)) <;> [decide; skip]
    | (with_reducible apply Dev.onlyIn_ite)

theorem Dev.feedMeasure_onlyIn (d : Dev) (f : FeedId) : Dev.onlyIn [.feedA, .feedB] d (Dev.feedMeasure d f) := by
  unfold Dev.feedMeasure
  repeat' first
    | with_reducible apply Dev.onlyIn_refl
    | (with_reducible apply Dev.onlyIn_via (Dev.updFeed_onlyIn _ _ _)) <;> [decide; skip]
    | (extract_lets +onlyGivenNames x; clear_value x; revert x; intros)
    | (with_reducible apply Dev.onlyIn_ite)

theorem Dev.feedJudge_onlyIn (d : Dev) (f : FeedId) : Dev.onlyIn [.stat, .feedA, .feedB, .xfer, .fh] d (Dev.feedJudge d f) := by
  unfold Dev.feedJudge
  repeat' first
    | with_reducible apply Dev.onlyIn_refl
    | (with_reducible apply Dev.onlyIn_via (Dev.feedFault_onlyIn _ _ _)) <;> [decide; skip]
    | (extract_lets +onlyGivenNames x; clear_value x; revert x; intros)
    | (with_reducible apply Dev.onlyIn_ite)

theorem Dev.feedOwn_onlyIn (d : Dev) (f : FeedId) : Dev.onlyIn [.feedA, .feedB] d (Dev.feedOwn d f) := by
  unfold Dev.feedOwn
  repeat' first
    | with_reducible apply Dev.onlyIn_refl
    | (with_reducible apply Dev.onlyIn_via (Dev.updFeed_onlyIn _ _ _)) <;> [decide; skip]

theorem Dev.feedAdopt_onlyIn (d : Dev) : Dev.onlyIn [.feedA, .feedB, .xfer] d (Dev.feedAdopt d) := by
  unfold Dev.feedAdopt
  repeat' first
    | with_reducible apply Dev.onlyIn_refl
    | (with_reducible apply Dev.onlyIn_via (Dev.updFeed_onlyIn _ _ _)) <;> [decide; skip]
    | (with_reducible apply Dev.onlyIn_via (Dev.updXfer_onlyIn _ _)) <;> [decide; skip]
    | (extract_lets +onlyGivenNames x; subst x; beta_reduce)
    | (with_reducible apply Dev.onlyIn_ite)

theorem Dev.feedUv_onlyIn (d : Dev) (f : FeedId) : Dev.onlyIn [.stat, .feedA, .feedB] d (Dev.feedUv d f) := by
  unfold Dev.feedUv
  repeat' first
    | with_reducible apply Dev.onlyIn_refl
    | (with_reducible apply Dev.onlyIn_via (Dev.updFeed_onlyIn _ _ _)) <;> [decide; skip]
    | (with_reducible apply Dev.onlyIn_via (Dev.occur_onlyIn _ _ _)) <;> [decide; skip]
    | (extract_lets +onlyGivenNames x; clear_value x; revert x; intros)
    | (with_reducible apply Dev.onlyIn_ite)

theorem Dev.noFeedTick_onlyIn (d : Dev) : Dev.onlyIn [.stat, .xfer] d (Dev.noFeedTick d) := by
  unfold Dev.noFeedTick
  repeat' first
    | with_reducible apply Dev.onlyIn_refl
    | (with_reducible apply Dev.onlyIn_via (Dev.occur_onlyIn _ _ _)) <;> [decide; skip]
    | (with_reducible apply Dev.onlyIn_via (Dev.updXfer_onlyIn _ _)) <;> [decide; skip]
    | (with_reducible apply Dev.onlyIn_ite)

theorem Dev.feedTick_onlyIn (d : Dev) : Dev.onlyIn [.stat, .feedA, .feedB, .xfer, .fh] d (Dev.feedTick d) := by
  unfold Dev.feedTick
  repeat' first
    | with_reducible apply Dev.onlyIn_refl
    | (with_reducible apply Dev.onlyIn_via (Dev.updXfer_onlyIn _ _)) <;> [decide; skip]
    | (with_reducible apply Dev.onlyIn_via (Dev.feedMeasure_onlyIn _ _)) <;> [decide; skip]
    | (with_reducible apply Dev.onlyIn_via (Dev.feedAdopt_onlyIn _)) <;> [decide; skip]
    | (with_reducible apply Dev.onlyIn_via (Dev.feedOwn_onlyIn _ _)) <;> [decide; skip]
    | (with_reducible apply Dev.onlyIn_via (Dev.feedJudge_onlyIn _ _)) <;> [decide; skip]
    | (with_reducible apply Dev.onlyIn_via (Dev.feedPlainOff_onlyIn _)) <;> [decide; skip]
    | (with_reducible apply Dev.onlyIn_via (Dev.noFeedTick_onlyIn _)) <;> [decide; skip]
    | (with_reducible apply Dev.onlyIn_via (Dev.feedUv_onlyIn _ _)) <;> [decide; skip]
    | (with_reducible apply Dev.onlyIn_ite)

theorem Dev.hsFault_onlyIn (d : Dev) (r bit : ℕ) : Dev.onlyIn [.stat, .rails, .units, .inj, .hs, .fh] d (Dev.hsFault d r bit) := by
  unfold Dev.hsFault
  repeat' first
    | with_reducible apply Dev.onlyIn_refl
    | (with_reducible apply Dev.onlyIn_via (Dev.tripRailBy_onlyIn _ _ _ _)) <;> [decide; skip]
    | (with_reducible apply Dev.onlyIn_via (Dev.updHs_onlyIn _ _ _)) <;> [decide; skip]

theorem Dev.hsTrip_onlyIn (d : Dev) (r bit : ℕ) : Dev.onlyIn [.stat, .rails, .units, .inj, .hs, .fh] d (Dev.hsTrip d r bit) := by
  unfold Dev.hsTrip
  repeat' first
    | with_reducible apply Dev.onlyIn_refl
    | (with_reducible apply Dev.onlyIn_via (Dev.hsFault_onlyIn _ _ _)) <;> [decide; skip]
    | (with_reducible apply Dev.onlyIn_via (Dev.updHs_onlyIn _ _ _)) <;> [decide; skip]

theorem Dev.hsTick_onlyIn (d : Dev) (r : ℕ) : Dev.onlyIn [.stat, .rails, .units, .inj, .hs, .fh] d (Dev.hsTick d r) := by
  unfold Dev.hsTick
  repeat' first
    | with_reducible apply Dev.onlyIn_refl
    | with_reducible assumption
    | (with_reducible apply Dev.onlyIn_via (Dev.railOn_onlyIn _ _)) <;> [decide; skip]
    | (with_reducible apply Dev.onlyIn_via (Dev.updHs_onlyIn _ _ _)) <;> [decide; skip]
    | (with_reducible apply Dev.onlyIn_via (Dev.hsTrip_onlyIn _ _ _)) <;> [decide; skip]
    | (extract_lets +onlyGivenNames x; refine Dev.onlyIn_cut x ?_ ?_ <;> [(dsimp -zeta -proj only [x]; clear x); (intro _; clear_value x; revert x; intros)])
    | (extract_lets +onlyGivenNames x; clear_value x; revert x; intros)
    | (with_reducible apply Dev.onlyIn_ite)

theorem Dev.takeSwitches_onlyIn (d : Dev) : Dev.onlyIn [.feedA, .feedB, .hs] d (Dev.takeSwitches d) := by
  unfold Dev.takeSwitches
  repeat' first
    | with_reducible apply Dev.onlyIn_refl
    | (fail_if_success with_reducible apply Dev.onlyIn_put_dma); (with_reducible apply Dev.onlyIn_put_feedA_feedB_hs) <;> [skip; decide; decide; decide]
    | (extract_lets +onlyGivenNames x; clear_value x; revert x; intros)
    | (with_reducible apply Dev.onlyIn_ite)

theorem Dev.judgeSwitches_onlyIn (d : Dev) : Dev.onlyIn [.stat, .rails, .units, .inj, .feedA, .feedB, .xfer, .hs, .fh] d (Dev.judgeSwitches d) := by
  unfold Dev.judgeSwitches
  repeat' first
    | with_reducible apply Dev.onlyIn_refl
    | (with_reducible apply Dev.onlyIn_then (foldN_onlyIn _ _ _ ?_)) <;> [skip; (intro _ _ )]
    | (with_reducible apply Dev.onlyIn_via (Dev.hsTrip_onlyIn _ _ _)) <;> [decide; skip]
    | (with_reducible apply Dev.onlyIn_via (Dev.feedJudge_onlyIn _ _)) <;> [decide; skip]
    | (extract_lets +onlyGivenNames x; clear_value x; revert x; intros)
    | (with_reducible apply Dev.onlyIn_ite)

theorem Dev.applyFeedGates_onlyIn (d : Dev) (ca cb : Bool) : Dev.onlyIn [.feedA, .feedB, .xfer] d (Dev.applyFeedGates d ca cb) := by
  unfold Dev.applyFeedGates
  repeat' first
    | with_reducible apply Dev.onlyIn_refl
    | (fail_if_success with_reducible apply Dev.onlyIn_put_dma); (with_reducible apply Dev.onlyIn_put_feedA_feedB_xfer) <;> [skip; decide; decide; decide]

theorem Dev.applyHsGate_onlyIn (d : Dev) (r : ℕ) (c : Bool) : Dev.onlyIn [.hs] d (Dev.applyHsGate d r c) := by
  unfold Dev.applyHsGate
  repeat' first
    | with_reducible apply Dev.onlyIn_refl
    | (with_reducible apply Dev.onlyIn_via (Dev.updHs_onlyIn _ _ _)) <;> [decide; skip]

theorem Dev.latchSwitches_onlyIn (d : Dev) (i : TickIn) : Dev.onlyIn [.feedA, .feedB, .xfer, .hs] d (Dev.latchSwitches d i) := by
  unfold Dev.latchSwitches
  repeat' first
    | with_reducible apply Dev.onlyIn_refl
    | (fail_if_success with_reducible apply Dev.onlyIn_put_dma); (with_reducible apply Dev.onlyIn_put_feedA_feedB_xfer_hs) <;> [skip; decide; decide; decide; decide]

theorem Dev.bbuPut_onlyIn (d : Dev) (m : ℕ) (x : BbuRec) : Dev.onlyIn [.nv, .bbus, .therm] d (Dev.bbuPut d m x) := by
  unfold Dev.bbuPut
  repeat' first
    | with_reducible apply Dev.onlyIn_refl
    | (with_reducible apply Dev.onlyIn_via (Dev.ringPut_onlyIn _ _ _)) <;> [decide; skip]
    | (with_reducible apply Dev.onlyIn_via (Dev.updBbu_onlyIn _ _ _)) <;> [decide; skip]

theorem Dev.bbuStore_onlyIn (d : Dev) (m : ℕ) : Dev.onlyIn [.nv, .bbus, .therm] d (Dev.bbuStore d m) := by
  unfold Dev.bbuStore
  repeat' first
    | with_reducible apply Dev.onlyIn_refl
    | (with_reducible apply Dev.onlyIn_via (Dev.bbuPut_onlyIn _ _ _)) <;> [decide; skip]

theorem Dev.learnDq_onlyIn (d : Dev) (m code : ℕ) : Dev.onlyIn [.stat, .nv, .bbus, .therm] d (Dev.learnDq d m code) := by
  unfold Dev.learnDq
  repeat' first
    | with_reducible apply Dev.onlyIn_refl
    | (with_reducible apply Dev.onlyIn_via (Dev.bbuStore_onlyIn _ _)) <;> [decide; skip]
    | (with_reducible apply Dev.onlyIn_via (Dev.occur_onlyIn _ _ _)) <;> [decide; skip]
    | (with_reducible apply Dev.onlyIn_via (Dev.updBbu_onlyIn _ _ _)) <;> [decide; skip]
    | (with_reducible apply Dev.onlyIn_ite)

theorem Dev.learnDone_onlyIn (d : Dev) (m : ℕ) : Dev.onlyIn [.stat, .nv, .bbus, .therm] d (Dev.learnDone d m) := by
  unfold Dev.learnDone
  repeat' first
    | with_reducible apply Dev.onlyIn_refl
    | with_reducible assumption
    | (with_reducible apply Dev.onlyIn_via (Dev.learnDq_onlyIn _ _ _)) <;> [decide; skip]
    | (with_reducible apply Dev.onlyIn_via (Dev.updBbu_onlyIn _ _ _)) <;> [decide; skip]
    | (with_reducible apply Dev.onlyIn_via (Dev.occur_onlyIn _ _ _)) <;> [decide; skip]
    | (with_reducible apply Dev.onlyIn_via (Dev.bbuStore_onlyIn _ _)) <;> [decide; skip]
    | (extract_lets +onlyGivenNames x; refine Dev.onlyIn_cut x ?_ ?_ <;> [(dsimp -zeta -proj only [x]; clear x); (intro _; clear_value x; revert x; intros)])
    | (extract_lets +onlyGivenNames x; clear_value x; revert x; intros)
    | (with_reducible apply Dev.onlyIn_ite)

theorem Dev.bbuStart_onlyIn (d : Dev) (m : ℕ) : Dev.onlyIn [.bbus] d (Dev.bbuStart d m) := by
  unfold Dev.bbuStart
  repeat' first
    | with_reducible apply Dev.onlyIn_refl
    | (with_reducible apply Dev.onlyIn_via (Dev.updBbu_onlyIn _ _ _)) <;> [decide; skip]

theorem Dev.bbuIdentify_onlyIn (d : Dev) (m : ℕ) (fresh : Bool) : Dev.onlyIn [.stat, .nv, .bbus, .therm] d (Dev.bbuIdentify d m fresh) := by
  unfold Dev.bbuIdentify
  repeat' first
    | with_reducible apply Dev.onlyIn_refl
    | with_reducible assumption
    | (with_reducible apply Dev.onlyIn_via (Dev.updBbu_onlyIn _ _ _)) <;> [decide; skip]
    | (with_reducible apply Dev.onlyIn_via (Dev.bbuStore_onlyIn _ _)) <;> [decide; skip]
    | (with_reducible apply Dev.onlyIn_via (Dev.occur_onlyIn _ _ _)) <;> [decide; skip]
    | (extract_lets +onlyGivenNames x; refine Dev.onlyIn_cut x ?_ ?_ <;> [(dsimp -zeta -proj only [x]; clear x); (intro _; clear_value x; revert x; intros)])
    | (extract_lets +onlyGivenNames x; clear_value x; revert x; intros)
    | (with_reducible apply Dev.onlyIn_ite)
    | split

theorem Dev.bbuRemove_onlyIn (d : Dev) (m : ℕ) : Dev.onlyIn [.stat, .nv, .bbus, .therm] d (Dev.bbuRemove d m) := by
  unfold Dev.bbuRemove
  repeat' first
    | with_reducible apply Dev.onlyIn_refl
    | (with_reducible apply Dev.onlyIn_via (Dev.learnDq_onlyIn _ _ _)) <;> [decide; skip]
    | (with_reducible apply Dev.onlyIn_via (Dev.occur_onlyIn _ _ _)) <;> [decide; skip]
    | (with_reducible apply Dev.onlyIn_via (Dev.updBbu_onlyIn _ _ _)) <;> [decide; skip]

theorem Dev.accModule_onlyIn (d : Dev) (m : ℕ) : Dev.onlyIn [.bbus] d (Dev.accModule d m) := by
  unfold Dev.accModule
  repeat' first
    | with_reducible apply Dev.onlyIn_refl
    | (with_reducible apply Dev.onlyIn_via (Dev.updBbu_onlyIn _ _ _)) <;> [decide; skip]
    | (extract_lets +onlyGivenNames x; clear_value x; revert x; intros)
    | (with_reducible apply Dev.onlyIn_ite)

theorem Dev.accTick_onlyIn (d : Dev) (fired : Bool) : Dev.onlyIn [.bbus] d (Dev.accTick d fired) := by
  unfold Dev.accTick
  repeat' first
    | with_reducible apply Dev.onlyIn_refl
    | (with_reducible apply Dev.onlyIn_then (foldN_onlyIn _ _ _ ?_)) <;> [skip; (intro _ _ )]
    | (with_reducible apply Dev.onlyIn_via (Dev.accModule_onlyIn _ _)) <;> [decide; skip]
    | (with_reducible apply Dev.onlyIn_via (Dev.updBbu_onlyIn _ _ _)) <;> [decide; skip]
    | (with_reducible apply Dev.onlyIn_ite)

theorem Dev.bbuSupv_onlyIn (d : Dev) : Dev.onlyIn [.bbus] d (Dev.bbuSupv d) := by
  unfold Dev.bbuSupv
  repeat' first
    | with_reducible apply Dev.onlyIn_refl
    | (with_reducible apply Dev.onlyIn_then (foldN_onlyIn _ _ _ ?_)) <;> [skip; (intro _ _ )]
    | (with_reducible apply Dev.onlyIn_via (Dev.updBbu_onlyIn _ _ _)) <;> [decide; skip]

theorem Dev.battTick_onlyIn (d : Dev) : Dev.onlyIn [.adm] d (Dev.battTick d) := by
  unfold Dev.battTick
  repeat' first
    | with_reducible apply Dev.onlyIn_refl
    | (with_reducible apply Dev.onlyIn_via (Dev.updLed_onlyIn _ _)) <;> [decide; skip]

theorem Dev.auxDone_onlyIn (d : Dev) (a : ℕ) : Dev.onlyIn [.stat, .nv, .bbus, .therm] d (Dev.auxDone d a) := by
  unfold Dev.auxDone
  repeat' first
    | with_reducible apply Dev.onlyIn_refl
    | with_reducible assumption
    | (with_reducible apply Dev.onlyIn_then (foldN_onlyIn _ _ _ ?_)) <;> [skip; (intro _ _ )]
    | (with_reducible apply Dev.onlyIn_via (Dev.updBbu_onlyIn _ _ _)) <;> [decide; skip]
    | (with_reducible apply Dev.onlyIn_via (Dev.occur_onlyIn _ _ _)) <;> [decide; skip]
    | (with_reducible apply Dev.onlyIn_via (Dev.bbuIdentify_onlyIn _ _ _)) <;> [decide; skip]
    | (extract_lets +onlyGivenNames x; refine Dev.onlyIn_cut x ?_ ?_ <;> [(dsimp -zeta -proj only [x]; clear x); (intro _; clear_value x; revert x; intros)])
    | (extract_lets +onlyGivenNames x; clear_value x; revert x; intros)
    | (with_reducible apply Dev.onlyIn_ite)

theorem Dev.bbuMeans_onlyIn (d : Dev) (m : ℕ) : Dev.onlyIn [.stat, .nv, .bbus, .therm] d (Dev.bbuMeans d m) := by
  unfold Dev.bbuMeans
  repeat' first
    | with_reducible apply Dev.onlyIn_refl
    | with_reducible assumption
    | (with_reducible apply Dev.onlyIn_via (Dev.updBbu_onlyIn _ _ _)) <;> [decide; skip]
    | (with_reducible apply Dev.onlyIn_via (Dev.learnDq_onlyIn _ _ _)) <;> [decide; skip]
    | (extract_lets +onlyGivenNames x; refine Dev.onlyIn_cut x ?_ ?_ <;> [(dsimp -zeta -proj only [x]; clear x); (intro _; clear_value x; revert x; intros)])
    | (extract_lets +onlyGivenNames x; clear_value x; revert x; intros)
    | (with_reducible apply Dev.onlyIn_ite)

theorem Dev.bbuTemp_onlyIn (d : Dev) (m : ℕ) : Dev.onlyIn [.stat, .nv, .bbus, .therm] d (Dev.bbuTemp d m) := by
  unfold Dev.bbuTemp
  repeat' first
    | with_reducible apply Dev.onlyIn_refl
    | with_reducible assumption
    | (with_reducible apply Dev.onlyIn_via (Dev.occur_onlyIn _ _ _)) <;> [decide; skip]
    | (with_reducible apply Dev.onlyIn_via (Dev.updBbu_onlyIn _ _ _)) <;> [decide; skip]
    | (with_reducible apply Dev.onlyIn_via (Dev.learnDq_onlyIn _ _ _)) <;> [decide; skip]
    | (extract_lets +onlyGivenNames x; refine Dev.onlyIn_cut x ?_ ?_ <;> [(dsimp -zeta -proj only [x]; clear x); (intro _; clear_value x; revert x; intros)])
    | (extract_lets +onlyGivenNames x; clear_value x; revert x; intros)
    | (with_reducible apply Dev.onlyIn_ite)

theorem Dev.bbuAnchor_onlyIn (d : Dev) (m : ℕ) : Dev.onlyIn [.stat, .nv, .bbus, .therm] d (Dev.bbuAnchor d m) := by
  unfold Dev.bbuAnchor
  repeat' first
    | with_reducible apply Dev.onlyIn_refl
    | with_reducible assumption
    | (with_reducible apply Dev.onlyIn_via (Dev.learnDone_onlyIn _ _)) <;> [decide; skip]
    | (with_reducible apply Dev.onlyIn_via (Dev.updBbu_onlyIn _ _ _)) <;> [decide; skip]
    | (with_reducible apply Dev.onlyIn_via (Dev.bbuStore_onlyIn _ _)) <;> [decide; skip]
    | (extract_lets +onlyGivenNames x; refine Dev.onlyIn_cut x ?_ ?_ <;> [(dsimp -zeta -proj only [x]; clear x); (intro _; clear_value x; revert x; intros)])
    | (extract_lets +onlyGivenNames x; clear_value x; revert x; intros)
    | (with_reducible apply Dev.onlyIn_ite)

theorem Dev.bbuCharge_onlyIn (d : Dev) (m : ℕ) : Dev.onlyIn [.stat, .bbus] d (Dev.bbuCharge d m) := by
  unfold Dev.bbuCharge
  repeat' first
    | with_reducible apply Dev.onlyIn_refl
    | (with_reducible apply Dev.onlyIn_via (Dev.occur_onlyIn _ _ _)) <;> [decide; skip]
    | (with_reducible apply Dev.onlyIn_via (Dev.updBbu_onlyIn _ _ _)) <;> [decide; skip]
    | (with_reducible apply Dev.onlyIn_ite)

theorem Dev.bbuAllow_onlyIn (d : Dev) (m : ℕ) : Dev.onlyIn [.bbus] d (Dev.bbuAllow d m) := by
  unfold Dev.bbuAllow
  repeat' first
    | with_reducible apply Dev.onlyIn_refl
    | (with_reducible apply Dev.onlyIn_via (Dev.updBbu_onlyIn _ _ _)) <;> [decide; skip]

theorem Dev.bbuTerm_onlyIn (d : Dev) (m : ℕ) : Dev.onlyIn [.bbus] d (Dev.bbuTerm d m) := by
  unfold Dev.bbuTerm
  repeat' first
    | with_reducible apply Dev.onlyIn_refl
    | (with_reducible apply Dev.onlyIn_via (Dev.updBbu_onlyIn _ _ _)) <;> [decide; skip]

theorem Dev.bbuRatedFrond_onlyIn (d : Dev) (m : ℕ) : Dev.onlyIn [.bbus] d (Dev.bbuRatedFrond d m) := by
  unfold Dev.bbuRatedFrond
  repeat' first
    | with_reducible apply Dev.onlyIn_refl
    | (with_reducible apply Dev.onlyIn_via (Dev.updBbu_onlyIn _ _ _)) <;> [decide; skip]
    | (with_reducible apply Dev.onlyIn_ite)

theorem Dev.bbuClassFrond_onlyIn (d : Dev) (m : ℕ) : Dev.onlyIn [.stat] d (Dev.bbuClassFrond d m) := by
  unfold Dev.bbuClassFrond
  repeat' first
    | with_reducible apply Dev.onlyIn_refl
    | (with_reducible apply Dev.onlyIn_via (Dev.occur_onlyIn _ _ _)) <;> [decide; skip]
    | (with_reducible apply Dev.onlyIn_ite)

theorem Dev.bbuFrond_onlyIn (d : Dev) : Dev.onlyIn [.stat, .nv, .bbus, .therm] d (Dev.bbuFrond d) := by
  unfold Dev.bbuFrond
  repeat' first
    | with_reducible apply Dev.onlyIn_refl
    | with_reducible assumption
    | (with_reducible apply Dev.onlyIn_then (foldN_onlyIn _ _ _ ?_)) <;> [skip; (intro _ _ )]
    | (with_reducible apply Dev.onlyIn_via (Dev.bbuRatedFrond_onlyIn _ _)) <;> [decide; skip]
    | (with_reducible apply Dev.onlyIn_via (Dev.updBbu_onlyIn _ _ _)) <;> [decide; skip]
    | (with_reducible apply Dev.onlyIn_via (Dev.bbuClassFrond_onlyIn _ _)) <;> [decide; skip]
    | (with_reducible apply Dev.onlyIn_via (Dev.bbuAllow_onlyIn _ _)) <;> [decide; skip]
    | (with_reducible apply Dev.onlyIn_via (Dev.bbuCharge_onlyIn _ _)) <;> [decide; skip]
    | (with_reducible apply Dev.onlyIn_via (Dev.bbuAnchor_onlyIn _ _)) <;> [decide; skip]
    | (with_reducible apply Dev.onlyIn_via (Dev.bbuTerm_onlyIn _ _)) <;> [decide; skip]
    | (with_reducible apply Dev.onlyIn_via (Dev.bbuTemp_onlyIn _ _)) <;> [decide; skip]
    | (with_reducible apply Dev.onlyIn_via (Dev.bbuMeans_onlyIn _ _)) <;> [decide; skip]
    | (extract_lets +onlyGivenNames x; refine Dev.onlyIn_cut x ?_ ?_ <;> [(dsimp -zeta -proj only [x]; clear x); (intro _; clear_value x; revert x; intros)])
    | (with_reducible apply Dev.onlyIn_ite)

theorem Dev.bbuFlush_onlyIn (d : Dev) : Dev.onlyIn [.nv, .bbus, .therm] d (Dev.bbuFlush d) := by
  unfold Dev.bbuFlush
  repeat' first
    | with_reducible apply Dev.onlyIn_refl
    | (with_reducible apply Dev.onlyIn_then (foldN_onlyIn _ _ _ ?_)) <;> [skip; (intro _ _ )]
    | (with_reducible apply Dev.onlyIn_via (Dev.updBbu_onlyIn _ _ _)) <;> [decide; skip]
    | (with_reducible apply Dev.onlyIn_via (Dev.bbuStore_onlyIn _ _)) <;> [decide; skip]
    | (with_reducible apply Dev.onlyIn_via (Dev.bbuPut_onlyIn _ _ _)) <;> [decide; skip]
    | (with_reducible apply Dev.onlyIn_foldl) <;> [(intro _ _); skip]
    | (with_reducible apply Dev.onlyIn_ite)

theorem Dev.updCtl_onlyIn (d : Dev) (f : TwinCtl → TwinCtl) : Dev.onlyIn [.twin] d (Dev.updCtl d f) := by
  unfold Dev.updCtl
  repeat' first
    | with_reducible apply Dev.onlyIn_refl
    | (fail_if_success with_reducible apply Dev.onlyIn_put_dma); (with_reducible apply Dev.onlyIn_put_twin) <;> [skip; decide]

theorem Dev.roleWrite_onlyIn (d : Dev) (t : Twin) : Dev.onlyIn [.nv, .therm] d (Dev.roleWrite d t) := by
  unfold Dev.roleWrite
  repeat' first
    | with_reducible apply Dev.onlyIn_refl
    | (with_reducible apply Dev.onlyIn_via (Dev.ringPut_onlyIn _ _ _)) <;> [decide; skip]

theorem Dev.makeActive_onlyIn (d : Dev) (t : Twin) : Dev.onlyIn [.stat, .twin, .nv, .therm] d (Dev.makeActive d t) := by
  unfold Dev.makeActive
  repeat' first
    | with_reducible apply Dev.onlyIn_refl
    | (with_reducible apply Dev.onlyIn_via (Dev.occur_onlyIn _ _ _)) <;> [decide; skip]
    | (with_reducible apply Dev.onlyIn_via (Dev.roleWrite_onlyIn _ _)) <;> [decide; skip]
    | (with_reducible apply Dev.onlyIn_via (Dev.updTwin_onlyIn _ _ _)) <;> [decide; skip]

theorem Dev.passRole_onlyIn (d : Dev) (t : Twin) : Dev.onlyIn [.stat, .twin, .nv, .therm] d (Dev.passRole d t) := by
  unfold Dev.passRole
  repeat' first
    | with_reducible apply Dev.onlyIn_refl
    | (with_reducible apply Dev.onlyIn_via (Dev.makeActive_onlyIn _ _)) <;> [decide; skip]
    | (with_reducible apply Dev.onlyIn_via (Dev.updTwin_onlyIn _ _ _)) <;> [decide; skip]
    | (with_reducible apply Dev.onlyIn_ite)

theorem Dev.keepSram_onlyIn (d : Dev) (t : Twin) : Dev.onlyIn [.sramA, .sramB] d (Dev.keepSram d t) := by
  unfold Dev.keepSram
  repeat' first
    | with_reducible apply Dev.onlyIn_refl
    | (fail_if_success with_reducible apply Dev.onlyIn_put_dma); (with_reducible apply Dev.onlyIn_put_sramA) <;> [skip; decide]
    | (fail_if_success with_reducible apply Dev.onlyIn_put_dma); (with_reducible apply Dev.onlyIn_put_sramB) <;> [skip; decide]
    | (with_reducible apply Dev.onlyIn_ite)
    | split

theorem Dev.twinOut_onlyIn (d : Dev) (t : Twin) (auto : Bool) : Dev.onlyIn [.stat, .sramA, .sramB, .twin, .nv, .therm] d (Dev.twinOut d t auto) := by
  unfold Dev.twinOut
  repeat' first
    | with_reducible apply Dev.onlyIn_refl
    | (with_reducible apply Dev.onlyIn_via (Dev.passRole_onlyIn _ _)) <;> [decide; skip]
    | (with_reducible apply Dev.onlyIn_via (Dev.keepSram_onlyIn _ _)) <;> [decide; skip]
    | (with_reducible apply Dev.onlyIn_via (Dev.occur_onlyIn _ _ _)) <;> [decide; skip]
    | (with_reducible apply Dev.onlyIn_via (Dev.updTwin_onlyIn _ _ _)) <;> [decide; skip]

theorem Dev.setLocks_onlyIn (d : Dev) (t : Twin) (v : ℕ) : Dev.onlyIn [.time] d (Dev.setLocks d t v) := by
  unfold Dev.setLocks
  repeat' first
    | with_reducible apply Dev.onlyIn_refl
    | (fail_if_success with_reducible apply Dev.onlyIn_put_dma); (with_reducible apply Dev.onlyIn_put_time) <;> [skip; decide]
    | (extract_lets +onlyGivenNames x; clear_value x; revert x; intros)
    | (with_reducible apply Dev.onlyIn_ite)
    | split

theorem Dev.twinRestart_onlyIn (d : Dev) (t : Twin) : Dev.onlyIn [.sramA, .sramB, .twin] d (Dev.twinRestart d t) := by
  unfold Dev.twinRestart
  repeat' first
    | with_reducible apply Dev.onlyIn_refl
    | (with_reducible apply Dev.onlyIn_via (Dev.updTwin_onlyIn _ _ _)) <;> [decide; skip]
    | (with_reducible apply Dev.onlyIn_via (Dev.keepSram_onlyIn _ _)) <;> [decide; skip]

theorem Dev.quarantine_onlyIn (d : Dev) (t : Twin) (silent : Bool) : Dev.onlyIn [.stat, .sramA, .sramB, .twin, .nv, .therm] d (Dev.quarantine d t silent) := by
  unfold Dev.quarantine
  repeat' first
    | with_reducible apply Dev.onlyIn_refl
    | with_reducible assumption
    | (with_reducible apply Dev.onlyIn_via (Dev.occur_onlyIn _ _ _)) <;> [decide; skip]
    | (with_reducible apply Dev.onlyIn_via (Dev.passRole_onlyIn _ _)) <;> [decide; skip]
    | (with_reducible apply Dev.onlyIn_via (Dev.keepSram_onlyIn _ _)) <;> [decide; skip]
    | (with_reducible apply Dev.onlyIn_via (Dev.updTwin_onlyIn _ _ _)) <;> [decide; skip]
    | (with_reducible apply Dev.onlyIn_via (Dev.twinOut_onlyIn _ _ _)) <;> [decide; skip]
    | (with_reducible apply Dev.onlyIn_via (Dev.twinRestart_onlyIn _ _)) <;> [decide; skip]
    | (extract_lets +onlyGivenNames x; refine Dev.onlyIn_cut x ?_ ?_ <;> [(dsimp -zeta -proj only [x]; clear x); (intro _; clear_value x; revert x; intros)])
    | (extract_lets +onlyGivenNames x; clear_value x; revert x; intros)
    | (with_reducible apply Dev.onlyIn_ite)

theorem Dev.ruleApplies_onlyIn (d : Dev) (rule : ℕ) (t : Twin) (quar : Bool) (field : ℕ) : Dev.onlyIn [.stat, .sramA, .sramB, .twin, .nv, .therm] d (Dev.ruleApplies d rule t quar field) := by
  unfold Dev.ruleApplies
  repeat' first
    | with_reducible apply Dev.onlyIn_refl
    | with_reducible assumption
    | (with_reducible apply Dev.onlyIn_via (Dev.updCtl_onlyIn _ _)) <;> [decide; skip]
    | (with_reducible apply Dev.onlyIn_via (Dev.quarantine_onlyIn _ _ _)) <;> [decide; skip]
    | (extract_lets +onlyGivenNames x; refine Dev.onlyIn_cut x ?_ ?_ <;> [(dsimp -zeta -proj only [x]; clear x); (intro _; clear_value x; revert x; intros)])
    | (extract_lets +onlyGivenNames x; clear_value x; revert x; intros)
    | (with_reducible apply Dev.onlyIn_ite)

theorem Dev.twinCounts_onlyIn (d : Dev) : Dev.onlyIn [.stat, .twin] d (Dev.twinCounts d) := by
  unfold Dev.twinCounts
  repeat' first
    | with_reducible apply Dev.onlyIn_refl
    | with_reducible assumption
    | (with_reducible apply Dev.onlyIn_via (Dev.occur_onlyIn _ _ _)) <;> [decide; skip]
    | (with_reducible apply Dev.onlyIn_via (Dev.updCtl_onlyIn _ _)) <;> [decide; skip]
    | (with_reducible apply Dev.onlyIn_via (Dev.updTwin_onlyIn _ _ _)) <;> [decide; skip]
    | (with_reducible apply Dev.onlyIn_foldl) <;> [(intro _ _); skip]
    | (extract_lets +onlyGivenNames x; refine Dev.onlyIn_cut x ?_ ?_ <;> [(dsimp -zeta -proj only [x]; clear x); (intro _; clear_value x; revert x; intros)])
    | (extract_lets +onlyGivenNames x; clear_value x; revert x; intros)
    | (with_reducible apply Dev.onlyIn_ite)

theorem Dev.decideTick_onlyIn (d : Dev) : Dev.onlyIn [.stat, .sramA, .sramB, .twin, .nv, .therm] d (Dev.decideTick d) := by
  unfold Dev.decideTick
  repeat' first
    | with_reducible apply Dev.onlyIn_refl
    | with_reducible assumption
    | (with_reducible apply Dev.onlyIn_via (Dev.updCtl_onlyIn _ _)) <;> [decide; skip]
    | (with_reducible apply Dev.onlyIn_via (Dev.ruleApplies_onlyIn _ _ _ _ _)) <;> [decide; skip]
    | (with_reducible apply Dev.onlyIn_via (Dev.occur_onlyIn _ _ _)) <;> [decide; skip]
    | (with_reducible apply Dev.onlyIn_via (Dev.updTwin_onlyIn _ _ _)) <;> [decide; skip]
    | (extract_lets +onlyGivenNames x; refine Dev.onlyIn_cut x ?_ ?_ <;> [(dsimp -zeta -proj only [x]; clear x); (intro _; clear_value x; revert x; intros)])
    | (extract_lets +onlyGivenNames x; clear_value x; revert x; intros)
    | (with_reducible apply Dev.onlyIn_ite)

theorem Dev.countTwins_onlyIn (d : Dev) : Dev.onlyIn [.die, .stat, .twin] d (Dev.countTwins d) := by
  unfold Dev.countTwins
  repeat' first
    | with_reducible apply Dev.onlyIn_refl
    | (with_reducible apply Dev.onlyIn_via (Dev.twinCounts_onlyIn _)) <;> [decide; skip]
    | (fail_if_success with_reducible apply Dev.onlyIn_put_dma); (with_reducible apply Dev.onlyIn_put_die) <;> [skip; decide]
    | (extract_lets +onlyGivenNames x; clear_value x; revert x; intros)
    | (with_reducible apply Dev.onlyIn_ite)

theorem Dev.endTick_onlyIn (d : Dev) : Dev.onlyIn [.die, .stat, .sramA, .sramB, .twin, .nv, .therm] d (Dev.endTick d) := by
  unfold Dev.endTick
  repeat' first
    | with_reducible apply Dev.onlyIn_refl
    | with_reducible assumption
    | (with_reducible apply Dev.onlyIn_via (Dev.countTwins_onlyIn _)) <;> [decide; skip]
    | (with_reducible apply Dev.onlyIn_via (Dev.decideTick_onlyIn _)) <;> [decide; skip]
    | (fail_if_success with_reducible apply Dev.onlyIn_put_dma); (with_reducible apply Dev.onlyIn_put_die) <;> [skip; decide]
    | (extract_lets +onlyGivenNames x; refine Dev.onlyIn_cut x ?_ ?_ <;> [(dsimp -zeta -proj only [x]; clear x); (intro _; clear_value x; revert x; intros)])
    | (extract_lets +onlyGivenNames x; clear_value x; revert x; intros)
    | (with_reducible apply Dev.onlyIn_ite)

theorem Dev.tickHb_onlyIn (d : Dev) (t : Twin) (miss : Bool) : Dev.onlyIn [.twin] d (Dev.tickHb d t miss) := by
  unfold Dev.tickHb
  repeat' first
    | with_reducible apply Dev.onlyIn_refl
    | (with_reducible apply Dev.onlyIn_via (Dev.updTwin_onlyIn _ _ _)) <;> [decide; skip]
    | (with_reducible apply Dev.onlyIn_ite)

theorem Dev.frondHb_onlyIn (d : Dev) (t : Twin) (ok : Bool) : Dev.onlyIn [.twin] d (Dev.frondHb d t ok) := by
  unfold Dev.frondHb
  repeat' first
    | with_reducible apply Dev.onlyIn_refl
    | (with_reducible apply Dev.onlyIn_via (Dev.updTwin_onlyIn _ _ _)) <;> [decide; skip]
    | (with_reducible apply Dev.onlyIn_ite)

theorem Dev.twinFrond_onlyIn (d : Dev) (hbA hbB : Bool) : Dev.onlyIn [.stat, .twin, .nv, .therm] d (Dev.twinFrond d hbA hbB) := by
  unfold Dev.twinFrond
  repeat' first
    | with_reducible apply Dev.onlyIn_refl
    | with_reducible assumption
    | (with_reducible apply Dev.onlyIn_via (Dev.frondHb_onlyIn _ _ _)) <;> [decide; skip]
    | (with_reducible apply Dev.onlyIn_via (Dev.updTwin_onlyIn _ _ _)) <;> [decide; skip]
    | (with_reducible apply Dev.onlyIn_via (Dev.updCtl_onlyIn _ _)) <;> [decide; skip]
    | (with_reducible apply Dev.onlyIn_via (Dev.makeActive_onlyIn _ _)) <;> [decide; skip]
    | (extract_lets +onlyGivenNames x; refine Dev.onlyIn_cut x ?_ ?_ <;> [(dsimp -zeta -proj only [x]; clear x); (intro _; clear_value x; revert x; intros)])
    | (extract_lets +onlyGivenNames x; clear_value x; revert x; intros)
    | (with_reducible apply Dev.onlyIn_ite)

theorem Dev.updTherm_onlyIn (d : Dev) (f : Therm → Therm) : Dev.onlyIn [.therm] d (Dev.updTherm d f) := by
  unfold Dev.updTherm
  repeat' first
    | with_reducible apply Dev.onlyIn_refl
    | (fail_if_success with_reducible apply Dev.onlyIn_put_dma); (with_reducible apply Dev.onlyIn_put_therm) <;> [skip; decide]

theorem Dev.dieSense_onlyIn (d : Dev) (ta tb : List ℤ) : Dev.onlyIn [.stat, .therm] d (Dev.dieSense d ta tb) := by
  unfold Dev.dieSense
  repeat' first
    | with_reducible apply Dev.onlyIn_refl
    | with_reducible assumption
    | (with_reducible apply Dev.onlyIn_via (Dev.updTherm_onlyIn _ _)) <;> [decide; skip]
    | (with_reducible apply Dev.onlyIn_via (Dev.occur_onlyIn _ _ _)) <;> [decide; skip]
    | (extract_lets +onlyGivenNames x; refine Dev.onlyIn_cut x ?_ ?_ <;> [(dsimp -zeta -proj only [x]; clear x); (intro _; clear_value x; revert x; intros)])
    | (extract_lets +onlyGivenNames x; clear_value x; revert x; intros)
    | (with_reducible apply Dev.onlyIn_ite)

theorem Dev.twinShut_onlyIn (d : Dev) (t : Twin) : Dev.onlyIn [.die, .stat, .units, .sramA, .sramB, .twin, .nv, .peat, .feedA, .feedB, .hs, .therm] d (Dev.twinShut d t) := by
  unfold Dev.twinShut
  repeat' first
    | with_reducible apply Dev.onlyIn_refl
    | with_reducible assumption
    | (with_reducible apply Dev.onlyIn_via (Dev.updTherm_onlyIn _ _)) <;> [decide; skip]
    | (with_reducible apply Dev.onlyIn_via (Dev.occurC_onlyIn _ _ _ _)) <;> [decide; skip]
    | (with_reducible apply Dev.onlyIn_via (Dev.twinOut_onlyIn _ _ _)) <;> [decide; skip]
    | (with_reducible apply Dev.onlyIn_via (Dev.enterSafe_onlyIn _ _)) <;> [decide; skip]
    | (extract_lets +onlyGivenNames x; refine Dev.onlyIn_cut x ?_ ?_ <;> [(dsimp -zeta -proj only [x]; clear x); (intro _; clear_value x; revert x; intros)])
    | (extract_lets +onlyGivenNames x; clear_value x; revert x; intros)
    | (with_reducible apply Dev.onlyIn_ite)

theorem Dev.dieChecks_onlyIn (d : Dev) : Dev.onlyIn [.die, .stat, .units, .sramA, .sramB, .twin, .nv, .peat, .feedA, .feedB, .hs, .therm] d (Dev.dieChecks d) := by
  unfold Dev.dieChecks
  repeat' first
    | with_reducible apply Dev.onlyIn_refl
    | (with_reducible apply Dev.onlyIn_via (Dev.occur_onlyIn _ _ _)) <;> [decide; skip]
    | (with_reducible apply Dev.onlyIn_via (Dev.updTherm_onlyIn _ _)) <;> [decide; skip]
    | (with_reducible apply Dev.onlyIn_via (Dev.twinShut_onlyIn _ _)) <;> [decide; skip]
    | (with_reducible apply Dev.onlyIn_ite)

theorem Dev.intmonDone_onlyIn (d : Dev) (i : ℕ) : Dev.onlyIn [.die, .stat, .units, .nv, .peat, .feedA, .feedB, .hs, .therm] d (Dev.intmonDone d i) := by
  unfold Dev.intmonDone
  repeat' first
    | with_reducible apply Dev.onlyIn_refl
    | with_reducible assumption
    | (with_reducible apply Dev.onlyIn_via (Dev.updTherm_onlyIn _ _)) <;> [decide; skip]
    | (with_reducible apply Dev.onlyIn_via (Dev.enterSafe_onlyIn _ _)) <;> [decide; skip]
    | (extract_lets +onlyGivenNames x; refine Dev.onlyIn_cut x ?_ ?_ <;> [(dsimp -zeta -proj only [x]; clear x); (intro _; clear_value x; revert x; intros)])
    | (extract_lets +onlyGivenNames x; clear_value x; revert x; intros)
    | (with_reducible apply Dev.onlyIn_ite)

theorem Dev.stageSum_onlyIn (d : Dev) (n : ℕ) (v : ℤ) : Dev.onlyIn [.therm] d (Dev.stageSum d n v) := by
  unfold Dev.stageSum
  repeat' first
    | with_reducible apply Dev.onlyIn_refl
    | (with_reducible apply Dev.onlyIn_via (Dev.updTherm_onlyIn _ _)) <;> [decide; skip]

theorem Dev.stageSense_onlyIn (d : Dev) (x : SenseWords) : Dev.onlyIn [.die, .stat, .therm] d (Dev.stageSense d x) := by
  unfold Dev.stageSense
  repeat' first
    | with_reducible apply Dev.onlyIn_refl
    | with_reducible assumption
    | (with_reducible apply Dev.onlyIn_then (foldN_onlyIn _ _ _ ?_)) <;> [skip; (intro _ _ )]
    | (with_reducible apply Dev.onlyIn_via (Dev.updTherm_onlyIn _ _)) <;> [decide; skip]
    | (with_reducible apply Dev.onlyIn_via (Dev.occur_onlyIn _ _ _)) <;> [decide; skip]
    | (with_reducible apply Dev.onlyIn_via (Dev.stageSum_onlyIn _ _ _)) <;> [decide; skip]
    | (fail_if_success with_reducible apply Dev.onlyIn_put_dma); (with_reducible apply Dev.onlyIn_put_die) <;> [skip; decide]
    | (extract_lets +onlyGivenNames x; refine Dev.onlyIn_cut x ?_ ?_ <;> [(dsimp -zeta -proj only [x]; clear x); (intro _; clear_value x; revert x; intros)])
    | (extract_lets +onlyGivenNames x; clear_value x; revert x; intros)
    | (with_reducible apply Dev.onlyIn_ite)
    | split

theorem Dev.stageTick_onlyIn (d : Dev) (n : ℕ) : Dev.onlyIn [.stat, .rails, .units, .inj, .fh, .therm] d (Dev.stageTick d n) := by
  unfold Dev.stageTick
  repeat' first
    | with_reducible apply Dev.onlyIn_refl
    | with_reducible assumption
    | (with_reducible apply Dev.onlyIn_via (Dev.updTherm_onlyIn _ _)) <;> [decide; skip]
    | (with_reducible apply Dev.onlyIn_via (Dev.updUnit_onlyIn _ _ _)) <;> [decide; skip]
    | (with_reducible apply Dev.onlyIn_via (Dev.occur_onlyIn _ _ _)) <;> [decide; skip]
    | (with_reducible apply Dev.onlyIn_via (Dev.faultUnit_onlyIn _ _)) <;> [decide; skip]
    | (extract_lets +onlyGivenNames x; refine Dev.onlyIn_cut x ?_ ?_ <;> [(dsimp -zeta -proj only [x]; clear x); (intro _; clear_value x; revert x; intros)])
    | (extract_lets +onlyGivenNames x; clear_value x; revert x; intros)
    | (with_reducible apply Dev.onlyIn_ite)
    | split

theorem Dev.nearMoved_onlyIn (d : Dev) : Dev.onlyIn [.therm] d (Dev.nearMoved d) := by
  unfold Dev.nearMoved
  repeat' first
    | with_reducible apply Dev.onlyIn_refl
    | (with_reducible apply Dev.onlyIn_via (Dev.updTherm_onlyIn _ _)) <;> [decide; skip]
    | (extract_lets +onlyGivenNames x; clear_value x; revert x; intros)
    | (with_reducible apply Dev.onlyIn_ite)

theorem Dev.condMark_onlyIn (d : Dev) : Dev.onlyIn [.therm] d (Dev.condMark d) := by
  unfold Dev.condMark
  repeat' first
    | with_reducible apply Dev.onlyIn_refl
    | (with_reducible apply Dev.onlyIn_via (Dev.updTherm_onlyIn _ _)) <;> [decide; skip]
    | (with_reducible apply Dev.onlyIn_via (Dev.nearMoved_onlyIn _)) <;> [decide; skip]

theorem Dev.thermTick_onlyIn (d : Dev) : Dev.onlyIn [.stat, .rails, .units, .inj, .fh, .therm] d (Dev.thermTick d) := by
  unfold Dev.thermTick
  repeat' first
    | with_reducible apply Dev.onlyIn_refl
    | (with_reducible apply Dev.onlyIn_then (foldN_onlyIn _ _ _ ?_)) <;> [skip; (intro _ _ )]
    | (with_reducible apply Dev.onlyIn_via (Dev.stageTick_onlyIn _ _)) <;> [decide; skip]
    | (with_reducible apply Dev.onlyIn_via (Dev.condMark_onlyIn _)) <;> [decide; skip]

theorem Dev.thermLedger_onlyIn (d : Dev) : Dev.onlyIn [.adm] d (Dev.thermLedger d) := by
  unfold Dev.thermLedger
  repeat' first
    | with_reducible apply Dev.onlyIn_refl
    | (with_reducible apply Dev.onlyIn_via (Dev.updLed_onlyIn _ _)) <;> [decide; skip]

theorem Dev.stageMeans_onlyIn (d : Dev) : Dev.onlyIn [.therm] d (Dev.stageMeans d) := by
  unfold Dev.stageMeans
  repeat' first
    | with_reducible apply Dev.onlyIn_refl
    | (with_reducible apply Dev.onlyIn_via (Dev.updTherm_onlyIn _ _)) <;> [decide; skip]

theorem Dev.stageCheck_onlyIn (d : Dev) (n : ℕ) : Dev.onlyIn [.stat, .therm] d (Dev.stageCheck d n) := by
  unfold Dev.stageCheck
  repeat' first
    | with_reducible apply Dev.onlyIn_refl
    | with_reducible assumption
    | (with_reducible apply Dev.onlyIn_via (Dev.updTherm_onlyIn _ _)) <;> [decide; skip]
    | (with_reducible apply Dev.onlyIn_via (Dev.occur_onlyIn _ _ _)) <;> [decide; skip]
    | (extract_lets +onlyGivenNames x; refine Dev.onlyIn_cut x ?_ ?_ <;> [(dsimp -zeta -proj only [x]; clear x); (intro _; clear_value x; revert x; intros)])
    | (extract_lets +onlyGivenNames x; clear_value x; revert x; intros)
    | (with_reducible apply Dev.onlyIn_ite)
    | split

theorem Dev.stageRates_onlyIn (d : Dev) (n : ℕ) : Dev.onlyIn [.stat, .therm] d (Dev.stageRates d n) := by
  unfold Dev.stageRates
  repeat' first
    | with_reducible apply Dev.onlyIn_refl
    | with_reducible assumption
    | (with_reducible apply Dev.onlyIn_via (Dev.occur_onlyIn _ _ _)) <;> [decide; skip]
    | (with_reducible apply Dev.onlyIn_via (Dev.updTherm_onlyIn _ _)) <;> [decide; skip]
    | (extract_lets +onlyGivenNames x; refine Dev.onlyIn_cut x ?_ ?_ <;> [(dsimp -zeta -proj only [x]; clear x); (intro _; clear_value x; revert x; intros)])
    | (extract_lets +onlyGivenNames x; clear_value x; revert x; intros)
    | (with_reducible apply Dev.onlyIn_ite)
    | split

theorem Dev.boardFrond_onlyIn (d : Dev) : Dev.onlyIn [.stat, .rails, .units, .inj, .fh, .therm] d (Dev.boardFrond d) := by
  unfold Dev.boardFrond
  repeat' first
    | with_reducible apply Dev.onlyIn_refl
    | with_reducible assumption
    | (with_reducible apply Dev.onlyIn_via (Dev.occur_onlyIn _ _ _)) <;> [decide; skip]
    | (with_reducible apply Dev.onlyIn_via (Dev.updTherm_onlyIn _ _)) <;> [decide; skip]
    | (with_reducible apply Dev.onlyIn_via (Dev.offRequest_onlyIn _)) <;> [decide; skip]
    | (extract_lets +onlyGivenNames x; refine Dev.onlyIn_cut x ?_ ?_ <;> [(dsimp -zeta -proj only [x]; clear x); (intro _; clear_value x; revert x; intros)])
    | (extract_lets +onlyGivenNames x; clear_value x; revert x; intros)
    | (with_reducible apply Dev.onlyIn_ite)

theorem Dev.thermFrond_onlyIn (d : Dev) (ta tb : List ℤ) : Dev.onlyIn [.die, .stat, .rails, .units, .inj, .sramA, .sramB, .twin, .nv, .peat, .feedA, .feedB, .hs, .fh, .therm] d (Dev.thermFrond d ta tb) := by
  unfold Dev.thermFrond
  repeat' first
    | with_reducible apply Dev.onlyIn_refl
    | (with_reducible apply Dev.onlyIn_via (Dev.condMark_onlyIn _)) <;> [decide; skip]
    | (with_reducible apply Dev.onlyIn_via (Dev.stageMeans_onlyIn _)) <;> [decide; skip]
    | (with_reducible apply Dev.onlyIn_via (Dev.dieChecks_onlyIn _)) <;> [decide; skip]
    | (with_reducible apply Dev.onlyIn_via (Dev.dieSense_onlyIn _ _ _)) <;> [decide; skip]
    | (with_reducible apply Dev.onlyIn_then (foldN_onlyIn _ _ _ ?_)) <;> [skip; (intro _ _ )]
    | (with_reducible apply Dev.onlyIn_via (Dev.stageCheck_onlyIn _ _)) <;> [decide; skip]
    | (with_reducible apply Dev.onlyIn_via (Dev.stageRates_onlyIn _ _)) <;> [decide; skip]
    | (with_reducible apply Dev.onlyIn_via (Dev.boardFrond_onlyIn _)) <;> [decide; skip]
    | (with_reducible apply Dev.onlyIn_via (Dev.updTherm_onlyIn _ _)) <;> [decide; skip]

theorem Dev.tierSelect_onlyIn (d : Dev) : Dev.onlyIn [.sched, .therm] d (Dev.tierSelect d) := by
  unfold Dev.tierSelect
  repeat' first
    | with_reducible apply Dev.onlyIn_refl
    | (with_reducible apply Dev.onlyIn_via (Dev.updTherm_onlyIn _ _)) <;> [decide; skip]
    | (fail_if_success with_reducible apply Dev.onlyIn_put_dma); (with_reducible apply Dev.onlyIn_put_sched) <;> [skip; decide]

theorem Dev.nvFlush_onlyIn (d : Dev) : Dev.onlyIn [.nv, .therm] d (Dev.nvFlush d) := by
  unfold Dev.nvFlush
  repeat' first
    | with_reducible apply Dev.onlyIn_refl
    | (with_reducible apply Dev.onlyIn_via (Dev.updTherm_onlyIn _ _)) <;> [decide; skip]
    | (with_reducible apply Dev.onlyIn_via (Dev.ringWrite_onlyIn _ _ _)) <;> [decide; skip]
    | (with_reducible apply Dev.onlyIn_foldl) <;> [(intro _ _); skip]

theorem Dev.forgetStages_onlyIn (d : Dev) (g : Region) : Dev.onlyIn [.units, .therm] d (Dev.forgetStages d g) := by
  unfold Dev.forgetStages
  repeat' first
    | with_reducible apply Dev.onlyIn_refl
    | with_reducible assumption
    | (with_reducible apply Dev.onlyIn_then (foldN_onlyIn _ _ _ ?_)) <;> [skip; (intro _ _ )]
    | (with_reducible apply Dev.onlyIn_via (Dev.updUnit_onlyIn _ _ _)) <;> [decide; skip]
    | (fail_if_success with_reducible apply Dev.onlyIn_put_dma); (with_reducible apply Dev.onlyIn_put_therm) <;> [skip; decide]
    | (extract_lets +onlyGivenNames x; refine Dev.onlyIn_cut x ?_ ?_ <;> [(dsimp -zeta -proj only [x]; clear x); (intro _; clear_value x; revert x; intros)])
    | (extract_lets +onlyGivenNames x; clear_value x; revert x; intros)
    | (with_reducible apply Dev.onlyIn_ite)

theorem Dev.setRegion_onlyIn (d : Dev) (g : Region) (v : Bool) : Dev.onlyIn [.die, .units, .xfer, .therm] d (Dev.setRegion d g v) := by
  unfold Dev.setRegion
  repeat' first
    | with_reducible apply Dev.onlyIn_refl
    | with_reducible assumption
    | (with_reducible apply Dev.onlyIn_via (Dev.forgetStages_onlyIn _ _)) <;> [decide; skip]
    | (fail_if_success with_reducible apply Dev.onlyIn_put_dma); (with_reducible apply Dev.onlyIn_put_die) <;> [skip; decide]
    | (fail_if_success with_reducible apply Dev.onlyIn_put_dma); (with_reducible apply Dev.onlyIn_put_die_xfer) <;> [skip; decide; decide]
    | (extract_lets +onlyGivenNames x; refine Dev.onlyIn_cut x ?_ ?_ <;> [(dsimp -zeta -proj only [x]; clear x); (intro _; clear_value x; revert x; intros)])
    | (extract_lets +onlyGivenNames x; clear_value x; revert x; intros)
    | (with_reducible apply Dev.onlyIn_ite)
    | split

theorem Dev.loseRegion_onlyIn (d : Dev) (g : Region) : Dev.onlyIn [.die, .stat, .rails, .units, .clusters, .inj, .adm, .xfer, .fh, .therm] d (Dev.loseRegion d g) := by
  unfold Dev.loseRegion
  repeat' first
    | with_reducible apply Dev.onlyIn_refl
    | (with_reducible apply Dev.onlyIn_via (Dev.loseClusters_onlyIn _ _)) <;> [decide; skip]
    | (with_reducible apply Dev.onlyIn_via (Dev.occur_onlyIn _ _ _)) <;> [decide; skip]
    | (with_reducible apply Dev.onlyIn_via (Dev.setRegion_onlyIn _ _ _)) <;> [decide; skip]
    | (with_reducible apply Dev.onlyIn_ite)

theorem Dev.metRestart_onlyIn (d : Dev) : Dev.onlyIn [.sense] d (Dev.metRestart d) := by
  unfold Dev.metRestart
  repeat' first
    | with_reducible apply Dev.onlyIn_refl
    | (fail_if_success with_reducible apply Dev.onlyIn_put_dma); (with_reducible apply Dev.onlyIn_put_sense) <;> [skip; decide]

theorem Dev.putState_onlyIn (d : Dev) (a : ℕ) (s : SecState) : Dev.onlyIn [.sram] d (Dev.putState d a s) := by
  unfold Dev.putState
  repeat' first
    | with_reducible apply Dev.onlyIn_refl
    | (fail_if_success with_reducible apply Dev.onlyIn_put_dma); (with_reducible apply Dev.onlyIn_put_sram) <;> [skip; decide]

theorem Dev.cascade_onlyIn (d : Dev) (k recs states x4 x5 : ℕ) (x6 : ℤ) : Dev.onlyIn [.clusters, .sram] d (Dev.cascade d k recs states x4 x5 x6).1 := by
  induction x4 generalizing d x5 x6 with
  | zero => exact Dev.onlyIn_refl _ _
  | succ n ih =>
    rw [Dev.cascade]
    repeat' first
      | with_reducible apply Dev.onlyIn_refl
      | with_reducible apply Dev.onlyIn_then (ih _ _ _)
      | (with_reducible apply Dev.onlyIn_via (Dev.putState_onlyIn _ _ _)) <;> [decide; skip]
      | (with_reducible apply Dev.onlyIn_via (Dev.updCluster_onlyIn _ _ _)) <;> [decide; skip]

theorem Dev.blockCascade_onlyIn (d : Dev) (k desc n : ℕ) (x : ℤ) : Dev.onlyIn [.clusters, .sram] d (Dev.blockCascade d k desc n x).1 := by
  unfold Dev.blockCascade
  repeat' first
    | with_reducible apply Dev.onlyIn_refl
    | (with_reducible apply Dev.onlyIn_via (Dev.cascade_onlyIn _ _ _ _ _ _ _)) <;> [decide; skip]

theorem Dev.fireBiq_onlyIn (d : Dev) (e : SlotEntry) : Dev.onlyIn [.clusters, .sram] d (Dev.fireBiq d e) := by
  unfold Dev.fireBiq
  repeat' first
    | with_reducible apply Dev.onlyIn_refl
    | (with_reducible apply Dev.onlyIn_via (Dev.blockCascade_onlyIn _ _ _ _ _)) <;> [decide; skip]
    | (with_reducible apply Dev.onlyIn_via (Dev.putOp_onlyIn _ _ _ _)) <;> [decide; skip]

theorem Dev.fireFfs_onlyIn (d : Dev) (e : SlotEntry) : Dev.onlyIn [.clusters, .sram] d (Dev.fireFfs d e) := by
  unfold Dev.fireFfs
  repeat' first
    | with_reducible apply Dev.onlyIn_refl
    | (with_reducible apply Dev.onlyIn_via (Dev.blockCascade_onlyIn _ _ _ _ _)) <;> [decide; skip]
    | (with_reducible apply Dev.onlyIn_via (Dev.putOp_onlyIn _ _ _ _)) <;> [decide; skip]

theorem Dev.fireSum_onlyIn (d : Dev) (e : SlotEntry) : Dev.onlyIn [.sram] d (Dev.fireSum d e) := by
  unfold Dev.fireSum
  repeat' first
    | with_reducible apply Dev.onlyIn_refl
    | (with_reducible apply Dev.onlyIn_via (Dev.putOp_onlyIn _ _ _ _)) <;> [decide; skip]

theorem Dev.coeffPort_onlyIn (d : Dev) : Dev.onlyIn [.sram] d (Dev.coeffPort d) := by
  unfold Dev.coeffPort
  repeat' first
    | with_reducible apply Dev.onlyIn_refl
    | with_reducible assumption
    | (with_reducible apply Dev.onlyIn_via (Dev.putOp_onlyIn _ _ _ _)) <;> [decide; skip]
    | (with_reducible apply Dev.onlyIn_foldl) <;> [(intro _ _); skip]
    | (extract_lets +onlyGivenNames x; refine Dev.onlyIn_cut x ?_ ?_ <;> [(dsimp -zeta -proj only [x]; clear x); (intro _; clear_value x; revert x; intros)])
    | (extract_lets +onlyGivenNames x; clear_value x; revert x; intros)
    | (with_reducible apply Dev.onlyIn_ite)

theorem Dev.fireVlp_onlyIn (d : Dev) (e : SlotEntry) : Dev.onlyIn [.rails, .clusters, .sram] d (Dev.fireVlp d e) := by
  unfold Dev.fireVlp
  repeat' first
    | with_reducible apply Dev.onlyIn_refl
    | (with_reducible apply Dev.onlyIn_via (Dev.blockCascade_onlyIn _ _ _ _ _)) <;> [decide; skip]
    | (with_reducible apply Dev.onlyIn_via (Dev.updRail_onlyIn _ _ _)) <;> [decide; skip]
    | (with_reducible apply Dev.onlyIn_via (Dev.putOp_onlyIn _ _ _ _)) <;> [decide; skip]

theorem Dev.phaseWords_onlyIn (d : Dev) (k r srcA srcB : ℕ) (nact : ℤ) : Dev.onlyIn [.units, .clusters, .sram] d (Dev.phaseWords d k r srcA srcB nact) := by
  unfold Dev.phaseWords
  repeat' first
    | with_reducible apply Dev.onlyIn_refl
    | with_reducible assumption
    | (with_reducible apply Dev.onlyIn_then (foldN_onlyIn _ _ _ ?_)) <;> [skip; (intro _ _ )]
    | (with_reducible apply Dev.onlyIn_via (Dev.cascade_onlyIn _ _ _ _ _ _ _)) <;> [decide; skip]
    | (with_reducible apply Dev.onlyIn_via (Dev.updUnit_onlyIn _ _ _)) <;> [decide; skip]
    | (extract_lets +onlyGivenNames x; refine Dev.onlyIn_cut x.1 ?_ ?_ <;> [(dsimp -zeta -proj only [x]; clear x); (intro _; clear_value x; revert x; intros)])
    | (extract_lets +onlyGivenNames x; clear_value x; revert x; intros)
    | (with_reducible apply Dev.onlyIn_ite)
    | split

theorem Dev.firePhase_onlyIn (d : Dev) (e : SlotEntry) : Dev.onlyIn [.rails, .units, .clusters, .runs, .sram] d (Dev.firePhase d e) := by
  unfold Dev.firePhase
  repeat' first
    | with_reducible apply Dev.onlyIn_refl
    | (with_reducible apply Dev.onlyIn_via (Dev.updRail_onlyIn _ _ _)) <;> [decide; skip]
    | (with_reducible apply Dev.onlyIn_via (Dev.phaseWords_onlyIn _ _ _ _ _ _)) <;> [decide; skip]
    | (fail_if_success with_reducible apply Dev.onlyIn_put_dma); (with_reducible apply Dev.onlyIn_put_runs) <;> [skip; decide]
    | (with_reducible apply Dev.onlyIn_ite)

theorem Dev.shareAgain_onlyIn (d : Dev) (x : PhaseRun) : Dev.onlyIn [.units, .clusters, .sram] d (Dev.shareAgain d x) := by
  unfold Dev.shareAgain
  repeat' first
    | with_reducible apply Dev.onlyIn_refl
    | (with_reducible apply Dev.onlyIn_then (foldN_onlyIn _ _ _ ?_)) <;> [skip; (intro _ _ )]
    | (with_reducible apply Dev.onlyIn_via (Dev.updCluster_onlyIn _ _ _)) <;> [decide; skip]
    | (with_reducible apply Dev.onlyIn_via (Dev.putOp_onlyIn _ _ _ _)) <;> [decide; skip]
    | (with_reducible apply Dev.onlyIn_via (Dev.phaseWords_onlyIn _ _ _ _ _ _)) <;> [decide; skip]
    | (fail_if_success with_reducible apply Dev.onlyIn_put_dma); (with_reducible apply Dev.onlyIn_put_sram) <;> [skip; decide]
    | (with_reducible apply Dev.onlyIn_ite)

theorem Dev.reshare_onlyIn (d : Dev) (r : ℕ) : Dev.onlyIn [.units, .clusters, .runs, .sram] d (Dev.reshare d r) := by
  unfold Dev.reshare
  repeat' first
    | with_reducible apply Dev.onlyIn_refl
    | with_reducible assumption
    | (with_reducible apply Dev.onlyIn_via (Dev.shareAgain_onlyIn _ _)) <;> [decide; skip]
    | (with_reducible apply Dev.onlyIn_foldl) <;> [(intro _ _); skip]
    | (fail_if_success with_reducible apply Dev.onlyIn_put_dma); (with_reducible apply Dev.onlyIn_put_runs) <;> [skip; decide]
    | (extract_lets +onlyGivenNames x; refine Dev.onlyIn_cut x ?_ ?_ <;> [(dsimp -zeta -proj only [x]; clear x); (intro _; clear_value x; revert x; intros)])
    | (extract_lets +onlyGivenNames x; clear_value x; revert x; intros)
    | (with_reducible apply Dev.onlyIn_ite)

theorem Dev.settleShares_onlyIn (d : Dev) : Dev.onlyIn [.units, .clusters, .runs, .sram] d (Dev.settleShares d) := by
  unfold Dev.settleShares
  repeat' first
    | with_reducible apply Dev.onlyIn_refl
    | with_reducible assumption
    | (with_reducible apply Dev.onlyIn_then (foldN_onlyIn _ _ _ ?_)) <;> [skip; (intro _ _ )]
    | (with_reducible apply Dev.onlyIn_via (Dev.reshare_onlyIn _ _)) <;> [decide; skip]
    | (with_reducible apply Dev.onlyIn_via (Dev.addUnits_onlyIn _ _)) <;> [decide; skip]
    | (with_reducible apply Dev.onlyIn_via (Dev.updUnit_onlyIn _ _ _)) <;> [decide; skip]
    | (with_reducible apply Dev.onlyIn_foldl) <;> [(intro _ _); skip]
    | (extract_lets +onlyGivenNames x; refine Dev.onlyIn_cut x ?_ ?_ <;> [(dsimp -zeta -proj only [x]; clear x); (intro _; clear_value x; revert x; intros)])
    | (with_reducible apply Dev.onlyIn_ite)

theorem Dev.fireOvl_onlyIn (d : Dev) (e : SlotEntry) : Dev.onlyIn [.units] d (Dev.fireOvl d e) := by
  unfold Dev.fireOvl
  repeat' first
    | with_reducible apply Dev.onlyIn_refl
    | (with_reducible apply Dev.onlyIn_then (foldN_onlyIn _ _ _ ?_)) <;> [skip; (intro _ _ )]
    | (with_reducible apply Dev.onlyIn_via (Dev.updUnit_onlyIn _ _ _)) <;> [decide; skip]
    | (extract_lets +onlyGivenNames x; clear_value x; revert x; intros)
    | (with_reducible apply Dev.onlyIn_ite)
    | split

theorem Dev.fireStat_onlyIn (d : Dev) (e : SlotEntry) : Dev.onlyIn [.units] d (Dev.fireStat d e) := by
  unfold Dev.fireStat
  repeat' first
    | with_reducible apply Dev.onlyIn_refl
    | (with_reducible apply Dev.onlyIn_then (foldN_onlyIn _ _ _ ?_)) <;> [skip; (intro _ _ )]
    | (with_reducible apply Dev.onlyIn_via (Dev.updUnit_onlyIn _ _ _)) <;> [decide; skip]

theorem Dev.zeroLoops_onlyIn (d : Dev) (r : ℕ) : Dev.onlyIn [.sram] d (Dev.zeroLoops d r) := by
  unfold Dev.zeroLoops
  extract_lets +onlyGivenNames zero casc
  have h_zero : ∀ y0 y1 y2 y3, Dev.onlyIn [.sram] y0 (zero y0 y1 y2 y3) := by
    intro y0 y1 y2 y3
    dsimp -zeta -proj only [zero]
    repeat' first
      | with_reducible apply Dev.onlyIn_refl
      | (with_reducible apply Dev.onlyIn_via (Dev.zeroMem_onlyIn _ _ _)) <;> [decide; skip]
  clear_value zero
  have h_casc : ∀ y0 y1, Dev.onlyIn [.sram] y0 (casc y0 y1) := by
    intro y0 y1
    dsimp -zeta -proj only [casc]
    repeat' first
      | with_reducible apply Dev.onlyIn_refl
      | with_reducible apply Dev.onlyIn_then (h_zero _ _ _ _)
      | (with_reducible apply Dev.onlyIn_ite)
  clear_value casc
  repeat' first
    | with_reducible apply Dev.onlyIn_refl
    | with_reducible apply Dev.onlyIn_then (h_zero _ _ _ _)
    | with_reducible apply Dev.onlyIn_then (h_casc _ _)
    | (with_reducible apply Dev.onlyIn_foldl) <;> [(intro _ _); skip]
    | (with_reducible apply Dev.onlyIn_ite)

theorem Dev.switchSection_onlyIn (d : Dev) (a : ℕ) (ws : List ℕ) : Dev.onlyIn [.sram, .live] d (Dev.switchSection d a ws) := by
  unfold Dev.switchSection
  repeat' first
    | with_reducible apply Dev.onlyIn_refl
    | (fail_if_success with_reducible apply Dev.onlyIn_put_dma); (with_reducible apply Dev.onlyIn_put_sram_live) <;> [skip; decide; decide]

theorem Dev.commitSection_onlyIn (d : Dev) (pg refBit : ℕ) (sampled : List (ℕ × ℕ)) (keys : ℕ → ℕ) (a : Option ℕ) : Dev.onlyIn [.stat, .sram, .live] d (Dev.commitSection d pg refBit sampled keys a) := by
  unfold Dev.commitSection
  repeat' first
    | with_reducible apply Dev.onlyIn_refl
    | (with_reducible apply Dev.onlyIn_via (Dev.occur_onlyIn _ _ _)) <;> [decide; skip]
    | (with_reducible apply Dev.onlyIn_via (Dev.switchSection_onlyIn _ _ _)) <;> [decide; skip]
    | (extract_lets +onlyGivenNames x; clear_value x; revert x; intros)
    | (with_reducible apply Dev.onlyIn_ite)
    | split

theorem Dev.commitCoeffs_onlyIn (d : Dev) (pg : ℕ) (sampled : List (ℕ × ℕ)) : Dev.onlyIn [.stat, .sram, .live] d (Dev.commitCoeffs d pg sampled) := by
  unfold Dev.commitCoeffs
  repeat' first
    | with_reducible apply Dev.onlyIn_refl
    | with_reducible assumption
    | (with_reducible apply Dev.onlyIn_then (foldN_onlyIn _ _ _ ?_)) <;> [skip; (intro _ _ )]
    | (with_reducible apply Dev.onlyIn_via (Dev.commitSection_onlyIn _ _ _ _ _ _)) <;> [decide; skip]
    | (extract_lets +onlyGivenNames x; refine Dev.onlyIn_cut x ?_ ?_ <;> [(dsimp -zeta -proj only [x]; clear x); (intro _; clear_value x; revert x; intros)])
    | (extract_lets +onlyGivenNames x; clear_value x; revert x; intros)
    | (with_reducible apply Dev.onlyIn_ite)

theorem Dev.injCommit_onlyIn (d : Dev) : Dev.onlyIn [.stat, .inj] d (Dev.injCommit d) := by
  unfold Dev.injCommit
  repeat' first
    | with_reducible apply Dev.onlyIn_refl
    | (with_reducible apply Dev.onlyIn_via (Dev.injStop_onlyIn _ _)) <;> [decide; skip]
    | (fail_if_success with_reducible apply Dev.onlyIn_put_dma); (with_reducible apply Dev.onlyIn_put_inj) <;> [skip; decide]
    | (extract_lets +onlyGivenNames x; clear_value x; revert x; intros)
    | (with_reducible apply Dev.onlyIn_ite)

theorem Dev.fireInj_onlyIn (d : Dev) (e : SlotEntry) : Dev.onlyIn [.inj, .sram] d (Dev.fireInj d e) := by
  unfold Dev.fireInj
  repeat' first
    | with_reducible apply Dev.onlyIn_refl
    | with_reducible assumption
    | (fail_if_success with_reducible apply Dev.onlyIn_put_dma); (with_reducible apply Dev.onlyIn_put_inj_sram) <;> [skip; decide; decide]
    | (extract_lets +onlyGivenNames x; refine Dev.onlyIn_cut x ?_ ?_ <;> [(dsimp -zeta -proj only [x]; clear x); (intro _; clear_value x; revert x; intros)])
    | (extract_lets +onlyGivenNames x; subst x; beta_reduce)
    | (with_reducible apply Dev.onlyIn_ite)

theorem Dev.capIndexed_onlyIn (d : Dev) : Dev.onlyIn [.cap] d (Dev.capIndexed d) := by
  unfold Dev.capIndexed
  repeat' first
    | with_reducible apply Dev.onlyIn_refl
    | (fail_if_success with_reducible apply Dev.onlyIn_put_dma); (with_reducible apply Dev.onlyIn_put_cap) <;> [skip; decide]
    | (extract_lets +onlyGivenNames x; clear_value x; revert x; intros)
    | (with_reducible apply Dev.onlyIn_ite)

theorem Dev.capTrigger_onlyIn (d : Dev) : Dev.onlyIn [.cap] d (Dev.capTrigger d) := by
  unfold Dev.capTrigger
  repeat' first
    | with_reducible apply Dev.onlyIn_refl
    | (with_reducible apply Dev.onlyIn_via (Dev.capIndexed_onlyIn _)) <;> [decide; skip]
    | (fail_if_success with_reducible apply Dev.onlyIn_put_dma); (with_reducible apply Dev.onlyIn_put_cap) <;> [skip; decide]
    | (extract_lets +onlyGivenNames x; clear_value x; revert x; intros)
    | (with_reducible apply Dev.onlyIn_ite)

theorem Dev.fireCapt_onlyIn (d : Dev) (e : SlotEntry) : Dev.onlyIn [.cap, .sram] d (Dev.fireCapt d e) := by
  unfold Dev.fireCapt
  repeat' first
    | with_reducible apply Dev.onlyIn_refl
    | with_reducible assumption
    | (with_reducible apply Dev.onlyIn_via (Dev.capIndexed_onlyIn _)) <;> [decide; skip]
    | (fail_if_success with_reducible apply Dev.onlyIn_put_dma); (with_reducible apply Dev.onlyIn_put_cap) <;> [skip; decide]
    | (fail_if_success with_reducible apply Dev.onlyIn_put_dma); (with_reducible apply Dev.onlyIn_put_cap_sram) <;> [skip; decide; decide]
    | (extract_lets +onlyGivenNames x; refine Dev.onlyIn_cut x ?_ ?_ <;> [(dsimp -zeta -proj only [x]; clear x); (intro _; clear_value x; revert x; intros)])
    | (extract_lets +onlyGivenNames x; clear_value x; revert x; intros)
    | (with_reducible apply Dev.onlyIn_ite)

theorem Dev.capAbort_onlyIn (d : Dev) : Dev.onlyIn [.stat, .cap] d (Dev.capAbort d) := by
  unfold Dev.capAbort
  repeat' first
    | with_reducible apply Dev.onlyIn_refl
    | (with_reducible apply Dev.onlyIn_via (Dev.occur_onlyIn _ _ _)) <;> [decide; skip]
    | (fail_if_success with_reducible apply Dev.onlyIn_put_dma); (with_reducible apply Dev.onlyIn_put_cap) <;> [skip; decide]
    | (extract_lets +onlyGivenNames x; clear_value x; revert x; intros)
    | (with_reducible apply Dev.onlyIn_ite)

theorem Dev.capArm_onlyIn (d : Dev) : Dev.onlyIn [.cap] d (Dev.capArm d) := by
  unfold Dev.capArm
  repeat' first
    | with_reducible apply Dev.onlyIn_refl
    | (fail_if_success with_reducible apply Dev.onlyIn_put_dma); (with_reducible apply Dev.onlyIn_put_cap) <;> [skip; decide]
    | (extract_lets +onlyGivenNames x; clear_value x; revert x; intros)
    | (with_reducible apply Dev.onlyIn_ite)

theorem Dev.capForce_onlyIn (d : Dev) : Dev.onlyIn [.cap] d (Dev.capForce d) := by
  unfold Dev.capForce
  repeat' first
    | with_reducible apply Dev.onlyIn_refl
    | (with_reducible apply Dev.onlyIn_via (Dev.capTrigger_onlyIn _)) <;> [decide; skip]
    | (with_reducible apply Dev.onlyIn_ite)

theorem Dev.capRdWrite_onlyIn (d : Dev) (v : ℕ) : Dev.onlyIn [.regs, .cap] d (Dev.capRdWrite d v) := by
  unfold Dev.capRdWrite
  repeat' first
    | with_reducible apply Dev.onlyIn_refl
    | (with_reducible apply Dev.onlyIn_via (Dev.setReg_onlyIn _ _ _ _)) <;> [decide; skip]
    | (fail_if_success with_reducible apply Dev.onlyIn_put_dma); (with_reducible apply Dev.onlyIn_put_cap) <;> [skip; decide]

theorem Dev.updPre_onlyIn (d : Dev) (c : ℕ) (f : PreCh → PreCh) : Dev.onlyIn [.sense] d (Dev.updPre d c f) := by
  unfold Dev.updPre
  repeat' first
    | with_reducible apply Dev.onlyIn_refl
    | (fail_if_success with_reducible apply Dev.onlyIn_put_dma); (with_reducible apply Dev.onlyIn_put_sense) <;> [skip; decide]

theorem Dev.updRef_onlyIn (d : Dev) (f : RefSt → RefSt) : Dev.onlyIn [.sense] d (Dev.updRef d f) := by
  unfold Dev.updRef
  repeat' first
    | with_reducible apply Dev.onlyIn_refl
    | (fail_if_success with_reducible apply Dev.onlyIn_put_dma); (with_reducible apply Dev.onlyIn_put_sense) <;> [skip; decide]

theorem Dev.updAux_onlyIn (d : Dev) (f : AuxSeq → AuxSeq) : Dev.onlyIn [.sense] d (Dev.updAux d f) := by
  unfold Dev.updAux
  repeat' first
    | with_reducible apply Dev.onlyIn_refl
    | (fail_if_success with_reducible apply Dev.onlyIn_put_dma); (with_reducible apply Dev.onlyIn_put_sense) <;> [skip; decide]

theorem Dev.updCal_onlyIn (d : Dev) (f : CalSt → CalSt) : Dev.onlyIn [.sense] d (Dev.updCal d f) := by
  unfold Dev.updCal
  repeat' first
    | with_reducible apply Dev.onlyIn_refl
    | (fail_if_success with_reducible apply Dev.onlyIn_put_dma); (with_reducible apply Dev.onlyIn_put_sense) <;> [skip; decide]

theorem Dev.countOver_onlyIn (d : Dev) (i : TickIn) : Dev.onlyIn [.stat, .sense] d (Dev.countOver d i) := by
  unfold Dev.countOver
  repeat' first
    | with_reducible apply Dev.onlyIn_refl
    | with_reducible assumption
    | (with_reducible apply Dev.onlyIn_then (foldN_onlyIn _ _ _ ?_)) <;> [skip; (intro _ _ )]
    | (with_reducible apply Dev.onlyIn_via (Dev.occur_onlyIn _ _ _)) <;> [decide; skip]
    | (with_reducible apply Dev.onlyIn_via (Dev.updPre_onlyIn _ _ _)) <;> [decide; skip]
    | (fail_if_success with_reducible apply Dev.onlyIn_put_dma); (with_reducible apply Dev.onlyIn_put_sense) <;> [skip; decide]
    | (extract_lets +onlyGivenNames x; refine Dev.onlyIn_cut x ?_ ?_ <;> [(dsimp -zeta -proj only [x]; clear x); (intro _; clear_value x; revert x; intros)])
    | (extract_lets +onlyGivenNames x; clear_value x; revert x; intros)
    | (with_reducible apply Dev.onlyIn_ite)

theorem Dev.unitSense_onlyIn (d : Dev) (x : SenseWords) (n : ℕ) : Dev.onlyIn [.stat, .units] d (Dev.unitSense d x n) := by
  unfold Dev.unitSense
  repeat' first
    | with_reducible apply Dev.onlyIn_refl
    | with_reducible assumption
    | (with_reducible apply Dev.onlyIn_via (Dev.updUnit_onlyIn _ _ _)) <;> [decide; skip]
    | (with_reducible apply Dev.onlyIn_via (Dev.occur_onlyIn _ _ _)) <;> [decide; skip]
    | (extract_lets +onlyGivenNames x; refine Dev.onlyIn_cut x ?_ ?_ <;> [(dsimp -zeta -proj only [x]; clear x); (intro _; clear_value x; revert x; intros)])
    | (extract_lets +onlyGivenNames x; clear_value x; revert x; intros)
    | (with_reducible apply Dev.onlyIn_ite)

theorem Dev.tfltSense_onlyIn (d : Dev) (x : SenseWords) (prev : BitVec 64) (n : ℕ) : Dev.onlyIn [.stat, .rails, .units, .inj, .fh] d (Dev.tfltSense d x prev n) := by
  unfold Dev.tfltSense
  repeat' first
    | with_reducible apply Dev.onlyIn_refl
    | with_reducible assumption
    | (with_reducible apply Dev.onlyIn_via (Dev.occur_onlyIn _ _ _)) <;> [decide; skip]
    | (with_reducible apply Dev.onlyIn_via (Dev.faultUnit_onlyIn _ _)) <;> [decide; skip]
    | (extract_lets +onlyGivenNames x; refine Dev.onlyIn_cut x ?_ ?_ <;> [(dsimp -zeta -proj only [x]; clear x); (intro _; clear_value x; revert x; intros)])
    | (with_reducible apply Dev.onlyIn_ite)

theorem Dev.preSense_onlyIn (d : Dev) (x : SenseWords) (c : ℕ) : Dev.onlyIn [.sense] d (Dev.preSense d x c) := by
  unfold Dev.preSense
  repeat' first
    | with_reducible apply Dev.onlyIn_refl
    | (with_reducible apply Dev.onlyIn_via (Dev.updPre_onlyIn _ _ _)) <;> [decide; skip]
    | (extract_lets +onlyGivenNames x; clear_value x; revert x; intros)
    | (with_reducible apply Dev.onlyIn_ite)

theorem Dev.refSense_onlyIn (d : Dev) (mv : ℕ) : Dev.onlyIn [.sense] d (Dev.refSense d mv) := by
  unfold Dev.refSense
  repeat' first
    | with_reducible apply Dev.onlyIn_refl
    | with_reducible assumption
    | (with_reducible apply Dev.onlyIn_via (Dev.updRef_onlyIn _ _)) <;> [decide; skip]
    | (fail_if_success with_reducible apply Dev.onlyIn_put_dma); (with_reducible apply Dev.onlyIn_put_sense) <;> [skip; decide]
    | (extract_lets +onlyGivenNames x; refine Dev.onlyIn_cut x ?_ ?_ <;> [(dsimp -zeta -proj only [x]; clear x); (intro _; clear_value x; revert x; intros)])
    | (extract_lets +onlyGivenNames x; clear_value x; revert x; intros)
    | (with_reducible apply Dev.onlyIn_ite)

theorem Dev.intTick_onlyIn (d : Dev) (x : SenseWords) : Dev.onlyIn [.sense] d (Dev.intTick d x) := by
  unfold Dev.intTick
  repeat' first
    | with_reducible apply Dev.onlyIn_refl
    | (fail_if_success with_reducible apply Dev.onlyIn_put_dma); (with_reducible apply Dev.onlyIn_put_sense) <;> [skip; decide]

theorem Dev.calDiff_onlyIn (d : Dev) (i : TickIn) : Dev.onlyIn [.sense] d (Dev.calDiff d i) := by
  unfold Dev.calDiff
  repeat' first
    | with_reducible apply Dev.onlyIn_refl
    | (with_reducible apply Dev.onlyIn_via (Dev.updCal_onlyIn _ _)) <;> [decide; skip]
    | (extract_lets +onlyGivenNames x; clear_value x; revert x; intros)
    | (with_reducible apply Dev.onlyIn_ite)

theorem Dev.calOpen_onlyIn (d : Dev) (i : TickIn) : Dev.onlyIn [.sense] d (Dev.calOpen d i) := by
  unfold Dev.calOpen
  repeat' first
    | with_reducible apply Dev.onlyIn_refl
    | (with_reducible apply Dev.onlyIn_via (Dev.updCal_onlyIn _ _)) <;> [decide; skip]
    | (extract_lets +onlyGivenNames x; clear_value x; revert x; intros)
    | (with_reducible apply Dev.onlyIn_ite)

theorem Dev.newRef_onlyIn (d : Dev) (sel : ℕ) (fb : Bool) : Dev.onlyIn [.sense] d (Dev.newRef d sel fb) := by
  unfold Dev.newRef
  repeat' first
    | with_reducible apply Dev.onlyIn_refl
    | (with_reducible apply Dev.onlyIn_via (Dev.updRef_onlyIn _ _)) <;> [decide; skip]

theorem Dev.auxNext_onlyIn (d : Dev) : Dev.onlyIn [.sense] d (Dev.auxNext d) := by
  unfold Dev.auxNext
  repeat' first
    | with_reducible apply Dev.onlyIn_refl
    | (with_reducible apply Dev.onlyIn_via (Dev.updAux_onlyIn _ _)) <;> [decide; skip]

theorem Dev.auxTick_onlyIn (d : Dev) (w : BitVec 16) (fired : Bool) : Dev.onlyIn [.sense] d (Dev.auxTick d w fired) := by
  unfold Dev.auxTick
  repeat' first
    | with_reducible apply Dev.onlyIn_refl
    | with_reducible assumption
    | (with_reducible apply Dev.onlyIn_via (Dev.auxNext_onlyIn _)) <;> [decide; skip]
    | (with_reducible apply Dev.onlyIn_via (Dev.updAux_onlyIn _ _)) <;> [decide; skip]
    | (extract_lets +onlyGivenNames x; refine Dev.onlyIn_cut x ?_ ?_ <;> [(dsimp -zeta -proj only [x]; clear x); (intro _; clear_value x; revert x; intros)])
    | (extract_lets +onlyGivenNames x; clear_value x; revert x; intros)
    | (with_reducible apply Dev.onlyIn_ite)

theorem Dev.oldTrims_onlyIn (d : Dev) : Dev.onlyIn [.sense] d (Dev.oldTrims d) := by
  unfold Dev.oldTrims
  repeat' first
    | with_reducible apply Dev.onlyIn_refl
    | (with_reducible apply Dev.onlyIn_via (Dev.updPre_onlyIn _ _ _)) <;> [decide; skip]
    | (with_reducible apply Dev.onlyIn_via (Dev.updCal_onlyIn _ _)) <;> [decide; skip]
    | (extract_lets +onlyGivenNames x; clear_value x; revert x; intros)
    | (with_reducible apply Dev.onlyIn_ite)

theorem Dev.calTick_onlyIn (d : Dev) : Dev.onlyIn [.sense] d (Dev.calTick d) := by
  unfold Dev.calTick
  repeat' first
    | with_reducible apply Dev.onlyIn_refl
    | with_reducible assumption
    | (with_reducible apply Dev.onlyIn_via (Dev.oldTrims_onlyIn _)) <;> [decide; skip]
    | (with_reducible apply Dev.onlyIn_via (Dev.updCal_onlyIn _ _)) <;> [decide; skip]
    | (extract_lets +onlyGivenNames x; refine Dev.onlyIn_cut x ?_ ?_ <;> [(dsimp -zeta -proj only [x]; clear x); (intro _; clear_value x; revert x; intros)])
    | (extract_lets +onlyGivenNames x; clear_value x; revert x; intros)
    | (with_reducible apply Dev.onlyIn_ite)

theorem Dev.calBoundary_onlyIn (d : Dev) : Dev.onlyIn [.sense] d (Dev.calBoundary d) := by
  unfold Dev.calBoundary
  repeat' first
    | with_reducible apply Dev.onlyIn_refl
    | (with_reducible apply Dev.onlyIn_via (Dev.updCal_onlyIn _ _)) <;> [decide; skip]

theorem Dev.calNow_onlyIn (d : Dev) (v : ℕ) : Dev.onlyIn [.sense] d (Dev.calNow d v) := by
  unfold Dev.calNow
  repeat' first
    | with_reducible apply Dev.onlyIn_refl
    | (with_reducible apply Dev.onlyIn_via (Dev.updCal_onlyIn _ _)) <;> [decide; skip]
    | (with_reducible apply Dev.onlyIn_ite)

theorem Dev.requestFrame_onlyIn (d : Dev) (n : ℕ) (f : StepFrame) (codeOk aligned late : Bool) : Dev.onlyIn [.stat, .adm] d (Dev.requestFrame d n f codeOk aligned late) := by
  unfold Dev.requestFrame
  repeat' first
    | with_reducible apply Dev.onlyIn_refl
    | with_reducible assumption
    | (with_reducible apply Dev.onlyIn_via (Dev.occur_onlyIn _ _ _)) <;> [decide; skip]
    | (with_reducible apply Dev.onlyIn_via (Dev.updPort_onlyIn _ _ _)) <;> [decide; skip]
    | (extract_lets +onlyGivenNames x; refine Dev.onlyIn_cut x ?_ ?_ <;> [(dsimp -zeta -proj only [x]; clear x); (intro _; clear_value x; revert x; intros)])
    | (extract_lets +onlyGivenNames x; clear_value x; revert x; intros)
    | (with_reducible apply Dev.onlyIn_ite)

theorem Dev.reply_onlyIn (d : Dev) (n : ℕ) (f : StepFrame) (x : Decision) : Dev.onlyIn [.adm] d (Dev.reply d n f x) := by
  unfold Dev.reply
  repeat' first
    | with_reducible apply Dev.onlyIn_refl
    | (with_reducible apply Dev.onlyIn_via (Dev.updPort_onlyIn _ _ _)) <;> [decide; skip]

theorem Dev.place_onlyIn (d : Dev) (i kind m : ℕ) (neg : Bool) (c o : ℕ) : Dev.onlyIn [.rails, .units, .sram, .adm] d (Dev.place d i kind m neg c o) := by
  unfold Dev.place
  repeat' first
    | with_reducible apply Dev.onlyIn_refl
    | with_reducible assumption
    | (with_reducible apply Dev.onlyIn_via (Dev.putFf_onlyIn _ _ _)) <;> [decide; skip]
    | (with_reducible apply Dev.onlyIn_via (Dev.updLed_onlyIn _ _)) <;> [decide; skip]
    | (with_reducible apply Dev.onlyIn_via (Dev.updLoad_onlyIn _ _ _)) <;> [decide; skip]
    | (with_reducible apply Dev.onlyIn_via (Dev.cancelShed_onlyIn _ _)) <;> [decide; skip]
    | (extract_lets +onlyGivenNames x; refine Dev.onlyIn_cut x ?_ ?_ <;> [(dsimp -zeta -proj only [x]; clear x); (intro _; clear_value x; revert x; intros)])
    | (extract_lets +onlyGivenNames x; clear_value x; revert x; intros)
    | (with_reducible apply Dev.onlyIn_ite)

theorem Dev.record_onlyIn (d : Dev) (i : ℕ) (f : StepFrame) (x : Decision) (mag : ℕ) : Dev.onlyIn [.adm, .jrn, .nv] d (Dev.record d i f x mag) := by
  unfold Dev.record
  repeat' first
    | with_reducible apply Dev.onlyIn_refl
    | with_reducible assumption
    | (with_reducible apply Dev.onlyIn_via (Dev.updLed_onlyIn _ _)) <;> [decide; skip]
    | (with_reducible apply Dev.onlyIn_via (Dev.updLoad_onlyIn _ _ _)) <;> [decide; skip]
    | (with_reducible apply Dev.onlyIn_via (Dev.journalGrant_onlyIn _ _ _ _ _ _ _ _)) <;> [decide; skip]
    | (extract_lets +onlyGivenNames x; refine Dev.onlyIn_cut x ?_ ?_ <;> [(dsimp -zeta -proj only [x]; clear x); (intro _; clear_value x; revert x; intros)])
    | (with_reducible apply Dev.onlyIn_ite)

theorem Dev.noStep_onlyIn (d : Dev) (i : ℕ) : Dev.onlyIn [.adm] d (Dev.noStep d i) := by
  unfold Dev.noStep
  repeat' first
    | with_reducible apply Dev.onlyIn_refl
    | (with_reducible apply Dev.onlyIn_via (Dev.updLoad_onlyIn _ _ _)) <;> [decide; skip]

theorem Dev.finish_onlyIn (d : Dev) (n i : ℕ) (f : StepFrame) (x : Decision) : Dev.onlyIn [.adm, .jrn, .nv] d (Dev.finish d n i f x) := by
  unfold Dev.finish
  repeat' first
    | with_reducible apply Dev.onlyIn_refl
    | (with_reducible apply Dev.onlyIn_via (Dev.reply_onlyIn _ _ _ _)) <;> [decide; skip]
    | (with_reducible apply Dev.onlyIn_via (Dev.record_onlyIn _ _ _ _ _)) <;> [decide; skip]

theorem Dev.denyReq_onlyIn (d : Dev) (n i : ℕ) (f : StepFrame) (dec : ℕ) : Dev.onlyIn [.adm, .jrn, .nv] d (Dev.denyReq d n i f dec) := by
  unfold Dev.denyReq
  repeat' first
    | with_reducible apply Dev.onlyIn_refl
    | (with_reducible apply Dev.onlyIn_via (Dev.finish_onlyIn _ _ _ _ _)) <;> [decide; skip]
    | (with_reducible apply Dev.onlyIn_via (Dev.noStep_onlyIn _ _)) <;> [decide; skip]

theorem Dev.decideRelease_onlyIn (d : Dev) (n i : ℕ) (f : StepFrame) : Dev.onlyIn [.rails, .units, .sram, .adm, .jrn, .nv] d (Dev.decideRelease d n i f) := by
  unfold Dev.decideRelease
  repeat' first
    | with_reducible apply Dev.onlyIn_refl
    | (with_reducible apply Dev.onlyIn_via (Dev.updLoad_onlyIn _ _ _)) <;> [decide; skip]
    | (with_reducible apply Dev.onlyIn_via (Dev.place_onlyIn _ _ _ _ _ _ _)) <;> [decide; skip]
    | (with_reducible apply Dev.onlyIn_via (Dev.finish_onlyIn _ _ _ _ _)) <;> [decide; skip]

theorem Dev.decideDown_onlyIn (d : Dev) (n i : ℕ) (f : StepFrame) : Dev.onlyIn [.stat, .rails, .units, .sram, .adm, .jrn, .nv] d (Dev.decideDown d n i f) := by
  unfold Dev.decideDown
  repeat' first
    | with_reducible apply Dev.onlyIn_refl
    | (with_reducible apply Dev.onlyIn_via (Dev.denyReq_onlyIn _ _ _ _ _)) <;> [decide; skip]
    | (with_reducible apply Dev.onlyIn_via (Dev.finish_onlyIn _ _ _ _ _)) <;> [decide; skip]
    | (with_reducible apply Dev.onlyIn_via (Dev.place_onlyIn _ _ _ _ _ _ _)) <;> [decide; skip]
    | (with_reducible apply Dev.onlyIn_via (Dev.occur_onlyIn _ _ _)) <;> [decide; skip]
    | (extract_lets +onlyGivenNames x; clear_value x; revert x; intros)
    | (with_reducible apply Dev.onlyIn_ite)
    | split

theorem Dev.decideAnnounce_onlyIn (d : Dev) (n i : ℕ) (f : StepFrame) : Dev.onlyIn [.adm, .jrn, .nv] d (Dev.decideAnnounce d n i f) := by
  unfold Dev.decideAnnounce
  repeat' first
    | with_reducible apply Dev.onlyIn_refl
    | with_reducible assumption
    | (with_reducible apply Dev.onlyIn_via (Dev.denyReq_onlyIn _ _ _ _ _)) <;> [decide; skip]
    | (with_reducible apply Dev.onlyIn_via (Dev.updLoad_onlyIn _ _ _)) <;> [decide; skip]
    | (with_reducible apply Dev.onlyIn_via (Dev.noStep_onlyIn _ _)) <;> [decide; skip]
    | (with_reducible apply Dev.onlyIn_via (Dev.updLed_onlyIn _ _)) <;> [decide; skip]
    | (with_reducible apply Dev.onlyIn_via (Dev.finish_onlyIn _ _ _ _ _)) <;> [decide; skip]
    | (extract_lets +onlyGivenNames x; refine Dev.onlyIn_cut x ?_ ?_ <;> [(dsimp -zeta -proj only [x]; clear x); (intro _; clear_value x; revert x; intros)])
    | (extract_lets +onlyGivenNames x; clear_value x; revert x; intros)
    | (with_reducible apply Dev.onlyIn_ite)

theorem Dev.decideUp_onlyIn (d : Dev) (n i : ℕ) (f : StepFrame) : Dev.onlyIn [.rails, .units, .sram, .adm, .jrn, .nv] d (Dev.decideUp d n i f) := by
  unfold Dev.decideUp
  repeat' first
    | with_reducible apply Dev.onlyIn_refl
    | (with_reducible apply Dev.onlyIn_via (Dev.denyReq_onlyIn _ _ _ _ _)) <;> [decide; skip]
    | (with_reducible apply Dev.onlyIn_via (Dev.finish_onlyIn _ _ _ _ _)) <;> [decide; skip]
    | (with_reducible apply Dev.onlyIn_via (Dev.place_onlyIn _ _ _ _ _ _ _)) <;> [decide; skip]
    | (with_reducible apply Dev.onlyIn_via (Dev.updLoad_onlyIn _ _ _)) <;> [decide; skip]
    | (extract_lets +onlyGivenNames x; subst x; beta_reduce)
    | (with_reducible apply Dev.onlyIn_ite)
    | split

theorem Dev.unplace_onlyIn (d : Dev) (i s : ℕ) : Dev.onlyIn [.adm] d (Dev.unplace d i s) := by
  unfold Dev.unplace
  repeat' first
    | with_reducible apply Dev.onlyIn_refl
    | (with_reducible apply Dev.onlyIn_via (Dev.updLed_onlyIn _ _)) <;> [decide; skip]
    | (with_reducible apply Dev.onlyIn_via (Dev.updLoad_onlyIn _ _ _)) <;> [decide; skip]

theorem Dev.placeAgain_onlyIn (d : Dev) (n i : ℕ) (f : StepFrame) (kind m c dec mag : ℕ) (neg : Bool) : Dev.onlyIn [.stat, .rails, .units, .sram, .adm, .jrn, .nv] d (Dev.placeAgain d n i f kind m c dec mag neg) := by
  unfold Dev.placeAgain
  repeat' first
    | with_reducible apply Dev.onlyIn_refl
    | with_reducible assumption
    | (with_reducible apply Dev.onlyIn_via (Dev.place_onlyIn _ _ _ _ _ _ _)) <;> [decide; skip]
    | (with_reducible apply Dev.onlyIn_via (Dev.journalGrant_onlyIn _ _ _ _ _ _ _ _)) <;> [decide; skip]
    | (with_reducible apply Dev.onlyIn_via (Dev.reply_onlyIn _ _ _ _)) <;> [decide; skip]
    | (with_reducible apply Dev.onlyIn_via (Dev.updLoad_onlyIn _ _ _)) <;> [decide; skip]
    | (with_reducible apply Dev.onlyIn_via (Dev.occur_onlyIn _ _ _)) <;> [decide; skip]
    | (extract_lets +onlyGivenNames x; refine Dev.onlyIn_cut x ?_ ?_ <;> [(dsimp -zeta -proj only [x]; clear x); (intro _; clear_value x; revert x; intros)])
    | (extract_lets +onlyGivenNames x; subst x; beta_reduce)
    | (with_reducible apply Dev.onlyIn_ite)
    | split

theorem Dev.takeBack_onlyIn (d : Dev) (i s : ℕ) : Dev.onlyIn [.adm] d (Dev.takeBack d i s) := by
  unfold Dev.takeBack
  repeat' first
    | with_reducible apply Dev.onlyIn_refl
    | (with_reducible apply Dev.onlyIn_via (Dev.updLoad_onlyIn _ _ _)) <;> [decide; skip]
    | (with_reducible apply Dev.onlyIn_ite)
    | split

theorem Dev.duplicate_onlyIn (d : Dev) (n i : ℕ) (f : StepFrame) : Dev.onlyIn [.stat, .rails, .units, .sram, .adm, .jrn, .nv] d (Dev.duplicate d n i f) := by
  unfold Dev.duplicate
  repeat' first
    | with_reducible apply Dev.onlyIn_refl
    | with_reducible assumption
    | (with_reducible apply Dev.onlyIn_via (Dev.reply_onlyIn _ _ _ _)) <;> [decide; skip]
    | (with_reducible apply Dev.onlyIn_via (Dev.updLed_onlyIn _ _)) <;> [decide; skip]
    | (with_reducible apply Dev.onlyIn_via (Dev.placeAgain_onlyIn _ _ _ _ _ _ _ _ _ _)) <;> [decide; skip]
    | (with_reducible apply Dev.onlyIn_via (Dev.unplace_onlyIn _ _ _)) <;> [decide; skip]
    | (with_reducible apply Dev.onlyIn_via (Dev.takeBack_onlyIn _ _ _)) <;> [decide; skip]
    | (fail_if_success with_reducible apply Dev.onlyIn_put_dma); (with_reducible apply Dev.onlyIn_put_jrn) <;> [skip; decide]
    | (extract_lets +onlyGivenNames x; refine Dev.onlyIn_cut x ?_ ?_ <;> [(dsimp -zeta -proj only [x]; clear x); (intro _; clear_value x; revert x; intros)])
    | (extract_lets +onlyGivenNames x; clear_value x; revert x; intros)
    | (with_reducible apply Dev.onlyIn_ite)
    | split

theorem Dev.seen_onlyIn (d : Dev) (n i : ℕ) : Dev.onlyIn [.adm] d (Dev.seen d n i) := by
  unfold Dev.seen
  repeat' first
    | with_reducible apply Dev.onlyIn_refl
    | (with_reducible apply Dev.onlyIn_via (Dev.updLoad_onlyIn _ _ _)) <;> [decide; skip]
    | (with_reducible apply Dev.onlyIn_via (Dev.updPort_onlyIn _ _ _)) <;> [decide; skip]

theorem Dev.nudgeTick_onlyIn (d : Dev) : Dev.onlyIn [.adm] d (Dev.nudgeTick d) := by
  unfold Dev.nudgeTick
  repeat' first
    | with_reducible apply Dev.onlyIn_refl
    | (with_reducible apply Dev.onlyIn_via (Dev.updLed_onlyIn _ _)) <;> [decide; skip]
    | (extract_lets +onlyGivenNames x; clear_value x; revert x; intros)
    | (with_reducible apply Dev.onlyIn_ite)

theorem Dev.admitEnd_onlyIn (d : Dev) : Dev.onlyIn [.adm] d (Dev.admitEnd d) := by
  unfold Dev.admitEnd
  repeat' first
    | with_reducible apply Dev.onlyIn_refl
    | (with_reducible apply Dev.onlyIn_via (Dev.nudgeTick_onlyIn _)) <;> [decide; skip]
    | (with_reducible apply Dev.onlyIn_ite)

theorem Dev.request_onlyIn {l : List Part} (d : Dev) (n : ℕ) (f : StepFrame) (cmp : Bool) (decide : Dev → ℕ → StepFrame → Dev) (hW : [.stat, .rails, .units, .sram, .adm, .jrn, .nv] ⊆ l) (hf : ∀ y0 y1 y2, Dev.onlyIn l y0 (decide y0 y1 y2)) : Dev.onlyIn l d (Dev.request d n f cmp decide) := by
  unfold Dev.request
  repeat' first
    | with_reducible apply Dev.onlyIn_refl
    | with_reducible apply Dev.onlyIn_then (hf _ _ _)
    | (with_reducible apply Dev.onlyIn_via (Dev.updPort_onlyIn _ _ _)) <;> [exact List.Subset.trans (by decide) hW; skip]
    | (with_reducible apply Dev.onlyIn_via (Dev.seen_onlyIn _ _ _)) <;> [exact List.Subset.trans (by decide) hW; skip]
    | (with_reducible apply Dev.onlyIn_via (Dev.occur_onlyIn _ _ _)) <;> [exact List.Subset.trans (by decide) hW; skip]
    | (with_reducible apply Dev.onlyIn_via (Dev.reply_onlyIn _ _ _ _)) <;> [exact List.Subset.trans (by decide) hW; skip]
    | (with_reducible apply Dev.onlyIn_via (Dev.updLed_onlyIn _ _)) <;> [exact List.Subset.trans (by decide) hW; skip]
    | (with_reducible apply Dev.onlyIn_via (Dev.duplicate_onlyIn _ _ _ _)) <;> [exact List.Subset.trans (by decide) hW; skip]
    | (with_reducible apply Dev.onlyIn_via (Dev.admitEnd_onlyIn _)) <;> [exact List.Subset.trans (by decide) hW; skip]
    | (extract_lets +onlyGivenNames x; clear_value x; revert x; intros)
    | (with_reducible apply Dev.onlyIn_ite)

theorem Dev.heartbeatCount_onlyIn (d : Dev) (n i : ℕ) (f : StepFrame) : Dev.onlyIn [.stat, .adm] d (Dev.heartbeatCount d n i f) := by
  unfold Dev.heartbeatCount
  repeat' first
    | with_reducible apply Dev.onlyIn_refl
    | with_reducible assumption
    | (with_reducible apply Dev.onlyIn_via (Dev.updPort_onlyIn _ _ _)) <;> [decide; skip]
    | (with_reducible apply Dev.onlyIn_via (Dev.capRaise_onlyIn _ _)) <;> [decide; skip]
    | (with_reducible apply Dev.onlyIn_via (Dev.occur_onlyIn _ _ _)) <;> [decide; skip]
    | (extract_lets +onlyGivenNames x; refine Dev.onlyIn_cut x ?_ ?_ <;> [(dsimp -zeta -proj only [x]; clear x); (intro _; clear_value x; revert x; intros)])
    | (extract_lets +onlyGivenNames x; clear_value x; revert x; intros)
    | (with_reducible apply Dev.onlyIn_ite)

theorem Dev.decideHeartbeat_onlyIn (d : Dev) (n i : ℕ) (f : StepFrame) : Dev.onlyIn [.stat, .adm] d (Dev.decideHeartbeat d n i f) := by
  unfold Dev.decideHeartbeat
  repeat' first
    | with_reducible apply Dev.onlyIn_refl
    | (with_reducible apply Dev.onlyIn_via (Dev.heartbeatCount_onlyIn _ _ _ _)) <;> [decide; skip]
    | (with_reducible apply Dev.onlyIn_via (Dev.reply_onlyIn _ _ _ _)) <;> [decide; skip]
    | (with_reducible apply Dev.onlyIn_via (Dev.updLed_onlyIn _ _)) <;> [decide; skip]

theorem Dev.decideReq_onlyIn (d : Dev) (n : ℕ) (f : StepFrame) : Dev.onlyIn [.stat, .rails, .units, .sram, .adm, .jrn, .nv] d (Dev.decideReq d n f) := by
  unfold Dev.decideReq
  repeat' first
    | with_reducible apply Dev.onlyIn_refl
    | (with_reducible apply Dev.onlyIn_then (Dev.request_onlyIn _ _ _ _ _ ?_ ?_)) <;> [skip; decide; (intro _ _ _ )]
    | (with_reducible apply Dev.onlyIn_via (Dev.decideDown_onlyIn _ _ _ _)) <;> [decide; skip]
    | (with_reducible apply Dev.onlyIn_via (Dev.decideAnnounce_onlyIn _ _ _ _)) <;> [decide; skip]
    | (with_reducible apply Dev.onlyIn_via (Dev.decideRelease_onlyIn _ _ _ _)) <;> [decide; skip]
    | (with_reducible apply Dev.onlyIn_via (Dev.decideHeartbeat_onlyIn _ _ _ _)) <;> [decide; skip]
    | (with_reducible apply Dev.onlyIn_via (Dev.decideUp_onlyIn _ _ _ _)) <;> [decide; skip]
    | (with_reducible apply Dev.onlyIn_ite)

theorem Dev.admitCmd_onlyIn (d : Dev) (n kind : ℕ) : Dev.onlyIn [.stat, .rails, .units, .sram, .adm, .jrn, .nv] d (Dev.admitCmd d n kind) := by
  unfold Dev.admitCmd
  repeat' first
    | with_reducible apply Dev.onlyIn_refl
    | (with_reducible apply Dev.onlyIn_via (Dev.decideReq_onlyIn _ _ _)) <;> [decide; skip]
    | (with_reducible apply Dev.onlyIn_ite)
    | split

theorem Dev.settleRequests_onlyIn (d : Dev) : Dev.onlyIn [.stat, .rails, .units, .sram, .adm, .jrn, .nv] d (Dev.settleRequests d) := by
  unfold Dev.settleRequests
  repeat' first
    | with_reducible apply Dev.onlyIn_refl
    | (with_reducible apply Dev.onlyIn_via (Dev.decideReq_onlyIn _ _ _)) <;> [decide; skip]
    | (with_reducible apply Dev.onlyIn_foldl) <;> [(intro _ _); skip]
    | (with_reducible apply Dev.onlyIn_ite)
    | split

theorem Dev.allocTick_onlyIn (d : Dev) : Dev.onlyIn [.adm] d (Dev.allocTick d) := by
  unfold Dev.allocTick
  repeat' first
    | with_reducible apply Dev.onlyIn_refl
    | (with_reducible apply Dev.onlyIn_via (Dev.updLoad_onlyIn _ _ _)) <;> [decide; skip]
    | (with_reducible apply Dev.onlyIn_via (Dev.updLed_onlyIn _ _)) <;> [decide; skip]
    | (with_reducible apply Dev.onlyIn_foldl) <;> [(intro _ _); skip]

theorem Dev.pruneSteps_onlyIn (d : Dev) : Dev.onlyIn [.adm] d (Dev.pruneSteps d) := by
  unfold Dev.pruneSteps
  repeat' first
    | with_reducible apply Dev.onlyIn_refl
    | (with_reducible apply Dev.onlyIn_via (Dev.updLed_onlyIn _ _)) <;> [decide; skip]

theorem Dev.ledgerFire_onlyIn (d : Dev) : Dev.onlyIn [.sram, .adm] d (Dev.ledgerFire d) := by
  unfold Dev.ledgerFire
  repeat' first
    | with_reducible apply Dev.onlyIn_refl
    | (with_reducible apply Dev.onlyIn_via (Dev.allocTick_onlyIn _)) <;> [decide; skip]
    | (with_reducible apply Dev.onlyIn_via (Dev.pruneSteps_onlyIn _)) <;> [decide; skip]
    | (with_reducible apply Dev.onlyIn_via (Dev.updLed_onlyIn _ _)) <;> [decide; skip]
    | (with_reducible apply Dev.onlyIn_via (Dev.ffTick_onlyIn _)) <;> [decide; skip]
    | (with_reducible apply Dev.onlyIn_via (Dev.learnTick_onlyIn _)) <;> [decide; skip]
    | (with_reducible apply Dev.onlyIn_via (Dev.limitTick_onlyIn _)) <;> [decide; skip]

theorem Dev.admitFire_onlyIn (d : Dev) : Dev.onlyIn [.adm] d (Dev.admitFire d) := by
  unfold Dev.admitFire
  repeat' first
    | with_reducible apply Dev.onlyIn_refl
    | (with_reducible apply Dev.onlyIn_via (Dev.admitEnd_onlyIn _)) <;> [decide; skip]
    | (with_reducible apply Dev.onlyIn_via (Dev.updLed_onlyIn _ _)) <;> [decide; skip]

theorem Dev.admNewTick_onlyIn (d : Dev) : Dev.onlyIn [.adm] d (Dev.admNewTick d) := by
  unfold Dev.admNewTick
  repeat' first
    | with_reducible apply Dev.onlyIn_refl
    | (fail_if_success with_reducible apply Dev.onlyIn_put_dma); (with_reducible apply Dev.onlyIn_put_adm) <;> [skip; decide]

theorem Dev.ledgerCurrents_onlyIn (d : Dev) : Dev.onlyIn [.adm] d (Dev.ledgerCurrents d) := by
  unfold Dev.ledgerCurrents
  repeat' first
    | with_reducible apply Dev.onlyIn_refl
    | (with_reducible apply Dev.onlyIn_via (Dev.updLed_onlyIn _ _)) <;> [decide; skip]

theorem Dev.noAdmit_onlyIn (d : Dev) : Dev.onlyIn [.stat, .adm] d (Dev.noAdmit d) := by
  unfold Dev.noAdmit
  repeat' first
    | with_reducible apply Dev.onlyIn_refl
    | with_reducible assumption
    | (with_reducible apply Dev.onlyIn_via (Dev.occur_onlyIn _ _ _)) <;> [decide; skip]
    | (fail_if_success with_reducible apply Dev.onlyIn_put_dma); (with_reducible apply Dev.onlyIn_put_adm) <;> [skip; decide]
    | (extract_lets +onlyGivenNames x; refine Dev.onlyIn_cut x ?_ ?_ <;> [(dsimp -zeta -proj only [x]; clear x); (intro _; clear_value x; revert x; intros)])
    | (extract_lets +onlyGivenNames x; clear_value x; revert x; intros)
    | (with_reducible apply Dev.onlyIn_ite)

theorem Dev.admFrond_onlyIn (d : Dev) : Dev.onlyIn [.adm] d (Dev.admFrond d) := by
  unfold Dev.admFrond
  repeat' first
    | with_reducible apply Dev.onlyIn_refl
    | (with_reducible apply Dev.onlyIn_then (foldN_onlyIn _ _ _ ?_)) <;> [skip; (intro _ _ )]
    | (with_reducible apply Dev.onlyIn_via (Dev.updPort_onlyIn _ _ _)) <;> [decide; skip]
    | (with_reducible apply Dev.onlyIn_via (Dev.learnFrond_onlyIn _)) <;> [decide; skip]
    | (with_reducible apply Dev.onlyIn_via (Dev.updLed_onlyIn _ _)) <;> [decide; skip]

theorem Dev.journal_onlyIn (d : Dev) (kind src seq : ℕ) (payload : List Byte) : Dev.onlyIn [.jrn, .nv] d (Dev.journal d kind src seq payload) := by
  unfold Dev.journal
  repeat' first
    | with_reducible apply Dev.onlyIn_refl
    | (with_reducible apply Dev.onlyIn_via (Dev.nvPut2_onlyIn _ _ _ _)) <;> [decide; skip]
    | (with_reducible apply Dev.onlyIn_via (Dev.updJrn_onlyIn _ _)) <;> [decide; skip]

theorem Dev.putSource_onlyIn (d : Dev) (i : ℕ) : Dev.onlyIn [.nv] d (Dev.putSource d i) := by
  unfold Dev.putSource
  repeat' first
    | with_reducible apply Dev.onlyIn_refl
    | (with_reducible apply Dev.onlyIn_via (Dev.nvPut2_onlyIn _ _ _ _)) <;> [decide; skip]
    | (with_reducible apply Dev.onlyIn_ite)
    | split

theorem Dev.updSource_onlyIn (d : Dev) (id : ℕ) (f : Source → Source) : Dev.onlyIn [.jrn, .nv] d (Dev.updSource d id f) := by
  unfold Dev.updSource
  repeat' first
    | with_reducible apply Dev.onlyIn_refl
    | (with_reducible apply Dev.onlyIn_via (Dev.putSource_onlyIn _ _)) <;> [decide; skip]
    | (with_reducible apply Dev.onlyIn_via (Dev.updJrn_onlyIn _ _)) <;> [decide; skip]
    | (with_reducible apply Dev.onlyIn_ite)
    | split

theorem Dev.refuseItem_onlyIn (d : Dev) (code : ℕ) : Dev.onlyIn [.stat, .jrn] d (Dev.refuseItem d code) := by
  unfold Dev.refuseItem
  repeat' first
    | with_reducible apply Dev.onlyIn_refl
    | with_reducible assumption
    | (with_reducible apply Dev.onlyIn_via (Dev.updJrn_onlyIn _ _)) <;> [decide; skip]
    | (with_reducible apply Dev.onlyIn_via (Dev.occur_onlyIn _ _ _)) <;> [decide; skip]
    | (extract_lets +onlyGivenNames x; refine Dev.onlyIn_cut x ?_ ?_ <;> [(dsimp -zeta -proj only [x]; clear x); (intro _; clear_value x; revert x; intros)])
    | (with_reducible apply Dev.onlyIn_ite)

theorem Dev.acceptItem_onlyIn (d : Dev) (src seq code : ℕ) (args : List Byte) (fabric : Bool) : Dev.onlyIn [.jrn, .nv] d (Dev.acceptItem d src seq code args fabric).1 := by
  unfold Dev.acceptItem
  repeat' first
    | with_reducible apply Dev.onlyIn_refl
    | (with_reducible apply Dev.onlyIn_via (Dev.nvPut_onlyIn _ _ _)) <;> [decide; skip]
    | (with_reducible apply Dev.onlyIn_via (Dev.journal_onlyIn _ _ _ _ _)) <;> [decide; skip]
    | (with_reducible apply Dev.onlyIn_via (Dev.updJrn_onlyIn _ _)) <;> [decide; skip]
    | (with_reducible apply Dev.onlyIn_via (Dev.updSource_onlyIn _ _ _)) <;> [decide; skip]
    | (with_reducible apply Dev.onlyIn_ite)

theorem Dev.decideItem_onlyIn (d : Dev) (src seq code : ℕ) (args : List Byte) (fabric : Bool) : Dev.onlyIn [.stat, .jrn, .nv] d (Dev.decideItem d src seq code args fabric).1 := by
  unfold Dev.decideItem
  repeat' first
    | with_reducible apply Dev.onlyIn_refl
    | with_reducible assumption
    | (with_reducible apply Dev.onlyIn_via (Dev.refuseItem_onlyIn _ _)) <;> [decide; skip]
    | (with_reducible apply Dev.onlyIn_via (Dev.updJrn_onlyIn _ _)) <;> [decide; skip]
    | (with_reducible apply Dev.onlyIn_via (Dev.acceptItem_onlyIn _ _ _ _ _ _)) <;> [decide; skip]
    | (extract_lets +onlyGivenNames x; refine Dev.onlyIn_cut x ?_ ?_ <;> [(dsimp -zeta -proj only [x]; clear x); (intro _; clear_value x; revert x; intros)])
    | (extract_lets +onlyGivenNames x; subst x; beta_reduce)
    | (with_reducible apply Dev.onlyIn_ite)
    | split

theorem Dev.decideOpen_onlyIn (d : Dev) (src seq : ℕ) (fabric : Bool) : Dev.onlyIn [.stat, .jrn, .nv] d (Dev.decideOpen d src seq fabric).1 := by
  unfold Dev.decideOpen
  repeat' first
    | with_reducible apply Dev.onlyIn_refl
    | (with_reducible apply Dev.onlyIn_via (Dev.refuseItem_onlyIn _ _)) <;> [decide; skip]
    | (with_reducible apply Dev.onlyIn_via (Dev.acceptItem_onlyIn _ _ _ _ _ _)) <;> [decide; skip]
    | (with_reducible apply Dev.onlyIn_via (Dev.updSource_onlyIn _ _ _)) <;> [decide; skip]
    | (with_reducible apply Dev.onlyIn_via (Dev.updJrn_onlyIn _ _)) <;> [decide; skip]
    | (extract_lets +onlyGivenNames x; subst x; beta_reduce)
    | (with_reducible apply Dev.onlyIn_ite)
    | split

theorem Dev.decideAny_onlyIn (d : Dev) (src seq code : ℕ) (args : List Byte) (fabric : Bool) : Dev.onlyIn [.stat, .jrn, .nv] d (Dev.decideAny d src seq code args fabric).1 := by
  unfold Dev.decideAny
  repeat' first
    | with_reducible apply Dev.onlyIn_refl
    | (with_reducible apply Dev.onlyIn_via (Dev.decideOpen_onlyIn _ _ _ _)) <;> [decide; skip]
    | (with_reducible apply Dev.onlyIn_via (Dev.decideItem_onlyIn _ _ _ _ _ _)) <;> [decide; skip]
    | (with_reducible apply Dev.onlyIn_ite)
    | split

theorem Dev.updHead_onlyIn (d : Dev) (f : WorkItem → WorkItem) : Dev.onlyIn [.jrn] d (Dev.updHead d f) := by
  unfold Dev.updHead
  repeat' first
    | with_reducible apply Dev.onlyIn_refl
    | (with_reducible apply Dev.onlyIn_via (Dev.updJrn_onlyIn _ _)) <;> [decide; skip]

theorem Dev.endItem_onlyIn (d : Dev) (status result : ℕ) : Dev.onlyIn [.jrn] d (Dev.endItem d status result) := by
  unfold Dev.endItem
  repeat' first
    | with_reducible apply Dev.onlyIn_refl
    | (with_reducible apply Dev.onlyIn_via (Dev.updHead_onlyIn _ _)) <;> [decide; skip]

theorem Dev.execHead_onlyIn {l : List Part} (d : Dev) (code : ℕ) (f : Dev → WorkItem → Dev) (hf : ∀ y0 y1, Dev.onlyIn l y0 (f y0 y1)) : Dev.onlyIn l d (Dev.execHead d code f) := by
  unfold Dev.execHead
  repeat' first
    | with_reducible apply Dev.onlyIn_refl
    | with_reducible apply Dev.onlyIn_then (hf _ _)
    | (with_reducible apply Dev.onlyIn_ite)
    | split

theorem Dev.startItem_onlyIn (d : Dev) : Dev.onlyIn [.jrn] d (Dev.startItem d) := by
  unfold Dev.startItem
  repeat' first
    | with_reducible apply Dev.onlyIn_refl
    | (with_reducible apply Dev.onlyIn_via (Dev.updHead_onlyIn _ _)) <;> [decide; skip]

theorem Dev.execMark_onlyIn (d : Dev) (w : WorkItem) : Dev.onlyIn [.jrn, .nv] d (Dev.execMark d w) := by
  unfold Dev.execMark
  repeat' first
    | with_reducible apply Dev.onlyIn_refl
    | (with_reducible apply Dev.onlyIn_via (Dev.updHead_onlyIn _ _)) <;> [decide; skip]
    | (with_reducible apply Dev.onlyIn_via (Dev.journal_onlyIn _ _ _ _ _)) <;> [decide; skip]
    | (with_reducible apply Dev.onlyIn_ite)

theorem Dev.setUpd_onlyIn (d : Dev) (st : UpdState) : Dev.onlyIn [.twT, .upd] d (Dev.setUpd d st) := by
  unfold Dev.setUpd
  repeat' first
    | with_reducible apply Dev.onlyIn_refl
    | with_reducible assumption
    | (with_reducible apply Dev.onlyIn_via (Dev.updUpd_onlyIn _ _)) <;> [decide; skip]
    | (with_reducible apply Dev.onlyIn_then (foldN_onlyIn _ _ _ ?_)) <;> [skip; (intro _ _ )]
    | (with_reducible apply Dev.onlyIn_via (Dev.updTwT_onlyIn _ _ _)) <;> [decide; skip]
    | (extract_lets +onlyGivenNames x; refine Dev.onlyIn_cut x ?_ ?_ <;> [(dsimp -zeta -proj only [x]; clear x); (intro _; clear_value x; revert x; intros)])
    | (with_reducible apply Dev.onlyIn_ite)

theorem Dev.confirmOver_onlyIn (d : Dev) : Dev.onlyIn [.twT, .upd] d (Dev.confirmOver d) := by
  unfold Dev.confirmOver
  repeat' first
    | with_reducible apply Dev.onlyIn_refl
    | (with_reducible apply Dev.onlyIn_via (Dev.setUpd_onlyIn _ _)) <;> [decide; skip]
    | (with_reducible apply Dev.onlyIn_via (Dev.updUpd_onlyIn _ _)) <;> [decide; skip]

theorem Dev.confirmFail_onlyIn (d : Dev) (item : ℕ) : Dev.onlyIn [.jrn, .twT, .upd] d (Dev.confirmFail d item) := by
  unfold Dev.confirmFail
  repeat' first
    | with_reducible apply Dev.onlyIn_refl
    | (with_reducible apply Dev.onlyIn_via (Dev.endItem_onlyIn _ _ _)) <;> [decide; skip]
    | (with_reducible apply Dev.onlyIn_via (Dev.confirmOver_onlyIn _)) <;> [decide; skip]

theorem Dev.crustSpent_onlyIn (d : Dev) (i : ℕ) : Dev.onlyIn [.stat] d (Dev.crustSpent d i) := by
  unfold Dev.crustSpent
  repeat' first
    | with_reducible apply Dev.onlyIn_refl
    | (with_reducible apply Dev.onlyIn_via (Dev.occur_onlyIn _ _ _)) <;> [decide; skip]
    | (with_reducible apply Dev.onlyIn_ite)

theorem Dev.crustTorn_onlyIn (d : Dev) (j : CrustJob) : Dev.onlyIn [.stat, .jrn, .twT, .upd] d (Dev.crustTorn d j) := by
  unfold Dev.crustTorn
  repeat' first
    | with_reducible apply Dev.onlyIn_refl
    | with_reducible assumption
    | (with_reducible apply Dev.onlyIn_via (Dev.crustSpent_onlyIn _ _)) <;> [decide; skip]
    | (with_reducible apply Dev.onlyIn_via (Dev.occur_onlyIn _ _ _)) <;> [decide; skip]
    | (with_reducible apply Dev.onlyIn_via (Dev.endItem_onlyIn _ _ _)) <;> [decide; skip]
    | (with_reducible apply Dev.onlyIn_via (Dev.confirmFail_onlyIn _ _)) <;> [decide; skip]
    | (extract_lets +onlyGivenNames x; refine Dev.onlyIn_cut x ?_ ?_ <;> [(dsimp -zeta -proj only [x]; clear x); (intro _; clear_value x; revert x; intros)])
    | (with_reducible apply Dev.onlyIn_ite)

theorem Dev.completeHead_onlyIn (d : Dev) : Dev.onlyIn [.stat, .jrn, .nv, .twT] d (Dev.completeHead d) := by
  unfold Dev.completeHead
  repeat' first
    | with_reducible apply Dev.onlyIn_refl
    | with_reducible assumption
    | (with_reducible apply Dev.onlyIn_via (Dev.nvPut_onlyIn _ _ _)) <;> [decide; skip]
    | (with_reducible apply Dev.onlyIn_via (Dev.updJrn_onlyIn _ _)) <;> [decide; skip]
    | (with_reducible apply Dev.onlyIn_via (Dev.updSource_onlyIn _ _ _)) <;> [decide; skip]
    | (with_reducible apply Dev.onlyIn_via (Dev.occur_onlyIn _ _ _)) <;> [decide; skip]
    | (with_reducible apply Dev.onlyIn_via (Dev.updTwT_onlyIn _ _ _)) <;> [decide; skip]
    | (extract_lets +onlyGivenNames x; refine Dev.onlyIn_cut x ?_ ?_ <;> [(dsimp -zeta -proj only [x]; clear x); (intro _; clear_value x; revert x; intros)])
    | (extract_lets +onlyGivenNames x; clear_value x; revert x; intros)
    | (with_reducible apply Dev.onlyIn_ite)
    | split

theorem Dev.moveCompRd_onlyIn (d : Dev) (v : ℕ) : Dev.onlyIn [.jrn] d (Dev.moveCompRd d v) := by
  unfold Dev.moveCompRd
  repeat' first
    | with_reducible apply Dev.onlyIn_refl
    | (with_reducible apply Dev.onlyIn_via (Dev.updJrn_onlyIn _ _)) <;> [decide; skip]
    | (extract_lets +onlyGivenNames x; clear_value x; revert x; intros)
    | (with_reducible apply Dev.onlyIn_ite)

theorem Dev.pbFrond_onlyIn (d : Dev) : Dev.onlyIn [.fh] d (Dev.pbFrond d) := by
  unfold Dev.pbFrond
  repeat' first
    | with_reducible apply Dev.onlyIn_refl
    | (with_reducible apply Dev.onlyIn_via (Dev.updFh_onlyIn _ _)) <;> [decide; skip]

theorem Dev.assertReset_onlyIn (d : Dev) (cause : ℕ) : Dev.onlyIn [.die, .sup, .fh] d (Dev.assertReset d cause) := by
  unfold Dev.assertReset
  repeat' first
    | with_reducible apply Dev.onlyIn_refl
    | (with_reducible apply Dev.onlyIn_via (Dev.updFh_onlyIn _ _)) <;> [decide; skip]
    | (with_reducible apply Dev.onlyIn_via (Dev.updSup_onlyIn _ _)) <;> [decide; skip]
    | (fail_if_success with_reducible apply Dev.onlyIn_put_dma); (with_reducible apply Dev.onlyIn_put_die) <;> [skip; decide]

theorem Dev.crustTear_onlyIn (d : Dev) : Dev.onlyIn [.stat, .jrn, .crust, .twT, .upd] d (Dev.crustTear d) := by
  unfold Dev.crustTear
  repeat' first
    | with_reducible apply Dev.onlyIn_refl
    | (with_reducible apply Dev.onlyIn_via (Dev.crustTorn_onlyIn _ _)) <;> [decide; skip]
    | (fail_if_success with_reducible apply Dev.onlyIn_put_dma); (with_reducible apply Dev.onlyIn_put_crust) <;> [skip; decide]
    | (with_reducible apply Dev.onlyIn_ite)
    | split

theorem Dev.holdFrond_onlyIn (d : Dev) : Dev.onlyIn [.sup] d (Dev.holdFrond d) := by
  unfold Dev.holdFrond
  repeat' first
    | with_reducible apply Dev.onlyIn_refl
    | (with_reducible apply Dev.onlyIn_via (Dev.updSup_onlyIn _ _)) <;> [decide; skip]

theorem Dev.loseCoreS_onlyIn (d : Dev) : Dev.onlyIn [.die, .stat, .sup, .units, .nv, .peat, .feedA, .feedB, .hs, .fh] d (Dev.loseCoreS d) := by
  unfold Dev.loseCoreS
  repeat' first
    | with_reducible apply Dev.onlyIn_refl
    | (with_reducible apply Dev.onlyIn_via (Dev.assertReset_onlyIn _ _)) <;> [decide; skip]
    | (with_reducible apply Dev.onlyIn_via (Dev.enterSafe_onlyIn _ _)) <;> [decide; skip]
    | (with_reducible apply Dev.onlyIn_via (Dev.updSup_onlyIn _ _)) <;> [decide; skip]

theorem Dev.loseCore_onlyIn (d : Dev) (t : Twin) : Dev.onlyIn [.time, .sup] d (Dev.loseCore d t) := by
  unfold Dev.loseCore
  repeat' first
    | with_reducible apply Dev.onlyIn_refl
    | with_reducible assumption
    | (with_reducible apply Dev.onlyIn_via (Dev.updSup_onlyIn _ _)) <;> [decide; skip]
    | (fail_if_success with_reducible apply Dev.onlyIn_put_dma); (with_reducible apply Dev.onlyIn_put_time) <;> [skip; decide]
    | (extract_lets +onlyGivenNames x; refine Dev.onlyIn_cut x ?_ ?_ <;> [(dsimp -zeta -proj only [x]; clear x); (intro _; clear_value x; revert x; intros)])
    | (extract_lets +onlyGivenNames x; clear_value x; revert x; intros)
    | (with_reducible apply Dev.onlyIn_ite)
    | split

theorem Dev.vanaLoss_onlyIn (d : Dev) (g : Region) : Dev.onlyIn [.time, .die, .stat, .sup, .rails, .units, .clusters, .inj, .adm, .xfer, .fh, .therm] d (Dev.vanaLoss d g) := by
  unfold Dev.vanaLoss
  repeat' first
    | with_reducible apply Dev.onlyIn_refl
    | with_reducible assumption
    | (with_reducible apply Dev.onlyIn_via (Dev.updSup_onlyIn _ _)) <;> [decide; skip]
    | (with_reducible apply Dev.onlyIn_via (Dev.loseRegion_onlyIn _ _)) <;> [decide; skip]
    | (fail_if_success with_reducible apply Dev.onlyIn_put_dma); (with_reducible apply Dev.onlyIn_put_time) <;> [skip; decide]
    | (extract_lets +onlyGivenNames x; refine Dev.onlyIn_cut x ?_ ?_ <;> [(dsimp -zeta -proj only [x]; clear x); (intro _; clear_value x; revert x; intros)])
    | (extract_lets +onlyGivenNames x; clear_value x; revert x; intros)
    | (with_reducible apply Dev.onlyIn_ite)
    | split

theorem Dev.vanaBack_onlyIn (d : Dev) (g : Region) : Dev.onlyIn [.time, .die, .sup, .units, .sense, .xfer, .therm] d (Dev.vanaBack d g) := by
  unfold Dev.vanaBack
  repeat' first
    | with_reducible apply Dev.onlyIn_refl
    | with_reducible assumption
    | (with_reducible apply Dev.onlyIn_via (Dev.updSup_onlyIn _ _)) <;> [decide; skip]
    | (with_reducible apply Dev.onlyIn_then (Dev.when_onlyIn _ _ _ ?_)) <;> [skip; (intro _ )]
    | (with_reducible apply Dev.onlyIn_via (Dev.metRestart_onlyIn _)) <;> [decide; skip]
    | (with_reducible apply Dev.onlyIn_via (Dev.setRegion_onlyIn _ _ _)) <;> [decide; skip]
    | (fail_if_success with_reducible apply Dev.onlyIn_put_dma); (with_reducible apply Dev.onlyIn_put_time) <;> [skip; decide]
    | (extract_lets +onlyGivenNames x; refine Dev.onlyIn_cut x ?_ ?_ <;> [(dsimp -zeta -proj only [x]; clear x); (intro _; clear_value x; revert x; intros)])
    | (extract_lets +onlyGivenNames x; clear_value x; revert x; intros)
    | (with_reducible apply Dev.onlyIn_ite)
    | split

theorem Dev.regionFrond_onlyIn (d : Dev) : Dev.onlyIn [.time, .die, .units, .sense, .xfer, .therm] d (Dev.regionFrond d) := by
  unfold Dev.regionFrond
  repeat' first
    | with_reducible apply Dev.onlyIn_refl
    | with_reducible assumption
    | (with_reducible apply Dev.onlyIn_via (Dev.metRestart_onlyIn _)) <;> [decide; skip]
    | (with_reducible apply Dev.onlyIn_via (Dev.setRegion_onlyIn _ _ _)) <;> [decide; skip]
    | (fail_if_success with_reducible apply Dev.onlyIn_put_dma); (with_reducible apply Dev.onlyIn_put_time) <;> [skip; decide]
    | (extract_lets +onlyGivenNames x; refine Dev.onlyIn_cut x ?_ ?_ <;> [(dsimp -zeta -proj only [x]; clear x); (intro _; clear_value x; revert x; intros)])
    | (extract_lets +onlyGivenNames x; subst x; beta_reduce)
    | (with_reducible apply Dev.onlyIn_ite)

theorem Dev.updSched_onlyIn (d : Dev) (f : SchedSt → SchedSt) : Dev.onlyIn [.sched] d (Dev.updSched d f) := by
  unfold Dev.updSched
  repeat' first
    | with_reducible apply Dev.onlyIn_refl
    | (fail_if_success with_reducible apply Dev.onlyIn_put_dma); (with_reducible apply Dev.onlyIn_put_sched) <;> [skip; decide]

theorem Dev.swapRefused_onlyIn (d : Dev) (cause : ℕ) : Dev.onlyIn [.stat] d (Dev.swapRefused d cause) := by
  unfold Dev.swapRefused
  repeat' first
    | with_reducible apply Dev.onlyIn_refl
    | (with_reducible apply Dev.onlyIn_via (Dev.occurC_onlyIn _ _ _ _)) <;> [decide; skip]

theorem Dev.swapCancel_onlyIn (d : Dev) : Dev.onlyIn [.sched, .stat] d (Dev.swapCancel d) := by
  unfold Dev.swapCancel
  repeat' first
    | with_reducible apply Dev.onlyIn_refl
    | (with_reducible apply Dev.onlyIn_via (Dev.swapRefused_onlyIn _ _)) <;> [decide; skip]
    | (with_reducible apply Dev.onlyIn_via (Dev.updSched_onlyIn _ _)) <;> [decide; skip]
    | (with_reducible apply Dev.onlyIn_ite)

theorem Dev.writeSegments_onlyIn (d : Dev) (l : List ImgSegment) : Dev.onlyIn [.sram] d (Dev.writeSegments d l) := by
  unfold Dev.writeSegments
  repeat' first
    | with_reducible apply Dev.onlyIn_refl
    | (with_reducible apply Dev.onlyIn_foldl) <;> [(intro _ _); skip]
    | (fail_if_success with_reducible apply Dev.onlyIn_put_dma); (with_reducible apply Dev.onlyIn_put_sram) <;> [skip; decide]

theorem Dev.loadInto_onlyIn (d : Dev) (b : Bool) (l : List Byte) (other : Option LoadResult) : Dev.onlyIn [.sched, .stat, .sram, .twin] d (Dev.loadInto d b l other) := by
  unfold Dev.loadInto
  repeat' first
    | with_reducible apply Dev.onlyIn_refl
    | with_reducible assumption
    | (with_reducible apply Dev.onlyIn_via (Dev.updSched_onlyIn _ _)) <;> [decide; skip]
    | (with_reducible apply Dev.onlyIn_via (Dev.occur_onlyIn _ _ _)) <;> [decide; skip]
    | (with_reducible apply Dev.onlyIn_via (Dev.updCtl_onlyIn _ _)) <;> [decide; skip]
    | (with_reducible apply Dev.onlyIn_via (Dev.writeSegments_onlyIn _ _)) <;> [decide; skip]
    | (extract_lets +onlyGivenNames x; refine Dev.onlyIn_cut x ?_ ?_ <;> [(dsimp -zeta -proj only [x]; clear x); (intro _; clear_value x; revert x; intros)])
    | (extract_lets +onlyGivenNames x; clear_value x; revert x; intros)
    | (with_reducible apply Dev.onlyIn_ite)

theorem Dev.loadImage_onlyIn (d : Dev) (l : List Byte) (other : Option LoadResult) : Dev.onlyIn [.sched, .stat, .sram, .twin] d (Dev.loadImage d l other) := by
  unfold Dev.loadImage
  repeat' first
    | with_reducible apply Dev.onlyIn_refl
    | (with_reducible apply Dev.onlyIn_via (Dev.loadInto_onlyIn _ _ _ _)) <;> [decide; skip]
    | (with_reducible apply Dev.onlyIn_via (Dev.swapCancel_onlyIn _)) <;> [decide; skip]

theorem Dev.applyCoeffs_onlyIn (d : Dev) : Dev.onlyIn [.sram, .live] d (Dev.applyCoeffs d) := by
  unfold Dev.applyCoeffs
  repeat' first
    | with_reducible apply Dev.onlyIn_refl
    | (with_reducible apply Dev.onlyIn_via (Dev.writeSegments_onlyIn _ _)) <;> [decide; skip]
    | (fail_if_success with_reducible apply Dev.onlyIn_put_dma); (with_reducible apply Dev.onlyIn_put_sram_live) <;> [skip; decide; decide]

theorem Dev.armSwap_onlyIn (d : Dev) (f : ℕ) : Dev.onlyIn [.sched, .stat] d (Dev.armSwap d f) := by
  unfold Dev.armSwap
  repeat' first
    | with_reducible apply Dev.onlyIn_refl
    | (with_reducible apply Dev.onlyIn_via (Dev.swapRefused_onlyIn _ _)) <;> [decide; skip]
    | (with_reducible apply Dev.onlyIn_via (Dev.updSched_onlyIn _ _)) <;> [decide; skip]
    | (with_reducible apply Dev.onlyIn_ite)

theorem Dev.bankSwap_onlyIn (d : Dev) : Dev.onlyIn [.sched, .stat, .sram, .live] d (Dev.bankSwap d) := by
  unfold Dev.bankSwap
  repeat' first
    | with_reducible apply Dev.onlyIn_refl
    | (with_reducible apply Dev.onlyIn_via (Dev.applyCoeffs_onlyIn _)) <;> [decide; skip]
    | (with_reducible apply Dev.onlyIn_via (Dev.updSched_onlyIn _ _)) <;> [decide; skip]
    | (with_reducible apply Dev.onlyIn_via (Dev.swapRefused_onlyIn _ _)) <;> [decide; skip]
    | (with_reducible apply Dev.onlyIn_ite)

theorem Dev.chError_onlyIn (d : Dev) (c code : ℕ) : Dev.onlyIn [.stat, .dma] d (Dev.chError d c code) := by
  unfold Dev.chError
  repeat' first
    | with_reducible apply Dev.onlyIn_refl
    | (with_reducible apply Dev.onlyIn_via (Dev.occurC_onlyIn _ _ _ _)) <;> [decide; skip]
    | (with_reducible apply Dev.onlyIn_via (Dev.updDma_onlyIn _ _ _)) <;> [decide; skip]

theorem Dev.writeBack_onlyIn (d : Dev) (c code moved : ℕ) : Dev.onlyIn [.stat, .sram, .dma] d (Dev.writeBack d c code moved) := by
  unfold Dev.writeBack
  repeat' first
    | with_reducible apply Dev.onlyIn_refl
    | with_reducible assumption
    | (with_reducible apply Dev.onlyIn_via (Dev.updDma_onlyIn _ _ _)) <;> [decide; skip]
    | (with_reducible apply Dev.onlyIn_via (Dev.occurC_onlyIn _ _ _ _)) <;> [decide; skip]
    | (fail_if_success with_reducible apply Dev.onlyIn_put_dma); (with_reducible apply Dev.onlyIn_put_sram) <;> [skip; decide]
    | (extract_lets +onlyGivenNames x; refine Dev.onlyIn_cut x ?_ ?_ <;> [(dsimp -zeta -proj only [x]; clear x); (intro _; clear_value x; revert x; intros)])
    | (extract_lets +onlyGivenNames x; clear_value x; revert x; intros)
    | (with_reducible apply Dev.onlyIn_ite)

theorem Dev.enOff_onlyIn (d : Dev) (c : ℕ) : Dev.onlyIn [.regs, .dma] d (Dev.enOff d c) := by
  unfold Dev.enOff
  repeat' first
    | with_reducible apply Dev.onlyIn_refl
    | (with_reducible apply Dev.onlyIn_via (Dev.updDma_onlyIn _ _ _)) <;> [decide; skip]
    | (with_reducible apply Dev.onlyIn_via (Dev.setFld_onlyIn _ _ _ _ _ _)) <;> [decide; skip]

theorem Dev.endDesc_onlyIn (d : Dev) (c code : ℕ) : Dev.onlyIn [.regs, .stat, .sram, .dma] d (Dev.endDesc d c code) := by
  unfold Dev.endDesc
  repeat' first
    | with_reducible apply Dev.onlyIn_refl
    | with_reducible assumption
    | (with_reducible apply Dev.onlyIn_via (Dev.writeBack_onlyIn _ _ _ _)) <;> [decide; skip]
    | (with_reducible apply Dev.onlyIn_via (Dev.enOff_onlyIn _ _)) <;> [decide; skip]
    | (with_reducible apply Dev.onlyIn_via (Dev.updDma_onlyIn _ _ _)) <;> [decide; skip]
    | (with_reducible apply Dev.onlyIn_via (Dev.chError_onlyIn _ _ _)) <;> [decide; skip]
    | (extract_lets +onlyGivenNames x; refine Dev.onlyIn_cut x ?_ ?_ <;> [(dsimp -zeta -proj only [x]; clear x); (intro _; clear_value x; revert x; intros)])
    | (extract_lets +onlyGivenNames x; clear_value x; revert x; intros)
    | (with_reducible apply Dev.onlyIn_ite)

theorem Dev.chFetch_onlyIn (d : Dev) (c : ℕ) : Dev.onlyIn [.regs, .stat, .sram, .dma] d (Dev.chFetch d c) := by
  unfold Dev.chFetch
  repeat' first
    | with_reducible apply Dev.onlyIn_refl
    | with_reducible assumption
    | (with_reducible apply Dev.onlyIn_via (Dev.updDma_onlyIn _ _ _)) <;> [decide; skip]
    | (with_reducible apply Dev.onlyIn_via (Dev.endDesc_onlyIn _ _ _)) <;> [decide; skip]
    | (extract_lets +onlyGivenNames x; refine Dev.onlyIn_cut x ?_ ?_ <;> [(dsimp -zeta -proj only [x]; clear x); (intro _; clear_value x; revert x; intros)])
    | (extract_lets +onlyGivenNames x; clear_value x; revert x; intros)
    | (with_reducible apply Dev.onlyIn_ite)

theorem Dev.moveByte_onlyIn (d : Dev) (c : ℕ) : Dev.onlyIn [.sram, .twin, .dma] d (Dev.moveByte d c) := by
  unfold Dev.moveByte
  repeat' first
    | with_reducible apply Dev.onlyIn_refl
    | (with_reducible apply Dev.onlyIn_via (Dev.updDma_onlyIn _ _ _)) <;> [decide; skip]
    | (fail_if_success with_reducible apply Dev.onlyIn_put_dma); (with_reducible apply Dev.onlyIn_put_sram) <;> [skip; decide]
    | (fail_if_success with_reducible apply Dev.onlyIn_put_dma); (with_reducible apply Dev.onlyIn_put_twin) <;> [skip; decide]
    | (extract_lets +onlyGivenNames x; clear_value x; revert x; intros)
    | (with_reducible apply Dev.onlyIn_ite)

theorem Dev.moveBytes_onlyIn (d : Dev) (c n : ℕ) : Dev.onlyIn [.sram, .twin, .dma] d (Dev.moveBytes d c n) := by
  unfold Dev.moveBytes
  repeat' first
    | with_reducible apply Dev.onlyIn_refl
    | (with_reducible apply Dev.onlyIn_then (foldN_onlyIn _ _ _ ?_)) <;> [skip; (intro _ _ )]
    | (with_reducible apply Dev.onlyIn_via (Dev.moveByte_onlyIn _ _)) <;> [decide; skip]

theorem Dev.reqFalls_onlyIn (d : Dev) (q cycle : ℕ) : Dev.onlyIn [.dma] d (Dev.reqFalls d q cycle) := by
  unfold Dev.reqFalls
  repeat' first
    | with_reducible apply Dev.onlyIn_refl
    | (with_reducible apply Dev.onlyIn_then (foldN_onlyIn _ _ _ ?_)) <;> [skip; (intro _ _ )]
    | (with_reducible apply Dev.onlyIn_via (Dev.updDma_onlyIn _ _ _)) <;> [decide; skip]
    | (with_reducible apply Dev.onlyIn_ite)

theorem Dev.rxFalls_onlyIn (d : Dev) (cycle : ℕ) : Dev.onlyIn [.dma] d (Dev.rxFalls d cycle) := by
  unfold Dev.rxFalls
  repeat' first
    | with_reducible apply Dev.onlyIn_refl
    | (with_reducible apply Dev.onlyIn_via (Dev.reqFalls_onlyIn _ _ _)) <;> [decide; skip]
    | (with_reducible apply Dev.onlyIn_ite)

theorem Dev.chBurst_onlyIn (d : Dev) (c : ℕ) (e : SlotEntry) : Dev.onlyIn [.regs, .stat, .cap, .sram, .twin, .dma] d (Dev.chBurst d c e) := by
  unfold Dev.chBurst
  repeat' first
    | with_reducible apply Dev.onlyIn_refl
    | with_reducible assumption
    | (with_reducible apply Dev.onlyIn_via (Dev.updDma_onlyIn _ _ _)) <;> [decide; skip]
    | (with_reducible apply Dev.onlyIn_via (Dev.moveBytes_onlyIn _ _ _)) <;> [decide; skip]
    | (with_reducible apply Dev.onlyIn_via (Dev.endDesc_onlyIn _ _ _)) <;> [decide; skip]
    | (with_reducible apply Dev.onlyIn_via (Dev.reqFalls_onlyIn _ _ _)) <;> [decide; skip]
    | (fail_if_success with_reducible apply Dev.onlyIn_put_dma); (with_reducible apply Dev.onlyIn_put_cap) <;> [skip; decide]
    | (extract_lets +onlyGivenNames x; refine Dev.onlyIn_cut x ?_ ?_ <;> [(dsimp -zeta -proj only [x]; clear x); (intro _; clear_value x; revert x; intros)])
    | (extract_lets +onlyGivenNames x; clear_value x; revert x; intros)
    | (with_reducible apply Dev.onlyIn_ite)

theorem Dev.chFlush_onlyIn (d : Dev) (c : ℕ) : Dev.onlyIn [.sram, .twin, .dma] d (Dev.chFlush d c) := by
  unfold Dev.chFlush
  repeat' first
    | with_reducible apply Dev.onlyIn_refl
    | (with_reducible apply Dev.onlyIn_via (Dev.updDma_onlyIn _ _ _)) <;> [decide; skip]
    | (with_reducible apply Dev.onlyIn_via (Dev.moveBytes_onlyIn _ _ _)) <;> [decide; skip]

theorem Dev.chPauseOn_onlyIn (d : Dev) (c : ℕ) : Dev.onlyIn [.dma] d (Dev.chPauseOn d c) := by
  unfold Dev.chPauseOn
  repeat' first
    | with_reducible apply Dev.onlyIn_refl
    | (with_reducible apply Dev.onlyIn_via (Dev.updDma_onlyIn _ _ _)) <;> [decide; skip]

theorem Dev.chPauseOff_onlyIn (d : Dev) (c : ℕ) : Dev.onlyIn [.dma] d (Dev.chPauseOff d c) := by
  unfold Dev.chPauseOff
  repeat' first
    | with_reducible apply Dev.onlyIn_refl
    | (with_reducible apply Dev.onlyIn_via (Dev.updDma_onlyIn _ _ _)) <;> [decide; skip]

theorem Dev.chStartUp_onlyIn (d : Dev) (c : ℕ) : Dev.onlyIn [.stat, .dma] d (Dev.chStartUp d c) := by
  unfold Dev.chStartUp
  repeat' first
    | with_reducible apply Dev.onlyIn_refl
    | with_reducible assumption
    | (with_reducible apply Dev.onlyIn_via (Dev.updDma_onlyIn _ _ _)) <;> [decide; skip]
    | (with_reducible apply Dev.onlyIn_via (Dev.chError_onlyIn _ _ _)) <;> [decide; skip]
    | (extract_lets +onlyGivenNames x; refine Dev.onlyIn_cut x ?_ ?_ <;> [(dsimp -zeta -proj only [x]; clear x); (intro _; clear_value x; revert x; intros)])
    | (extract_lets +onlyGivenNames x; clear_value x; revert x; intros)
    | (with_reducible apply Dev.onlyIn_ite)

theorem Dev.chStop_onlyIn (d : Dev) (c : ℕ) : Dev.onlyIn [.dma] d (Dev.chStop d c) := by
  unfold Dev.chStop
  repeat' first
    | with_reducible apply Dev.onlyIn_refl
    | (with_reducible apply Dev.onlyIn_via (Dev.updDma_onlyIn _ _ _)) <;> [decide; skip]

theorem Dev.chFire_onlyIn (d : Dev) (c : ℕ) (e : SlotEntry) : Dev.onlyIn [.regs, .stat, .cap, .sram, .twin, .dma] d (Dev.chFire d c e) := by
  unfold Dev.chFire
  extract_lets +onlyGivenNames h
  apply Dev.onlyIn_ite (Dev.onlyIn_refl _ _)
  extract_lets +onlyGivenNames x hit
  refine Dev.onlyIn_cut x ?_ fun hx => ?_
  · dsimp -zeta -proj only [x]
    repeat' first
      | with_reducible apply Dev.onlyIn_refl
      | with_reducible assumption
      | (with_reducible apply Dev.onlyIn_via (Dev.updDma_onlyIn _ _ _)) <;> [decide; skip]
  clear_value x
  have h_hit : ∀ y0, Dev.onlyIn [.regs, .stat, .cap, .sram, .twin, .dma] y0 (hit y0) := by
    intro y0
    dsimp -zeta -proj only [hit]
    repeat' first
      | with_reducible apply Dev.onlyIn_refl
      | with_reducible assumption
      | (with_reducible apply Dev.onlyIn_via (Dev.updDma_onlyIn _ _ _)) <;> [decide; skip]
  clear_value hit
  repeat' first
    | with_reducible apply Dev.onlyIn_refl
    | with_reducible assumption
    | with_reducible apply Dev.onlyIn_then (h_hit _)
    | (with_reducible apply Dev.onlyIn_via (Dev.endDesc_onlyIn _ _ _)) <;> [decide; skip]
    | (with_reducible apply Dev.onlyIn_via (Dev.chFlush_onlyIn _ _)) <;> [decide; skip]
    | (with_reducible apply Dev.onlyIn_via (Dev.chBurst_onlyIn _ _ _)) <;> [decide; skip]
    | (with_reducible apply Dev.onlyIn_via (Dev.chFetch_onlyIn _ _)) <;> [decide; skip]
    | (extract_lets +onlyGivenNames x; refine Dev.onlyIn_cut x ?_ ?_ <;> [(dsimp -zeta -proj only [x]; clear x); (intro _; clear_value x; revert x; intros)])
    | (with_reducible apply Dev.onlyIn_ite)

theorem Dev.dmaFrond_onlyIn (d : Dev) : Dev.onlyIn [.regs, .stat, .sram, .dma] d (Dev.dmaFrond d) := by
  unfold Dev.dmaFrond
  repeat' first
    | with_reducible apply Dev.onlyIn_refl
    | with_reducible assumption
    | (with_reducible apply Dev.onlyIn_then (foldN_onlyIn _ _ _ ?_)) <;> [skip; (intro _ _ )]
    | (with_reducible apply Dev.onlyIn_via (Dev.updDma_onlyIn _ _ _)) <;> [decide; skip]
    | (with_reducible apply Dev.onlyIn_via (Dev.endDesc_onlyIn _ _ _)) <;> [decide; skip]
    | (with_reducible apply Dev.onlyIn_via (Dev.chError_onlyIn _ _ _)) <;> [decide; skip]
    | (extract_lets +onlyGivenNames x; refine Dev.onlyIn_cut x ?_ ?_ <;> [(dsimp -zeta -proj only [x]; clear x); (intro _; clear_value x; revert x; intros)])
    | (extract_lets +onlyGivenNames x; clear_value x; revert x; intros)
    | (with_reducible apply Dev.onlyIn_ite)

theorem Dev.capCopy_onlyIn (d : Dev) : Dev.onlyIn [.cap, .sram, .dma] d (Dev.capCopy d) := by
  unfold Dev.capCopy
  repeat' first
    | with_reducible apply Dev.onlyIn_refl
    | (with_reducible apply Dev.onlyIn_via (Dev.updDma_onlyIn _ _ _)) <;> [decide; skip]
    | (fail_if_success with_reducible apply Dev.onlyIn_put_dma); (with_reducible apply Dev.onlyIn_put_cap_sram) <;> [skip; decide; decide]
    | (extract_lets +onlyGivenNames x; clear_value x; revert x; intros)
    | (with_reducible apply Dev.onlyIn_ite)

theorem Dev.dmaTick_onlyIn (d : Dev) : Dev.onlyIn [.stat, .cap, .sram, .dma] d (Dev.dmaTick d) := by
  unfold Dev.dmaTick
  repeat' first
    | with_reducible apply Dev.onlyIn_refl
    | with_reducible assumption
    | (with_reducible apply Dev.onlyIn_via (Dev.capCopy_onlyIn _)) <;> [decide; skip]
    | (with_reducible apply Dev.onlyIn_then (foldN_onlyIn _ _ _ ?_)) <;> [skip; (intro _ _ )]
    | (with_reducible apply Dev.onlyIn_via (Dev.updDma_onlyIn _ _ _)) <;> [decide; skip]
    | (with_reducible apply Dev.onlyIn_via (Dev.chStartUp_onlyIn _ _)) <;> [decide; skip]
    | (with_reducible apply Dev.onlyIn_via (Dev.chStop_onlyIn _ _)) <;> [decide; skip]
    | (with_reducible apply Dev.onlyIn_via (Dev.chPauseOn_onlyIn _ _)) <;> [decide; skip]
    | (with_reducible apply Dev.onlyIn_via (Dev.chPauseOff_onlyIn _ _)) <;> [decide; skip]
    | (extract_lets +onlyGivenNames x; refine Dev.onlyIn_cut x ?_ ?_ <;> [(dsimp -zeta -proj only [x]; clear x); (intro _; clear_value x; revert x; intros)])
    | (extract_lets +onlyGivenNames x; clear_value x; revert x; intros)
    | (with_reducible apply Dev.onlyIn_ite)

theorem Dev.updMp_onlyIn (d : Dev) (p : MPort) (f : MiePort → MiePort) : Dev.onlyIn [.mie] d (Dev.updMp d p f) := by
  unfold Dev.updMp
  repeat' first
    | with_reducible apply Dev.onlyIn_refl
    | (with_reducible apply Dev.onlyIn_via (Dev.updMie_onlyIn _ _)) <;> [decide; skip]
    | (with_reducible apply Dev.onlyIn_ite)
    | split

theorem Dev.originateFor_onlyIn (d : Dev) (rx : Option ℤ) (ports : List MPort) (kind : ℕ) (bcast link : Bool) (dst : ℕ) (payload : List Byte) : Dev.onlyIn [.mie] d (Dev.originateFor d rx ports kind bcast link dst payload) := by
  unfold Dev.originateFor
  repeat' first
    | with_reducible apply Dev.onlyIn_refl
    | (with_reducible apply Dev.onlyIn_via (Dev.updMie_onlyIn _ _)) <;> [decide; skip]
    | (with_reducible apply Dev.onlyIn_via (Dev.updMp_onlyIn _ _ _)) <;> [decide; skip]
    | (with_reducible apply Dev.onlyIn_foldl) <;> [(intro _ _); skip]

theorem Dev.originate_onlyIn (d : Dev) (ports : List MPort) (kind : ℕ) (bcast link : Bool) (dst : ℕ) (payload : List Byte) : Dev.onlyIn [.mie] d (Dev.originate d ports kind bcast link dst payload) := by
  unfold Dev.originate
  repeat' first
    | with_reducible apply Dev.onlyIn_refl
    | (with_reducible apply Dev.onlyIn_via (Dev.originateFor_onlyIn _ _ _ _ _ _ _ _)) <;> [decide; skip]

theorem Dev.broadcast_onlyIn (d : Dev) (kind : ℕ) (payload : List Byte) : Dev.onlyIn [.mie] d (Dev.broadcast d kind payload) := by
  unfold Dev.broadcast
  repeat' first
    | with_reducible apply Dev.onlyIn_refl
    | (with_reducible apply Dev.onlyIn_via (Dev.originate_onlyIn _ _ _ _ _ _ _)) <;> [decide; skip]

theorem Dev.unicast_onlyIn (d : Dev) (kind dst : ℕ) (payload : List Byte) : Dev.onlyIn [.mie] d (Dev.unicast d kind dst payload) := by
  unfold Dev.unicast
  repeat' first
    | with_reducible apply Dev.onlyIn_refl
    | (with_reducible apply Dev.onlyIn_via (Dev.originate_onlyIn _ _ _ _ _ _ _)) <;> [decide; skip]

theorem Dev.mieTick_onlyIn (d : Dev) : Dev.onlyIn [.mie] d (Dev.mieTick d) := by
  unfold Dev.mieTick
  repeat' first
    | with_reducible apply Dev.onlyIn_refl
    | (with_reducible apply Dev.onlyIn_via (Dev.updMie_onlyIn _ _)) <;> [decide; skip]

theorem Dev.putWindow_onlyIn (d : Dev) (w : RxWindow) : Dev.onlyIn [.mie] d (Dev.putWindow d w) := by
  unfold Dev.putWindow
  repeat' first
    | with_reducible apply Dev.onlyIn_refl
    | (with_reducible apply Dev.onlyIn_via (Dev.updMie_onlyIn _ _)) <;> [decide; skip]

theorem Dev.forward_onlyIn (d : Dev) (p : MPort) (f : MFrame) (rx : Option ℤ) : Dev.onlyIn [.stat, .mie] d (Dev.forward d p f rx) := by
  unfold Dev.forward
  repeat' first
    | with_reducible apply Dev.onlyIn_refl
    | (with_reducible apply Dev.onlyIn_via (Dev.updMp_onlyIn _ _ _)) <;> [decide; skip]
    | (with_reducible apply Dev.onlyIn_via (Dev.occur_onlyIn _ _ _)) <;> [decide; skip]
    | (with_reducible apply Dev.onlyIn_via (Dev.updMie_onlyIn _ _)) <;> [decide; skip]
    | (extract_lets +onlyGivenNames x; clear_value x; revert x; intros)
    | (with_reducible apply Dev.onlyIn_ite)

theorem Dev.receive_onlyIn (d : Dev) (p : MPort) (f : MFrame) (rx : Option ℤ) : Dev.onlyIn [.stat, .mie] d (Dev.receive d p f rx).1 := by
  unfold Dev.receive
  repeat' first
    | with_reducible apply Dev.onlyIn_refl
    | with_reducible assumption
    | (with_reducible apply Dev.onlyIn_via (Dev.occur_onlyIn _ _ _)) <;> [decide; skip]
    | (with_reducible apply Dev.onlyIn_via (Dev.updMie_onlyIn _ _)) <;> [decide; skip]
    | (with_reducible apply Dev.onlyIn_via (Dev.putWindow_onlyIn _ _)) <;> [decide; skip]
    | (with_reducible apply Dev.onlyIn_via (Dev.forward_onlyIn _ _ _ _)) <;> [decide; skip]
    | (extract_lets +onlyGivenNames x; refine Dev.onlyIn_cut x ?_ ?_ <;> [(dsimp -zeta -proj only [x]; clear x); (intro _; clear_value x; revert x; intros)])
    | (with_reducible apply Dev.onlyIn_ite)
    | split

theorem Dev.frameCells_onlyIn (d : Dev) (p : MPort) (f : MFrame) : Dev.onlyIn [.die] d (Dev.frameCells d p f) := by
  unfold Dev.frameCells
  repeat' first
    | with_reducible apply Dev.onlyIn_refl
    | (with_reducible apply Dev.onlyIn_via (Dev.inBlock_onlyIn _ _ _)) <;> [decide; skip]

theorem Dev.buffer_onlyIn (d : Dev) (p : MPort) (f : MFrame) : Dev.onlyIn [.stat, .mie] d (Dev.buffer d p f) := by
  unfold Dev.buffer
  repeat' first
    | with_reducible apply Dev.onlyIn_refl
    | (with_reducible apply Dev.onlyIn_via (Dev.occur_onlyIn _ _ _)) <;> [decide; skip]
    | (with_reducible apply Dev.onlyIn_via (Dev.updMie_onlyIn _ _)) <;> [decide; skip]
    | (with_reducible apply Dev.onlyIn_ite)

theorem Dev.toTwins_onlyIn {l : List Part} (d : Dev) (p : MPort) (f : MFrame) (g : Dev → Dev) (hW : [.die, .stat, .mie] ⊆ l) (hf : ∀ y0, Dev.onlyIn l y0 (g y0)) : Dev.onlyIn l d (Dev.toTwins d p f g) := by
  unfold Dev.toTwins
  repeat' first
    | with_reducible apply Dev.onlyIn_refl
    | with_reducible apply Dev.onlyIn_then (hf _)
    | (with_reducible apply Dev.onlyIn_via (Dev.buffer_onlyIn _ _ _)) <;> [exact List.Subset.trans (by decide) hW; skip]
    | (with_reducible apply Dev.onlyIn_via (Dev.frameCells_onlyIn _ _ _)) <;> [exact List.Subset.trans (by decide) hW; skip]
    | (with_reducible apply Dev.onlyIn_ite)

theorem Dev.updMember_onlyIn (d : Dev) (id : ℕ) (f : RowMember → RowMember) : Dev.onlyIn [.mie] d (Dev.updMember d id f) := by
  unfold Dev.updMember
  repeat' first
    | with_reducible apply Dev.onlyIn_refl
    | (with_reducible apply Dev.onlyIn_via (Dev.updMie_onlyIn _ _)) <;> [decide; skip]

theorem Dev.selectMaster_onlyIn (d : Dev) : Dev.onlyIn [.stat, .mie] d (Dev.selectMaster d) := by
  unfold Dev.selectMaster
  repeat' first
    | with_reducible apply Dev.onlyIn_refl
    | with_reducible assumption
    | (with_reducible apply Dev.onlyIn_via (Dev.updMie_onlyIn _ _)) <;> [decide; skip]
    | (with_reducible apply Dev.onlyIn_via (Dev.occur_onlyIn _ _ _)) <;> [decide; skip]
    | (extract_lets +onlyGivenNames x; refine Dev.onlyIn_cut x ?_ ?_ <;> [(dsimp -zeta -proj only [x]; clear x); (intro _; clear_value x; revert x; intros)])
    | (extract_lets +onlyGivenNames x; clear_value x; revert x; intros)
    | (with_reducible apply Dev.onlyIn_ite)

theorem Dev.toResync_onlyIn (d : Dev) (step : Bool) : Dev.onlyIn [.stat, .mie] d (Dev.toResync d step) := by
  unfold Dev.toResync
  repeat' first
    | with_reducible apply Dev.onlyIn_refl
    | (with_reducible apply Dev.onlyIn_via (Dev.occur_onlyIn _ _ _)) <;> [decide; skip]
    | (with_reducible apply Dev.onlyIn_via (Dev.updMie_onlyIn _ _)) <;> [decide; skip]

theorem Dev.takeTime_onlyIn (d : Dev) (p : MPort) (f : MFrame) (rx : ℤ) : Dev.onlyIn [.stat, .mie] d (Dev.takeTime d p f rx) := by
  unfold Dev.takeTime
  repeat' first
    | with_reducible apply Dev.onlyIn_refl
    | with_reducible assumption
    | (with_reducible apply Dev.onlyIn_via (Dev.updMie_onlyIn _ _)) <;> [decide; skip]
    | (with_reducible apply Dev.onlyIn_via (Dev.toResync_onlyIn _ _)) <;> [decide; skip]
    | (extract_lets +onlyGivenNames x; refine Dev.onlyIn_cut x ?_ ?_ <;> [(dsimp -zeta -proj only [x]; clear x); (intro _; clear_value x; revert x; intros)])
    | (extract_lets +onlyGivenNames x; clear_value x; revert x; intros)
    | (with_reducible apply Dev.onlyIn_ite)
    | split

theorem Dev.timeGo_onlyIn (d : Dev) : Dev.onlyIn [.mie] d (Dev.timeGo d) := by
  unfold Dev.timeGo
  repeat' first
    | with_reducible apply Dev.onlyIn_refl
    | (with_reducible apply Dev.onlyIn_via (Dev.updMie_onlyIn _ _)) <;> [decide; skip]

theorem Dev.steer_onlyIn (d : Dev) : Dev.onlyIn [.stat, .mie] d (Dev.steer d) := by
  unfold Dev.steer
  repeat' first
    | with_reducible apply Dev.onlyIn_refl
    | with_reducible assumption
    | (with_reducible apply Dev.onlyIn_via (Dev.updMie_onlyIn _ _)) <;> [decide; skip]
    | (with_reducible apply Dev.onlyIn_via (Dev.occur_onlyIn _ _ _)) <;> [decide; skip]
    | (extract_lets +onlyGivenNames x; refine Dev.onlyIn_cut x ?_ ?_ <;> [(dsimp -zeta -proj only [x]; clear x); (intro _; clear_value x; revert x; intros)])
    | (extract_lets +onlyGivenNames x; clear_value x; revert x; intros)
    | (with_reducible apply Dev.onlyIn_ite)

theorem Dev.sendLink_onlyIn (d : Dev) (p : MPort) (rx : Option ℤ) : Dev.onlyIn [.mie] d (Dev.sendLink d p rx) := by
  unfold Dev.sendLink
  repeat' first
    | with_reducible apply Dev.onlyIn_refl
    | (with_reducible apply Dev.onlyIn_via (Dev.originateFor_onlyIn _ _ _ _ _ _ _ _)) <;> [decide; skip]

theorem Dev.linkFrond_onlyIn (d : Dev) : Dev.onlyIn [.mie] d (Dev.linkFrond d) := by
  unfold Dev.linkFrond
  repeat' first
    | with_reducible apply Dev.onlyIn_refl
    | (with_reducible apply Dev.onlyIn_via (Dev.sendLink_onlyIn _ _ _)) <;> [decide; skip]
    | (with_reducible apply Dev.onlyIn_ite)

theorem Dev.timeFrond_onlyIn (d : Dev) : Dev.onlyIn [.stat, .mie] d (Dev.timeFrond d) := by
  unfold Dev.timeFrond
  repeat' first
    | with_reducible apply Dev.onlyIn_refl
    | with_reducible assumption
    | (with_reducible apply Dev.onlyIn_via (Dev.steer_onlyIn _)) <;> [decide; skip]
    | (with_reducible apply Dev.onlyIn_via (Dev.updMie_onlyIn _ _)) <;> [decide; skip]
    | (with_reducible apply Dev.onlyIn_via (Dev.selectMaster_onlyIn _)) <;> [decide; skip]
    | (with_reducible apply Dev.onlyIn_via (Dev.broadcast_onlyIn _ _ _)) <;> [decide; skip]
    | (extract_lets +onlyGivenNames x; refine Dev.onlyIn_cut x ?_ ?_ <;> [(dsimp -zeta -proj only [x]; clear x); (intro _; clear_value x; revert x; intros)])
    | (extract_lets +onlyGivenNames x; clear_value x; revert x; intros)
    | (with_reducible apply Dev.onlyIn_ite)

theorem Dev.checkConflict_onlyIn (d : Dev) (f : MFrame) : Dev.onlyIn [.stat, .mie] d (Dev.checkConflict d f) := by
  unfold Dev.checkConflict
  repeat' first
    | with_reducible apply Dev.onlyIn_refl
    | with_reducible assumption
    | (with_reducible apply Dev.onlyIn_via (Dev.updMie_onlyIn _ _)) <;> [decide; skip]
    | (with_reducible apply Dev.onlyIn_via (Dev.occur_onlyIn _ _ _)) <;> [decide; skip]
    | (extract_lets +onlyGivenNames x; refine Dev.onlyIn_cut x ?_ ?_ <;> [(dsimp -zeta -proj only [x]; clear x); (intro _; clear_value x; revert x; intros)])
    | (extract_lets +onlyGivenNames x; clear_value x; revert x; intros)
    | (with_reducible apply Dev.onlyIn_ite)

theorem Dev.digestCheck_onlyIn (d : Dev) : Dev.onlyIn [.stat, .mie] d (Dev.digestCheck d) := by
  unfold Dev.digestCheck
  repeat' first
    | with_reducible apply Dev.onlyIn_refl
    | with_reducible assumption
    | (with_reducible apply Dev.onlyIn_via (Dev.updMie_onlyIn _ _)) <;> [decide; skip]
    | (with_reducible apply Dev.onlyIn_via (Dev.occur_onlyIn _ _ _)) <;> [decide; skip]
    | (extract_lets +onlyGivenNames x; refine Dev.onlyIn_cut x ?_ ?_ <;> [(dsimp -zeta -proj only [x]; clear x); (intro _; clear_value x; revert x; intros)])
    | (extract_lets +onlyGivenNames x; clear_value x; revert x; intros)
    | (with_reducible apply Dev.onlyIn_ite)

theorem Dev.recordAdvert_onlyIn (d : Dev) (id : ℕ) (a : Advert) (short : List Byte) : Dev.onlyIn [.stat, .mie] d (Dev.recordAdvert d id a short) := by
  unfold Dev.recordAdvert
  repeat' first
    | with_reducible apply Dev.onlyIn_refl
    | (with_reducible apply Dev.onlyIn_via (Dev.digestCheck_onlyIn _)) <;> [decide; skip]
    | (with_reducible apply Dev.onlyIn_via (Dev.updMember_onlyIn _ _ _)) <;> [decide; skip]

theorem Dev.takeAdvert_onlyIn (d : Dev) (f : MFrame) : Dev.onlyIn [.stat, .mie] d (Dev.takeAdvert d f) := by
  unfold Dev.takeAdvert
  repeat' first
    | with_reducible apply Dev.onlyIn_refl
    | (with_reducible apply Dev.onlyIn_via (Dev.recordAdvert_onlyIn _ _ _ _)) <;> [decide; skip]
    | (with_reducible apply Dev.onlyIn_via (Dev.updMember_onlyIn _ _ _)) <;> [decide; skip]

theorem Dev.sendAdvert_onlyIn (d : Dev) : Dev.onlyIn [.stat, .mie] d (Dev.sendAdvert d) := by
  unfold Dev.sendAdvert
  repeat' first
    | with_reducible apply Dev.onlyIn_refl
    | (with_reducible apply Dev.onlyIn_via (Dev.broadcast_onlyIn _ _ _)) <;> [decide; skip]
    | (with_reducible apply Dev.onlyIn_via (Dev.recordAdvert_onlyIn _ _ _ _)) <;> [decide; skip]
    | (extract_lets +onlyGivenNames x; clear_value x; revert x; intros)
    | (with_reducible apply Dev.onlyIn_ite)

theorem Dev.takeDigest_onlyIn (d : Dev) (f : MFrame) : Dev.onlyIn [.stat, .mie] d (Dev.takeDigest d f) := by
  unfold Dev.takeDigest
  repeat' first
    | with_reducible apply Dev.onlyIn_refl
    | (with_reducible apply Dev.onlyIn_via (Dev.digestCheck_onlyIn _)) <;> [decide; skip]
    | (with_reducible apply Dev.onlyIn_via (Dev.updMember_onlyIn _ _ _)) <;> [decide; skip]

theorem Dev.putPub_onlyIn (d : Dev) (p : Publication) : Dev.onlyIn [.mie] d (Dev.putPub d p) := by
  unfold Dev.putPub
  repeat' first
    | with_reducible apply Dev.onlyIn_refl
    | (with_reducible apply Dev.onlyIn_via (Dev.updMie_onlyIn _ _)) <;> [decide; skip]

theorem Dev.setRow_onlyIn (d : Dev) : Dev.onlyIn [.adm] d (Dev.setRow d) := by
  unfold Dev.setRow
  repeat' first
    | with_reducible apply Dev.onlyIn_refl
    | (with_reducible apply Dev.onlyIn_via (Dev.updLed_onlyIn _ _)) <;> [decide; skip]

theorem Dev.applyShare_onlyIn (d : Dev) (v e : ℕ) : Dev.onlyIn [.adm, .mie] d (Dev.applyShare d v e) := by
  unfold Dev.applyShare
  repeat' first
    | with_reducible apply Dev.onlyIn_refl
    | (with_reducible apply Dev.onlyIn_via (Dev.setRow_onlyIn _)) <;> [decide; skip]
    | (with_reducible apply Dev.onlyIn_via (Dev.updMie_onlyIn _ _)) <;> [decide; skip]

theorem Dev.decayStep_onlyIn (d : Dev) (cause : ℕ) (excl : Bool) : Dev.onlyIn [.adm, .mie] d (Dev.decayStep d cause excl) := by
  unfold Dev.decayStep
  repeat' first
    | with_reducible apply Dev.onlyIn_refl
    | (with_reducible apply Dev.onlyIn_via (Dev.setRow_onlyIn _)) <;> [decide; skip]
    | (with_reducible apply Dev.onlyIn_via (Dev.updMie_onlyIn _ _)) <;> [decide; skip]

theorem Dev.actOnPub_onlyIn (d : Dev) (e : ℕ) (late : Bool) : Dev.onlyIn [.stat, .adm, .mie] d (Dev.actOnPub d e late) := by
  unfold Dev.actOnPub
  repeat' first
    | with_reducible apply Dev.onlyIn_refl
    | with_reducible assumption
    | (with_reducible apply Dev.onlyIn_via (Dev.updMie_onlyIn _ _)) <;> [decide; skip]
    | (with_reducible apply Dev.onlyIn_via (Dev.decayStep_onlyIn _ _ _)) <;> [decide; skip]
    | (with_reducible apply Dev.onlyIn_via (Dev.occur_onlyIn _ _ _)) <;> [decide; skip]
    | (with_reducible apply Dev.onlyIn_via (Dev.applyShare_onlyIn _ _ _)) <;> [decide; skip]
    | (extract_lets +onlyGivenNames x; refine Dev.onlyIn_cut x ?_ ?_ <;> [(dsimp -zeta -proj only [x]; clear x); (intro _; clear_value x; revert x; intros)])
    | (extract_lets +onlyGivenNames x; subst x; beta_reduce)
    | (with_reducible apply Dev.onlyIn_ite)
    | split

theorem Dev.takeEntry_onlyIn (d : Dev) (src epoch ver compat v : ℕ) : Dev.onlyIn [.stat, .adm, .mie] d (Dev.takeEntry d src epoch ver compat v) := by
  unfold Dev.takeEntry
  repeat' first
    | with_reducible apply Dev.onlyIn_refl
    | with_reducible assumption
    | (with_reducible apply Dev.onlyIn_via (Dev.putPub_onlyIn _ _)) <;> [decide; skip]
    | (with_reducible apply Dev.onlyIn_via (Dev.occur_onlyIn _ _ _)) <;> [decide; skip]
    | (with_reducible apply Dev.onlyIn_via (Dev.actOnPub_onlyIn _ _ _)) <;> [decide; skip]
    | (extract_lets +onlyGivenNames x; refine Dev.onlyIn_cut x ?_ ?_ <;> [(dsimp -zeta -proj only [x]; clear x); (intro _; clear_value x; revert x; intros)])
    | (extract_lets +onlyGivenNames x; clear_value x; revert x; intros)
    | (with_reducible apply Dev.onlyIn_ite)

theorem Dev.takeBudget_onlyIn (d : Dev) (f : MFrame) : Dev.onlyIn [.stat, .adm, .mie] d (Dev.takeBudget d f) := by
  unfold Dev.takeBudget
  repeat' first
    | with_reducible apply Dev.onlyIn_refl
    | with_reducible assumption
    | (with_reducible apply Dev.onlyIn_via (Dev.updMie_onlyIn _ _)) <;> [decide; skip]
    | (with_reducible apply Dev.onlyIn_via (Dev.takeEntry_onlyIn _ _ _ _ _ _)) <;> [decide; skip]
    | (extract_lets +onlyGivenNames x; refine Dev.onlyIn_cut x ?_ ?_ <;> [(dsimp -zeta -proj only [x]; clear x); (intro _; clear_value x; revert x; intros)])
    | (extract_lets +onlyGivenNames x; clear_value x; revert x; intros)
    | (with_reducible apply Dev.onlyIn_ite)

theorem Dev.deferWrite_onlyIn (d : Dev) (a v : ℕ) : Dev.onlyIn [.regs] d (Dev.deferWrite d a v) := by
  unfold Dev.deferWrite
  repeat' first
    | with_reducible apply Dev.onlyIn_refl
    | (fail_if_success with_reducible apply Dev.onlyIn_put_dma); (with_reducible apply Dev.onlyIn_put_regs) <;> [skip; decide]

theorem Dev.rowExtWrite_onlyIn (d : Dev) (v : ℕ) : Dev.onlyIn [.regs] d (Dev.rowExtWrite d v) := by
  unfold Dev.rowExtWrite
  repeat' first
    | with_reducible apply Dev.onlyIn_refl
    | (with_reducible apply Dev.onlyIn_via (Dev.deferWrite_onlyIn _ _ _)) <;> [decide; skip]

theorem Dev.rowExtFrond_onlyIn (d : Dev) : Dev.onlyIn [.mie] d (Dev.rowExtFrond d) := by
  unfold Dev.rowExtFrond
  repeat' first
    | with_reducible apply Dev.onlyIn_refl
    | (with_reducible apply Dev.onlyIn_via (Dev.updMie_onlyIn _ _)) <;> [decide; skip]
    | (with_reducible apply Dev.onlyIn_ite)
    | split

theorem Dev.demandTick_onlyIn (d : Dev) : Dev.onlyIn [.mie] d (Dev.demandTick d) := by
  unfold Dev.demandTick
  repeat' first
    | with_reducible apply Dev.onlyIn_refl
    | (with_reducible apply Dev.onlyIn_via (Dev.updMie_onlyIn _ _)) <;> [decide; skip]

theorem Dev.rowFrond_onlyIn (d : Dev) : Dev.onlyIn [.adm, .mie] d (Dev.rowFrond d) := by
  unfold Dev.rowFrond
  repeat' first
    | with_reducible apply Dev.onlyIn_refl
    | (with_reducible apply Dev.onlyIn_via (Dev.updMie_onlyIn _ _)) <;> [decide; skip]
    | (with_reducible apply Dev.onlyIn_via (Dev.applyShare_onlyIn _ _ _)) <;> [decide; skip]
    | (with_reducible apply Dev.onlyIn_via (Dev.setRow_onlyIn _)) <;> [decide; skip]
    | (with_reducible apply Dev.onlyIn_ite)
    | split

theorem Dev.newEpoch_onlyIn (d : Dev) : Dev.onlyIn [.time, .stat, .adm, .mie] d (Dev.newEpoch d) := by
  unfold Dev.newEpoch
  repeat' first
    | with_reducible apply Dev.onlyIn_refl
    | (with_reducible apply Dev.onlyIn_via (Dev.updMie_onlyIn _ _)) <;> [decide; skip]
    | (with_reducible apply Dev.onlyIn_via (Dev.occur_onlyIn _ _ _)) <;> [decide; skip]
    | (with_reducible apply Dev.onlyIn_via (Dev.setRow_onlyIn _)) <;> [decide; skip]
    | (with_reducible apply Dev.onlyIn_via (Dev.actOnPub_onlyIn _ _ _)) <;> [decide; skip]
    | (with_reducible apply Dev.onlyIn_via (Dev.sendAdvert_onlyIn _)) <;> [decide; skip]
    | (fail_if_success with_reducible apply Dev.onlyIn_put_dma); (with_reducible apply Dev.onlyIn_put_time) <;> [skip; decide]
    | (extract_lets +onlyGivenNames x; clear_value x; revert x; intros)
    | (with_reducible apply Dev.onlyIn_ite)

theorem Dev.epochFrond_onlyIn (d : Dev) : Dev.onlyIn [.time, .mie] d (Dev.epochFrond d) := by
  unfold Dev.epochFrond
  repeat' first
    | with_reducible apply Dev.onlyIn_refl
    | with_reducible assumption
    | (with_reducible apply Dev.onlyIn_via (Dev.updMie_onlyIn _ _)) <;> [decide; skip]
    | (fail_if_success with_reducible apply Dev.onlyIn_put_dma); (with_reducible apply Dev.onlyIn_put_time) <;> [skip; decide]
    | (extract_lets +onlyGivenNames x; refine Dev.onlyIn_cut x ?_ ?_ <;> [(dsimp -zeta -proj only [x]; clear x); (intro _; clear_value x; revert x; intros)])
    | (extract_lets +onlyGivenNames x; clear_value x; revert x; intros)
    | (with_reducible apply Dev.onlyIn_ite)

theorem Dev.updPeat_onlyIn (d : Dev) (f : PeatSt → PeatSt) : Dev.onlyIn [.peat] d (Dev.updPeat d f) := by
  unfold Dev.updPeat
  repeat' first
    | with_reducible apply Dev.onlyIn_refl
    | (fail_if_success with_reducible apply Dev.onlyIn_put_dma); (with_reducible apply Dev.onlyIn_put_peat) <;> [skip; decide]

theorem Dev.peatSample_onlyIn (d : Dev) (frame : List ℕ) : Dev.onlyIn [.peat] d (Dev.peatSample d frame) := by
  unfold Dev.peatSample
  repeat' first
    | with_reducible apply Dev.onlyIn_refl
    | (with_reducible apply Dev.onlyIn_via (Dev.updPeat_onlyIn _ _)) <;> [decide; skip]
    | (extract_lets +onlyGivenNames x; clear_value x; revert x; intros)
    | (with_reducible apply Dev.onlyIn_ite)

theorem Dev.peatStanding_onlyIn (d : Dev) : Dev.onlyIn [.peat] d (Dev.peatStanding d) := by
  unfold Dev.peatStanding
  repeat' first
    | with_reducible apply Dev.onlyIn_refl
    | (with_reducible apply Dev.onlyIn_via (Dev.updPeat_onlyIn _ _)) <;> [decide; skip]

theorem Dev.peatDeposit_onlyIn (d : Dev) : Dev.onlyIn [.stat, .peat] d (Dev.peatDeposit d) := by
  unfold Dev.peatDeposit
  repeat' first
    | with_reducible apply Dev.onlyIn_refl
    | with_reducible assumption
    | (with_reducible apply Dev.onlyIn_via (Dev.updPeat_onlyIn _ _)) <;> [decide; skip]
    | (with_reducible apply Dev.onlyIn_via (Dev.occur_onlyIn _ _ _)) <;> [decide; skip]
    | (extract_lets +onlyGivenNames x; refine Dev.onlyIn_cut x ?_ ?_ <;> [(dsimp -zeta -proj only [x]; clear x); (intro _; clear_value x; revert x; intros)])
    | (extract_lets +onlyGivenNames x; subst x; beta_reduce)
    | (with_reducible apply Dev.onlyIn_ite)
    | split

theorem Dev.peatFire_onlyIn (d : Dev) : Dev.onlyIn [.stat, .nv, .peat] d (Dev.peatFire d) := by
  unfold Dev.peatFire
  repeat' first
    | with_reducible apply Dev.onlyIn_refl
    | with_reducible assumption
    | (with_reducible apply Dev.onlyIn_via (Dev.nvPut_onlyIn _ _ _)) <;> [decide; skip]
    | (with_reducible apply Dev.onlyIn_via (Dev.occur_onlyIn _ _ _)) <;> [decide; skip]
    | (with_reducible apply Dev.onlyIn_via (Dev.updPeat_onlyIn _ _)) <;> [decide; skip]
    | (extract_lets +onlyGivenNames x; refine Dev.onlyIn_cut x ?_ ?_ <;> [(dsimp -zeta -proj only [x]; clear x); (intro _; clear_value x; revert x; intros)])
    | (extract_lets +onlyGivenNames x; clear_value x; revert x; intros)
    | (with_reducible apply Dev.onlyIn_ite)
    | split

theorem Dev.peatRdWrite_onlyIn (d : Dev) (v : ℕ) : Dev.onlyIn [.regs, .peat] d (Dev.peatRdWrite d v) := by
  unfold Dev.peatRdWrite
  repeat' first
    | with_reducible apply Dev.onlyIn_refl
    | (with_reducible apply Dev.onlyIn_via (Dev.updPeat_onlyIn _ _)) <;> [decide; skip]
    | (with_reducible apply Dev.onlyIn_via (Dev.setReg_onlyIn _ _ _ _)) <;> [decide; skip]

theorem Dev.tie_onlyIn (d : Dev) (addr : ℕ) : Dev.onlyIn [.stat, .nv] d (Dev.tie d addr) := by
  unfold Dev.tie
  repeat' first
    | with_reducible apply Dev.onlyIn_refl
    | (with_reducible apply Dev.onlyIn_via (Dev.occur_onlyIn _ _ _)) <;> [decide; skip]
    | (fail_if_success with_reducible apply Dev.onlyIn_put_dma); (with_reducible apply Dev.onlyIn_put_nv) <;> [skip; decide]

theorem Dev.peatResolve_onlyIn (d : Dev) (sq : ℕ) : Dev.onlyIn [.stat, .nv] d (Dev.peatResolve d sq).1 := by
  unfold Dev.peatResolve
  repeat' first
    | with_reducible apply Dev.onlyIn_refl
    | (with_reducible apply Dev.onlyIn_via (Dev.tie_onlyIn _ _)) <;> [decide; skip]
    | (extract_lets +onlyGivenNames x; clear_value x; revert x; intros)
    | (with_reducible apply Dev.onlyIn_ite)
    | split

theorem Dev.peatLookup_onlyIn (d : Dev) (sq : ℕ) : Dev.onlyIn [.stat, .nv] d (Dev.peatLookup d sq).1 := by
  unfold Dev.peatLookup
  cases d.peat.retained sq
  · exact Dev.onlyIn_refl _ _
  · exact Dev.peatResolve_onlyIn _ _

theorem Dev.pageStart_onlyIn (d : Dev) : Dev.onlyIn [.nv] d (Dev.pageStart d) := by
  unfold Dev.pageStart
  repeat' first
    | with_reducible apply Dev.onlyIn_refl
    | (fail_if_success with_reducible apply Dev.onlyIn_put_dma); (with_reducible apply Dev.onlyIn_put_nv) <;> [skip; decide]
    | (extract_lets +onlyGivenNames x; clear_value x; revert x; intros)
    | (with_reducible apply Dev.onlyIn_ite)
    | split

theorem Dev.pageNext_onlyIn (d : Dev) : Dev.onlyIn [.nv, .upd] d (Dev.pageNext d) := by
  unfold Dev.pageNext
  repeat' first
    | with_reducible apply Dev.onlyIn_refl
    | with_reducible assumption
    | (with_reducible apply Dev.onlyIn_via (Dev.pageStart_onlyIn _)) <;> [decide; skip]
    | (with_reducible apply Dev.onlyIn_via (Dev.updUpd_onlyIn _ _)) <;> [decide; skip]
    | (fail_if_success with_reducible apply Dev.onlyIn_put_dma); (with_reducible apply Dev.onlyIn_put_nv) <;> [skip; decide]
    | (extract_lets +onlyGivenNames x; refine Dev.onlyIn_cut x ?_ ?_ <;> [(dsimp -zeta -proj only [x]; clear x); (intro _; clear_value x; revert x; intros)])
    | (extract_lets +onlyGivenNames x; clear_value x; revert x; intros)
    | (with_reducible apply Dev.onlyIn_ite)

theorem Dev.setDirPut_onlyIn (d : Dev) (b : ℕ) : Dev.onlyIn [.nv] d (Dev.setDirPut d b) := by
  unfold Dev.setDirPut
  repeat' first
    | with_reducible apply Dev.onlyIn_refl
    | (with_reducible apply Dev.onlyIn_via (Dev.nvPut_onlyIn _ _ _)) <;> [decide; skip]
    | (extract_lets +onlyGivenNames x; clear_value x; revert x; intros)
    | (with_reducible apply Dev.onlyIn_ite)

theorem Dev.setWrite_onlyIn (d : Dev) (b : ℕ) (l : List (ℕ × ℕ)) : Dev.onlyIn [.stat, .nv, .upd] d (Dev.setWrite d b l) := by
  unfold Dev.setWrite
  repeat' first
    | with_reducible apply Dev.onlyIn_refl
    | with_reducible assumption
    | (with_reducible apply Dev.onlyIn_via (Dev.setDirPut_onlyIn _ _)) <;> [decide; skip]
    | (with_reducible apply Dev.onlyIn_via (Dev.occur_onlyIn _ _ _)) <;> [decide; skip]
    | (with_reducible apply Dev.onlyIn_via (Dev.updUpd_onlyIn _ _)) <;> [decide; skip]
    | (with_reducible apply Dev.onlyIn_via (Dev.nvPut2_onlyIn _ _ _ _)) <;> [decide; skip]
    | (extract_lets +onlyGivenNames x; refine Dev.onlyIn_cut x ?_ ?_ <;> [(dsimp -zeta -proj only [x]; clear x); (intro _; clear_value x; revert x; intros)])
    | (extract_lets +onlyGivenNames x; clear_value x; revert x; intros)
    | (with_reducible apply Dev.onlyIn_ite)

theorem Dev.setBankPut_onlyIn (d : Dev) (b : ℕ) (l : List Byte) : Dev.onlyIn [.stat, .nv, .upd] d (Dev.setBankPut d b l) := by
  unfold Dev.setBankPut
  repeat' first
    | with_reducible apply Dev.onlyIn_refl
    | (with_reducible apply Dev.onlyIn_via (Dev.occur_onlyIn _ _ _)) <;> [decide; skip]
    | (with_reducible apply Dev.onlyIn_via (Dev.nvPut_onlyIn _ _ _)) <;> [decide; skip]
    | (with_reducible apply Dev.onlyIn_via (Dev.updUpd_onlyIn _ _)) <;> [decide; skip]
    | (with_reducible apply Dev.onlyIn_ite)

theorem Dev.crustStart_onlyIn (d : Dev) (i : ℕ) (v : List Byte) (src : ℕ) (spore : Bool) : Dev.onlyIn [.crust] d (Dev.crustStart d i v src spore) := by
  unfold Dev.crustStart
  repeat' first
    | with_reducible apply Dev.onlyIn_refl
    | (fail_if_success with_reducible apply Dev.onlyIn_put_dma); (with_reducible apply Dev.onlyIn_put_crust) <;> [skip; decide]

theorem Dev.crustDone_onlyIn (d : Dev) (j : CrustJob) : Dev.onlyIn [.stat] d (Dev.crustDone d j) := by
  unfold Dev.crustDone
  repeat' first
    | with_reducible apply Dev.onlyIn_refl
    | with_reducible assumption
    | (with_reducible apply Dev.onlyIn_via (Dev.crustSpent_onlyIn _ _)) <;> [decide; skip]
    | (with_reducible apply Dev.onlyIn_via (Dev.occur_onlyIn _ _ _)) <;> [decide; skip]
    | (extract_lets +onlyGivenNames x; refine Dev.onlyIn_cut x ?_ ?_ <;> [(dsimp -zeta -proj only [x]; clear x); (intro _; clear_value x; revert x; intros)])
    | (with_reducible apply Dev.onlyIn_ite)

theorem Dev.crustProgram_onlyIn (d : Dev) (j : CrustJob) : Dev.onlyIn [.crust] d (Dev.crustProgram d j) := by
  unfold Dev.crustProgram
  repeat' first
    | with_reducible apply Dev.onlyIn_refl
    | (fail_if_success with_reducible apply Dev.onlyIn_put_dma); (with_reducible apply Dev.onlyIn_put_crust) <;> [skip; decide]

theorem Dev.crustRead_onlyIn (d : Dev) : Dev.onlyIn [.crust] d (Dev.crustRead d) := by
  unfold Dev.crustRead
  repeat' first
    | with_reducible apply Dev.onlyIn_refl
    | (fail_if_success with_reducible apply Dev.onlyIn_put_dma); (with_reducible apply Dev.onlyIn_put_crust) <;> [skip; decide]

theorem Dev.crustFrond_onlyIn (d : Dev) : Dev.onlyIn [.crust] d (Dev.crustFrond d) := by
  unfold Dev.crustFrond
  repeat' first
    | with_reducible apply Dev.onlyIn_refl
    | (fail_if_success with_reducible apply Dev.onlyIn_put_dma); (with_reducible apply Dev.onlyIn_put_crust) <;> [skip; decide]

theorem Dev.crustEnd_onlyIn (d : Dev) (r : ℕ) : Dev.onlyIn [.stat, .jrn] d (Dev.crustEnd d r) := by
  unfold Dev.crustEnd
  repeat' first
    | with_reducible apply Dev.onlyIn_refl
    | (with_reducible apply Dev.onlyIn_via (Dev.endItem_onlyIn _ _ _)) <;> [decide; skip]
    | (with_reducible apply Dev.onlyIn_via (Dev.occurC_onlyIn _ _ _ _)) <;> [decide; skip]
    | (with_reducible apply Dev.onlyIn_ite)

theorem Dev.confirmNext_onlyIn (d : Dev) (src : ℕ) (x2 : List SporeSection) : Dev.onlyIn [.stat, .jrn, .crust, .twT, .upd] d (Dev.confirmNext d src x2) := by
  induction x2 generalizing d with
  | nil =>
    rw [Dev.confirmNext]
    repeat' first
      | with_reducible apply Dev.onlyIn_refl
      | (with_reducible apply Dev.onlyIn_via (Dev.confirmOver_onlyIn _)) <;> [decide; skip]
      | (with_reducible apply Dev.onlyIn_via (Dev.occur_onlyIn _ _ _)) <;> [decide; skip]
      | (with_reducible apply Dev.onlyIn_via (Dev.endItem_onlyIn _ _ _)) <;> [decide; skip]
  | cons a l ih =>
    rw [Dev.confirmNext]
    repeat' first
      | with_reducible apply Dev.onlyIn_refl
      | with_reducible apply Dev.onlyIn_then (ih _)
      | (with_reducible apply Dev.onlyIn_via (Dev.occurC_onlyIn _ _ _ _)) <;> [decide; skip]
      | (with_reducible apply Dev.onlyIn_via (Dev.confirmFail_onlyIn _ _)) <;> [decide; skip]
      | (with_reducible apply Dev.onlyIn_via (Dev.updUpd_onlyIn _ _)) <;> [decide; skip]
      | (with_reducible apply Dev.onlyIn_via (Dev.crustStart_onlyIn _ _ _ _ _)) <;> [decide; skip]
      | (with_reducible apply Dev.onlyIn_ite)

theorem Dev.crustVote_onlyIn (d : Dev) (n : ℕ) : Dev.onlyIn [.stat, .crust] d (Dev.crustVote d n) := by
  unfold Dev.crustVote
  repeat' first
    | with_reducible apply Dev.onlyIn_refl
    | with_reducible assumption
    | (with_reducible apply Dev.onlyIn_via (Dev.occur_onlyIn _ _ _)) <;> [decide; skip]
    | (fail_if_success with_reducible apply Dev.onlyIn_put_dma); (with_reducible apply Dev.onlyIn_put_crust) <;> [skip; decide]
    | (extract_lets +onlyGivenNames x; refine Dev.onlyIn_cut x ?_ ?_ <;> [(dsimp -zeta -proj only [x]; clear x); (intro _; clear_value x; revert x; intros)])
    | (extract_lets +onlyGivenNames x; clear_value x; revert x; intros)
    | (with_reducible apply Dev.onlyIn_ite)

theorem Dev.propose_onlyIn (d : Dev) (sampled : List (ℕ × ℕ)) : Dev.onlyIn [.stat] d (Dev.propose d sampled).1 := by
  unfold Dev.propose
  repeat' first
    | with_reducible apply Dev.onlyIn_refl
    | (with_reducible apply Dev.onlyIn_via (Dev.clamped_onlyIn _ _ _ _)) <;> [decide; skip]
    | (with_reducible apply Dev.onlyIn_foldl_fst) <;> [(intro _ _); skip]
    | (extract_lets +onlyGivenNames x; clear_value x; revert x; intros)
    | (with_reducible apply Dev.onlyIn_ite)
    | split

theorem Dev.clampAmp_onlyIn (d : Dev) (ch : Changes) : Dev.onlyIn [.stat] d (Dev.clampAmp d ch).1 := by
  unfold Dev.clampAmp
  repeat' first
    | with_reducible apply Dev.onlyIn_refl
    | (with_reducible apply Dev.onlyIn_via (Dev.clamped_onlyIn _ _ _ _)) <;> [decide; skip]
    | (extract_lets +onlyGivenNames x; clear_value x; revert x; intros)
    | (with_reducible apply Dev.onlyIn_ite)
    | split

theorem Dev.trackCheck_onlyIn (d : Dev) (ch : Changes) : Dev.onlyIn [.stat] d (Dev.trackCheck d ch).1 := by
  unfold Dev.trackCheck
  repeat' first
    | with_reducible apply Dev.onlyIn_refl
    | (with_reducible apply Dev.onlyIn_via (Dev.occur_onlyIn _ _ _)) <;> [decide; skip]
    | (with_reducible apply Dev.onlyIn_foldl_fst) <;> [(intro _ _); skip]
    | (extract_lets +onlyGivenNames x; clear_value x; revert x; intros)
    | (with_reducible apply Dev.onlyIn_ite)
    | split

theorem Dev.assignCheck_onlyIn (d : Dev) (ch : Changes) : Dev.onlyIn [.stat] d (Dev.assignCheck d ch).1 := by
  unfold Dev.assignCheck
  repeat' first
    | with_reducible apply Dev.onlyIn_refl
    | (with_reducible apply Dev.onlyIn_via (Dev.occurC_onlyIn _ _ _ _)) <;> [decide; skip]
    | (extract_lets +onlyGivenNames x; clear_value x; revert x; intros)
    | (with_reducible apply Dev.onlyIn_ite)
    | split

theorem Dev.grantCheck_onlyIn (d : Dev) (ch : Changes) : Dev.onlyIn [.stat] d (Dev.grantCheck d ch).1 := by
  unfold Dev.grantCheck
  repeat' first
    | with_reducible apply Dev.onlyIn_refl
    | (with_reducible apply Dev.onlyIn_via (Dev.occur_onlyIn _ _ _)) <;> [decide; skip]
    | (with_reducible apply Dev.onlyIn_foldl_fst) <;> [(intro _ _); skip]
    | (with_reducible apply Dev.onlyIn_ite)
    | split

theorem Dev.refCheck_onlyIn (d : Dev) (ch : Changes) : Dev.onlyIn [.stat] d (Dev.refCheck d ch).1 := by
  unfold Dev.refCheck
  repeat' first
    | with_reducible apply Dev.onlyIn_refl
    | (with_reducible apply Dev.onlyIn_via (Dev.occur_onlyIn _ _ _)) <;> [decide; skip]
    | (extract_lets +onlyGivenNames x; clear_value x; revert x; intros)
    | (with_reducible apply Dev.onlyIn_ite)
    | split

theorem Dev.tableCheck_onlyIn (d : Dev) (ch : Changes) : Dev.onlyIn [.stat] d (Dev.tableCheck d ch).1 := by
  unfold Dev.tableCheck
  repeat' first
    | with_reducible apply Dev.onlyIn_refl
    | (with_reducible apply Dev.onlyIn_via (Dev.occurC_onlyIn _ _ _ _)) <;> [decide; skip]
    | (extract_lets +onlyGivenNames x; clear_value x; revert x; intros)
    | (with_reducible apply Dev.onlyIn_ite)
    | split

theorem Dev.applyChanges_onlyIn (d : Dev) (ch : Changes) : Dev.onlyIn [.regs] d (Dev.applyChanges d ch) := by
  unfold Dev.applyChanges
  repeat' first
    | with_reducible apply Dev.onlyIn_refl
    | (fail_if_success with_reducible apply Dev.onlyIn_put_dma); (with_reducible apply Dev.onlyIn_put_regs) <;> [skip; decide]

theorem Dev.applyMembers_onlyIn (old d : Dev) : Dev.onlyIn [.units] d (Dev.applyMembers old d) := by
  unfold Dev.applyMembers
  repeat' first
    | with_reducible apply Dev.onlyIn_refl
    | (with_reducible apply Dev.onlyIn_then (foldN_onlyIn _ _ _ ?_)) <;> [skip; (intro _ _ )]
    | (with_reducible apply Dev.onlyIn_via (Dev.updUnit_onlyIn _ _ _)) <;> [decide; skip]
    | (extract_lets +onlyGivenNames x; clear_value x; revert x; intros)
    | (with_reducible apply Dev.onlyIn_ite)

theorem Dev.applyBlkEn_onlyIn (old d : Dev) : Dev.onlyIn [.stat, .rails, .units, .inj, .fh] d (Dev.applyBlkEn old d) := by
  unfold Dev.applyBlkEn
  repeat' first
    | with_reducible apply Dev.onlyIn_refl
    | (with_reducible apply Dev.onlyIn_then (foldN_onlyIn _ _ _ ?_)) <;> [skip; (intro _ _ )]
    | (with_reducible apply Dev.onlyIn_via (Dev.memberRefused_onlyIn _ _)) <;> [decide; skip]
    | (with_reducible apply Dev.onlyIn_via (Dev.railOffReq_onlyIn _ _)) <;> [decide; skip]
    | (with_reducible apply Dev.onlyIn_ite)

theorem Dev.applyGrants_onlyIn (old d : Dev) : Dev.onlyIn [.adm] d (Dev.applyGrants old d) := by
  unfold Dev.applyGrants
  repeat' first
    | with_reducible apply Dev.onlyIn_refl
    | (with_reducible apply Dev.onlyIn_then (foldN_onlyIn _ _ _ ?_)) <;> [skip; (intro _ _ )]
    | (with_reducible apply Dev.onlyIn_via (Dev.updLoad_onlyIn _ _ _)) <;> [decide; skip]
    | (with_reducible apply Dev.onlyIn_ite)

theorem Dev.applyTable_onlyIn (d : Dev) : Dev.onlyIn [.fh] d (Dev.applyTable d) := by
  unfold Dev.applyTable
  repeat' first
    | with_reducible apply Dev.onlyIn_refl
    | (with_reducible apply Dev.onlyIn_then (foldN_onlyIn _ _ _ ?_)) <;> [skip; (intro _ _ )]
    | (with_reducible apply Dev.onlyIn_via (Dev.updMbr_onlyIn _ _ _)) <;> [decide; skip]
    | (extract_lets +onlyGivenNames x; clear_value x; revert x; intros)
    | (with_reducible apply Dev.onlyIn_ite)

theorem Dev.auxRestart_onlyIn (d : Dev) : Dev.onlyIn [.sense] d (Dev.auxRestart d) := by
  unfold Dev.auxRestart
  repeat' first
    | with_reducible apply Dev.onlyIn_refl
    | (with_reducible apply Dev.onlyIn_via (Dev.updAux_onlyIn _ _)) <;> [decide; skip]

theorem Dev.metChanged_onlyIn (old d : Dev) : Dev.onlyIn [.sense] d (Dev.metChanged old d) := by
  unfold Dev.metChanged
  repeat' first
    | with_reducible apply Dev.onlyIn_refl
    | (with_reducible apply Dev.onlyIn_then (foldN_onlyIn _ _ _ ?_)) <;> [skip; (intro _ _ )]
    | (with_reducible apply Dev.onlyIn_via (Dev.updPre_onlyIn _ _ _)) <;> [decide; skip]
    | (with_reducible apply Dev.onlyIn_ite)

theorem Dev.commitEffects_onlyIn (old : Dev) (ch : Changes) (pages : List ℕ) (d : Dev) : Dev.onlyIn [.regs, .stat, .rails, .units, .inj, .sense, .adm, .fh] d (Dev.commitEffects old ch pages d) := by
  unfold Dev.commitEffects
  repeat' first
    | with_reducible apply Dev.onlyIn_refl
    | with_reducible assumption
    | (with_reducible apply Dev.onlyIn_via (Dev.applyChanges_onlyIn _ _)) <;> [decide; skip]
    | (with_reducible apply Dev.onlyIn_via (Dev.applyMembers_onlyIn _ _)) <;> [decide; skip]
    | (with_reducible apply Dev.onlyIn_via (Dev.applyBlkEn_onlyIn _ _)) <;> [decide; skip]
    | (with_reducible apply Dev.onlyIn_via (Dev.applyGrants_onlyIn _ _)) <;> [decide; skip]
    | (with_reducible apply Dev.onlyIn_via (Dev.applyTable_onlyIn _)) <;> [decide; skip]
    | (with_reducible apply Dev.onlyIn_via (Dev.newRef_onlyIn _ _ _)) <;> [decide; skip]
    | (with_reducible apply Dev.onlyIn_via (Dev.auxRestart_onlyIn _)) <;> [decide; skip]
    | (with_reducible apply Dev.onlyIn_via (Dev.metChanged_onlyIn _ _)) <;> [decide; skip]
    | (with_reducible apply Dev.onlyIn_via (Dev.injCommit_onlyIn _)) <;> [decide; skip]
    | (extract_lets +onlyGivenNames x; refine Dev.onlyIn_cut x ?_ ?_ <;> [(dsimp -zeta -proj only [x]; clear x); (intro _; clear_value x; revert x; intros)])
    | (with_reducible apply Dev.onlyIn_ite)

theorem Dev.checkAll_onlyIn (d : Dev) (sampled : List (ℕ × ℕ)) : Dev.onlyIn [.stat] d (Dev.checkAll d sampled).1 := by
  unfold Dev.checkAll
  repeat' first
    | with_reducible apply Dev.onlyIn_refl
    | (with_reducible apply Dev.onlyIn_via (Dev.propose_onlyIn _ _)) <;> [decide; skip]
    | (with_reducible apply Dev.onlyIn_via (Dev.clampAmp_onlyIn _ _)) <;> [decide; skip]
    | (with_reducible apply Dev.onlyIn_via (Dev.trackCheck_onlyIn _ _)) <;> [decide; skip]
    | (with_reducible apply Dev.onlyIn_via (Dev.assignCheck_onlyIn _ _)) <;> [decide; skip]
    | (with_reducible apply Dev.onlyIn_via (Dev.grantCheck_onlyIn _ _)) <;> [decide; skip]
    | (with_reducible apply Dev.onlyIn_via (Dev.refCheck_onlyIn _ _)) <;> [decide; skip]
    | (with_reducible apply Dev.onlyIn_via (Dev.tableCheck_onlyIn _ _)) <;> [decide; skip]

theorem Dev.commitFrond_onlyIn (d : Dev) : Dev.onlyIn [.regs, .stat, .rails, .units, .inj, .sram, .live, .sense, .adm, .fh] d (Dev.commitFrond d) := by
  unfold Dev.commitFrond
  repeat' first
    | with_reducible apply Dev.onlyIn_refl
    | (with_reducible apply Dev.onlyIn_via (Dev.checkAll_onlyIn _ _)) <;> [decide; skip]
    | (with_reducible apply Dev.onlyIn_via (Dev.commitEffects_onlyIn _ _ _ _)) <;> [decide; skip]
    | (with_reducible apply Dev.onlyIn_via (Dev.commitCoeffs_onlyIn _ _ _)) <;> [decide; skip]
    | (with_reducible apply Dev.onlyIn_foldl) <;> [(intro _ _); skip]
    | (fail_if_success with_reducible apply Dev.onlyIn_put_dma); (with_reducible apply Dev.onlyIn_put_regs) <;> [skip; decide]
    | (with_reducible apply Dev.onlyIn_ite)

theorem Dev.commitSample_onlyIn (d : Dev) : Dev.onlyIn [.regs] d (Dev.commitSample d) := by
  unfold Dev.commitSample
  repeat' first
    | with_reducible apply Dev.onlyIn_refl
    | (fail_if_success with_reducible apply Dev.onlyIn_put_dma); (with_reducible apply Dev.onlyIn_put_regs) <;> [skip; decide]

theorem Dev.commitPage_onlyIn (d : Dev) (pg : ℕ) : Dev.onlyIn [.regs] d (Dev.commitPage d pg) := by
  unfold Dev.commitPage
  repeat' first
    | with_reducible apply Dev.onlyIn_refl
    | (fail_if_success with_reducible apply Dev.onlyIn_put_dma); (with_reducible apply Dev.onlyIn_put_regs) <;> [skip; decide]
    | (extract_lets +onlyGivenNames x; clear_value x; revert x; intros)
    | (with_reducible apply Dev.onlyIn_ite)

theorem Dev.sessionEnd_onlyIn (d : Dev) : Dev.onlyIn [.twT, .upd] d (Dev.sessionEnd d) := by
  unfold Dev.sessionEnd
  repeat' first
    | with_reducible apply Dev.onlyIn_refl
    | (with_reducible apply Dev.onlyIn_via (Dev.setUpd_onlyIn _ _)) <;> [decide; skip]
    | (with_reducible apply Dev.onlyIn_via (Dev.updUpd_onlyIn _ _)) <;> [decide; skip]

theorem Dev.sessionStart_onlyIn (d : Dev) (src total : ℕ) : Dev.onlyIn [.jrn, .twT, .upd] d (Dev.sessionStart d src total) := by
  unfold Dev.sessionStart
  repeat' first
    | with_reducible apply Dev.onlyIn_refl
    | (with_reducible apply Dev.onlyIn_via (Dev.endItem_onlyIn _ _ _)) <;> [decide; skip]
    | (with_reducible apply Dev.onlyIn_via (Dev.setUpd_onlyIn _ _)) <;> [decide; skip]
    | (with_reducible apply Dev.onlyIn_via (Dev.updUpd_onlyIn _ _)) <;> [decide; skip]

theorem Dev.chunk_onlyIn (d : Dev) (off : ℕ) (l : List Byte) : Dev.onlyIn [.nv, .upd] d (Dev.chunk d off l).1 := by
  unfold Dev.chunk
  repeat' first
    | with_reducible apply Dev.onlyIn_refl
    | (with_reducible apply Dev.onlyIn_via (Dev.pageStart_onlyIn _)) <;> [decide; skip]
    | (with_reducible apply Dev.onlyIn_via (Dev.updUpd_onlyIn _ _)) <;> [decide; skip]
    | (extract_lets +onlyGivenNames x; clear_value x; revert x; intros)
    | (with_reducible apply Dev.onlyIn_ite)
    | split

theorem Dev.takeChunk_onlyIn (d : Dev) (off : ℕ) (l : List Byte) : Dev.onlyIn [.nv, .upd] d (Dev.takeChunk d off l) := by
  unfold Dev.takeChunk
  repeat' first
    | with_reducible apply Dev.onlyIn_refl
    | (with_reducible apply Dev.onlyIn_via (Dev.chunk_onlyIn _ _ _)) <;> [decide; skip]
    | (with_reducible apply Dev.onlyIn_via (Dev.updUpd_onlyIn _ _)) <;> [decide; skip]

theorem Dev.chunkCtl_onlyIn (d : Dev) (p : Path) (v : ℕ) : Dev.onlyIn [.nv, .upd] d (Dev.chunkCtl d p v) := by
  unfold Dev.chunkCtl
  repeat' first
    | with_reducible apply Dev.onlyIn_refl
    | (with_reducible apply Dev.onlyIn_via (Dev.updUpd_onlyIn _ _)) <;> [decide; skip]
    | (with_reducible apply Dev.onlyIn_via (Dev.takeChunk_onlyIn _ _ _)) <;> [decide; skip]
    | (with_reducible apply Dev.onlyIn_ite)

theorem Dev.commitDone_onlyIn (d : Dev) (ss : List SporeSection) : Dev.onlyIn [.stat, .nv, .twT, .upd] d (Dev.commitDone d ss) := by
  unfold Dev.commitDone
  repeat' first
    | with_reducible apply Dev.onlyIn_refl
    | (with_reducible apply Dev.onlyIn_via (Dev.setWrite_onlyIn _ _ _)) <;> [decide; skip]
    | (with_reducible apply Dev.onlyIn_via (Dev.setBankPut_onlyIn _ _ _)) <;> [decide; skip]
    | (with_reducible apply Dev.onlyIn_via (Dev.setUpd_onlyIn _ _)) <;> [decide; skip]
    | (with_reducible apply Dev.onlyIn_via (Dev.updUpd_onlyIn _ _)) <;> [decide; skip]
    | (with_reducible apply Dev.onlyIn_ite)
    | split

theorem Dev.commitFailed_onlyIn (d : Dev) (r : ℕ) : Dev.onlyIn [.stat, .jrn, .twT, .upd] d (Dev.commitFailed d r) := by
  unfold Dev.commitFailed
  repeat' first
    | with_reducible apply Dev.onlyIn_refl
    | (with_reducible apply Dev.onlyIn_via (Dev.updUpd_onlyIn _ _)) <;> [decide; skip]
    | (with_reducible apply Dev.onlyIn_via (Dev.setUpd_onlyIn _ _)) <;> [decide; skip]
    | (with_reducible apply Dev.onlyIn_via (Dev.occur_onlyIn _ _ _)) <;> [decide; skip]
    | (with_reducible apply Dev.onlyIn_via (Dev.endItem_onlyIn _ _ _)) <;> [decide; skip]
    | (with_reducible apply Dev.onlyIn_ite)

theorem Dev.applySettings_onlyIn (d : Dev) : Dev.onlyIn [.regs, .stat, .rails, .units, .inj, .sense, .adm, .fh] d (Dev.applySettings d) := by
  unfold Dev.applySettings
  repeat' first
    | with_reducible apply Dev.onlyIn_refl
    | (with_reducible apply Dev.onlyIn_via (Dev.checkAll_onlyIn _ _)) <;> [decide; skip]
    | (with_reducible apply Dev.onlyIn_via (Dev.commitEffects_onlyIn _ _ _ _)) <;> [decide; skip]

theorem Dev.switchOver_onlyIn (d : Dev) : Dev.onlyIn [.regs, .stat, .rails, .units, .inj, .sense, .adm, .fh, .upd] d (Dev.switchOver d) := by
  unfold Dev.switchOver
  repeat' first
    | with_reducible apply Dev.onlyIn_refl
    | (with_reducible apply Dev.onlyIn_via (Dev.applySettings_onlyIn _)) <;> [decide; skip]
    | (with_reducible apply Dev.onlyIn_via (Dev.updUpd_onlyIn _ _)) <;> [decide; skip]

theorem Dev.switchNew_onlyIn (d : Dev) : Dev.onlyIn [.regs, .stat, .rails, .units, .inj, .sense, .adm, .fh, .twT, .upd] d (Dev.switchNew d) := by
  unfold Dev.switchNew
  repeat' first
    | with_reducible apply Dev.onlyIn_refl
    | (with_reducible apply Dev.onlyIn_via (Dev.setUpd_onlyIn _ _)) <;> [decide; skip]
    | (with_reducible apply Dev.onlyIn_via (Dev.updUpd_onlyIn _ _)) <;> [decide; skip]
    | (with_reducible apply Dev.onlyIn_via (Dev.switchOver_onlyIn _)) <;> [decide; skip]

theorem Dev.switchOld_onlyIn (d : Dev) : Dev.onlyIn [.regs, .stat, .rails, .units, .inj, .sense, .adm, .fh, .twT, .upd] d (Dev.switchOld d) := by
  unfold Dev.switchOld
  repeat' first
    | with_reducible apply Dev.onlyIn_refl
    | (with_reducible apply Dev.onlyIn_via (Dev.setUpd_onlyIn _ _)) <;> [decide; skip]
    | (with_reducible apply Dev.onlyIn_via (Dev.updUpd_onlyIn _ _)) <;> [decide; skip]
    | (with_reducible apply Dev.onlyIn_via (Dev.switchOver_onlyIn _)) <;> [decide; skip]

theorem Dev.pauseEnd_onlyIn (d : Dev) : Dev.onlyIn [.stat, .jrn, .twT, .upd] d (Dev.pauseEnd d) := by
  unfold Dev.pauseEnd
  repeat' first
    | with_reducible apply Dev.onlyIn_refl
    | with_reducible assumption
    | (with_reducible apply Dev.onlyIn_via (Dev.updUpd_onlyIn _ _)) <;> [decide; skip]
    | (with_reducible apply Dev.onlyIn_via (Dev.occur_onlyIn _ _ _)) <;> [decide; skip]
    | (with_reducible apply Dev.onlyIn_via (Dev.endItem_onlyIn _ _ _)) <;> [decide; skip]
    | (with_reducible apply Dev.onlyIn_via (Dev.occurC_onlyIn _ _ _ _)) <;> [decide; skip]
    | (with_reducible apply Dev.onlyIn_then (foldN_onlyIn _ _ _ ?_)) <;> [skip; (intro _ _ )]
    | (with_reducible apply Dev.onlyIn_via (Dev.updTwT_onlyIn _ _ _)) <;> [decide; skip]
    | (extract_lets +onlyGivenNames x; refine Dev.onlyIn_cut x ?_ ?_ <;> [(dsimp -zeta -proj only [x]; clear x); (intro _; clear_value x; revert x; intros)])
    | (with_reducible apply Dev.onlyIn_ite)

theorem Dev.rollStart_onlyIn (d : Dev) (g cause : ℕ) : Dev.onlyIn [.sched, .stat, .twT, .upd] d (Dev.rollStart d g cause) := by
  unfold Dev.rollStart
  repeat' first
    | with_reducible apply Dev.onlyIn_refl
    | with_reducible assumption
    | (with_reducible apply Dev.onlyIn_via (Dev.setUpd_onlyIn _ _)) <;> [decide; skip]
    | (with_reducible apply Dev.onlyIn_via (Dev.updUpd_onlyIn _ _)) <;> [decide; skip]
    | (with_reducible apply Dev.onlyIn_via (Dev.armSwap_onlyIn _ _)) <;> [decide; skip]
    | (extract_lets +onlyGivenNames x; refine Dev.onlyIn_cut x ?_ ?_ <;> [(dsimp -zeta -proj only [x]; clear x); (intro _; clear_value x; revert x; intros)])
    | (with_reducible apply Dev.onlyIn_ite)

theorem Dev.unitBack_onlyIn (d : Dev) (n : ℕ) : Dev.onlyIn [.units] d (Dev.unitBack d n) := by
  unfold Dev.unitBack
  repeat' first
    | with_reducible apply Dev.onlyIn_refl
    | (with_reducible apply Dev.onlyIn_via (Dev.updUnit_onlyIn _ _ _)) <;> [decide; skip]
    | (extract_lets +onlyGivenNames x; clear_value x; revert x; intros)
    | (with_reducible apply Dev.onlyIn_ite)

theorem Dev.afterClear_onlyIn (d : Dev) (pg cleared : ℕ) : Dev.onlyIn [.rails, .units, .feedA, .feedB, .therm] d (Dev.afterClear d pg cleared) := by
  unfold Dev.afterClear
  repeat' first
    | with_reducible apply Dev.onlyIn_refl
    | (with_reducible apply Dev.onlyIn_via (Dev.unitBack_onlyIn _ _)) <;> [decide; skip]
    | (with_reducible apply Dev.onlyIn_via (Dev.updRail_onlyIn _ _ _)) <;> [decide; skip]
    | (with_reducible apply Dev.onlyIn_then (foldN_onlyIn _ _ _ ?_)) <;> [skip; (intro _ _ )]
    | (with_reducible apply Dev.onlyIn_via (Dev.updTherm_onlyIn _ _)) <;> [decide; skip]
    | (fail_if_success with_reducible apply Dev.onlyIn_put_dma); (with_reducible apply Dev.onlyIn_put_units) <;> [skip; decide]
    | (fail_if_success with_reducible apply Dev.onlyIn_put_dma); (with_reducible apply Dev.onlyIn_put_feedA_feedB) <;> [skip; decide; decide]
    | (extract_lets +onlyGivenNames x; clear_value x; revert x; intros)
    | (with_reducible apply Dev.onlyIn_ite)

theorem Dev.clearNow_onlyIn (d : Dev) (pg mask newOcc : ℕ) : Dev.onlyIn [.stat, .rails, .units, .feedA, .feedB, .therm] d (Dev.clearNow d pg mask newOcc) := by
  unfold Dev.clearNow
  repeat' first
    | with_reducible apply Dev.onlyIn_refl
    | (with_reducible apply Dev.onlyIn_via (Dev.afterClear_onlyIn _ _ _)) <;> [decide; skip]
    | (with_reducible apply Dev.onlyIn_via (Dev.updStat_onlyIn _ _ _)) <;> [decide; skip]

theorem Dev.clearRequest_onlyIn (d : Dev) (pg mask : ℕ) (cmd : Bool) : Dev.onlyIn [.stat, .rails, .units, .feedA, .feedB, .therm] d (Dev.clearRequest d pg mask cmd) := by
  unfold Dev.clearRequest
  repeat' first
    | with_reducible apply Dev.onlyIn_refl
    | (with_reducible apply Dev.onlyIn_via (Dev.updStat_onlyIn _ _ _)) <;> [decide; skip]
    | (with_reducible apply Dev.onlyIn_via (Dev.clearNow_onlyIn _ _ _ _)) <;> [decide; skip]
    | (with_reducible apply Dev.onlyIn_ite)

theorem Dev.clearDue_onlyIn (d : Dev) (pg : ℕ) (p : PendClear) : Dev.onlyIn [.stat, .rails, .units, .jrn, .feedA, .feedB, .therm] d (Dev.clearDue d pg p) := by
  unfold Dev.clearDue
  repeat' first
    | with_reducible apply Dev.onlyIn_refl
    | with_reducible assumption
    | (with_reducible apply Dev.onlyIn_via (Dev.clearNow_onlyIn _ _ _ _)) <;> [decide; skip]
    | (with_reducible apply Dev.onlyIn_via (Dev.endItem_onlyIn _ _ _)) <;> [decide; skip]
    | (extract_lets +onlyGivenNames x; refine Dev.onlyIn_cut x ?_ ?_ <;> [(dsimp -zeta -proj only [x]; clear x); (intro _; clear_value x; revert x; intros)])
    | (extract_lets +onlyGivenNames x; clear_value x; revert x; intros)
    | (with_reducible apply Dev.onlyIn_ite)

theorem Dev.clearFrond_onlyIn (d : Dev) : Dev.onlyIn [.stat, .rails, .units, .jrn, .feedA, .feedB, .therm] d (Dev.clearFrond d) := by
  unfold Dev.clearFrond
  repeat' first
    | with_reducible apply Dev.onlyIn_refl
    | (with_reducible apply Dev.onlyIn_via (Dev.clearDue_onlyIn _ _ _)) <;> [decide; skip]
    | (with_reducible apply Dev.onlyIn_foldl) <;> [(intro _ _); skip]
    | (fail_if_success with_reducible apply Dev.onlyIn_put_dma); (with_reducible apply Dev.onlyIn_put_stat) <;> [skip; decide]

theorem Dev.statusWrite_onlyIn (d : Dev) (pg mask : ℕ) : Dev.onlyIn [.stat, .rails, .units, .feedA, .feedB, .therm] d (Dev.statusWrite d pg mask) := by
  unfold Dev.statusWrite
  repeat' first
    | with_reducible apply Dev.onlyIn_refl
    | (with_reducible apply Dev.onlyIn_via (Dev.clearRequest_onlyIn _ _ _ _)) <;> [decide; skip]
    | (with_reducible apply Dev.onlyIn_ite)

theorem Dev.closeLock_onlyIn (d : Dev) (p : Path) (pg : ℕ) : Dev.onlyIn [.regs] d (Dev.closeLock d p pg) := by
  unfold Dev.closeLock
  repeat' first
    | with_reducible apply Dev.onlyIn_refl
    | (fail_if_success with_reducible apply Dev.onlyIn_put_dma); (with_reducible apply Dev.onlyIn_put_regs) <;> [skip; decide]

theorem Dev.clearRefusedOff_onlyIn (d : Dev) (pg : ℕ) : Dev.onlyIn [.stat] d (Dev.clearRefusedOff d pg) := by
  unfold Dev.clearRefusedOff
  repeat' first
    | with_reducible apply Dev.onlyIn_refl
    | (with_reducible apply Dev.onlyIn_via (Dev.updStat_onlyIn _ _ _)) <;> [decide; skip]

theorem clearCount_ite {c : Prop} [Decidable c] {l : List Part} {d : Dev} {o p : Option (Dev → Dev)}
    (h : ∀ f, o = some f → Dev.onlyIn l d (f d)) (k : ∀ f, p = some f → Dev.onlyIn l d (f d)) :
    ∀ f, (if c then o else p) = some f → Dev.onlyIn l d (f d) := by
  split
  · exact h
  · exact k

theorem clearCount_onlyIn {pg off : ℕ} {f : Dev → Dev} (d : Dev) (h : clearCount pg off = some f) :
    Dev.onlyIn [.sched, .units, .sense, .adm, .twin, .jrn, .nv, .peat, .xfer, .hs, .twT, .twC, .mie, .dma] d (f d) := by
  revert f
  unfold clearCount
  repeat' with_reducible apply clearCount_ite
  all_goals
    intro f h
    cases h
    try (intro p hp; cases p <;> first | rfl | exact absurd (by decide) hp)

theorem Dev.counterFrond_onlyIn (d : Dev) :
    Dev.onlyIn [.sched, .units, .sense, .adm, .twin, .jrn, .nv, .peat, .xfer, .hs, .twT, .twC, .mie, .dma] d d.counterFrond := by
  unfold Dev.counterFrond
  split
  · split
    · exact Dev.onlyIn_refl _ _
    · split
      · exact Dev.onlyIn_mono (Dev.endItem_onlyIn _ _ _) (by decide)
      · next f h => exact Dev.onlyIn_via (Dev.endItem_onlyIn _ _ _) (by decide) (clearCount_onlyIn d h)
  · exact Dev.onlyIn_refl _ _

theorem Dev.rolesFrond_onlyIn (d : Dev) (hbA hbB : Bool) : Dev.onlyIn [.stat, .twin, .jrn, .nv, .therm] d (Dev.rolesFrond d hbA hbB) := by
  unfold Dev.rolesFrond
  repeat' first
    | with_reducible apply Dev.onlyIn_refl
    | with_reducible assumption
    | (with_reducible apply Dev.onlyIn_via (Dev.twinFrond_onlyIn _ _ _)) <;> [decide; skip]
    | (with_reducible apply Dev.onlyIn_via (Dev.endItem_onlyIn _ _ _)) <;> [decide; skip]
    | (extract_lets +onlyGivenNames x; refine Dev.onlyIn_cut x ?_ ?_ <;> [(dsimp -zeta -proj only [x]; clear x); (intro _; clear_value x; revert x; intros)])
    | (extract_lets +onlyGivenNames x; clear_value x; revert x; intros)
    | (with_reducible apply Dev.onlyIn_ite)

theorem Dev.standbyFrond_onlyIn (d : Dev) : Dev.onlyIn [.time, .sup, .units, .feedA, .feedB, .hs] d (Dev.standbyFrond d) := by
  unfold Dev.standbyFrond
  repeat' first
    | with_reducible apply Dev.onlyIn_refl
    | with_reducible assumption
    | (with_reducible apply Dev.onlyIn_via (Dev.outputsOff_onlyIn _)) <;> [decide; skip]
    | (with_reducible apply Dev.onlyIn_via (Dev.updSup_onlyIn _ _)) <;> [decide; skip]
    | (with_reducible apply Dev.onlyIn_via (Dev.updFeed_onlyIn _ _ _)) <;> [decide; skip]
    | (fail_if_success with_reducible apply Dev.onlyIn_put_dma); (with_reducible apply Dev.onlyIn_put_time) <;> [skip; decide]
    | (extract_lets +onlyGivenNames x; refine Dev.onlyIn_cut x ?_ ?_ <;> [(dsimp -zeta -proj only [x]; clear x); (intro _; clear_value x; revert x; intros)])
    | (extract_lets +onlyGivenNames x; clear_value x; revert x; intros)
    | (with_reducible apply Dev.onlyIn_ite)

theorem Dev.lockWrite_onlyIn (d : Dev) (p : Path) (pg v : ℕ) : Dev.onlyIn [.regs] d (Dev.lockWrite d p pg v) := by
  unfold Dev.lockWrite
  repeat' first
    | with_reducible apply Dev.onlyIn_refl
    | with_reducible assumption
    | (with_reducible apply Dev.onlyIn_via (Dev.closeLock_onlyIn _ _ _)) <;> [decide; skip]
    | (fail_if_success with_reducible apply Dev.onlyIn_put_dma); (with_reducible apply Dev.onlyIn_put_regs) <;> [skip; decide]
    | (extract_lets +onlyGivenNames x; refine Dev.onlyIn_cut x ?_ ?_ <;> [(dsimp -zeta -proj only [x]; clear x); (intro _; clear_value x; revert x; intros)])
    | (extract_lets +onlyGivenNames x; clear_value x; revert x; intros)
    | (with_reducible apply Dev.onlyIn_ite)

theorem Dev.fabGoWrite_onlyIn (d : Dev) : Dev.onlyIn [.mie] d (Dev.fabGoWrite d) := by
  unfold Dev.fabGoWrite
  repeat' first
    | with_reducible apply Dev.onlyIn_refl
    | (with_reducible apply Dev.onlyIn_via (Dev.updMie_onlyIn _ _)) <;> [decide; skip]

theorem Dev.stageClear_onlyIn (d : Dev) (lo mask : ℕ) : Dev.onlyIn [.stat, .units, .therm] d (Dev.stageClear d lo mask) := by
  unfold Dev.stageClear
  repeat' first
    | with_reducible apply Dev.onlyIn_refl
    | (with_reducible apply Dev.onlyIn_then (foldN_onlyIn _ _ _ ?_)) <;> [skip; (intro _ _ )]
    | (with_reducible apply Dev.onlyIn_via (Dev.updStat_onlyIn _ _ _)) <;> [decide; skip]
    | (with_reducible apply Dev.onlyIn_via (Dev.unitBack_onlyIn _ _)) <;> [decide; skip]
    | (with_reducible apply Dev.onlyIn_via (Dev.updTherm_onlyIn _ _)) <;> [decide; skip]
    | (extract_lets +onlyGivenNames x; clear_value x; revert x; intros)
    | (with_reducible apply Dev.onlyIn_ite)

theorem Dev.shadowWrite_onlyIn (d : Dev) (pg off v mask : ℕ) : Dev.onlyIn [.regs] d (Dev.shadowWrite d pg off v mask) := by
  unfold Dev.shadowWrite
  repeat' first
    | with_reducible apply Dev.onlyIn_refl
    | (fail_if_success with_reducible apply Dev.onlyIn_put_dma); (with_reducible apply Dev.onlyIn_put_regs) <;> [skip; decide]
    | (extract_lets +onlyGivenNames x; clear_value x; revert x; intros)
    | (with_reducible apply Dev.onlyIn_ite)

theorem Dev.plainWrite_onlyIn (d : Dev) (pg off v mask : ℕ) : Dev.onlyIn [.regs, .stat] d (Dev.plainWrite d pg off v mask) := by
  unfold Dev.plainWrite
  repeat' first
    | with_reducible apply Dev.onlyIn_refl
    | (with_reducible apply Dev.onlyIn_via (Dev.deferWrite_onlyIn _ _ _)) <;> [decide; skip]
    | (with_reducible apply Dev.onlyIn_via (Dev.clamped_onlyIn _ _ _ _)) <;> [decide; skip]
    | (with_reducible apply Dev.onlyIn_via (Dev.setReg_onlyIn _ _ _ _)) <;> [decide; skip]
    | (extract_lets +onlyGivenNames x; clear_value x; revert x; intros)
    | (with_reducible apply Dev.onlyIn_ite)

theorem Dev.commonWrite_onlyIn (d : Dev) (p : Path) (pg off v : ℕ) (r : RegRow) : Dev.onlyIn [.regs, .stat, .rails, .units, .feedA, .feedB, .therm] d (Dev.commonWrite d p pg off v r) := by
  unfold Dev.commonWrite
  repeat' first
    | with_reducible apply Dev.onlyIn_refl
    | (with_reducible apply Dev.onlyIn_via (Dev.statusWrite_onlyIn _ _ _)) <;> [decide; skip]
    | (with_reducible apply Dev.onlyIn_via (Dev.occurMask_onlyIn _ _ _)) <;> [decide; skip]
    | (with_reducible apply Dev.onlyIn_via (Dev.clearRefusedOff_onlyIn _ _)) <;> [decide; skip]
    | (with_reducible apply Dev.onlyIn_via (Dev.lockWrite_onlyIn _ _ _ _)) <;> [decide; skip]
    | (with_reducible apply Dev.onlyIn_via (Dev.commitPage_onlyIn _ _)) <;> [decide; skip]
    | (with_reducible apply Dev.onlyIn_via (Dev.shadowWrite_onlyIn _ _ _ _ _)) <;> [decide; skip]
    | (with_reducible apply Dev.onlyIn_via (Dev.plainWrite_onlyIn _ _ _ _ _)) <;> [decide; skip]
    | (with_reducible apply Dev.onlyIn_ite)

theorem Dev.blockWrite_onlyIn (d : Dev) (p : Path) (pg off v : ℕ) (r : RegRow) : Dev.onlyIn [.regs, .stat, .rails, .units, .inj, .cap, .sense, .jrn, .nv, .peat, .feedA, .feedB, .xfer, .fh, .bbus, .therm, .upd, .mie] d (Dev.blockWrite d p pg off v r) := by
  unfold Dev.blockWrite
  repeat' first
    | with_reducible apply Dev.onlyIn_refl
    | with_reducible assumption
    | (with_reducible apply Dev.onlyIn_via (Dev.calNow_onlyIn _ _)) <;> [decide; skip]
    | (with_reducible apply Dev.onlyIn_via (Dev.capArm_onlyIn _)) <;> [decide; skip]
    | (with_reducible apply Dev.onlyIn_via (Dev.capForce_onlyIn _)) <;> [decide; skip]
    | (with_reducible apply Dev.onlyIn_via (Dev.capRdWrite_onlyIn _ _)) <;> [decide; skip]
    | (with_reducible apply Dev.onlyIn_via (Dev.plainWrite_onlyIn _ _ _ _ _)) <;> [decide; skip]
    | (with_reducible apply Dev.onlyIn_via (Dev.moveCompRd_onlyIn _ _)) <;> [decide; skip]
    | (with_reducible apply Dev.onlyIn_via (Dev.fhClear_onlyIn _ _)) <;> [decide; skip]
    | (with_reducible apply Dev.onlyIn_via (Dev.stageClear_onlyIn _ _ _)) <;> [decide; skip]
    | (with_reducible apply Dev.onlyIn_via (Dev.peatTrig_onlyIn _ _)) <;> [decide; skip]
    | (with_reducible apply Dev.onlyIn_via (Dev.peatRdWrite_onlyIn _ _)) <;> [decide; skip]
    | (with_reducible apply Dev.onlyIn_via (Dev.fabGoWrite_onlyIn _)) <;> [decide; skip]
    | (with_reducible apply Dev.onlyIn_via (Dev.rowExtWrite_onlyIn _ _)) <;> [decide; skip]
    | (with_reducible apply Dev.onlyIn_via (Dev.timeGo_onlyIn _)) <;> [decide; skip]
    | (with_reducible apply Dev.onlyIn_via (Dev.chunkCtl_onlyIn _ _ _)) <;> [decide; skip]
    | (with_reducible apply Dev.onlyIn_via (Dev.shadowWrite_onlyIn _ _ _ _ _)) <;> [decide; skip]
    | (extract_lets +onlyGivenNames x; refine Dev.onlyIn_cut x ?_ ?_ <;> [(dsimp -zeta -proj only [x]; clear x); (intro _; clear_value x; revert x; intros)])
    | (with_reducible apply Dev.onlyIn_ite)

theorem Dev.fabSend_onlyIn (d : Dev) (ws : List ℕ) : Dev.onlyIn [.stat, .mie] d (Dev.fabSend d ws).1 := by
  unfold Dev.fabSend
  repeat' first
    | with_reducible apply Dev.onlyIn_refl
    | (with_reducible apply Dev.onlyIn_via (Dev.occur_onlyIn _ _ _)) <;> [decide; skip]
    | (with_reducible apply Dev.onlyIn_via (Dev.unicast_onlyIn _ _ _ _)) <;> [decide; skip]
    | (with_reducible apply Dev.onlyIn_ite)
    | split

theorem Dev.fabFrond_onlyIn (d : Dev) : Dev.onlyIn [.stat, .mie] d (Dev.fabFrond d) := by
  unfold Dev.fabFrond
  repeat' first
    | with_reducible apply Dev.onlyIn_refl
    | with_reducible assumption
    | (with_reducible apply Dev.onlyIn_via (Dev.updMie_onlyIn _ _)) <;> [decide; skip]
    | (with_reducible apply Dev.onlyIn_via (Dev.fabSend_onlyIn _ _)) <;> [decide; skip]
    | (extract_lets +onlyGivenNames x; refine Dev.onlyIn_cut x ?_ ?_ <;> [(dsimp -zeta -proj only [x]; clear x); (intro _; clear_value x; revert x; intros)])
    | (extract_lets +onlyGivenNames x; refine Dev.onlyIn_cut x.1 ?_ ?_ <;> [(dsimp -zeta -proj only [x]; clear x); (intro _; clear_value x; revert x; intros)])
    | (extract_lets +onlyGivenNames x; clear_value x; revert x; intros)
    | (with_reducible apply Dev.onlyIn_ite)
    | split

theorem Dev.setTimed_onlyIn (d : Dev) (src seq t : ℕ) : Dev.onlyIn [.jrn] d (Dev.setTimed d src seq t) := by
  unfold Dev.setTimed
  repeat' first
    | with_reducible apply Dev.onlyIn_refl
    | (with_reducible apply Dev.onlyIn_via (Dev.updJrn_onlyIn _ _)) <;> [decide; skip]

theorem Dev.takeCommand_onlyIn (d : Dev) (f : MFrame) : Dev.onlyIn [.stat, .jrn, .nv, .mie] d (Dev.takeCommand d f) := by
  unfold Dev.takeCommand
  repeat' first
    | with_reducible apply Dev.onlyIn_refl
    | (with_reducible apply Dev.onlyIn_via (Dev.decideAny_onlyIn _ _ _ _ _ _)) <;> [decide; skip]
    | (with_reducible apply Dev.onlyIn_via (Dev.setTimed_onlyIn _ _ _ _)) <;> [decide; skip]
    | (with_reducible apply Dev.onlyIn_via (Dev.unicast_onlyIn _ _ _ _)) <;> [decide; skip]
    | (with_reducible apply Dev.onlyIn_ite)
    | split

theorem Dev.takeReply_onlyIn (d : Dev) (f : MFrame) : Dev.onlyIn [.mie] d (Dev.takeReply d f) := by
  unfold Dev.takeReply
  repeat' first
    | with_reducible apply Dev.onlyIn_refl
    | (with_reducible apply Dev.onlyIn_via (Dev.updMie_onlyIn _ _)) <;> [decide; skip]
    | (extract_lets +onlyGivenNames x; clear_value x; revert x; intros)
    | (with_reducible apply Dev.onlyIn_ite)
    | split

theorem Dev.takeSporeChunk_onlyIn (d : Dev) (f : MFrame) : Dev.onlyIn [.stat, .nv, .upd] d (Dev.takeSporeChunk d f) := by
  unfold Dev.takeSporeChunk
  repeat' first
    | with_reducible apply Dev.onlyIn_refl
    | (with_reducible apply Dev.onlyIn_via (Dev.takeChunk_onlyIn _ _ _)) <;> [decide; skip]
    | (with_reducible apply Dev.onlyIn_via (Dev.occur_onlyIn _ _ _)) <;> [decide; skip]
    | (with_reducible apply Dev.onlyIn_ite)

theorem Dev.sendPeat_onlyIn (d : Dev) (dst sq : ℕ) (rec : Option (List Byte)) : Dev.onlyIn [.mie] d (Dev.sendPeat d dst sq rec) := by
  unfold Dev.sendPeat
  repeat' first
    | with_reducible apply Dev.onlyIn_refl
    | (with_reducible apply Dev.onlyIn_then (foldN_onlyIn _ _ _ ?_)) <;> [skip; (intro _ _ )]
    | (with_reducible apply Dev.onlyIn_via (Dev.unicast_onlyIn _ _ _ _)) <;> [decide; skip]

theorem Dev.peatAnswer_onlyIn (d : Dev) (dst sq : ℕ) : Dev.onlyIn [.stat, .nv, .mie] d (Dev.peatAnswer d dst sq) :=
  Dev.onlyIn_via (Dev.sendPeat_onlyIn _ _ _ _) (by decide) (Dev.onlyIn_mono (Dev.peatLookup_onlyIn d sq) (by decide))

theorem Dev.takePeatReq_onlyIn (d : Dev) (f : MFrame) : Dev.onlyIn [.stat, .nv, .peat, .mie] d (Dev.takePeatReq d f) := by
  unfold Dev.takePeatReq
  repeat' first
    | with_reducible apply Dev.onlyIn_refl
    | with_reducible assumption
    | (with_reducible apply Dev.onlyIn_via (Dev.peatTrig_onlyIn _ _)) <;> [decide; skip]
    | (with_reducible apply Dev.onlyIn_via (Dev.peatAnswer_onlyIn _ _ _)) <;> [decide; skip]
    | (extract_lets +onlyGivenNames x; refine Dev.onlyIn_cut x ?_ ?_ <;> [(dsimp -zeta -proj only [x]; clear x); (intro _; clear_value x; revert x; intros)])
    | (extract_lets +onlyGivenNames x; clear_value x; revert x; intros)
    | (with_reducible apply Dev.onlyIn_ite)

theorem Dev.handleFrame_onlyIn (d : Dev) (f : MFrame) : Dev.onlyIn [.stat, .adm, .jrn, .nv, .peat, .upd, .mie] d (Dev.handleFrame d f) := by
  unfold Dev.handleFrame
  repeat' first
    | with_reducible apply Dev.onlyIn_refl
    | (with_reducible apply Dev.onlyIn_via (Dev.takeBudget_onlyIn _ _)) <;> [decide; skip]
    | (with_reducible apply Dev.onlyIn_via (Dev.takeAdvert_onlyIn _ _)) <;> [decide; skip]
    | (with_reducible apply Dev.onlyIn_via (Dev.takeDigest_onlyIn _ _)) <;> [decide; skip]
    | (with_reducible apply Dev.onlyIn_via (Dev.takeCommand_onlyIn _ _)) <;> [decide; skip]
    | (with_reducible apply Dev.onlyIn_via (Dev.takeReply_onlyIn _ _)) <;> [decide; skip]
    | (with_reducible apply Dev.onlyIn_via (Dev.takeSporeChunk_onlyIn _ _)) <;> [decide; skip]
    | (with_reducible apply Dev.onlyIn_via (Dev.takePeatReq_onlyIn _ _)) <;> [decide; skip]
    | (with_reducible apply Dev.onlyIn_ite)

theorem Dev.rxDrain_onlyIn (d : Dev) (cls : ℕ) : Dev.onlyIn [.die, .stat, .adm, .jrn, .nv, .peat, .upd, .mie] d (Dev.rxDrain d cls) := by
  unfold Dev.rxDrain
  repeat' first
    | with_reducible apply Dev.onlyIn_refl
    | with_reducible assumption
    | (with_reducible apply Dev.onlyIn_via (Dev.updMie_onlyIn _ _)) <;> [decide; skip]
    | (with_reducible apply Dev.onlyIn_via (Dev.handleFrame_onlyIn _ _)) <;> [decide; skip]
    | (with_reducible apply Dev.onlyIn_via (Dev.frameCells_onlyIn _ _ _)) <;> [decide; skip]
    | (with_reducible apply Dev.onlyIn_foldl) <;> [(intro _ _); skip]
    | (extract_lets +onlyGivenNames x; refine Dev.onlyIn_cut x ?_ ?_ <;> [(dsimp -zeta -proj only [x]; clear x); (intro _; clear_value x; revert x; intros)])
    | (extract_lets +onlyGivenNames x; clear_value x; revert x; intros)
    | (with_reducible apply Dev.onlyIn_ite)

theorem Dev.twStop_onlyIn (d : Dev) (n : ℕ) : Dev.onlyIn [.twT] d (Dev.twStop d n) := by
  unfold Dev.twStop
  repeat' first
    | with_reducible apply Dev.onlyIn_refl
    | (with_reducible apply Dev.onlyIn_via (Dev.updTwT_onlyIn _ _ _)) <;> [decide; skip]

theorem Dev.drive_onlyIn (d : Dev) (n : ℕ) (x : Option (List Byte)) : Dev.onlyIn [.twT] d (Dev.drive d n x) := by
  unfold Dev.drive
  repeat' first
    | with_reducible apply Dev.onlyIn_refl
    | (with_reducible apply Dev.onlyIn_via (Dev.updTwT_onlyIn _ _ _)) <;> [decide; skip]

theorem Dev.twError_onlyIn (d : Dev) (n : ℕ) : Dev.onlyIn [.twT] d (Dev.twError d n) := by
  unfold Dev.twError
  repeat' first
    | with_reducible apply Dev.onlyIn_refl
    | (with_reducible apply Dev.onlyIn_via (Dev.updTwT_onlyIn _ _ _)) <;> [decide; skip]

theorem Dev.twNack_onlyIn (d : Dev) (n bit : ℕ) : Dev.onlyIn [.stat, .twT] d (Dev.twNack d n bit) := by
  unfold Dev.twNack
  repeat' first
    | with_reducible apply Dev.onlyIn_refl
    | (with_reducible apply Dev.onlyIn_via (Dev.occur_onlyIn _ _ _)) <;> [decide; skip]
    | (with_reducible apply Dev.onlyIn_via (Dev.twError_onlyIn _ _)) <;> [decide; skip]
    | (with_reducible apply Dev.onlyIn_via (Dev.drive_onlyIn _ _ _)) <;> [decide; skip]

theorem Dev.windowStatus_onlyIn (d : Dev) (n st : ℕ) : Dev.onlyIn [.stat, .twT] d (Dev.windowStatus d n st) := by
  unfold Dev.windowStatus
  repeat' first
    | with_reducible apply Dev.onlyIn_refl
    | (with_reducible apply Dev.onlyIn_via (Dev.occur_onlyIn _ _ _)) <;> [decide; skip]
    | (with_reducible apply Dev.onlyIn_via (Dev.twError_onlyIn _ _)) <;> [decide; skip]
    | (with_reducible apply Dev.onlyIn_via (Dev.updTwT_onlyIn _ _ _)) <;> [decide; skip]
    | (with_reducible apply Dev.onlyIn_ite)

theorem Dev.keepReply_onlyIn (d : Dev) (n st : ℕ) (body : List Byte) : Dev.onlyIn [.stat, .twT] d (Dev.keepReply d n st body) := by
  unfold Dev.keepReply
  repeat' first
    | with_reducible apply Dev.onlyIn_refl
    | (with_reducible apply Dev.onlyIn_via (Dev.updTwT_onlyIn _ _ _)) <;> [decide; skip]
    | (with_reducible apply Dev.onlyIn_via (Dev.windowStatus_onlyIn _ _ _)) <;> [decide; skip]

theorem Dev.blockCells_onlyIn (d : Dev) (n code : ℕ) (data : List Byte) : Dev.onlyIn [.die] d (Dev.blockCells d n code data) := by
  unfold Dev.blockCells
  repeat' first
    | with_reducible apply Dev.onlyIn_refl
    | (with_reducible apply Dev.onlyIn_via (Dev.inBlock_onlyIn _ _ _)) <;> [decide; skip]

theorem Dev.windowSeq_onlyIn (d : Dev) (n tag seq code : ℕ) (args : List Byte) : Dev.onlyIn [.die, .stat, .jrn, .nv, .twT] d (Dev.windowSeq d n tag seq code args) := by
  unfold Dev.windowSeq
  repeat' first
    | with_reducible apply Dev.onlyIn_refl
    | with_reducible assumption
    | (with_reducible apply Dev.onlyIn_via (Dev.blockCells_onlyIn _ _ _ _)) <;> [decide; skip]
    | (with_reducible apply Dev.onlyIn_via (Dev.keepReply_onlyIn _ _ _ _)) <;> [decide; skip]
    | (with_reducible apply Dev.onlyIn_via (Dev.decideAny_onlyIn _ _ _ _ _ _)) <;> [decide; skip]
    | (extract_lets +onlyGivenNames x; refine Dev.onlyIn_cut x ?_ ?_ <;> [(dsimp -zeta -proj only [x]; clear x); (intro _; clear_value x; revert x; intros)])
    | (extract_lets +onlyGivenNames x; refine Dev.onlyIn_cut x.1 ?_ ?_ <;> [(dsimp -zeta -proj only [x]; clear x); (intro _; clear_value x; revert x; intros)])
    | (with_reducible apply Dev.onlyIn_ite)

theorem Dev.recvBlock_onlyIn (d : Dev) (n : ℕ) : Dev.onlyIn [.twT] d (Dev.recvBlock d n) := by
  unfold Dev.recvBlock
  repeat' first
    | with_reducible apply Dev.onlyIn_refl
    | (with_reducible apply Dev.onlyIn_via (Dev.updTwT_onlyIn _ _ _)) <;> [decide; skip]
    | (with_reducible apply Dev.onlyIn_ite)

theorem Dev.holdBlock_onlyIn (d : Dev) (n : ℕ) (b : HeldBlk) : Dev.onlyIn [.twT, .upd] d (Dev.holdBlock d n b) := by
  unfold Dev.holdBlock
  repeat' first
    | with_reducible apply Dev.onlyIn_refl
    | (with_reducible apply Dev.onlyIn_via (Dev.updTwT_onlyIn _ _ _)) <;> [decide; skip]
    | (with_reducible apply Dev.onlyIn_via (Dev.updUpd_onlyIn _ _)) <;> [decide; skip]

theorem Dev.answer_onlyIn (d : Dev) (n st : ℕ) (body : List Byte) : Dev.onlyIn [.twT] d (Dev.answer d n st body) := by
  unfold Dev.answer
  repeat' first
    | with_reducible apply Dev.onlyIn_refl
    | (with_reducible apply Dev.onlyIn_via (Dev.updTwT_onlyIn _ _ _)) <;> [decide; skip]
    | (with_reducible apply Dev.onlyIn_via (Dev.twStop_onlyIn _ _)) <;> [decide; skip]
    | (with_reducible apply Dev.onlyIn_via (Dev.drive_onlyIn _ _ _)) <;> [decide; skip]

theorem Dev.windowReply_onlyIn (d : Dev) (n : ℕ) : Dev.onlyIn [.stat, .twT] d (Dev.windowReply d n) := by
  unfold Dev.windowReply
  repeat' first
    | with_reducible apply Dev.onlyIn_refl
    | (with_reducible apply Dev.onlyIn_via (Dev.answer_onlyIn _ _ _ _)) <;> [decide; skip]
    | (with_reducible apply Dev.onlyIn_via (Dev.windowStatus_onlyIn _ _ _)) <;> [decide; skip]
    | (with_reducible apply Dev.onlyIn_via (Dev.updTwT_onlyIn _ _ _)) <;> [decide; skip]
    | (with_reducible apply Dev.onlyIn_ite)
    | split

theorem Dev.replyReady_onlyIn (d : Dev) (n : ℕ) : Dev.onlyIn [.twT] d (Dev.replyReady d n) := by
  unfold Dev.replyReady
  repeat' first
    | with_reducible apply Dev.onlyIn_refl
    | (with_reducible apply Dev.onlyIn_via (Dev.answer_onlyIn _ _ _ _)) <;> [decide; skip]
    | (with_reducible apply Dev.onlyIn_ite)
    | split

theorem Dev.placeNudge_onlyIn (d : Dev) : Dev.onlyIn [.adm, .twin] d (Dev.placeNudge d) := by
  unfold Dev.placeNudge
  repeat' first
    | with_reducible apply Dev.onlyIn_refl
    | with_reducible assumption
    | (with_reducible apply Dev.onlyIn_via (Dev.updLed_onlyIn _ _)) <;> [decide; skip]
    | (with_reducible apply Dev.onlyIn_then (foldN_onlyIn _ _ _ ?_)) <;> [skip; (intro _ _ )]
    | (with_reducible apply Dev.onlyIn_via (Dev.putOut_onlyIn _ _ _)) <;> [decide; skip]
    | (extract_lets +onlyGivenNames x; refine Dev.onlyIn_cut x ?_ ?_ <;> [(dsimp -zeta -proj only [x]; clear x); (intro _; clear_value x; revert x; intros)])
    | (extract_lets +onlyGivenNames x; clear_value x; revert x; intros)
    | (with_reducible apply Dev.onlyIn_ite)
    | split

theorem Dev.placeCharges_onlyIn (d : Dev) : Dev.onlyIn [.twin, .bbus] d (Dev.placeCharges d) := by
  unfold Dev.placeCharges
  repeat' first
    | with_reducible apply Dev.onlyIn_refl
    | (with_reducible apply Dev.onlyIn_then (foldN_onlyIn _ _ _ ?_)) <;> [skip; (intro _ _ )]
    | (with_reducible apply Dev.onlyIn_via (Dev.putOut_onlyIn _ _ _)) <;> [decide; skip]
    | (with_reducible apply Dev.onlyIn_via (Dev.updBbu_onlyIn _ _ _)) <;> [decide; skip]
    | (extract_lets +onlyGivenNames x; clear_value x; revert x; intros)
    | (with_reducible apply Dev.onlyIn_ite)

theorem Dev.txError_onlyIn (d : Dev) (c : ℕ) (x2 : TwAnswer) : Dev.onlyIn [.stat] d (Dev.txError d c x2) := by
  unfold Dev.txError
  repeat' first
    | with_reducible apply Dev.onlyIn_refl
    | (with_reducible apply Dev.onlyIn_via (Dev.occur_onlyIn _ _ _)) <;> [decide; skip]
    | (with_reducible apply Dev.onlyIn_ite)
    | split

theorem Dev.pollDone_onlyIn (d : Dev) (c i : ℕ) (v : Option (BitVec 16)) : Dev.onlyIn [.twC] d (Dev.pollDone d c i v) := by
  unfold Dev.pollDone
  repeat' first
    | with_reducible apply Dev.onlyIn_refl
    | (with_reducible apply Dev.onlyIn_via (Dev.updTwC_onlyIn _ _ _)) <;> [decide; skip]

theorem Dev.txDone_onlyIn (d : Dev) (c : ℕ) (x : TwTx) (v : BitVec 16) : Dev.onlyIn [.die, .bbus, .twC] d (Dev.txDone d c x v) := by
  unfold Dev.txDone
  repeat' first
    | with_reducible apply Dev.onlyIn_refl
    | with_reducible assumption
    | (with_reducible apply Dev.onlyIn_via (Dev.twDone_onlyIn _ _ _)) <;> [decide; skip]
    | (with_reducible apply Dev.onlyIn_via (Dev.pollDone_onlyIn _ _ _ _)) <;> [decide; skip]
    | (with_reducible apply Dev.onlyIn_via (Dev.inBlock_onlyIn _ _ _)) <;> [decide; skip]
    | (with_reducible apply Dev.onlyIn_via (Dev.updBbu_onlyIn _ _ _)) <;> [decide; skip]
    | (extract_lets +onlyGivenNames x; refine Dev.onlyIn_cut x ?_ ?_ <;> [(dsimp -zeta -proj only [x]; clear x); (intro _; clear_value x; revert x; intros)])
    | (with_reducible apply Dev.onlyIn_ite)
    | split

theorem Dev.txFailed_onlyIn (d : Dev) (c : ℕ) (x : TwTx) : Dev.onlyIn [.bbus, .twC] d (Dev.txFailed d c x) := by
  unfold Dev.txFailed
  repeat' first
    | with_reducible apply Dev.onlyIn_refl
    | with_reducible assumption
    | (with_reducible apply Dev.onlyIn_via (Dev.twGone_onlyIn _ _ _)) <;> [decide; skip]
    | (with_reducible apply Dev.onlyIn_via (Dev.pollDone_onlyIn _ _ _ _)) <;> [decide; skip]
    | (with_reducible apply Dev.onlyIn_via (Dev.updBbu_onlyIn _ _ _)) <;> [decide; skip]
    | (extract_lets +onlyGivenNames x; refine Dev.onlyIn_cut x ?_ ?_ <;> [(dsimp -zeta -proj only [x]; clear x); (intro _; clear_value x; revert x; intros)])
    | (extract_lets +onlyGivenNames x; clear_value x; revert x; intros)
    | (with_reducible apply Dev.onlyIn_ite)
    | split

theorem Dev.txFirst_onlyIn (d : Dev) (c : ℕ) (x : TwTx) (answer : TwAnswer) : Dev.onlyIn [.die, .stat, .bbus, .twC] d (Dev.txFirst d c x answer) := by
  unfold Dev.txFirst
  repeat' first
    | with_reducible apply Dev.onlyIn_refl
    | with_reducible assumption
    | (with_reducible apply Dev.onlyIn_via (Dev.updTwC_onlyIn _ _ _)) <;> [decide; skip]
    | (with_reducible apply Dev.onlyIn_via (Dev.txFailed_onlyIn _ _ _)) <;> [decide; skip]
    | (with_reducible apply Dev.onlyIn_via (Dev.txDone_onlyIn _ _ _ _)) <;> [decide; skip]
    | (with_reducible apply Dev.onlyIn_via (Dev.txError_onlyIn _ _ _)) <;> [decide; skip]
    | (extract_lets +onlyGivenNames x; refine Dev.onlyIn_cut x ?_ ?_ <;> [(dsimp -zeta -proj only [x]; clear x); (intro _; clear_value x; revert x; intros)])
    | (extract_lets +onlyGivenNames x; clear_value x; revert x; intros)
    | (with_reducible apply Dev.onlyIn_ite)
    | split

theorem Dev.arbLoss_onlyIn (d : Dev) (n : ℕ) : Dev.onlyIn [.twT, .twC] d (Dev.arbLoss d n) := by
  unfold Dev.arbLoss
  repeat' first
    | with_reducible apply Dev.onlyIn_refl
    | (with_reducible apply Dev.onlyIn_via (Dev.updTwT_onlyIn _ _ _)) <;> [decide; skip]
    | (with_reducible apply Dev.onlyIn_via (Dev.updTwC_onlyIn _ _ _)) <;> [decide; skip]
    | (with_reducible apply Dev.onlyIn_ite)

theorem Dev.twFrond_onlyIn (d : Dev) : Dev.onlyIn [.twT, .twC] d (Dev.twFrond d) := by
  unfold Dev.twFrond
  repeat' first
    | with_reducible apply Dev.onlyIn_refl
    | (fail_if_success with_reducible apply Dev.onlyIn_put_dma); (with_reducible apply Dev.onlyIn_put_twT_twC) <;> [skip; decide; decide]

theorem Dev.pmRefuse_onlyIn (d : Dev) (n : ℕ) : Dev.onlyIn [.stat, .twT] d (Dev.pmRefuse d n) := by
  unfold Dev.pmRefuse
  repeat' first
    | with_reducible apply Dev.onlyIn_refl
    | (with_reducible apply Dev.onlyIn_via (Dev.twStop_onlyIn _ _)) <;> [decide; skip]
    | (with_reducible apply Dev.onlyIn_via (Dev.twNack_onlyIn _ _ _)) <;> [decide; skip]

theorem Dev.pmWrite_onlyIn {l : List Part} (d : Dev) (n : ℕ) (ok : Bool) (f : Dev → Dev) (hW : [.stat, .twT] ⊆ l) (hf : ∀ y0, Dev.onlyIn l y0 (f y0)) : Dev.onlyIn l d (Dev.pmWrite d n ok f) := by
  unfold Dev.pmWrite
  repeat' first
    | with_reducible apply Dev.onlyIn_refl
    | with_reducible apply Dev.onlyIn_then (hf _)
    | (with_reducible apply Dev.onlyIn_via (Dev.drive_onlyIn _ _ _)) <;> [exact List.Subset.trans (by decide) hW; skip]
    | (with_reducible apply Dev.onlyIn_via (Dev.pmRefuse_onlyIn _ _)) <;> [exact List.Subset.trans (by decide) hW; skip]
    | (with_reducible apply Dev.onlyIn_via (Dev.twStop_onlyIn _ _)) <;> [exact List.Subset.trans (by decide) hW; skip]
    | (with_reducible apply Dev.onlyIn_ite)

theorem Dev.pagePut_onlyIn (d : Dev) (n v : ℕ) : Dev.onlyIn [.die, .stat, .twT] d (Dev.pagePut d n v) := by
  unfold Dev.pagePut
  repeat' first
    | with_reducible apply Dev.onlyIn_refl
    | (with_reducible apply Dev.onlyIn_then (Dev.pmWrite_onlyIn _ _ _ _ ?_ ?_)) <;> [skip; decide; (intro _ )]
    | (with_reducible apply Dev.onlyIn_via (Dev.updTwT_onlyIn _ _ _)) <;> [decide; skip]
    | (with_reducible apply Dev.onlyIn_via (Dev.blockCells_onlyIn _ _ _ _)) <;> [decide; skip]

theorem Dev.wpPut_onlyIn (d : Dev) (n v : ℕ) : Dev.onlyIn [.die, .regs, .stat, .twT] d (Dev.wpPut d n v) := by
  unfold Dev.wpPut
  repeat' first
    | with_reducible apply Dev.onlyIn_refl
    | (with_reducible apply Dev.onlyIn_then (Dev.pmWrite_onlyIn _ _ _ _ ?_ ?_)) <;> [skip; decide; (intro _ )]
    | (with_reducible apply Dev.onlyIn_via (Dev.setFld_onlyIn _ _ _ _ _ _)) <;> [decide; skip]
    | (with_reducible apply Dev.onlyIn_via (Dev.blockCells_onlyIn _ _ _ _)) <;> [decide; skip]

theorem Dev.voutPut_onlyIn (d : Dev) (n v : ℕ) : Dev.onlyIn [.die, .regs, .stat, .twT, .upd] d (Dev.voutPut d n v) := by
  unfold Dev.voutPut
  repeat' first
    | with_reducible apply Dev.onlyIn_refl
    | (with_reducible apply Dev.onlyIn_then (Dev.pmWrite_onlyIn _ _ _ _ ?_ ?_)) <;> [skip; decide; (intro _ )]
    | (with_reducible apply Dev.onlyIn_via (Dev.blockCells_onlyIn _ _ _ _)) <;> [decide; skip]
    | (with_reducible apply Dev.onlyIn_via (Dev.updUpd_onlyIn _ _)) <;> [decide; skip]
    | (with_reducible apply Dev.onlyIn_via (Dev.commitPage_onlyIn _ _)) <;> [decide; skip]
    | (with_reducible apply Dev.onlyIn_foldl) <;> [(intro _ _); skip]
    | (fail_if_success with_reducible apply Dev.onlyIn_put_dma); (with_reducible apply Dev.onlyIn_put_regs) <;> [skip; decide]
    | (extract_lets +onlyGivenNames x; clear_value x; revert x; intros)
    | (with_reducible apply Dev.onlyIn_ite)

theorem Dev.pmBlock_onlyIn (d : Dev) (n code : ℕ) (data : List Byte) : Dev.onlyIn [.die, .regs, .stat, .twT, .upd] d (Dev.pmBlock d n code data) := by
  unfold Dev.pmBlock
  repeat' first
    | with_reducible apply Dev.onlyIn_refl
    | (with_reducible apply Dev.onlyIn_via (Dev.pmRefuse_onlyIn _ _)) <;> [decide; skip]
    | (with_reducible apply Dev.onlyIn_via (Dev.twStop_onlyIn _ _)) <;> [decide; skip]
    | (with_reducible apply Dev.onlyIn_via (Dev.twNack_onlyIn _ _ _)) <;> [decide; skip]
    | (with_reducible apply Dev.onlyIn_via (Dev.pagePut_onlyIn _ _ _)) <;> [decide; skip]
    | (with_reducible apply Dev.onlyIn_via (Dev.wpPut_onlyIn _ _ _)) <;> [decide; skip]
    | (with_reducible apply Dev.onlyIn_via (Dev.voutPut_onlyIn _ _ _)) <;> [decide; skip]
    | (with_reducible apply Dev.onlyIn_ite)
    | split

theorem Dev.pecFail_onlyIn (d : Dev) (n : ℕ) (window : Bool) : Dev.onlyIn [.stat, .twT] d (Dev.pecFail d n window) := by
  unfold Dev.pecFail
  repeat' first
    | with_reducible apply Dev.onlyIn_refl
    | (with_reducible apply Dev.onlyIn_via (Dev.keepReply_onlyIn _ _ _ _)) <;> [decide; skip]
    | (with_reducible apply Dev.onlyIn_via (Dev.twError_onlyIn _ _)) <;> [decide; skip]
    | (with_reducible apply Dev.onlyIn_via (Dev.twStop_onlyIn _ _)) <;> [decide; skip]
    | (with_reducible apply Dev.onlyIn_via (Dev.drive_onlyIn _ _ _)) <;> [decide; skip]
    | (with_reducible apply Dev.onlyIn_via (Dev.occur_onlyIn _ _ _)) <;> [decide; skip]
    | (with_reducible apply Dev.onlyIn_ite)

theorem Dev.takeInbound_onlyIn (d : Dev) : Dev.onlyIn [.die] d (Dev.takeInbound d) := by
  unfold Dev.takeInbound
  repeat' first
    | with_reducible apply Dev.onlyIn_refl
    | (fail_if_success with_reducible apply Dev.onlyIn_put_dma); (with_reducible apply Dev.onlyIn_put_die) <;> [skip; decide]

theorem Dev.dropOutbound_onlyIn (d : Dev) : Dev.onlyIn [.twin] d (Dev.dropOutbound d) := by
  unfold Dev.dropOutbound
  repeat' first
    | with_reducible apply Dev.onlyIn_refl
    | (fail_if_success with_reducible apply Dev.onlyIn_put_dma); (with_reducible apply Dev.onlyIn_put_twin) <;> [skip; decide]

theorem Dev.takeCell_onlyIn (d : Dev) (f : List Word32) (c : ℕ) : Dev.onlyIn [.die] d (Dev.takeCell d f c) := by
  unfold Dev.takeCell
  repeat' first
    | with_reducible apply Dev.onlyIn_refl
    | (fail_if_success with_reducible apply Dev.onlyIn_put_dma); (with_reducible apply Dev.onlyIn_put_die) <;> [skip; decide]
    | (extract_lets +onlyGivenNames x; clear_value x; revert x; intros)
    | (with_reducible apply Dev.onlyIn_ite)
    | split

theorem Dev.mirrorSlice_onlyIn (d : Dev) : Dev.onlyIn [.sram] d (Dev.mirrorSlice d) := by
  unfold Dev.mirrorSlice
  repeat' first
    | with_reducible apply Dev.onlyIn_refl
    | (fail_if_success with_reducible apply Dev.onlyIn_put_dma); (with_reducible apply Dev.onlyIn_put_sram) <;> [skip; decide]

theorem Dev.keepFrame_onlyIn (d : Dev) (t : Twin) : Dev.onlyIn [.twin] d (Dev.keepFrame d t) := by
  unfold Dev.keepFrame
  repeat' first
    | with_reducible apply Dev.onlyIn_refl
    | (with_reducible apply Dev.onlyIn_via (Dev.updTwin_onlyIn _ _ _)) <;> [decide; skip]
    | (with_reducible apply Dev.onlyIn_ite)

theorem Dev.placeOut_onlyIn (d : Dev) : Dev.onlyIn [.adm, .twin, .bbus] d (Dev.placeOut d) := by
  unfold Dev.placeOut
  repeat' first
    | with_reducible apply Dev.onlyIn_refl
    | (with_reducible apply Dev.onlyIn_via (Dev.placeCharges_onlyIn _)) <;> [decide; skip]
    | (with_reducible apply Dev.onlyIn_via (Dev.placeNudge_onlyIn _)) <;> [decide; skip]

theorem Dev.hnRose_onlyIn (d : Dev) (n : ℕ) : Dev.onlyIn [.twT] d (Dev.hnRose d n) := by
  unfold Dev.hnRose
  repeat' first
    | with_reducible apply Dev.onlyIn_refl
    | (with_reducible apply Dev.onlyIn_via (Dev.updTwT_onlyIn _ _ _)) <;> [decide; skip]
    | (extract_lets +onlyGivenNames x; clear_value x; revert x; intros)
    | (with_reducible apply Dev.onlyIn_ite)

theorem Dev.sealTick_onlyIn (d : Dev) : Dev.onlyIn [.stat, .rails, .units, .clusters, .runs, .sram, .adm, .twin, .jrn, .nv, .bbus] d (Dev.sealTick d) := by
  unfold Dev.sealTick
  repeat' first
    | with_reducible apply Dev.onlyIn_refl
    | (with_reducible apply Dev.onlyIn_via (Dev.placeOut_onlyIn _)) <;> [decide; skip]
    | (with_reducible apply Dev.onlyIn_via (Dev.settleShares_onlyIn _)) <;> [decide; skip]
    | (with_reducible apply Dev.onlyIn_via (Dev.settleRequests_onlyIn _)) <;> [decide; skip]

theorem Dev.closeTick_onlyIn (d : Dev) : Dev.onlyIn [.die, .stat, .rails, .units, .clusters, .runs, .cap, .sram, .sramA, .sramB, .adm, .twin, .jrn, .nv, .peat, .xfer, .bbus, .therm, .twT] d (Dev.closeTick d) := by
  unfold Dev.closeTick
  repeat' first
    | with_reducible apply Dev.onlyIn_refl
    | with_reducible assumption
    | (with_reducible apply Dev.onlyIn_via (Dev.sealTick_onlyIn _)) <;> [decide; skip]
    | (with_reducible apply Dev.onlyIn_via (Dev.keepFrame_onlyIn _ _)) <;> [decide; skip]
    | (with_reducible apply Dev.onlyIn_via (Dev.dropOutbound_onlyIn _)) <;> [decide; skip]
    | (with_reducible apply Dev.onlyIn_via (Dev.mirrorSlice_onlyIn _)) <;> [decide; skip]
    | (with_reducible apply Dev.onlyIn_via (Dev.endTick_onlyIn _)) <;> [decide; skip]
    | (with_reducible apply Dev.onlyIn_via (Dev.noFeedTick_onlyIn _)) <;> [decide; skip]
    | (with_reducible apply Dev.onlyIn_then (foldN_onlyIn _ _ _ ?_)) <;> [skip; (intro _ _ )]
    | (with_reducible apply Dev.onlyIn_via (Dev.hnRose_onlyIn _ _)) <;> [decide; skip]
    | (with_reducible apply Dev.onlyIn_via (Dev.capTrigger_onlyIn _)) <;> [decide; skip]
    | (with_reducible apply Dev.onlyIn_via (Dev.peatDeposit_onlyIn _)) <;> [decide; skip]
    | (fail_if_success with_reducible apply Dev.onlyIn_put_dma); (with_reducible apply Dev.onlyIn_put_die) <;> [skip; decide]
    | (extract_lets +onlyGivenNames x; refine Dev.onlyIn_cut x ?_ ?_ <;> [(dsimp -zeta -proj only [x]; clear x); (intro _; clear_value x; revert x; intros)])
    | (extract_lets +onlyGivenNames x; clear_value x; revert x; intros)
    | (with_reducible apply Dev.onlyIn_ite)

theorem Dev.newTick_onlyIn (d : Dev) : Dev.onlyIn [.stat] d (Dev.newTick d) := by
  unfold Dev.newTick
  repeat' first
    | with_reducible apply Dev.onlyIn_refl
    | (fail_if_success with_reducible apply Dev.onlyIn_put_dma); (with_reducible apply Dev.onlyIn_put_stat) <;> [skip; decide]

theorem Dev.applyUnits_onlyIn (d : Dev) (f : List Word32) : Dev.onlyIn [.rails, .units] d (Dev.applyUnits d f) := by
  unfold Dev.applyUnits
  repeat' first
    | with_reducible apply Dev.onlyIn_refl
    | with_reducible assumption
    | (with_reducible apply Dev.onlyIn_then (foldN_onlyIn _ _ _ ?_)) <;> [skip; (intro _ _ )]
    | (with_reducible apply Dev.onlyIn_via (Dev.updUnit_onlyIn _ _ _)) <;> [decide; skip]
    | (with_reducible apply Dev.onlyIn_via (Dev.applyBurst_onlyIn _ _ _)) <;> [decide; skip]
    | (extract_lets +onlyGivenNames x; refine Dev.onlyIn_cut x ?_ ?_ <;> [(dsimp -zeta -proj only [x]; clear x); (intro _; clear_value x; revert x; intros)])
    | (with_reducible apply Dev.onlyIn_ite)

theorem Dev.applyPorts_onlyIn (d : Dev) (f : Option (List Word32)) : Dev.onlyIn [.die, .adm] d (Dev.applyPorts d f) := by
  unfold Dev.applyPorts
  repeat' first
    | with_reducible apply Dev.onlyIn_refl
    | (with_reducible apply Dev.onlyIn_then (foldN_onlyIn _ _ _ ?_)) <;> [skip; (intro _ _ )]
    | (with_reducible apply Dev.onlyIn_via (Dev.updPort_onlyIn _ _ _)) <;> [decide; skip]
    | (fail_if_success with_reducible apply Dev.onlyIn_put_dma); (with_reducible apply Dev.onlyIn_put_die) <;> [skip; decide]

theorem Dev.applyGates_onlyIn (d : Dev) (f : Option (List Word32)) : Dev.onlyIn [.feedA, .feedB, .xfer, .hs] d (Dev.applyGates d f) := by
  unfold Dev.applyGates
  repeat' first
    | with_reducible apply Dev.onlyIn_refl
    | with_reducible assumption
    | (with_reducible apply Dev.onlyIn_via (Dev.applyFeedGates_onlyIn _ _ _)) <;> [decide; skip]
    | (with_reducible apply Dev.onlyIn_then (foldN_onlyIn _ _ _ ?_)) <;> [skip; (intro _ _ )]
    | (with_reducible apply Dev.onlyIn_via (Dev.applyHsGate_onlyIn _ _ _)) <;> [decide; skip]
    | (extract_lets +onlyGivenNames x; refine Dev.onlyIn_cut x ?_ ?_ <;> [(dsimp -zeta -proj only [x]; clear x); (intro _; clear_value x; revert x; intros)])
    | (extract_lets +onlyGivenNames x; clear_value x; revert x; intros)
    | (with_reducible apply Dev.onlyIn_ite)

theorem Dev.drivePins_onlyIn (d : Dev) (fresh : Bool) : Dev.onlyIn [.die] d (Dev.drivePins d fresh) := by
  unfold Dev.drivePins
  repeat' first
    | with_reducible apply Dev.onlyIn_refl
    | (fail_if_success with_reducible apply Dev.onlyIn_put_dma); (with_reducible apply Dev.onlyIn_put_die) <;> [skip; decide]
    | (extract_lets +onlyGivenNames x; clear_value x; revert x; intros)
    | (with_reducible apply Dev.onlyIn_ite)

theorem Dev.applyResult_onlyIn (d : Dev) : Dev.onlyIn [.die, .rails, .units, .adm, .feedA, .feedB, .xfer, .hs] d (Dev.applyResult d) := by
  unfold Dev.applyResult
  repeat' first
    | with_reducible apply Dev.onlyIn_refl
    | (with_reducible apply Dev.onlyIn_via (Dev.applyUnits_onlyIn _ _)) <;> [decide; skip]
    | (with_reducible apply Dev.onlyIn_then (foldN_onlyIn _ _ _ ?_)) <;> [skip; (intro _ _ )]
    | (with_reducible apply Dev.onlyIn_via (Dev.takeCell_onlyIn _ _ _)) <;> [decide; skip]
    | (with_reducible apply Dev.onlyIn_via (Dev.drivePins_onlyIn _ _)) <;> [decide; skip]
    | (with_reducible apply Dev.onlyIn_via (Dev.applyPorts_onlyIn _ _)) <;> [decide; skip]
    | (with_reducible apply Dev.onlyIn_via (Dev.applyGates_onlyIn _ _)) <;> [decide; skip]
    | (fail_if_success with_reducible apply Dev.onlyIn_put_dma); (with_reducible apply Dev.onlyIn_put_die) <;> [skip; decide]
    | (extract_lets +onlyGivenNames x; subst x; beta_reduce)
    | (with_reducible apply Dev.onlyIn_ite)
    | split

theorem Dev.takeFrame_onlyIn (d : Dev) (i : TickIn) (x : SenseWords) (lost : Bool) (drv : ℕ) : Dev.onlyIn [.sram, .adm, .peat, .feedA, .feedB, .hs] d (Dev.takeFrame d i x lost drv) := by
  unfold Dev.takeFrame
  repeat' first
    | with_reducible apply Dev.onlyIn_refl
    | with_reducible assumption
    | (with_reducible apply Dev.onlyIn_via (Dev.peatSample_onlyIn _ _)) <;> [decide; skip]
    | (with_reducible apply Dev.onlyIn_via (Dev.takeSwitches_onlyIn _)) <;> [decide; skip]
    | (fail_if_success with_reducible apply Dev.onlyIn_put_dma); (with_reducible apply Dev.onlyIn_put_sram) <;> [skip; decide]
    | (fail_if_success with_reducible apply Dev.onlyIn_put_dma); (with_reducible apply Dev.onlyIn_put_adm) <;> [skip; decide]
    | (extract_lets +onlyGivenNames x; refine Dev.onlyIn_cut x ?_ ?_ <;> [(dsimp -zeta -proj only [x]; clear x); (intro _; clear_value x; revert x; intros)])
    | (extract_lets +onlyGivenNames x; clear_value x; revert x; intros)
    | (with_reducible apply Dev.onlyIn_ite)

theorem Dev.takeSamples_onlyIn (d : Dev) (x : SenseWords) (lost : Bool) : Dev.onlyIn [.die, .stat, .rails, .units, .inj, .sense, .fh, .therm] d (Dev.takeSamples d x lost) := by
  unfold Dev.takeSamples
  repeat' first
    | with_reducible apply Dev.onlyIn_refl
    | (with_reducible apply Dev.onlyIn_then (foldN_onlyIn _ _ _ ?_)) <;> [skip; (intro _ _ )]
    | (with_reducible apply Dev.onlyIn_via (Dev.preSense_onlyIn _ _ _)) <;> [decide; skip]
    | (with_reducible apply Dev.onlyIn_via (Dev.unitSense_onlyIn _ _ _)) <;> [decide; skip]
    | (with_reducible apply Dev.onlyIn_via (Dev.stageSense_onlyIn _ _)) <;> [decide; skip]
    | (with_reducible apply Dev.onlyIn_via (Dev.tfltSense_onlyIn _ _ _ _)) <;> [decide; skip]
    | (fail_if_success with_reducible apply Dev.onlyIn_put_dma); (with_reducible apply Dev.onlyIn_put_die) <;> [skip; decide]
    | (with_reducible apply Dev.onlyIn_ite)

theorem Dev.dieSamples_onlyIn (d : Dev) (i : TickIn) (x : SenseWords) : Dev.onlyIn [.stat, .sense] d (Dev.dieSamples d i x) := by
  unfold Dev.dieSamples
  repeat' first
    | with_reducible apply Dev.onlyIn_refl
    | (with_reducible apply Dev.onlyIn_via (Dev.calTick_onlyIn _)) <;> [decide; skip]
    | (with_reducible apply Dev.onlyIn_via (Dev.calOpen_onlyIn _ _)) <;> [decide; skip]
    | (with_reducible apply Dev.onlyIn_via (Dev.calDiff_onlyIn _ _)) <;> [decide; skip]
    | (with_reducible apply Dev.onlyIn_via (Dev.intTick_onlyIn _ _)) <;> [decide; skip]
    | (with_reducible apply Dev.onlyIn_via (Dev.refSense_onlyIn _ _)) <;> [decide; skip]
    | (with_reducible apply Dev.onlyIn_via (Dev.countOver_onlyIn _ _)) <;> [decide; skip]

theorem Dev.safeSense_onlyIn (d : Dev) : Dev.onlyIn [.stat, .rails, .units, .inj, .fh] d (Dev.safeSense d) := by
  unfold Dev.safeSense
  repeat' first
    | with_reducible apply Dev.onlyIn_refl
    | (with_reducible apply Dev.onlyIn_via (Dev.forcedOff_onlyIn _ _)) <;> [decide; skip]
    | (with_reducible apply Dev.onlyIn_via (Dev.occur_onlyIn _ _ _)) <;> [decide; skip]
    | (with_reducible apply Dev.onlyIn_via (Dev.updFh_onlyIn _ _)) <;> [decide; skip]
    | (with_reducible apply Dev.onlyIn_ite)

theorem Dev.railsTick_onlyIn (d : Dev) : Dev.onlyIn [.stat, .rails, .units, .inj, .sram, .adm, .therm] d (Dev.railsTick d) := by
  unfold Dev.railsTick
  repeat' first
    | with_reducible apply Dev.onlyIn_refl
    | (with_reducible apply Dev.onlyIn_then (foldN_onlyIn _ _ _ ?_)) <;> [skip; (intro _ _ )]
    | (with_reducible apply Dev.onlyIn_via (Dev.updRail_onlyIn _ _ _)) <;> [decide; skip]
    | (with_reducible apply Dev.onlyIn_via (Dev.capTick_onlyIn _ _)) <;> [decide; skip]
    | (with_reducible apply Dev.onlyIn_via (Dev.ledgerCurrents_onlyIn _)) <;> [decide; skip]
    | (with_reducible apply Dev.onlyIn_via (Dev.targetTick_onlyIn _ _)) <;> [decide; skip]
    | (with_reducible apply Dev.onlyIn_via (Dev.zeroLoops_onlyIn _ _)) <;> [decide; skip]
    | (with_reducible apply Dev.onlyIn_via (Dev.startTick_onlyIn _ _)) <;> [decide; skip]
    | (with_reducible apply Dev.onlyIn_via (Dev.refTick_onlyIn _ _)) <;> [decide; skip]
    | (with_reducible apply Dev.onlyIn_via (Dev.thermalShed_onlyIn _ _)) <;> [decide; skip]
    | (with_reducible apply Dev.onlyIn_via (Dev.addTick_onlyIn _ _)) <;> [decide; skip]
    | (with_reducible apply Dev.onlyIn_foldl) <;> [(intro _ _); skip]
    | (with_reducible apply Dev.onlyIn_ite)

theorem Dev.burstTick_onlyIn (d : Dev) (r : ℕ) : Dev.onlyIn [.rails, .units, .adm] d (Dev.burstTick d r) := by
  unfold Dev.burstTick
  repeat' first
    | with_reducible apply Dev.onlyIn_refl
    | with_reducible assumption
    | (with_reducible apply Dev.onlyIn_via (Dev.updLed_onlyIn _ _)) <;> [decide; skip]
    | (with_reducible apply Dev.onlyIn_via (Dev.cancelShed_onlyIn _ _)) <;> [decide; skip]
    | (with_reducible apply Dev.onlyIn_via (Dev.updRail_onlyIn _ _ _)) <;> [decide; skip]
    | (extract_lets +onlyGivenNames x; refine Dev.onlyIn_cut x ?_ ?_ <;> [(dsimp -zeta -proj only [x]; clear x); (intro _; clear_value x; revert x; intros)])
    | (with_reducible apply Dev.onlyIn_ite)

theorem Dev.fireSupv_onlyIn (d : Dev) : Dev.onlyIn [.stat, .rails, .units, .inj, .feedA, .feedB, .xfer, .hs, .fh, .bbus, .therm] d (Dev.fireSupv d) := by
  unfold Dev.fireSupv
  repeat' first
    | with_reducible apply Dev.onlyIn_refl
    | (with_reducible apply Dev.onlyIn_via (Dev.thermTick_onlyIn _)) <;> [decide; skip]
    | (with_reducible apply Dev.onlyIn_via (Dev.bbuSupv_onlyIn _)) <;> [decide; skip]
    | (with_reducible apply Dev.onlyIn_via (Dev.fhTick_onlyIn _)) <;> [decide; skip]
    | (with_reducible apply Dev.onlyIn_then (foldN_onlyIn _ _ _ ?_)) <;> [skip; (intro _ _ )]
    | (with_reducible apply Dev.onlyIn_via (Dev.hsTick_onlyIn _ _)) <;> [decide; skip]
    | (with_reducible apply Dev.onlyIn_via (Dev.feedTick_onlyIn _)) <;> [decide; skip]

theorem Dev.fireLedger_onlyIn (d : Dev) : Dev.onlyIn [.stat, .sram, .adm] d (Dev.fireLedger d) := by
  unfold Dev.fireLedger
  repeat' first
    | with_reducible apply Dev.onlyIn_refl
    | (with_reducible apply Dev.onlyIn_via (Dev.capAll_onlyIn _)) <;> [decide; skip]
    | (with_reducible apply Dev.onlyIn_via (Dev.ledgerFire_onlyIn _)) <;> [decide; skip]
    | (with_reducible apply Dev.onlyIn_via (Dev.setRow_onlyIn _)) <;> [decide; skip]
    | (with_reducible apply Dev.onlyIn_via (Dev.battTick_onlyIn _)) <;> [decide; skip]
    | (with_reducible apply Dev.onlyIn_via (Dev.thermLedger_onlyIn _)) <;> [decide; skip]

theorem Dev.fireMwin_onlyIn (d : Dev) (e : SlotEntry) : Dev.onlyIn [.sched, .sram] d (Dev.fireMwin d e) := by
  unfold Dev.fireMwin
  repeat' first
    | with_reducible apply Dev.onlyIn_refl
    | (with_reducible apply Dev.onlyIn_via (Dev.updSched_onlyIn _ _)) <;> [decide; skip]
    | (with_reducible apply Dev.onlyIn_foldl) <;> [(intro _ _); skip]
    | (fail_if_success with_reducible apply Dev.onlyIn_put_dma); (with_reducible apply Dev.onlyIn_put_sram) <;> [skip; decide]

theorem Dev.fireComp_onlyIn (d : Dev) (e : SlotEntry) : Dev.onlyIn [.cap, .sram] d (Dev.fireComp d e) := by
  unfold Dev.fireComp
  repeat' first
    | with_reducible apply Dev.onlyIn_refl
    | (fail_if_success with_reducible apply Dev.onlyIn_put_dma); (with_reducible apply Dev.onlyIn_put_cap_sram) <;> [skip; decide; decide]

theorem Dev.sliceIn_onlyIn (d : Dev) (k : ℕ) : Dev.onlyIn [.units] d (Dev.sliceIn d k) := by
  unfold Dev.sliceIn
  repeat' first
    | with_reducible apply Dev.onlyIn_refl
    | (with_reducible apply Dev.onlyIn_then (foldN_onlyIn _ _ _ ?_)) <;> [skip; (intro _ _ )]
    | (with_reducible apply Dev.onlyIn_via (Dev.updUnit_onlyIn _ _ _)) <;> [decide; skip]

theorem Dev.throughSlice_onlyIn {l : List Part} (f : Dev → SlotEntry → Dev) (d : Dev) (e : SlotEntry) (hW : [.units, .sram] ⊆ l) (hf : ∀ y0 y1, Dev.onlyIn l y0 (f y0 y1)) : Dev.onlyIn l d (Dev.throughSlice f d e) := by
  unfold Dev.throughSlice
  repeat' first
    | with_reducible apply Dev.onlyIn_refl
    | with_reducible apply Dev.onlyIn_then (hf _ _)
    | (with_reducible apply Dev.onlyIn_via (Dev.sliceIn_onlyIn _ _)) <;> [exact List.Subset.trans (by decide) hW; skip]
    | (with_reducible apply Dev.onlyIn_foldl) <;> [(intro _ _); skip]
    | (fail_if_success with_reducible apply Dev.onlyIn_put_dma); (with_reducible apply Dev.onlyIn_put_sram) <;> [skip; exact hW (by decide)]

theorem Dev.overDrop_onlyIn (d : Dev) (lo hi : ℕ) : Dev.onlyIn [.twin] d (Dev.overDrop d lo hi) := by
  unfold Dev.overDrop
  repeat' first
    | with_reducible apply Dev.onlyIn_refl
    | (fail_if_success with_reducible apply Dev.onlyIn_put_dma); (with_reducible apply Dev.onlyIn_put_twin) <;> [skip; decide]

theorem Dev.fireEntry_onlyIn (d : Dev) (e : SlotEntry) : Dev.onlyIn [.sched, .die, .regs, .stat, .rails, .units, .clusters, .runs, .inj, .cap, .sram, .adm, .twin, .jrn, .nv, .peat, .feedA, .feedB, .xfer, .hs, .fh, .bbus, .therm, .upd, .mie, .dma] d (Dev.fireEntry d e) := by
  unfold Dev.fireEntry
  repeat' first
    | with_reducible apply Dev.onlyIn_refl
    | (with_reducible apply Dev.onlyIn_then (Dev.throughSlice_onlyIn _ _ _ ?_ ?_)) <;> [skip; decide; (intro _ _ )]
    | (with_reducible apply Dev.onlyIn_via (Dev.fireBiq_onlyIn _ _)) <;> [decide; skip]
    | (with_reducible apply Dev.onlyIn_via (Dev.fireVlp_onlyIn _ _)) <;> [decide; skip]
    | (with_reducible apply Dev.onlyIn_via (Dev.fireFfs_onlyIn _ _)) <;> [decide; skip]
    | (with_reducible apply Dev.onlyIn_via (Dev.fireSum_onlyIn _ _)) <;> [decide; skip]
    | (with_reducible apply Dev.onlyIn_via (Dev.firePhase_onlyIn _ _)) <;> [decide; skip]
    | (with_reducible apply Dev.onlyIn_via (Dev.fireOvl_onlyIn _ _)) <;> [decide; skip]
    | (with_reducible apply Dev.onlyIn_via (Dev.fireStat_onlyIn _ _)) <;> [decide; skip]
    | (with_reducible apply Dev.onlyIn_via (Dev.fireInj_onlyIn _ _)) <;> [decide; skip]
    | (with_reducible apply Dev.onlyIn_via (Dev.overDrop_onlyIn _ _ _)) <;> [decide; skip]
    | (with_reducible apply Dev.onlyIn_via (Dev.admitFire_onlyIn _)) <;> [decide; skip]
    | (with_reducible apply Dev.onlyIn_via (Dev.fireLedger_onlyIn _)) <;> [decide; skip]
    | (with_reducible apply Dev.onlyIn_via (Dev.fireSupv_onlyIn _)) <;> [decide; skip]
    | (with_reducible apply Dev.onlyIn_via (Dev.accTick_onlyIn _ _)) <;> [decide; skip]
    | (with_reducible apply Dev.onlyIn_via (Dev.fireCapt_onlyIn _ _)) <;> [decide; skip]
    | (with_reducible apply Dev.onlyIn_via (Dev.fireComp_onlyIn _ _)) <;> [decide; skip]
    | (with_reducible apply Dev.onlyIn_via (Dev.peatFire_onlyIn _)) <;> [decide; skip]
    | (with_reducible apply Dev.onlyIn_via (Dev.chFire_onlyIn _ _ _)) <;> [decide; skip]
    | (with_reducible apply Dev.onlyIn_via (Dev.rxFalls_onlyIn _ _)) <;> [decide; skip]
    | (with_reducible apply Dev.onlyIn_via (Dev.rxDrain_onlyIn _ _)) <;> [decide; skip]
    | (with_reducible apply Dev.onlyIn_via (Dev.fireMwin_onlyIn _ _)) <;> [decide; skip]
    | (extract_lets +onlyGivenNames x; clear_value x; revert x; intros)
    | (with_reducible apply Dev.onlyIn_ite)

theorem Dev.fireAll_onlyIn (d : Dev) : Dev.onlyIn [.sched, .die, .regs, .stat, .rails, .units, .clusters, .runs, .inj, .cap, .sram, .adm, .twin, .jrn, .nv, .peat, .feedA, .feedB, .xfer, .hs, .fh, .bbus, .therm, .upd, .mie, .dma] d (Dev.fireAll d) := by
  unfold Dev.fireAll
  repeat' first
    | with_reducible apply Dev.onlyIn_refl
    | with_reducible assumption
    | (with_reducible apply Dev.onlyIn_then (foldN_onlyIn _ _ _ ?_)) <;> [skip; (intro _ _ )]
    | (with_reducible apply Dev.onlyIn_via (Dev.countTick_onlyIn _ _)) <;> [decide; skip]
    | (with_reducible apply Dev.onlyIn_via (Dev.fireEntry_onlyIn _ _)) <;> [decide; skip]
    | (with_reducible apply Dev.onlyIn_via (Dev.accTick_onlyIn _ _)) <;> [decide; skip]
    | (with_reducible apply Dev.onlyIn_foldl) <;> [(intro _ _); skip]
    | (extract_lets +onlyGivenNames x; refine Dev.onlyIn_cut x ?_ ?_ <;> [(dsimp -zeta -proj only [x]; clear x); (intro _; clear_value x; revert x; intros)])
    | (extract_lets +onlyGivenNames x; clear_value x; revert x; intros)
    | (with_reducible apply Dev.onlyIn_ite)

theorem Dev.selfErr_onlyIn (d : Dev) (t : Twin) (kind : ℕ) : Dev.onlyIn [.twin] d (Dev.selfErr d t kind) := by
  unfold Dev.selfErr
  repeat' first
    | with_reducible apply Dev.onlyIn_refl
    | (with_reducible apply Dev.onlyIn_via (Dev.updTwin_onlyIn _ _ _)) <;> [decide; skip]

theorem Dev.schedMiss_onlyIn (d : Dev) (t : Twin) (l : List ℕ) : Dev.onlyIn [.sched, .stat, .twin] d (Dev.schedMiss d t l) := by
  unfold Dev.schedMiss
  repeat' first
    | with_reducible apply Dev.onlyIn_refl
    | (with_reducible apply Dev.onlyIn_via (Dev.updTwin_onlyIn _ _ _)) <;> [decide; skip]
    | (with_reducible apply Dev.onlyIn_via (Dev.selfErr_onlyIn _ _ _)) <;> [decide; skip]
    | (with_reducible apply Dev.onlyIn_via (Dev.occur_onlyIn _ _ _)) <;> [decide; skip]
    | (with_reducible apply Dev.onlyIn_via (Dev.updSched_onlyIn _ _)) <;> [decide; skip]
    | (with_reducible apply Dev.onlyIn_foldl) <;> [(intro _ _); skip]

theorem Dev.parityErr_onlyIn (d : Dev) (t : Twin) (m : Option (Fin 8)) : Dev.onlyIn [.stat, .clusters, .twin] d (Dev.parityErr d t m) := by
  unfold Dev.parityErr
  repeat' first
    | with_reducible apply Dev.onlyIn_refl
    | (with_reducible apply Dev.onlyIn_via (Dev.selfErr_onlyIn _ _ _)) <;> [decide; skip]
    | (with_reducible apply Dev.onlyIn_via (Dev.occur_onlyIn _ _ _)) <;> [decide; skip]
    | (with_reducible apply Dev.onlyIn_via (Dev.updCluster_onlyIn _ _ _)) <;> [decide; skip]
    | (with_reducible apply Dev.onlyIn_ite)
    | split

theorem Dev.nvError_onlyIn (d : Dev) (t : Twin) (e : Option NvErr) : Dev.onlyIn [.stat, .twin, .nv] d (Dev.nvError d t e) := by
  unfold Dev.nvError
  repeat' first
    | with_reducible apply Dev.onlyIn_refl
    | (with_reducible apply Dev.onlyIn_via (Dev.selfErr_onlyIn _ _ _)) <;> [decide; skip]
    | (with_reducible apply Dev.onlyIn_via (Dev.occur_onlyIn _ _ _)) <;> [decide; skip]
    | (fail_if_success with_reducible apply Dev.onlyIn_put_dma); (with_reducible apply Dev.onlyIn_put_nv) <;> [skip; decide]
    | (extract_lets +onlyGivenNames x; clear_value x; revert x; intros)
    | (with_reducible apply Dev.onlyIn_ite)
    | split

theorem Dev.voteTick_onlyIn (d : Dev) (v : Vote) : Dev.onlyIn [.die, .stat, .units, .nv, .peat, .feedA, .feedB, .hs] d (Dev.voteTick d v) := by
  unfold Dev.voteTick
  repeat' first
    | with_reducible apply Dev.onlyIn_refl
    | (with_reducible apply Dev.onlyIn_via (Dev.enterSafe_onlyIn _ _)) <;> [decide; skip]
    | (fail_if_success with_reducible apply Dev.onlyIn_put_dma); (with_reducible apply Dev.onlyIn_put_die) <;> [skip; decide]
    | (extract_lets +onlyGivenNames x; clear_value x; revert x; intros)
    | (with_reducible apply Dev.onlyIn_ite)
    | split

theorem Dev.errorTick_onlyIn (d : Dev) (i : TickIn) : Dev.onlyIn [.sched, .die, .stat, .units, .clusters, .twin, .nv, .peat, .feedA, .feedB, .hs] d (Dev.errorTick d i) := by
  unfold Dev.errorTick
  repeat' first
    | with_reducible apply Dev.onlyIn_refl
    | (with_reducible apply Dev.onlyIn_via (Dev.tickHb_onlyIn _ _ _)) <;> [decide; skip]
    | (with_reducible apply Dev.onlyIn_via (Dev.schedMiss_onlyIn _ _ _)) <;> [decide; skip]
    | (with_reducible apply Dev.onlyIn_via (Dev.parityErr_onlyIn _ _ _)) <;> [decide; skip]
    | (with_reducible apply Dev.onlyIn_via (Dev.nvError_onlyIn _ _ _)) <;> [decide; skip]
    | (with_reducible apply Dev.onlyIn_via (Dev.voteTick_onlyIn _ _)) <;> [decide; skip]

theorem Dev.tickApply_onlyIn (d : Dev) (i : TickIn) : Dev.onlyIn [.sched, .die, .rails, .units, .runs, .inj, .adm, .twin, .feedA, .feedB, .xfer, .hs] d (Dev.tickApply d i) := by
  unfold Dev.tickApply
  repeat' first
    | with_reducible apply Dev.onlyIn_refl
    | (with_reducible apply Dev.onlyIn_then (foldN_onlyIn _ _ _ ?_)) <;> [skip; (intro _ _ )]
    | (with_reducible apply Dev.onlyIn_via (Dev.interleave_onlyIn _ _)) <;> [decide; skip]
    | (with_reducible apply Dev.onlyIn_via (Dev.updXfer_onlyIn _ _)) <;> [decide; skip]
    | (with_reducible apply Dev.onlyIn_via (Dev.takeInbound_onlyIn _)) <;> [decide; skip]
    | (with_reducible apply Dev.onlyIn_via (Dev.burstUndo_onlyIn _)) <;> [decide; skip]
    | (with_reducible apply Dev.onlyIn_via (Dev.applyResult_onlyIn _)) <;> [decide; skip]
    | (with_reducible apply Dev.onlyIn_via (Dev.latchSwitches_onlyIn _ _)) <;> [decide; skip]
    | (with_reducible apply Dev.onlyIn_via (Dev.updSched_onlyIn _ _)) <;> [decide; skip]
    | (fail_if_success with_reducible apply Dev.onlyIn_put_dma); (with_reducible apply Dev.onlyIn_put_twin) <;> [skip; decide]
    | (fail_if_success with_reducible apply Dev.onlyIn_put_dma); (with_reducible apply Dev.onlyIn_put_runs_inj) <;> [skip; decide; decide]
    | (fail_if_success with_reducible apply Dev.onlyIn_put_dma); (with_reducible apply Dev.onlyIn_put_die) <;> [skip; decide]

theorem Dev.tickSense_onlyIn (d : Dev) (i : TickIn) (drv : ℕ) : Dev.onlyIn [.die, .stat, .rails, .units, .inj, .sram, .sense, .adm, .twin, .peat, .feedA, .feedB, .xfer, .hs, .fh, .therm] d (Dev.tickSense d i drv) := by
  unfold Dev.tickSense
  repeat' first
    | with_reducible apply Dev.onlyIn_refl
    | (with_reducible apply Dev.onlyIn_via (Dev.selfErr_onlyIn _ _ _)) <;> [decide; skip]
    | (with_reducible apply Dev.onlyIn_via (Dev.dieSamples_onlyIn _ _ _)) <;> [decide; skip]
    | (with_reducible apply Dev.onlyIn_via (Dev.takeFrame_onlyIn _ _ _ _ _)) <;> [decide; skip]
    | (with_reducible apply Dev.onlyIn_via (Dev.admNewTick_onlyIn _)) <;> [decide; skip]
    | (with_reducible apply Dev.onlyIn_via (Dev.takeSamples_onlyIn _ _ _)) <;> [decide; skip]
    | (with_reducible apply Dev.onlyIn_via (Dev.safeSense_onlyIn _)) <;> [decide; skip]
    | (fail_if_success with_reducible apply Dev.onlyIn_put_dma); (with_reducible apply Dev.onlyIn_put_units) <;> [skip; decide]
    | (fail_if_success with_reducible apply Dev.onlyIn_put_dma); (with_reducible apply Dev.onlyIn_put_die_xfer) <;> [skip; decide; decide]
    | (with_reducible apply Dev.onlyIn_ite)

theorem Dev.sampleFloor_onlyIn (d : Dev) : Dev.onlyIn [.sched] d (Dev.sampleFloor d) := by
  unfold Dev.sampleFloor
  repeat' first
    | with_reducible apply Dev.onlyIn_refl
    | (with_reducible apply Dev.onlyIn_via (Dev.updSched_onlyIn _ _)) <;> [decide; skip]

theorem Dev.tickWork_onlyIn (d : Dev) (i : TickIn) : Dev.onlyIn [.sched, .die, .regs, .stat, .rails, .units, .clusters, .runs, .inj, .cap, .sram, .sense, .adm, .twin, .jrn, .nv, .peat, .feedA, .feedB, .xfer, .hs, .fh, .bbus, .therm, .upd, .mie, .dma] d (Dev.tickWork d i) := by
  unfold Dev.tickWork
  repeat' first
    | with_reducible apply Dev.onlyIn_refl
    | (with_reducible apply Dev.onlyIn_via (Dev.capTrigger_onlyIn _)) <;> [decide; skip]
    | (with_reducible apply Dev.onlyIn_via (Dev.sampleFloor_onlyIn _)) <;> [decide; skip]
    | (with_reducible apply Dev.onlyIn_via (Dev.commitSample_onlyIn _)) <;> [decide; skip]
    | (with_reducible apply Dev.onlyIn_via (Dev.fireAll_onlyIn _)) <;> [decide; skip]
    | (with_reducible apply Dev.onlyIn_via (Dev.dmaTick_onlyIn _)) <;> [decide; skip]
    | (with_reducible apply Dev.onlyIn_via (Dev.coeffPort_onlyIn _)) <;> [decide; skip]
    | (with_reducible apply Dev.onlyIn_via (Dev.auxTick_onlyIn _ _ _)) <;> [decide; skip]
    | (with_reducible apply Dev.onlyIn_then (foldN_onlyIn _ _ _ ?_)) <;> [skip; (intro _ _ )]
    | (with_reducible apply Dev.onlyIn_via (Dev.burstTick_onlyIn _ _)) <;> [decide; skip]
    | (with_reducible apply Dev.onlyIn_via (Dev.periodTick_onlyIn _ _)) <;> [decide; skip]
    | (with_reducible apply Dev.onlyIn_via (Dev.noAdmit_onlyIn _)) <;> [decide; skip]
    | (with_reducible apply Dev.onlyIn_via (Dev.counterTick_onlyIn _ _)) <;> [decide; skip]
    | (with_reducible apply Dev.onlyIn_via (Dev.tierSelect_onlyIn _)) <;> [decide; skip]
    | (with_reducible apply Dev.onlyIn_via (Dev.demandTick_onlyIn _)) <;> [decide; skip]
    | (with_reducible apply Dev.onlyIn_via (Dev.mieTick_onlyIn _)) <;> [decide; skip]
    | (with_reducible apply Dev.onlyIn_via (Dev.errorTick_onlyIn _ _)) <;> [decide; skip]
    | (fail_if_success with_reducible apply Dev.onlyIn_put_dma); (with_reducible apply Dev.onlyIn_put_inj_cap) <;> [skip; decide; decide]
    | (with_reducible apply Dev.onlyIn_ite)

theorem Dev.runTick_onlyIn (d : Dev) (i : TickIn) : Dev.onlyIn [.time, .sched, .die, .regs, .stat, .rails, .units, .clusters, .runs, .inj, .cap, .sram, .sramA, .sramB, .sense, .adm, .twin, .jrn, .nv, .peat, .feedA, .feedB, .xfer, .hs, .fh, .bbus, .therm, .twT, .upd, .mie, .dma] d (Dev.runTick d i) := by
  unfold Dev.runTick
  repeat' first
    | with_reducible apply Dev.onlyIn_refl
    | (with_reducible apply Dev.onlyIn_via (Dev.closeTick_onlyIn _)) <;> [decide; skip]
    | (with_reducible apply Dev.onlyIn_via (Dev.newTick_onlyIn _)) <;> [decide; skip]
    | (with_reducible apply Dev.onlyIn_via (Dev.tickApply_onlyIn _ _)) <;> [decide; skip]
    | (with_reducible apply Dev.onlyIn_via (Dev.tickWork_onlyIn _ _)) <;> [decide; skip]
    | (with_reducible apply Dev.onlyIn_via (Dev.railsTick_onlyIn _)) <;> [decide; skip]
    | (with_reducible apply Dev.onlyIn_via (Dev.tickSense_onlyIn _ _ _)) <;> [decide; skip]
    | (fail_if_success with_reducible apply Dev.onlyIn_put_dma); (with_reducible apply Dev.onlyIn_put_time) <;> [skip; decide]
    | (with_reducible apply Dev.onlyIn_ite)

theorem Dev.takeCopy_onlyIn (d : Dev) (t : Twin) (cycle : ℕ) (f : List Word32) : Dev.onlyIn [.die] d (Dev.takeCopy d t cycle f) := by
  unfold Dev.takeCopy
  repeat' first
    | with_reducible apply Dev.onlyIn_refl
    | (fail_if_success with_reducible apply Dev.onlyIn_put_dma); (with_reducible apply Dev.onlyIn_put_die) <;> [skip; decide]
    | (extract_lets +onlyGivenNames x; clear_value x; revert x; intros)
    | (with_reducible apply Dev.onlyIn_ite)
    | split

theorem Dev.abandonResync_onlyIn (d : Dev) (t : Twin) : Dev.onlyIn [.stat, .twin] d (Dev.abandonResync d t) := by
  unfold Dev.abandonResync
  repeat' first
    | with_reducible apply Dev.onlyIn_refl
    | (with_reducible apply Dev.onlyIn_via (Dev.occur_onlyIn _ _ _)) <;> [decide; skip]
    | (with_reducible apply Dev.onlyIn_via (Dev.updTwin_onlyIn _ _ _)) <;> [decide; skip]
    | (with_reducible apply Dev.onlyIn_ite)

theorem Dev.setpSample_onlyIn (d : Dev) (i : FrondIn) (r : ℕ) : Dev.onlyIn [.rails] d (Dev.setpSample d i r) := by
  unfold Dev.setpSample
  repeat' first
    | with_reducible apply Dev.onlyIn_refl
    | (with_reducible apply Dev.onlyIn_via (Dev.updRail_onlyIn _ _ _)) <;> [decide; skip]

theorem Dev.setpFrond_onlyIn (d : Dev) (i : FrondIn) (r : ℕ) : Dev.onlyIn [.stat, .rails] d (Dev.setpFrond d i r) := by
  unfold Dev.setpFrond
  repeat' first
    | with_reducible apply Dev.onlyIn_refl
    | with_reducible assumption
    | (with_reducible apply Dev.onlyIn_via (Dev.setpSample_onlyIn _ _ _)) <;> [decide; skip]
    | (with_reducible apply Dev.onlyIn_via (Dev.updRail_onlyIn _ _ _)) <;> [decide; skip]
    | (with_reducible apply Dev.onlyIn_via (Dev.occur_onlyIn _ _ _)) <;> [decide; skip]
    | (extract_lets +onlyGivenNames x; refine Dev.onlyIn_cut x ?_ ?_ <;> [(dsimp -zeta -proj only [x]; clear x); (intro _; clear_value x; revert x; intros)])
    | (extract_lets +onlyGivenNames x; clear_value x; revert x; intros)
    | (with_reducible apply Dev.onlyIn_ite)
    | split

theorem Dev.meansFrond_onlyIn (d : Dev) : Dev.onlyIn [.rails, .units, .sense] d (Dev.meansFrond d) := by
  unfold Dev.meansFrond
  repeat' first
    | with_reducible apply Dev.onlyIn_refl
    | (fail_if_success with_reducible apply Dev.onlyIn_put_dma); (with_reducible apply Dev.onlyIn_put_rails_units_sense) <;> [skip; decide; decide; decide]

theorem Dev.clusterFrond_onlyIn (d : Dev) : Dev.onlyIn [.stat, .clusters] d (Dev.clusterFrond d) := by
  unfold Dev.clusterFrond
  repeat' first
    | with_reducible apply Dev.onlyIn_refl
    | with_reducible assumption
    | (with_reducible apply Dev.onlyIn_then (foldN_onlyIn _ _ _ ?_)) <;> [skip; (intro _ _ )]
    | (with_reducible apply Dev.onlyIn_via (Dev.updCluster_onlyIn _ _ _)) <;> [decide; skip]
    | (with_reducible apply Dev.onlyIn_via (Dev.occur_onlyIn _ _ _)) <;> [decide; skip]
    | (extract_lets +onlyGivenNames x; refine Dev.onlyIn_cut x ?_ ?_ <;> [(dsimp -zeta -proj only [x]; clear x); (intro _; clear_value x; revert x; intros)])
    | (extract_lets +onlyGivenNames x; clear_value x; revert x; intros)
    | (with_reducible apply Dev.onlyIn_ite)

theorem Dev.deferredFrond_onlyIn (d : Dev) : Dev.onlyIn [.regs, .stat, .mie] d (Dev.deferredFrond d) := by
  unfold Dev.deferredFrond
  repeat' first
    | with_reducible apply Dev.onlyIn_refl
    | (with_reducible apply Dev.onlyIn_via (Dev.rowExtFrond_onlyIn _)) <;> [decide; skip]
    | (with_reducible apply Dev.onlyIn_via (Dev.clamped_onlyIn _ _ _ _)) <;> [decide; skip]
    | (with_reducible apply Dev.onlyIn_via (Dev.setReg_onlyIn _ _ _ _)) <;> [decide; skip]
    | (with_reducible apply Dev.onlyIn_foldl) <;> [(intro _ _); skip]
    | (fail_if_success with_reducible apply Dev.onlyIn_put_dma); (with_reducible apply Dev.onlyIn_put_regs) <;> [skip; decide]

theorem Dev.tierFrond_onlyIn (d : Dev) : Dev.onlyIn [.sched, .stat, .cap] d (Dev.tierFrond d) := by
  unfold Dev.tierFrond
  repeat' first
    | with_reducible apply Dev.onlyIn_refl
    | with_reducible assumption
    | (with_reducible apply Dev.onlyIn_via (Dev.updSched_onlyIn _ _)) <;> [decide; skip]
    | (with_reducible apply Dev.onlyIn_via (Dev.capAbort_onlyIn _)) <;> [decide; skip]
    | (extract_lets +onlyGivenNames x; refine Dev.onlyIn_cut x ?_ ?_ <;> [(dsimp -zeta -proj only [x]; clear x); (intro _; clear_value x; revert x; intros)])
    | (extract_lets +onlyGivenNames x; clear_value x; revert x; intros)
    | (with_reducible apply Dev.onlyIn_ite)

theorem Dev.agesFrond_onlyIn (d : Dev) : Dev.onlyIn [.sense, .xfer, .upd] d (Dev.agesFrond d) := by
  unfold Dev.agesFrond
  repeat' first
    | with_reducible apply Dev.onlyIn_refl
    | (with_reducible apply Dev.onlyIn_via (Dev.updRef_onlyIn _ _)) <;> [decide; skip]
    | (with_reducible apply Dev.onlyIn_via (Dev.updAux_onlyIn _ _)) <;> [decide; skip]
    | (with_reducible apply Dev.onlyIn_via (Dev.updUpd_onlyIn _ _)) <;> [decide; skip]
    | (with_reducible apply Dev.onlyIn_via (Dev.updXfer_onlyIn _ _)) <;> [decide; skip]

theorem Dev.settingsFrond_onlyIn (d : Dev) : Dev.onlyIn [.stat, .nv, .upd] d (Dev.settingsFrond d) := by
  unfold Dev.settingsFrond
  repeat' first
    | with_reducible apply Dev.onlyIn_refl
    | (with_reducible apply Dev.onlyIn_via (Dev.setWrite_onlyIn _ _ _)) <;> [decide; skip]
    | (extract_lets +onlyGivenNames x; clear_value x; revert x; intros)
    | (with_reducible apply Dev.onlyIn_ite)

theorem Dev.boundaryCommit_onlyIn (d : Dev) (i : FrondIn) : Dev.onlyIn [.sched, .regs, .stat, .rails, .units, .clusters, .inj, .sram, .live, .sense, .adm, .twin, .jrn, .nv, .peat, .crust, .feedA, .feedB, .xfer, .hs, .fh, .therm, .twT, .twC, .mie, .dma] d (Dev.boundaryCommit d i) := by
  unfold Dev.boundaryCommit
  repeat' first
    | with_reducible apply Dev.onlyIn_refl
    | (with_reducible apply Dev.onlyIn_via (Dev.clusterFrond_onlyIn _)) <;> [decide; skip]
    | (with_reducible apply Dev.onlyIn_via (Dev.deferredFrond_onlyIn _)) <;> [decide; skip]
    | (with_reducible apply Dev.onlyIn_via (Dev.rolesFrond_onlyIn _ _ _)) <;> [decide; skip]
    | (with_reducible apply Dev.onlyIn_via (Dev.counterFrond_onlyIn _)) <;> [decide; skip]
    | (with_reducible apply Dev.onlyIn_via (Dev.clearFrond_onlyIn _)) <;> [decide; skip]
    | (with_reducible apply Dev.onlyIn_via (Dev.crustFrond_onlyIn _)) <;> [decide; skip]
    | (with_reducible apply Dev.onlyIn_via (Dev.commitFrond_onlyIn _)) <;> [decide; skip]
    | (fail_if_success with_reducible apply Dev.onlyIn_put_dma); (with_reducible apply Dev.onlyIn_put_inj) <;> [skip; decide]

theorem Dev.boundaryWork_onlyIn (d : Dev) (i : FrondIn) : Dev.onlyIn [.time, .sched, .die, .regs, .stat, .sup, .rails, .units, .inj, .cap, .sram, .sramA, .sramB, .sense, .adm, .twin, .nv, .peat, .feedA, .feedB, .xfer, .hs, .fh, .bbus, .therm, .twT, .twC, .upd, .mie, .dma] d (Dev.boundaryWork d i) := by
  unfold Dev.boundaryWork
  repeat' first
    | with_reducible apply Dev.onlyIn_refl
    | (with_reducible apply Dev.onlyIn_then (foldN_onlyIn _ _ _ ?_)) <;> [skip; (intro _ _ )]
    | (with_reducible apply Dev.onlyIn_via (Dev.setpFrond_onlyIn _ _ _)) <;> [decide; skip]
    | (with_reducible apply Dev.onlyIn_via (Dev.holdFrond_onlyIn _)) <;> [decide; skip]
    | (with_reducible apply Dev.onlyIn_via (Dev.regionFrond_onlyIn _)) <;> [decide; skip]
    | (with_reducible apply Dev.onlyIn_via (Dev.pbFrond_onlyIn _)) <;> [decide; skip]
    | (with_reducible apply Dev.onlyIn_via (Dev.thermFrond_onlyIn _ _ _)) <;> [decide; skip]
    | (with_reducible apply Dev.onlyIn_via (Dev.meansFrond_onlyIn _)) <;> [decide; skip]
    | (with_reducible apply Dev.onlyIn_via (Dev.calBoundary_onlyIn _)) <;> [decide; skip]
    | (with_reducible apply Dev.onlyIn_via (Dev.agesFrond_onlyIn _)) <;> [decide; skip]
    | (with_reducible apply Dev.onlyIn_via (Dev.tierFrond_onlyIn _)) <;> [decide; skip]
    | (with_reducible apply Dev.onlyIn_via (Dev.placeCharges_onlyIn _)) <;> [decide; skip]
    | (with_reducible apply Dev.onlyIn_via (Dev.bbuFrond_onlyIn _)) <;> [decide; skip]
    | (with_reducible apply Dev.onlyIn_via (Dev.admFrond_onlyIn _)) <;> [decide; skip]
    | (with_reducible apply Dev.onlyIn_via (Dev.dmaFrond_onlyIn _)) <;> [decide; skip]
    | (with_reducible apply Dev.onlyIn_via (Dev.rowFrond_onlyIn _)) <;> [decide; skip]
    | (with_reducible apply Dev.onlyIn_via (Dev.epochFrond_onlyIn _)) <;> [decide; skip]
    | (with_reducible apply Dev.onlyIn_via (Dev.timeFrond_onlyIn _)) <;> [decide; skip]
    | (with_reducible apply Dev.onlyIn_via (Dev.linkFrond_onlyIn _)) <;> [decide; skip]
    | (with_reducible apply Dev.onlyIn_via (Dev.twFrond_onlyIn _)) <;> [decide; skip]
    | (with_reducible apply Dev.onlyIn_via (Dev.fabFrond_onlyIn _)) <;> [decide; skip]
    | (with_reducible apply Dev.onlyIn_via (Dev.standbyFrond_onlyIn _)) <;> [decide; skip]
    | (with_reducible apply Dev.onlyIn_via (Dev.peatStanding_onlyIn _)) <;> [decide; skip]
    | (with_reducible apply Dev.onlyIn_via (Dev.settingsFrond_onlyIn _)) <;> [decide; skip]

theorem Dev.newFrond_onlyIn (d : Dev) : Dev.onlyIn [.time, .stat, .ident] d (Dev.newFrond d) := by
  unfold Dev.newFrond
  repeat' first
    | with_reducible apply Dev.onlyIn_refl
    | (with_reducible apply Dev.onlyIn_via (Dev.occur_onlyIn _ _ _)) <;> [decide; skip]
    | (fail_if_success with_reducible apply Dev.onlyIn_put_dma); (with_reducible apply Dev.onlyIn_put_ident) <;> [skip; decide]
    | (fail_if_success with_reducible apply Dev.onlyIn_put_dma); (with_reducible apply Dev.onlyIn_put_time_ident) <;> [skip; decide; decide]
    | (extract_lets +onlyGivenNames x; clear_value x; revert x; intros)
    | (with_reducible apply Dev.onlyIn_ite)

theorem Dev.runBoundary_onlyIn (d : Dev) (i : FrondIn) : Dev.onlyIn [.time, .sched, .die, .regs, .stat, .ident, .sup, .rails, .units, .clusters, .runs, .inj, .cap, .sram, .sramA, .sramB, .live, .sense, .adm, .twin, .jrn, .nv, .peat, .crust, .feedA, .feedB, .xfer, .hs, .fh, .bbus, .therm, .twT, .twC, .upd, .mie, .dma] d (Dev.runBoundary d i) := by
  unfold Dev.runBoundary
  repeat' first
    | with_reducible apply Dev.onlyIn_refl
    | (with_reducible apply Dev.onlyIn_via (Dev.newFrond_onlyIn _)) <;> [decide; skip]
    | (with_reducible apply Dev.onlyIn_via (Dev.boundaryWork_onlyIn _ _)) <;> [decide; skip]
    | (with_reducible apply Dev.onlyIn_via (Dev.boundaryCommit_onlyIn _ _)) <;> [decide; skip]
    | (with_reducible apply Dev.onlyIn_via (Dev.newTick_onlyIn _)) <;> [decide; skip]
    | (with_reducible apply Dev.onlyIn_via (Dev.closeTick_onlyIn _)) <;> [decide; skip]

theorem Dev.rewritePlace_onlyIn (d : Dev) (addr : ℕ) (w : List Byte) (tied : Bool) : Dev.onlyIn [.stat, .nv] d (Dev.rewritePlace d addr w tied) := by
  unfold Dev.rewritePlace
  repeat' first
    | with_reducible apply Dev.onlyIn_refl
    | (with_reducible apply Dev.onlyIn_via (Dev.tie_onlyIn _ _)) <;> [decide; skip]
    | (with_reducible apply Dev.onlyIn_via (Dev.occur_onlyIn _ _ _)) <;> [decide; skip]
    | (fail_if_success with_reducible apply Dev.onlyIn_put_dma); (with_reducible apply Dev.onlyIn_put_nv) <;> [skip; decide]
    | (with_reducible apply Dev.onlyIn_ite)

theorem Dev.reconcileAt_onlyIn (d : Dev) (p : Place) : Dev.onlyIn [.stat, .nv] d (Dev.reconcileAt d p) := by
  unfold Dev.reconcileAt
  repeat' first
    | with_reducible apply Dev.onlyIn_refl
    | (with_reducible apply Dev.onlyIn_via (Dev.rewritePlace_onlyIn _ _ _ _)) <;> [decide; skip]
    | (extract_lets +onlyGivenNames x; clear_value x; revert x; intros)
    | (with_reducible apply Dev.onlyIn_ite)

theorem Dev.reconcileSet_onlyIn (d : Dev) (b group o : ℕ) : Dev.onlyIn [.stat, .nv] d (Dev.reconcileSet d b group o) := by
  unfold Dev.reconcileSet
  repeat' first
    | with_reducible apply Dev.onlyIn_refl
    | (with_reducible apply Dev.onlyIn_via (Dev.rewritePlace_onlyIn _ _ _ _)) <;> [decide; skip]
    | (extract_lets +onlyGivenNames x; clear_value x; revert x; intros)
    | (with_reducible apply Dev.onlyIn_ite)
    | split

theorem Dev.reconcileBank_onlyIn (d : Dev) (b : ℕ) : Dev.onlyIn [.stat, .nv] d (Dev.reconcileBank d b) := by
  unfold Dev.reconcileBank
  repeat' first
    | with_reducible apply Dev.onlyIn_refl
    | (with_reducible apply Dev.onlyIn_via (Dev.reconcileSet_onlyIn _ _ _ _)) <;> [decide; skip]
    | (with_reducible apply Dev.onlyIn_foldl) <;> [(intro _ _); skip]
    | (fail_if_success with_reducible apply Dev.onlyIn_put_dma); (with_reducible apply Dev.onlyIn_put_nv) <;> [skip; decide]
    | (extract_lets +onlyGivenNames x; clear_value x; revert x; intros)
    | (with_reducible apply Dev.onlyIn_ite)

theorem Dev.reconcile_onlyIn (d : Dev) : Dev.onlyIn [.stat, .nv] d (Dev.reconcile d) := by
  unfold Dev.reconcile
  repeat' first
    | with_reducible apply Dev.onlyIn_refl
    | (with_reducible apply Dev.onlyIn_via (Dev.reconcileAt_onlyIn _ _)) <;> [decide; skip]
    | (with_reducible apply Dev.onlyIn_via (Dev.reconcileBank_onlyIn _ _)) <;> [decide; skip]
    | (with_reducible apply Dev.onlyIn_foldl) <;> [(intro _ _); skip]
    | (fail_if_success with_reducible apply Dev.onlyIn_put_dma); (with_reducible apply Dev.onlyIn_put_nv) <;> [skip; decide]

theorem Dev.placeErrors_onlyIn (d : Dev) : Dev.onlyIn [.stat] d (Dev.placeErrors d) := by
  unfold Dev.placeErrors
  repeat' first
    | with_reducible apply Dev.onlyIn_refl
    | (with_reducible apply Dev.onlyIn_via (Dev.occur_onlyIn _ _ _)) <;> [decide; skip]
    | (with_reducible apply Dev.onlyIn_ite)

theorem Dev.skipLost_onlyIn (d : Dev) (n : ℕ) : Dev.onlyIn [.jrn] d (Dev.skipLost d n) := by
  induction n generalizing d with
  | zero => exact Dev.onlyIn_refl _ _
  | succ n ih =>
    rw [Dev.skipLost]
    split
    · exact Dev.onlyIn_trans (Dev.updJrn_onlyIn _ _) (ih _)
    · exact Dev.onlyIn_refl _ _

theorem Dev.countBoot_onlyIn (d : Dev) : Dev.onlyIn [.jrn, .nv, .therm] d (Dev.countBoot d) := by
  unfold Dev.countBoot
  repeat' first
    | with_reducible apply Dev.onlyIn_refl
    | (with_reducible apply Dev.onlyIn_via (Dev.ringPut_onlyIn _ _ _)) <;> [decide; skip]
    | (with_reducible apply Dev.onlyIn_via (Dev.updJrn_onlyIn _ _)) <;> [decide; skip]

theorem Dev.ringTaken_onlyIn (d : Dev) (n : ℕ) (v : List Byte) (roles : List (ℕ × ℕ × ℕ)) : Dev.onlyIn [.jrn, .nv, .bbus] d (Dev.ringTaken d n v roles) := by
  unfold Dev.ringTaken
  repeat' first
    | with_reducible apply Dev.onlyIn_refl
    | (with_reducible apply Dev.onlyIn_via (Dev.updJrn_onlyIn _ _)) <;> [decide; skip]
    | (with_reducible apply Dev.onlyIn_via (Dev.updBbu_onlyIn _ _ _)) <;> [decide; skip]
    | (fail_if_success with_reducible apply Dev.onlyIn_put_dma); (with_reducible apply Dev.onlyIn_put_nv) <;> [skip; decide]
    | (extract_lets +onlyGivenNames x; clear_value x; revert x; intros)
    | (with_reducible apply Dev.onlyIn_ite)

theorem Dev.bootRing_onlyIn (d : Dev) (n : ℕ) : Dev.onlyIn [.stat, .jrn, .nv, .bbus, .therm] d (Dev.bootRing d n) := by
  unfold Dev.bootRing
  extract_lets +onlyGivenNames l note
  have hn : ∀ y a b c e, Dev.onlyIn [.stat, .jrn, .nv, .bbus, .therm] y (note y a b c e) := by
    intro y a b c e
    dsimp -zeta only [note]
    exact Dev.onlyIn_put_nv (Dev.onlyIn_refl _ _) (by decide)
  clear_value note
  split
  · exact Dev.onlyIn_via (Dev.ringPut_onlyIn _ _ _) (by decide) (Dev.onlyIn_via (Dev.ringTaken_onlyIn _ _ _ _) (by decide) (hn _ _ _ _ _))
  · split
    · exact Dev.onlyIn_via (Dev.ringTaken_onlyIn _ _ _ _) (by decide) (hn _ _ _ _ _)
    · exact Dev.onlyIn_via (Dev.occur_onlyIn _ _ _) (by decide) (Dev.onlyIn_via (Dev.ringTaken_onlyIn _ _ _ _) (by decide) (hn _ _ _ _ _))

theorem Dev.bootRings_onlyIn (d : Dev) : Dev.onlyIn [.stat, .jrn, .nv, .bbus, .therm] d (Dev.bootRings d) := by
  unfold Dev.bootRings
  repeat' first
    | with_reducible apply Dev.onlyIn_refl
    | (with_reducible apply Dev.onlyIn_then (foldN_onlyIn _ _ _ ?_)) <;> [skip; (intro _ _ )]
    | (with_reducible apply Dev.onlyIn_via (Dev.bootRing_onlyIn _ _)) <;> [decide; skip]

theorem Dev.peatScan_onlyIn (d : Dev) : Dev.onlyIn [.peat] d (Dev.peatScan d) := by
  unfold Dev.peatScan
  repeat' first
    | with_reducible apply Dev.onlyIn_refl
    | (with_reducible apply Dev.onlyIn_via (Dev.updPeat_onlyIn _ _)) <;> [decide; skip]
    | (extract_lets +onlyGivenNames x; clear_value x; revert x; intros)
    | (with_reducible apply Dev.onlyIn_ite)
    | split

theorem Dev.finalScan_onlyIn (d : Dev) (x : List ℕ) : Dev.onlyIn [.stat, .nv] d (Dev.finalScan d x).1 := by
  induction x generalizing d with
  | nil => exact Dev.onlyIn_refl _ _
  | cons a l ih =>
    have h := Dev.onlyIn_mono (Dev.peatResolve_onlyIn d a) (by decide : _ ⊆ [Part.stat, Part.nv])
    rw [Dev.finalScan]
    split
    · split
      · exact h
      · exact Dev.onlyIn_trans h (ih _)
    · exact Dev.onlyIn_trans h (ih _)

theorem Dev.finalFound_onlyIn (d : Dev) : Dev.onlyIn [.stat, .nv] d (Dev.finalFound d).1 := by
  unfold Dev.finalFound
  repeat' first
    | with_reducible apply Dev.onlyIn_refl
    | (with_reducible apply Dev.onlyIn_via (Dev.finalScan_onlyIn _ _)) <;> [decide; skip]

theorem Dev.mergeCap_onlyIn (l : List Byte) (d : Dev) (m : ℕ) : Dev.onlyIn [.stat, .nv, .bbus, .therm] d (Dev.mergeCap l d m) := by
  unfold Dev.mergeCap
  repeat' first
    | with_reducible apply Dev.onlyIn_refl
    | with_reducible assumption
    | (with_reducible apply Dev.onlyIn_via (Dev.updBbu_onlyIn _ _ _)) <;> [decide; skip]
    | (with_reducible apply Dev.onlyIn_via (Dev.occur_onlyIn _ _ _)) <;> [decide; skip]
    | (with_reducible apply Dev.onlyIn_via (Dev.ringPut_onlyIn _ _ _)) <;> [decide; skip]
    | (extract_lets +onlyGivenNames x; refine Dev.onlyIn_cut x ?_ ?_ <;> [(dsimp -zeta -proj only [x]; clear x); (intro _; clear_value x; revert x; intros)])
    | (extract_lets +onlyGivenNames x; clear_value x; revert x; intros)
    | (with_reducible apply Dev.onlyIn_ite)
    | split

theorem Dev.mergeFinal_onlyIn (d : Dev) : Dev.onlyIn [.stat, .nv, .peat, .bbus, .therm] d (Dev.mergeFinal d) := by
  unfold Dev.mergeFinal
  repeat' first
    | with_reducible apply Dev.onlyIn_refl
    | (with_reducible apply Dev.onlyIn_via (Dev.finalFound_onlyIn _)) <;> [decide; skip]
    | (with_reducible apply Dev.onlyIn_then (foldN_onlyIn _ _ _ ?_)) <;> [skip; (intro _ _ )]
    | (with_reducible apply Dev.onlyIn_via (Dev.mergeCap_onlyIn _ _ _)) <;> [decide; skip]
    | (with_reducible apply Dev.onlyIn_via (Dev.occur_onlyIn _ _ _)) <;> [decide; skip]
    | (with_reducible apply Dev.onlyIn_via (Dev.updPeat_onlyIn _ _)) <;> [decide; skip]
    | (with_reducible apply Dev.onlyIn_ite)
    | split

theorem Dev.bootSettings_onlyIn (d : Dev) : Dev.onlyIn [.regs, .fh, .upd] d (Dev.bootSettings d) := by
  unfold Dev.bootSettings
  repeat' first
    | with_reducible apply Dev.onlyIn_refl
    | (with_reducible apply Dev.onlyIn_via (Dev.updUpd_onlyIn _ _)) <;> [decide; skip]
    | (with_reducible apply Dev.onlyIn_via (Dev.applyTable_onlyIn _)) <;> [decide; skip]
    | (with_reducible apply Dev.onlyIn_via (Dev.setReg_onlyIn _ _ _ _)) <;> [decide; skip]
    | (with_reducible apply Dev.onlyIn_foldl) <;> [(intro _ _); skip]

theorem Dev.bootFw_onlyIn (d : Dev) : Dev.onlyIn [.stat, .upd] d (Dev.bootFw d) := by
  unfold Dev.bootFw
  repeat' first
    | with_reducible apply Dev.onlyIn_refl
    | (with_reducible apply Dev.onlyIn_via (Dev.updUpd_onlyIn _ _)) <;> [decide; skip]
    | (with_reducible apply Dev.onlyIn_via (Dev.occur_onlyIn _ _ _)) <;> [decide; skip]
    | (with_reducible apply Dev.onlyIn_ite)

theorem Dev.bootRegions_onlyIn (d : Dev) : Dev.onlyIn [.time, .die, .stat, .sup, .rails, .units, .clusters, .inj, .adm, .xfer, .fh, .therm] d (Dev.bootRegions d) := by
  unfold Dev.bootRegions
  repeat' first
    | with_reducible apply Dev.onlyIn_refl
    | with_reducible assumption
    | (with_reducible apply Dev.onlyIn_via (Dev.occur_onlyIn _ _ _)) <;> [decide; skip]
    | (with_reducible apply Dev.onlyIn_via (Dev.vanaLoss_onlyIn _ _)) <;> [decide; skip]
    | (fail_if_success with_reducible apply Dev.onlyIn_put_dma); (with_reducible apply Dev.onlyIn_put_time) <;> [skip; decide]
    | (extract_lets +onlyGivenNames x; refine Dev.onlyIn_cut x ?_ ?_ <;> [(dsimp -zeta -proj only [x]; clear x); (intro _; clear_value x; revert x; intros)])
    | (extract_lets +onlyGivenNames x; clear_value x; revert x; intros)
    | (with_reducible apply Dev.onlyIn_ite)

theorem Dev.twinFails_onlyIn (d : Dev) (t : Twin) : Dev.onlyIn [.stat, .sramA, .sramB, .twin] d (Dev.twinFails d t) := by
  unfold Dev.twinFails
  repeat' first
    | with_reducible apply Dev.onlyIn_refl
    | (with_reducible apply Dev.onlyIn_via (Dev.occur_onlyIn _ _ _)) <;> [decide; skip]
    | (with_reducible apply Dev.onlyIn_via (Dev.updTwin_onlyIn _ _ _)) <;> [decide; skip]
    | (with_reducible apply Dev.onlyIn_via (Dev.keepSram_onlyIn _ _)) <;> [decide; skip]
    | (with_reducible apply Dev.onlyIn_ite)

theorem Dev.bootRoles_onlyIn (d : Dev) (pa pb : Bool) : Dev.onlyIn [.stat, .sramA, .sramB, .twin] d (Dev.bootRoles d pa pb) := by
  unfold Dev.bootRoles
  repeat' first
    | with_reducible apply Dev.onlyIn_refl
    | with_reducible assumption
    | (with_reducible apply Dev.onlyIn_via (Dev.updTwin_onlyIn _ _ _)) <;> [decide; skip]
    | (with_reducible apply Dev.onlyIn_via (Dev.twinFails_onlyIn _ _)) <;> [decide; skip]
    | (extract_lets +onlyGivenNames x; refine Dev.onlyIn_cut x ?_ ?_ <;> [(dsimp -zeta -proj only [x]; clear x); (intro _; clear_value x; revert x; intros)])
    | (with_reducible apply Dev.onlyIn_ite)

theorem Dev.startReplay_onlyIn (d : Dev) : Dev.onlyIn [.jrn] d (Dev.startReplay d) := by
  unfold Dev.startReplay
  repeat' first
    | with_reducible apply Dev.onlyIn_refl
    | (with_reducible apply Dev.onlyIn_via (Dev.updJrn_onlyIn _ _)) <;> [decide; skip]

theorem Dev.restoreGrant_onlyIn (d : Dev) (l : ℕ) : Dev.onlyIn [.adm, .jrn] d (Dev.restoreGrant d l) := by
  unfold Dev.restoreGrant
  repeat' first
    | with_reducible apply Dev.onlyIn_refl
    | (with_reducible apply Dev.onlyIn_via (Dev.updJrn_onlyIn _ _)) <;> [decide; skip]
    | (with_reducible apply Dev.onlyIn_via (Dev.updLoad_onlyIn _ _ _)) <;> [decide; skip]
    | (with_reducible apply Dev.onlyIn_ite)
    | split

theorem Dev.bootWork_onlyIn (d : Dev) (pa pb : Bool) : Dev.onlyIn [.time, .die, .stat, .adm, .jrn, .nv, .peat, .bbus, .therm] d (Dev.bootWork d pa pb) := by
  unfold Dev.bootWork
  repeat' first
    | with_reducible apply Dev.onlyIn_refl
    | (with_reducible apply Dev.onlyIn_via (Dev.reconcile_onlyIn _)) <;> [decide; skip]
    | (with_reducible apply Dev.onlyIn_via (Dev.startReplay_onlyIn _)) <;> [decide; skip]
    | (with_reducible apply Dev.onlyIn_via (Dev.countBoot_onlyIn _)) <;> [decide; skip]
    | (with_reducible apply Dev.onlyIn_via (Dev.mergeFinal_onlyIn _)) <;> [decide; skip]
    | (with_reducible apply Dev.onlyIn_via (Dev.peatScan_onlyIn _)) <;> [decide; skip]
    | (with_reducible apply Dev.onlyIn_via (Dev.bootRings_onlyIn _)) <;> [decide; skip]
    | (with_reducible apply Dev.onlyIn_via (Dev.skipLost_onlyIn _ _)) <;> [decide; skip]
    | (with_reducible apply Dev.onlyIn_via (Dev.placeErrors_onlyIn _)) <;> [decide; skip]
    | (with_reducible apply Dev.onlyIn_then (foldN_onlyIn _ _ _ ?_)) <;> [skip; (intro _ _ )]
    | (with_reducible apply Dev.onlyIn_via (Dev.restoreGrant_onlyIn _ _)) <;> [decide; skip]
    | (fail_if_success with_reducible apply Dev.onlyIn_put_dma); (with_reducible apply Dev.onlyIn_put_time_die) <;> [skip; decide; decide]
    | (with_reducible apply Dev.onlyIn_ite)

end Sys2Proof.Machine
end

