-- ==== Sys2Proof/Laws/State.lean ====
section
/-! SUPPORT. What each update of one part of the block leaves in each part. -/

namespace Sys2Proof.Machine

@[simp] theorem State.upd_d (f : Dev → Dev) (s : State) : (s.upd f).d = f s.d := rfl
@[simp] theorem State.upd_snap (f : Dev → Dev) (s : State) : (s.upd f).snap = s.snap := rfl
@[simp] theorem State.upd_held0 (f : Dev → Dev) (s : State) : (s.upd f).held0 = s.held0 := rfl
@[simp] theorem State.upd_held1 (f : Dev → Dev) (s : State) : (s.upd f).held1 = s.held1 := rfl
@[simp] theorem State.upd_pending (f : Dev → Dev) (s : State) : (s.upd f).pending = s.pending := rfl
@[simp] theorem done_eq (f : Dev → Dev) (s : State) : done f s = .next (s.upd f) := rfl

@[simp] theorem Dev.updXfer_time (d : Dev) (f : Xfer → Xfer) : (d.updXfer f).time = d.time := rfl
@[simp] theorem Dev.updXfer_sched (d : Dev) (f : Xfer → Xfer) : (d.updXfer f).sched = d.sched := rfl
@[simp] theorem Dev.updXfer_die (d : Dev) (f : Xfer → Xfer) : (d.updXfer f).die = d.die := rfl
@[simp] theorem Dev.updXfer_regs (d : Dev) (f : Xfer → Xfer) : (d.updXfer f).regs = d.regs := rfl
@[simp] theorem Dev.updXfer_stat (d : Dev) (f : Xfer → Xfer) : (d.updXfer f).stat = d.stat := rfl
@[simp] theorem Dev.updXfer_ident (d : Dev) (f : Xfer → Xfer) : (d.updXfer f).ident = d.ident := rfl
@[simp] theorem Dev.updXfer_sup (d : Dev) (f : Xfer → Xfer) : (d.updXfer f).sup = d.sup := rfl
@[simp] theorem Dev.updXfer_rails (d : Dev) (f : Xfer → Xfer) : (d.updXfer f).rails = d.rails := rfl
@[simp] theorem Dev.updXfer_units (d : Dev) (f : Xfer → Xfer) : (d.updXfer f).units = d.units := rfl
@[simp] theorem Dev.updXfer_clusters (d : Dev) (f : Xfer → Xfer) : (d.updXfer f).clusters = d.clusters := rfl
@[simp] theorem Dev.updXfer_runs (d : Dev) (f : Xfer → Xfer) : (d.updXfer f).runs = d.runs := rfl
@[simp] theorem Dev.updXfer_inj (d : Dev) (f : Xfer → Xfer) : (d.updXfer f).inj = d.inj := rfl
@[simp] theorem Dev.updXfer_cap (d : Dev) (f : Xfer → Xfer) : (d.updXfer f).cap = d.cap := rfl
@[simp] theorem Dev.updXfer_sram (d : Dev) (f : Xfer → Xfer) : (d.updXfer f).sram = d.sram := rfl
@[simp] theorem Dev.updXfer_sramA (d : Dev) (f : Xfer → Xfer) : (d.updXfer f).sramA = d.sramA := rfl
@[simp] theorem Dev.updXfer_sramB (d : Dev) (f : Xfer → Xfer) : (d.updXfer f).sramB = d.sramB := rfl
@[simp] theorem Dev.updXfer_sramS (d : Dev) (f : Xfer → Xfer) : (d.updXfer f).sramS = d.sramS := rfl
@[simp] theorem Dev.updXfer_live (d : Dev) (f : Xfer → Xfer) : (d.updXfer f).live = d.live := rfl
@[simp] theorem Dev.updXfer_sense (d : Dev) (f : Xfer → Xfer) : (d.updXfer f).sense = d.sense := rfl
@[simp] theorem Dev.updXfer_adm (d : Dev) (f : Xfer → Xfer) : (d.updXfer f).adm = d.adm := rfl
@[simp] theorem Dev.updXfer_twin (d : Dev) (f : Xfer → Xfer) : (d.updXfer f).twin = d.twin := rfl
@[simp] theorem Dev.updXfer_jrn (d : Dev) (f : Xfer → Xfer) : (d.updXfer f).jrn = d.jrn := rfl
@[simp] theorem Dev.updXfer_nv (d : Dev) (f : Xfer → Xfer) : (d.updXfer f).nv = d.nv := rfl
@[simp] theorem Dev.updXfer_peat (d : Dev) (f : Xfer → Xfer) : (d.updXfer f).peat = d.peat := rfl
@[simp] theorem Dev.updXfer_crust (d : Dev) (f : Xfer → Xfer) : (d.updXfer f).crust = d.crust := rfl
@[simp] theorem Dev.updXfer_feedA (d : Dev) (f : Xfer → Xfer) : (d.updXfer f).feedA = d.feedA := rfl
@[simp] theorem Dev.updXfer_feedB (d : Dev) (f : Xfer → Xfer) : (d.updXfer f).feedB = d.feedB := rfl
@[simp] theorem Dev.updXfer_xfer (d : Dev) (f : Xfer → Xfer) :
    (d.updXfer f).xfer = f d.xfer := rfl
@[simp] theorem Dev.updXfer_hs (d : Dev) (f : Xfer → Xfer) : (d.updXfer f).hs = d.hs := rfl
@[simp] theorem Dev.updXfer_fh (d : Dev) (f : Xfer → Xfer) : (d.updXfer f).fh = d.fh := rfl
@[simp] theorem Dev.updXfer_bbus (d : Dev) (f : Xfer → Xfer) : (d.updXfer f).bbus = d.bbus := rfl
@[simp] theorem Dev.updXfer_therm (d : Dev) (f : Xfer → Xfer) : (d.updXfer f).therm = d.therm := rfl
@[simp] theorem Dev.updXfer_twT (d : Dev) (f : Xfer → Xfer) : (d.updXfer f).twT = d.twT := rfl
@[simp] theorem Dev.updXfer_twC (d : Dev) (f : Xfer → Xfer) : (d.updXfer f).twC = d.twC := rfl
@[simp] theorem Dev.updXfer_upd (d : Dev) (f : Xfer → Xfer) : (d.updXfer f).upd = d.upd := rfl
@[simp] theorem Dev.updXfer_mie (d : Dev) (f : Xfer → Xfer) : (d.updXfer f).mie = d.mie := rfl
@[simp] theorem Dev.updXfer_dma (d : Dev) (f : Xfer → Xfer) : (d.updXfer f).dma = d.dma := rfl

@[simp] theorem Dev.updStat_time (d : Dev) (pg : Nat) (f : BlkStat → BlkStat) : (d.updStat pg f).time = d.time := rfl
@[simp] theorem Dev.updStat_sched (d : Dev) (pg : Nat) (f : BlkStat → BlkStat) : (d.updStat pg f).sched = d.sched := rfl
@[simp] theorem Dev.updStat_die (d : Dev) (pg : Nat) (f : BlkStat → BlkStat) : (d.updStat pg f).die = d.die := rfl
@[simp] theorem Dev.updStat_regs (d : Dev) (pg : Nat) (f : BlkStat → BlkStat) : (d.updStat pg f).regs = d.regs := rfl
@[simp] theorem Dev.updStat_stat (d : Dev) (pg : Nat) (f : BlkStat → BlkStat) :
    (d.updStat pg f).stat = statUpd pg f d.stat := rfl
@[simp] theorem Dev.updStat_ident (d : Dev) (pg : Nat) (f : BlkStat → BlkStat) : (d.updStat pg f).ident = d.ident := rfl
@[simp] theorem Dev.updStat_sup (d : Dev) (pg : Nat) (f : BlkStat → BlkStat) : (d.updStat pg f).sup = d.sup := rfl
@[simp] theorem Dev.updStat_rails (d : Dev) (pg : Nat) (f : BlkStat → BlkStat) : (d.updStat pg f).rails = d.rails := rfl
@[simp] theorem Dev.updStat_units (d : Dev) (pg : Nat) (f : BlkStat → BlkStat) : (d.updStat pg f).units = d.units := rfl
@[simp] theorem Dev.updStat_clusters (d : Dev) (pg : Nat) (f : BlkStat → BlkStat) : (d.updStat pg f).clusters = d.clusters := rfl
@[simp] theorem Dev.updStat_runs (d : Dev) (pg : Nat) (f : BlkStat → BlkStat) : (d.updStat pg f).runs = d.runs := rfl
@[simp] theorem Dev.updStat_inj (d : Dev) (pg : Nat) (f : BlkStat → BlkStat) : (d.updStat pg f).inj = d.inj := rfl
@[simp] theorem Dev.updStat_cap (d : Dev) (pg : Nat) (f : BlkStat → BlkStat) : (d.updStat pg f).cap = d.cap := rfl
@[simp] theorem Dev.updStat_sram (d : Dev) (pg : Nat) (f : BlkStat → BlkStat) : (d.updStat pg f).sram = d.sram := rfl
@[simp] theorem Dev.updStat_sramA (d : Dev) (pg : Nat) (f : BlkStat → BlkStat) : (d.updStat pg f).sramA = d.sramA := rfl
@[simp] theorem Dev.updStat_sramB (d : Dev) (pg : Nat) (f : BlkStat → BlkStat) : (d.updStat pg f).sramB = d.sramB := rfl
@[simp] theorem Dev.updStat_sramS (d : Dev) (pg : Nat) (f : BlkStat → BlkStat) : (d.updStat pg f).sramS = d.sramS := rfl
@[simp] theorem Dev.updStat_live (d : Dev) (pg : Nat) (f : BlkStat → BlkStat) : (d.updStat pg f).live = d.live := rfl
@[simp] theorem Dev.updStat_sense (d : Dev) (pg : Nat) (f : BlkStat → BlkStat) : (d.updStat pg f).sense = d.sense := rfl
@[simp] theorem Dev.updStat_adm (d : Dev) (pg : Nat) (f : BlkStat → BlkStat) : (d.updStat pg f).adm = d.adm := rfl
@[simp] theorem Dev.updStat_twin (d : Dev) (pg : Nat) (f : BlkStat → BlkStat) : (d.updStat pg f).twin = d.twin := rfl
@[simp] theorem Dev.updStat_jrn (d : Dev) (pg : Nat) (f : BlkStat → BlkStat) : (d.updStat pg f).jrn = d.jrn := rfl
@[simp] theorem Dev.updStat_nv (d : Dev) (pg : Nat) (f : BlkStat → BlkStat) : (d.updStat pg f).nv = d.nv := rfl
@[simp] theorem Dev.updStat_peat (d : Dev) (pg : Nat) (f : BlkStat → BlkStat) : (d.updStat pg f).peat = d.peat := rfl
@[simp] theorem Dev.updStat_crust (d : Dev) (pg : Nat) (f : BlkStat → BlkStat) : (d.updStat pg f).crust = d.crust := rfl
@[simp] theorem Dev.updStat_feedA (d : Dev) (pg : Nat) (f : BlkStat → BlkStat) : (d.updStat pg f).feedA = d.feedA := rfl
@[simp] theorem Dev.updStat_feedB (d : Dev) (pg : Nat) (f : BlkStat → BlkStat) : (d.updStat pg f).feedB = d.feedB := rfl
@[simp] theorem Dev.updStat_xfer (d : Dev) (pg : Nat) (f : BlkStat → BlkStat) : (d.updStat pg f).xfer = d.xfer := rfl
@[simp] theorem Dev.updStat_hs (d : Dev) (pg : Nat) (f : BlkStat → BlkStat) : (d.updStat pg f).hs = d.hs := rfl
@[simp] theorem Dev.updStat_fh (d : Dev) (pg : Nat) (f : BlkStat → BlkStat) : (d.updStat pg f).fh = d.fh := rfl
@[simp] theorem Dev.updStat_bbus (d : Dev) (pg : Nat) (f : BlkStat → BlkStat) : (d.updStat pg f).bbus = d.bbus := rfl
@[simp] theorem Dev.updStat_therm (d : Dev) (pg : Nat) (f : BlkStat → BlkStat) : (d.updStat pg f).therm = d.therm := rfl
@[simp] theorem Dev.updStat_twT (d : Dev) (pg : Nat) (f : BlkStat → BlkStat) : (d.updStat pg f).twT = d.twT := rfl
@[simp] theorem Dev.updStat_twC (d : Dev) (pg : Nat) (f : BlkStat → BlkStat) : (d.updStat pg f).twC = d.twC := rfl
@[simp] theorem Dev.updStat_upd (d : Dev) (pg : Nat) (f : BlkStat → BlkStat) : (d.updStat pg f).upd = d.upd := rfl
@[simp] theorem Dev.updStat_mie (d : Dev) (pg : Nat) (f : BlkStat → BlkStat) : (d.updStat pg f).mie = d.mie := rfl
@[simp] theorem Dev.updStat_dma (d : Dev) (pg : Nat) (f : BlkStat → BlkStat) : (d.updStat pg f).dma = d.dma := rfl

@[simp] theorem Dev.updFh_time (d : Dev) (f : Fiddle → Fiddle) : (d.updFh f).time = d.time := rfl
@[simp] theorem Dev.updFh_sched (d : Dev) (f : Fiddle → Fiddle) : (d.updFh f).sched = d.sched := rfl
@[simp] theorem Dev.updFh_die (d : Dev) (f : Fiddle → Fiddle) : (d.updFh f).die = d.die := rfl
@[simp] theorem Dev.updFh_regs (d : Dev) (f : Fiddle → Fiddle) : (d.updFh f).regs = d.regs := rfl
@[simp] theorem Dev.updFh_stat (d : Dev) (f : Fiddle → Fiddle) : (d.updFh f).stat = d.stat := rfl
@[simp] theorem Dev.updFh_ident (d : Dev) (f : Fiddle → Fiddle) : (d.updFh f).ident = d.ident := rfl
@[simp] theorem Dev.updFh_sup (d : Dev) (f : Fiddle → Fiddle) : (d.updFh f).sup = d.sup := rfl
@[simp] theorem Dev.updFh_rails (d : Dev) (f : Fiddle → Fiddle) : (d.updFh f).rails = d.rails := rfl
@[simp] theorem Dev.updFh_units (d : Dev) (f : Fiddle → Fiddle) : (d.updFh f).units = d.units := rfl
@[simp] theorem Dev.updFh_clusters (d : Dev) (f : Fiddle → Fiddle) : (d.updFh f).clusters = d.clusters := rfl
@[simp] theorem Dev.updFh_runs (d : Dev) (f : Fiddle → Fiddle) : (d.updFh f).runs = d.runs := rfl
@[simp] theorem Dev.updFh_inj (d : Dev) (f : Fiddle → Fiddle) : (d.updFh f).inj = d.inj := rfl
@[simp] theorem Dev.updFh_cap (d : Dev) (f : Fiddle → Fiddle) : (d.updFh f).cap = d.cap := rfl
@[simp] theorem Dev.updFh_sram (d : Dev) (f : Fiddle → Fiddle) : (d.updFh f).sram = d.sram := rfl
@[simp] theorem Dev.updFh_sramA (d : Dev) (f : Fiddle → Fiddle) : (d.updFh f).sramA = d.sramA := rfl
@[simp] theorem Dev.updFh_sramB (d : Dev) (f : Fiddle → Fiddle) : (d.updFh f).sramB = d.sramB := rfl
@[simp] theorem Dev.updFh_sramS (d : Dev) (f : Fiddle → Fiddle) : (d.updFh f).sramS = d.sramS := rfl
@[simp] theorem Dev.updFh_live (d : Dev) (f : Fiddle → Fiddle) : (d.updFh f).live = d.live := rfl
@[simp] theorem Dev.updFh_sense (d : Dev) (f : Fiddle → Fiddle) : (d.updFh f).sense = d.sense := rfl
@[simp] theorem Dev.updFh_adm (d : Dev) (f : Fiddle → Fiddle) : (d.updFh f).adm = d.adm := rfl
@[simp] theorem Dev.updFh_twin (d : Dev) (f : Fiddle → Fiddle) : (d.updFh f).twin = d.twin := rfl
@[simp] theorem Dev.updFh_jrn (d : Dev) (f : Fiddle → Fiddle) : (d.updFh f).jrn = d.jrn := rfl
@[simp] theorem Dev.updFh_nv (d : Dev) (f : Fiddle → Fiddle) : (d.updFh f).nv = d.nv := rfl
@[simp] theorem Dev.updFh_peat (d : Dev) (f : Fiddle → Fiddle) : (d.updFh f).peat = d.peat := rfl
@[simp] theorem Dev.updFh_crust (d : Dev) (f : Fiddle → Fiddle) : (d.updFh f).crust = d.crust := rfl
@[simp] theorem Dev.updFh_feedA (d : Dev) (f : Fiddle → Fiddle) : (d.updFh f).feedA = d.feedA := rfl
@[simp] theorem Dev.updFh_feedB (d : Dev) (f : Fiddle → Fiddle) : (d.updFh f).feedB = d.feedB := rfl
@[simp] theorem Dev.updFh_xfer (d : Dev) (f : Fiddle → Fiddle) : (d.updFh f).xfer = d.xfer := rfl
@[simp] theorem Dev.updFh_hs (d : Dev) (f : Fiddle → Fiddle) : (d.updFh f).hs = d.hs := rfl
@[simp] theorem Dev.updFh_fh (d : Dev) (f : Fiddle → Fiddle) :
    (d.updFh f).fh = f d.fh := rfl
@[simp] theorem Dev.updFh_bbus (d : Dev) (f : Fiddle → Fiddle) : (d.updFh f).bbus = d.bbus := rfl
@[simp] theorem Dev.updFh_therm (d : Dev) (f : Fiddle → Fiddle) : (d.updFh f).therm = d.therm := rfl
@[simp] theorem Dev.updFh_twT (d : Dev) (f : Fiddle → Fiddle) : (d.updFh f).twT = d.twT := rfl
@[simp] theorem Dev.updFh_twC (d : Dev) (f : Fiddle → Fiddle) : (d.updFh f).twC = d.twC := rfl
@[simp] theorem Dev.updFh_upd (d : Dev) (f : Fiddle → Fiddle) : (d.updFh f).upd = d.upd := rfl
@[simp] theorem Dev.updFh_mie (d : Dev) (f : Fiddle → Fiddle) : (d.updFh f).mie = d.mie := rfl
@[simp] theorem Dev.updFh_dma (d : Dev) (f : Fiddle → Fiddle) : (d.updFh f).dma = d.dma := rfl

@[simp] theorem Dev.updMbr_time (d : Dev) (i : Nat) (f : Member → Member) : (d.updMbr i f).time = d.time := rfl
@[simp] theorem Dev.updMbr_sched (d : Dev) (i : Nat) (f : Member → Member) : (d.updMbr i f).sched = d.sched := rfl
@[simp] theorem Dev.updMbr_die (d : Dev) (i : Nat) (f : Member → Member) : (d.updMbr i f).die = d.die := rfl
@[simp] theorem Dev.updMbr_regs (d : Dev) (i : Nat) (f : Member → Member) : (d.updMbr i f).regs = d.regs := rfl
@[simp] theorem Dev.updMbr_stat (d : Dev) (i : Nat) (f : Member → Member) : (d.updMbr i f).stat = d.stat := rfl
@[simp] theorem Dev.updMbr_ident (d : Dev) (i : Nat) (f : Member → Member) : (d.updMbr i f).ident = d.ident := rfl
@[simp] theorem Dev.updMbr_sup (d : Dev) (i : Nat) (f : Member → Member) : (d.updMbr i f).sup = d.sup := rfl
@[simp] theorem Dev.updMbr_rails (d : Dev) (i : Nat) (f : Member → Member) : (d.updMbr i f).rails = d.rails := rfl
@[simp] theorem Dev.updMbr_units (d : Dev) (i : Nat) (f : Member → Member) : (d.updMbr i f).units = d.units := rfl
@[simp] theorem Dev.updMbr_clusters (d : Dev) (i : Nat) (f : Member → Member) : (d.updMbr i f).clusters = d.clusters := rfl
@[simp] theorem Dev.updMbr_runs (d : Dev) (i : Nat) (f : Member → Member) : (d.updMbr i f).runs = d.runs := rfl
@[simp] theorem Dev.updMbr_inj (d : Dev) (i : Nat) (f : Member → Member) : (d.updMbr i f).inj = d.inj := rfl
@[simp] theorem Dev.updMbr_cap (d : Dev) (i : Nat) (f : Member → Member) : (d.updMbr i f).cap = d.cap := rfl
@[simp] theorem Dev.updMbr_sram (d : Dev) (i : Nat) (f : Member → Member) : (d.updMbr i f).sram = d.sram := rfl
@[simp] theorem Dev.updMbr_sramA (d : Dev) (i : Nat) (f : Member → Member) : (d.updMbr i f).sramA = d.sramA := rfl
@[simp] theorem Dev.updMbr_sramB (d : Dev) (i : Nat) (f : Member → Member) : (d.updMbr i f).sramB = d.sramB := rfl
@[simp] theorem Dev.updMbr_sramS (d : Dev) (i : Nat) (f : Member → Member) : (d.updMbr i f).sramS = d.sramS := rfl
@[simp] theorem Dev.updMbr_live (d : Dev) (i : Nat) (f : Member → Member) : (d.updMbr i f).live = d.live := rfl
@[simp] theorem Dev.updMbr_sense (d : Dev) (i : Nat) (f : Member → Member) : (d.updMbr i f).sense = d.sense := rfl
@[simp] theorem Dev.updMbr_adm (d : Dev) (i : Nat) (f : Member → Member) : (d.updMbr i f).adm = d.adm := rfl
@[simp] theorem Dev.updMbr_twin (d : Dev) (i : Nat) (f : Member → Member) : (d.updMbr i f).twin = d.twin := rfl
@[simp] theorem Dev.updMbr_jrn (d : Dev) (i : Nat) (f : Member → Member) : (d.updMbr i f).jrn = d.jrn := rfl
@[simp] theorem Dev.updMbr_nv (d : Dev) (i : Nat) (f : Member → Member) : (d.updMbr i f).nv = d.nv := rfl
@[simp] theorem Dev.updMbr_peat (d : Dev) (i : Nat) (f : Member → Member) : (d.updMbr i f).peat = d.peat := rfl
@[simp] theorem Dev.updMbr_crust (d : Dev) (i : Nat) (f : Member → Member) : (d.updMbr i f).crust = d.crust := rfl
@[simp] theorem Dev.updMbr_feedA (d : Dev) (i : Nat) (f : Member → Member) : (d.updMbr i f).feedA = d.feedA := rfl
@[simp] theorem Dev.updMbr_feedB (d : Dev) (i : Nat) (f : Member → Member) : (d.updMbr i f).feedB = d.feedB := rfl
@[simp] theorem Dev.updMbr_xfer (d : Dev) (i : Nat) (f : Member → Member) : (d.updMbr i f).xfer = d.xfer := rfl
@[simp] theorem Dev.updMbr_hs (d : Dev) (i : Nat) (f : Member → Member) : (d.updMbr i f).hs = d.hs := rfl
@[simp] theorem Dev.updMbr_fh (d : Dev) (i : Nat) (f : Member → Member) :
    (d.updMbr i f).fh = { d.fh with members := updAt d.fh.members i f } := rfl
@[simp] theorem Dev.updMbr_bbus (d : Dev) (i : Nat) (f : Member → Member) : (d.updMbr i f).bbus = d.bbus := rfl
@[simp] theorem Dev.updMbr_therm (d : Dev) (i : Nat) (f : Member → Member) : (d.updMbr i f).therm = d.therm := rfl
@[simp] theorem Dev.updMbr_twT (d : Dev) (i : Nat) (f : Member → Member) : (d.updMbr i f).twT = d.twT := rfl
@[simp] theorem Dev.updMbr_twC (d : Dev) (i : Nat) (f : Member → Member) : (d.updMbr i f).twC = d.twC := rfl
@[simp] theorem Dev.updMbr_upd (d : Dev) (i : Nat) (f : Member → Member) : (d.updMbr i f).upd = d.upd := rfl
@[simp] theorem Dev.updMbr_mie (d : Dev) (i : Nat) (f : Member → Member) : (d.updMbr i f).mie = d.mie := rfl
@[simp] theorem Dev.updMbr_dma (d : Dev) (i : Nat) (f : Member → Member) : (d.updMbr i f).dma = d.dma := rfl

@[simp] theorem Dev.updBbu_time (d : Dev) (m : Nat) (f : Bbu → Bbu) : (d.updBbu m f).time = d.time := rfl
@[simp] theorem Dev.updBbu_sched (d : Dev) (m : Nat) (f : Bbu → Bbu) : (d.updBbu m f).sched = d.sched := rfl
@[simp] theorem Dev.updBbu_die (d : Dev) (m : Nat) (f : Bbu → Bbu) : (d.updBbu m f).die = d.die := rfl
@[simp] theorem Dev.updBbu_regs (d : Dev) (m : Nat) (f : Bbu → Bbu) : (d.updBbu m f).regs = d.regs := rfl
@[simp] theorem Dev.updBbu_stat (d : Dev) (m : Nat) (f : Bbu → Bbu) : (d.updBbu m f).stat = d.stat := rfl
@[simp] theorem Dev.updBbu_ident (d : Dev) (m : Nat) (f : Bbu → Bbu) : (d.updBbu m f).ident = d.ident := rfl
@[simp] theorem Dev.updBbu_sup (d : Dev) (m : Nat) (f : Bbu → Bbu) : (d.updBbu m f).sup = d.sup := rfl
@[simp] theorem Dev.updBbu_rails (d : Dev) (m : Nat) (f : Bbu → Bbu) : (d.updBbu m f).rails = d.rails := rfl
@[simp] theorem Dev.updBbu_units (d : Dev) (m : Nat) (f : Bbu → Bbu) : (d.updBbu m f).units = d.units := rfl
@[simp] theorem Dev.updBbu_clusters (d : Dev) (m : Nat) (f : Bbu → Bbu) : (d.updBbu m f).clusters = d.clusters := rfl
@[simp] theorem Dev.updBbu_runs (d : Dev) (m : Nat) (f : Bbu → Bbu) : (d.updBbu m f).runs = d.runs := rfl
@[simp] theorem Dev.updBbu_inj (d : Dev) (m : Nat) (f : Bbu → Bbu) : (d.updBbu m f).inj = d.inj := rfl
@[simp] theorem Dev.updBbu_cap (d : Dev) (m : Nat) (f : Bbu → Bbu) : (d.updBbu m f).cap = d.cap := rfl
@[simp] theorem Dev.updBbu_sram (d : Dev) (m : Nat) (f : Bbu → Bbu) : (d.updBbu m f).sram = d.sram := rfl
@[simp] theorem Dev.updBbu_sramA (d : Dev) (m : Nat) (f : Bbu → Bbu) : (d.updBbu m f).sramA = d.sramA := rfl
@[simp] theorem Dev.updBbu_sramB (d : Dev) (m : Nat) (f : Bbu → Bbu) : (d.updBbu m f).sramB = d.sramB := rfl
@[simp] theorem Dev.updBbu_sramS (d : Dev) (m : Nat) (f : Bbu → Bbu) : (d.updBbu m f).sramS = d.sramS := rfl
@[simp] theorem Dev.updBbu_live (d : Dev) (m : Nat) (f : Bbu → Bbu) : (d.updBbu m f).live = d.live := rfl
@[simp] theorem Dev.updBbu_sense (d : Dev) (m : Nat) (f : Bbu → Bbu) : (d.updBbu m f).sense = d.sense := rfl
@[simp] theorem Dev.updBbu_adm (d : Dev) (m : Nat) (f : Bbu → Bbu) : (d.updBbu m f).adm = d.adm := rfl
@[simp] theorem Dev.updBbu_twin (d : Dev) (m : Nat) (f : Bbu → Bbu) : (d.updBbu m f).twin = d.twin := rfl
@[simp] theorem Dev.updBbu_jrn (d : Dev) (m : Nat) (f : Bbu → Bbu) : (d.updBbu m f).jrn = d.jrn := rfl
@[simp] theorem Dev.updBbu_nv (d : Dev) (m : Nat) (f : Bbu → Bbu) : (d.updBbu m f).nv = d.nv := rfl
@[simp] theorem Dev.updBbu_peat (d : Dev) (m : Nat) (f : Bbu → Bbu) : (d.updBbu m f).peat = d.peat := rfl
@[simp] theorem Dev.updBbu_crust (d : Dev) (m : Nat) (f : Bbu → Bbu) : (d.updBbu m f).crust = d.crust := rfl
@[simp] theorem Dev.updBbu_feedA (d : Dev) (m : Nat) (f : Bbu → Bbu) : (d.updBbu m f).feedA = d.feedA := rfl
@[simp] theorem Dev.updBbu_feedB (d : Dev) (m : Nat) (f : Bbu → Bbu) : (d.updBbu m f).feedB = d.feedB := rfl
@[simp] theorem Dev.updBbu_xfer (d : Dev) (m : Nat) (f : Bbu → Bbu) : (d.updBbu m f).xfer = d.xfer := rfl
@[simp] theorem Dev.updBbu_hs (d : Dev) (m : Nat) (f : Bbu → Bbu) : (d.updBbu m f).hs = d.hs := rfl
@[simp] theorem Dev.updBbu_fh (d : Dev) (m : Nat) (f : Bbu → Bbu) : (d.updBbu m f).fh = d.fh := rfl
@[simp] theorem Dev.updBbu_bbus (d : Dev) (m : Nat) (f : Bbu → Bbu) :
    (d.updBbu m f).bbus = updAt d.bbus m f := rfl
@[simp] theorem Dev.updBbu_therm (d : Dev) (m : Nat) (f : Bbu → Bbu) : (d.updBbu m f).therm = d.therm := rfl
@[simp] theorem Dev.updBbu_twT (d : Dev) (m : Nat) (f : Bbu → Bbu) : (d.updBbu m f).twT = d.twT := rfl
@[simp] theorem Dev.updBbu_twC (d : Dev) (m : Nat) (f : Bbu → Bbu) : (d.updBbu m f).twC = d.twC := rfl
@[simp] theorem Dev.updBbu_upd (d : Dev) (m : Nat) (f : Bbu → Bbu) : (d.updBbu m f).upd = d.upd := rfl
@[simp] theorem Dev.updBbu_mie (d : Dev) (m : Nat) (f : Bbu → Bbu) : (d.updBbu m f).mie = d.mie := rfl
@[simp] theorem Dev.updBbu_dma (d : Dev) (m : Nat) (f : Bbu → Bbu) : (d.updBbu m f).dma = d.dma := rfl

@[simp] theorem Dev.updTwT_time (d : Dev) (n : Nat) (f : TwTarget → TwTarget) : (d.updTwT n f).time = d.time := rfl
@[simp] theorem Dev.updTwT_sched (d : Dev) (n : Nat) (f : TwTarget → TwTarget) : (d.updTwT n f).sched = d.sched := rfl
@[simp] theorem Dev.updTwT_die (d : Dev) (n : Nat) (f : TwTarget → TwTarget) : (d.updTwT n f).die = d.die := rfl
@[simp] theorem Dev.updTwT_regs (d : Dev) (n : Nat) (f : TwTarget → TwTarget) : (d.updTwT n f).regs = d.regs := rfl
@[simp] theorem Dev.updTwT_stat (d : Dev) (n : Nat) (f : TwTarget → TwTarget) : (d.updTwT n f).stat = d.stat := rfl
@[simp] theorem Dev.updTwT_ident (d : Dev) (n : Nat) (f : TwTarget → TwTarget) : (d.updTwT n f).ident = d.ident := rfl
@[simp] theorem Dev.updTwT_sup (d : Dev) (n : Nat) (f : TwTarget → TwTarget) : (d.updTwT n f).sup = d.sup := rfl
@[simp] theorem Dev.updTwT_rails (d : Dev) (n : Nat) (f : TwTarget → TwTarget) : (d.updTwT n f).rails = d.rails := rfl
@[simp] theorem Dev.updTwT_units (d : Dev) (n : Nat) (f : TwTarget → TwTarget) : (d.updTwT n f).units = d.units := rfl
@[simp] theorem Dev.updTwT_clusters (d : Dev) (n : Nat) (f : TwTarget → TwTarget) : (d.updTwT n f).clusters = d.clusters := rfl
@[simp] theorem Dev.updTwT_runs (d : Dev) (n : Nat) (f : TwTarget → TwTarget) : (d.updTwT n f).runs = d.runs := rfl
@[simp] theorem Dev.updTwT_inj (d : Dev) (n : Nat) (f : TwTarget → TwTarget) : (d.updTwT n f).inj = d.inj := rfl
@[simp] theorem Dev.updTwT_cap (d : Dev) (n : Nat) (f : TwTarget → TwTarget) : (d.updTwT n f).cap = d.cap := rfl
@[simp] theorem Dev.updTwT_sram (d : Dev) (n : Nat) (f : TwTarget → TwTarget) : (d.updTwT n f).sram = d.sram := rfl
@[simp] theorem Dev.updTwT_sramA (d : Dev) (n : Nat) (f : TwTarget → TwTarget) : (d.updTwT n f).sramA = d.sramA := rfl
@[simp] theorem Dev.updTwT_sramB (d : Dev) (n : Nat) (f : TwTarget → TwTarget) : (d.updTwT n f).sramB = d.sramB := rfl
@[simp] theorem Dev.updTwT_sramS (d : Dev) (n : Nat) (f : TwTarget → TwTarget) : (d.updTwT n f).sramS = d.sramS := rfl
@[simp] theorem Dev.updTwT_live (d : Dev) (n : Nat) (f : TwTarget → TwTarget) : (d.updTwT n f).live = d.live := rfl
@[simp] theorem Dev.updTwT_sense (d : Dev) (n : Nat) (f : TwTarget → TwTarget) : (d.updTwT n f).sense = d.sense := rfl
@[simp] theorem Dev.updTwT_adm (d : Dev) (n : Nat) (f : TwTarget → TwTarget) : (d.updTwT n f).adm = d.adm := rfl
@[simp] theorem Dev.updTwT_twin (d : Dev) (n : Nat) (f : TwTarget → TwTarget) : (d.updTwT n f).twin = d.twin := rfl
@[simp] theorem Dev.updTwT_jrn (d : Dev) (n : Nat) (f : TwTarget → TwTarget) : (d.updTwT n f).jrn = d.jrn := rfl
@[simp] theorem Dev.updTwT_nv (d : Dev) (n : Nat) (f : TwTarget → TwTarget) : (d.updTwT n f).nv = d.nv := rfl
@[simp] theorem Dev.updTwT_peat (d : Dev) (n : Nat) (f : TwTarget → TwTarget) : (d.updTwT n f).peat = d.peat := rfl
@[simp] theorem Dev.updTwT_crust (d : Dev) (n : Nat) (f : TwTarget → TwTarget) : (d.updTwT n f).crust = d.crust := rfl
@[simp] theorem Dev.updTwT_feedA (d : Dev) (n : Nat) (f : TwTarget → TwTarget) : (d.updTwT n f).feedA = d.feedA := rfl
@[simp] theorem Dev.updTwT_feedB (d : Dev) (n : Nat) (f : TwTarget → TwTarget) : (d.updTwT n f).feedB = d.feedB := rfl
@[simp] theorem Dev.updTwT_xfer (d : Dev) (n : Nat) (f : TwTarget → TwTarget) : (d.updTwT n f).xfer = d.xfer := rfl
@[simp] theorem Dev.updTwT_hs (d : Dev) (n : Nat) (f : TwTarget → TwTarget) : (d.updTwT n f).hs = d.hs := rfl
@[simp] theorem Dev.updTwT_fh (d : Dev) (n : Nat) (f : TwTarget → TwTarget) : (d.updTwT n f).fh = d.fh := rfl
@[simp] theorem Dev.updTwT_bbus (d : Dev) (n : Nat) (f : TwTarget → TwTarget) : (d.updTwT n f).bbus = d.bbus := rfl
@[simp] theorem Dev.updTwT_therm (d : Dev) (n : Nat) (f : TwTarget → TwTarget) : (d.updTwT n f).therm = d.therm := rfl
@[simp] theorem Dev.updTwT_twT (d : Dev) (n : Nat) (f : TwTarget → TwTarget) :
    (d.updTwT n f).twT = updAt d.twT n f := rfl
@[simp] theorem Dev.updTwT_twC (d : Dev) (n : Nat) (f : TwTarget → TwTarget) : (d.updTwT n f).twC = d.twC := rfl
@[simp] theorem Dev.updTwT_upd (d : Dev) (n : Nat) (f : TwTarget → TwTarget) : (d.updTwT n f).upd = d.upd := rfl
@[simp] theorem Dev.updTwT_mie (d : Dev) (n : Nat) (f : TwTarget → TwTarget) : (d.updTwT n f).mie = d.mie := rfl
@[simp] theorem Dev.updTwT_dma (d : Dev) (n : Nat) (f : TwTarget → TwTarget) : (d.updTwT n f).dma = d.dma := rfl

@[simp] theorem Dev.updTwC_time (d : Dev) (c : Nat) (f : TwCtl → TwCtl) : (d.updTwC c f).time = d.time := rfl
@[simp] theorem Dev.updTwC_sched (d : Dev) (c : Nat) (f : TwCtl → TwCtl) : (d.updTwC c f).sched = d.sched := rfl
@[simp] theorem Dev.updTwC_die (d : Dev) (c : Nat) (f : TwCtl → TwCtl) : (d.updTwC c f).die = d.die := rfl
@[simp] theorem Dev.updTwC_regs (d : Dev) (c : Nat) (f : TwCtl → TwCtl) : (d.updTwC c f).regs = d.regs := rfl
@[simp] theorem Dev.updTwC_stat (d : Dev) (c : Nat) (f : TwCtl → TwCtl) : (d.updTwC c f).stat = d.stat := rfl
@[simp] theorem Dev.updTwC_ident (d : Dev) (c : Nat) (f : TwCtl → TwCtl) : (d.updTwC c f).ident = d.ident := rfl
@[simp] theorem Dev.updTwC_sup (d : Dev) (c : Nat) (f : TwCtl → TwCtl) : (d.updTwC c f).sup = d.sup := rfl
@[simp] theorem Dev.updTwC_rails (d : Dev) (c : Nat) (f : TwCtl → TwCtl) : (d.updTwC c f).rails = d.rails := rfl
@[simp] theorem Dev.updTwC_units (d : Dev) (c : Nat) (f : TwCtl → TwCtl) : (d.updTwC c f).units = d.units := rfl
@[simp] theorem Dev.updTwC_clusters (d : Dev) (c : Nat) (f : TwCtl → TwCtl) : (d.updTwC c f).clusters = d.clusters := rfl
@[simp] theorem Dev.updTwC_runs (d : Dev) (c : Nat) (f : TwCtl → TwCtl) : (d.updTwC c f).runs = d.runs := rfl
@[simp] theorem Dev.updTwC_inj (d : Dev) (c : Nat) (f : TwCtl → TwCtl) : (d.updTwC c f).inj = d.inj := rfl
@[simp] theorem Dev.updTwC_cap (d : Dev) (c : Nat) (f : TwCtl → TwCtl) : (d.updTwC c f).cap = d.cap := rfl
@[simp] theorem Dev.updTwC_sram (d : Dev) (c : Nat) (f : TwCtl → TwCtl) : (d.updTwC c f).sram = d.sram := rfl
@[simp] theorem Dev.updTwC_sramA (d : Dev) (c : Nat) (f : TwCtl → TwCtl) : (d.updTwC c f).sramA = d.sramA := rfl
@[simp] theorem Dev.updTwC_sramB (d : Dev) (c : Nat) (f : TwCtl → TwCtl) : (d.updTwC c f).sramB = d.sramB := rfl
@[simp] theorem Dev.updTwC_sramS (d : Dev) (c : Nat) (f : TwCtl → TwCtl) : (d.updTwC c f).sramS = d.sramS := rfl
@[simp] theorem Dev.updTwC_live (d : Dev) (c : Nat) (f : TwCtl → TwCtl) : (d.updTwC c f).live = d.live := rfl
@[simp] theorem Dev.updTwC_sense (d : Dev) (c : Nat) (f : TwCtl → TwCtl) : (d.updTwC c f).sense = d.sense := rfl
@[simp] theorem Dev.updTwC_adm (d : Dev) (c : Nat) (f : TwCtl → TwCtl) : (d.updTwC c f).adm = d.adm := rfl
@[simp] theorem Dev.updTwC_twin (d : Dev) (c : Nat) (f : TwCtl → TwCtl) : (d.updTwC c f).twin = d.twin := rfl
@[simp] theorem Dev.updTwC_jrn (d : Dev) (c : Nat) (f : TwCtl → TwCtl) : (d.updTwC c f).jrn = d.jrn := rfl
@[simp] theorem Dev.updTwC_nv (d : Dev) (c : Nat) (f : TwCtl → TwCtl) : (d.updTwC c f).nv = d.nv := rfl
@[simp] theorem Dev.updTwC_peat (d : Dev) (c : Nat) (f : TwCtl → TwCtl) : (d.updTwC c f).peat = d.peat := rfl
@[simp] theorem Dev.updTwC_crust (d : Dev) (c : Nat) (f : TwCtl → TwCtl) : (d.updTwC c f).crust = d.crust := rfl
@[simp] theorem Dev.updTwC_feedA (d : Dev) (c : Nat) (f : TwCtl → TwCtl) : (d.updTwC c f).feedA = d.feedA := rfl
@[simp] theorem Dev.updTwC_feedB (d : Dev) (c : Nat) (f : TwCtl → TwCtl) : (d.updTwC c f).feedB = d.feedB := rfl
@[simp] theorem Dev.updTwC_xfer (d : Dev) (c : Nat) (f : TwCtl → TwCtl) : (d.updTwC c f).xfer = d.xfer := rfl
@[simp] theorem Dev.updTwC_hs (d : Dev) (c : Nat) (f : TwCtl → TwCtl) : (d.updTwC c f).hs = d.hs := rfl
@[simp] theorem Dev.updTwC_fh (d : Dev) (c : Nat) (f : TwCtl → TwCtl) : (d.updTwC c f).fh = d.fh := rfl
@[simp] theorem Dev.updTwC_bbus (d : Dev) (c : Nat) (f : TwCtl → TwCtl) : (d.updTwC c f).bbus = d.bbus := rfl
@[simp] theorem Dev.updTwC_therm (d : Dev) (c : Nat) (f : TwCtl → TwCtl) : (d.updTwC c f).therm = d.therm := rfl
@[simp] theorem Dev.updTwC_twT (d : Dev) (c : Nat) (f : TwCtl → TwCtl) : (d.updTwC c f).twT = d.twT := rfl
@[simp] theorem Dev.updTwC_twC (d : Dev) (c : Nat) (f : TwCtl → TwCtl) :
    (d.updTwC c f).twC = updAt d.twC c f := rfl
@[simp] theorem Dev.updTwC_upd (d : Dev) (c : Nat) (f : TwCtl → TwCtl) : (d.updTwC c f).upd = d.upd := rfl
@[simp] theorem Dev.updTwC_mie (d : Dev) (c : Nat) (f : TwCtl → TwCtl) : (d.updTwC c f).mie = d.mie := rfl
@[simp] theorem Dev.updTwC_dma (d : Dev) (c : Nat) (f : TwCtl → TwCtl) : (d.updTwC c f).dma = d.dma := rfl

@[simp] theorem Dev.updJrn_time (d : Dev) (f : JrnSt → JrnSt) : (d.updJrn f).time = d.time := rfl
@[simp] theorem Dev.updJrn_sched (d : Dev) (f : JrnSt → JrnSt) : (d.updJrn f).sched = d.sched := rfl
@[simp] theorem Dev.updJrn_die (d : Dev) (f : JrnSt → JrnSt) : (d.updJrn f).die = d.die := rfl
@[simp] theorem Dev.updJrn_regs (d : Dev) (f : JrnSt → JrnSt) : (d.updJrn f).regs = d.regs := rfl
@[simp] theorem Dev.updJrn_stat (d : Dev) (f : JrnSt → JrnSt) : (d.updJrn f).stat = d.stat := rfl
@[simp] theorem Dev.updJrn_ident (d : Dev) (f : JrnSt → JrnSt) : (d.updJrn f).ident = d.ident := rfl
@[simp] theorem Dev.updJrn_sup (d : Dev) (f : JrnSt → JrnSt) : (d.updJrn f).sup = d.sup := rfl
@[simp] theorem Dev.updJrn_rails (d : Dev) (f : JrnSt → JrnSt) : (d.updJrn f).rails = d.rails := rfl
@[simp] theorem Dev.updJrn_units (d : Dev) (f : JrnSt → JrnSt) : (d.updJrn f).units = d.units := rfl
@[simp] theorem Dev.updJrn_clusters (d : Dev) (f : JrnSt → JrnSt) : (d.updJrn f).clusters = d.clusters := rfl
@[simp] theorem Dev.updJrn_runs (d : Dev) (f : JrnSt → JrnSt) : (d.updJrn f).runs = d.runs := rfl
@[simp] theorem Dev.updJrn_inj (d : Dev) (f : JrnSt → JrnSt) : (d.updJrn f).inj = d.inj := rfl
@[simp] theorem Dev.updJrn_cap (d : Dev) (f : JrnSt → JrnSt) : (d.updJrn f).cap = d.cap := rfl
@[simp] theorem Dev.updJrn_sram (d : Dev) (f : JrnSt → JrnSt) : (d.updJrn f).sram = d.sram := rfl
@[simp] theorem Dev.updJrn_sramA (d : Dev) (f : JrnSt → JrnSt) : (d.updJrn f).sramA = d.sramA := rfl
@[simp] theorem Dev.updJrn_sramB (d : Dev) (f : JrnSt → JrnSt) : (d.updJrn f).sramB = d.sramB := rfl
@[simp] theorem Dev.updJrn_sramS (d : Dev) (f : JrnSt → JrnSt) : (d.updJrn f).sramS = d.sramS := rfl
@[simp] theorem Dev.updJrn_live (d : Dev) (f : JrnSt → JrnSt) : (d.updJrn f).live = d.live := rfl
@[simp] theorem Dev.updJrn_sense (d : Dev) (f : JrnSt → JrnSt) : (d.updJrn f).sense = d.sense := rfl
@[simp] theorem Dev.updJrn_adm (d : Dev) (f : JrnSt → JrnSt) : (d.updJrn f).adm = d.adm := rfl
@[simp] theorem Dev.updJrn_twin (d : Dev) (f : JrnSt → JrnSt) : (d.updJrn f).twin = d.twin := rfl
@[simp] theorem Dev.updJrn_jrn (d : Dev) (f : JrnSt → JrnSt) :
    (d.updJrn f).jrn = f d.jrn := rfl
@[simp] theorem Dev.updJrn_nv (d : Dev) (f : JrnSt → JrnSt) : (d.updJrn f).nv = d.nv := rfl
@[simp] theorem Dev.updJrn_peat (d : Dev) (f : JrnSt → JrnSt) : (d.updJrn f).peat = d.peat := rfl
@[simp] theorem Dev.updJrn_crust (d : Dev) (f : JrnSt → JrnSt) : (d.updJrn f).crust = d.crust := rfl
@[simp] theorem Dev.updJrn_feedA (d : Dev) (f : JrnSt → JrnSt) : (d.updJrn f).feedA = d.feedA := rfl
@[simp] theorem Dev.updJrn_feedB (d : Dev) (f : JrnSt → JrnSt) : (d.updJrn f).feedB = d.feedB := rfl
@[simp] theorem Dev.updJrn_xfer (d : Dev) (f : JrnSt → JrnSt) : (d.updJrn f).xfer = d.xfer := rfl
@[simp] theorem Dev.updJrn_hs (d : Dev) (f : JrnSt → JrnSt) : (d.updJrn f).hs = d.hs := rfl
@[simp] theorem Dev.updJrn_fh (d : Dev) (f : JrnSt → JrnSt) : (d.updJrn f).fh = d.fh := rfl
@[simp] theorem Dev.updJrn_bbus (d : Dev) (f : JrnSt → JrnSt) : (d.updJrn f).bbus = d.bbus := rfl
@[simp] theorem Dev.updJrn_therm (d : Dev) (f : JrnSt → JrnSt) : (d.updJrn f).therm = d.therm := rfl
@[simp] theorem Dev.updJrn_twT (d : Dev) (f : JrnSt → JrnSt) : (d.updJrn f).twT = d.twT := rfl
@[simp] theorem Dev.updJrn_twC (d : Dev) (f : JrnSt → JrnSt) : (d.updJrn f).twC = d.twC := rfl
@[simp] theorem Dev.updJrn_upd (d : Dev) (f : JrnSt → JrnSt) : (d.updJrn f).upd = d.upd := rfl
@[simp] theorem Dev.updJrn_mie (d : Dev) (f : JrnSt → JrnSt) : (d.updJrn f).mie = d.mie := rfl
@[simp] theorem Dev.updJrn_dma (d : Dev) (f : JrnSt → JrnSt) : (d.updJrn f).dma = d.dma := rfl

@[simp] theorem Dev.updUpd_time (d : Dev) (f : UpdSt → UpdSt) : (d.updUpd f).time = d.time := rfl
@[simp] theorem Dev.updUpd_sched (d : Dev) (f : UpdSt → UpdSt) : (d.updUpd f).sched = d.sched := rfl
@[simp] theorem Dev.updUpd_die (d : Dev) (f : UpdSt → UpdSt) : (d.updUpd f).die = d.die := rfl
@[simp] theorem Dev.updUpd_regs (d : Dev) (f : UpdSt → UpdSt) : (d.updUpd f).regs = d.regs := rfl
@[simp] theorem Dev.updUpd_stat (d : Dev) (f : UpdSt → UpdSt) : (d.updUpd f).stat = d.stat := rfl
@[simp] theorem Dev.updUpd_ident (d : Dev) (f : UpdSt → UpdSt) : (d.updUpd f).ident = d.ident := rfl
@[simp] theorem Dev.updUpd_sup (d : Dev) (f : UpdSt → UpdSt) : (d.updUpd f).sup = d.sup := rfl
@[simp] theorem Dev.updUpd_rails (d : Dev) (f : UpdSt → UpdSt) : (d.updUpd f).rails = d.rails := rfl
@[simp] theorem Dev.updUpd_units (d : Dev) (f : UpdSt → UpdSt) : (d.updUpd f).units = d.units := rfl
@[simp] theorem Dev.updUpd_clusters (d : Dev) (f : UpdSt → UpdSt) : (d.updUpd f).clusters = d.clusters := rfl
@[simp] theorem Dev.updUpd_runs (d : Dev) (f : UpdSt → UpdSt) : (d.updUpd f).runs = d.runs := rfl
@[simp] theorem Dev.updUpd_inj (d : Dev) (f : UpdSt → UpdSt) : (d.updUpd f).inj = d.inj := rfl
@[simp] theorem Dev.updUpd_cap (d : Dev) (f : UpdSt → UpdSt) : (d.updUpd f).cap = d.cap := rfl
@[simp] theorem Dev.updUpd_sram (d : Dev) (f : UpdSt → UpdSt) : (d.updUpd f).sram = d.sram := rfl
@[simp] theorem Dev.updUpd_sramA (d : Dev) (f : UpdSt → UpdSt) : (d.updUpd f).sramA = d.sramA := rfl
@[simp] theorem Dev.updUpd_sramB (d : Dev) (f : UpdSt → UpdSt) : (d.updUpd f).sramB = d.sramB := rfl
@[simp] theorem Dev.updUpd_sramS (d : Dev) (f : UpdSt → UpdSt) : (d.updUpd f).sramS = d.sramS := rfl
@[simp] theorem Dev.updUpd_live (d : Dev) (f : UpdSt → UpdSt) : (d.updUpd f).live = d.live := rfl
@[simp] theorem Dev.updUpd_sense (d : Dev) (f : UpdSt → UpdSt) : (d.updUpd f).sense = d.sense := rfl
@[simp] theorem Dev.updUpd_adm (d : Dev) (f : UpdSt → UpdSt) : (d.updUpd f).adm = d.adm := rfl
@[simp] theorem Dev.updUpd_twin (d : Dev) (f : UpdSt → UpdSt) : (d.updUpd f).twin = d.twin := rfl
@[simp] theorem Dev.updUpd_jrn (d : Dev) (f : UpdSt → UpdSt) : (d.updUpd f).jrn = d.jrn := rfl
@[simp] theorem Dev.updUpd_nv (d : Dev) (f : UpdSt → UpdSt) : (d.updUpd f).nv = d.nv := rfl
@[simp] theorem Dev.updUpd_peat (d : Dev) (f : UpdSt → UpdSt) : (d.updUpd f).peat = d.peat := rfl
@[simp] theorem Dev.updUpd_crust (d : Dev) (f : UpdSt → UpdSt) : (d.updUpd f).crust = d.crust := rfl
@[simp] theorem Dev.updUpd_feedA (d : Dev) (f : UpdSt → UpdSt) : (d.updUpd f).feedA = d.feedA := rfl
@[simp] theorem Dev.updUpd_feedB (d : Dev) (f : UpdSt → UpdSt) : (d.updUpd f).feedB = d.feedB := rfl
@[simp] theorem Dev.updUpd_xfer (d : Dev) (f : UpdSt → UpdSt) : (d.updUpd f).xfer = d.xfer := rfl
@[simp] theorem Dev.updUpd_hs (d : Dev) (f : UpdSt → UpdSt) : (d.updUpd f).hs = d.hs := rfl
@[simp] theorem Dev.updUpd_fh (d : Dev) (f : UpdSt → UpdSt) : (d.updUpd f).fh = d.fh := rfl
@[simp] theorem Dev.updUpd_bbus (d : Dev) (f : UpdSt → UpdSt) : (d.updUpd f).bbus = d.bbus := rfl
@[simp] theorem Dev.updUpd_therm (d : Dev) (f : UpdSt → UpdSt) : (d.updUpd f).therm = d.therm := rfl
@[simp] theorem Dev.updUpd_twT (d : Dev) (f : UpdSt → UpdSt) : (d.updUpd f).twT = d.twT := rfl
@[simp] theorem Dev.updUpd_twC (d : Dev) (f : UpdSt → UpdSt) : (d.updUpd f).twC = d.twC := rfl
@[simp] theorem Dev.updUpd_upd (d : Dev) (f : UpdSt → UpdSt) :
    (d.updUpd f).upd = f d.upd := rfl
@[simp] theorem Dev.updUpd_mie (d : Dev) (f : UpdSt → UpdSt) : (d.updUpd f).mie = d.mie := rfl
@[simp] theorem Dev.updUpd_dma (d : Dev) (f : UpdSt → UpdSt) : (d.updUpd f).dma = d.dma := rfl

@[simp] theorem Dev.updMie_time (d : Dev) (f : MieSt → MieSt) : (d.updMie f).time = d.time := rfl
@[simp] theorem Dev.updMie_sched (d : Dev) (f : MieSt → MieSt) : (d.updMie f).sched = d.sched := rfl
@[simp] theorem Dev.updMie_die (d : Dev) (f : MieSt → MieSt) : (d.updMie f).die = d.die := rfl
@[simp] theorem Dev.updMie_regs (d : Dev) (f : MieSt → MieSt) : (d.updMie f).regs = d.regs := rfl
@[simp] theorem Dev.updMie_stat (d : Dev) (f : MieSt → MieSt) : (d.updMie f).stat = d.stat := rfl
@[simp] theorem Dev.updMie_ident (d : Dev) (f : MieSt → MieSt) : (d.updMie f).ident = d.ident := rfl
@[simp] theorem Dev.updMie_sup (d : Dev) (f : MieSt → MieSt) : (d.updMie f).sup = d.sup := rfl
@[simp] theorem Dev.updMie_rails (d : Dev) (f : MieSt → MieSt) : (d.updMie f).rails = d.rails := rfl
@[simp] theorem Dev.updMie_units (d : Dev) (f : MieSt → MieSt) : (d.updMie f).units = d.units := rfl
@[simp] theorem Dev.updMie_clusters (d : Dev) (f : MieSt → MieSt) : (d.updMie f).clusters = d.clusters := rfl
@[simp] theorem Dev.updMie_runs (d : Dev) (f : MieSt → MieSt) : (d.updMie f).runs = d.runs := rfl
@[simp] theorem Dev.updMie_inj (d : Dev) (f : MieSt → MieSt) : (d.updMie f).inj = d.inj := rfl
@[simp] theorem Dev.updMie_cap (d : Dev) (f : MieSt → MieSt) : (d.updMie f).cap = d.cap := rfl
@[simp] theorem Dev.updMie_sram (d : Dev) (f : MieSt → MieSt) : (d.updMie f).sram = d.sram := rfl
@[simp] theorem Dev.updMie_sramA (d : Dev) (f : MieSt → MieSt) : (d.updMie f).sramA = d.sramA := rfl
@[simp] theorem Dev.updMie_sramB (d : Dev) (f : MieSt → MieSt) : (d.updMie f).sramB = d.sramB := rfl
@[simp] theorem Dev.updMie_sramS (d : Dev) (f : MieSt → MieSt) : (d.updMie f).sramS = d.sramS := rfl
@[simp] theorem Dev.updMie_live (d : Dev) (f : MieSt → MieSt) : (d.updMie f).live = d.live := rfl
@[simp] theorem Dev.updMie_sense (d : Dev) (f : MieSt → MieSt) : (d.updMie f).sense = d.sense := rfl
@[simp] theorem Dev.updMie_adm (d : Dev) (f : MieSt → MieSt) : (d.updMie f).adm = d.adm := rfl
@[simp] theorem Dev.updMie_twin (d : Dev) (f : MieSt → MieSt) : (d.updMie f).twin = d.twin := rfl
@[simp] theorem Dev.updMie_jrn (d : Dev) (f : MieSt → MieSt) : (d.updMie f).jrn = d.jrn := rfl
@[simp] theorem Dev.updMie_nv (d : Dev) (f : MieSt → MieSt) : (d.updMie f).nv = d.nv := rfl
@[simp] theorem Dev.updMie_peat (d : Dev) (f : MieSt → MieSt) : (d.updMie f).peat = d.peat := rfl
@[simp] theorem Dev.updMie_crust (d : Dev) (f : MieSt → MieSt) : (d.updMie f).crust = d.crust := rfl
@[simp] theorem Dev.updMie_feedA (d : Dev) (f : MieSt → MieSt) : (d.updMie f).feedA = d.feedA := rfl
@[simp] theorem Dev.updMie_feedB (d : Dev) (f : MieSt → MieSt) : (d.updMie f).feedB = d.feedB := rfl
@[simp] theorem Dev.updMie_xfer (d : Dev) (f : MieSt → MieSt) : (d.updMie f).xfer = d.xfer := rfl
@[simp] theorem Dev.updMie_hs (d : Dev) (f : MieSt → MieSt) : (d.updMie f).hs = d.hs := rfl
@[simp] theorem Dev.updMie_fh (d : Dev) (f : MieSt → MieSt) : (d.updMie f).fh = d.fh := rfl
@[simp] theorem Dev.updMie_bbus (d : Dev) (f : MieSt → MieSt) : (d.updMie f).bbus = d.bbus := rfl
@[simp] theorem Dev.updMie_therm (d : Dev) (f : MieSt → MieSt) : (d.updMie f).therm = d.therm := rfl
@[simp] theorem Dev.updMie_twT (d : Dev) (f : MieSt → MieSt) : (d.updMie f).twT = d.twT := rfl
@[simp] theorem Dev.updMie_twC (d : Dev) (f : MieSt → MieSt) : (d.updMie f).twC = d.twC := rfl
@[simp] theorem Dev.updMie_upd (d : Dev) (f : MieSt → MieSt) : (d.updMie f).upd = d.upd := rfl
@[simp] theorem Dev.updMie_mie (d : Dev) (f : MieSt → MieSt) :
    (d.updMie f).mie = f d.mie := rfl
@[simp] theorem Dev.updMie_dma (d : Dev) (f : MieSt → MieSt) : (d.updMie f).dma = d.dma := rfl

@[simp] theorem Dev.updDma_time (d : Dev) (c : Nat) (f : DmaCh → DmaCh) : (d.updDma c f).time = d.time := rfl
@[simp] theorem Dev.updDma_sched (d : Dev) (c : Nat) (f : DmaCh → DmaCh) : (d.updDma c f).sched = d.sched := rfl
@[simp] theorem Dev.updDma_die (d : Dev) (c : Nat) (f : DmaCh → DmaCh) : (d.updDma c f).die = d.die := rfl
@[simp] theorem Dev.updDma_regs (d : Dev) (c : Nat) (f : DmaCh → DmaCh) : (d.updDma c f).regs = d.regs := rfl
@[simp] theorem Dev.updDma_stat (d : Dev) (c : Nat) (f : DmaCh → DmaCh) : (d.updDma c f).stat = d.stat := rfl
@[simp] theorem Dev.updDma_ident (d : Dev) (c : Nat) (f : DmaCh → DmaCh) : (d.updDma c f).ident = d.ident := rfl
@[simp] theorem Dev.updDma_sup (d : Dev) (c : Nat) (f : DmaCh → DmaCh) : (d.updDma c f).sup = d.sup := rfl
@[simp] theorem Dev.updDma_rails (d : Dev) (c : Nat) (f : DmaCh → DmaCh) : (d.updDma c f).rails = d.rails := rfl
@[simp] theorem Dev.updDma_units (d : Dev) (c : Nat) (f : DmaCh → DmaCh) : (d.updDma c f).units = d.units := rfl
@[simp] theorem Dev.updDma_clusters (d : Dev) (c : Nat) (f : DmaCh → DmaCh) : (d.updDma c f).clusters = d.clusters := rfl
@[simp] theorem Dev.updDma_runs (d : Dev) (c : Nat) (f : DmaCh → DmaCh) : (d.updDma c f).runs = d.runs := rfl
@[simp] theorem Dev.updDma_inj (d : Dev) (c : Nat) (f : DmaCh → DmaCh) : (d.updDma c f).inj = d.inj := rfl
@[simp] theorem Dev.updDma_cap (d : Dev) (c : Nat) (f : DmaCh → DmaCh) : (d.updDma c f).cap = d.cap := rfl
@[simp] theorem Dev.updDma_sram (d : Dev) (c : Nat) (f : DmaCh → DmaCh) : (d.updDma c f).sram = d.sram := rfl
@[simp] theorem Dev.updDma_sramA (d : Dev) (c : Nat) (f : DmaCh → DmaCh) : (d.updDma c f).sramA = d.sramA := rfl
@[simp] theorem Dev.updDma_sramB (d : Dev) (c : Nat) (f : DmaCh → DmaCh) : (d.updDma c f).sramB = d.sramB := rfl
@[simp] theorem Dev.updDma_sramS (d : Dev) (c : Nat) (f : DmaCh → DmaCh) : (d.updDma c f).sramS = d.sramS := rfl
@[simp] theorem Dev.updDma_live (d : Dev) (c : Nat) (f : DmaCh → DmaCh) : (d.updDma c f).live = d.live := rfl
@[simp] theorem Dev.updDma_sense (d : Dev) (c : Nat) (f : DmaCh → DmaCh) : (d.updDma c f).sense = d.sense := rfl
@[simp] theorem Dev.updDma_adm (d : Dev) (c : Nat) (f : DmaCh → DmaCh) : (d.updDma c f).adm = d.adm := rfl
@[simp] theorem Dev.updDma_twin (d : Dev) (c : Nat) (f : DmaCh → DmaCh) : (d.updDma c f).twin = d.twin := rfl
@[simp] theorem Dev.updDma_jrn (d : Dev) (c : Nat) (f : DmaCh → DmaCh) : (d.updDma c f).jrn = d.jrn := rfl
@[simp] theorem Dev.updDma_nv (d : Dev) (c : Nat) (f : DmaCh → DmaCh) : (d.updDma c f).nv = d.nv := rfl
@[simp] theorem Dev.updDma_peat (d : Dev) (c : Nat) (f : DmaCh → DmaCh) : (d.updDma c f).peat = d.peat := rfl
@[simp] theorem Dev.updDma_crust (d : Dev) (c : Nat) (f : DmaCh → DmaCh) : (d.updDma c f).crust = d.crust := rfl
@[simp] theorem Dev.updDma_feedA (d : Dev) (c : Nat) (f : DmaCh → DmaCh) : (d.updDma c f).feedA = d.feedA := rfl
@[simp] theorem Dev.updDma_feedB (d : Dev) (c : Nat) (f : DmaCh → DmaCh) : (d.updDma c f).feedB = d.feedB := rfl
@[simp] theorem Dev.updDma_xfer (d : Dev) (c : Nat) (f : DmaCh → DmaCh) : (d.updDma c f).xfer = d.xfer := rfl
@[simp] theorem Dev.updDma_hs (d : Dev) (c : Nat) (f : DmaCh → DmaCh) : (d.updDma c f).hs = d.hs := rfl
@[simp] theorem Dev.updDma_fh (d : Dev) (c : Nat) (f : DmaCh → DmaCh) : (d.updDma c f).fh = d.fh := rfl
@[simp] theorem Dev.updDma_bbus (d : Dev) (c : Nat) (f : DmaCh → DmaCh) : (d.updDma c f).bbus = d.bbus := rfl
@[simp] theorem Dev.updDma_therm (d : Dev) (c : Nat) (f : DmaCh → DmaCh) : (d.updDma c f).therm = d.therm := rfl
@[simp] theorem Dev.updDma_twT (d : Dev) (c : Nat) (f : DmaCh → DmaCh) : (d.updDma c f).twT = d.twT := rfl
@[simp] theorem Dev.updDma_twC (d : Dev) (c : Nat) (f : DmaCh → DmaCh) : (d.updDma c f).twC = d.twC := rfl
@[simp] theorem Dev.updDma_upd (d : Dev) (c : Nat) (f : DmaCh → DmaCh) : (d.updDma c f).upd = d.upd := rfl
@[simp] theorem Dev.updDma_mie (d : Dev) (c : Nat) (f : DmaCh → DmaCh) : (d.updDma c f).mie = d.mie := rfl
@[simp] theorem Dev.updDma_dma (d : Dev) (c : Nat) (f : DmaCh → DmaCh) :
    (d.updDma c f).dma = updAt d.dma c f := rfl

@[simp] theorem Dev.updLed_time (d : Dev) (f : Ledger → Ledger) : (d.updLed f).time = d.time := rfl
@[simp] theorem Dev.updLed_sched (d : Dev) (f : Ledger → Ledger) : (d.updLed f).sched = d.sched := rfl
@[simp] theorem Dev.updLed_die (d : Dev) (f : Ledger → Ledger) : (d.updLed f).die = d.die := rfl
@[simp] theorem Dev.updLed_regs (d : Dev) (f : Ledger → Ledger) : (d.updLed f).regs = d.regs := rfl
@[simp] theorem Dev.updLed_stat (d : Dev) (f : Ledger → Ledger) : (d.updLed f).stat = d.stat := rfl
@[simp] theorem Dev.updLed_ident (d : Dev) (f : Ledger → Ledger) : (d.updLed f).ident = d.ident := rfl
@[simp] theorem Dev.updLed_sup (d : Dev) (f : Ledger → Ledger) : (d.updLed f).sup = d.sup := rfl
@[simp] theorem Dev.updLed_rails (d : Dev) (f : Ledger → Ledger) : (d.updLed f).rails = d.rails := rfl
@[simp] theorem Dev.updLed_units (d : Dev) (f : Ledger → Ledger) : (d.updLed f).units = d.units := rfl
@[simp] theorem Dev.updLed_clusters (d : Dev) (f : Ledger → Ledger) : (d.updLed f).clusters = d.clusters := rfl
@[simp] theorem Dev.updLed_runs (d : Dev) (f : Ledger → Ledger) : (d.updLed f).runs = d.runs := rfl
@[simp] theorem Dev.updLed_inj (d : Dev) (f : Ledger → Ledger) : (d.updLed f).inj = d.inj := rfl
@[simp] theorem Dev.updLed_cap (d : Dev) (f : Ledger → Ledger) : (d.updLed f).cap = d.cap := rfl
@[simp] theorem Dev.updLed_sram (d : Dev) (f : Ledger → Ledger) : (d.updLed f).sram = d.sram := rfl
@[simp] theorem Dev.updLed_sramA (d : Dev) (f : Ledger → Ledger) : (d.updLed f).sramA = d.sramA := rfl
@[simp] theorem Dev.updLed_sramB (d : Dev) (f : Ledger → Ledger) : (d.updLed f).sramB = d.sramB := rfl
@[simp] theorem Dev.updLed_sramS (d : Dev) (f : Ledger → Ledger) : (d.updLed f).sramS = d.sramS := rfl
@[simp] theorem Dev.updLed_live (d : Dev) (f : Ledger → Ledger) : (d.updLed f).live = d.live := rfl
@[simp] theorem Dev.updLed_sense (d : Dev) (f : Ledger → Ledger) : (d.updLed f).sense = d.sense := rfl
@[simp] theorem Dev.updLed_adm (d : Dev) (f : Ledger → Ledger) :
    (d.updLed f).adm = { d.adm with led := f d.adm.led } := rfl
@[simp] theorem Dev.updLed_twin (d : Dev) (f : Ledger → Ledger) : (d.updLed f).twin = d.twin := rfl
@[simp] theorem Dev.updLed_jrn (d : Dev) (f : Ledger → Ledger) : (d.updLed f).jrn = d.jrn := rfl
@[simp] theorem Dev.updLed_nv (d : Dev) (f : Ledger → Ledger) : (d.updLed f).nv = d.nv := rfl
@[simp] theorem Dev.updLed_peat (d : Dev) (f : Ledger → Ledger) : (d.updLed f).peat = d.peat := rfl
@[simp] theorem Dev.updLed_crust (d : Dev) (f : Ledger → Ledger) : (d.updLed f).crust = d.crust := rfl
@[simp] theorem Dev.updLed_feedA (d : Dev) (f : Ledger → Ledger) : (d.updLed f).feedA = d.feedA := rfl
@[simp] theorem Dev.updLed_feedB (d : Dev) (f : Ledger → Ledger) : (d.updLed f).feedB = d.feedB := rfl
@[simp] theorem Dev.updLed_xfer (d : Dev) (f : Ledger → Ledger) : (d.updLed f).xfer = d.xfer := rfl
@[simp] theorem Dev.updLed_hs (d : Dev) (f : Ledger → Ledger) : (d.updLed f).hs = d.hs := rfl
@[simp] theorem Dev.updLed_fh (d : Dev) (f : Ledger → Ledger) : (d.updLed f).fh = d.fh := rfl
@[simp] theorem Dev.updLed_bbus (d : Dev) (f : Ledger → Ledger) : (d.updLed f).bbus = d.bbus := rfl
@[simp] theorem Dev.updLed_therm (d : Dev) (f : Ledger → Ledger) : (d.updLed f).therm = d.therm := rfl
@[simp] theorem Dev.updLed_twT (d : Dev) (f : Ledger → Ledger) : (d.updLed f).twT = d.twT := rfl
@[simp] theorem Dev.updLed_twC (d : Dev) (f : Ledger → Ledger) : (d.updLed f).twC = d.twC := rfl
@[simp] theorem Dev.updLed_upd (d : Dev) (f : Ledger → Ledger) : (d.updLed f).upd = d.upd := rfl
@[simp] theorem Dev.updLed_mie (d : Dev) (f : Ledger → Ledger) : (d.updLed f).mie = d.mie := rfl
@[simp] theorem Dev.updLed_dma (d : Dev) (f : Ledger → Ledger) : (d.updLed f).dma = d.dma := rfl

@[simp] theorem Dev.updPort_time (d : Dev) (n : Nat) (f : StepPort → StepPort) : (d.updPort n f).time = d.time := rfl
@[simp] theorem Dev.updPort_sched (d : Dev) (n : Nat) (f : StepPort → StepPort) : (d.updPort n f).sched = d.sched := rfl
@[simp] theorem Dev.updPort_die (d : Dev) (n : Nat) (f : StepPort → StepPort) : (d.updPort n f).die = d.die := rfl
@[simp] theorem Dev.updPort_regs (d : Dev) (n : Nat) (f : StepPort → StepPort) : (d.updPort n f).regs = d.regs := rfl
@[simp] theorem Dev.updPort_stat (d : Dev) (n : Nat) (f : StepPort → StepPort) : (d.updPort n f).stat = d.stat := rfl
@[simp] theorem Dev.updPort_ident (d : Dev) (n : Nat) (f : StepPort → StepPort) : (d.updPort n f).ident = d.ident := rfl
@[simp] theorem Dev.updPort_sup (d : Dev) (n : Nat) (f : StepPort → StepPort) : (d.updPort n f).sup = d.sup := rfl
@[simp] theorem Dev.updPort_rails (d : Dev) (n : Nat) (f : StepPort → StepPort) : (d.updPort n f).rails = d.rails := rfl
@[simp] theorem Dev.updPort_units (d : Dev) (n : Nat) (f : StepPort → StepPort) : (d.updPort n f).units = d.units := rfl
@[simp] theorem Dev.updPort_clusters (d : Dev) (n : Nat) (f : StepPort → StepPort) : (d.updPort n f).clusters = d.clusters := rfl
@[simp] theorem Dev.updPort_runs (d : Dev) (n : Nat) (f : StepPort → StepPort) : (d.updPort n f).runs = d.runs := rfl
@[simp] theorem Dev.updPort_inj (d : Dev) (n : Nat) (f : StepPort → StepPort) : (d.updPort n f).inj = d.inj := rfl
@[simp] theorem Dev.updPort_cap (d : Dev) (n : Nat) (f : StepPort → StepPort) : (d.updPort n f).cap = d.cap := rfl
@[simp] theorem Dev.updPort_sram (d : Dev) (n : Nat) (f : StepPort → StepPort) : (d.updPort n f).sram = d.sram := rfl
@[simp] theorem Dev.updPort_sramA (d : Dev) (n : Nat) (f : StepPort → StepPort) : (d.updPort n f).sramA = d.sramA := rfl
@[simp] theorem Dev.updPort_sramB (d : Dev) (n : Nat) (f : StepPort → StepPort) : (d.updPort n f).sramB = d.sramB := rfl
@[simp] theorem Dev.updPort_sramS (d : Dev) (n : Nat) (f : StepPort → StepPort) : (d.updPort n f).sramS = d.sramS := rfl
@[simp] theorem Dev.updPort_live (d : Dev) (n : Nat) (f : StepPort → StepPort) : (d.updPort n f).live = d.live := rfl
@[simp] theorem Dev.updPort_sense (d : Dev) (n : Nat) (f : StepPort → StepPort) : (d.updPort n f).sense = d.sense := rfl
@[simp] theorem Dev.updPort_adm (d : Dev) (n : Nat) (f : StepPort → StepPort) :
    (d.updPort n f).adm = { d.adm with ports := updAt d.adm.ports n f } := rfl
@[simp] theorem Dev.updPort_twin (d : Dev) (n : Nat) (f : StepPort → StepPort) : (d.updPort n f).twin = d.twin := rfl
@[simp] theorem Dev.updPort_jrn (d : Dev) (n : Nat) (f : StepPort → StepPort) : (d.updPort n f).jrn = d.jrn := rfl
@[simp] theorem Dev.updPort_nv (d : Dev) (n : Nat) (f : StepPort → StepPort) : (d.updPort n f).nv = d.nv := rfl
@[simp] theorem Dev.updPort_peat (d : Dev) (n : Nat) (f : StepPort → StepPort) : (d.updPort n f).peat = d.peat := rfl
@[simp] theorem Dev.updPort_crust (d : Dev) (n : Nat) (f : StepPort → StepPort) : (d.updPort n f).crust = d.crust := rfl
@[simp] theorem Dev.updPort_feedA (d : Dev) (n : Nat) (f : StepPort → StepPort) : (d.updPort n f).feedA = d.feedA := rfl
@[simp] theorem Dev.updPort_feedB (d : Dev) (n : Nat) (f : StepPort → StepPort) : (d.updPort n f).feedB = d.feedB := rfl
@[simp] theorem Dev.updPort_xfer (d : Dev) (n : Nat) (f : StepPort → StepPort) : (d.updPort n f).xfer = d.xfer := rfl
@[simp] theorem Dev.updPort_hs (d : Dev) (n : Nat) (f : StepPort → StepPort) : (d.updPort n f).hs = d.hs := rfl
@[simp] theorem Dev.updPort_fh (d : Dev) (n : Nat) (f : StepPort → StepPort) : (d.updPort n f).fh = d.fh := rfl
@[simp] theorem Dev.updPort_bbus (d : Dev) (n : Nat) (f : StepPort → StepPort) : (d.updPort n f).bbus = d.bbus := rfl
@[simp] theorem Dev.updPort_therm (d : Dev) (n : Nat) (f : StepPort → StepPort) : (d.updPort n f).therm = d.therm := rfl
@[simp] theorem Dev.updPort_twT (d : Dev) (n : Nat) (f : StepPort → StepPort) : (d.updPort n f).twT = d.twT := rfl
@[simp] theorem Dev.updPort_twC (d : Dev) (n : Nat) (f : StepPort → StepPort) : (d.updPort n f).twC = d.twC := rfl
@[simp] theorem Dev.updPort_upd (d : Dev) (n : Nat) (f : StepPort → StepPort) : (d.updPort n f).upd = d.upd := rfl
@[simp] theorem Dev.updPort_mie (d : Dev) (n : Nat) (f : StepPort → StepPort) : (d.updPort n f).mie = d.mie := rfl
@[simp] theorem Dev.updPort_dma (d : Dev) (n : Nat) (f : StepPort → StepPort) : (d.updPort n f).dma = d.dma := rfl

@[simp] theorem Dev.updLoad_time (d : Dev) (i : Nat) (f : Load → Load) : (d.updLoad i f).time = d.time := rfl
@[simp] theorem Dev.updLoad_sched (d : Dev) (i : Nat) (f : Load → Load) : (d.updLoad i f).sched = d.sched := rfl
@[simp] theorem Dev.updLoad_die (d : Dev) (i : Nat) (f : Load → Load) : (d.updLoad i f).die = d.die := rfl
@[simp] theorem Dev.updLoad_regs (d : Dev) (i : Nat) (f : Load → Load) : (d.updLoad i f).regs = d.regs := rfl
@[simp] theorem Dev.updLoad_stat (d : Dev) (i : Nat) (f : Load → Load) : (d.updLoad i f).stat = d.stat := rfl
@[simp] theorem Dev.updLoad_ident (d : Dev) (i : Nat) (f : Load → Load) : (d.updLoad i f).ident = d.ident := rfl
@[simp] theorem Dev.updLoad_sup (d : Dev) (i : Nat) (f : Load → Load) : (d.updLoad i f).sup = d.sup := rfl
@[simp] theorem Dev.updLoad_rails (d : Dev) (i : Nat) (f : Load → Load) : (d.updLoad i f).rails = d.rails := rfl
@[simp] theorem Dev.updLoad_units (d : Dev) (i : Nat) (f : Load → Load) : (d.updLoad i f).units = d.units := rfl
@[simp] theorem Dev.updLoad_clusters (d : Dev) (i : Nat) (f : Load → Load) : (d.updLoad i f).clusters = d.clusters := rfl
@[simp] theorem Dev.updLoad_runs (d : Dev) (i : Nat) (f : Load → Load) : (d.updLoad i f).runs = d.runs := rfl
@[simp] theorem Dev.updLoad_inj (d : Dev) (i : Nat) (f : Load → Load) : (d.updLoad i f).inj = d.inj := rfl
@[simp] theorem Dev.updLoad_cap (d : Dev) (i : Nat) (f : Load → Load) : (d.updLoad i f).cap = d.cap := rfl
@[simp] theorem Dev.updLoad_sram (d : Dev) (i : Nat) (f : Load → Load) : (d.updLoad i f).sram = d.sram := rfl
@[simp] theorem Dev.updLoad_sramA (d : Dev) (i : Nat) (f : Load → Load) : (d.updLoad i f).sramA = d.sramA := rfl
@[simp] theorem Dev.updLoad_sramB (d : Dev) (i : Nat) (f : Load → Load) : (d.updLoad i f).sramB = d.sramB := rfl
@[simp] theorem Dev.updLoad_sramS (d : Dev) (i : Nat) (f : Load → Load) : (d.updLoad i f).sramS = d.sramS := rfl
@[simp] theorem Dev.updLoad_live (d : Dev) (i : Nat) (f : Load → Load) : (d.updLoad i f).live = d.live := rfl
@[simp] theorem Dev.updLoad_sense (d : Dev) (i : Nat) (f : Load → Load) : (d.updLoad i f).sense = d.sense := rfl
@[simp] theorem Dev.updLoad_adm (d : Dev) (i : Nat) (f : Load → Load) :
    (d.updLoad i f).adm = { d.adm with loads := updAt d.adm.loads i f } := rfl
@[simp] theorem Dev.updLoad_twin (d : Dev) (i : Nat) (f : Load → Load) : (d.updLoad i f).twin = d.twin := rfl
@[simp] theorem Dev.updLoad_jrn (d : Dev) (i : Nat) (f : Load → Load) : (d.updLoad i f).jrn = d.jrn := rfl
@[simp] theorem Dev.updLoad_nv (d : Dev) (i : Nat) (f : Load → Load) : (d.updLoad i f).nv = d.nv := rfl
@[simp] theorem Dev.updLoad_peat (d : Dev) (i : Nat) (f : Load → Load) : (d.updLoad i f).peat = d.peat := rfl
@[simp] theorem Dev.updLoad_crust (d : Dev) (i : Nat) (f : Load → Load) : (d.updLoad i f).crust = d.crust := rfl
@[simp] theorem Dev.updLoad_feedA (d : Dev) (i : Nat) (f : Load → Load) : (d.updLoad i f).feedA = d.feedA := rfl
@[simp] theorem Dev.updLoad_feedB (d : Dev) (i : Nat) (f : Load → Load) : (d.updLoad i f).feedB = d.feedB := rfl
@[simp] theorem Dev.updLoad_xfer (d : Dev) (i : Nat) (f : Load → Load) : (d.updLoad i f).xfer = d.xfer := rfl
@[simp] theorem Dev.updLoad_hs (d : Dev) (i : Nat) (f : Load → Load) : (d.updLoad i f).hs = d.hs := rfl
@[simp] theorem Dev.updLoad_fh (d : Dev) (i : Nat) (f : Load → Load) : (d.updLoad i f).fh = d.fh := rfl
@[simp] theorem Dev.updLoad_bbus (d : Dev) (i : Nat) (f : Load → Load) : (d.updLoad i f).bbus = d.bbus := rfl
@[simp] theorem Dev.updLoad_therm (d : Dev) (i : Nat) (f : Load → Load) : (d.updLoad i f).therm = d.therm := rfl
@[simp] theorem Dev.updLoad_twT (d : Dev) (i : Nat) (f : Load → Load) : (d.updLoad i f).twT = d.twT := rfl
@[simp] theorem Dev.updLoad_twC (d : Dev) (i : Nat) (f : Load → Load) : (d.updLoad i f).twC = d.twC := rfl
@[simp] theorem Dev.updLoad_upd (d : Dev) (i : Nat) (f : Load → Load) : (d.updLoad i f).upd = d.upd := rfl
@[simp] theorem Dev.updLoad_mie (d : Dev) (i : Nat) (f : Load → Load) : (d.updLoad i f).mie = d.mie := rfl
@[simp] theorem Dev.updLoad_dma (d : Dev) (i : Nat) (f : Load → Load) : (d.updLoad i f).dma = d.dma := rfl

@[simp] theorem Dev.updRail_time (d : Dev) (r : Nat) (f : Rail → Rail) : (d.updRail r f).time = d.time := rfl
@[simp] theorem Dev.updRail_sched (d : Dev) (r : Nat) (f : Rail → Rail) : (d.updRail r f).sched = d.sched := rfl
@[simp] theorem Dev.updRail_die (d : Dev) (r : Nat) (f : Rail → Rail) : (d.updRail r f).die = d.die := rfl
@[simp] theorem Dev.updRail_regs (d : Dev) (r : Nat) (f : Rail → Rail) : (d.updRail r f).regs = d.regs := rfl
@[simp] theorem Dev.updRail_stat (d : Dev) (r : Nat) (f : Rail → Rail) : (d.updRail r f).stat = d.stat := rfl
@[simp] theorem Dev.updRail_ident (d : Dev) (r : Nat) (f : Rail → Rail) : (d.updRail r f).ident = d.ident := rfl
@[simp] theorem Dev.updRail_sup (d : Dev) (r : Nat) (f : Rail → Rail) : (d.updRail r f).sup = d.sup := rfl
@[simp] theorem Dev.updRail_rails (d : Dev) (r : Nat) (f : Rail → Rail) :
    (d.updRail r f).rails = updAt d.rails r f := rfl
@[simp] theorem Dev.updRail_units (d : Dev) (r : Nat) (f : Rail → Rail) : (d.updRail r f).units = d.units := rfl
@[simp] theorem Dev.updRail_clusters (d : Dev) (r : Nat) (f : Rail → Rail) : (d.updRail r f).clusters = d.clusters := rfl
@[simp] theorem Dev.updRail_runs (d : Dev) (r : Nat) (f : Rail → Rail) : (d.updRail r f).runs = d.runs := rfl
@[simp] theorem Dev.updRail_inj (d : Dev) (r : Nat) (f : Rail → Rail) : (d.updRail r f).inj = d.inj := rfl
@[simp] theorem Dev.updRail_cap (d : Dev) (r : Nat) (f : Rail → Rail) : (d.updRail r f).cap = d.cap := rfl
@[simp] theorem Dev.updRail_sram (d : Dev) (r : Nat) (f : Rail → Rail) : (d.updRail r f).sram = d.sram := rfl
@[simp] theorem Dev.updRail_sramA (d : Dev) (r : Nat) (f : Rail → Rail) : (d.updRail r f).sramA = d.sramA := rfl
@[simp] theorem Dev.updRail_sramB (d : Dev) (r : Nat) (f : Rail → Rail) : (d.updRail r f).sramB = d.sramB := rfl
@[simp] theorem Dev.updRail_sramS (d : Dev) (r : Nat) (f : Rail → Rail) : (d.updRail r f).sramS = d.sramS := rfl
@[simp] theorem Dev.updRail_live (d : Dev) (r : Nat) (f : Rail → Rail) : (d.updRail r f).live = d.live := rfl
@[simp] theorem Dev.updRail_sense (d : Dev) (r : Nat) (f : Rail → Rail) : (d.updRail r f).sense = d.sense := rfl
@[simp] theorem Dev.updRail_adm (d : Dev) (r : Nat) (f : Rail → Rail) : (d.updRail r f).adm = d.adm := rfl
@[simp] theorem Dev.updRail_twin (d : Dev) (r : Nat) (f : Rail → Rail) : (d.updRail r f).twin = d.twin := rfl
@[simp] theorem Dev.updRail_jrn (d : Dev) (r : Nat) (f : Rail → Rail) : (d.updRail r f).jrn = d.jrn := rfl
@[simp] theorem Dev.updRail_nv (d : Dev) (r : Nat) (f : Rail → Rail) : (d.updRail r f).nv = d.nv := rfl
@[simp] theorem Dev.updRail_peat (d : Dev) (r : Nat) (f : Rail → Rail) : (d.updRail r f).peat = d.peat := rfl
@[simp] theorem Dev.updRail_crust (d : Dev) (r : Nat) (f : Rail → Rail) : (d.updRail r f).crust = d.crust := rfl
@[simp] theorem Dev.updRail_feedA (d : Dev) (r : Nat) (f : Rail → Rail) : (d.updRail r f).feedA = d.feedA := rfl
@[simp] theorem Dev.updRail_feedB (d : Dev) (r : Nat) (f : Rail → Rail) : (d.updRail r f).feedB = d.feedB := rfl
@[simp] theorem Dev.updRail_xfer (d : Dev) (r : Nat) (f : Rail → Rail) : (d.updRail r f).xfer = d.xfer := rfl
@[simp] theorem Dev.updRail_hs (d : Dev) (r : Nat) (f : Rail → Rail) : (d.updRail r f).hs = d.hs := rfl
@[simp] theorem Dev.updRail_fh (d : Dev) (r : Nat) (f : Rail → Rail) : (d.updRail r f).fh = d.fh := rfl
@[simp] theorem Dev.updRail_bbus (d : Dev) (r : Nat) (f : Rail → Rail) : (d.updRail r f).bbus = d.bbus := rfl
@[simp] theorem Dev.updRail_therm (d : Dev) (r : Nat) (f : Rail → Rail) : (d.updRail r f).therm = d.therm := rfl
@[simp] theorem Dev.updRail_twT (d : Dev) (r : Nat) (f : Rail → Rail) : (d.updRail r f).twT = d.twT := rfl
@[simp] theorem Dev.updRail_twC (d : Dev) (r : Nat) (f : Rail → Rail) : (d.updRail r f).twC = d.twC := rfl
@[simp] theorem Dev.updRail_upd (d : Dev) (r : Nat) (f : Rail → Rail) : (d.updRail r f).upd = d.upd := rfl
@[simp] theorem Dev.updRail_mie (d : Dev) (r : Nat) (f : Rail → Rail) : (d.updRail r f).mie = d.mie := rfl
@[simp] theorem Dev.updRail_dma (d : Dev) (r : Nat) (f : Rail → Rail) : (d.updRail r f).dma = d.dma := rfl

@[simp] theorem Dev.updUnit_time (d : Dev) (n : Nat) (f : PhUnit → PhUnit) : (d.updUnit n f).time = d.time := rfl
@[simp] theorem Dev.updUnit_sched (d : Dev) (n : Nat) (f : PhUnit → PhUnit) : (d.updUnit n f).sched = d.sched := rfl
@[simp] theorem Dev.updUnit_die (d : Dev) (n : Nat) (f : PhUnit → PhUnit) : (d.updUnit n f).die = d.die := rfl
@[simp] theorem Dev.updUnit_regs (d : Dev) (n : Nat) (f : PhUnit → PhUnit) : (d.updUnit n f).regs = d.regs := rfl
@[simp] theorem Dev.updUnit_stat (d : Dev) (n : Nat) (f : PhUnit → PhUnit) : (d.updUnit n f).stat = d.stat := rfl
@[simp] theorem Dev.updUnit_ident (d : Dev) (n : Nat) (f : PhUnit → PhUnit) : (d.updUnit n f).ident = d.ident := rfl
@[simp] theorem Dev.updUnit_sup (d : Dev) (n : Nat) (f : PhUnit → PhUnit) : (d.updUnit n f).sup = d.sup := rfl
@[simp] theorem Dev.updUnit_rails (d : Dev) (n : Nat) (f : PhUnit → PhUnit) : (d.updUnit n f).rails = d.rails := rfl
@[simp] theorem Dev.updUnit_units (d : Dev) (n : Nat) (f : PhUnit → PhUnit) :
    (d.updUnit n f).units = updAt d.units n f := rfl
@[simp] theorem Dev.updUnit_clusters (d : Dev) (n : Nat) (f : PhUnit → PhUnit) : (d.updUnit n f).clusters = d.clusters := rfl
@[simp] theorem Dev.updUnit_runs (d : Dev) (n : Nat) (f : PhUnit → PhUnit) : (d.updUnit n f).runs = d.runs := rfl
@[simp] theorem Dev.updUnit_inj (d : Dev) (n : Nat) (f : PhUnit → PhUnit) : (d.updUnit n f).inj = d.inj := rfl
@[simp] theorem Dev.updUnit_cap (d : Dev) (n : Nat) (f : PhUnit → PhUnit) : (d.updUnit n f).cap = d.cap := rfl
@[simp] theorem Dev.updUnit_sram (d : Dev) (n : Nat) (f : PhUnit → PhUnit) : (d.updUnit n f).sram = d.sram := rfl
@[simp] theorem Dev.updUnit_sramA (d : Dev) (n : Nat) (f : PhUnit → PhUnit) : (d.updUnit n f).sramA = d.sramA := rfl
@[simp] theorem Dev.updUnit_sramB (d : Dev) (n : Nat) (f : PhUnit → PhUnit) : (d.updUnit n f).sramB = d.sramB := rfl
@[simp] theorem Dev.updUnit_sramS (d : Dev) (n : Nat) (f : PhUnit → PhUnit) : (d.updUnit n f).sramS = d.sramS := rfl
@[simp] theorem Dev.updUnit_live (d : Dev) (n : Nat) (f : PhUnit → PhUnit) : (d.updUnit n f).live = d.live := rfl
@[simp] theorem Dev.updUnit_sense (d : Dev) (n : Nat) (f : PhUnit → PhUnit) : (d.updUnit n f).sense = d.sense := rfl
@[simp] theorem Dev.updUnit_adm (d : Dev) (n : Nat) (f : PhUnit → PhUnit) : (d.updUnit n f).adm = d.adm := rfl
@[simp] theorem Dev.updUnit_twin (d : Dev) (n : Nat) (f : PhUnit → PhUnit) : (d.updUnit n f).twin = d.twin := rfl
@[simp] theorem Dev.updUnit_jrn (d : Dev) (n : Nat) (f : PhUnit → PhUnit) : (d.updUnit n f).jrn = d.jrn := rfl
@[simp] theorem Dev.updUnit_nv (d : Dev) (n : Nat) (f : PhUnit → PhUnit) : (d.updUnit n f).nv = d.nv := rfl
@[simp] theorem Dev.updUnit_peat (d : Dev) (n : Nat) (f : PhUnit → PhUnit) : (d.updUnit n f).peat = d.peat := rfl
@[simp] theorem Dev.updUnit_crust (d : Dev) (n : Nat) (f : PhUnit → PhUnit) : (d.updUnit n f).crust = d.crust := rfl
@[simp] theorem Dev.updUnit_feedA (d : Dev) (n : Nat) (f : PhUnit → PhUnit) : (d.updUnit n f).feedA = d.feedA := rfl
@[simp] theorem Dev.updUnit_feedB (d : Dev) (n : Nat) (f : PhUnit → PhUnit) : (d.updUnit n f).feedB = d.feedB := rfl
@[simp] theorem Dev.updUnit_xfer (d : Dev) (n : Nat) (f : PhUnit → PhUnit) : (d.updUnit n f).xfer = d.xfer := rfl
@[simp] theorem Dev.updUnit_hs (d : Dev) (n : Nat) (f : PhUnit → PhUnit) : (d.updUnit n f).hs = d.hs := rfl
@[simp] theorem Dev.updUnit_fh (d : Dev) (n : Nat) (f : PhUnit → PhUnit) : (d.updUnit n f).fh = d.fh := rfl
@[simp] theorem Dev.updUnit_bbus (d : Dev) (n : Nat) (f : PhUnit → PhUnit) : (d.updUnit n f).bbus = d.bbus := rfl
@[simp] theorem Dev.updUnit_therm (d : Dev) (n : Nat) (f : PhUnit → PhUnit) : (d.updUnit n f).therm = d.therm := rfl
@[simp] theorem Dev.updUnit_twT (d : Dev) (n : Nat) (f : PhUnit → PhUnit) : (d.updUnit n f).twT = d.twT := rfl
@[simp] theorem Dev.updUnit_twC (d : Dev) (n : Nat) (f : PhUnit → PhUnit) : (d.updUnit n f).twC = d.twC := rfl
@[simp] theorem Dev.updUnit_upd (d : Dev) (n : Nat) (f : PhUnit → PhUnit) : (d.updUnit n f).upd = d.upd := rfl
@[simp] theorem Dev.updUnit_mie (d : Dev) (n : Nat) (f : PhUnit → PhUnit) : (d.updUnit n f).mie = d.mie := rfl
@[simp] theorem Dev.updUnit_dma (d : Dev) (n : Nat) (f : PhUnit → PhUnit) : (d.updUnit n f).dma = d.dma := rfl

@[simp] theorem Dev.updCluster_time (d : Dev) (k : Nat) (f : Cluster → Cluster) : (d.updCluster k f).time = d.time := rfl
@[simp] theorem Dev.updCluster_sched (d : Dev) (k : Nat) (f : Cluster → Cluster) : (d.updCluster k f).sched = d.sched := rfl
@[simp] theorem Dev.updCluster_die (d : Dev) (k : Nat) (f : Cluster → Cluster) : (d.updCluster k f).die = d.die := rfl
@[simp] theorem Dev.updCluster_regs (d : Dev) (k : Nat) (f : Cluster → Cluster) : (d.updCluster k f).regs = d.regs := rfl
@[simp] theorem Dev.updCluster_stat (d : Dev) (k : Nat) (f : Cluster → Cluster) : (d.updCluster k f).stat = d.stat := rfl
@[simp] theorem Dev.updCluster_ident (d : Dev) (k : Nat) (f : Cluster → Cluster) : (d.updCluster k f).ident = d.ident := rfl
@[simp] theorem Dev.updCluster_sup (d : Dev) (k : Nat) (f : Cluster → Cluster) : (d.updCluster k f).sup = d.sup := rfl
@[simp] theorem Dev.updCluster_rails (d : Dev) (k : Nat) (f : Cluster → Cluster) : (d.updCluster k f).rails = d.rails := rfl
@[simp] theorem Dev.updCluster_units (d : Dev) (k : Nat) (f : Cluster → Cluster) : (d.updCluster k f).units = d.units := rfl
@[simp] theorem Dev.updCluster_clusters (d : Dev) (k : Nat) (f : Cluster → Cluster) :
    (d.updCluster k f).clusters = updAt d.clusters k f := rfl
@[simp] theorem Dev.updCluster_runs (d : Dev) (k : Nat) (f : Cluster → Cluster) : (d.updCluster k f).runs = d.runs := rfl
@[simp] theorem Dev.updCluster_inj (d : Dev) (k : Nat) (f : Cluster → Cluster) : (d.updCluster k f).inj = d.inj := rfl
@[simp] theorem Dev.updCluster_cap (d : Dev) (k : Nat) (f : Cluster → Cluster) : (d.updCluster k f).cap = d.cap := rfl
@[simp] theorem Dev.updCluster_sram (d : Dev) (k : Nat) (f : Cluster → Cluster) : (d.updCluster k f).sram = d.sram := rfl
@[simp] theorem Dev.updCluster_sramA (d : Dev) (k : Nat) (f : Cluster → Cluster) : (d.updCluster k f).sramA = d.sramA := rfl
@[simp] theorem Dev.updCluster_sramB (d : Dev) (k : Nat) (f : Cluster → Cluster) : (d.updCluster k f).sramB = d.sramB := rfl
@[simp] theorem Dev.updCluster_sramS (d : Dev) (k : Nat) (f : Cluster → Cluster) : (d.updCluster k f).sramS = d.sramS := rfl
@[simp] theorem Dev.updCluster_live (d : Dev) (k : Nat) (f : Cluster → Cluster) : (d.updCluster k f).live = d.live := rfl
@[simp] theorem Dev.updCluster_sense (d : Dev) (k : Nat) (f : Cluster → Cluster) : (d.updCluster k f).sense = d.sense := rfl
@[simp] theorem Dev.updCluster_adm (d : Dev) (k : Nat) (f : Cluster → Cluster) : (d.updCluster k f).adm = d.adm := rfl
@[simp] theorem Dev.updCluster_twin (d : Dev) (k : Nat) (f : Cluster → Cluster) : (d.updCluster k f).twin = d.twin := rfl
@[simp] theorem Dev.updCluster_jrn (d : Dev) (k : Nat) (f : Cluster → Cluster) : (d.updCluster k f).jrn = d.jrn := rfl
@[simp] theorem Dev.updCluster_nv (d : Dev) (k : Nat) (f : Cluster → Cluster) : (d.updCluster k f).nv = d.nv := rfl
@[simp] theorem Dev.updCluster_peat (d : Dev) (k : Nat) (f : Cluster → Cluster) : (d.updCluster k f).peat = d.peat := rfl
@[simp] theorem Dev.updCluster_crust (d : Dev) (k : Nat) (f : Cluster → Cluster) : (d.updCluster k f).crust = d.crust := rfl
@[simp] theorem Dev.updCluster_feedA (d : Dev) (k : Nat) (f : Cluster → Cluster) : (d.updCluster k f).feedA = d.feedA := rfl
@[simp] theorem Dev.updCluster_feedB (d : Dev) (k : Nat) (f : Cluster → Cluster) : (d.updCluster k f).feedB = d.feedB := rfl
@[simp] theorem Dev.updCluster_xfer (d : Dev) (k : Nat) (f : Cluster → Cluster) : (d.updCluster k f).xfer = d.xfer := rfl
@[simp] theorem Dev.updCluster_hs (d : Dev) (k : Nat) (f : Cluster → Cluster) : (d.updCluster k f).hs = d.hs := rfl
@[simp] theorem Dev.updCluster_fh (d : Dev) (k : Nat) (f : Cluster → Cluster) : (d.updCluster k f).fh = d.fh := rfl
@[simp] theorem Dev.updCluster_bbus (d : Dev) (k : Nat) (f : Cluster → Cluster) : (d.updCluster k f).bbus = d.bbus := rfl
@[simp] theorem Dev.updCluster_therm (d : Dev) (k : Nat) (f : Cluster → Cluster) : (d.updCluster k f).therm = d.therm := rfl
@[simp] theorem Dev.updCluster_twT (d : Dev) (k : Nat) (f : Cluster → Cluster) : (d.updCluster k f).twT = d.twT := rfl
@[simp] theorem Dev.updCluster_twC (d : Dev) (k : Nat) (f : Cluster → Cluster) : (d.updCluster k f).twC = d.twC := rfl
@[simp] theorem Dev.updCluster_upd (d : Dev) (k : Nat) (f : Cluster → Cluster) : (d.updCluster k f).upd = d.upd := rfl
@[simp] theorem Dev.updCluster_mie (d : Dev) (k : Nat) (f : Cluster → Cluster) : (d.updCluster k f).mie = d.mie := rfl
@[simp] theorem Dev.updCluster_dma (d : Dev) (k : Nat) (f : Cluster → Cluster) : (d.updCluster k f).dma = d.dma := rfl

@[simp] theorem Dev.updPeat_time (d : Dev) (f : PeatSt → PeatSt) : (d.updPeat f).time = d.time := rfl
@[simp] theorem Dev.updPeat_sched (d : Dev) (f : PeatSt → PeatSt) : (d.updPeat f).sched = d.sched := rfl
@[simp] theorem Dev.updPeat_die (d : Dev) (f : PeatSt → PeatSt) : (d.updPeat f).die = d.die := rfl
@[simp] theorem Dev.updPeat_regs (d : Dev) (f : PeatSt → PeatSt) : (d.updPeat f).regs = d.regs := rfl
@[simp] theorem Dev.updPeat_stat (d : Dev) (f : PeatSt → PeatSt) : (d.updPeat f).stat = d.stat := rfl
@[simp] theorem Dev.updPeat_ident (d : Dev) (f : PeatSt → PeatSt) : (d.updPeat f).ident = d.ident := rfl
@[simp] theorem Dev.updPeat_sup (d : Dev) (f : PeatSt → PeatSt) : (d.updPeat f).sup = d.sup := rfl
@[simp] theorem Dev.updPeat_rails (d : Dev) (f : PeatSt → PeatSt) : (d.updPeat f).rails = d.rails := rfl
@[simp] theorem Dev.updPeat_units (d : Dev) (f : PeatSt → PeatSt) : (d.updPeat f).units = d.units := rfl
@[simp] theorem Dev.updPeat_clusters (d : Dev) (f : PeatSt → PeatSt) : (d.updPeat f).clusters = d.clusters := rfl
@[simp] theorem Dev.updPeat_runs (d : Dev) (f : PeatSt → PeatSt) : (d.updPeat f).runs = d.runs := rfl
@[simp] theorem Dev.updPeat_inj (d : Dev) (f : PeatSt → PeatSt) : (d.updPeat f).inj = d.inj := rfl
@[simp] theorem Dev.updPeat_cap (d : Dev) (f : PeatSt → PeatSt) : (d.updPeat f).cap = d.cap := rfl
@[simp] theorem Dev.updPeat_sram (d : Dev) (f : PeatSt → PeatSt) : (d.updPeat f).sram = d.sram := rfl
@[simp] theorem Dev.updPeat_sramA (d : Dev) (f : PeatSt → PeatSt) : (d.updPeat f).sramA = d.sramA := rfl
@[simp] theorem Dev.updPeat_sramB (d : Dev) (f : PeatSt → PeatSt) : (d.updPeat f).sramB = d.sramB := rfl
@[simp] theorem Dev.updPeat_sramS (d : Dev) (f : PeatSt → PeatSt) : (d.updPeat f).sramS = d.sramS := rfl
@[simp] theorem Dev.updPeat_live (d : Dev) (f : PeatSt → PeatSt) : (d.updPeat f).live = d.live := rfl
@[simp] theorem Dev.updPeat_sense (d : Dev) (f : PeatSt → PeatSt) : (d.updPeat f).sense = d.sense := rfl
@[simp] theorem Dev.updPeat_adm (d : Dev) (f : PeatSt → PeatSt) : (d.updPeat f).adm = d.adm := rfl
@[simp] theorem Dev.updPeat_twin (d : Dev) (f : PeatSt → PeatSt) : (d.updPeat f).twin = d.twin := rfl
@[simp] theorem Dev.updPeat_jrn (d : Dev) (f : PeatSt → PeatSt) : (d.updPeat f).jrn = d.jrn := rfl
@[simp] theorem Dev.updPeat_nv (d : Dev) (f : PeatSt → PeatSt) : (d.updPeat f).nv = d.nv := rfl
@[simp] theorem Dev.updPeat_peat (d : Dev) (f : PeatSt → PeatSt) :
    (d.updPeat f).peat = f d.peat := rfl
@[simp] theorem Dev.updPeat_crust (d : Dev) (f : PeatSt → PeatSt) : (d.updPeat f).crust = d.crust := rfl
@[simp] theorem Dev.updPeat_feedA (d : Dev) (f : PeatSt → PeatSt) : (d.updPeat f).feedA = d.feedA := rfl
@[simp] theorem Dev.updPeat_feedB (d : Dev) (f : PeatSt → PeatSt) : (d.updPeat f).feedB = d.feedB := rfl
@[simp] theorem Dev.updPeat_xfer (d : Dev) (f : PeatSt → PeatSt) : (d.updPeat f).xfer = d.xfer := rfl
@[simp] theorem Dev.updPeat_hs (d : Dev) (f : PeatSt → PeatSt) : (d.updPeat f).hs = d.hs := rfl
@[simp] theorem Dev.updPeat_fh (d : Dev) (f : PeatSt → PeatSt) : (d.updPeat f).fh = d.fh := rfl
@[simp] theorem Dev.updPeat_bbus (d : Dev) (f : PeatSt → PeatSt) : (d.updPeat f).bbus = d.bbus := rfl
@[simp] theorem Dev.updPeat_therm (d : Dev) (f : PeatSt → PeatSt) : (d.updPeat f).therm = d.therm := rfl
@[simp] theorem Dev.updPeat_twT (d : Dev) (f : PeatSt → PeatSt) : (d.updPeat f).twT = d.twT := rfl
@[simp] theorem Dev.updPeat_twC (d : Dev) (f : PeatSt → PeatSt) : (d.updPeat f).twC = d.twC := rfl
@[simp] theorem Dev.updPeat_upd (d : Dev) (f : PeatSt → PeatSt) : (d.updPeat f).upd = d.upd := rfl
@[simp] theorem Dev.updPeat_mie (d : Dev) (f : PeatSt → PeatSt) : (d.updPeat f).mie = d.mie := rfl
@[simp] theorem Dev.updPeat_dma (d : Dev) (f : PeatSt → PeatSt) : (d.updPeat f).dma = d.dma := rfl

@[simp] theorem Dev.updHs_time (d : Dev) (r : Nat) (f : HotSwap → HotSwap) : (d.updHs r f).time = d.time := rfl
@[simp] theorem Dev.updHs_sched (d : Dev) (r : Nat) (f : HotSwap → HotSwap) : (d.updHs r f).sched = d.sched := rfl
@[simp] theorem Dev.updHs_die (d : Dev) (r : Nat) (f : HotSwap → HotSwap) : (d.updHs r f).die = d.die := rfl
@[simp] theorem Dev.updHs_regs (d : Dev) (r : Nat) (f : HotSwap → HotSwap) : (d.updHs r f).regs = d.regs := rfl
@[simp] theorem Dev.updHs_stat (d : Dev) (r : Nat) (f : HotSwap → HotSwap) : (d.updHs r f).stat = d.stat := rfl
@[simp] theorem Dev.updHs_ident (d : Dev) (r : Nat) (f : HotSwap → HotSwap) : (d.updHs r f).ident = d.ident := rfl
@[simp] theorem Dev.updHs_sup (d : Dev) (r : Nat) (f : HotSwap → HotSwap) : (d.updHs r f).sup = d.sup := rfl
@[simp] theorem Dev.updHs_rails (d : Dev) (r : Nat) (f : HotSwap → HotSwap) : (d.updHs r f).rails = d.rails := rfl
@[simp] theorem Dev.updHs_units (d : Dev) (r : Nat) (f : HotSwap → HotSwap) : (d.updHs r f).units = d.units := rfl
@[simp] theorem Dev.updHs_clusters (d : Dev) (r : Nat) (f : HotSwap → HotSwap) : (d.updHs r f).clusters = d.clusters := rfl
@[simp] theorem Dev.updHs_runs (d : Dev) (r : Nat) (f : HotSwap → HotSwap) : (d.updHs r f).runs = d.runs := rfl
@[simp] theorem Dev.updHs_inj (d : Dev) (r : Nat) (f : HotSwap → HotSwap) : (d.updHs r f).inj = d.inj := rfl
@[simp] theorem Dev.updHs_cap (d : Dev) (r : Nat) (f : HotSwap → HotSwap) : (d.updHs r f).cap = d.cap := rfl
@[simp] theorem Dev.updHs_sram (d : Dev) (r : Nat) (f : HotSwap → HotSwap) : (d.updHs r f).sram = d.sram := rfl
@[simp] theorem Dev.updHs_sramA (d : Dev) (r : Nat) (f : HotSwap → HotSwap) : (d.updHs r f).sramA = d.sramA := rfl
@[simp] theorem Dev.updHs_sramB (d : Dev) (r : Nat) (f : HotSwap → HotSwap) : (d.updHs r f).sramB = d.sramB := rfl
@[simp] theorem Dev.updHs_sramS (d : Dev) (r : Nat) (f : HotSwap → HotSwap) : (d.updHs r f).sramS = d.sramS := rfl
@[simp] theorem Dev.updHs_live (d : Dev) (r : Nat) (f : HotSwap → HotSwap) : (d.updHs r f).live = d.live := rfl
@[simp] theorem Dev.updHs_sense (d : Dev) (r : Nat) (f : HotSwap → HotSwap) : (d.updHs r f).sense = d.sense := rfl
@[simp] theorem Dev.updHs_adm (d : Dev) (r : Nat) (f : HotSwap → HotSwap) : (d.updHs r f).adm = d.adm := rfl
@[simp] theorem Dev.updHs_twin (d : Dev) (r : Nat) (f : HotSwap → HotSwap) : (d.updHs r f).twin = d.twin := rfl
@[simp] theorem Dev.updHs_jrn (d : Dev) (r : Nat) (f : HotSwap → HotSwap) : (d.updHs r f).jrn = d.jrn := rfl
@[simp] theorem Dev.updHs_nv (d : Dev) (r : Nat) (f : HotSwap → HotSwap) : (d.updHs r f).nv = d.nv := rfl
@[simp] theorem Dev.updHs_peat (d : Dev) (r : Nat) (f : HotSwap → HotSwap) : (d.updHs r f).peat = d.peat := rfl
@[simp] theorem Dev.updHs_crust (d : Dev) (r : Nat) (f : HotSwap → HotSwap) : (d.updHs r f).crust = d.crust := rfl
@[simp] theorem Dev.updHs_feedA (d : Dev) (r : Nat) (f : HotSwap → HotSwap) : (d.updHs r f).feedA = d.feedA := rfl
@[simp] theorem Dev.updHs_feedB (d : Dev) (r : Nat) (f : HotSwap → HotSwap) : (d.updHs r f).feedB = d.feedB := rfl
@[simp] theorem Dev.updHs_xfer (d : Dev) (r : Nat) (f : HotSwap → HotSwap) : (d.updHs r f).xfer = d.xfer := rfl
@[simp] theorem Dev.updHs_hs (d : Dev) (r : Nat) (f : HotSwap → HotSwap) :
    (d.updHs r f).hs = updAt d.hs r f := rfl
@[simp] theorem Dev.updHs_fh (d : Dev) (r : Nat) (f : HotSwap → HotSwap) : (d.updHs r f).fh = d.fh := rfl
@[simp] theorem Dev.updHs_bbus (d : Dev) (r : Nat) (f : HotSwap → HotSwap) : (d.updHs r f).bbus = d.bbus := rfl
@[simp] theorem Dev.updHs_therm (d : Dev) (r : Nat) (f : HotSwap → HotSwap) : (d.updHs r f).therm = d.therm := rfl
@[simp] theorem Dev.updHs_twT (d : Dev) (r : Nat) (f : HotSwap → HotSwap) : (d.updHs r f).twT = d.twT := rfl
@[simp] theorem Dev.updHs_twC (d : Dev) (r : Nat) (f : HotSwap → HotSwap) : (d.updHs r f).twC = d.twC := rfl
@[simp] theorem Dev.updHs_upd (d : Dev) (r : Nat) (f : HotSwap → HotSwap) : (d.updHs r f).upd = d.upd := rfl
@[simp] theorem Dev.updHs_mie (d : Dev) (r : Nat) (f : HotSwap → HotSwap) : (d.updHs r f).mie = d.mie := rfl
@[simp] theorem Dev.updHs_dma (d : Dev) (r : Nat) (f : HotSwap → HotSwap) : (d.updHs r f).dma = d.dma := rfl

@[simp] theorem Dev.updSched_time (d : Dev) (f : SchedSt → SchedSt) : (d.updSched f).time = d.time := rfl
@[simp] theorem Dev.updSched_sched (d : Dev) (f : SchedSt → SchedSt) :
    (d.updSched f).sched = f d.sched := rfl
@[simp] theorem Dev.updSched_die (d : Dev) (f : SchedSt → SchedSt) : (d.updSched f).die = d.die := rfl
@[simp] theorem Dev.updSched_regs (d : Dev) (f : SchedSt → SchedSt) : (d.updSched f).regs = d.regs := rfl
@[simp] theorem Dev.updSched_stat (d : Dev) (f : SchedSt → SchedSt) : (d.updSched f).stat = d.stat := rfl
@[simp] theorem Dev.updSched_ident (d : Dev) (f : SchedSt → SchedSt) : (d.updSched f).ident = d.ident := rfl
@[simp] theorem Dev.updSched_sup (d : Dev) (f : SchedSt → SchedSt) : (d.updSched f).sup = d.sup := rfl
@[simp] theorem Dev.updSched_rails (d : Dev) (f : SchedSt → SchedSt) : (d.updSched f).rails = d.rails := rfl
@[simp] theorem Dev.updSched_units (d : Dev) (f : SchedSt → SchedSt) : (d.updSched f).units = d.units := rfl
@[simp] theorem Dev.updSched_clusters (d : Dev) (f : SchedSt → SchedSt) : (d.updSched f).clusters = d.clusters := rfl
@[simp] theorem Dev.updSched_runs (d : Dev) (f : SchedSt → SchedSt) : (d.updSched f).runs = d.runs := rfl
@[simp] theorem Dev.updSched_inj (d : Dev) (f : SchedSt → SchedSt) : (d.updSched f).inj = d.inj := rfl
@[simp] theorem Dev.updSched_cap (d : Dev) (f : SchedSt → SchedSt) : (d.updSched f).cap = d.cap := rfl
@[simp] theorem Dev.updSched_sram (d : Dev) (f : SchedSt → SchedSt) : (d.updSched f).sram = d.sram := rfl
@[simp] theorem Dev.updSched_sramA (d : Dev) (f : SchedSt → SchedSt) : (d.updSched f).sramA = d.sramA := rfl
@[simp] theorem Dev.updSched_sramB (d : Dev) (f : SchedSt → SchedSt) : (d.updSched f).sramB = d.sramB := rfl
@[simp] theorem Dev.updSched_sramS (d : Dev) (f : SchedSt → SchedSt) : (d.updSched f).sramS = d.sramS := rfl
@[simp] theorem Dev.updSched_live (d : Dev) (f : SchedSt → SchedSt) : (d.updSched f).live = d.live := rfl
@[simp] theorem Dev.updSched_sense (d : Dev) (f : SchedSt → SchedSt) : (d.updSched f).sense = d.sense := rfl
@[simp] theorem Dev.updSched_adm (d : Dev) (f : SchedSt → SchedSt) : (d.updSched f).adm = d.adm := rfl
@[simp] theorem Dev.updSched_twin (d : Dev) (f : SchedSt → SchedSt) : (d.updSched f).twin = d.twin := rfl
@[simp] theorem Dev.updSched_jrn (d : Dev) (f : SchedSt → SchedSt) : (d.updSched f).jrn = d.jrn := rfl
@[simp] theorem Dev.updSched_nv (d : Dev) (f : SchedSt → SchedSt) : (d.updSched f).nv = d.nv := rfl
@[simp] theorem Dev.updSched_peat (d : Dev) (f : SchedSt → SchedSt) : (d.updSched f).peat = d.peat := rfl
@[simp] theorem Dev.updSched_crust (d : Dev) (f : SchedSt → SchedSt) : (d.updSched f).crust = d.crust := rfl
@[simp] theorem Dev.updSched_feedA (d : Dev) (f : SchedSt → SchedSt) : (d.updSched f).feedA = d.feedA := rfl
@[simp] theorem Dev.updSched_feedB (d : Dev) (f : SchedSt → SchedSt) : (d.updSched f).feedB = d.feedB := rfl
@[simp] theorem Dev.updSched_xfer (d : Dev) (f : SchedSt → SchedSt) : (d.updSched f).xfer = d.xfer := rfl
@[simp] theorem Dev.updSched_hs (d : Dev) (f : SchedSt → SchedSt) : (d.updSched f).hs = d.hs := rfl
@[simp] theorem Dev.updSched_fh (d : Dev) (f : SchedSt → SchedSt) : (d.updSched f).fh = d.fh := rfl
@[simp] theorem Dev.updSched_bbus (d : Dev) (f : SchedSt → SchedSt) : (d.updSched f).bbus = d.bbus := rfl
@[simp] theorem Dev.updSched_therm (d : Dev) (f : SchedSt → SchedSt) : (d.updSched f).therm = d.therm := rfl
@[simp] theorem Dev.updSched_twT (d : Dev) (f : SchedSt → SchedSt) : (d.updSched f).twT = d.twT := rfl
@[simp] theorem Dev.updSched_twC (d : Dev) (f : SchedSt → SchedSt) : (d.updSched f).twC = d.twC := rfl
@[simp] theorem Dev.updSched_upd (d : Dev) (f : SchedSt → SchedSt) : (d.updSched f).upd = d.upd := rfl
@[simp] theorem Dev.updSched_mie (d : Dev) (f : SchedSt → SchedSt) : (d.updSched f).mie = d.mie := rfl
@[simp] theorem Dev.updSched_dma (d : Dev) (f : SchedSt → SchedSt) : (d.updSched f).dma = d.dma := rfl

@[simp] theorem Dev.updPre_time (d : Dev) (c : Nat) (f : PreCh → PreCh) : (d.updPre c f).time = d.time := rfl
@[simp] theorem Dev.updPre_sched (d : Dev) (c : Nat) (f : PreCh → PreCh) : (d.updPre c f).sched = d.sched := rfl
@[simp] theorem Dev.updPre_die (d : Dev) (c : Nat) (f : PreCh → PreCh) : (d.updPre c f).die = d.die := rfl
@[simp] theorem Dev.updPre_regs (d : Dev) (c : Nat) (f : PreCh → PreCh) : (d.updPre c f).regs = d.regs := rfl
@[simp] theorem Dev.updPre_stat (d : Dev) (c : Nat) (f : PreCh → PreCh) : (d.updPre c f).stat = d.stat := rfl
@[simp] theorem Dev.updPre_ident (d : Dev) (c : Nat) (f : PreCh → PreCh) : (d.updPre c f).ident = d.ident := rfl
@[simp] theorem Dev.updPre_sup (d : Dev) (c : Nat) (f : PreCh → PreCh) : (d.updPre c f).sup = d.sup := rfl
@[simp] theorem Dev.updPre_rails (d : Dev) (c : Nat) (f : PreCh → PreCh) : (d.updPre c f).rails = d.rails := rfl
@[simp] theorem Dev.updPre_units (d : Dev) (c : Nat) (f : PreCh → PreCh) : (d.updPre c f).units = d.units := rfl
@[simp] theorem Dev.updPre_clusters (d : Dev) (c : Nat) (f : PreCh → PreCh) : (d.updPre c f).clusters = d.clusters := rfl
@[simp] theorem Dev.updPre_runs (d : Dev) (c : Nat) (f : PreCh → PreCh) : (d.updPre c f).runs = d.runs := rfl
@[simp] theorem Dev.updPre_inj (d : Dev) (c : Nat) (f : PreCh → PreCh) : (d.updPre c f).inj = d.inj := rfl
@[simp] theorem Dev.updPre_cap (d : Dev) (c : Nat) (f : PreCh → PreCh) : (d.updPre c f).cap = d.cap := rfl
@[simp] theorem Dev.updPre_sram (d : Dev) (c : Nat) (f : PreCh → PreCh) : (d.updPre c f).sram = d.sram := rfl
@[simp] theorem Dev.updPre_sramA (d : Dev) (c : Nat) (f : PreCh → PreCh) : (d.updPre c f).sramA = d.sramA := rfl
@[simp] theorem Dev.updPre_sramB (d : Dev) (c : Nat) (f : PreCh → PreCh) : (d.updPre c f).sramB = d.sramB := rfl
@[simp] theorem Dev.updPre_sramS (d : Dev) (c : Nat) (f : PreCh → PreCh) : (d.updPre c f).sramS = d.sramS := rfl
@[simp] theorem Dev.updPre_live (d : Dev) (c : Nat) (f : PreCh → PreCh) : (d.updPre c f).live = d.live := rfl
@[simp] theorem Dev.updPre_sense (d : Dev) (c : Nat) (f : PreCh → PreCh) :
    (d.updPre c f).sense = { d.sense with pre := updAt d.sense.pre c f } := rfl
@[simp] theorem Dev.updPre_adm (d : Dev) (c : Nat) (f : PreCh → PreCh) : (d.updPre c f).adm = d.adm := rfl
@[simp] theorem Dev.updPre_twin (d : Dev) (c : Nat) (f : PreCh → PreCh) : (d.updPre c f).twin = d.twin := rfl
@[simp] theorem Dev.updPre_jrn (d : Dev) (c : Nat) (f : PreCh → PreCh) : (d.updPre c f).jrn = d.jrn := rfl
@[simp] theorem Dev.updPre_nv (d : Dev) (c : Nat) (f : PreCh → PreCh) : (d.updPre c f).nv = d.nv := rfl
@[simp] theorem Dev.updPre_peat (d : Dev) (c : Nat) (f : PreCh → PreCh) : (d.updPre c f).peat = d.peat := rfl
@[simp] theorem Dev.updPre_crust (d : Dev) (c : Nat) (f : PreCh → PreCh) : (d.updPre c f).crust = d.crust := rfl
@[simp] theorem Dev.updPre_feedA (d : Dev) (c : Nat) (f : PreCh → PreCh) : (d.updPre c f).feedA = d.feedA := rfl
@[simp] theorem Dev.updPre_feedB (d : Dev) (c : Nat) (f : PreCh → PreCh) : (d.updPre c f).feedB = d.feedB := rfl
@[simp] theorem Dev.updPre_xfer (d : Dev) (c : Nat) (f : PreCh → PreCh) : (d.updPre c f).xfer = d.xfer := rfl
@[simp] theorem Dev.updPre_hs (d : Dev) (c : Nat) (f : PreCh → PreCh) : (d.updPre c f).hs = d.hs := rfl
@[simp] theorem Dev.updPre_fh (d : Dev) (c : Nat) (f : PreCh → PreCh) : (d.updPre c f).fh = d.fh := rfl
@[simp] theorem Dev.updPre_bbus (d : Dev) (c : Nat) (f : PreCh → PreCh) : (d.updPre c f).bbus = d.bbus := rfl
@[simp] theorem Dev.updPre_therm (d : Dev) (c : Nat) (f : PreCh → PreCh) : (d.updPre c f).therm = d.therm := rfl
@[simp] theorem Dev.updPre_twT (d : Dev) (c : Nat) (f : PreCh → PreCh) : (d.updPre c f).twT = d.twT := rfl
@[simp] theorem Dev.updPre_twC (d : Dev) (c : Nat) (f : PreCh → PreCh) : (d.updPre c f).twC = d.twC := rfl
@[simp] theorem Dev.updPre_upd (d : Dev) (c : Nat) (f : PreCh → PreCh) : (d.updPre c f).upd = d.upd := rfl
@[simp] theorem Dev.updPre_mie (d : Dev) (c : Nat) (f : PreCh → PreCh) : (d.updPre c f).mie = d.mie := rfl
@[simp] theorem Dev.updPre_dma (d : Dev) (c : Nat) (f : PreCh → PreCh) : (d.updPre c f).dma = d.dma := rfl

@[simp] theorem Dev.updRef_time (d : Dev) (f : RefSt → RefSt) : (d.updRef f).time = d.time := rfl
@[simp] theorem Dev.updRef_sched (d : Dev) (f : RefSt → RefSt) : (d.updRef f).sched = d.sched := rfl
@[simp] theorem Dev.updRef_die (d : Dev) (f : RefSt → RefSt) : (d.updRef f).die = d.die := rfl
@[simp] theorem Dev.updRef_regs (d : Dev) (f : RefSt → RefSt) : (d.updRef f).regs = d.regs := rfl
@[simp] theorem Dev.updRef_stat (d : Dev) (f : RefSt → RefSt) : (d.updRef f).stat = d.stat := rfl
@[simp] theorem Dev.updRef_ident (d : Dev) (f : RefSt → RefSt) : (d.updRef f).ident = d.ident := rfl
@[simp] theorem Dev.updRef_sup (d : Dev) (f : RefSt → RefSt) : (d.updRef f).sup = d.sup := rfl
@[simp] theorem Dev.updRef_rails (d : Dev) (f : RefSt → RefSt) : (d.updRef f).rails = d.rails := rfl
@[simp] theorem Dev.updRef_units (d : Dev) (f : RefSt → RefSt) : (d.updRef f).units = d.units := rfl
@[simp] theorem Dev.updRef_clusters (d : Dev) (f : RefSt → RefSt) : (d.updRef f).clusters = d.clusters := rfl
@[simp] theorem Dev.updRef_runs (d : Dev) (f : RefSt → RefSt) : (d.updRef f).runs = d.runs := rfl
@[simp] theorem Dev.updRef_inj (d : Dev) (f : RefSt → RefSt) : (d.updRef f).inj = d.inj := rfl
@[simp] theorem Dev.updRef_cap (d : Dev) (f : RefSt → RefSt) : (d.updRef f).cap = d.cap := rfl
@[simp] theorem Dev.updRef_sram (d : Dev) (f : RefSt → RefSt) : (d.updRef f).sram = d.sram := rfl
@[simp] theorem Dev.updRef_sramA (d : Dev) (f : RefSt → RefSt) : (d.updRef f).sramA = d.sramA := rfl
@[simp] theorem Dev.updRef_sramB (d : Dev) (f : RefSt → RefSt) : (d.updRef f).sramB = d.sramB := rfl
@[simp] theorem Dev.updRef_sramS (d : Dev) (f : RefSt → RefSt) : (d.updRef f).sramS = d.sramS := rfl
@[simp] theorem Dev.updRef_live (d : Dev) (f : RefSt → RefSt) : (d.updRef f).live = d.live := rfl
@[simp] theorem Dev.updRef_sense (d : Dev) (f : RefSt → RefSt) :
    (d.updRef f).sense = { d.sense with ref := f d.sense.ref } := rfl
@[simp] theorem Dev.updRef_adm (d : Dev) (f : RefSt → RefSt) : (d.updRef f).adm = d.adm := rfl
@[simp] theorem Dev.updRef_twin (d : Dev) (f : RefSt → RefSt) : (d.updRef f).twin = d.twin := rfl
@[simp] theorem Dev.updRef_jrn (d : Dev) (f : RefSt → RefSt) : (d.updRef f).jrn = d.jrn := rfl
@[simp] theorem Dev.updRef_nv (d : Dev) (f : RefSt → RefSt) : (d.updRef f).nv = d.nv := rfl
@[simp] theorem Dev.updRef_peat (d : Dev) (f : RefSt → RefSt) : (d.updRef f).peat = d.peat := rfl
@[simp] theorem Dev.updRef_crust (d : Dev) (f : RefSt → RefSt) : (d.updRef f).crust = d.crust := rfl
@[simp] theorem Dev.updRef_feedA (d : Dev) (f : RefSt → RefSt) : (d.updRef f).feedA = d.feedA := rfl
@[simp] theorem Dev.updRef_feedB (d : Dev) (f : RefSt → RefSt) : (d.updRef f).feedB = d.feedB := rfl
@[simp] theorem Dev.updRef_xfer (d : Dev) (f : RefSt → RefSt) : (d.updRef f).xfer = d.xfer := rfl
@[simp] theorem Dev.updRef_hs (d : Dev) (f : RefSt → RefSt) : (d.updRef f).hs = d.hs := rfl
@[simp] theorem Dev.updRef_fh (d : Dev) (f : RefSt → RefSt) : (d.updRef f).fh = d.fh := rfl
@[simp] theorem Dev.updRef_bbus (d : Dev) (f : RefSt → RefSt) : (d.updRef f).bbus = d.bbus := rfl
@[simp] theorem Dev.updRef_therm (d : Dev) (f : RefSt → RefSt) : (d.updRef f).therm = d.therm := rfl
@[simp] theorem Dev.updRef_twT (d : Dev) (f : RefSt → RefSt) : (d.updRef f).twT = d.twT := rfl
@[simp] theorem Dev.updRef_twC (d : Dev) (f : RefSt → RefSt) : (d.updRef f).twC = d.twC := rfl
@[simp] theorem Dev.updRef_upd (d : Dev) (f : RefSt → RefSt) : (d.updRef f).upd = d.upd := rfl
@[simp] theorem Dev.updRef_mie (d : Dev) (f : RefSt → RefSt) : (d.updRef f).mie = d.mie := rfl
@[simp] theorem Dev.updRef_dma (d : Dev) (f : RefSt → RefSt) : (d.updRef f).dma = d.dma := rfl

@[simp] theorem Dev.updAux_time (d : Dev) (f : AuxSeq → AuxSeq) : (d.updAux f).time = d.time := rfl
@[simp] theorem Dev.updAux_sched (d : Dev) (f : AuxSeq → AuxSeq) : (d.updAux f).sched = d.sched := rfl
@[simp] theorem Dev.updAux_die (d : Dev) (f : AuxSeq → AuxSeq) : (d.updAux f).die = d.die := rfl
@[simp] theorem Dev.updAux_regs (d : Dev) (f : AuxSeq → AuxSeq) : (d.updAux f).regs = d.regs := rfl
@[simp] theorem Dev.updAux_stat (d : Dev) (f : AuxSeq → AuxSeq) : (d.updAux f).stat = d.stat := rfl
@[simp] theorem Dev.updAux_ident (d : Dev) (f : AuxSeq → AuxSeq) : (d.updAux f).ident = d.ident := rfl
@[simp] theorem Dev.updAux_sup (d : Dev) (f : AuxSeq → AuxSeq) : (d.updAux f).sup = d.sup := rfl
@[simp] theorem Dev.updAux_rails (d : Dev) (f : AuxSeq → AuxSeq) : (d.updAux f).rails = d.rails := rfl
@[simp] theorem Dev.updAux_units (d : Dev) (f : AuxSeq → AuxSeq) : (d.updAux f).units = d.units := rfl
@[simp] theorem Dev.updAux_clusters (d : Dev) (f : AuxSeq → AuxSeq) : (d.updAux f).clusters = d.clusters := rfl
@[simp] theorem Dev.updAux_runs (d : Dev) (f : AuxSeq → AuxSeq) : (d.updAux f).runs = d.runs := rfl
@[simp] theorem Dev.updAux_inj (d : Dev) (f : AuxSeq → AuxSeq) : (d.updAux f).inj = d.inj := rfl
@[simp] theorem Dev.updAux_cap (d : Dev) (f : AuxSeq → AuxSeq) : (d.updAux f).cap = d.cap := rfl
@[simp] theorem Dev.updAux_sram (d : Dev) (f : AuxSeq → AuxSeq) : (d.updAux f).sram = d.sram := rfl
@[simp] theorem Dev.updAux_sramA (d : Dev) (f : AuxSeq → AuxSeq) : (d.updAux f).sramA = d.sramA := rfl
@[simp] theorem Dev.updAux_sramB (d : Dev) (f : AuxSeq → AuxSeq) : (d.updAux f).sramB = d.sramB := rfl
@[simp] theorem Dev.updAux_sramS (d : Dev) (f : AuxSeq → AuxSeq) : (d.updAux f).sramS = d.sramS := rfl
@[simp] theorem Dev.updAux_live (d : Dev) (f : AuxSeq → AuxSeq) : (d.updAux f).live = d.live := rfl
@[simp] theorem Dev.updAux_sense (d : Dev) (f : AuxSeq → AuxSeq) :
    (d.updAux f).sense = { d.sense with aux := f d.sense.aux } := rfl
@[simp] theorem Dev.updAux_adm (d : Dev) (f : AuxSeq → AuxSeq) : (d.updAux f).adm = d.adm := rfl
@[simp] theorem Dev.updAux_twin (d : Dev) (f : AuxSeq → AuxSeq) : (d.updAux f).twin = d.twin := rfl
@[simp] theorem Dev.updAux_jrn (d : Dev) (f : AuxSeq → AuxSeq) : (d.updAux f).jrn = d.jrn := rfl
@[simp] theorem Dev.updAux_nv (d : Dev) (f : AuxSeq → AuxSeq) : (d.updAux f).nv = d.nv := rfl
@[simp] theorem Dev.updAux_peat (d : Dev) (f : AuxSeq → AuxSeq) : (d.updAux f).peat = d.peat := rfl
@[simp] theorem Dev.updAux_crust (d : Dev) (f : AuxSeq → AuxSeq) : (d.updAux f).crust = d.crust := rfl
@[simp] theorem Dev.updAux_feedA (d : Dev) (f : AuxSeq → AuxSeq) : (d.updAux f).feedA = d.feedA := rfl
@[simp] theorem Dev.updAux_feedB (d : Dev) (f : AuxSeq → AuxSeq) : (d.updAux f).feedB = d.feedB := rfl
@[simp] theorem Dev.updAux_xfer (d : Dev) (f : AuxSeq → AuxSeq) : (d.updAux f).xfer = d.xfer := rfl
@[simp] theorem Dev.updAux_hs (d : Dev) (f : AuxSeq → AuxSeq) : (d.updAux f).hs = d.hs := rfl
@[simp] theorem Dev.updAux_fh (d : Dev) (f : AuxSeq → AuxSeq) : (d.updAux f).fh = d.fh := rfl
@[simp] theorem Dev.updAux_bbus (d : Dev) (f : AuxSeq → AuxSeq) : (d.updAux f).bbus = d.bbus := rfl
@[simp] theorem Dev.updAux_therm (d : Dev) (f : AuxSeq → AuxSeq) : (d.updAux f).therm = d.therm := rfl
@[simp] theorem Dev.updAux_twT (d : Dev) (f : AuxSeq → AuxSeq) : (d.updAux f).twT = d.twT := rfl
@[simp] theorem Dev.updAux_twC (d : Dev) (f : AuxSeq → AuxSeq) : (d.updAux f).twC = d.twC := rfl
@[simp] theorem Dev.updAux_upd (d : Dev) (f : AuxSeq → AuxSeq) : (d.updAux f).upd = d.upd := rfl
@[simp] theorem Dev.updAux_mie (d : Dev) (f : AuxSeq → AuxSeq) : (d.updAux f).mie = d.mie := rfl
@[simp] theorem Dev.updAux_dma (d : Dev) (f : AuxSeq → AuxSeq) : (d.updAux f).dma = d.dma := rfl

@[simp] theorem Dev.updCal_time (d : Dev) (f : CalSt → CalSt) : (d.updCal f).time = d.time := rfl
@[simp] theorem Dev.updCal_sched (d : Dev) (f : CalSt → CalSt) : (d.updCal f).sched = d.sched := rfl
@[simp] theorem Dev.updCal_die (d : Dev) (f : CalSt → CalSt) : (d.updCal f).die = d.die := rfl
@[simp] theorem Dev.updCal_regs (d : Dev) (f : CalSt → CalSt) : (d.updCal f).regs = d.regs := rfl
@[simp] theorem Dev.updCal_stat (d : Dev) (f : CalSt → CalSt) : (d.updCal f).stat = d.stat := rfl
@[simp] theorem Dev.updCal_ident (d : Dev) (f : CalSt → CalSt) : (d.updCal f).ident = d.ident := rfl
@[simp] theorem Dev.updCal_sup (d : Dev) (f : CalSt → CalSt) : (d.updCal f).sup = d.sup := rfl
@[simp] theorem Dev.updCal_rails (d : Dev) (f : CalSt → CalSt) : (d.updCal f).rails = d.rails := rfl
@[simp] theorem Dev.updCal_units (d : Dev) (f : CalSt → CalSt) : (d.updCal f).units = d.units := rfl
@[simp] theorem Dev.updCal_clusters (d : Dev) (f : CalSt → CalSt) : (d.updCal f).clusters = d.clusters := rfl
@[simp] theorem Dev.updCal_runs (d : Dev) (f : CalSt → CalSt) : (d.updCal f).runs = d.runs := rfl
@[simp] theorem Dev.updCal_inj (d : Dev) (f : CalSt → CalSt) : (d.updCal f).inj = d.inj := rfl
@[simp] theorem Dev.updCal_cap (d : Dev) (f : CalSt → CalSt) : (d.updCal f).cap = d.cap := rfl
@[simp] theorem Dev.updCal_sram (d : Dev) (f : CalSt → CalSt) : (d.updCal f).sram = d.sram := rfl
@[simp] theorem Dev.updCal_sramA (d : Dev) (f : CalSt → CalSt) : (d.updCal f).sramA = d.sramA := rfl
@[simp] theorem Dev.updCal_sramB (d : Dev) (f : CalSt → CalSt) : (d.updCal f).sramB = d.sramB := rfl
@[simp] theorem Dev.updCal_sramS (d : Dev) (f : CalSt → CalSt) : (d.updCal f).sramS = d.sramS := rfl
@[simp] theorem Dev.updCal_live (d : Dev) (f : CalSt → CalSt) : (d.updCal f).live = d.live := rfl
@[simp] theorem Dev.updCal_sense (d : Dev) (f : CalSt → CalSt) :
    (d.updCal f).sense = { d.sense with cal := f d.sense.cal } := rfl
@[simp] theorem Dev.updCal_adm (d : Dev) (f : CalSt → CalSt) : (d.updCal f).adm = d.adm := rfl
@[simp] theorem Dev.updCal_twin (d : Dev) (f : CalSt → CalSt) : (d.updCal f).twin = d.twin := rfl
@[simp] theorem Dev.updCal_jrn (d : Dev) (f : CalSt → CalSt) : (d.updCal f).jrn = d.jrn := rfl
@[simp] theorem Dev.updCal_nv (d : Dev) (f : CalSt → CalSt) : (d.updCal f).nv = d.nv := rfl
@[simp] theorem Dev.updCal_peat (d : Dev) (f : CalSt → CalSt) : (d.updCal f).peat = d.peat := rfl
@[simp] theorem Dev.updCal_crust (d : Dev) (f : CalSt → CalSt) : (d.updCal f).crust = d.crust := rfl
@[simp] theorem Dev.updCal_feedA (d : Dev) (f : CalSt → CalSt) : (d.updCal f).feedA = d.feedA := rfl
@[simp] theorem Dev.updCal_feedB (d : Dev) (f : CalSt → CalSt) : (d.updCal f).feedB = d.feedB := rfl
@[simp] theorem Dev.updCal_xfer (d : Dev) (f : CalSt → CalSt) : (d.updCal f).xfer = d.xfer := rfl
@[simp] theorem Dev.updCal_hs (d : Dev) (f : CalSt → CalSt) : (d.updCal f).hs = d.hs := rfl
@[simp] theorem Dev.updCal_fh (d : Dev) (f : CalSt → CalSt) : (d.updCal f).fh = d.fh := rfl
@[simp] theorem Dev.updCal_bbus (d : Dev) (f : CalSt → CalSt) : (d.updCal f).bbus = d.bbus := rfl
@[simp] theorem Dev.updCal_therm (d : Dev) (f : CalSt → CalSt) : (d.updCal f).therm = d.therm := rfl
@[simp] theorem Dev.updCal_twT (d : Dev) (f : CalSt → CalSt) : (d.updCal f).twT = d.twT := rfl
@[simp] theorem Dev.updCal_twC (d : Dev) (f : CalSt → CalSt) : (d.updCal f).twC = d.twC := rfl
@[simp] theorem Dev.updCal_upd (d : Dev) (f : CalSt → CalSt) : (d.updCal f).upd = d.upd := rfl
@[simp] theorem Dev.updCal_mie (d : Dev) (f : CalSt → CalSt) : (d.updCal f).mie = d.mie := rfl
@[simp] theorem Dev.updCal_dma (d : Dev) (f : CalSt → CalSt) : (d.updCal f).dma = d.dma := rfl

@[simp] theorem Dev.updSup_time (d : Dev) (f : SupplySt → SupplySt) : (d.updSup f).time = d.time := rfl
@[simp] theorem Dev.updSup_sched (d : Dev) (f : SupplySt → SupplySt) : (d.updSup f).sched = d.sched := rfl
@[simp] theorem Dev.updSup_die (d : Dev) (f : SupplySt → SupplySt) : (d.updSup f).die = d.die := rfl
@[simp] theorem Dev.updSup_regs (d : Dev) (f : SupplySt → SupplySt) : (d.updSup f).regs = d.regs := rfl
@[simp] theorem Dev.updSup_stat (d : Dev) (f : SupplySt → SupplySt) : (d.updSup f).stat = d.stat := rfl
@[simp] theorem Dev.updSup_ident (d : Dev) (f : SupplySt → SupplySt) : (d.updSup f).ident = d.ident := rfl
@[simp] theorem Dev.updSup_sup (d : Dev) (f : SupplySt → SupplySt) :
    (d.updSup f).sup = f d.sup := rfl
@[simp] theorem Dev.updSup_rails (d : Dev) (f : SupplySt → SupplySt) : (d.updSup f).rails = d.rails := rfl
@[simp] theorem Dev.updSup_units (d : Dev) (f : SupplySt → SupplySt) : (d.updSup f).units = d.units := rfl
@[simp] theorem Dev.updSup_clusters (d : Dev) (f : SupplySt → SupplySt) : (d.updSup f).clusters = d.clusters := rfl
@[simp] theorem Dev.updSup_runs (d : Dev) (f : SupplySt → SupplySt) : (d.updSup f).runs = d.runs := rfl
@[simp] theorem Dev.updSup_inj (d : Dev) (f : SupplySt → SupplySt) : (d.updSup f).inj = d.inj := rfl
@[simp] theorem Dev.updSup_cap (d : Dev) (f : SupplySt → SupplySt) : (d.updSup f).cap = d.cap := rfl
@[simp] theorem Dev.updSup_sram (d : Dev) (f : SupplySt → SupplySt) : (d.updSup f).sram = d.sram := rfl
@[simp] theorem Dev.updSup_sramA (d : Dev) (f : SupplySt → SupplySt) : (d.updSup f).sramA = d.sramA := rfl
@[simp] theorem Dev.updSup_sramB (d : Dev) (f : SupplySt → SupplySt) : (d.updSup f).sramB = d.sramB := rfl
@[simp] theorem Dev.updSup_sramS (d : Dev) (f : SupplySt → SupplySt) : (d.updSup f).sramS = d.sramS := rfl
@[simp] theorem Dev.updSup_live (d : Dev) (f : SupplySt → SupplySt) : (d.updSup f).live = d.live := rfl
@[simp] theorem Dev.updSup_sense (d : Dev) (f : SupplySt → SupplySt) : (d.updSup f).sense = d.sense := rfl
@[simp] theorem Dev.updSup_adm (d : Dev) (f : SupplySt → SupplySt) : (d.updSup f).adm = d.adm := rfl
@[simp] theorem Dev.updSup_twin (d : Dev) (f : SupplySt → SupplySt) : (d.updSup f).twin = d.twin := rfl
@[simp] theorem Dev.updSup_jrn (d : Dev) (f : SupplySt → SupplySt) : (d.updSup f).jrn = d.jrn := rfl
@[simp] theorem Dev.updSup_nv (d : Dev) (f : SupplySt → SupplySt) : (d.updSup f).nv = d.nv := rfl
@[simp] theorem Dev.updSup_peat (d : Dev) (f : SupplySt → SupplySt) : (d.updSup f).peat = d.peat := rfl
@[simp] theorem Dev.updSup_crust (d : Dev) (f : SupplySt → SupplySt) : (d.updSup f).crust = d.crust := rfl
@[simp] theorem Dev.updSup_feedA (d : Dev) (f : SupplySt → SupplySt) : (d.updSup f).feedA = d.feedA := rfl
@[simp] theorem Dev.updSup_feedB (d : Dev) (f : SupplySt → SupplySt) : (d.updSup f).feedB = d.feedB := rfl
@[simp] theorem Dev.updSup_xfer (d : Dev) (f : SupplySt → SupplySt) : (d.updSup f).xfer = d.xfer := rfl
@[simp] theorem Dev.updSup_hs (d : Dev) (f : SupplySt → SupplySt) : (d.updSup f).hs = d.hs := rfl
@[simp] theorem Dev.updSup_fh (d : Dev) (f : SupplySt → SupplySt) : (d.updSup f).fh = d.fh := rfl
@[simp] theorem Dev.updSup_bbus (d : Dev) (f : SupplySt → SupplySt) : (d.updSup f).bbus = d.bbus := rfl
@[simp] theorem Dev.updSup_therm (d : Dev) (f : SupplySt → SupplySt) : (d.updSup f).therm = d.therm := rfl
@[simp] theorem Dev.updSup_twT (d : Dev) (f : SupplySt → SupplySt) : (d.updSup f).twT = d.twT := rfl
@[simp] theorem Dev.updSup_twC (d : Dev) (f : SupplySt → SupplySt) : (d.updSup f).twC = d.twC := rfl
@[simp] theorem Dev.updSup_upd (d : Dev) (f : SupplySt → SupplySt) : (d.updSup f).upd = d.upd := rfl
@[simp] theorem Dev.updSup_mie (d : Dev) (f : SupplySt → SupplySt) : (d.updSup f).mie = d.mie := rfl
@[simp] theorem Dev.updSup_dma (d : Dev) (f : SupplySt → SupplySt) : (d.updSup f).dma = d.dma := rfl

@[simp] theorem Dev.updTherm_time (d : Dev) (f : Therm → Therm) : (d.updTherm f).time = d.time := rfl
@[simp] theorem Dev.updTherm_sched (d : Dev) (f : Therm → Therm) : (d.updTherm f).sched = d.sched := rfl
@[simp] theorem Dev.updTherm_die (d : Dev) (f : Therm → Therm) : (d.updTherm f).die = d.die := rfl
@[simp] theorem Dev.updTherm_regs (d : Dev) (f : Therm → Therm) : (d.updTherm f).regs = d.regs := rfl
@[simp] theorem Dev.updTherm_stat (d : Dev) (f : Therm → Therm) : (d.updTherm f).stat = d.stat := rfl
@[simp] theorem Dev.updTherm_ident (d : Dev) (f : Therm → Therm) : (d.updTherm f).ident = d.ident := rfl
@[simp] theorem Dev.updTherm_sup (d : Dev) (f : Therm → Therm) : (d.updTherm f).sup = d.sup := rfl
@[simp] theorem Dev.updTherm_rails (d : Dev) (f : Therm → Therm) : (d.updTherm f).rails = d.rails := rfl
@[simp] theorem Dev.updTherm_units (d : Dev) (f : Therm → Therm) : (d.updTherm f).units = d.units := rfl
@[simp] theorem Dev.updTherm_clusters (d : Dev) (f : Therm → Therm) : (d.updTherm f).clusters = d.clusters := rfl
@[simp] theorem Dev.updTherm_runs (d : Dev) (f : Therm → Therm) : (d.updTherm f).runs = d.runs := rfl
@[simp] theorem Dev.updTherm_inj (d : Dev) (f : Therm → Therm) : (d.updTherm f).inj = d.inj := rfl
@[simp] theorem Dev.updTherm_cap (d : Dev) (f : Therm → Therm) : (d.updTherm f).cap = d.cap := rfl
@[simp] theorem Dev.updTherm_sram (d : Dev) (f : Therm → Therm) : (d.updTherm f).sram = d.sram := rfl
@[simp] theorem Dev.updTherm_sramA (d : Dev) (f : Therm → Therm) : (d.updTherm f).sramA = d.sramA := rfl
@[simp] theorem Dev.updTherm_sramB (d : Dev) (f : Therm → Therm) : (d.updTherm f).sramB = d.sramB := rfl
@[simp] theorem Dev.updTherm_sramS (d : Dev) (f : Therm → Therm) : (d.updTherm f).sramS = d.sramS := rfl
@[simp] theorem Dev.updTherm_live (d : Dev) (f : Therm → Therm) : (d.updTherm f).live = d.live := rfl
@[simp] theorem Dev.updTherm_sense (d : Dev) (f : Therm → Therm) : (d.updTherm f).sense = d.sense := rfl
@[simp] theorem Dev.updTherm_adm (d : Dev) (f : Therm → Therm) : (d.updTherm f).adm = d.adm := rfl
@[simp] theorem Dev.updTherm_twin (d : Dev) (f : Therm → Therm) : (d.updTherm f).twin = d.twin := rfl
@[simp] theorem Dev.updTherm_jrn (d : Dev) (f : Therm → Therm) : (d.updTherm f).jrn = d.jrn := rfl
@[simp] theorem Dev.updTherm_nv (d : Dev) (f : Therm → Therm) : (d.updTherm f).nv = d.nv := rfl
@[simp] theorem Dev.updTherm_peat (d : Dev) (f : Therm → Therm) : (d.updTherm f).peat = d.peat := rfl
@[simp] theorem Dev.updTherm_crust (d : Dev) (f : Therm → Therm) : (d.updTherm f).crust = d.crust := rfl
@[simp] theorem Dev.updTherm_feedA (d : Dev) (f : Therm → Therm) : (d.updTherm f).feedA = d.feedA := rfl
@[simp] theorem Dev.updTherm_feedB (d : Dev) (f : Therm → Therm) : (d.updTherm f).feedB = d.feedB := rfl
@[simp] theorem Dev.updTherm_xfer (d : Dev) (f : Therm → Therm) : (d.updTherm f).xfer = d.xfer := rfl
@[simp] theorem Dev.updTherm_hs (d : Dev) (f : Therm → Therm) : (d.updTherm f).hs = d.hs := rfl
@[simp] theorem Dev.updTherm_fh (d : Dev) (f : Therm → Therm) : (d.updTherm f).fh = d.fh := rfl
@[simp] theorem Dev.updTherm_bbus (d : Dev) (f : Therm → Therm) : (d.updTherm f).bbus = d.bbus := rfl
@[simp] theorem Dev.updTherm_therm (d : Dev) (f : Therm → Therm) :
    (d.updTherm f).therm = f d.therm := rfl
@[simp] theorem Dev.updTherm_twT (d : Dev) (f : Therm → Therm) : (d.updTherm f).twT = d.twT := rfl
@[simp] theorem Dev.updTherm_twC (d : Dev) (f : Therm → Therm) : (d.updTherm f).twC = d.twC := rfl
@[simp] theorem Dev.updTherm_upd (d : Dev) (f : Therm → Therm) : (d.updTherm f).upd = d.upd := rfl
@[simp] theorem Dev.updTherm_mie (d : Dev) (f : Therm → Therm) : (d.updTherm f).mie = d.mie := rfl
@[simp] theorem Dev.updTherm_dma (d : Dev) (f : Therm → Therm) : (d.updTherm f).dma = d.dma := rfl

@[simp] theorem Dev.updCtl_time (d : Dev) (f : TwinCtl → TwinCtl) : (d.updCtl f).time = d.time := rfl
@[simp] theorem Dev.updCtl_sched (d : Dev) (f : TwinCtl → TwinCtl) : (d.updCtl f).sched = d.sched := rfl
@[simp] theorem Dev.updCtl_die (d : Dev) (f : TwinCtl → TwinCtl) : (d.updCtl f).die = d.die := rfl
@[simp] theorem Dev.updCtl_regs (d : Dev) (f : TwinCtl → TwinCtl) : (d.updCtl f).regs = d.regs := rfl
@[simp] theorem Dev.updCtl_stat (d : Dev) (f : TwinCtl → TwinCtl) : (d.updCtl f).stat = d.stat := rfl
@[simp] theorem Dev.updCtl_ident (d : Dev) (f : TwinCtl → TwinCtl) : (d.updCtl f).ident = d.ident := rfl
@[simp] theorem Dev.updCtl_sup (d : Dev) (f : TwinCtl → TwinCtl) : (d.updCtl f).sup = d.sup := rfl
@[simp] theorem Dev.updCtl_rails (d : Dev) (f : TwinCtl → TwinCtl) : (d.updCtl f).rails = d.rails := rfl
@[simp] theorem Dev.updCtl_units (d : Dev) (f : TwinCtl → TwinCtl) : (d.updCtl f).units = d.units := rfl
@[simp] theorem Dev.updCtl_clusters (d : Dev) (f : TwinCtl → TwinCtl) : (d.updCtl f).clusters = d.clusters := rfl
@[simp] theorem Dev.updCtl_runs (d : Dev) (f : TwinCtl → TwinCtl) : (d.updCtl f).runs = d.runs := rfl
@[simp] theorem Dev.updCtl_inj (d : Dev) (f : TwinCtl → TwinCtl) : (d.updCtl f).inj = d.inj := rfl
@[simp] theorem Dev.updCtl_cap (d : Dev) (f : TwinCtl → TwinCtl) : (d.updCtl f).cap = d.cap := rfl
@[simp] theorem Dev.updCtl_sram (d : Dev) (f : TwinCtl → TwinCtl) : (d.updCtl f).sram = d.sram := rfl
@[simp] theorem Dev.updCtl_sramA (d : Dev) (f : TwinCtl → TwinCtl) : (d.updCtl f).sramA = d.sramA := rfl
@[simp] theorem Dev.updCtl_sramB (d : Dev) (f : TwinCtl → TwinCtl) : (d.updCtl f).sramB = d.sramB := rfl
@[simp] theorem Dev.updCtl_sramS (d : Dev) (f : TwinCtl → TwinCtl) : (d.updCtl f).sramS = d.sramS := rfl
@[simp] theorem Dev.updCtl_live (d : Dev) (f : TwinCtl → TwinCtl) : (d.updCtl f).live = d.live := rfl
@[simp] theorem Dev.updCtl_sense (d : Dev) (f : TwinCtl → TwinCtl) : (d.updCtl f).sense = d.sense := rfl
@[simp] theorem Dev.updCtl_adm (d : Dev) (f : TwinCtl → TwinCtl) : (d.updCtl f).adm = d.adm := rfl
@[simp] theorem Dev.updCtl_twin (d : Dev) (f : TwinCtl → TwinCtl) :
    (d.updCtl f).twin = f d.twin := rfl
@[simp] theorem Dev.updCtl_jrn (d : Dev) (f : TwinCtl → TwinCtl) : (d.updCtl f).jrn = d.jrn := rfl
@[simp] theorem Dev.updCtl_nv (d : Dev) (f : TwinCtl → TwinCtl) : (d.updCtl f).nv = d.nv := rfl
@[simp] theorem Dev.updCtl_peat (d : Dev) (f : TwinCtl → TwinCtl) : (d.updCtl f).peat = d.peat := rfl
@[simp] theorem Dev.updCtl_crust (d : Dev) (f : TwinCtl → TwinCtl) : (d.updCtl f).crust = d.crust := rfl
@[simp] theorem Dev.updCtl_feedA (d : Dev) (f : TwinCtl → TwinCtl) : (d.updCtl f).feedA = d.feedA := rfl
@[simp] theorem Dev.updCtl_feedB (d : Dev) (f : TwinCtl → TwinCtl) : (d.updCtl f).feedB = d.feedB := rfl
@[simp] theorem Dev.updCtl_xfer (d : Dev) (f : TwinCtl → TwinCtl) : (d.updCtl f).xfer = d.xfer := rfl
@[simp] theorem Dev.updCtl_hs (d : Dev) (f : TwinCtl → TwinCtl) : (d.updCtl f).hs = d.hs := rfl
@[simp] theorem Dev.updCtl_fh (d : Dev) (f : TwinCtl → TwinCtl) : (d.updCtl f).fh = d.fh := rfl
@[simp] theorem Dev.updCtl_bbus (d : Dev) (f : TwinCtl → TwinCtl) : (d.updCtl f).bbus = d.bbus := rfl
@[simp] theorem Dev.updCtl_therm (d : Dev) (f : TwinCtl → TwinCtl) : (d.updCtl f).therm = d.therm := rfl
@[simp] theorem Dev.updCtl_twT (d : Dev) (f : TwinCtl → TwinCtl) : (d.updCtl f).twT = d.twT := rfl
@[simp] theorem Dev.updCtl_twC (d : Dev) (f : TwinCtl → TwinCtl) : (d.updCtl f).twC = d.twC := rfl
@[simp] theorem Dev.updCtl_upd (d : Dev) (f : TwinCtl → TwinCtl) : (d.updCtl f).upd = d.upd := rfl
@[simp] theorem Dev.updCtl_mie (d : Dev) (f : TwinCtl → TwinCtl) : (d.updCtl f).mie = d.mie := rfl
@[simp] theorem Dev.updCtl_dma (d : Dev) (f : TwinCtl → TwinCtl) : (d.updCtl f).dma = d.dma := rfl

@[simp] theorem Dev.updMp_time (d : Dev) (p : MPort) (f : MiePort → MiePort) : (d.updMp p f).time = d.time := by cases p <;> rfl
@[simp] theorem Dev.updMp_sched (d : Dev) (p : MPort) (f : MiePort → MiePort) : (d.updMp p f).sched = d.sched := by cases p <;> rfl
@[simp] theorem Dev.updMp_die (d : Dev) (p : MPort) (f : MiePort → MiePort) : (d.updMp p f).die = d.die := by cases p <;> rfl
@[simp] theorem Dev.updMp_regs (d : Dev) (p : MPort) (f : MiePort → MiePort) : (d.updMp p f).regs = d.regs := by cases p <;> rfl
@[simp] theorem Dev.updMp_stat (d : Dev) (p : MPort) (f : MiePort → MiePort) : (d.updMp p f).stat = d.stat := by cases p <;> rfl
@[simp] theorem Dev.updMp_ident (d : Dev) (p : MPort) (f : MiePort → MiePort) : (d.updMp p f).ident = d.ident := by cases p <;> rfl
@[simp] theorem Dev.updMp_sup (d : Dev) (p : MPort) (f : MiePort → MiePort) : (d.updMp p f).sup = d.sup := by cases p <;> rfl
@[simp] theorem Dev.updMp_rails (d : Dev) (p : MPort) (f : MiePort → MiePort) : (d.updMp p f).rails = d.rails := by cases p <;> rfl
@[simp] theorem Dev.updMp_units (d : Dev) (p : MPort) (f : MiePort → MiePort) : (d.updMp p f).units = d.units := by cases p <;> rfl
@[simp] theorem Dev.updMp_clusters (d : Dev) (p : MPort) (f : MiePort → MiePort) : (d.updMp p f).clusters = d.clusters := by cases p <;> rfl
@[simp] theorem Dev.updMp_runs (d : Dev) (p : MPort) (f : MiePort → MiePort) : (d.updMp p f).runs = d.runs := by cases p <;> rfl
@[simp] theorem Dev.updMp_inj (d : Dev) (p : MPort) (f : MiePort → MiePort) : (d.updMp p f).inj = d.inj := by cases p <;> rfl
@[simp] theorem Dev.updMp_cap (d : Dev) (p : MPort) (f : MiePort → MiePort) : (d.updMp p f).cap = d.cap := by cases p <;> rfl
@[simp] theorem Dev.updMp_sram (d : Dev) (p : MPort) (f : MiePort → MiePort) : (d.updMp p f).sram = d.sram := by cases p <;> rfl
@[simp] theorem Dev.updMp_sramA (d : Dev) (p : MPort) (f : MiePort → MiePort) : (d.updMp p f).sramA = d.sramA := by cases p <;> rfl
@[simp] theorem Dev.updMp_sramB (d : Dev) (p : MPort) (f : MiePort → MiePort) : (d.updMp p f).sramB = d.sramB := by cases p <;> rfl
@[simp] theorem Dev.updMp_sramS (d : Dev) (p : MPort) (f : MiePort → MiePort) : (d.updMp p f).sramS = d.sramS := by cases p <;> rfl
@[simp] theorem Dev.updMp_live (d : Dev) (p : MPort) (f : MiePort → MiePort) : (d.updMp p f).live = d.live := by cases p <;> rfl
@[simp] theorem Dev.updMp_sense (d : Dev) (p : MPort) (f : MiePort → MiePort) : (d.updMp p f).sense = d.sense := by cases p <;> rfl
@[simp] theorem Dev.updMp_adm (d : Dev) (p : MPort) (f : MiePort → MiePort) : (d.updMp p f).adm = d.adm := by cases p <;> rfl
@[simp] theorem Dev.updMp_twin (d : Dev) (p : MPort) (f : MiePort → MiePort) : (d.updMp p f).twin = d.twin := by cases p <;> rfl
@[simp] theorem Dev.updMp_jrn (d : Dev) (p : MPort) (f : MiePort → MiePort) : (d.updMp p f).jrn = d.jrn := by cases p <;> rfl
@[simp] theorem Dev.updMp_nv (d : Dev) (p : MPort) (f : MiePort → MiePort) : (d.updMp p f).nv = d.nv := by cases p <;> rfl
@[simp] theorem Dev.updMp_peat (d : Dev) (p : MPort) (f : MiePort → MiePort) : (d.updMp p f).peat = d.peat := by cases p <;> rfl
@[simp] theorem Dev.updMp_crust (d : Dev) (p : MPort) (f : MiePort → MiePort) : (d.updMp p f).crust = d.crust := by cases p <;> rfl
@[simp] theorem Dev.updMp_feedA (d : Dev) (p : MPort) (f : MiePort → MiePort) : (d.updMp p f).feedA = d.feedA := by cases p <;> rfl
@[simp] theorem Dev.updMp_feedB (d : Dev) (p : MPort) (f : MiePort → MiePort) : (d.updMp p f).feedB = d.feedB := by cases p <;> rfl
@[simp] theorem Dev.updMp_xfer (d : Dev) (p : MPort) (f : MiePort → MiePort) : (d.updMp p f).xfer = d.xfer := by cases p <;> rfl
@[simp] theorem Dev.updMp_hs (d : Dev) (p : MPort) (f : MiePort → MiePort) : (d.updMp p f).hs = d.hs := by cases p <;> rfl
@[simp] theorem Dev.updMp_fh (d : Dev) (p : MPort) (f : MiePort → MiePort) : (d.updMp p f).fh = d.fh := by cases p <;> rfl
@[simp] theorem Dev.updMp_bbus (d : Dev) (p : MPort) (f : MiePort → MiePort) : (d.updMp p f).bbus = d.bbus := by cases p <;> rfl
@[simp] theorem Dev.updMp_therm (d : Dev) (p : MPort) (f : MiePort → MiePort) : (d.updMp p f).therm = d.therm := by cases p <;> rfl
@[simp] theorem Dev.updMp_twT (d : Dev) (p : MPort) (f : MiePort → MiePort) : (d.updMp p f).twT = d.twT := by cases p <;> rfl
@[simp] theorem Dev.updMp_twC (d : Dev) (p : MPort) (f : MiePort → MiePort) : (d.updMp p f).twC = d.twC := by cases p <;> rfl
@[simp] theorem Dev.updMp_upd (d : Dev) (p : MPort) (f : MiePort → MiePort) : (d.updMp p f).upd = d.upd := by cases p <;> rfl
@[simp] theorem Dev.updMp_dma (d : Dev) (p : MPort) (f : MiePort → MiePort) : (d.updMp p f).dma = d.dma := by cases p <;> rfl

@[simp] theorem Dev.updHead_time (d : Dev) (f : WorkItem → WorkItem) : (d.updHead f).time = d.time := rfl
@[simp] theorem Dev.updHead_sched (d : Dev) (f : WorkItem → WorkItem) : (d.updHead f).sched = d.sched := rfl
@[simp] theorem Dev.updHead_die (d : Dev) (f : WorkItem → WorkItem) : (d.updHead f).die = d.die := rfl
@[simp] theorem Dev.updHead_regs (d : Dev) (f : WorkItem → WorkItem) : (d.updHead f).regs = d.regs := rfl
@[simp] theorem Dev.updHead_stat (d : Dev) (f : WorkItem → WorkItem) : (d.updHead f).stat = d.stat := rfl
@[simp] theorem Dev.updHead_ident (d : Dev) (f : WorkItem → WorkItem) : (d.updHead f).ident = d.ident := rfl
@[simp] theorem Dev.updHead_sup (d : Dev) (f : WorkItem → WorkItem) : (d.updHead f).sup = d.sup := rfl
@[simp] theorem Dev.updHead_rails (d : Dev) (f : WorkItem → WorkItem) : (d.updHead f).rails = d.rails := rfl
@[simp] theorem Dev.updHead_units (d : Dev) (f : WorkItem → WorkItem) : (d.updHead f).units = d.units := rfl
@[simp] theorem Dev.updHead_clusters (d : Dev) (f : WorkItem → WorkItem) : (d.updHead f).clusters = d.clusters := rfl
@[simp] theorem Dev.updHead_runs (d : Dev) (f : WorkItem → WorkItem) : (d.updHead f).runs = d.runs := rfl
@[simp] theorem Dev.updHead_inj (d : Dev) (f : WorkItem → WorkItem) : (d.updHead f).inj = d.inj := rfl
@[simp] theorem Dev.updHead_cap (d : Dev) (f : WorkItem → WorkItem) : (d.updHead f).cap = d.cap := rfl
@[simp] theorem Dev.updHead_sram (d : Dev) (f : WorkItem → WorkItem) : (d.updHead f).sram = d.sram := rfl
@[simp] theorem Dev.updHead_sramA (d : Dev) (f : WorkItem → WorkItem) : (d.updHead f).sramA = d.sramA := rfl
@[simp] theorem Dev.updHead_sramB (d : Dev) (f : WorkItem → WorkItem) : (d.updHead f).sramB = d.sramB := rfl
@[simp] theorem Dev.updHead_sramS (d : Dev) (f : WorkItem → WorkItem) : (d.updHead f).sramS = d.sramS := rfl
@[simp] theorem Dev.updHead_live (d : Dev) (f : WorkItem → WorkItem) : (d.updHead f).live = d.live := rfl
@[simp] theorem Dev.updHead_sense (d : Dev) (f : WorkItem → WorkItem) : (d.updHead f).sense = d.sense := rfl
@[simp] theorem Dev.updHead_adm (d : Dev) (f : WorkItem → WorkItem) : (d.updHead f).adm = d.adm := rfl
@[simp] theorem Dev.updHead_twin (d : Dev) (f : WorkItem → WorkItem) : (d.updHead f).twin = d.twin := rfl
@[simp] theorem Dev.updHead_jrn (d : Dev) (f : WorkItem → WorkItem) :
    (d.updHead f).jrn = { d.jrn with queue := updAt d.jrn.queue 0 f } := rfl
@[simp] theorem Dev.updHead_nv (d : Dev) (f : WorkItem → WorkItem) : (d.updHead f).nv = d.nv := rfl
@[simp] theorem Dev.updHead_peat (d : Dev) (f : WorkItem → WorkItem) : (d.updHead f).peat = d.peat := rfl
@[simp] theorem Dev.updHead_crust (d : Dev) (f : WorkItem → WorkItem) : (d.updHead f).crust = d.crust := rfl
@[simp] theorem Dev.updHead_feedA (d : Dev) (f : WorkItem → WorkItem) : (d.updHead f).feedA = d.feedA := rfl
@[simp] theorem Dev.updHead_feedB (d : Dev) (f : WorkItem → WorkItem) : (d.updHead f).feedB = d.feedB := rfl
@[simp] theorem Dev.updHead_xfer (d : Dev) (f : WorkItem → WorkItem) : (d.updHead f).xfer = d.xfer := rfl
@[simp] theorem Dev.updHead_hs (d : Dev) (f : WorkItem → WorkItem) : (d.updHead f).hs = d.hs := rfl
@[simp] theorem Dev.updHead_fh (d : Dev) (f : WorkItem → WorkItem) : (d.updHead f).fh = d.fh := rfl
@[simp] theorem Dev.updHead_bbus (d : Dev) (f : WorkItem → WorkItem) : (d.updHead f).bbus = d.bbus := rfl
@[simp] theorem Dev.updHead_therm (d : Dev) (f : WorkItem → WorkItem) : (d.updHead f).therm = d.therm := rfl
@[simp] theorem Dev.updHead_twT (d : Dev) (f : WorkItem → WorkItem) : (d.updHead f).twT = d.twT := rfl
@[simp] theorem Dev.updHead_twC (d : Dev) (f : WorkItem → WorkItem) : (d.updHead f).twC = d.twC := rfl
@[simp] theorem Dev.updHead_upd (d : Dev) (f : WorkItem → WorkItem) : (d.updHead f).upd = d.upd := rfl
@[simp] theorem Dev.updHead_mie (d : Dev) (f : WorkItem → WorkItem) : (d.updHead f).mie = d.mie := rfl
@[simp] theorem Dev.updHead_dma (d : Dev) (f : WorkItem → WorkItem) : (d.updHead f).dma = d.dma := rfl

@[simp] theorem Dev.updMember_time (d : Dev) (id : Nat) (f : RowMember → RowMember) : (d.updMember id f).time = d.time := rfl
@[simp] theorem Dev.updMember_sched (d : Dev) (id : Nat) (f : RowMember → RowMember) : (d.updMember id f).sched = d.sched := rfl
@[simp] theorem Dev.updMember_die (d : Dev) (id : Nat) (f : RowMember → RowMember) : (d.updMember id f).die = d.die := rfl
@[simp] theorem Dev.updMember_regs (d : Dev) (id : Nat) (f : RowMember → RowMember) : (d.updMember id f).regs = d.regs := rfl
@[simp] theorem Dev.updMember_stat (d : Dev) (id : Nat) (f : RowMember → RowMember) : (d.updMember id f).stat = d.stat := rfl
@[simp] theorem Dev.updMember_ident (d : Dev) (id : Nat) (f : RowMember → RowMember) : (d.updMember id f).ident = d.ident := rfl
@[simp] theorem Dev.updMember_sup (d : Dev) (id : Nat) (f : RowMember → RowMember) : (d.updMember id f).sup = d.sup := rfl
@[simp] theorem Dev.updMember_rails (d : Dev) (id : Nat) (f : RowMember → RowMember) : (d.updMember id f).rails = d.rails := rfl
@[simp] theorem Dev.updMember_units (d : Dev) (id : Nat) (f : RowMember → RowMember) : (d.updMember id f).units = d.units := rfl
@[simp] theorem Dev.updMember_clusters (d : Dev) (id : Nat) (f : RowMember → RowMember) : (d.updMember id f).clusters = d.clusters := rfl
@[simp] theorem Dev.updMember_runs (d : Dev) (id : Nat) (f : RowMember → RowMember) : (d.updMember id f).runs = d.runs := rfl
@[simp] theorem Dev.updMember_inj (d : Dev) (id : Nat) (f : RowMember → RowMember) : (d.updMember id f).inj = d.inj := rfl
@[simp] theorem Dev.updMember_cap (d : Dev) (id : Nat) (f : RowMember → RowMember) : (d.updMember id f).cap = d.cap := rfl
@[simp] theorem Dev.updMember_sram (d : Dev) (id : Nat) (f : RowMember → RowMember) : (d.updMember id f).sram = d.sram := rfl
@[simp] theorem Dev.updMember_sramA (d : Dev) (id : Nat) (f : RowMember → RowMember) : (d.updMember id f).sramA = d.sramA := rfl
@[simp] theorem Dev.updMember_sramB (d : Dev) (id : Nat) (f : RowMember → RowMember) : (d.updMember id f).sramB = d.sramB := rfl
@[simp] theorem Dev.updMember_sramS (d : Dev) (id : Nat) (f : RowMember → RowMember) : (d.updMember id f).sramS = d.sramS := rfl
@[simp] theorem Dev.updMember_live (d : Dev) (id : Nat) (f : RowMember → RowMember) : (d.updMember id f).live = d.live := rfl
@[simp] theorem Dev.updMember_sense (d : Dev) (id : Nat) (f : RowMember → RowMember) : (d.updMember id f).sense = d.sense := rfl
@[simp] theorem Dev.updMember_adm (d : Dev) (id : Nat) (f : RowMember → RowMember) : (d.updMember id f).adm = d.adm := rfl
@[simp] theorem Dev.updMember_twin (d : Dev) (id : Nat) (f : RowMember → RowMember) : (d.updMember id f).twin = d.twin := rfl
@[simp] theorem Dev.updMember_jrn (d : Dev) (id : Nat) (f : RowMember → RowMember) : (d.updMember id f).jrn = d.jrn := rfl
@[simp] theorem Dev.updMember_nv (d : Dev) (id : Nat) (f : RowMember → RowMember) : (d.updMember id f).nv = d.nv := rfl
@[simp] theorem Dev.updMember_peat (d : Dev) (id : Nat) (f : RowMember → RowMember) : (d.updMember id f).peat = d.peat := rfl
@[simp] theorem Dev.updMember_crust (d : Dev) (id : Nat) (f : RowMember → RowMember) : (d.updMember id f).crust = d.crust := rfl
@[simp] theorem Dev.updMember_feedA (d : Dev) (id : Nat) (f : RowMember → RowMember) : (d.updMember id f).feedA = d.feedA := rfl
@[simp] theorem Dev.updMember_feedB (d : Dev) (id : Nat) (f : RowMember → RowMember) : (d.updMember id f).feedB = d.feedB := rfl
@[simp] theorem Dev.updMember_xfer (d : Dev) (id : Nat) (f : RowMember → RowMember) : (d.updMember id f).xfer = d.xfer := rfl
@[simp] theorem Dev.updMember_hs (d : Dev) (id : Nat) (f : RowMember → RowMember) : (d.updMember id f).hs = d.hs := rfl
@[simp] theorem Dev.updMember_fh (d : Dev) (id : Nat) (f : RowMember → RowMember) : (d.updMember id f).fh = d.fh := rfl
@[simp] theorem Dev.updMember_bbus (d : Dev) (id : Nat) (f : RowMember → RowMember) : (d.updMember id f).bbus = d.bbus := rfl
@[simp] theorem Dev.updMember_therm (d : Dev) (id : Nat) (f : RowMember → RowMember) : (d.updMember id f).therm = d.therm := rfl
@[simp] theorem Dev.updMember_twT (d : Dev) (id : Nat) (f : RowMember → RowMember) : (d.updMember id f).twT = d.twT := rfl
@[simp] theorem Dev.updMember_twC (d : Dev) (id : Nat) (f : RowMember → RowMember) : (d.updMember id f).twC = d.twC := rfl
@[simp] theorem Dev.updMember_upd (d : Dev) (id : Nat) (f : RowMember → RowMember) : (d.updMember id f).upd = d.upd := rfl
@[simp] theorem Dev.updMember_mie (d : Dev) (id : Nat) (f : RowMember → RowMember) :
    (d.updMember id f).mie = { d.mie with members := memberUpd id f d.mie.members } := rfl
@[simp] theorem Dev.updMember_dma (d : Dev) (id : Nat) (f : RowMember → RowMember) : (d.updMember id f).dma = d.dma := rfl

@[simp] theorem Dev.setReg_time (d : Dev) (pg off v : Nat) : (d.setReg pg off v).time = d.time := rfl
@[simp] theorem Dev.setReg_sched (d : Dev) (pg off v : Nat) : (d.setReg pg off v).sched = d.sched := rfl
@[simp] theorem Dev.setReg_die (d : Dev) (pg off v : Nat) : (d.setReg pg off v).die = d.die := rfl
@[simp] theorem Dev.setReg_regs (d : Dev) (pg off v : Nat) :
    (d.setReg pg off v).regs = d.regs.setVal (regAddr pg off) v := rfl
@[simp] theorem Dev.setReg_stat (d : Dev) (pg off v : Nat) : (d.setReg pg off v).stat = d.stat := rfl
@[simp] theorem Dev.setReg_ident (d : Dev) (pg off v : Nat) : (d.setReg pg off v).ident = d.ident := rfl
@[simp] theorem Dev.setReg_sup (d : Dev) (pg off v : Nat) : (d.setReg pg off v).sup = d.sup := rfl
@[simp] theorem Dev.setReg_rails (d : Dev) (pg off v : Nat) : (d.setReg pg off v).rails = d.rails := rfl
@[simp] theorem Dev.setReg_units (d : Dev) (pg off v : Nat) : (d.setReg pg off v).units = d.units := rfl
@[simp] theorem Dev.setReg_clusters (d : Dev) (pg off v : Nat) : (d.setReg pg off v).clusters = d.clusters := rfl
@[simp] theorem Dev.setReg_runs (d : Dev) (pg off v : Nat) : (d.setReg pg off v).runs = d.runs := rfl
@[simp] theorem Dev.setReg_inj (d : Dev) (pg off v : Nat) : (d.setReg pg off v).inj = d.inj := rfl
@[simp] theorem Dev.setReg_cap (d : Dev) (pg off v : Nat) : (d.setReg pg off v).cap = d.cap := rfl
@[simp] theorem Dev.setReg_sram (d : Dev) (pg off v : Nat) : (d.setReg pg off v).sram = d.sram := rfl
@[simp] theorem Dev.setReg_sramA (d : Dev) (pg off v : Nat) : (d.setReg pg off v).sramA = d.sramA := rfl
@[simp] theorem Dev.setReg_sramB (d : Dev) (pg off v : Nat) : (d.setReg pg off v).sramB = d.sramB := rfl
@[simp] theorem Dev.setReg_sramS (d : Dev) (pg off v : Nat) : (d.setReg pg off v).sramS = d.sramS := rfl
@[simp] theorem Dev.setReg_live (d : Dev) (pg off v : Nat) : (d.setReg pg off v).live = d.live := rfl
@[simp] theorem Dev.setReg_sense (d : Dev) (pg off v : Nat) : (d.setReg pg off v).sense = d.sense := rfl
@[simp] theorem Dev.setReg_adm (d : Dev) (pg off v : Nat) : (d.setReg pg off v).adm = d.adm := rfl
@[simp] theorem Dev.setReg_twin (d : Dev) (pg off v : Nat) : (d.setReg pg off v).twin = d.twin := rfl
@[simp] theorem Dev.setReg_jrn (d : Dev) (pg off v : Nat) : (d.setReg pg off v).jrn = d.jrn := rfl
@[simp] theorem Dev.setReg_nv (d : Dev) (pg off v : Nat) : (d.setReg pg off v).nv = d.nv := rfl
@[simp] theorem Dev.setReg_peat (d : Dev) (pg off v : Nat) : (d.setReg pg off v).peat = d.peat := rfl
@[simp] theorem Dev.setReg_crust (d : Dev) (pg off v : Nat) : (d.setReg pg off v).crust = d.crust := rfl
@[simp] theorem Dev.setReg_feedA (d : Dev) (pg off v : Nat) : (d.setReg pg off v).feedA = d.feedA := rfl
@[simp] theorem Dev.setReg_feedB (d : Dev) (pg off v : Nat) : (d.setReg pg off v).feedB = d.feedB := rfl
@[simp] theorem Dev.setReg_xfer (d : Dev) (pg off v : Nat) : (d.setReg pg off v).xfer = d.xfer := rfl
@[simp] theorem Dev.setReg_hs (d : Dev) (pg off v : Nat) : (d.setReg pg off v).hs = d.hs := rfl
@[simp] theorem Dev.setReg_fh (d : Dev) (pg off v : Nat) : (d.setReg pg off v).fh = d.fh := rfl
@[simp] theorem Dev.setReg_bbus (d : Dev) (pg off v : Nat) : (d.setReg pg off v).bbus = d.bbus := rfl
@[simp] theorem Dev.setReg_therm (d : Dev) (pg off v : Nat) : (d.setReg pg off v).therm = d.therm := rfl
@[simp] theorem Dev.setReg_twT (d : Dev) (pg off v : Nat) : (d.setReg pg off v).twT = d.twT := rfl
@[simp] theorem Dev.setReg_twC (d : Dev) (pg off v : Nat) : (d.setReg pg off v).twC = d.twC := rfl
@[simp] theorem Dev.setReg_upd (d : Dev) (pg off v : Nat) : (d.setReg pg off v).upd = d.upd := rfl
@[simp] theorem Dev.setReg_mie (d : Dev) (pg off v : Nat) : (d.setReg pg off v).mie = d.mie := rfl
@[simp] theorem Dev.setReg_dma (d : Dev) (pg off v : Nat) : (d.setReg pg off v).dma = d.dma := rfl

@[simp] theorem Dev.setFld_time (d : Dev) (pg off hi lo v : Nat) : (d.setFld pg off hi lo v).time = d.time := rfl
@[simp] theorem Dev.setFld_sched (d : Dev) (pg off hi lo v : Nat) : (d.setFld pg off hi lo v).sched = d.sched := rfl
@[simp] theorem Dev.setFld_die (d : Dev) (pg off hi lo v : Nat) : (d.setFld pg off hi lo v).die = d.die := rfl
@[simp] theorem Dev.setFld_regs (d : Dev) (pg off hi lo v : Nat) :
    (d.setFld pg off hi lo v).regs = d.regs.setVal (regAddr pg off) (putBits (d.reg pg off) hi lo v) := rfl
@[simp] theorem Dev.setFld_stat (d : Dev) (pg off hi lo v : Nat) : (d.setFld pg off hi lo v).stat = d.stat := rfl
@[simp] theorem Dev.setFld_ident (d : Dev) (pg off hi lo v : Nat) : (d.setFld pg off hi lo v).ident = d.ident := rfl
@[simp] theorem Dev.setFld_sup (d : Dev) (pg off hi lo v : Nat) : (d.setFld pg off hi lo v).sup = d.sup := rfl
@[simp] theorem Dev.setFld_rails (d : Dev) (pg off hi lo v : Nat) : (d.setFld pg off hi lo v).rails = d.rails := rfl
@[simp] theorem Dev.setFld_units (d : Dev) (pg off hi lo v : Nat) : (d.setFld pg off hi lo v).units = d.units := rfl
@[simp] theorem Dev.setFld_clusters (d : Dev) (pg off hi lo v : Nat) : (d.setFld pg off hi lo v).clusters = d.clusters := rfl
@[simp] theorem Dev.setFld_runs (d : Dev) (pg off hi lo v : Nat) : (d.setFld pg off hi lo v).runs = d.runs := rfl
@[simp] theorem Dev.setFld_inj (d : Dev) (pg off hi lo v : Nat) : (d.setFld pg off hi lo v).inj = d.inj := rfl
@[simp] theorem Dev.setFld_cap (d : Dev) (pg off hi lo v : Nat) : (d.setFld pg off hi lo v).cap = d.cap := rfl
@[simp] theorem Dev.setFld_sram (d : Dev) (pg off hi lo v : Nat) : (d.setFld pg off hi lo v).sram = d.sram := rfl
@[simp] theorem Dev.setFld_sramA (d : Dev) (pg off hi lo v : Nat) : (d.setFld pg off hi lo v).sramA = d.sramA := rfl
@[simp] theorem Dev.setFld_sramB (d : Dev) (pg off hi lo v : Nat) : (d.setFld pg off hi lo v).sramB = d.sramB := rfl
@[simp] theorem Dev.setFld_sramS (d : Dev) (pg off hi lo v : Nat) : (d.setFld pg off hi lo v).sramS = d.sramS := rfl
@[simp] theorem Dev.setFld_live (d : Dev) (pg off hi lo v : Nat) : (d.setFld pg off hi lo v).live = d.live := rfl
@[simp] theorem Dev.setFld_sense (d : Dev) (pg off hi lo v : Nat) : (d.setFld pg off hi lo v).sense = d.sense := rfl
@[simp] theorem Dev.setFld_adm (d : Dev) (pg off hi lo v : Nat) : (d.setFld pg off hi lo v).adm = d.adm := rfl
@[simp] theorem Dev.setFld_twin (d : Dev) (pg off hi lo v : Nat) : (d.setFld pg off hi lo v).twin = d.twin := rfl
@[simp] theorem Dev.setFld_jrn (d : Dev) (pg off hi lo v : Nat) : (d.setFld pg off hi lo v).jrn = d.jrn := rfl
@[simp] theorem Dev.setFld_nv (d : Dev) (pg off hi lo v : Nat) : (d.setFld pg off hi lo v).nv = d.nv := rfl
@[simp] theorem Dev.setFld_peat (d : Dev) (pg off hi lo v : Nat) : (d.setFld pg off hi lo v).peat = d.peat := rfl
@[simp] theorem Dev.setFld_crust (d : Dev) (pg off hi lo v : Nat) : (d.setFld pg off hi lo v).crust = d.crust := rfl
@[simp] theorem Dev.setFld_feedA (d : Dev) (pg off hi lo v : Nat) : (d.setFld pg off hi lo v).feedA = d.feedA := rfl
@[simp] theorem Dev.setFld_feedB (d : Dev) (pg off hi lo v : Nat) : (d.setFld pg off hi lo v).feedB = d.feedB := rfl
@[simp] theorem Dev.setFld_xfer (d : Dev) (pg off hi lo v : Nat) : (d.setFld pg off hi lo v).xfer = d.xfer := rfl
@[simp] theorem Dev.setFld_hs (d : Dev) (pg off hi lo v : Nat) : (d.setFld pg off hi lo v).hs = d.hs := rfl
@[simp] theorem Dev.setFld_fh (d : Dev) (pg off hi lo v : Nat) : (d.setFld pg off hi lo v).fh = d.fh := rfl
@[simp] theorem Dev.setFld_bbus (d : Dev) (pg off hi lo v : Nat) : (d.setFld pg off hi lo v).bbus = d.bbus := rfl
@[simp] theorem Dev.setFld_therm (d : Dev) (pg off hi lo v : Nat) : (d.setFld pg off hi lo v).therm = d.therm := rfl
@[simp] theorem Dev.setFld_twT (d : Dev) (pg off hi lo v : Nat) : (d.setFld pg off hi lo v).twT = d.twT := rfl
@[simp] theorem Dev.setFld_twC (d : Dev) (pg off hi lo v : Nat) : (d.setFld pg off hi lo v).twC = d.twC := rfl
@[simp] theorem Dev.setFld_upd (d : Dev) (pg off hi lo v : Nat) : (d.setFld pg off hi lo v).upd = d.upd := rfl
@[simp] theorem Dev.setFld_mie (d : Dev) (pg off hi lo v : Nat) : (d.setFld pg off hi lo v).mie = d.mie := rfl
@[simp] theorem Dev.setFld_dma (d : Dev) (pg off hi lo v : Nat) : (d.setFld pg off hi lo v).dma = d.dma := rfl

@[simp] theorem Dev.occur_time (d : Dev) (pg bit : Nat) : (d.occur pg bit).time = d.time := rfl
@[simp] theorem Dev.occur_sched (d : Dev) (pg bit : Nat) : (d.occur pg bit).sched = d.sched := rfl
@[simp] theorem Dev.occur_die (d : Dev) (pg bit : Nat) : (d.occur pg bit).die = d.die := rfl
@[simp] theorem Dev.occur_regs (d : Dev) (pg bit : Nat) : (d.occur pg bit).regs = d.regs := rfl
@[simp] theorem Dev.occur_ident (d : Dev) (pg bit : Nat) : (d.occur pg bit).ident = d.ident := rfl
@[simp] theorem Dev.occur_sup (d : Dev) (pg bit : Nat) : (d.occur pg bit).sup = d.sup := rfl
@[simp] theorem Dev.occur_rails (d : Dev) (pg bit : Nat) : (d.occur pg bit).rails = d.rails := rfl
@[simp] theorem Dev.occur_units (d : Dev) (pg bit : Nat) : (d.occur pg bit).units = d.units := rfl
@[simp] theorem Dev.occur_clusters (d : Dev) (pg bit : Nat) : (d.occur pg bit).clusters = d.clusters := rfl
@[simp] theorem Dev.occur_runs (d : Dev) (pg bit : Nat) : (d.occur pg bit).runs = d.runs := rfl
@[simp] theorem Dev.occur_inj (d : Dev) (pg bit : Nat) : (d.occur pg bit).inj = d.inj := rfl
@[simp] theorem Dev.occur_cap (d : Dev) (pg bit : Nat) : (d.occur pg bit).cap = d.cap := rfl
@[simp] theorem Dev.occur_sram (d : Dev) (pg bit : Nat) : (d.occur pg bit).sram = d.sram := rfl
@[simp] theorem Dev.occur_sramA (d : Dev) (pg bit : Nat) : (d.occur pg bit).sramA = d.sramA := rfl
@[simp] theorem Dev.occur_sramB (d : Dev) (pg bit : Nat) : (d.occur pg bit).sramB = d.sramB := rfl
@[simp] theorem Dev.occur_sramS (d : Dev) (pg bit : Nat) : (d.occur pg bit).sramS = d.sramS := rfl
@[simp] theorem Dev.occur_live (d : Dev) (pg bit : Nat) : (d.occur pg bit).live = d.live := rfl
@[simp] theorem Dev.occur_sense (d : Dev) (pg bit : Nat) : (d.occur pg bit).sense = d.sense := rfl
@[simp] theorem Dev.occur_adm (d : Dev) (pg bit : Nat) : (d.occur pg bit).adm = d.adm := rfl
@[simp] theorem Dev.occur_twin (d : Dev) (pg bit : Nat) : (d.occur pg bit).twin = d.twin := rfl
@[simp] theorem Dev.occur_jrn (d : Dev) (pg bit : Nat) : (d.occur pg bit).jrn = d.jrn := rfl
@[simp] theorem Dev.occur_nv (d : Dev) (pg bit : Nat) : (d.occur pg bit).nv = d.nv := rfl
@[simp] theorem Dev.occur_peat (d : Dev) (pg bit : Nat) : (d.occur pg bit).peat = d.peat := rfl
@[simp] theorem Dev.occur_crust (d : Dev) (pg bit : Nat) : (d.occur pg bit).crust = d.crust := rfl
@[simp] theorem Dev.occur_feedA (d : Dev) (pg bit : Nat) : (d.occur pg bit).feedA = d.feedA := rfl
@[simp] theorem Dev.occur_feedB (d : Dev) (pg bit : Nat) : (d.occur pg bit).feedB = d.feedB := rfl
@[simp] theorem Dev.occur_xfer (d : Dev) (pg bit : Nat) : (d.occur pg bit).xfer = d.xfer := rfl
@[simp] theorem Dev.occur_hs (d : Dev) (pg bit : Nat) : (d.occur pg bit).hs = d.hs := rfl
@[simp] theorem Dev.occur_fh (d : Dev) (pg bit : Nat) : (d.occur pg bit).fh = d.fh := rfl
@[simp] theorem Dev.occur_bbus (d : Dev) (pg bit : Nat) : (d.occur pg bit).bbus = d.bbus := rfl
@[simp] theorem Dev.occur_therm (d : Dev) (pg bit : Nat) : (d.occur pg bit).therm = d.therm := rfl
@[simp] theorem Dev.occur_twT (d : Dev) (pg bit : Nat) : (d.occur pg bit).twT = d.twT := rfl
@[simp] theorem Dev.occur_twC (d : Dev) (pg bit : Nat) : (d.occur pg bit).twC = d.twC := rfl
@[simp] theorem Dev.occur_upd (d : Dev) (pg bit : Nat) : (d.occur pg bit).upd = d.upd := rfl
@[simp] theorem Dev.occur_mie (d : Dev) (pg bit : Nat) : (d.occur pg bit).mie = d.mie := rfl
@[simp] theorem Dev.occur_dma (d : Dev) (pg bit : Nat) : (d.occur pg bit).dma = d.dma := rfl

@[simp] theorem Dev.occurC_time (d : Dev) (pg bit code : Nat) : (d.occurC pg bit code).time = d.time := rfl
@[simp] theorem Dev.occurC_sched (d : Dev) (pg bit code : Nat) : (d.occurC pg bit code).sched = d.sched := rfl
@[simp] theorem Dev.occurC_die (d : Dev) (pg bit code : Nat) : (d.occurC pg bit code).die = d.die := rfl
@[simp] theorem Dev.occurC_regs (d : Dev) (pg bit code : Nat) : (d.occurC pg bit code).regs = d.regs := rfl
@[simp] theorem Dev.occurC_ident (d : Dev) (pg bit code : Nat) : (d.occurC pg bit code).ident = d.ident := rfl
@[simp] theorem Dev.occurC_sup (d : Dev) (pg bit code : Nat) : (d.occurC pg bit code).sup = d.sup := rfl
@[simp] theorem Dev.occurC_rails (d : Dev) (pg bit code : Nat) : (d.occurC pg bit code).rails = d.rails := rfl
@[simp] theorem Dev.occurC_units (d : Dev) (pg bit code : Nat) : (d.occurC pg bit code).units = d.units := rfl
@[simp] theorem Dev.occurC_clusters (d : Dev) (pg bit code : Nat) : (d.occurC pg bit code).clusters = d.clusters := rfl
@[simp] theorem Dev.occurC_runs (d : Dev) (pg bit code : Nat) : (d.occurC pg bit code).runs = d.runs := rfl
@[simp] theorem Dev.occurC_inj (d : Dev) (pg bit code : Nat) : (d.occurC pg bit code).inj = d.inj := rfl
@[simp] theorem Dev.occurC_cap (d : Dev) (pg bit code : Nat) : (d.occurC pg bit code).cap = d.cap := rfl
@[simp] theorem Dev.occurC_sram (d : Dev) (pg bit code : Nat) : (d.occurC pg bit code).sram = d.sram := rfl
@[simp] theorem Dev.occurC_sramA (d : Dev) (pg bit code : Nat) : (d.occurC pg bit code).sramA = d.sramA := rfl
@[simp] theorem Dev.occurC_sramB (d : Dev) (pg bit code : Nat) : (d.occurC pg bit code).sramB = d.sramB := rfl
@[simp] theorem Dev.occurC_sramS (d : Dev) (pg bit code : Nat) : (d.occurC pg bit code).sramS = d.sramS := rfl
@[simp] theorem Dev.occurC_live (d : Dev) (pg bit code : Nat) : (d.occurC pg bit code).live = d.live := rfl
@[simp] theorem Dev.occurC_sense (d : Dev) (pg bit code : Nat) : (d.occurC pg bit code).sense = d.sense := rfl
@[simp] theorem Dev.occurC_adm (d : Dev) (pg bit code : Nat) : (d.occurC pg bit code).adm = d.adm := rfl
@[simp] theorem Dev.occurC_twin (d : Dev) (pg bit code : Nat) : (d.occurC pg bit code).twin = d.twin := rfl
@[simp] theorem Dev.occurC_jrn (d : Dev) (pg bit code : Nat) : (d.occurC pg bit code).jrn = d.jrn := rfl
@[simp] theorem Dev.occurC_nv (d : Dev) (pg bit code : Nat) : (d.occurC pg bit code).nv = d.nv := rfl
@[simp] theorem Dev.occurC_peat (d : Dev) (pg bit code : Nat) : (d.occurC pg bit code).peat = d.peat := rfl
@[simp] theorem Dev.occurC_crust (d : Dev) (pg bit code : Nat) : (d.occurC pg bit code).crust = d.crust := rfl
@[simp] theorem Dev.occurC_feedA (d : Dev) (pg bit code : Nat) : (d.occurC pg bit code).feedA = d.feedA := rfl
@[simp] theorem Dev.occurC_feedB (d : Dev) (pg bit code : Nat) : (d.occurC pg bit code).feedB = d.feedB := rfl
@[simp] theorem Dev.occurC_xfer (d : Dev) (pg bit code : Nat) : (d.occurC pg bit code).xfer = d.xfer := rfl
@[simp] theorem Dev.occurC_hs (d : Dev) (pg bit code : Nat) : (d.occurC pg bit code).hs = d.hs := rfl
@[simp] theorem Dev.occurC_fh (d : Dev) (pg bit code : Nat) : (d.occurC pg bit code).fh = d.fh := rfl
@[simp] theorem Dev.occurC_bbus (d : Dev) (pg bit code : Nat) : (d.occurC pg bit code).bbus = d.bbus := rfl
@[simp] theorem Dev.occurC_therm (d : Dev) (pg bit code : Nat) : (d.occurC pg bit code).therm = d.therm := rfl
@[simp] theorem Dev.occurC_twT (d : Dev) (pg bit code : Nat) : (d.occurC pg bit code).twT = d.twT := rfl
@[simp] theorem Dev.occurC_twC (d : Dev) (pg bit code : Nat) : (d.occurC pg bit code).twC = d.twC := rfl
@[simp] theorem Dev.occurC_upd (d : Dev) (pg bit code : Nat) : (d.occurC pg bit code).upd = d.upd := rfl
@[simp] theorem Dev.occurC_mie (d : Dev) (pg bit code : Nat) : (d.occurC pg bit code).mie = d.mie := rfl
@[simp] theorem Dev.occurC_dma (d : Dev) (pg bit code : Nat) : (d.occurC pg bit code).dma = d.dma := rfl

@[simp] theorem Dev.putOp_time (d : Dev) (desc i : Nat) (v : Int) : (d.putOp desc i v).time = d.time := rfl
@[simp] theorem Dev.putOp_sched (d : Dev) (desc i : Nat) (v : Int) : (d.putOp desc i v).sched = d.sched := rfl
@[simp] theorem Dev.putOp_die (d : Dev) (desc i : Nat) (v : Int) : (d.putOp desc i v).die = d.die := rfl
@[simp] theorem Dev.putOp_regs (d : Dev) (desc i : Nat) (v : Int) : (d.putOp desc i v).regs = d.regs := rfl
@[simp] theorem Dev.putOp_stat (d : Dev) (desc i : Nat) (v : Int) : (d.putOp desc i v).stat = d.stat := rfl
@[simp] theorem Dev.putOp_ident (d : Dev) (desc i : Nat) (v : Int) : (d.putOp desc i v).ident = d.ident := rfl
@[simp] theorem Dev.putOp_sup (d : Dev) (desc i : Nat) (v : Int) : (d.putOp desc i v).sup = d.sup := rfl
@[simp] theorem Dev.putOp_rails (d : Dev) (desc i : Nat) (v : Int) : (d.putOp desc i v).rails = d.rails := rfl
@[simp] theorem Dev.putOp_units (d : Dev) (desc i : Nat) (v : Int) : (d.putOp desc i v).units = d.units := rfl
@[simp] theorem Dev.putOp_clusters (d : Dev) (desc i : Nat) (v : Int) : (d.putOp desc i v).clusters = d.clusters := rfl
@[simp] theorem Dev.putOp_runs (d : Dev) (desc i : Nat) (v : Int) : (d.putOp desc i v).runs = d.runs := rfl
@[simp] theorem Dev.putOp_inj (d : Dev) (desc i : Nat) (v : Int) : (d.putOp desc i v).inj = d.inj := rfl
@[simp] theorem Dev.putOp_cap (d : Dev) (desc i : Nat) (v : Int) : (d.putOp desc i v).cap = d.cap := rfl
@[simp] theorem Dev.putOp_sram (d : Dev) (desc i : Nat) (v : Int) :
    (d.putOp desc i v).sram = memPutWord d.sram (descAddr desc + 4 * i) (unsigned 32 v) := rfl
@[simp] theorem Dev.putOp_sramA (d : Dev) (desc i : Nat) (v : Int) : (d.putOp desc i v).sramA = d.sramA := rfl
@[simp] theorem Dev.putOp_sramB (d : Dev) (desc i : Nat) (v : Int) : (d.putOp desc i v).sramB = d.sramB := rfl
@[simp] theorem Dev.putOp_sramS (d : Dev) (desc i : Nat) (v : Int) : (d.putOp desc i v).sramS = d.sramS := rfl
@[simp] theorem Dev.putOp_live (d : Dev) (desc i : Nat) (v : Int) : (d.putOp desc i v).live = d.live := rfl
@[simp] theorem Dev.putOp_sense (d : Dev) (desc i : Nat) (v : Int) : (d.putOp desc i v).sense = d.sense := rfl
@[simp] theorem Dev.putOp_adm (d : Dev) (desc i : Nat) (v : Int) : (d.putOp desc i v).adm = d.adm := rfl
@[simp] theorem Dev.putOp_twin (d : Dev) (desc i : Nat) (v : Int) : (d.putOp desc i v).twin = d.twin := rfl
@[simp] theorem Dev.putOp_jrn (d : Dev) (desc i : Nat) (v : Int) : (d.putOp desc i v).jrn = d.jrn := rfl
@[simp] theorem Dev.putOp_nv (d : Dev) (desc i : Nat) (v : Int) : (d.putOp desc i v).nv = d.nv := rfl
@[simp] theorem Dev.putOp_peat (d : Dev) (desc i : Nat) (v : Int) : (d.putOp desc i v).peat = d.peat := rfl
@[simp] theorem Dev.putOp_crust (d : Dev) (desc i : Nat) (v : Int) : (d.putOp desc i v).crust = d.crust := rfl
@[simp] theorem Dev.putOp_feedA (d : Dev) (desc i : Nat) (v : Int) : (d.putOp desc i v).feedA = d.feedA := rfl
@[simp] theorem Dev.putOp_feedB (d : Dev) (desc i : Nat) (v : Int) : (d.putOp desc i v).feedB = d.feedB := rfl
@[simp] theorem Dev.putOp_xfer (d : Dev) (desc i : Nat) (v : Int) : (d.putOp desc i v).xfer = d.xfer := rfl
@[simp] theorem Dev.putOp_hs (d : Dev) (desc i : Nat) (v : Int) : (d.putOp desc i v).hs = d.hs := rfl
@[simp] theorem Dev.putOp_fh (d : Dev) (desc i : Nat) (v : Int) : (d.putOp desc i v).fh = d.fh := rfl
@[simp] theorem Dev.putOp_bbus (d : Dev) (desc i : Nat) (v : Int) : (d.putOp desc i v).bbus = d.bbus := rfl
@[simp] theorem Dev.putOp_therm (d : Dev) (desc i : Nat) (v : Int) : (d.putOp desc i v).therm = d.therm := rfl
@[simp] theorem Dev.putOp_twT (d : Dev) (desc i : Nat) (v : Int) : (d.putOp desc i v).twT = d.twT := rfl
@[simp] theorem Dev.putOp_twC (d : Dev) (desc i : Nat) (v : Int) : (d.putOp desc i v).twC = d.twC := rfl
@[simp] theorem Dev.putOp_upd (d : Dev) (desc i : Nat) (v : Int) : (d.putOp desc i v).upd = d.upd := rfl
@[simp] theorem Dev.putOp_mie (d : Dev) (desc i : Nat) (v : Int) : (d.putOp desc i v).mie = d.mie := rfl
@[simp] theorem Dev.putOp_dma (d : Dev) (desc i : Nat) (v : Int) : (d.putOp desc i v).dma = d.dma := rfl

@[simp] theorem Dev.updTwin_time (d : Dev) (t : Twin) (f : TwinSt → TwinSt) : (d.updTwin t f).time = d.time := by cases t <;> rfl
@[simp] theorem Dev.updTwin_sched (d : Dev) (t : Twin) (f : TwinSt → TwinSt) : (d.updTwin t f).sched = d.sched := by cases t <;> rfl
@[simp] theorem Dev.updTwin_die (d : Dev) (t : Twin) (f : TwinSt → TwinSt) : (d.updTwin t f).die = d.die := by cases t <;> rfl
@[simp] theorem Dev.updTwin_regs (d : Dev) (t : Twin) (f : TwinSt → TwinSt) : (d.updTwin t f).regs = d.regs := by cases t <;> rfl
@[simp] theorem Dev.updTwin_stat (d : Dev) (t : Twin) (f : TwinSt → TwinSt) : (d.updTwin t f).stat = d.stat := by cases t <;> rfl
@[simp] theorem Dev.updTwin_ident (d : Dev) (t : Twin) (f : TwinSt → TwinSt) : (d.updTwin t f).ident = d.ident := by cases t <;> rfl
@[simp] theorem Dev.updTwin_sup (d : Dev) (t : Twin) (f : TwinSt → TwinSt) : (d.updTwin t f).sup = d.sup := by cases t <;> rfl
@[simp] theorem Dev.updTwin_rails (d : Dev) (t : Twin) (f : TwinSt → TwinSt) : (d.updTwin t f).rails = d.rails := by cases t <;> rfl
@[simp] theorem Dev.updTwin_units (d : Dev) (t : Twin) (f : TwinSt → TwinSt) : (d.updTwin t f).units = d.units := by cases t <;> rfl
@[simp] theorem Dev.updTwin_clusters (d : Dev) (t : Twin) (f : TwinSt → TwinSt) : (d.updTwin t f).clusters = d.clusters := by cases t <;> rfl
@[simp] theorem Dev.updTwin_runs (d : Dev) (t : Twin) (f : TwinSt → TwinSt) : (d.updTwin t f).runs = d.runs := by cases t <;> rfl
@[simp] theorem Dev.updTwin_inj (d : Dev) (t : Twin) (f : TwinSt → TwinSt) : (d.updTwin t f).inj = d.inj := by cases t <;> rfl
@[simp] theorem Dev.updTwin_cap (d : Dev) (t : Twin) (f : TwinSt → TwinSt) : (d.updTwin t f).cap = d.cap := by cases t <;> rfl
@[simp] theorem Dev.updTwin_sram (d : Dev) (t : Twin) (f : TwinSt → TwinSt) : (d.updTwin t f).sram = d.sram := by cases t <;> rfl
@[simp] theorem Dev.updTwin_sramA (d : Dev) (t : Twin) (f : TwinSt → TwinSt) : (d.updTwin t f).sramA = d.sramA := by cases t <;> rfl
@[simp] theorem Dev.updTwin_sramB (d : Dev) (t : Twin) (f : TwinSt → TwinSt) : (d.updTwin t f).sramB = d.sramB := by cases t <;> rfl
@[simp] theorem Dev.updTwin_sramS (d : Dev) (t : Twin) (f : TwinSt → TwinSt) : (d.updTwin t f).sramS = d.sramS := by cases t <;> rfl
@[simp] theorem Dev.updTwin_live (d : Dev) (t : Twin) (f : TwinSt → TwinSt) : (d.updTwin t f).live = d.live := by cases t <;> rfl
@[simp] theorem Dev.updTwin_sense (d : Dev) (t : Twin) (f : TwinSt → TwinSt) : (d.updTwin t f).sense = d.sense := by cases t <;> rfl
@[simp] theorem Dev.updTwin_adm (d : Dev) (t : Twin) (f : TwinSt → TwinSt) : (d.updTwin t f).adm = d.adm := by cases t <;> rfl
@[simp] theorem Dev.updTwin_jrn (d : Dev) (t : Twin) (f : TwinSt → TwinSt) : (d.updTwin t f).jrn = d.jrn := by cases t <;> rfl
@[simp] theorem Dev.updTwin_nv (d : Dev) (t : Twin) (f : TwinSt → TwinSt) : (d.updTwin t f).nv = d.nv := by cases t <;> rfl
@[simp] theorem Dev.updTwin_peat (d : Dev) (t : Twin) (f : TwinSt → TwinSt) : (d.updTwin t f).peat = d.peat := by cases t <;> rfl
@[simp] theorem Dev.updTwin_crust (d : Dev) (t : Twin) (f : TwinSt → TwinSt) : (d.updTwin t f).crust = d.crust := by cases t <;> rfl
@[simp] theorem Dev.updTwin_feedA (d : Dev) (t : Twin) (f : TwinSt → TwinSt) : (d.updTwin t f).feedA = d.feedA := by cases t <;> rfl
@[simp] theorem Dev.updTwin_feedB (d : Dev) (t : Twin) (f : TwinSt → TwinSt) : (d.updTwin t f).feedB = d.feedB := by cases t <;> rfl
@[simp] theorem Dev.updTwin_xfer (d : Dev) (t : Twin) (f : TwinSt → TwinSt) : (d.updTwin t f).xfer = d.xfer := by cases t <;> rfl
@[simp] theorem Dev.updTwin_hs (d : Dev) (t : Twin) (f : TwinSt → TwinSt) : (d.updTwin t f).hs = d.hs := by cases t <;> rfl
@[simp] theorem Dev.updTwin_fh (d : Dev) (t : Twin) (f : TwinSt → TwinSt) : (d.updTwin t f).fh = d.fh := by cases t <;> rfl
@[simp] theorem Dev.updTwin_bbus (d : Dev) (t : Twin) (f : TwinSt → TwinSt) : (d.updTwin t f).bbus = d.bbus := by cases t <;> rfl
@[simp] theorem Dev.updTwin_therm (d : Dev) (t : Twin) (f : TwinSt → TwinSt) : (d.updTwin t f).therm = d.therm := by cases t <;> rfl
@[simp] theorem Dev.updTwin_twT (d : Dev) (t : Twin) (f : TwinSt → TwinSt) : (d.updTwin t f).twT = d.twT := by cases t <;> rfl
@[simp] theorem Dev.updTwin_twC (d : Dev) (t : Twin) (f : TwinSt → TwinSt) : (d.updTwin t f).twC = d.twC := by cases t <;> rfl
@[simp] theorem Dev.updTwin_upd (d : Dev) (t : Twin) (f : TwinSt → TwinSt) : (d.updTwin t f).upd = d.upd := by cases t <;> rfl
@[simp] theorem Dev.updTwin_mie (d : Dev) (t : Twin) (f : TwinSt → TwinSt) : (d.updTwin t f).mie = d.mie := by cases t <;> rfl
@[simp] theorem Dev.updTwin_dma (d : Dev) (t : Twin) (f : TwinSt → TwinSt) : (d.updTwin t f).dma = d.dma := by cases t <;> rfl

@[simp] theorem Dev.updFeed_time (d : Dev) (x : FeedId) (f : Feed → Feed) : (d.updFeed x f).time = d.time := by cases x <;> rfl
@[simp] theorem Dev.updFeed_sched (d : Dev) (x : FeedId) (f : Feed → Feed) : (d.updFeed x f).sched = d.sched := by cases x <;> rfl
@[simp] theorem Dev.updFeed_die (d : Dev) (x : FeedId) (f : Feed → Feed) : (d.updFeed x f).die = d.die := by cases x <;> rfl
@[simp] theorem Dev.updFeed_regs (d : Dev) (x : FeedId) (f : Feed → Feed) : (d.updFeed x f).regs = d.regs := by cases x <;> rfl
@[simp] theorem Dev.updFeed_stat (d : Dev) (x : FeedId) (f : Feed → Feed) : (d.updFeed x f).stat = d.stat := by cases x <;> rfl
@[simp] theorem Dev.updFeed_ident (d : Dev) (x : FeedId) (f : Feed → Feed) : (d.updFeed x f).ident = d.ident := by cases x <;> rfl
@[simp] theorem Dev.updFeed_sup (d : Dev) (x : FeedId) (f : Feed → Feed) : (d.updFeed x f).sup = d.sup := by cases x <;> rfl
@[simp] theorem Dev.updFeed_rails (d : Dev) (x : FeedId) (f : Feed → Feed) : (d.updFeed x f).rails = d.rails := by cases x <;> rfl
@[simp] theorem Dev.updFeed_units (d : Dev) (x : FeedId) (f : Feed → Feed) : (d.updFeed x f).units = d.units := by cases x <;> rfl
@[simp] theorem Dev.updFeed_clusters (d : Dev) (x : FeedId) (f : Feed → Feed) : (d.updFeed x f).clusters = d.clusters := by cases x <;> rfl
@[simp] theorem Dev.updFeed_runs (d : Dev) (x : FeedId) (f : Feed → Feed) : (d.updFeed x f).runs = d.runs := by cases x <;> rfl
@[simp] theorem Dev.updFeed_inj (d : Dev) (x : FeedId) (f : Feed → Feed) : (d.updFeed x f).inj = d.inj := by cases x <;> rfl
@[simp] theorem Dev.updFeed_cap (d : Dev) (x : FeedId) (f : Feed → Feed) : (d.updFeed x f).cap = d.cap := by cases x <;> rfl
@[simp] theorem Dev.updFeed_sram (d : Dev) (x : FeedId) (f : Feed → Feed) : (d.updFeed x f).sram = d.sram := by cases x <;> rfl
@[simp] theorem Dev.updFeed_sramA (d : Dev) (x : FeedId) (f : Feed → Feed) : (d.updFeed x f).sramA = d.sramA := by cases x <;> rfl
@[simp] theorem Dev.updFeed_sramB (d : Dev) (x : FeedId) (f : Feed → Feed) : (d.updFeed x f).sramB = d.sramB := by cases x <;> rfl
@[simp] theorem Dev.updFeed_sramS (d : Dev) (x : FeedId) (f : Feed → Feed) : (d.updFeed x f).sramS = d.sramS := by cases x <;> rfl
@[simp] theorem Dev.updFeed_live (d : Dev) (x : FeedId) (f : Feed → Feed) : (d.updFeed x f).live = d.live := by cases x <;> rfl
@[simp] theorem Dev.updFeed_sense (d : Dev) (x : FeedId) (f : Feed → Feed) : (d.updFeed x f).sense = d.sense := by cases x <;> rfl
@[simp] theorem Dev.updFeed_adm (d : Dev) (x : FeedId) (f : Feed → Feed) : (d.updFeed x f).adm = d.adm := by cases x <;> rfl
@[simp] theorem Dev.updFeed_twin (d : Dev) (x : FeedId) (f : Feed → Feed) : (d.updFeed x f).twin = d.twin := by cases x <;> rfl
@[simp] theorem Dev.updFeed_jrn (d : Dev) (x : FeedId) (f : Feed → Feed) : (d.updFeed x f).jrn = d.jrn := by cases x <;> rfl
@[simp] theorem Dev.updFeed_nv (d : Dev) (x : FeedId) (f : Feed → Feed) : (d.updFeed x f).nv = d.nv := by cases x <;> rfl
@[simp] theorem Dev.updFeed_peat (d : Dev) (x : FeedId) (f : Feed → Feed) : (d.updFeed x f).peat = d.peat := by cases x <;> rfl
@[simp] theorem Dev.updFeed_crust (d : Dev) (x : FeedId) (f : Feed → Feed) : (d.updFeed x f).crust = d.crust := by cases x <;> rfl
@[simp] theorem Dev.updFeed_xfer (d : Dev) (x : FeedId) (f : Feed → Feed) : (d.updFeed x f).xfer = d.xfer := by cases x <;> rfl
@[simp] theorem Dev.updFeed_hs (d : Dev) (x : FeedId) (f : Feed → Feed) : (d.updFeed x f).hs = d.hs := by cases x <;> rfl
@[simp] theorem Dev.updFeed_fh (d : Dev) (x : FeedId) (f : Feed → Feed) : (d.updFeed x f).fh = d.fh := by cases x <;> rfl
@[simp] theorem Dev.updFeed_bbus (d : Dev) (x : FeedId) (f : Feed → Feed) : (d.updFeed x f).bbus = d.bbus := by cases x <;> rfl
@[simp] theorem Dev.updFeed_therm (d : Dev) (x : FeedId) (f : Feed → Feed) : (d.updFeed x f).therm = d.therm := by cases x <;> rfl
@[simp] theorem Dev.updFeed_twT (d : Dev) (x : FeedId) (f : Feed → Feed) : (d.updFeed x f).twT = d.twT := by cases x <;> rfl
@[simp] theorem Dev.updFeed_twC (d : Dev) (x : FeedId) (f : Feed → Feed) : (d.updFeed x f).twC = d.twC := by cases x <;> rfl
@[simp] theorem Dev.updFeed_upd (d : Dev) (x : FeedId) (f : Feed → Feed) : (d.updFeed x f).upd = d.upd := by cases x <;> rfl
@[simp] theorem Dev.updFeed_mie (d : Dev) (x : FeedId) (f : Feed → Feed) : (d.updFeed x f).mie = d.mie := by cases x <;> rfl
@[simp] theorem Dev.updFeed_dma (d : Dev) (x : FeedId) (f : Feed → Feed) : (d.updFeed x f).dma = d.dma := by cases x <;> rfl

end Sys2Proof.Machine
end

