-- ==== Sys2Proof/Tests/Slice0.lean ====
section
/-! SUPPORT. For each statement with hypotheses a state and operands that meet all of them; an ill-formed term for each check of
WellFormed; and a few checks of values that the specification states. -/

open Sys2Proof Sys2Proof.Machine

namespace Sys2Proof.Tests

set_option linter.unusedVariables false
set_option Elab.async false

/-- A tick in which nothing happens on the board. -/
def wTick : TickIn :=
  { phaseX := List.replicate 72 0, preX := List.replicate 17 0, tempC := List.replicate 8 0, tfltUv := List.replicate 64 3300000, pgi := 0,
    feedA := ⟨false, false, true⟩, feedB := ⟨false, false, true⟩, hsOn := 0, hsOff := 15, pbLow := false, vrefxMv := 0,
    vote := .agree, crcFailA := false, crcFailB := false, nvErrA := none, nvErrB := none, missA := [], missB := [],
    parityA := none, parityB := none, hbMissA := false, hbMissB := false }

def wFrond : FrondIn :=
  { tempA := List.replicate 10 0, tempB := List.replicate 10 0, setp := List.replicate 4 (0, 0, 0), sHbA := true, sHbB := true }

/-- The block with its last tick at phase 255, the boundary's own work done. -/
def wBound (d : Dev) : Dev := { d with time := { d.time with started := true, tseq := 255 } }

def wItem (code : Nat) (args : List Byte) : WorkItem :=
  { jseq := 0, src := 0x1000, seq := 0, code := code, args := args, slot := 0, tick := 0, fabric := false, exec := false,
    started := false, replay := false, result := none, timed := none }

/-- The block with one item of accepted work. -/
def wHead (d : Dev) (w : WorkItem) : Dev := d.updJrn fun j => { j with queue := [w] }

/-- Rail 0 may shed: SHED_EN is set and more than N_MIN units are active. -/
def wShed (d : Dev) : Dev :=
  (((d.setFld (railPg 0) 0x40 7 7 1).setFld (railPg 0) 0x40 14 8 0).setFld (unitPg 0) 0x40 2 0 1 |>.updUnit 0
    fun u => { u with st := .active }) |>.updRail 0 fun x => { x with st := .regulate, dwell := 100000, noMark := 0 }

/-- Feed `f` is enabled, its member's output on. -/
def wFeedOn (d : Dev) (f : FeedId) (g : Feed → Feed) : Dev :=
  let i := match f with | .a => 4 | .b => 5
  let d := (d.setFld 0x98 0x40 0 0 1).setFld 0x98 0x40 1 1 1
  (d.updFeed f g).updMbr i fun m => { m with out := true }

/-- Feed A carries and is no longer valid; feed B is ready. -/
def wFeeds (d : Dev) : Dev :=
  (wFeedOn (d.updFeed .a fun x => { x with st := .on, fail := 255 }) .b fun x => { x with st := .ready }).updXfer
    fun x => { x with carry0 := some .a }

/-- Feed B carries; feed A is preferred and has been ready long enough. -/
def wReturn (d : Dev) : Dev :=
  ((wFeedOn (d.updFeed .b fun x => { x with st := .on }) .a fun x => { x with st := .ready, readyN := 100000000 }).updMbr 5
    fun m => { m with out := true }) |>.updXfer (fun x => { x with carry0 := some .b }) |>.setFld 0x98 0x40 3 3 1

/-- No feed carries; feed B is ready. -/
def wInsert (d : Dev) : Dev := wFeedOn d .b fun x => { x with st := .ready }

def wRow (pg off : Nat) : RegRow := (regRow pg off).getD ⟨0, 0, 0, 0, 0, 0, 0, 0, 0, 0, 0, 0, .management⟩

def wFrame (v : Nat) : StepFrame := BitVec.ofNat 64 v

/-- The first request frame to be decided in this tick is `v`, on port `n`. -/
def wAdm (d : Dev) (n v : Nat) : Dev :=
  (d.updPort n fun p => { p with slot := some (wFrame v) }).updLed fun l => { l with admitDue := true }

/-- Grant-table entry 255 is enabled. -/
def wLoad (d : Dev) : Dev := d.setReg (gtPg 255) (gtOff 255 0) 0x80000000

def wCal (d : Dev) (f : CalSt → CalSt) : Dev := { d with sense := { d.sense with cal := f d.sense.cal } }

def wMeas : CalMeas := ⟨0, 0, 0, 0, 0⟩

/-- Crust item `i` holds `v`. -/
def wCrust (d : Dev) (i : Nat) (v : List Byte) : Dev := { d with crust := { d.crust with force := updAt d.crust.force i fun _ => v } }

/-- A broadcast frame of device 1. -/
def wMf (kind : Nat) : MFrame :=
  { kind := kind, format := 1, ring := 0, bcast := true, link := false, restart := false, src := 1, dst := 0, fseq := 0,
    hops := 5, payload := [], crc := 0 }

/-- A HEARTBEAT under this device's own identity with another serial number. -/
def wHb : MFrame :=
  mieSeal { wMf 4 with src := 0, payload := leBytes 8 (if Config.devSerial.toNat = 0 then 1 else 0) }

/-- The running image has a MALL entry in every phase and tier. -/
def wMall (d : Dev) : Dev := { d with sched := { d.sched with bank0 := [⟨0, 0, 0, 0xF8003D00⟩] } }

def wMember : RowMember := ⟨0, some 0, 0, false, false, false, some ⟨0, 0, 0, 0, 0, 0, true, false, 0⟩, none, List.replicate 8 0, []⟩

/-- The state after reset with a change of the block. -/
abbrev wS (f : Dev → Dev) : State := State.reset.upd f

/-! ### Witnesses: `allN P l` says that `P` holds of every listed tuple of state and operands -/

def all1 {α0 : Type} (P : α0 → Prop) (l : List (α0)) : Prop :=
  ∀ p ∈ l, P p
def all2 {α0 α1 : Type} (P : α0 → α1 → Prop) (l : List (α0 × α1)) : Prop :=
  ∀ p ∈ l, P p.1 p.2
def all3 {α0 α1 α2 : Type} (P : α0 → α1 → α2 → Prop) (l : List (α0 × α1 × α2)) : Prop :=
  ∀ p ∈ l, P p.1 p.2.1 p.2.2
def all4 {α0 α1 α2 α3 : Type} (P : α0 → α1 → α2 → α3 → Prop) (l : List (α0 × α1 × α2 × α3)) : Prop :=
  ∀ p ∈ l, P p.1 p.2.1 p.2.2.1 p.2.2.2
def all5 {α0 α1 α2 α3 α4 : Type} (P : α0 → α1 → α2 → α3 → α4 → Prop) (l : List (α0 × α1 × α2 × α3 × α4)) : Prop :=
  ∀ p ∈ l, P p.1 p.2.1 p.2.2.1 p.2.2.2.1 p.2.2.2.2
def all6 {α0 α1 α2 α3 α4 α5 : Type} (P : α0 → α1 → α2 → α3 → α4 → α5 → Prop) (l : List (α0 × α1 × α2 × α3 × α4 × α5)) : Prop :=
  ∀ p ∈ l, P p.1 p.2.1 p.2.2.1 p.2.2.2.1 p.2.2.2.2.1 p.2.2.2.2.2
def all7 {α0 α1 α2 α3 α4 α5 α6 : Type} (P : α0 → α1 → α2 → α3 → α4 → α5 → α6 → Prop) (l : List (α0 × α1 × α2 × α3 × α4 × α5 × α6)) : Prop :=
  ∀ p ∈ l, P p.1 p.2.1 p.2.2.1 p.2.2.2.1 p.2.2.2.2.1 p.2.2.2.2.2.1 p.2.2.2.2.2.2
def all12 {α0 α1 α2 α3 α4 α5 α6 α7 α8 α9 α10 α11 : Type} (P : α0 → α1 → α2 → α3 → α4 → α5 → α6 → α7 → α8 → α9 → α10 → α11 → Prop) (l : List (α0 × α1 × α2 × α3 × α4 × α5 × α6 × α7 × α8 × α9 × α10 × α11)) : Prop :=
  ∀ p ∈ l, P p.1 p.2.1 p.2.2.1 p.2.2.2.1 p.2.2.2.2.1 p.2.2.2.2.2.1 p.2.2.2.2.2.2.1 p.2.2.2.2.2.2.2.1 p.2.2.2.2.2.2.2.2.1 p.2.2.2.2.2.2.2.2.2.1 p.2.2.2.2.2.2.2.2.2.2.1 p.2.2.2.2.2.2.2.2.2.2.2
/-- Every hypothesis of `Obligations.QueueStaysWellFormed` is met. -/
theorem wit_QueueStaysWellFormed :
    all1 (fun (s : State) => s.pending.all Instr.wf = true)
      [{ State.reset with pending := [.tick wTick, .capArm] }] := by
  unfold all1; decide +kernel

/-- Every hypothesis of `Obligations.MalformedLists` is met. -/
theorem wit_MalformedLists :
    (all2 (fun (s : State) (i : TickIn) => i.wf = false)
      [(State.reset, { wTick with phaseX := [] })]) ∧
    (all2 (fun (s : State) (i : FrondIn) => i.wf = false)
      [(State.reset, { wFrond with tempA := [] })]) ∧
    (all4 (fun (s : State) (t : Twin) (c : Nat) (ws : List Word32) => ws.length ≠ 113)
      [(State.reset, .a, 0, [])]) := by
  unfold all2 all4; decide +kernel

/-- Every hypothesis of `Obligations.TickAdvancesTime` is met. -/
theorem wit_TickAdvancesTime :
    (all2 (fun (s : State) (i : TickIn) => (i.wf = true) ∧ (s.d.sup.inReset = false) ∧ (s.d.sup.standby = false) ∧ (s.d.time.frondDue = false))
      [(State.reset, wTick),
       ((wS fun d => { d with time := { d.time with started := true, tseq := 0xFFFFFF } }), wTick)]) ∧
    (all2 (fun (s : State) (i : TickIn) => (i.wf = true) ∧ ((s.d.sup.inReset = true ∨ s.d.sup.standby = true ∨ s.d.time.frondDue = true)))
      [((wS fun d => { d with time := { d.time with frondDue := true } }), wTick)]) := by
  unfold all2; decide +kernel

/-- Every hypothesis of `Obligations.FrondBoundaryTakesSnapshot` is met. -/
theorem wit_FrondBoundaryTakesSnapshot :
    (all2 (fun (s : State) (i : FrondIn) => (i.wf = true) ∧ (s.d.time.frondDue = true))
      [((wS fun d => { d with time := { d.time with started := true, tseq := 255, frondDue := true } }), wFrond)]) ∧
    (all2 (fun (s : State) (i : FrondIn) => (i.wf = true) ∧ (s.d.time.frondDue = false))
      [(State.reset, wFrond)]) := by
  unfold all2; decide +kernel

/-- Every hypothesis of `Obligations.FirstValidCopyIsKept` is met. -/
theorem wit_FirstValidCopyIsKept :
    (all4 (fun (s : State) (t : Twin) (c : Nat) (errs : List Word32) => errs.length = 113)
      [(State.reset, .b, 199, List.replicate 113 0)]) ∧
    (all3 (fun (s : State) (t : Twin) (c : Nat) => (s.d.time.started = true) ∧ ((s.d.twinOf t).st.running = true) ∧ (s.d.time.tseq < 2 ^ 24) ∧ (c ≤ 196) ∧ (s.d.die.counted = false) ∧ (s.d.copyOf t = none))
      [((wS fun d => (d.updTwin .b fun x => { x with st := .active }) |> fun d => { d with time := { d.time with started := true, tseq := 0xFFFFFF } }), .b, 196)]) := by
  unfold all3 all4; decide +kernel

/-- Every hypothesis of `Obligations.ClockEvents` is met. -/
theorem wit_ClockEvents :
    (all1 (fun (s : State) => s.d.time.holdover = false)
      [State.reset]) ∧
    (all1 (fun (s : State) => s.d.atBoundary = true)
      [wS fun d => wBound d]) := by
  unfold all1; decide +kernel

/-- Every hypothesis of `Obligations.RegionsAndClusters` is met. -/
theorem wit_RegionsAndClusters :
    (all3 (fun (s : State) (g : Region) (c : Instr) => (c ∈ [Instr.regionLoss g, Instr.timebaseUnlock g]) ∧ (s.d.shape = true) ∧ (s.d.regionValid g = true))
      [(State.reset, .g1, .regionLoss .g1),
       (State.reset, .g0, .timebaseUnlock .g0)]) ∧
    (all2 (fun (s : State) (g : Region) => (s.d.shape = true) ∧ (s.d.vana g = true) ∧ (s.d.vanaLost g = false) ∧ (s.d.regionValid g = false))
      [((wS fun d => { d with die := { d.die with validG1 := false } }), .g1)]) ∧
    (all2 (fun (s : State) (k : Fin 8) => s.d.shape = true)
      [(State.reset, 7),
       ((wS fun d => { d with die := { d.die with clusterOk := 0 } }), 7)]) ∧
    (all2 (fun (s : State) (k : Fin 8) => (s.d.shape = true) ∧ (s.d.lostReturn k = true))
      [((wS fun d => (d.updCluster 7 fun k => { k with goodFronds := 2 }).updUnit 63 fun u => { u with st := .lost }), 7)]) ∧
    (all2 (fun (s : State) (k : Fin 8) => (s.d.shape = true) ∧ (s.d.die.clusterOk.getLsbD k = false))
      [((wS fun d => { d with die := { d.die with clusterOk := 0 } }), 7)]) ∧
    (all2 (fun (s : State) (k : Fin 8) => (s.d.die.clusterOk.getLsbD k = true) ∧ (s.d.lostReturn k = false))
      [((wS fun d => d.updCluster 7 fun k => { k with goodFronds := 0 }), 7)]) := by
  unfold all2 all3; decide +kernel

/-- Every hypothesis of `Obligations.RailRampEnds` is met. -/
theorem wit_RailRampEnds :
    (all2 (fun (s : State) (r : Fin 4) => (s.d.shape = true) ∧ (s.d.rampDone r = true))
      [((wS fun d => d.updRail 3 fun x => { x with st := .softStart, gateOn := true, refU := 1000000 * 65536, target := 0 }), 3)]) ∧
    (all2 (fun (s : State) (r : Fin 4) => (s.d.shape = true) ∧ ((s.d.rail r).st = .softStop) ∧ ((s.d.rail r).refU = 0))
      [((wS fun d => d.updRail 3 fun x => { x with st := .softStop, refU := 0 }), 3)]) := by
  unfold all2; decide +kernel

/-- Every hypothesis of `Obligations.RailTrips` is met. -/
theorem wit_RailTrips :
    all4 (fun (s : State) (r : Fin 4) (c : Instr) (bit : Nat) => (s.d.shape = true) ∧ (((c = .shortDetect r ∧ bit = 1 ∧ (s.d.rail r).st = .softStart ∧ 32 ≤ (s.d.rail r).shortRun) ∨ (c = .railOverload r ∧ bit = 0 ∧ s.d.reached r (s.d.rail r).ovl (s.d.fld (railPg r) 0x58 31 16) = true) ∨ (c = .railUv r ∧ bit = 3 ∧ s.d.reached r (s.d.rail r).uv (s.d.fld (railPg r) 0x5C 23 16) = true) ∨ (c = .railOv r ∧ bit = 2 ∧ (s.d.rail r).st.switching = true ∧ (s.d.rail r).ovTrip = true))))
      [((wS fun d => d.updRail 3 fun x => { x with st := .softStart, shortRun := 32 }), 3, .shortDetect 3, 1),
       ((wS fun d => d.updRail 3 fun x => { x with st := .regulate, ovl := 100000000 }), 3, .railOverload 3, 0),
       ((wS fun d => d.updRail 3 fun x => { x with st := .regulate, uv := 100000000 }), 3, .railUv 3, 3),
       ((wS fun d => d.updRail 3 fun x => { x with st := .regulate, ovTrip := true }), 3, .railOv 3, 2)] := by
  unfold all4; decide +kernel

/-- Every hypothesis of `Obligations.RailRetry` is met. -/
theorem wit_RailRetry :
    (all2 (fun (s : State) (r : Fin 4) => (s.d.shape = true) ∧ ((s.d.rail r).st = .faultWait) ∧ ((s.d.rail r).retryLeft = 0))
      [((wS fun d => d.updRail 3 fun x => { x with st := .faultWait, retryLeft := 0 }), 3)]) ∧
    (all2 (fun (s : State) (r : Fin 4) => (s.d.shape = true) ∧ (256 * s.d.fld (railPg r) 0x60 15 0 ≤ (s.d.rail r).pgRun))
      [((wS fun d => d.updRail 3 fun x => { x with pgRun := 100000000 }), 3)]) := by
  unfold all2; decide +kernel

/-- Every hypothesis of `Obligations.PhaseShedding` is met. -/
theorem wit_PhaseShedding :
    (all2 (fun (s : State) (r : Fin 4) => (s.d.shape = true) ∧ (s.d.shedDue r = true))
      [((wS fun d => wShed d), 0)]) ∧
    (all2 (fun (s : State) (n : Fin 64) => (s.d.shape = true) ∧ ((s.d.unit n).st = .marked) ∧ (1 ≤ (s.d.unit n).since))
      [((wS fun d => d.updUnit 63 fun u => { u with st := .marked, since := 1 }), 63)]) ∧
    (all2 (fun (s : State) (n : Fin 64) => (s.d.shape = true) ∧ ((s.d.unit n).st = .ramp) ∧ (1 ≤ (s.d.unit n).since))
      [((wS fun d => d.updUnit 63 fun u => { u with st := .ramp, since := 1 }), 63)]) := by
  unfold all2; decide +kernel

/-- Every hypothesis of `Obligations.BurstsAndLimits` is met. -/
theorem wit_BurstsAndLimits :
    (all2 (fun (s : State) (r : Fin 4) => (s.d.shape = true) ∧ ((s.d.rail r).burst = true))
      [((wS fun d => d.updRail 3 fun x => { x with burst := true, st := .regulate }), 3)]) ∧
    (all3 (fun (s : State) (n : Fin 64) (uv : Int) => (s.d.shape = true) ∧ ((s.d.flimLevel n : Int) < uv))
      [(State.reset, 63, 100000000000)]) ∧
    (all3 (fun (s : State) (n : Fin 64) (uv : Int) => uv ≤ s.d.flimLevel n)
      [(State.reset, 63, -100000000000)]) ∧
    (all2 (fun (s : State) (n : Fin 64) => (s.d.shape = true) ∧ (s.d.memberOf n ≠ none) ∧ (0 < (s.d.unit n).ovl) ∧ (s.d.fld (unitPg n) 0x44 15 0 ≤ (s.d.unit n).ovl))
      [((wS fun d => (d.setReg (unitPg 63) 0x40 1).updUnit 63 fun u => { u with st := .active, ovl := 0x10000 }), 63)]) := by
  unfold all2 all3; decide +kernel

/-- Every hypothesis of `Obligations.MembersPowerUp` is met. -/
theorem wit_MembersPowerUp :
    (all2 (fun (s : State) (i : Fin 32) => (s.d.shape = true) ∧ (s.d.fhRuns = true) ∧ ((s.d.mbr i).st = .waiting) ∧ (s.d.parentOk i = true) ∧ (s.d.sup.vauxWarn = false))
      [((wS fun d => (d.updMbr 31 fun m => { m with st := .waiting }).updFh fun h => { h with shelf := .poweringUp }), 31)]) ∧
    (all2 (fun (s : State) (i : Fin 32) => (s.d.shape = true) ∧ ((s.d.mbr i).st = .onDelay) ∧ (20 * s.d.fld 0xA4 (mbrOff i + 8) 15 0 ≤ (s.d.mbr i).timer))
      [((wS fun d => d.updMbr 31 fun m => { m with st := .onDelay, timer := 2000000 }), 31),
       ((wS fun d => (d.setFld 0xA4 (mbrOff 0) 31 31 1).updMbr 0 fun m => { m with st := .onDelay, timer := 2000000 }), 0)]) ∧
    (all2 (fun (s : State) (i : Fin 32) => (s.d.shape = true) ∧ (s.d.fh.shelf ≠ .draining) ∧ ((s.d.mbr i).st = .qualifying) ∧ (s.d.qualNow i = true))
      [((wS fun d => (d.setFld 0xA4 (mbrOff 31 + 4) 30 30 0).updMbr 31 fun m => { m with st := .qualifying, qual := true, deb := true, goodFor := 4095, timer := 2000000 }), 31)]) ∧
    (all2 (fun (s : State) (i : Fin 32) => (s.d.shape = true) ∧ ((s.d.mbr i).st = .failed) ∧ ((s.d.mbr i).out = true) ∧ (s.d.qualNow i = true))
      [((wS fun d => d.updMbr 31 fun m => { m with st := .failed, out := true, qual := true, deb := true, goodFor := 4095, timer := 2000000 }), 31)]) := by
  unfold all2; decide +kernel

/-- Every hypothesis of `Obligations.MembersFailAndStop` is met. -/
theorem wit_MembersFailAndStop :
    (all2 (fun (s : State) (i : Fin 32) => (s.d.shape = true) ∧ (i.val ∉ s.d.fh.stops) ∧ ((s.d.mbr i).st = .qualifying) ∧ (s.d.timeoutOf i ≤ (s.d.mbr i).timer))
      [((wS fun d => d.updMbr 31 fun m => { m with st := .qualifying, timer := 1000000000 }), 31)]) ∧
    (all2 (fun (s : State) (i : Fin 32) => (s.d.shape = true) ∧ (i.val ∉ s.d.fh.stops) ∧ ((s.d.mbr i).st = .lost) ∧ (s.d.fld 0xA4 (mbrOff i) 15 0 ≠ 0xFFFF) ∧ (2000 * s.d.fld 0xA4 (mbrOff i) 15 0 ≤ (s.d.mbr i).timer))
      [((wS fun d => (d.setFld 0xA4 (mbrOff 31) 15 0 1).updMbr 31 fun m => { m with st := .lost, timer := 2000 }), 31)]) ∧
    (all2 (fun (s : State) (i : Fin 32) => (s.d.shape = true) ∧ ((s.d.mbr i).st = .offDelay) ∧ (20 * s.d.fld 0xA4 (mbrOff i + 8) 31 16 ≤ (s.d.mbr i).timer))
      [((wS fun d => d.updMbr 31 fun m => { m with st := .offDelay, out := true, timer := 2000000 }), 31)]) ∧
    (all3 (fun (s : State) (i : Fin 32) (c : Instr) => (s.d.shape = true) ∧ ((s.d.mbr i).st = .stopping) ∧ (((c = .offConfirmed i ∧ s.d.offConfirmed i = true) ∨ (c = .offFail i ∧ s.d.offConfirmed i = false ∧ s.d.timeoutOf i ≤ (s.d.mbr i).timer))))
      [((wS fun d => d.updMbr 31 fun m => { m with st := .stopping, out := true }), 31, .offConfirmed 31),
       ((wS fun d => (d.updRail 3 fun x => { x with st := .regulate }).updMbr 3 fun m => { m with st := .stopping, out := true, timer := 1000000000 }), 3, .offFail 3)]) ∧
    (all2 (fun (s : State) (mask : Word32) => s.d.shape = true)
      [((wS fun d => (d.updMbr 31 fun m => { m with st := .failed }).updFh fun h => { h with failed := 0x80000000 }), 0x80000000)]) := by
  unfold all2 all3; decide +kernel

/-- Every hypothesis of `Obligations.ShelfSequence` is met. -/
theorem wit_ShelfSequence :
    (all2 (fun (s : State) (w : WorkItem) => (s.d.shape = true) ∧ (s.d.runnable 3 w))
      [((wS fun d => wHead d (wItem 3 [])), wItem 3 [])]) ∧
    (all2 (fun (s : State) (w : WorkItem) => (s.d.shape = true) ∧ (s.d.runnable 4 w))
      [((wS fun d => (wHead d (wItem 4 [])).updFh fun h => { h with shelf := .up }), wItem 4 [])]) ∧
    (all1 (fun (s : State) => (s.d.shape = true) ∧ (s.d.fh.ended = true))
      [wS fun d => d.updFh fun h => { h with ended := true, shelf := .down }]) ∧
    (all1 (fun (s : State) => (s.d.shape = true) ∧ (s.d.fh.press = true) ∧ (62500 ≤ s.d.fh.pressLen) ∧ (s.d.fh.longDone = false) ∧ (s.d.pbEn = true))
      [wS fun d => (d.setFld 0xA4 0x40 30 30 1).updFh fun h => { h with press := true, pressLen := 62500 }]) ∧
    (all1 (fun (s : State) => (s.d.shape = true) ∧ (s.d.fh.shelf = .draining) ∧ ((s.d.noneQualifying = true ∨ 4000 ≤ s.d.fh.drain)))
      [wS fun d => d.updFh fun h => { h with shelf := .draining, drain := 4000 }]) ∧
    (all1 (fun (s : State) => (s.d.shape = true) ∧ (s.d.fh.shelf = .down) ∧ (s.d.fh.onLatch = true) ∧ (20 * s.d.fld 0xA4 0x40 15 0 ≤ s.d.fh.dwell) ∧ (s.d.stBit 0xA8 10 = false))
      [wS fun d => d.updFh fun h => { h with shelf := .down, onLatch := true, dwell := 2000000 }]) ∧
    (all1 (fun (s : State) => (s.d.shape = true) ∧ (s.d.fh.bootReq = true) ∧ (s.d.atBoundary = true) ∧ (s.d.jrn.replayDone = true))
      [wS fun d => ((wBound d).updFh fun h => { h with bootReq := true }).updJrn fun j => { j with replayDone := true }]) := by
  unfold all1 all2 Dev.runnable; decide +kernel

/-- Every hypothesis of `Obligations.SafeStateEntries` is met. -/
theorem wit_SafeStateEntries :
    all3 (fun (s : State) (c : Instr) (cause : Option Nat) => (s.d.shape = true) ∧ (s.d.die.safe = false) ∧ (s.d.sup.inReset = false) ∧ (((c = .noValidCopySafeState ∧ s.d.time.started = true ∧ 4 ≤ s.d.noCopyRun ∧ cause = none) ∨ (c = .vcoreSLoss ∧ cause = some 4) ∨ (c = .mrNReset ∧ cause = some 3) ∨ (c = .vauxMin false ∧ cause = some 2) ∨ (c = .vauxMin true ∧ cause = some 1))))
      [((wS fun d => { d with time := { d.time with started := true }, die := { d.die with noneRun := 4 } }), .noValidCopySafeState, none),
       (State.reset, .vcoreSLoss, some 4),
       (State.reset, .mrNReset, some 3),
       (State.reset, .vauxMin false, some 2),
       (State.reset, .vauxMin true, some 1)] := by
  unfold all3; decide +kernel

/-- Every hypothesis of `Obligations.SupplyEvents` is met. -/
theorem wit_SupplyEvents :
    (all1 (fun (s : State) => (s.d.shape = true) ∧ (s.d.sup.vauxWarn = false))
      [State.reset]) ∧
    (all1 (fun (s : State) => (s.d.sup.vauxWarn = false) ∧ (s.d.sup.holdLow = false))
      [State.reset]) ∧
    (all1 (fun (s : State) => s.d.sup.holdLow = true)
      [wS fun d => d.updSup fun p => { p with holdLow := true }]) ∧
    (all3 (fun (s : State) (t : Twin) (c : Instr) => (c ∈ [Instr.vcoreTwinLoss t, Instr.supplyOutOfRange (match t with | .a => .vcoreA | .b => .vcoreB)]))
      [(State.reset, .b, .vcoreTwinLoss .b),
       (State.reset, .a, .supplyOutOfRange .vcoreA)]) ∧
    (all2 (fun (s : State) (g : Region) => s.d.shape = true)
      [(State.reset, .g1),
       (State.reset, .g0)]) ∧
    (all1 (fun (s : State) => s.d.sup.inReset = true)
      [wS fun d => d.updSup fun p => { p with inReset := true }]) ∧
    (all1 (fun (s : State) => s.d.sup.vgdOk = true)
      [wS fun d => d.updSup fun p => { p with vgdOk := true },
       wS fun d => d.updSup fun p => { p with vgdOk := true, holdLow := true }]) := by
  unfold all1 all2 all3; decide +kernel

/-- Every hypothesis of `Obligations.FeedEvents` is met. -/
theorem wit_FeedEvents :
    (all2 (fun (s : State) (f : FeedId) => ((s.d.feed f).drive = true))
      [((wS fun d => d.updFeed .b fun f => { f with drive := true }), .b)]) ∧
    (all2 (fun (s : State) (r : Fin 4) => (s.d.shape = true) ∧ ((s.d.hsw r).drive = true))
      [((wS fun d => { d with hs := updAt d.hs 3 fun h => { h with drive := true } }), 3)]) ∧
    (all2 (fun (s : State) (f : FeedId) => (s.d.xfer.ran = true) ∧ (s.d.die.validG0 = true) ∧ ((s.d.feed f).st = .qualify) ∧ ((s.d.feed f).inside = true) ∧ (2000 * s.d.fld 0x98 0x50 31 22 ≤ (s.d.feed f).qualN))
      [((wS fun d => (d.updFeed .b fun f => { f with st := .qualify, inside := true, qualN := 2046000 }).updXfer fun x => { x with ran := true, judge := true }), .b)]) ∧
    (all2 (fun (s : State) (f : FeedId) => (s.d.xfer.ran = true) ∧ ((s.d.feed f).st = .ready) ∧ (s.d.feedValid f = false))
      [((wS fun d => (d.updFeed .b fun f => { f with st := .ready, bad := true }).updXfer fun x => { x with ran := true, judge := true }), .b)]) ∧
    (all2 (fun (s : State) (f : FeedId) => (s.d.xfer.ran = true) ∧ ((s.d.feed f).st = .turnOn) ∧ ((s.d.feed f).fullOn = true) ∧ (s.d.judging = true))
      [((wS fun d => (d.updFeed .b fun f => { f with st := .turnOn, fullOn := true }).updXfer fun x => { x with ran := true, judge := true }), .b)]) ∧
    (all2 (fun (s : State) (f : FeedId) => (s.d.xfer.ran = true) ∧ ((s.d.feed f).st = .on) ∧ ((s.d.feed f).pg = false) ∧ ((s.d.feed f).fail = 0) ∧ (s.d.fld 0x98 0x50 14 8 ≤ (s.d.feed f).pgRun) ∧ (s.d.judging = true))
      [((wS fun d => (d.updFeed .b fun f => { f with st := .on, pgRun := 127 }).updXfer fun x => { x with ran := true, judge := true }), .b),
       ((wS fun d => ((d.updFeed .b fun f => { f with st := .on, pgRun := 127 }).updXfer fun x => { x with new := some .b }).updXfer fun x => { x with ran := true, judge := true }), .b)]) ∧
    (all2 (fun (s : State) (f : FeedId) => (s.d.xfer.ran = true) ∧ ((s.d.feed f).pg = true) ∧ (256 * s.d.fld 0x98 0x58 31 16 ≤ (s.d.feed f).pgHeld))
      [((wS fun d => (d.updFeed .b fun f => { f with pg := true, pgHeld := 16776960 }).updXfer fun x => { x with ran := true, judge := true }), .b)]) := by
  unfold all2; decide +kernel

/-- Every hypothesis of `Obligations.FeedFaults` is met. -/
theorem wit_FeedFaults :
    (all5 (fun (s : State) (f : FeedId) (c : Instr) (bit code : Nat) => (s.d.xfer.ran = true) ∧ (((c = .insTimeout f ∧ s.d.judging = true ∧ bit = 8 ∧ code = 2 ∧ (s.d.feed f).st = .turnOn ∧ 2000 * s.d.fld 0x98 0x54 9 0 ≤ (s.d.feed f).onN) ∨ (c = .feedOv f ∧ bit = 4 ∧ code = 0x13 ∧ ((s.d.feed f).st = .turnOn ∨ (s.d.feed f).st = .on) ∧ s.d.preBad (feedCh f) = false ∧ s.d.fld 0x98 0x50 7 0 ≤ (s.d.feed f).ovN))))
      [((wS fun d => (d.updFeed .b fun f => { f with st := .turnOn, onN := 2046000 }).updXfer fun x => { x with ran := true, judge := true }), .b, .insTimeout .b, 8, 2),
       ((wS fun d => (d.updFeed .b fun f => { f with st := .on, ovN := 255 }).updXfer fun x => { x with ran := true, judge := true }), .b, .feedOv .b, 4, 0x13),
       ((wS fun d => ((d.updFeed .b fun f => { f with st := .on, ovN := 255 }).updXfer fun x => { x with new := some .b }).updXfer fun x => { x with ran := true, judge := true }), .b, .feedOv .b, 4, 0x13)]) ∧
    (all2 (fun (s : State) (f : FeedId) => (s.d.xfer.ran = true) ∧ (s.d.judging = true) ∧ ((s.d.feed f).st = .faultWait) ∧ ((s.d.feed f).retryLeft = 0))
      [((wS fun d => (d.updFeed .b fun f => { f with st := .faultWait }).updXfer fun x => { x with ran := true, judge := true }), .b),
       ((wS fun d => (d.updFeed .b fun f => { f with st := .faultWait, retryUsed := 15 }).updXfer fun x => { x with ran := true, judge := true }), .b)]) := by
  unfold all2 all5; decide +kernel

/-- Every hypothesis of `Obligations.FeedTransfers` is met. -/
theorem wit_FeedTransfers :
    (all3 (fun (s : State) (cmd : Instr) (c : FeedId) => (s.d.xfer.ran = true) ∧ (s.d.xfer.carry0 = some c) ∧ (((cmd = .feedTransfer ∧ s.d.xfer.dead = none ∧ (∃ x, s.d.selected = some x ∧ x ≠ c)) ∨ (cmd = .feedReturn ∧ s.d.judging = true ∧ s.d.carry = some c ∧ s.d.xfer.dead = none ∧ s.d.returning c = true))) ∧ (((s.d.feed c).st = .turnOn ∨ (s.d.feed c).st = .on)))
      [((wS fun d => (wFeeds d).updXfer fun x => { x with ran := true, judge := true }), .feedTransfer, .a),
       ((wS fun d => (wReturn d).updXfer fun x => { x with ran := true, judge := true }), .feedReturn, .b)]) ∧
    (all2 (fun (s : State) (x : FeedId) => (s.d.xfer.ran = true) ∧ (s.d.xfer.carry0 = none) ∧ (s.d.xfer.dead = none) ∧ (s.d.carry = none) ∧ (s.d.selected = some x) ∧ (s.d.judging = true))
      [((wS fun d => (wInsert d).updXfer fun x => { x with ran := true, judge := true }), .b)]) ∧
    (all1 (fun (s : State) => (s.d.xfer.ran = true) ∧ (s.d.judging = true) ∧ (s.d.xfer.dead = some 0))
      [wS fun d => (d.updXfer fun x => { x with dead := some 0 }).updXfer fun x => { x with ran := true, judge := true },
       wS fun d => ((wInsert d).updXfer fun x => { x with dead := some 0 }).updXfer fun x => { x with ran := true, judge := true }]) ∧
    (all3 (fun (s : State) (o n : FeedId) => (s.d.xfer.ran = true) ∧ (16 ≤ s.d.xfer.ilock) ∧ (s.d.xfer.new = some n) ∧ (s.d.xfer.old = some o) ∧ (o ≠ n))
      [((wS fun d => (d.updXfer fun x => { x with ilock := 16, new := some .b, old := some .a }).updXfer fun x => { x with ran := true, judge := true }), .a, .b)]) := by
  unfold all1 all2 all3; decide +kernel

/-- Every hypothesis of `Obligations.HotSwaps` is met. -/
theorem wit_HotSwaps :
    (all2 (fun (s : State) (r : Fin 4) => (s.d.shape = true) ∧ (s.d.xfer.ran = true) ∧ ((s.d.rail r).gateOn = true) ∧ ((s.d.rail r).st = .off) ∧ (s.d.judging = true) ∧ ((s.d.hsw r).fullWord = true) ∧ ((s.d.hsw r).on = false) ∧ ((s.d.hsw r).trip = false))
      [((wS fun d => ({ d with hs := updAt d.hs 3 fun h => { h with fullWord := true } } |>.updRail 3 fun x => { x with gateOn := true }).updXfer fun x => { x with ran := true, judge := true }), 3)]) ∧
    (all4 (fun (s : State) (r : Fin 4) (c : Instr) (bit : Nat) => (s.d.shape = true) ∧ (s.d.xfer.ran = true) ∧ ((s.d.rail r).gateOn = true) ∧ (((c = .hotSwapOnTimeout r ∧ bit = 8 + r ∧ s.d.judging = true ∧ (s.d.hsw r).on = false ∧ 2000 * s.d.fld 0x99 (0x40 + 4 * r) 7 0 ≤ (s.d.hsw r).onN) ∨ (c = .hotSwapSlowTrip r ∧ bit = 4 + r ∧ (s.d.fld 0x99 (0x50 + 4 * r) 15 0 : Int) * 131072000 ≤ (s.d.hsw r).acc))))
      [((wS fun d => ({ d with hs := updAt d.hs 3 fun h => { h with onN := 510000 } } |>.updRail 3 fun x => { x with gateOn := true }).updXfer fun x => { x with ran := true, judge := true }), 3, .hotSwapOnTimeout 3, 11),
       ((wS fun d => ({ d with hs := updAt d.hs 3 fun h => { h with acc := 131072000 * 65535 } } |>.updRail 3 fun x => { x with gateOn := true }).updXfer fun x => { x with ran := true, judge := true }), 3, .hotSwapSlowTrip 3, 7)]) ∧
    (all1 (fun (s : State) => (s.d.xfer.ran = false) ∧ (s.d.die.validG1 = true) ∧ (s.d.xfer.judge = false) ∧ (2 ≤ s.d.xfer.g1Good))
      [wS fun d => d.updXfer fun x => { x with judge := false, g1Good := 2 },
       wS fun d => { d with hs := updAt d.hs 3 fun h => { h with tripTick := true, on := true } } |>.updXfer fun x => { x with judge := false, g1Good := 2 }]) ∧
    (all1 (fun (s : State) => (s.d.shape = true) ∧ (s.d.xfer.ran = true) ∧ (s.d.die.validG1 = true) ∧ (s.d.xfer.judge = false) ∧ (2 ≤ s.d.xfer.g1Good))
      [wS fun d => (d.updXfer fun x => { x with judge := false, g1Good := 2 }).updXfer fun x => { x with ran := true },
       wS fun d => ({ d with hs := updAt d.hs 3 fun h => { h with tripTick := true, on := true } } |>.updXfer fun x => { x with judge := false, g1Good := 2 }).updXfer fun x => { x with ran := true }]) := by
  unfold all1 all2 all4; decide +kernel

/-- Every hypothesis of `Obligations.RegisterWrites` is met. -/
theorem wit_RegisterWrites :
    (all5 (fun (s : State) (p : Path) (pg off : Nat) (v : Word32) => pageRow pg = none)
      [(State.reset, .tw0, 0xFFFF, 0x40, 1)]) ∧
    (all5 (fun (s : State) (p : Path) (pg off : Nat) (v : Word32) => (pageRow pg ≠ none) ∧ (regRow pg off = none))
      [(State.reset, .tw0, 0x98, 0xFF8, 1)]) ∧
    (all6 (fun (s : State) (p : Path) (pg off : Nat) (v : Word32) (r : RegRow) => (pageRow pg ≠ none) ∧ (regRow pg off = some r) ∧ (specialReg pg off = false) ∧ (off < 0x1000))
      [(State.reset, .tw0, 0x98, 0x54, 0x123, wRow 0x98 0x54),
       (State.reset, .tw0, 0x82, 0x40, 0xFFFFFFFF, wRow 0x82 0x40)]) := by
  unfold all5 all6; decide +kernel

/-- Every hypothesis of `Obligations.LocksAndCommits` is met. -/
theorem wit_LocksAndCommits :
    (all4 (fun (s : State) (p : Path) (pg : Nat) (v : Word32) => regRow pg 0x18 ≠ none)
      [(State.reset, .tw1, 0xA4, 0x5A)]) ∧
    (all3 (fun (s : State) (p : Path) (pg : Nat) => ((∃ l ∈ s.d.regs.locks, l.path = p ∧ l.page = pg ∧ l.since + 256 ≤ s.d.now)))
      [((wS fun d => { d with regs := { d.regs with locks := [⟨.tw1, 0xA4, 0⟩] }, time := { d.time with ticks := 256 } }), .tw1, 0xA4)]) ∧
    (all2 (fun (s : State) (pg : Nat) => regRow pg 0x1C ≠ none)
      [(State.reset, 0xA4)]) := by
  unfold all2 all3 all4; decide +kernel

/-- Every hypothesis of `Obligations.StatusClears` is met. -/
theorem wit_StatusClears :
    (all4 (fun (s : State) (p : Path) (pg : Nat) (mask : Word32) => statusBits pg ≠ 0)
      [((wS fun d => d.occur 0xD0 5), .tw0, 0xD0, 0x20),
       ((wS fun d => d.occur 0x98 5), .tw0, 0x98, 0x20)]) ∧
    (all2 (fun (s : State) (pg : Nat) => statusBits pg ≠ 0)
      [((wS fun d => d.updStat 0xA4 fun b => { b with clearRefused := true }), 0xA4)]) := by
  unfold all2 all4; decide +kernel

/-- Every hypothesis of `Obligations.SnapshotHolds` is met. -/
theorem wit_SnapshotHolds :
    all2 (fun (s : State) (n : Fin 2) => (((n = 0 ∧ s.held0.isSome = true ∧ s.d.ident.left0 = 0) ∨ (n = 1 ∧ s.held1.isSome = true ∧ s.d.ident.left1 = 0))))
      [({ State.reset with held0 := some Dev.reset }, 0),
       ({ State.reset with held1 := some Dev.reset }, 1)] := by
  unfold all2; decide +kernel

/-- Every hypothesis of `Obligations.StepPortFrames` is met. -/
theorem wit_StepPortFrames :
    (all6 (fun (s : State) (n : Fin 16) (f : StepFrame) (co al late : Bool) => s.d.shape = true)
      [(State.reset, 15, 0x3C00000000000000, true, true, false),
       (State.reset, 15, 0, true, false, false),
       ((wS fun d => d.updPort 15 fun p => { p with linkUp := true }), 15, 0, true, true, false),
       ((wS fun d => d.updPort 15 fun p => { p with linkUp := true }), 15, 0x3C00000000000000, true, true, true)]) ∧
    (all2 (fun (s : State) (n : Fin 16) => (s.d.shape = true) ∧ ((s.d.port n).place ≠ none) ∧ ((s.d.port n).placeIn = 0))
      [((wS fun d => d.updPort 15 fun p => { p with place := some 0, placeIn := 0 }), 15)]) ∧
    (all2 (fun (s : State) (n : Fin 16) => s.d.shape = true)
      [(State.reset, 15)]) ∧
    (all2 (fun (s : State) (n : Fin 16) => s.d.shape = true)
      [(State.reset, 15)]) := by
  unfold all2 all6; decide +kernel

/-- Every hypothesis of `Obligations.InvalidRequests` is met. -/
theorem wit_InvalidRequests :
    all5 (fun (s : State) (n : Fin 16) (f : StepFrame) (kind : Nat) (c : Instr) => (s.d.shape = true) ∧ ((kind, c) ∈ [(1, Instr.stepUp n), (2, Instr.stepDown n), (3, Instr.announce n), (4, Instr.release n), (5, Instr.heartbeat n)]) ∧ (s.d.admitted n kind = some f) ∧ ((s.d.port n).busy ≤ s.d.refB) ∧ (¬ (1 ≤ reqKind f ∧ reqKind f ≤ 5 ∧ reqRamp f ≤ 8 ∧ reqRsvd f = 0 ∧ reqLoad f / 16 = n.val ∧ s.d.gtEn (reqLoad f) = true)))
      [((wS fun d => wAdm d 15 (1 * 2 ^ 44)), 15, wFrame (1 * 2 ^ 44), 1, .stepUp 15),
       ((wS fun d => wAdm d 15 (2 * 2 ^ 44)), 15, wFrame (2 * 2 ^ 44), 2, .stepDown 15),
       ((wS fun d => wAdm d 15 (3 * 2 ^ 44)), 15, wFrame (3 * 2 ^ 44), 3, .announce 15),
       ((wS fun d => wAdm d 15 (4 * 2 ^ 44)), 15, wFrame (4 * 2 ^ 44), 4, .release 15),
       ((wS fun d => wAdm d 15 (5 * 2 ^ 44)), 15, wFrame (5 * 2 ^ 44), 5, .heartbeat 15)] := by
  unfold all5; decide +kernel

/-- Every hypothesis of `Obligations.StepDecisions` is met. -/
theorem wit_StepDecisions :
    (all3 (fun (s : State) (n : Fin 16) (f : StepFrame) => (s.d.shape = true) ∧ (s.d.admitted n 1 = some f) ∧ ((s.d.port n).busy ≤ s.d.refB) ∧ (s.d.reqValid n f = true) ∧ (
    (let q := (s.d.load (reqLoad f)).lastSeq
    let dist := (reqSeq f + 256 - q) % 256
    (s.d.load (reqLoad f)).seqValid = false ∨ (1 ≤ dist ∧ dist ≤ 128))))
      [((wS fun d => wLoad (wAdm d 15 (0xFF * 2 ^ 48 + 1 * 2 ^ 44))), 15, wFrame (0xFF * 2 ^ 48 + 1 * 2 ^ 44))]) ∧
    (all3 (fun (s : State) (n : Fin 16) (f : StepFrame) => (s.d.shape = true) ∧ (s.d.admitted n 2 = some f) ∧ ((s.d.port n).busy ≤ s.d.refB) ∧ (s.d.reqValid n f = true) ∧ (
    (let q := (s.d.load (reqLoad f)).lastSeq
    let dist := (reqSeq f + 256 - q) % 256
    (s.d.load (reqLoad f)).seqValid = false ∨ (1 ≤ dist ∧ dist ≤ 128))))
      [((wS fun d => wLoad (wAdm d 15 (0xFF * 2 ^ 48 + 2 * 2 ^ 44))), 15, wFrame (0xFF * 2 ^ 48 + 2 * 2 ^ 44))]) ∧
    (all3 (fun (s : State) (n : Fin 16) (f : StepFrame) => (s.d.shape = true) ∧ (s.d.admitted n 3 = some f) ∧ ((s.d.port n).busy ≤ s.d.refB) ∧ (s.d.reqValid n f = true) ∧ (
    (let q := (s.d.load (reqLoad f)).lastSeq
    let dist := (reqSeq f + 256 - q) % 256
    (s.d.load (reqLoad f)).seqValid = false ∨ (1 ≤ dist ∧ dist ≤ 128))))
      [((wS fun d => wLoad (wAdm d 15 (0xFF * 2 ^ 48 + 3 * 2 ^ 44))), 15, wFrame (0xFF * 2 ^ 48 + 3 * 2 ^ 44))]) ∧
    (all3 (fun (s : State) (n : Fin 16) (f : StepFrame) => (s.d.shape = true) ∧ (s.d.admitted n 4 = some f) ∧ ((s.d.port n).busy ≤ s.d.refB) ∧ (s.d.reqValid n f = true))
      [((wS fun d => wLoad (wAdm d 15 (0xFF * 2 ^ 48 + 4 * 2 ^ 44))), 15, wFrame (0xFF * 2 ^ 48 + 4 * 2 ^ 44))]) ∧
    (all3 (fun (s : State) (n : Fin 16) (f : StepFrame) => (s.d.shape = true) ∧ (s.d.admitted n 5 = some f) ∧ ((s.d.port n).busy ≤ s.d.refB) ∧ (s.d.reqValid n f = true))
      [((wS fun d => wLoad (wAdm d 15 (0xFF * 2 ^ 48 + 5 * 2 ^ 44))), 15, wFrame (0xFF * 2 ^ 48 + 5 * 2 ^ 44))]) := by
  unfold all3; decide +kernel

/-- Every hypothesis of `Obligations.LedgerAndCaps` is met. -/
theorem wit_LedgerAndCaps :
    (all1 (fun (s : State) => (s.d.adm.led.cons = true) ∧ ((s.d.adm.led.learned = true ∨ 128 ≤ s.d.time.frond)))
      [wS fun d => { d with time := { d.time with frond := 128 } }]) ∧
    (all3 (fun (s : State) (i : Fin 256) (t : Nat) => (s.d.shape = true) ∧ ((s.d.load i).resvEnd = some t) ∧ (t ≤ s.d.now))
      [((wS fun d => d.updLoad 255 fun x => { x with resvEnd := some 0, resv := 5 }), 255, 0)]) ∧
    (all1 (fun (s : State) => s.d.fld 0x78 0x88 15 8 ≤ s.d.adm.led.winLeft)
      [wS fun d => d.updLed fun l => { l with winLeft := 255 }]) ∧
    (all2 (fun (s : State) (n : Fin 16) => (s.d.shape = true) ∧ ((s.d.port n).stale = false) ∧ (s.d.portLoads n ≠ []) ∧ (4 * s.d.fld 0x74 0x4C 7 0 ≤ (s.d.port n).quiet))
      [((wS fun d => wLoad (d.updPort 15 fun p => { p with quiet := 1020 })), 15)]) ∧
    (all2 (fun (s : State) (n : Fin 16) => (s.d.shape = true) ∧ (s.d.phase = 255) ∧ (s.d.time.frondDue = true) ∧ (0 < (s.d.port n).level) ∧ ((s.d.port n).fell = false) ∧ ((s.d.port n).lastOf (s.d.port n).level + 256 * s.d.fld 0x78 0x88 7 0 ≤ s.d.now))
      [((wS fun d => { d with time := { d.time with started := true, frondDue := true, tseq := 255, ticks := 255 * 256 } } |>.updPort 15 fun p => { p with level := 3 }), 15)]) ∧
    (all1 (fun (s : State) => (s.d.adm.led.freeze = true) ∧ (s.d.adm.led.freezeEnd ≤ s.d.now))
      [wS fun d => d.updLed fun l => { l with freeze := true, freezeEnd := 0 }]) := by
  unfold all1 all2 all3; decide +kernel

/-- Every hypothesis of `Obligations.InvalidWords` is met. -/
theorem wit_InvalidWords :
    (all2 (fun (s : State) (n : Fin 64) => (s.d.shape = true) ∧ (5 ≤ (s.d.unit n).badRun) ∧ ((s.d.unit n).imonInv = false))
      [((wS fun d => d.updUnit 63 fun u => { u with badRun := 5 }), 63)]) ∧
    (all2 (fun (s : State) (c : Fin 17) => (s.d.shape = true) ∧ (c.val < 16) ∧ (5 ≤ (s.d.pre c).badRun) ∧ ((s.d.pre c).invalid = false))
      [((wS fun d => { d with sense := { d.sense with pre := updAt d.sense.pre 15 fun c => { c with badRun := 5 } } }), 15)]) := by
  unfold all2; decide +kernel

/-- Every hypothesis of `Obligations.Measurements` is met. -/
theorem wit_Measurements :
    (all3 (fun (s : State) (c : Fin 17) (raw : BitVec 24) => (s.d.shape = true) ∧ (c.val ≠ 14) ∧ (c.val ≠ 15))
      [(State.reset, 16, 0x800000)]) ∧
    (all3 (fun (s : State) (c : Fin 17) (raw : BitVec 24) => c.val = 14 ∨ c.val = 15)
      [(State.reset, 14, 0),
       (State.reset, 15, 0)]) ∧
    (all1 (fun (s : State) => s.d.sense.ref.left = 0)
      [wS fun d => { d with sense := { d.sense with ref := { d.sense.ref with left := 0 } } }]) ∧
    (all1 (fun (s : State) => (s.d.sense.ref.inUse = 1) ∧ (8 ≤ s.d.sense.ref.badRun))
      [wS fun d => { d with sense := { d.sense with ref := { d.sense.ref with inUse := 1, badRun := 8 } } }]) ∧
    (all1 (fun (s : State) => (s.d.shape = true) ∧ (s.d.sense.aux.due = true))
      [wS fun d => { d with sense := { d.sense with aux := { d.sense.aux with due := true, entry := 3 } } }]) ∧
    (all2 (fun (s : State) (a : Fin 32) => (s.d.shape = true) ∧ ((s.d.auxIn a).full ≠ 0) ∧ ((s.d.auxIn a).stale = false) ∧ (s.d.fld 0x82 0x40 23 16 < (s.d.auxIn a).age))
      [((wS fun d => { d with sense := { d.sense with aux := { d.sense.aux with inputs := updAt d.sense.aux.inputs 31 fun x => { x with full := 1, age := 256, stale := false } } } }), 31)]) ∧
    (all4 (fun (s : State) (i : Fin 20) (sum : Int) (low : Bool) => (s.d.shape = true) ∧ (s.d.sense.intDue = some (i.val, sum, low)))
      [((wS fun d => { d with sense := { d.sense with intDue := some (19, 5, true) } }), 19, 5, true)]) ∧
    (all2 (fun (s : State) (i : Fin 20) => (s.d.sense.intDue.map (fun w => w.1) ≠ some i.val))
      [(State.reset, 19),
       ((wS fun d => { d with sense := { d.sense with intDue := some (18, 5, true) } }), 19)]) := by
  unfold all1 all2 all3 all4; decide +kernel

/-- Every hypothesis of `Obligations.CalibrationWindows` is met. -/
theorem wit_CalibrationWindows :
    (all1 (fun (s : State) => s.d.sense.cal.due = true)
      [wS fun d => wCal d fun c => { c with due := true, running := false }]) ∧
    (all1 (fun (s : State) => (s.d.shape = true) ∧ (s.d.sense.cal.running = true) ∧ (s.d.sense.cal.frond = 4) ∧ (s.d.sense.cal.idle = false) ∧ (s.d.sense.cal.restart = false) ∧ (winIsSpare s.d.sense.cal.window = false))
      [wS fun d => wCal d fun c => { c with running := true, frond := 4 },
       wS fun d => wCal d fun c => { c with running := true, frond := 4, window := 70 }]) ∧
    (all2 (fun (s : State) (m : CalMeas) => (s.d.shape = true) ∧ (s.d.sense.cal.running = true) ∧ (s.d.sense.cal.frond = 56) ∧ (s.d.sense.cal.idle = false) ∧ (s.d.sense.cal.restart = false) ∧ (s.d.sense.cal.window < 89) ∧ (s.d.sense.cal.phGain.length = 72) ∧ (s.d.sense.cal.phOff.length = 72))
      [((wS fun d => wCal d fun c => { c with running := true, frond := 56, window := 88 }), wMeas),
       ((wS fun d => wCal d fun c => { c with running := true, frond := 56 }), wMeas)]) ∧
    (all1 (fun (s : State) => (s.d.shape = true) ∧ (s.d.sense.cal.running = true) ∧ (s.d.sense.cal.frond = 62) ∧ (s.d.sense.cal.idle = false) ∧ (s.d.sense.cal.restart = false))
      [wS fun d => wCal d fun c => { c with running := true, frond := 62, spareOn := true, takeover := true },
       wS fun d => wCal d fun c => { c with running := true, frond := 62, spareOn := true, takeover := true, measured := true, diffAcc := 1000000, diffN := 1 }]) ∧
    (all1 (fun (s : State) => (s.d.sense.cal.running = true) ∧ (s.d.sense.cal.frond = 63))
      [wS fun d => wCal d fun c => { c with running := true, frond := 63 }]) ∧
    (all1 (fun (s : State) => (s.d.sense.cal.restart = true) ∧ (s.d.calReady = true))
      [wS fun d => { wCal d (fun c => { c with restart := true }) with sense := { (wCal d (fun c => { c with restart := true })).sense with ref := { d.sense.ref with settled := true } } }]) := by
  unfold all1 all2; decide +kernel

/-- Every hypothesis of `Obligations.HeatEvents` is met. -/
theorem wit_HeatEvents :
    (all1 (fun (s : State) => 64 ≤ s.d.time.frond)
      [wS fun d => { d with time := { d.time with frond := 64 } }]) ∧
    (all1 (fun (s : State) => s.d.time.frond < 64)
      [State.reset]) ∧
    (all2 (fun (s : State) (n : Fin 64) => (s.d.shape = true) ∧ ((s.d.unit n).hold = true) ∧ (s.d.fld 0xA8 0x64 15 0 ≤ nth s.d.therm.holdN n 0))
      [((wS fun d => { d with therm := { d.therm with holdN := updAt d.therm.holdN 63 fun _ => 65535 } } |>.updUnit 63 fun u => { u with hold := true }), 63)]) ∧
    (all2 (fun (s : State) (n : Fin 64) => ((s.d.unit n).hold = false ∨ nth s.d.therm.holdN n 0 < s.d.fld 0xA8 0x64 15 0))
      [(State.reset, 63)]) ∧
    (all1 (fun (s : State) => (s.d.therm.hold = true) ∧ (s.d.therm.cool = 2))
      [wS fun d => { d with therm := { d.therm with hold := true, cool := 2 } }]) ∧
    (all1 (fun (s : State) => s.d.therm.hold = false ∨ s.d.therm.cool ≠ 2)
      [State.reset,
       wS fun d => { d with therm := { d.therm with hold := true, cool := 1 } }]) := by
  unfold all1 all2; decide +kernel

/-- Every hypothesis of `Obligations.BatteryEvents` is met. -/
theorem wit_BatteryEvents :
    (all2 (fun (s : State) (m : Fin 4) => (s.d.shape = true) ∧ (s.d.bbuEn m = true) ∧ ((s.d.bbu m).countInv = false) ∧ ((5 ≤ (s.d.bbu m).gapRun ∨ (s.d.bbu m).uncounted = true)))
      [((wS fun d => (d.setFld 0x9F 0x40 31 31 1).updBbu 3 fun b => { b with gapRun := 5 }), 3),
       ((wS fun d => (d.setFld 0x9F 0x40 31 31 1).updBbu 3 fun b => { b with uncounted := true, learning := true }), 3)]) ∧
    (all2 (fun (s : State) (m : Fin 4) => (s.d.shape = true) ∧ (s.d.fullSeen m = true) ∧ ((s.d.bbu m).emptyDue = false) ∧ ((s.d.bbu m).topped = false))
      [((wS fun d => (d.setFld 0x9F 0x50 7 0 1).updBbu 3 fun b => { b with present := true, known := true, termRun := 7813 }), 3)]) ∧
    (all2 (fun (s : State) (m : Fin 4) => (s.d.shape = true) ∧ ((s.d.bbu m).present = true) ∧ (2 ≤ (s.d.bbu m).vLow) ∧ (s.d.bbuWord m < -(s.d.deadband m)))
      [((wS fun d => { d with sense := { d.sense with pre := updAt d.sense.pre 12 fun c => { c with val := -2147483648 } } } |>.updBbu 3 fun b => { b with present := true, vLow := 2 }), 3)]) ∧
    (all2 (fun (s : State) (m : Fin 4) => (s.d.shape = true) ∧ ((s.d.bbu m).low = true) ∧ ((s.d.bbu m).emptyDue = false) ∧ ((s.d.bbu m).q = 0) ∧ (((s.d.bbu m).st = .estimated ∨ (s.d.bbu m).st = .anchored)))
      [((wS fun d => (d.setFld 0x9F 0x40 31 31 1).updBbu 3 fun b => { b with low := true, st := .anchored, q := 0 }), 3)]) ∧
    (all3 (fun (s : State) (m : Fin 4) (answer : Option (BitVec 16 × Byte)) => (s.d.shape = true) ∧ (s.d.bbuEn m = true) ∧ (s.d.bbuCompat m = false) ∧ (64 ≤ (s.d.bbu m).pollN) ∧ (s.d.twcBusy 2 = false) ∧ ((s.d.twc 2).stuck = false))
      [((wS fun d => ((d.setFld 0x9F 0x40 31 31 1).updBbu 3 fun b => { b with pollN := 64 }) |>.updTwC 2 fun t => { t with fresh := false }), 3, none),
       ((wS fun d => ((d.setFld 0x9F 0x40 31 31 1).updBbu 3 fun b => { b with pollN := 64 }) |>.updTwC 2 fun t => { t with fresh := false }), 3, some (0, 1))]) ∧
    (all3 (fun (s : State) (m : Fin 4) (answer : Option (BitVec 16 × Byte)) => (s.d.shape = true) ∧ (s.d.bbuEn m = true) ∧ (s.d.bbuCompat m = false) ∧ (64 ≤ (s.d.bbu m).pollN) ∧ (s.d.twcBusy 2 = false) ∧ ((s.d.twc 2).stuck = true))
      [((wS fun d => ((d.setFld 0x9F 0x40 31 31 1).updBbu 3 fun b => { b with pollN := 64 }) |>.updTwC 2 fun t => { t with fresh := false, stuck := true }), 3, none),
       ((wS fun d => ((d.setFld 0x9F 0x40 31 31 1).updBbu 3 fun b => { b with pollN := 64 }) |>.updTwC 2 fun t => { t with fresh := false, stuck := true }), 3, some (0, 1))]) ∧
    (all3 (fun (s : State) (m : Fin 4) (serial : BitVec 64) => (s.d.shape = true) ∧ ((s.d.bbu m).newPresence = true) ∧ ((s.d.bbu m).present = false) ∧ (s.d.twcBusy 2 = false) ∧ ((s.d.twc 2).stuck = false))
      [((wS fun d => ((d.setFld 0x9F 0x40 31 31 1).updBbu 3 fun b => { b with newPresence := true }) |>.updTwC 2 fun t => { t with fresh := false }), 3, 0xFFFFFFFFFFFFFFFF)]) ∧
    (all2 (fun (s : State) (m : Fin 4) => (s.d.shape = true) ∧ ((s.d.bbu m).present = true) ∧ ((if s.d.bbuCompat m then 2 ≤ (s.d.bbu m).absRun else 3 ≤ (s.d.bbu m).misses)))
      [((wS fun d => (d.setFld 0x9F 0x40 31 31 1).updBbu 3 fun b => { b with present := true, misses := 3, st := .estimated }), 3)]) ∧
    (all2 (fun (s : State) (m : Fin 4) => (s.d.shape = true) ∧ ((s.d.bbu m).st = .estimating) ∧ (
    (s.d.bbu m).idDue = none) ∧ (
    let b := s.d.bbu m
    let rest := decide (200000 * s.d.fld (bbuPg m) 0x58 23 16 ≤ b.restN)
    let late := decide (2000000 * s.d.fld (bbuPg m) 0x58 15 8 ≤ b.waitN)
    let v := if rest then Config.rdiv 39 (b.v + b.vPrev) 2
    else b.v + Config.rdiv 36 (((s.d.preVal (9 + m)).natAbs : Int) * (s.d.fld (bbuPg m) 0x44 15 0 : Int)) 100000
    (rest = true ∨ late = true)))
      [((wS fun d => (d.setFld 0x9F 0x40 31 31 1).updBbu 3 fun b => { b with st := .estimating, restN := 51000000 }), 3)]) ∧
    (all2 (fun (s : State) (m : Fin 4) => (s.d.shape = true) ∧ (s.d.bbuCompat m = true) ∧ (s.d.bbuEn m = true) ∧ ((s.d.bbu m).swapSeen = true) ∧ ((s.d.bbu m).present = false))
      [((wS fun d => (wCrust d 9 [0x0F#8]) |> fun d => (d.setFld 0x9F 0x40 31 31 1).updBbu 3 fun b => { b with swapSeen := true }), 3)]) ∧
    (all2 (fun (s : State) (m : Fin 4) => (s.d.shape = true) ∧ (3 ≤ (s.d.bbu m).naks))
      [((wS fun d => (d.setFld 0x9F 0x40 31 31 1).updBbu 3 fun b => { b with naks := 3 }), 3)]) := by
  unfold all2 all3; decide +kernel

/-- Every hypothesis of `Obligations.TwinHeartbeats` is met. -/
theorem wit_TwinHeartbeats :
    (all2 (fun (s : State) (t : Twin) => (
    let c := s.d.countTwins
    ((c.twinOf t).silent = true) ∧ (c.die.ruled = false)))
      [((wS fun d => d.updTwin .b fun x => { x with tickMiss := 2, sMiss := 2 }), .b)]) ∧
    (all3 (fun (s : State) (t : Twin) (p : HbPath) => (
    let c := s.d.countTwins
    ((c.twinOf t).st.running = true) ∧ ((c.twinOf t).tickLost = false) ∧ ((c.twinOf t).sLost = false) ∧ (
    (p = .tick → (c.twinOf t).tickMiss = 2 ∧ (c.twinOf t).sMiss = 0)) ∧ (
    (p = .s → (c.twinOf t).sMiss = 2 ∧ (c.twinOf t).tickMiss = 0))))
      [((wS fun d => d.updTwin .b fun x => { x with tickMiss := 2, sMiss := 0 }), .b, .tick),
       ((wS fun d => d.updTwin .b fun x => { x with sMiss := 2 }), .b, .s)]) ∧
    (all3 (fun (s : State) (t : Twin) (p : HbPath) => ((p = .tick → (s.d.twinOf t).tickLost = true ∧ (s.d.twinOf t).tickGood = 64)) ∧ ((p = .s → (s.d.twinOf t).sLost = true ∧ (s.d.twinOf t).sGood = 64)))
      [((wS fun d => d.updTwin .b fun x => { x with tickGood := 64, tickLost := true }), .b, .tick),
       ((wS fun d => d.updTwin .b fun x => { x with sGood := 64, sLost := true }), .b, .s)]) := by
  unfold all2 all3; decide +kernel

/-- Every hypothesis of `Obligations.TwinReturns` is met. -/
theorem wit_TwinReturns :
    (all2 (fun (s : State) (t : Twin) => ((s.d.twinOf t).st = .restart) ∧ (s.d.now ≤ (s.d.twinOf t).since + (if (s.d.twinOf t).relock then 256 else 32)))
      [((wS fun d => d.updTwin .b fun x => { x with st := .restart }), .b)]) ∧
    (all2 (fun (s : State) (t : Twin) => ((s.d.twinOf t).st = .restart) ∧ ((s.d.twinOf t).since + (if (s.d.twinOf t).relock then 256 else 32) ≤ s.d.now))
      [((wS fun d => { d with time := { d.time with ticks := 32 } } |>.updTwin .b fun x => { x with st := .restart }), .b)]) ∧
    (all2 (fun (s : State) (t : Twin) => ((s.d.twinOf t).st = .resync) ∧ (s.d.atBoundary = true) ∧ ((s.d.twinOf (otherTwin t)).st.running = true) ∧ (s.d.die.safe = false))
      [((wS fun d => (wBound d).updTwin .b fun x => { x with st := .resync }), .b)]) ∧
    (all2 (fun (s : State) (t : Twin) => ((s.d.twinOf t).st = .probation) ∧ ((s.d.twinOf t).prob = 0))
      [((wS fun d => d.updTwin .b fun x => { x with st := .probation, prob := 0 }), .b)]) ∧
    (all2 (fun (s : State) (t : Twin) => ((s.d.twinOf t).st = .out) ∧ ((s.d.twinOf t).retired = false) ∧ ((s.d.twinOf t).outLeft = 0) ∧ (s.d.flag 0xA0 0x40 0 = true))
      [((wS fun d => (d.setFld 0xA0 0x40 0 0 1).updTwin .b fun x => { x with st := .out }), .b)]) := by
  unfold all2; decide +kernel

/-- Every hypothesis of `Obligations.ResetAndBoot` is met. -/
theorem wit_ResetAndBoot :
    (all4 (fun (s : State) (a b : Fin 8) (votes : Nat) => s.d.mayRelease = true)
      [((wS fun d => d.updSup fun p => { p with inReset := true }), 7, 7, 65535)]) ∧
    (all3 (fun (s : State) (passA passB : Bool) => (s.d.fh.booted = false) ∧ (s.d.sup.inReset = false))
      [(State.reset, true, true),
       (State.reset, false, true),
       (State.reset, false, false)]) ∧
    (all2 (fun (s : State) (t : Twin) => (s.d.fh.booted = false) ∧ (s.d.sup.inReset = false))
      [(State.reset, .b)]) ∧
    (all6 (fun (s : State) (t : Twin) (pg a : Nat) (bytes : List Byte) (rest : List (Nat × List Byte)) => (s.d.upd.staging = (a, bytes) :: rest) ∧ ((match t with | .a => s.d.nv.busyA | .b => s.d.nv.busyB) = some pg))
      [((wS fun d => { d with nv := { d.nv with busyB := some 3 } } |>.updUpd fun u => { u with staging := [(0x300, [1#8])] }), .b, 3, 0x300, [1#8], [])]) := by
  unfold all2 all3 all4 all6; decide +kernel

/-- Every hypothesis of `Obligations.AcceptedWork` is met. -/
theorem wit_AcceptedWork :
    (all4 (fun (s : State) (src seq i : Nat) => (s.d.shape = true) ∧ (s.d.upd.pause = false) ∧ (s.d.replaying = false) ∧ (s.d.closed = none) ∧ (s.d.source src = none) ∧ (s.d.openSlot = some i))
      [(State.reset, 0x1005, 65535, 0)]) ∧
    (all3 (fun (s : State) (src seq : Nat) => ((s.d.upd.pause = true ∨ s.d.replaying = true)))
      [((wS fun d => d.updUpd fun u => { u with pause := true }), 0x1005, 1),
       ((wS fun d => (wHead (d) { wItem 3 [] with replay := true })), 0x1005, 1)]) ∧
    (all4 (fun (s : State) (src seq c : Nat) => (s.d.upd.pause = false) ∧ (s.d.replaying = false) ∧ (s.d.closed = some c))
      [((wS fun d => d.updSup fun p => { p with vauxWarn := true }), 0x1005, 1, 0x16),
       ((wS fun d => d.updJrn fun j => { j with held := 128 }), 0x1005, 1, 0x14)]) ∧
    (all4 (fun (s : State) (w : WorkItem) (st0 res : Nat) => (s.d.shape = true) ∧ (s.d.nvHeld = false) ∧ (s.d.head = some w) ∧ (w.result = some (st0, res)) ∧ ((w.replay = false ∨ (s.d.jrn.queue.drop 1).any WorkItem.replay = true ∨ s.d.upd.held = [])))
      [((wS fun d => wHead d { wItem 1 [] with result := some (1, 0) }), { wItem 1 [] with result := some (1, 0) }, 1, 0),
       ((wS fun d => wHead d { wItem 1 [] with result := some (1, 0), replay := true }), { wItem 1 [] with result := some (1, 0), replay := true }, 1, 0),
       ((wS fun d => (wHead d { wItem 1 [] with result := some (1, 0), replay := true }).updJrn fun j => { j with queue := [{ wItem 1 [] with result := some (1, 0), replay := true }, { wItem 1 [] with result := some (1, 0), replay := true }] }), { wItem 1 [] with result := some (1, 0), replay := true }, 1, 0)]) ∧
    (all1 (fun (s : State) => s.d.nvHeld = true)
      [wS fun d => d.updSup fun p => { p with vauxWarn := true },
       wS fun d => { d with therm := { d.therm with hold := true } }]) ∧
    (all2 (fun (s : State) (w : WorkItem) => (s.d.nvHeld = false) ∧ (s.d.head = some w) ∧ (w.result.isSome = true) ∧ (w.replay = true) ∧ ((s.d.jrn.queue.drop 1).any WorkItem.replay = false))
      [((wS fun d => wHead d { wItem 1 [] with result := some (1, 0), replay := true }), { wItem 1 [] with result := some (1, 0), replay := true }),
       ((wS fun d => (wHead d { wItem 1 [] with result := some (1, 0), replay := true }).updUpd fun u => { u with held := [.opening 5 0] }), { wItem 1 [] with result := some (1, 0), replay := true })]) := by
  unfold all1 all2 all3 all4; decide +kernel

/-- Every hypothesis of `Obligations.WindowCommands` is met. -/
theorem wit_WindowCommands :
    (all2 (fun (s : State) (w : WorkItem) => s.d.runnable 1 w)
      [((wS fun d => wHead d (wItem 1 [0x98#8, 0, 1, 0, 0, 0])), wItem 1 [0x98#8, 0, 1, 0, 0, 0]),
       ((wS fun d => wHead d (wItem 1 [0xD0#8, 0, 1, 0, 0, 0])), wItem 1 [0xD0#8, 0, 1, 0, 0, 0])]) ∧
    (all2 (fun (s : State) (w : WorkItem) => s.d.runnable 2 w)
      [((wS fun d => wHead d (wItem 2 [0x02#8, 0, 0x50, 0])), wItem 2 [0x02#8, 0, 0x50, 0]),
       ((wS fun d => wHead d (wItem 2 [0x02#8, 0, 0x40, 0])), wItem 2 [0x02#8, 0, 0x40, 0])]) ∧
    (all2 (fun (s : State) (w : WorkItem) => s.d.runnable 5 w)
      [((wS fun d => wHead d (wItem 5 [])), wItem 5 []),
       ((wS fun d => (wHead d (wItem 5 [])).updTwin .b fun x => { x with st := .out }), wItem 5 [])]) ∧
    (all2 (fun (s : State) (w : WorkItem) => s.d.runnable 6 w)
      [((wS fun d => (wHead d (wItem 6 [1#8])).updTwin .b fun x => { x with st := .out }), wItem 6 [1#8]),
       ((wS fun d => wHead d (wItem 6 [1#8])), wItem 6 [1#8])]) ∧
    (all2 (fun (s : State) (w : WorkItem) => s.d.runnable 8 w)
      [((wS fun d => wHead d (wItem 8 [])), wItem 8 []),
       ((wS fun d => (wHead d (wItem 8 [])).updFh fun h => { h with shelf := .up }), wItem 8 [])]) ∧
    (all2 (fun (s : State) (c : WakeCause) => s.d.sup.standby = true)
      [((wS fun d => d.updSup fun p => { p with standby := true }), .mr),
       ((wS fun d => d.updSup fun p => { p with standby := true }), .pb)]) ∧
    (all3 (fun (s : State) (w : WorkItem) (t : Nat) => (s.d.atBoundary = true) ∧ (s.d.head = some w) ∧ (w.timed = some t))
      [((wS fun d => wHead (wBound d) { wItem 3 [] with timed := some 0 }), { wItem 3 [] with timed := some 0 }, 0),
       ((wS fun d => (wHead (wBound d) { wItem 3 [] with timed := some 5 }).updMie fun m => { m with tst := .sync }), { wItem 3 [] with timed := some 5 }, 5),
       ((wS fun d => (wHead (wBound d) { wItem 3 [] with timed := some 0 }).updMie fun m => { m with tst := .hold }), { wItem 3 [] with timed := some 0 }, 0)]) := by
  unfold all2 all3 Dev.runnable; decide +kernel

/-- Every hypothesis of `Obligations.CrustChanges` is met. -/
theorem wit_CrustChanges :
    (all2 (fun (s : State) (w : WorkItem) => s.d.runnable 7 w)
      [((wS fun d => wHead d (wItem 7 [2#8, 1, 0, 0])), wItem 7 [2#8, 1, 0, 0]),
       ((wS fun d => wHead d (wItem 7 [2#8, 1, 0xF0, 0xE1])), wItem 7 [2#8, 1, 0xF0, 0xE1])]) ∧
    (all4 (fun (s : State) (votes : Nat) (j : CrustJob) (w : WorkItem) => (s.d.crust.job = some j) ∧ (j.spore = false) ∧ (s.d.head = some w) ∧ (w.code = 7) ∧ (w.started = true) ∧ (w.result = none))
      [((wS fun d => wHead { d with crust := { d.crust with job := some ⟨2, [1#8], 0x1000, false⟩ } } { wItem 7 [2#8, 1, 0, 0] with started := true }), 2, ⟨2, [1#8], 0x1000, false⟩, { wItem 7 [2#8, 1, 0, 0] with started := true })]) := by
  unfold all2 all4 Dev.runnable; decide +kernel

/-- Every hypothesis of `Obligations.SporeSessions` is met. -/
theorem wit_SporeSessions :
    (all2 (fun (s : State) (w : WorkItem) => (s.d.shape = true) ∧ (s.d.runnable 0x20 w))
      [((wS fun d => wHead d (wItem 0x20 [0#8, 0, 8, 0])), wItem 0x20 [0#8, 0, 8, 0]),
       ((wS fun d => wHead d (wItem 0x20 [0#8, 0, 0, 0])), wItem 0x20 [0#8, 0, 0, 0]),
       ((wS fun d => (wHead d (wItem 0x20 [0#8, 0, 8, 0])).updUpd fun u => { u with session := 4, owner := 0x1000 }), wItem 0x20 [0#8, 0, 8, 0])]) ∧
    (all2 (fun (s : State) (w : WorkItem) => (s.d.shape = true) ∧ (s.d.runnable 0x21 w))
      [((wS fun d => (wHead d (wItem 0x21 [1#8, 0])).updUpd fun u => { u with session := 1, st := .receiving }), wItem 0x21 [1#8, 0]),
       ((wS fun d => wHead d (wItem 0x21 [1#8, 0])), wItem 0x21 [1#8, 0])]) ∧
    (all1 (fun (s : State) => (s.d.shape = true) ∧ (s.d.upd.session ≠ 0) ∧ ((s.d.upd.st = .receiving ∨ s.d.upd.st = .ready)) ∧ (s.d.upd.idleTicks + s.d.fld updPg 0x40 23 16 * 2000000 ≤ s.d.now))
      [wS fun d => { d with time := { d.time with ticks := 510000000 } } |>.updUpd fun u => { u with session := 1, st := .ready }]) := by
  unfold all1 all2 Dev.runnable; decide +kernel

/-- Every hypothesis of `Obligations.SporeActivation` is met. -/
theorem wit_SporeActivation :
    (all3 (fun (s : State) (w : WorkItem) (other : Option (Nat × Nat × Nat)) => s.d.runnable 0x22 w)
      [((wS fun d => wHead d (wItem 0x22 [1#8, 0])), wItem 0x22 [1#8, 0], none),
       ((wS fun d => wHead d (wItem 0x22 [1#8, 0])), wItem 0x22 [1#8, 0], some (1, 2, 3)),
       ((wS fun d => (wHead d (wItem 0x22 [1#8, 0])).updUpd fun u => { u with session := 1, owner := 0x1000, total := 8 }), wItem 0x22 [1#8, 0], none),
       ((wS fun d => (wHead d (wItem 0x22 [1#8, 0])).updUpd fun u => { u with session := 1, owner := 0x1000, total := 8 }), wItem 0x22 [1#8, 0], some (1, 2, 3))]) ∧
    (all2 (fun (s : State) (w : WorkItem) => s.d.runnable 0x23 w)
      [((wS fun d => wHead d (wItem 0x23 [1#8, 0, 4, 0])), wItem 0x23 [1#8, 0, 4, 0]),
       ((wS fun d => (wHead d (wItem 0x23 [1#8, 0, 4, 0])).updUpd fun u => { u with session := 1, owner := 0x1000, st := .ready }), wItem 0x23 [1#8, 0, 4, 0])]) ∧
    (all1 (fun (s : State) => (s.d.atBoundary = true) ∧ (s.d.upd.waits = true) ∧ ((s.d.twin.suspend = false ∨ s.d.upd.switched = true)) ∧ ((s.d.upd.target + 65536 - s.d.nextFrond) % 65536 ≤ 4))
      [wS fun d => (wBound d).updUpd fun u => { u with st := .armed, target := 5 }]) ∧
    (all1 (fun (s : State) => (s.d.atBoundary = true) ∧ (s.d.nextFrond = s.d.upd.target) ∧ ((s.d.upd.st = .armed ∨ s.d.upd.st = .rollingBack)))
      [wS fun d => (wBound d).updUpd fun u => { u with st := .armed, target := 1 },
       wS fun d => (wBound d).updUpd fun u => { u with st := .rollingBack, target := 1 }]) ∧
    (all1 (fun (s : State) => (s.d.atBoundary = true) ∧ (s.d.upd.switched = true) ∧ (s.d.nextFrond = s.d.upd.resumeAt))
      [wS fun d => ((wBound d).updUpd fun u => { u with switched := true, resumeAt := 1 }).updCtl fun c => { c with suspend := true }]) := by
  unfold all1 all2 all3 Dev.runnable; decide +kernel

/-- Every hypothesis of `Obligations.SporeConfirmation` is met. -/
theorem wit_SporeConfirmation :
    (all1 (fun (s : State) => s.d.upd.pause = true)
      [wS fun d => d.updUpd fun u => { u with pause := true },
       wS fun d => (wHead d { wItem 0x25 [] with started := true }).updUpd fun u => { u with pause := true, rollCause := 4 }]) ∧
    (all2 (fun (s : State) (w : WorkItem) => (s.d.runnable 0x24 w) ∧ (s.d.upd.st ≠ .unconfirmed))
      [((wS fun d => wHead d (wItem 0x24 [])), wItem 0x24 [])]) ∧
    (all2 (fun (s : State) (w : WorkItem) => (s.d.runnable 0x24 w) ∧ (s.d.upd.st = .unconfirmed))
      [((wS fun d => (wHead d (wItem 0x24 [])).updUpd fun u => { u with st := .unconfirmed }), wItem 0x24 []),
       ((wS fun d => (wHead d (wItem 0x24 [])).updUpd fun u => { u with st := .unconfirmed, sections := [⟨4, 11, 0, [5#8, 0, 0, 0]⟩] }), wItem 0x24 []),
       ((wS fun d => (wHead d (wItem 0x24 [])).updUpd fun u => { u with st := .unconfirmed, sections := [⟨4, 11, 0, [0#8, 0, 0, 0]⟩] }), wItem 0x24 []),
       ((wS fun d => (wHead d (wItem 0x24 [])).updUpd fun u => { u with st := .unconfirmed, sections := [⟨4, 2, 0, [0#8]⟩] }), wItem 0x24 [])]) ∧
    (all2 (fun (s : State) (w : WorkItem) => s.d.runnable 0x25 w)
      [((wS fun d => wHead d (wItem 0x25 [4#8, 0])), wItem 0x25 [4#8, 0]),
       ((wS fun d => (wHead d (wItem 0x25 [4#8, 0])).updUpd fun u => { u with st := .unconfirmed }), wItem 0x25 [4#8, 0])]) ∧
    (all1 (fun (s : State) => (s.d.atBoundary = true) ∧ (s.d.upd.running = true) ∧ (s.d.upd.left = 0) ∧ (s.d.upd.st = .unconfirmed))
      [wS fun d => (wBound d).updUpd fun u => { u with st := .unconfirmed, running := true },
       wS fun d => (wBound (wHead d { wItem 0x24 [] with started := true })).updUpd fun u => { u with st := .unconfirmed, running := true }]) := by
  unfold all1 all2 Dev.runnable; decide +kernel

/-- Every hypothesis of `Obligations.CaptureAndInjection` is met. -/
theorem wit_CaptureAndInjection :
    (all1 (fun (s : State) => (s.d.inj.running = true) ∧ (s.d.inj.endless = false) ∧ (s.d.inj.left = 0))
      [wS fun d => { d with inj := { d.inj with running := true, endless := false, left := 0 } }]) ∧
    (all1 (fun (s : State) => (s.d.cap.st = .filling) ∧ (s.d.capPre ≤ s.d.cap.count))
      [wS fun d => (d.setReg 0xE0 0x88 0) |> fun d => { d with cap := { d.cap with st := .filling } }]) ∧
    (all1 (fun (s : State) => (s.d.cap.st = .triggered) ∧ (s.d.cap.post = 0))
      [wS fun d => { d with cap := { d.cap with st := .triggered, post := 0 } }]) ∧
    (all1 (fun (s : State) => (s.d.cap.rdAsked = true) ∧ (s.d.cap.copying = true) ∧ ((s.d.ch 15).st = .idle) ∧ (s.d.cap.st ≠ .filling) ∧ (s.d.cap.st ≠ .armed) ∧ (s.d.cap.st ≠ .triggered))
      [wS fun d => { d with cap := { d.cap with rdAsked := true, copying := true } }]) ∧
    (all1 (fun (s : State) => (s.d.cap.rdAsked = false ∨ s.d.cap.copying = false ∨ (s.d.ch 15).st ≠ .idle))
      [State.reset,
       wS fun d => { d with cap := { d.cap with rdAsked := true } }]) := by
  unfold all1; decide +kernel

/-- Every hypothesis of `Obligations.PeatReads` is met. -/
theorem wit_PeatReads :
    all1 (fun (s : State) => s.d.peat.rdAsked = true)
      [wS fun d => { d with peat := { d.peat with rdAsked := true } }] := by
  unfold all1; decide +kernel

/-- Every hypothesis of `Obligations.SwapsAndChannels` is met. -/
theorem wit_SwapsAndChannels :
    (all1 (fun (s : State) => (s.d.atBoundary = true) ∧ (s.d.swapDue = true))
      [wS fun d => (wBound d).updSched fun x => { x with armed := true, swapFrond := 1 },
       wS fun d => (wBound d).updSched fun x => { x with armed := true, swapFrond := 1, loaded1 := true }]) ∧
    (all2 (fun (s : State) (c : Fin 16) => (s.d.shape = true) ∧ (dmaOwn c = true) ∧ ((s.d.ch c).st ≠ .idle))
      [((wS fun d => d.updDma 14 fun h => { h with st := .waitOwn, en := true }), 14),
       ((wS fun d => d.updDma 14 fun h => { h with st := .run, holds := true, en := true }), 14),
       ((wS fun d => d.updDma 14 fun h => { h with st := .waitReq, holds := true, en := true }), 14)]) ∧
    (all2 (fun (s : State) (c : Fin 16) => (s.d.shape = true) ∧ (dmaOwn c = true))
      [(State.reset, 14),
       ((wS fun d => d.updDma 14 fun h => { h with st := .waitReq }), 14)]) ∧
    (all2 (fun (s : State) (c : Fin 16) => (s.d.shape = true) ∧ (dmaOwn c = true))
      [((wS fun d => d.updDma 14 fun h => { h with st := .paused, back := .waitOwn, pause := true }), 14)]) := by
  unfold all1 all2; decide +kernel

/-- Every hypothesis of `Obligations.ChannelStart` is met. -/
theorem wit_ChannelStart :
    all2 (fun (s : State) (c : Fin 16) => (s.d.shape = true) ∧ (dmaOwn c = true) ∧ ((s.d.ch c).st = .idle) ∧ (s.d.reg dmaPg (chOff c + 4) < 2 ^ 32))
      [((wS fun d => d.setReg dmaPg (chOff 14 + 4) 0x1F03FFE0), 14),
       ((wS fun d => d.setReg dmaPg (chOff 14 + 4) 0x20000000), 14),
       (State.reset, 0)] := by
  unfold all2; decide +kernel

/-- Every hypothesis of `Obligations.RegisterWindow` is met. -/
theorem wit_RegisterWindow :
    (all5 (fun (s : State) (n : Fin 2) (page off : Nat) (ws : List Word32) => (s.d.shape = true) ∧ (s.d.twDead = false) ∧ (s.d.upd.pause = false))
      [(State.reset, 1, 0x98, 0x54, [0x123]),
       (State.reset, 1, 0x98, 0x54, [])]) ∧
    (all5 (fun (s : State) (n : Fin 2) (page off k : Nat) => (s.d.shape = true) ∧ (s.d.twDead = false) ∧ (s.d.upd.pause = false))
      [(State.reset, 1, 0x98, 0xFF8, 2),
       (State.reset, 1, 0x98, 0xFF8, 62)]) ∧
    (all6 (fun (s : State) (n : Fin 2) (tag seq code : Nat) (args : List Byte) => (s.d.shape = true) ∧ (s.d.twDead = false) ∧ (s.d.upd.pause = false) ∧ (s.d.replaying = false))
      [(State.reset, 1, 5, 1, 0, []),
       (State.reset, 1, 5, 1, 0, [1#8]),
       (State.reset, 0, 5, 1, 3, [])]) ∧
    (all12 (fun (s : State) (n : Fin 2) (page off k tag seq code : Nat) (ws : List Word32) (args : List Byte) (c : Instr) (b : HeldBlk) => (s.d.shape = true) ∧ (s.d.twDead = false) ∧ (s.d.holds b = true) ∧ (((c = .regWrite n page off ws ∧ b = .regWrite n page off ws) ∨ (c = .regRead n page off k ∧ b = .regRead n page off k) ∨ (c = .seqItem n tag seq code args ∧ b = .seq n tag seq code args))))
      [((wS fun d => d.updUpd fun u => { u with pause := true }), 1, 0x98, 0x54, 1, 5, 1, 0, [0x123], [], .regWrite 1 0x98 0x54 [0x123], .regWrite 1 0x98 0x54 [0x123]),
       ((wS fun d => d.updUpd fun u => { u with pause := true }), 1, 0x98, 0x54, 1, 5, 1, 0, [0x123], [], .regRead 1 0x98 0x54 1, .regRead 1 0x98 0x54 1),
       ((wS fun d => d.updUpd fun u => { u with pause := true }), 1, 0x98, 0x54, 1, 5, 1, 0, [0x123], [], .seqItem 1 5 1 0 [], .seq 1 5 1 0 [])]) ∧
    (all2 (fun (s : State) (n : Fin 2) => (s.d.shape = true) ∧ (s.d.twDead = false))
      [(State.reset, 1),
       ((wS fun d => d.updTwT 1 fun t => { t with reply := some ⟨true, 0, [7#8]⟩ }), 1),
       ((wS fun d => d.updTwT 1 fun t => { t with reply := some ⟨false, 0, []⟩ }), 1)]) := by
  unfold all12 all2 all5 all6; decide +kernel

/-- Every hypothesis of `Obligations.TargetPortEvents` is met. -/
theorem wit_TargetPortEvents :
    (all3 (fun (s : State) (n : Fin 2) (r : KeptReply) => (s.d.shape = true) ∧ ((s.d.twt n).reply = some r) ∧ (r.ready = false))
      [((wS fun d => d.updTwT 1 fun t => { t with reply := some ⟨false, 0, []⟩ }), 1, ⟨false, 0, []⟩)]) ∧
    (all2 (fun (s : State) (n : Fin 2) => (s.d.shape = true) ∧ (s.d.twDead = false))
      [(State.reset, 1),
       (State.reset, 0)]) ∧
    (all2 (fun (s : State) (n : Fin 2) => (s.d.shape = true) ∧ (s.d.twDead = false))
      [(State.reset, 1),
       ((wS fun d => { d with die := { d.die with alert1 := true } }), 1)]) ∧
    (all3 (fun (s : State) (n : Fin 2) (acked : Bool) => (s.d.shape = true) ∧ (s.d.twDead = false) ∧ (s.d.flag (twtPg n) 0x40 1 = true) ∧ ((s.d.twt n).hnPend ≠ 0) ∧ ((s.d.twt n).hnWait = 0) ∧ ((s.d.twt n).arbWait = false))
      [((wS fun d => (d.setFld (twtPg 1) 0x40 1 1 1).updTwT 1 fun t => { t with hnPend := 7 }), 1, true),
       ((wS fun d => (d.setFld (twtPg 1) 0x40 1 1 1).updTwT 1 fun t => { t with hnPend := 7 }), 1, false)]) ∧
    (all2 (fun (s : State) (n : Fin 2) => (s.d.shape = true) ∧ ((s.d.twt n).hnFails = 3))
      [((wS fun d => d.updTwT 1 fun t => { t with hnFails := 3 }), 1)]) ∧
    (all4 (fun (s : State) (n : Fin 2) (b : Byte) (pec : Byte) => (s.d.shape = true) ∧ (s.d.twDead = false) ∧ (pec.toNat = s.d.blockPec n false [0x00#8, b]) ∧ ((b.toNat ≤ 3 ∨ b = 0xFF#8)))
      [(State.reset, 1, 0xFF, BitVec.ofNat 8 (Dev.reset.blockPec 1 false [0x00#8, 0xFF#8]))]) := by
  unfold all2 all3 all4; decide +kernel

/-- Every hypothesis of `Obligations.PmbusCommands` is met. -/
theorem wit_PmbusCommands :
    (all3 (fun (s : State) (n : Fin 2) (x : Instr × Nat × List Byte) => (s.d.shape = true) ∧ (s.d.twDead = false) ∧ ((s.d.twt n).page ≠ 0xFF) ∧ (x ∈ pmReads n s.snap (s.d.twt n).page))
      [(State.reset, 1, (.pmCapability 1, 0x19, [0xD0#8]))]) ∧
    (all2 (fun (s : State) (n : Fin 2) => (s.d.shape = true) ∧ (s.d.twDead = false) ∧ ((s.d.twt n).page ≠ 0xFF))
      [((wS fun d => d.updTwT 1 fun t => { t with page := 3 }), 1)]) ∧
    (all5 (fun (s : State) (n : Fin 2) (x : Instr × Nat × List Byte) (d : Dev) (r : Nat) => (s.d.shape = true) ∧ (s.d.twDead = false) ∧ ((s.d.twt n).page = 0xFF) ∧ (x ∈ pmReads n d r))
      [((wS fun d => d.updTwT 1 fun t => { t with page := 0xFF }), 1, (.pmCapability 1, 0x19, [0xD0#8]), Dev.reset, 0)]) ∧
    (all5 (fun (s : State) (n : Fin 2) (x : Instr × Nat × List Byte) (d : Dev) (r : Nat) => (s.d.shape = true) ∧ (s.d.twDead = true) ∧ (x ∈ pmReads n d r))
      [((wS fun d => d.updSup fun p => { p with standby := true }), 1, (.pmCapability 1, 0x19, [0xD0#8]), Dev.reset, 0)]) ∧
    (all3 (fun (s : State) (n : Fin 2) (v : Byte) => (s.d.shape = true) ∧ (s.d.twDead = false))
      [(State.reset, 1, 3),
       (State.reset, 1, 0xFF),
       (State.reset, 1, 4)]) ∧
    (all3 (fun (s : State) (n : Fin 2) (v : Byte) => (s.d.shape = true) ∧ (s.d.twDead = false))
      [(State.reset, 1, 0x80),
       (State.reset, 1, 0),
       (State.reset, 1, 1)]) ∧
    (all3 (fun (s : State) (n : Fin 2) (v : BitVec 16) => (s.d.shape = true) ∧ (s.d.twDead = false))
      [(State.reset, 1, 0xFFFF),
       ((wS fun d => (d.setFld (twtPg 1) 0x40 15 8 0).updTwT 1 fun t => { t with page := 0xFF }), 1, 0xFFFF),
       ((wS fun d => ((d.setFld (twtPg 1) 0x40 15 8 0).updTwT 1 fun t => { t with page := 0xFF }).updUpd fun u => { u with pause := true }), 1, 0xFFFF)]) ∧
    (all3 (fun (s : State) (n : Fin 2) (v : Byte) => (s.d.shape = true) ∧ (s.d.twDead = false))
      [(State.reset, 1, 0)]) := by
  unfold all2 all3 all5; decide +kernel

/-- Every hypothesis of `Obligations.ControllerPorts` is met. -/
theorem wit_ControllerPorts :
    (all4 (fun (s : State) (chan : Nat) (a : TwAnswer) (b : OutBlock) => (s.d.offline = false) ∧ ((chan < 0x12 ∨ 0x15 < chan)) ∧ ((s.d.die.out.find? fun b => b.chan == chan && b.last) = some b))
      [((wS fun d => { d with die := { d.die with out := [⟨0x11, [1#8], true⟩] } }), 0x11, .nack, ⟨0x11, [1#8], true⟩)]) ∧
    (all4 (fun (s : State) (c : Fin 4) (a : TwAnswer) (b : OutBlock) => (s.d.shape = true) ∧ (s.d.twcBusy c = false) ∧ ((s.d.die.out.find? fun b => b.chan == 0x12 + c.val && b.last) = some b))
      [((wS fun d => { d with die := { d.die with out := [⟨0x15, [1#8], true⟩] } } |>.updTwC 3 fun t => { t with fresh := false }), 3, .data 0xFFFF, ⟨0x15, [1#8], true⟩),
       ((wS fun d => { d with die := { d.die with out := [⟨0x15, [1#8], true⟩] } } |>.updTwC 3 fun t => { t with fresh := false, stuck := true }), 3, .data 0xFFFF, ⟨0x15, [1#8], true⟩),
       ((wS fun d => { d with die := { d.die with out := [⟨0x15, [1#8], true⟩] } } |>.updTwC 3 fun t => { t with fresh := false }), 3, .nack, ⟨0x15, [1#8], true⟩),
       ((wS fun d => { d with die := { d.die with out := [⟨0x15, [1#8], true⟩] } } |>.updTwC 3 fun t => { t with fresh := false, stuck := true }), 3, .nack, ⟨0x15, [1#8], true⟩),
       ((wS fun d => { d with die := { d.die with out := [⟨0x15, [1#8], true⟩] } } |>.updTwC 3 fun t => { t with fresh := false }), 3, .pec, ⟨0x15, [1#8], true⟩),
       ((wS fun d => { d with die := { d.die with out := [⟨0x15, [1#8], true⟩] } } |>.updTwC 3 fun t => { t with fresh := false, stuck := true }), 3, .pec, ⟨0x15, [1#8], true⟩),
       ((wS fun d => { d with die := { d.die with out := [⟨0x15, [1#8], true⟩] } } |>.updTwC 3 fun t => { t with fresh := false }), 3, .abort, ⟨0x15, [1#8], true⟩),
       ((wS fun d => { d with die := { d.die with out := [⟨0x15, [1#8], true⟩] } } |>.updTwC 3 fun t => { t with fresh := false, stuck := true }), 3, .abort, ⟨0x15, [1#8], true⟩)]) ∧
    (all4 (fun (s : State) (c : Fin 4) (i : Fin 16) (a : TwAnswer) => (s.d.shape = true) ∧ (s.d.twcBusy c = false) ∧ ((s.d.twc c).polls.length = 16) ∧ (s.d.flag (twcPg c) (0x100 + 8 * i) 31 = true) ∧ (s.d.fld (twcPg c) (0x100 + 8 * i) 7 0 ≤ (nth (s.d.twc c).polls i PollRes.reset).age))
      [((wS fun d => (d.setReg (twcPg 3) (0x100 + 8 * 15) 0x80000000).updTwC 3 fun t => { t with fresh := false }), 3, 15, .data 0xFFFF),
       ((wS fun d => (d.setReg (twcPg 3) (0x100 + 8 * 15) 0x80000000).updTwC 3 fun t => { t with fresh := false, stuck := true }), 3, 15, .data 0xFFFF),
       ((wS fun d => (d.setReg (twcPg 3) (0x100 + 8 * 15) 0x80000000).updTwC 3 fun t => { t with fresh := false }), 3, 15, .nack),
       ((wS fun d => (d.setReg (twcPg 3) (0x100 + 8 * 15) 0x80000000).updTwC 3 fun t => { t with fresh := false, stuck := true }), 3, 15, .nack),
       ((wS fun d => (d.setReg (twcPg 3) (0x100 + 8 * 15) 0x80000000).updTwC 3 fun t => { t with fresh := false }), 3, 15, .pec),
       ((wS fun d => (d.setReg (twcPg 3) (0x100 + 8 * 15) 0x80000000).updTwC 3 fun t => { t with fresh := false, stuck := true }), 3, 15, .pec),
       ((wS fun d => (d.setReg (twcPg 3) (0x100 + 8 * 15) 0x80000000).updTwC 3 fun t => { t with fresh := false }), 3, 15, .abort),
       ((wS fun d => (d.setReg (twcPg 3) (0x100 + 8 * 15) 0x80000000).updTwC 3 fun t => { t with fresh := false, stuck := true }), 3, 15, .abort)]) ∧
    (all5 (fun (s : State) (c : Fin 4) (a : TwAnswer) (x : TwTx) (rest : List TwTx) => (s.d.shape = true) ∧ (s.d.twcBusy c = false) ∧ ((s.d.twc c).retry = x :: rest))
      [((wS fun d => d.updTwC 3 fun t => { t with fresh := false, retry := [.poll 15] }), 3, .data 0xFFFF, .poll 15, []),
       ((wS fun d => d.updTwC 3 fun t => { t with fresh := false, retry := [.poll 15] }), 3, .nack, .poll 15, []),
       ((wS fun d => d.updTwC 3 fun t => { t with fresh := false, retry := [.poll 15] }), 3, .pec, .poll 15, []),
       ((wS fun d => d.updTwC 3 fun t => { t with fresh := false, retry := [.poll 15] }), 3, .abort, .poll 15, [])]) ∧
    (all2 (fun (s : State) (c : Fin 4) => s.d.offline = false)
      [(State.reset, 3)]) ∧
    (all4 (fun (s : State) (n : Fin 6) (byte bit : Nat) => (s.d.shape = true) ∧ (s.d.offline = false))
      [(State.reset, 5, 2, 8),
       (State.reset, 1, 0, 0)]) ∧
    (all2 (fun (s : State) (n : Fin 6) => s.d.shape = true)
      [((wS fun d => d.updTwC 3 fun t => { t with arbWait := true }), 5),
       (State.reset, 0)]) ∧
    (all3 (fun (s : State) (c : Fin 4) (b : BusState) => (s.d.shape = true) ∧ (s.d.offline = false) ∧ (((s.d.twc c).stuck = true → 64 ≤ (s.d.twc c).stuckAge)))
      [(State.reset, 3, .released),
       (State.reset, 3, .sdaLow),
       (State.reset, 3, .sclLow),
       ((wS fun d => d.updTwC 3 fun t => { t with stuck := true, stuckAge := 64 }), 3, .released),
       ((wS fun d => d.updTwC 3 fun t => { t with stuck := true, stuckAge := 64 }), 3, .sdaLow),
       ((wS fun d => d.updTwC 3 fun t => { t with stuck := true, stuckAge := 64 }), 3, .sclLow)]) ∧
    (all3 (fun (s : State) (c : Fin 4) (b : BusState) => ((s.d.twc c).stuck = true) ∧ ((s.d.twc c).stuckAge < 64))
      [((wS fun d => d.updTwC 3 fun t => { t with stuck := true, stuckAge := 63 }), 3, .released),
       ((wS fun d => d.updTwC 3 fun t => { t with stuck := true, stuckAge := 63 }), 3, .sdaLow),
       ((wS fun d => d.updTwC 3 fun t => { t with stuck := true, stuckAge := 63 }), 3, .sclLow)]) := by
  unfold all2 all3 all4 all5; decide +kernel

/-- Every hypothesis of `Obligations.MienoReception` is met. -/
theorem wit_MienoReception :
    (all4 (fun (s : State) (p : MPort) (f : MFrame) (rx : Int) => ((f.kind = 0xB → f.format ≠ 1)) ∧ ((s.d.offline = true ∨ mieCrcOk f = false ∨ f.hops = 0 ∨ (f.src = s.d.rowId ∧ (frameKnown f = false ∨ f.kind ≠ 4 ∨ leNat (f.payload.take 8) = Config.devSerial.toNat)))))
      [(State.reset, .me, { wMf 1 with payload := [] }, 0),
       (State.reset, .me, { wMf 2 with payload := [] }, 0),
       (State.reset, .me, { wMf 3 with payload := [] }, 0),
       (State.reset, .me, { wMf 4 with payload := [] }, 0),
       (State.reset, .me, { wMf 5 with payload := [] }, 0),
       (State.reset, .me, { wMf 6 with payload := [] }, 0),
       (State.reset, .me, { wMf 7 with payload := [] }, 0),
       (State.reset, .me, { wMf 8 with payload := [] }, 0),
       (State.reset, .me, { wMf 9 with payload := [] }, 0),
       (State.reset, .me, { wMf 10 with payload := [] }, 0),
       (State.reset, .me, { wMf 12 with payload := [] }, 0),
       (State.reset, .mw, mieSeal { wMf 1 with payload := [], hops := 0 }, 0),
       (State.reset, .mw, mieSeal { wMf 4 with payload := [], hops := 0 }, 0),
       (State.reset, .mw, mieSeal { wMf 12 with payload := [], hops := 0 }, 0),
       (State.reset, .mw, mieSeal { wMf 1 with payload := [], src := 0 }, 0),
       (State.reset, .mw, mieSeal { wMf 2 with payload := [], src := 0 }, 0),
       (State.reset, .mw, mieSeal { wMf 12 with payload := [], src := 0 }, 0),
       ((wS fun d => d.updSup fun p => { p with standby := true }), .mw, mieSeal { wMf 1 with payload := [] }, 0),
       ((wS fun d => d.updSup fun p => { p with standby := true }), .mw, mieSeal { wMf 4 with payload := [] }, 0),
       ((wS fun d => d.updSup fun p => { p with standby := true }), .mw, mieSeal { wMf 12 with payload := [] }, 0)]) ∧
    (all4 (fun (s : State) (p : MPort) (f : MFrame) (rx : Int) => ((f.kind = 0xB → f.format ≠ 1)) ∧ (s.d.offline = false) ∧ (mieCrcOk f = true) ∧ (f.hops ≠ 0) ∧ (f.src ≠ s.d.rowId) ∧ ((winJudge (s.d.window f.src) f = .duplicate ∨ winJudge (s.d.window f.src) f = .stale)))
      [((wS fun d => d.updMie fun m => { m with windows := [⟨1, 0, 0, 0⟩] }), .me, mieSeal { wMf 1 with payload := [] }, 0),
       ((wS fun d => d.updMie fun m => { m with windows := [⟨1, 0, 0, 0⟩] }), .me, mieSeal { wMf 2 with payload := [] }, 0),
       ((wS fun d => d.updMie fun m => { m with windows := [⟨1, 0, 0, 0⟩] }), .me, mieSeal { wMf 3 with payload := [] }, 0),
       ((wS fun d => d.updMie fun m => { m with windows := [⟨1, 0, 0, 0⟩] }), .me, mieSeal { wMf 4 with payload := [] }, 0),
       ((wS fun d => d.updMie fun m => { m with windows := [⟨1, 0, 0, 0⟩] }), .me, mieSeal { wMf 5 with payload := [] }, 0),
       ((wS fun d => d.updMie fun m => { m with windows := [⟨1, 0, 0, 0⟩] }), .me, mieSeal { wMf 6 with payload := [] }, 0),
       ((wS fun d => d.updMie fun m => { m with windows := [⟨1, 0, 0, 0⟩] }), .me, mieSeal { wMf 7 with payload := [] }, 0),
       ((wS fun d => d.updMie fun m => { m with windows := [⟨1, 0, 0, 0⟩] }), .me, mieSeal { wMf 8 with payload := [] }, 0),
       ((wS fun d => d.updMie fun m => { m with windows := [⟨1, 0, 0, 0⟩] }), .me, mieSeal { wMf 9 with payload := [] }, 0),
       ((wS fun d => d.updMie fun m => { m with windows := [⟨1, 0, 0, 0⟩] }), .me, mieSeal { wMf 10 with payload := [] }, 0),
       ((wS fun d => d.updMie fun m => { m with windows := [⟨1, 0, 0, 0⟩] }), .me, mieSeal { wMf 12 with payload := [] }, 0),
       ((wS fun d => d.updMie fun m => { m with windows := [⟨1, 1000, 0, 0⟩] }), .me, mieSeal { wMf 1 with payload := [] }, 0),
       ((wS fun d => d.updMie fun m => { m with windows := [⟨1, 1000, 0, 0⟩] }), .me, mieSeal { wMf 4 with payload := [] }, 0),
       ((wS fun d => d.updMie fun m => { m with windows := [⟨1, 1000, 0, 0⟩] }), .me, mieSeal { wMf 12 with payload := [] }, 0)]) ∧
    (all5 (fun (s : State) (p : MPort) (f : MFrame) (rx : Int) (w : RxWindow) => ((f.kind = 0xB → f.format ≠ 1)) ∧ (s.d.offline = false) ∧ (mieCrcOk f = true) ∧ (f.hops ≠ 0) ∧ (f.src ≠ s.d.rowId) ∧ (winJudge (s.d.window f.src) f = .accepted w) ∧ ((frameKnown f = false ∨ s.d.isMine f = false)))
      [(State.reset, .me, mieSeal { wMf 12 with payload := [] }, 0, ⟨1, 0, 0, 0⟩),
       (State.reset, .me, mieSeal { wMf 1 with payload := [], bcast := false, dst := 5 }, 0, ⟨1, 0, 0, 0⟩),
       (State.reset, .me, mieSeal { wMf 2 with payload := [], bcast := false, dst := 5 }, 0, ⟨1, 0, 0, 0⟩),
       (State.reset, .me, mieSeal { wMf 3 with payload := [], bcast := false, dst := 5 }, 0, ⟨1, 0, 0, 0⟩),
       (State.reset, .me, mieSeal { wMf 4 with payload := [], bcast := false, dst := 5 }, 0, ⟨1, 0, 0, 0⟩),
       (State.reset, .me, mieSeal { wMf 5 with payload := [], bcast := false, dst := 5 }, 0, ⟨1, 0, 0, 0⟩),
       (State.reset, .me, mieSeal { wMf 6 with payload := [], bcast := false, dst := 5 }, 0, ⟨1, 0, 0, 0⟩),
       (State.reset, .me, mieSeal { wMf 7 with payload := [], bcast := false, dst := 5 }, 0, ⟨1, 0, 0, 0⟩),
       (State.reset, .me, mieSeal { wMf 8 with payload := [], bcast := false, dst := 5 }, 0, ⟨1, 0, 0, 0⟩),
       (State.reset, .me, mieSeal { wMf 9 with payload := [], bcast := false, dst := 5 }, 0, ⟨1, 0, 0, 0⟩),
       (State.reset, .me, mieSeal { wMf 10 with payload := [], bcast := false, dst := 5 }, 0, ⟨1, 0, 0, 0⟩)]) ∧
    (all3 (fun (s : State) (p : MPort) (f : MFrame) => (frameKnown f = true) ∧ (f.kind ≠ 3) ∧ (f.kind ≠ 4) ∧ (f.kind ≠ 0xB) ∧ ((s.d.receive p f none).2 = true) ∧ ((s.d.kindWaits f.kind = true ∨ s.d.kindFires f.kind = false ∨ (s.d.mie.rxBuf.all fun x => !s.d.kindFires x.2.kind) = false)))
      [(State.reset, .me, mieSeal { wMf 1 with payload := [] }),
       (State.reset, .me, mieSeal { wMf 2 with payload := [] }),
       (State.reset, .me, mieSeal { wMf 5 with payload := [] }),
       (State.reset, .me, mieSeal { wMf 6 with payload := [] }),
       (State.reset, .me, mieSeal { wMf 7 with payload := [] }),
       (State.reset, .me, mieSeal { wMf 8 with payload := [] }),
       (State.reset, .me, mieSeal { wMf 9 with payload := [] }),
       (State.reset, .me, mieSeal { wMf 10 with payload := [] }),
       ((wS fun d => (wMall d).updUpd fun u => { u with pause := true }), .me, mieSeal { wMf 1 with payload := [] }),
       ((wS fun d => (wMall d).updUpd fun u => { u with pause := true }), .me, mieSeal { wMf 2 with payload := [] }),
       ((wS fun d => (wMall d).updUpd fun u => { u with pause := true }), .me, mieSeal { wMf 5 with payload := [] }),
       ((wS fun d => (wMall d).updUpd fun u => { u with pause := true }), .me, mieSeal { wMf 6 with payload := [] }),
       ((wS fun d => (wMall d).updUpd fun u => { u with pause := true }), .me, mieSeal { wMf 7 with payload := [] }),
       ((wS fun d => (wMall d).updUpd fun u => { u with pause := true }), .me, mieSeal { wMf 8 with payload := [] }),
       ((wS fun d => (wMall d).updUpd fun u => { u with pause := true }), .me, mieSeal { wMf 9 with payload := [] }),
       ((wS fun d => (wMall d).updUpd fun u => { u with pause := true }), .me, mieSeal { wMf 10 with payload := [] })]) := by
  unfold all3 all4 all5; decide +kernel

/-- Every hypothesis of `Obligations.MienoDelivery` is met. -/
theorem wit_MienoDelivery :
    (all3 (fun (s : State) (p : MPort) (f : MFrame) => s.d.takesNow p f)
      [((wS fun d => wMall d), .me, mieSeal { wMf 1 with payload := [] }),
       ((wS fun d => wMall d), .me, mieSeal { wMf 2 with payload := [] }),
       ((wS fun d => wMall d), .me, mieSeal { wMf 5 with payload := [] }),
       ((wS fun d => wMall d), .me, mieSeal { wMf 6 with payload := [] }),
       ((wS fun d => wMall d), .me, mieSeal { wMf 7 with payload := [] }),
       ((wS fun d => wMall d), .me, mieSeal { wMf 8 with payload := [] }),
       ((wS fun d => wMall d), .me, mieSeal { wMf 9 with payload := [] }),
       ((wS fun d => wMall d), .me, mieSeal { wMf 10 with payload := [] }),
       ((wS fun d => wMall d), .me, mieSeal { wMf 9 with payload := [3#8, 1, 0, 1] }),
       ((wS fun d => wMall d), .me, mieSeal { wMf 6 with payload := [1#8, 0, 0] ++ List.replicate 9 0#8 }),
       ((wS fun d => wMall d), .me, mieSeal { wMf 6 with payload := [1#8, 0, 7] ++ List.replicate 13 0#8 })]) ∧
    (all3 (fun (s : State) (p : MPort) (f : MFrame) => (frameKnown f = true) ∧ (f.kind = 4) ∧ ((s.d.receive p f none).2 = true))
      [(State.reset, .me, mieSeal { wMf 4 with payload := [] })]) ∧
    (all4 (fun (s : State) (p : MPort) (f : MFrame) (rx : Int) => (frameKnown f = true) ∧ (f.kind = 3) ∧ ((s.d.receive p f (some (s.d.instant rx))).2 = true))
      [(State.reset, .me, mieSeal { wMf 3 with payload := [] }, 0),
       ((wS fun d => d.updMie fun m => { m with master := some 1 }), .me, mieSeal { wMf 3 with payload := [] }, 70000000),
       ((wS fun d => d.updMie fun m => { m with master := some 1, tst := .sync }), .me, mieSeal { wMf 3 with payload := [] }, 65536001),
       ((wS fun d => d.updMie fun m => { m with master := some 1, tst := .hold }), .me, mieSeal { wMf 3 with payload := [] }, 65536000),
       ((wS fun d => d.updMie fun m => { m with master := some 1, tst := .resync, goodN := 3 }), .me, mieSeal { wMf 3 with payload := [] }, -6553600)]) := by
  unfold all3 all4 Dev.takesNow; decide +kernel

/-- Every hypothesis of `Obligations.RowEvents` is met. -/
theorem wit_RowEvents :
    (all2 (fun (s : State) (p : MPort) => s.d.offline = false)
      [(State.reset, .mw)]) ∧
    (all2 (fun (s : State) (p : MPort) => ((s.d.mport p).up = true))
      [((wS fun d => d.updMp .mw fun q => { q with up := true }), .mw)]) ∧
    (all7 (fun (s : State) (p : MPort) (t1 t2 t3 t4 : Int) (nb : Nat) => s.d.offline = false)
      [(State.reset, .mw, 0, 1, 2, 10, 1023)]) ∧
    (all1 (fun (s : State) => (s.d.mie.idConf = true) ∧ (8 ≤ s.d.mie.confEpochs))
      [wS fun d => d.updMie fun m => { m with idConf := true, confEpochs := 8 }]) ∧
    (all4 (fun (s : State) (p : MPort) (f : MFrame) (w : RxWindow) => (frameKnown f = false) ∧ (s.d.offline = false) ∧ (mieCrcOk f = true) ∧ (f.hops ≠ 0) ∧ (f.src ≠ s.d.rowId) ∧ (winJudge (s.d.window f.src) f = .accepted w))
      [(State.reset, .me, mieSeal { wMf 0 with payload := [] }, ⟨1, 0, 0, 0⟩),
       (State.reset, .me, mieSeal { wMf 12 with payload := [] }, ⟨1, 0, 0, 0⟩),
       (State.reset, .me, mieSeal { wMf 15 with payload := [] }, ⟨1, 0, 0, 0⟩),
       (State.reset, .me, mieSeal { wMf 1 with payload := [], format := 2 }, ⟨1, 0, 0, 0⟩)]) ∧
    (all1 (fun (s : State) => (16 ≤ s.d.mie.hbN) ∧ (s.d.offline = false))
      [wS fun d => d.updMie fun m => { m with hbN := 16 }]) ∧
    (all1 (fun (s : State) => (s.d.mie.tst = .sync) ∧ (s.d.isMaster = false) ∧ (8 ≤ s.d.mie.noTime))
      [wS fun d => d.updMie fun m => { m with tst := .sync, noTime := 8 }]) ∧
    (all2 (fun (s : State) (a : Nat) => (s.d.mie.setAge = some a) ∧ (s.d.fld mtPg 0x58 15 0 ≤ a))
      [((wS fun d => d.updMie fun m => { m with setAge := some 65535 }), 65535)]) ∧
    (all1 (fun (s : State) => ((s.d.mie.digRec ≠ s.d.rowRecord ∨ 64 ≤ s.d.mie.digAge)) ∧ (s.d.twinSends 5 = true))
      [wS fun d => wMall (d.updMie fun m => { m with digAge := 64 })]) ∧
    (all2 (fun (s : State) (cls : Nat) => (s.d.nextSource = some (s.d.rowId, cls)) ∧ (s.d.time.inEpoch = 32) ∧ (s.d.rowEn = true) ∧ (s.d.mie.idConf = false) ∧ (s.d.twinSends 1 = true))
      [((wS fun d => wMall ({ d with time := { d.time with inEpoch := 32 } } |>.setFld miePg 0x40 0 0 1 |>.updMie fun m => { m with members := [wMember] })), 1)]) ∧
    (all3 (fun (s : State) (v k : Nat) => (s.d.mie.incWait = some (v, k)) ∧ (k ≤ s.d.time.frond))
      [((wS fun d => d.updMie fun m => { m with incWait := some (0xFFFD, 0) }), 0xFFFD, 0)]) ∧
    (all4 (fun (s : State) (id a : Nat) (x : RowMember) => (s.d.member id = some x) ∧ (x.hbAge = some a) ∧ (48 ≤ a) ∧ (x.silent = false))
      [((wS fun d => d.updMie fun m => { m with members := [{ wMember with id := 1023, hbAge := some 48 }] }), 1023, 48, { wMember with id := 1023, hbAge := some 48 })]) ∧
    (all1 (fun (s : State) => (s.d.mie.extLive = true) ∧ (s.d.fld rowPg 0x44 23 16 ≤ s.d.mie.extAge))
      [wS fun d => d.updMie fun m => { m with extLive := true, extAge := 255 }]) ∧
    (all2 (fun (s : State) (t : FabTx) => (s.d.mie.fabTx = some t) ∧ (16 ≤ t.age))
      [((wS fun d => d.updMie fun m => { m with fabTx := some ⟨[], 9, 16⟩ }), ⟨[], 9, 16⟩),
       ((wS fun d => d.updMie fun m => { m with fabTx := some ⟨List.replicate 14 0, 1, 16⟩ }), ⟨List.replicate 14 0, 1, 16⟩),
       ((wS fun d => wMall (d.updMie fun m => { m with fabTx := some ⟨List.replicate 14 0, 1, 16⟩ })), ⟨List.replicate 14 0, 1, 16⟩)]) ∧
    (all1 (fun (s : State) => s.d.time.epochDue = true)
      [wS fun d => { d with time := { d.time with epochDue := true } }]) := by
  unfold all1 all2 all3 all4 all7; decide +kernel


/-- A step to a next state from a state that meets each invariant. -/
theorem wit_invariants :
    let s : State := { State.reset with pending := [.capArm] }
    (s.d.canon = true ∧ s.d.shape = true ∧ s.d.regsCanon = true) ∧ ∃ t, step s = .next t :=
  ⟨by decide +kernel, _, rfl⟩

/-- The hypotheses of the first clause of `Obligations.StepRunsFrontCommand`, and of its second. -/
theorem wit_StepRunsFrontCommand :
    ({ State.reset with pending := [.compareResume, .capArm] } : State).pending = .compareResume :: [.capArm] ∧
      State.reset.pending = [] := ⟨rfl, rfl⟩

/-- A block with a wrong PEC, and one that lacks the PEC it needs. -/
theorem wit_TargetPortEvents_block :
    State.reset.d.twDead = false ∧ (0#8).toNat ≠ State.reset.d.blockPec 1 false [1#8] ∧
      (match (none : Option Byte) with
        | some p => p.toNat ≠ State.reset.d.blockPec 1 true [1#8]
        | none => true = true ∨ State.reset.d.flag (twtPg 1) 0x40 2 = true) :=
  ⟨by decide +kernel, by decide +kernel, Or.inl rfl⟩

/-- A good block without PEC, and a good window block with a write of one word, the longest item and a read. -/
theorem wit_TargetPortEvents_good :
    State.reset.d.flag (twtPg 1) 0x40 2 = false ∧
      (∀ l ∈ [[0x01#8, 8] ++ List.replicate 8 0#8, [0x10#8, 44] ++ List.replicate 44 0xFF#8, [0x02#8, 5, 0xFF, 0xFF, 0xFF, 0xFF, 0xFF]],
        (BitVec.ofNat 8 (State.reset.d.blockPec 1 true l)).toNat = State.reset.d.blockPec 1 true l) := by
  decide +kernel

/-- A frame with its CRC is a frame with the CRC of its bytes. -/
theorem mieCrcOk_mieSeal (f : MFrame) : mieCrcOk (mieSeal f) = true := by
  simp [mieCrcOk, mieSeal, mieCrc, mieBytes]

/-- Another device's HEARTBEAT under this device's identity. -/
theorem wit_MienoReception_conflict :
    frameKnown wHb = true ∧ wHb.kind = 4 ∧ State.reset.d.offline = false ∧ mieCrcOk wHb = true ∧ wHb.hops ≠ 0 ∧
      wHb.src = State.reset.d.rowId ∧ leNat (wHb.payload.take 8) ≠ Config.devSerial.toNat := by
  refine ⟨by decide +kernel, rfl, by decide +kernel, mieCrcOk_mieSeal _, by decide, by decide +kernel, ?_⟩
  unfold wHb mieSeal
  by_cases h : Config.devSerial.toNat = 0
  · rw [h]; decide +kernel
  · simp only [h, if_false]
    intro hh
    exact h (hh.symm.trans (by decide +kernel))


/-! ### Well-formedness: for each check a term it refuses -/

theorem test_wf_nvErr : (NvErr.uncorrectable 16384).wf = false ∧ (NvErr.uncorrectable 16383).wf = true := by decide
theorem test_wf_tick_phase : { wTick with phaseX := List.replicate 71 0 }.wf = false := by decide
theorem test_wf_tick_pre : { wTick with preX := List.replicate 16 0 }.wf = false := by decide
theorem test_wf_tick_temp : { wTick with tempC := List.replicate 9 0 }.wf = false := by decide
theorem test_wf_tick_tflt : { wTick with tfltUv := List.replicate 63 0 }.wf = false := by decide
theorem test_wf_tick_nv :
    { wTick with nvErrA := some (.uncorrectable 16384) }.wf = false ∧ { wTick with nvErrB := some (.uncorrectable 20000) }.wf = false := by
  decide
theorem test_wf_tick : wTick.wf = true ∧ (Instr.tick wTick).wf = true := by decide
theorem test_wf_frond_a : { wFrond with tempA := List.replicate 9 0 }.wf = false := by decide
theorem test_wf_frond_b : { wFrond with tempB := List.replicate 11 0 }.wf = false := by decide
theorem test_wf_frond_setp :
    { wFrond with setp := List.replicate 3 (0, 0, 0) }.wf = false ∧ { wFrond with setp := List.replicate 4 (1, 0, 0) }.wf = false ∧
      { wFrond with setp := List.replicate 4 (1, 2, 1) }.wf = false := by decide
theorem test_wf_frond : (Instr.frondBoundary wFrond).wf = true := by decide
theorem test_wf_frame :
    { wMf 1 with kind := 16 }.wf = false ∧ { wMf 1 with format := 16 }.wf = false ∧ { wMf 1 with ring := 2 }.wf = false ∧
      { wMf 1 with src := 1024 }.wf = false ∧ { wMf 1 with dst := 1024 }.wf = false ∧ { wMf 1 with fseq := 65536 }.wf = false ∧
      { wMf 1 with hops := 2048 }.wf = false ∧ { wMf 1 with hops := 2047 }.wf = true ∧ (wMf 1).wf = true := by decide
theorem test_wf_frame_payload : (MFrame.wf { wMf 1 with payload := List.replicate 257 0 }) = false ∧ (MFrame.wf { wMf 1 with payload := List.replicate 256 0 }) = true := by
  decide +kernel
theorem test_wf_pageOff : pageOff 0x10000 0 = false ∧ pageOff 0 0x1000 = false ∧ pageOff 0xFFFF 0xFFF = true := by decide
theorem test_wf_frames :
    (List.map Instr.wf (let f := { wMf 1 with src := 1024 }
      [.budget .me f, .advert .me f, .timeFrame .me f 0, .mienoHeartbeat .me f, .digest .me f, .fabCommand .me f,
        .commandReply .me f, .sporeChunk .me f, .peatReq .me f, .peatData .me f, .unknownFrame .me f])).all (· == false) = true := by
  decide
theorem test_wf_pages :
    (List.map Instr.wf [.blkStatusClear .tw0 65536 0, .clearRefusedClear 65536, .blkIntForce 65536 0, .blkLock .tw0 65536 0,
      .lockTimeout .tw0 65536, .blkCommit 65536, .registerWrite .tw0 0 4096 0, .regWrite 0 0 4096 [], .regRead 0 65536 0 1,
      .openItem 65536 0, .openItem 0 65536, .outboundBlockTx 256 .nack]).all (· == false) = true := by decide
theorem test_wf_lengths :
    (List.map Instr.wf [.actuationFrame .a 0 (List.replicate 112 0), .actuationFrame .a 200 (List.replicate 113 0),
      .regWrite 0 0 0 (List.replicate 63 0), .regRead 0 0 0 256, .seqItem 0 256 0 0 [], .seqItem 0 0 65536 0 [],
      .seqItem 0 0 0 256 [], .seqItem 0 0 0 0 (List.replicate 256 0), .twBlock 0 true (List.replicate 256 0) none,
      .linkFrame .me 0 0 0 0 1024, .duplicateWindowReset 1024, .memberSilent 1024]).all (· == false) = true := by decide +kernel

/-! ### Small checks of the shared operations, against values the specification states -/

def after (c : Instr) (s : State) : Dev := match exec c s with | .next t => t.d | _ => s.d

/-- R565: the check value of the CRC-32. -/
theorem test_crc32 : crc32 [0x31#8, 0x32, 0x33, 0x34, 0x35, 0x36, 0x37, 0x38, 0x39] = 0xCBF43926 := by decide +kernel

/-- SHA-384 of the three bytes "abc", the example of FIPS 180-4: its first eight bytes. -/
theorem test_sha384 : (sha384 [0x61#8, 0x62, 0x63]).take 8 = [0xCB#8, 0x00, 0x75, 0x3F, 0x45, 0xA3, 0x5E, 0x8B] := by decide +kernel

/-- R429: WP has two values, and SPEED none above 0b10. -/
theorem test_clamp_two_wire : clampReg 0xB8 0x40 0x3F00 = 0 ∧ clampReg 0xB9 0x40 0x4100 = 0x8000 ∧ clampReg 0xBA 0x40 3 = 2 := by
  decide +kernel

/-- R166: the fields of a reply frame in their places: GRANT of 5 quarters to load 0xAB, SEQ 0x12, cap level 1, ramp 2, offset 3. -/
theorem test_reply_frame :
    let v := (replyFrame 0xAB 0x12 0 1 2 3 5).toNat
    v / 2 ^ 56 = 0x5C ∧ v / 2 ^ 48 % 256 = 0xAB ∧ v / 2 ^ 40 % 256 = 0x12 ∧ v / 2 ^ 37 % 8 = 0 ∧ v / 2 ^ 35 % 4 = 1 ∧
      v / 2 ^ 31 % 16 = 2 ∧ v / 2 ^ 23 % 256 = 3 ∧ v / 2 ^ 11 % 4096 = 5 ∧ v / 2 ^ 8 % 8 = 0 := by decide +kernel

/-- R39: the first TICK begins the time base with TSEQ 0, the second has TSEQ 1. -/
theorem test_first_ticks :
    let d := after (.tick wTick) State.reset
    d.time.started = true ∧ d.time.tseq = 0 ∧ (after (.tick wTick) (wS fun _ => d)).time.tseq = 1 := by decide +kernel

/-- R30: the lock opens on 0x5A in bits 7 to 0 and closes on any other value. -/
theorem test_lock :
    (after (.blkLock .tw1 0xA4 0x5A) State.reset).regs.locks = [⟨.tw1, 0xA4, 0⟩] ∧
      (after (.blkLock .tw1 0xA4 0x5B) (wS fun d => after (.blkLock .tw1 0xA4 0x5A) (wS fun _ => d))).regs.locks = [] := by
  decide +kernel

/-- R23, R568: a write of an RWS field leaves the value in force and shows in its read until the commit. -/
theorem test_write_shadow :
    let d := after (.registerWrite .tw1 0xA4 0x40 5) State.reset
    d.fld 0xA4 0x40 15 0 = State.reset.d.fld 0xA4 0x40 15 0 ∧ d.cfgRead 0xA4 0x40 % 65536 = 5 := by decide +kernel

/-- A page is committed at the next boundary before tick phase 254 and at the second from there on (R23). -/
theorem test_commit :
    ((after (.blkCommit 0xA4) State.reset).regs.commits.map Commit.wait) = [1] ∧
      ((after (.blkCommit 0xA4) (wS fun d => { d with time := { d.time with started := true, tseq := 254 } })).regs.commits.map
        Commit.wait) = [2] := by decide +kernel

/-- R32: a rail that trips records its bit with its cause and enters FAULT_WAIT. -/
theorem test_railUv :
    let d := after (.railUv 3) (wS fun d => d.updRail 3 fun x => { x with st := .regulate, uv := 100000000 })
    (d.rail 3).st = .faultWait ∧ bitAt (d.status 0x2B) 3 = true ∧ (d.rail 2).st = .off := by decide +kernel

/-- R468: a head outside banks 0x08 to 0x1F is an error; the status bit is 16 + the channel. -/
theorem test_chStart :
    let d := after (.chStart 14) (wS fun d => d.setReg dmaPg (chOff 14 + 4) 0x20000000)
    (d.ch 14).st = .error ∧ (d.ch 14).err = 6 ∧ bitAt (d.status dmaPg) 30 = true := by decide +kernel

/-- R178: a kind-0 request is invalid: it is counted and gets no grant. -/
theorem test_invalid_request :
    (after (.stepUp 15) (wAdm State.reset.d 15 0 |> fun d => wS fun _ => d)).led.invalid = 1 := by decide +kernel

/-- R253, R573: a feed that carried and is no longer selected goes off, and the dead time runs. -/
theorem test_transfer :
    let d := after .feedTransfer (wS fun d => (wFeeds d).updXfer fun x => { x with ran := true, judge := true })
    d.feedA.st ≠ .on ∧ d.xfer.dead ≠ none ∧ d.feedB.st = .ready := by decide +kernel

/-- R320: an OPEN without a free source slot is refused with NO_SOURCE and counted; one with a slot is taken. -/
theorem test_open :
    let d := after (.openItem 0x1005 65535) State.reset
    (d.jrn.sources.filterMap fun x => x.map fun y => (y.id, y.h)) = [(0x1005, 65535)] := by decide +kernel

/-- R408, R411: CAPABILITY answers 0xD0. -/
theorem test_pm_capability : ((after (.pmCapability 1) State.reset).twt 1).tx = some [0xD0#8] := by decide +kernel

/-- R436, R438: the second copy of a frame is a duplicate: it is counted and goes nowhere. -/
theorem test_duplicate_frame :
    let d := after (.budget .mw (mieSeal (wMf 1))) (wS fun d => after (.budget .me (mieSeal (wMf 1))) (wS fun _ => d))
    d.mie.dup = 1 ∧ d.mie.windows.length = 1 := by decide +kernel

/-- A command at the front of the queue runs and leaves the queue. -/
theorem test_step_queue :
    (match step { State.reset with pending := [.capArm, .compareResume] } with
      | .next t => t.pending == [.compareResume]
      | _ => false) = true := by decide +kernel

theorem test_step_idle : step State.reset = .next State.reset := rfl

end Sys2Proof.Tests
end

section
/-! PROOF. What a write of a register does by the register's access codes (R5, R23, R29, R30, R566, R568, R569). -/

namespace Sys2Proof.Machine

/-! ### The register file under a set value -/

@[simp] theorem RegFile.setVal_commits (r : RegFile) (a v : Nat) : (r.setVal a v).commits = r.commits := rfl
@[simp] theorem RegFile.setVal_locks (r : RegFile) (a v : Nat) : (r.setVal a v).locks = r.locks := rfl

/-- A value set at one address leaves what is listed for every other address. -/
theorem RegFile.alGet_setVal_force (r : RegFile) {a b : Nat} (v : Nat) (h : b ≠ a) :
    alGet (r.setVal a v).force b = alGet r.force b := by
  unfold RegFile.setVal
  split
  · exact alGet_alErase_other r.force h
  · exact alGet_alSet_other r.force v h

@[simp] theorem Dev.clamped_regs (d : Dev) (pg old new : Nat) : (d.clamped pg old new).regs = d.regs :=
  Dev.clamped_onlyIn d pg old new .regs (by decide)

/-! ### The ways of a write, by access code -/

theorem Dev.plainWrite_none (d : Dev) (pg off v : Nat) : d.plainWrite pg off v 0 = d := if_pos rfl

theorem Dev.plainWrite_deferred (d : Dev) {pg off mask : Nat} (v : Nat) (hm : mask ≠ 0) (h : deferredPage pg off = true) :
    d.plainWrite pg off v mask =
      d.deferWrite (regAddr pg off) (mergeBits ((alGet d.regs.deferred (regAddr pg off)).getD (d.reg pg off)) v mask) := by
  rw [Dev.plainWrite, if_neg hm, if_pos h]

theorem Dev.plainWrite_atOnce (d : Dev) {pg off mask : Nat} (v : Nat) (hm : mask ≠ 0) (h : deferredPage pg off = false) :
    d.plainWrite pg off v mask =
      (d.setReg pg off (clampReg pg off (mergeBits (d.reg pg off) v mask))).clamped pg (mergeBits (d.reg pg off) v mask)
        (clampReg pg off (mergeBits (d.reg pg off) v mask)) := by
  rw [Dev.plainWrite, if_neg hm, if_neg (by simp [h])]

/-- A write of RW fields leaves every other part of the register file alone. -/
theorem Dev.plainWrite_keeps (d : Dev) (pg off v mask : Nat) :
    (d.plainWrite pg off v mask).regs.shadow = d.regs.shadow ∧ (d.plainWrite pg off v mask).regs.commits = d.regs.commits ∧
      (d.plainWrite pg off v mask).regs.locks = d.regs.locks := by
  unfold Dev.plainWrite
  split
  · exact ⟨rfl, rfl, rfl⟩
  · split
    · exact ⟨rfl, rfl, rfl⟩
    · simp

theorem Dev.plainWrite_other (d : Dev) {pg off a : Nat} (v mask : Nat) (h : a ≠ regAddr pg off) :
    alGet (d.plainWrite pg off v mask).regs.force a = alGet d.regs.force a ∧
      alGet (d.plainWrite pg off v mask).regs.deferred a = alGet d.regs.deferred a := by
  unfold Dev.plainWrite
  split
  · exact ⟨rfl, rfl⟩
  · split
    · exact ⟨rfl, alGet_alSet_other _ _ h⟩
    · simp [RegFile.alGet_setVal_force _ _ h]

theorem Dev.shadowWrite_none (d : Dev) (pg off v : Nat) : d.shadowWrite pg off v 0 = d := if_pos rfl

theorem Dev.shadowWrite_same (d : Dev) {mask : Nat} (pg off v : Nat) (hm : mask ≠ 0) :
    alGet (d.shadowWrite pg off v mask).regs.shadow (regAddr pg off) =
      some (mergeBits ((alGet d.regs.shadow (regAddr pg off)).getD (d.reg pg off)) v mask) := by
  rw [Dev.shadowWrite, if_neg hm]; exact alGet_alSet_same _ _ _

theorem Dev.shadowWrite_other (d : Dev) {pg off a : Nat} (v mask : Nat) (h : a ≠ regAddr pg off) :
    alGet (d.shadowWrite pg off v mask).regs.shadow a = alGet d.regs.shadow a := by
  unfold Dev.shadowWrite
  split
  · rfl
  · exact alGet_alSet_other _ _ h

@[simp] theorem Dev.shadowWrite_force (d : Dev) (pg off v mask : Nat) :
    (d.shadowWrite pg off v mask).regs.force = d.regs.force := by
  unfold Dev.shadowWrite; split <;> rfl

@[simp] theorem Dev.shadowWrite_deferred (d : Dev) (pg off v mask : Nat) :
    (d.shadowWrite pg off v mask).regs.deferred = d.regs.deferred := by
  unfold Dev.shadowWrite; split <;> rfl

@[simp] theorem Dev.shadowWrite_commits (d : Dev) (pg off v mask : Nat) :
    (d.shadowWrite pg off v mask).regs.commits = d.regs.commits := by
  unfold Dev.shadowWrite; split <;> rfl

@[simp] theorem Dev.shadowWrite_locks (d : Dev) (pg off v mask : Nat) :
    (d.shadowWrite pg off v mask).regs.locks = d.regs.locks := by
  unfold Dev.shadowWrite; split <;> rfl

@[simp] theorem Dev.shadowWrite_stat (d : Dev) (pg off v mask : Nat) : (d.shadowWrite pg off v mask).stat = d.stat := by
  unfold Dev.shadowWrite; split <;> rfl

theorem Dev.clamped_self (d : Dev) (pg v : Nat) : d.clamped pg v v = d := if_pos rfl

theorem Dev.reg_eq_of_force {d e : Dev} (h : e.regs.force = d.regs.force) (pg off : Nat) : e.reg pg off = d.reg pg off := by
  simp only [Dev.reg, RegFile.val_eq, h]

/-! ### A write of a register without an effect of its own -/

/-- The write of a register's fields, each by its access code. -/
def Dev.fieldWrite (d : Dev) (pg off v : Nat) (r : RegRow) : Dev := (d.plainWrite pg off v r.rw).shadowWrite pg off v r.rws

theorem Dev.fieldWrite_onlyIn (d : Dev) (pg off v : Nat) (r : RegRow) : Dev.onlyIn [.stat, .regs] d (d.fieldWrite pg off v r) :=
  Dev.onlyIn_via (Dev.shadowWrite_onlyIn _ _ _ _ _) (by decide)
    (Dev.onlyIn_mono (Dev.plainWrite_onlyIn _ _ _ _ _) (by decide))

theorem Dev.fieldWrite_commits (d : Dev) (pg off v : Nat) (r : RegRow) :
    (d.fieldWrite pg off v r).regs.commits = d.regs.commits :=
  (Dev.shadowWrite_commits _ _ _ _ _).trans (d.plainWrite_keeps pg off v r.rw).2.1

theorem Dev.fieldWrite_locks (d : Dev) (pg off v : Nat) (r : RegRow) : (d.fieldWrite pg off v r).regs.locks = d.regs.locks :=
  (Dev.shadowWrite_locks _ _ _ _ _).trans (d.plainWrite_keeps pg off v r.rw).2.2

/-- Every other register keeps its value in force, its shadow copy and its deferred write. -/
theorem Dev.fieldWrite_other (d : Dev) {pg off a : Nat} (v : Nat) (r : RegRow) (h : a ≠ regAddr pg off) :
    alGet (d.fieldWrite pg off v r).regs.force a = alGet d.regs.force a ∧
      alGet (d.fieldWrite pg off v r).regs.shadow a = alGet d.regs.shadow a ∧
      alGet (d.fieldWrite pg off v r).regs.deferred a = alGet d.regs.deferred a := by
  obtain ⟨hforce, hdeferred⟩ := d.plainWrite_other v r.rw h
  obtain ⟨hshadow, -, -⟩ := d.plainWrite_keeps pg off v r.rw
  refine ⟨?_, ?_, ?_⟩
  · rw [Dev.fieldWrite, Dev.shadowWrite_force, hforce]
  · rw [Dev.fieldWrite, Dev.shadowWrite_other _ _ _ h, hshadow]
  · rw [Dev.fieldWrite, Dev.shadowWrite_deferred, hdeferred]

/-- The RWS fields of a write go to the shadow copy (R23, R568). -/
theorem Dev.fieldWrite_shadow (d : Dev) (pg off v : Nat) (r : RegRow) :
    if r.rws = 0 then (d.fieldWrite pg off v r).regs.shadow = d.regs.shadow
    else alGet (d.fieldWrite pg off v r).regs.shadow (regAddr pg off) =
      some (mergeBits ((alGet d.regs.shadow (regAddr pg off)).getD ((d.fieldWrite pg off v r).reg pg off)) v r.rws) := by
  obtain ⟨hshadow, -, -⟩ := d.plainWrite_keeps pg off v r.rw
  split
  case isTrue h => rw [Dev.fieldWrite, h, Dev.shadowWrite_none, hshadow]
  case isFalse h =>
    rw [Dev.fieldWrite, Dev.shadowWrite_same _ _ _ _ h, hshadow, Dev.reg_eq_of_force (Dev.shadowWrite_force _ _ _ _ _)]

/-- The RW fields of a write act at once within their ranges, or wait for the frond boundary (R29, R566). -/
theorem Dev.fieldWrite_plain (d : Dev) {pg off : Nat} (v : Nat) (r : RegRow) (hoff : off < 0x1000) :
    if r.rw = 0 then
      (d.fieldWrite pg off v r).regs.force = d.regs.force ∧ (d.fieldWrite pg off v r).regs.deferred = d.regs.deferred
    else if deferredPage pg off then
      (d.fieldWrite pg off v r).regs.force = d.regs.force ∧
        alGet (d.fieldWrite pg off v r).regs.deferred (regAddr pg off) =
          some (mergeBits ((alGet d.regs.deferred (regAddr pg off)).getD (d.reg pg off)) v r.rw)
    else (d.fieldWrite pg off v r).regs.deferred = d.regs.deferred ∧
      (d.fieldWrite pg off v r).reg pg off = clampReg pg off (mergeBits (d.reg pg off) v r.rw) := by
  have hreg := Dev.reg_eq_of_force (Dev.shadowWrite_force (d.plainWrite pg off v r.rw) pg off v r.rws) pg off
  unfold Dev.fieldWrite
  rw [hreg, Dev.shadowWrite_force, Dev.shadowWrite_deferred]
  split
  case isTrue h => rw [h, Dev.plainWrite_none]; exact ⟨rfl, rfl⟩
  case isFalse h =>
    split
    case isTrue hd => rw [Dev.plainWrite_deferred d v h hd]; exact ⟨rfl, alGet_alSet_same _ _ _⟩
    case isFalse hd =>
      rw [Dev.plainWrite_atOnce d v h (by simpa using hd)]
      exact ⟨by simp, (Dev.reg_eq_of_force (by rw [Dev.clamped_regs]) pg off).trans (Dev.setReg_same d _ hoff)⟩

/-- Without a clamp a write that acts at once sets no status bit. -/
theorem Dev.fieldWrite_stat (d : Dev) {pg off : Nat} (v : Nat) (r : RegRow) (hd : deferredPage pg off = false)
    (hc : clampReg pg off (mergeBits (d.reg pg off) v r.rw) = mergeBits (d.reg pg off) v r.rw) :
    (d.fieldWrite pg off v r).stat = d.stat := by
  rw [Dev.fieldWrite, Dev.shadowWrite_stat]
  by_cases h : r.rw = 0
  · rw [h, Dev.plainWrite_none]
  · rw [Dev.plainWrite_atOnce d v h hd, hc, Dev.clamped_self, Dev.setReg_stat]

/-- A block register without an effect of its own takes the write of its fields. -/
theorem Dev.blockWrite_of_not_special (d : Dev) (p : Path) {pg off : Nat} (v : Nat) (r : RegRow)
    (h : specialReg pg off = false) : d.blockWrite p pg off v r = d.fieldWrite pg off v r := by
  have pair : ∀ {a b : Nat}, specialReg a b = true → ¬ (pg = a ∧ off = b) := by
    rintro a b hs ⟨rfl, rfl⟩; exact absurd h (by simp [hs])
  have hread : ¬ (pg = 0xC8 ∧ 0x2E0 ≤ off ∧ off < 0x300) := by
    rintro ⟨rfl, ho⟩; simp [specialReg, ho] at h
  have hdesc : ∀ c : Prop, ¬ (pg = 0xC8 ∧ 0x100 ≤ off ∧ off % 0x20 = 4 ∧ c) := by
    rintro c ⟨rfl, h1, h2, -⟩; simp [specialReg, h1, h2] at h
  unfold Dev.blockWrite
  iterate 12 rw [if_neg (pair (by decide))]
  rw [if_neg hread, if_neg (hdesc _), if_neg (pair (by decide))]
  rfl

/-- What follows the fields of a write: the bit of a refused crust change (R569), and the lock of the path closes (R30). -/
def Dev.endWrite (d : Dev) (refused : Bool) (p : Path) (pg : Nat) : Dev :=
  (if refused then d.occurC 0xB2 1 2 else d).closeLock p pg

theorem Dev.endWrite_onlyIn (d : Dev) (refused : Bool) (p : Path) (pg : Nat) :
    Dev.onlyIn [.stat, .regs] d (d.endWrite refused p pg) :=
  Dev.onlyIn_via (Dev.closeLock_onlyIn _ _ _) (by decide)
    (Dev.onlyIn_ite (Dev.onlyIn_mono (Dev.occurC_onlyIn _ _ _ _) (by decide)) (Dev.onlyIn_refl _ _))

theorem Dev.endWrite_regs (d : Dev) (refused : Bool) (p : Path) (pg : Nat) :
    (d.endWrite refused p pg).regs =
      { d.regs with locks := d.regs.locks.filter fun l => !(l.path == p && l.page == pg) } := by
  cases refused <;> rfl

theorem Dev.endWrite_reg (d : Dev) (refused : Bool) (p : Path) (pg pg' off : Nat) :
    (d.endWrite refused p pg).reg pg' off = d.reg pg' off :=
  Dev.reg_eq_of_force (by rw [Dev.endWrite_regs]) pg' off

/-- A write of such a register: its fields, the bit of a refused crust change (R569), and the lock of its path (R30). -/
theorem State.applyWrite_of_not_special (s : State) (p : Path) {pg off : Nat} (v : Nat) {r : RegRow} (hp : pageRow pg ≠ none)
    (hr : regRow pg off = some r) (h : specialReg pg off = false) :
    (s.applyWrite p pg off v).1 =
      s.upd fun d => (d.fieldWrite pg off v r).endWrite (s.rwcDiff r pg off v != 0) p pg := by
  have hoff : ¬ off < 0x40 := by
    simp only [specialReg, Bool.or_eq_false_iff, decide_eq_false_iff_not] at h; exact h.1.1.1
  have hhold : ¬ (pg = 0 ∧ (off = 0x58 ∨ off = 0x5C)) := by
    rintro ⟨rfl, rfl | rfl⟩ <;> exact absurd h (by decide)
  have hchunk : isChunkReg pg off = false := by
    simp only [specialReg, Bool.or_eq_false_iff] at h; exact h.1.1.2
  have hpage : (pageRow pg).isNone = false := by
    rw [Option.isNone_eq_false_iff]; exact Option.isSome_iff_ne_none.mpr hp
  simp only [State.applyWrite, Dev.endWrite, hpage, hr, hhold, hchunk, hoff, Dev.blockWrite_of_not_special _ p v r h, Bool.false_eq_true,
    Bool.false_and, if_false, if_neg (show ¬ off = 0x18 by omega)]

theorem State.onlyIn_upd {l : List Part} (s : State) {f : Dev → Dev} (h : Dev.onlyIn l s.d (f s.d)) :
    State.onlyIn l s (s.upd f) :=
  ⟨rfl, rfl, rfl, rfl, h⟩

theorem exec_registerWrite (p : Path) (pg off : Nat) (v : Word32) (s : State) :
    exec (.registerWrite p pg off v) s = .next (s.applyWrite p pg off v.toNat).1 := rfl

/-- A write to an unimplemented page changes nothing. -/
theorem State.applyWrite_unimplemented (s : State) (p : Path) {pg : Nat} (off v : Nat) (h : pageRow pg = none) :
    (s.applyWrite p pg off v).1 = s := by
  simp [State.applyWrite, h]

/-- A write to a reserved offset closes the lock of its path on the page (R30). -/
theorem State.applyWrite_reserved (s : State) (p : Path) {pg off : Nat} (v : Nat) (hp : pageRow pg ≠ none)
    (hr : regRow pg off = none) : (s.applyWrite p pg off v).1 = s.upd fun d => d.closeLock p pg := by
  simp [State.applyWrite, hp, hr]

/-- Settles O28: each access code's way of a write, assembled for a register without an effect of its own. -/
theorem registerWrites : Obligations.RegisterWrites := by
  refine ⟨fun s p pg off v hp => ?_, fun s p pg off v hp hr => ?_, fun s p pg off v r hp hr hs hoff => ?_⟩
  · rw [exec_registerWrite, State.applyWrite_unimplemented s p off v.toNat hp]
  · refine ⟨_, rfl, ?_, ?_⟩ <;> rw [State.applyWrite_reserved s p v.toNat hp hr]
    · exact State.onlyIn_upd s (Dev.closeLock_onlyIn _ _ _)
    · rfl
  · rw [Completes, exec_registerWrite, State.applyWrite_of_not_special s p v.toNat hp hr hs]
    refine ⟨_, rfl, ?_, ?_⟩
    · exact State.onlyIn_upd s (Dev.onlyIn_trans (Dev.fieldWrite_onlyIn _ _ _ _ _) (Dev.endWrite_onlyIn _ _ _ _))
    · simp only [State.upd_d, Dev.endWrite_regs, Dev.endWrite_reg]
      refine ⟨by rw [Dev.fieldWrite_locks], Dev.fieldWrite_commits _ _ _ _ _, fun a ha => Dev.fieldWrite_other _ _ _ ha,
        Dev.fieldWrite_shadow _ _ _ _ _, Dev.fieldWrite_plain _ _ _ hoff, fun hrwc hd hc => ?_⟩
      rw [State.rwcDiff, hrwc, Nat.and_zero]
      exact Dev.fieldWrite_stat s.d v.toNat r hd hc

end Sys2Proof.Machine
end

section
/-! PROOF. The register values in force keep their canonical form (R5, R23): whatever writes a register does so through
`RegFile.setVal`, and every other operation leaves the register file as it is. -/

namespace Sys2Proof.Machine

/-- What changes only parts other than the register file leaves the register file as it is. -/
theorem Dev.onlyIn.regs_eq {l : List Part} {d e : Dev} (h : Dev.onlyIn l d e) (hl : l.contains .regs = false) :
    e.regs = d.regs := h .regs (by simpa using hl)

/-- Every part of the block but the register file. -/
def Part.butRegs : List Part :=
  [.time, .sched, .die, .stat, .ident, .sup, .rails, .units, .clusters, .runs, .inj, .cap, .sram, .sramA, .sramB, .sramS, .live,
   .sense, .adm, .twin, .jrn, .nv, .peat, .crust, .feedA, .feedB, .xfer, .hs, .fh, .bbus, .therm, .twT, .twC, .upd, .mie, .dma]

theorem Dev.onlyIn_butRegs {d e : Dev} : Dev.onlyIn Part.butRegs d e ↔ e.regs = d.regs := by
  refine ⟨fun h => h.regs_eq rfl, fun h p hp => ?_⟩
  have hp : p = .regs := by revert hp; cases p <;> decide
  subst hp; exact h

/-! ### Operations that take an operation -/

theorem Dev.ite_regs {c : Prop} [Decidable c] {d e : Dev} {r : RegFile} (hd : d.regs = r) (he : e.regs = r) :
    (if c then d else e).regs = r := by
  split
  · exact hd
  · exact he

theorem Dev.foldl_regs {α : Type} {g : Dev → α → Dev} (h : ∀ d a, (g d a).regs = d.regs) (xs : List α) (d : Dev) :
    (xs.foldl g d).regs = d.regs :=
  Dev.onlyIn_butRegs.mp (Dev.onlyIn_foldl (fun _ _ => Dev.onlyIn_butRegs.mpr (h _ _)) (Dev.onlyIn_refl _ _))

theorem foldN_regs {g : Dev → Nat → Dev} (h : ∀ d n, (g d n).regs = d.regs) (n : Nat) (d : Dev) :
    (foldN n g d).regs = d.regs :=
  Dev.onlyIn_butRegs.mp (foldN_onlyIn n g d fun _ _ => Dev.onlyIn_butRegs.mpr (h _ _))

theorem Dev.when_regs {g : Dev → Dev} (h : ∀ d, (g d).regs = d.regs) (c : Bool) (d : Dev) : (d.when c g).regs = d.regs :=
  Dev.onlyIn_butRegs.mp (Dev.when_onlyIn c g d fun _ => Dev.onlyIn_butRegs.mpr (h _))

theorem Dev.execHead_regs {g : Dev → WorkItem → Dev} (h : ∀ d w, (g d w).regs = d.regs) (d : Dev) (code : Nat) :
    (d.execHead code g).regs = d.regs :=
  Dev.onlyIn_butRegs.mp (Dev.execHead_onlyIn d code g fun _ _ => Dev.onlyIn_butRegs.mpr (h _ _))

theorem Dev.toTwins_regs {g : Dev → Dev} (h : ∀ d, (g d).regs = d.regs) (d : Dev) (p : MPort) (f : MFrame) :
    (d.toTwins p f g).regs = d.regs :=
  Dev.onlyIn_butRegs.mp (Dev.toTwins_onlyIn d p f g (by decide) fun _ => Dev.onlyIn_butRegs.mpr (h _))

/-! ### The canonical form of the register values in force -/

/-- The values in force are listed by rising address, and none is a reset value. -/
def RegFile.Canon (r : RegFile) : Prop := forceWf r.force 0 = true

theorem Dev.regsCanon_iff {d : Dev} : d.regsCanon = true ↔ d.regs.Canon := Iff.rfl

theorem RegFile.Canon.of_force {r q : RegFile} (h : r.Canon) (e : q.force = r.force) : q.Canon := by
  rw [RegFile.Canon, e]; exact h

theorem RegFile.Canon.setVal {r : RegFile} (h : r.Canon) (a v : Nat) : (r.setVal a v).Canon := RegFile.setVal_wf a v h

theorem RegFile.reset_canon : RegFile.reset.Canon := rfl

theorem Dev.foldl_canon {α : Type} {g : Dev → α → Dev} (hg : ∀ d a, d.regs.Canon → (g d a).regs.Canon) (xs : List α)
    {d : Dev} (h : d.regs.Canon) : (xs.foldl g d).regs.Canon := by
  induction xs generalizing d with
  | nil => exact h
  | cons a xs ih => exact ih (hg d a h)

theorem foldN_canon {g : Dev → Nat → Dev} (hg : ∀ d n, d.regs.Canon → (g d n).regs.Canon) (n : Nat) {d : Dev}
    (h : d.regs.Canon) : (foldN n g d).regs.Canon := Dev.foldl_canon hg _ h

theorem Dev.ite_canon {c : Prop} [Decidable c] {d e : Dev} (hd : d.regs.Canon) (he : e.regs.Canon) :
    (if c then d else e).regs.Canon := by
  split
  · exact hd
  · exact he

/-- What changes only parts other than the register file keeps the canonical form. -/
theorem Dev.onlyIn.canon {l : List Part} {d e : Dev} (k : Dev.onlyIn l d e) (hl : l.contains .regs = false) (h : d.regs.Canon) :
    e.regs.Canon := by rw [k.regs_eq hl]; exact h

theorem Dev.setReg_canon {d : Dev} (h : d.regs.Canon) (pg off v : Nat) : (d.setReg pg off v).regs.Canon := h.setVal _ _

theorem Dev.setFld_canon {d : Dev} (h : d.regs.Canon) (pg off hi lo v : Nat) : (d.setFld pg off hi lo v).regs.Canon :=
  h.setVal _ _

/-! ### Operations on shadow copies, deferred writes, commits and locks -/

theorem Dev.deferWrite_canon {d : Dev} (h : d.regs.Canon) (a v : Nat) : (d.deferWrite a v).regs.Canon := h.of_force rfl

theorem Dev.closeLock_canon {d : Dev} (h : d.regs.Canon) (p : Path) (pg : Nat) : (d.closeLock p pg).regs.Canon := h.of_force rfl

theorem Dev.lockWrite_canon {d : Dev} (h : d.regs.Canon) (p : Path) (pg v : Nat) : (d.lockWrite p pg v).regs.Canon := by
  unfold Dev.lockWrite
  dsimp only
  split <;> exact h.of_force rfl

theorem Dev.commitPage_canon {d : Dev} (h : d.regs.Canon) (pg : Nat) : (d.commitPage pg).regs.Canon := by
  unfold Dev.commitPage
  extract_lets w
  split
  · exact h
  · exact h.of_force rfl

theorem Dev.commitSample_canon {d : Dev} (h : d.regs.Canon) : d.commitSample.regs.Canon := h.of_force rfl

/-- A proposed value of a rail's set point goes to the shadow copy, and its page is committed (R411). -/
theorem Dev.shadowCommit_canon {d : Dev} (h : d.regs.Canon) (l : List (Nat × Nat)) (pg : Nat) :
    (({ d with regs := { d.regs with shadow := l } } : Dev).commitPage pg).regs.Canon :=
  Dev.commitPage_canon (d := { d with regs := { d.regs with shadow := l } }) (h.of_force rfl) pg

/-! ### Writes of registers -/

theorem Dev.plainWrite_canon {d : Dev} (h : d.regs.Canon) (pg off v mask : Nat) : (d.plainWrite pg off v mask).regs.Canon := by
  unfold Dev.plainWrite
  split
  · exact h
  · split
    · exact Dev.deferWrite_canon h _ _
    · rw [Dev.clamped_regs]; exact Dev.setReg_canon h _ _ _

theorem Dev.shadowWrite_canon {d : Dev} (h : d.regs.Canon) (pg off v mask : Nat) : (d.shadowWrite pg off v mask).regs.Canon :=
  h.of_force (d.shadowWrite_force pg off v mask)

theorem Dev.capRdWrite_canon {d : Dev} (h : d.regs.Canon) (v : Nat) : (d.capRdWrite v).regs.Canon := Dev.setReg_canon h _ _ _

theorem Dev.peatRdWrite_canon {d : Dev} (h : d.regs.Canon) (v : Nat) : (d.peatRdWrite v).regs.Canon := Dev.setReg_canon h _ _ _

theorem Dev.commonWrite_canon {d : Dev} (h : d.regs.Canon) (p : Path) (pg off v : Nat) (r : RegRow) :
    (d.commonWrite p pg off v r).regs.Canon := by
  unfold Dev.commonWrite
  repeat' with_reducible apply Dev.ite_canon
  · exact (Dev.statusWrite_onlyIn _ _ _).canon rfl h
  · exact (Dev.occurMask_onlyIn _ _ _).canon rfl h
  · exact (Dev.clearRefusedOff_onlyIn _ _).canon rfl h
  · exact h
  · exact Dev.lockWrite_canon h _ _ _
  · exact Dev.commitPage_canon h _
  · exact h
  · exact Dev.shadowWrite_canon (Dev.plainWrite_canon h _ _ _ _) _ _ _ _

theorem Dev.blockWrite_canon {d : Dev} (h : d.regs.Canon) (p : Path) (pg off v : Nat) (r : RegRow) :
    (d.blockWrite p pg off v r).regs.Canon := by
  have hplain := Dev.plainWrite_canon h pg off v r.rw
  unfold Dev.blockWrite
  repeat' with_reducible apply Dev.ite_canon
  · exact (Dev.calNow_onlyIn _ _).canon rfl h
  · exact (Dev.capForce_onlyIn _).canon rfl (Dev.ite_canon ((Dev.capArm_onlyIn _).canon rfl h) h)
  · exact (Dev.capArm_onlyIn _).canon rfl h
  · exact h
  · exact Dev.capRdWrite_canon hplain _
  · exact (Dev.moveCompRd_onlyIn _ _).canon rfl h
  · exact (Dev.fhClear_onlyIn _ _).canon rfl h
  · exact (Dev.stageClear_onlyIn _ _ _).canon rfl h
  · exact (Dev.stageClear_onlyIn _ _ _).canon rfl h
  · exact (Dev.peatTrig_onlyIn _ _).canon rfl h
  · exact Dev.peatRdWrite_canon hplain _
  · exact (Dev.fabGoWrite_onlyIn _).canon rfl h
  · exact Dev.deferWrite_canon h _ _
  · exact (Dev.timeGo_onlyIn _).canon rfl h
  · exact h
  · exact h
  · exact (Dev.chunkCtl_onlyIn _ _ _).canon rfl h
  · exact Dev.shadowWrite_canon hplain _ _ _ _

theorem State.snapWrite_regs (s : State) (n v : Nat) : (s.snapWrite n v).d.regs = s.d.regs := by
  unfold State.snapWrite
  dsimp only
  split_ifs <;> rfl

theorem State.snapFrom_regs (s : State) (p : Path) (n v : Nat) : (s.snapFrom p n v).d.regs = s.d.regs := by
  unfold State.snapFrom
  split
  · exact s.snapWrite_regs n v
  · rfl

/-- Every write on an access path keeps the canonical form (R29). -/
theorem State.applyWrite_canon {s : State} (h : s.d.regs.Canon) (p : Path) (pg off v : Nat) :
    (s.applyWrite p pg off v).1.d.regs.Canon := by
  unfold State.applyWrite
  split
  · exact h
  · split
    · exact Dev.closeLock_canon h _ _
    · rename_i r _
      split
      · refine Dev.closeLock_canon ?_ _ _
        rw [State.snapFrom_regs]; exact h
      · split
        · exact Dev.closeLock_canon h _ _
        · have hw := Dev.ite_canon (c := off < 0x40) (Dev.commonWrite_canon h p pg off v r) (Dev.blockWrite_canon h p pg off v r)
          have ho := Dev.ite_canon (c := s.rwcDiff r pg off v != 0) ((Dev.occurC_onlyIn _ 0xB2 1 2).canon rfl hw) hw
          exact Dev.ite_canon ho (Dev.closeLock_canon ho _ _)

/-! ### The DMA engine -/

theorem Dev.enOff_canon {d : Dev} (h : d.regs.Canon) (c : Nat) : (d.enOff c).regs.Canon := Dev.setFld_canon h _ _ _ _ _

theorem Dev.endDesc_canon {d : Dev} (h : d.regs.Canon) (c code : Nat) : (d.endDesc c code).regs.Canon := by
  unfold Dev.endDesc
  extract_lets x e
  have he : e.regs.Canon := (Dev.writeBack_onlyIn _ _ _ _).canon rfl h
  clear_value e
  repeat' with_reducible apply Dev.ite_canon
  · exact Dev.enOff_canon he _
  · exact he
  · exact he
  · exact (Dev.chError_onlyIn _ _ _).canon rfl he

theorem Dev.chFetch_canon {d : Dev} (h : d.regs.Canon) (c : Nat) : (d.chFetch c).regs.Canon := by
  unfold Dev.chFetch
  extract_lets a w code e
  have he : e.regs.Canon := h
  clear_value e
  repeat' with_reducible apply Dev.ite_canon
  · exact h
  · exact he
  · exact Dev.endDesc_canon he _ _

theorem Dev.chBurst_canon {d : Dev} (h : d.regs.Canon) (c : Nat) (e : SlotEntry) : (d.chBurst c e).regs.Canon := by
  unfold Dev.chBurst
  extract_lets paced ends x y z
  have hx : x.regs.Canon := (Dev.moveBytes_onlyIn _ _ _).canon rfl h
  have hz : z.regs.Canon := hx
  clear_value z y x
  repeat' with_reducible apply Dev.ite_canon
  · exact h
  · exact hx
  · refine Dev.endDesc_canon ?_ _ _
    rw [(Dev.reqFalls_onlyIn _ _ _).regs_eq rfl]
    exact hz
  · exact Dev.endDesc_canon hx _ _

theorem Dev.chFire_canon {d : Dev} (h : d.regs.Canon) (c : Nat) (e : SlotEntry) : (d.chFire c e).regs.Canon := by
  unfold Dev.chFire
  extract_lets x y hit z
  have hy : y.regs.Canon := h
  have hhit : (hit y).regs.Canon := h
  have hflush : ((hit y).chFlush c).regs.Canon := (Dev.chFlush_onlyIn _ _).canon rfl hhit
  have hz : z.regs.Canon := Dev.chFetch_canon hhit c
  clear_value z hit y
  repeat' with_reducible apply Dev.ite_canon
  · exact h
  · exact hy
  · exact Dev.endDesc_canon hhit _ _
  · exact hflush
  · exact hhit
  · exact hflush
  · exact Dev.chBurst_canon hhit _ _
  · exact Dev.chBurst_canon hz _ _
  · exact hz

theorem Dev.dmaFrond_canon {d : Dev} (h : d.regs.Canon) : d.dmaFrond.regs.Canon := by
  refine foldN_canon (fun d c h => ?_) _ h
  extract_lets x e
  have he : e.regs.Canon := h
  clear_value e
  repeat' with_reducible apply Dev.ite_canon
  · exact Dev.endDesc_canon he _ _
  · exact (Dev.chError_onlyIn _ _ _).canon rfl he
  · exact he

/-! ### Commits and deferred writes at the frond boundary -/

theorem Dev.applyChanges_canon {d : Dev} (h : d.regs.Canon) (ch : Changes) : (d.applyChanges ch).regs.Canon := by
  suffices hl : ∀ (l : Changes) (g : RegFile), g.Canon → (l.foldl (fun g c => g.setVal c.1 c.2) g).Canon from hl ch d.regs h
  intro l
  induction l with
  | nil => exact fun g hg => hg
  | cons c l ih => exact fun g hg => ih _ (hg.setVal _ _)

/-- Of the effects of a commit only the changed values themselves are in the register file. -/
theorem Dev.commitEffects_canon (old : Dev) (ch : Changes) (pages : List Nat) {d : Dev} (h : d.regs.Canon) :
    (Dev.commitEffects old ch pages d).regs.Canon := by
  have ha := Dev.applyChanges_canon h ch
  unfold Dev.commitEffects
  generalize d.applyChanges ch = d at ha
  simp only [apply_ite Dev.regs, (Dev.injCommit_onlyIn _).regs_eq rfl, (Dev.metChanged_onlyIn _ _).regs_eq rfl,
    (Dev.auxRestart_onlyIn _).regs_eq rfl, (Dev.newRef_onlyIn _ _ _).regs_eq rfl, (Dev.applyTable_onlyIn _).regs_eq rfl,
    (Dev.applyGrants_onlyIn _ _).regs_eq rfl, (Dev.applyBlkEn_onlyIn _ _).regs_eq rfl,
    (Dev.applyMembers_onlyIn _ _).regs_eq rfl, ite_self]
  exact ha

theorem Dev.commitFrond_canon {d : Dev} (h : d.regs.Canon) : d.commitFrond.regs.Canon := by
  unfold Dev.commitFrond
  extract_lets swap due sampled
  have hc : (d.checkAll sampled).1.regs.Canon := (Dev.checkAll_onlyIn _ _).canon rfl h
  split
  rename_i d1 ch heq
  rw [heq] at hc
  have he := Dev.commitEffects_canon d ch (due.map Commit.page) hc
  extract_lets e f gone
  have hf : f.regs = e.regs := by
    dsimp only [f]
    split
    · rfl
    · exact Dev.foldl_regs (fun d c => (Dev.commitCoeffs_onlyIn _ _ _).regs_eq rfl) _ _
  have hforce : f.regs.force = e.regs.force := congrArg RegFile.force hf
  exact he.of_force hforce

theorem Dev.applySettings_canon {d : Dev} (h : d.regs.Canon) : d.applySettings.regs.Canon :=
  Dev.commitEffects_canon d _ [] ((Dev.checkAll_onlyIn _ _).canon rfl h)

theorem Dev.switchOver_canon {d : Dev} (h : d.regs.Canon) : d.switchOver.regs.Canon := Dev.applySettings_canon (d := d.updUpd _) h

theorem Dev.switchNew_canon {d : Dev} (h : d.regs.Canon) : d.switchNew.regs.Canon :=
  (Dev.setUpd_onlyIn _ _).canon rfl ((Dev.updUpd_onlyIn _ _).canon rfl (Dev.switchOver_canon h))

theorem Dev.switchOld_canon {d : Dev} (h : d.regs.Canon) : d.switchOld.regs.Canon :=
  (Dev.setUpd_onlyIn _ _).canon rfl ((Dev.updUpd_onlyIn _ _).canon rfl (Dev.switchOver_canon h))

theorem Dev.deferredFrond_canon {d : Dev} (h : d.regs.Canon) : d.deferredFrond.regs.Canon := by
  have hr : d.rowExtFrond.regs.Canon := (Dev.rowExtFrond_onlyIn d).canon rfl h
  refine Dev.foldl_canon (fun d e hd => ?_) _ (hr.of_force rfl)
  rw [Dev.clamped_regs]
  exact Dev.setReg_canon hd _ _ _

theorem Dev.boundaryCommit_canon {d : Dev} (h : d.regs.Canon) (i : FrondIn) : (d.boundaryCommit i).regs.Canon := by
  have hr : (({ d.clusterFrond with inj := d.inj.frond } : Dev).rolesFrond i.sHbA i.sHbB).regs.Canon := by
    rw [(Dev.rolesFrond_onlyIn _ _ _).regs_eq rfl]
    dsimp only
    exact (Dev.clusterFrond_onlyIn d).canon rfl h
  unfold Dev.boundaryCommit
  simp only [(Dev.counterFrond_onlyIn _).regs_eq rfl, (Dev.clearFrond_onlyIn _).regs_eq rfl,
    (Dev.crustFrond_onlyIn _).regs_eq rfl]
  exact Dev.commitFrond_canon (Dev.deferredFrond_canon hr)

theorem Dev.boundaryWork_canon {d : Dev} (h : d.regs.Canon) (i : FrondIn) : (d.boundaryWork i).regs.Canon := by
  unfold Dev.boundaryWork
  simp only [(Dev.standbyFrond_onlyIn _).regs_eq rfl, (Dev.peatStanding_onlyIn _).regs_eq rfl,
    (Dev.settingsFrond_onlyIn _).regs_eq rfl, (Dev.twFrond_onlyIn _).regs_eq rfl, (Dev.fabFrond_onlyIn _).regs_eq rfl]
  refine Dev.dmaFrond_canon ?_
  simp only [(Dev.rowFrond_onlyIn _).regs_eq rfl, (Dev.epochFrond_onlyIn _).regs_eq rfl, (Dev.timeFrond_onlyIn _).regs_eq rfl,
    (Dev.linkFrond_onlyIn _).regs_eq rfl, (Dev.tierFrond_onlyIn _).regs_eq rfl, (Dev.placeCharges_onlyIn _).regs_eq rfl,
    (Dev.bbuFrond_onlyIn _).regs_eq rfl, (Dev.admFrond_onlyIn _).regs_eq rfl, (Dev.calBoundary_onlyIn _).regs_eq rfl,
    (Dev.agesFrond_onlyIn _).regs_eq rfl, (Dev.holdFrond_onlyIn _).regs_eq rfl, (Dev.regionFrond_onlyIn _).regs_eq rfl,
    (Dev.pbFrond_onlyIn _).regs_eq rfl, (Dev.thermFrond_onlyIn _ _ _).regs_eq rfl, (Dev.meansFrond_onlyIn _).regs_eq rfl]
  rw [foldN_regs fun _ _ => (Dev.setpFrond_onlyIn _ _ _).regs_eq rfl]
  exact h

theorem Dev.runBoundary_canon {d : Dev} (h : d.regs.Canon) (i : FrondIn) : (d.runBoundary i).regs.Canon := by
  have hn : d.closeTick.newTick.regs.Canon :=
    (Dev.newTick_onlyIn _).canon rfl ((Dev.closeTick_onlyIn d).canon rfl h)
  exact (Dev.newFrond_onlyIn _).canon rfl (Dev.boundaryWork_canon (Dev.boundaryCommit_canon hn i) i)

/-! ### The tick -/

theorem Dev.throughSlice_regs {f : Dev → SlotEntry → Dev} (hf : ∀ d e, (f d e).regs = d.regs) (d : Dev) (e : SlotEntry) :
    (Dev.throughSlice f d e).regs = d.regs :=
  Dev.onlyIn_butRegs.mp (Dev.throughSlice_onlyIn f d e (by decide) fun _ _ => Dev.onlyIn_butRegs.mpr (hf _ _))

/-- Of the entries of a bank only those of the DMA engine write registers (R54, R468). -/
theorem Dev.fireEntry_canon {d : Dev} (h : d.regs.Canon) (e : SlotEntry) : (d.fireEntry e).regs.Canon := by
  unfold Dev.fireEntry
  extract_lets c
  repeat' with_reducible apply Dev.ite_canon
  · rw [Dev.throughSlice_regs fun _ _ => (Dev.fireBiq_onlyIn _ _).regs_eq rfl]; exact h
  · rw [Dev.throughSlice_regs fun _ _ => (Dev.fireVlp_onlyIn _ _).regs_eq rfl]; exact h
  · rw [Dev.throughSlice_regs fun _ _ => (Dev.fireFfs_onlyIn _ _).regs_eq rfl]; exact h
  · rw [Dev.throughSlice_regs fun _ _ => (Dev.fireSum_onlyIn _ _).regs_eq rfl]; exact h
  · exact (Dev.firePhase_onlyIn _ _).canon rfl h
  · exact (Dev.fireOvl_onlyIn _ _).canon rfl h
  · exact (Dev.fireStat_onlyIn _ _).canon rfl h
  · rw [Dev.throughSlice_regs fun _ _ => (Dev.fireInj_onlyIn _ _).regs_eq rfl]; exact h
  · rw [(Dev.overDrop_onlyIn _ _ _).regs_eq rfl, (Dev.admitFire_onlyIn _).regs_eq rfl]; exact h
  · exact (Dev.fireLedger_onlyIn _).canon rfl h
  · rw [(Dev.overDrop_onlyIn _ _ _).regs_eq rfl, (Dev.fireSupv_onlyIn _).regs_eq rfl]; exact h
  · exact (Dev.accTick_onlyIn _ _).canon rfl h
  · exact (Dev.fireCapt_onlyIn _ _).canon rfl h
  · exact (Dev.fireComp_onlyIn _ _).canon rfl h
  · exact (Dev.peatFire_onlyIn _).canon rfl h
  · exact Dev.chFire_canon h _ _
  · rw [(Dev.overDrop_onlyIn _ _ _).regs_eq rfl, (Dev.rxFalls_onlyIn _ _).regs_eq rfl, (Dev.rxDrain_onlyIn _ _).regs_eq rfl]
    exact h
  · exact (Dev.fireMwin_onlyIn _ _).canon rfl h
  · exact h

theorem Dev.fireAll_canon {d : Dev} (h : d.regs.Canon) : d.fireAll.regs.Canon := by
  have hfire : ∀ (l : List SlotEntry) {d : Dev}, d.regs.Canon → (l.foldl Dev.fireEntry d).regs.Canon := fun l _ h =>
    Dev.foldl_canon (fun d e hd => Dev.fireEntry_canon hd e) l h
  unfold Dev.fireAll
  extract_lets l pre post x y
  have hx : x.regs.Canon := by
    dsimp only [x]
    rw [foldN_regs fun _ _ => (Dev.countTick_onlyIn _ _).regs_eq rfl]
    exact hfire pre h
  have hy : y.regs.Canon := hfire post hx
  clear_value y
  with_reducible apply Dev.ite_canon
  · exact hy
  · exact (Dev.accTick_onlyIn _ _).canon rfl hy

/-- What follows the firing of the bank in a tick writes no register. -/
theorem Dev.tickWork_canon {d : Dev} (h : d.regs.Canon) (i : TickIn) : (d.tickWork i).regs.Canon := by
  unfold Dev.tickWork
  extract_lets inj cap begun triggered sampled fired aux inj' ended bursts periods counters tier
  have hbegun : begun.regs.Canon := h
  have htriggered : triggered.regs.Canon := Dev.ite_canon ((Dev.capTrigger_onlyIn _).canon rfl hbegun) hbegun
  have hsampled : sampled.regs.Canon :=
    Dev.ite_canon ((Dev.sampleFloor_onlyIn _).canon rfl (Dev.commitSample_canon htriggered)) htriggered
  have hfired : fired.regs.Canon :=
    Dev.fireAll_canon ((Dev.dmaTick_onlyIn _).canon rfl ((Dev.coeffPort_onlyIn _).canon rfl hsampled))
  have haux : aux.regs.Canon := (Dev.auxTick_onlyIn _ _ _).canon rfl hfired
  have hbursts : bursts.regs = aux.regs := foldN_regs (fun _ _ => (Dev.burstTick_onlyIn _ _).regs_eq rfl) _ _
  have hperiods : periods.regs = bursts.regs := foldN_regs (fun _ _ => (Dev.periodTick_onlyIn _ _).regs_eq rfl) _ _
  have hcounters : counters.regs = periods.regs :=
    ((Dev.noAdmit_onlyIn _).regs_eq rfl).trans (foldN_regs (fun _ _ => (Dev.counterTick_onlyIn _ _).regs_eq rfl) _ _)
  have htier : tier.regs.Canon := by
    rw [← hbursts, ← hperiods, ← hcounters] at haux
    exact Dev.ite_canon ((Dev.tierSelect_onlyIn _).canon rfl haux) haux
  rw [(Dev.demandTick_onlyIn _).regs_eq rfl, (Dev.mieTick_onlyIn _).regs_eq rfl, (Dev.errorTick_onlyIn _ _).regs_eq rfl]
  exact htier

theorem Dev.runTick_canon {d : Dev} (h : d.regs.Canon) (i : TickIn) : (d.runTick i).regs.Canon := by
  unfold Dev.runTick
  extract_lets drv fresh closed opened applied begun worked
  have hclosed : closed.regs.Canon := (Dev.closeTick_onlyIn _).canon rfl h
  have hopened : opened.regs.Canon := Dev.ite_canon hclosed ((Dev.newTick_onlyIn _).canon rfl hclosed)
  have hbegun : begun.regs.Canon := (Dev.tickApply_onlyIn opened i).canon rfl hopened
  exact Dev.tickWork_canon ((Dev.railsTick_onlyIn _).canon rfl ((Dev.tickSense_onlyIn _ _ _).canon rfl hbegun)) i

/-! ### The two-wire target ports -/

theorem Dev.pmWrite_canon {d : Dev} (h : d.regs.Canon) (n : Nat) (ok : Bool) {f : Dev → Dev} (hf : (f d).regs.Canon) :
    (d.pmWrite n ok f).regs.Canon := by
  unfold Dev.pmWrite
  repeat' with_reducible apply Dev.ite_canon
  · exact (Dev.drive_onlyIn _ _ _).canon rfl h
  · exact (Dev.pmRefuse_onlyIn _ _).canon rfl h
  · rw [(Dev.twStop_onlyIn _ _).regs_eq rfl, (Dev.drive_onlyIn _ _ _).regs_eq rfl]
    exact hf

theorem Dev.wpPut_canon {d : Dev} (h : d.regs.Canon) (n v : Nat) : (d.wpPut n v).regs.Canon :=
  Dev.pmWrite_canon h n _ (Dev.setFld_canon ((Dev.blockCells_onlyIn _ _ _ _).canon rfl h) _ _ _ _ _)

theorem Dev.voutPut_canon {d : Dev} (h : d.regs.Canon) (n v : Nat) : (d.voutPut n v).regs.Canon := by
  refine Dev.pmWrite_canon h n _ (Dev.foldl_canon (fun d r hd => ?_) _ ((Dev.blockCells_onlyIn _ _ _ _).canon rfl h))
  split
  · exact (Dev.updUpd_onlyIn _ _).canon rfl hd
  · exact Dev.shadowCommit_canon hd _ _

theorem Dev.pmBlock_canon {d : Dev} (h : d.regs.Canon) (n code : Nat) (data : List Byte) :
    (d.pmBlock n code data).regs.Canon := by
  have hrefuse : (d.pmRefuse n).regs.Canon := (Dev.pmRefuse_onlyIn _ _).canon rfl h
  unfold Dev.pmBlock
  split
  · exact hrefuse
  · split
    · rw [(Dev.twStop_onlyIn _ _).regs_eq rfl, (Dev.twNack_onlyIn _ _ _).regs_eq rfl]; exact h
    · split
      · exact (Dev.twStop_onlyIn _ _).canon rfl h
      · exact Dev.ite_canon ((Dev.pagePut_onlyIn _ _ _).canon rfl h) (Dev.ite_canon (Dev.wpPut_canon h _ _) hrefuse)
      · exact Dev.ite_canon (Dev.voutPut_canon h _ _) hrefuse
      · exact hrefuse

theorem State.writeWords_canon {s : State} (h : s.d.regs.Canon) (p : Path) (pg off : Nat) (ws : List Word32) :
    (s.writeWords p pg off ws).1.d.regs.Canon := by
  induction ws generalizing s off with
  | nil => exact h
  | cons w ws ih => exact ih (State.applyWrite_canon h p pg off w.toNat) (off + 4)

theorem State.windowWrite_canon {s : State} (h : s.d.regs.Canon) (n pg off : Nat) (ws : List Word32) :
    (s.windowWrite n pg off ws).d.regs.Canon := by
  unfold State.windowWrite
  extract_lets t st r
  have ht : t.d.regs.Canon := (Dev.blockCells_onlyIn _ _ _ _).canon rfl h
  split
  · exact (Dev.keepReply_onlyIn _ _ _ _).canon rfl ht
  · exact (Dev.keepReply_onlyIn _ _ _ _).canon rfl (State.writeWords_canon ht _ _ _ _)

theorem State.windowRead_regs (s : State) (n pg off k : Nat) : (s.windowRead n pg off k).d.regs = s.d.regs := by
  unfold State.windowRead
  extract_lets t st offs st' body
  have ht : t.d.regs = s.d.regs := (Dev.blockCells_onlyIn _ _ _ _).regs_eq rfl
  split
  · exact ((Dev.keepReply_onlyIn _ _ _ _).regs_eq rfl).trans ht
  · exact ((Dev.keepReply_onlyIn _ _ _ _).regs_eq rfl).trans ht

theorem State.windowCmd_canon {s : State} (h : s.d.regs.Canon) (n : Nat) (b : HeldBlk) {f : State → State}
    (hf : (f s).d.regs.Canon) : (s.windowCmd n b f).d.regs.Canon := by
  unfold State.windowCmd
  split
  · exact (Dev.drive_onlyIn _ _ _).canon rfl h
  · extract_lets t
    have ht : t.d.regs.Canon := by
      dsimp only [t]
      split
      · exact (Dev.holdBlock_onlyIn _ _ _).canon rfl h
      · exact hf
    exact (Dev.twStop_onlyIn _ _).canon rfl ((Dev.drive_onlyIn _ _ _).canon rfl ht)

theorem State.windowBlock_canon {s : State} (h : s.d.regs.Canon) (n code : Nat) (data : List Byte) :
    (s.windowBlock n code data).d.regs.Canon := by
  unfold State.windowBlock
  extract_lets pay fits pg off bad ws k tag sq c args
  have hbad : (bad s).d.regs.Canon := by
    refine (Dev.twStop_onlyIn _ _).canon rfl ((Dev.drive_onlyIn _ _ _).canon rfl ?_)
    exact (Dev.keepReply_onlyIn _ _ _ _).canon rfl h
  clear_value bad
  split
  · split
    · exact State.windowCmd_canon h _ _ (State.windowWrite_canon h _ _ _ _)
    · exact hbad
  · split
    · split
      · exact State.windowCmd_canon h _ _ (by rw [State.windowRead_regs]; exact h)
      · exact hbad
    · split
      · split
        · exact State.windowCmd_canon h _ _ ((Dev.windowSeq_onlyIn _ _ _ _ _ _).canon rfl h)
        · exact hbad
      · exact (Dev.twStop_onlyIn _ _).canon rfl ((Dev.twNack_onlyIn _ _ _).canon rfl h)

/-- A block that waited in die S is processed as one that did not wait (R507). -/
theorem State.runHeld_canon {s : State} (h : s.d.regs.Canon) (b : HeldBlk) : (s.runHeld b).d.regs.Canon := by
  unfold State.runHeld
  extract_lets late
  have hlate : ∀ (n : Nat) (f : State → State), (f s).d.regs.Canon → (late n f).d.regs.Canon := fun n f hf =>
    Dev.ite_canon ((Dev.updTwT_onlyIn _ _ _).canon rfl hf) ((Dev.replyReady_onlyIn _ _).canon rfl hf)
  clear_value late
  cases b with
  | regWrite n pg off ws => exact hlate n _ (State.windowWrite_canon h n pg off ws)
  | regRead n pg off k => exact hlate n _ (by rw [State.windowRead_regs]; exact h)
  | seq n tag sq code args => exact hlate n _ ((Dev.windowSeq_onlyIn _ _ _ _ _ _).canon rfl h)
  | opening src sq => exact (Dev.decideOpen_onlyIn _ _ _ _).canon rfl h
  | vout r v => exact Dev.shadowCommit_canon h _ _

theorem State.release_canon {s : State} (h : s.d.regs.Canon) : s.release.d.regs.Canon := by
  have run : ∀ (l : List HeldBlk) (t : State), t.d.regs.Canon → (l.foldl State.runHeld t).d.regs.Canon := by
    intro l
    induction l with
    | nil => exact fun t ht => ht
    | cons b l ih => exact fun t ht => ih _ (State.runHeld_canon ht b)
  unfold State.release
  extract_lets l t
  exact run _ t ((Dev.updUpd_onlyIn _ _).canon rfl h)

/-! ### Reset release -/

theorem Dev.bootSettings_canon {d : Dev} (h : d.regs.Canon) : d.bootSettings.regs.Canon := by
  refine (Dev.applyTable_onlyIn _).canon rfl (Dev.foldl_canon (fun d e hd => Dev.setReg_canon hd _ _ _) _ ?_)
  exact h

theorem Dev.afterReset_canon (d : Dev) (strap0 strap1 votes : Nat) : (d.afterReset strap0 strap1 votes).regs.Canon := by
  unfold Dev.afterReset
  extract_lets job old kept torn booted ports loaded
  have hkept : kept.regs.Canon := by
    dsimp only [kept]
    rw [(Dev.crustVote_onlyIn _ _).regs_eq rfl, (Dev.crustFrond_onlyIn _).regs_eq rfl, (Dev.crustRead_onlyIn _).regs_eq rfl]
    exact RegFile.reset_canon
  have htorn : torn.regs.Canon := by
    dsimp only [torn]
    clear_value job
    cases job with
    | none => exact hkept
    | some j => rw [(Dev.crustSpent_onlyIn _ _).regs_eq rfl, Dev.occur_regs]; exact hkept
  have hbooted : booted.regs.Canon :=
    (Dev.bootRegions_onlyIn _).canon rfl ((Dev.bootFw_onlyIn _).canon rfl (Dev.bootSettings_canon htorn))
  have hports : ports.regs.Canon := by
    rw [show ports.regs = booted.regs from foldN_regs (fun _ _ => Dev.updTwT_regs _ _ _) _ _]; exact hbooted
  have hloaded : loaded.regs.Canon := Dev.ite_canon hports ((Dev.loadInto_onlyIn _ _ _ _).canon rfl hports)
  exact Dev.ite_canon ((Dev.occurC_onlyIn _ _ _ _).canon rfl hloaded) hloaded

theorem State.holdsFrond_regs (s : State) : s.holdsFrond.d.regs = s.d.regs := by
  unfold State.holdsFrond
  extract_lets x
  split <;> rfl

end Sys2Proof.Machine
end

section
/-! PROOF. The commands that leave the register file alone: each is made of operations whose laws (Sys2Proof/Laws) say which parts
of the block they change, and the register file is none of them. -/

namespace Sys2Proof.Machine

/-- A command that answers a next state leaves the register file as it is. -/
def KeepsRegs (s : State) (o : Out) : Prop := ∀ t, o = .next t → t.d.regs = s.d.regs

theorem keepsRegs_next {s t : State} (h : t.d.regs = s.d.regs) : KeepsRegs s (.next t) := by
  rintro _ ⟨⟩; exact h

theorem keepsRegs_done {s : State} {f : Dev → Dev} (h : ∀ d, (f d).regs = d.regs) : KeepsRegs s (done f s) :=
  keepsRegs_next (h s.d)

theorem keepsRegs_fault (s : State) (f : Fault) : KeepsRegs s (.fault f) := by simp [KeepsRegs]

theorem State.pmRead_regs (s : State) (n code : Nat) (f : Dev → Nat → List Byte) : (s.pmRead n code f).d.regs = s.d.regs := by
  have hrecv : (s.d.recvBlock n).regs = s.d.regs := (Dev.recvBlock_onlyIn _ _).regs_eq rfl
  unfold State.pmRead
  extract_lets pg
  rw [State.upd_d]
  split
  · exact ((Dev.drive_onlyIn _ _ _).regs_eq rfl).trans hrecv
  · split
    · exact ((Dev.pmRefuse_onlyIn _ _).regs_eq rfl).trans hrecv
    · rw [(Dev.twStop_onlyIn _ _).regs_eq rfl, (Dev.drive_onlyIn _ _ _).regs_eq rfl]
      exact hrecv

theorem Dev.pmWrite_id_regs (d : Dev) (n : Nat) (ok : Bool) : ((d.recvBlock n).pmWrite n ok id).regs = d.regs := by
  rw [Dev.onlyIn_butRegs.mp (Dev.pmWrite_onlyIn _ n ok id (by decide) fun _ => Dev.onlyIn_refl _ _)]
  exact (Dev.recvBlock_onlyIn _ _).regs_eq rfl

theorem execInjectionDurationEnd_regs (s : State) : KeepsRegs s (execInjectionDurationEnd s) :=
  keepsRegs_done fun d => by simp [apply_ite Dev.regs, (Dev.injStop_onlyIn _ _).regs_eq rfl]

theorem execCaptureFilled_regs (s : State) : KeepsRegs s (execCaptureFilled s) :=
  keepsRegs_done fun d => by simp [apply_ite Dev.regs]

theorem execCaptureDone_regs (s : State) : KeepsRegs s (execCaptureDone s) :=
  keepsRegs_done fun d => by simp [apply_ite Dev.regs]

theorem execMemberParentMet_regs (i : Fin 32) (s : State) : KeepsRegs s (execMemberParentMet i s) :=
  keepsRegs_done fun d => by simp [apply_ite Dev.regs]

theorem execOnDelayEnd_regs (i : Fin 32) (s : State) : KeepsRegs s (execOnDelayEnd i s) :=
  keepsRegs_done fun d => by simp [apply_ite Dev.regs, (Dev.outOn_onlyIn _ _).regs_eq rfl]

theorem execMemberQualified_regs (i : Fin 32) (s : State) : KeepsRegs s (execMemberQualified i s) :=
  keepsRegs_done fun d => by
    simp [apply_ite Dev.regs, (Dev.shelfUp_onlyIn _).regs_eq rfl, (Dev.drained_onlyIn _).regs_eq rfl,
      (Dev.resume_onlyIn _ _).regs_eq rfl]

theorem execMemberQualTimeout_regs (i : Fin 32) (s : State) : KeepsRegs s (execMemberQualTimeout i s) :=
  keepsRegs_done fun d => by
    simp [apply_ite Dev.regs, (Dev.failOwn_onlyIn _ _ _).regs_eq rfl, (Dev.afterFail_onlyIn _).regs_eq rfl]

theorem execMemberLossHold_regs (i : Fin 32) (s : State) : KeepsRegs s (execMemberLossHold i s) :=
  keepsRegs_done fun d => by simp [apply_ite Dev.regs, (Dev.failOwn_onlyIn _ _ _).regs_eq rfl]

theorem execOffDelayEnd_regs (i : Fin 32) (s : State) : KeepsRegs s (execOffDelayEnd i s) :=
  keepsRegs_done fun d => by simp [apply_ite Dev.regs, (Dev.outOff_onlyIn _ _).regs_eq rfl]

theorem execOffConfirmed_regs (i : Fin 32) (s : State) : KeepsRegs s (execOffConfirmed i s) :=
  keepsRegs_done fun d => by simp [apply_ite Dev.regs, (Dev.memberStopped_onlyIn _ _).regs_eq rfl]

theorem execOffFail_regs (i : Fin 32) (s : State) : KeepsRegs s (execOffFail i s) :=
  keepsRegs_done fun d => by simp [apply_ite Dev.regs, (Dev.memberStopped_onlyIn _ _).regs_eq rfl]

theorem execDrainingEnd_regs (s : State) : KeepsRegs s (execDrainingEnd s) :=
  keepsRegs_done fun d => by simp [apply_ite Dev.regs, (Dev.drained_onlyIn _).regs_eq rfl]

theorem execOffDwellEnd_regs (s : State) : KeepsRegs s (execOffDwellEnd s) :=
  keepsRegs_done fun d => by simp [apply_ite Dev.regs, (Dev.powerUp_onlyIn _).regs_eq rfl]

theorem execHotSwapFullyOn_regs (r : Fin 4) (s : State) : KeepsRegs s (execHotSwapFullyOn r s) :=
  keepsRegs_done fun d => by simp [apply_ite Dev.regs]

theorem execFeedReady_regs (f : FeedId) (s : State) : KeepsRegs s (execFeedReady f s) :=
  keepsRegs_done fun d => by simp [apply_ite Dev.regs]

theorem execFeedInvalid_regs (f : FeedId) (s : State) : KeepsRegs s (execFeedInvalid f s) :=
  keepsRegs_done fun d => by simp [apply_ite Dev.regs]

theorem execFeedFullyOn_regs (f : FeedId) (s : State) : KeepsRegs s (execFeedFullyOn f s) :=
  keepsRegs_done fun d => by simp [apply_ite Dev.regs]

theorem execFeedPowerGood_regs (f : FeedId) (s : State) : KeepsRegs s (execFeedPowerGood f s) :=
  keepsRegs_done fun d => by simp [apply_ite Dev.regs]

theorem execFeedTransfer_regs (s : State) : KeepsRegs s (execFeedTransfer s) := by
  refine keepsRegs_done fun d => ?_
  repeat' split
  all_goals simp [apply_ite Dev.regs, (Dev.startTransfer_onlyIn _ _).regs_eq rfl, (Dev.startInsertion_onlyIn _ _).regs_eq rfl]

theorem execTransferDeadEnd_regs (s : State) : KeepsRegs s (execTransferDeadEnd s) := by
  refine keepsRegs_done fun d => ?_
  repeat' split
  all_goals simp [(Dev.turnOn_onlyIn _ _).regs_eq rfl, (Dev.xferFail_onlyIn _ _).regs_eq rfl]

theorem execTransferInterlockFail_regs (s : State) : KeepsRegs s (execTransferInterlockFail s) := by
  refine keepsRegs_done fun d => ?_
  dsimp only
  repeat' split
  all_goals simp [(Dev.xferFail_onlyIn _ _).regs_eq rfl, (Dev.feedPark_onlyIn _ _).regs_eq rfl,
    (Dev.feedFaultRaw_onlyIn _ _ _).regs_eq rfl]

theorem execInsTimeout_regs (f : FeedId) (s : State) : KeepsRegs s (execInsTimeout f s) :=
  keepsRegs_done fun d => by
    simp [apply_ite Dev.regs, (Dev.feedFaultRaw_onlyIn _ _ _).regs_eq rfl, (Dev.xferFail_onlyIn _ _).regs_eq rfl]

theorem execFeedReturn_regs (s : State) : KeepsRegs s (execFeedReturn s) := by
  refine keepsRegs_done fun d => ?_
  split <;> simp [apply_ite Dev.regs, (Dev.startTransfer_onlyIn _ _).regs_eq rfl]

theorem execFeedOv_regs (f : FeedId) (s : State) : KeepsRegs s (execFeedOv f s) :=
  keepsRegs_done fun d => by simp [apply_ite Dev.regs, (Dev.feedFault_onlyIn _ _ _).regs_eq rfl]

theorem execFeedRetryEnd_regs (f : FeedId) (s : State) : KeepsRegs s (execFeedRetryEnd f s) :=
  keepsRegs_done fun d => by simp [apply_ite Dev.regs]

theorem execFeedRetryCountReset_regs (f : FeedId) (s : State) : KeepsRegs s (execFeedRetryCountReset f s) :=
  keepsRegs_done fun d => by simp [apply_ite Dev.regs]

theorem execG1JudgementResume_regs (s : State) : KeepsRegs s (execG1JudgementResume s) :=
  keepsRegs_done fun d => by
    simp [apply_ite Dev.regs, (Dev.takeSwitches_onlyIn _).regs_eq rfl, (Dev.judgeSwitches_onlyIn _).regs_eq rfl]

theorem execVgdLow_regs (s : State) : KeepsRegs s (execVgdLow s) :=
  keepsRegs_done fun d => by simp [apply_ite Dev.regs]

theorem execHotSwapOnTimeout_regs (r : Fin 4) (s : State) : KeepsRegs s (execHotSwapOnTimeout r s) :=
  keepsRegs_done fun d => by simp [apply_ite Dev.regs, (Dev.hsFault_onlyIn _ _ _).regs_eq rfl]

theorem execHotSwapSlowTrip_regs (r : Fin 4) (s : State) : KeepsRegs s (execHotSwapSlowTrip r s) :=
  keepsRegs_done fun d => by simp [apply_ite Dev.regs, (Dev.hsTrip_onlyIn _ _ _).regs_eq rfl]

theorem execCountInvalid_regs (m : Fin 4) (s : State) : KeepsRegs s (execCountInvalid m s) :=
  keepsRegs_done fun d => by simp [apply_ite Dev.regs, (Dev.learnDq_onlyIn _ _ _).regs_eq rfl]

theorem execFullAnchor_regs (m : Fin 4) (s : State) : KeepsRegs s (execFullAnchor m s) :=
  keepsRegs_done fun d => by simp [apply_ite Dev.regs]

theorem execEmptyAnchor_regs (m : Fin 4) (s : State) : KeepsRegs s (execEmptyAnchor m s) :=
  keepsRegs_done fun d => by simp [apply_ite Dev.regs]

theorem execReserveEntry_regs (m : Fin 4) (s : State) : KeepsRegs s (execReserveEntry m s) :=
  keepsRegs_done fun d => by simp [apply_ite Dev.regs, (Dev.bbuStore_onlyIn _ _).regs_eq rfl]

theorem execBbuStatusPoll_regs (m : Fin 4) (answer : Option (BitVec 16 × Byte)) (s : State) :
    KeepsRegs s (execBbuStatusPoll m answer s) := by
  refine keepsRegs_done fun d => ?_
  dsimp only
  repeat' split
  all_goals simp [(Dev.twGone_onlyIn _ _ _).regs_eq rfl, (Dev.sendRead_onlyIn _ _ _ _).regs_eq rfl,
    (Dev.twDone_onlyIn _ _ _).regs_eq rfl, (Dev.inBlock_onlyIn _ _ _).regs_eq rfl]

theorem execBbuInsertion_regs (m : Fin 4) (serial : BitVec 64) (s : State) : KeepsRegs s (execBbuInsertion m serial s) :=
  keepsRegs_done fun d => by
    simp [apply_ite Dev.regs, (Dev.twGone_onlyIn _ _ _).regs_eq rfl, (Dev.sendRead_onlyIn _ _ _ _).regs_eq rfl,
      (Dev.twDone_onlyIn _ _ _).regs_eq rfl, (Dev.inBlock_onlyIn _ _ _).regs_eq rfl, (Dev.bbuStart_onlyIn _ _).regs_eq rfl,
      (Dev.bbuIdentify_onlyIn _ _ _).regs_eq rfl]

theorem execBbuRemoval_regs (m : Fin 4) (s : State) : KeepsRegs s (execBbuRemoval m s) :=
  keepsRegs_done fun d => by simp [apply_ite Dev.regs, (Dev.bbuRemove_onlyIn _ _).regs_eq rfl]

theorem execFirstEstimate_regs (m : Fin 4) (s : State) : KeepsRegs s (execFirstEstimate m s) :=
  keepsRegs_done fun d => by simp [apply_ite Dev.regs]

theorem execCompatSwap_regs (m : Fin 4) (s : State) : KeepsRegs s (execCompatSwap m s) :=
  keepsRegs_done fun d => by simp [apply_ite Dev.regs, (Dev.bbuStart_onlyIn _ _).regs_eq rfl]

theorem execChgComm_regs (m : Fin 4) (s : State) : KeepsRegs s (execChgComm m s) :=
  keepsRegs_done fun d => by simp [apply_ite Dev.regs]

theorem execTwinSilent_regs (t : Twin) (s : State) : KeepsRegs s (execTwinSilent t s) :=
  keepsRegs_done fun d => by
    simp [apply_ite Dev.regs, (Dev.countTwins_onlyIn _).regs_eq rfl, (Dev.ruleApplies_onlyIn _ _ _ _ _).regs_eq rfl]

theorem execHbPathLost_regs (t : Twin) (p : HbPath) (s : State) : KeepsRegs s (execHbPathLost t p s) := by
  refine keepsRegs_done fun d => ?_
  split <;> simp [apply_ite Dev.regs, (Dev.countTwins_onlyIn _).regs_eq rfl]

theorem execHbPathRestored_regs (t : Twin) (p : HbPath) (s : State) : KeepsRegs s (execHbPathRestored t p s) :=
  keepsRegs_done fun d => by simp [apply_ite Dev.regs]

theorem execTwinSelfTestDone_regs (t : Twin) (s : State) : KeepsRegs s (execTwinSelfTestDone t s) :=
  keepsRegs_done fun d => by simp [apply_ite Dev.regs, (Dev.setLocks_onlyIn _ _ _).regs_eq rfl]

theorem execRestartFail_regs (t : Twin) (s : State) : KeepsRegs s (execRestartFail t s) :=
  keepsRegs_done fun d => by simp [apply_ite Dev.regs, (Dev.twinOut_onlyIn _ _ _).regs_eq rfl]

theorem execCutIn_regs (t : Twin) (s : State) : KeepsRegs s (execCutIn t s) := by
  refine keepsRegs_done fun d => ?_
  repeat' split
  all_goals simp

theorem execProbationEnd_regs (t : Twin) (s : State) : KeepsRegs s (execProbationEnd t s) :=
  keepsRegs_done fun d => by simp [apply_ite Dev.regs]

theorem execAutoRestart_regs (t : Twin) (s : State) : KeepsRegs s (execAutoRestart t s) :=
  keepsRegs_done fun d => by simp [apply_ite Dev.regs, (Dev.quarantine_onlyIn _ _ _).regs_eq rfl]

theorem execBankSwap_regs (s : State) : KeepsRegs s (execBankSwap s) :=
  keepsRegs_done fun d => by simp [apply_ite Dev.regs, (Dev.bankSwap_onlyIn _).regs_eq rfl]

theorem execCapReadReady_regs (s : State) : KeepsRegs s (execCapReadReady s) :=
  keepsRegs_done fun d => by simp [apply_ite Dev.regs]

theorem execStepPortLinkDown_regs (n : Fin 16) (s : State) : KeepsRegs s (execStepPortLinkDown n s) :=
  keepsRegs_done fun d => by simp [apply_ite Dev.regs]

theorem execLedgerLeaveConservative_regs (s : State) : KeepsRegs s (execLedgerLeaveConservative s) :=
  keepsRegs_done fun d => by simp [apply_ite Dev.regs]

theorem execStepSettle_regs (i : Fin 256) (s : State) : KeepsRegs s (execStepSettle i s) :=
  keepsRegs_done fun d => by simp

theorem execReservationExpire_regs (i : Fin 256) (s : State) : KeepsRegs s (execReservationExpire i s) := by
  refine keepsRegs_done fun d => ?_
  split <;> simp [apply_ite Dev.regs]

theorem execUnannHalving_regs (s : State) : KeepsRegs s (execUnannHalving s) :=
  keepsRegs_done fun d => by simp [apply_ite Dev.regs]

theorem execPortStale_regs (n : Fin 16) (s : State) : KeepsRegs s (execPortStale n s) := by
  refine keepsRegs_done fun d => ?_
  extract_lets p e
  split
  · rw [(Dev.capRaise_onlyIn _ _).regs_eq rfl, Dev.occur_regs, Dev.updPort_regs,
      Dev.foldl_regs fun _ _ => Dev.updLoad_regs _ _ _]
  · rfl

theorem execCapLevelFall_regs (n : Fin 16) (s : State) : KeepsRegs s (execCapLevelFall n s) :=
  keepsRegs_done fun d => by simp [apply_ite Dev.regs]

theorem execFreezeLong_regs (s : State) : KeepsRegs s (execFreezeLong s) :=
  keepsRegs_done fun d => by simp [apply_ite Dev.regs]

theorem execRateCheckEnable_regs (s : State) : KeepsRegs s (execRateCheckEnable s) :=
  keepsRegs_done fun d => by simp [apply_ite Dev.regs]

theorem execThermalHoldEnd_regs (n : Fin 64) (s : State) : KeepsRegs s (execThermalHoldEnd n s) :=
  keepsRegs_done fun d => by simp [apply_ite Dev.regs]

theorem execWriteHoldEnd_regs (s : State) : KeepsRegs s (execWriteHoldEnd s) := by
  refine keepsRegs_done fun d => ?_
  dsimp only
  repeat' split
  all_goals simp [(Dev.nvFlush_onlyIn _).regs_eq rfl, (Dev.bbuFlush_onlyIn _).regs_eq rfl]

theorem execImonInvalid_regs (n : Fin 64) (s : State) : KeepsRegs s (execImonInvalid n s) :=
  keepsRegs_done fun d => by simp [apply_ite Dev.regs, (Dev.faultUnit_onlyIn _ _).regs_eq rfl]

theorem execPreInvalid_regs (c : Fin 17) (s : State) : KeepsRegs s (execPreInvalid c s) :=
  keepsRegs_done fun d => by simp [apply_ite Dev.regs, (Dev.tripRail_onlyIn _ _ _).regs_eq rfl]

theorem execMetrologyResult_regs (c : Fin 17) (raw : BitVec 24) (s : State) : KeepsRegs s (execMetrologyResult c raw s) :=
  keepsRegs_done fun d => by simp [apply_ite Dev.regs]

theorem execRefSettled_regs (s : State) : KeepsRegs s (execRefSettled s) :=
  keepsRegs_done fun d => by simp [apply_ite Dev.regs]

theorem execVrefxFallback_regs (s : State) : KeepsRegs s (execVrefxFallback s) :=
  keepsRegs_done fun d => by simp [apply_ite Dev.regs, (Dev.newRef_onlyIn _ _ _).regs_eq rfl]

theorem execAuxStepDone_regs (s : State) : KeepsRegs s (execAuxStepDone s) :=
  keepsRegs_done fun d => by simp [apply_ite Dev.regs, (Dev.auxNext_onlyIn _).regs_eq rfl, (Dev.auxDone_onlyIn _ _).regs_eq rfl]

theorem execAuxStale_regs (a : Fin 32) (s : State) : KeepsRegs s (execAuxStale a s) :=
  keepsRegs_done fun d => by simp [apply_ite Dev.regs]

theorem execIntmonResult_regs (i : Fin 20) (s : State) : KeepsRegs s (execIntmonResult i s) := by
  refine keepsRegs_done fun d => ?_
  split <;> simp [apply_ite Dev.regs, (Dev.intmonDone_onlyIn _ _).regs_eq rfl]

theorem execCalWindowStart_regs (s : State) : KeepsRegs s (execCalWindowStart s) :=
  keepsRegs_done fun d => by simp [apply_ite Dev.regs]

theorem execCalTakeover_regs (s : State) : KeepsRegs s (execCalTakeover s) :=
  keepsRegs_done fun d => by simp [apply_ite Dev.regs]

theorem execCalReconnect_regs (m : CalMeas) (s : State) : KeepsRegs s (execCalReconnect m s) :=
  keepsRegs_done fun d => by simp [apply_ite Dev.regs]

theorem execCalReturn_regs (s : State) : KeepsRegs s (execCalReturn s) :=
  keepsRegs_done fun d => by simp [apply_ite Dev.regs, (Dev.oldTrims_onlyIn _).regs_eq rfl]

theorem execCalDisconnect_regs (s : State) : KeepsRegs s (execCalDisconnect s) :=
  keepsRegs_done fun d => by simp [apply_ite Dev.regs]

theorem execCalWindowRestart_regs (s : State) : KeepsRegs s (execCalWindowRestart s) :=
  keepsRegs_done fun d => by simp [apply_ite Dev.regs]

theorem execOpenItem_regs (src : Nat) (seq : Nat) (s : State) : KeepsRegs s (execOpenItem src seq s) :=
  keepsRegs_done fun d => by simp [apply_ite Dev.regs, (Dev.decideOpen_onlyIn _ _ _ _).regs_eq rfl]

theorem execTimeFrame_regs (p : MPort) (f : MFrame) (rx : Int) (s : State) : KeepsRegs s (execTimeFrame p f rx s) :=
  keepsRegs_done fun d => by
    simp [apply_ite Dev.regs, (Dev.receive_onlyIn _ _ _ _).regs_eq rfl, (Dev.takeTime_onlyIn _ _ _ _).regs_eq rfl]

theorem execTimeHold_regs (s : State) : KeepsRegs s (execTimeHold s) :=
  keepsRegs_done fun d => by simp [apply_ite Dev.regs]

theorem execTsetHoldExpiry_regs (s : State) : KeepsRegs s (execTsetHoldExpiry s) := by
  refine keepsRegs_done fun d => ?_
  split <;> simp [apply_ite Dev.regs, (Dev.selectMaster_onlyIn _).regs_eq rfl]

theorem execMienoLinkUp_regs (p : MPort) (s : State) : KeepsRegs s (execMienoLinkUp p s) :=
  keepsRegs_done fun d => by simp [apply_ite Dev.regs]

theorem execMienoLinkDown_regs (p : MPort) (s : State) : KeepsRegs s (execMienoLinkDown p s) :=
  keepsRegs_done fun d => by simp [apply_ite Dev.regs]

theorem execLinkFrame_regs (p : MPort) (t1 : Int) (t2 : Int) (t3 : Int) (t4 : Int) (neighbour : Nat) (s : State) :
    KeepsRegs s (execLinkFrame p t1 t2 t3 t4 neighbour s) :=
  keepsRegs_done fun d => by simp [apply_ite Dev.regs, (Dev.sendLink_onlyIn _ _ _).regs_eq rfl]

theorem execDuplicateWindowReset_regs (src : Nat) (s : State) : KeepsRegs s (execDuplicateWindowReset src s) :=
  keepsRegs_done fun d => by simp

theorem execUnknownFrame_regs (p : MPort) (f : MFrame) (s : State) : KeepsRegs s (execUnknownFrame p f s) :=
  keepsRegs_done fun d => by simp [apply_ite Dev.regs, (Dev.receive_onlyIn _ _ _ _).regs_eq rfl]

theorem execMienoHeartbeatTx_regs (s : State) : KeepsRegs s (execMienoHeartbeatTx s) :=
  keepsRegs_done fun d => by simp [apply_ite Dev.regs, (Dev.broadcast_onlyIn _ _ _).regs_eq rfl]

theorem execMienoHeartbeat_regs (p : MPort) (f : MFrame) (s : State) : KeepsRegs s (execMienoHeartbeat p f s) :=
  keepsRegs_done fun d => by
    simp [apply_ite Dev.regs, (Dev.checkConflict_onlyIn _ _).regs_eq rfl, (Dev.receive_onlyIn _ _ _ _).regs_eq rfl,
      (Dev.selectMaster_onlyIn _).regs_eq rfl]

theorem execIdConflictClear_regs (s : State) : KeepsRegs s (execIdConflictClear s) :=
  keepsRegs_done fun d => by simp [apply_ite Dev.regs]

theorem execTimebaseRelock_regs (g : Region) (s : State) : KeepsRegs s (execTimebaseRelock g s) :=
  keepsRegs_done fun d => by
    simp [apply_ite Dev.regs, (Dev.setRegion_onlyIn _ _ _).regs_eq rfl, (Dev.metRestart_onlyIn _).regs_eq rfl, Dev.when_regs]

theorem execClusterFault_regs (k : Fin 8) (s : State) : KeepsRegs s (execClusterFault k s) :=
  keepsRegs_done fun d => by simp [(Dev.loseClusters_onlyIn _ _).regs_eq rfl]

theorem execUnitLostReturn_regs (k : Fin 8) (s : State) : KeepsRegs s (execUnitLostReturn k s) := by
  refine keepsRegs_done fun d => ?_
  split
  · exact foldN_regs (fun _ _ => Dev.updUnit_regs _ _ _) _ _
  · split
    · rfl
    · rw [Dev.updCluster_regs]

theorem execSoftStartDone_regs (r : Fin 4) (s : State) : KeepsRegs s (execSoftStartDone r s) :=
  keepsRegs_done fun d => by simp [apply_ite Dev.regs, (Dev.thermalShed_onlyIn _ _).regs_eq rfl]

theorem execSoftStopDone_regs (r : Fin 4) (s : State) : KeepsRegs s (execSoftStopDone r s) :=
  keepsRegs_done fun d => by simp [apply_ite Dev.regs, (Dev.railOff_onlyIn _ _).regs_eq rfl]

theorem execShortDetect_regs (r : Fin 4) (s : State) : KeepsRegs s (execShortDetect r s) :=
  keepsRegs_done fun d => by simp [apply_ite Dev.regs, (Dev.tripRail_onlyIn _ _ _).regs_eq rfl]

theorem execPhaseShed_regs (r : Fin 4) (s : State) : KeepsRegs s (execPhaseShed r s) := by
  refine keepsRegs_done fun d => ?_
  repeat' split
  all_goals simp [(Dev.mark_onlyIn _ _).regs_eq rfl]

theorem execShedRamp_regs (n : Fin 64) (s : State) : KeepsRegs s (execShedRamp n s) :=
  keepsRegs_done fun d => by simp [apply_ite Dev.regs]

theorem execShedTri_regs (n : Fin 64) (s : State) : KeepsRegs s (execShedTri n s) :=
  keepsRegs_done fun d => by simp [apply_ite Dev.regs]

theorem execBurstStart_regs (r : Fin 4) (s : State) : KeepsRegs s (execBurstStart r s) :=
  keepsRegs_done fun d => by simp [apply_ite Dev.regs, (Dev.burstRail_onlyIn _ _).regs_eq rfl]

theorem execFastLimitTrip_regs (n : Fin 64) (uv : Int) (s : State) : KeepsRegs s (execFastLimitTrip n uv s) :=
  keepsRegs_done fun d => by simp [apply_ite Dev.regs]

theorem execUnitOverload_regs (n : Fin 64) (s : State) : KeepsRegs s (execUnitOverload n s) :=
  keepsRegs_done fun d => by simp [apply_ite Dev.regs, (Dev.faultUnit_onlyIn _ _).regs_eq rfl]

theorem execRailOverload_regs (r : Fin 4) (s : State) : KeepsRegs s (execRailOverload r s) :=
  keepsRegs_done fun d => by simp [apply_ite Dev.regs, (Dev.tripRail_onlyIn _ _ _).regs_eq rfl]

theorem execRailUv_regs (r : Fin 4) (s : State) : KeepsRegs s (execRailUv r s) :=
  keepsRegs_done fun d => by simp [apply_ite Dev.regs, (Dev.tripRail_onlyIn _ _ _).regs_eq rfl]

theorem execRailOv_regs (r : Fin 4) (s : State) : KeepsRegs s (execRailOv r s) :=
  keepsRegs_done fun d => by simp [apply_ite Dev.regs, (Dev.tripRail_onlyIn _ _ _).regs_eq rfl]

theorem execRailRetryEnd_regs (r : Fin 4) (s : State) : KeepsRegs s (execRailRetryEnd r s) :=
  keepsRegs_done fun d => by simp [apply_ite Dev.regs, (Dev.retryEnd_onlyIn _ _).regs_eq rfl]

theorem execRailRetryCountReset_regs (r : Fin 4) (s : State) : KeepsRegs s (execRailRetryCountReset r s) :=
  keepsRegs_done fun d => by simp [apply_ite Dev.regs]

theorem execAdvert_regs (p : MPort) (f : MFrame) (s : State) : KeepsRegs s (execAdvert p f s) :=
  keepsRegs_done fun d => by
    simp [apply_ite Dev.regs, (Dev.receive_onlyIn _ _ _ _).regs_eq rfl, (Dev.takeAdvert_onlyIn _ _).regs_eq rfl,
      Dev.toTwins_regs]

theorem execDigest_regs (p : MPort) (f : MFrame) (s : State) : KeepsRegs s (execDigest p f s) :=
  keepsRegs_done fun d => by
    simp [apply_ite Dev.regs, (Dev.receive_onlyIn _ _ _ _).regs_eq rfl, (Dev.takeDigest_onlyIn _ _).regs_eq rfl,
      Dev.toTwins_regs]

theorem execDigestTx_regs (s : State) : KeepsRegs s (execDigestTx s) :=
  keepsRegs_done fun d => by simp [apply_ite Dev.regs, (Dev.broadcast_onlyIn _ _ _).regs_eq rfl]

theorem execBudget_regs (p : MPort) (f : MFrame) (s : State) : KeepsRegs s (execBudget p f s) :=
  keepsRegs_done fun d => by
    simp [apply_ite Dev.regs, (Dev.receive_onlyIn _ _ _ _).regs_eq rfl, (Dev.takeBudget_onlyIn _ _).regs_eq rfl,
      Dev.toTwins_regs]

theorem execAllocate_regs (s : State) : KeepsRegs s (execAllocate s) := by
  refine keepsRegs_done fun d => ?_
  split <;> simp [apply_ite Dev.regs, (Dev.broadcast_onlyIn _ _ _).regs_eq rfl,
    (Dev.takeEntry_onlyIn _ _ _ _ _ _).regs_eq rfl, Dev.foldl_regs]

theorem execShareIncrease_regs (s : State) : KeepsRegs s (execShareIncrease s) := by
  refine keepsRegs_done fun d => ?_
  split <;> simp [apply_ite Dev.regs, (Dev.applyShare_onlyIn _ _ _).regs_eq rfl]

theorem execMemberSilent_regs (id : Nat) (s : State) : KeepsRegs s (execMemberSilent id s) := by
  refine keepsRegs_done fun d => ?_
  repeat' split
  all_goals simp

theorem execRowEpochBoundary_regs (s : State) : KeepsRegs s (execRowEpochBoundary s) :=
  keepsRegs_done fun d => by simp [apply_ite Dev.regs, (Dev.newEpoch_onlyIn _).regs_eq rfl]

theorem execShelfOn_regs (s : State) : KeepsRegs s (execShelfOn s) :=
  keepsRegs_done fun d => by
    simp [apply_ite Dev.regs, (Dev.endItem_onlyIn _ _ _).regs_eq rfl, (Dev.onRequest_onlyIn _).regs_eq rfl, Dev.execHead_regs]

theorem execShelfOff_regs (s : State) : KeepsRegs s (execShelfOff s) :=
  keepsRegs_done fun d => by
    simp [Dev.execHead_regs, (Dev.offRequest_onlyIn _).regs_eq rfl, (Dev.endItem_onlyIn _ _ _).regs_eq rfl]

theorem execPbShortPress_regs (s : State) : KeepsRegs s (execPbShortPress s) := by
  refine keepsRegs_done fun d => ?_
  dsimp only
  repeat' split
  all_goals simp [(Dev.offRequest_onlyIn _).regs_eq rfl, (Dev.shelfDown_onlyIn _ _).regs_eq rfl,
    (Dev.onRequest_onlyIn _).regs_eq rfl]

theorem execPbLongPress_regs (s : State) : KeepsRegs s (execPbLongPress s) :=
  keepsRegs_done fun d => by simp [apply_ite Dev.regs, (Dev.forcedOff_onlyIn _ _).regs_eq rfl]

theorem execSafeNAssert_regs (s : State) : KeepsRegs s (execSafeNAssert s) :=
  keepsRegs_done fun d => by simp [(Dev.outputsOff_onlyIn _).regs_eq rfl]

theorem execMrNReset_regs (s : State) : KeepsRegs s (execMrNReset s) :=
  keepsRegs_done fun d => by simp [(Dev.enterSafe_onlyIn _ _).regs_eq rfl, (Dev.assertReset_onlyIn _ _).regs_eq rfl]

theorem execVauxWarn_regs (s : State) : KeepsRegs s (execVauxWarn s) :=
  keepsRegs_done fun d => by
    simp [apply_ite Dev.regs, (Dev.finalRecord_onlyIn _ _).regs_eq rfl, (Dev.crustTear_onlyIn _).regs_eq rfl]

theorem execVauxMin_regs (below1v8 : Bool) (s : State) : KeepsRegs s (execVauxMin below1v8 s) :=
  keepsRegs_done fun d => by
    simp [apply_ite Dev.regs, (Dev.enterSafe_onlyIn _ _).regs_eq rfl, (Dev.assertReset_onlyIn _ _).regs_eq rfl]

theorem execVauxReturn_regs (s : State) : KeepsRegs s (execVauxReturn s) := by
  refine keepsRegs_done fun d => ?_
  dsimp only
  split <;> simp [(Dev.nvFlush_onlyIn _).regs_eq rfl, (Dev.bbuFlush_onlyIn _).regs_eq rfl]

theorem execHoldLow_regs (s : State) : KeepsRegs s (execHoldLow s) :=
  keepsRegs_done fun d => by simp [apply_ite Dev.regs]

theorem execAutoOn_regs (s : State) : KeepsRegs s (execAutoOn s) :=
  keepsRegs_done fun d => by simp [apply_ite Dev.regs, (Dev.onRequest_onlyIn _).regs_eq rfl]

theorem execTestenHigh_regs (s : State) : KeepsRegs s (execTestenHigh s) :=
  keepsRegs_done fun d => by simp [apply_ite Dev.regs]

theorem execSupplyOutOfRange_regs (x : Supply) (s : State) : KeepsRegs s (execSupplyOutOfRange x s) := by
  refine keepsRegs_done fun d => ?_
  split <;> simp [(Dev.loseCore_onlyIn _ _).regs_eq rfl, (Dev.loseCoreS_onlyIn _).regs_eq rfl,
    (Dev.vanaLoss_onlyIn _ _).regs_eq rfl]

theorem execSupplyInRange_regs (x : Supply) (s : State) : KeepsRegs s (execSupplyInRange x s) := by
  refine keepsRegs_done fun d => ?_
  split <;> simp [(Dev.vanaBack_onlyIn _ _).regs_eq rfl]

theorem execPeatReadReady_regs (s : State) : KeepsRegs s (execPeatReadReady s) := by
  refine keepsRegs_done fun d => Dev.onlyIn_butRegs.mp (Dev.onlyIn_ite (Dev.onlyIn_refl _ _) ?_)
  have hlook : Dev.onlyIn Part.butRegs d (d.peatLookup d.peat.rdSeq).1 :=
    Dev.onlyIn_mono (Dev.peatLookup_onlyIn _ _) (by decide)
  dsimp only
  generalize d.peatLookup d.peat.rdSeq = r at hlook
  split <;> exact Dev.onlyIn_via (Dev.updPeat_onlyIn _ _) (by decide) hlook

theorem execImagePageWriteDone_regs (t : Twin) (s : State) : KeepsRegs s (execImagePageWriteDone t s) := by
  refine keepsRegs_done fun d => ?_
  split <;> simp [(Dev.pageNext_onlyIn _).regs_eq rfl]

theorem execCrustWrite_regs (s : State) : KeepsRegs s (execCrustWrite s) :=
  keepsRegs_done fun d => by
    simp [apply_ite Dev.regs, (Dev.crustEnd_onlyIn _ _).regs_eq rfl, (Dev.execMark_onlyIn _ _).regs_eq rfl,
      (Dev.crustStart_onlyIn _ _ _ _ _).regs_eq rfl, (Dev.startItem_onlyIn _).regs_eq rfl, Dev.execHead_regs]

theorem execCrustProgramDone_regs (votes : Nat) (s : State) : KeepsRegs s (execCrustProgramDone votes s) := by
  refine keepsRegs_done fun d => ?_
  split <;> simp [apply_ite Dev.regs, (Dev.crustVote_onlyIn _ _).regs_eq rfl, (Dev.crustProgram_onlyIn _ _).regs_eq rfl,
    (Dev.crustRead_onlyIn _).regs_eq rfl, (Dev.crustTorn_onlyIn _ _).regs_eq rfl, (Dev.crustDone_onlyIn _ _).regs_eq rfl,
    (Dev.confirmNext_onlyIn _ _ _).regs_eq rfl, (Dev.endItem_onlyIn _ _ _).regs_eq rfl]

theorem execSessionOpen_regs (s : State) : KeepsRegs s (execSessionOpen s) :=
  keepsRegs_done fun d => by
    simp [apply_ite Dev.regs, (Dev.endItem_onlyIn _ _ _).regs_eq rfl, (Dev.sessionStart_onlyIn _ _ _).regs_eq rfl,
      Dev.execHead_regs]

theorem execSessionClose_regs (s : State) : KeepsRegs s (execSessionClose s) :=
  keepsRegs_done fun d => by
    simp [apply_ite Dev.regs, (Dev.sessionEnd_onlyIn _).regs_eq rfl, (Dev.endItem_onlyIn _ _ _).regs_eq rfl, Dev.execHead_regs]

theorem execSessionIdleTimeout_regs (s : State) : KeepsRegs s (execSessionIdleTimeout s) :=
  keepsRegs_done fun d => by simp [apply_ite Dev.regs, (Dev.sessionEnd_onlyIn _).regs_eq rfl]

theorem execSporeCommit_regs (other : Option (Nat × Nat × Nat)) (s : State) : KeepsRegs s (execSporeCommit other s) := by
  refine keepsRegs_done fun d => Dev.execHead_regs (fun d w => ?_) d _
  extract_lets u e marked
  have he : e.regs = d.regs := (Dev.setUpd_onlyIn _ _).regs_eq rfl
  have hmarked : marked.regs = d.regs := ((Dev.execMark_onlyIn _ _).regs_eq rfl).trans he
  clear_value marked e u
  with_reducible apply Dev.ite_regs
  · exact (Dev.commitFailed_onlyIn _ _).regs_eq rfl
  with_reducible apply Dev.ite_regs
  · rfl
  split
  rename_i r ss _
  with_reducible apply Dev.ite_regs
  · exact ((Dev.commitFailed_onlyIn _ _).regs_eq rfl).trans he
  extract_lets loaded
  have hloaded : loaded.regs = d.regs := by
    dsimp only [loaded]
    cases sectionOf ss 2 with
    | none => exact hmarked
    | some x => exact ((Dev.loadImage_onlyIn _ _ _).regs_eq rfl).trans hmarked
  clear_value loaded
  with_reducible apply Dev.ite_regs
  · exact ((Dev.commitFailed_onlyIn _ _).regs_eq rfl).trans hloaded
  · rw [(Dev.endItem_onlyIn _ _ _).regs_eq rfl, (Dev.commitDone_onlyIn _ _).regs_eq rfl, hloaded]

theorem execActivate_regs (s : State) : KeepsRegs s (execActivate s) :=
  keepsRegs_done fun d => by
    simp [apply_ite Dev.regs, (Dev.endItem_onlyIn _ _ _).regs_eq rfl, (Dev.swapRefused_onlyIn _ _).regs_eq rfl,
      (Dev.execMark_onlyIn _ _).regs_eq rfl, (Dev.startItem_onlyIn _).regs_eq rfl, (Dev.setUpd_onlyIn _ _).regs_eq rfl,
      (Dev.armSwap_onlyIn _ _).regs_eq rfl, Dev.execHead_regs]

theorem execCompareSuspend_regs (s : State) : KeepsRegs s (execCompareSuspend s) :=
  keepsRegs_done fun d => by simp [apply_ite Dev.regs]

theorem execCompareResume_regs (s : State) : KeepsRegs s (execCompareResume s) :=
  keepsRegs_done fun d => by simp [apply_ite Dev.regs]

theorem execConfirm_regs (s : State) : KeepsRegs s (execConfirm s) :=
  keepsRegs_done fun d => by
    simp [apply_ite Dev.regs, (Dev.confirmNext_onlyIn _ _ _).regs_eq rfl, (Dev.endItem_onlyIn _ _ _).regs_eq rfl,
      (Dev.startItem_onlyIn _).regs_eq rfl, Dev.execHead_regs]

theorem execRollback_regs (s : State) : KeepsRegs s (execRollback s) :=
  keepsRegs_done fun d => by
    simp [apply_ite Dev.regs, (Dev.endItem_onlyIn _ _ _).regs_eq rfl, (Dev.swapRefused_onlyIn _ _).regs_eq rfl,
      (Dev.execMark_onlyIn _ _).regs_eq rfl, (Dev.startItem_onlyIn _).regs_eq rfl, (Dev.rollStart_onlyIn _ _ _).regs_eq rfl,
      Dev.execHead_regs]

theorem execConfirmTimerExpiry_regs (s : State) : KeepsRegs s (execConfirmTimerExpiry s) :=
  keepsRegs_done fun d => by simp [apply_ite Dev.regs, (Dev.rollStart_onlyIn _ _ _).regs_eq rfl]

theorem execClearRefusedClear_regs (page : Nat) (s : State) : KeepsRegs s (execClearRefusedClear page s) :=
  keepsRegs_done fun d => by simp [apply_ite Dev.regs, (Dev.clearRefusedOff_onlyIn _ _).regs_eq rfl]

theorem execClearStatus_regs (s : State) : KeepsRegs s (execClearStatus s) :=
  keepsRegs_done fun d => by
    simp [apply_ite Dev.regs, (Dev.startItem_onlyIn _).regs_eq rfl, (Dev.clearRequest_onlyIn _ _ _ _).regs_eq rfl,
      (Dev.statusWrite_onlyIn _ _ _).regs_eq rfl, (Dev.endItem_onlyIn _ _ _).regs_eq rfl, Dev.execHead_regs]

theorem execClearCounter_regs (s : State) : KeepsRegs s (execClearCounter s) := by
  refine keepsRegs_done fun d => Dev.execHead_regs (fun d w => ?_) d _
  split
  · exact (Dev.endItem_onlyIn _ _ _).regs_eq rfl
  · exact (Dev.startItem_onlyIn _).regs_eq rfl

theorem execRoleSwap_regs (s : State) : KeepsRegs s (execRoleSwap s) :=
  keepsRegs_done fun d => by
    simp [apply_ite Dev.regs, (Dev.execMark_onlyIn _ _).regs_eq rfl, (Dev.startItem_onlyIn _).regs_eq rfl,
      (Dev.endItem_onlyIn _ _ _).regs_eq rfl, Dev.execHead_regs]

theorem execTwinRestart_regs (s : State) : KeepsRegs s (execTwinRestart s) :=
  keepsRegs_done fun d => by
    simp [apply_ite Dev.regs, (Dev.twinRestart_onlyIn _ _).regs_eq rfl, (Dev.endItem_onlyIn _ _ _).regs_eq rfl,
      Dev.execHead_regs]

theorem execStandby_regs (s : State) : KeepsRegs s (execStandby s) :=
  keepsRegs_done fun d => by simp [apply_ite Dev.regs, (Dev.endItem_onlyIn _ _ _).regs_eq rfl, Dev.execHead_regs]

theorem execStandbyWake_regs (c : WakeCause) (s : State) : KeepsRegs s (execStandbyWake c s) := by
  refine keepsRegs_done fun d => ?_
  repeat' split
  all_goals simp [(Dev.enterSafe_onlyIn _ _).regs_eq rfl, (Dev.assertReset_onlyIn _ _).regs_eq rfl]

theorem execFabResend_regs (s : State) : KeepsRegs s (execFabResend s) := by
  refine keepsRegs_done fun d => ?_
  split <;> simp [apply_ite Dev.regs, (Dev.fabSend_onlyIn _ _).regs_eq rfl]

theorem execFabCommand_regs (p : MPort) (f : MFrame) (s : State) : KeepsRegs s (execFabCommand p f s) :=
  keepsRegs_done fun d => by
    simp [apply_ite Dev.regs, (Dev.receive_onlyIn _ _ _ _).regs_eq rfl, (Dev.takeCommand_onlyIn _ _).regs_eq rfl,
      Dev.toTwins_regs]

theorem execCommandReply_regs (p : MPort) (f : MFrame) (s : State) : KeepsRegs s (execCommandReply p f s) :=
  keepsRegs_done fun d => by
    simp [apply_ite Dev.regs, (Dev.receive_onlyIn _ _ _ _).regs_eq rfl, (Dev.takeReply_onlyIn _ _).regs_eq rfl,
      Dev.toTwins_regs]

theorem execSporeChunk_regs (p : MPort) (f : MFrame) (s : State) : KeepsRegs s (execSporeChunk p f s) :=
  keepsRegs_done fun d => by
    simp [apply_ite Dev.regs, (Dev.receive_onlyIn _ _ _ _).regs_eq rfl, (Dev.takeSporeChunk_onlyIn _ _).regs_eq rfl,
      Dev.toTwins_regs]

theorem execPeatReq_regs (p : MPort) (f : MFrame) (s : State) : KeepsRegs s (execPeatReq p f s) :=
  keepsRegs_done fun d => by
    simp [apply_ite Dev.regs, (Dev.receive_onlyIn _ _ _ _).regs_eq rfl, (Dev.takePeatReq_onlyIn _ _).regs_eq rfl,
      Dev.toTwins_regs]

theorem execPeatData_regs (p : MPort) (f : MFrame) (s : State) : KeepsRegs s (execPeatData p f s) :=
  keepsRegs_done fun d => by simp [apply_ite Dev.regs, (Dev.receive_onlyIn _ _ _ _).regs_eq rfl, Dev.toTwins_regs]

theorem execTimedItemExecute_regs (s : State) : KeepsRegs s (execTimedItemExecute s) := by
  refine keepsRegs_done fun d => ?_
  repeat' split
  all_goals simp [(Dev.endItem_onlyIn _ _ _).regs_eq rfl]

theorem execReplyRead_regs (n : Fin 2) (s : State) : KeepsRegs s (execReplyRead n s) :=
  keepsRegs_done fun d => by
    simp [apply_ite Dev.regs, (Dev.drive_onlyIn _ _ _).regs_eq rfl, (Dev.recvBlock_onlyIn _ _).regs_eq rfl,
      (Dev.windowReply_onlyIn _ _).regs_eq rfl]

theorem execWindowTimeout_regs (n : Fin 2) (s : State) : KeepsRegs s (execWindowTimeout n s) := by
  refine keepsRegs_done fun d => ?_
  split <;> simp [apply_ite Dev.regs, (Dev.windowStatus_onlyIn _ _ _).regs_eq rfl, (Dev.answer_onlyIn _ _ _ _).regs_eq rfl]

theorem execSclHeldTimeout_regs (n : Fin 2) (s : State) : KeepsRegs s (execSclHeldTimeout n s) :=
  keepsRegs_done fun d => by simp [apply_ite Dev.regs, (Dev.drive_onlyIn _ _ _).regs_eq rfl]

theorem execSdaReleased_regs (n : Fin 2) (s : State) : KeepsRegs s (execSdaReleased n s) :=
  keepsRegs_done fun d => by simp [apply_ite Dev.regs, (Dev.drive_onlyIn _ _ _).regs_eq rfl]

theorem execAlertResponse_regs (n : Fin 2) (s : State) : KeepsRegs s (execAlertResponse n s) :=
  keepsRegs_done fun d => by
    simp [apply_ite Dev.regs, (Dev.drive_onlyIn _ _ _).regs_eq rfl, (Dev.twStop_onlyIn _ _).regs_eq rfl]

theorem execHostNotify_regs (n : Fin 2) (acked : Bool) (s : State) : KeepsRegs s (execHostNotify n acked s) :=
  keepsRegs_done fun d => by simp [apply_ite Dev.regs, (Dev.twStop_onlyIn _ _).regs_eq rfl]

theorem execHnFail_regs (n : Fin 2) (s : State) : KeepsRegs s (execHnFail n s) :=
  keepsRegs_done fun d => by simp [apply_ite Dev.regs]

theorem execOutboundBlockTx_regs (chan : Nat) (answer : TwAnswer) (s : State) :
    KeepsRegs s (execOutboundBlockTx chan answer s) := by
  refine keepsRegs_done fun d => ?_
  split <;> simp [apply_ite Dev.regs, (Dev.txFirst_onlyIn _ _ _ _).regs_eq rfl]

theorem execPoll_regs (c : Fin 4) (i : Fin 16) (answer : TwAnswer) (s : State) : KeepsRegs s (execPoll c i answer s) :=
  keepsRegs_done fun d => by
    simp [apply_ite Dev.regs, (Dev.sendRead_onlyIn _ _ _ _).regs_eq rfl, (Dev.txFirst_onlyIn _ _ _ _).regs_eq rfl]

theorem execTwRetry_regs (c : Fin 4) (answer : TwAnswer) (s : State) : KeepsRegs s (execTwRetry c answer s) := by
  refine keepsRegs_done fun d => ?_
  dsimp only
  repeat' split
  all_goals simp [(Dev.txFailed_onlyIn _ _ _).regs_eq rfl, (Dev.txDone_onlyIn _ _ _ _).regs_eq rfl,
    (Dev.txError_onlyIn _ _ _).regs_eq rfl]

theorem execControllerSclTimeout_regs (c : Fin 4) (s : State) : KeepsRegs s (execControllerSclTimeout c s) :=
  keepsRegs_done fun d => by simp [apply_ite Dev.regs]

theorem execArbLost_regs (n : Fin 6) (byte : Nat) (bit : Nat) (s : State) : KeepsRegs s (execArbLost n byte bit s) :=
  keepsRegs_done fun d => by simp [apply_ite Dev.regs, (Dev.arbLoss_onlyIn _ _).regs_eq rfl]

theorem execArbCond_regs (n : Fin 6) (s : State) : KeepsRegs s (execArbCond n s) :=
  keepsRegs_done fun d => by simp [apply_ite Dev.regs, (Dev.arbLoss_onlyIn _ _).regs_eq rfl]

theorem execArbRetry_regs (n : Fin 6) (s : State) : KeepsRegs s (execArbRetry n s) :=
  keepsRegs_done fun d => by simp [apply_ite Dev.regs]

theorem execBusRecovery_regs (c : Fin 4) (b : BusState) (s : State) : KeepsRegs s (execBusRecovery c b s) := by
  refine keepsRegs_done fun d => ?_
  repeat' split
  all_goals simp

theorem execBootSelfTestDone_regs (passA : Bool) (passB : Bool) (s : State) :
    KeepsRegs s (execBootSelfTestDone passA passB s) :=
  keepsRegs_done fun d => by
    simp [apply_ite Dev.regs, (Dev.bootRoles_onlyIn _ _ _).regs_eq rfl, (Dev.bootWork_onlyIn _ _ _).regs_eq rfl,
      (Dev.outputsOff_onlyIn _).regs_eq rfl]

theorem execTwinBootTimeout_regs (t : Twin) (s : State) : KeepsRegs s (execTwinBootTimeout t s) :=
  keepsRegs_done fun d => by simp [apply_ite Dev.regs, (Dev.twinFails_onlyIn _ _).regs_eq rfl]

theorem execPmPage_regs (n : Fin 2) (w : Option Byte) (s : State) : KeepsRegs s (execPmPage n w s) := by
  have hrecv : (s.d.recvBlock n.val).regs = s.d.regs := (Dev.recvBlock_onlyIn _ _).regs_eq rfl
  refine keepsRegs_next ?_
  cases w with
  | some v => exact ((Dev.pagePut_onlyIn _ _ _).regs_eq rfl).trans hrecv
  | none => exact State.pmRead_regs _ _ _ _

theorem execPmOperation_regs (n : Fin 2) (w : Option Byte) (s : State) : KeepsRegs s (execPmOperation n w s) := by
  refine keepsRegs_next ?_
  cases w with
  | some v => exact Dev.pmWrite_id_regs _ _ _
  | none => exact State.pmRead_regs _ _ _ _

theorem execPmClearFaults_regs (n : Fin 2) (s : State) : KeepsRegs s (execPmClearFaults n s) :=
  keepsRegs_done fun _ => Dev.pmWrite_id_regs _ _ _

theorem execActuationFrame_regs (t : Twin) (cycle : Nat) (errs : List Word32) (s : State) :
    KeepsRegs s (execActuationFrame t cycle errs s) := by
  unfold execActuationFrame
  split
  · refine keepsRegs_done fun d => ?_
    simp [apply_ite Dev.regs, (Dev.takeCopy_onlyIn _ _ _ _).regs_eq rfl, (Dev.sealTick_onlyIn _).regs_eq rfl]
  · exact keepsRegs_fault _ _

theorem execNoValidCopySafeState_regs (s : State) : KeepsRegs s (execNoValidCopySafeState s) :=
  keepsRegs_done fun d => by
    simp [apply_ite Dev.regs, (Dev.enterSafe_onlyIn _ _).regs_eq rfl, (Dev.abandonResync_onlyIn _ _).regs_eq rfl]

theorem execRefclkLoss_regs (s : State) : KeepsRegs s (execRefclkLoss s) :=
  keepsRegs_done fun d => by simp [apply_ite Dev.regs]

theorem execRefclkRelock_regs (s : State) : KeepsRegs s (execRefclkRelock s) :=
  keepsRegs_done fun d => by simp [apply_ite Dev.regs]

theorem execBeaconError_regs (t : Twin) (s : State) : KeepsRegs s (execBeaconError t s) :=
  keepsRegs_done fun d => by simp [(Dev.selfErr_onlyIn _ _ _).regs_eq rfl]

theorem execIslandUnlock_regs (t : Twin) (i : Fin 11) (s : State) : KeepsRegs s (execIslandUnlock t i s) := by
  refine keepsRegs_done fun d => ?_
  split <;> simp

end Sys2Proof.Machine
end

section
/-! PROOF. The commands that write registers, and the invariant of every step. -/

namespace Sys2Proof.Machine

/-- A command that answers a next state keeps the canonical form of the register values in force. -/
def KeepsCanon (s : State) (o : Out) : Prop := ∀ t, o = .next t → s.d.regs.Canon → t.d.regs.Canon

theorem KeepsRegs.keepsCanon {s : State} {o : Out} (k : KeepsRegs s o) : KeepsCanon s o := fun t ht h => by
  rw [k t ht]; exact h

theorem keepsCanon_next {s t : State} (h : s.d.regs.Canon → t.d.regs.Canon) : KeepsCanon s (.next t) := by
  rintro _ ⟨⟩; exact h

theorem keepsCanon_done {s : State} {f : Dev → Dev} (h : ∀ d, d.regs.Canon → (f d).regs.Canon) : KeepsCanon s (done f s) :=
  keepsCanon_next (h s.d)

/-- A command that is one operation, none of whose parts is the register file. -/
theorem keepsCanon_of_onlyIn {s : State} {f : Dev → Dev} {l : List Part} (k : ∀ d, Dev.onlyIn l d (f d))
    (hl : l.contains .regs = false) : KeepsCanon s (done f s) :=
  keepsCanon_done fun d h => (k d).canon hl h

theorem keepsCanon_fault (s : State) (f : Fault) : KeepsCanon s (.fault f) := (keepsRegs_fault s f).keepsCanon

theorem State.recvBlock_canon {s : State} (h : s.d.regs.Canon) (n : Nat) : (s.recvBlock n).d.regs.Canon :=
  (Dev.recvBlock_onlyIn _ _).canon rfl h

theorem execTick_canon (i : TickIn) (s : State) : KeepsCanon s (execTick i s) := by
  unfold execTick
  split
  · exact keepsCanon_done fun d h => Dev.ite_canon (Dev.runTick_canon h i) h
  · exact keepsCanon_fault _ _

theorem execFrondBoundary_canon (i : FrondIn) (s : State) : KeepsCanon s (execFrondBoundary i s) := by
  unfold execFrondBoundary
  split
  · split
    · exact keepsCanon_next fun h => by rw [State.holdsFrond_regs]; exact Dev.runBoundary_canon h i
    · exact keepsCanon_next id
  · exact keepsCanon_fault _ _

theorem execBlkStatusClear_canon (p : Path) (page : Nat) (mask : Word32) (s : State) :
    KeepsCanon s (execBlkStatusClear p page mask s) :=
  keepsCanon_done fun _ h => Dev.closeLock_canon ((Dev.statusWrite_onlyIn _ _ _).canon rfl h) _ _

theorem execBlkLock_canon (p : Path) (page : Nat) (v : Word32) (s : State) : KeepsCanon s (execBlkLock p page v s) :=
  keepsCanon_done fun _ h => Dev.ite_canon (Dev.lockWrite_canon h _ _ _) h

theorem execLockTimeout_canon (p : Path) (page : Nat) (s : State) : KeepsCanon s (execLockTimeout p page s) :=
  keepsCanon_done fun _ h => Dev.ite_canon (Dev.closeLock_canon h _ _) h

theorem execBlkCommit_canon (page : Nat) (s : State) : KeepsCanon s (execBlkCommit page s) :=
  keepsCanon_done fun _ h => Dev.ite_canon (Dev.commitPage_canon h _) h

theorem execRegisterWrite_canon (p : Path) (page off : Nat) (v : Word32) (s : State) :
    KeepsCanon s (execRegisterWrite p page off v s) :=
  keepsCanon_next fun h => State.applyWrite_canon h p page off v.toNat

theorem execSnapHold_canon (p : Path) (n : Fin 2) (v : Word32) (s : State) : KeepsCanon s (execSnapHold p n v s) :=
  keepsCanon_next fun h => Dev.closeLock_canon (by rw [State.snapFrom_regs]; exact h) _ _

theorem execHoldExpired_regs (n : Fin 2) (s : State) : KeepsRegs s (execHoldExpired n s) := by
  unfold execHoldExpired
  extract_lets held left
  refine keepsRegs_next ?_
  split
  · rw [State.upd_d, Dev.occur_regs, State.snapWrite_regs]
  · rfl

theorem execCapRd_canon (v : Word32) (s : State) : KeepsCanon s (execCapRd v s) :=
  keepsCanon_done fun _ h => Dev.capRdWrite_canon h _

theorem execPeatRd_canon (v : Word32) (s : State) : KeepsCanon s (execPeatRd v s) :=
  keepsCanon_done fun _ h => Dev.peatRdWrite_canon h _

theorem execChStart_canon (c : Fin 16) (s : State) : KeepsCanon s (execChStart c s) :=
  keepsCanon_done fun _ h => Dev.ite_canon ((Dev.chStartUp_onlyIn _ _).canon rfl (Dev.setFld_canon h _ _ _ _ _)) h

theorem execChAbort_canon (c : Fin 16) (s : State) : KeepsCanon s (execChAbort c s) :=
  keepsCanon_done fun _ h => Dev.ite_canon ((Dev.chStop_onlyIn _ _).canon rfl (Dev.setFld_canon h _ _ _ _ _)) h

theorem execChPause_canon (c : Fin 16) (s : State) : KeepsCanon s (execChPause c s) :=
  keepsCanon_done fun _ h => Dev.ite_canon ((Dev.chPauseOn_onlyIn _ _).canon rfl (Dev.setFld_canon h _ _ _ _ _)) h

theorem execChResume_canon (c : Fin 16) (s : State) : KeepsCanon s (execChResume c s) :=
  keepsCanon_done fun _ h => Dev.ite_canon ((Dev.chPauseOff_onlyIn _ _).canon rfl (Dev.setFld_canon h _ _ _ _ _)) h

theorem execRowExt_canon (v : Word32) (s : State) : KeepsCanon s (execRowExt v s) :=
  keepsCanon_done fun _ h => Dev.deferWrite_canon h _ _

theorem execExtHoldExpiry_canon (s : State) : KeepsCanon s (execExtHoldExpiry s) :=
  keepsCanon_done fun _ h => Dev.ite_canon (Dev.setFld_canon ((Dev.updMie_onlyIn _ _).canon rfl h) _ _ _ _ _) h

theorem execActivationSwitch_canon (s : State) : KeepsCanon s (execActivationSwitch s) :=
  keepsCanon_done fun _ h =>
    Dev.ite_canon (Dev.ite_canon (Dev.switchNew_canon h) (Dev.ite_canon (Dev.switchOld_canon h) h)) h

theorem execManagementPauseEnd_canon (s : State) : KeepsCanon s (execManagementPauseEnd s) := by
  refine keepsCanon_next fun h => ?_
  split
  · exact State.release_canon ((Dev.pauseEnd_onlyIn _).canon rfl h)
  · exact h

theorem execItemCompletion_canon (s : State) : KeepsCanon s (execItemCompletion s) := by
  refine keepsCanon_next fun h => ?_
  have hdone : (s.upd Dev.completeHead).d.regs.Canon := (Dev.completeHead_onlyIn _).canon rfl h
  split
  · exact State.release_canon hdone
  · exact hdone

theorem execResetRelease_canon (strap0 strap1 : Fin 8) (votes : Nat) (s : State) :
    KeepsCanon s (execResetRelease strap0 strap1 votes s) := by
  refine keepsCanon_next fun h => ?_
  split
  · exact Dev.afterReset_canon _ _ _ _
  · exact h

theorem execPmWriteProtect_canon (n : Fin 2) (w : Option Byte) (s : State) : KeepsCanon s (execPmWriteProtect n w s) := by
  refine keepsCanon_next fun h => ?_
  cases w with
  | some v => exact Dev.wpPut_canon (State.recvBlock_canon h _) _ _
  | none => rw [State.pmRead_regs]; exact h

theorem execPmVoutCommand_canon (n : Fin 2) (w : Option (BitVec 16)) (s : State) : KeepsCanon s (execPmVoutCommand n w s) := by
  refine keepsCanon_next fun h => ?_
  cases w with
  | some v => exact Dev.voutPut_canon (State.recvBlock_canon h _) _ _
  | none => rw [State.pmRead_regs]; exact h

theorem execRegWrite_canon (n : Fin 2) (page off : Nat) (words : List Word32) (s : State) :
    KeepsCanon s (execRegWrite n page off words s) :=
  keepsCanon_next fun h =>
    State.windowCmd_canon (State.recvBlock_canon h _) _ _ (State.windowWrite_canon (State.recvBlock_canon h _) _ _ _ _)

theorem execRegRead_canon (n : Fin 2) (page off k : Nat) (s : State) : KeepsCanon s (execRegRead n page off k s) :=
  keepsCanon_next fun h =>
    State.windowCmd_canon (State.recvBlock_canon h _) _ _ (by rw [State.windowRead_regs]; exact State.recvBlock_canon h _)

theorem execSeqItem_canon (n : Fin 2) (tag seq code : Nat) (args : List Byte) (s : State) :
    KeepsCanon s (execSeqItem n tag seq code args s) :=
  keepsCanon_next fun h =>
    State.windowCmd_canon (State.recvBlock_canon h _) _ _
      ((Dev.windowSeq_onlyIn _ _ _ _ _ _).canon rfl (State.recvBlock_canon h _))

theorem execTwBlock_canon (n : Fin 2) (window : Bool) (bytes : List Byte) (pec : Option Byte) (s : State) :
    KeepsCanon s (execTwBlock n window bytes pec s) := by
  refine keepsCanon_next fun h => ?_
  have hrecv : (s.recvBlock n.val).d.regs.Canon := State.recvBlock_canon h _
  split
  · exact (Dev.drive_onlyIn _ _ _).canon rfl h
  · extract_lets t bad
    split
    · exact (Dev.pecFail_onlyIn _ _ _).canon rfl hrecv
    · cases bytes with
      | nil => exact (Dev.twStop_onlyIn _ _).canon rfl hrecv
      | cons code data =>
        dsimp only
        split
        · exact State.windowBlock_canon hrecv _ _ _
        · exact Dev.pmBlock_canon hrecv _ _ _

/-- Every command keeps the canonical form. -/
theorem exec_canon (c : Instr) (s : State) : KeepsCanon s (exec c s) := by
  cases c with
  | tick _ => exact execTick_canon _ _
  | actuationFrame _ _ _ => exact (execActuationFrame_regs _ _ _ _).keepsCanon
  | noValidCopySafeState => exact (execNoValidCopySafeState_regs _).keepsCanon
  | outboundBlockTx _ _ => exact (execOutboundBlockTx_regs _ _ _).keepsCanon
  | frondBoundary _ => exact execFrondBoundary_canon _ _
  | rowEpochBoundary => exact (execRowEpochBoundary_regs _).keepsCanon
  | blkStatusClear _ _ _ => exact execBlkStatusClear_canon _ _ _ _
  | clearRefusedClear _ => exact (execClearRefusedClear_regs _ _).keepsCanon
  | blkIntForce _ _ => exact keepsCanon_of_onlyIn (fun _ => Dev.occurMask_onlyIn _ _ _) rfl
  | blkLock _ _ _ => exact execBlkLock_canon _ _ _ _
  | lockTimeout _ _ => exact execLockTimeout_canon _ _ _
  | blkCommit _ => exact execBlkCommit_canon _ _
  | registerWrite _ _ _ _ => exact execRegisterWrite_canon _ _ _ _ _
  | refclkLoss => exact (execRefclkLoss_regs _).keepsCanon
  | refclkRelock => exact (execRefclkRelock_regs _).keepsCanon
  | beaconError _ => exact (execBeaconError_regs _ _).keepsCanon
  | vcoreTwinLoss _ => exact keepsCanon_of_onlyIn (fun _ => Dev.loseCore_onlyIn _ _) rfl
  | vcoreSLoss => exact keepsCanon_of_onlyIn (fun _ => Dev.loseCoreS_onlyIn _) rfl
  | regionLoss _ => exact keepsCanon_of_onlyIn (fun _ => Dev.loseRegion_onlyIn _ _) rfl
  | timebaseUnlock _ => exact keepsCanon_of_onlyIn (fun _ => Dev.loseRegion_onlyIn _ _) rfl
  | clusterFault _ => exact (execClusterFault_regs _ _).keepsCanon
  | unitLostReturn _ => exact (execUnitLostReturn_regs _ _).keepsCanon
  | bankSwap => exact (execBankSwap_regs _).keepsCanon
  | hotSwapFullyOn _ => exact (execHotSwapFullyOn_regs _ _).keepsCanon
  | softStartDone _ => exact (execSoftStartDone_regs _ _).keepsCanon
  | softStopDone _ => exact (execSoftStopDone_regs _ _).keepsCanon
  | shortDetect _ => exact (execShortDetect_regs _ _).keepsCanon
  | phaseShed _ => exact (execPhaseShed_regs _ _).keepsCanon
  | shedRamp _ => exact (execShedRamp_regs _ _).keepsCanon
  | shedTri _ => exact (execShedTri_regs _ _).keepsCanon
  | burstStart _ => exact (execBurstStart_regs _ _).keepsCanon
  | fastLimitTrip _ _ => exact (execFastLimitTrip_regs _ _ _).keepsCanon
  | unitOverload _ => exact (execUnitOverload_regs _ _).keepsCanon
  | railOverload _ => exact (execRailOverload_regs _ _).keepsCanon
  | railUv _ => exact (execRailUv_regs _ _).keepsCanon
  | railOv _ => exact (execRailOv_regs _ _).keepsCanon
  | railRetryEnd _ => exact (execRailRetryEnd_regs _ _).keepsCanon
  | railRetryCountReset _ => exact (execRailRetryCountReset_regs _ _).keepsCanon
  | injectionDurationEnd => exact (execInjectionDurationEnd_regs _).keepsCanon
  | capArm => exact keepsCanon_of_onlyIn (fun _ => Dev.capArm_onlyIn _) rfl
  | capForce => exact keepsCanon_of_onlyIn (fun _ => Dev.capForce_onlyIn _) rfl
  | captureFilled => exact (execCaptureFilled_regs _).keepsCanon
  | captureDone => exact (execCaptureDone_regs _).keepsCanon
  | capRd _ => exact execCapRd_canon _ _
  | capReadReady => exact (execCapReadReady_regs _).keepsCanon
  | requestFrame _ _ _ _ _ => exact keepsCanon_of_onlyIn (fun _ => Dev.requestFrame_onlyIn _ _ _ _ _ _) rfl
  | heldRequestDeliver _ => exact keepsCanon_of_onlyIn (fun _ => Dev.updPort_onlyIn _ _ _) rfl
  | stepPortLinkUp _ => exact keepsCanon_of_onlyIn (fun _ => Dev.updPort_onlyIn _ _ _) rfl
  | stepPortLinkDown _ => exact (execStepPortLinkDown_regs _ _).keepsCanon
  | stepUp _ => exact keepsCanon_of_onlyIn (fun _ => Dev.admitCmd_onlyIn _ _ _) rfl
  | stepDown _ => exact keepsCanon_of_onlyIn (fun _ => Dev.admitCmd_onlyIn _ _ _) rfl
  | announce _ => exact keepsCanon_of_onlyIn (fun _ => Dev.admitCmd_onlyIn _ _ _) rfl
  | release _ => exact keepsCanon_of_onlyIn (fun _ => Dev.admitCmd_onlyIn _ _ _) rfl
  | heartbeat _ => exact keepsCanon_of_onlyIn (fun _ => Dev.admitCmd_onlyIn _ _ _) rfl
  | ledgerLeaveConservative => exact (execLedgerLeaveConservative_regs _).keepsCanon
  | stepSettle _ => exact (execStepSettle_regs _ _).keepsCanon
  | reservationExpire _ => exact (execReservationExpire_regs _ _).keepsCanon
  | unannHalving => exact (execUnannHalving_regs _).keepsCanon
  | portStale _ => exact (execPortStale_regs _ _).keepsCanon
  | capLevelFall _ => exact (execCapLevelFall_regs _ _).keepsCanon
  | freezeLong => exact (execFreezeLong_regs _).keepsCanon
  | imonInvalid _ => exact (execImonInvalid_regs _ _).keepsCanon
  | preInvalid _ => exact (execPreInvalid_regs _ _).keepsCanon
  | metrologyResult _ _ => exact (execMetrologyResult_regs _ _ _).keepsCanon
  | refSettled => exact (execRefSettled_regs _).keepsCanon
  | vrefxFallback => exact (execVrefxFallback_regs _).keepsCanon
  | auxStepDone => exact (execAuxStepDone_regs _).keepsCanon
  | auxStale _ => exact (execAuxStale_regs _ _).keepsCanon
  | intmonResult _ => exact (execIntmonResult_regs _ _).keepsCanon
  | calWindowStart => exact (execCalWindowStart_regs _).keepsCanon
  | calTakeover => exact (execCalTakeover_regs _).keepsCanon
  | calReconnect _ => exact (execCalReconnect_regs _ _).keepsCanon
  | calReturn => exact (execCalReturn_regs _).keepsCanon
  | calDisconnect => exact (execCalDisconnect_regs _).keepsCanon
  | calWindowRestart => exact (execCalWindowRestart_regs _).keepsCanon
  | sensCalNow _ => exact keepsCanon_of_onlyIn (fun _ => Dev.calNow_onlyIn _ _) rfl
  | reverseCurrentTrip _ => exact keepsCanon_of_onlyIn (fun _ => Dev.updFeed_onlyIn _ _ _) rfl
  | hotSwapFastTrip _ => exact keepsCanon_of_onlyIn (fun _ => Dev.updHs_onlyIn _ _ _) rfl
  | feedReady _ => exact (execFeedReady_regs _ _).keepsCanon
  | feedInvalid _ => exact (execFeedInvalid_regs _ _).keepsCanon
  | feedFullyOn _ => exact (execFeedFullyOn_regs _ _).keepsCanon
  | feedPowerGood _ => exact (execFeedPowerGood_regs _ _).keepsCanon
  | feedTransfer => exact (execFeedTransfer_regs _).keepsCanon
  | transferDeadEnd => exact (execTransferDeadEnd_regs _).keepsCanon
  | transferInterlockFail => exact (execTransferInterlockFail_regs _).keepsCanon
  | insTimeout _ => exact (execInsTimeout_regs _ _).keepsCanon
  | feedReturn => exact (execFeedReturn_regs _).keepsCanon
  | feedOv _ => exact (execFeedOv_regs _ _).keepsCanon
  | feedRetryEnd _ => exact (execFeedRetryEnd_regs _ _).keepsCanon
  | feedRetryCountReset _ => exact (execFeedRetryCountReset_regs _ _).keepsCanon
  | g1JudgementResume => exact (execG1JudgementResume_regs _).keepsCanon
  | vgdLow => exact (execVgdLow_regs _).keepsCanon
  | hotSwapOnTimeout _ => exact (execHotSwapOnTimeout_regs _ _).keepsCanon
  | hotSwapSlowTrip _ => exact (execHotSwapSlowTrip_regs _ _).keepsCanon
  | countInvalid _ => exact (execCountInvalid_regs _ _).keepsCanon
  | fullAnchor _ => exact (execFullAnchor_regs _ _).keepsCanon
  | emptyAnchor _ => exact (execEmptyAnchor_regs _ _).keepsCanon
  | reserveEntry _ => exact (execReserveEntry_regs _ _).keepsCanon
  | bbuStatusPoll _ _ => exact (execBbuStatusPoll_regs _ _ _).keepsCanon
  | bbuInsertion _ _ => exact (execBbuInsertion_regs _ _ _).keepsCanon
  | bbuRemoval _ => exact (execBbuRemoval_regs _ _).keepsCanon
  | firstEstimate _ => exact (execFirstEstimate_regs _ _).keepsCanon
  | compatSwap _ => exact (execCompatSwap_regs _ _).keepsCanon
  | chgComm _ => exact (execChgComm_regs _ _).keepsCanon
  | twinSilent _ => exact (execTwinSilent_regs _ _).keepsCanon
  | hbPathLost _ _ => exact (execHbPathLost_regs _ _ _).keepsCanon
  | hbPathRestored _ _ => exact (execHbPathRestored_regs _ _ _).keepsCanon
  | twinSelfTestDone _ => exact (execTwinSelfTestDone_regs _ _).keepsCanon
  | restartFail _ => exact (execRestartFail_regs _ _).keepsCanon
  | cutIn _ => exact (execCutIn_regs _ _).keepsCanon
  | probationEnd _ => exact (execProbationEnd_regs _ _).keepsCanon
  | autoRestart _ => exact (execAutoRestart_regs _ _).keepsCanon
  | itemCompletion => exact execItemCompletion_canon _
  | compRd _ => exact keepsCanon_of_onlyIn (fun _ => Dev.moveCompRd_onlyIn _ _) rfl
  | bootSelfTestDone _ _ => exact (execBootSelfTestDone_regs _ _ _).keepsCanon
  | twinBootTimeout _ => exact (execTwinBootTimeout_regs _ _).keepsCanon
  | memberParentMet _ => exact (execMemberParentMet_regs _ _).keepsCanon
  | onDelayEnd _ => exact (execOnDelayEnd_regs _ _).keepsCanon
  | memberQualified _ => exact (execMemberQualified_regs _ _).keepsCanon
  | memberQualTimeout _ => exact (execMemberQualTimeout_regs _ _).keepsCanon
  | memberLossHold _ => exact (execMemberLossHold_regs _ _).keepsCanon
  | offDelayEnd _ => exact (execOffDelayEnd_regs _ _).keepsCanon
  | offConfirmed _ => exact (execOffConfirmed_regs _ _).keepsCanon
  | offFail _ => exact (execOffFail_regs _ _).keepsCanon
  | fhFailedClear _ => exact keepsCanon_of_onlyIn (fun _ => Dev.fhClear_onlyIn _ _) rfl
  | drainingEnd => exact (execDrainingEnd_regs _).keepsCanon
  | offDwellEnd => exact (execOffDwellEnd_regs _).keepsCanon
  | shelfOn => exact (execShelfOn_regs _).keepsCanon
  | shelfOff => exact (execShelfOff_regs _).keepsCanon
  | pbShortPress => exact (execPbShortPress_regs _).keepsCanon
  | pbLongPress => exact (execPbLongPress_regs _).keepsCanon
  | safeNAssert => exact (execSafeNAssert_regs _).keepsCanon
  | mrNReset => exact (execMrNReset_regs _).keepsCanon
  | vauxWarn => exact (execVauxWarn_regs _).keepsCanon
  | vauxMin _ => exact (execVauxMin_regs _ _).keepsCanon
  | vauxReturn => exact (execVauxReturn_regs _).keepsCanon
  | resetRelease _ _ _ => exact execResetRelease_canon _ _ _ _
  | holdLow => exact (execHoldLow_regs _).keepsCanon
  | autoOn => exact (execAutoOn_regs _).keepsCanon
  | rateCheckEnable => exact (execRateCheckEnable_regs _).keepsCanon
  | thermalHoldEnd _ => exact (execThermalHoldEnd_regs _ _).keepsCanon
  | writeHoldEnd => exact (execWriteHoldEnd_regs _).keepsCanon
  | imagePageWriteDone _ => exact (execImagePageWriteDone_regs _ _).keepsCanon
  | peatCtrl _ => exact keepsCanon_of_onlyIn (fun _ => Dev.peatTrig_onlyIn _ _) rfl
  | peatRd _ => exact execPeatRd_canon _ _
  | peatReadReady => exact (execPeatReadReady_regs _).keepsCanon
  | crustProgramDone _ => exact (execCrustProgramDone_regs _ _).keepsCanon
  | twBlock _ _ _ _ => exact execTwBlock_canon _ _ _ _ _
  | regWrite _ _ _ _ => exact execRegWrite_canon _ _ _ _ _
  | regRead _ _ _ _ => exact execRegRead_canon _ _ _ _ _
  | seqItem _ _ _ _ _ => exact execSeqItem_canon _ _ _ _ _ _
  | replyRead _ => exact (execReplyRead_regs _ _).keepsCanon
  | windowTimeout _ => exact (execWindowTimeout_regs _ _).keepsCanon
  | sclHeldTimeout _ => exact (execSclHeldTimeout_regs _ _).keepsCanon
  | sdaReleased _ => exact (execSdaReleased_regs _ _).keepsCanon
  | alertResponse _ => exact (execAlertResponse_regs _ _).keepsCanon
  | pmPage _ _ => exact (execPmPage_regs _ _ _).keepsCanon
  | pmOperation _ _ => exact (execPmOperation_regs _ _ _).keepsCanon
  | pmClearFaults _ => exact (execPmClearFaults_regs _ _).keepsCanon
  | pmWriteProtect _ _ => exact execPmWriteProtect_canon _ _ _
  | pmCapability _ => exact (keepsRegs_next (State.pmRead_regs _ _ _ _)).keepsCanon
  | pmVoutMode _ => exact (keepsRegs_next (State.pmRead_regs _ _ _ _)).keepsCanon
  | pmVoutCommand _ _ => exact execPmVoutCommand_canon _ _ _
  | pmStatusByte _ => exact (keepsRegs_next (State.pmRead_regs _ _ _ _)).keepsCanon
  | pmStatusWord _ => exact (keepsRegs_next (State.pmRead_regs _ _ _ _)).keepsCanon
  | pmStatusVout _ => exact (keepsRegs_next (State.pmRead_regs _ _ _ _)).keepsCanon
  | pmStatusIout _ => exact (keepsRegs_next (State.pmRead_regs _ _ _ _)).keepsCanon
  | pmStatusInput _ => exact (keepsRegs_next (State.pmRead_regs _ _ _ _)).keepsCanon
  | pmStatusTemperature _ => exact (keepsRegs_next (State.pmRead_regs _ _ _ _)).keepsCanon
  | pmStatusCml _ => exact (keepsRegs_next (State.pmRead_regs _ _ _ _)).keepsCanon
  | pmReadVin _ => exact (keepsRegs_next (State.pmRead_regs _ _ _ _)).keepsCanon
  | pmReadIin _ => exact (keepsRegs_next (State.pmRead_regs _ _ _ _)).keepsCanon
  | pmReadVout _ => exact (keepsRegs_next (State.pmRead_regs _ _ _ _)).keepsCanon
  | pmReadIout _ => exact (keepsRegs_next (State.pmRead_regs _ _ _ _)).keepsCanon
  | pmReadTemperature1 _ => exact (keepsRegs_next (State.pmRead_regs _ _ _ _)).keepsCanon
  | pmReadPout _ => exact (keepsRegs_next (State.pmRead_regs _ _ _ _)).keepsCanon
  | pmRevision _ => exact (keepsRegs_next (State.pmRead_regs _ _ _ _)).keepsCanon
  | pmMfrId _ => exact (keepsRegs_next (State.pmRead_regs _ _ _ _)).keepsCanon
  | pmMfrModel _ => exact (keepsRegs_next (State.pmRead_regs _ _ _ _)).keepsCanon
  | pmMfrRevision _ => exact (keepsRegs_next (State.pmRead_regs _ _ _ _)).keepsCanon
  | pmMfrShelf _ => exact (keepsRegs_next (State.pmRead_regs _ _ _ _)).keepsCanon
  | pmMfrBudget _ => exact (keepsRegs_next (State.pmRead_regs _ _ _ _)).keepsCanon
  | pmMfrFaultPages _ => exact (keepsRegs_next (State.pmRead_regs _ _ _ _)).keepsCanon
  | openItem _ _ => exact (execOpenItem_regs _ _ _).keepsCanon
  | clearStatus => exact (execClearStatus_regs _).keepsCanon
  | clearCounter => exact (execClearCounter_regs _).keepsCanon
  | roleSwap => exact (execRoleSwap_regs _).keepsCanon
  | twinRestart => exact (execTwinRestart_regs _).keepsCanon
  | crustWrite => exact (execCrustWrite_regs _).keepsCanon
  | standby => exact (execStandby_regs _).keepsCanon
  | standbyWake _ => exact (execStandbyWake_regs _ _).keepsCanon
  | hostNotify _ _ => exact (execHostNotify_regs _ _ _).keepsCanon
  | hnFail _ => exact (execHnFail_regs _ _).keepsCanon
  | poll _ _ _ => exact (execPoll_regs _ _ _ _).keepsCanon
  | twRetry _ _ => exact (execTwRetry_regs _ _ _).keepsCanon
  | arbLost _ _ _ => exact (execArbLost_regs _ _ _ _).keepsCanon
  | arbCond _ => exact (execArbCond_regs _ _).keepsCanon
  | arbRetry _ => exact (execArbRetry_regs _ _).keepsCanon
  | controllerSclTimeout _ => exact (execControllerSclTimeout_regs _ _).keepsCanon
  | busRecovery _ _ => exact (execBusRecovery_regs _ _ _).keepsCanon
  | mienoLinkUp _ => exact (execMienoLinkUp_regs _ _).keepsCanon
  | mienoLinkDown _ => exact (execMienoLinkDown_regs _ _).keepsCanon
  | linkFrame _ _ _ _ _ _ => exact (execLinkFrame_regs _ _ _ _ _ _ _).keepsCanon
  | duplicateWindowReset _ => exact (execDuplicateWindowReset_regs _ _).keepsCanon
  | budget _ _ => exact (execBudget_regs _ _ _).keepsCanon
  | advert _ _ => exact (execAdvert_regs _ _ _).keepsCanon
  | timeFrame _ _ _ => exact (execTimeFrame_regs _ _ _ _).keepsCanon
  | mienoHeartbeat _ _ => exact (execMienoHeartbeat_regs _ _ _).keepsCanon
  | idConflictClear => exact (execIdConflictClear_regs _).keepsCanon
  | digest _ _ => exact (execDigest_regs _ _ _).keepsCanon
  | fabCommand _ _ => exact (execFabCommand_regs _ _ _).keepsCanon
  | commandReply _ _ => exact (execCommandReply_regs _ _ _).keepsCanon
  | sporeChunk _ _ => exact (execSporeChunk_regs _ _ _).keepsCanon
  | peatReq _ _ => exact (execPeatReq_regs _ _ _).keepsCanon
  | peatData _ _ => exact (execPeatData_regs _ _ _).keepsCanon
  | unknownFrame _ _ => exact (execUnknownFrame_regs _ _ _).keepsCanon
  | mienoHeartbeatTx => exact (execMienoHeartbeatTx_regs _).keepsCanon
  | timeHold => exact (execTimeHold_regs _).keepsCanon
  | timeGo _ => exact keepsCanon_of_onlyIn (fun _ => Dev.timeGo_onlyIn _) rfl
  | tsetHoldExpiry => exact (execTsetHoldExpiry_regs _).keepsCanon
  | digestTx => exact (execDigestTx_regs _).keepsCanon
  | allocate => exact (execAllocate_regs _).keepsCanon
  | shareIncrease => exact (execShareIncrease_regs _).keepsCanon
  | memberSilent _ => exact (execMemberSilent_regs _ _).keepsCanon
  | rowExt _ => exact execRowExt_canon _ _
  | extHoldExpiry => exact execExtHoldExpiry_canon _
  | fabGo _ => exact keepsCanon_of_onlyIn (fun _ => Dev.fabGoWrite_onlyIn _) rfl
  | fabResend => exact (execFabResend_regs _).keepsCanon
  | timedItemExecute => exact (execTimedItemExecute_regs _).keepsCanon
  | chStart _ => exact execChStart_canon _ _
  | chAbort _ => exact execChAbort_canon _ _
  | chPause _ => exact execChPause_canon _ _
  | chResume _ => exact execChResume_canon _ _
  | sessionOpen => exact (execSessionOpen_regs _).keepsCanon
  | sessionClose => exact (execSessionClose_regs _).keepsCanon
  | chunkCtl _ _ => exact keepsCanon_of_onlyIn (fun _ => Dev.chunkCtl_onlyIn _ _ _) rfl
  | sessionIdleTimeout => exact (execSessionIdleTimeout_regs _).keepsCanon
  | sporeCommit _ => exact (execSporeCommit_regs _ _).keepsCanon
  | activate => exact (execActivate_regs _).keepsCanon
  | compareSuspend => exact (execCompareSuspend_regs _).keepsCanon
  | activationSwitch => exact execActivationSwitch_canon _
  | managementPauseEnd => exact execManagementPauseEnd_canon _
  | compareResume => exact (execCompareResume_regs _).keepsCanon
  | confirm => exact (execConfirm_regs _).keepsCanon
  | rollback => exact (execRollback_regs _).keepsCanon
  | confirmTimerExpiry => exact (execConfirmTimerExpiry_regs _).keepsCanon
  | snapHold _ _ _ => exact execSnapHold_canon _ _ _ _
  | holdExpired _ => exact (execHoldExpired_regs _ _).keepsCanon
  | testenHigh => exact (execTestenHigh_regs _).keepsCanon
  | supplyOutOfRange _ => exact (execSupplyOutOfRange_regs _ _).keepsCanon
  | supplyInRange _ => exact (execSupplyInRange_regs _ _).keepsCanon
  | safeNRelease => exact keepsCanon_of_onlyIn (fun _ => Dev.updFh_onlyIn _ _) rfl
  | vgdOkRise => exact keepsCanon_of_onlyIn (fun _ => Dev.updSup_onlyIn _ _) rfl
  | islandUnlock _ _ => exact (execIslandUnlock_regs _ _ _).keepsCanon
  | timebaseRelock _ => exact (execTimebaseRelock_regs _ _).keepsCanon

/-- Settles O6: a step runs the command at the front of the queue, and every command keeps the canonical form. -/
theorem registersStayCanonical : Obligations.RegistersStayCanonical := by
  intro s t h hstep
  unfold step at hstep
  split at hstep
  · cases hstep; exact h
  · exact Dev.regsCanon_iff.mpr (exec_canon _ _ t hstep (Dev.regsCanon_iff.mp h))

end Sys2Proof.Machine
end

section
/-! PROOF. Rules shared by the proofs of chapter 01: completion of a command, lists of parts by number, and status words. -/

namespace Sys2Proof.Machine

/-! ### Completion -/

/-- A command that is one effect on the block completes with the block that the effect answers. -/
theorem completes_done {c : Instr} {s : State} {l : List Part} {P : Dev → Prop} {f : Dev → Dev} {e : Dev} (hc : exec c s = done f s)
    (he : f s.d = e) (hl : Dev.onlyIn l s.d e) (hP : P e) : Completes c s l P := by
  subst he
  exact ⟨_, hc, State.onlyIn_upd s hl, hP⟩

/-- An effect that leaves the block as it is leaves the state as it is. -/
theorem done_self {f : Dev → Dev} {s : State} (h : f s.d = s.d) : done f s = .next s := by
  rw [done_eq, State.upd, h]

/-! ### Bits -/

theorem bitAt_eq_testBit (w i : Nat) : bitAt w i = w.testBit i := by
  rw [bitAt, Nat.testBit_eq_decide_div_mod_eq, Bool.beq_eq_decide_eq]

theorem bitAt_or (a b i : Nat) : bitAt (a ||| b) i = (bitAt a i || bitAt b i) := by
  simp [bitAt_eq_testBit]

theorem bitAt_two_pow (j i : Nat) : bitAt (2 ^ j) i = decide (i = j) := by
  rw [bitAt_eq_testBit, Nat.testBit_two_pow]; exact decide_eq_decide.mpr eq_comm

theorem bitAt_clrBits (v m i : Nat) : bitAt (clrBits v m) i = (bitAt v i && !bitAt m i) := by
  simp only [bitAt_eq_testBit, clrBits, Nat.testBit_xor, Nat.testBit_and]
  cases v.testBit i <;> cases m.testBit i <;> rfl

/-! ### Lists of parts by number -/

theorem sameBut_updAt {α : Type} (l : List α) (i : Nat) (f : α → α) : sameBut i l (updAt l i f) :=
  ⟨updAt_length l i f, fun _ h => updAt_getElem?_other l f h⟩

theorem sameBut_refl {α : Type} (i : Nat) (l : List α) : sameBut i l l := ⟨rfl, fun _ _ => rfl⟩

theorem sameBut_trans {α : Type} {i : Nat} {l m n : List α} (h : sameBut i l m) (k : sameBut i m n) : sameBut i l n :=
  ⟨k.1.trans h.1, fun j hj => (k.2 j hj).trans (h.2 j hj)⟩

/-! ### Status words -/

@[simp] theorem BlkStat.occur_page (b : BlkStat) (bit code : Nat) : (b.occur bit code).page = b.page := by
  unfold BlkStat.occur
  extract_lets m b'
  split
  · rfl
  · split <;> split <;> rfl

theorem BlkStat.occur_status (b : BlkStat) (bit code : Nat) : (b.occur bit code).status = b.status ||| 2 ^ bit := by
  unfold BlkStat.occur
  extract_lets m b'
  split
  · rfl
  · split <;> split <;> rfl

/-- Rewriting the status words of a page leaves those of every other page. -/
theorem statUpd_find {pg q : Nat} {f : BlkStat → BlkStat} (hf : ∀ b, b.page = pg → (f b).page = pg) (l : List BlkStat) :
    ((statUpd pg f l).find? fun b => b.page == q) =
      if q = pg then some (f ((l.find? fun b => b.page == pg).getD (BlkStat.zero pg))) else l.find? fun b => b.page == q := by
  induction l with
  | nil =>
    have hp : (f (BlkStat.zero pg)).page = pg := hf _ rfl
    by_cases h : q = pg
    · simp [statUpd, hp, h]
    · simp [statUpd, hp, h, Ne.symm h]
  | cons b l ih =>
    by_cases hb : b.page = pg
    · have hp := hf b hb
      by_cases h : q = pg
      · simp [statUpd, hb, hp, h]
      · simp [statUpd, hb, hp, h, Ne.symm h]
    · by_cases h : q = pg
      · subst h; simpa [statUpd, hb] using ih
      · rw [if_neg h] at ih; simp [statUpd, hb, List.find?_cons, ih, h]

theorem Dev.statOf_updStat_same (d : Dev) {pg : Nat} {f : BlkStat → BlkStat} (hf : ∀ b, b.page = pg → (f b).page = pg) :
    (d.updStat pg f).statOf pg = f (d.statOf pg) := by
  simp [Dev.statOf, statUpd_find hf]

theorem Dev.statOf_updStat_other (d : Dev) {pg q : Nat} {f : BlkStat → BlkStat} (hf : ∀ b, b.page = pg → (f b).page = pg)
    (h : q ≠ pg) : (d.updStat pg f).statOf q = d.statOf q := by
  simp [Dev.statOf, statUpd_find hf, h]

theorem Dev.statOf_congr {d e : Dev} (h : e.stat = d.stat) (pg : Nat) : e.statOf pg = d.statOf pg := by
  rw [Dev.statOf, h]; rfl

theorem BlkStat.occur_keeps_page (pg bit code : Nat) : ∀ b : BlkStat, b.page = pg → (b.occur bit code).page = pg := by simp

@[simp] theorem Dev.statOf_occurC_same (d : Dev) (pg bit code : Nat) :
    (d.occurC pg bit code).statOf pg = (d.statOf pg).occur bit code :=
  d.statOf_updStat_same (BlkStat.occur_keeps_page pg bit code)

theorem Dev.statOf_occurC_other (d : Dev) {pg q : Nat} (bit code : Nat) (h : q ≠ pg) : (d.occurC pg bit code).statOf q = d.statOf q :=
  d.statOf_updStat_other (BlkStat.occur_keeps_page pg bit code) h

@[simp] theorem Dev.statOf_occur_same (d : Dev) (pg bit : Nat) :
    (d.occur pg bit).statOf pg = (d.statOf pg).occur bit (causeOf pg bit) := d.statOf_occurC_same _ _ _

theorem Dev.statOf_occur_other (d : Dev) {pg q : Nat} (bit : Nat) (h : q ≠ pg) : (d.occur pg bit).statOf q = d.statOf q :=
  d.statOf_occurC_other _ _ h

theorem Dev.recordedC_occurC (d : Dev) (pg bit code : Nat) : d.recordedC (d.occurC pg bit code) pg bit code :=
  ⟨d.statOf_occurC_same _ _ _, fun _ h => d.statOf_occurC_other _ _ h⟩

/-- An occurrence on a block with the status words of `d`. -/
theorem Dev.recordedC_occurC_of {d e : Dev} (h : e.stat = d.stat) (pg bit code : Nat) :
    d.recordedC (e.occurC pg bit code) pg bit code := by
  obtain ⟨hsame, hother⟩ := e.recordedC_occurC pg bit code
  exact ⟨by rw [hsame, Dev.statOf_congr h], fun q hq => by rw [hother q hq, Dev.statOf_congr h]⟩

theorem Dev.recorded_occur_of {d e : Dev} (h : e.stat = d.stat) (pg bit : Nat) : d.recorded (e.occur pg bit) pg bit :=
  Dev.recordedC_occurC_of h _ _ _

/-- What is recorded stays so where other parts change. -/
theorem Dev.recordedC_congr {d e f : Dev} {pg bit code : Nat} (h : f.stat = e.stat) (k : d.recordedC e pg bit code) :
    d.recordedC f pg bit code := by
  obtain ⟨hsame, hother⟩ := k
  exact ⟨by rw [Dev.statOf_congr h, hsame], fun q hq => by rw [Dev.statOf_congr h, hother q hq]⟩

theorem Dev.recorded_congr {d e f : Dev} {pg bit : Nat} (h : f.stat = e.stat) (k : d.recorded e pg bit) : d.recorded f pg bit :=
  Dev.recordedC_congr h k

theorem Dev.recorded_occur (d : Dev) (pg bit : Nat) : d.recorded (d.occur pg bit) pg bit := d.recordedC_occurC _ _ _

end Sys2Proof.Machine
end

section
/-! PROOF. The time base: the tick, the frond boundary and the clocks (R11, R24, R35 to R42, R521). -/

namespace Sys2Proof.Machine

/-- The time base where time is in no part that changes. -/
theorem Dev.onlyIn.time_eq {l : List Part} {d e : Dev} (h : Dev.onlyIn l d e) (hl : l.contains .time = false) : e.time = d.time :=
  h .time (by simpa using hl)

/-! ### Lists of the wrong length -/

/-- Settles O8: each of the three commands tests its lists first. -/
theorem malformedLists : Obligations.MalformedLists :=
  ⟨fun _ i h => if_neg (c := i.wf = true) (by simp [h]), fun _ i h => if_neg (c := i.wf = true) (by simp [h]),
    fun _ _ _ _ h => if_neg h⟩

/-! ### The tick -/

theorem TimeSt.tick_started (t : TimeSt) : t.tick.started = true := by unfold TimeSt.tick; split <;> simp_all

theorem TimeSt.tick_frond (t : TimeSt) : t.tick.frond = t.frond := by unfold TimeSt.tick; split <;> rfl

theorem TimeSt.tick_tseq (t : TimeSt) : t.tick.tseq = if t.started then (t.tseq + 1) % 2 ^ 24 else t.tseq := by
  unfold TimeSt.tick; split <;> rfl

/-- A tick changes the time base by its own advance and by the boundary that falls due after phase 255 (R39). -/
theorem Dev.runTick_time (d : Dev) (i : TickIn) :
    (d.runTick i).time = { d.time.tick with frondDue := d.time.tick.tseq % 256 == 255 } := by
  have hbefore : ∀ c : Prop, [Decidable c] → ((if c then d.closeTick else d.closeTick.newTick).tickApply i).time = d.time := by
    intro c _
    rw [(Dev.tickApply_onlyIn _ i).time_eq rfl, apply_ite Dev.time, (Dev.newTick_onlyIn _).time_eq rfl, ite_self,
      (Dev.closeTick_onlyIn d).time_eq rfl]
  have hafter : ∀ (e : Dev) (drv : Nat), (((e.tickSense i drv).railsTick).tickWork i).time = e.time := by
    intro e drv
    rw [(Dev.tickWork_onlyIn _ i).time_eq rfl, (Dev.railsTick_onlyIn _).time_eq rfl, (Dev.tickSense_onlyIn _ i drv).time_eq rfl]
  simp only [Dev.runTick, Dev.phase, hafter, hbefore]

theorem execTick_runs {s : State} {i : TickIn} (hi : i.wf = true) (hr : s.d.sup.inReset = false) (hs : s.d.sup.standby = false)
    (hf : s.d.time.frondDue = false) : exec (.tick i) s = .next { s with d := s.d.runTick i } := by
  change execTick i s = _
  simp [execTick, hi, Dev.ticks, hr, hs, hf, State.upd]

theorem execTick_idles {s : State} {i : TickIn} (hi : i.wf = true)
    (h : s.d.sup.inReset = true ∨ s.d.sup.standby = true ∨ s.d.time.frondDue = true) : exec (.tick i) s = .next s := by
  change execTick i s = _
  have hticks : s.d.ticks = false := by
    obtain h | h | h := h <;> simp [Dev.ticks, h]
  rw [execTick, if_pos hi]
  exact done_self (by simp [hticks])

/-- Settles O9: the time base of a tick, and the parts that no step of it changes. -/
theorem tickAdvancesTime : Obligations.TickAdvancesTime := by
  refine ⟨fun s i hi hr hs hf => ⟨_, execTick_runs hi hr hs hf, rfl, rfl, rfl, rfl, ?_⟩, fun s i hi h => execTick_idles hi h⟩
  have htime := s.d.runTick_time i
  have hkeep := Dev.runTick_onlyIn s.d i
  simp only [htime, TimeSt.tick_started, TimeSt.tick_frond, TimeSt.tick_tseq, beq_iff_eq, true_and]
  exact ⟨hkeep .sup (by decide), hkeep .ident (by decide), hkeep .crust (by decide), hkeep .live (by decide),
    hkeep .sramS (by decide), hkeep .twC (by decide)⟩

end Sys2Proof.Machine
end

section
/-! PROOF. The frond boundary and the clocks' events (R24, R35, R38, R39, R42, R521). -/

namespace Sys2Proof.Machine

/-! ### The frond boundary -/

/-- What of the time base counts ticks and fronds. -/
def TimeSt.counts (t : TimeSt) : Nat × Nat × Nat := (t.tseq, t.ticks, t.frond)

theorem Dev.onlyIn.counts_eq {l : List Part} {d e : Dev} (h : Dev.onlyIn l d e) (hl : l.contains .time = false) :
    e.time.counts = d.time.counts := by rw [h.time_eq hl]

theorem Dev.ite_counts {c : Prop} [Decidable c] {d e : Dev} (h : e.time.counts = d.time.counts) :
    (if c then e else d).time.counts = d.time.counts := by
  split
  · exact h
  · rfl

theorem Dev.regionFrond_counts (d : Dev) : d.regionFrond.time.counts = d.time.counts := by
  unfold Dev.regionFrond
  extract_lets t d1 x1 x2 d2
  have h2 : d2.time.counts = d1.time.counts := Dev.ite_counts rfl
  refine Eq.trans ?_ h2
  exact Dev.ite_counts rfl

theorem Dev.epochFrond_counts (d : Dev) : d.epochFrond.time.counts = d.time.counts := by
  unfold Dev.epochFrond
  extract_lets n cross e f
  repeat' split
  all_goals rfl

theorem Dev.standbyFrond_counts (d : Dev) : d.standbyFrond.time.counts = d.time.counts := by
  unfold Dev.standbyFrond
  extract_lets e f
  repeat' split
  all_goals rfl

/-- The work of a boundary leaves the counts of ticks and fronds, which only the new frond advances. -/
theorem Dev.boundaryWork_counts (d : Dev) (i : FrondIn) : (d.boundaryWork i).time.counts = d.time.counts := by
  have hsetp : ∀ e : Dev, (foldN 4 (fun d r => d.setpFrond i r) e).time = e.time := fun e =>
    (foldN_onlyIn 4 (fun d r => d.setpFrond i r) e fun x r => Dev.setpFrond_onlyIn x i r).time_eq rfl
  unfold Dev.boundaryWork
  extract_lets d1 d2 d3 d4 d5 d6
  have h1 : d1.time.counts = d.time.counts := by rw [hsetp]
  have h2 : d2.time.counts = d1.time.counts := by
    rw [(Dev.holdFrond_onlyIn _).counts_eq rfl, Dev.regionFrond_counts, (Dev.pbFrond_onlyIn _).counts_eq rfl,
      (Dev.thermFrond_onlyIn _ _ _).counts_eq rfl, (Dev.meansFrond_onlyIn _).counts_eq rfl]
  have h3 : d3.time.counts = d2.time.counts := by
    rw [(Dev.calBoundary_onlyIn _).counts_eq rfl, (Dev.agesFrond_onlyIn _).counts_eq rfl]
  have h4 : d4.time.counts = d3.time.counts := by
    rw [(Dev.tierFrond_onlyIn _).counts_eq rfl, (Dev.placeCharges_onlyIn _).counts_eq rfl, (Dev.bbuFrond_onlyIn _).counts_eq rfl,
      (Dev.admFrond_onlyIn _).counts_eq rfl]
  have h5 : d5.time.counts = d4.time.counts := by
    rw [(Dev.dmaFrond_onlyIn _).counts_eq rfl, (Dev.rowFrond_onlyIn _).counts_eq rfl, Dev.epochFrond_counts,
      (Dev.timeFrond_onlyIn _).counts_eq rfl, (Dev.linkFrond_onlyIn _).counts_eq rfl]
  have h6 : d6.time.counts = d5.time.counts := by
    rw [(Dev.twFrond_onlyIn _).counts_eq rfl, (Dev.fabFrond_onlyIn _).counts_eq rfl]
  rw [Dev.standbyFrond_counts, (Dev.peatStanding_onlyIn _).counts_eq rfl, (Dev.settingsFrond_onlyIn _).counts_eq rfl, h6, h5, h4, h3,
    h2, h1]

/-- The block before its new frond begins: the end of the tick, the commits and the work of the boundary. -/
def Dev.beforeNewFrond (d : Dev) (i : FrondIn) : Dev := (d.closeTick.newTick.boundaryCommit i).boundaryWork i

theorem Dev.beforeNewFrond_counts (d : Dev) (i : FrondIn) : (d.beforeNewFrond i).time.counts = d.time.counts := by
  rw [Dev.beforeNewFrond, Dev.boundaryWork_counts, (Dev.boundaryCommit_onlyIn _ i).counts_eq rfl, (Dev.newTick_onlyIn _).counts_eq rfl,
    (Dev.closeTick_onlyIn d).counts_eq rfl]

theorem Dev.beforeNewFrond_ident (d : Dev) (i : FrondIn) : (d.beforeNewFrond i).ident = d.ident := by
  have h1 := Dev.boundaryWork_onlyIn (d.closeTick.newTick.boundaryCommit i) i .ident (by decide)
  have h2 := Dev.boundaryCommit_onlyIn d.closeTick.newTick i .ident (by decide)
  have h3 := Dev.newTick_onlyIn d.closeTick .ident (by decide)
  exact h1.trans (h2.trans (h3.trans (Dev.closeTick_onlyIn d .ident (by decide))))

theorem Dev.newFrond_time (d : Dev) :
    d.newFrond.time = { d.time with frond := (d.time.frond + 1) % 2 ^ 32, frondDue := false } := by
  unfold Dev.newFrond; split <;> rfl

theorem Dev.newFrond_takes (d : Dev) : d.newFrond.ident.take0 = d.ident.take0 ∧ d.newFrond.ident.take1 = d.ident.take1 := by
  unfold Dev.newFrond; split <;> exact ⟨rfl, rfl⟩

/-- The holds at a boundary change of the block the counts of the holds only. -/
theorem State.holdsFrond_d (s : State) : ∃ x, s.holdsFrond.d = { s.d with ident := x } := by
  unfold State.holdsFrond; dsimp only; split <;> exact ⟨_, rfl⟩

theorem State.holdsFrond_keeps (s : State) : s.holdsFrond.snap = s.snap ∧ s.holdsFrond.pending = s.pending := by
  unfold State.holdsFrond; dsimp only; split <;> exact ⟨rfl, rfl⟩

theorem State.holdsFrond_standby {s : State} (h : s.d.sup.standby = true) : s.holdsFrond.held0 = none ∧ s.holdsFrond.held1 = none := by
  simp [State.holdsFrond, h]

theorem State.holdsFrond_taken {s : State} (h : s.d.sup.standby = false) :
    s.holdsFrond.held0 = (if s.d.ident.take0 then some s.d else s.held0) ∧
      s.holdsFrond.held1 = (if s.d.ident.take1 then some s.d else s.held1) := by
  simp [State.holdsFrond, h]

/-- The state whose block and snapshot are `d`. -/
def State.showing (s : State) (d : Dev) : State := { s with d := d, snap := d }

theorem execFrondBoundary_due {s : State} {i : FrondIn} (hi : i.wf = true) (h : s.d.time.frondDue = true) :
    exec (.frondBoundary i) s = .next (s.showing (s.d.beforeNewFrond i).newFrond).holdsFrond := by
  change execFrondBoundary i s = _
  rw [execFrondBoundary, if_pos hi, if_pos h]
  rfl

/-- Settles O10: the new frond on the block as the boundary's work leaves it, and the holds of that block. -/
theorem frondBoundaryTakesSnapshot : Obligations.FrondBoundaryTakesSnapshot := by
  refine ⟨fun s i hi hdue => ?_, fun s i hi hdue => ?_⟩
  · have hcounts := s.d.beforeNewFrond_counts i
    simp only [TimeSt.counts, Prod.mk.injEq] at hcounts
    obtain ⟨htseq, hticks, hfrond⟩ := hcounts
    have htime := (s.d.beforeNewFrond i).newFrond_time
    obtain ⟨htake0, htake1⟩ := (s.d.beforeNewFrond i).newFrond_takes
    rw [Dev.beforeNewFrond_ident] at htake0 htake1
    refine ⟨_, execFrondBoundary_due hi hdue, ?_⟩
    generalize (s.d.beforeNewFrond i).newFrond = e at htime htake0 htake1
    obtain ⟨x, hd⟩ := (s.showing e).holdsFrond_d
    obtain ⟨hsnap, hpending⟩ := (s.showing e).holdsFrond_keeps
    have hstandby : (s.showing e).holdsFrond.d.sup = e.sup := by rw [hd]; rfl
    have htime' : (s.showing e).holdsFrond.d.time = e.time := by rw [hd]; rfl
    have hview : (s.showing e).holdsFrond.d = { (s.showing e).holdsFrond.snap with ident := x } := by rw [hsnap]; exact hd
    rw [htime', htime, hstandby]
    refine ⟨hpending, rfl, congrArg (fun n => (n + 1) % 2 ^ 32) hfrond, ?_, ?_, ⟨x, hview⟩,
      State.holdsFrond_standby (s := s.showing e), fun h => ?_⟩
    · dsimp only; exact htseq
    · dsimp only; exact hticks
    obtain ⟨h0, h1⟩ := State.holdsFrond_taken (s := s.showing e) h
    rw [hsnap, ← htake0, ← htake1]
    exact ⟨h0, h1⟩
  · change execFrondBoundary i s = _
    rw [execFrondBoundary, if_pos hi, if_neg (by simp [hdue])]

/-! ### The clocks -/

theorem Dev.twinOf_updTwin_same (d : Dev) (t : Twin) (f : TwinSt → TwinSt) : (d.updTwin t f).twinOf t = f (d.twinOf t) := by
  cases t <;> rfl

theorem Dev.twinOf_updTwin_other (d : Dev) {t u : Twin} (f : TwinSt → TwinSt) (h : u ≠ t) :
    (d.updTwin t f).twinOf u = d.twinOf u := by
  cases t <;> cases u
  case a.a | b.b => exact absurd rfl h
  case a.b | b.a => rfl

/-- Clearing the bit of one island leaves the bits of the others. -/
theorem bitAt_clrBits_two_pow (v : Nat) (i j : Fin 11) : bitAt (clrBits v (2 ^ i.val)) j = (bitAt v j && !decide (j = i)) := by
  rw [bitAt_clrBits, bitAt_two_pow]; simp [Fin.ext_iff]

/-- Settles O12: each event is one update and one occurrence. -/
theorem clockEvents : Obligations.ClockEvents := by
  refine ⟨fun s h => ?_, fun s h => ?_, fun s t => ?_, fun s t i => ?_⟩
  · have hn : ¬ s.d.time.holdover = true := by simp [h]
    refine completes_done rfl (if_neg hn) ?_ ⟨rfl, ?_⟩
    · exact Dev.onlyIn_via (Dev.occur_onlyIn _ _ _) (by decide) (Dev.onlyIn_put_time (Dev.onlyIn_refl _ _) (by decide))
    · exact Dev.recorded_occur_of rfl _ _
  · exact completes_done rfl (if_pos h) (Dev.onlyIn_put_time (Dev.onlyIn_refl _ _) (by decide)) rfl
  · refine completes_done rfl rfl ?_ ⟨?_, ?_, fun u hu => ?_⟩
    · exact Dev.onlyIn_via (Dev.updTwin_onlyIn _ _ _) (by decide) (Dev.onlyIn_mono (Dev.occur_onlyIn _ _ _) (by decide))
    · exact Dev.recorded_congr (Dev.updTwin_stat _ _ _) (by cases t <;> exact s.d.recorded_occur _ _)
    · exact Dev.twinOf_updTwin_same _ _ _
    · exact Dev.twinOf_updTwin_other _ _ hu
  · refine completes_done rfl rfl ?_ ⟨?_, fun j => ?_⟩
    · refine Dev.onlyIn_via (Dev.occur_onlyIn _ _ _) (by decide) ?_
      cases t <;> exact Dev.onlyIn_put_time (Dev.onlyIn_refl _ _) (by decide)
    · cases t <;> exact Dev.recorded_occur_of rfl _ _
    · cases t <;> simp [bitAt_clrBits_two_pow]

end Sys2Proof.Machine
end

section
/-! PROOF. Locks, commits, status clears and the holds of the snapshot (R23, R28, R30, R480 to R486, R521). -/

namespace Sys2Proof.Machine

/-! ### Locks and commits -/

theorem mem_closeLock {d : Dev} {p : Path} {pg : Nat} {l : Lock} :
    l ∈ (d.closeLock p pg).regs.locks ↔ l ∈ d.regs.locks ∧ ¬ (l.path = p ∧ l.page = pg) := by
  simp only [Dev.closeLock, List.mem_filter, Bool.not_eq_true', Bool.and_eq_false_iff, beq_eq_false_iff_ne, ne_eq, not_and_or]

/-- A write of BLK_LOCK closes the path's lock, and with 0x5A opens it at the present tick. -/
theorem mem_lockWrite {d : Dev} {p : Path} {pg v : Nat} {l : Lock} :
    l ∈ (d.lockWrite p pg v).regs.locks ↔
      (v % 256 = 0x5A ∧ l = ⟨p, pg, d.now⟩) ∨ (l ∈ d.regs.locks ∧ ¬ (l.path = p ∧ l.page = pg)) := by
  rw [Dev.lockWrite]
  by_cases h : v % 256 = 0x5A
  · dsimp only
    rw [if_pos h]
    change l ∈ ⟨p, pg, d.now⟩ :: (d.closeLock p pg).regs.locks ↔ _
    rw [List.mem_cons, mem_closeLock]
    simp [h]
  · dsimp only
    rw [if_neg h, mem_closeLock]
    simp [h]

theorem Dev.lockWrite_regs (d : Dev) (p : Path) (pg v : Nat) : ∃ l, (d.lockWrite p pg v).regs = { d.regs with locks := l } := by
  unfold Dev.lockWrite; dsimp only; split <;> exact ⟨_, rfl⟩

/-- The commit that a write of BLK_COMMIT leaves (R23). -/
def Dev.newCommit (d : Dev) (pg : Nat) : Commit := ⟨pg, if d.lateInFrond then 2 else 1, none⟩

theorem Dev.commitPage_waiting {d : Dev} {pg : Nat} (h : d.newCommit pg ∈ d.regs.commits) : d.commitPage pg = d :=
  if_pos (List.any_eq_true.mpr ⟨_, h, by simp [Dev.newCommit]⟩)

theorem Dev.commitPage_new {d : Dev} {pg : Nat} (h : d.newCommit pg ∉ d.regs.commits) :
    d.commitPage pg = { d with regs := { d.regs with commits := d.regs.commits ++ [d.newCommit pg] } } := by
  refine if_neg fun hany => h ?_
  obtain ⟨⟨page, wait, sampled⟩, hmem, hc⟩ := List.any_eq_true.mp hany
  simp only [Bool.and_eq_true, beq_iff_eq, Option.isNone_iff_eq_none] at hc
  obtain ⟨⟨rfl, rfl⟩, rfl⟩ := hc
  exact hmem

/-- Settles O29: which locks and which commits each of the three commands leaves. -/
theorem locksAndCommits : Obligations.LocksAndCommits := by
  refine ⟨fun s p pg v h => ?_, fun s p pg h => ?_, fun s pg h => ?_⟩
  · have hrow : (regRow pg 0x18).isSome = true := Option.isSome_iff_ne_none.mpr h
    refine completes_done rfl (if_pos hrow) (Dev.lockWrite_onlyIn _ _ _ _) ⟨Dev.lockWrite_regs _ _ _ _, fun l hl => ?_, fun l hp hg => ?_⟩
    · rw [mem_lockWrite]
      have hne : l ≠ ⟨p, pg, s.d.now⟩ := by rintro rfl; exact hl ⟨rfl, rfl⟩
      simp [hl, hne]
    · subst hp hg
      obtain ⟨path, page, since⟩ := l
      simp [mem_lockWrite]
  · obtain ⟨l, hl, hp, hg, hage⟩ := h
    have hdue : (s.d.regs.locks.any fun l => l.path == p && l.page == pg && decide (l.since + 256 ≤ s.d.now)) = true :=
      List.any_eq_true.mpr ⟨l, hl, by simp [hp, hg, hage]⟩
    exact completes_done rfl (if_pos hdue) (Dev.closeLock_onlyIn _ _ _) ⟨⟨_, rfl⟩, fun _ => mem_closeLock⟩
  · have hrow : (regRow pg 0x1C).isSome = true := Option.isSome_iff_ne_none.mpr h
    refine completes_done rfl (if_pos hrow) (Dev.commitPage_onlyIn _ _) ?_
    change (∃ l, (s.d.commitPage pg).regs = { s.d.regs with commits := l }) ∧ s.d.newCommit pg ∈ (s.d.commitPage pg).regs.commits ∧
      (s.d.newCommit pg ∈ s.d.regs.commits → (s.d.commitPage pg).regs = s.d.regs) ∧
      ∀ x, x ≠ s.d.newCommit pg → (x ∈ (s.d.commitPage pg).regs.commits ↔ x ∈ s.d.regs.commits)
    by_cases hw : s.d.newCommit pg ∈ s.d.regs.commits
    · rw [Dev.commitPage_waiting hw]
      exact ⟨⟨_, rfl⟩, hw, fun _ => rfl, fun _ _ => Iff.rfl⟩
    · rw [Dev.commitPage_new hw]
      exact ⟨⟨_, rfl⟩, by simp, fun hmem => absurd hmem hw, fun x hx => by simp [hx]⟩

/-! ### Status clears -/

/-- A mask built of the numbers below `n` for which `p` holds has just their bits. -/
theorem bitAt_maskWhere (n : Nat) (p : Nat → Bool) (i : Nat) : bitAt (maskWhere n p) i = (decide (i < n) && p i) := by
  unfold maskWhere upto
  induction n with
  | zero => simp [bitAt_eq_testBit]
  | succ n ih =>
    rw [List.range_succ, List.foldl_append]
    by_cases hp : p n
    · simp only [List.foldl_cons, List.foldl_nil, hp, if_true, bitAt_or, ih, bitAt_two_pow]
      by_cases hi : i = n
      · simp [hi, hp]
      · simp [hi, show i < n + 1 ↔ i < n by omega]
    · rw [List.foldl_cons, List.foldl_nil, if_neg hp, ih]
      by_cases hi : i = n
      · simp [hi, hp]
      · simp [show i < n + 1 ↔ i < n by omega]

theorem BlkStat.clear_page (b : BlkStat) (mask refuse : Nat) : (b.clear mask refuse).page = b.page := by
  unfold BlkStat.clear; extract_lets st ref b'; split <;> rfl

theorem BlkStat.clear_status (b : BlkStat) (mask refuse : Nat) :
    (b.clear mask refuse).status = clrBits b.status (clrBits mask refuse) := by
  unfold BlkStat.clear; extract_lets st ref b'; split <;> rfl

theorem BlkStat.clear_refused (b : BlkStat) (mask refuse : Nat) :
    (b.clear mask refuse).clearRefused = (b.clearRefused || (mask &&& refuse &&& b.status) != 0) := by
  unfold BlkStat.clear; extract_lets st ref b'; split <;> rfl

/-- Every page to whose clears a chapter ties an effect is one of the control plane. -/
theorem Dev.afterClear_eq {d : Dev} {pg : Nat} (cleared : Nat) (h : controlPage pg = false) : d.afterClear pg cleared = d := by
  have hunits : ¬ (0x30 ≤ pg ∧ pg < 0x70) := by
    have hall : ∀ n < 0x40, controlPage (0x30 + n) = true := by decide
    rintro ⟨hlo, hhi⟩
    have := hall (pg - 0x30) (by omega)
    rw [show 0x30 + (pg - 0x30) = pg by omega, h] at this
    exact absurd this (by decide)
  have hrails : ¬ (0x28 ≤ pg ∧ pg < 0x2C) := by
    have hall : ∀ n < 4, controlPage (0x28 + n) = true := by decide
    rintro ⟨hlo, hhi⟩
    have := hall (pg - 0x28) (by omega)
    rw [show 0x28 + (pg - 0x28) = pg by omega, h] at this
    exact absurd this (by decide)
  have hpage : ∀ q, controlPage q = true → pg ≠ q := by
    rintro q hq rfl; rw [h] at hq; exact absurd hq (by decide)
  rw [Dev.afterClear, if_neg hunits, if_neg hrails, if_neg (hpage 0x80 (by decide)), if_neg (hpage 0x98 (by decide)),
    if_neg (hpage 0xA8 (by decide))]

/-- The bits of a number that are not 0 are found below any bound on their places. -/
theorem and_maskWhere_ne_zero (v n : Nat) (p : Nat → Bool) :
    ((v &&& maskWhere n p) != 0) = (List.range n).any fun i => bitAt v i && p i := by
  rw [Bool.eq_iff_iff, bne_iff_ne, List.any_eq_true]
  constructor
  · intro h
    obtain ⟨i, hi⟩ := Nat.exists_testBit_of_ne_zero h
    rw [Nat.testBit_and, Bool.and_eq_true, ← bitAt_eq_testBit, ← bitAt_eq_testBit, bitAt_maskWhere, Bool.and_eq_true,
      decide_eq_true_eq] at hi
    obtain ⟨hv, hlt, hp⟩ := hi
    exact ⟨i, List.mem_range.mpr hlt, by rw [hv, hp]; rfl⟩
  · rintro ⟨i, hlt, hi⟩ h0
    obtain ⟨hv, hp⟩ := Bool.and_eq_true_iff.mp hi
    have hbit : bitAt (v &&& maskWhere n p) i = true := by
      rw [bitAt_eq_testBit, Nat.testBit_and, ← bitAt_eq_testBit, ← bitAt_eq_testBit, bitAt_maskWhere, hv, hp]
      simpa using hlt
    rw [h0, bitAt_eq_testBit, Nat.zero_testBit] at hbit
    exact absurd hbit (by decide)

/-- A clear that acts at once, on a page without further effect of a clear. -/
theorem Dev.clearNow_eq {d : Dev} {pg : Nat} (mask newOcc : Nat) (h : controlPage pg = false) :
    d.clearNow pg mask newOcc = d.updStat pg fun b => b.clear mask (newOcc ||| maskWhere (statusBits pg) (d.persists pg)) :=
  Dev.afterClear_eq _ h

theorem Dev.statusWrite_control {d : Dev} {pg : Nat} (mask : Nat) (hbits : statusBits pg ≠ 0) (h : controlPage pg = true) :
    d.statusWrite pg mask =
      d.updStat pg fun b => { b with pend := b.pend ++ [⟨mask, if d.lateInFrond then 2 else 1, 0, false⟩] } := by
  rw [Dev.statusWrite, if_neg hbits, Dev.clearRequest, if_pos h]

theorem Dev.statusWrite_atOnce {d : Dev} {pg : Nat} (mask : Nat) (hbits : statusBits pg ≠ 0) (h : controlPage pg = false) :
    d.statusWrite pg mask = d.updStat pg fun b => b.clear mask (maskWhere (statusBits pg) (d.persists pg)) := by
  rw [Dev.statusWrite, if_neg hbits, Dev.clearRequest, if_neg (by simp [h]), Dev.clearNow_eq _ _ h, Nat.zero_or]

/-- A write of BLK_STATUS changes the status words of its page only. -/
theorem Dev.statusWrite_updStat {d : Dev} {pg : Nat} (mask : Nat) (hbits : statusBits pg ≠ 0) :
    ∃ f : BlkStat → BlkStat, (∀ b, b.page = pg → (f b).page = pg) ∧ d.statusWrite pg mask = d.updStat pg f := by
  cases h : controlPage pg
  · exact ⟨_, fun b hb => (b.clear_page _ _).trans hb, Dev.statusWrite_atOnce mask hbits h⟩
  · exact ⟨fun b => { b with pend := b.pend ++ [⟨mask, if d.lateInFrond then 2 else 1, 0, false⟩] }, fun _ hb => hb,
      Dev.statusWrite_control mask hbits h⟩

/-- What a clear leaves of a status bit, and when it shows as refused (R484). -/
theorem BlkStat.clear_bits (b : BlkStat) (mask n : Nat) (p : Nat → Bool) :
    (∀ i, i < n → bitAt (b.clear mask (maskWhere n p)).status i = (bitAt b.status i && (!bitAt mask i || p i))) ∧
      (b.clear mask (maskWhere n p)).clearRefused =
        (b.clearRefused || (List.range n).any fun i => bitAt b.status i && bitAt mask i && p i) := by
  refine ⟨fun i hi => ?_, ?_⟩
  · rw [BlkStat.clear_status, bitAt_clrBits, bitAt_clrBits, bitAt_maskWhere]
    simp [hi]
  · have hcomm : mask &&& maskWhere n p &&& b.status = (b.status &&& mask) &&& maskWhere n p := by
      rw [Nat.and_comm, ← Nat.and_assoc]
    rw [BlkStat.clear_refused, hcomm, and_maskWhere_ne_zero]
    simp [bitAt_eq_testBit]

/-! ### Forced bits -/

/-- Occurrences of several bits of a page, in order, on its status words. -/
def BlkStat.occurs (pg : Nat) (b : BlkStat) (l : List Nat) : BlkStat := l.foldl (fun b i => b.occur i (causeOf pg i)) b

theorem BlkStat.occurs_status (pg : Nat) (l : List Nat) (b : BlkStat) (i : Nat) :
    bitAt (b.occurs pg l).status i = (bitAt b.status i || l.contains i) := by
  induction l generalizing b with
  | nil => simp [BlkStat.occurs]
  | cons j l ih =>
    change bitAt ((b.occur j (causeOf pg j)).occurs pg l).status i = _
    rw [ih, BlkStat.occur_status, bitAt_or, bitAt_two_pow, List.contains_cons, Bool.or_assoc]
    rfl

/-- The occurrences of a mask are those of its bits, lowest first, on the status words of the page. -/
theorem Dev.foldl_occur_statOf (pg : Nat) (p : Nat → Bool) (l : List Nat) (d : Dev) :
    let e := l.foldl (fun d i => if p i then d.occur pg i else d) d
    e.statOf pg = (d.statOf pg).occurs pg (l.filter p) ∧ ∀ q, q ≠ pg → e.statOf q = d.statOf q := by
  induction l generalizing d with
  | nil => exact ⟨rfl, fun _ _ => rfl⟩
  | cons i l ih =>
    obtain ⟨hsame, hother⟩ := ih (if p i then d.occur pg i else d)
    refine ⟨hsame.trans ?_, fun q hq => (hother q hq).trans ?_⟩
    · by_cases h : p i
      · rw [if_pos h, List.filter_cons_of_pos h, Dev.statOf_occur_same]; rfl
      · rw [if_neg h, List.filter_cons_of_neg h]
    · by_cases h : p i
      · rw [if_pos h, Dev.statOf_occur_other _ _ hq]
      · rw [if_neg h]

/-- Settles O30: a clear's effect on the page's status words, at once or at its boundary, and the forced bits. -/
theorem statusClears : Obligations.StatusClears := by
  refine ⟨fun s p pg mask hbits => ?_, fun s pg hbits => ?_, fun s pg mask => ?_⟩
  · obtain ⟨f, hf, heq⟩ := Dev.statusWrite_updStat (d := s.d) mask.toNat hbits
    refine completes_done rfl rfl ?_ ⟨by rw [heq]; rfl, fun q hq => ?_, ?_⟩
    · rw [heq]
      exact Dev.onlyIn_via (Dev.closeLock_onlyIn _ _ _) (by decide) (Dev.onlyIn_mono (Dev.updStat_onlyIn _ _ _) (by decide))
    · rw [heq]
      exact s.d.statOf_updStat_other hf hq
    · split
      case isTrue h =>
        rw [Dev.statusWrite_control mask.toNat hbits h]
        exact s.d.statOf_updStat_same fun _ hb => hb
      case isFalse h =>
        have hclear : ((s.d.statusWrite pg mask.toNat).closeLock p pg).statOf pg =
            (s.d.statOf pg).clear mask.toNat (maskWhere (statusBits pg) (s.d.persists pg)) := by
          rw [Dev.statusWrite_atOnce mask.toNat hbits (by simpa using h)]
          exact s.d.statOf_updStat_same fun b hb => (b.clear_page _ _).trans hb
        simp only [Dev.stBit, Dev.status, hclear]
        exact (s.d.statOf pg).clear_bits _ _ _
  · refine completes_done rfl (if_neg hbits) (Dev.updStat_onlyIn _ _ _) ⟨?_, fun q hq => ?_⟩
    · exact s.d.statOf_updStat_same fun _ hb => hb
    · exact s.d.statOf_updStat_other (fun _ hb => hb) hq
  · obtain ⟨hsame, hother⟩ := Dev.foldl_occur_statOf pg (bitAt mask.toNat) (upto (statusBits pg)) s.d
    refine completes_done rfl rfl (Dev.occurMask_onlyIn _ _ _) ⟨hother, hsame, fun i hi hm => ?_⟩
    have hbit := BlkStat.occurs_status pg ((upto (statusBits pg)).filter (bitAt mask.toNat)) (s.d.statOf pg) i
    rw [← hsame] at hbit
    refine hbit.trans ?_
    simp [hi, hm]

/-! ### Holds of the snapshot -/

/-- A write of HOLD changes the request of its hold in the identity page. -/
def IdentSt.holdPut (x : IdentSt) (n : Nat) (h : Bool) : IdentSt :=
  if n = 0 then { x with req0 := h, take0 := h } else { x with req1 := h, take1 := h }

theorem State.snapWrite_d (s : State) (n v : Nat) :
    (s.snapWrite n v).d = { s.d with ident := s.d.ident.holdPut n (bitAt v 31) } := by
  by_cases hn : n = 0
  · cases hv : bitAt v 31 <;> simp [State.snapWrite, IdentSt.holdPut, State.upd, hn, hv]
  · cases hv : bitAt v 31 <;> simp [State.snapWrite, IdentSt.holdPut, State.upd, hn, hv]

theorem State.snapWrite_keeps (s : State) (n v : Nat) :
    (s.snapWrite n v).snap = s.snap ∧ (s.snapWrite n v).pending = s.pending := by
  by_cases hn : n = 0
  · cases hv : bitAt v 31 <;> simp [State.snapWrite, hn, hv]
  · cases hv : bitAt v 31 <;> simp [State.snapWrite, hn, hv]

theorem State.snapWrite_held (s : State) (n v : Nat) :
    (s.snapWrite n v).held0 = (if bitAt v 31 || n != 0 then s.held0 else none) ∧
      (s.snapWrite n v).held1 = (if bitAt v 31 || n == 0 then s.held1 else none) := by
  unfold State.snapWrite
  by_cases hv : bitAt v 31
  · simp [hv]
  · by_cases hn : n = 0
    · simp [hv, hn]
    · simp [hv, hn]

/-- A hold that has lasted its 64 fronds is released as by a write of HOLD = 0, and recorded. -/
theorem execHoldExpired_due {s : State} {n : Fin 2}
    (h : (n = 0 ∧ s.held0.isSome = true ∧ s.d.ident.left0 = 0) ∨ (n = 1 ∧ s.held1.isSome = true ∧ s.d.ident.left1 = 0)) :
    exec (.holdExpired n) s = .next ((s.snapWrite n.val 0).upd fun d => d.occur 0 2) := by
  change execHoldExpired n s = _
  obtain ⟨rfl, hh, hl⟩ | ⟨rfl, hh, hl⟩ := h <;> simp [execHoldExpired, hh, hl]

/-- Settles O31: the holds and their requests after a write of SNAP_HOLDn, and after 64 fronds. -/
theorem snapshotHolds : Obligations.SnapshotHolds := by
  refine ⟨fun s p n v => ⟨_, rfl, ?_⟩, fun s n h => ⟨_, execHoldExpired_due h, ?_⟩⟩
  · cases hp : holdPath p n
    · rw [State.snapFrom, if_neg (by simp [hp])]
      refine ⟨rfl, rfl, ?_, rfl, fun _ => ⟨rfl, rfl, rfl⟩, fun h => absurd h (by decide)⟩
      exact Dev.onlyIn_mono (Dev.closeLock_onlyIn _ _ _) (by decide)
    · obtain ⟨hsnap, hpending⟩ := s.snapWrite_keeps n v.toNat
      obtain ⟨h0, h1⟩ := s.snapWrite_held n v.toNat
      rw [State.snapFrom, if_pos hp]
      simp only [State.upd_d, State.upd_snap, State.upd_pending, State.upd_held0, State.upd_held1, State.snapWrite_d, h0, h1]
      refine ⟨hsnap, hpending, ?_, rfl, fun h => absurd h (by decide), fun _ => ⟨?_, ?_⟩⟩
      · exact Dev.onlyIn_via (Dev.closeLock_onlyIn _ _ _) (by decide) (Dev.onlyIn_put_ident (Dev.onlyIn_refl _ _) (by decide))
      · rintro rfl; exact ⟨rfl, by simp, by simp⟩
      · rintro rfl; exact ⟨rfl, by simp, by simp⟩
  · obtain ⟨hsnap, hpending⟩ := s.snapWrite_keeps n 0
    obtain ⟨h0, h1⟩ := s.snapWrite_held n 0
    simp only [State.upd_d, State.upd_snap, State.upd_pending, State.upd_held0, State.upd_held1, State.snapWrite_d, h0, h1]
    refine ⟨hsnap, hpending, ?_, Dev.recorded_occur_of rfl _ _, ?_, ?_⟩
    · exact Dev.onlyIn_via (Dev.occur_onlyIn _ _ _) (by decide) (Dev.onlyIn_put_ident (Dev.onlyIn_refl _ _) (by decide))
    · rintro rfl; exact ⟨rfl, rfl, rfl, rfl⟩
    · rintro rfl; exact ⟨rfl, rfl, rfl, rfl⟩

end Sys2Proof.Machine
end

section
/-! PROOF. The controller side of the two-wire ports: transactions, arbitration, bus recovery (R20, R423 to R431). -/

namespace Sys2Proof.Machine

/-! ### The ports by number -/

/-- The block with its fixed shape has 4 controller ports and 2 target ports. -/
theorem Dev.ports_length {d : Dev} (h : d.shape = true) : d.twC.length = 4 ∧ d.twT.length = 2 := by
  simp only [Dev.shape, Bool.and_eq_true, beq_iff_eq] at h
  tauto

theorem Dev.twc_updTwC_same (d : Dev) {c : Nat} (f : TwCtl → TwCtl) (h : c < d.twC.length) :
    (d.updTwC c f).twc c = f (d.twc c) := nth_updAt_same _ _ _ h

theorem Dev.twt_updTwT_same (d : Dev) {n : Nat} (f : TwTarget → TwTarget) (h : n < d.twT.length) :
    (d.updTwT n f).twt n = f (d.twt n) := nth_updAt_same _ _ _ h

@[simp] theorem Dev.twC_length_updTwC (d : Dev) (c : Nat) (f : TwCtl → TwCtl) : (d.updTwC c f).twC.length = d.twC.length :=
  updAt_length _ _ _

theorem updAt_updAt {α : Type} (l : List α) (i : Nat) (f g : α → α) : updAt (updAt l i f) i g = updAt l i (g ∘ f) := by
  induction l generalizing i with
  | nil => rfl
  | cons a l ih => cases i with
    | zero => rfl
    | succ i => simp [updAt, ih]

/-! ### The end of a transaction -/

/-- The port after a transaction that succeeds with a value, which a poll keeps (R424). -/
def TwCtl.succeed (t : TwCtl) (x : TwTx) (value : Nat) : TwCtl :=
  let t := { t with done := min 65535 (t.done + 1) }
  match x with
  | .poll i => { t with polls := updAt t.polls i fun p => { p with valid := true, fails := 0, value := value } }
  | _ => t

/-- The port after a transaction that fails for good: counted, with its address (R424). -/
def TwCtl.fail (t : TwCtl) (x : TwTx) (addr : Nat) : TwCtl :=
  let t := { t with failed := satInc 65535 t.failed, addr := addr }
  match x with
  | .poll i => { t with polls := updAt t.polls i fun p => { p with valid := false, fails := inc8 p.fails } }
  | _ => t

/-- The value that a poll of the port keeps of an answer: a word or a byte (R423). -/
def Dev.txValue (d : Dev) (c : Nat) (x : TwTx) (v : BitVec 16) : Nat :=
  match x with
  | .poll i => if d.flag (twcPg c) (0x100 + 8 * i) 15 then v.toNat else v.toNat % 256
  | _ => 0

theorem Dev.txDone_twC (d : Dev) (c : Nat) (x : TwTx) (v : BitVec 16) :
    (d.txDone c x v).twC = updAt d.twC c fun t => t.succeed x (d.txValue c x v) := by
  cases x with
  | poll i => exact updAt_updAt _ _ _ _
  | none | nudge | charge => rfl

theorem Dev.txFailed_twC (d : Dev) (c : Nat) (x : TwTx) :
    (d.txFailed c x).twC = updAt d.twC c fun t => t.fail x (d.txAddr c x) := by
  cases x with
  | poll i => exact updAt_updAt _ _ _ _
  | none | nudge | charge => rfl

theorem Dev.txDone_stat (d : Dev) (c : Nat) (x : TwTx) (v : BitVec 16) : (d.txDone c x v).stat = d.stat :=
  Dev.txDone_onlyIn d c x v .stat (by decide)

theorem Dev.txFailed_stat (d : Dev) (c : Nat) (x : TwTx) : (d.txFailed c x).stat = d.stat :=
  Dev.txFailed_onlyIn d c x .stat (by decide)

theorem Dev.txFailed_die (d : Dev) (c : Nat) (x : TwTx) : (d.txFailed c x).die = d.die :=
  Dev.txFailed_onlyIn d c x .die (by decide)

/-- Only a poll's answer reaches the twins in message cells. -/
theorem Dev.txDone_die (d : Dev) (c : Nat) {x : TwTx} (v : BitVec 16) (h : ∀ i, x ≠ .poll i) : (d.txDone c x v).die = d.die := by
  cases x with
  | poll i => exact absurd rfl (h i)
  | none | nudge | charge => rfl

theorem TwCtl.succeed_keeps (t : TwCtl) (x : TwTx) (v : Nat) :
    let u := t.succeed x v
    u.tx = t.tx ∧ u.arbN = t.arbN ∧ u.arbFail = t.arbFail ∧ u.again = t.again ∧ u.retry = t.retry ∧ u.failed = t.failed ∧
      u.done = min 65535 (t.done + 1) := by
  cases x <;> exact ⟨rfl, rfl, rfl, rfl, rfl, rfl, rfl⟩

theorem TwCtl.fail_keeps (t : TwCtl) (x : TwTx) (a : Nat) :
    let u := t.fail x a
    u.tx = t.tx ∧ u.arbN = t.arbN ∧ u.arbFail = t.arbFail ∧ u.again = t.again ∧ u.retry = t.retry ∧ u.done = t.done ∧
      u.failed = satInc 65535 t.failed ∧ u.addr = a := by
  cases x <;> exact ⟨rfl, rfl, rfl, rfl, rfl, rfl, rfl, rfl⟩

/-! ### The first attempt -/

/-- A transaction begins on the port: what is said of lost arbitrations is of this one. -/
def TwCtl.start (t : TwCtl) (x : TwTx) : TwCtl := { t with tx := x, arbN := 0, arbFail := false }

theorem Dev.txFirst_stuck {d : Dev} {c : Nat} (x : TwTx) (a : TwAnswer) (hc : c < d.twC.length) (hs : (d.twc c).stuck = true) :
    d.txFirst c x a = (d.updTwC c fun t => t.start x).txFailed c x := by
  refine if_pos ?_
  rw [Dev.twc_updTwC_same _ _ hc]; exact hs

theorem Dev.txFirst_data {d : Dev} {c : Nat} (x : TwTx) {a : TwAnswer} {v : BitVec 16} (hc : c < d.twC.length)
    (hs : (d.twc c).stuck = false) (ha : d.txAnswer c a = .data v) :
    d.txFirst c x a = (d.updTwC c fun t => t.start x).txDone c x v := by
  have hn : ¬ ((d.updTwC c fun t => t.start x).twc c).stuck = true := by
    rw [Dev.twc_updTwC_same _ _ hc]; simp [TwCtl.start, hs]
  rw [Dev.txFirst, ha]
  exact if_neg hn

/-- A first failure: the bit of the answer is recorded, and the transaction waits for the next frond. -/
theorem Dev.txFirst_again {d : Dev} {c : Nat} (x : TwTx) {a : TwAnswer} (hc : c < d.twC.length)
    (hs : (d.twc c).stuck = false) (ha : ∀ v, d.txAnswer c a ≠ .data v) :
    d.txFirst c x a = ((d.updTwC c fun t => t.start x).txError c (d.txAnswer c a)).updTwC c fun t => { t with again := t.again ++ [x] } := by
  have hn : ¬ ((d.updTwC c fun t => t.start x).twc c).stuck = true := by
    rw [Dev.twc_updTwC_same _ _ hc]; simp [TwCtl.start, hs]
  rw [Dev.txFirst]
  refine (if_neg hn).trans ?_
  split
  case h_1 v hv => exact absurd hv (ha v)
  case h_2 => rfl

/-- What the answer of a failed attempt records (R431). -/
def Dev.answered (d e : Dev) (c : Nat) : TwAnswer → Prop
  | .nack => d.recorded e (twcPg c) 0
  | .pec => d.recorded e (twcPg c) 1
  | _ => e.stat = d.stat

theorem Dev.txError_answered {d e : Dev} (h : e.stat = d.stat) (c : Nat) (a : TwAnswer) : d.answered (e.txError c a) c a := by
  cases a with
  | nack | pec => exact Dev.recorded_occur_of h _ _
  | data | abort => exact h

theorem Dev.answered_congr {d e f : Dev} (h : f.stat = e.stat) {c : Nat} {a : TwAnswer} (k : d.answered e c a) : d.answered f c a := by
  cases a with
  | nack | pec => exact Dev.recorded_congr h k
  | data | abort => exact h.trans k

/-- What a port and the list of ports hold after one port has been rewritten. -/
theorem Dev.port_of_updAt {d e : Dev} {c : Nat} {f : TwCtl → TwCtl} (hc : c < d.twC.length) (h : e.twC = updAt d.twC c f) :
    e.twc c = f (d.twc c) ∧ sameBut c d.twC e.twC := by
  rw [Dev.twc, h]
  exact ⟨nth_updAt_same _ _ _ hc, sameBut_updAt _ _ _⟩

/-- The port after a first attempt that is to be retried (R424). -/
def TwCtl.putOff (t : TwCtl) (x : TwTx) : TwCtl := { t.start x with again := t.again ++ [x] }

theorem Dev.txFirst_stuck_twC {d : Dev} {c : Nat} (x : TwTx) (a : TwAnswer) (hc : c < d.twC.length) (hs : (d.twc c).stuck = true) :
    (d.txFirst c x a).twC = updAt d.twC c fun t => (t.start x).fail x (d.txAddr c x) := by
  rw [Dev.txFirst_stuck x a hc hs, Dev.txFailed_twC]
  refine (updAt_updAt _ _ _ _).trans ?_
  cases x <;> rfl

theorem Dev.txFirst_data_twC {d : Dev} {c : Nat} (x : TwTx) {a : TwAnswer} {v : BitVec 16} (hc : c < d.twC.length)
    (hs : (d.twc c).stuck = false) (ha : d.txAnswer c a = .data v) :
    (d.txFirst c x a).twC = updAt d.twC c fun t => (t.start x).succeed x (d.txValue c x v) := by
  rw [Dev.txFirst_data x hc hs ha, Dev.txDone_twC]
  refine (updAt_updAt _ _ _ _).trans ?_
  cases x <;> rfl

theorem Dev.txFirst_again_twC {d : Dev} {c : Nat} (x : TwTx) {a : TwAnswer} (hc : c < d.twC.length)
    (hs : (d.twc c).stuck = false) (ha : ∀ v, d.txAnswer c a ≠ .data v) :
    (d.txFirst c x a).twC = updAt d.twC c fun t => t.putOff x := by
  rw [Dev.txFirst_again x hc hs ha, Dev.updTwC_twC, Dev.txError_onlyIn _ _ _ .twC (by decide)]
  exact updAt_updAt _ _ _ _

theorem Dev.txFirst_again_answered {d : Dev} {c : Nat} (x : TwTx) {a : TwAnswer} (hc : c < d.twC.length)
    (hs : (d.twc c).stuck = false) (ha : ∀ v, d.txAnswer c a ≠ .data v) :
    d.answered (d.txFirst c x a) c (d.txAnswer c a) := by
  rw [Dev.txFirst_again x hc hs ha]
  exact Dev.answered_congr (Dev.updTwC_stat _ _ _) (Dev.txError_answered (Dev.updTwC_stat _ _ _) _ _)

/-- An attempt that is put off changes no part but the status words and the ports. -/
theorem Dev.txFirst_again_onlyIn {d : Dev} {c : Nat} (x : TwTx) {a : TwAnswer} (hc : c < d.twC.length)
    (hs : (d.twc c).stuck = false) (ha : ∀ v, d.txAnswer c a ≠ .data v) : Dev.onlyIn [.stat, .twC] d (d.txFirst c x a) := by
  rw [Dev.txFirst_again x hc hs ha]
  exact Dev.onlyIn_via (Dev.updTwC_onlyIn _ _ _) (by decide)
    (Dev.onlyIn_via (Dev.txError_onlyIn _ _ _) (by decide) (Dev.onlyIn_mono (Dev.updTwC_onlyIn _ _ _) (by decide)))

theorem Dev.txFirst_stuck_keeps {d : Dev} {c : Nat} (x : TwTx) (a : TwAnswer) (hc : c < d.twC.length)
    (hs : (d.twc c).stuck = true) : (d.txFirst c x a).stat = d.stat ∧ (d.txFirst c x a).die = d.die := by
  rw [Dev.txFirst_stuck x a hc hs, Dev.txFailed_stat, Dev.txFailed_die]
  exact ⟨rfl, rfl⟩

theorem Dev.txFirst_data_stat {d : Dev} {c : Nat} (x : TwTx) {a : TwAnswer} {v : BitVec 16} (hc : c < d.twC.length)
    (hs : (d.twc c).stuck = false) (ha : d.txAnswer c a = .data v) : (d.txFirst c x a).stat = d.stat := by
  rw [Dev.txFirst_data x hc hs ha, Dev.txDone_stat]
  rfl

/-- A first attempt of anything but a poll leaves die S alone. -/
theorem Dev.txFirst_die {d : Dev} {c : Nat} {x : TwTx} (a : TwAnswer) (hc : c < d.twC.length) (hx : ∀ i, x ≠ .poll i) :
    (d.txFirst c x a).die = d.die := by
  cases hs : (d.twc c).stuck
  · by_cases ha : ∃ v, d.txAnswer c a = .data v
    · obtain ⟨v, ha⟩ := ha
      rw [Dev.txFirst_data x hc hs ha, Dev.txDone_die _ _ _ hx]
      rfl
    · exact Dev.txFirst_again_onlyIn x hc hs (not_exists.mp ha) .die (by decide)
  · exact (Dev.txFirst_stuck_keeps x a hc hs).2

/-! ### Outbound blocks -/

theorem Dev.blockKind_ne_poll (d : Dev) (c : Nat) (l : List Byte) (i : Nat) : d.blockKind c l ≠ .poll i := by
  unfold Dev.blockKind
  dsimp only
  split
  · split <;> simp
  · split <;> simp

/-- Block `b` leaves die S on its interface (R20). -/
def Dev.sendBlock (d : Dev) (b : OutBlock) : Dev :=
  { d with die := { d.die with out := d.die.out.erase b, sent := b :: d.die.sent } }

theorem execOutboundBlockTx_other {s : State} {chan : Nat} {a : TwAnswer} {b : OutBlock} (hoff : s.d.offline = false)
    (hchan : chan < 0x12 ∨ 0x15 < chan) (hb : (s.d.die.out.find? fun b => b.chan == chan && b.last) = some b) :
    exec (.outboundBlockTx chan a) s = done (fun d => d.sendBlock b) s := by
  change execOutboundBlockTx chan a s = _
  have htw : (decide (0x12 ≤ chan) && decide (chan ≤ 0x15)) = false := by
    rw [Bool.and_eq_false_iff, decide_eq_false_iff_not, decide_eq_false_iff_not]; omega
  simp only [execOutboundBlockTx, done_eq, State.upd, hb, hoff, htw, Bool.false_and, Bool.or_self, Bool.false_eq_true, if_false]
  rfl

theorem execOutboundBlockTx_port {s : State} {c : Fin 4} {a : TwAnswer} {b : OutBlock} (hbusy : s.d.twcBusy c = false)
    (hb : (s.d.die.out.find? fun b => b.chan == 0x12 + c.val && b.last) = some b) :
    exec (.outboundBlockTx (0x12 + c.val) a) s = done (fun d => (d.sendBlock b).txFirst c (d.blockKind c b.bytes) a) s := by
  change execOutboundBlockTx (0x12 + c.val) a s = _
  have htw : (decide (0x12 ≤ 0x12 + c.val) && decide (0x12 + c.val ≤ 0x15)) = true := by
    rw [Bool.and_eq_true, decide_eq_true_eq, decide_eq_true_eq]; omega
  have hoff : s.d.offline = false := by
    simp only [Dev.twcBusy, Bool.or_eq_false_iff] at hbusy; exact hbusy.1.1
  simp only [execOutboundBlockTx, done_eq, State.upd, hb, hoff, htw, Nat.add_sub_cancel_left, hbusy, Bool.and_false, Bool.or_self,
    Bool.false_eq_true, if_false, if_true]
  rfl

/-- What the first attempt of transaction `x` on port `c` leaves of the ports and the status words (R424, R428). -/
def Dev.tried (d e : Dev) (c : Nat) (x : TwTx) (a : TwAnswer) : Prop :=
  (e.twc c).tx = x ∧ (e.twc c).arbN = 0 ∧ (e.twc c).arbFail = false ∧ sameBut c d.twC e.twC ∧
    if (d.twc c).stuck then
      (e.twc c).failed = satInc 65535 (d.twc c).failed ∧ (e.twc c).addr = d.txAddr c x ∧ e.stat = d.stat ∧
        (e.twc c).again = (d.twc c).again
    else match d.txAnswer c a with
    | .data _ => (e.twc c).done = min 65535 ((d.twc c).done + 1) ∧ (e.twc c).again = (d.twc c).again ∧ e.stat = d.stat
    | .nack => (e.twc c).again = (d.twc c).again ++ [x] ∧ d.recorded e (twcPg c) 0 ∧ e.bbus = d.bbus
    | .pec => (e.twc c).again = (d.twc c).again ++ [x] ∧ d.recorded e (twcPg c) 1 ∧ e.bbus = d.bbus
    | .abort => (e.twc c).again = (d.twc c).again ++ [x] ∧ e.stat = d.stat ∧ e.bbus = d.bbus

theorem Dev.txFirst_tried {d : Dev} {c : Nat} (x : TwTx) (a : TwAnswer) (hc : c < d.twC.length) :
    d.tried (d.txFirst c x a) c x a := by
  unfold Dev.tried
  cases hs : (d.twc c).stuck
  · rw [if_neg (by decide)]
    by_cases hv : ∃ v, d.txAnswer c a = .data v
    · obtain ⟨v, hans⟩ := hv
      obtain ⟨hport, hothers⟩ := Dev.port_of_updAt hc (Dev.txFirst_data_twC x hc hs hans)
      obtain ⟨htx, hN, hF, hagain, -, -, hdone⟩ := TwCtl.succeed_keeps ((d.twc c).start x) x (d.txValue c x v)
      rw [hport, hans]
      exact ⟨htx, hN, hF, hothers, hdone, hagain, Dev.txFirst_data_stat x hc hs hans⟩
    · have ha := not_exists.mp hv
      obtain ⟨hport, hothers⟩ := Dev.port_of_updAt hc (Dev.txFirst_again_twC x hc hs ha)
      have hbbus := Dev.txFirst_again_onlyIn x hc hs ha .bbus (by decide)
      have hrec := Dev.txFirst_again_answered x hc hs ha
      rw [hport]
      refine ⟨rfl, rfl, rfl, hothers, ?_⟩
      revert ha hrec
      cases d.txAnswer c a with
      | data v => exact fun ha => absurd rfl (ha v)
      | nack | pec | abort => exact fun _ hrec => ⟨rfl, hrec, hbbus⟩
  · obtain ⟨hport, hothers⟩ := Dev.port_of_updAt hc (Dev.txFirst_stuck_twC x a hc hs)
    obtain ⟨htx, hN, hF, hagain, -, -, hfailed, haddr⟩ := TwCtl.fail_keeps ((d.twc c).start x) x (d.txAddr c x)
    rw [if_pos rfl, hport]
    exact ⟨htx, hN, hF, hothers, hfailed, haddr, (Dev.txFirst_stuck_keeps x a hc hs).1, hagain⟩

/-- A block of a controller port: it leaves die S, and its first attempt is made. -/
theorem outboundBlock_completes {s : State} {c : Fin 4} {a : TwAnswer} {b : OutBlock} (h : s.d.shape = true)
    (hbusy : s.d.twcBusy c = false) (hb : (s.d.die.out.find? fun b => b.chan == 0x12 + c.val && b.last) = some b) :
    Completes (.outboundBlockTx (0x12 + c.val) a) s [.stat, .bbus, .twC, .die] fun e =>
      e.die = (s.d.sendBlock b).die ∧ s.d.tried e c (s.d.blockKind c b.bytes) a := by
  have hc : c.val < (s.d.sendBlock b).twC.length := lt_of_lt_of_eq c.isLt (Dev.ports_length h).1.symm
  refine completes_done (execOutboundBlockTx_port hbusy hb) rfl ?_ ⟨Dev.txFirst_die a hc (s.d.blockKind_ne_poll _ _), ?_⟩
  · exact Dev.onlyIn_via (Dev.txFirst_onlyIn _ _ _ _) (by decide) (Dev.onlyIn_put_die (Dev.onlyIn_refl _ _) (by decide))
  · have haddr : ∀ x, (s.d.sendBlock b).txAddr c x = s.d.txAddr c x := fun x => by cases x <;> rfl
    have htried := (s.d.sendBlock b).txFirst_tried (s.d.blockKind c b.bytes) a hc
    simp only [Dev.tried, haddr] at htried
    exact htried

/-! ### Polls -/

/-- A poll begins: its age is 0 (R424). -/
def TwCtl.polled (t : TwCtl) (i : Nat) : TwCtl := { t with polls := updAt t.polls i fun p => { p with age := 0 } }

/-- The block on which a due poll is attempted (R423): while the port is not stuck the read goes out. -/
def Dev.pollSent (d : Dev) (c i : Nat) : Dev :=
  let e := d.updTwC c fun t => t.polled i
  if (d.twc c).stuck then e else e.sendRead c (d.fld (twcPg c) (0x100 + 8 * i) 30 24) (d.fld (twcPg c) (0x100 + 8 * i) 23 16)

theorem execPoll_due {s : State} {c : Fin 4} {i : Fin 16} {a : TwAnswer} (hc : c.val < s.d.twC.length)
    (hbusy : s.d.twcBusy c = false) (hen : s.d.flag (twcPg c) (0x100 + 8 * i) 31 = true)
    (hage : s.d.fld (twcPg c) (0x100 + 8 * i) 7 0 ≤ (nth (s.d.twc c).polls i PollRes.reset).age) :
    exec (.poll c i a) s = done (fun d => (d.pollSent c i).txFirst c (.poll i) a) s := by
  change execPoll c i a s = _
  have hstuck : ((s.d.updTwC c fun t => t.polled i).twc c).stuck = (s.d.twc c).stuck := by
    rw [Dev.twc_updTwC_same _ _ hc]; rfl
  simp only [execPoll, done_eq, State.upd, hbusy, hen, Bool.not_true, Bool.or_self, Bool.false_eq_true, if_false,
    if_neg (Nat.not_lt.mpr hage)]
  unfold Dev.pollSent
  rw [← hstuck]
  rfl

theorem Dev.pollSent_twC (d : Dev) (c i : Nat) : (d.pollSent c i).twC = updAt d.twC c fun t => t.polled i := by
  unfold Dev.pollSent; dsimp only; split <;> rfl

theorem Dev.pollSent_keeps (d : Dev) (c i : Nat) :
    (d.pollSent c i).stat = d.stat ∧ (d.pollSent c i).bbus = d.bbus ∧ (d.pollSent c i).regs = d.regs := by
  unfold Dev.pollSent; dsimp only; split <;> exact ⟨rfl, rfl, rfl⟩

theorem Dev.pollSent_die (d : Dev) (c i : Nat) :
    (d.pollSent c i).die = if (d.twc c).stuck then d.die else
      { d.die with sent := readBlk c (d.fld (twcPg c) (0x100 + 8 * i) 30 24) (d.fld (twcPg c) (0x100 + 8 * i) 23 16) :: d.die.sent } := by
  unfold Dev.pollSent; dsimp only; split <;> rfl

/-- A first attempt of a poll leaves the battery modules alone. -/
theorem Dev.txFirst_poll_bbus {d : Dev} {c : Nat} (i : Nat) (a : TwAnswer) (hc : c < d.twC.length) :
    (d.txFirst c (.poll i) a).bbus = d.bbus := by
  cases hs : (d.twc c).stuck
  · by_cases ha : ∃ v, d.txAnswer c a = .data v
    · obtain ⟨v, ha⟩ := ha
      rw [Dev.txFirst_data _ hc hs ha]; rfl
    · exact Dev.txFirst_again_onlyIn _ hc hs (not_exists.mp ha) .bbus (by decide)
  · rw [Dev.txFirst_stuck _ a hc hs]; rfl

theorem Dev.flag_congr {d e : Dev} (h : e.regs = d.regs) (pg off i : Nat) : e.flag pg off i = d.flag pg off i := by
  rw [Dev.flag, Dev.reg, h]; rfl

theorem Dev.fld_congr {d e : Dev} (h : e.regs = d.regs) (pg off hi lo : Nat) : e.fld pg off hi lo = d.fld pg off hi lo := by
  rw [Dev.fld, Dev.reg, h]; rfl

/-- The results of the polls after poll `i` has begun and its result was rewritten. -/
theorem TwCtl.polled_result (t : TwCtl) {i : Nat} (f : PollRes → PollRes) (hi : i < t.polls.length) :
    sameBut i t.polls (updAt (t.polled i).polls i f) ∧
      nth (updAt (t.polled i).polls i f) i PollRes.reset = f { nth t.polls i PollRes.reset with age := 0 } := by
  rw [TwCtl.polled, updAt_updAt]
  exact ⟨sameBut_updAt _ _ _, nth_updAt_same _ _ _ hi⟩

/-- What a due poll leaves (R423, R424, R428). -/
def Dev.pollMade (d e : Dev) (c : Fin 4) (i : Fin 16) (a : TwAnswer) : Prop :=
  let p := nth (d.twc c).polls i PollRes.reset
  let p' := nth (e.twc c).polls i PollRes.reset
  let addr := d.fld (twcPg c) (0x100 + 8 * i) 30 24
  let die := { d.die with sent := readBlk c addr (d.fld (twcPg c) (0x100 + 8 * i) 23 16) :: d.die.sent }
  e.bbus = d.bbus ∧ sameBut c.val d.twC e.twC ∧ sameBut i.val (d.twc c).polls (e.twc c).polls ∧ p'.age = 0 ∧
  (e.twc c).tx = .poll i ∧ (e.twc c).retry = (d.twc c).retry ∧ (e.twc c).arbN = 0 ∧ (e.twc c).arbFail = false ∧
  if (d.twc c).stuck then
    p'.valid = false ∧ p'.fails = inc8 p.fails ∧ (e.twc c).failed = satInc 65535 (d.twc c).failed ∧
    (e.twc c).addr = addr ∧ (e.twc c).again = (d.twc c).again ∧ e.stat = d.stat ∧ e.die = d.die
  else match d.txAnswer c a with
  | .data v => p' = ⟨true, 0, if d.flag (twcPg c) (0x100 + 8 * i) 15 then v.toNat else v.toNat % 256, 0⟩ ∧
      (e.twc c).done = min 65535 ((d.twc c).done + 1) ∧ (e.twc c).again = (d.twc c).again ∧ e.stat = d.stat ∧
      e.die = { die with inq := die.inq ++
        [⟨0x12 + c, leBytes (if d.flag (twcPg c) (0x100 + 8 * i) 15 then 2 else 1) v.toNat, false⟩] }
  | .nack => (e.twc c).again = (d.twc c).again ++ [.poll i] ∧ p' = { p with age := 0 } ∧ d.recorded e (twcPg c) 0 ∧ e.die = die
  | .pec => (e.twc c).again = (d.twc c).again ++ [.poll i] ∧ p' = { p with age := 0 } ∧ d.recorded e (twcPg c) 1 ∧ e.die = die
  | .abort => (e.twc c).again = (d.twc c).again ++ [.poll i] ∧ p' = { p with age := 0 } ∧ e.stat = d.stat ∧ e.die = die

theorem Dev.recorded_base {d b e : Dev} {pg bit : Nat} (h : b.stat = d.stat) (k : b.recorded e pg bit) : d.recorded e pg bit := by
  obtain ⟨hsame, hother⟩ := k
  exact ⟨by rw [hsame, Dev.statOf_congr h], fun q hq => by rw [hother q hq, Dev.statOf_congr h]⟩

theorem Dev.answered_base {d b e : Dev} (h : b.stat = d.stat) {c : Nat} {a : TwAnswer} (k : b.answered e c a) : d.answered e c a := by
  cases a with
  | nack | pec => exact Dev.recorded_base h k
  | data | abort => exact k.trans h

theorem Dev.txFirst_pollMade {d : Dev} {c : Fin 4} {i : Fin 16} (a : TwAnswer) (hc : c.val < d.twC.length)
    (hi : i.val < (d.twc c).polls.length) : d.pollMade ((d.pollSent c i).txFirst c (.poll i) a) c i a := by
  obtain ⟨hport0, hothers0⟩ := Dev.port_of_updAt hc (d.pollSent_twC c i)
  obtain ⟨hstat, hbbus, hregs⟩ := d.pollSent_keeps c i
  have hdie := d.pollSent_die c i
  have hc' : c.val < (d.pollSent c i).twC.length := by rw [d.pollSent_twC, updAt_length]; exact hc
  have hans : (d.pollSent c i).txAnswer c a = d.txAnswer c a := by rw [Dev.txAnswer, hport0]; rfl
  have hstuck : ((d.pollSent c i).twc c).stuck = (d.twc c).stuck := by rw [hport0]; rfl
  refine ⟨(Dev.txFirst_poll_bbus i a hc').trans hbbus, ?_⟩
  cases hs : (d.twc c).stuck
  · rw [hs] at hstuck hdie
    rw [if_neg (by decide)] at hdie
    by_cases hv : ∃ v, d.txAnswer c a = .data v
    · obtain ⟨v, hv⟩ := hv
      obtain ⟨hport, hothers⟩ := Dev.port_of_updAt hc' (Dev.txFirst_data_twC (.poll i) hc' hstuck (hans.trans hv))
      obtain ⟨hpolls, hp⟩ := (d.twc c).polled_result
        (fun p => { p with valid := true, fails := 0, value := (d.pollSent c i).txValue c (.poll i) v }) hi
      rw [hport0] at hport
      rw [hport, if_neg (by decide), hv]
      refine ⟨sameBut_trans hothers0 hothers, hpolls, congrArg PollRes.age hp, rfl, rfl, rfl, rfl, ?_⟩
      refine ⟨hp.trans ?_, rfl, rfl, (Dev.txFirst_data_stat _ hc' hstuck (hans.trans hv)).trans hstat, ?_⟩
      · rw [Dev.txValue, Dev.flag_congr hregs]
      · rw [Dev.txFirst_data _ hc' hstuck (hans.trans hv), ← hdie, ← Dev.flag_congr hregs]
        rfl
    · have ha : ∀ v, (d.pollSent c i).txAnswer c a ≠ .data v := fun v hr => hv ⟨v, hans ▸ hr⟩
      obtain ⟨hport, hothers⟩ := Dev.port_of_updAt hc' (Dev.txFirst_again_twC (.poll i) hc' hstuck ha)
      have hrec := Dev.answered_base hstat (Dev.txFirst_again_answered (.poll i) hc' hstuck ha)
      have hdie' := (Dev.txFirst_again_onlyIn (.poll i) hc' hstuck ha .die (by decide)).trans hdie
      obtain ⟨hpolls, hp⟩ := (⟨sameBut_updAt _ _ _, nth_updAt_same _ _ _ hi⟩ :
        sameBut i.val (d.twc c).polls ((d.twc c).polled i).polls ∧
          nth ((d.twc c).polled i).polls i PollRes.reset = { nth (d.twc c).polls i PollRes.reset with age := 0 })
      rw [hport0] at hport
      rw [hans] at hrec
      rw [hport, if_neg (by decide)]
      refine ⟨sameBut_trans hothers0 hothers, hpolls, congrArg PollRes.age hp, rfl, rfl, rfl, rfl, ?_⟩
      revert hv hrec
      cases d.txAnswer c a with
      | data v => exact fun hv => absurd ⟨v, rfl⟩ hv
      | nack | pec | abort => exact fun _ hrec => ⟨rfl, hp, hrec, hdie'⟩
  · rw [hs] at hstuck hdie
    rw [if_pos rfl] at hdie
    obtain ⟨hport, hothers⟩ := Dev.port_of_updAt hc' (Dev.txFirst_stuck_twC (.poll i) a hc' hstuck)
    obtain ⟨hstat', hdie'⟩ := Dev.txFirst_stuck_keeps (.poll i) a hc' hstuck
    obtain ⟨hpolls, hp⟩ := (d.twc c).polled_result (fun p => { p with valid := false, fails := inc8 p.fails }) hi
    rw [hport0] at hport
    rw [hport, if_pos rfl]
    exact ⟨sameBut_trans hothers0 hothers, hpolls, congrArg PollRes.age hp, rfl, rfl, rfl, rfl, congrArg PollRes.valid hp,
      congrArg PollRes.fails hp, rfl, Dev.fld_congr hregs _ _ _ _, rfl, hstat'.trans hstat, hdie'.trans hdie⟩

/-! ### Retries -/

/-- The oldest transaction that failed once is tried again. -/
def TwCtl.resume (t : TwCtl) (x : TwTx) (rest : List TwTx) : TwCtl := { t with tx := x, retry := rest, arbN := 0, arbFail := false }

/-- The block after the second attempt of transaction `x` (R424). -/
def Dev.retried (d : Dev) (c : Nat) (x : TwTx) (rest : List TwTx) (a : TwAnswer) : Dev :=
  let e := d.updTwC c fun t => t.resume x rest
  if (d.twc c).stuck then e.txFailed c x
  else match d.txAnswer c a with
    | .data v => e.txDone c x v
    | r => (e.txError c r).txFailed c x

theorem execTwRetry_due {s : State} {c : Fin 4} {a : TwAnswer} {x : TwTx} {rest : List TwTx} (hc : c.val < s.d.twC.length)
    (hbusy : s.d.twcBusy c = false) (hr : (s.d.twc c).retry = x :: rest) :
    exec (.twRetry c a) s = done (fun d => d.retried c x rest a) s := by
  change execTwRetry c a s = _
  have hstuck : ((s.d.updTwC c fun t => t.resume x rest).twc c).stuck = (s.d.twc c).stuck := by
    rw [Dev.twc_updTwC_same _ _ hc]; rfl
  simp only [execTwRetry, done_eq, State.upd, hr, hbusy, Bool.false_eq_true, if_false]
  unfold Dev.retried
  rw [← hstuck]
  rfl

theorem Dev.retried_onlyIn (d : Dev) (c : Nat) (x : TwTx) (rest : List TwTx) (a : TwAnswer) :
    Dev.onlyIn [.die, .stat, .bbus, .twC] d (d.retried c x rest a) := by
  have hresume : Dev.onlyIn [.die, .stat, .bbus, .twC] d (d.updTwC c fun t => t.resume x rest) :=
    Dev.onlyIn_mono (Dev.updTwC_onlyIn _ _ _) (by decide)
  unfold Dev.retried
  dsimp only
  split
  · exact Dev.onlyIn_via (Dev.txFailed_onlyIn _ _ _) (by decide) hresume
  · split
    · exact Dev.onlyIn_via (Dev.txDone_onlyIn _ _ _ _) (by decide) hresume
    · exact Dev.onlyIn_via (Dev.txFailed_onlyIn _ _ _) (by decide) (Dev.onlyIn_via (Dev.txError_onlyIn _ _ _) (by decide) hresume)

/-- A second attempt ends as a success, or as a failure for good that leaves die S alone. -/
theorem Dev.retried_cases (d : Dev) (c : Nat) (x : TwTx) (rest : List TwTx) (a : TwAnswer) :
    (∃ v, d.txAnswer c a = .data v ∧ (d.twc c).stuck = false ∧ (d.retried c x rest a).stat = d.stat ∧
      ((∀ i, x ≠ .poll i) → (d.retried c x rest a).die = d.die) ∧
      (d.retried c x rest a).twC = updAt d.twC c fun t => (t.resume x rest).succeed x (d.txValue c x v)) ∨
    (((∀ v, d.txAnswer c a ≠ .data v) ∨ (d.twc c).stuck = true) ∧ (d.retried c x rest a).die = d.die ∧
      (d.retried c x rest a).twC = updAt d.twC c fun t => (t.resume x rest).fail x (d.txAddr c x)) := by
  have hfail : ∀ e : Dev, e.twC = updAt d.twC c (fun t => t.resume x rest) → e.regs = d.regs →
      (e.txFailed c x).twC = updAt d.twC c fun t => (t.resume x rest).fail x (d.txAddr c x) := by
    intro e he hregs
    have haddr : e.txAddr c x = d.txAddr c x := by
      cases x with
      | none => rfl
      | nudge => simp only [Dev.txAddr, Dev.rectifiers, Dev.reg, hregs]
      | charge | poll => exact Dev.fld_congr hregs _ _ _ _
    rw [Dev.txFailed_twC, he, haddr]
    exact updAt_updAt _ _ _ _
  cases hs : (d.twc c).stuck
  · by_cases hv : ∃ v, d.txAnswer c a = .data v
    · obtain ⟨v, hv⟩ := hv
      have heq : d.retried c x rest a = (d.updTwC c fun t => t.resume x rest).txDone c x v := by
        simp only [Dev.retried, hs, hv, Bool.false_eq_true, if_false]
      refine .inl ⟨v, hv, rfl, ?_⟩
      rw [heq, Dev.txDone_stat, Dev.txDone_twC]
      refine ⟨rfl, Dev.txDone_die _ _ _, (updAt_updAt _ _ _ _).trans ?_⟩
      cases x <;> rfl
    · have heq : d.retried c x rest a = ((d.updTwC c fun t => t.resume x rest).txError c (d.txAnswer c a)).txFailed c x := by
        rw [Dev.retried, hs]
        rw [if_neg (by decide)]
        split
        · exact absurd ⟨_, ‹_›⟩ hv
        · rfl
      refine .inr ⟨.inl (not_exists.mp hv), ?_⟩
      rw [heq, Dev.txFailed_die]
      exact ⟨Dev.txError_onlyIn _ _ _ .die (by decide),
        hfail _ (Dev.txError_onlyIn _ _ _ .twC (by decide)) (Dev.txError_onlyIn _ _ _ .regs (by decide))⟩
  · have heq : d.retried c x rest a = (d.updTwC c fun t => t.resume x rest).txFailed c x := by
      simp only [Dev.retried, hs, if_true]
    refine .inr ⟨.inr rfl, ?_⟩
    rw [heq, Dev.txFailed_die]
    exact ⟨rfl, hfail _ rfl rfl⟩

theorem Dev.txAnswer_data_iff {d : Dev} {c : Nat} {a : TwAnswer} :
    (∃ v, d.txAnswer c a = .data v) ↔ (∃ v, a = .data v) ∧ (d.twc c).arbFail = false := by
  unfold Dev.txAnswer
  cases h : (d.twc c).arbFail <;> simp

/-! ### Arbitration and recovery -/

/-- A target port after a lost arbitration: at most three retries (R427). -/
def TwTarget.lose (t : TwTarget) : TwTarget :=
  { t with arbN := if t.arbN = 3 then 0 else t.arbN + 1, arbWait := decide (t.arbN < 3), arbFail := t.arbN == 3 }

/-- A controller port after a lost arbitration: at most three retries (R427). -/
def TwCtl.lose (t : TwCtl) : TwCtl :=
  { t with arbN := if t.arbN = 3 then 0 else t.arbN + 1, arbWait := decide (t.arbN < 3), arbFail := t.arbN == 3 }

theorem Dev.arbLoss_target {n : Nat} (d : Dev) (h : n < 2) : d.arbLoss n = d.updTwT n TwTarget.lose := if_pos h

theorem Dev.arbLoss_controller {n : Nat} (d : Dev) (h : ¬ n < 2) : d.arbLoss n = d.updTwC (n - 2) TwCtl.lose := if_neg h

/-- A lost arbitration on a target port records its bit and leaves the other ports alone. -/
theorem arbLoss_target_ends {d : Dev} {n : Nat} (bit : Nat) (hn : n < d.twT.length) :
    let e := (d.occur (twtPg n) bit).updTwT n TwTarget.lose
    e.twt n = (d.twt n).lose ∧ sameBut n d.twT e.twT ∧ e.twC = d.twC ∧ d.recorded e (twtPg n) bit :=
  ⟨Dev.twt_updTwT_same (d.occur (twtPg n) bit) _ hn, sameBut_updAt _ _ _, rfl,
    Dev.recorded_congr (Dev.updTwT_stat _ _ _) (d.recorded_occur _ _)⟩

/-- A lost arbitration on a controller port, from a block `b` in which at most that port differs from `d`. -/
theorem arbLoss_controller_ends {d b : Dev} {c : Nat} (bit : Nat) (hc : c < b.twC.length) (hstat : b.stat = d.stat)
    (htwT : b.twT = d.twT) (hbut : sameBut c d.twC b.twC) :
    let e := (b.occur (twcPg c) bit).updTwC c TwCtl.lose
    e.twc c = (b.twc c).lose ∧ sameBut c d.twC e.twC ∧ e.twT = d.twT ∧ d.recorded e (twcPg c) bit :=
  ⟨Dev.twc_updTwC_same (b.occur (twcPg c) bit) _ hc, sameBut_trans hbut (sameBut_updAt _ _ _), htwT,
    Dev.recorded_congr (Dev.updTwC_stat _ _ _) (Dev.recorded_occur_of hstat _ _)⟩

theorem execArbLost_target {s : State} {n : Fin 6} (byte bit : Nat) (hoff : s.d.offline = false) (h : n.val < 2) :
    exec (.arbLost n byte bit) s = done (fun d => (d.occur (twtPg n) 6).updTwT n TwTarget.lose) s := by
  change execArbLost n byte bit s = _
  simp only [execArbLost, done_eq, State.upd, hoff, h, Dev.arbLoss_target _ h, Bool.false_eq_true, if_false, if_true]

theorem execArbLost_controller {s : State} {n : Fin 6} (byte bit : Nat) (hoff : s.d.offline = false) (h : ¬ n.val < 2) :
    exec (.arbLost n byte bit) s =
      done (fun d => ((d.updTwC (n - 2) fun t => { t with arbIndex := (9 * byte + bit) % 256 }).occur (twcPg (n - 2)) 2).updTwC (n - 2)
        TwCtl.lose) s := by
  change execArbLost n byte bit s = _
  simp only [execArbLost, done_eq, State.upd, hoff, h, Dev.arbLoss_controller _ h, Bool.false_eq_true, if_false]

theorem execArbCond_target {s : State} {n : Fin 6} (hoff : s.d.offline = false) (h : n.val < 2) :
    exec (.arbCond n) s = done (fun d => (d.occur (twtPg n) 7).updTwT n TwTarget.lose) s := by
  change execArbCond n s = _
  simp only [execArbCond, done_eq, State.upd, hoff, h, Dev.arbLoss_target _ h, Bool.false_eq_true, if_false, if_true]

theorem execArbCond_controller {s : State} {n : Fin 6} (hoff : s.d.offline = false) (h : ¬ n.val < 2) :
    exec (.arbCond n) s = done (fun d => (d.occur (twcPg (n - 2)) 3).updTwC (n - 2) TwCtl.lose) s := by
  change execArbCond n s = _
  simp only [execArbCond, done_eq, State.upd, hoff, h, Dev.arbLoss_controller _ h, Bool.false_eq_true, if_false]

/-- What a bus recovery leaves (R428): the port's state, and the cause where the bus stays low. -/
def Dev.recovered (d : Dev) (c : Nat) (b : BusState) : Dev :=
  let e := d.updTwC c fun t => { t with fresh := false, stuck := b != .released, stuckAge := 0 }
  match b with
  | .released => e
  | .sdaLow => e.occurC (twcPg c) 4 5
  | .sclLow => e.occurC (twcPg c) 4 6

theorem execBusRecovery_runs {s : State} {c : Fin 4} {b : BusState} (hoff : s.d.offline = false)
    (h : (s.d.twc c).stuck = true → 64 ≤ (s.d.twc c).stuckAge) :
    exec (.busRecovery c b) s = done (fun d => d.recovered c b) s := by
  change execBusRecovery c b s = _
  have hdue : ((s.d.twc c).stuck && decide ((s.d.twc c).stuckAge < 64)) = false := by
    rw [Bool.and_eq_false_iff, decide_eq_false_iff_not, ← Bool.not_eq_true, ← imp_iff_not_or]
    exact fun hs => Nat.not_lt.mpr (h hs)
  simp only [execBusRecovery, done_eq, State.upd, hoff, hdue, Bool.or_self, Bool.false_eq_true, if_false]
  rfl

/-- Settles O57: the first and the second attempts of a transaction, the lost arbitrations and the bus recovery of a port. -/
theorem controllerPorts : Obligations.ControllerPorts := by
  refine ⟨fun s chan a b hoff hchan hb => ?_, fun s c a b h hbusy hb => outboundBlock_completes h hbusy hb,
    fun s c i a h hbusy hpolls hen hage => ?_, fun s c a x rest h hbusy hr => ?_, fun s c hoff => ?_, fun s n byte bit h hoff => ?_,
    fun s n h => ?_, fun s c b h hoff hstuck => ?_, fun s c b hs hage => ?_⟩
  · exact completes_done (execOutboundBlockTx_other hoff hchan hb) rfl (Dev.onlyIn_put_die (Dev.onlyIn_refl _ _) (by decide))
      ⟨rfl, rfl, rfl, rfl⟩
  · have hc : c.val < s.d.twC.length := lt_of_lt_of_eq c.isLt (Dev.ports_length h).1.symm
    refine completes_done (execPoll_due hc hbusy hen hage) rfl ?_ (Dev.txFirst_pollMade a hc (lt_of_lt_of_eq i.isLt hpolls.symm))
    refine Dev.onlyIn_via (Dev.txFirst_onlyIn _ _ _ _) (by decide) ?_
    unfold Dev.pollSent
    exact Dev.onlyIn_ite (Dev.onlyIn_mono (Dev.updTwC_onlyIn _ _ _) (by decide))
      (Dev.onlyIn_via (Dev.sendRead_onlyIn _ _ _ _) (by decide) (Dev.onlyIn_mono (Dev.updTwC_onlyIn _ _ _) (by decide)))
  · have hc : c.val < s.d.twC.length := lt_of_lt_of_eq c.isLt (Dev.ports_length h).1.symm
    refine completes_done (execTwRetry_due hc hbusy hr) rfl (Dev.retried_onlyIn _ _ _ _ _) ?_
    obtain ⟨v, hv, hs, hstat, hdie, htwC⟩ | ⟨hno, hdie, htwC⟩ := s.d.retried_cases c x rest a
    · obtain ⟨hport, hothers⟩ := Dev.port_of_updAt hc htwC
      obtain ⟨htx, -, -, hagain, hretry, hfailed, hdone⟩ := TwCtl.succeed_keeps ((s.d.twc c).resume x rest) x (s.d.txValue c x v)
      obtain ⟨⟨w, hw⟩, harb⟩ := Dev.txAnswer_data_iff.mp ⟨v, hv⟩
      rw [hport]
      refine ⟨hdie, hothers, hretry, htx, hagain, fun _ => ⟨hdone, hfailed, hstat⟩, fun hbad => ?_⟩
      obtain hbad | hbad | hbad := hbad
      · exact absurd hw (hbad w)
      · rw [hs] at hbad; exact absurd hbad (by decide)
      · rw [harb] at hbad; exact absurd hbad (by decide)
    · obtain ⟨hport, hothers⟩ := Dev.port_of_updAt hc htwC
      obtain ⟨htx, -, -, hagain, hretry, hdone, hfailed, haddr⟩ :=
        TwCtl.fail_keeps ((s.d.twc c).resume x rest) x (s.d.txAddr c x)
      rw [hport]
      refine ⟨fun _ => hdie, hothers, hretry, htx, hagain, fun hgood => ?_, fun _ => ⟨hfailed, haddr, hdone, hdie⟩⟩
      obtain ⟨v, hv, hs, harb⟩ := hgood
      obtain hno | hno := hno
      · exact absurd (Dev.txAnswer_data_iff.mpr ⟨⟨v, hv⟩, harb⟩) (not_exists.mpr hno)
      · rw [hs] at hno; exact absurd hno (by decide)
  · have hon : ¬ s.d.offline = true := by simp [hoff]
    exact completes_done rfl (if_neg hon) (Dev.occur_onlyIn _ _ _) (s.d.recorded_occur _ _)
  · obtain ⟨hC, hT⟩ := Dev.ports_length h
    by_cases hn : n.val < 2
    · simp only [if_pos hn]
      refine ⟨completes_done (execArbLost_target byte bit hoff hn) rfl ?_ (arbLoss_target_ends 6 (lt_of_lt_of_eq hn hT.symm)),
        completes_done (execArbCond_target hoff hn) rfl ?_ (arbLoss_target_ends 7 (lt_of_lt_of_eq hn hT.symm))⟩
      all_goals
        exact Dev.onlyIn_via (Dev.updTwT_onlyIn _ _ _) (by decide) (Dev.onlyIn_mono (Dev.occur_onlyIn _ _ _) (by decide))
    · have hc : n.val - 2 < s.d.twC.length := by omega
      simp only [if_neg hn]
      have hlost := arbLoss_controller_ends (d := s.d) (b := s.d.updTwC (n - 2) fun t => { t with arbIndex := (9 * byte + bit) % 256 })
        2 (by rw [Dev.twC_length_updTwC]; exact hc) rfl rfl (sameBut_updAt _ _ _)
      rw [Dev.twc_updTwC_same _ _ hc] at hlost
      refine ⟨completes_done (execArbLost_controller byte bit hoff hn) rfl ?_ hlost,
        completes_done (execArbCond_controller hoff hn) rfl ?_ (arbLoss_controller_ends 3 hc rfl rfl (sameBut_refl _ _))⟩
      · exact Dev.onlyIn_via (Dev.updTwC_onlyIn _ _ _) (by decide)
          (Dev.onlyIn_via (Dev.occur_onlyIn _ _ _) (by decide) (Dev.onlyIn_mono (Dev.updTwC_onlyIn _ _ _) (by decide)))
      · exact Dev.onlyIn_via (Dev.updTwC_onlyIn _ _ _) (by decide) (Dev.onlyIn_mono (Dev.occur_onlyIn _ _ _) (by decide))
  · obtain ⟨hC, hT⟩ := Dev.ports_length h
    by_cases hn : n.val < 2
    · simp only [if_pos hn]
      exact completes_done rfl (if_pos hn) (Dev.onlyIn_mono (Dev.updTwT_onlyIn _ _ _) (by decide))
        ⟨Dev.twt_updTwT_same _ _ (lt_of_lt_of_eq hn hT.symm), sameBut_updAt _ _ _, rfl⟩
    · have hc : n.val - 2 < s.d.twC.length := by omega
      simp only [if_neg hn]
      exact completes_done rfl (if_neg hn) (Dev.onlyIn_mono (Dev.updTwC_onlyIn _ _ _) (by decide))
        ⟨Dev.twc_updTwC_same _ _ hc, sameBut_updAt _ _ _, rfl⟩
  · have hc : c.val < s.d.twC.length := lt_of_lt_of_eq c.isLt (Dev.ports_length h).1.symm
    have hput := Dev.updTwC_onlyIn s.d c fun t => { t with fresh := false, stuck := b != .released, stuckAge := 0 }
    refine completes_done (execBusRecovery_runs hoff hstuck) rfl ?_ ?_
    · cases b with
      | released => exact Dev.onlyIn_mono hput (by decide)
      | sdaLow | sclLow => exact Dev.onlyIn_via (Dev.occurC_onlyIn _ _ _ _) (by decide) (Dev.onlyIn_mono hput (by decide))
    · cases b with
      | released => exact ⟨Dev.twc_updTwC_same _ _ hc, sameBut_updAt _ _ _, rfl⟩
      | sdaLow | sclLow =>
        exact ⟨Dev.twc_updTwC_same _ _ hc, sameBut_updAt _ _ _, Dev.recordedC_occurC_of rfl _ _ _⟩
  · change execBusRecovery c b s = _
    refine done_self (if_pos ?_)
    simp [hs, hage]

end Sys2Proof.Machine
end

section
/-! PROOF. The actuation frame: its words, its CRC, and the copy that die S keeps (R12, R18, R294, R565). -/

namespace Sys2Proof.Machine

/-! ### CRC-32 -/

theorem crc32Bit_lt {c : Nat} (h : c < 2 ^ 32) : crc32Bit c < 2 ^ 32 := by
  unfold crc32Bit
  split
  · exact Nat.xor_lt_two_pow (by omega) (by decide)
  · omega

theorem foldl_lt_of_step {α : Type} {n : Nat} {f : Nat → α → Nat} (hf : ∀ c a, c < n → f c a < n) (l : List α) {c : Nat}
    (h : c < n) : l.foldl f c < n := by
  induction l generalizing c with
  | nil => exact h
  | cons a l ih => exact ih (hf c a h)

/-- A CRC-32 is a number of 32 bits. -/
theorem crc32_lt (l : List Byte) : crc32 l < 2 ^ 32 := by
  refine Nat.xor_lt_two_pow (foldl_lt_of_step (fun c b hc => ?_) l (by decide)) (by decide)
  refine foldl_lt_of_step (fun _ _ => crc32Bit_lt) _ (Nat.xor_lt_two_pow hc ?_)
  exact lt_trans b.isLt (by decide)

/-! ### The composed frame -/

theorem length_foldl_updAt {α β : Type} (i : β → Nat) (f : β → α → α) (xs : List β) (l : List α) :
    (xs.foldl (fun l x => updAt l (i x) (f x)) l).length = l.length := by
  induction xs generalizing l with
  | nil => rfl
  | cons x xs ih => exact (ih _).trans (updAt_length _ _ _)

theorem Dev.length_composedWords (d : Dev) : d.composedWords.length = 74 := by
  simp [Dev.composedWords, cellWords, upto, List.length_flatMap]

theorem Dev.length_commonWords (d : Dev) : d.commonWords.length = 74 := by
  unfold Dev.commonWords
  dsimp only
  split
  · exact d.length_composedWords
  · simp [d.length_composedWords]

theorem Dev.length_sliceWords (d : Dev) : d.sliceWords.length = 110 := by
  simp [Dev.sliceWords, maskWords, upto, d.length_commonWords]

theorem Dev.length_actBody (d : Dev) (t : Twin) : (d.actBody t).length = 112 := by
  simp [Dev.actBody, Dev.twinSlices, length_foldl_updAt, d.length_sliceWords]

theorem Dev.length_actFrame (d : Dev) (t : Twin) : (d.actFrame t).length = 113 := by
  simp [Dev.actFrame, d.length_actBody]

/-- The frame as composed carries the CRC of its words. -/
theorem Dev.actFrame_crcOk (d : Dev) (t : Twin) : actCrcOk (d.actFrame t) = true := by
  have hlen : ((d.actBody t).map (BitVec.ofNat 32)).length = 112 := by rw [List.length_map, d.length_actBody]
  have htake : (d.actFrame t).take 112 = (d.actBody t).map (BitVec.ofNat 32) := by
    rw [Dev.actFrame, ← hlen]; exact List.take_left
  rw [actCrcOk, htake, beq_iff_eq, frameWord, Dev.actFrame]
  simp only [List.getD_append_right _ _ _ _ hlen.le, hlen, Nat.sub_self, List.getD_cons_zero, BitVec.toNat_ofNat]
  exact (Nat.mod_eq_of_lt (crc32_lt _)).symm

/-- Its first word names the frame type and the tick. -/
theorem Dev.actFrame_header (d : Dev) (t : Twin) (h : d.time.tseq < 2 ^ 24) :
    actType (d.actFrame t) = 0x3A ∧ actTseq (d.actFrame t) = d.time.tseq := by
  have hword : frameWord (d.actFrame t) 0 = 0x3A * 2 ^ 24 + d.time.tseq := by
    simp only [frameWord, Dev.actFrame, Dev.actBody, List.cons_append, List.map_cons, List.getD_cons_zero, BitVec.toNat_ofNat]
    omega
  rw [actType, actTseq, hword, bits, bits]
  omega

theorem zipWith_xor_replicate_zero (l : List Word32) {n : Nat} (h : l.length = n) :
    List.zipWith (fun w x => w ^^^ x) l (List.replicate n 0) = l := by
  subst h
  induction l with
  | nil => rfl
  | cons w l ih => simpa [List.replicate_succ] using ih

/-! ### What composing the frame leaves -/

/-- What every step of a fold keeps, the fold keeps. -/
theorem foldN_keeps {β : Type} (π : Dev → β) {g : Dev → Nat → Dev} (h : ∀ d n, π (g d n) = π d) (n : Nat) (d : Dev) :
    π (foldN n g d) = π d := by
  unfold foldN
  induction upto n generalizing d with
  | nil => rfl
  | cons a l ih => exact (ih _).trans (h d a)

theorem Dev.putOut_twinOf (d : Dev) (chan : Nat) (l : List Byte) (t : Twin) : (d.putOut chan l).twinOf t = d.twinOf t := by
  cases t <;> rfl

theorem Dev.placeNudge_twinOf (d : Dev) (t : Twin) : d.placeNudge.twinOf t = d.twinOf t := by
  unfold Dev.placeNudge
  split
  · rfl
  · refine (foldN_keeps (Dev.twinOf · t) (fun e p => ?_) 2 _).trans ?_
    · split
      · rfl
      · exact Dev.putOut_twinOf _ _ _ _
    · cases t <;> rfl

theorem Dev.placeCharges_twinOf (d : Dev) (t : Twin) : d.placeCharges.twinOf t = d.twinOf t := by
  refine foldN_keeps (Dev.twinOf · t) (fun e m => ?_) 4 d
  dsimp only
  split
  · refine (Dev.putOut_twinOf _ _ _ _).trans ?_
    cases t <;> rfl
  · rfl

/-- Making outbound blocks leaves the twins' own state alone: only the waiting blocks change. -/
theorem Dev.placeOut_twinOf (d : Dev) (t : Twin) : d.placeOut.twinOf t = d.twinOf t := by
  rw [Dev.placeOut, Dev.placeCharges_twinOf, Dev.placeNudge_twinOf]

theorem Dev.sealTick_twinOf (d : Dev) (t : Twin) : d.sealTick.twinOf t = d.twinOf t := by
  rw [Dev.sealTick, Dev.placeOut_twinOf]
  have h1 := Dev.settleShares_onlyIn d.settleRequests .twin (by decide)
  have h2 := Dev.settleRequests_onlyIn d .twin (by decide)
  exact congrArg (fun c : TwinCtl => match t with | .a => c.a | .b => c.b) (h1.trans h2)

/-- The block from which a twin composes the frame of the tick. -/
def Dev.composing (d : Dev) : Dev := if d.time.started && !d.die.judged then d.sealTick else d

theorem Dev.composing_twinOf (d : Dev) (t : Twin) : d.composing.twinOf t = d.twinOf t := by
  unfold Dev.composing; split
  · exact d.sealTick_twinOf t
  · rfl

theorem Dev.composing_onlyIn (d : Dev) :
    Dev.onlyIn [.stat, .rails, .units, .clusters, .runs, .sram, .adm, .twin, .jrn, .nv, .bbus] d d.composing :=
  Dev.onlyIn_ite d.sealTick_onlyIn (Dev.onlyIn_refl _ _)

/-! ### The copy kept -/

/-- The copy of twin `t` becomes `f`. -/
def Dev.putCopy (d : Dev) : Twin → List Word32 → Dev
  | .a, f => { d with die := { d.die with copyA := some f } }
  | .b, f => { d with die := { d.die with copyB := some f } }

theorem Dev.putCopy_die (d : Dev) (t : Twin) (f : List Word32) :
    (d.putCopy t f) = { d with die := (d.putCopy t f).die } ∧ ∃ a b, (d.putCopy t f).die = { d.die with copyA := a, copyB := b } := by
  cases t <;> exact ⟨rfl, _, _, rfl⟩

theorem Dev.putCopy_copyOf (d : Dev) (t : Twin) (f : List Word32) :
    (d.putCopy t f).copyOf t = some f ∧ ∀ u, u ≠ t → (d.putCopy t f).copyOf u = d.copyOf u := by
  cases t
  · exact ⟨rfl, fun u hu => by cases u; exacts [absurd rfl hu, rfl]⟩
  · exact ⟨rfl, fun u hu => by cases u; exacts [rfl, absurd rfl hu]⟩

/-- The conditions under which die S keeps an arriving copy (R12, R294). -/
def Dev.keepsCopy (d : Dev) (t : Twin) (c : Nat) (f : List Word32) : Prop :=
  d.time.started = true ∧ (d.twinOf t).st.running = true ∧ actType f = 0x3A ∧ actCrcOk f = true ∧ actTseq f = d.time.tseq ∧
    c ≤ 196 ∧ d.die.counted = false ∧ d.copyOf t = none

theorem Dev.takeCopy_kept {d : Dev} {t : Twin} {c : Nat} {f : List Word32} (h : d.keepsCopy t c f) :
    d.takeCopy t c f = d.putCopy t f := by
  obtain ⟨hstart, hrun, htype, hcrc, htseq, hc, hcount, hnone⟩ := h
  have hcond : (d.copyValid t c f && !d.die.counted && (d.copyOf t).isNone) = true := by
    simp [Dev.copyValid, hstart, hrun, htype, hcrc, htseq, hc, hcount, hnone]
  refine (if_pos hcond).trans ?_
  cases t <;> rfl

theorem Dev.takeCopy_dropped {d : Dev} {t : Twin} {c : Nat} {f : List Word32} (h : ¬ d.keepsCopy t c f) :
    d.takeCopy t c f = d := by
  refine if_neg fun hcond => h ?_
  simp only [Dev.copyValid, Bool.and_eq_true, beq_iff_eq, decide_eq_true_eq, Bool.not_eq_true', Option.isNone_iff_eq_none] at hcond
  obtain ⟨⟨⟨⟨⟨⟨⟨hstart, hrun⟩, htype⟩, hcrc⟩, htseq⟩, hc⟩, hcount⟩, hnone⟩ := hcond
  exact ⟨hstart, hrun, htype, hcrc, htseq, hc, hcount, hnone⟩

/-- The composed frame does not depend on die S. -/
theorem Dev.actFrame_put_die (d : Dev) (x : DieS) (t : Twin) : ({ d with die := x } : Dev).actFrame t = d.actFrame t := rfl

theorem execActuationFrame_arrives (s : State) (t : Twin) (c : Nat) {errs : List Word32} (h : errs.length = 113) :
    exec (.actuationFrame t c errs) s = done (fun d => d.composing.takeCopy t c (d.composing.arriving t errs)) s := by
  change execActuationFrame t c errs s = _
  rw [execActuationFrame, if_pos h]
  rfl

/-- The copy taken depends of the block before on nothing that composing the frame changes. -/
theorem Dev.composing_keepsCopy {d : Dev} {t : Twin} {c : Nat} {f : List Word32} :
    d.composing.keepsCopy t c f ↔ d.keepsCopy t c f := by
  have htime : d.composing.time = d.time := d.composing_onlyIn .time (by decide)
  have hdie : d.composing.die = d.die := d.composing_onlyIn .die (by decide)
  have hcopy : d.composing.copyOf t = d.copyOf t := by cases t <;> simp only [Dev.copyOf, hdie]
  rw [Dev.keepsCopy, htime, hdie, hcopy, d.composing_twinOf t]
  rfl

/-- The copy of twin `t` after the words `f` have arrived. -/
theorem Dev.takeCopy_copyOf (d : Dev) (t : Twin) (c : Nat) (f : List Word32) [Decidable (d.keepsCopy t c f)] :
    (d.takeCopy t c f).copyOf t = (if d.keepsCopy t c f then some f else d.copyOf t) ∧
      ∀ u, u ≠ t → (d.takeCopy t c f).copyOf u = d.copyOf u := by
  split
  case isTrue h => rw [Dev.takeCopy_kept h]; exact d.putCopy_copyOf t f
  case isFalse h => rw [Dev.takeCopy_dropped h]; exact ⟨rfl, fun _ _ => rfl⟩

/-- Of the block, an arriving copy changes at most the copies that die S keeps. -/
theorem Dev.takeCopy_die (d : Dev) (t : Twin) (c : Nat) (f : List Word32) :
    d.takeCopy t c f = { d with die := (d.takeCopy t c f).die } ∧
      ∃ a b, (d.takeCopy t c f).die = { d.die with copyA := a, copyB := b } := by
  by_cases h : d.keepsCopy t c f
  · rw [Dev.takeCopy_kept h]; exact d.putCopy_die t f
  · rw [Dev.takeCopy_dropped h]; exact ⟨rfl, _, _, rfl⟩

theorem Dev.takeCopy_actFrame (d : Dev) (t : Twin) (c : Nat) (f : List Word32) : (d.takeCopy t c f).actFrame t = d.actFrame t := by
  rw [(d.takeCopy_die t c f).1]; exact d.actFrame_put_die _ t

/-- Where the frame of the tick stands already, composing changes nothing. -/
theorem Dev.composing_eq {d : Dev} (h : d.time.started = false ∨ d.die.judged = true) : d.composing = d := by
  refine if_neg ?_
  obtain h | h := h <;> simp [h]

/-- Settles O11: the arriving words are judged on the block that has composed them. -/
theorem firstValidCopyIsKept : Obligations.FirstValidCopyIsKept := by
  have hdie : ∀ d : Dev, d.composing.die = d.die := fun d => d.composing_onlyIn .die (by decide)
  have hcopy : ∀ (d : Dev) (u : Twin), d.composing.copyOf u = d.copyOf u := fun d u => by
    cases u <;> simp only [Dev.copyOf, hdie]
  refine ⟨fun s t c errs h => ?_, fun s t c hstart hrun htseq hc hcount hnone => ?_⟩
  · classical
    obtain ⟨heq, hcopies⟩ := s.d.composing.takeCopy_die t c (s.d.composing.arriving t errs)
    obtain ⟨hsame, hother⟩ := s.d.composing.takeCopy_copyOf t c (s.d.composing.arriving t errs)
    refine completes_done (execActuationFrame_arrives s t c h) rfl ?_ ?_
    · exact Dev.onlyIn_via (Dev.takeCopy_onlyIn _ _ _ _) (by decide) (Dev.onlyIn_mono s.d.composing_onlyIn (by decide))
    · intro ws
      have hws : ws = s.d.composing.arriving t errs := by
        unfold ws; rw [Dev.takeCopy_actFrame]; rfl
      rw [hws]
      refine ⟨?_, fun u hu => (hother u hu).trans (hcopy _ u), ?_, fun hj => ?_⟩
      · rw [← hdie s.d]; exact hcopies
      · rw [hsame, hcopy]
        exact ite_congr (propext Dev.composing_keepsCopy) (fun _ => rfl) fun _ => rfl
      · refine heq.trans ?_
        rw [Dev.composing_eq hj]
  · refine ⟨_, execActuationFrame_arrives s t c (List.length_replicate), ?_⟩
    have htime : s.d.composing.time = s.d.time := s.d.composing_onlyIn .time (by decide)
    have harr : s.d.composing.arriving t (List.replicate 113 0) = s.d.composing.actFrame t :=
      zipWith_xor_replicate_zero _ (Dev.length_actFrame _ _)
    obtain ⟨htype, htag⟩ := s.d.composing.actFrame_header t (by rw [htime]; exact htseq)
    have hkept : s.d.composing.keepsCopy t c (s.d.composing.actFrame t) :=
      Dev.composing_keepsCopy.mpr ⟨hstart, hrun, htype, Dev.actFrame_crcOk _ _, by rw [htag, htime], hc, hcount, hnone⟩
    rw [State.upd_d, Dev.takeCopy_actFrame, harr, Dev.takeCopy_kept hkept]
    exact (Dev.putCopy_copyOf _ _ _).1

end Sys2Proof.Machine
end

section
/-! PROOF. The loss of clusters: the units that are lost, and what the rest of the reaction spares (R120, R127, R571). -/

namespace Sys2Proof.Machine

/-! ### Folds over the numbers below a bound -/

/-- What holds before the first step and is kept by each step holds after the last. -/
theorem foldN_induct {P : Nat → Dev → Prop} {g : Dev → Nat → Dev} {N : Nat} {d : Dev} (h0 : P 0 d)
    (hstep : ∀ e k, k < N → P k e → P (k + 1) (g e k)) : P N (foldN N g d) := by
  have hall : ∀ k ≤ N, P k (foldN k g d) := by
    intro k
    induction k with
    | zero => exact fun _ => h0
    | succ k ih =>
      intro hk
      have heq : foldN (k + 1) g d = g (foldN k g d) k := by simp [foldN, upto, List.range_succ]
      rw [heq]
      exact hstep _ k hk (ih (Nat.le_of_succ_le hk))
  exact hall N le_rfl

/-- Where step `k` acts on observation `k` by `F k` and leaves the others alone, so does the fold. `I` is kept by every step. -/
theorem foldN_at {β : Type} {π : Nat → Dev → β} {F : Nat → β → β} {I : Dev → Prop} {g : Dev → Nat → Dev} {N : Nat}
    {d : Dev} (hd : I d) (hI : ∀ e k, k < N → I e → I (g e k)) (hself : ∀ e k, k < N → I e → π k (g e k) = F k (π k e))
    (hother : ∀ e k j, k < N → j < N → j ≠ k → I e → π j (g e k) = π j e) {n : Nat} (hn : n < N) :
    π n (foldN N g d) = F n (π n d) := by
  have hall := foldN_induct (P := fun k e => I e ∧ π n e = if n < k then F n (π n d) else π n d) (g := g) (N := N) (d := d)
    ⟨hd, by simp⟩ (fun e k hk ⟨hIe, he⟩ => ⟨hI e k hk hIe, ?_⟩)
  · rw [hall.2, if_pos hn]
  · by_cases h : n = k
    · subst h
      rw [hself e n hn hIe, he, if_neg (lt_irrefl n), if_pos (Nat.lt_succ_self n)]
    · rw [hother e k n hk hn h hIe, he]
      by_cases hlt : n < k
      · rw [if_pos hlt, if_pos (Nat.lt_succ_of_lt hlt)]
      · rw [if_neg hlt, if_neg (by omega)]

/-! ### Units and clusters by number -/

theorem Dev.memberOf_congr {d e : Dev} (h : e.regs = d.regs) (n : Nat) : e.memberOf n = d.memberOf n := by
  rw [Dev.memberOf, Dev.flag_congr h, Dev.fld_congr h]; rfl

theorem Dev.unit_congr {d e : Dev} (h : e.units = d.units) (n : Nat) : e.unit n = d.unit n :=
  congrArg (fun l => nth l n PhUnit.reset) h

theorem Dev.unit_updUnit_same (d : Dev) {n : Nat} (f : PhUnit → PhUnit) (h : n < d.units.length) :
    (d.updUnit n f).unit n = f (d.unit n) := nth_updAt_same _ _ _ h

theorem Dev.unit_updUnit_other (d : Dev) {n j : Nat} (f : PhUnit → PhUnit) (h : j ≠ n) : (d.updUnit n f).unit j = d.unit j :=
  nth_updAt_other _ _ _ h

theorem Dev.cluster_updCluster_same (d : Dev) {k : Nat} (f : Cluster → Cluster) (h : k < d.clusters.length) :
    (d.updCluster k f).cluster k = f (d.cluster k) := nth_updAt_same _ _ _ h

theorem Dev.cluster_updCluster_other (d : Dev) {k j : Nat} (f : Cluster → Cluster) (h : j ≠ k) :
    (d.updCluster k f).cluster j = d.cluster j := nth_updAt_other _ _ _ h

/-- A rewrite of unit `n` leaves each unit as it is, or is that of the unit. -/
theorem Dev.unit_updUnit_cases (d : Dev) (n : Nat) (f : PhUnit → PhUnit) (j : Nat) :
    (d.updUnit n f).unit j = d.unit j ∨ (j = n ∧ (d.updUnit n f).unit j = f (d.unit j)) := by
  by_cases h : j = n
  · subst h
    by_cases hlen : j < d.units.length
    · exact .inr ⟨rfl, d.unit_updUnit_same f hlen⟩
    · refine .inl ?_
      have hlen' : (updAt d.units j f).length ≤ j := by rw [updAt_length]; exact Nat.le_of_not_lt hlen
      simp only [Dev.unit, Dev.updUnit, nth, List.getD_eq_default _ _ hlen', List.getD_eq_default _ _ (Nat.le_of_not_lt hlen)]
  · exact .inl (d.unit_updUnit_other f h)

/-- The block with its fixed shape has 64 units and 8 clusters. -/
theorem Dev.array_length {d : Dev} (h : d.shape = true) : d.units.length = 64 ∧ d.clusters.length = 8 := by
  simp only [Dev.shape, Bool.and_eq_true, beq_iff_eq] at h
  tauto

/-! ### What the reaction to a loss spares -/

/-- From `d` to `e` the status words of pages 0x030 to 0x070 and the units that are no members stand, and a unit that is LOST in
tri-state stays so. -/
structure Dev.Spared (d e : Dev) : Prop where
  regs : e.regs = d.regs
  pages : ∀ q, 0x30 ≤ q → q ≤ 0x70 → e.statOf q = d.statOf q
  free : ∀ n, d.memberOf n = none → e.unit n = d.unit n
  lost : ∀ n, (d.unit n).st = .lost → (d.unit n).tri = true → (e.unit n).st = .lost ∧ (e.unit n).tri = true

theorem Dev.Spared.refl (d : Dev) : d.Spared d := ⟨rfl, fun _ _ _ => rfl, fun _ _ => rfl, fun _ hs ht => ⟨hs, ht⟩⟩

theorem Dev.Spared.trans {d e f : Dev} (h : d.Spared e) (k : e.Spared f) : d.Spared f where
  regs := k.regs.trans h.regs
  pages q hlo hhi := (k.pages q hlo hhi).trans (h.pages q hlo hhi)
  free n hn := (k.free n (by rw [Dev.memberOf_congr h.regs, hn])).trans (h.free n hn)
  lost n hs ht := (h.lost n hs ht).elim (k.lost n)

theorem Dev.Spared.ite {c : Prop} [Decidable c] {d e f : Dev} (h : d.Spared e) (k : d.Spared f) : d.Spared (if c then e else f) := by
  split
  · exact h
  · exact k

theorem Dev.Spared.foldN {g : Dev → Nat → Dev} {N : Nat} (h : ∀ (e : Dev) k, k < N → e.Spared (g e k)) (d : Dev) :
    d.Spared (foldN N g d) :=
  foldN_induct (P := fun _ e => d.Spared e) (.refl d) fun e k hk he => he.trans (h e k hk)

theorem Dev.spared_of_same {d e : Dev} (hregs : e.regs = d.regs) (hstat : e.stat = d.stat) (hunits : e.units = d.units) :
    d.Spared e :=
  ⟨hregs, fun q _ _ => Dev.statOf_congr hstat q, fun n _ => Dev.unit_congr hunits n,
    fun n hs ht => by rw [Dev.unit_congr hunits]; exact ⟨hs, ht⟩⟩

/-- What changes neither registers, nor status words, nor units. -/
theorem Dev.onlyIn.spared {l : List Part} {d e : Dev} (h : Dev.onlyIn l d e)
    (hl : (l.contains .regs || l.contains .stat || l.contains .units) = false) : d.Spared e := by
  simp only [Bool.or_eq_false_iff, List.contains_eq_mem, decide_eq_false_iff_not] at hl
  obtain ⟨⟨hregs, hstat⟩, hunits⟩ := hl
  exact Dev.spared_of_same (h .regs hregs) (h .stat hstat) (h .units hunits)

/-- An occurrence on a page outside 0x030 to 0x070. -/
theorem Dev.spared_occur (d : Dev) {pg : Nat} (bit : Nat) (h : pg < 0x30 ∨ 0x70 < pg) : d.Spared (d.occur pg bit) :=
  ⟨rfl, fun q hlo hhi => d.statOf_occur_other bit (by omega), fun _ _ => rfl, fun _ hs ht => ⟨hs, ht⟩⟩

theorem Dev.spared_updUnit (d : Dev) {n : Nat} {f : PhUnit → PhUnit} (hm : d.memberOf n ≠ none)
    (hf : ∀ u : PhUnit, u.st = .lost → u.tri = true → (f u).st = .lost ∧ (f u).tri = true) : d.Spared (d.updUnit n f) where
  regs := rfl
  pages _ _ _ := rfl
  free j hj := d.unit_updUnit_other f fun h => hm (h ▸ hj)
  lost j hs ht := by
    obtain h | ⟨-, h⟩ := d.unit_updUnit_cases n f j
    · rw [h]; exact ⟨hs, ht⟩
    · rw [h]; exact hf _ hs ht

/-! ### The parts of the reaction -/

theorem Dev.spared_injStop (d : Dev) (cause : Nat) : d.Spared (d.injStop cause) := by
  unfold Dev.injStop
  extract_lets j e
  have he : d.Spared e := Dev.spared_of_same rfl rfl rfl
  exact .ite (.ite he (he.trans (e.spared_occur 0 (by decide)))) (.refl d)

theorem Dev.spared_injStopRail (d : Dev) (r cause : Nat) : d.Spared (d.injStopRail r cause) := .ite (d.spared_injStop cause) (.refl d)

/-- Unit `n` in tri-state: in FAULT and LOST it keeps its state, else it is IDLE (R89). -/
def PhUnit.still (u : PhUnit) : PhUnit :=
  if u.st = .fault ∨ u.st = .lost then { u with tri := true, duty := 0 } else u.to .idle true

theorem Dev.spared_triAll (d : Dev) (r : Nat) : d.Spared (d.triAll r) := by
  refine .foldN (fun e n _ => ?_) d
  split
  case isTrue h =>
    refine e.spared_updUnit (f := PhUnit.still) (fun hn => ?_) fun u hs _ => ?_
    · rw [Dev.isMember, hn] at h; exact absurd h (by simp)
    · rw [PhUnit.still, if_pos (.inr hs)]; exact ⟨hs, rfl⟩
  case isFalse => exact .refl e

theorem Dev.spared_failMember (d : Dev) (i cause : Nat) (keep : Bool) : d.Spared (d.failMember i cause keep) := by
  refine .trans ?_ ((Dev.stopDependants_onlyIn _ i).spared rfl)
  refine .trans ?_ (Dev.spared_occur _ 0 (by decide))
  exact Dev.spared_of_same rfl rfl rfl

theorem Dev.spared_memberBlockFault (d : Dev) (m : Nat) : d.Spared (d.memberBlockFault m) := by
  unfold Dev.memberBlockFault
  split
  case h_5 =>
    refine .trans ?_ (Dev.spared_occur _ 0 (by decide))
    exact Dev.spared_of_same rfl rfl rfl
  case h_6 => exact .refl d
  all_goals exact d.spared_failMember _ _ _

theorem Dev.spared_noPhase (d : Dev) {r : Nat} (hr : r < 4) : d.Spared (d.noPhase r) := by
  have htrip : d.Spared (d.tripRail r 4) := by
    refine .trans ?_ (Dev.spared_memberBlockFault _ r)
    refine .trans ?_ (Dev.spared_occur _ 4 (by simp only [railPg]; omega))
    refine .trans ?_ ((Dev.updRail_onlyIn _ _ _).spared rfl)
    refine .trans ?_ (Dev.spared_triAll _ r)
    exact .ite (d.spared_injStopRail r 3) (.refl d)
  exact .ite htrip (.refl d)

theorem Dev.spared_overrunTick (d : Dev) : d.Spared d.overrunTick := by
  unfold Dev.overrunTick
  extract_lets r s e f
  have he : d.Spared e := .ite (d.spared_occur 0 (by decide)) (.refl d)
  have hf : e.Spared f := .ite (e.spared_occur 1 (by decide)) (.refl e)
  exact (he.trans hf).trans ((Dev.updLed_onlyIn _ _).spared rfl)

theorem Dev.spared_capRaise (d : Dev) (n : Nat) : d.Spared (d.capRaise n) := by
  unfold Dev.capRaise
  extract_lets c old t e f
  have he : d.Spared e := (Dev.updPort_onlyIn _ _ _).spared rfl
  have hf : e.Spared f := .ite (e.spared_occur 0 (by decide)) (.refl e)
  exact (he.trans hf).trans (.ite (f.spared_occur 1 (by decide)) (.refl f))

theorem Dev.spared_rebudget (d : Dev) : d.Spared d.rebudget :=
  ((Dev.limitTick_onlyIn d).spared rfl).trans
    ((Dev.spared_overrunTick _).trans (.foldN (fun e n _ => e.spared_capRaise n) _))

/-! ### The units and clusters lost -/

/-- Units of the lost clusters: LOST is recorded, and a member leaves service (R120, R571). -/
def Dev.loseUnit (p : Nat → Bool) (d : Dev) (n : Nat) : Dev :=
  if p (n / 8) then
    let d := d.occur (unitPg n) 4
    match d.memberOf n with
    | none => d
    | some r => (d.updUnit n fun u => u.to .lost true).injStopRail r 5
  else d

/-- The full frond of a lost cluster begins anew (R120). -/
def Dev.restartFrond (p : Nat → Bool) (d : Dev) (k : Nat) : Dev :=
  if p k then d.updCluster k fun c => { c with goodFronds := 0 } else d

/-- The rail's capacity after the loss: DERATED, an injection stopped, and a rail without units trips (R120, R121). -/
def Dev.derate (before : List Int) (d : Dev) (r : Nat) : Dev :=
  let c0 := nth before r 0
  let d := d.capTick r
  if decide ((d.rail r).cap < c0) then
    let d := d.updRail r fun x => { x with capRef := c0, derated := true }
    (d.injStopRail r 6).noPhase r
  else d

theorem Dev.loseClusters_eq (d : Dev) (p : Nat → Bool) :
    d.loseClusters p =
      (foldN 4 (Dev.derate (d.rails.map Rail.cap)) (foldN 8 (Dev.restartFrond p) (foldN 64 (Dev.loseUnit p) d))).rebudget := rfl

theorem Dev.spared_derate (before : List Int) (d : Dev) {r : Nat} (hr : r < 4) : d.Spared (Dev.derate before d r) := by
  unfold Dev.derate
  extract_lets c0 e f
  have he : d.Spared e := (Dev.capTick_onlyIn d r).spared rfl
  have hf : e.Spared f := (Dev.updRail_onlyIn _ _ _).spared rfl
  exact he.trans (.ite ((hf.trans (f.spared_injStopRail r 6)).trans (Dev.spared_noPhase _ hr)) (.refl e))

theorem Dev.loseUnit_cases (p : Nat → Bool) (d : Dev) (n : Nat) :
    (p (n / 8) = false ∧ Dev.loseUnit p d n = d) ∨
    (p (n / 8) = true ∧ d.memberOf n = none ∧ Dev.loseUnit p d n = d.occur (unitPg n) 4) ∨
    (p (n / 8) = true ∧ ∃ r, d.memberOf n = some r ∧
      Dev.loseUnit p d n = ((d.occur (unitPg n) 4).updUnit n fun u => u.to .lost true).injStopRail r 5) := by
  have hm : (d.occur (unitPg n) 4).memberOf n = d.memberOf n := rfl
  cases hp : p (n / 8)
  · exact .inl ⟨rfl, by simp [Dev.loseUnit, hp]⟩
  · refine .inr ?_
    cases hn : d.memberOf n
    · exact .inl ⟨rfl, rfl, by simp [Dev.loseUnit, hp, hm, hn]⟩
    · exact .inr ⟨rfl, _, rfl, by simp [Dev.loseUnit, hp, hm, hn]⟩

theorem Dev.loseUnit_onlyIn (p : Nat → Bool) (d : Dev) (n : Nat) : Dev.onlyIn [.stat, .units, .inj] d (Dev.loseUnit p d n) := by
  have hocc : Dev.onlyIn [.stat, .units, .inj] d (d.occur (unitPg n) 4) := Dev.onlyIn_mono (Dev.occur_onlyIn _ _ _) (by decide)
  obtain ⟨-, h⟩ | ⟨-, -, h⟩ | ⟨-, r, -, h⟩ := Dev.loseUnit_cases p d n <;> rw [h]
  · exact Dev.onlyIn_refl _ _
  · exact hocc
  · exact Dev.onlyIn_via (Dev.injStopRail_onlyIn _ _ _) (by decide) (Dev.onlyIn_via (Dev.updUnit_onlyIn _ _ _) (by decide) hocc)

theorem Dev.derate_onlyIn (before : List Int) (d : Dev) (r : Nat) :
    Dev.onlyIn [.stat, .rails, .units, .inj, .fh] d (Dev.derate before d r) := by
  have hcap : Dev.onlyIn [.stat, .rails, .units, .inj, .fh] d (d.capTick r) := Dev.onlyIn_mono (Dev.capTick_onlyIn _ _) (by decide)
  refine Dev.onlyIn_ite ?_ hcap
  exact Dev.onlyIn_via (Dev.noPhase_onlyIn _ _) (by decide) (Dev.onlyIn_via (Dev.injStopRail_onlyIn _ _ _) (by decide)
    (Dev.onlyIn_via (Dev.updRail_onlyIn _ _ _) (by decide) hcap))

/-- The loss of a unit touches the status words of its own page, and of none other from 0x030 to 0x070. -/
theorem Dev.loseUnit_statOf (p : Nat → Bool) (d : Dev) {n q : Nat} (hlo : 0x30 ≤ q) (hhi : q ≤ 0x70) (hq : q ≠ unitPg n) :
    (Dev.loseUnit p d n).statOf q = d.statOf q := by
  obtain ⟨-, h⟩ | ⟨-, -, h⟩ | ⟨-, r, -, h⟩ := Dev.loseUnit_cases p d n <;> rw [h]
  · exact d.statOf_occur_other _ hq
  · exact ((Dev.spared_injStopRail _ r 5).pages q hlo hhi).trans (d.statOf_occur_other _ hq)

theorem causeOf_unitPg_lost {n : Nat} (h : n < 64) : causeOf (unitPg n) 4 = 5 := by
  unfold causeOf unitPg
  iterate 9 rw [if_neg (by omega)]

/-- What the loss of its cluster does to the status words and the state of unit `n` of the block `d`. -/
def Dev.unitLost (d : Dev) (p : Nat → Bool) (n : Nat) (x : BlkStat × PhUnit) : BlkStat × PhUnit :=
  if p (n / 8) then (x.1.occur 4 5, if (d.memberOf n).isNone then x.2 else x.2.to .lost true) else x

theorem Dev.loseUnit_self {p : Nat → Bool} {d e : Dev} {n : Nat} (hn : n < 64) (hregs : e.regs = d.regs)
    (hlen : e.units.length = 64) :
    ((Dev.loseUnit p e n).statOf (unitPg n), (Dev.loseUnit p e n).unit n) = d.unitLost p n (e.statOf (unitPg n), e.unit n) := by
  have hpg : 0x30 ≤ unitPg n ∧ unitPg n ≤ 0x70 := by unfold unitPg; omega
  have hm := Dev.memberOf_congr hregs n
  unfold Dev.unitLost
  obtain ⟨hp, h⟩ | ⟨hp, hnone, h⟩ | ⟨hp, r, hr, h⟩ := Dev.loseUnit_cases p e n <;> rw [h, hp]
  · rfl
  · rw [← hm, hnone, Dev.statOf_occur_same, causeOf_unitPg_lost hn]; rfl
  · have hunits : ((((e.occur (unitPg n) 4).updUnit n fun u => u.to .lost true).injStopRail r 5).units) =
        ((e.occur (unitPg n) 4).updUnit n fun u => u.to .lost true).units := Dev.injStopRail_onlyIn _ _ _ .units (by decide)
    have hunit := Dev.unit_updUnit_same (e.occur (unitPg n) 4) (fun u => u.to .lost true) (lt_of_lt_of_eq hn hlen.symm)
    rw [(Dev.spared_injStopRail _ r 5).pages _ hpg.1 hpg.2, Dev.unit_congr hunits, hunit, ← hm, hr, ← causeOf_unitPg_lost hn,
      ← Dev.statOf_occur_same]
    rfl

theorem Dev.loseUnit_other {p : Nat → Bool} {e : Dev} {n j : Nat} (hj : j < 64) (hne : j ≠ n) :
    ((Dev.loseUnit p e n).statOf (unitPg j), (Dev.loseUnit p e n).unit j) = (e.statOf (unitPg j), e.unit j) := by
  have hunit : (Dev.loseUnit p e n).unit j = e.unit j := by
    obtain ⟨-, h⟩ | ⟨-, -, h⟩ | ⟨-, r, -, h⟩ := Dev.loseUnit_cases p e n <;> rw [h]
    · rfl
    · exact (Dev.unit_congr (Dev.injStopRail_onlyIn _ _ _ .units (by decide)) j).trans (Dev.unit_updUnit_other _ _ hne)
  rw [hunit, Dev.loseUnit_statOf p e (by unfold unitPg; omega) (by unfold unitPg; omega) (by unfold unitPg; omega)]

/-- The units after the loss of their clusters, before the rails are looked at. -/
theorem Dev.loseUnits_at {d : Dev} (p : Nat → Bool) (hlen : d.units.length = 64) {n : Nat} (hn : n < 64) :
    ((foldN 64 (Dev.loseUnit p) d).statOf (unitPg n), (foldN 64 (Dev.loseUnit p) d).unit n) =
      d.unitLost p n (d.statOf (unitPg n), d.unit n) := by
  refine foldN_at (π := fun n e => (e.statOf (unitPg n), e.unit n)) (F := d.unitLost p)
    (I := fun e => e.regs = d.regs ∧ e.units.length = 64) ⟨rfl, hlen⟩ (fun e k _ hI => ⟨?_, ?_⟩)
    (fun e k hk hI => Dev.loseUnit_self hk hI.1 hI.2) (fun e k j _ hj hne _ => Dev.loseUnit_other hj hne) hn
  · exact (Dev.loseUnit_onlyIn p e k .regs (by decide)).trans hI.1
  · rw [← hI.2]
    obtain ⟨-, h⟩ | ⟨-, -, h⟩ | ⟨-, r, -, h⟩ := Dev.loseUnit_cases p e k <;> rw [h]
    · rfl
    · rw [Dev.injStopRail_onlyIn _ _ _ .units (by decide)]; exact updAt_length _ _ _

/-- The clusters after the loss. -/
theorem Dev.restartFronds_at {d : Dev} (p : Nat → Bool) (hlen : d.clusters.length = 8) {k : Nat} (hk : k < 8) :
    (foldN 8 (Dev.restartFrond p) d).cluster k = if p k then { d.cluster k with goodFronds := 0 } else d.cluster k := by
  refine foldN_at (π := fun k e => e.cluster k) (F := fun k c => if p k then { c with goodFronds := 0 } else c)
    (I := fun e => e.clusters.length = 8) hlen (fun e j _ hI => ?_) (fun e j hj hI => ?_) (fun e j i _ _ hne _ => ?_) hk
  · unfold Dev.restartFrond; split
    · exact (updAt_length _ _ _).trans hI
    · exact hI
  · unfold Dev.restartFrond; split
    · exact e.cluster_updCluster_same _ (lt_of_lt_of_eq hj hI.symm)
    · rfl
  · unfold Dev.restartFrond; split
    · exact e.cluster_updCluster_other _ hne
    · rfl

/-- What a loss of the clusters of `p` does to their units, to page 0x070 and to the clusters (R120, R571). -/
theorem Dev.loseClusters_effect {d : Dev} (p : Nat → Bool) (hunits : d.units.length = 64) (hclusters : d.clusters.length = 8) :
    (∀ n, n < 64 → p (n / 8) = true →
      (d.loseClusters p).statOf (unitPg n) = (d.statOf (unitPg n)).occur 4 5 ∧
      (d.memberOf n ≠ none → ((d.loseClusters p).unit n).st = .lost ∧ ((d.loseClusters p).unit n).tri = true) ∧
      (d.memberOf n = none → (d.loseClusters p).unit n = d.unit n)) ∧
    (d.loseClusters p).statOf 0x70 = d.statOf 0x70 ∧
    ∀ k, k < 8 → (d.loseClusters p).cluster k = if p k then { d.cluster k with goodFronds := 0 } else d.cluster k := by
  have h1 : Dev.onlyIn [.stat, .units, .inj] d (foldN 64 (Dev.loseUnit p) d) := foldN_onlyIn _ _ _ fun x n => Dev.loseUnit_onlyIn p x n
  have hregs : (foldN 64 (Dev.loseUnit p) d).regs = d.regs := h1 .regs (by decide)
  have hclus : (foldN 64 (Dev.loseUnit p) d).clusters = d.clusters := h1 .clusters (by decide)
  have h70 : (foldN 64 (Dev.loseUnit p) d).statOf 0x70 = d.statOf 0x70 :=
    foldN_induct (P := fun _ e => e.statOf 0x70 = d.statOf 0x70) rfl fun e k hk he =>
      (Dev.loseUnit_statOf p e (by decide) (by decide) (by unfold unitPg; omega)).trans he
  have hat := fun n (hn : n < 64) => Dev.loseUnits_at p hunits hn
  rw [Dev.loseClusters_eq]
  generalize foldN 64 (Dev.loseUnit p) d = d1 at h1 hregs hclus h70 hat
  have h2 : Dev.onlyIn [.clusters] d1 (foldN 8 (Dev.restartFrond p) d1) :=
    foldN_onlyIn _ _ _ fun x k => Dev.onlyIn_ite (Dev.updCluster_onlyIn _ _ _) (Dev.onlyIn_refl _ _)
  have hat2 := fun k (hk : k < 8) => Dev.restartFronds_at (d := d1) p (by rw [hclus]; exact hclusters) hk
  generalize foldN 8 (Dev.restartFrond p) d1 = d2 at h2 hat2
  have h3 : Dev.onlyIn [.stat, .rails, .units, .inj, .fh, .adm] d2 (foldN 4 (Dev.derate (d.rails.map Rail.cap)) d2).rebudget :=
    Dev.onlyIn_via (Dev.rebudget_onlyIn _) (by decide)
      (Dev.onlyIn_mono (foldN_onlyIn _ _ _ fun x r => Dev.derate_onlyIn _ x r) (by decide))
  have hspared : d1.Spared (foldN 4 (Dev.derate (d.rails.map Rail.cap)) d2).rebudget :=
    (h2.spared rfl).trans ((Dev.Spared.foldN (fun e r hr => Dev.spared_derate _ e hr) d2).trans (Dev.spared_rebudget _))
  generalize (foldN 4 (Dev.derate (d.rails.map Rail.cap)) d2).rebudget = e at h3 hspared
  refine ⟨fun n hn hp => ?_, (hspared.pages _ (by decide) (by decide)).trans h70, fun k hk => ?_⟩
  · have hn1 := hat n hn
    rw [Dev.unitLost, if_pos hp, Prod.mk.injEq] at hn1
    obtain ⟨hstat, hunit⟩ := hn1
    refine ⟨(hspared.pages _ (by unfold unitPg; omega) (by unfold unitPg; omega)).trans hstat, fun hm => ?_, fun hm => ?_⟩
    · rw [if_neg (by simpa using hm)] at hunit
      exact hspared.lost n (by rw [hunit]; rfl) (by rw [hunit]; rfl)
    · rw [hspared.free n (by rw [Dev.memberOf_congr hregs, hm]), hunit, if_pos (by rw [hm]; rfl)]
  · have hcl : e.clusters = d2.clusters := h3 .clusters (by decide)
    have hck : e.cluster k = d2.cluster k := congrArg (fun l => nth l k _) hcl
    have hck1 : d1.cluster k = d.cluster k := congrArg (fun l => nth l k _) hclus
    rw [hck, hat2 k hk, hck1]

end Sys2Proof.Machine
end

section
/-! PROOF. Regions and clusters: their loss, the relock of a timebase and the return of lost units (R17, R32, R120, R127, R571). -/

namespace Sys2Proof.Machine

/-! ### A region whose VALID changes -/

@[simp] theorem Dev.regionValid_setRegion (d : Dev) (g h : Region) (v : Bool) :
    (d.setRegion g v).regionValid h = if h = g then v else d.regionValid h := by
  have hdie : (d.forgetStages g).die = d.die := Dev.forgetStages_onlyIn d g .die (by decide)
  cases v <;> cases g <;> cases h <;> simp [Dev.setRegion, Dev.regionValid, hdie]

theorem Dev.regionValid_congr {d e : Dev} (h : e.die = d.die) (g : Region) : e.regionValid g = d.regionValid g := by
  cases g <;> simp [Dev.regionValid, h]

/-- A region that becomes invalid forgets no stage reading. -/
theorem Dev.setRegion_false_onlyIn (d : Dev) (g : Region) : Dev.onlyIn [.die, .xfer] d (d.setRegion g false) := by
  cases g
  · exact Dev.onlyIn_put_die (Dev.onlyIn_refl _ _) (by decide)
  · exact Dev.onlyIn_put_die_xfer (Dev.onlyIn_refl _ _) (by decide) (by decide)

/-- A region that becomes valid leaves the judgement of its switches as it is. -/
theorem Dev.setRegion_true_onlyIn (d : Dev) (g : Region) : Dev.onlyIn [.die, .units, .therm] d (d.setRegion g true) := by
  have hf : Dev.onlyIn [.die, .units, .therm] d (d.forgetStages g) := Dev.onlyIn_mono (Dev.forgetStages_onlyIn d g) (by decide)
  cases g
  · exact Dev.onlyIn_put_die hf (by decide)
  · exact Dev.onlyIn_put_die hf (by decide)

theorem Dev.setRegion_false_xfer (d : Dev) (g : Region) :
    (d.setRegion g false).xfer = if g = .g1 then { d.xfer with judge := false, g1Good := 0 } else d.xfer := by
  cases g <;> rfl

theorem Dev.unit_forgetStages {d : Dev} (g : Region) (hlen : d.units.length = 64) {n : Nat} (hn : n < 64) :
    (d.forgetStages g).unit n = if inRegion g (n / 8) then { d.unit n with temp := none } else d.unit n := by
  refine foldN_at (π := fun n e => e.unit n) (F := fun n u => if inRegion g (n / 8) then { u with temp := none } else u)
    (I := fun e => e.units.length = 64) hlen (fun e k _ hI => ?_) (fun e k hk hI => ?_) (fun e k j _ _ hne _ => ?_) hn
  · split
    · exact (updAt_length _ _ _).trans hI
    · exact hI
  · split
    · exact e.unit_updUnit_same _ (lt_of_lt_of_eq hk hI.symm)
    · rfl
  · split
    · exact e.unit_updUnit_other _ hne
    · rfl

theorem Dev.unit_setRegion_true (d : Dev) (g : Region) (n : Nat) : (d.setRegion g true).unit n = (d.forgetStages g).unit n := by
  cases g <;> exact Dev.unit_congr (by simp [Dev.setRegion]) n

/-! ### The loss of a region -/

theorem Dev.loseRegion_eq {d : Dev} {g : Region} (h : d.regionValid g = true) :
    d.loseRegion g = ((d.setRegion g false).occur 0x70 (timebaseBit g)).loseClusters (inRegion g) := if_pos h

theorem Dev.loseRegion_valid_onlyIn (d : Dev) (g : Region) :
    Dev.onlyIn [.adm, .stat, .clusters, .inj, .fh, .die, .units, .rails, .xfer] d (d.loseRegion g) :=
  Dev.onlyIn_ite (Dev.onlyIn_via (Dev.loseClusters_onlyIn _ _) (by decide) (Dev.onlyIn_via (Dev.occur_onlyIn _ _ _) (by decide)
    (Dev.onlyIn_mono (Dev.setRegion_false_onlyIn d g) (by decide)))) (Dev.onlyIn_refl _ _)

theorem Dev.loseRegion_die (d : Dev) (g : Region) (h : d.regionValid g = true) : (d.loseRegion g).die = (d.setRegion g false).die := by
  rw [Dev.loseRegion_eq h]; exact Dev.loseClusters_onlyIn _ _ .die (by decide)

theorem Dev.loseRegion_xfer (d : Dev) (g : Region) (h : d.regionValid g = true) :
    (d.loseRegion g).xfer = (d.setRegion g false).xfer := by
  rw [Dev.loseRegion_eq h]; exact Dev.loseClusters_onlyIn _ _ .xfer (by decide)

/-- What the loss of a valid region does (R17, R120, R127). -/
theorem completes_loseRegion {s : State} {g : Region} {c : Instr} (hc : exec c s = done (fun d => d.loseRegion g) s)
    (hshape : s.d.shape = true) (hv : s.d.regionValid g = true) :
    Completes c s [.adm, .stat, .clusters, .inj, .fh, .die, .units, .rails, .xfer] fun e =>
      e.xfer = (if g = .g1 then { s.d.xfer with judge := false, g1Good := 0 } else s.d.xfer) ∧
      e.regionValid g = false ∧ (∀ h, h ≠ g → e.regionValid h = s.d.regionValid h) ∧
      e.statOf 0x70 = (s.d.statOf 0x70).occur (timebaseBit g) (causeOf 0x70 (timebaseBit g)) ∧
      (∀ n, n < 64 → inRegion g (n / 8) = true →
        e.statOf (unitPg n) = (s.d.statOf (unitPg n)).occur 4 5 ∧
        (s.d.memberOf n ≠ none → (e.unit n).st = .lost ∧ (e.unit n).tri = true) ∧
        (s.d.memberOf n = none → e.unit n = s.d.unit n)) ∧
      ∀ k, k < 8 → if inRegion g k then (e.cluster k).goodFronds = 0 else e.cluster k = s.d.cluster k := by
  obtain ⟨hunits, hclusters⟩ := Dev.array_length hshape
  have hset := Dev.setRegion_false_onlyIn s.d g
  have hstat : (s.d.setRegion g false).stat = s.d.stat := hset .stat (by decide)
  have hu : (s.d.setRegion g false).units = s.d.units := hset .units (by decide)
  have hcl : (s.d.setRegion g false).clusters = s.d.clusters := hset .clusters (by decide)
  have hreg : (s.d.setRegion g false).regs = s.d.regs := hset .regs (by decide)
  have hdie := s.d.loseRegion_die g hv
  obtain ⟨heff, h70, hclu⟩ := Dev.loseClusters_effect (d := (s.d.setRegion g false).occur 0x70 (timebaseBit g)) (inRegion g)
    ((congrArg List.length hu).trans hunits) ((congrArg List.length hcl).trans hclusters)
  rw [← Dev.loseRegion_eq hv] at heff h70 hclu
  refine completes_done hc rfl (s.d.loseRegion_valid_onlyIn g) ⟨(s.d.loseRegion_xfer g hv).trans (s.d.setRegion_false_xfer g), ?_,
    fun h hne => ?_, ?_, fun n hn hin => ?_, fun k hk => ?_⟩
  · rw [Dev.regionValid_congr hdie, Dev.regionValid_setRegion, if_pos rfl]
  · rw [Dev.regionValid_congr hdie, Dev.regionValid_setRegion, if_neg hne]
  · rw [h70, Dev.statOf_occur_same, Dev.statOf_congr hstat]
  · obtain ⟨hst, hlost, hfree⟩ := heff n hn hin
    rw [Dev.statOf_occur_other _ _ (by unfold unitPg; omega), Dev.statOf_congr hstat] at hst
    refine ⟨hst, fun hm => hlost (by rw [← Dev.memberOf_congr hreg n] at hm; exact hm), fun hm => ?_⟩
    exact (hfree (by rw [← Dev.memberOf_congr hreg n] at hm; exact hm)).trans (Dev.unit_congr hu n)
  · have hk' := hclu k hk
    have hck : ((s.d.setRegion g false).occur 0x70 (timebaseBit g)).cluster k = s.d.cluster k := congrArg (fun l => nth l k _) hcl
    rw [hck] at hk'
    rw [hk']
    split
    · rfl
    · rfl

/-! ### The relock of a timebase -/

/-- A region that is valid again: its stage readings are forgotten, and the precision channels settle with G0 (R102, R127, R215). -/
theorem completes_relock {s : State} {g : Region} (hshape : s.d.shape = true) (hvana : s.d.vana g = true)
    (hlost : s.d.vanaLost g = false) (hv : s.d.regionValid g = false) :
    Completes (.timebaseRelock g) s [.die, .units, .therm, .sense] fun e =>
      e.regionValid g = true ∧ (∀ h, h ≠ g → e.regionValid h = s.d.regionValid h) ∧
      (∀ n, n < 64 → e.unit n = if inRegion g (n / 8) then { s.d.unit n with temp := none } else s.d.unit n) ∧
      e.sense = if g = .g0 then { s.d.sense with pre := s.d.sense.pre.map fun p => { p with metSince := s.d.now } } else s.d.sense := by
  obtain ⟨hunits, -⟩ := Dev.array_length hshape
  have hset := Dev.setRegion_true_onlyIn s.d g
  have hsense : (s.d.setRegion g true).sense = s.d.sense := hset .sense (by decide)
  have hnow : (s.d.setRegion g true).now = s.d.now := by rw [Dev.now, hset .time (by decide)]; rfl
  have hcond : (s.d.vana g && !s.d.vanaLost g && !s.d.regionValid g) = true := by rw [hvana, hlost, hv]; rfl
  have hwhen : Dev.onlyIn [.sense] (s.d.setRegion g true) ((s.d.setRegion g true).when (g == .g0) Dev.metRestart) :=
    Dev.onlyIn_ite (Dev.metRestart_onlyIn _) (Dev.onlyIn_refl _ _)
  have hdie := hwhen .die (by decide)
  have hun := hwhen .units (by decide)
  refine completes_done rfl (if_pos hcond) (Dev.onlyIn_via hwhen (by decide) (Dev.onlyIn_mono hset (by decide))) ⟨?_, fun h hne => ?_,
    fun n hn => ?_, ?_⟩
  · rw [Dev.regionValid_congr hdie, Dev.regionValid_setRegion, if_pos rfl]
  · rw [Dev.regionValid_congr hdie, Dev.regionValid_setRegion, if_neg hne]
  · rw [Dev.unit_congr hun, Dev.unit_setRegion_true, Dev.unit_forgetStages g hunits hn]
  · cases g
    · rw [← hsense, ← hnow]; rfl
    · exact hsense

/-! ### Bits of the clusters in service -/

theorem getLsbD_clusterBit (j k : Fin 8) : (1#8 <<< k.val).getLsbD j = decide (j = k) := by
  revert j k; decide

theorem clusterOk_lost (ok : BitVec 8) (j k : Fin 8) :
    (ok &&& ~~~(1#8 <<< k.val)).getLsbD j = (ok.getLsbD j && decide (j ≠ k)) := by
  rw [BitVec.getLsbD_and, BitVec.getLsbD_not, getLsbD_clusterBit]
  simp [j.isLt]

theorem clusterOk_back (ok : BitVec 8) (j k : Fin 8) :
    (ok ||| (1#8 <<< k.val)).getLsbD j = (ok.getLsbD j || decide (j = k)) := by
  rw [BitVec.getLsbD_or, getLsbD_clusterBit]

/-! ### A cluster that leaves service -/

theorem completes_clusterFault {s : State} (k : Fin 8) (hshape : s.d.shape = true) :
    Completes (.clusterFault k) s [.adm, .stat, .clusters, .inj, .fh, .die, .units, .rails] fun e =>
      (∀ j : Fin 8, e.die.clusterOk.getLsbD j = (s.d.die.clusterOk.getLsbD j && decide (j ≠ k))) ∧
      (∀ j, j < 8 →
        e.statOf (unitPg (8 * k + j)) = (s.d.statOf (unitPg (8 * k + j))).occur 4 5 ∧
        (s.d.memberOf (8 * k + j) ≠ none → (e.unit (8 * k + j)).st = .lost ∧ (e.unit (8 * k + j)).tri = true)) ∧
      (e.cluster k).goodFronds = 0 ∧ ∀ j, j < 8 → j ≠ k.val → e.cluster j = s.d.cluster j := by
  obtain ⟨hunits, hclusters⟩ := Dev.array_length hshape
  obtain ⟨heff, -, hclu⟩ := Dev.loseClusters_effect (fun j => j == k.val) hunits hclusters
    (d := { s.d with die := { s.d.die with clusterOk := s.d.die.clusterOk &&& ~~~(1#8 <<< k.val) } })
  refine completes_done rfl rfl (Dev.onlyIn_via (Dev.loseClusters_onlyIn _ _) (by decide)
    (Dev.onlyIn_put_die (Dev.onlyIn_refl _ _) (by decide))) ⟨fun j => ?_, fun j hj => ?_, ?_, fun j hj hne => ?_⟩
  · rw [Dev.loseClusters_onlyIn _ _ .die (by decide)]
    exact clusterOk_lost _ j k
  · have hdiv : (8 * k.val + j) / 8 = k.val := by omega
    obtain ⟨hst, hlost, -⟩ := heff (8 * k.val + j) (by omega) (by rw [hdiv]; exact beq_self_eq_true _)
    exact ⟨hst, hlost⟩
  · rw [hclu k k.isLt, if_pos (beq_self_eq_true _)]
  · rw [hclu j hj, if_neg (by simpa using hne)]
    rfl

/-! ### The return of lost units -/

/-- Unit `j` of cluster `k` returns where it is LOST (R120, R571). -/
def Dev.returnUnit (k : Nat) (d : Dev) (j : Nat) : Dev :=
  let st := d.backState (8 * k + j)
  d.updUnit (8 * k + j) fun u => if u.st = .lost then u.to st true else u

theorem Dev.returnUnit_onlyIn (k : Nat) (d : Dev) (j : Nat) : Dev.onlyIn [.units] d (Dev.returnUnit k d j) :=
  Dev.updUnit_onlyIn _ _ _

theorem Dev.imonInv_returnUnit (k : Nat) (d : Dev) (j n : Nat) : ((Dev.returnUnit k d j).unit n).imonInv = (d.unit n).imonInv := by
  obtain h | ⟨-, h⟩ := d.unit_updUnit_cases (8 * k + j) (fun u => if u.st = .lost then u.to (d.backState (8 * k + j)) true else u) n
  · exact congrArg PhUnit.imonInv h
  · refine (congrArg PhUnit.imonInv h).trans ?_
    split
    · rfl
    · rfl

/-- The state a unit returns in depends on its status, its stage shutdown and its IMON_INV bit. -/
theorem Dev.backState_congr {d e : Dev} (h : Dev.onlyIn [.units] d e) {n : Nat} (hi : (e.unit n).imonInv = (d.unit n).imonInv) :
    e.backState n = d.backState n := by
  have hst : ∀ pg bit, e.stBit pg bit = d.stBit pg bit := fun pg bit => by
    simp only [Dev.stBit, Dev.status, Dev.statOf_congr (h .stat (by decide))]
  have htherm : e.therm = d.therm := h .therm (by decide)
  simp only [Dev.backState, hst, htherm, hi]

/-- The units of a cluster after their return. -/
theorem Dev.returnUnits_self {d : Dev} {k : Nat} (hlen : d.units.length = 64) (hk : k < 8) {j : Nat} (hj : j < 8) :
    (foldN 8 (Dev.returnUnit k) d).unit (8 * k + j) =
      if (d.unit (8 * k + j)).st = .lost then (d.unit (8 * k + j)).to (d.backState (8 * k + j)) true else d.unit (8 * k + j) := by
  refine foldN_at (π := fun j e => e.unit (8 * k + j))
    (F := fun j u => if u.st = .lost then u.to (d.backState (8 * k + j)) true else u)
    (I := fun e => e.units.length = 64 ∧ Dev.onlyIn [.units] d e ∧ ∀ n, (e.unit n).imonInv = (d.unit n).imonInv)
    ⟨hlen, Dev.onlyIn_refl _ _, fun _ => rfl⟩ (fun e j _ hI => ?_) (fun e j hj hI => ?_) (fun e j i _ _ hne _ => ?_) hj
  · obtain ⟨hel, hed, hei⟩ := hI
    exact ⟨(updAt_length _ _ _).trans hel, Dev.onlyIn_via (Dev.returnUnit_onlyIn k e j) (by decide) hed,
      fun n => (e.imonInv_returnUnit k j n).trans (hei n)⟩
  · obtain ⟨hel, hed, hei⟩ := hI
    rw [← Dev.backState_congr hed (hei _)]
    exact e.unit_updUnit_same _ (by omega)
  · exact e.unit_updUnit_other _ (by omega)

theorem Dev.returnUnits_other {d : Dev} {k n : Nat} (h : n / 8 ≠ k) : (foldN 8 (Dev.returnUnit k) d).unit n = d.unit n :=
  foldN_induct (P := fun _ e => e.unit n = d.unit n) rfl fun e j hj he => (e.unit_updUnit_other _ (by omega)).trans he

theorem completes_lostReturn {s : State} (k : Fin 8) (hshape : s.d.shape = true) (h : s.d.lostReturn k = true) :
    Completes (.unitLostReturn k) s [.units] fun e =>
      (∀ n, n < 64 → n / 8 = k.val → (s.d.unit n).st = .lost → (e.unit n).st = s.d.backState n ∧ (e.unit n).tri = true) ∧
      ∀ n, n < 64 → (n / 8 ≠ k.val ∨ (s.d.unit n).st ≠ .lost) → e.unit n = s.d.unit n := by
  obtain ⟨hunits, -⟩ := Dev.array_length hshape
  have hself : ∀ n, n / 8 = k.val → (foldN 8 (Dev.returnUnit k.val) s.d).unit n =
      if (s.d.unit n).st = .lost then (s.d.unit n).to (s.d.backState n) true else s.d.unit n := fun n hn => by
    have hj := Dev.returnUnits_self hunits k.isLt (j := n % 8) (by omega)
    rwa [show 8 * k.val + n % 8 = n by omega] at hj
  refine completes_done (e := foldN 8 (Dev.returnUnit k.val) s.d) rfl (if_pos h)
    (foldN_onlyIn _ _ _ fun x j => Dev.returnUnit_onlyIn k.val x j)
    ⟨fun n _ hn hl => ?_, fun n _ hn => ?_⟩
  · rw [hself n hn, if_pos hl]
    exact ⟨rfl, rfl⟩
  · by_cases hc : n / 8 = k.val
    · exact (hself n hc).trans (if_neg (hn.resolve_left (not_not_intro hc)))
    · exact Dev.returnUnits_other hc

/-- A cluster whose fault has ended is valid again, and its full frond begins (R120, log 8). -/
theorem completes_clusterBack {s : State} (k : Fin 8) (hshape : s.d.shape = true) (h : s.d.die.clusterOk.getLsbD k = false) :
    Completes (.unitLostReturn k) s [.die, .clusters] fun e =>
      (∃ b, e.die = { s.d.die with clusterOk := b }) ∧
      (∀ j : Fin 8, e.die.clusterOk.getLsbD j = (s.d.die.clusterOk.getLsbD j || decide (j = k))) ∧
      e.cluster k = { s.d.cluster k with goodFronds := 0 } ∧ sameBut k.val s.d.clusters e.clusters := by
  obtain ⟨-, hclusters⟩ := Dev.array_length hshape
  have hlost : ¬ s.d.lostReturn k.val = true := by rw [Dev.lostReturn, Dev.clusterUp, h]; simp
  have hok : ¬ s.d.die.clusterOk.getLsbD k.val = true := by rw [h]; exact Bool.false_ne_true
  refine completes_done rfl ((if_neg hlost).trans (if_neg hok))
    (Dev.onlyIn_via (Dev.updCluster_onlyIn _ _ _) (by decide) (Dev.onlyIn_put_die (Dev.onlyIn_refl _ _) (by decide)))
    ⟨⟨_, rfl⟩, fun j => clusterOk_back _ j k, ?_, sameBut_updAt _ _ _⟩
  exact Dev.cluster_updCluster_same _ _ (lt_of_lt_of_eq k.isLt hclusters.symm)

/-- Settles O13: the loss and the return of a region and of a cluster, by the effect on each unit and cluster of the loop over the
64 units. -/
theorem regionsAndClusters : Obligations.RegionsAndClusters := by
  refine ⟨fun s g c hc hshape hv => ?_, fun s g => completes_relock, fun s k => completes_clusterFault k,
    fun s k => completes_lostReturn k, fun s k => completes_clusterBack k, fun s k hok hlost => ?_⟩
  · obtain rfl | rfl : c = .regionLoss g ∨ c = .timebaseUnlock g := by simpa using hc
    · exact completes_loseRegion rfl hshape hv
    · exact completes_loseRegion rfl hshape hv
  · refine done_self ((if_neg ?_).trans (if_pos hok))
    rw [hlost]
    exact Bool.false_ne_true

end Sys2Proof.Machine
end

section
/-! PROOF. The final record and the entries into the package-level safe state (R13, R33, R345, R346, R347, R388). -/

namespace Sys2Proof.Machine

/-! ### The final record -/

@[simp] theorem length_leBytes (k n : Nat) : (leBytes k n).length = k := by
  induction k generalizing n with
  | zero => rfl
  | succ k ih => rw [leBytes, List.length_cons, ih]

@[simp] theorem length_padTo (k : Nat) (l : List Byte) : (padTo k l).length = k := by simp [padTo, upto]

/-- A field put in its place leaves the length of a record as it is. -/
theorem length_putField {l v : List Byte} {o : Nat} (h : o + v.length ≤ l.length) : (putField l o v).length = l.length := by
  simp only [putField, List.length_append, List.length_take, List.length_drop]
  omega

theorem length_peatSeal {l : List Byte} (h : 32 ≤ l.length) : (peatSeal l).length = l.length := by
  simp only [peatSeal, List.length_append, List.length_take, List.length_drop, length_leBytes]
  omega

theorem Dev.length_bbuField (d : Dev) (old : List Byte) : (d.bbuField old).length = 4 := by simp [Dev.bbuField, upto]

theorem Dev.length_capField (d : Dev) (m : Nat) : (d.capField m).length = 8 := by
  unfold Dev.capField
  dsimp only
  split
  · simp
  · simp

/-- The bytes of the final record. -/
def Dev.finalBytes (d : Dev) (kind : Nat) : List Byte :=
  let st := padTo 512 d.peat.standing
  let st := putField (putField st 76 (d.bbuField (st.drop 76))) 96 ((upto 4).flatMap d.capField)
  let flags := setBit (setBit (st.getD 15 0).toNat 1 true) 2 (d.peat.lost || !d.peat.tap.isEmpty)
  peatSeal (putField (putField (putField (putField st 0 (leBytes 4 d.peat.next)) 12 (leBytes 3 d.time.tseq)) 15
    [BitVec.ofNat 8 flags]) 16 [BitVec.ofNat 8 kind])

/-- The MRAM with the final record in both copies. -/
def Dev.finalNv (d : Dev) (kind : Nat) : NvSt :=
  { d.nv with
    a := memWriteBytes d.nv.a (peatAddr d.peat.next) (d.finalBytes kind)
    b := memWriteBytes d.nv.b (peatAddr d.peat.next) (d.finalBytes kind) }

theorem Dev.finalRecord_eq (d : Dev) (kind : Nat) :
    d.finalRecord kind =
      { d with
        nv := d.finalNv kind
        peat := { d.peat with next := (d.peat.next + 1) % 2 ^ 32, count := min 4096 (d.peat.count + 1), tap := [], lost := false }
        die := { d.die with finalRecord := true } }.occur 0xB1 1 := rfl

theorem Dev.finalRecord_nv (d : Dev) (kind : Nat) : (d.finalRecord kind).nv = d.finalNv kind :=
  Dev.occur_onlyIn _ _ _ .nv (by decide)

theorem Dev.length_finalBytes (d : Dev) (kind : Nat) : (d.finalBytes kind).length = 512 := by
  have hcap : ((upto 4).flatMap d.capField).length = 32 := by simp [List.length_flatMap, Dev.length_capField, upto]
  unfold Dev.finalBytes
  extract_lets st st2 flags
  have hst : st.length = 512 := length_padTo _ _
  have hbbu : (putField st 76 (d.bbuField (st.drop 76))).length = 512 := by
    rw [length_putField (by rw [Dev.length_bbuField, hst]; decide), hst]
  have hst2 : st2.length = 512 := by rw [length_putField (by rw [hcap, hbbu]; decide), hbbu]
  have h0 : (putField st2 0 (leBytes 4 d.peat.next)).length = 512 := by
    rw [length_putField (by rw [length_leBytes, hst2]; decide), hst2]
  have h12 : (putField (putField st2 0 (leBytes 4 d.peat.next)) 12 (leBytes 3 d.time.tseq)).length = 512 := by
    rw [length_putField (by rw [length_leBytes, h0]; decide), h0]
  have h15 := length_putField (l := putField (putField st2 0 (leBytes 4 d.peat.next)) 12 (leBytes 3 d.time.tseq)) (o := 15)
    (v := [BitVec.ofNat 8 flags]) (by rw [h12, List.length_singleton]; decide)
  have h16 := length_putField (o := 16) (v := [BitVec.ofNat 8 kind]) (by rw [h15, h12, List.length_singleton]; decide)
  rw [length_peatSeal (by rw [h16, h15, h12]; decide), h16, h15, h12]

/-- The final record changes the MRAM in its own place alone (R388). -/
theorem Dev.finalRecord_peatOnly (d : Dev) (kind : Nat) : d.peatOnly (d.finalRecord kind) := by
  intro a ha
  have hout : a < peatAddr d.peat.next ∨ peatAddr d.peat.next + (d.finalBytes kind).length ≤ a := by
    rwa [d.length_finalBytes kind]
  have hread := fun m => memRead_memWriteBytes_outside m (d.finalBytes kind) hout
  rw [Dev.finalRecord_nv]
  simp only [Dev.finalNv, hread, and_self]

theorem Dev.finalRecord_next (d : Dev) (kind : Nat) : (d.finalRecord kind).peat.next = (d.peat.next + 1) % 2 ^ 32 := rfl

theorem Dev.finalRecord_statOf (d : Dev) (kind : Nat) : (d.finalRecord kind).statOf 0xB1 = (d.statOf 0xB1).occur 1 2 := by
  rw [Dev.finalRecord_eq, Dev.statOf_occur_same]; rfl

/-- Pages other than that of the peat records keep their status words. -/
theorem Dev.finalRecord_statOf_other (d : Dev) (kind : Nat) {pg : Nat} (h : pg ≠ 0xB1) :
    (d.finalRecord kind).statOf pg = d.statOf pg := by
  rw [Dev.finalRecord_eq, Dev.statOf_occur_other _ _ h]; rfl

/-! ### The safe state -/

/-- From `d` to `e` the package-level safe state was entered (R13, R33, R345, R388); the feeds are not spoken of. -/
structure Dev.SafeEntered (d e : Dev) : Prop where
  safe : e.die.safe = true
  flt : e.die.fltLow = true
  stopped : e.outputsStopped
  only : d.peatOnly e
  record : if d.die.finalRecord = true ∧ d.sup.vauxWarn = true then e.nv = d.nv ∧ e.peat = d.peat
    else e.peat.next = (d.peat.next + 1) % 2 ^ 32 ∧ e.statOf 0xB1 = (d.statOf 0xB1).occur 1 2

/-- What comes after the entry and leaves the outputs, the MRAM, the peat records and their page as they are. -/
theorem Dev.SafeEntered.after {d e f : Dev} (h : d.SafeEntered e) (hf : Dev.onlyIn [.die, .sup, .fh, .stat, .twin, .feedA, .feedB] e f)
    (hsafe : f.die.safe = e.die.safe) (hflt : f.die.fltLow = true) (hstat : f.statOf 0xB1 = e.statOf 0xB1) : d.SafeEntered f where
  safe := hsafe.trans h.safe
  flt := hflt
  stopped := by
    have hunits := hf .units (by decide)
    have hhs := hf .hs (by decide)
    have hst := h.stopped
    rw [Dev.outputsStopped] at hst ⊢
    rwa [hunits, hhs]
  only a ha := by rw [hf .nv (by decide)]; exact h.only a ha
  record := by
    have hrec := h.record
    rw [hf .nv (by decide), hf .peat (by decide), hstat]
    exact hrec

theorem Dev.outputsOff_stopped (d : Dev) : d.outputsOff.outputsStopped := by
  refine ⟨fun u hu => ?_, fun h hh => ?_⟩
  · obtain ⟨v, -, rfl⟩ := List.mem_map.mp hu
    exact ⟨rfl, rfl⟩
  · obtain ⟨v, -, rfl⟩ := List.mem_map.mp hh
    rfl

/-- The block of a safe state just entered, before its final record. -/
def Dev.outputsSafe (d : Dev) : Dev :=
  let d := { d with die := { d.die with safe := true, fltLow := true } }.outputsOff
  if d.flag 0x98 0x40 2 then
    (d.updFeed .a fun f => { f with drive := false }).updFeed .b fun f => { f with drive := false } else d

theorem Dev.enterSafe_eq {d : Dev} (h : d.die.safe = false) (kind : Nat) :
    d.enterSafe kind =
      if d.outputsSafe.die.finalRecord && d.outputsSafe.sup.vauxWarn then d.outputsSafe else d.outputsSafe.finalRecord kind := by
  unfold Dev.enterSafe
  rw [if_neg (by rw [h]; exact Bool.false_ne_true)]
  rfl

theorem Dev.outputsSafe_onlyIn (d : Dev) : Dev.onlyIn [.die, .units, .hs, .feedA, .feedB] d d.outputsSafe := by
  have hoff : Dev.onlyIn [.die, .units, .hs, .feedA, .feedB] d { d with die := { d.die with safe := true, fltLow := true } }.outputsOff :=
    Dev.onlyIn_via (Dev.outputsOff_onlyIn _) (by decide) (Dev.onlyIn_put_die (Dev.onlyIn_refl _ _) (by decide))
  exact Dev.onlyIn_ite (Dev.onlyIn_via (Dev.updFeed_onlyIn _ _ _) (by decide) (Dev.onlyIn_via (Dev.updFeed_onlyIn _ _ _) (by decide) hoff))
    hoff

theorem Dev.outputsSafe_die (d : Dev) : d.outputsSafe.die = { d.die with safe := true, fltLow := true } := by
  unfold Dev.outputsSafe
  extract_lets src e
  split
  · rfl
  · rfl

theorem Dev.outputsSafe_stopped (d : Dev) : d.outputsSafe.outputsStopped := by
  unfold Dev.outputsSafe
  extract_lets src e
  have he : e.outputsStopped := Dev.outputsOff_stopped _
  split
  · exact he
  · exact he

/-- Both feed gates open with HOLD_OPEN; without it the feeds stay as they are (R259). -/
def Dev.HoldOpen (d e : Dev) : Prop :=
  if d.flag 0x98 0x40 2 = true then e.feedA.drive = false ∧ e.feedB.drive = false else e.feedA = d.feedA ∧ e.feedB = d.feedB

theorem Dev.HoldOpen.after {d e f : Dev} (h : d.HoldOpen e) {l : List Part} (hf : Dev.onlyIn l e f)
    (hl : (l.contains .feedA || l.contains .feedB) = false) : d.HoldOpen f := by
  simp only [Bool.or_eq_false_iff, List.contains_eq_mem, decide_eq_false_iff_not] at hl
  rw [Dev.HoldOpen, hf .feedA hl.1, hf .feedB hl.2]
  exact h

theorem Dev.outputsSafe_holdOpen (d : Dev) : d.HoldOpen d.outputsSafe := by
  unfold Dev.HoldOpen Dev.outputsSafe
  extract_lets src e
  have he : e.flag 0x98 0x40 2 = d.flag 0x98 0x40 2 := rfl
  rw [he]
  split
  · exact ⟨rfl, rfl⟩
  · exact ⟨rfl, rfl⟩

theorem Dev.enterSafe_entered {d : Dev} (h : d.die.safe = false) (kind : Nat) : d.SafeEntered (d.enterSafe kind) := by
  have hfr : d.outputsSafe.die.finalRecord = d.die.finalRecord := by rw [Dev.outputsSafe_die]
  have hsafe : d.outputsSafe.die.safe = true := by rw [Dev.outputsSafe_die]
  have hflt : d.outputsSafe.die.fltLow = true := by rw [Dev.outputsSafe_die]
  have hsup : d.outputsSafe.sup = d.sup := d.outputsSafe_onlyIn .sup (by decide)
  have hnv : d.outputsSafe.nv = d.nv := d.outputsSafe_onlyIn .nv (by decide)
  have hpeat : d.outputsSafe.peat = d.peat := d.outputsSafe_onlyIn .peat (by decide)
  have hstat := Dev.statOf_congr (d.outputsSafe_onlyIn .stat (by decide)) 0xB1
  rw [Dev.enterSafe_eq h, hfr, hsup]
  by_cases hc : d.die.finalRecord = true ∧ d.sup.vauxWarn = true
  · rw [if_pos (by rw [hc.1, hc.2]; rfl)]
    exact ⟨hsafe, hflt, d.outputsSafe_stopped, fun a _ => by rw [hnv]; exact ⟨rfl, rfl⟩, by rw [if_pos hc]; exact ⟨hnv, hpeat⟩⟩
  · rw [if_neg (by rwa [Bool.and_eq_true])]
    refine ⟨hsafe, hflt, d.outputsSafe_stopped, ?_, ?_⟩
    · have honly := d.outputsSafe.finalRecord_peatOnly kind
      rw [Dev.peatOnly, hpeat, hnv] at honly
      exact honly
    · rw [if_neg hc, Dev.finalRecord_next, Dev.finalRecord_statOf, hpeat, hstat]
      exact ⟨rfl, rfl⟩

theorem Dev.enterSafe_holdOpen {d : Dev} (h : d.die.safe = false) (kind : Nat) : d.HoldOpen (d.enterSafe kind) := by
  refine d.outputsSafe_holdOpen.after (l := [.die, .stat, .nv, .peat]) ?_ rfl
  rw [Dev.enterSafe_eq h]
  exact Dev.onlyIn_ite (Dev.onlyIn_refl _ _) (Dev.finalRecord_onlyIn _ _)

/-! ### Reset into the safe state -/

/-- From `d` to `e` the safe state was entered with reset asserted (R346, R347); the feeds are not spoken of. -/
structure Dev.ResetEntered (d e : Dev) : Prop extends d.SafeEntered e where
  inReset : e.sup.inReset = true
  kept : Dev.onlyIn [.die, .sup, .fh, .stat, .units, .nv, .peat, .feedA, .feedB, .hs] d e

/-- What comes after the reset on the supplies, FIDDLEHEAD and the feeds. -/
theorem Dev.ResetEntered.after {d e f : Dev} (h : d.ResetEntered e) (hf : Dev.onlyIn [.sup, .fh, .feedA, .feedB] e f)
    (hr : f.sup.inReset = e.sup.inReset) : d.ResetEntered f where
  toSafeEntered := h.toSafeEntered.after (Dev.onlyIn_mono hf (by decide)) (congrArg DieS.safe (hf .die (by decide)))
    ((congrArg DieS.fltLow (hf .die (by decide))).trans h.flt) (Dev.statOf_congr (hf .stat (by decide)) _)
  inReset := hr.trans h.inReset
  kept := Dev.onlyIn_via hf (by decide) h.kept

theorem Dev.enterSafe_assertReset {d : Dev} (h : d.die.safe = false) (kind cause : Nat) :
    d.ResetEntered ((d.enterSafe kind).assertReset cause) where
  toSafeEntered := (Dev.enterSafe_entered h kind).after (Dev.onlyIn_mono (Dev.assertReset_onlyIn _ _) (by decide)) rfl rfl rfl
  inReset := rfl
  kept := Dev.onlyIn_via (Dev.assertReset_onlyIn _ _) (by decide) (Dev.onlyIn_mono (Dev.enterSafe_onlyIn _ _) (by decide))

/-- Reset that was not asserted takes the cause of its assertion. -/
theorem Dev.assertReset_rstCause {d : Dev} (hr : d.sup.inReset = false) (kind cause : Nat) :
    ((d.enterSafe kind).assertReset cause).fh.rstCause = cause := by
  have hsup : (d.enterSafe kind).sup.inReset = false := by rw [Dev.enterSafe_onlyIn _ _ .sup (by decide), hr]
  simp [Dev.assertReset, hsup]

theorem Dev.assertReset_holdOpen {d : Dev} (h : d.die.safe = false) (kind cause : Nat) :
    d.HoldOpen ((d.enterSafe kind).assertReset cause) :=
  (Dev.enterSafe_holdOpen h kind).after (Dev.assertReset_onlyIn _ _) rfl

/-- The loss of VCORE_S enters the safe state of the block as it was. -/
theorem Dev.loseCoreS_entered {d : Dev} (h : d.die.safe = false) : d.ResetEntered d.loseCoreS := by
  have hent := Dev.enterSafe_assertReset (d := d.updSup fun p => { p with vcoreS := false }) h 8 4
  exact ⟨⟨hent.safe, hent.flt, hent.stopped, hent.only, hent.record⟩, hent.inReset,
    Dev.onlyIn_mono (Dev.loseCoreS_onlyIn _) (by decide)⟩

/-! ### A twin that abandons its transfer -/

theorem Dev.twinOf_congr {d e : Dev} (h : e.twin = d.twin) (t : Twin) : e.twinOf t = d.twinOf t := by
  cases t <;> simp [Dev.twinOf, h]

theorem Dev.abandonResync_st (d : Dev) (t u : Twin) :
    ((d.abandonResync t).twinOf u).st = if t = u ∧ (d.twinOf u).st = .resync then .out else (d.twinOf u).st := by
  unfold Dev.abandonResync
  by_cases htu : t = u
  · subst htu
    by_cases hr : (d.twinOf t).st = .resync
    · rw [if_pos hr, if_pos ⟨rfl, hr⟩]
      exact congrArg TwinSt.st (d.twinOf_updTwin_same t _)
    · have hnot : ¬ (t = t ∧ (d.twinOf t).st = .resync) := fun hc => hr hc.2
      rw [if_neg hr, if_neg hnot]
  · have hnot : ¬ (t = u ∧ (d.twinOf u).st = .resync) := fun hc => htu hc.1
    rw [if_neg hnot]
    split
    · exact congrArg TwinSt.st (d.twinOf_updTwin_other _ (Ne.symm htu))
    · rfl

theorem Dev.abandonResync_statOf (d : Dev) (t : Twin) {pg : Nat} (h : pg ≠ 0xA0) : (d.abandonResync t).statOf pg = d.statOf pg := by
  unfold Dev.abandonResync
  split
  · exact (Dev.statOf_occur_other _ _ h).trans (Dev.statOf_congr (Dev.updTwin_onlyIn _ _ _ .stat (by decide)) pg)
  · rfl

/-- Both twins abandon a transfer under way (R14, R309). -/
theorem Dev.abandonBoth_st (d : Dev) (u : Twin) :
    (((d.abandonResync .a).abandonResync .b).twinOf u).st =
      if (d.twinOf u).st = .resync then .out else (d.twinOf u).st := by
  rw [Dev.abandonResync_st, Dev.abandonResync_st]
  cases u <;> simp

/-! ### The entries -/

theorem noValidCopy_onlyIn (d : Dev) (kind : Nat) :
    Dev.onlyIn [.stat, .twin, .die, .units, .nv, .peat, .feedA, .feedB, .hs] d
      (((d.enterSafe kind).abandonResync .a).abandonResync .b) :=
  Dev.onlyIn_via (Dev.abandonResync_onlyIn _ _) (by decide) (Dev.onlyIn_via (Dev.abandonResync_onlyIn _ _) (by decide)
    (Dev.onlyIn_mono (Dev.enterSafe_onlyIn _ _) (by decide)))

/-- The block that an entry with reset leaves, by its command and cause; the gates of the feeds go with HOLD_OPEN, but for a loss of
VAUX below 1.8 V (R33, R346, R347). -/
theorem resetEntries {s : State} {c : Instr} {cause : Option Nat} (hsafe : s.d.die.safe = false) (hreset : s.d.sup.inReset = false)
    (hc : (c = .vcoreSLoss ∧ cause = some 4) ∨ (c = .mrNReset ∧ cause = some 3) ∨ (c = .vauxMin false ∧ cause = some 2) ∨
      (c = .vauxMin true ∧ cause = some 1)) :
    ∃ f e, exec c s = done f s ∧ f s.d = e ∧ s.d.ResetEntered e ∧ cause = some e.fh.rstCause ∧
      if c = .vauxMin true then e.feedA.drive = false ∧ e.feedB.drive = false else s.d.HoldOpen e := by
  obtain ⟨rfl, rfl⟩ | ⟨rfl, rfl⟩ | ⟨rfl, rfl⟩ | ⟨rfl, rfl⟩ := hc
  · exact ⟨_, _, rfl, rfl, Dev.loseCoreS_entered hsafe,
      congrArg some (Dev.assertReset_rstCause (d := s.d.updSup fun p => { p with vcoreS := false }) hreset 8 4).symm,
      Dev.assertReset_holdOpen (d := s.d.updSup fun p => { p with vcoreS := false }) hsafe 8 4⟩
  · exact ⟨_, _, rfl, rfl, Dev.enterSafe_assertReset hsafe 6 3, congrArg some (Dev.assertReset_rstCause hreset 6 3).symm,
      Dev.assertReset_holdOpen hsafe 6 3⟩
  · exact ⟨_, _, rfl, rfl, (Dev.enterSafe_assertReset hsafe 8 2).after (Dev.onlyIn_mono (Dev.updSup_onlyIn _ _) (by decide)) rfl,
      congrArg some (Dev.assertReset_rstCause hreset 8 2).symm, Dev.assertReset_holdOpen hsafe 8 2⟩
  · exact ⟨_, _, rfl, rfl, (Dev.enterSafe_assertReset hsafe 8 2).after (Dev.onlyIn_via (Dev.updFeed_onlyIn _ _ _) (by decide)
      (Dev.onlyIn_via (Dev.updFeed_onlyIn _ _ _) (by decide) (Dev.onlyIn_via (Dev.updFh_onlyIn _ _) (by decide)
      (Dev.onlyIn_mono (Dev.updSup_onlyIn _ _) (by decide))))) rfl, rfl, rfl, rfl⟩

/-- Settles O22: every entry goes through the one entry of the safe state, and what each adds to it leaves outputs, MRAM and record
alone. -/
theorem safeStateEntries : Obligations.SafeStateEntries := by
  intro s c cause _ hsafe hreset hc
  obtain ⟨rfl, hstarted, hrun, rfl⟩ | hc := hc
  · have hab : Dev.onlyIn [.stat, .twin] (s.d.enterSafe 8) (((s.d.enterSafe 8).abandonResync .a).abandonResync .b) :=
      Dev.onlyIn_trans (Dev.abandonResync_onlyIn _ _) (Dev.abandonResync_onlyIn _ _)
    have hdie := hab .die (by decide)
    have hent := Dev.enterSafe_entered hsafe 8
    have h := hent.after (Dev.onlyIn_mono hab (by decide)) (congrArg DieS.safe hdie) ((congrArg DieS.fltLow hdie).trans hent.flt)
      ((Dev.abandonResync_statOf _ _ (by decide)).trans (Dev.abandonResync_statOf _ _ (by decide)))
    have hhold := (Dev.enterSafe_holdOpen hsafe 8).after hab rfl
    have hl := noValidCopy_onlyIn s.d 8
    refine completes_done rfl (if_pos ⟨hstarted, hrun⟩) (Dev.onlyIn_mono hl (by decide)) ⟨h.safe, h.flt, h.stopped,
      by simpa [Dev.HoldOpen] using hhold, h.only, h.record, fun t => ?_, fun hne => absurd rfl hne, hl .sup (by decide),
      hl .fh (by decide)⟩
    rw [Dev.abandonBoth_st, Dev.twinOf_congr (Dev.enterSafe_onlyIn _ _ .twin (by decide))]
    simp
  · obtain ⟨f, e, hexec, he, h, rfl, hgates⟩ := resetEntries hsafe hreset hc
    have htwin := h.kept .twin (by decide)
    have hne : c ≠ .noValidCopySafeState := by rintro rfl; simp at hc
    refine completes_done hexec he (Dev.onlyIn_mono h.kept (by decide)) ⟨h.safe, h.flt, h.stopped, ?_, h.only, h.record, fun t => ?_,
      fun _ => htwin, h.inReset, rfl⟩
    · by_cases hv : c = .vauxMin true
      · rw [if_pos hv] at hgates
        rwa [if_pos (.inr hv)]
      · rw [if_neg hv] at hgates
        simpa only [Dev.HoldOpen, hv, or_false] using hgates
    · rw [if_neg (fun hc => hne hc.1), Dev.twinOf_congr htwin]

end Sys2Proof.Machine
end

section
/-! PROOF. The supplies, VAUX, VHOLD, SAFE_n and TESTEN (R32, R260, R345, R347, R349, R535, R540, R545, R550). -/

namespace Sys2Proof.Machine

/-! ### A crust change torn by VAUX_WARN -/

theorem Dev.crustSpent_statOf (d : Dev) (i : Nat) {pg : Nat} (h : pg ≠ 0xB2) : (d.crustSpent i).statOf pg = d.statOf pg := by
  unfold Dev.crustSpent
  split
  · exact Dev.statOf_occur_other _ _ h
  · rfl

/-- A torn change is told on page 0x0B2 alone (R396, R397). -/
theorem Dev.crustTorn_statOf (d : Dev) (j : CrustJob) {pg : Nat} (h : pg ≠ 0xB2) : (d.crustTorn j).statOf pg = d.statOf pg := by
  unfold Dev.crustTorn
  extract_lets e
  have he : e.statOf pg = d.statOf pg := (Dev.crustSpent_statOf _ _ h).trans (Dev.statOf_occur_other _ _ h)
  split
  · exact (Dev.statOf_congr (Dev.endItem_onlyIn _ _ _ .stat (by decide)) pg).trans he
  · split
    · exact (Dev.statOf_congr (Dev.confirmFail_onlyIn _ _ .stat (by decide)) pg).trans he
    · exact he

theorem Dev.crustTear_statOf (d : Dev) {pg : Nat} (h : pg ≠ 0xB2) : d.crustTear.statOf pg = d.statOf pg := by
  unfold Dev.crustTear
  split
  · rfl
  · exact Dev.crustTorn_statOf _ _ h

theorem Dev.crustTear_job (d : Dev) : d.crustTear.crust.job = none := by
  unfold Dev.crustTear
  split
  case h_1 hnone => exact hnone
  case h_2 j _ => rw [Dev.crustTorn_onlyIn _ _ .crust (by decide)]

theorem completes_vauxWarn {s : State} (h : s.d.sup.vauxWarn = false) :
    Completes .vauxWarn s [.jrn, .crust, .stat, .sup, .upd, .nv, .die, .peat, .twT] fun e =>
      e.sup = SupplySt.switched { s.d.sup with vauxWarn := true } ∧ e.sup.auxSwitch = false ∧
      e.statOf 0xA5 = (s.d.statOf 0xA5).occur 0 1 ∧ e.crust.job = none ∧
      e.peat.next = (s.d.peat.next + 1) % 2 ^ 32 ∧ e.die.finalRecord = true ∧ s.d.peatOnly e := by
  have hc : ¬ s.d.sup.vauxWarn = true := by rw [h]; exact Bool.false_ne_true
  have h1 : Dev.onlyIn [.sup, .stat] s.d ((s.d.updSup fun p => SupplySt.switched { p with vauxWarn := true }).occur 0xA5 0) :=
    Dev.onlyIn_via (Dev.occur_onlyIn _ _ _) (by decide) (Dev.onlyIn_mono (Dev.updSup_onlyIn _ _) (by decide))
  have hsup : ((s.d.updSup fun p => SupplySt.switched { p with vauxWarn := true }).occur 0xA5 0).sup =
      SupplySt.switched { s.d.sup with vauxWarn := true } := rfl
  have hstat : ((s.d.updSup fun p => SupplySt.switched { p with vauxWarn := true }).occur 0xA5 0).statOf 0xA5 =
      (s.d.statOf 0xA5).occur 0 1 := Dev.statOf_occur_same _ _ _
  refine completes_done rfl (if_neg hc) ?_ ?_
  all_goals generalize (s.d.updSup fun p => SupplySt.switched { p with vauxWarn := true }).occur 0xA5 0 = d1 at h1 hsup hstat ⊢
  · exact Dev.onlyIn_via (Dev.crustTear_onlyIn _) (by decide) (Dev.onlyIn_via (Dev.finalRecord_onlyIn _ _) (by decide)
      (Dev.onlyIn_mono h1 (by decide)))
  · have hte := Dev.crustTear_onlyIn (d1.finalRecord 2)
    have hsup2 : (d1.finalRecord 2).crustTear.sup = SupplySt.switched { s.d.sup with vauxWarn := true } :=
      (hte .sup (by decide)).trans ((Dev.finalRecord_onlyIn _ _ .sup (by decide)).trans hsup)
    refine ⟨hsup2, by rw [hsup2]; rfl, ?_, Dev.crustTear_job _, ?_, ?_, fun a ha => ?_⟩
    · rw [Dev.crustTear_statOf _ (by decide), Dev.finalRecord_statOf_other _ _ (by decide), hstat]
    · rw [hte .peat (by decide), Dev.finalRecord_next, h1 .peat (by decide)]
    · rw [hte .die (by decide)]; rfl
    · rw [hte .nv (by decide), ← h1 .nv (by decide)]
      exact d1.finalRecord_peatOnly 2 a (by rw [h1 .peat (by decide)]; exact ha)

/-! ### The supplies of the regions -/

/-- A region in range becomes valid where it was in range at reset release (R540, R550). -/
def Dev.reenter (d : Dev) (g : Region) : Dev :=
  if !d.regionValid g && !d.vanaLost g then (d.setRegion g true).when (g == .g0) Dev.metRestart else d

theorem Dev.reenter_onlyIn (d : Dev) (g : Region) : Dev.onlyIn [.die, .units, .therm, .sense] d (d.reenter g) := by
  have hset : Dev.onlyIn [.die, .units, .therm, .sense] d (d.setRegion g true) :=
    Dev.onlyIn_mono (Dev.setRegion_true_onlyIn d g) (by decide)
  exact Dev.onlyIn_ite (Dev.onlyIn_ite (Dev.onlyIn_via (Dev.metRestart_onlyIn _) (by decide) hset) hset) (Dev.onlyIn_refl _ _)

theorem Dev.regionValid_reenter (d : Dev) (g h : Region) :
    (d.reenter g).regionValid h = if h = g then d.regionValid g || !d.vanaLost g else d.regionValid h := by
  unfold Dev.reenter
  split
  case isTrue hc =>
    have hwhen : ((d.setRegion g true).when (g == .g0) Dev.metRestart).die = (d.setRegion g true).die :=
      Dev.onlyIn_ite (l := [.sense]) (Dev.metRestart_onlyIn _) (Dev.onlyIn_refl _ _) .die (by decide)
    rw [Dev.regionValid_congr hwhen, Dev.regionValid_setRegion]
    simp only [Bool.and_eq_true, Bool.not_eq_true'] at hc
    rw [hc.1, hc.2]
    rfl
  case isFalse hc =>
    split
    case isTrue heq =>
      subst heq
      cases hv : d.regionValid h
      · rw [hv] at hc
        simpa using hc
      · rfl
    case isFalse => rfl

theorem Dev.regionValid_loseRegion (d : Dev) (g h : Region) :
    (d.loseRegion g).regionValid h = if h = g then false else d.regionValid h := by
  cases hv : d.regionValid g
  · have hsame : d.loseRegion g = d := if_neg (by rw [hv]; exact Bool.false_ne_true)
    rw [hsame]
    split
    case isTrue heq => rw [heq, hv]
    case isFalse => rfl
  · rw [Dev.regionValid_congr (d.loseRegion_die g hv), Dev.regionValid_setRegion]

theorem Dev.vanaLoss_refined_onlyIn (d : Dev) (g : Region) :
    Dev.onlyIn [.adm, .stat, .clusters, .inj, .fh, .die, .units, .rails, .sup, .time, .xfer] d (d.vanaLoss g) := by
  cases g
  · exact Dev.onlyIn_via (Dev.loseRegion_valid_onlyIn _ _) (by decide)
      (Dev.onlyIn_put_time (Dev.onlyIn_mono (Dev.updSup_onlyIn _ _) (by decide)) (by decide))
  · exact Dev.onlyIn_via (Dev.loseRegion_valid_onlyIn _ _) (by decide)
      (Dev.onlyIn_put_time (Dev.onlyIn_mono (Dev.updSup_onlyIn _ _) (by decide)) (by decide))

theorem Dev.regionValid_vanaBack (d : Dev) (g h : Region) :
    (d.vanaBack g).regionValid h = if h = g then d.regionValid g || !d.vanaLost g else d.regionValid h := by
  cases g
  · exact Dev.regionValid_reenter _ _ _
  · exact Dev.regionValid_reenter _ _ _

theorem Dev.vanaBack_refined_onlyIn (d : Dev) (g : Region) :
    Dev.onlyIn [.time, .sup, .die, .units, .therm, .sense] d (d.vanaBack g) := by
  cases g
  · exact Dev.onlyIn_via (Dev.reenter_onlyIn _ _) (by decide)
      (Dev.onlyIn_put_time (Dev.onlyIn_mono (Dev.updSup_onlyIn _ _) (by decide)) (by decide))
  · exact Dev.onlyIn_via (Dev.reenter_onlyIn _ _) (by decide)
      (Dev.onlyIn_put_time (Dev.onlyIn_mono (Dev.updSup_onlyIn _ _) (by decide)) (by decide))

theorem Dev.vana_congr {d e : Dev} (h : e.sup = d.sup) (g : Region) : e.vana g = d.vana g := by
  cases g <;> simp [Dev.vana, h]

theorem Dev.vana_vanaLoss (d : Dev) (g h : Region) : (d.vanaLoss g).vana h = if h = g then false else d.vana h := by
  cases g
  · refine (Dev.vana_congr (Dev.loseRegion_valid_onlyIn _ .g0 .sup (by decide)) h).trans ?_
    cases h <;> rfl
  · refine (Dev.vana_congr (Dev.loseRegion_valid_onlyIn _ .g1 .sup (by decide)) h).trans ?_
    cases h <;> rfl

theorem Dev.regionValid_vanaLoss (d : Dev) (g h : Region) :
    (d.vanaLoss g).regionValid h = if h = g then false else d.regionValid h := by
  cases g
  · exact Dev.regionValid_loseRegion _ _ _
  · exact Dev.regionValid_loseRegion _ _ _

theorem completes_vanaLoss {s : State} {g : Region} {c : Instr} (hc : exec c s = done (fun d => d.vanaLoss g) s) :
    Completes c s [.adm, .stat, .clusters, .inj, .fh, .die, .units, .rails, .sup, .time, .xfer] fun e =>
      e.vana g = false ∧ e.regionValid g = false ∧ ∀ h, h ≠ g → e.vana h = s.d.vana h ∧ e.regionValid h = s.d.regionValid h := by
  refine completes_done hc rfl (Dev.vanaLoss_refined_onlyIn _ _) ⟨?_, ?_, fun h hne => ⟨?_, ?_⟩⟩
  · rw [Dev.vana_vanaLoss, if_pos rfl]
  · rw [Dev.regionValid_vanaLoss, if_pos rfl]
  · rw [Dev.vana_vanaLoss, if_neg hne]
  · rw [Dev.regionValid_vanaLoss, if_neg hne]

/-! ### VAUX, VHOLD and the pins -/

theorem completes_vauxReturn (s : State) :
    Completes .vauxReturn s [.sup, .bbus, .nv, .die, .therm] fun e =>
      e.sup = SupplySt.switched { s.d.sup with vauxWarn := false, vauxMin := false } ∧ e.die = { s.d.die with finalRecord := false } ∧
      (s.d.therm.hold = true → e.nv = s.d.nv ∧ e.therm = s.d.therm ∧ e.bbus = s.d.bbus) := by
  have hback : ∀ die, Dev.onlyIn [.sup, .bbus, .nv, .die, .therm] s.d
      { s.d.updSup fun p => SupplySt.switched { p with vauxWarn := false, vauxMin := false } with die := die } := fun die =>
    Dev.onlyIn_put_die (Dev.onlyIn_mono (Dev.updSup_onlyIn _ _) (by decide)) (by decide)
  by_cases hhold : s.d.therm.hold = true
  · exact completes_done rfl (if_pos hhold) (hback _) ⟨rfl, rfl, fun _ => ⟨rfl, rfl, rfl⟩⟩
  · have hflush : ∀ d : Dev, Dev.onlyIn [.nv, .bbus, .therm] d d.nvFlush.bbuFlush := fun d =>
      Dev.onlyIn_via (Dev.bbuFlush_onlyIn _) (by decide) (Dev.onlyIn_mono (Dev.nvFlush_onlyIn _) (by decide))
    exact completes_done rfl (if_neg hhold) (Dev.onlyIn_via (hflush _) (by decide) (hback _))
      ⟨hflush _ .sup (by decide), hflush _ .die (by decide), fun h => absurd h hhold⟩

theorem completes_holdLow {s : State} (hw : s.d.sup.vauxWarn = false) (hlow : s.d.sup.holdLow = false) :
    Completes .holdLow s [.stat, .sup] fun e =>
      e.sup = SupplySt.switched { s.d.sup with holdLow := true, holdSeen := true } ∧ e.sup.auxSwitch = !s.d.sup.vauxMin ∧
      s.d.recorded e 0xA5 1 := by
  have hl : ¬ s.d.sup.holdLow = true := by rw [hlow]; exact Bool.false_ne_true
  have hv : ¬ s.d.sup.vauxWarn = true := by rw [hw]; exact Bool.false_ne_true
  refine completes_done rfl ((if_neg hl).trans (if_neg hv))
    (Dev.onlyIn_via (Dev.occur_onlyIn _ _ _) (by decide) (Dev.onlyIn_mono (Dev.updSup_onlyIn _ _) (by decide)))
    ⟨rfl, ?_, Dev.recorded_occur_of rfl _ _⟩
  show (SupplySt.switched { s.d.sup with holdLow := true, holdSeen := true }).auxSwitch = !s.d.sup.vauxMin
  simp [SupplySt.switched, hw]

/-- The outputs stop, and of a unit only its tri-state and its pulses change (R33, R345). -/
theorem completes_safeNAssert (s : State) :
    Completes .safeNAssert s [.hs, .fh, .units] fun e =>
      e.outputsStopped ∧ e.fh = { s.d.fh with safePin := true } ∧
      e.units.map (fun u => { u with triOn := true, pulse := [] }) = s.d.units.map fun u => { u with triOn := true, pulse := [] } := by
  refine completes_done rfl rfl (Dev.onlyIn_via (Dev.outputsOff_onlyIn _) (by decide) (Dev.onlyIn_mono (Dev.updFh_onlyIn _ _) (by decide)))
    ⟨Dev.outputsOff_stopped _, rfl, ?_⟩
  exact List.map_map

/-- Settles O23: the effect of each event on the supplies, the regions, the record of VAUX_WARN and the pins. -/
theorem supplyEvents : Obligations.SupplyEvents := by
  have hsup : ∀ (l : List Part) (d : Dev) (f : SupplySt → SupplySt), Part.sup ∈ l → Dev.onlyIn l d (d.updSup f) := fun l d f hl =>
    Dev.onlyIn_put_sup (Dev.onlyIn_refl _ _) hl
  refine ⟨fun s _ => completes_vauxWarn, completes_vauxReturn, fun s => completes_holdLow, fun s h => ?_, fun s t c hc => ?_,
    fun s x => ?_, fun s g _ => ?_, completes_safeNAssert, fun s => ?_, fun s h => ?_, fun s h => ?_,
    fun s => ?_⟩
  · exact completes_done rfl (if_pos h) (hsup _ _ _ (by decide)) rfl
  · have hexec : exec c s = done (fun d => d.loseCore t) s := by
      simp only [List.mem_cons, List.not_mem_nil, or_false] at hc
      obtain rfl | rfl := hc
      · rfl
      · cases t <;> rfl
    refine completes_done hexec rfl (Dev.onlyIn_mono (Dev.loseCore_onlyIn _ _) (by decide)) ?_
    cases t
    · exact ⟨rfl, rfl⟩
    · exact ⟨rfl, rfl⟩
  · cases x with
    | vcoreA => exact completes_done rfl rfl (Dev.onlyIn_put_time (hsup _ _ _ (by decide)) (by decide)) rfl
    | vcoreB => exact completes_done rfl rfl (Dev.onlyIn_put_time (hsup _ _ _ (by decide)) (by decide)) rfl
    | vcoreS => exact completes_done rfl rfl (hsup _ _ _ (by decide)) rfl
    | vanaG0 =>
      exact completes_done rfl rfl (Dev.vanaBack_refined_onlyIn _ _)
        ⟨Dev.reenter_onlyIn _ .g0 .sup (by decide), Dev.regionValid_vanaBack _ .g0 .g1, Dev.regionValid_vanaBack _ .g0 .g0⟩
    | vanaG1 =>
      exact completes_done rfl rfl (Dev.vanaBack_refined_onlyIn _ _)
        ⟨Dev.reenter_onlyIn _ .g1 .sup (by decide), Dev.regionValid_vanaBack _ .g1 .g0, Dev.regionValid_vanaBack _ .g1 .g1⟩
  · cases g
    · exact completes_vanaLoss rfl
    · exact completes_vanaLoss rfl
  · exact completes_done rfl rfl (Dev.onlyIn_mono (Dev.updFh_onlyIn _ _) (by decide)) rfl
  · exact completes_done rfl (if_pos h) (Dev.onlyIn_put_die (hsup _ _ _ (by decide)) (by decide)) ⟨rfl, rfl⟩
  · exact completes_done rfl (if_pos h) (Dev.onlyIn_via (Dev.occur_onlyIn _ _ _) (by decide) (hsup _ _ _ (by decide)))
      ⟨rfl, Dev.recorded_occur_of rfl _ _⟩
  · refine completes_done rfl rfl (hsup _ _ _ (by decide)) ⟨rfl, ?_⟩
    simp [SupplySt.switched]

end Sys2Proof.Machine
end

section
/-! PROOF. The byte memories keep their canonical form (R51, R370): every write goes through `memWrite`, which lists
no zero byte and keeps the addresses rising. -/

namespace Sys2Proof.Machine

/-! ### The canonical form of the memories of a block -/

/-- Every byte memory of the block has its canonical form: the SRAM in use, what a twin out of operation holds, the SRAM of die S
and both copies of the MRAM. -/
def Dev.MemCanon (d : Dev) : Prop :=
  Memory.wf d.sram = true ∧ Memory.wf (d.sramA.getD []) = true ∧ Memory.wf (d.sramB.getD []) = true ∧
    Memory.wf d.sramS = true ∧ Memory.wf d.nv.a = true ∧ Memory.wf d.nv.b = true

theorem Dev.canon_iff {d : Dev} : d.canon = true ↔ d.MemCanon := by
  simp [Dev.canon, Dev.MemCanon, and_assoc]

/-- The parts of the block that hold a byte memory. -/
def Part.memories : List Part := [.sram, .sramA, .sramB, .sramS, .nv]

namespace Dev.MemCanon

variable {d e : Dev}

theorem sram (h : d.MemCanon) : Memory.wf d.sram = true := h.1
theorem nvA (h : d.MemCanon) : Memory.wf d.nv.a = true := h.2.2.2.2.1
theorem nvB (h : d.MemCanon) : Memory.wf d.nv.b = true := h.2.2.2.2.2

/-- What changes none of the parts that hold a memory keeps the canonical form. -/
theorem frame {l : List Part} (k : Dev.onlyIn l d e) (hl : l.any Part.memories.contains = false) (h : d.MemCanon) :
    e.MemCanon := by
  have hout : ∀ p ∈ Part.memories, p ∉ l := fun p hp hpl => by
    simpa [hp] using List.any_eq_false.mp hl p hpl
  have hsram : e.sram = d.sram := k .sram (hout _ (by decide))
  have hsramA : e.sramA = d.sramA := k .sramA (hout _ (by decide))
  have hsramB : e.sramB = d.sramB := k .sramB (hout _ (by decide))
  have hsramS : e.sramS = d.sramS := k .sramS (hout _ (by decide))
  have hnv : e.nv = d.nv := k .nv (hout _ (by decide))
  rw [Dev.MemCanon, hsram, hsramA, hsramB, hsramS, hnv]; exact h

theorem putSram {m : Memory} (h : d.MemCanon) (hm : Memory.wf m = true) : ({ d with sram := m } : Dev).MemCanon :=
  ⟨hm, h.2⟩

theorem putNv {n : NvSt} (h : d.MemCanon) (ha : Memory.wf n.a = true) (hb : Memory.wf n.b = true) :
    ({ d with nv := n } : Dev).MemCanon :=
  ⟨h.1, h.2.1, h.2.2.1, h.2.2.2.1, ha, hb⟩

theorem putInj {x : InjSt} (h : d.MemCanon) : ({ d with inj := x } : Dev).MemCanon := h

theorem putTimeDie {t : TimeSt} {x : DieS} (h : d.MemCanon) : ({ d with time := t, die := x } : Dev).MemCanon := h

theorem occur {pg bit : Nat} (h : d.MemCanon) : (d.occur pg bit).MemCanon := h.frame (Dev.occur_onlyIn _ _ _) rfl

theorem updBbu {m : Nat} {f : Bbu → Bbu} (h : d.MemCanon) : (d.updBbu m f).MemCanon := h.frame (Dev.updBbu_onlyIn _ _ _) rfl

theorem updJrn {f : JrnSt → JrnSt} (h : d.MemCanon) : (d.updJrn f).MemCanon := h.frame (Dev.updJrn_onlyIn _ _) rfl

theorem updUpd {f : UpdSt → UpdSt} (h : d.MemCanon) : (d.updUpd f).MemCanon := h.frame (Dev.updUpd_onlyIn _ _) rfl

/-! ### Operations that take an operation -/

theorem ite {c : Prop} [Decidable c] (hd : d.MemCanon) (he : e.MemCanon) : (if c then d else e).MemCanon := by
  split
  · exact hd
  · exact he

theorem foldl {α : Type} {g : Dev → α → Dev} {xs : List α} (h : d.MemCanon) (hg : ∀ d a, d.MemCanon → (g d a).MemCanon) :
    (xs.foldl g d).MemCanon := by
  induction xs generalizing d with
  | nil => exact h
  | cons a xs ih => exact ih (hg d a h)

theorem foldN {g : Dev → Nat → Dev} {n : Nat} (h : d.MemCanon) (hg : ∀ d i, d.MemCanon → (g d i).MemCanon) :
    (foldN n g d).MemCanon := foldl h hg

theorem execHead {g : Dev → WorkItem → Dev} {code : Nat} (h : d.MemCanon) (hg : ∀ w, (g d w).MemCanon) :
    (d.execHead code g).MemCanon := by
  unfold Dev.execHead
  split
  · exact h
  · exact ite (hg _) h

theorem toTwins {g : Dev → Dev} {p : MPort} {f : MFrame} (h : d.MemCanon) (hg : ∀ d, d.MemCanon → (g d).MemCanon) :
    (d.toTwins p f g).MemCanon := by
  have hbuf : (d.buffer p f).MemCanon := h.frame (Dev.buffer_onlyIn _ _ _) rfl
  exact ite hbuf (ite (hg _ (h.frame (Dev.frameCells_onlyIn _ _ _) rfl)) hbuf)

theorem throughSlice {f : Dev → SlotEntry → Dev} {e : SlotEntry} (h : d.MemCanon)
    (hf : ∀ d, d.MemCanon → (f d e).MemCanon) :
    (Dev.throughSlice f d e).MemCanon :=
  foldl (hf _ (foldl h fun _ _ h => h.putSram (memWriteBytes_wf _ _ h.sram))) fun _ _ h => h.frame (Dev.sliceIn_onlyIn _ _) rfl

theorem pmWrite {f : Dev → Dev} {n : Nat} {ok : Bool} (h : d.MemCanon) (hf : (f d).MemCanon) : (d.pmWrite n ok f).MemCanon :=
  ite (h.frame (Dev.drive_onlyIn _ _ _) rfl) (ite (h.frame (Dev.pmRefuse_onlyIn _ _) rfl)
    ((hf.frame (Dev.drive_onlyIn _ _ _) rfl).frame (Dev.twStop_onlyIn _ _) rfl))

/-! ### Writes of the MRAM (R370, R374, R379) -/

theorem nvPut2 {addr : Nat} {ba bb : List Byte} (h : d.MemCanon) : (d.nvPut2 addr ba bb).MemCanon := by
  refine h.putNv ?_ ?_
  · dsimp only
    split
    · exact memWriteBytes_wf _ _ h.nvA
    · exact h.nvA
  · dsimp only
    split
    · exact memWriteBytes_wf _ _ h.nvB
    · exact h.nvB

theorem nvPut {addr : Nat} {bs : List Byte} (h : d.MemCanon) : (d.nvPut addr bs).MemCanon := h.nvPut2

theorem ringStep {n kind info : Nat} {v : List Byte} (h : d.MemCanon) : (d.ringStep n kind info v).MemCanon := nvPut2 h

theorem ringForce {n : Nat} (h : d.MemCanon) : (d.ringForce n).MemCanon := h

theorem noteRole {n : Nat} {v : List Byte} (h : d.MemCanon) : (d.noteRole n v).MemCanon := ite h h

theorem ringWrite {n : Nat} {v : List Byte} (h : d.MemCanon) : (d.ringWrite n v).MemCanon :=
  ite h.noteRole.ringStep.ringForce (foldl h.noteRole fun _ _ h => h.ringStep).ringStep.ringForce

theorem ringPut {n : Nat} {v : List Byte} (h : d.MemCanon) : (d.ringPut n v).MemCanon := ite h h.ringWrite

theorem journalGrant {load seq kind dec ramp mag off : Nat} (h : d.MemCanon) :
    (d.journalGrant load seq kind dec ramp mag off).MemCanon :=
  frame (l := [.jrn]) (Dev.onlyIn_put_jrn (Dev.onlyIn_refl _ _) (List.mem_singleton_self _)) rfl h.nvPut2

theorem nvFlush (h : d.MemCanon) : d.nvFlush.MemCanon := foldl h fun _ _ h => h.ringWrite

theorem journal {kind src seq : Nat} {v : List Byte} (h : d.MemCanon) : (d.journal kind src seq v).MemCanon := updJrn h.nvPut2

theorem finalRecord {kind : Nat} (h : d.MemCanon) : (d.finalRecord kind).MemCanon := by
  unfold Dev.finalRecord
  extract_lets p st st' old flags l l' addr nv d'
  clear_value l' addr
  have h' : d'.MemCanon := h.putNv (memWriteBytes_wf _ _ h.nvA) (memWriteBytes_wf _ _ h.nvB)
  exact h'

theorem enterSafe {kind : Nat} (h : d.MemCanon) : (d.enterSafe kind).MemCanon := by
  unfold Dev.enterSafe
  extract_lets die stopped parked
  have hstopped : stopped.MemCanon := h
  have hparked : parked.MemCanon := ite hstopped hstopped
  exact ite h (ite hparked hparked.finalRecord)

/-! ### Records of the battery modules (R254, R374) -/

theorem bbuPut {m : Nat} {x : BbuRec} (h : d.MemCanon) : (d.bbuPut m x).MemCanon := ringPut (updBbu h)

theorem bbuStore {m : Nat} (h : d.MemCanon) : (d.bbuStore m).MemCanon := h.bbuPut

theorem learnDq {m code : Nat} (h : d.MemCanon) : (d.learnDq m code).MemCanon := ite (bbuStore (occur (updBbu h))) h

theorem learnDone {m : Nat} (h : d.MemCanon) : (d.learnDone m).MemCanon := by
  unfold Dev.learnDone
  extract_lets b rated band learned recorded
  have hrecorded : recorded.MemCanon := h
  exact ite h (ite h.learnDq (ite h.learnDq (ite hrecorded hrecorded.bbuStore)))

theorem bbuIdentify {m : Nat} {fresh : Bool} (h : d.MemCanon) : (d.bbuIdentify m fresh).MemCanon := by
  unfold Dev.bbuIdentify
  extract_lets id rated
  split
  · exact ite (bbuStore (occur (updBbu h))) (updBbu h)
  · exact bbuStore (updBbu h)

theorem bbuRemove {m : Nat} (h : d.MemCanon) : (d.bbuRemove m).MemCanon := occur (updBbu h.learnDq)

theorem auxDone {a : Nat} (h : d.MemCanon) : (d.auxDone a).MemCanon := by
  refine foldN h fun d m h => ?_
  extract_lets x cfg v cut ok read here gone code usable run ided noted fresh
  have hread : read.MemCanon := ite h h
  have hgone : gone.MemCanon := ite hread hread
  have hnoted : noted.MemCanon := ite hgone hgone
  exact ite (ite (bbuIdentify (updBbu hnoted)) hnoted) hgone

theorem bbuMeans {m : Nat} (h : d.MemCanon) : (d.bbuMeans m).MemCanon := by
  unfold Dev.bbuMeans
  extract_lets b avg dead meant i c out rest counted
  have hcounted : counted.MemCanon := h
  exact ite h (ite hcounted.learnDq hcounted)

theorem bbuTemp {m : Nat} (h : d.MemCanon) : (d.bbuTemp m).MemCanon := by
  unfold Dev.bbuTemp
  extract_lets x ok cfg t new told kept
  have hkept : kept.MemCanon := ite (c := new = true) h h
  exact ite hkept.learnDq hkept

theorem bbuAnchor {m : Nat} (h : d.MemCanon) : (d.bbuAnchor m).MemCanon :=
  ite h.learnDone (ite (bbuStore (updBbu h)) h)

theorem bbuFrond (h : d.MemCanon) : d.bbuFrond.MemCanon := by
  refine foldN h fun d m h => ?_
  have hr : (d.bbuRatedFrond m).MemCanon := h.frame (Dev.bbuRatedFrond_onlyIn _ _) rfl
  exact ite hr (ite hr (frame (Dev.bbuClassFrond_onlyIn _ _) rfl (frame (Dev.bbuAllow_onlyIn _ _) rfl
    ((hr.bbuMeans.bbuTemp.frame (Dev.bbuTerm_onlyIn _ _) rfl).bbuAnchor.frame (Dev.bbuCharge_onlyIn _ _) rfl))))

theorem bbuFlush (h : d.MemCanon) : d.bbuFlush.MemCanon :=
  foldN h fun _ _ h => foldl h fun _ _ h => ite h.bbuStore h.bbuPut

/-! ### The journal and the sources (R310 to R319) -/

theorem putSource {i : Nat} (h : d.MemCanon) : (d.putSource i).MemCanon := by
  unfold Dev.putSource
  split
  · exact h
  · exact h.nvPut2

theorem updSource {id : Nat} {f : Source → Source} (h : d.MemCanon) : (d.updSource id f).MemCanon := by
  unfold Dev.updSource
  split
  · exact h
  · exact putSource (updJrn h)

theorem acceptItem {src seq code : Nat} {args : List Byte} {fabric : Bool} (h : d.MemCanon) :
    (d.acceptItem src seq code args fabric).1.MemCanon := by
  unfold Dev.acceptItem
  extract_lets slot staged item kind journalled queued
  have hstaged : staged.MemCanon := ite h.nvPut h
  have hqueued : queued.MemCanon := updJrn hstaged.journal
  exact hqueued.updSource

theorem decideItem {src seq code : Nat} {args : List Byte} {fabric : Bool} (h : d.MemCanon) :
    (d.decideItem src seq code args fabric).1.MemCanon := by
  unfold Dev.decideItem
  extract_lets no
  have hno : ∀ c, (no c).1.MemCanon := fun _ => h.frame (Dev.refuseItem_onlyIn _ _) rfl
  split
  · exact hno _
  · extract_lets k
    split
    · split
      · exact h
      · split
        · exact h
        · exact hno _
    · split
      · split
        · exact hno _
        · exact h.acceptItem
      · split
        · exact hno _
        · exact hno _

theorem decideOpen {src seq : Nat} {fabric : Bool} (h : d.MemCanon) : (d.decideOpen src seq fabric).1.MemCanon := by
  unfold Dev.decideOpen
  extract_lets no fresh
  have hno : ∀ c, (no c).1.MemCanon := fun _ => h.frame (Dev.refuseItem_onlyIn _ _) rfl
  split
  · exact hno _
  · split
    · split
      · exact h.updSource.acceptItem
      · exact hno _
    · split
      · exact hno _
      · exact acceptItem (updJrn h)

theorem decideAny {src seq code : Nat} {args : List Byte} {fabric : Bool} (h : d.MemCanon) :
    (d.decideAny src seq code args fabric).1.MemCanon := by
  unfold Dev.decideAny
  split
  · exact h.decideOpen
  · exact h.decideItem

theorem execMark {w : WorkItem} (h : d.MemCanon) : (d.execMark w).MemCanon := ite h h.journal

theorem completeHead (h : d.MemCanon) : d.completeHead.MemCanon := by
  unfold Dev.completeHead
  refine ite h ?_
  split
  · exact h
  · split
    · exact h
    · extract_lets st entered done source noted port
      have hdone : done.MemCanon := h.nvPut
      have hnoted : noted.MemCanon := ite hdone.updSource hdone.updSource
      exact ite hnoted hnoted

theorem windowSeq {n tag seq code : Nat} {args : List Byte} (h : d.MemCanon) : (d.windowSeq n tag seq code args).MemCanon := by
  unfold Dev.windowSeq
  extract_lets cells r
  have hcells : cells.MemCanon := h.frame (Dev.blockCells_onlyIn _ _ _ _) rfl
  exact ite (hcells.frame (Dev.keepReply_onlyIn _ _ _ _) rfl) (hcells.decideAny.frame (Dev.keepReply_onlyIn _ _ _ _) rfl)

/-! ### The peat log, the settings store and the image slots (R381 to R389, R504) -/

theorem peatFire (h : d.MemCanon) : d.peatFire.MemCanon := by
  unfold Dev.peatFire
  split
  · exact h
  · exact ite h h.nvPut

theorem tie {addr : Nat} (h : d.MemCanon) : (d.tie addr).MemCanon := h

theorem peatResolve {sq : Nat} (h : d.MemCanon) : (d.peatResolve sq).1.MemCanon := by
  unfold Dev.peatResolve
  extract_lets addr a b va vb same
  repeat' split
  all_goals exact h

theorem peatLookup {sq : Nat} (h : d.MemCanon) : (d.peatLookup sq).1.MemCanon := by
  unfold Dev.peatLookup
  split
  · exact h.peatResolve
  · exact h

theorem peatAnswer {dst sq : Nat} (h : d.MemCanon) : (d.peatAnswer dst sq).MemCanon :=
  h.peatLookup.frame (Dev.sendPeat_onlyIn _ _ _ _) rfl

theorem pageStart (h : d.MemCanon) : d.pageStart.MemCanon := by
  unfold Dev.pageStart
  split
  · exact h
  · exact ite h h

theorem pageNext (h : d.MemCanon) : d.pageNext.MemCanon := ite (pageStart (updUpd h)) h

theorem setDirPut {b : Nat} (h : d.MemCanon) : (d.setDirPut b).MemCanon := ite h h.nvPut

theorem setWrite {b : Nat} {l : List (Nat × Nat)} (h : d.MemCanon) : (d.setWrite b l).MemCanon := by
  unfold Dev.setWrite
  extract_lets dir m g cur at0 gen fmt rec1 o
  have hdir : dir.MemCanon := h.setDirPut
  clear_value dir
  split
  · exact hdir.occur
  · exact updUpd hdir.nvPut2

theorem setBankPut {b : Nat} {l : List Byte} (h : d.MemCanon) : (d.setBankPut b l).MemCanon :=
  ite (c := setBankSize < l.length) h h.nvPut

theorem settingsFrond (h : d.MemCanon) : d.settingsFrond.MemCanon := ite h (ite h h.setWrite)

theorem chunk {off : Nat} {l : List Byte} (h : d.MemCanon) : (d.chunk off l).1.MemCanon := by
  unfold Dev.chunk
  extract_lets u k us old differs
  repeat' split
  · exact h
  · exact h
  · exact h
  · exact h
  · exact pageStart (updUpd h)

theorem takeChunk {off : Nat} {l : List Byte} (h : d.MemCanon) : (d.takeChunk off l).MemCanon := updUpd h.chunk

theorem chunkCtl {p : Path} {v : Nat} (h : d.MemCanon) : (d.chunkCtl p v).MemCanon := ite (ite h (ite h h.takeChunk)) h

theorem commitDone {ss : List SporeSection} (h : d.MemCanon) : (d.commitDone ss).MemCanon := by
  unfold Dev.commitDone
  extract_lets written
  have hwritten : written.MemCanon := by
    dsimp only [written]
    split
    · exact h.setWrite
    · exact h.setBankPut
  exact frame (Dev.setUpd_onlyIn _ _) rfl hwritten

end Dev.MemCanon

end Sys2Proof.Machine
end

section
/-! PROOF. The operations on the SRAM keep the canonical form of the byte memories (R51). -/

namespace Sys2Proof.Machine

theorem memFoldl_wf {α : Type} {g : Memory → α → Memory} {m : Memory} (l : List α)
    (hg : ∀ m a, Memory.wf m = true → Memory.wf (g m a) = true) (h : Memory.wf m = true) : Memory.wf (l.foldl g m) = true := by
  induction l generalizing m with
  | nil => exact h
  | cons a l ih => exact ih (hg m a h)

theorem copyPages_wf {dst : Memory} (src : Memory) (l : List Nat) (h : Memory.wf dst = true) :
    Memory.wf (copyPages src dst l) = true :=
  memFoldl_wf l (fun _ _ h => memWriteBytes_wf _ _ h) h

namespace Dev.MemCanon

variable {d e : Dev}

/-! ### Words and states of the loops (R51, R131, R132) -/

theorem putWord {a v : Nat} (h : d.MemCanon) : ({ d with sram := memPutWord d.sram a v } : Dev).MemCanon :=
  h.putSram (memPutWord_wf _ _ h.sram)

theorem putBytes {a : Nat} {l : List Byte} (h : d.MemCanon) : ({ d with sram := memWriteBytes d.sram a l } : Dev).MemCanon :=
  h.putSram (memWriteBytes_wf _ _ h.sram)

theorem putOp {desc i : Nat} {v : Int} (h : d.MemCanon) : (d.putOp desc i v).MemCanon := h.putWord

theorem zeroMem {a k : Nat} (h : d.MemCanon) : (d.zeroMem a k).MemCanon := h.putBytes

theorem zeroBalance {r n : Nat} (h : d.MemCanon) : (d.zeroBalance r n).MemCanon := foldl h fun _ _ h => ite h.zeroMem h

theorem putFf {r : Nat} {v : Int} (h : d.MemCanon) : (d.putFf r v).MemCanon := putWord (d := d.updLed _) h

theorem ffTick (h : d.MemCanon) : d.ffTick.MemCanon := foldN h fun _ _ h => h.putFf

theorem activate {r n : Nat} (h : d.MemCanon) : (d.activate r n).MemCanon := h.zeroBalance

theorem addUnits {r : Nat} (h : d.MemCanon) : (d.addUnits r).MemCanon := by
  have hall : ∀ l : List Nat, (l.foldl (fun d n => d.activate r n) d).MemCanon := fun l => foldl h fun _ _ h => h.activate
  unfold Dev.addUnits
  extract_lets x free cand lvl need pick
  split
  · exact hall _
  · exact ite (hall _) (hall _)
  · exact h

theorem addTick {r : Nat} (h : d.MemCanon) : (d.addTick r).MemCanon := ite h.addUnits h.addUnits

theorem putState {a : Nat} {s : SecState} (h : d.MemCanon) : (d.putState a s).MemCanon :=
  h.putSram (memPutWord_wf _ _ (memPutWord_wf _ _ (memPutWord_wf _ _ (memPutWord_wf _ _ h.sram))))

theorem cascade {k recs states n i : Nat} {x : Int} (h : d.MemCanon) : (Dev.cascade d k recs states n i x).1.MemCanon := by
  induction n generalizing d i x with
  | zero => exact h
  | succ n ih => exact ih (d := Dev.updCluster _ _ _) h.putState

theorem blockCascade {k desc n : Nat} {x : Int} (h : d.MemCanon) : (d.blockCascade k desc n x).1.MemCanon := h.cascade

theorem fireBiq {e : SlotEntry} (h : d.MemCanon) : (d.fireBiq e).MemCanon := h.blockCascade.putOp

theorem fireFfs {e : SlotEntry} (h : d.MemCanon) : (d.fireFfs e).MemCanon := h.blockCascade.putOp

theorem fireSum {e : SlotEntry} (h : d.MemCanon) : (d.fireSum e).MemCanon := h.putOp

theorem coeffPort (h : d.MemCanon) : d.coeffPort.MemCanon := by
  refine foldl h fun d e h => ite ?_ h
  extract_lets r k mask inj begun
  have hbegun : begun.MemCanon := ite h.putOp h
  exact ite hbegun.putOp hbegun.putOp.putOp.putOp.putOp

theorem fireVlp {e : SlotEntry} (h : d.MemCanon) : (d.fireVlp e).MemCanon := by
  unfold Dev.fireVlp
  extract_lets k r n x ll cap nact ir ff vref drop e0 err c d1 iraw iref det d2
  have h2 : d2.MemCanon := h.blockCascade
  exact h2.putOp.putOp.putOp.putOp

theorem phaseWords {k r srcA srcB : Nat} {nact : Int} (h : d.MemCanon) : (d.phaseWords k r srcA srcB nact).MemCanon := by
  refine foldN h fun d j h => ite h ?_
  split
  · exact h.cascade
  · exact h
  · exact h

theorem firePhase {e : SlotEntry} (h : d.MemCanon) : (d.firePhase e).MemCanon := by
  unfold Dev.firePhase
  extract_lets k r n w3 st sat0 noted phased
  have hnoted : noted.MemCanon := ite h h
  have hphased : phased.MemCanon := hnoted.phaseWords
  exact hphased

theorem shareAgain {x : PhaseRun} (h : d.MemCanon) : (d.shareAgain x).MemCanon := by
  unfold Dev.shareAgain
  extract_lets k n back counted shared
  have hcounted : counted.MemCanon := foldN h fun _ _ h => ite h.putBytes h
  exact hcounted.putOp.phaseWords

theorem reshare {r : Nat} (h : d.MemCanon) : (d.reshare r).MemCanon := foldl h fun _ _ h => ite h.shareAgain h

theorem settleShares (h : d.MemCanon) : d.settleShares.MemCanon :=
  foldN h fun _ _ h => ite (foldl h.addUnits.reshare fun _ _ h => h) h.addUnits.reshare

theorem zeroLoops {r : Nat} (h : d.MemCanon) : (d.zeroLoops r).MemCanon := by
  unfold Dev.zeroLoops
  extract_lets states casc vlp inputs cleared
  have hstates : ∀ d desc n cnt, d.MemCanon → (states d desc n cnt).MemCanon := fun _ _ _ _ h => h.zeroMem
  have hcasc : ∀ d off, d.MemCanon → (casc d off).MemCanon := fun d off h => ite (hstates _ _ _ _ h) h
  refine foldl (hcasc _ _ (hcasc _ _ h)) fun d e h => ?_
  exact ite (hstates _ _ _ _ h) (ite (hstates _ _ _ _ h) (ite (hstates _ _ _ _ h) h))

theorem switchSection {a : Nat} {ws : List Nat} (h : d.MemCanon) : (d.switchSection a ws).MemCanon :=
  h.putSram (memFoldl_wf _ (fun _ _ h => memPutWord_wf _ _ h) h.sram)

theorem commitSection {pg refBit : Nat} {sampled : List (Nat × Nat)} {keys : Nat → Nat} {a : Option Nat} (h : d.MemCanon) :
    (d.commitSection pg refBit sampled keys a).MemCanon := by
  refine ite ?_ h
  split
  · exact h
  · exact ite h h.switchSection

theorem commitCoeffs {pg : Nat} {sampled : List (Nat × Nat)} (h : d.MemCanon) : (d.commitCoeffs pg sampled).MemCanon :=
  ite (foldN (foldN h fun _ _ h => h.commitSection) fun _ _ h => h.commitSection) (ite h.commitSection h)

/-! ### Injection, capture and comparison (R147 to R163) -/

theorem fireInj {e : SlotEntry} (h : d.MemCanon) : (d.fireInj e).MemCanon := by
  unfold Dev.fireInj
  extract_lets g a put wave code ones fresh phi sr hold inc amp inj seeded s next m0 m1 m2 m3
  have hput : ∀ d v, d.MemCanon → (put d v).MemCanon := fun _ _ h => h.putWord
  have hm : Memory.wf m3 = true := memPutWord_wf _ _ (memPutWord_wf _ _ (memPutWord_wf _ _ (memPutWord_wf _ _ h.sram)))
  exact ite (hput _ _ h) (hput _ _ (h.putSram hm))

theorem fireCapt {e : SlotEntry} (h : d.MemCanon) : (d.fireCapt e).MemCanon := by
  unfold Dev.fireCapt
  extract_lets rec1 c n counted depth sel m
  have hcounted : counted.MemCanon := h
  have hm : Memory.wf m = true := memFoldl_wf _ (fun _ _ h => memPutWord_wf _ _ h) hcounted.sram
  exact ite h (ite hcounted (frame (Dev.capIndexed_onlyIn _) rfl (hcounted.putSram hm)))

theorem fireComp {e : SlotEntry} (h : d.MemCanon) : (d.fireComp e).MemCanon := by
  unfold Dev.fireComp
  extract_lets x room len block
  refine h.putSram ?_
  split
  · exact h.sram
  · exact memWriteBytes_wf _ _ h.sram

theorem fireMwin {e : SlotEntry} (h : d.MemCanon) : (d.fireMwin e).MemCanon := foldl h fun _ _ h => h.putBytes

/-! ### The ledger and the admission of steps (R166 to R185) -/

theorem ledgerFire (h : d.MemCanon) : d.ledgerFire.MemCanon := by
  unfold Dev.ledgerFire
  extract_lets pruned p e'
  have hpruned : pruned.MemCanon := (h.frame (Dev.pruneSteps_onlyIn _) rfl).frame (Dev.allocTick_onlyIn _) rfl
  have hlearned : (pruned.updLed fun l => { l with p54 := p, eAv := e' }).limitTick.learnTick.MemCanon :=
    frame (Dev.learnTick_onlyIn _) rfl (frame (Dev.limitTick_onlyIn _) rfl hpruned)
  exact hlearned.ffTick.frame (Dev.updLed_onlyIn _ _) rfl

theorem place {i kind m : Nat} {neg : Bool} {c o : Nat} (h : d.MemCanon) : (d.place i kind m neg c o).MemCanon := by
  unfold Dev.place
  extract_lets r s dP q add ff led load
  have hff : ff.MemCanon := h.putFf
  have hload : load.MemCanon := hff
  exact ite (hload.frame (Dev.cancelShed_onlyIn _ _) rfl) hload

theorem record {i : Nat} {f : StepFrame} {x : Decision} {mag : Nat} (h : d.MemCanon) : (d.record i f x mag).MemCanon := by
  unfold Dev.record
  extract_lets counted entered
  have hentered : entered.MemCanon := h
  exact ite hentered hentered.journalGrant

theorem finish {n i : Nat} {f : StepFrame} {x : Decision} (h : d.MemCanon) : (d.finish n i f x).MemCanon :=
  h.record.frame (Dev.reply_onlyIn _ _ _ _) rfl

theorem denyReq {n i : Nat} {f : StepFrame} {dec : Nat} (h : d.MemCanon) : (d.denyReq n i f dec).MemCanon :=
  finish (h.frame (Dev.noStep_onlyIn _ _) rfl)

theorem decideRelease {n i : Nat} {f : StepFrame} (h : d.MemCanon) : (d.decideRelease n i f).MemCanon :=
  finish (place (d := d.updLoad i _) h)

theorem decideDown {n i : Nat} {f : StepFrame} (h : d.MemCanon) : (d.decideDown n i f).MemCanon := by
  refine ite h.denyReq ?_
  split
  · exact h.place.finish
  · exact (place (d := d.occur 0x75 3) h).finish

theorem decideAnnounce {n i : Nat} {f : StepFrame} (h : d.MemCanon) : (d.decideAnnounce n i f).MemCanon := by
  unfold Dev.decideAnnounce
  extract_lets m e seen dP led
  have hseen : seen.MemCanon := (h.frame (Dev.noStep_onlyIn d i) rfl :)
  exact ite h.denyReq (ite h.denyReq (ite h.denyReq (finish (d := led) hseen)))

theorem decideUp {n i : Nat} {f : StepFrame} (h : d.MemCanon) : (d.decideUp n i f).MemCanon := by
  unfold Dev.decideUp
  extract_lets r m c o0 give m'
  have hgive : ∀ x, (give d x).MemCanon := fun _ => (place (d := d.updLoad i _) h).finish
  refine ite h.denyReq (ite h.denyReq (ite h.denyReq ?_))
  split
  · exact hgive _
  · exact ite h.denyReq (ite h.denyReq (hgive _))

theorem placeAgain {n i : Nat} {f : StepFrame} {kind m c dec mag : Nat} {neg : Bool} (h : d.MemCanon) :
    (d.placeAgain n i f kind m c dec mag neg).MemCanon := by
  unfold Dev.placeAgain
  extract_lets r again withdraw o0
  have hagain : ∀ d o, d.MemCanon → (again d o).MemCanon := fun _ _ h =>
    frame (Dev.reply_onlyIn _ _ _ _) rfl (ite h.place h.place.journalGrant)
  have hwithdraw : ∀ d, d.MemCanon → (withdraw d).MemCanon := fun d h =>
    frame (Dev.reply_onlyIn _ _ _ _) rfl (ite h (journalGrant (d := d.updLoad i _) h))
  clear_value again withdraw
  refine ite (ite (hwithdraw _ h) ?_) (ite (hagain _ _ h) ?_)
  · split
    · exact hagain _ _ h
    · exact hagain _ _ h
  · split
    · exact hagain _ _ h
    · exact hwithdraw _ h

theorem duplicate {n i : Nat} {f : StepFrame} (h : d.MemCanon) : (d.duplicate n i f).MemCanon := by
  unfold Dev.duplicate
  extract_lets e jrn counted
  have hcounted : counted.MemCanon := h
  refine ite (frame (Dev.reply_onlyIn _ _ _ _) rfl h) ?_
  split
  · exact hcounted.frame (Dev.reply_onlyIn _ _ _ _) rfl
  · refine ite (hcounted.frame (Dev.reply_onlyIn _ _ _ _) rfl) (placeAgain ?_)
    exact frame (Dev.unplace_onlyIn _ _ _) rfl (frame (Dev.takeBack_onlyIn _ _ _) rfl hcounted)

theorem request {n : Nat} {f : StepFrame} {cmp : Bool} {decide : Dev → Nat → StepFrame → Dev} (h : d.MemCanon)
    (hd : ∀ d i, d.MemCanon → (decide d i f).MemCanon) : (d.request n f cmp decide).MemCanon := by
  unfold Dev.request
  extract_lets i ok emptied seen e dist decided
  have hseen : seen.MemCanon := ite (frame (Dev.seen_onlyIn _ _ _) rfl h) h
  clear_value seen
  have hdecided : decided.MemCanon :=
    ite hseen (ite (frame (Dev.reply_onlyIn _ _ _ _) rfl hseen)
      (ite (hd _ _ hseen) (ite hseen.duplicate (frame (Dev.reply_onlyIn _ _ _ _) rfl hseen))))
  exact frame (Dev.admitEnd_onlyIn _) rfl hdecided

theorem decideReq {n : Nat} {f : StepFrame} (h : d.MemCanon) : (d.decideReq n f).MemCanon :=
  ite (h.request fun _ _ h => h.decideDown) (ite (h.request fun _ _ h => h.decideAnnounce)
    (ite (h.request fun _ _ h => h.decideRelease)
      (ite (h.request fun _ _ h => h.frame (Dev.decideHeartbeat_onlyIn _ _ _ _) rfl) (h.request fun _ _ h => h.decideUp))))

theorem admitCmd {n kind : Nat} (h : d.MemCanon) : (d.admitCmd n kind).MemCanon := by
  unfold Dev.admitCmd
  split
  · exact h.decideReq
  · exact h

theorem settleRequests (h : d.MemCanon) : d.settleRequests.MemCanon := by
  refine ite (foldl h fun d n h => ?_) h
  split
  · exact h.decideReq
  · exact h

/-! ### Images and the bank swap (R58 to R75) -/

theorem writeSegments {l : List ImgSegment} (h : d.MemCanon) : (d.writeSegments l).MemCanon := foldl h fun _ _ h => h.putBytes

theorem loadInto {b : Bool} {l : List Byte} {other : Option LoadResult} (h : d.MemCanon) : (d.loadInto b l other).MemCanon := by
  unfold Dev.loadInto
  extract_lets r rB bad ver banked loaded compared
  have hcompared : compared.MemCanon := ite (c := rB = r) h h
  exact ite hcompared.writeSegments hcompared

theorem loadImage {l : List Byte} {other : Option LoadResult} (h : d.MemCanon) : (d.loadImage l other).MemCanon :=
  loadInto (h.frame (Dev.swapCancel_onlyIn _) rfl)

theorem applyCoeffs (h : d.MemCanon) : d.applyCoeffs.MemCanon := by
  unfold Dev.applyCoeffs
  extract_lets ss old written keep m inSeg
  have hwritten : written.MemCanon := h.writeSegments
  have hm : Memory.wf m = true := memFoldl_wf _ (fun _ _ h => memWriteBytes_wf _ _ h) hwritten.sram
  exact hwritten.putSram hm

theorem bankSwap (h : d.MemCanon) : d.bankSwap.MemCanon :=
  ite (applyCoeffs (d := d.updSched _) h) (frame (Dev.swapRefused_onlyIn _ _) rfl h)

/-! ### The DMA engine (R466 to R476) -/

theorem writeBack {c code moved : Nat} (h : d.MemCanon) : (d.writeBack c code moved).MemCanon := by
  unfold Dev.writeBack
  extract_lets ch a st written ended
  have hended : ended.MemCanon := h.putSram (memPutWord_wf _ _ (memPutWord_wf _ _ h.sram))
  exact ite hended hended

theorem endDesc {c code : Nat} (h : d.MemCanon) : (d.endDesc c code).MemCanon := by
  unfold Dev.endDesc
  extract_lets ch written
  have hwritten : written.MemCanon := h.writeBack
  clear_value written
  exact ite (ite hwritten hwritten) (ite hwritten (hwritten.frame (Dev.chError_onlyIn _ _ _) rfl))

theorem chFetch {c : Nat} (h : d.MemCanon) : (d.chFetch c).MemCanon := by
  unfold Dev.chFetch
  extract_lets a w code taken
  have htaken : taken.MemCanon := h
  exact ite h (ite htaken htaken.endDesc)

theorem moveByte {c : Nat} (h : d.MemCanon) : (d.moveByte c).MemCanon := by
  unfold Dev.moveByte
  extract_lets ch s fresh l t b rest rest' moved twin mirrored
  have hmoved : moved.MemCanon := h.putSram (memWrite_wf _ _ h.sram)
  have hmirrored : mirrored.MemCanon := ite hmoved hmoved
  exact hmirrored

theorem moveBytes {c n : Nat} (h : d.MemCanon) : (d.moveBytes c n).MemCanon := foldN h fun _ _ h => h.moveByte

theorem chBurst {c : Nat} {e : SlotEntry} (h : d.MemCanon) : (d.chBurst c e).MemCanon := by
  unfold Dev.chBurst
  extract_lets paced ends moved cap
  have hmoved : moved.MemCanon := moveBytes (d := d.updDma c _) h
  exact ite h (ite hmoved (ite (endDesc (frame (Dev.reqFalls_onlyIn _ _ _) rfl hmoved)) hmoved.endDesc))

theorem chFlush {c : Nat} (h : d.MemCanon) : (d.chFlush c).MemCanon := h.moveBytes

theorem chFire {c : Nat} {e : SlotEntry} (h : d.MemCanon) : (d.chFire c e).MemCanon := by
  unfold Dev.chFire
  extract_lets ch fired hit fetched
  have hhit : (hit fired).MemCanon := h
  have hfetched : fetched.MemCanon := hhit.chFetch
  clear_value fetched hit
  exact ite h (ite h (ite (ite hhit.endDesc hhit.chFlush)
    (ite hhit (ite hhit.chFlush (ite hhit.chBurst (ite hfetched.chBurst hfetched))))))

theorem dmaFrond (h : d.MemCanon) : d.dmaFrond.MemCanon := by
  refine foldN h fun d c h => ?_
  extract_lets ch cleared
  have hcleared : cleared.MemCanon := h
  exact ite (ite hcleared.endDesc (hcleared.frame (Dev.chError_onlyIn _ _ _) rfl)) hcleared

theorem capCopy (h : d.MemCanon) : d.capCopy.MemCanon := by
  unfold Dev.capCopy
  extract_lets l m cap
  have hm : Memory.wf m = true := memFoldl_wf _ (fun _ _ h => memWriteBytes_wf _ _ h) h.sram
  exact ite (h.putSram hm) h

theorem dmaTick (h : d.MemCanon) : d.dmaTick.MemCanon := by
  refine foldN h.capCopy fun d c h => ?_
  extract_lets en pa cleared started
  have hstarted : started.MemCanon :=
    ite (frame (Dev.chStartUp_onlyIn _ _) rfl h) (ite (frame (Dev.chStop_onlyIn _ _) rfl h) h)
  exact ite (hstarted.frame (Dev.chPauseOn_onlyIn _ _) rfl) (ite (hstarted.frame (Dev.chPauseOff_onlyIn _ _) rfl) hstarted)

end Dev.MemCanon

end Sys2Proof.Machine
end

section
/-! PROOF. The twins, the tick, the frond boundary and the boot keep the canonical form of the byte memories. -/

namespace Sys2Proof.Machine

namespace Dev.MemCanon

variable {d e : Dev}

/-! ### The twins: roles, and the SRAM that a twin leaves behind (R294 to R325) -/

theorem roleWrite {t : Twin} (h : d.MemCanon) : (d.roleWrite t).MemCanon := h.ringPut

theorem makeActive {t : Twin} (h : d.MemCanon) : (d.makeActive t).MemCanon := roleWrite (frame (Dev.updTwin_onlyIn _ _ _) rfl h)

theorem passRole {t : Twin} (h : d.MemCanon) : (d.passRole t).MemCanon :=
  ite (makeActive (frame (Dev.updTwin_onlyIn _ _ _) rfl h)) h

/-- What a twin leaves behind is what the twins in operation hold. -/
theorem keepSram {t : Twin} (h : d.MemCanon) : (d.keepSram t).MemCanon := by
  obtain ⟨hs, hsA, hsB, hrest⟩ := h
  refine ite ?_ ⟨hs, hsA, hsB, hrest⟩
  cases t with
  | a => exact ⟨hs, hs, hsB, hrest⟩
  | b => exact ⟨hs, hsA, hs, hrest⟩

theorem twinOut {t : Twin} {auto : Bool} (h : d.MemCanon) : (d.twinOut t auto).MemCanon :=
  frame (Dev.occur_onlyIn _ _ _) rfl (frame (Dev.updTwin_onlyIn _ _ _) rfl h.keepSram.passRole)

theorem twinRestart {t : Twin} (h : d.MemCanon) : (d.twinRestart t).MemCanon := h.keepSram.frame (Dev.updTwin_onlyIn _ _ _) rfl

theorem quarantine {t : Twin} {silent : Bool} (h : d.MemCanon) : (d.quarantine t silent).MemCanon := by
  unfold Dev.quarantine
  extract_lets passed win counted
  have hpassed : passed.MemCanon := h.keepSram.passRole.frame (Dev.occur_onlyIn _ _ _) rfl
  have hcounted : counted.MemCanon := hpassed.frame (Dev.updTwin_onlyIn _ _ _) rfl
  exact ite hcounted.twinOut hcounted.twinRestart

theorem ruleApplies {rule field : Nat} {t : Twin} {quar : Bool} (h : d.MemCanon) :
    (d.ruleApplies rule t quar field).MemCanon := ite (quarantine (d := d.updCtl _) h) h

theorem decideTick (h : d.MemCanon) : d.decideTick.MemCanon := by
  unfold Dev.decideTick
  extract_lets load x hard crc fld t counted t' missed
  have hx : x.MemCanon := h
  have hcounted : counted.MemCanon := frame (Dev.occur_onlyIn _ _ _) rfl (hx.frame (Dev.updTwin_onlyIn _ _ _) rfl)
  have hmissed : missed.MemCanon := hx.frame (Dev.updTwin_onlyIn _ _ _) rfl
  clear_value missed counted x
  repeat' with_reducible apply ite
  · exact hx.ruleApplies
  · exact hx.ruleApplies
  · exact hx
  · exact hcounted.ruleApplies
  · exact hx.ruleApplies
  · exact hx.ruleApplies
  · exact hmissed.ruleApplies
  · exact ruleApplies (frame (Dev.occur_onlyIn _ _ _) rfl hx)
  · exact hx
  · exact hx

theorem endTick (h : d.MemCanon) : d.endTick.MemCanon := by
  have hc : d.countTwins.MemCanon := h.frame (Dev.countTwins_onlyIn _) rfl
  unfold Dev.endTick
  generalize d.countTwins = x at hc
  exact ite hc (decideTick (d := { x with die := _ }) hc)

theorem twinFrond {hbA hbB : Bool} (h : d.MemCanon) : (d.twinFrond hbA hbB).MemCanon := by
  unfold Dev.twinFrond
  extract_lets sus each beat ticked taken t
  have hbeat : beat.MemCanon := (h.frame (Dev.frondHb_onlyIn _ _ _) rfl).frame (Dev.frondHb_onlyIn _ _ _) rfl
  have hticked : ticked.MemCanon := (hbeat.frame (Dev.updTwin_onlyIn _ _ _) rfl).frame (Dev.updTwin_onlyIn _ _ _) rfl
  have htaken : taken.MemCanon := hticked
  exact ite (ite (makeActive (frame (Dev.updTwin_onlyIn _ _ _) rfl htaken)) htaken) hticked

theorem twinFails {t : Twin} (h : d.MemCanon) : (d.twinFails t).MemCanon :=
  ite h (frame (Dev.occur_onlyIn _ _ _) rfl (frame (Dev.occur_onlyIn _ _ _) rfl (h.keepSram.frame (Dev.updTwin_onlyIn _ _ _) rfl)))

/-! ### Temperatures (R259 to R291) -/

theorem twinShut {t : Twin} (h : d.MemCanon) : (d.twinShut t).MemCanon :=
  ite (ite (twinOut (d := Dev.updTherm _ _) h) (enterSafe (d := Dev.updTherm _ _) h)) h

theorem dieChecks (h : d.MemCanon) : d.dieChecks.MemCanon := by
  unfold Dev.dieChecks
  extract_lets ds rate hi warn all outside within fast warned left checked
  have hfast : fast.MemCanon := ite h h
  have hwarned : warned.MemCanon := ite hfast hfast
  have hleft : left.MemCanon := ite hwarned hwarned
  have hchecked : checked.MemCanon := hleft
  exact hchecked.twinShut.twinShut

theorem intmonDone {i : Nat} (h : d.MemCanon) : (d.intmonDone i).MemCanon := by
  unfold Dev.intmonDone
  extract_lets v measured
  have hmeasured : measured.MemCanon := h
  exact ite h (ite hmeasured.enterSafe hmeasured)

theorem thermFrond {ta tb : List Int} (h : d.MemCanon) : (d.thermFrond ta tb).MemCanon := by
  unfold Dev.thermFrond
  extract_lets meant checked rated board none64
  have hsense : (d.dieSense ta tb).MemCanon := h.frame (Dev.dieSense_onlyIn _ _ _) rfl
  have hmeant : meant.MemCanon := (hsense.dieChecks.frame (Dev.stageMeans_onlyIn _) rfl).frame (Dev.condMark_onlyIn _) rfl
  have hchecked : checked.MemCanon := hmeant.foldN fun _ _ h => h.frame (Dev.stageCheck_onlyIn _ _) rfl
  have hrated : rated.MemCanon := hchecked.foldN fun _ _ h => h.frame (Dev.stageRates_onlyIn _ _) rfl
  have hboard : board.MemCanon := hrated.frame (Dev.boardFrond_onlyIn _) rfl
  exact hboard.frame (Dev.updTherm_onlyIn _ _) rfl

theorem loseCoreS (h : d.MemCanon) : d.loseCoreS.MemCanon :=
  frame (Dev.assertReset_onlyIn _ _) rfl (enterSafe (d := d.updSup _) h)

/-! ### Frames of the row (R432 to R459) -/

theorem takeCommand {f : MFrame} (h : d.MemCanon) : (d.takeCommand f).MemCanon := by
  unfold Dev.takeCommand
  extract_lets seq code timed args src sporesOff r taken
  have hr : r.1.MemCanon := by
    dsimp only [r]
    split
    · exact h
    · split
      · exact h
      · exact h.decideAny
  have htaken : taken.MemCanon := ite (hr.frame (Dev.setTimed_onlyIn _ _ _ _) rfl) hr
  exact htaken.frame (Dev.unicast_onlyIn _ _ _ _) rfl

theorem takeSporeChunk {f : MFrame} (h : d.MemCanon) : (d.takeSporeChunk f).MemCanon := ite h.takeChunk h

theorem takePeatReq {f : MFrame} (h : d.MemCanon) : (d.takePeatReq f).MemCanon := by
  unfold Dev.takePeatReq
  extract_lets flags trig
  have htrig : trig.MemCanon := ite (h.frame (Dev.peatTrig_onlyIn _ _) rfl) h
  exact ite htrig.peatAnswer htrig

theorem handleFrame {f : MFrame} (h : d.MemCanon) : (d.handleFrame f).MemCanon := by
  unfold Dev.handleFrame
  repeat' with_reducible apply ite
  · exact h.frame (Dev.takeBudget_onlyIn _ _) rfl
  · exact h.frame (Dev.takeAdvert_onlyIn _ _) rfl
  · exact h.frame (Dev.takeDigest_onlyIn _ _) rfl
  · exact h.takeCommand
  · exact h.frame (Dev.takeReply_onlyIn _ _) rfl
  · exact h.takeSporeChunk
  · exact h.takePeatReq
  · exact h

theorem rxDrain {cls : Nat} (h : d.MemCanon) : (d.rxDrain cls).MemCanon :=
  ite h (foldl (d := d.updMie _) h fun _ _ h => handleFrame (h.frame (Dev.frameCells_onlyIn _ _ _) rfl))

/-! ### The tick (R10 to R20, R47) -/

theorem mirrorSlice (h : d.MemCanon) : d.mirrorSlice.MemCanon := h.putBytes

theorem sealTick (h : d.MemCanon) : d.sealTick.MemCanon := h.settleRequests.settleShares.frame (Dev.placeOut_onlyIn _) rfl

theorem closeTick (h : d.MemCanon) : d.closeTick.MemCanon := by
  unfold Dev.closeTick
  extract_lets sealed kept ended fed die judged die' demanded rose triggered
  have hkept : kept.MemCanon := (h.sealTick.frame (Dev.keepFrame_onlyIn _ _) rfl).frame (Dev.keepFrame_onlyIn _ _) rfl
  have hended : ended.MemCanon := hkept.endTick.mirrorSlice.frame (Dev.dropOutbound_onlyIn _) rfl
  have hfed : fed.MemCanon := ite (hended.frame (Dev.noFeedTick_onlyIn _) rfl) hended
  clear_value fed
  have hjudged : judged.MemCanon := hfed
  clear_value judged
  have hdemanded : demanded.MemCanon := hjudged
  clear_value demanded
  have hrose : rose.MemCanon := hdemanded.foldN fun _ _ h => h.frame (Dev.hnRose_onlyIn _ _) rfl
  have htriggered : triggered.MemCanon := ite (hrose.frame (Dev.capTrigger_onlyIn _) rfl) hrose
  exact ite h (htriggered.frame (Dev.peatDeposit_onlyIn _) rfl)

theorem takeFrame {i : TickIn} {x : SenseWords} {lost : Bool} {drv : Nat} (h : d.MemCanon) :
    (d.takeFrame i x lost drv).MemCanon := by
  unfold Dev.takeFrame
  extract_lets driven ports f framed
  have hdriven : driven.MemCanon := h.putBytes
  have hframed : framed.MemCanon := hdriven.putBytes
  exact ite hdriven ((hframed.frame (Dev.takeSwitches_onlyIn _) rfl).frame (Dev.peatSample_onlyIn _ _) rfl)

theorem railsTick (h : d.MemCanon) : d.railsTick.MemCanon := by
  unfold Dev.railsTick
  extract_lets measured capped aimed cleared started followed shed
  have hmeasured : measured.MemCanon := h.foldN fun _ _ h => h
  have hcapped : capped.MemCanon :=
    (hmeasured.frame (Dev.ledgerCurrents_onlyIn _) rfl).foldN fun _ _ h => h.frame (Dev.capTick_onlyIn _ _) rfl
  have haimed : aimed.MemCanon := hcapped.foldN fun _ _ h => h.frame (Dev.targetTick_onlyIn _ _) rfl
  have hcleared : cleared.MemCanon := haimed.foldN fun _ _ h => ite h.zeroLoops h
  have hstarted : started.MemCanon := hcleared.foldN fun _ _ h => h.frame (Dev.startTick_onlyIn _ _) rfl
  have hfollowed : followed.MemCanon := hstarted.foldl fun _ _ h => h.frame (Dev.refTick_onlyIn _ _) rfl
  have hshed : shed.MemCanon := hfollowed.foldN fun _ _ h => ite (h.frame (Dev.thermalShed_onlyIn _ _) rfl) h
  exact hshed.foldN fun _ _ h => h.addTick

theorem fireLedger (h : d.MemCanon) : d.fireLedger.MemCanon := by
  have hrow : (d.thermLedger.battTick.setRow).MemCanon :=
    ((h.frame (Dev.thermLedger_onlyIn _) rfl).frame (Dev.battTick_onlyIn _) rfl).frame (Dev.setRow_onlyIn _) rfl
  exact hrow.ledgerFire.frame (Dev.capAll_onlyIn _) rfl

theorem fireEntry {e : SlotEntry} (h : d.MemCanon) : (d.fireEntry e).MemCanon := by
  unfold Dev.fireEntry
  extract_lets c
  repeat' with_reducible apply ite
  · exact h.throughSlice fun _ h => h.fireBiq
  · exact h.throughSlice fun _ h => h.fireVlp
  · exact h.throughSlice fun _ h => h.fireFfs
  · exact h.throughSlice fun _ h => h.fireSum
  · exact h.firePhase
  · exact h.frame (Dev.fireOvl_onlyIn _ _) rfl
  · exact h.frame (Dev.fireStat_onlyIn _ _) rfl
  · exact h.throughSlice fun _ h => h.fireInj
  · exact (h.frame (Dev.admitFire_onlyIn _) rfl).frame (Dev.overDrop_onlyIn _ _ _) rfl
  · exact h.fireLedger
  · exact (h.frame (Dev.fireSupv_onlyIn _) rfl).frame (Dev.overDrop_onlyIn _ _ _) rfl
  · exact h.frame (Dev.accTick_onlyIn _ _) rfl
  · exact h.fireCapt
  · exact h.fireComp
  · exact h.peatFire
  · exact h.chFire
  · exact (h.rxDrain.frame (Dev.rxFalls_onlyIn _ _) rfl).frame (Dev.overDrop_onlyIn _ _ _) rfl
  · exact h.fireMwin
  · exact h

theorem fireAll (h : d.MemCanon) : d.fireAll.MemCanon := by
  unfold Dev.fireAll
  extract_lets l pre post counted fired
  have hcounted : counted.MemCanon :=
    (h.foldl fun _ _ h => h.fireEntry).foldN fun _ _ h => h.frame (Dev.countTick_onlyIn _ _) rfl
  have hfired : fired.MemCanon := hcounted.foldl fun _ _ h => h.fireEntry
  exact ite hfired (hfired.frame (Dev.accTick_onlyIn _ _) rfl)

theorem nvError {t : Twin} {err : Option NvErr} (h : d.MemCanon) : (d.nvError t err).MemCanon := by
  unfold Dev.nvError
  split
  · exact h
  · exact h.frame (Dev.selfErr_onlyIn _ _ _) rfl
  · exact h
  · exact frame (Dev.selfErr_onlyIn _ _ _) rfl (h.frame (Dev.occur_onlyIn _ _ _) rfl)
  · extract_lets n
    refine ite (frame (Dev.occur_onlyIn _ _ _) rfl (h.putNv ?_ ?_)) h
    · dsimp only
      split
      · exact copyPages_wf _ _ h.nvA
      · exact h.nvA
    · dsimp only
      split
      · exact copyPages_wf _ _ h.nvB
      · exact h.nvB

theorem voteTick {v : Vote} (h : d.MemCanon) : (d.voteTick v).MemCanon := by
  cases v with
  | agree => exact h
  | oneDiffers => exact h
  | twoDiffer => exact enterSafe (d := { d with die := _ }) h

theorem errorTick {i : TickIn} (h : d.MemCanon) : (d.errorTick i).MemCanon := by
  unfold Dev.errorTick
  extract_lets beat missed odd nv
  have hbeat : beat.MemCanon := (h.frame (Dev.tickHb_onlyIn _ _ _) rfl).frame (Dev.tickHb_onlyIn _ _ _) rfl
  have hmissed : missed.MemCanon := (hbeat.frame (Dev.schedMiss_onlyIn _ _ _) rfl).frame (Dev.schedMiss_onlyIn _ _ _) rfl
  have hodd : odd.MemCanon := (hmissed.frame (Dev.parityErr_onlyIn _ _ _) rfl).frame (Dev.parityErr_onlyIn _ _ _) rfl
  have hnv : nv.MemCanon := hodd.nvError.nvError
  exact hnv.voteTick

theorem tickSense {i : TickIn} {drv : Nat} (h : d.MemCanon) : (d.tickSense i drv).MemCanon := by
  unfold Dev.tickSense
  extract_lets lost selfA selfB eff x framed aged taken safe
  have hselfA : selfA.MemCanon := ite (h.frame (Dev.selfErr_onlyIn _ _ _) rfl) h
  have hselfB : selfB.MemCanon := ite (hselfA.frame (Dev.selfErr_onlyIn _ _ _) rfl) hselfA
  have hframed : framed.MemCanon :=
    (hselfB.frame (Dev.admNewTick_onlyIn _) rfl).takeFrame.frame (Dev.dieSamples_onlyIn _ _ _) rfl
  clear_value framed
  have haged : aged.MemCanon := hframed
  have htaken : taken.MemCanon := haged.frame (Dev.takeSamples_onlyIn _ _ _) rfl
  have hsafe : safe.MemCanon := ite htaken (htaken.frame (Dev.safeSense_onlyIn _) rfl)
  clear_value safe
  exact hsafe

theorem tickWork {i : TickIn} (h : d.MemCanon) : (d.tickWork i).MemCanon := by
  unfold Dev.tickWork
  extract_lets inj cap begun triggered sampled fired aux inj' ended bursts periods counters tier
  have hbegun : begun.MemCanon := h
  have htriggered : triggered.MemCanon := ite (hbegun.frame (Dev.capTrigger_onlyIn _) rfl) hbegun
  have hsampled : sampled.MemCanon :=
    ite ((htriggered.frame (Dev.commitSample_onlyIn _) rfl).frame (Dev.sampleFloor_onlyIn _) rfl) htriggered
  have hfired : fired.MemCanon := hsampled.coeffPort.dmaTick.fireAll
  have haux : aux.MemCanon := hfired.frame (Dev.auxTick_onlyIn _ _ _) rfl
  have hended : ended.MemCanon := haux
  have hbursts : bursts.MemCanon := hended.foldN fun _ _ h => h.frame (Dev.burstTick_onlyIn _ _) rfl
  have hperiods : periods.MemCanon := hbursts.foldN fun _ _ h => h.frame (Dev.periodTick_onlyIn _ _) rfl
  have hcounters : counters.MemCanon :=
    (hperiods.foldN fun _ _ h => h.frame (Dev.counterTick_onlyIn _ _) rfl).frame (Dev.noAdmit_onlyIn _) rfl
  have htier : tier.MemCanon := ite (hcounters.frame (Dev.tierSelect_onlyIn _) rfl) hcounters
  exact (htier.errorTick.frame (Dev.mieTick_onlyIn _) rfl).frame (Dev.demandTick_onlyIn _) rfl

theorem runTick {i : TickIn} (h : d.MemCanon) : (d.runTick i).MemCanon := by
  unfold Dev.runTick
  extract_lets drv fresh closed opened applied begun worked
  have hclosed : closed.MemCanon := h.closeTick
  have hopened : opened.MemCanon := ite hclosed (hclosed.frame (Dev.newTick_onlyIn _) rfl)
  have happlied : applied.MemCanon := hopened.frame (Dev.tickApply_onlyIn _ _) rfl
  clear_value applied
  have hbegun : begun.MemCanon := happlied
  have hworked : worked.MemCanon := hbegun.tickSense.railsTick.tickWork
  clear_value worked
  exact hworked

/-! ### The frond boundary (R24, R30, R69) -/

theorem commitFrond (h : d.MemCanon) : d.commitFrond.MemCanon := by
  unfold Dev.commitFrond
  extract_lets swap due sampled
  have hchecked : (d.checkAll sampled).1.MemCanon := h.frame (Dev.checkAll_onlyIn _ _) rfl
  split
  rename_i d1 ch heq
  rw [heq] at hchecked
  extract_lets effected coeffs gone
  have heffected : effected.MemCanon := hchecked.frame (Dev.commitEffects_onlyIn _ _ _ _) rfl
  have hcoeffs : coeffs.MemCanon := ite heffected (heffected.foldl fun _ _ h => h.commitCoeffs)
  exact hcoeffs

theorem of_ite_eq_some {c : Prop} [Decidable c] {o p : Option (Dev → Dev)} (ho : ∀ f, o = some f → (f d).MemCanon)
    (hp : ∀ f, p = some f → (f d).MemCanon) : ∀ f, (if c then o else p) = some f → (f d).MemCanon := by
  split
  · exact ho
  · exact hp

theorem clearCount {pg off : Nat} {f : Dev → Dev} (h : d.MemCanon) (hf : clearCount pg off = some f) : (f d).MemCanon := by
  revert f
  unfold Machine.clearCount
  repeat' with_reducible apply of_ite_eq_some
  all_goals rintro f ⟨⟩
  all_goals exact h

theorem counterFrond (h : d.MemCanon) : d.counterFrond.MemCanon := by
  refine ite ?_ h
  split
  · exact h
  · split
    · exact h.frame (Dev.endItem_onlyIn _ _ _) rfl
    · exact (h.clearCount ‹_›).frame (Dev.endItem_onlyIn _ _ _) rfl

theorem rolesFrond {hbA hbB : Bool} (h : d.MemCanon) : (d.rolesFrond hbA hbB).MemCanon := by
  unfold Dev.rolesFrond
  extract_lets ok roles
  have hroles : roles.MemCanon := h.twinFrond
  exact ite (ite (hroles.frame (Dev.endItem_onlyIn _ _ _) rfl) (hroles.frame (Dev.endItem_onlyIn _ _ _) rfl)) hroles

theorem boundaryCommit {i : FrondIn} (h : d.MemCanon) : (d.boundaryCommit i).MemCanon := by
  have hfrond := (h.frame (Dev.clusterFrond_onlyIn d) rfl).putInj (x := d.inj.frond)
  have hdeferred := hfrond.rolesFrond (hbA := i.sHbA) (hbB := i.sHbB) |>.frame (Dev.deferredFrond_onlyIn _) rfl
  exact ((hdeferred.commitFrond.frame (Dev.crustFrond_onlyIn _) rfl).frame (Dev.clearFrond_onlyIn _) rfl).counterFrond

theorem boundaryWork {i : FrondIn} (h : d.MemCanon) : (d.boundaryWork i).MemCanon := by
  unfold Dev.boundaryWork
  extract_lets setp therm ages charged linked fabric
  have hsetp : setp.MemCanon := h.foldN fun _ _ h => h.frame (Dev.setpFrond_onlyIn _ _ _) rfl
  have htherm : therm.MemCanon :=
    frame (Dev.holdFrond_onlyIn _) rfl (frame (Dev.regionFrond_onlyIn _) rfl
      ((hsetp.frame (Dev.meansFrond_onlyIn _) rfl).thermFrond.frame (Dev.pbFrond_onlyIn _) rfl))
  have hages : ages.MemCanon := (htherm.frame (Dev.agesFrond_onlyIn _) rfl).frame (Dev.calBoundary_onlyIn _) rfl
  have hcharged : charged.MemCanon :=
    ((hages.frame (Dev.admFrond_onlyIn _) rfl).bbuFrond.frame (Dev.placeCharges_onlyIn _) rfl).frame (Dev.tierFrond_onlyIn _) rfl
  have hlinked : linked.MemCanon :=
    dmaFrond (frame (Dev.rowFrond_onlyIn _) rfl (frame (Dev.epochFrond_onlyIn _) rfl
      ((hcharged.frame (Dev.linkFrond_onlyIn _) rfl).frame (Dev.timeFrond_onlyIn _) rfl)))
  have hfabric : fabric.MemCanon := (hlinked.frame (Dev.fabFrond_onlyIn _) rfl).frame (Dev.twFrond_onlyIn _) rfl
  exact (hfabric.settingsFrond.frame (Dev.peatStanding_onlyIn _) rfl).frame (Dev.standbyFrond_onlyIn _) rfl

theorem runBoundary {i : FrondIn} (h : d.MemCanon) : (d.runBoundary i).MemCanon :=
  ((h.closeTick.frame (Dev.newTick_onlyIn _) rfl).boundaryCommit.boundaryWork).frame (Dev.newFrond_onlyIn _) rfl

/-! ### The boot (R326 to R332, R374) -/

theorem rewritePlace {addr : Nat} {w : List Byte} {tied : Bool} (h : d.MemCanon) : (d.rewritePlace addr w tied).MemCanon := by
  unfold Dev.rewritePlace
  extract_lets x keep
  have hx : x.MemCanon := ite h.tie h
  exact frame (Dev.occur_onlyIn _ _ _) rfl (hx.putNv (memWriteBytes_wf _ _ hx.nvA) (memWriteBytes_wf _ _ hx.nvB))

theorem reconcileAt {p : Place} (h : d.MemCanon) : (d.reconcileAt p).MemCanon := ite h h.rewritePlace

theorem reconcileSet {b group o : Nat} (h : d.MemCanon) : (d.reconcileSet b group o).MemCanon := by
  unfold Dev.reconcileSet
  extract_lets gen
  split
  · exact h
  · exact h.rewritePlace
  · exact h.rewritePlace
  · exact ite h h.rewritePlace

theorem reconcileBank {b : Nat} (h : d.MemCanon) : (d.reconcileBank b).MemCanon := by
  unfold Dev.reconcileBank
  extract_lets da db l nv x
  have hboth : ∀ a l,
      ({ d with nv := { d.nv with a := memWriteBytes d.nv.a a l, b := memWriteBytes d.nv.b a l } } : Dev).MemCanon :=
    fun _ _ => h.putNv (memWriteBytes_wf _ _ h.nvA) (memWriteBytes_wf _ _ h.nvB)
  have hx : x.MemCanon := ite h (hboth _ _)
  exact hx.foldl fun _ _ h => h.reconcileSet.reconcileSet

theorem reconcile (h : d.MemCanon) : d.reconcile.MemCanon := by
  have hclean : ∀ x : Dev, x.MemCanon → ({ x with nv := { x.nv with dirtyA := [], dirtyB := [] } } : Dev).MemCanon :=
    fun _ h => h
  exact hclean _ (reconcileBank (reconcileBank (h.foldl fun _ _ h => h.reconcileAt)))

theorem countBoot (h : d.MemCanon) : d.countBoot.MemCanon := ringPut (d := d.updJrn _) h

theorem ringTaken {n : Nat} {v : List Byte} {roles : List (Nat × Nat × Nat)} (h : d.MemCanon) :
    (d.ringTaken n v roles).MemCanon := ite h (ite h (ite h h))

theorem bootRing {n : Nat} (h : d.MemCanon) : (d.bootRing n).MemCanon := by
  unfold Dev.bootRing
  extract_lets l note
  have hnote : ∀ gen slot forceGen force, (note d gen slot forceGen force).MemCanon := fun _ _ _ _ => h
  clear_value note
  split
  · exact (hnote _ _ _ _).ringTaken.ringPut
  · split
    · exact (hnote _ _ _ _).ringTaken
    · exact (hnote _ _ _ _).ringTaken.frame (Dev.occur_onlyIn _ _ _) rfl

theorem bootRings (h : d.MemCanon) : d.bootRings.MemCanon := foldN h fun _ _ h => h.bootRing

theorem finalScan {l : List Nat} (h : d.MemCanon) : (d.finalScan l).1.MemCanon := by
  induction l generalizing d with
  | nil => exact h
  | cons sq rest ih =>
    unfold Dev.finalScan
    extract_lets r
    have hr : r.1.MemCanon := h.peatResolve
    split
    · split
      · exact hr
      · exact ih hr
    · exact ih hr

theorem mergeCap {l : List Byte} {m : Nat} (h : d.MemCanon) : (Dev.mergeCap l d m).MemCanon := by
  unfold Dev.mergeCap
  extract_lets f cyc
  split
  · exact h
  · exact ite (frame (Dev.occur_onlyIn _ _ _) rfl (ringPut (d := d.updBbu m _) h)) h

theorem mergeFinal (h : d.MemCanon) : d.mergeFinal.MemCanon := by
  unfold Dev.mergeFinal
  extract_lets r merged
  have hr : r.1.MemCanon := h.finalScan
  have hmerged : merged.MemCanon := by
    dsimp only [merged]
    split
    · exact hr
    · exact (hr.frame (Dev.occur_onlyIn _ _ _) rfl).foldN fun _ _ h => h.mergeCap
  exact hmerged

theorem bootRoles {pa pb : Bool} (h : d.MemCanon) : (d.bootRoles pa pb).MemCanon := by
  unfold Dev.bootRoles
  extract_lets x
  have hx : x.MemCanon := ite (h.frame (Dev.updTwin_onlyIn _ _ _) rfl) h.twinFails
  exact ite (hx.frame (Dev.updTwin_onlyIn _ _ _) rfl) hx.twinFails

theorem bootWork {pa pb : Bool} (h : d.MemCanon) : (d.bootWork pa pb).MemCanon := by
  unfold Dev.bootWork
  extract_lets reconciled booted granted
  have hreconciled : reconciled.MemCanon := ite h.reconcile h
  have hrings := ((hreconciled.frame (Dev.placeErrors_onlyIn _) rfl).frame (Dev.skipLost_onlyIn _ 128) rfl).bootRings
  have hbooted : booted.MemCanon :=
    (hrings.frame (Dev.peatScan_onlyIn _) rfl).mergeFinal.countBoot.frame (Dev.startReplay_onlyIn _) rfl
  have hgranted : granted.MemCanon := hbooted.foldN fun _ _ h => h.frame (Dev.restoreGrant_onlyIn _ _) rfl
  exact hgranted.putTimeDie

end Dev.MemCanon

end Sys2Proof.Machine
end

section
/-! PROOF. The register window, the accesses that write, and the reset release keep the canonical form of the byte memories. -/

namespace Sys2Proof.Machine

namespace Dev.MemCanon

variable {d e : Dev}

/-! ### Writes of registers (R29) -/

theorem blockWrite {p : Path} {pg off v : Nat} {r : RegRow} (h : d.MemCanon) : (d.blockWrite p pg off v r).MemCanon := by
  have hplain : (d.plainWrite pg off v r.rw).MemCanon := h.frame (Dev.plainWrite_onlyIn _ _ _ _ _) rfl
  unfold Dev.blockWrite
  repeat' with_reducible apply ite
  · exact h.frame (Dev.calNow_onlyIn _ _) rfl
  · exact frame (Dev.capForce_onlyIn _) rfl (ite (h.frame (Dev.capArm_onlyIn _) rfl) h)
  · exact h.frame (Dev.capArm_onlyIn _) rfl
  · exact h
  · exact hplain.frame (Dev.capRdWrite_onlyIn _ _) rfl
  · exact h.frame (Dev.moveCompRd_onlyIn _ _) rfl
  · exact h.frame (Dev.fhClear_onlyIn _ _) rfl
  · exact h.frame (Dev.stageClear_onlyIn _ _ _) rfl
  · exact h.frame (Dev.stageClear_onlyIn _ _ _) rfl
  · exact h.frame (Dev.peatTrig_onlyIn _ _) rfl
  · exact hplain.frame (Dev.peatRdWrite_onlyIn _ _) rfl
  · exact h.frame (Dev.fabGoWrite_onlyIn _) rfl
  · exact h.frame (Dev.rowExtWrite_onlyIn _ _) rfl
  · exact h.frame (Dev.timeGo_onlyIn _) rfl
  · exact h
  · exact h
  · exact h.chunkCtl
  · exact hplain.frame (Dev.shadowWrite_onlyIn _ _ _ _ _) rfl

/-! ### Reset release (R348) -/

theorem kept {strap0 strap1 : Nat} (h : d.MemCanon) : (d.kept strap0 strap1).MemCanon := ⟨rfl, rfl, rfl, rfl, h.nvA, h.nvB⟩

theorem afterReset {strap0 strap1 votes : Nat} (h : d.MemCanon) : (d.afterReset strap0 strap1 votes).MemCanon := by
  unfold Dev.afterReset
  extract_lets job old voted torn booted ports loaded
  have hold : old.MemCanon := h.frame (Dev.crustTear_onlyIn _) rfl
  have hvoted : voted.MemCanon :=
    ((hold.kept.frame (Dev.crustRead_onlyIn _) rfl).frame (Dev.crustFrond_onlyIn _) rfl).frame (Dev.crustVote_onlyIn _ _) rfl
  have htorn : torn.MemCanon := by
    dsimp only [torn]
    clear_value job
    cases job with
    | none => exact hvoted
    | some j => exact frame (Dev.crustSpent_onlyIn _ _) rfl (hvoted.frame (Dev.occur_onlyIn _ _ _) rfl)
  have hbooted : booted.MemCanon :=
    ((htorn.frame (Dev.bootSettings_onlyIn _) rfl).frame (Dev.bootFw_onlyIn _) rfl).frame (Dev.bootRegions_onlyIn _) rfl
  have hports : ports.MemCanon := hbooted.foldN fun _ _ h => h.frame (Dev.updTwT_onlyIn _ _ _) rfl
  have hloaded : loaded.MemCanon := ite hports hports.loadInto
  exact ite (hloaded.frame (Dev.occurC_onlyIn _ _ _ _) rfl) hloaded

end Dev.MemCanon

/-! ### Access paths and the register window -/

theorem State.snapFrom_mem {s : State} (h : s.d.MemCanon) (p : Path) (n v : Nat) : (s.snapFrom p n v).d.MemCanon := by
  unfold State.snapFrom State.snapWrite
  dsimp only
  split_ifs
  all_goals exact h

theorem State.applyWrite_mem {s : State} (h : s.d.MemCanon) (p : Path) (pg off v : Nat) :
    (s.applyWrite p pg off v).1.d.MemCanon := by
  unfold State.applyWrite
  split
  · exact h
  · split
    · exact h
    · split
      · exact State.snapFrom_mem h p _ v
      · split
        · exact h
        · rename_i r _ _ _
          have hw : (if off < 0x40 then s.d.commonWrite p pg off v r else s.d.blockWrite p pg off v r).MemCanon :=
            .ite (h.frame (Dev.commonWrite_onlyIn _ _ _ _ _ _) rfl) h.blockWrite
          have ho := Dev.MemCanon.ite (c := s.rwcDiff r pg off v != 0) (hw.frame (Dev.occurC_onlyIn _ 0xB2 1 2) rfl) hw
          exact .ite ho (ho.frame (Dev.closeLock_onlyIn _ _ _) rfl)

theorem State.writeWords_mem {s : State} (h : s.d.MemCanon) (p : Path) (pg off : Nat) (ws : List Word32) :
    (s.writeWords p pg off ws).1.d.MemCanon := by
  induction ws generalizing s off with
  | nil => exact h
  | cons w ws ih => exact ih (State.applyWrite_mem h p pg off w.toNat) (off + 4)

theorem State.windowWrite_mem {s : State} (h : s.d.MemCanon) (n pg off : Nat) (ws : List Word32) :
    (s.windowWrite n pg off ws).d.MemCanon := by
  unfold State.windowWrite
  extract_lets t st r
  have ht : t.d.MemCanon := h.frame (Dev.blockCells_onlyIn _ _ _ _) rfl
  split
  · exact ht.frame (Dev.keepReply_onlyIn _ _ _ _) rfl
  · exact (State.writeWords_mem ht _ _ _ _).frame (Dev.keepReply_onlyIn _ _ _ _) rfl

theorem State.windowRead_mem {s : State} (h : s.d.MemCanon) (n pg off k : Nat) : (s.windowRead n pg off k).d.MemCanon := by
  unfold State.windowRead
  extract_lets t st offs st' body
  have ht : t.d.MemCanon := h.frame (Dev.blockCells_onlyIn _ _ _ _) rfl
  split
  · exact ht.frame (Dev.keepReply_onlyIn _ _ _ _) rfl
  · exact ht.frame (Dev.keepReply_onlyIn _ _ _ _) rfl

theorem State.windowCmd_mem {s : State} (h : s.d.MemCanon) (n : Nat) (b : HeldBlk) {f : State → State}
    (hf : (f s).d.MemCanon) : (s.windowCmd n b f).d.MemCanon := by
  unfold State.windowCmd
  split
  · exact h.frame (Dev.drive_onlyIn _ _ _) rfl
  · extract_lets t
    have ht : t.d.MemCanon := by
      dsimp only [t]
      split
      · exact h.frame (Dev.holdBlock_onlyIn _ _ _) rfl
      · exact hf
    exact .frame (Dev.twStop_onlyIn _ _) rfl (ht.frame (Dev.drive_onlyIn _ _ _) rfl)

theorem State.windowBlock_mem {s : State} (h : s.d.MemCanon) (n code : Nat) (data : List Byte) :
    (s.windowBlock n code data).d.MemCanon := by
  unfold State.windowBlock
  extract_lets pay fits pg off bad ws k tag sq c args
  have hbad : (bad s).d.MemCanon :=
    .frame (Dev.twStop_onlyIn _ _) rfl (.frame (Dev.drive_onlyIn _ _ _) rfl (h.frame (Dev.keepReply_onlyIn _ _ _ _) rfl))
  clear_value bad
  split
  · split
    · exact State.windowCmd_mem h _ _ (State.windowWrite_mem h _ _ _ _)
    · exact hbad
  · split
    · split
      · exact State.windowCmd_mem h _ _ (State.windowRead_mem h _ _ _ _)
      · exact hbad
    · split
      · split
        · exact State.windowCmd_mem h _ _ h.windowSeq
        · exact hbad
      · exact .frame (Dev.twStop_onlyIn _ _) rfl (h.frame (Dev.twNack_onlyIn _ _ _) rfl)

theorem State.runHeld_mem {s : State} (h : s.d.MemCanon) (b : HeldBlk) : (s.runHeld b).d.MemCanon := by
  unfold State.runHeld
  extract_lets late
  have hlate : ∀ (n : Nat) (f : State → State), (f s).d.MemCanon → (late n f).d.MemCanon := fun n f hf =>
    .ite (hf.frame (Dev.updTwT_onlyIn _ _ _) rfl) (hf.frame (Dev.replyReady_onlyIn _ _) rfl)
  clear_value late
  cases b with
  | regWrite n pg off ws => exact hlate n _ (State.windowWrite_mem h n pg off ws)
  | regRead n pg off k => exact hlate n _ (State.windowRead_mem h n pg off k)
  | seq n tag sq code args => exact hlate n _ h.windowSeq
  | opening src sq => exact h.decideOpen
  | vout r v => exact .frame (Dev.commitPage_onlyIn _ _) rfl h

theorem State.release_mem {s : State} (h : s.d.MemCanon) : s.release.d.MemCanon := by
  have run : ∀ (l : List HeldBlk) (t : State), t.d.MemCanon → (l.foldl State.runHeld t).d.MemCanon := by
    intro l
    induction l with
    | nil => exact fun t ht => ht
    | cons b l ih => exact fun t ht => ih _ (State.runHeld_mem ht b)
  unfold State.release
  extract_lets l t
  exact run _ t h

theorem State.pmRead_mem {s : State} (h : s.d.MemCanon) (n code : Nat) (f : Dev → Nat → List Byte) :
    (s.pmRead n code f).d.MemCanon := by
  have hrecv : (s.d.recvBlock n).MemCanon := h.frame (Dev.recvBlock_onlyIn _ _) rfl
  exact .ite (hrecv.frame (Dev.drive_onlyIn _ _ _) rfl) (.ite (hrecv.frame (Dev.pmRefuse_onlyIn _ _) rfl)
    (.frame (Dev.twStop_onlyIn _ _) rfl (hrecv.frame (Dev.drive_onlyIn _ _ _) rfl)))

theorem State.holdsFrond_mem {s : State} (h : s.d.MemCanon) : s.holdsFrond.d.MemCanon := by
  unfold State.holdsFrond
  extract_lets x
  split
  · exact h
  · exact h

end Sys2Proof.Machine
end

section
/-! PROOF. Every command keeps the canonical form of the byte memories, and so does every step. -/

namespace Sys2Proof.Machine

/-- A command that answers a next state keeps the canonical form of the byte memories. -/
def KeepsMem (s : State) (o : Out) : Prop := ∀ t, o = .next t → s.d.MemCanon → t.d.MemCanon

theorem keepsMem_next {s t : State} (h : s.d.MemCanon → t.d.MemCanon) : KeepsMem s (.next t) := by
  rintro _ ⟨⟩; exact h

theorem keepsMem_done {s : State} {f : Dev → Dev} (h : ∀ d, d.MemCanon → (f d).MemCanon) : KeepsMem s (done f s) :=
  keepsMem_next (h s.d)

/-- A command that is one operation, none of whose parts holds a memory. -/
theorem keepsMem_frame {s : State} {f : Dev → Dev} {l : List Part} (k : ∀ d, Dev.onlyIn l d (f d))
    (hl : l.any Part.memories.contains = false) : KeepsMem s (done f s) :=
  keepsMem_done fun d h => h.frame (k d) hl

theorem keepsMem_fault (s : State) (f : Fault) : KeepsMem s (.fault f) := by simp [KeepsMem]

namespace Dev.MemCanon

variable {d : Dev}

theorem updFeed {f : FeedId} {g : Feed → Feed} (h : d.MemCanon) : (d.updFeed f g).MemCanon :=
  h.frame (Dev.updFeed_onlyIn _ _ _) rfl

theorem startItem (h : d.MemCanon) : d.startItem.MemCanon := h.frame (Dev.startItem_onlyIn _) rfl

theorem endItem {st r : Nat} (h : d.MemCanon) : (d.endItem st r).MemCanon := h.frame (Dev.endItem_onlyIn _ _ _) rfl

/-- A frame of the fabric that the two twins take when it is addressed to this member. -/
theorem received {p : MPort} {f : MFrame} {rx : Option Int} {g : Dev → Dev} (h : d.MemCanon)
    (hg : ∀ d, d.MemCanon → (g d).MemCanon) :
    (if (d.receive p f rx).2 then (d.receive p f rx).1.toTwins p f g else (d.receive p f rx).1).MemCanon :=
  .ite (.toTwins (h.frame (Dev.receive_onlyIn _ _ _ _) rfl) hg) (h.frame (Dev.receive_onlyIn _ _ _ _) rfl)

end Dev.MemCanon

/-! ### The tick, the actuation frame and the frond's boundary -/

theorem execTick_mem (i : TickIn) (s : State) : KeepsMem s (execTick i s) := by
  unfold execTick
  split
  · exact keepsMem_done fun _ h => .ite h.runTick h
  · exact keepsMem_fault _ _

theorem execActuationFrame_mem (t : Twin) (cycle : Nat) (errs : List Word32) (s : State) :
    KeepsMem s (execActuationFrame t cycle errs s) := by
  unfold execActuationFrame
  split
  · refine keepsMem_done fun d h => ?_
    extract_lets e
    have he : e.MemCanon := .ite h.sealTick h
    exact he.frame (Dev.takeCopy_onlyIn _ _ _ _) rfl
  · exact keepsMem_fault _ _

theorem execOutboundBlockTx_mem (chan : Nat) (answer : TwAnswer) (s : State) : KeepsMem s (execOutboundBlockTx chan answer s) := by
  refine keepsMem_done fun d h => ?_
  dsimp only
  split
  · exact h
  · exact .ite h (.ite (.frame (Dev.txFirst_onlyIn _ _ _ _) rfl h) h)

theorem execFrondBoundary_mem (i : FrondIn) (s : State) : KeepsMem s (execFrondBoundary i s) := by
  unfold execFrondBoundary
  split
  · split
    · exact keepsMem_next fun h => State.holdsFrond_mem h.runBoundary
    · exact keepsMem_next id
  · exact keepsMem_fault _ _

/-! ### Rails, loads and measurements -/

theorem execUnitLostReturn_mem (k : Fin 8) (s : State) : KeepsMem s (execUnitLostReturn k s) :=
  keepsMem_done fun _ h => .ite (.foldN h fun _ _ h => h) (.ite h h)

theorem execPhaseShed_mem (r : Fin 4) (s : State) : KeepsMem s (execPhaseShed r s) := by
  refine keepsMem_done fun d h => .ite ?_ h
  split
  · exact h
  · exact .frame (Dev.updRail_onlyIn _ _ _) rfl (h.frame (Dev.mark_onlyIn _ _) rfl)

theorem execReservationExpire_mem (i : Fin 256) (s : State) : KeepsMem s (execReservationExpire i s) := by
  refine keepsMem_done fun d h => ?_
  split
  · exact .ite h h
  · exact h

theorem execPortStale_mem (n : Fin 16) (s : State) : KeepsMem s (execPortStale n s) := by
  refine keepsMem_done fun d h => .ite ?_ h
  have hloads : ((d.portLoads n.val).foldl (fun d i => d.updLoad i fun x => { x with stale := true }) d).MemCanon :=
    h.foldl fun _ _ h => h
  exact .frame (Dev.capRaise_onlyIn _ _) rfl (.occur (hloads.frame (Dev.updPort_onlyIn _ _ _) rfl))

theorem execPreInvalid_mem (c : Fin 17) (s : State) : KeepsMem s (execPreInvalid c s) :=
  keepsMem_done fun _ h => .ite (.ite (.frame (Dev.tripRail_onlyIn _ _ _) rfl h) h) h

theorem execMetrologyResult_mem (c : Fin 17) (raw : BitVec 24) (s : State) : KeepsMem s (execMetrologyResult c raw s) :=
  keepsMem_done fun _ h => .ite h (.ite h h)

theorem execVrefxFallback_mem (s : State) : KeepsMem s (execVrefxFallback s) :=
  keepsMem_done fun _ h => .ite (.occur (h.frame (Dev.newRef_onlyIn _ _ _) rfl)) h

theorem execAuxStepDone_mem (s : State) : KeepsMem s (execAuxStepDone s) := by
  refine keepsMem_done fun d h => ?_
  extract_lets q e a n g vfs res out diff opn d1 d2 d3
  refine .ite h (.ite (h.frame (Dev.auxNext_onlyIn _) rfl) ?_)
  have h1 : d1.MemCanon := h
  have h2 : d2.MemCanon := .ite h1 h1
  have h3 : d3.MemCanon := .ite h2 h2
  exact (h3.frame (Dev.auxNext_onlyIn _) rfl).auxDone

theorem execIntmonResult_mem (i : Fin 20) (s : State) : KeepsMem s (execIntmonResult i s) := by
  refine keepsMem_done fun d h => ?_
  dsimp only
  split
  · exact .ite (.intmonDone h) h
  · exact h

theorem execCalWindowStart_mem (s : State) : KeepsMem s (execCalWindowStart s) :=
  keepsMem_done fun _ h => .ite h (.ite h (.ite h (.ite h h)))

theorem execCalTakeover_mem (s : State) : KeepsMem s (execCalTakeover s) :=
  keepsMem_done fun _ h => .ite (.ite h (.ite h h)) h

theorem execCalReconnect_mem (m : CalMeas) (s : State) : KeepsMem s (execCalReconnect m s) := by
  refine keepsMem_done fun d h => ?_
  extract_lets c bad d1 d2 p ch d3 test opn d4
  refine .ite ?_ h
  have h2 : d2.MemCanon := .ite h h
  clear_value d2
  exact .ite (.ite h2 h2) h2

theorem execCalReturn_mem (s : State) : KeepsMem s (execCalReturn s) := by
  refine keepsMem_done fun d h => ?_
  extract_lets c w cmp bad d1 d2
  refine .ite ?_ h
  have h1 : d1.MemCanon := .ite (.frame (Dev.oldTrims_onlyIn _) rfl h) h
  clear_value d1
  have h2 : d2.MemCanon := h1
  clear_value d2
  exact .ite h2 (.ite h2 (.ite h2 (.ite h2 h2)))

/-! ### Feeds and battery modules -/

theorem execFeedPowerGood_mem (f : FeedId) (s : State) : KeepsMem s (execFeedPowerGood f s) := by
  refine keepsMem_done fun d h => ?_
  extract_lets x d1 d2
  have h2 : d2.MemCanon := .frame (Dev.updLed_onlyIn _ _) rfl h.updFeed
  exact .ite (.ite h2 h2) h

theorem execFeedTransfer_mem (s : State) : KeepsMem s (execFeedTransfer s) := by
  refine keepsMem_done fun d h => .ite h ?_
  have htransfer : ∀ x, (d.startTransfer x).MemCanon := fun x => h.frame (Dev.startTransfer_onlyIn _ _) rfl
  split
  · refine .ite ?_ (htransfer _)
    split
    · exact .ite h (htransfer _)
    · exact .ite h (htransfer _)
  · split
    · exact .ite (h.frame (Dev.startInsertion_onlyIn _ _) rfl) h
    · exact h

theorem execTransferDeadEnd_mem (s : State) : KeepsMem s (execTransferDeadEnd s) := by
  refine keepsMem_done fun d h => .ite ?_ h
  split
  · exact h.frame (Dev.turnOn_onlyIn _ _) rfl
  · exact h.frame (Dev.xferFail_onlyIn _ _) rfl

theorem execTransferInterlockFail_mem (s : State) : KeepsMem s (execTransferInterlockFail s) := by
  refine keepsMem_done fun d h => .ite ?_ h
  extract_lets new old failed parked
  have hfailed : failed.MemCanon := h.frame (Dev.xferFail_onlyIn _ _) rfl
  clear_value failed old new
  have hparked : parked.MemCanon := by
    dsimp only [parked]
    split
    · exact hfailed.frame (Dev.feedPark_onlyIn _ _) rfl
    · exact hfailed
  split
  · exact hparked.frame (Dev.feedFaultRaw_onlyIn _ _ _) rfl
  · exact hparked

theorem execFeedReturn_mem (s : State) : KeepsMem s (execFeedReturn s) := by
  refine keepsMem_done fun d h => ?_
  split
  · exact .ite (h.frame (Dev.startTransfer_onlyIn _ _) rfl) h
  · exact h

theorem execBbuStatusPoll_mem (m : Fin 4) (answer : Option (BitVec 16 × Byte)) (s : State) :
    KeepsMem s (execBbuStatusPoll m answer s) := by
  refine keepsMem_done fun d h => ?_
  extract_lets t addr asked missed
  have hasked : asked.MemCanon :=
    .frame (Dev.updTwC_onlyIn _ _ _) rfl (.frame (Dev.sendRead_onlyIn _ _ _ _) rfl (h.frame (Dev.sendRead_onlyIn _ _ _ _) rfl))
  refine .ite h (.ite (.frame (Dev.updBbu_onlyIn _ _ _) rfl (h.frame (Dev.twGone_onlyIn _ _ _) rfl)) ?_)
  split
  · exact .frame (Dev.updBbu_onlyIn _ _ _) rfl (.frame (Dev.inBlock_onlyIn _ _ _) rfl (.frame (Dev.inBlock_onlyIn _ _ _) rfl
      (hasked.frame (Dev.twDone_onlyIn _ _ _) rfl)))
  · have hmissed : missed.MemCanon := .ite hasked hasked
    exact .ite (.frame (Dev.updBbu_onlyIn _ _ _) rfl (hmissed.frame (Dev.twGone_onlyIn _ _ _) rfl)) hmissed

theorem execBbuInsertion_mem (m : Fin 4) (serial : BitVec 64) (s : State) : KeepsMem s (execBbuInsertion m serial s) := by
  refine keepsMem_done fun d h => ?_
  extract_lets addr known
  have hknown : known.MemCanon := .frame (Dev.updBbu_onlyIn _ _ _) rfl (.frame (Dev.inBlock_onlyIn _ _ _) rfl
    (.frame (Dev.twDone_onlyIn _ _ _) rfl (h.frame (Dev.sendRead_onlyIn _ _ _ _) rfl)))
  exact .ite h (.ite (h.frame (Dev.twGone_onlyIn _ _ _) rfl)
    (.occur (hknown.frame (Dev.bbuStart_onlyIn _ _) rfl).bbuIdentify))

theorem execFirstEstimate_mem (m : Fin 4) (s : State) : KeepsMem s (execFirstEstimate m s) := by
  refine keepsMem_done fun d h => ?_
  extract_lets b rest late amp v q d1
  have h1 : d1.MemCanon := .ite h h
  exact .ite h1 h

theorem execCompatSwap_mem (m : Fin 4) (s : State) : KeepsMem s (execCompatSwap m s) :=
  keepsMem_done fun _ h => .ite (.occur (.frame (Dev.updBbu_onlyIn _ _ _) rfl (h.frame (Dev.bbuStart_onlyIn _ _) rfl))) h

/-! ### The twins -/

theorem execTwinSilent_mem (t : Twin) (s : State) : KeepsMem s (execTwinSilent t s) := by
  refine keepsMem_done fun d h => ?_
  extract_lets c x
  have hc : c.MemCanon := h.frame (Dev.countTwins_onlyIn _) rfl
  exact .ite (.ruleApplies (.occur hc)) h

theorem execHbPathLost_mem (t : Twin) (p : HbPath) (s : State) : KeepsMem s (execHbPathLost t p s) := by
  refine keepsMem_done fun d h => ?_
  extract_lets c x
  have hlost : ∀ f, ((c.updTwin t f).occur 0xA0 5).MemCanon := fun f =>
    .occur (.frame (Dev.updTwin_onlyIn _ _ _) rfl (h.frame (Dev.countTwins_onlyIn _) rfl))
  refine .ite h ?_
  cases p with
  | tick => exact .ite (hlost _) h
  | s => exact .ite (hlost _) h

theorem execHbPathRestored_mem (t : Twin) (p : HbPath) (s : State) : KeepsMem s (execHbPathRestored t p s) := by
  refine keepsMem_done fun d h => ?_
  extract_lets x back d1
  have h1 : d1.MemCanon := h.frame (Dev.updTwin_onlyIn _ _ _) rfl
  exact .ite h (.ite h1 h1)

/-- Resynchronisation copies the pages marked from one copy of the MRAM to the other, and unsweeps the memory held. -/
theorem execCutIn_mem (t : Twin) (s : State) : KeepsMem s (execCutIn t s) := by
  refine keepsMem_done fun d h => .ite ?_ h
  obtain ⟨hsram, hsramA, hsramB, hsramS, hnvA, hnvB⟩ := h
  cases t with
  | a => exact ⟨hsram, rfl, hsramB, hsramS, copyPages_wf _ _ hnvA, hnvB⟩
  | b => exact ⟨hsram, hsramA, rfl, hsramS, hnvA, copyPages_wf _ _ hnvB⟩

theorem execItemCompletion_mem (s : State) : KeepsMem s (execItemCompletion s) := by
  refine keepsMem_next fun h => ?_
  have hdone : (s.upd Dev.completeHead).d.MemCanon := h.completeHead
  split
  · exact State.release_mem hdone
  · exact hdone

/-! ### Boot, reset and the supplies -/

theorem execBootSelfTestDone_mem (passA passB : Bool) (s : State) : KeepsMem s (execBootSelfTestDone passA passB s) := by
  refine keepsMem_done fun d h => ?_
  extract_lets pa pb booted
  have hbooted : booted.MemCanon := h.bootRoles.frame (Dev.updFh_onlyIn _ _) rfl
  exact .ite h (.ite hbooted.bootWork (.frame (Dev.outputsOff_onlyIn _) rfl hbooted))

theorem execMemberQualified_mem (i : Fin 32) (s : State) : KeepsMem s (execMemberQualified i s) := by
  refine keepsMem_done fun d h => ?_
  extract_lets m up back
  have hup : up.MemCanon := .frame (Dev.shelfUp_onlyIn _) rfl (h.frame (Dev.updMbr_onlyIn _ _ _) rfl)
  have hback : back.MemCanon := h
  exact .ite (.ite (hup.frame (Dev.drained_onlyIn _) rfl) hup) (.ite (.ite (hback.frame (Dev.resume_onlyIn _ _) rfl) hback) h)

theorem execPbShortPress_mem (s : State) : KeepsMem s (execPbShortPress s) := by
  refine keepsMem_done fun d h => .ite ?_ h
  extract_lets e
  have he : e.MemCanon := h
  refine .ite he ?_
  split
  · exact he.frame (Dev.offRequest_onlyIn _) rfl
  · exact he.frame (Dev.offRequest_onlyIn _) rfl
  · exact .frame (Dev.onRequest_onlyIn _) rfl (.frame (Dev.updFh_onlyIn _ _) rfl (he.frame (Dev.shelfDown_onlyIn _ _) rfl))
  · exact he.frame (Dev.onRequest_onlyIn _) rfl

theorem execVauxMin_mem (below1v8 : Bool) (s : State) : KeepsMem s (execVauxMin below1v8 s) := by
  refine keepsMem_done fun d h => ?_
  extract_lets held switched drained
  have hswitched : switched.MemCanon := .frame (Dev.updSup_onlyIn _ _) rfl (.frame (Dev.assertReset_onlyIn _ _) rfl h.enterSafe)
  exact .ite (.updFeed (.updFeed (hswitched.frame (Dev.updFh_onlyIn _ _) rfl))) hswitched

theorem execResetRelease_mem (strap0 strap1 : Fin 8) (votes : Nat) (s : State) :
    KeepsMem s (execResetRelease strap0 strap1 votes s) := by
  refine keepsMem_next fun h => ?_
  split
  · exact h.afterReset
  · exact h

theorem execAutoOn_mem (s : State) : KeepsMem s (execAutoOn s) :=
  keepsMem_done fun _ h => .ite (.ite h (.ite h (.frame (Dev.onRequest_onlyIn _) rfl h))) h

theorem execStandbyWake_mem (c : WakeCause) (s : State) : KeepsMem s (execStandbyWake c s) := by
  refine keepsMem_done fun d h => .ite ?_ h
  cases c with
  | mr => exact .frame (Dev.assertReset_onlyIn _ _) rfl (.enterSafe h)
  | address => exact h
  | pb => exact h
  | safe => exact h

theorem execSupplyOutOfRange_mem (x : Supply) (s : State) : KeepsMem s (execSupplyOutOfRange x s) := by
  refine keepsMem_done fun d h => ?_
  cases x with
  | vcoreA => exact h.frame (Dev.loseCore_onlyIn _ _) rfl
  | vcoreB => exact h.frame (Dev.loseCore_onlyIn _ _) rfl
  | vcoreS => exact h.loseCoreS
  | vanaG0 => exact h.frame (Dev.vanaLoss_onlyIn _ _) rfl
  | vanaG1 => exact h.frame (Dev.vanaLoss_onlyIn _ _) rfl

theorem execSupplyInRange_mem (x : Supply) (s : State) : KeepsMem s (execSupplyInRange x s) := by
  refine keepsMem_done fun d h => ?_
  cases x with
  | vcoreA => exact h
  | vcoreB => exact h
  | vcoreS => exact h
  | vanaG0 => exact h.frame (Dev.vanaBack_onlyIn _ _) rfl
  | vanaG1 => exact h.frame (Dev.vanaBack_onlyIn _ _) rfl

theorem execIslandUnlock_mem (t : Twin) (i : Fin 11) (s : State) : KeepsMem s (execIslandUnlock t i s) := by
  refine keepsMem_done fun d h => ?_
  cases t with
  | a => exact h
  | b => exact h

/-! ### The MRAM's image, the black-box trace and the CRUST -/

theorem execImagePageWriteDone_mem (t : Twin) (s : State) : KeepsMem s (execImagePageWriteDone t s) := by
  refine keepsMem_done fun d h => ?_
  dsimp only
  split
  · exact .pageNext (.frame (Dev.updUpd_onlyIn _ _) rfl (h.putNv (memWriteBytes_wf _ _ h.nvA) h.nvB))
  · exact .pageNext (.frame (Dev.updUpd_onlyIn _ _) rfl (h.putNv h.nvA (memWriteBytes_wf _ _ h.nvB)))
  · exact h
  · exact h
  · exact h

theorem execPeatReadReady_mem (s : State) : KeepsMem s (execPeatReadReady s) := by
  refine keepsMem_done fun d h => .ite h ?_
  dsimp only
  split
  · exact h.peatLookup.frame (Dev.updPeat_onlyIn _ _) rfl
  · exact h.peatLookup.frame (Dev.updPeat_onlyIn _ _) rfl

theorem execCrustProgramDone_mem (votes : Nat) (s : State) : KeepsMem s (execCrustProgramDone votes s) := by
  refine keepsMem_done fun d h => ?_
  dsimp only
  split
  · exact h.frame (Dev.crustVote_onlyIn _ _) rfl
  · rename_i j _
    have hread : ((d.crustProgram j).crustRead.crustVote votes).MemCanon := .frame (Dev.crustVote_onlyIn _ _) rfl
      (.frame (Dev.crustRead_onlyIn _) rfl (h.frame (Dev.crustProgram_onlyIn _ _) rfl))
    have hdone := hread.frame (Dev.crustDone_onlyIn _ j) rfl
    exact .ite (hread.frame (Dev.crustTorn_onlyIn _ _) rfl)
      (.ite (.ite (hdone.frame (Dev.confirmNext_onlyIn _ _ _) rfl) hdone) (.ite hdone.endItem hdone))

/-! ### The two-wire ports -/

theorem State.recvBlock_mem {s : State} (h : s.d.MemCanon) (n : Nat) : (s.recvBlock n).d.MemCanon :=
  h.frame (Dev.recvBlock_onlyIn _ _) rfl

theorem execTwBlock_mem (n : Fin 2) (window : Bool) (bytes : List Byte) (pec : Option Byte) (s : State) :
    KeepsMem s (execTwBlock n window bytes pec s) := by
  refine keepsMem_next fun h => ?_
  have hrecv := State.recvBlock_mem h n.val
  split
  · exact h.frame (Dev.drive_onlyIn _ _ _) rfl
  · extract_lets t bad
    split
    · exact hrecv.frame (Dev.pecFail_onlyIn _ _ _) rfl
    · cases bytes with
      | nil => exact hrecv.frame (Dev.twStop_onlyIn _ _) rfl
      | cons code data =>
        dsimp only
        split
        · exact State.windowBlock_mem hrecv _ _ _
        · exact hrecv.frame (Dev.pmBlock_onlyIn _ _ _ _) rfl

theorem execRegWrite_mem (n : Fin 2) (page off : Nat) (words : List Word32) (s : State) :
    KeepsMem s (execRegWrite n page off words s) :=
  keepsMem_next fun h =>
    State.windowCmd_mem (State.recvBlock_mem h _) _ _ (State.windowWrite_mem (State.recvBlock_mem h _) _ _ _ _)

theorem execRegRead_mem (n : Fin 2) (page off k : Nat) (s : State) : KeepsMem s (execRegRead n page off k s) :=
  keepsMem_next fun h =>
    State.windowCmd_mem (State.recvBlock_mem h _) _ _ (State.windowRead_mem (State.recvBlock_mem h _) _ _ _ _)

theorem execSeqItem_mem (n : Fin 2) (tag seq code : Nat) (args : List Byte) (s : State) :
    KeepsMem s (execSeqItem n tag seq code args s) :=
  keepsMem_next fun h => State.windowCmd_mem (State.recvBlock_mem h _) _ _ (State.recvBlock_mem h _).windowSeq

theorem execWindowTimeout_mem (n : Fin 2) (s : State) : KeepsMem s (execWindowTimeout n s) := by
  refine keepsMem_done fun d h => ?_
  dsimp only
  split
  · exact h
  · exact .ite h (.occur (.frame (Dev.updTwT_onlyIn _ _ _) rfl
      (.frame (Dev.answer_onlyIn _ _ _ _) rfl (h.frame (Dev.windowStatus_onlyIn _ _ _) rfl))))

theorem execPmPage_mem (n : Fin 2) (w : Option Byte) (s : State) : KeepsMem s (execPmPage n w s) := by
  refine keepsMem_next fun h => ?_
  cases w with
  | some v => exact (State.recvBlock_mem h _).frame (Dev.pagePut_onlyIn _ _ _) rfl
  | none => exact State.pmRead_mem h _ _ _

theorem execPmOperation_mem (n : Fin 2) (w : Option Byte) (s : State) : KeepsMem s (execPmOperation n w s) := by
  refine keepsMem_next fun h => ?_
  cases w with
  | some v => exact (State.recvBlock_mem h _).pmWrite (State.recvBlock_mem h _)
  | none => exact State.pmRead_mem h _ _ _

theorem execPmWriteProtect_mem (n : Fin 2) (w : Option Byte) (s : State) : KeepsMem s (execPmWriteProtect n w s) := by
  refine keepsMem_next fun h => ?_
  cases w with
  | some v => exact (State.recvBlock_mem h _).frame (Dev.wpPut_onlyIn _ _ _) rfl
  | none => exact State.pmRead_mem h _ _ _

theorem execPmVoutCommand_mem (n : Fin 2) (w : Option (BitVec 16)) (s : State) : KeepsMem s (execPmVoutCommand n w s) := by
  refine keepsMem_next fun h => ?_
  cases w with
  | some v => exact (State.recvBlock_mem h _).frame (Dev.voutPut_onlyIn _ _ _) rfl
  | none => exact State.pmRead_mem h _ _ _

theorem execPoll_mem (c : Fin 4) (i : Fin 16) (answer : TwAnswer) (s : State) : KeepsMem s (execPoll c i answer s) := by
  refine keepsMem_done fun d h => ?_
  extract_lets cfg off aged asked
  have haged : aged.MemCanon := h
  have hasked : asked.MemCanon := .ite haged (haged.frame (Dev.sendRead_onlyIn _ _ _ _) rfl)
  exact .ite h (.ite h (hasked.frame (Dev.txFirst_onlyIn _ _ _ _) rfl))

theorem execTwRetry_mem (c : Fin 4) (answer : TwAnswer) (s : State) : KeepsMem s (execTwRetry c answer s) := by
  refine keepsMem_done fun d h => ?_
  dsimp only
  split
  · exact h
  · refine .ite h (.ite (.frame (Dev.txFailed_onlyIn _ _ _) rfl h) ?_)
    split
    · exact .frame (Dev.txDone_onlyIn _ _ _ _) rfl h
    · exact .frame (Dev.txFailed_onlyIn _ _ _) rfl (.frame (Dev.txError_onlyIn _ _ _) rfl h)

theorem execBusRecovery_mem (c : Fin 4) (b : BusState) (s : State) : KeepsMem s (execBusRecovery c b s) := by
  refine keepsMem_done fun d h => .ite h ?_
  cases b with
  | released => exact h
  | sdaLow => exact .frame (Dev.occurC_onlyIn _ _ _ _) rfl h
  | sclLow => exact .frame (Dev.occurC_onlyIn _ _ _ _) rfl h

/-! ### The fabric -/

theorem execBudget_mem (p : MPort) (f : MFrame) (s : State) : KeepsMem s (execBudget p f s) :=
  keepsMem_done fun _ h => .ite h (h.received fun _ h => h.frame (Dev.takeBudget_onlyIn _ _) rfl)

theorem execAdvert_mem (p : MPort) (f : MFrame) (s : State) : KeepsMem s (execAdvert p f s) :=
  keepsMem_done fun _ h => .ite h (h.received fun _ h => h.frame (Dev.takeAdvert_onlyIn _ _) rfl)

theorem execDigest_mem (p : MPort) (f : MFrame) (s : State) : KeepsMem s (execDigest p f s) :=
  keepsMem_done fun _ h => .ite h (h.received fun _ h => h.frame (Dev.takeDigest_onlyIn _ _) rfl)

theorem execTimeFrame_mem (p : MPort) (f : MFrame) (rx : Int) (s : State) : KeepsMem s (execTimeFrame p f rx s) := by
  refine keepsMem_done fun d h => .ite h ?_
  have hrecv := h.frame (Dev.receive_onlyIn d p f (some (d.instant rx))) rfl
  exact .ite hrecv (.ite (hrecv.frame (Dev.takeTime_onlyIn _ _ _ _) rfl) hrecv)

theorem execMienoHeartbeat_mem (p : MPort) (f : MFrame) (s : State) : KeepsMem s (execMienoHeartbeat p f s) := by
  refine keepsMem_done fun d h => ?_
  dsimp only
  refine .ite h ?_
  have hchecked : (if mieCrcOk f ∧ f.hops ≠ 0 ∧ !d.offline then d.checkConflict f else d).MemCanon :=
    .ite (h.frame (Dev.checkConflict_onlyIn _ _) rfl) h
  have hrecv := hchecked.frame (Dev.receive_onlyIn _ p f none) rfl
  exact .ite (.frame (Dev.selectMaster_onlyIn _) rfl (hrecv.frame (Dev.updMember_onlyIn _ _ _) rfl)) hrecv

theorem execTsetHoldExpiry_mem (s : State) : KeepsMem s (execTsetHoldExpiry s) := by
  refine keepsMem_done fun d h => ?_
  split
  · exact .ite (.frame (Dev.selectMaster_onlyIn _) rfl (h.frame (Dev.updMie_onlyIn _ _) rfl)) h
  · exact h

theorem execAllocate_mem (s : State) : KeepsMem s (execAllocate s) := by
  refine keepsMem_done fun d h => ?_
  dsimp only
  split
  · exact h
  · refine .ite ?_ h
    have hparts : ∀ (e : Dev) (b : Nat → Bool) (x : Nat → Dev → List Byte), e.MemCanon →
        ((upto 9).foldl (fun d p => if b p then d.broadcast 1 (x p d) else d) e).MemCanon := fun _ _ _ he =>
      he.foldl fun _ _ h => .ite (h.frame (Dev.broadcast_onlyIn _ _ _) rfl) h
    exact .frame (Dev.takeEntry_onlyIn _ _ _ _ _ _) rfl (.frame (Dev.updMie_onlyIn _ _) rfl (hparts _ _ _ (.ite h h)))

theorem execShareIncrease_mem (s : State) : KeepsMem s (execShareIncrease s) := by
  refine keepsMem_done fun d h => ?_
  split
  · exact .ite (h.frame (Dev.applyShare_onlyIn _ _ _) rfl) h
  · exact h

theorem execMemberSilent_mem (id : Nat) (s : State) : KeepsMem s (execMemberSilent id s) := by
  refine keepsMem_done fun d h => ?_
  split
  · split
    · exact .ite (.occur (h.frame (Dev.updMember_onlyIn _ _ _) rfl)) h
    · exact h
  · exact h

theorem execFabResend_mem (s : State) : KeepsMem s (execFabResend s) := by
  refine keepsMem_done fun d h => ?_
  split
  · exact h
  · exact .ite h (.ite h (.ite h (.frame (Dev.updMie_onlyIn _ _) rfl (h.frame (Dev.fabSend_onlyIn _ _) rfl))))

/-! ### The work items -/

theorem execClearCounter_mem (s : State) : KeepsMem s (execClearCounter s) := by
  refine keepsMem_done fun d h => h.execHead fun w => ?_
  split
  · exact h.endItem
  · exact h.startItem

theorem execTimedItemExecute_mem (s : State) : KeepsMem s (execTimedItemExecute s) := by
  refine keepsMem_done fun d h => .ite h ?_
  split
  · exact h
  · have hfail : ∀ f r, ((d.updHead f).endItem stFailed r).MemCanon := fun _ _ =>
      .endItem (h.frame (Dev.updHead_onlyIn _ _) rfl)
    exact .ite (hfail _ _) (.ite (hfail _ _) (.ite (hfail _ _) (.ite h (h.frame (Dev.updHead_onlyIn _ _) rfl))))

theorem execSporeCommit_mem (other : Option (Nat × Nat × Nat)) (s : State) : KeepsMem s (execSporeCommit other s) := by
  refine keepsMem_done fun d h => h.execHead fun w => ?_
  extract_lets u e marked
  have he : e.MemCanon := h.frame (Dev.setUpd_onlyIn (d.updUpd _) _) rfl
  have hmarked : marked.MemCanon := he.execMark
  clear_value marked e u
  refine .ite (h.frame (Dev.commitFailed_onlyIn _ _) rfl) (.ite h ?_)
  split
  rename_i r ss _
  refine .ite (he.frame (Dev.commitFailed_onlyIn _ _) rfl) ?_
  extract_lets loaded
  have hloaded : loaded.MemCanon := by
    dsimp only [loaded]
    cases sectionOf ss 2 with
    | none => exact hmarked
    | some x => exact hmarked.loadImage
  clear_value loaded
  exact .ite (hloaded.frame (Dev.commitFailed_onlyIn _ _) rfl) (hloaded.commitDone.endItem)

theorem execActivate_mem (s : State) : KeepsMem s (execActivate s) := by
  refine keepsMem_done fun d h => h.execHead fun w => ?_
  extract_lets f started armed
  have hstarted : started.MemCanon := h.execMark.startItem
  have harmed : armed.MemCanon := .frame (Dev.setUpd_onlyIn _ _) rfl (hstarted.frame (Dev.updUpd_onlyIn _ _) rfl)
  exact .ite h.endItem (.ite (.endItem (.ite (h.frame (Dev.swapRefused_onlyIn _ _) rfl) h)) (.ite h.endItem (.ite h.endItem
    (.ite h (.ite (harmed.frame (Dev.armSwap_onlyIn _ _) rfl) harmed)))))

theorem execManagementPauseEnd_mem (s : State) : KeepsMem s (execManagementPauseEnd s) := by
  refine keepsMem_next fun h => ?_
  split
  · exact State.release_mem (h.frame (Dev.pauseEnd_onlyIn _) rfl)
  · exact h

theorem execHoldExpired_mem (n : Fin 2) (s : State) : KeepsMem s (execHoldExpired n s) := by
  unfold execHoldExpired
  extract_lets held left
  refine keepsMem_next fun h => ?_
  split
  · refine Dev.MemCanon.occur ?_
    rw [State.snapWrite_d]; exact h
  · exact h

/-! ### Every command -/
/-- Every command keeps the canonical form of the byte memories. -/
theorem exec_mem (c : Instr) (s : State) : KeepsMem s (exec c s) := by
  cases c with
  | tick _ => exact execTick_mem _ _
  | actuationFrame _ _ _ => exact execActuationFrame_mem _ _ _ _
  | noValidCopySafeState =>
    exact keepsMem_done fun _ h => .ite (.frame (Dev.abandonResync_onlyIn _ _) rfl
      (h.enterSafe.frame (Dev.abandonResync_onlyIn _ _) rfl)) h
  | outboundBlockTx _ _ => exact execOutboundBlockTx_mem _ _ _
  | frondBoundary _ => exact execFrondBoundary_mem _ _
  | rowEpochBoundary => exact keepsMem_done fun _ h => .ite (.frame (Dev.newEpoch_onlyIn _) rfl h) h
  | blkStatusClear _ _ _ =>
    exact keepsMem_done fun _ h => .frame (Dev.closeLock_onlyIn _ _ _) rfl (h.frame (Dev.statusWrite_onlyIn _ _ _) rfl)
  | clearRefusedClear _ => exact keepsMem_done fun _ h => .ite h h
  | blkIntForce _ _ => exact keepsMem_frame (fun _ => Dev.occurMask_onlyIn _ _ _) rfl
  | blkLock _ _ _ => exact keepsMem_done fun _ h => .ite (.frame (Dev.lockWrite_onlyIn _ _ _ _) rfl h) h
  | lockTimeout _ _ => exact keepsMem_done fun _ h => .ite h h
  | blkCommit _ => exact keepsMem_done fun _ h => .ite (.frame (Dev.commitPage_onlyIn _ _) rfl h) h
  | registerWrite _ _ _ _ => exact keepsMem_next fun h => State.applyWrite_mem h _ _ _ _
  | refclkLoss => exact keepsMem_done fun _ h => .ite h h
  | refclkRelock => exact keepsMem_done fun _ h => .ite h h
  | beaconError _ => exact keepsMem_done fun _ h => .frame (Dev.selfErr_onlyIn _ _ _) rfl h
  | vcoreTwinLoss _ => exact keepsMem_frame (fun _ => Dev.loseCore_onlyIn _ _) rfl
  | vcoreSLoss => exact keepsMem_done fun _ h => h.loseCoreS
  | regionLoss _ => exact keepsMem_frame (fun _ => Dev.loseRegion_onlyIn _ _) rfl
  | timebaseUnlock _ => exact keepsMem_frame (fun _ => Dev.loseRegion_onlyIn _ _) rfl
  | clusterFault _ => exact keepsMem_done fun _ h => .frame (Dev.loseClusters_onlyIn _ _) rfl h
  | unitLostReturn _ => exact execUnitLostReturn_mem _ _
  | bankSwap => exact keepsMem_done fun _ h => .ite h.bankSwap h
  | hotSwapFullyOn _ => exact keepsMem_done fun _ h => .ite h h
  | softStartDone _ => exact keepsMem_done fun _ h => .ite (.frame (Dev.thermalShed_onlyIn _ _) rfl h) h
  | softStopDone _ => exact keepsMem_done fun _ h => .ite (.frame (Dev.railOff_onlyIn _ _) rfl h) h
  | shortDetect _ => exact keepsMem_done fun _ h => .ite (.frame (Dev.tripRail_onlyIn _ _ _) rfl h) h
  | phaseShed _ => exact execPhaseShed_mem _ _
  | shedRamp _ => exact keepsMem_done fun _ h => .ite h h
  | shedTri _ => exact keepsMem_done fun _ h => .ite h h
  | burstStart _ => exact keepsMem_done fun _ h => .ite (.frame (Dev.burstRail_onlyIn _ _) rfl h) h
  | fastLimitTrip _ _ => exact keepsMem_done fun _ h => .ite h h
  | unitOverload _ => exact keepsMem_done fun _ h => .ite (.frame (Dev.faultUnit_onlyIn _ _) rfl h) h
  | railOverload _ => exact keepsMem_done fun _ h => .ite (.frame (Dev.tripRail_onlyIn _ _ _) rfl h) h
  | railUv _ => exact keepsMem_done fun _ h => .ite (.frame (Dev.tripRail_onlyIn _ _ _) rfl h) h
  | railOv _ => exact keepsMem_done fun _ h => .ite (.frame (Dev.tripRail_onlyIn _ _ _) rfl h) h
  | railRetryEnd _ => exact keepsMem_done fun _ h => .ite (.frame (Dev.retryEnd_onlyIn _ _) rfl h) h
  | railRetryCountReset _ => exact keepsMem_done fun _ h => .ite h h
  | injectionDurationEnd => exact keepsMem_done fun _ h => .ite (.frame (Dev.injStop_onlyIn _ _) rfl h) h
  | capArm => exact keepsMem_frame (fun _ => Dev.capArm_onlyIn _) rfl
  | capForce => exact keepsMem_frame (fun _ => Dev.capForce_onlyIn _) rfl
  | captureFilled => exact keepsMem_done fun _ h => .ite h h
  | captureDone => exact keepsMem_done fun _ h => .ite h h
  | capRd _ => exact keepsMem_frame (fun _ => Dev.capRdWrite_onlyIn _ _) rfl
  | capReadReady => exact keepsMem_done fun _ h => .ite h h
  | requestFrame _ _ _ _ _ => exact keepsMem_frame (fun _ => Dev.requestFrame_onlyIn _ _ _ _ _ _) rfl
  | heldRequestDeliver _ => exact keepsMem_done fun _ h => h
  | stepPortLinkUp _ => exact keepsMem_done fun _ h => h
  | stepPortLinkDown _ => exact keepsMem_done fun _ h => .ite (c := decide _ = true) h h
  | stepUp _ => exact keepsMem_done fun _ h => h.admitCmd
  | stepDown _ => exact keepsMem_done fun _ h => h.admitCmd
  | announce _ => exact keepsMem_done fun _ h => h.admitCmd
  | release _ => exact keepsMem_done fun _ h => h.admitCmd
  | heartbeat _ => exact keepsMem_done fun _ h => h.admitCmd
  | ledgerLeaveConservative => exact keepsMem_done fun _ h => .ite h h
  | stepSettle _ => exact keepsMem_done fun _ h => h
  | reservationExpire _ => exact execReservationExpire_mem _ _
  | unannHalving => exact keepsMem_done fun _ h => .ite h h
  | portStale _ => exact execPortStale_mem _ _
  | capLevelFall _ => exact keepsMem_done fun _ h => .ite h h
  | freezeLong => exact keepsMem_done fun _ h => .ite h h
  | imonInvalid _ => exact keepsMem_done fun _ h => .ite (.frame (Dev.faultUnit_onlyIn _ _) rfl h) h
  | preInvalid _ => exact execPreInvalid_mem _ _
  | metrologyResult _ _ => exact execMetrologyResult_mem _ _ _
  | refSettled => exact keepsMem_done fun _ h => .ite h h
  | vrefxFallback => exact execVrefxFallback_mem _
  | auxStepDone => exact execAuxStepDone_mem _
  | auxStale _ => exact keepsMem_done fun _ h => .ite h h
  | intmonResult _ => exact execIntmonResult_mem _ _
  | calWindowStart => exact execCalWindowStart_mem _
  | calTakeover => exact execCalTakeover_mem _
  | calReconnect _ => exact execCalReconnect_mem _ _
  | calReturn => exact execCalReturn_mem _
  | calDisconnect => exact keepsMem_done fun _ h => .ite h h
  | calWindowRestart => exact keepsMem_done fun _ h => .ite h h
  | sensCalNow _ => exact keepsMem_frame (fun _ => Dev.calNow_onlyIn _ _) rfl
  | reverseCurrentTrip _ => exact keepsMem_frame (fun _ => Dev.updFeed_onlyIn _ _ _) rfl
  | hotSwapFastTrip _ => exact keepsMem_done fun _ h => h
  | feedReady _ => exact keepsMem_done fun _ h => .ite (.frame (Dev.updFeed_onlyIn _ _ _) rfl h) h
  | feedInvalid _ => exact keepsMem_done fun _ h => .ite (.frame (Dev.updFeed_onlyIn _ _ _) rfl h) h
  | feedFullyOn _ => exact keepsMem_done fun _ h => .ite (.frame (Dev.updFeed_onlyIn _ _ _) rfl h) h
  | feedPowerGood _ => exact execFeedPowerGood_mem _ _
  | feedTransfer => exact execFeedTransfer_mem _
  | transferDeadEnd => exact execTransferDeadEnd_mem _
  | transferInterlockFail => exact execTransferInterlockFail_mem _
  | insTimeout _ =>
    exact keepsMem_done fun _ h => .ite (.ite (.frame (Dev.xferFail_onlyIn _ _) rfl
      (h.frame (Dev.feedFaultRaw_onlyIn _ _ _) rfl)) (h.frame (Dev.feedFaultRaw_onlyIn _ _ _) rfl)) h
  | feedReturn => exact execFeedReturn_mem _
  | feedOv _ => exact keepsMem_done fun _ h => .ite (.frame (Dev.feedFault_onlyIn _ _ _) rfl h) h
  | feedRetryEnd _ => exact keepsMem_done fun _ h => .ite (.ite h.updFeed (.frame (Dev.occurC_onlyIn _ _ _ _) rfl h.updFeed)) h
  | feedRetryCountReset _ => exact keepsMem_done fun _ h => .ite (.frame (Dev.updFeed_onlyIn _ _ _) rfl h) h
  | g1JudgementResume =>
    exact keepsMem_done fun _ h => .ite (.ite (.frame (Dev.judgeSwitches_onlyIn _) rfl
      (.frame (Dev.takeSwitches_onlyIn _) rfl h)) (.frame (Dev.takeSwitches_onlyIn _) rfl h)) h
  | vgdLow => exact keepsMem_done fun _ h => .ite h h
  | hotSwapOnTimeout _ => exact keepsMem_done fun _ h => .ite (.frame (Dev.hsFault_onlyIn _ _ _) rfl h) h
  | hotSwapSlowTrip _ => exact keepsMem_done fun _ h => .ite (.frame (Dev.hsTrip_onlyIn _ _ _) rfl h) h
  | countInvalid _ => exact keepsMem_done fun _ h => .ite h.learnDq h
  | fullAnchor _ => exact keepsMem_done fun _ h => .ite h h
  | emptyAnchor _ => exact keepsMem_done fun _ h => .ite h h
  | reserveEntry _ => exact keepsMem_done fun _ h => .ite (.bbuStore h) h
  | bbuStatusPoll _ _ => exact execBbuStatusPoll_mem _ _ _
  | bbuInsertion _ _ => exact execBbuInsertion_mem _ _ _
  | bbuRemoval _ => exact keepsMem_done fun _ h => .ite h.bbuRemove h
  | firstEstimate _ => exact execFirstEstimate_mem _ _
  | compatSwap _ => exact execCompatSwap_mem _ _
  | chgComm _ => exact keepsMem_done fun _ h => .ite h h
  | twinSilent _ => exact execTwinSilent_mem _ _
  | hbPathLost _ _ => exact execHbPathLost_mem _ _ _
  | hbPathRestored _ _ => exact execHbPathRestored_mem _ _ _
  | twinSelfTestDone _ =>
    exact keepsMem_done fun _ h => .ite (.frame (Dev.setLocks_onlyIn _ _ _) rfl (h.frame (Dev.updTwin_onlyIn _ _ _) rfl)) h
  | restartFail _ => exact keepsMem_done fun _ h => .ite h.twinOut h
  | cutIn _ => exact execCutIn_mem _ _
  | probationEnd _ => exact keepsMem_done fun _ h => .ite (.frame (Dev.updTwin_onlyIn _ _ _) rfl h) h
  | autoRestart _ => exact keepsMem_done fun _ h => .ite h.quarantine h
  | itemCompletion => exact execItemCompletion_mem _
  | compRd _ => exact keepsMem_frame (fun _ => Dev.moveCompRd_onlyIn _ _) rfl
  | bootSelfTestDone _ _ => exact execBootSelfTestDone_mem _ _ _
  | twinBootTimeout _ => exact keepsMem_done fun _ h => .ite h h.twinFails
  | memberParentMet _ => exact keepsMem_done fun _ h => .ite h h
  | onDelayEnd _ => exact keepsMem_done fun _ h => .ite (.frame (Dev.outOn_onlyIn _ _) rfl h) h
  | memberQualified _ => exact execMemberQualified_mem _ _
  | memberQualTimeout _ =>
    exact keepsMem_done fun _ h => .ite (.frame (Dev.afterFail_onlyIn _) rfl (h.frame (Dev.failOwn_onlyIn _ _ _) rfl)) h
  | memberLossHold _ => exact keepsMem_done fun _ h => .ite (.frame (Dev.failOwn_onlyIn _ _ _) rfl h) h
  | offDelayEnd _ => exact keepsMem_done fun _ h => .ite (.frame (Dev.outOff_onlyIn _ _) rfl h) h
  | offConfirmed _ => exact keepsMem_done fun _ h => .ite (.frame (Dev.memberStopped_onlyIn _ _) rfl h) h
  | offFail _ => exact keepsMem_done fun _ h => .ite (.frame (Dev.memberStopped_onlyIn _ _) rfl h) h
  | fhFailedClear _ => exact keepsMem_frame (fun _ => Dev.fhClear_onlyIn _ _) rfl
  | drainingEnd => exact keepsMem_done fun _ h => .ite (.frame (Dev.drained_onlyIn _) rfl h) h
  | offDwellEnd => exact keepsMem_done fun _ h => .ite (.frame (Dev.powerUp_onlyIn _) rfl h) h
  | shelfOn =>
    exact keepsMem_done fun _ h => h.execHead fun _ => .ite h.endItem (.ite h.endItem (.endItem
      (h.frame (Dev.onRequest_onlyIn _) rfl)))
  | shelfOff => exact keepsMem_done fun _ h => h.execHead fun _ => .endItem (h.frame (Dev.offRequest_onlyIn _) rfl)
  | pbShortPress => exact execPbShortPress_mem _
  | pbLongPress => exact keepsMem_done fun _ h => .ite (.frame (Dev.forcedOff_onlyIn _ _) rfl h) h
  | safeNAssert => exact keepsMem_done fun _ h => h
  | mrNReset => exact keepsMem_done fun _ h => h.enterSafe
  | vauxWarn => exact keepsMem_done fun _ h => .ite h (.frame (Dev.crustTear_onlyIn _) rfl (.finalRecord h))
  | vauxMin _ => exact execVauxMin_mem _ _
  | vauxReturn => exact keepsMem_done fun _ h => .ite h (.bbuFlush (.nvFlush h))
  | resetRelease _ _ _ => exact execResetRelease_mem _ _ _ _
  | holdLow => exact keepsMem_done fun _ h => .ite h (.ite h h)
  | autoOn => exact execAutoOn_mem _
  | rateCheckEnable => exact keepsMem_done fun _ h => .ite h h
  | thermalHoldEnd _ => exact keepsMem_done fun _ h => .ite h h
  | writeHoldEnd => exact keepsMem_done fun _ h => .ite (.ite h (.bbuFlush (.nvFlush h))) h
  | imagePageWriteDone _ => exact execImagePageWriteDone_mem _ _
  | peatCtrl _ => exact keepsMem_frame (fun _ => Dev.peatTrig_onlyIn _ _) rfl
  | peatRd _ => exact keepsMem_frame (fun _ => Dev.peatRdWrite_onlyIn _ _) rfl
  | peatReadReady => exact execPeatReadReady_mem _
  | crustProgramDone _ => exact execCrustProgramDone_mem _ _
  | twBlock _ _ _ _ => exact execTwBlock_mem _ _ _ _ _
  | regWrite _ _ _ _ => exact execRegWrite_mem _ _ _ _ _
  | regRead _ _ _ _ => exact execRegRead_mem _ _ _ _ _
  | seqItem _ _ _ _ _ => exact execSeqItem_mem _ _ _ _ _ _
  | replyRead _ =>
    exact keepsMem_done fun _ h => .ite (h.frame (Dev.drive_onlyIn _ _ _) rfl) (.frame (Dev.windowReply_onlyIn _ _) rfl
      (h.frame (Dev.recvBlock_onlyIn _ _) rfl))
  | windowTimeout _ => exact execWindowTimeout_mem _ _
  | sclHeldTimeout _ => exact keepsMem_done fun _ h => .ite h (.occur (h.frame (Dev.drive_onlyIn _ _ _) rfl))
  | sdaReleased _ => exact keepsMem_done fun _ h => .ite h (.occur (h.frame (Dev.drive_onlyIn _ _ _) rfl))
  | alertResponse _ =>
    exact keepsMem_done fun _ h => .ite (h.frame (Dev.drive_onlyIn _ _ _) rfl) (.frame (Dev.twStop_onlyIn _ _) rfl
      (h.frame (Dev.drive_onlyIn _ _ _) rfl))
  | pmPage _ _ => exact execPmPage_mem _ _ _
  | pmOperation _ _ => exact execPmOperation_mem _ _ _
  | pmClearFaults _ =>
    exact keepsMem_done fun _ h => .pmWrite (h.frame (Dev.recvBlock_onlyIn _ _) rfl) (h.frame (Dev.recvBlock_onlyIn _ _) rfl)
  | pmWriteProtect _ _ => exact execPmWriteProtect_mem _ _ _
  | pmCapability _ => exact keepsMem_next fun h => State.pmRead_mem h _ _ _
  | pmVoutMode _ => exact keepsMem_next fun h => State.pmRead_mem h _ _ _
  | pmVoutCommand _ _ => exact execPmVoutCommand_mem _ _ _
  | pmStatusByte _ => exact keepsMem_next fun h => State.pmRead_mem h _ _ _
  | pmStatusWord _ => exact keepsMem_next fun h => State.pmRead_mem h _ _ _
  | pmStatusVout _ => exact keepsMem_next fun h => State.pmRead_mem h _ _ _
  | pmStatusIout _ => exact keepsMem_next fun h => State.pmRead_mem h _ _ _
  | pmStatusInput _ => exact keepsMem_next fun h => State.pmRead_mem h _ _ _
  | pmStatusTemperature _ => exact keepsMem_next fun h => State.pmRead_mem h _ _ _
  | pmStatusCml _ => exact keepsMem_next fun h => State.pmRead_mem h _ _ _
  | pmReadVin _ => exact keepsMem_next fun h => State.pmRead_mem h _ _ _
  | pmReadIin _ => exact keepsMem_next fun h => State.pmRead_mem h _ _ _
  | pmReadVout _ => exact keepsMem_next fun h => State.pmRead_mem h _ _ _
  | pmReadIout _ => exact keepsMem_next fun h => State.pmRead_mem h _ _ _
  | pmReadTemperature1 _ => exact keepsMem_next fun h => State.pmRead_mem h _ _ _
  | pmReadPout _ => exact keepsMem_next fun h => State.pmRead_mem h _ _ _
  | pmRevision _ => exact keepsMem_next fun h => State.pmRead_mem h _ _ _
  | pmMfrId _ => exact keepsMem_next fun h => State.pmRead_mem h _ _ _
  | pmMfrModel _ => exact keepsMem_next fun h => State.pmRead_mem h _ _ _
  | pmMfrRevision _ => exact keepsMem_next fun h => State.pmRead_mem h _ _ _
  | pmMfrShelf _ => exact keepsMem_next fun h => State.pmRead_mem h _ _ _
  | pmMfrBudget _ => exact keepsMem_next fun h => State.pmRead_mem h _ _ _
  | pmMfrFaultPages _ => exact keepsMem_next fun h => State.pmRead_mem h _ _ _
  | openItem _ _ => exact keepsMem_done fun _ h => .ite h h.decideOpen
  | clearStatus =>
    exact keepsMem_done fun _ h => h.execHead fun _ => .ite (.frame (Dev.clearRequest_onlyIn _ _ _ _) rfl h.startItem)
      (.endItem (h.frame (Dev.statusWrite_onlyIn _ _ _) rfl))
  | clearCounter => exact execClearCounter_mem _
  | roleSwap => exact keepsMem_done fun _ h => h.execHead fun _ => .ite (.ite h h.execMark) h.endItem
  | twinRestart => exact keepsMem_done fun _ h => h.execHead fun _ => .ite (h.twinRestart.endItem) h.endItem
  | crustWrite =>
    exact keepsMem_done fun _ h => h.execHead fun _ => .ite (h.frame (Dev.crustEnd_onlyIn _ _) rfl) (.ite h
      (.startItem (h.execMark.frame (Dev.crustStart_onlyIn _ _ _ _ _) rfl)))
  | standby => exact keepsMem_done fun _ h => h.execHead fun _ => .ite (.endItem h) h.endItem
  | standbyWake _ => exact execStandbyWake_mem _ _
  | hostNotify _ _ => exact keepsMem_done fun _ h => .ite h (.frame (Dev.twStop_onlyIn _ _) rfl h)
  | hnFail _ => exact keepsMem_done fun _ h => .ite h h
  | poll _ _ _ => exact execPoll_mem _ _ _ _
  | twRetry _ _ => exact execTwRetry_mem _ _ _
  | arbLost _ _ _ =>
    exact keepsMem_done fun _ h => .ite h (.ite (.frame (Dev.arbLoss_onlyIn _ _) rfl h) (.frame (Dev.arbLoss_onlyIn _ _) rfl h))
  | arbCond _ =>
    exact keepsMem_done fun _ h => .ite h (.ite (.frame (Dev.arbLoss_onlyIn _ _) rfl h) (.frame (Dev.arbLoss_onlyIn _ _) rfl h))
  | arbRetry _ => exact keepsMem_done fun _ h => .ite h h
  | controllerSclTimeout _ => exact keepsMem_done fun _ h => .ite h h
  | busRecovery _ _ => exact execBusRecovery_mem _ _ _
  | mienoLinkUp _ => exact keepsMem_done fun _ h => .ite h (h.frame (Dev.updMp_onlyIn _ _ _) rfl)
  | mienoLinkDown _ => exact keepsMem_done fun _ h => .ite (.occur (h.frame (Dev.updMp_onlyIn _ _ _) rfl)) h
  | linkFrame _ _ _ _ _ _ =>
    exact keepsMem_done fun _ h => .ite h (.frame (Dev.updMie_onlyIn _ _) rfl (.frame (Dev.updMp_onlyIn _ _ _) rfl
      (h.frame (Dev.sendLink_onlyIn _ _ _) rfl)))
  | duplicateWindowReset _ => exact keepsMem_done fun _ h => h
  | budget _ _ => exact execBudget_mem _ _ _
  | advert _ _ => exact execAdvert_mem _ _ _
  | timeFrame _ _ _ => exact execTimeFrame_mem _ _ _ _
  | mienoHeartbeat _ _ => exact execMienoHeartbeat_mem _ _ _
  | idConflictClear => exact keepsMem_done fun _ h => .ite h h
  | digest _ _ => exact execDigest_mem _ _ _
  | fabCommand _ _ => exact keepsMem_done fun _ h => .ite h (h.received fun _ h => h.takeCommand)
  | commandReply _ _ => exact keepsMem_done fun _ h => .ite h (h.received fun _ h => h.frame (Dev.takeReply_onlyIn _ _) rfl)
  | sporeChunk _ _ => exact keepsMem_done fun _ h => .ite h (h.received fun _ h => h.takeSporeChunk)
  | peatReq _ _ => exact keepsMem_done fun _ h => .ite h (h.received fun _ h => h.takePeatReq)
  | peatData _ _ => exact keepsMem_done fun _ h => .ite h (h.received fun _ h => h)
  | unknownFrame _ _ => exact keepsMem_done fun _ h => .ite h (h.frame (Dev.receive_onlyIn _ _ _ _) rfl)
  | mienoHeartbeatTx => exact keepsMem_done fun _ h => .ite (.frame (Dev.broadcast_onlyIn _ _ _) rfl h) h
  | timeHold => exact keepsMem_done fun _ h => .ite h h
  | timeGo _ => exact keepsMem_frame (fun _ => Dev.timeGo_onlyIn _) rfl
  | tsetHoldExpiry => exact execTsetHoldExpiry_mem _
  | digestTx => exact keepsMem_done fun _ h => .ite (.frame (Dev.broadcast_onlyIn _ _ _) rfl h) h
  | allocate => exact execAllocate_mem _
  | shareIncrease => exact execShareIncrease_mem _
  | memberSilent _ => exact execMemberSilent_mem _ _
  | rowExt _ => exact keepsMem_frame (fun _ => Dev.rowExtWrite_onlyIn _ _) rfl
  | extHoldExpiry =>
    exact keepsMem_done fun _ h => .ite (.frame (Dev.setFld_onlyIn _ _ _ _ _ _) rfl (h.frame (Dev.updMie_onlyIn _ _) rfl)) h
  | fabGo _ => exact keepsMem_frame (fun _ => Dev.fabGoWrite_onlyIn _) rfl
  | fabResend => exact execFabResend_mem _
  | timedItemExecute => exact execTimedItemExecute_mem _
  | chStart _ => exact keepsMem_done fun _ h => .ite (.frame (Dev.chStartUp_onlyIn _ _) rfl h) h
  | chAbort _ => exact keepsMem_done fun _ h => .ite (.frame (Dev.chStop_onlyIn _ _) rfl h) h
  | chPause _ => exact keepsMem_done fun _ h => .ite (.frame (Dev.chPauseOn_onlyIn _ _) rfl h) h
  | chResume _ => exact keepsMem_done fun _ h => .ite (.frame (Dev.chPauseOff_onlyIn _ _) rfl h) h
  | sessionOpen =>
    exact keepsMem_done fun _ h => h.execHead fun _ => .ite (.endItem h) (.ite h.endItem
      (h.frame (Dev.sessionStart_onlyIn _ _ _) rfl))
  | sessionClose =>
    exact keepsMem_done fun _ h => h.execHead fun _ => .ite (.endItem (h.frame (Dev.sessionEnd_onlyIn _) rfl)) h.endItem
  | chunkCtl _ _ => exact keepsMem_done fun _ h => h.chunkCtl
  | sessionIdleTimeout => exact keepsMem_done fun _ h => .ite (.occur (h.frame (Dev.sessionEnd_onlyIn _) rfl)) h
  | sporeCommit _ => exact execSporeCommit_mem _ _
  | activate => exact execActivate_mem _
  | compareSuspend => exact keepsMem_done fun _ h => .ite h h
  | activationSwitch =>
    exact keepsMem_done fun _ h => .ite (.ite (h.frame (Dev.switchNew_onlyIn _) rfl) (.ite
      (h.frame (Dev.switchOld_onlyIn _) rfl) h)) h
  | managementPauseEnd => exact execManagementPauseEnd_mem _
  | compareResume => exact keepsMem_done fun _ h => .ite h h
  | confirm =>
    exact keepsMem_done fun _ h => .ite (.ite (h.frame (Dev.confirmNext_onlyIn _ _ _) rfl) h)
      (h.execHead fun _ => .ite h.endItem (.frame (Dev.confirmNext_onlyIn _ _ _) rfl h.startItem))
  | rollback =>
    exact keepsMem_done fun _ h => h.execHead fun _ => .ite h.endItem (.ite (.endItem (.ite
      (h.frame (Dev.swapRefused_onlyIn _ _) rfl) h))
      (.ite h (.frame (Dev.rollStart_onlyIn _ _ _) rfl (h.execMark.startItem))))
  | confirmTimerExpiry => exact keepsMem_done fun _ h => .ite (.frame (Dev.rollStart_onlyIn _ _ _) rfl h) h
  | snapHold _ _ _ => exact keepsMem_next fun h => State.snapFrom_mem h _ _ _
  | holdExpired _ => exact execHoldExpired_mem _ _
  | testenHigh => exact keepsMem_done fun _ h => .ite h h
  | supplyOutOfRange _ => exact execSupplyOutOfRange_mem _ _
  | supplyInRange _ => exact execSupplyInRange_mem _ _
  | safeNRelease => exact keepsMem_done fun _ h => h
  | vgdOkRise => exact keepsMem_done fun _ h => h
  | islandUnlock _ _ => exact execIslandUnlock_mem _ _ _
  | timebaseRelock _ =>
    exact keepsMem_done fun _ h => .ite (.frame (Dev.when_onlyIn _ _ _ fun _ => Dev.metRestart_onlyIn _) rfl
      (h.frame (Dev.setRegion_onlyIn _ _ _) rfl)) h

/-- Settles O4: a step runs the command at the front of the queue, and every command keeps the canonical form. -/
theorem memoriesStayCanonical : Obligations.MemoriesStayCanonical := by
  intro s t h hstep
  unfold step at hstep
  split at hstep
  · cases hstep; exact h
  · exact Dev.canon_iff.mpr (exec_mem _ _ t hstep (Dev.canon_iff.mp h))

end Sys2Proof.Machine
end

section
/-! PROOF. The bank swap (R66, R69, R70, R75) and the abort, pause and resume of a DMA channel (R472, R473): each channel command
sets one bit of CH_CTRL and rewrites its own channel alone. -/

namespace Sys2Proof.Machine

/-! ### One bit of a register -/

/-- A one-bit field just written has the bit written. -/
theorem bitAt_putBits_same (v i : Nat) (b : Bool) : bitAt (putBits v i i (b2n b)) i = b := by
  have hone : i + 1 - i = 1 := by omega
  have hdiv : putBits v i i (b2n b) / 2 ^ i = v / 2 ^ i - v / 2 ^ i % 2 + b2n b % 2 := by
    rw [putBits, bits, hone, pow_one, Nat.add_mul_div_right _ _ (Nat.two_pow_pos i), Nat.mul_comm (v / 2 ^ i % 2),
      Nat.sub_mul_div]
  rw [bitAt, hdiv]
  cases b <;> simp [b2n] <;> omega

/-- Setting a field changes no other register. -/
theorem Dev.onlyReg_setFld (d : Dev) (pg off hi lo v : Nat) : d.onlyReg (d.setFld pg off hi lo v) (regAddr pg off) :=
  ⟨fun _ _ h => RegFile.setVal_other d.regs _ h, rfl, rfl, rfl⟩

theorem Dev.flag_setFld_same (d : Dev) {pg off : Nat} (i : Nat) (b : Bool) (h : off < 0x1000) :
    (d.setFld pg off i i (b2n b)).flag pg off i = b := by
  have hreg : (d.setFld pg off i i (b2n b)).reg pg off = putBits (d.reg pg off) i i (b2n b) := RegFile.setVal_same d.regs _ h
  rw [Dev.flag, hreg, bitAt_putBits_same]

/-! ### The bank swap -/

/-- Applying a coefficient image takes stale areas away and adds none. -/
theorem Dev.mem_live_of_applyCoeffs {d : Dev} {a : Nat} (h : a ∈ d.applyCoeffs.live) : a ∈ d.live := by
  unfold Dev.applyCoeffs at h
  extract_lets ss old written keep m inSeg at h
  have hlive : written.live = d.live := Dev.writeSegments_onlyIn d ss .live (by decide)
  rw [← hlive]
  exact List.mem_of_mem_filter h

theorem completes_bankSwap {s : State} (hbound : s.d.atBoundary = true) (hdue : s.d.swapDue = true) :
    Completes .bankSwap s [.stat, .sched, .sram, .live] fun e =>
      if s.d.sched.otherLoaded then
        e.sched = { s.d.sched with active := !s.d.sched.active, armed := false } ∧ e.stat = s.d.stat ∧ ∀ a ∈ e.live, a ∈ s.d.live
      else e.sched = { s.d.sched with armed := false } ∧ e.sram = s.d.sram ∧ e.live = s.d.live ∧ s.d.recordedC e 0x02 2 3 := by
  refine completes_done (e := s.d.bankSwap) rfl (by simp [hbound, hdue])
    (Dev.onlyIn_mono (Dev.bankSwap_onlyIn s.d) (by decide)) ?_
  unfold Dev.bankSwap
  split
  · have hsame := Dev.applyCoeffs_onlyIn (s.d.updSched fun x => { x with active := !x.active, armed := false })
    exact ⟨hsame .sched (by decide), hsame .stat (by decide), fun _ => Dev.mem_live_of_applyCoeffs (d := s.d.updSched _)⟩
  · exact ⟨rfl, rfl, rfl, Dev.recordedC_occurC_of rfl 0x02 2 3⟩

/-! ### Abort, pause and resume of a channel -/

/-- The channel once EN is cleared: an IDLE one stays so, one that holds a descriptor aborts, any other becomes IDLE. -/
def DmaCh.stopped (h : DmaCh) : DmaCh :=
  if h.st = .idle then { h with en := false }
  else if h.holds ∧ h.st = .waitReq then { h with en := false, abort := true, st := .paused, back := .waitReq, residue := [] }
  else if h.holds then { h with en := false, abort := true }
  else { h with en := false, st := .idle, err := 0, abort := false, residue := [] }

/-- The channel once PAUSE is set: a waiting one is PAUSED at once. -/
def DmaCh.pausing (h : DmaCh) : DmaCh :=
  if h.st = .waitOwn ∨ h.st = .waitReq then { h with pause := true, st := .paused, back := h.st, residue := [] }
  else { h with pause := true }

/-- The channel once PAUSE is cleared: a PAUSED one that does not abort goes back to its work. -/
def DmaCh.resumed (h : DmaCh) : DmaCh :=
  if h.st = .paused ∧ h.abort = false then { h with pause := false, st := h.back } else { h with pause := false }

theorem Dev.chStop_eq (d : Dev) (c : Nat) : d.chStop c = d.updDma c DmaCh.stopped := by
  simp only [Dev.chStop, Dev.updDma, updAt_updAt]
  congr 2
  funext h
  simp [DmaCh.stopped]

theorem Dev.chPauseOn_eq (d : Dev) (c : Nat) : d.chPauseOn c = d.updDma c DmaCh.pausing := rfl

theorem Dev.chPauseOff_eq (d : Dev) (c : Nat) : d.chPauseOff c = d.updDma c DmaCh.resumed := by
  rw [Dev.chPauseOff]
  congr 1
  funext h
  simp [DmaCh.resumed]

theorem Dev.dma_length {d : Dev} (h : d.shape = true) : d.dma.length = 16 := by
  simp only [Dev.shape, Bool.and_eq_true, beq_iff_eq] at h
  simp only [h]

/-- A command that writes bit `i` of CH_CTRL and then rewrites the channel by `step`. -/
theorem completes_channel {cmd : Instr} {s : State} {c : Fin 16} {f : Dev → Dev} (i : Nat) (b : Bool) {step : DmaCh → DmaCh}
    (hshape : s.d.shape = true) (hcmd : exec cmd s = done f s)
    (hf : f s.d = (s.d.setFld dmaPg (chOff c) i i (b2n b)).updDma c step) :
    Completes cmd s [.regs, .dma] fun e =>
      e.flag dmaPg (chOff c) i = b ∧ s.d.onlyReg e (regAddr dmaPg (chOff c)) ∧ sameBut c.val s.d.dma e.dma ∧
        e.ch c = step (s.d.ch c) := by
  have hoff : chOff c < 0x1000 := by unfold chOff; omega
  have hlen : c.val < s.d.dma.length := by rw [Dev.dma_length hshape]; exact c.isLt
  exact completes_done hcmd hf
    (Dev.onlyIn_via (Dev.updDma_onlyIn _ _ _) (by decide) (Dev.onlyIn_mono (Dev.setFld_onlyIn _ _ _ _ _ _) (by decide)))
    ⟨s.d.flag_setFld_same i b hoff, s.d.onlyReg_setFld _ _ _ _ _, sameBut_updAt _ _ _, nth_updAt_same _ _ _ hlen⟩

/-- Settles O52: the swap takes the other bank or records the refusal, and each channel command sets its bit of CH_CTRL and rewrites
its own channel. -/
theorem swapsAndChannels : Obligations.SwapsAndChannels := by
  refine ⟨fun s hbound hdue => completes_bankSwap hbound hdue, fun s c hshape hown hbusy => ?_, fun s c hshape hown => ?_,
    fun s c hshape hown => ?_⟩
  · have hstop : (s.d.ch c).stopped = _ := if_neg hbusy
    rw [← hstop]
    exact completes_channel 0 false hshape rfl (by simp [hown, hbusy, b2n, Dev.chStop_eq])
  · exact completes_channel 1 true (step := DmaCh.pausing) hshape rfl (by simp [hown, b2n, Dev.chPauseOn_eq])
  · exact completes_channel 1 false (step := DmaCh.resumed) hshape rfl (by simp [hown, b2n, Dev.chPauseOff_eq])

end Sys2Proof.Machine
end

section
/-! PROOF. The fixed shape of the block (O5): the lists that a block holds keep their lengths through every update, and through
the operations of the rails, the phase units, the loops and the safe state. -/

namespace Sys2Proof.Machine

set_option Elab.async false

/-! ### The shape of a block -/

/-- The block has its fixed number of everything, as a conjunction of lengths. -/
def Dev.Shaped (d : Dev) : Prop :=
  d.rails.length = 4 ∧ d.units.length = 64 ∧ d.clusters.length = 8 ∧ d.hs.length = 4 ∧ d.fh.members.length = 32 ∧
    d.bbus.length = 4 ∧ d.twT.length = 2 ∧ d.twC.length = 4 ∧ d.dma.length = 16 ∧ d.adm.ports.length = 16 ∧
    d.adm.loads.length = 256 ∧ d.sense.pre.length = 17 ∧ d.sense.aux.inputs.length = 32 ∧ d.sense.intmon.length = 20 ∧
    d.jrn.sources.length = 32

theorem Dev.shape_iff {d : Dev} : d.shape = true ↔ d.Shaped := by
  simp [Dev.shape, Dev.Shaped, and_assoc]

/-- The parts of the block that hold a list of fixed length. -/
def Part.sized : List Part := [.rails, .units, .clusters, .hs, .fh, .bbus, .twT, .twC, .dma, .adm, .sense, .jrn]

namespace Dev.Shaped

variable {d e : Dev}

/-- A block whose lists are as long as those of a block of the fixed shape has the shape too. -/
theorem put (h : d.Shaped) (rails : e.rails.length = d.rails.length := by rfl)
    (units : e.units.length = d.units.length := by rfl) (clusters : e.clusters.length = d.clusters.length := by rfl)
    (hs : e.hs.length = d.hs.length := by rfl) (members : e.fh.members.length = d.fh.members.length := by rfl)
    (bbus : e.bbus.length = d.bbus.length := by rfl) (twT : e.twT.length = d.twT.length := by rfl)
    (twC : e.twC.length = d.twC.length := by rfl) (dma : e.dma.length = d.dma.length := by rfl)
    (ports : e.adm.ports.length = d.adm.ports.length := by rfl) (loads : e.adm.loads.length = d.adm.loads.length := by rfl)
    (pre : e.sense.pre.length = d.sense.pre.length := by rfl)
    (inputs : e.sense.aux.inputs.length = d.sense.aux.inputs.length := by rfl)
    (intmon : e.sense.intmon.length = d.sense.intmon.length := by rfl)
    (sources : e.jrn.sources.length = d.jrn.sources.length := by rfl) : e.Shaped := by
  simpa only [Dev.Shaped, rails, units, clusters, hs, members, bbus, twT, twC, dma, ports, loads, pre, inputs, intmon,
    sources] using h

/-- What changes none of the parts that hold such a list keeps the shape. -/
theorem frame {l : List Part} (k : Dev.onlyIn l d e) (hl : l.any Part.sized.contains = false) (h : d.Shaped) : e.Shaped := by
  have same : ∀ p ∈ Part.sized, p.same d e := fun p hp => k p fun hpl => by
    simpa [hp] using List.any_eq_false.mp hl p hpl
  have hrails : e.rails = d.rails := same .rails (by decide)
  have hunits : e.units = d.units := same .units (by decide)
  have hclusters : e.clusters = d.clusters := same .clusters (by decide)
  have hhs : e.hs = d.hs := same .hs (by decide)
  have hfh : e.fh = d.fh := same .fh (by decide)
  have hbbus : e.bbus = d.bbus := same .bbus (by decide)
  have htwT : e.twT = d.twT := same .twT (by decide)
  have htwC : e.twC = d.twC := same .twC (by decide)
  have hdma : e.dma = d.dma := same .dma (by decide)
  have hadm : e.adm = d.adm := same .adm (by decide)
  have hsense : e.sense = d.sense := same .sense (by decide)
  have hjrn : e.jrn = d.jrn := same .jrn (by decide)
  rw [Dev.Shaped, hrails, hunits, hclusters, hhs, hfh, hbbus, htwT, htwC, hdma, hadm, hsense, hjrn]; exact h

/-! ### Operations that take an operation -/

theorem ite {c : Prop} [Decidable c] (hd : d.Shaped) (he : e.Shaped) : (if c then d else e).Shaped := by
  split
  · exact hd
  · exact he

theorem iteFst {α : Type} {c : Prop} [Decidable c] {p q : Dev × α} (hp : p.1.Shaped) (hq : q.1.Shaped) :
    (if c then p else q).1.Shaped := by
  split
  · exact hp
  · exact hq

theorem foldl {α : Type} {g : Dev → α → Dev} {xs : List α} (h : d.Shaped) (hg : ∀ d a, d.Shaped → (g d a).Shaped) :
    (xs.foldl g d).Shaped := by
  induction xs generalizing d with
  | nil => exact h
  | cons a xs ih => exact ih (hg d a h)

theorem foldN {g : Dev → Nat → Dev} {n : Nat} (h : d.Shaped) (hg : ∀ d i, d.Shaped → (g d i).Shaped) :
    (foldN n g d).Shaped := foldl h hg

theorem when {c : Bool} {f : Dev → Dev} (h : d.Shaped) (hf : ∀ d, d.Shaped → (f d).Shaped) : (d.when c f).Shaped :=
  ite (hf d h) h

/-! ### Updates of parts without a list of fixed length -/

theorem putTime {x : TimeSt} (h : d.Shaped) : ({ d with time := x } : Dev).Shaped := h
theorem putDie {x : DieS} (h : d.Shaped) : ({ d with die := x } : Dev).Shaped := h
theorem putTimeDie {t : TimeSt} {x : DieS} (h : d.Shaped) : ({ d with time := t, die := x } : Dev).Shaped := h
theorem putDieXfer {x : DieS} {y : Xfer} (h : d.Shaped) : ({ d with die := x, xfer := y } : Dev).Shaped := h
theorem putRegs {x : RegFile} (h : d.Shaped) : ({ d with regs := x } : Dev).Shaped := h
theorem putStat {l : List BlkStat} (h : d.Shaped) : ({ d with stat := l } : Dev).Shaped := h
theorem putRuns {l : List PhaseRun} (h : d.Shaped) : ({ d with runs := l } : Dev).Shaped := h
theorem putRunsInj {l : List PhaseRun} {x : InjSt} (h : d.Shaped) : ({ d with runs := l, inj := x } : Dev).Shaped := h
theorem putInj {x : InjSt} (h : d.Shaped) : ({ d with inj := x } : Dev).Shaped := h
theorem putInjCap {x : InjSt} {y : CapSt} (h : d.Shaped) : ({ d with inj := x, cap := y } : Dev).Shaped := h
theorem putCap {x : CapSt} (h : d.Shaped) : ({ d with cap := x } : Dev).Shaped := h
theorem putCapSram {x : CapSt} {m : Memory} (h : d.Shaped) : ({ d with cap := x, sram := m } : Dev).Shaped := h
theorem putSram {m : Memory} (h : d.Shaped) : ({ d with sram := m } : Dev).Shaped := h
theorem putTwin {x : TwinCtl} (h : d.Shaped) : ({ d with twin := x } : Dev).Shaped := h
theorem putNv {x : NvSt} (h : d.Shaped) : ({ d with nv := x } : Dev).Shaped := h
theorem putCrust {x : CrustSt} (h : d.Shaped) : ({ d with crust := x } : Dev).Shaped := h
theorem putFeedAFeedB {x y : Feed} (h : d.Shaped) : ({ d with feedA := x, feedB := y } : Dev).Shaped := h
theorem putTherm {x : Therm} (h : d.Shaped) : ({ d with therm := x } : Dev).Shaped := h
theorem putAdm {x : AdmSt} (h : d.Shaped) (ports : x.ports.length = d.adm.ports.length := by rfl)
    (loads : x.loads.length = d.adm.loads.length := by rfl) : ({ d with adm := x } : Dev).Shaped :=
  h.put (ports := ports) (loads := loads)
theorem putSense {x : SenseSt} (h : d.Shaped) (pre : x.pre.length = d.sense.pre.length := by rfl)
    (inputs : x.aux.inputs.length = d.sense.aux.inputs.length := by rfl)
    (intmon : x.intmon.length = d.sense.intmon.length := by rfl) : ({ d with sense := x } : Dev).Shaped :=
  h.put (pre := pre) (inputs := inputs) (intmon := intmon)
theorem occurC {pg bit code : Nat} (h : d.Shaped) : (d.occurC pg bit code).Shaped := h.putStat
theorem occur {pg bit : Nat} (h : d.Shaped) : (d.occur pg bit).Shaped := h.occurC
theorem updStat {pg : Nat} {f : BlkStat → BlkStat} (h : d.Shaped) : (d.updStat pg f).Shaped := h.putStat
theorem updMie {f : MieSt → MieSt} (h : d.Shaped) : (d.updMie f).Shaped := h.frame (Dev.updMie_onlyIn _ _) rfl
theorem updUpd {f : UpdSt → UpdSt} (h : d.Shaped) : (d.updUpd f).Shaped := h.frame (Dev.updUpd_onlyIn _ _) rfl
theorem updSup {f : SupplySt → SupplySt} (h : d.Shaped) : (d.updSup f).Shaped := h.frame (Dev.updSup_onlyIn _ _) rfl
theorem updXfer {f : Xfer → Xfer} (h : d.Shaped) : (d.updXfer f).Shaped := h.frame (Dev.updXfer_onlyIn _ _) rfl
theorem updSched {f : SchedSt → SchedSt} (h : d.Shaped) : (d.updSched f).Shaped := h.frame (Dev.updSched_onlyIn _ _) rfl
theorem updTherm {f : Therm → Therm} (h : d.Shaped) : (d.updTherm f).Shaped := h.putTherm
theorem updPeat {f : PeatSt → PeatSt} (h : d.Shaped) : (d.updPeat f).Shaped := h.frame (Dev.updPeat_onlyIn _ _) rfl
theorem updTwin {t : Twin} {f : TwinSt → TwinSt} (h : d.Shaped) : (d.updTwin t f).Shaped :=
  h.frame (Dev.updTwin_onlyIn _ _ _) rfl
theorem updFeed {f : FeedId} {g : Feed → Feed} (h : d.Shaped) : (d.updFeed f g).Shaped := h.frame (Dev.updFeed_onlyIn _ _ _) rfl
theorem putOp {desc i : Nat} {v : Int} (h : d.Shaped) : (d.putOp desc i v).Shaped := h.putSram
theorem ringPut {n : Nat} {v : List Byte} (h : d.Shaped) : (d.ringPut n v).Shaped := h.frame (Dev.ringPut_onlyIn _ _ _) rfl
theorem injStopRail {r cause : Nat} (h : d.Shaped) : (d.injStopRail r cause).Shaped :=
  h.frame (Dev.injStopRail_onlyIn _ _ _) rfl
theorem injLeave {r : Nat} (h : d.Shaped) : (d.injLeave r).Shaped := h.frame (Dev.injLeave_onlyIn _ _) rfl

/-! ### State -/

theorem reset : Dev.reset.Shaped := by
  have replicated : ∀ {α : Type} (n : Nat) (a : α), (List.replicate n a).length = n := fun _ _ => List.length_replicate
  exact ⟨rfl, replicated 64 _, rfl, rfl, replicated 32 _, rfl, rfl, rfl, replicated 16 _, replicated 16 _, replicated 256 _,
    replicated 17 _, replicated 32 _, replicated 20 _, replicated 32 _⟩

/-! ### Rails, units and clusters by number -/

theorem updRail {r : Nat} {f : Rail → Rail} (h : d.Shaped) : (d.updRail r f).Shaped := h.put (rails := updAt_length ..)

theorem updUnit {n : Nat} {f : PhUnit → PhUnit} (h : d.Shaped) : (d.updUnit n f).Shaped := h.put (units := updAt_length ..)

theorem updCluster {k : Nat} {f : Cluster → Cluster} (h : d.Shaped) : (d.updCluster k f).Shaped :=
  h.put (clusters := updAt_length ..)

/-! ### The journal -/

theorem journalGrant {load seq kind dec ramp mag off : Nat} (h : d.Shaped) :
    (d.journalGrant load seq kind dec ramp mag off).Shaped :=
  .put (h.frame (Dev.nvPut2_onlyIn _ _ _ _) rfl)

/-! ### Members, modules, two-wire ports and channels -/

theorem updFh {f : Fiddle → Fiddle} (h : d.Shaped) (hf : (f d.fh).members.length = d.fh.members.length := by rfl) :
    (d.updFh f).Shaped := h.put (members := hf)

theorem updMbr {i : Nat} {f : Member → Member} (h : d.Shaped) : (d.updMbr i f).Shaped := h.updFh (updAt_length ..)

theorem stopNext {fuel : Nat} (h : d.Shaped) : (d.stopNext fuel).Shaped := by
  induction fuel generalizing d with
  | zero => exact h
  | succ fuel ih =>
    unfold Dev.stopNext
    split
    · exact h
    · exact .ite (.ite h h.updMbr) (.ite h (ih h.updFh))

theorem stopDependants {f : Nat} (h : d.Shaped) : (d.stopDependants f).Shaped :=
  .stopNext (.updFh (h.foldl fun _ _ h => h.updMbr))

theorem failMember {i cause : Nat} {keep : Bool} (h : d.Shaped) : (d.failMember i cause keep).Shaped :=
  h.updMbr.updFh.occur.stopDependants

theorem memberBlockFault {m : Nat} (h : d.Shaped) : (d.memberBlockFault m).Shaped := by
  unfold Dev.memberBlockFault
  split
  · exact h.failMember
  · exact h.failMember
  · exact h.failMember
  · exact h.failMember
  · exact h.updMbr.updFh.occur
  · exact h

theorem memberRefused {m : Nat} (h : d.Shaped) : (d.memberRefused m).Shaped := by
  unfold Dev.memberRefused
  split
  · exact h.failMember
  · exact h.failMember
  · exact h.failMember
  · exact h.failMember
  · exact h

theorem updBbu {m : Nat} {f : Bbu → Bbu} (h : d.Shaped) : (d.updBbu m f).Shaped := h.put (bbus := updAt_length ..)

theorem updTwT {n : Nat} {f : TwTarget → TwTarget} (h : d.Shaped) : (d.updTwT n f).Shaped := h.put (twT := updAt_length ..)

theorem updTwC {c : Nat} {f : TwCtl → TwCtl} (h : d.Shaped) : (d.updTwC c f).Shaped := h.put (twC := updAt_length ..)

theorem twDone {c n : Nat} (h : d.Shaped) : (d.twDone c n).Shaped := h.updTwC

theorem twGone {c addr : Nat} (h : d.Shaped) : (d.twGone c addr).Shaped := h.updTwC

theorem updJrn {f : JrnSt → JrnSt} (h : d.Shaped) (hf : (f d.jrn).sources.length = d.jrn.sources.length := by rfl) :
    (d.updJrn f).Shaped := h.put (sources := hf)

theorem updDma {c : Nat} {f : DmaCh → DmaCh} (h : d.Shaped) : (d.updDma c f).Shaped := h.put (dma := updAt_length ..)

/-! ### The ledger -/

theorem updLed {f : Ledger → Ledger} (h : d.Shaped) : (d.updLed f).Shaped := h.put

theorem updPort {n : Nat} {f : StepPort → StepPort} (h : d.Shaped) : (d.updPort n f).Shaped := h.put (ports := updAt_length ..)

theorem updLoad {i : Nat} {f : Load → Load} (h : d.Shaped) : (d.updLoad i f).Shaped := h.put (loads := updAt_length ..)

theorem putFf {r : Nat} {v : Int} (h : d.Shaped) : (d.putFf r v).Shaped := h.updLed.putSram

theorem ffTick (h : d.Shaped) : d.ffTick.Shaped := h.foldN fun _ _ h => h.putFf

theorem limitTick (h : d.Shaped) : d.limitTick.Shaped := h.updLed

theorem capRaise {n : Nat} (h : d.Shaped) : (d.capRaise n).Shaped := by
  unfold Dev.capRaise
  extract_lets c old t d1 d2
  have hd1 : d1.Shaped := h.updPort
  have hd2 : d2.Shaped := .ite hd1.occur hd1
  exact .ite hd2.occur hd2

theorem overrunTick (h : d.Shaped) : d.overrunTick.Shaped := by
  unfold Dev.overrunTick
  extract_lets r s d1 d2
  have hd1 : d1.Shaped := .ite h.occur h
  have hd2 : d2.Shaped := .ite hd1.occur hd1
  exact hd2.updLed

theorem capAll (h : d.Shaped) : d.capAll.Shaped := h.overrunTick.foldN fun _ _ h => h.capRaise

theorem rebudget (h : d.Shaped) : d.rebudget.Shaped := h.limitTick.capAll

theorem learnTick (h : d.Shaped) : d.learnTick.Shaped := by
  unfold Dev.learnTick
  refine .ite h.updLed (.ite h.updLed ?_)
  split
  · exact .ite h.updLed (.ite h.updLed h.updLed)
  · exact h

theorem learnFrond (h : d.Shaped) : d.learnFrond.Shaped := by
  unfold Dev.learnFrond
  split
  · exact h
  · exact h.updLed

/-! ### The rails -/

theorem triAll {r : Nat} (h : d.Shaped) : (d.triAll r).Shaped := h.foldN fun _ _ h => .ite h.updUnit h

theorem tripRailBy {r pg bit : Nat} (h : d.Shaped) : (d.tripRailBy r pg bit).Shaped :=
  h.injLeave.triAll.updRail.occur.memberBlockFault

theorem tripRail {r bit : Nat} (h : d.Shaped) : (d.tripRail r bit).Shaped := h.tripRailBy

theorem railOff {r : Nat} (h : d.Shaped) : (d.railOff r).Shaped := h.injLeave.triAll.updRail

theorem noPhase {r : Nat} (h : d.Shaped) : (d.noPhase r).Shaped := .ite h.tripRail h

theorem faultUnit {n : Nat} (h : d.Shaped) : (d.faultUnit n).Shaped := by
  unfold Dev.faultUnit
  split
  · exact h
  · exact .ite h.updUnit h.updUnit.injStopRail.noPhase

theorem capTick {r : Nat} (h : d.Shaped) : (d.capTick r).Shaped := h.updRail

theorem loseClusters {p : Nat → Bool} (h : d.Shaped) : (d.loseClusters p).Shaped := by
  unfold Dev.loseClusters
  extract_lets before d1 d2 d3
  have hd1 : d1.Shaped := by
    refine h.foldN fun d n h => ?_
    refine .ite ?_ h
    extract_lets d1
    have hd1 : d1.Shaped := h.occur
    split
    · exact hd1
    · exact hd1.updUnit.injStopRail
  have hd2 : d2.Shaped := hd1.foldN fun _ _ h => .ite h.updCluster h
  have hd3 : d3.Shaped := by
    refine hd2.foldN fun d r h => ?_
    extract_lets c0 d3 d4
    have hd3 : d3.Shaped := h.capTick
    have hd4 : d4.Shaped := hd3.updRail
    exact .ite hd4.injStopRail.noPhase hd3
  exact hd3.rebudget

theorem gateUp {r : Nat} (h : d.Shaped) : (d.gateUp r).Shaped := h.updRail

theorem railOn {r : Nat} (h : d.Shaped) : (d.railOn r).Shaped := by
  unfold Dev.railOn
  split
  · exact .ite h.gateUp h.memberRefused
  · exact h.memberRefused
  · exact h.updRail
  · exact h

theorem railOffReq {r : Nat} (h : d.Shaped) : (d.railOffReq r).Shaped := by
  unfold Dev.railOffReq
  split
  · exact .ite h.injLeave.updRail h.railOff
  · exact .ite h.injLeave.updRail h.railOff
  · exact h.updRail
  · exact h.updRail
  · exact h.updRail
  · exact h.updRail

theorem retryEnd {r : Nat} (h : d.Shaped) : (d.retryEnd r).Shaped := by
  unfold Dev.retryEnd
  refine .ite h.railOff (.ite ?_ h.updRail.occur)
  extract_lets d1
  have hd1 : d1.Shaped := h.updRail
  exact .ite hd1.gateUp hd1.tripRail

theorem targetTick {r : Nat} (h : d.Shaped) : (d.targetTick r).Shaped := .updRail (.ite h.occur h)

theorem refTick {r : Nat} (h : d.Shaped) : (d.refTick r).Shaped := by
  unfold Dev.refTick
  extract_lets x step goal own
  split
  · exact .ite h.updRail h.updRail
  · extract_lets ls d1 stops d2 ref
    have hd1 : d1.Shaped := h.updRail
    have hd2 : d2.Shaped := .ite hd1.injStopRail hd1
    refine .ite hd1 (.ite hd2.updRail (.ite (.ite hd1 hd1.updRail) ?_))
    split
    · exact hd1.updRail
    · exact .ite hd1.injStopRail.updRail hd1.updRail
    · exact hd1.updRail

theorem startTick {r : Nat} (h : d.Shaped) : (d.startTick r).Shaped :=
  .ite h.updRail (h.updRail.foldN fun _ _ h => .ite h.updUnit h)

theorem countTick {r : Nat} (h : d.Shaped) : (d.countTick r).Shaped := by
  unfold Dev.countTick
  refine .ite h ?_
  extract_lets hist sum th ovr ovl uv ovRun ov sh act trips flimRun lim pg rose d1
  have hd1 : d1.Shaped := h.updRail
  exact .ite hd1.injStopRail hd1

theorem activate {r n : Nat} (h : d.Shaped) : (d.activate r n).Shaped := .updUnit (h.frame (Dev.zeroBalance_onlyIn _ _ _) rfl)

theorem addUnits {r : Nat} (h : d.Shaped) : (d.addUnits r).Shaped := by
  unfold Dev.addUnits
  extract_lets x free cand lvl need pick
  split
  · exact h.foldl fun _ _ h => h.activate
  · exact .ite (h.foldl fun _ _ h => h.activate) (h.foldl fun _ _ h => h.activate)
  · exact h

theorem addTick {r : Nat} (h : d.Shaped) : (d.addTick r).Shaped := by
  unfold Dev.addTick
  extract_lets d1 shed low
  have hd1 : d1.Shaped := h.addUnits
  exact .ite hd1.updRail hd1

theorem cancelShed {r : Nat} (h : d.Shaped) : (d.cancelShed r).Shaped := .updRail (h.foldN fun _ _ h => .ite h.updUnit h)

theorem mark {n : Nat} (h : d.Shaped) : (d.mark n).Shaped := h.updUnit

theorem interleave {r : Nat} (h : d.Shaped) : (d.interleave r).Shaped := .ite h (.updRail (h.foldl fun _ _ h => h.updUnit))

theorem periodTick {n : Nat} (h : d.Shaped) : (d.periodTick n).Shaped := by
  unfold Dev.periodTick
  split
  · exact h
  · exact .ite h.updUnit (.ite h.updUnit h.updUnit)

theorem counterTick {r : Nat} (h : d.Shaped) : (d.counterTick r).Shaped := h.updRail

theorem burstRail {r : Nat} (h : d.Shaped) : (d.burstRail r).Shaped :=
  .ite h.updRail (.updRail (h.foldl fun _ _ h => h.updUnit))

theorem applyBurst {xp : Nat → Bool} {r : Nat} (h : d.Shaped) : (d.applyBurst xp r).Shaped :=
  .ite h (.updRail (h.foldl fun _ _ h => h.updUnit))

theorem burstUndo (h : d.Shaped) : d.burstUndo.Shaped := h.put (rails := List.length_map ..) (units := List.length_map ..)

theorem thermalMark {r n : Nat} (h : d.Shaped) : (d.thermalMark r n).Shaped :=
  .ite (.putTherm (.occur (.updUnit (.ite h h.mark)))) h

theorem thermalShed {r : Nat} (h : d.Shaped) : (d.thermalShed r).Shaped := by
  unfold Dev.thermalShed
  refine h.foldN fun d n h => ?_
  refine .ite ?_ h
  extract_lets x d1
  have hd1 : d1.Shaped := h.putTherm
  exact .ite hd1.thermalMark hd1

/-! ### The control loops -/

theorem cascade {k recs states n i : Nat} {x : Int} (h : d.Shaped) : (d.cascade k recs states n i x).1.Shaped := by
  induction n generalizing d i x with
  | zero => exact h
  | succ n ih => exact ih (.updCluster h.putSram)

theorem blockCascade {k desc n : Nat} {x : Int} (h : d.Shaped) : (d.blockCascade k desc n x).1.Shaped := by
  unfold Dev.blockCascade
  exact h.cascade

theorem fireBiq {e : SlotEntry} (h : d.Shaped) : (d.fireBiq e).Shaped := h.blockCascade.putOp

theorem fireFfs {e : SlotEntry} (h : d.Shaped) : (d.fireFfs e).Shaped := h.blockCascade.putOp

theorem fireVlp {e : SlotEntry} (h : d.Shaped) : (d.fireVlp e).Shaped := h.blockCascade.updRail.putOp.putOp.putOp.putOp

theorem phaseWords {k r srcA srcB : Nat} {nact : Int} (h : d.Shaped) : (d.phaseWords k r srcA srcB nact).Shaped := by
  unfold Dev.phaseWords
  refine h.foldN fun d j h => ?_
  refine .ite h ?_
  split
  · exact h.cascade.updUnit
  · exact h.updUnit
  · exact h.updUnit

theorem firePhase {e : SlotEntry} (h : d.Shaped) : (d.firePhase e).Shaped := .putRuns (.phaseWords (.ite h.updRail h))

theorem shareAgain {x : PhaseRun} (h : d.Shaped) : (d.shareAgain x).Shaped :=
  .phaseWords (.putOp (.updCluster (h.foldN fun _ _ h => .ite h.putSram h)))

theorem reshare {r : Nat} (h : d.Shaped) : (d.reshare r).Shaped := h.foldl fun _ _ h => .ite h.shareAgain.putRuns h

theorem settleShares (h : d.Shaped) : d.settleShares.Shaped := by
  unfold Dev.settleShares
  refine h.foldN fun d r h => ?_
  extract_lets d1
  have hd1 : d1.Shaped := h.addUnits.reshare
  exact .ite (hd1.foldl fun _ _ h => h.updUnit) hd1

theorem fireOvl {e : SlotEntry} (h : d.Shaped) : (d.fireOvl e).Shaped := by
  unfold Dev.fireOvl
  refine h.foldN fun d j h => ?_
  extract_lets n th sum
  split
  · exact h
  · exact h.updUnit

theorem fireStat {e : SlotEntry} (h : d.Shaped) : (d.fireStat e).Shaped := h.foldN fun _ _ h => h.updUnit

/-! ### The safe state -/

theorem updHs {r : Nat} {f : HotSwap → HotSwap} (h : d.Shaped) : (d.updHs r f).Shaped := h.put (hs := updAt_length ..)

theorem outputsOff (h : d.Shaped) : d.outputsOff.Shaped := h.put (units := List.length_map ..) (hs := List.length_map ..)

theorem enterSafe {kind : Nat} (h : d.Shaped) : (d.enterSafe kind).Shaped := by
  unfold Dev.enterSafe
  refine .ite h ?_
  extract_lets x d1 d2
  have hd1 : d1.Shaped := h.putDie.outputsOff
  have hd2 : d2.Shaped := .ite hd1.updFeed.updFeed hd1
  exact .ite hd2 (hd2.frame (Dev.finalRecord_onlyIn _ _) rfl)

end Dev.Shaped

end Sys2Proof.Machine
end

section
/-! PROOF. What keeps the shape: members, feeds, modules, channels, admission, thermal stages and measurements. -/

namespace Sys2Proof.Machine

set_option Elab.async false

namespace Dev.Shaped

variable {d e : Dev}

/-! ### The members' power-up and power-down -/

theorem outOn {i : Nat} (h : d.Shaped) : (d.outOn i).Shaped := by
  unfold Dev.outOn
  extract_lets d1
  have hd1 : d1.Shaped := h.updMbr
  exact .ite hd1.railOn hd1

theorem outOff {i : Nat} (h : d.Shaped) : (d.outOff i).Shaped := by
  unfold Dev.outOff
  extract_lets d1
  have hd1 : d1.Shaped := h.updMbr
  exact .ite hd1.railOffReq (.ite (.ite (hd1.frame (Dev.feedPlainOff_onlyIn _) rfl) hd1) (.ite hd1.updBbu hd1))

theorem failOwn {i cause : Nat} (h : d.Shaped) : (d.failOwn i cause).Shaped := by
  unfold Dev.failOwn
  extract_lets keep d1
  have hd1 : d1.Shaped := h.failMember
  exact .ite hd1 hd1.outOff

theorem membersOff (h : d.Shaped) : d.membersOff.Shaped :=
  updFh (h.foldN fun _ _ h => .ite h.railOffReq h) (by simp)

theorem shelfDown {st : ShelfState} (h : d.Shaped) : (d.shelfDown st).Shaped := h.membersOff.updFh

theorem stopsDone (h : d.Shaped) : d.stopsDone.Shaped := by
  unfold Dev.stopsDone
  refine .ite h ?_
  split
  · exact h.shelfDown
  · exact h.membersOff
  · exact h

theorem stopAll (h : d.Shaped) : d.stopAll.Shaped := h.updFh.stopNext.stopsDone

theorem dropWaiting (h : d.Shaped) : d.dropWaiting.Shaped := h.updFh (List.length_map ..)

theorem shelfUp (h : d.Shaped) : d.shelfUp.Shaped := .ite h.updFh h

theorem powerUp (h : d.Shaped) : d.powerUp.Shaped := shelfUp (h.updFh (by simp))

theorem onRequest (h : d.Shaped) : d.onRequest.Shaped := by
  unfold Dev.onRequest
  refine .ite h ?_
  split
  · exact h.powerUp
  · exact h.updFh
  · exact h.updFh
  · exact h

theorem drained (h : d.Shaped) : d.drained.Shaped := h.updFh.stopAll

theorem offRequest (h : d.Shaped) : d.offRequest.Shaped := by
  unfold Dev.offRequest
  split
  · exact h.dropWaiting.updFh.stopAll
  · extract_lets d1
    have hd1 : d1.Shaped := h.dropWaiting.updFh
    exact .ite hd1.drained hd1
  · exact h.updFh
  · exact h.updFh
  · exact h

theorem forcedOff {src : Nat} (h : d.Shaped) : (d.forcedOff src).Shaped := by
  unfold Dev.forcedOff
  refine .stopAll (.occur (.dropWaiting (.updFh (h.foldN fun d r h => ?_))))
  extract_lets d1
  have hd1 : d1.Shaped := h.railOff
  exact .ite hd1.updMbr hd1

theorem mbrTick {i : Nat} (h : d.Shaped) : (d.mbrTick i).Shaped := by
  unfold Dev.mbrTick
  extract_lets g even q d1 m
  have hd1 : d1.Shaped := h.updMbr
  split
  · exact .ite hd1.occur.failOwn hd1
  · exact .ite hd1 hd1.updMbr
  · exact .ite hd1.updMbr hd1
  · split
    · exact hd1.updMbr
    · exact hd1
  · exact .ite hd1.updMbr hd1
  · exact hd1

theorem resume {f : Nat} (h : d.Shaped) : (d.resume f).Shaped := h.foldN fun _ _ h => .ite h.updMbr h

theorem resumeTick (h : d.Shaped) : d.resumeTick.Shaped := .ite (h.foldN fun _ _ h => .ite h.resume h) h

theorem fhTick (h : d.Shaped) : d.fhTick.Shaped := by
  unfold Dev.fhTick
  extract_lets stepped timed
  have hstepped : stepped.Shaped := .resumeTick (h.foldN fun _ _ h => h.mbrTick)
  clear_value stepped
  exact hstepped.updFh.shelfUp

theorem afterFail (h : d.Shaped) : d.afterFail.Shaped := .ite h.drained h.shelfUp

theorem memberStopped {i : Nat} (h : d.Shaped) : (d.memberStopped i).Shaped := h.updMbr.updFh.stopNext.stopsDone

theorem fhClear {mask : Nat} (h : d.Shaped) : (d.fhClear mask).Shaped := by
  unfold Dev.fhClear
  refine h.foldN fun d i h => ?_
  refine .ite h (.ite h.updStat ?_)
  extract_lets d1 d2 d3 d4
  have hd1 : d1.Shaped := h.updFh
  have hd2 : d2.Shaped := hd1.outOff
  have hd3 : d3.Shaped := hd2.updFh
  have hd4 : d4.Shaped := hd3.updMbr
  exact .ite (hd4.foldN fun _ _ h => .ite (.ite h.updMbr h) h) hd1

/-! ### Feeds and hot-swaps -/

theorem feedFaultRaw {f : FeedId} {bit : Nat} (h : d.Shaped) : (d.feedFaultRaw f bit).Shaped := h.updFeed.occur.memberBlockFault

theorem feedFault {f : FeedId} {bit : Nat} (h : d.Shaped) : (d.feedFault f bit).Shaped :=
  h.feedFaultRaw.frame (Dev.targetLost_onlyIn _ _) rfl

theorem freezeBegin (h : d.Shaped) : d.freezeBegin.Shaped := h.updLed

theorem startTransfer {old : FeedId} (h : d.Shaped) : (d.startTransfer old).Shaped := by
  unfold Dev.startTransfer
  extract_lets d1 d2
  have hd1 : d1.Shaped := .ite (.frame (Dev.targetLost_onlyIn _ _) rfl (h.frame (Dev.feedPark_onlyIn _ _) rfl)) h
  have hd2 : d2.Shaped := .ite (hd1.frame (Dev.xferFail_onlyIn _ _) rfl) hd1
  exact hd2.updXfer.freezeBegin

theorem startInsertion {f : FeedId} (h : d.Shaped) : (d.startInsertion f).Shaped := by
  unfold Dev.startInsertion
  extract_lets d1 d2
  have hd1 : d1.Shaped := h.updXfer
  have hd2 : d2.Shaped := .ite hd1.freezeBegin hd1
  exact hd2.frame (Dev.turnOn_onlyIn _ _) rfl

theorem feedJudge {f : FeedId} (h : d.Shaped) : (d.feedJudge f).Shaped := .ite (.ite h.feedFault (.ite h.feedFault h)) h

theorem feedTick (h : d.Shaped) : d.feedTick.Shaped := by
  unfold Dev.feedTick
  extract_lets d1 d2 d3 d4 d5 d6 j d7
  have hd1 : d1.Shaped := h.updXfer
  have hd2 : d2.Shaped := .frame (Dev.feedMeasure_onlyIn _ _) rfl (hd1.frame (Dev.feedMeasure_onlyIn _ _) rfl)
  have hd3 : d3.Shaped := hd2.frame (Dev.feedAdopt_onlyIn _) rfl
  have hd4 : d4.Shaped := .frame (Dev.feedOwn_onlyIn _ _) rfl (hd3.frame (Dev.feedOwn_onlyIn _ _) rfl)
  have hd5 : d5.Shaped := .ite hd4.feedJudge.feedJudge hd4
  have hd6 : d6.Shaped := hd5.frame (Dev.feedPlainOff_onlyIn _) rfl
  have hd7 : d7.Shaped := hd6.updXfer
  exact .frame (Dev.noFeedTick_onlyIn _) rfl (.frame (Dev.feedUv_onlyIn _ _) rfl (hd7.frame (Dev.feedUv_onlyIn _ _) rfl))

theorem hsFault {r bit : Nat} (h : d.Shaped) : (d.hsFault r bit).Shaped := h.updHs.tripRailBy

theorem hsTrip {r bit : Nat} (h : d.Shaped) : (d.hsTrip r bit).Shaped := h.updHs.hsFault

theorem hsTick {r : Nat} (h : d.Shaped) : (d.hsTick r).Shaped := by
  unfold Dev.hsTick
  extract_lets ir lim j x d1 gate d2 h1
  have hd1 : d1.Shaped := .ite h.railOn h
  have hd2 : d2.Shaped := hd1.updHs
  exact .ite hd2 (.ite hd2.hsTrip (.ite hd2.hsTrip hd2))

theorem takeSwitches (h : d.Shaped) : d.takeSwitches.Shaped := .ite (h.put (hs := List.length_map ..)) h

theorem judgeSwitches (h : d.Shaped) : d.judgeSwitches.Shaped :=
  h.feedJudge.feedJudge.foldN fun _ _ h => .ite h.hsTrip (.ite h.hsTrip h)

theorem applyHsGate {r : Nat} {c : Bool} (h : d.Shaped) : (d.applyHsGate r c).Shaped := h.updHs

theorem latchSwitches {i : TickIn} (h : d.Shaped) : (d.latchSwitches i).Shaped := h.put (hs := by simp [Dev.latchSwitches])

/-! ### The battery modules -/

theorem bbuPut {m : Nat} {x : BbuRec} (h : d.Shaped) : (d.bbuPut m x).Shaped := h.updBbu.ringPut

theorem bbuStore {m : Nat} (h : d.Shaped) : (d.bbuStore m).Shaped := h.bbuPut

theorem learnDq {m code : Nat} (h : d.Shaped) : (d.learnDq m code).Shaped := .ite h.updBbu.occur.bbuStore h

theorem learnDone {m : Nat} (h : d.Shaped) : (d.learnDone m).Shaped := by
  unfold Dev.learnDone
  refine .ite h (.ite h.learnDq (.ite h.learnDq ?_))
  extract_lets d1 d2
  have hd1 : d1.Shaped := h.updBbu
  have hd2 : d2.Shaped := hd1.occur
  exact .ite hd2.updBbu hd2.bbuStore

theorem bbuStart {m : Nat} (h : d.Shaped) : (d.bbuStart m).Shaped := h.updBbu

theorem bbuIdentify {m : Nat} {fresh : Bool} (h : d.Shaped) : (d.bbuIdentify m fresh).Shaped := by
  unfold Dev.bbuIdentify
  extract_lets id rated n
  split
  · extract_lets d1
    have hd1 : d1.Shaped := h.updBbu
    exact .ite hd1.occur.bbuStore hd1
  · exact h.updBbu.bbuStore

theorem bbuRemove {m : Nat} (h : d.Shaped) : (d.bbuRemove m).Shaped := h.learnDq.updBbu.occur

theorem accModule {m : Nat} (h : d.Shaped) : (d.accModule m).Shaped := .ite h h.updBbu

theorem accTick {fired : Bool} (h : d.Shaped) : (d.accTick fired).Shaped :=
  h.foldN fun _ _ h => .updBbu (.ite h.accModule (.ite h.updBbu h))

theorem bbuSupv (h : d.Shaped) : d.bbuSupv.Shaped := h.foldN fun _ _ h => h.updBbu

theorem battTick (h : d.Shaped) : d.battTick.Shaped := h.updLed

theorem auxDone {a : Nat} (h : d.Shaped) : (d.auxDone a).Shaped := by
  unfold Dev.auxDone
  refine h.foldN fun d m h => ?_
  extract_lets x cfg v cut ok d1 here d2 code ok1 code1 d3 d4 fresh
  have hd1 : d1.Shaped := .ite h.updBbu h
  have hd2 : d2.Shaped := .ite hd1.updBbu hd1
  have hd3 : d3.Shaped := hd2.updBbu
  have hd4 : d4.Shaped := .ite hd3.occur hd3
  exact .ite (.ite hd4.updBbu.bbuIdentify hd4) hd2

theorem bbuMeans {m : Nat} (h : d.Shaped) : (d.bbuMeans m).Shaped := by
  unfold Dev.bbuMeans
  extract_lets b avg dead d1 i c out rest d2
  have hd1 : d1.Shaped := h.updBbu
  have hd2 : d2.Shaped := hd1.updBbu
  exact .ite hd1 (.ite hd2.learnDq hd2)

theorem bbuTemp {m : Nat} (h : d.Shaped) : (d.bbuTemp m).Shaped := by
  unfold Dev.bbuTemp
  extract_lets x ok cfg t new d1 d2
  have hd1 : d1.Shaped := .ite h.occur h
  have hd2 : d2.Shaped := hd1.updBbu
  exact .ite hd2.learnDq hd2

theorem bbuAnchor {m : Nat} (h : d.Shaped) : (d.bbuAnchor m).Shaped := .ite h.learnDone.updBbu (.ite h.updBbu.bbuStore h)

theorem bbuCharge {m : Nat} (h : d.Shaped) : (d.bbuCharge m).Shaped := .updBbu (.ite h.occur h)

theorem bbuAllow {m : Nat} (h : d.Shaped) : (d.bbuAllow m).Shaped := h.updBbu

theorem bbuTerm {m : Nat} (h : d.Shaped) : (d.bbuTerm m).Shaped := h.updBbu

theorem bbuRatedFrond {m : Nat} (h : d.Shaped) : (d.bbuRatedFrond m).Shaped := .ite h.updBbu h

theorem bbuFrond (h : d.Shaped) : d.bbuFrond.Shaped := by
  unfold Dev.bbuFrond
  refine h.foldN fun d m h => ?_
  extract_lets rated
  have hrated : rated.Shaped := h.bbuRatedFrond
  have hmeans : (rated.bbuMeans m).Shaped := hrated.bbuMeans
  exact .ite hrated.updBbu (.ite hrated.updBbu
    (hmeans.bbuTemp.bbuTerm.bbuAnchor.bbuCharge.bbuAllow.frame (Dev.bbuClassFrond_onlyIn _ _) rfl))

theorem bbuFlush (h : d.Shaped) : d.bbuFlush.Shaped := h.foldN fun _ _ h => h.updBbu.foldl fun _ _ h => .ite h.bbuStore h.bbuPut

/-! ### The DMA channels -/

theorem chError {c code : Nat} (h : d.Shaped) : (d.chError c code).Shaped := h.updDma.occurC

theorem writeBack {c code moved : Nat} (h : d.Shaped) : (d.writeBack c code moved).Shaped := by
  unfold Dev.writeBack
  extract_lets h1 a st d1 d2
  have hd1 : d1.Shaped := h.putSram
  have hd2 : d2.Shaped := hd1.updDma
  exact .ite hd2.occurC hd2

theorem enOff {c : Nat} (h : d.Shaped) : (d.enOff c).Shaped := .updDma (h.frame (Dev.setFld_onlyIn _ _ _ _ _ _) rfl)

theorem endDesc {c code : Nat} (h : d.Shaped) : (d.endDesc c code).Shaped := by
  unfold Dev.endDesc
  extract_lets h1 d1
  have hd1 : d1.Shaped := h.writeBack
  exact .ite (.ite hd1.updDma.enOff hd1.updDma) (.ite hd1.updDma hd1.chError)

theorem chFetch {c : Nat} (h : d.Shaped) : (d.chFetch c).Shaped := by
  unfold Dev.chFetch
  refine .ite h.updDma ?_
  extract_lets code d'
  have hd' : d'.Shaped := h.updDma
  exact .ite hd' hd'.endDesc

theorem moveByte {c : Nat} (h : d.Shaped) : (d.moveByte c).Shaped := by
  unfold Dev.moveByte
  extract_lets h1 s fresh l t b rest rest1 d1 x d2
  have hd1 : d1.Shaped := h.putSram
  have hd2 : d2.Shaped := .ite hd1.putTwin hd1
  exact hd2.updDma

theorem moveBytes {c n : Nat} (h : d.Shaped) : (d.moveBytes c n).Shaped := h.foldN fun _ _ h => h.moveByte

theorem reqFalls {q cycle : Nat} (h : d.Shaped) : (d.reqFalls q cycle).Shaped := h.foldN fun _ _ h => .ite h.updDma h

theorem rxFalls {cycle : Nat} (h : d.Shaped) : (d.rxFalls cycle).Shaped := .ite h.reqFalls h

theorem chBurst {c : Nat} {e : SlotEntry} (h : d.Shaped) : (d.chBurst c e).Shaped := by
  unfold Dev.chBurst
  refine .ite h.updDma ?_
  extract_lets ends d1 x d2
  have hd1 : d1.Shaped := h.updDma.moveBytes
  have hd2 : d2.Shaped := hd1.putCap
  exact .ite hd1 (.ite hd2.updDma.reqFalls.endDesc hd1.endDesc)

theorem chFlush {c : Nat} (h : d.Shaped) : (d.chFlush c).Shaped := h.moveBytes.updDma

theorem chPauseOn {c : Nat} (h : d.Shaped) : (d.chPauseOn c).Shaped := h.updDma

theorem chPauseOff {c : Nat} (h : d.Shaped) : (d.chPauseOff c).Shaped := h.updDma

theorem chStartUp {c : Nat} (h : d.Shaped) : (d.chStartUp c).Shaped := by
  unfold Dev.chStartUp
  extract_lets head d1
  have hd1 : d1.Shaped := h.updDma
  exact .ite hd1 (.ite hd1.updDma hd1.chError)

theorem chStop {c : Nat} (h : d.Shaped) : (d.chStop c).Shaped := h.updDma.updDma

theorem chFire {c : Nat} {e : SlotEntry} (h : d.Shaped) : (d.chFire c e).Shaped := by
  unfold Dev.chFire
  refine .ite h ?_
  extract_lets fired hit fetched
  have hfired : fired.Shaped := h.updDma
  have hhit : (hit fired).Shaped := hfired.updDma
  have hfetched : fetched.Shaped := hhit.chFetch
  exact .ite hfired (.ite (.ite hhit.endDesc hhit.chFlush) (.ite hhit (.ite hhit.chFlush (.ite hhit.chBurst
    (.ite hfetched.chBurst hfetched)))))

theorem dmaFrond (h : d.Shaped) : d.dmaFrond.Shaped := by
  unfold Dev.dmaFrond
  refine h.foldN fun d c h => ?_
  extract_lets h1 d1
  have hd1 : d1.Shaped := h.updDma
  exact .ite (.ite hd1.endDesc hd1.chError) hd1

theorem capCopy (h : d.Shaped) : d.capCopy.Shaped := .ite h.putCapSram.updDma h

theorem dmaTick (h : d.Shaped) : d.dmaTick.Shaped := by
  unfold Dev.dmaTick
  extract_lets d1
  have hd1 : d1.Shaped := h.capCopy
  refine hd1.foldN fun d c h => ?_
  extract_lets en pa d2 d3
  have hd2 : d2.Shaped := h.updDma
  have hd3 : d3.Shaped := .ite hd2.chStartUp (.ite hd2.chStop hd2)
  exact .ite hd3.chPauseOn (.ite hd3.chPauseOff hd3)

/-! ### Admission of steps -/

theorem requestFrame {n : Nat} {f : StepFrame} {codeOk aligned late : Bool} (h : d.Shaped) :
    (d.requestFrame n f codeOk aligned late).Shaped := by
  unfold Dev.requestFrame
  refine .ite (.ite h.updPort.occur h) (.ite ?_ h.updPort.occur)
  extract_lets p d1
  have hd1 : d1.Shaped := h.updPort
  exact .ite hd1.occur hd1

theorem reply {n : Nat} {f : StepFrame} {x : Decision} (h : d.Shaped) : (d.reply n f x).Shaped := h.updPort

theorem place {i kind m : Nat} {neg : Bool} {c o : Nat} (h : d.Shaped) : (d.place i kind m neg c o).Shaped := by
  unfold Dev.place
  extract_lets r s dP q add d1 d2 d3
  have hd1 : d1.Shaped := h.putFf
  have hd2 : d2.Shaped := hd1.updLed
  have hd3 : d3.Shaped := hd2.updLoad
  exact .ite hd3.cancelShed hd3

theorem record {i : Nat} {f : StepFrame} {x : Decision} {mag : Nat} (h : d.Shaped) : (d.record i f x mag).Shaped := by
  unfold Dev.record
  extract_lets d1 d2
  have hd1 : d1.Shaped := h.updLed
  have hd2 : d2.Shaped := hd1.updLoad
  exact .ite hd2 hd2.journalGrant

theorem noStep {i : Nat} (h : d.Shaped) : (d.noStep i).Shaped := h.updLoad

theorem finish {n i : Nat} {f : StepFrame} {x : Decision} (h : d.Shaped) : (d.finish n i f x).Shaped := h.record.reply

theorem denyReq {n i : Nat} {f : StepFrame} {dec : Nat} (h : d.Shaped) : (d.denyReq n i f dec).Shaped := h.noStep.finish

theorem decideRelease {n i : Nat} {f : StepFrame} (h : d.Shaped) : (d.decideRelease n i f).Shaped := h.updLoad.place.finish

theorem decideDown {n i : Nat} {f : StepFrame} (h : d.Shaped) : (d.decideDown n i f).Shaped := by
  unfold Dev.decideDown
  refine .ite h.denyReq ?_
  split
  · exact h.place.finish
  · exact h.occur.place.finish

theorem decideAnnounce {n i : Nat} {f : StepFrame} (h : d.Shaped) : (d.decideAnnounce n i f).Shaped :=
  .ite h.denyReq (.ite h.denyReq (.ite h.denyReq h.noStep.updLoad.updLed.finish))

theorem decideUp {n i : Nat} {f : StepFrame} (h : d.Shaped) : (d.decideUp n i f).Shaped := by
  unfold Dev.decideUp
  refine .ite h.denyReq (.ite h.denyReq (.ite h.denyReq ?_))
  extract_lets c o0 give m'
  split
  · exact h.updLoad.place.finish
  · exact .ite h.denyReq (.ite h.denyReq h.updLoad.place.finish)

theorem unplace {i s : Nat} (h : d.Shaped) : (d.unplace i s).Shaped := h.updLed.updLoad

theorem placeAgain {n i : Nat} {f : StepFrame} {kind m c dec mag : Nat} {neg : Bool} (h : d.Shaped) :
    (d.placeAgain n i f kind m c dec mag neg).Shaped := by
  unfold Dev.placeAgain
  extract_lets r again withdraw o0
  have hagain : ∀ d o, d.Shaped → (again d o).Shaped := fun _ _ h => .reply (.ite h.place h.place.journalGrant)
  have hwithdraw : ∀ d, d.Shaped → (withdraw d).Shaped := fun _ h => .reply (.ite h.updLoad h.updLoad.journalGrant)
  clear_value again withdraw
  refine .ite (.ite (hwithdraw _ h) ?_) (.ite (hagain _ _ h) ?_)
  · split
    · exact hagain _ _ h
    · exact hagain _ _ h.occur
  · split
    · exact hagain _ _ h
    · exact hwithdraw _ h

theorem takeBack {i s : Nat} (h : d.Shaped) : (d.takeBack i s).Shaped := by
  unfold Dev.takeBack
  split
  · exact .ite h (.ite h.updLoad (.ite h.updLoad h))
  · exact h

theorem duplicate {n i : Nat} {f : StepFrame} (h : d.Shaped) : (d.duplicate n i f).Shaped := by
  unfold Dev.duplicate
  refine .ite (.reply (h.put)) ?_
  extract_lets d1
  have hd1 : d1.Shaped := h.updLed
  split
  · exact hd1.reply
  · exact .ite hd1.reply hd1.takeBack.unplace.placeAgain

theorem seen {n i : Nat} (h : d.Shaped) : (d.seen n i).Shaped := h.updPort.updLoad

theorem nudgeTick (h : d.Shaped) : d.nudgeTick.Shaped := .ite h.updLed h

theorem admitEnd (h : d.Shaped) : d.admitEnd.Shaped := .ite h.nudgeTick h

theorem heartbeatCount {n i : Nat} {f : StepFrame} (h : d.Shaped) : (d.heartbeatCount n i f).Shaped := by
  unfold Dev.heartbeatCount
  refine .ite ?_ h
  extract_lets lim c d'
  have hd' : d'.Shaped := h.updPort
  exact .capRaise (.ite hd'.occur hd')

theorem decideHeartbeat {n i : Nat} {f : StepFrame} (h : d.Shaped) : (d.decideHeartbeat n i f).Shaped :=
  h.heartbeatCount.updLed.reply

theorem request {n : Nat} {f : StepFrame} {cmp : Bool} {g : Dev → Nat → StepFrame → Dev} (h : d.Shaped)
    (hg : ∀ d i f, d.Shaped → (g d i f).Shaped) : (d.request n f cmp g).Shaped := by
  unfold Dev.request
  extract_lets i ok freed known e dist decided
  have hfreed : freed.Shaped := h.updPort
  have hknown : known.Shaped := .ite hfreed.seen hfreed
  have hdecided : decided.Shaped :=
    .ite hknown.updPort.occur (.ite hknown.updLed.occur.reply (.ite (hg _ _ _ hknown)
      (.ite hknown.duplicate hknown.updLed.occur.reply)))
  exact hdecided.admitEnd

theorem decideReq {n : Nat} {f : StepFrame} (h : d.Shaped) : (d.decideReq n f).Shaped :=
  .ite (h.request fun _ _ _ h => h.decideDown) (.ite (h.request fun _ _ _ h => h.decideAnnounce)
    (.ite (h.request fun _ _ _ h => h.decideRelease) (.ite (h.request fun _ _ _ h => h.decideHeartbeat)
      (h.request fun _ _ _ h => h.decideUp))))

theorem admitCmd {n kind : Nat} (h : d.Shaped) : (d.admitCmd n kind).Shaped := by
  unfold Dev.admitCmd
  split
  · exact h.decideReq
  · exact h

theorem settleRequests (h : d.Shaped) : d.settleRequests.Shaped := by
  unfold Dev.settleRequests
  refine .ite (h.foldl fun d n h => ?_) h
  split
  · exact h.decideReq
  · exact h

theorem allocTick (h : d.Shaped) : d.allocTick.Shaped := .updLed (h.foldl fun _ _ h => h.updLoad)

theorem pruneSteps (h : d.Shaped) : d.pruneSteps.Shaped := h.updLed

theorem ledgerFire (h : d.Shaped) : d.ledgerFire.Shaped := h.pruneSteps.allocTick.updLed.limitTick.learnTick.ffTick.updLed

theorem admitFire (h : d.Shaped) : d.admitFire.Shaped := h.updLed.admitEnd

theorem admNewTick (h : d.Shaped) : d.admNewTick.Shaped := h.put (ports := List.length_map ..)

theorem ledgerCurrents (h : d.Shaped) : d.ledgerCurrents.Shaped := h.updLed

theorem noAdmit (h : d.Shaped) : d.noAdmit.Shaped := .ite (.putAdm h.occur (List.length_map ..)) h

theorem admFrond (h : d.Shaped) : d.admFrond.Shaped := .learnFrond (.updLed (h.foldN fun _ _ h => h.updPort))

/-! ### The thermal stages -/

theorem twinShut {t : Twin} (h : d.Shaped) : (d.twinShut t).Shaped := by
  unfold Dev.twinShut
  refine .ite ?_ h
  extract_lets o d1
  have hd1 : d1.Shaped := h.occurC.updTherm
  exact .ite (hd1.frame (Dev.twinOut_onlyIn _ _ _) rfl) hd1.enterSafe

theorem dieChecks (h : d.Shaped) : d.dieChecks.Shaped := by
  unfold Dev.dieChecks
  extract_lets ds rate hi warn all outside within d1 d2 d3 d4
  have hd1 : d1.Shaped := .ite h.occur h
  have hd2 : d2.Shaped := .ite hd1.occur hd1
  have hd3 : d3.Shaped := .ite hd2.occur hd2
  have hd4 : d4.Shaped := hd3.updTherm
  exact hd4.twinShut.twinShut

theorem intmonDone {i : Nat} (h : d.Shaped) : (d.intmonDone i).Shaped := by
  unfold Dev.intmonDone
  refine .ite h ?_
  extract_lets v d1
  have hd1 : d1.Shaped := h.updTherm
  exact .ite hd1.enterSafe hd1

theorem stageTick {n : Nat} (h : d.Shaped) : (d.stageTick n).Shaped := by
  unfold Dev.stageTick
  extract_lets x d1
  have hd1 : d1.Shaped := h.updUnit.updTherm
  split
  · exact hd1
  · extract_lets hot d2 d3
    have hd2 : d2.Shaped := .ite hd1.occur hd1
    have hd3 : d3.Shaped := hd2.updTherm
    exact .ite hd3.occur.updTherm.faultUnit hd3

theorem thermTick (h : d.Shaped) : d.thermTick.Shaped := .foldN (h.frame (Dev.condMark_onlyIn _) rfl) fun _ _ h => h.stageTick

theorem thermLedger (h : d.Shaped) : d.thermLedger.Shaped := h.updLed

theorem boardFrond (h : d.Shaped) : d.boardFrond.Shaped := by
  unfold Dev.boardFrond
  extract_lets rs vals warn shut newShut d1 d2
  have hd1 : d1.Shaped := .ite h.occur h
  have hd2 : d2.Shaped := hd1.updTherm
  exact .ite hd2.offRequest.occur hd2

theorem thermFrond {ta tb : List Int} (h : d.Shaped) : (d.thermFrond ta tb).Shaped := by
  unfold Dev.thermFrond
  extract_lets marked checked rated board none64
  have hchecks : ((d.dieSense ta tb).dieChecks).Shaped := .dieChecks (h.frame (Dev.dieSense_onlyIn _ _ _) rfl)
  have hmarked : marked.Shaped := .frame (Dev.condMark_onlyIn _) rfl (hchecks.frame (Dev.stageMeans_onlyIn _) rfl)
  have hchecked : checked.Shaped := hmarked.foldN fun _ _ h => h.frame (Dev.stageCheck_onlyIn _ _) rfl
  have hrated : rated.Shaped := hchecked.foldN fun _ _ h => h.frame (Dev.stageRates_onlyIn _ _) rfl
  exact hrated.boardFrond.updTherm

/-! ### Sensing and calibration -/

theorem updPre {c : Nat} {f : PreCh → PreCh} (h : d.Shaped) : (d.updPre c f).Shaped := h.put (pre := updAt_length ..)

theorem updRef {f : RefSt → RefSt} (h : d.Shaped) : (d.updRef f).Shaped := h.put

theorem updAux {f : AuxSeq → AuxSeq} (h : d.Shaped)
    (hf : (f d.sense.aux).inputs.length = d.sense.aux.inputs.length := by rfl) : (d.updAux f).Shaped := h.put (inputs := hf)

theorem updCal {f : CalSt → CalSt} (h : d.Shaped) : (d.updCal f).Shaped := h.put

theorem countOver {i : TickIn} (h : d.Shaped) : (d.countOver i).Shaped :=
  .foldN (h.foldN fun _ _ h => .ite h.occur.putSense h) fun _ _ h => .ite h.occur.updPre h

theorem unitSense {x : SenseWords} {n : Nat} (h : d.Shaped) : (d.unitSense x n).Shaped := by
  unfold Dev.unitSense
  refine .ite h.updUnit ?_
  extract_lets w d1
  have hd1 : d1.Shaped := h.updUnit
  exact .ite hd1.occur hd1

theorem tfltSense {x : SenseWords} {prev : BitVec 64} {n : Nat} (h : d.Shaped) : (d.tfltSense x prev n).Shaped :=
  .ite (.faultUnit (.ite h h.occur)) h

theorem preSense {x : SenseWords} {c : Nat} (h : d.Shaped) : (d.preSense x c).Shaped := .ite h h.updPre

theorem refSense {mv : Nat} (h : d.Shaped) : (d.refSense mv).Shaped := by
  unfold Dev.refSense
  extract_lets d1 x
  have hd1 : d1.Shaped := h.updRef
  exact .ite hd1 (hd1.put (pre := List.length_map ..))

theorem intTick {x : SenseWords} (h : d.Shaped) : (d.intTick x).Shaped := h.put

theorem calDiff {i : TickIn} (h : d.Shaped) : (d.calDiff i).Shaped := .ite (.ite h h.updCal) h

theorem calOpen {i : TickIn} (h : d.Shaped) : (d.calOpen i).Shaped := .ite (.ite h.updCal (.ite h.updCal h)) h

theorem newRef {sel : Nat} {fb : Bool} (h : d.Shaped) : (d.newRef sel fb).Shaped := h.updRef

theorem auxNext (h : d.Shaped) : d.auxNext.Shaped := h.updAux

theorem auxTick {w : BitVec 16} {fired : Bool} (h : d.Shaped) : (d.auxTick w fired).Shaped := by
  unfold Dev.auxTick
  extract_lets d1 e settled v
  have hd1 : d1.Shaped := .ite h.auxNext h
  exact .ite hd1 hd1.updAux

theorem oldTrims (h : d.Shaped) : d.oldTrims.Shaped := .ite h (.ite h.updPre h.updCal)

theorem calTick (h : d.Shaped) : d.calTick.Shaped := by
  unfold Dev.calTick
  refine .ite ?_ h
  extract_lets gone stop d1
  have hd1 : d1.Shaped := .ite h.oldTrims h
  exact .ite hd1.updCal hd1

theorem calBoundary (h : d.Shaped) : d.calBoundary.Shaped := h.updCal

theorem calNow {v : Nat} (h : d.Shaped) : (d.calNow v).Shaped := .ite h.updCal h

end Dev.Shaped

end Sys2Proof.Machine
end

section
/-! PROOF. What keeps the shape: the work items, the crust, spores, clears, register writes and the fabric. -/

namespace Sys2Proof.Machine

set_option Elab.async false

namespace Dev.Shaped

variable {d e : Dev}

/-! ### The work items -/

theorem journal {kind src seq : Nat} {payload : List Byte} (h : d.Shaped) : (d.journal kind src seq payload).Shaped :=
  .updJrn (h.frame (Dev.nvPut2_onlyIn _ _ _ _) rfl)

theorem updSource {id : Nat} {f : Source → Source} (h : d.Shaped) : (d.updSource id f).Shaped := by
  unfold Dev.updSource
  split
  · exact h
  · exact frame (Dev.putSource_onlyIn _ _) rfl (h.updJrn (updAt_length ..))

theorem refuseItem {code : Nat} (h : d.Shaped) : (d.refuseItem code).Shaped := by
  unfold Dev.refuseItem
  extract_lets d1
  have hd1 : d1.Shaped := h.updJrn
  exact .ite hd1.occur (.ite hd1.occur (.ite hd1.occur (.ite hd1.occur hd1)))

theorem acceptItem {src seq code : Nat} {args : List Byte} {fabric : Bool} (h : d.Shaped) :
    (d.acceptItem src seq code args fabric).1.Shaped := by
  unfold Dev.acceptItem
  exact .updSource (.updJrn (.journal (.ite (h.frame (Dev.nvPut_onlyIn _ _ _) rfl) h)))

theorem decideItem {src seq code : Nat} {args : List Byte} {fabric : Bool} (h : d.Shaped) :
    (d.decideItem src seq code args fabric).1.Shaped := by
  unfold Dev.decideItem
  extract_lets no dup
  have hno : ∀ c, (no c).1.Shaped := fun _ => h.refuseItem
  have hdup : dup.Shaped := h.updJrn
  split
  · exact hno _
  · refine .iteFst ?_ (.iteFst ?_ (.iteFst (hno _) (hno _)))
    · split
      · exact hdup
      · exact .iteFst hdup (hno _)
    · split
      · exact hno _
      · exact h.acceptItem

theorem decideOpen {src seq : Nat} {fabric : Bool} (h : d.Shaped) : (d.decideOpen src seq fabric).1.Shaped := by
  unfold Dev.decideOpen
  extract_lets no fresh
  have hno : ∀ c, (no c).1.Shaped := fun _ => h.refuseItem
  split
  · exact hno _
  · split
    · exact .iteFst h.updSource.acceptItem (hno _)
    · split
      · exact hno _
      · exact acceptItem (h.updJrn (updAt_length ..))

theorem decideAny {src seq code : Nat} {args : List Byte} {fabric : Bool} (h : d.Shaped) :
    (d.decideAny src seq code args fabric).1.Shaped := by
  unfold Dev.decideAny
  exact .iteFst h.decideOpen h.decideItem

theorem updHead {f : WorkItem → WorkItem} (h : d.Shaped) : (d.updHead f).Shaped := h.updJrn

theorem endItem {status result : Nat} (h : d.Shaped) : (d.endItem status result).Shaped := h.updHead

theorem startItem (h : d.Shaped) : d.startItem.Shaped := h.updHead

theorem execMark {w : WorkItem} (h : d.Shaped) : (d.execMark w).Shaped := .ite h h.journal.updHead

theorem setUpd {st : UpdState} (h : d.Shaped) : (d.setUpd st).Shaped := .ite h (h.updUpd.foldN fun _ _ h => .ite h.updTwT h)

theorem confirmOver (h : d.Shaped) : d.confirmOver.Shaped := h.updUpd.setUpd

theorem confirmFail {item : Nat} (h : d.Shaped) : (d.confirmFail item).Shaped := h.confirmOver.endItem

theorem crustTorn {j : CrustJob} (h : d.Shaped) : (d.crustTorn j).Shaped := by
  unfold Dev.crustTorn
  extract_lets d1
  have hd1 : d1.Shaped := h.occur.frame (Dev.crustSpent_onlyIn _ _) rfl
  exact .ite hd1.endItem (.ite hd1.confirmFail hd1)

theorem completeHead (h : d.Shaped) : d.completeHead.Shaped := by
  unfold Dev.completeHead
  refine .ite h ?_
  split
  · exact h
  · split
    · exact h
    · extract_lets st d1 d2 d3 d4 port
      have hd1 : d1.Shaped := h.frame (Dev.nvPut_onlyIn _ _ _) rfl
      have hd2 : d2.Shaped := hd1.updJrn
      have hd3 : d3.Shaped := hd2.updSource
      have hd4 : d4.Shaped := .ite hd3.occur hd3
      exact .ite hd4.updTwT hd4

theorem moveCompRd {v : Nat} (h : d.Shaped) : (d.moveCompRd v).Shaped := .ite h.updJrn h

/-! ### The phase array -/

theorem forgetStages {g : Region} (h : d.Shaped) : (d.forgetStages g).Shaped := h.foldN fun _ _ h => .ite h.updUnit.putTherm h

theorem setRegion {g : Region} {v : Bool} (h : d.Shaped) : (d.setRegion g v).Shaped := by
  unfold Dev.setRegion
  extract_lets d1 x x1
  have hd1 : d1.Shaped := .ite h.forgetStages h
  split
  · exact hd1.putDie
  · exact hd1.putDieXfer

theorem loseRegion {g : Region} (h : d.Shaped) : (d.loseRegion g).Shaped := .ite h.setRegion.occur.loseClusters h

theorem metRestart (h : d.Shaped) : d.metRestart.Shaped := h.put (pre := List.length_map ..)

/-! ### The row -/

theorem setRow (h : d.Shaped) : d.setRow.Shaped := h.updLed

theorem applyShare {v e : Nat} (h : d.Shaped) : (d.applyShare v e).Shaped := h.updMie.setRow

theorem decayStep {cause : Nat} {excl : Bool} (h : d.Shaped) : (d.decayStep cause excl).Shaped := h.updMie.setRow

theorem actOnPub {e : Nat} {late : Bool} (h : d.Shaped) : (d.actOnPub e late).Shaped := by
  unfold Dev.actOnPub
  refine .ite (.ite h.updMie h.decayStep) ?_
  split
  · exact .ite h (.occur (.ite h.updMie h.decayStep))
  · refine .ite (.ite h.updMie h.decayStep) (.ite (.ite h.updMie.updMie h.updMie.decayStep)
      (.ite (.ite h.updMie h.decayStep) ?_))
    extract_lets d1
    have hd1 : d1.Shaped := h.updMie
    exact .ite (.ite hd1.updMie hd1.applyShare) hd1.updMie

theorem takeEntry {src epoch ver compat v : Nat} (h : d.Shaped) : (d.takeEntry src epoch ver compat v).Shaped := by
  unfold Dev.takeEntry
  refine .ite h ?_
  extract_lets by' p p' d1 d2 d3
  have hd1 : d1.Shaped := h.frame (Dev.putPub_onlyIn _ _) rfl
  have hd2 : d2.Shaped := .ite hd1.occur hd1
  have hd3 : d3.Shaped := .ite hd2.occur hd2
  exact .ite hd3.actOnPub hd3

theorem takeBudget {f : MFrame} (h : d.Shaped) : (d.takeBudget f).Shaped := by
  unfold Dev.takeBudget
  extract_lets g part n d1
  have hd1 : d1.Shaped := h.updMie
  exact .ite hd1.takeEntry hd1

theorem rowFrond (h : d.Shaped) : d.rowFrond.Shaped := by
  unfold Dev.rowFrond
  extract_lets d1 d2
  have hd1 : d1.Shaped := h.updMie
  have hd2 : d2.Shaped := by
    dsimp only [d2]
    split
    · exact hd1.applyShare
    · exact hd1
  exact hd2.setRow

theorem newEpoch (h : d.Shaped) : d.newEpoch.Shaped := by
  unfold Dev.newEpoch
  extract_lets src changed x d1 d2 d3 d4 d5
  have hd1 : d1.Shaped := h.putTime
  have hd2 : d2.Shaped := hd1.updMie
  have hd3 : d3.Shaped := .ite hd2.occur hd2
  have hd4 : d4.Shaped := .ite hd3.updMie.setRow hd3.actOnPub
  have hd5 : d5.Shaped := hd4.updMie
  exact .updMie (hd5.frame (Dev.sendAdvert_onlyIn _) rfl)

/-! ### Supervision -/

theorem pbFrond (h : d.Shaped) : d.pbFrond.Shaped := by
  refine h.updFh ?_
  dsimp only
  repeat' split
  all_goals rfl

theorem assertReset {cause : Nat} (h : d.Shaped) : (d.assertReset cause).Shaped := h.updFh.updSup.putDie

theorem crustTear (h : d.Shaped) : d.crustTear.Shaped := by
  unfold Dev.crustTear
  split
  · exact h
  · exact h.putCrust.crustTorn

theorem loseCoreS (h : d.Shaped) : d.loseCoreS.Shaped := h.updSup.enterSafe.assertReset

theorem vanaLoss {g : Region} (h : d.Shaped) : (d.vanaLoss g).Shaped := by
  unfold Dev.vanaLoss
  refine .loseRegion ?_
  split
  · exact h.updSup.putTime
  · exact h.updSup.putTime

theorem vanaBack {g : Region} (h : d.Shaped) : (d.vanaBack g).Shaped := by
  unfold Dev.vanaBack
  refine .ite (.when (.setRegion ?_) fun _ h => h.metRestart) ?_
  · split
    · exact h.updSup.putTime
    · exact h.updSup.putTime
  · split
    · exact h.updSup.putTime
    · exact h.updSup.putTime

theorem regionFrond (h : d.Shaped) : d.regionFrond.Shaped := by
  unfold Dev.regionFrond
  extract_lets x d1 x1 x2 d2 x3 x4
  have hd1 : d1.Shaped := h.putTime
  have hx1 : x1.Shaped := hd1.setRegion.metRestart
  have hd2 : d2.Shaped := .ite hx1.putTime hd1
  have hx3 : x3.Shaped := hd2.setRegion
  exact .ite hx3.putTime hd2

/-! ### The CRUST -/

theorem crustEnd {r : Nat} (h : d.Shaped) : (d.crustEnd r).Shaped := .ite h.endItem h.occurC.endItem

theorem confirmNext {src : Nat} {l : List SporeSection} (h : d.Shaped) : (d.confirmNext src l).Shaped := by
  induction l generalizing d with
  | nil => exact h.confirmOver.occur.endItem
  | cons x rest ih =>
    exact .ite (ih h) (.ite h.occurC.confirmFail (.ite h.updUpd (h.updUpd.frame (Dev.crustStart_onlyIn _ _ _ _ _) rfl)))

/-! ### The commit -/

theorem applyMembers {old : Dev} (h : d.Shaped) : (old.applyMembers d).Shaped :=
  h.foldN fun _ _ h => .ite h (.ite h.updUnit h.updUnit)

theorem applyBlkEn {old : Dev} (h : d.Shaped) : (old.applyBlkEn d).Shaped :=
  h.foldN fun _ _ h => .ite h.railOffReq.memberRefused h

theorem applyGrants {old : Dev} (h : d.Shaped) : (old.applyGrants d).Shaped := h.foldN fun _ _ h => .ite h.updLoad h

theorem applyTable (h : d.Shaped) : d.applyTable.Shaped := h.foldN fun _ _ h => .ite h.updMbr (.ite h.updMbr h)

theorem auxRestart (h : d.Shaped) : d.auxRestart.Shaped := h.updAux

theorem metChanged {old : Dev} (h : d.Shaped) : (old.metChanged d).Shaped := h.foldN fun _ _ h => .ite h.updPre h

theorem commitEffects {old : Dev} {ch : Changes} {pages : List Nat} (h : d.Shaped) :
    (old.commitEffects ch pages d).Shaped := by
  unfold Dev.commitEffects
  extract_lets changed joined enabled granted tabled settled seq met
  have hchanged : changed.Shaped := h.frame (Dev.applyChanges_onlyIn _ _) rfl
  have henabled : enabled.Shaped := hchanged.applyMembers.applyBlkEn
  have hgranted : granted.Shaped := .ite henabled.applyGrants henabled
  have htabled : tabled.Shaped := .ite hgranted.applyTable hgranted
  have hsettled : settled.Shaped := .ite htabled.newRef htabled
  have hseq : seq.Shaped := .ite hsettled.auxRestart hsettled
  have hmet : met.Shaped := hseq.metChanged
  exact .ite (hmet.frame (Dev.injCommit_onlyIn _) rfl) hmet

theorem commitFrond (h : d.Shaped) : d.commitFrond.Shaped := by
  unfold Dev.commitFrond
  extract_lets swap due sampled
  have hchecked : (d.checkAll sampled).1.Shaped := h.frame (Dev.checkAll_onlyIn _ _) rfl
  split
  rename_i d1 ch heq
  rw [heq] at hchecked
  extract_lets effected coeffs gone
  have heffected : effected.Shaped := hchecked.commitEffects
  have hcoeffs : coeffs.Shaped :=
    .ite heffected (heffected.foldl fun _ _ h => h.frame (Dev.commitCoeffs_onlyIn _ _ _) rfl)
  exact hcoeffs.putRegs

/-! ### Spores and activation -/

theorem sessionEnd (h : d.Shaped) : d.sessionEnd.Shaped := h.updUpd.setUpd

theorem sessionStart {src total : Nat} (h : d.Shaped) : (d.sessionStart src total).Shaped := h.updUpd.setUpd.endItem

theorem commitDone {ss : List SporeSection} (h : d.Shaped) : (d.commitDone ss).Shaped := by
  unfold Dev.commitDone
  refine .setUpd (.updUpd ?_)
  split
  · exact h.frame (Dev.setWrite_onlyIn _ _ _) rfl
  · exact h.frame (Dev.setBankPut_onlyIn _ _ _) rfl

theorem commitFailed {r : Nat} (h : d.Shaped) : (d.commitFailed r).Shaped := by
  unfold Dev.commitFailed
  extract_lets d1 d2 d3
  have hd1 : d1.Shaped := h.updUpd
  have hd2 : d2.Shaped := .ite hd1 hd1.setUpd
  have hd3 : d3.Shaped := .ite hd2 hd2.occur
  exact hd3.endItem

theorem applySettings (h : d.Shaped) : d.applySettings.Shaped := by
  unfold Dev.applySettings
  exact commitEffects (h.frame (Dev.checkAll_onlyIn _ _) rfl)

theorem switchOver (h : d.Shaped) : d.switchOver.Shaped := h.updUpd.applySettings

theorem switchNew (h : d.Shaped) : d.switchNew.Shaped := h.switchOver.updUpd.setUpd

theorem switchOld (h : d.Shaped) : d.switchOld.Shaped := h.switchOver.updUpd.setUpd

theorem pauseEnd (h : d.Shaped) : d.pauseEnd.Shaped := by
  unfold Dev.pauseEnd
  extract_lets d1 d2 d3 d4
  have hd1 : d1.Shaped := h.updUpd
  have hd2 : d2.Shaped := hd1.occur
  have hd3 : d3.Shaped := hd1.occurC.updUpd
  have hd4 : d4.Shaped := hd3.foldN fun _ _ h => .ite h.updTwT h
  exact .ite (.ite hd2.endItem hd2) (.ite hd4.endItem hd4)

theorem rollStart {g cause : Nat} (h : d.Shaped) : (d.rollStart g cause).Shaped := by
  unfold Dev.rollStart
  extract_lets d1
  have hd1 : d1.Shaped := h.updUpd.setUpd
  exact .ite (hd1.frame (Dev.armSwap_onlyIn _ _) rfl) hd1

/-! ### Clears of status and counters -/

theorem unitBack {n : Nat} (h : d.Shaped) : (d.unitBack n).Shaped := .ite h.updUnit h

theorem afterClear {pg cleared : Nat} (h : d.Shaped) : (d.afterClear pg cleared).Shaped := by
  have himon : ({ d with units := d.units.map fun u => { u with imonInv := false } } : Dev).Shaped :=
    h.put (units := List.length_map ..)
  exact .ite (.ite h.unitBack h) (.ite (.ite h.updRail h) (.ite (.ite (himon.foldN fun _ _ h => h.unitBack) h)
    (.ite (.ite h.putFeedAFeedB h) (.ite (.ite h.updTherm h) h))))

theorem clearNow {pg mask newOcc : Nat} (h : d.Shaped) : (d.clearNow pg mask newOcc).Shaped := h.updStat.afterClear

theorem clearRequest {pg mask : Nat} {cmd : Bool} (h : d.Shaped) : (d.clearRequest pg mask cmd).Shaped :=
  .ite h.updStat h.clearNow

theorem clearDue {pg : Nat} {p : PendClear} (h : d.Shaped) : (d.clearDue pg p).Shaped := by
  unfold Dev.clearDue
  extract_lets bad d1
  have hd1 : d1.Shaped := h.clearNow
  exact .ite hd1.endItem hd1

theorem clearFrond (h : d.Shaped) : d.clearFrond.Shaped := h.putStat.foldl fun _ _ h => h.clearDue

theorem statusWrite {pg mask : Nat} (h : d.Shaped) : (d.statusWrite pg mask).Shaped := .ite h h.clearRequest

theorem of_ite_eq_some {c : Prop} [Decidable c] {o p : Option (Dev → Dev)} (ho : ∀ f, o = some f → (f d).Shaped)
    (hp : ∀ f, p = some f → (f d).Shaped) : ∀ f, (if c then o else p) = some f → (f d).Shaped := by
  split
  · exact ho
  · exact hp

/-- A clear of a count, whichever it names. -/
theorem clearCount {pg off : Nat} {f : Dev → Dev} (h : d.Shaped) (hf : clearCount pg off = some f) : (f d).Shaped := by
  revert f
  unfold Machine.clearCount
  repeat' with_reducible apply of_ite_eq_some
  all_goals rintro f ⟨⟩
  all_goals
    exact h.put (units := by simp) (hs := by simp) (twT := by simp) (twC := by simp) (dma := by simp)
      (ports := by simp [Dev.updPort]) (pre := by simp [Dev.updPre])

theorem counterFrond (h : d.Shaped) : d.counterFrond.Shaped := by
  refine .ite ?_ h
  split
  · exact h
  · split
    · exact h.endItem
    · exact (h.clearCount ‹_›).endItem

theorem rolesFrond {hbA hbB : Bool} (h : d.Shaped) : (d.rolesFrond hbA hbB).Shaped := by
  unfold Dev.rolesFrond
  extract_lets ok d1
  have hd1 : d1.Shaped := h.frame (Dev.twinFrond_onlyIn _ _ _) rfl
  exact .ite (.ite hd1.endItem hd1.endItem) hd1

theorem standbyFrond (h : d.Shaped) : d.standbyFrond.Shaped := by
  unfold Dev.standbyFrond
  refine .ite ?_ h
  extract_lets d1 x d2
  have hd1 : d1.Shaped := h.updSup.outputsOff
  have hd2 : d2.Shaped := hd1.putTime
  exact .ite hd2.updFeed.updFeed hd2

/-! ### Register writes -/

theorem stageClear {lo mask : Nat} (h : d.Shaped) : (d.stageClear lo mask).Shaped :=
  h.foldN fun _ _ h => .ite h (.ite h.updStat h.updTherm.unitBack)

theorem commonWrite {p : Sys2Proof.Path} {pg off v : Nat} {r : RegRow} (h : d.Shaped) :
    (d.commonWrite p pg off v r).Shaped := by
  have hplain : ((d.plainWrite pg off v r.rw).shadowWrite pg off v r.rws).Shaped :=
    .frame (Dev.shadowWrite_onlyIn _ _ _ _ _) rfl (h.frame (Dev.plainWrite_onlyIn _ _ _ _ _) rfl)
  exact .ite h.statusWrite
    (.ite (h.frame (Dev.occurMask_onlyIn _ _ _) rfl)
    (.ite (.ite (h.frame (Dev.clearRefusedOff_onlyIn _ _) rfl) h)
    (.ite (h.frame (Dev.lockWrite_onlyIn _ _ _ _) rfl)
    (.ite (.ite (h.frame (Dev.commitPage_onlyIn _ _) rfl) h) hplain))))

theorem blockWrite {p : Sys2Proof.Path} {pg off v : Nat} {r : RegRow} (h : d.Shaped) : (d.blockWrite p pg off v r).Shaped := by
  unfold Dev.blockWrite
  have hplain : (d.plainWrite pg off v r.rw).Shaped := h.frame (Dev.plainWrite_onlyIn _ _ _ _ _) rfl
  have hcap : (if bitAt v 0 then d.capArm else d).Shaped := .ite (h.frame (Dev.capArm_onlyIn _) rfl) h
  exact .ite h.calNow
    (.ite (.ite (hcap.frame (Dev.capForce_onlyIn _) rfl) hcap)
    (.ite (hplain.frame (Dev.capRdWrite_onlyIn _ _) rfl)
    (.ite h.moveCompRd (.ite h.fhClear (.ite h.stageClear (.ite h.stageClear
    (.ite (h.frame (Dev.peatTrig_onlyIn _ _) rfl)
    (.ite (hplain.frame (Dev.peatRdWrite_onlyIn _ _) rfl)
    (.ite (h.frame (Dev.fabGoWrite_onlyIn _) rfl)
    (.ite (h.frame (Dev.rowExtWrite_onlyIn _ _) rfl)
    (.ite (h.frame (Dev.timeGo_onlyIn _) rfl)
    (.ite h (.ite h
    (.ite (h.frame (Dev.chunkCtl_onlyIn _ _ _) rfl) (hplain.frame (Dev.shadowWrite_onlyIn _ _ _ _ _) rfl)))))))))))))))

/-! ### The fabric -/

theorem setTimed {src seq t : Nat} (h : d.Shaped) : (d.setTimed src seq t).Shaped := h.updJrn

theorem takeCommand {f : MFrame} (h : d.Shaped) : (d.takeCommand f).Shaped :=
  .frame (Dev.unicast_onlyIn _ _ _ _) rfl (.ite (.setTimed (.iteFst h (.iteFst h h.decideAny)))
    (.iteFst h (.iteFst h h.decideAny)))

theorem handleFrame {f : MFrame} (h : d.Shaped) : (d.handleFrame f).Shaped :=
  .ite h.takeBudget
    (.ite (h.frame (Dev.takeAdvert_onlyIn _ _) rfl)
    (.ite (h.frame (Dev.takeDigest_onlyIn _ _) rfl)
    (.ite h.takeCommand
    (.ite (h.frame (Dev.takeReply_onlyIn _ _) rfl)
    (.ite (h.frame (Dev.takeSporeChunk_onlyIn _ _) rfl)
    (.ite (h.frame (Dev.takePeatReq_onlyIn _ _) rfl) h))))))

theorem rxDrain {cls : Nat} (h : d.Shaped) : (d.rxDrain cls).Shaped :=
  .ite h (h.updMie.foldl fun _ _ h => .handleFrame (h.frame (Dev.frameCells_onlyIn _ _ _) rfl))

/-! ### The two-wire ports -/

theorem twStop {n : Nat} (h : d.Shaped) : (d.twStop n).Shaped := h.updTwT

theorem drive {n : Nat} {x : Option (List Byte)} (h : d.Shaped) : (d.drive n x).Shaped := h.updTwT

theorem twError {n : Nat} (h : d.Shaped) : (d.twError n).Shaped := h.updTwT

theorem twNack {n bit : Nat} (h : d.Shaped) : (d.twNack n bit).Shaped := h.drive.twError.occur

theorem windowStatus {n st : Nat} (h : d.Shaped) : (d.windowStatus n st).Shaped := .ite h h.updTwT.twError.occur

theorem keepReply {n st : Nat} {body : List Byte} (h : d.Shaped) : (d.keepReply n st body).Shaped := h.windowStatus.updTwT

theorem windowSeq {n tag seq code : Nat} {args : List Byte} (h : d.Shaped) : (d.windowSeq n tag seq code args).Shaped := by
  unfold Dev.windowSeq
  extract_lets d1 r
  have hd1 : d1.Shaped := h.frame (Dev.blockCells_onlyIn _ _ _ _) rfl
  have hr : r.1.Shaped := hd1.decideAny
  exact .ite hd1.keepReply hr.keepReply

theorem recvBlock {n : Nat} (h : d.Shaped) : (d.recvBlock n).Shaped := .ite h h.updTwT

theorem holdBlock {n : Nat} {b : HeldBlk} (h : d.Shaped) : (d.holdBlock n b).Shaped := h.updUpd.updTwT

theorem answer {n st : Nat} {body : List Byte} (h : d.Shaped) : (d.answer n st body).Shaped := h.drive.twStop.updTwT

theorem windowReply {n : Nat} (h : d.Shaped) : (d.windowReply n).Shaped := by
  unfold Dev.windowReply
  split
  · exact h.windowStatus.answer
  · exact .ite h.answer h.updTwT

theorem replyReady {n : Nat} (h : d.Shaped) : (d.replyReady n).Shaped := by
  unfold Dev.replyReady
  split
  · exact .ite h.answer h
  · exact h

theorem placeNudge (h : d.Shaped) : d.placeNudge.Shaped := by
  unfold Dev.placeNudge
  split
  · exact h
  · exact h.updLed.foldN fun _ _ h => .ite h (h.frame (Dev.putOut_onlyIn _ _ _) rfl)

theorem placeCharges (h : d.Shaped) : d.placeCharges.Shaped :=
  h.foldN fun _ _ h => .ite (h.updBbu.frame (Dev.putOut_onlyIn _ _ _) rfl) h

theorem pollDone {c i : Nat} {v : Option (BitVec 16)} (h : d.Shaped) : (d.pollDone c i v).Shaped := h.updTwC

theorem txDone {c : Nat} {x : TwTx} {v : BitVec 16} (h : d.Shaped) : (d.txDone c x v).Shaped := by
  unfold Dev.txDone
  extract_lets d1
  have hd1 : d1.Shaped := h.twDone
  split
  · exact .pollDone (hd1.frame (Dev.inBlock_onlyIn _ _ _) rfl)
  · exact hd1.updBbu
  · exact hd1

theorem txFailed {c : Nat} {x : TwTx} (h : d.Shaped) : (d.txFailed c x).Shaped := by
  unfold Dev.txFailed
  extract_lets a d1
  have hd1 : d1.Shaped := h.twGone
  split
  · exact hd1.pollDone
  · exact hd1.updBbu
  · exact hd1

theorem txFirst {c : Nat} {x : TwTx} {answer : TwAnswer} (h : d.Shaped) : (d.txFirst c x answer).Shaped := by
  unfold Dev.txFirst
  extract_lets told sent
  have hsent : sent.Shaped := h.updTwC
  clear_value told sent
  refine .ite hsent.txFailed ?_
  split
  · exact hsent.txDone
  · exact .updTwC (hsent.frame (Dev.txError_onlyIn _ _ _) rfl)

theorem arbLoss {n : Nat} (h : d.Shaped) : (d.arbLoss n).Shaped := .ite h.updTwT h.updTwC

theorem twFrond (h : d.Shaped) : d.twFrond.Shaped := h.put (twT := List.length_map ..) (twC := List.length_map ..)

end Dev.Shaped

end Sys2Proof.Machine
end

section
/-! PROOF. What keeps the shape: boot, the exchange with the ports, the tick and the frond's boundary. -/

namespace Sys2Proof.Machine

set_option Elab.async false

namespace Dev.Shaped

variable {d e : Dev}

/-! ### Boot and reset -/

theorem skipLost {n : Nat} (h : d.Shaped) : (d.skipLost n).Shaped := by
  induction n generalizing d with
  | zero => exact h
  | succ n ih => exact .ite (ih h.updJrn) h

theorem countBoot (h : d.Shaped) : d.countBoot.Shaped := h.updJrn.ringPut

theorem ringTaken {n : Nat} {v : List Byte} {roles : List (Nat × Nat × Nat)} (h : d.Shaped) : (d.ringTaken n v roles).Shaped :=
  .ite h.updJrn (.ite h.putNv (.ite h.updBbu h))

theorem bootRing {n : Nat} (h : d.Shaped) : (d.bootRing n).Shaped := by
  unfold Dev.bootRing
  extract_lets l note
  split
  · exact h.putNv.ringTaken.ringPut
  · split
    · exact h.putNv.ringTaken
    · exact h.putNv.ringTaken.occur

theorem bootRings (h : d.Shaped) : d.bootRings.Shaped := h.foldN fun _ _ h => h.bootRing

theorem mergeCap {l : List Byte} {m : Nat} (h : d.Shaped) : (d.mergeCap l m).Shaped := by
  unfold Dev.mergeCap
  extract_lets f cyc
  split
  · exact h
  · exact .ite h.updBbu.ringPut.occur h

theorem mergeFinal (h : d.Shaped) : d.mergeFinal.Shaped := by
  unfold Dev.mergeFinal
  refine .updPeat ?_
  split
  · exact h.frame (Dev.finalFound_onlyIn _) rfl
  · exact .foldN (.occur (h.frame (Dev.finalFound_onlyIn _) rfl)) fun _ _ h => h.mergeCap

theorem kept {strap0 strap1 : Nat} (h : d.Shaped) : (d.kept strap0 strap1).Shaped := by
  obtain ⟨-, -, -, -, -, hbbus, -, -, -, -, -, -, -, -, hsources⟩ := h
  refine reset.put (bbus := ?_) (sources := ?_)
  · exact (List.length_map ..).trans hbbus
  · exact (List.length_map ..).trans hsources

theorem bootSettings (h : d.Shaped) : d.bootSettings.Shaped :=
  .applyTable (h.updUpd.foldl fun _ _ h => h.frame (Dev.setReg_onlyIn _ _ _ _) rfl)

theorem bootRegions (h : d.Shaped) : d.bootRegions.Shaped := by
  unfold Dev.bootRegions
  extract_lets d1 x x1 d2 x2 x3
  have hd1 : d1.Shaped := .ite h h.occur
  have hx : x.Shaped := hd1.vanaLoss
  have hd2 : d2.Shaped := .ite hd1 hx.putTime
  have hx2 : x2.Shaped := hd2.vanaLoss
  exact .ite hd2 hx2.putTime

theorem afterReset {strap0 strap1 votes : Nat} (h : d.Shaped) : (d.afterReset strap0 strap1 votes).Shaped := by
  unfold Dev.afterReset
  extract_lets job old voted torn booted ports loaded
  have hold : old.Shaped := h.crustTear
  have hvoted : voted.Shaped :=
    .frame (Dev.crustVote_onlyIn _ _) rfl (.frame (Dev.crustFrond_onlyIn _) rfl (hold.kept.frame (Dev.crustRead_onlyIn _) rfl))
  have htorn : torn.Shaped := by
    dsimp only [torn]
    clear_value job
    cases job with
    | none => exact hvoted
    | some j => exact hvoted.occur.frame (Dev.crustSpent_onlyIn _ _) rfl
  have hbooted : booted.Shaped := .bootRegions (htorn.bootSettings.frame (Dev.bootFw_onlyIn _) rfl)
  have hports : ports.Shaped := hbooted.foldN fun _ _ h => h.updTwT
  have hloaded : loaded.Shaped := .ite hports (hports.frame (Dev.loadInto_onlyIn _ _ _ _) rfl)
  exact .ite hloaded.occurC hloaded

theorem startReplay (h : d.Shaped) : d.startReplay.Shaped := h.updJrn

theorem restoreGrant {l : Nat} (h : d.Shaped) : (d.restoreGrant l).Shaped := by
  unfold Dev.restoreGrant
  split
  · exact h.updJrn
  · exact h.updJrn.updLoad

theorem bootWork {pa pb : Bool} (h : d.Shaped) : (d.bootWork pa pb).Shaped := by
  unfold Dev.bootWork
  extract_lets same replay grants
  have hsame : same.Shaped := .ite (h.frame (Dev.reconcile_onlyIn _) rfl) h
  have hrings : ((same.placeErrors.skipLost 128).bootRings).Shaped :=
    (hsame.frame (Dev.placeErrors_onlyIn _) rfl).skipLost.bootRings
  have hreplay : replay.Shaped := (hrings.frame (Dev.peatScan_onlyIn _) rfl).mergeFinal.countBoot.startReplay
  have hgrants : grants.Shaped := hreplay.foldN fun _ _ h => h.restoreGrant
  exact hgrants.putTimeDie

/-! ### PMBus -/

theorem pmRefuse {n : Nat} (h : d.Shaped) : (d.pmRefuse n).Shaped := h.twNack.twStop

theorem pmWrite {f : Dev → Dev} {n : Nat} {ok : Bool} (h : d.Shaped) (hf : (f d).Shaped) : (d.pmWrite n ok f).Shaped :=
  .ite h.drive (.ite h.pmRefuse hf.drive.twStop)

theorem pagePut {n v : Nat} (h : d.Shaped) : (d.pagePut n v).Shaped :=
  h.pmWrite (.updTwT (h.frame (Dev.blockCells_onlyIn _ _ _ _) rfl))

theorem wpPut {n v : Nat} (h : d.Shaped) : (d.wpPut n v).Shaped :=
  h.pmWrite (.putRegs (h.frame (Dev.blockCells_onlyIn _ _ _ _) rfl))

theorem voutPut {n v : Nat} (h : d.Shaped) : (d.voutPut n v).Shaped :=
  h.pmWrite (.foldl (h.frame (Dev.blockCells_onlyIn _ _ _ _) rfl) fun _ _ h =>
    .ite h.updUpd (h.putRegs.frame (Dev.commitPage_onlyIn _ _) rfl))

theorem pmBlock {n code : Nat} {data : List Byte} (h : d.Shaped) : (d.pmBlock n code data).Shaped := by
  unfold Dev.pmBlock
  refine .ite h.pmRefuse (.ite h.twNack.twStop ?_)
  split
  · exact h.twStop
  · exact .ite h.pagePut (.ite h.wpPut h.pmRefuse)
  · exact .ite h.voutPut h.pmRefuse
  · exact h.pmRefuse

theorem pecFail {n : Nat} {window : Bool} (h : d.Shaped) : (d.pecFail n window).Shaped :=
  .twStop (.drive (.occur (.ite h.keepReply h.twError)))

/-! ### Frames between the dies -/

theorem placeOut (h : d.Shaped) : d.placeOut.Shaped := h.placeNudge.placeCharges

/-! ### The tick -/

theorem hnRose {n : Nat} (h : d.Shaped) : (d.hnRose n).Shaped := .ite h.updTwT h

theorem sealTick (h : d.Shaped) : d.sealTick.Shaped := h.settleRequests.settleShares.placeOut

theorem closeTick (h : d.Shaped) : d.closeTick.Shaped := by
  unfold Dev.closeTick
  refine .ite h ?_
  extract_lets d1 d2 d3 d4 x d5 x1 d6 d7 d8
  have hd1 : d1.Shaped := h.sealTick
  have hd2 : d2.Shaped := .frame (Dev.keepFrame_onlyIn _ _) rfl (hd1.frame (Dev.keepFrame_onlyIn _ _) rfl)
  have hd3 : d3.Shaped :=
    .frame (Dev.dropOutbound_onlyIn _) rfl (.frame (Dev.mirrorSlice_onlyIn _) rfl (hd2.frame (Dev.endTick_onlyIn _) rfl))
  have hd4 : d4.Shaped := .ite (hd3.frame (Dev.noFeedTick_onlyIn _) rfl) hd3
  have hd5 : d5.Shaped := hd4.putDie
  have hd6 : d6.Shaped := hd5.putDie
  have hd7 : d7.Shaped := hd6.foldN fun _ _ h => h.hnRose
  have hd8 : d8.Shaped := .ite (hd7.frame (Dev.capTrigger_onlyIn _) rfl) hd7
  exact hd8.frame (Dev.peatDeposit_onlyIn _) rfl

theorem applyUnits {f : List Word32} (h : d.Shaped) : (d.applyUnits f).Shaped :=
  .ite h (.foldN (h.foldN fun _ _ h => h.updUnit) fun _ _ h => h.applyBurst)

theorem applyPorts {f : Option (List Word32)} (h : d.Shaped) : (d.applyPorts f).Shaped := h.putDie.foldN fun _ _ h => h.updPort

theorem applyGates {f : Option (List Word32)} (h : d.Shaped) : (d.applyGates f).Shaped := by
  unfold Dev.applyGates
  refine .ite h ?_
  extract_lets ca cb d1
  have hd1 : d1.Shaped := h.frame (Dev.applyFeedGates_onlyIn _ _ _) rfl
  exact .ite hd1 (hd1.foldN fun _ _ h => h.applyHsGate)

theorem applyResult (h : d.Shaped) : d.applyResult.Shaped := by
  unfold Dev.applyResult
  refine .putDie (.frame (Dev.drivePins_onlyIn _ _) rfl (.applyPorts (.applyGates ?_)))
  split
  · exact .applyUnits (h.putDie.foldN fun _ _ h => h.frame (Dev.takeCell_onlyIn _ _ _) rfl)
  · exact h.putDie

theorem takeFrame {i : TickIn} {x : SenseWords} {lost : Bool} {drv : Nat} (h : d.Shaped) :
    (d.takeFrame i x lost drv).Shaped := by
  unfold Dev.takeFrame
  extract_lets d1 x f d2
  have hd1 : d1.Shaped := h.putSram
  have hd2 : d2.Shaped := hd1.putSram
  exact .ite (hd1.put (ports := List.length_map ..)) (hd2.takeSwitches.frame (Dev.peatSample_onlyIn _ _) rfl)

theorem takeSamples {x : SenseWords} {lost : Bool} (h : d.Shaped) : (d.takeSamples x lost).Shaped := by
  unfold Dev.takeSamples
  extract_lets prev d1 d2 d3 d4 x
  have hd1 : d1.Shaped := h.foldN fun _ _ h => h.preSense
  have hd2 : d2.Shaped := hd1.foldN fun _ _ h => h.unitSense
  have hd3 : d3.Shaped := .ite hd2 (hd2.frame (Dev.stageSense_onlyIn _ _) rfl)
  have hd4 : d4.Shaped := hd3.foldN fun _ _ h => h.tfltSense
  exact hd4.putDie

theorem dieSamples {i : TickIn} {x : SenseWords} (h : d.Shaped) : (d.dieSamples i x).Shaped :=
  h.countOver.refSense.intTick.calDiff.calOpen.calTick

theorem safeSense (h : d.Shaped) : d.safeSense.Shaped := .updFh (.ite h.occur.forcedOff h)

theorem railsTick (h : d.Shaped) : d.railsTick.Shaped := by
  unfold Dev.railsTick
  extract_lets sampled capped target zeroed started refs shed
  have hsampled : sampled.Shaped := h.foldN fun _ _ h => h.updRail
  have hcapped : capped.Shaped := hsampled.ledgerCurrents.foldN fun _ _ h => h.capTick
  have htarget : target.Shaped := hcapped.foldN fun _ _ h => h.targetTick
  have hzeroed : zeroed.Shaped := htarget.foldN fun _ _ h => .ite (h.frame (Dev.zeroLoops_onlyIn _ _) rfl) h
  have hstarted : started.Shaped := hzeroed.foldN fun _ _ h => h.startTick
  have hrefs : refs.Shaped := hstarted.foldl fun _ _ h => h.refTick
  have hshed : shed.Shaped := hrefs.foldN fun _ _ h => .ite h.thermalShed h
  exact hshed.foldN fun _ _ h => h.addTick

theorem burstTick {r : Nat} (h : d.Shaped) : (d.burstTick r).Shaped := by
  unfold Dev.burstTick
  extract_lets d1 d2
  have hd1 : d1.Shaped := h.updLed
  have hd2 : d2.Shaped := .ite hd1.updRail.cancelShed h
  exact .ite hd2.updRail hd2

theorem fireSupv (h : d.Shaped) : d.fireSupv.Shaped := .thermTick (.bbuSupv (.fhTick (h.feedTick.foldN fun _ _ h => h.hsTick)))

theorem fireLedger (h : d.Shaped) : d.fireLedger.Shaped := h.thermLedger.battTick.setRow.ledgerFire.capAll

theorem sliceIn {k : Nat} (h : d.Shaped) : (d.sliceIn k).Shaped := h.foldN fun _ _ h => h.updUnit

theorem throughSlice {f : Dev → SlotEntry → Dev} {e : SlotEntry} (h : d.Shaped) (hf : ∀ d, d.Shaped → (f d e).Shaped) :
    (Dev.throughSlice f d e).Shaped :=
  .foldl (hf _ (h.foldl fun _ _ h => h.putSram)) fun _ _ h => h.sliceIn

theorem fireEntry {e : SlotEntry} (h : d.Shaped) : (d.fireEntry e).Shaped := by
  unfold Dev.fireEntry
  extract_lets c
  repeat' with_reducible apply ite
  · exact h.throughSlice fun _ h => h.fireBiq
  · exact h.throughSlice fun _ h => h.fireVlp
  · exact h.throughSlice fun _ h => h.fireFfs
  · exact h.throughSlice fun _ h => h.frame (Dev.fireSum_onlyIn _ _) rfl
  · exact h.firePhase
  · exact h.fireOvl
  · exact h.fireStat
  · exact h.throughSlice fun _ h => h.frame (Dev.fireInj_onlyIn _ _) rfl
  · exact h.admitFire.frame (Dev.overDrop_onlyIn _ _ _) rfl
  · exact h.fireLedger
  · exact h.fireSupv.frame (Dev.overDrop_onlyIn _ _ _) rfl
  · exact h.accTick
  · exact h.frame (Dev.fireCapt_onlyIn _ _) rfl
  · exact h.frame (Dev.fireComp_onlyIn _ _) rfl
  · exact h.frame (Dev.peatFire_onlyIn _) rfl
  · exact h.chFire
  · exact h.rxDrain.rxFalls.frame (Dev.overDrop_onlyIn _ _ _) rfl
  · exact h.frame (Dev.fireMwin_onlyIn _ _) rfl
  · exact h

theorem fireAll (h : d.Shaped) : d.fireAll.Shaped := by
  unfold Dev.fireAll
  extract_lets l pre post d1 d2
  have hd1 : d1.Shaped := .foldN (h.foldl fun _ _ h => h.fireEntry) fun _ _ h => h.countTick
  have hd2 : d2.Shaped := hd1.foldl fun _ _ h => h.fireEntry
  exact .ite hd2 hd2.accTick

theorem parityErr {t : Twin} {m : Option (Fin 8)} (h : d.Shaped) : (d.parityErr t m).Shaped := by
  unfold Dev.parityErr
  split
  · exact h
  · exact h.updCluster.occur.frame (Dev.selfErr_onlyIn _ _ _) rfl

theorem voteTick {v : Vote} (h : d.Shaped) : (d.voteTick v).Shaped := by
  unfold Dev.voteTick
  split
  · exact h.putDie
  · exact h.putDie
  · exact h.putDie.enterSafe

theorem errorTick {i : TickIn} (h : d.Shaped) : (d.errorTick i).Shaped := by
  unfold Dev.errorTick
  extract_lets hb miss par nv
  have hhb : hb.Shaped := .frame (Dev.tickHb_onlyIn _ _ _) rfl (h.frame (Dev.tickHb_onlyIn _ _ _) rfl)
  have hmiss : miss.Shaped := .frame (Dev.schedMiss_onlyIn _ _ _) rfl (hhb.frame (Dev.schedMiss_onlyIn _ _ _) rfl)
  have hpar : par.Shaped := hmiss.parityErr.parityErr
  have hnv : nv.Shaped := .frame (Dev.nvError_onlyIn _ _ _) rfl (hpar.frame (Dev.nvError_onlyIn _ _ _) rfl)
  exact hnv.voteTick

theorem tickApply {i : TickIn} (h : d.Shaped) : (d.tickApply i).Shaped := by
  have hoffsets : (Machine.foldN 4 Dev.interleave d).Shaped := h.foldN fun _ _ h => h.interleave
  have hinbound : (((((Machine.foldN 4 Dev.interleave d).latchSwitches i).applyResult).burstUndo).takeInbound).Shaped :=
    hoffsets.latchSwitches.applyResult.burstUndo.frame (Dev.takeInbound_onlyIn _) rfl
  exact hinbound.updXfer.putTwin.putRunsInj.updSched.putDie

theorem tickSense {i : TickIn} {drv : Nat} (h : d.Shaped) : (d.tickSense i drv).Shaped := by
  unfold Dev.tickSense
  extract_lets lost selfA selfB eff x framed aged taken safe
  have hselfA : selfA.Shaped := .ite (h.frame (Dev.selfErr_onlyIn _ _ _) rfl) h
  have hselfB : selfB.Shaped := .ite (hselfA.frame (Dev.selfErr_onlyIn _ _ _) rfl) hselfA
  have hframed : framed.Shaped := hselfB.admNewTick.takeFrame.dieSamples
  clear_value framed
  have haged : aged.Shaped := hframed.put (units := List.length_map ..)
  have htaken : taken.Shaped := haged.takeSamples
  have hsafe : safe.Shaped := .ite htaken htaken.safeSense
  clear_value safe
  exact hsafe.putDieXfer

theorem tickWork {i : TickIn} (h : d.Shaped) : (d.tickWork i).Shaped := by
  unfold Dev.tickWork
  extract_lets x x1 d1 d2 d3 d4 d5 x2 d6 d7 d8 d9 d10
  have hd1 : d1.Shaped := h.putInjCap
  have hd2 : d2.Shaped := .ite (hd1.frame (Dev.capTrigger_onlyIn _) rfl) hd1
  have hd3 : d3.Shaped := .ite (.frame (Dev.sampleFloor_onlyIn _) rfl (hd2.frame (Dev.commitSample_onlyIn _) rfl)) hd2
  have hd4 : d4.Shaped := .fireAll (.dmaTick (hd3.frame (Dev.coeffPort_onlyIn _) rfl))
  have hd5 : d5.Shaped := hd4.auxTick
  have hd6 : d6.Shaped := hd5.putInj
  have hd7 : d7.Shaped := hd6.foldN fun _ _ h => h.burstTick
  have hd8 : d8.Shaped := hd7.foldN fun _ _ h => h.periodTick
  have hd9 : d9.Shaped := .noAdmit (hd8.foldN fun _ _ h => h.counterTick)
  have hd10 : d10.Shaped := .ite (hd9.frame (Dev.tierSelect_onlyIn _) rfl) hd9
  exact .frame (Dev.demandTick_onlyIn _) rfl (hd10.errorTick.frame (Dev.mieTick_onlyIn _) rfl)

theorem runTick {i : TickIn} (h : d.Shaped) : (d.runTick i).Shaped := by
  unfold Dev.runTick
  extract_lets drv fresh d1 d2 d3 d4 d5 x
  have hd1 : d1.Shaped := h.closeTick
  have hd2 : d2.Shaped := .ite hd1 (hd1.frame (Dev.newTick_onlyIn _) rfl)
  have hd3 : d3.Shaped := hd2.tickApply
  have hd4 : d4.Shaped := hd3.putTime
  have hd5 : d5.Shaped := hd4.tickSense.railsTick.tickWork
  exact hd5.putTime

/-! ### The frond's boundary -/

theorem setpSample {i : FrondIn} {r : Nat} (h : d.Shaped) : (d.setpSample i r).Shaped := h.updRail

theorem setpFrond {i : FrondIn} {r : Nat} (h : d.Shaped) : (d.setpFrond i r).Shaped := by
  unfold Dev.setpFrond
  extract_lets d1 v d' lo hi
  have hd1 : d1.Shaped := h.setpSample
  have hd' : d'.Shaped := .ite hd1 hd1.occur
  refine .ite hd1.updRail ?_
  split
  · exact hd'.updRail
  · exact hd1.updRail

theorem meansFrond (h : d.Shaped) : d.meansFrond.Shaped :=
  h.put (rails := List.length_map ..) (units := List.length_map ..) (pre := List.length_map ..)

theorem clusterFrond (h : d.Shaped) : d.clusterFrond.Shaped := by
  unfold Dev.clusterFrond
  refine h.foldN fun d k h => ?_
  extract_lets up n d1
  have hd1 : d1.Shaped := h.updCluster
  exact .ite hd1 hd1.occur

theorem agesFrond (h : d.Shaped) : d.agesFrond.Shaped := (h.updRef.updAux (List.length_map ..)).updUpd.updXfer

theorem boundaryCommit {i : FrondIn} (h : d.Shaped) : (d.boundaryCommit i).Shaped := by
  have hfrond := h.clusterFrond.putInj (x := d.inj.frond)
  have hdeferred := (hfrond.rolesFrond (hbA := i.sHbA) (hbB := i.sHbB)).frame (Dev.deferredFrond_onlyIn _) rfl
  exact (hdeferred.commitFrond.frame (Dev.crustFrond_onlyIn _) rfl).clearFrond.counterFrond

theorem boundaryWork {i : FrondIn} (h : d.Shaped) : (d.boundaryWork i).Shaped := by
  unfold Dev.boundaryWork
  extract_lets setp means ages power link bus
  have hsetp : setp.Shaped := h.foldN fun _ _ h => h.setpFrond
  have hmeans : means.Shaped := hsetp.meansFrond.thermFrond.pbFrond.regionFrond.frame (Dev.holdFrond_onlyIn _) rfl
  have hages : ages.Shaped := hmeans.agesFrond.calBoundary
  have hpower : power.Shaped := hages.admFrond.bbuFrond.placeCharges.frame (Dev.tierFrond_onlyIn _) rfl
  have htime : power.linkFrond.timeFrond.epochFrond.Shaped := .frame (Dev.epochFrond_onlyIn _) rfl
    (.frame (Dev.timeFrond_onlyIn _) rfl (hpower.frame (Dev.linkFrond_onlyIn _) rfl))
  have hlink : link.Shaped := htime.rowFrond.dmaFrond
  have hbus : bus.Shaped := .twFrond (hlink.frame (Dev.fabFrond_onlyIn _) rfl)
  have hpeat : bus.settingsFrond.peatStanding.Shaped :=
    .frame (Dev.peatStanding_onlyIn _) rfl (hbus.frame (Dev.settingsFrond_onlyIn _) rfl)
  exact hpeat.standbyFrond

theorem runBoundary {i : FrondIn} (h : d.Shaped) : (d.runBoundary i).Shaped :=
  .frame (Dev.newFrond_onlyIn _) rfl (.boundaryWork (.boundaryCommit (h.closeTick.frame (Dev.newTick_onlyIn _) rfl)))

end Dev.Shaped

end Sys2Proof.Machine
end

section
/-! PROOF. Every command keeps the shape of the block, and so does every step. -/

namespace Sys2Proof.Machine

set_option Elab.async false

namespace Dev.Shaped

variable {d : Dev}

theorem execHead {g : Dev → WorkItem → Dev} {code : Nat} (h : d.Shaped) (hg : ∀ w, (g d w).Shaped) :
    (d.execHead code g).Shaped := by
  unfold Dev.execHead
  split
  · exact h
  · exact ite (hg _) h

theorem toTwins {g : Dev → Dev} {p : MPort} {f : MFrame} (h : d.Shaped) (hg : ∀ d, d.Shaped → (g d).Shaped) :
    (d.toTwins p f g).Shaped := by
  have hbuf : (d.buffer p f).Shaped := h.frame (Dev.buffer_onlyIn _ _ _) rfl
  exact ite hbuf (ite (hg _ (h.frame (Dev.frameCells_onlyIn _ _ _) rfl)) hbuf)

/-- A frame of the fabric that the two twins take when it is addressed to this member. -/
theorem received {p : MPort} {f : MFrame} {rx : Option Int} {g : Dev → Dev} (h : d.Shaped)
    (hg : ∀ d, d.Shaped → (g d).Shaped) :
    (if (d.receive p f rx).2 then (d.receive p f rx).1.toTwins p f g else (d.receive p f rx).1).Shaped :=
  .ite (.toTwins (h.frame (Dev.receive_onlyIn _ _ _ _) rfl) hg) (h.frame (Dev.receive_onlyIn _ _ _ _) rfl)

end Dev.Shaped

/-! ### Access paths and the register window -/

theorem State.snapFrom_shaped {s : State} (h : s.d.Shaped) (p : Path) (n v : Nat) : (s.snapFrom p n v).d.Shaped := by
  unfold State.snapFrom State.snapWrite
  dsimp only
  split_ifs
  all_goals exact h

theorem State.applyWrite_shaped {s : State} (h : s.d.Shaped) (p : Path) (pg off v : Nat) :
    (s.applyWrite p pg off v).1.d.Shaped := by
  unfold State.applyWrite
  split
  · exact h
  · split
    · exact h
    · split
      · exact State.snapFrom_shaped h p _ v
      · split
        · exact h
        · rename_i r _ _ _
          have hw : (if off < 0x40 then s.d.commonWrite p pg off v r else s.d.blockWrite p pg off v r).Shaped :=
            .ite h.commonWrite h.blockWrite
          have ho := Dev.Shaped.ite (c := s.rwcDiff r pg off v != 0) (hw.occurC (pg := 0xB2) (bit := 1) (code := 2)) hw
          exact .ite ho (ho.frame (Dev.closeLock_onlyIn _ _ _) rfl)

theorem State.writeWords_shaped {s : State} (h : s.d.Shaped) (p : Path) (pg off : Nat) (ws : List Word32) :
    (s.writeWords p pg off ws).1.d.Shaped := by
  induction ws generalizing s off with
  | nil => exact h
  | cons w ws ih => exact ih (State.applyWrite_shaped h p pg off w.toNat) (off + 4)

theorem State.windowWrite_shaped {s : State} (h : s.d.Shaped) (n pg off : Nat) (ws : List Word32) :
    (s.windowWrite n pg off ws).d.Shaped := by
  unfold State.windowWrite
  extract_lets t st r
  have ht : t.d.Shaped := h.frame (Dev.blockCells_onlyIn _ _ _ _) rfl
  split
  · exact ht.keepReply
  · exact (State.writeWords_shaped ht _ _ _ _).keepReply

theorem State.windowRead_shaped {s : State} (h : s.d.Shaped) (n pg off k : Nat) : (s.windowRead n pg off k).d.Shaped := by
  unfold State.windowRead
  extract_lets t st offs st' body
  have ht : t.d.Shaped := h.frame (Dev.blockCells_onlyIn _ _ _ _) rfl
  split
  · exact ht.keepReply
  · exact ht.keepReply

theorem State.windowCmd_shaped {s : State} (h : s.d.Shaped) (n : Nat) (b : HeldBlk) {f : State → State}
    (hf : (f s).d.Shaped) : (s.windowCmd n b f).d.Shaped := by
  unfold State.windowCmd
  split
  · exact h.drive
  · extract_lets t
    have ht : t.d.Shaped := by
      dsimp only [t]
      split
      · exact h.holdBlock
      · exact hf
    exact ht.drive.twStop

theorem State.windowBlock_shaped {s : State} (h : s.d.Shaped) (n code : Nat) (data : List Byte) :
    (s.windowBlock n code data).d.Shaped := by
  unfold State.windowBlock
  extract_lets pay fits pg off bad ws k tag sq c args
  have hbad : (bad s).d.Shaped := h.keepReply.drive.twStop
  clear_value bad
  split
  · split
    · exact State.windowCmd_shaped h _ _ (State.windowWrite_shaped h _ _ _ _)
    · exact hbad
  · split
    · split
      · exact State.windowCmd_shaped h _ _ (State.windowRead_shaped h _ _ _ _)
      · exact hbad
    · split
      · split
        · exact State.windowCmd_shaped h _ _ h.windowSeq
        · exact hbad
      · exact h.twNack.twStop

theorem State.runHeld_shaped {s : State} (h : s.d.Shaped) (b : HeldBlk) : (s.runHeld b).d.Shaped := by
  unfold State.runHeld
  extract_lets late
  have hlate : ∀ (n : Nat) (f : State → State), (f s).d.Shaped → (late n f).d.Shaped := fun n f hf =>
    .ite hf.updTwT hf.replyReady
  clear_value late
  cases b with
  | regWrite n pg off ws => exact hlate n _ (State.windowWrite_shaped h n pg off ws)
  | regRead n pg off k => exact hlate n _ (State.windowRead_shaped h n pg off k)
  | seq n tag sq code args => exact hlate n _ h.windowSeq
  | opening src sq => exact h.decideOpen
  | vout r v => exact .frame (Dev.commitPage_onlyIn _ _) rfl h.putRegs

theorem State.release_shaped {s : State} (h : s.d.Shaped) : s.release.d.Shaped := by
  have run : ∀ (l : List HeldBlk) (t : State), t.d.Shaped → (l.foldl State.runHeld t).d.Shaped := by
    intro l
    induction l with
    | nil => exact fun t ht => ht
    | cons b l ih => exact fun t ht => ih _ (State.runHeld_shaped ht b)
  unfold State.release
  extract_lets l t
  exact run _ t h

theorem State.pmRead_shaped {s : State} (h : s.d.Shaped) (n code : Nat) (f : Dev → Nat → List Byte) :
    (s.pmRead n code f).d.Shaped :=
  .ite h.recvBlock.drive (.ite h.recvBlock.pmRefuse h.recvBlock.drive.twStop)

theorem State.holdsFrond_shaped {s : State} (h : s.d.Shaped) : s.holdsFrond.d.Shaped := by
  unfold State.holdsFrond
  extract_lets x
  split
  · exact h
  · exact h

/-- A command that answers a next state keeps the shape. -/
def KeepsShape (s : State) (o : Out) : Prop := ∀ t, o = .next t → s.d.Shaped → t.d.Shaped

theorem keepsShape_next {s t : State} (h : s.d.Shaped → t.d.Shaped) : KeepsShape s (.next t) := by
  rintro _ ⟨⟩; exact h

theorem keepsShape_done {s : State} {f : Dev → Dev} (h : ∀ d, d.Shaped → (f d).Shaped) : KeepsShape s (done f s) :=
  keepsShape_next (h s.d)

theorem keepsShape_fault (s : State) (f : Fault) : KeepsShape s (.fault f) := by simp [KeepsShape]

/-! ### The tick, the actuation frame and the frond's boundary -/

theorem execTick_shaped (i : TickIn) (s : State) : KeepsShape s (execTick i s) := by
  unfold execTick
  split
  · exact keepsShape_done fun _ h => .ite h.runTick h
  · exact keepsShape_fault _ _

theorem execActuationFrame_shaped (t : Twin) (cycle : Nat) (errs : List Word32) (s : State) :
    KeepsShape s (execActuationFrame t cycle errs s) := by
  unfold execActuationFrame
  split
  · refine keepsShape_done fun d h => ?_
    extract_lets e
    have he : e.Shaped := .ite h.sealTick h
    exact he.frame (Dev.takeCopy_onlyIn _ _ _ _) rfl
  · exact keepsShape_fault _ _

theorem execOutboundBlockTx_shaped (chan : Nat) (answer : TwAnswer) (s : State) :
    KeepsShape s (execOutboundBlockTx chan answer s) := by
  refine keepsShape_done fun d h => ?_
  split
  · exact h
  · refine .ite h ?_
    extract_lets x d1
    have hd1 : d1.Shaped := h.putDie
    exact .ite hd1.txFirst hd1

theorem execFrondBoundary_shaped (i : FrondIn) (s : State) : KeepsShape s (execFrondBoundary i s) := by
  unfold execFrondBoundary
  split
  · split
    · exact keepsShape_next fun h => State.holdsFrond_shaped h.runBoundary
    · exact keepsShape_next id
  · exact keepsShape_fault _ _

/-! ### Writes, rails, loads and measurements -/

theorem execRegisterWrite_shaped (p : Path) (page off : Nat) (v : Word32) (s : State) :
    KeepsShape s (execRegisterWrite p page off v s) :=
  keepsShape_next fun h => State.applyWrite_shaped h _ _ _ _

theorem execUnitLostReturn_shaped (k : Fin 8) (s : State) : KeepsShape s (execUnitLostReturn k s) := by
  refine keepsShape_done fun d h => .ite ?_ (.ite h h.putDie.updCluster)
  exact h.foldN fun _ _ h => h.updUnit

theorem execPhaseShed_shaped (r : Fin 4) (s : State) : KeepsShape s (execPhaseShed r s) := by
  refine keepsShape_done fun d h => ?_
  refine .ite ?_ h
  split
  · exact h
  · exact h.mark.updRail

theorem execStepPortLinkDown_shaped (n : Fin 16) (s : State) : KeepsShape s (execStepPortLinkDown n s) := by
  refine keepsShape_done fun d h => ?_
  extract_lets some1 d1
  have hd1 : d1.Shaped := h.updPort
  exact .ite hd1.occur hd1

theorem execReservationExpire_shaped (i : Fin 256) (s : State) : KeepsShape s (execReservationExpire i s) := by
  refine keepsShape_done fun d h => ?_
  split
  · exact .ite h.updLoad h
  · exact h

theorem execPortStale_shaped (n : Fin 16) (s : State) : KeepsShape s (execPortStale n s) := by
  refine keepsShape_done fun d h => .ite ?_ h
  have hloads : ((d.portLoads n.val).foldl (fun d i => d.updLoad i fun x => { x with stale := true }) d).Shaped :=
    h.foldl fun _ _ h => h.updLoad
  exact hloads.updPort.occur.capRaise

theorem execPreInvalid_shaped (c : Fin 17) (s : State) : KeepsShape s (execPreInvalid c s) := by
  refine keepsShape_done fun d h => ?_
  refine .ite ?_ h
  extract_lets d1
  have hd1 : d1.Shaped := h.occur.updPre
  exact .ite hd1.tripRail hd1

theorem execMetrologyResult_shaped (c : Fin 17) (raw : BitVec 24) (s : State) : KeepsShape s (execMetrologyResult c raw s) := by
  refine keepsShape_done fun d h => ?_
  refine .ite h ?_
  extract_lets sub q m y mv value lim out settled early d1
  have hd1 : d1.Shaped := h.updPre
  exact .ite hd1.occur hd1

theorem execAuxStepDone_shaped (s : State) : KeepsShape s (execAuxStepDone s) := by
  refine keepsShape_done fun d h => .ite h (.ite h.auxNext ?_)
  extract_lets e a n g vfs res out diff opn result flagged judged
  have hresult : result.Shaped := h.updAux (hf := updAt_length ..)
  have hflagged : flagged.Shaped := .ite hresult.occur hresult
  have hjudged : judged.Shaped := .ite hflagged.occur hflagged
  exact hjudged.auxNext.auxDone

theorem execIntmonResult_shaped (i : Fin 20) (s : State) : KeepsShape s (execIntmonResult i s) := by
  refine keepsShape_done fun d h => ?_
  split
  · exact .ite (.intmonDone (h.put (intmon := updAt_length ..))) h
  · exact h

theorem execCalWindowStart_shaped (s : State) : KeepsShape s (execCalWindowStart s) := by
  refine keepsShape_done fun d h => ?_
  refine .ite h ?_
  extract_lets w d1
  have hd1 : d1.Shaped := h.updCal
  exact .ite hd1 (.ite hd1.updCal (.ite hd1 hd1.updCal.occur))

theorem execCalReconnect_shaped (m : CalMeas) (s : State) : KeepsShape s (execCalReconnect m s) := by
  refine keepsShape_done fun d h => ?_
  refine .ite ?_ h
  extract_lets bad d1 d2 p ch d3 test opn d4
  have hd1 : d1.Shaped := h.updCal
  have hd2 : d2.Shaped := .ite hd1.occur hd1
  have hd3 : d3.Shaped := hd2.updCal
  have hd4 : d4.Shaped := hd3.updPre
  exact .ite (.ite hd4.occur hd4) hd2.updCal

theorem execCalReturn_shaped (s : State) : KeepsShape s (execCalReturn s) := by
  refine keepsShape_done fun d h => ?_
  refine .ite ?_ h
  extract_lets w cmp bad d1 d2
  have hd1 : d1.Shaped := .ite h.occur.oldTrims h
  have hd2 : d2.Shaped := hd1.updCal
  exact .ite hd2 (.ite hd2.updCal.occur (.ite hd2.updCal.occur (.ite hd2.updCal hd2.updPre.occur)))

/-! ### Feeds and battery modules -/

theorem execFeedPowerGood_shaped (f : FeedId) (s : State) : KeepsShape s (execFeedPowerGood f s) := by
  refine keepsShape_done fun d h => ?_
  refine .ite ?_ h
  extract_lets d1 d2
  have hd1 : d1.Shaped := h.updFeed
  have hd2 : d2.Shaped := hd1.updLed
  exact .ite hd2.updXfer.occur hd2

theorem execFeedTransfer_shaped (s : State) : KeepsShape s (execFeedTransfer s) := by
  refine keepsShape_done fun d h => ?_
  refine .ite h ?_
  split
  · refine .ite ?_ h.startTransfer
    split
    · exact .ite h h.startTransfer
    · exact .ite h h.startTransfer
  · split
    · exact .ite h.startInsertion h
    · exact h

theorem execTransferDeadEnd_shaped (s : State) : KeepsShape s (execTransferDeadEnd s) := by
  refine keepsShape_done fun d h => ?_
  refine .ite ?_ h
  split
  · exact h.frame (Dev.turnOn_onlyIn _ _) rfl
  · exact h.frame (Dev.xferFail_onlyIn _ _) rfl

theorem execTransferInterlockFail_shaped (s : State) : KeepsShape s (execTransferInterlockFail s) := by
  refine keepsShape_done fun d h => .ite ?_ h
  extract_lets new old failed parked
  have hfailed : failed.Shaped := h.frame (Dev.xferFail_onlyIn _ _) rfl
  clear_value failed old new
  have hparked : parked.Shaped := by
    dsimp only [parked]
    split
    · exact hfailed.frame (Dev.feedPark_onlyIn _ _) rfl
    · exact hfailed
  split
  · exact hparked.feedFaultRaw
  · exact hparked

theorem execInsTimeout_shaped (f : FeedId) (s : State) : KeepsShape s (execInsTimeout f s) := by
  refine keepsShape_done fun d h => ?_
  refine .ite ?_ h
  extract_lets was d1
  have hd1 : d1.Shaped := h.feedFaultRaw
  exact .ite (hd1.frame (Dev.xferFail_onlyIn _ _) rfl) hd1

theorem execFeedReturn_shaped (s : State) : KeepsShape s (execFeedReturn s) := by
  refine keepsShape_done fun d h => ?_
  split
  · exact .ite h.startTransfer h
  · exact h

theorem execG1JudgementResume_shaped (s : State) : KeepsShape s (execG1JudgementResume s) := by
  refine keepsShape_done fun d h => ?_
  refine .ite ?_ h
  extract_lets d1
  have hd1 : d1.Shaped := h.updXfer.takeSwitches
  exact .ite hd1.judgeSwitches hd1

theorem execBbuStatusPoll_shaped (m : Fin 4) (answer : Option (BitVec 16 × Byte)) (s : State) :
    KeepsShape s (execBbuStatusPoll m answer s) := by
  refine keepsShape_done fun d h => .ite h (.ite h.twGone.updBbu ?_)
  extract_lets asked missed
  have hasked : asked.Shaped :=
    .updTwC (.frame (Dev.sendRead_onlyIn _ _ _ _) rfl (h.frame (Dev.sendRead_onlyIn _ _ _ _) rfl))
  have hmissed : missed.Shaped := .ite hasked hasked.occur
  split
  · exact .updBbu (.frame (Dev.inBlock_onlyIn _ _ _) rfl (hasked.twDone.frame (Dev.inBlock_onlyIn _ _ _) rfl))
  · exact .ite hmissed.twGone.updBbu hmissed.updBbu

theorem execBbuInsertion_shaped (m : Fin 4) (serial : BitVec 64) (s : State) : KeepsShape s (execBbuInsertion m serial s) := by
  refine keepsShape_done fun d h => ?_
  extract_lets addr known
  have hknown : known.Shaped := .updBbu (.frame (Dev.inBlock_onlyIn _ _ _) rfl
    (.twDone (h.frame (Dev.sendRead_onlyIn _ _ _ _) rfl)))
  exact .ite h (.ite h.twGone hknown.bbuStart.bbuIdentify.occur)

/-! ### The twins -/

theorem execTwinSilent_shaped (t : Twin) (s : State) : KeepsShape s (execTwinSilent t s) := by
  refine keepsShape_done fun d h => ?_
  extract_lets c die ruled
  have hruled : ruled.Shaped :=
    .frame (Dev.updCtl_onlyIn _ _) rfl (.putDie (h.frame (Dev.countTwins_onlyIn _) rfl))
  exact .ite (hruled.occur.frame (Dev.ruleApplies_onlyIn _ _ _ _ _) rfl) h

theorem execHbPathLost_shaped (t : Twin) (p : HbPath) (s : State) : KeepsShape s (execHbPathLost t p s) := by
  refine keepsShape_done fun d h => ?_
  extract_lets c x
  have hc : c.Shaped := h.frame (Dev.countTwins_onlyIn _) rfl
  refine .ite h ?_
  split
  · exact .ite hc.updTwin.occur h
  · exact .ite hc.updTwin.occur h

theorem execHbPathRestored_shaped (t : Twin) (p : HbPath) (s : State) : KeepsShape s (execHbPathRestored t p s) := by
  refine keepsShape_done fun d h => ?_
  refine .ite h ?_
  extract_lets d1
  have hd1 : d1.Shaped := h.updTwin
  exact .ite hd1 hd1.updStat

theorem execCutIn_shaped (t : Twin) (s : State) : KeepsShape s (execCutIn t s) := by
  refine keepsShape_done fun d h => .ite ?_ h
  cases t with
  | a => exact h
  | b => exact h

theorem execItemCompletion_shaped (s : State) : KeepsShape s (execItemCompletion s) := by
  refine keepsShape_next fun h => ?_
  have hdone : (s.upd Dev.completeHead).d.Shaped := h.completeHead
  split
  · exact State.release_shaped hdone
  · exact hdone

/-! ### Boot, supervision, reset and the supplies -/

theorem execBootSelfTestDone_shaped (passA : Bool) (passB : Bool) (s : State) :
    KeepsShape s (execBootSelfTestDone passA passB s) := by
  refine keepsShape_done fun d h => ?_
  refine .ite h ?_
  extract_lets pa pb d1 x
  have hd1 : d1.Shaped := .updFh (h.frame (Dev.bootRoles_onlyIn _ _ _) rfl)
  exact .ite hd1.bootWork hd1.putDie.outputsOff

theorem execMemberQualified_shaped (i : Fin 32) (s : State) : KeepsShape s (execMemberQualified i s) := by
  refine keepsShape_done fun d h => ?_
  refine .ite ?_ (.ite ?_ h)
  · extract_lets d1
    have hd1 : d1.Shaped := h.updMbr.shelfUp
    exact .ite hd1.drained hd1
  · extract_lets d1
    have hd1 : d1.Shaped := h.updMbr
    exact .ite hd1.resume hd1

theorem execPbShortPress_shaped (s : State) : KeepsShape s (execPbShortPress s) := by
  refine keepsShape_done fun d h => ?_
  refine .ite ?_ h
  extract_lets d1
  have hd1 : d1.Shaped := h.updFh
  refine .ite hd1 ?_
  split
  · exact hd1.offRequest
  · exact hd1.offRequest
  · exact hd1.shelfDown.updFh.onRequest
  · exact hd1.onRequest

theorem execVauxMin_shaped (below1v8 : Bool) (s : State) : KeepsShape s (execVauxMin below1v8 s) := by
  refine keepsShape_done fun d h => ?_
  extract_lets d1 d2 d3 d4
  have hd1 : d1.Shaped := h.enterSafe.assertReset
  have hd2 : d2.Shaped := hd1.updSup
  have hd3 : d3.Shaped := hd2.updFh
  have hd4 : d4.Shaped := hd3.updFeed.updFeed
  exact .ite hd4 hd2

theorem execVauxReturn_shaped (s : State) : KeepsShape s (execVauxReturn s) := by
  refine keepsShape_done fun d h => ?_
  extract_lets d1 x d2
  have hd1 : d1.Shaped := h.updSup
  have hd2 : d2.Shaped := hd1.putDie
  exact .ite hd2 (.bbuFlush (hd2.frame (Dev.nvFlush_onlyIn _) rfl))

theorem execResetRelease_shaped (strap0 strap1 : Fin 8) (votes : Nat) (s : State) :
    KeepsShape s (execResetRelease strap0 strap1 votes s) := by
  refine keepsShape_next fun h => ?_
  split
  · exact h.afterReset
  · exact h

theorem execAutoOn_shaped (s : State) : KeepsShape s (execAutoOn s) := by
  refine keepsShape_done fun d h => ?_
  refine .ite ?_ h
  extract_lets d1 pb
  have hd1 : d1.Shaped := h.updFh
  exact .ite hd1 (.ite hd1.updFh.occur hd1.onRequest)

theorem execWriteHoldEnd_shaped (s : State) : KeepsShape s (execWriteHoldEnd s) := by
  refine keepsShape_done fun d h => ?_
  refine .ite ?_ h
  extract_lets d1
  have hd1 : d1.Shaped := h.updTherm
  exact .ite hd1 (.bbuFlush (hd1.frame (Dev.nvFlush_onlyIn _) rfl))

/-! ### The MRAM's image, the PEAT and the CRUST -/

theorem execImagePageWriteDone_shaped (t : Twin) (s : State) : KeepsShape s (execImagePageWriteDone t s) := by
  refine keepsShape_done fun d h => ?_
  split
  · exact h.putNv.updUpd.frame (Dev.pageNext_onlyIn _) rfl
  · exact h.putNv.updUpd.frame (Dev.pageNext_onlyIn _) rfl
  · exact h.putNv
  · exact h.putNv
  · exact h

theorem execPeatReadReady_shaped (s : State) : KeepsShape s (execPeatReadReady s) := by
  refine keepsShape_done fun d h => .ite h ?_
  have hlook : (d.peatLookup d.peat.rdSeq).1.Shaped := h.frame (Dev.peatLookup_onlyIn _ _) rfl
  dsimp only
  split
  · exact hlook.updPeat
  · exact hlook.updPeat

theorem execCrustProgramDone_shaped (votes : Nat) (s : State) : KeepsShape s (execCrustProgramDone votes s) := by
  refine keepsShape_done fun d h => ?_
  split
  · exact h.frame (Dev.crustVote_onlyIn _ _) rfl
  · extract_lets d1 d2
    have hd1 : d1.Shaped :=
      .frame (Dev.crustVote_onlyIn _ _) rfl (.frame (Dev.crustRead_onlyIn _) rfl (h.frame (Dev.crustProgram_onlyIn _ _) rfl))
    have hd2 : d2.Shaped := hd1.frame (Dev.crustDone_onlyIn _ _) rfl
    exact .ite hd1.crustTorn (.ite (.ite hd2.confirmNext hd2) (.ite hd2.endItem hd2))

/-! ### The two-wire ports -/

theorem execTwBlock_shaped (n : Fin 2) (window : Bool) (bytes : List Byte) (pec : Option Byte) (s : State) :
    KeepsShape s (execTwBlock n window bytes pec s) := by
  refine keepsShape_next fun h => ?_
  split
  · exact h.drive
  · extract_lets t bad
    have ht : t.d.Shaped := h.recvBlock
    split
    · exact ht.pecFail
    · cases bytes with
      | nil => exact ht.twStop
      | cons code data =>
        dsimp only
        split
        · exact State.windowBlock_shaped ht _ _ _
        · exact ht.pmBlock

theorem execRegWrite_shaped (n : Fin 2) (page off : Nat) (words : List Word32) (s : State) :
    KeepsShape s (execRegWrite n page off words s) :=
  keepsShape_next fun h => State.windowCmd_shaped h.recvBlock _ _ (State.windowWrite_shaped h.recvBlock _ _ _ _)

theorem execRegRead_shaped (n : Fin 2) (page off k : Nat) (s : State) : KeepsShape s (execRegRead n page off k s) :=
  keepsShape_next fun h => State.windowCmd_shaped h.recvBlock _ _ (State.windowRead_shaped h.recvBlock _ _ _ _)

theorem execSeqItem_shaped (n : Fin 2) (tag seq code : Nat) (args : List Byte) (s : State) :
    KeepsShape s (execSeqItem n tag seq code args s) :=
  keepsShape_next fun h => State.windowCmd_shaped h.recvBlock _ _ h.recvBlock.windowSeq

theorem execWindowTimeout_shaped (n : Fin 2) (s : State) : KeepsShape s (execWindowTimeout n s) := by
  refine keepsShape_done fun d h => ?_
  split
  · exact h
  · exact .ite h h.windowStatus.answer.updTwT.occur

theorem execPmPage_shaped (n : Fin 2) (w : Option Byte) (s : State) : KeepsShape s (execPmPage n w s) := by
  refine keepsShape_next fun h => ?_
  cases w with
  | some v => exact h.recvBlock.pagePut
  | none => exact State.pmRead_shaped h _ _ _

theorem execPmOperation_shaped (n : Fin 2) (w : Option Byte) (s : State) : KeepsShape s (execPmOperation n w s) := by
  refine keepsShape_next fun h => ?_
  cases w with
  | some v => exact h.recvBlock.pmWrite h.recvBlock
  | none => exact State.pmRead_shaped h _ _ _

theorem execPmWriteProtect_shaped (n : Fin 2) (w : Option Byte) (s : State) : KeepsShape s (execPmWriteProtect n w s) := by
  refine keepsShape_next fun h => ?_
  cases w with
  | some v => exact h.recvBlock.wpPut
  | none => exact State.pmRead_shaped h _ _ _

theorem execPmVoutCommand_shaped (n : Fin 2) (w : Option (BitVec 16)) (s : State) :
    KeepsShape s (execPmVoutCommand n w s) := by
  refine keepsShape_next fun h => ?_
  cases w with
  | some v => exact h.recvBlock.voutPut
  | none => exact State.pmRead_shaped h _ _ _

theorem execStandbyWake_shaped (c : WakeCause) (s : State) : KeepsShape s (execStandbyWake c s) := by
  refine keepsShape_done fun d h => ?_
  refine .ite ?_ h
  extract_lets x x1 d1
  have hx : x.Shaped := h.updSup
  have hd1 : d1.Shaped := hx.putTime
  split
  · exact hd1.enterSafe.assertReset
  · exact hd1.updSup
  · exact hd1
  · exact hd1

theorem execPoll_shaped (c : Fin 4) (i : Fin 16) (answer : TwAnswer) (s : State) : KeepsShape s (execPoll c i answer s) := by
  refine keepsShape_done fun d h => ?_
  refine .ite h (.ite h ?_)
  extract_lets d1 d2
  have hd1 : d1.Shaped := h.updTwC
  have hd2 : d2.Shaped := .ite hd1 (hd1.frame (Dev.sendRead_onlyIn _ _ _ _) rfl)
  exact hd2.txFirst

theorem execTwRetry_shaped (c : Fin 4) (answer : TwAnswer) (s : State) : KeepsShape s (execTwRetry c answer s) := by
  refine keepsShape_done fun d h => ?_
  split
  · exact h
  · dsimp only
    refine .ite h (.ite h.updTwC.txFailed ?_)
    split
    · exact h.updTwC.txDone
    · exact .txFailed (h.updTwC.frame (Dev.txError_onlyIn _ _ _) rfl)

theorem execBusRecovery_shaped (c : Fin 4) (b : BusState) (s : State) : KeepsShape s (execBusRecovery c b s) := by
  refine keepsShape_done fun d h => ?_
  refine .ite h ?_
  extract_lets d1
  have hd1 : d1.Shaped := h.updTwC
  split
  · exact hd1
  · exact hd1.occurC
  · exact hd1.occurC

/-! ### The fabric -/

theorem execBudget_shaped (p : MPort) (f : MFrame) (s : State) : KeepsShape s (execBudget p f s) :=
  keepsShape_done fun _ h => .ite h (h.received fun _ h => h.takeBudget)

theorem execAdvert_shaped (p : MPort) (f : MFrame) (s : State) : KeepsShape s (execAdvert p f s) :=
  keepsShape_done fun _ h => .ite h (h.received fun _ h => h.frame (Dev.takeAdvert_onlyIn _ _) rfl)

theorem execTimeFrame_shaped (p : MPort) (f : MFrame) (rx : Int) (s : State) : KeepsShape s (execTimeFrame p f rx s) := by
  refine keepsShape_done fun d h => .ite h ?_
  have hrecv := h.frame (Dev.receive_onlyIn d p f (some (d.instant rx))) rfl
  exact .ite hrecv (.ite (hrecv.frame (Dev.takeTime_onlyIn _ _ _ _) rfl) hrecv.occur)

theorem execMienoHeartbeat_shaped (p : MPort) (f : MFrame) (s : State) : KeepsShape s (execMienoHeartbeat p f s) := by
  refine keepsShape_done fun d h => .ite h ?_
  extract_lets e
  have he : e.Shaped := .ite (h.frame (Dev.checkConflict_onlyIn _ _) rfl) h
  have hrecv := he.frame (Dev.receive_onlyIn e p f none) rfl
  exact .ite (.frame (Dev.selectMaster_onlyIn _) rfl (hrecv.frame (Dev.updMember_onlyIn _ _ _) rfl)) hrecv

theorem execDigest_shaped (p : MPort) (f : MFrame) (s : State) : KeepsShape s (execDigest p f s) :=
  keepsShape_done fun _ h => .ite h (h.received fun _ h => h.frame (Dev.takeDigest_onlyIn _ _) rfl)

theorem execFabCommand_shaped (p : MPort) (f : MFrame) (s : State) : KeepsShape s (execFabCommand p f s) :=
  keepsShape_done fun _ h => .ite h (h.received fun _ h => h.takeCommand)

theorem execCommandReply_shaped (p : MPort) (f : MFrame) (s : State) : KeepsShape s (execCommandReply p f s) :=
  keepsShape_done fun _ h => .ite h (h.received fun _ h => h.frame (Dev.takeReply_onlyIn _ _) rfl)

theorem execSporeChunk_shaped (p : MPort) (f : MFrame) (s : State) : KeepsShape s (execSporeChunk p f s) :=
  keepsShape_done fun _ h => .ite h (h.received fun _ h => h.frame (Dev.takeSporeChunk_onlyIn _ _) rfl)

theorem execPeatReq_shaped (p : MPort) (f : MFrame) (s : State) : KeepsShape s (execPeatReq p f s) :=
  keepsShape_done fun _ h => .ite h (h.received fun _ h => h.frame (Dev.takePeatReq_onlyIn _ _) rfl)

theorem execPeatData_shaped (p : MPort) (f : MFrame) (s : State) : KeepsShape s (execPeatData p f s) :=
  keepsShape_done fun _ h => .ite h (h.received fun _ h => h)

theorem execTsetHoldExpiry_shaped (s : State) : KeepsShape s (execTsetHoldExpiry s) := by
  refine keepsShape_done fun d h => ?_
  split
  · exact .ite (h.updMie.frame (Dev.selectMaster_onlyIn _) rfl) h
  · exact h

theorem execAllocate_shaped (s : State) : KeepsShape s (execAllocate s) := by
  refine keepsShape_done fun d h => ?_
  split
  · exact h
  · exact .ite (.takeEntry (.updMie (.foldl (.ite h.occur h) fun _ _ h => .ite (h.frame (Dev.broadcast_onlyIn _ _ _) rfl) h))) h

theorem execShareIncrease_shaped (s : State) : KeepsShape s (execShareIncrease s) := by
  refine keepsShape_done fun d h => ?_
  split
  · exact .ite h.applyShare h
  · exact h

theorem execMemberSilent_shaped (id : Nat) (s : State) : KeepsShape s (execMemberSilent id s) := by
  refine keepsShape_done fun d h => ?_
  split
  · split
    · exact .ite (.occur (h.frame (Dev.updMember_onlyIn _ _ _) rfl)) h
    · exact h
  · exact h

theorem execFabResend_shaped (s : State) : KeepsShape s (execFabResend s) := by
  refine keepsShape_done fun d h => ?_
  split
  · exact h
  · exact .ite h (.ite h.updMie.occur (.ite h (.updMie (h.frame (Dev.fabSend_onlyIn _ _) rfl))))

/-! ### The work items -/

theorem execTimedItemExecute_shaped (s : State) : KeepsShape s (execTimedItemExecute s) := by
  refine keepsShape_done fun d h => ?_
  refine .ite h ?_
  split
  · exact h
  · exact .ite h.updHead.endItem (.ite h.updHead.endItem (.ite h.updHead.endItem (.ite h h.updHead)))

theorem execActivate_shaped (s : State) : KeepsShape s (execActivate s) := by
  refine keepsShape_done fun d h => h.execHead fun w => ?_
  extract_lets f started armed
  have hstarted : started.Shaped := h.execMark.startItem
  have harmed : armed.Shaped := hstarted.updUpd.setUpd
  have hrefused : (if d.upd.hasImage then d.swapRefused 4 else d).Shaped :=
    .ite (h.frame (Dev.swapRefused_onlyIn _ _) rfl) h
  exact .ite h.endItem (.ite hrefused.endItem (.ite h.endItem (.ite h.endItem (.ite h
    (.ite (harmed.frame (Dev.armSwap_onlyIn _ _) rfl) harmed)))))

theorem execSporeCommit_shaped (other : Option (Nat × Nat × Nat)) (s : State) : KeepsShape s (execSporeCommit other s) := by
  refine keepsShape_done fun d h => h.execHead fun w => ?_
  extract_lets u e marked
  have he : e.Shaped := h.updUpd.setUpd
  have hmarked : marked.Shaped := he.execMark
  clear_value marked e u
  refine .ite h.commitFailed (.ite h ?_)
  split
  rename_i r ss _
  refine .ite he.commitFailed ?_
  extract_lets loaded
  have hloaded : loaded.Shaped := by
    dsimp only [loaded]
    split
    · exact hmarked
    · exact hmarked.frame (Dev.loadImage_onlyIn _ _ _) rfl
  clear_value loaded
  exact .ite hloaded.commitFailed hloaded.commitDone.endItem

theorem execClearCounter_shaped (s : State) : KeepsShape s (execClearCounter s) := by
  refine keepsShape_done fun d h => h.execHead fun w => ?_
  split
  · exact h.endItem
  · exact h.startItem

theorem execManagementPauseEnd_shaped (s : State) : KeepsShape s (execManagementPauseEnd s) := by
  refine keepsShape_next fun h => ?_
  split
  · exact State.release_shaped h.pauseEnd
  · exact h

theorem execSnapHold_shaped (p : Path) (n : Fin 2) (v : Word32) (s : State) : KeepsShape s (execSnapHold p n v s) :=
  keepsShape_next fun h => (State.snapFrom_shaped h p n.val v.toNat).frame (Dev.closeLock_onlyIn _ _ _) rfl

theorem execHoldExpired_shaped (n : Fin 2) (s : State) : KeepsShape s (execHoldExpired n s) := by
  unfold execHoldExpired
  extract_lets held left
  refine keepsShape_next fun h => ?_
  split
  · refine Dev.Shaped.occur ?_
    rw [State.snapWrite_d]; exact h
  · exact h

/-! ### The supplies and the islands -/

theorem execSupplyOutOfRange_shaped (x : Supply) (s : State) : KeepsShape s (execSupplyOutOfRange x s) := by
  refine keepsShape_done fun d h => ?_
  split
  · exact h.frame (Dev.loseCore_onlyIn _ _) rfl
  · exact h.frame (Dev.loseCore_onlyIn _ _) rfl
  · exact h.loseCoreS
  · exact h.vanaLoss
  · exact h.vanaLoss

theorem execSupplyInRange_shaped (x : Supply) (s : State) : KeepsShape s (execSupplyInRange x s) := by
  refine keepsShape_done fun d h => ?_
  split
  · exact h.updSup.putTime
  · exact h.updSup.putTime
  · exact h.updSup
  · exact h.vanaBack
  · exact h.vanaBack

theorem execIslandUnlock_shaped (t : Twin) (i : Fin 11) (s : State) : KeepsShape s (execIslandUnlock t i s) := by
  refine keepsShape_done fun d h => ?_
  refine .occur ?_
  split
  · exact h.putTime
  · exact h.putTime

/-! ### Every command -/

/-- Every command keeps the shape. -/
theorem exec_shaped (c : Instr) (s : State) : KeepsShape s (exec c s) := by
  cases c with
  | tick _ => exact execTick_shaped _ _
  | actuationFrame _ _ _ => exact execActuationFrame_shaped _ _ _ _
  | noValidCopySafeState =>
    exact keepsShape_done fun _ h => .ite (.frame (Dev.abandonResync_onlyIn _ _) rfl
      (h.enterSafe.frame (Dev.abandonResync_onlyIn _ _) rfl)) h
  | outboundBlockTx _ _ => exact execOutboundBlockTx_shaped _ _ _
  | frondBoundary _ => exact execFrondBoundary_shaped _ _
  | rowEpochBoundary => exact keepsShape_done fun _ h => .ite h.newEpoch h
  | blkStatusClear _ _ _ => exact keepsShape_done fun _ h => h.statusWrite.frame (Dev.closeLock_onlyIn _ _ _) rfl
  | clearRefusedClear _ => exact keepsShape_done fun _ h => .ite h (h.frame (Dev.clearRefusedOff_onlyIn _ _) rfl)
  | blkIntForce _ _ => exact keepsShape_done fun _ h => h.frame (Dev.occurMask_onlyIn _ _ _) rfl
  | blkLock _ _ _ => exact keepsShape_done fun _ h => .ite (h.frame (Dev.lockWrite_onlyIn _ _ _ _) rfl) h
  | lockTimeout _ _ => exact keepsShape_done fun _ h => .ite (h.frame (Dev.closeLock_onlyIn _ _ _) rfl) h
  | blkCommit _ => exact keepsShape_done fun _ h => .ite (h.frame (Dev.commitPage_onlyIn _ _) rfl) h
  | registerWrite _ _ _ _ => exact execRegisterWrite_shaped _ _ _ _ _
  | refclkLoss => exact keepsShape_done fun _ h => .ite h h.putTime.occur
  | refclkRelock => exact keepsShape_done fun _ h => .ite h.putTime h
  | beaconError _ => exact keepsShape_done fun _ h => h.occur.frame (Dev.selfErr_onlyIn _ _ _) rfl
  | vcoreTwinLoss _ => exact keepsShape_done fun _ h => h.frame (Dev.loseCore_onlyIn _ _) rfl
  | vcoreSLoss => exact keepsShape_done fun _ h => h.loseCoreS
  | regionLoss _ => exact keepsShape_done fun _ h => h.loseRegion
  | timebaseUnlock _ => exact keepsShape_done fun _ h => h.loseRegion
  | clusterFault _ => exact keepsShape_done fun _ h => h.putDie.loseClusters
  | unitLostReturn _ => exact execUnitLostReturn_shaped _ _
  | bankSwap => exact keepsShape_done fun _ h => .ite (h.frame (Dev.bankSwap_onlyIn _) rfl) h
  | hotSwapFullyOn _ => exact keepsShape_done fun _ h => .ite h.updHs.updRail h
  | softStartDone _ => exact keepsShape_done fun _ h => .ite h.updRail.thermalShed h
  | softStopDone _ => exact keepsShape_done fun _ h => .ite h.railOff h
  | shortDetect _ => exact keepsShape_done fun _ h => .ite h.tripRail h
  | phaseShed _ => exact execPhaseShed_shaped _ _
  | shedRamp _ => exact keepsShape_done fun _ h => .ite h.updUnit h
  | shedTri _ => exact keepsShape_done fun _ h => .ite h.updUnit h
  | burstStart _ => exact keepsShape_done fun _ h => .ite h.burstRail h
  | fastLimitTrip _ _ => exact keepsShape_done fun _ h => .ite h h.updUnit
  | unitOverload _ => exact keepsShape_done fun _ h => .ite h.occur.updUnit.faultUnit h
  | railOverload _ => exact keepsShape_done fun _ h => .ite h.tripRail h
  | railUv _ => exact keepsShape_done fun _ h => .ite h.tripRail h
  | railOv _ => exact keepsShape_done fun _ h => .ite h.tripRail h
  | railRetryEnd _ => exact keepsShape_done fun _ h => .ite h.retryEnd h
  | railRetryCountReset _ => exact keepsShape_done fun _ h => .ite h.updRail h
  | injectionDurationEnd => exact keepsShape_done fun _ h => .ite (h.frame (Dev.injStop_onlyIn _ _) rfl) h
  | capArm => exact keepsShape_done fun _ h => h.frame (Dev.capArm_onlyIn _) rfl
  | capForce => exact keepsShape_done fun _ h => h.frame (Dev.capForce_onlyIn _) rfl
  | captureFilled => exact keepsShape_done fun _ h => .ite h.putCap h
  | captureDone => exact keepsShape_done fun _ h => .ite h.putCap.occur h
  | capRd _ => exact keepsShape_done fun _ h => h.frame (Dev.capRdWrite_onlyIn _ _) rfl
  | capReadReady => exact keepsShape_done fun _ h => .ite h.putCap h
  | requestFrame _ _ _ _ _ => exact keepsShape_done fun _ h => h.requestFrame
  | heldRequestDeliver _ => exact keepsShape_done fun _ h => h.updPort
  | stepPortLinkUp _ => exact keepsShape_done fun _ h => h.updPort
  | stepPortLinkDown _ => exact execStepPortLinkDown_shaped _ _
  | stepUp _ => exact keepsShape_done fun _ h => h.admitCmd
  | stepDown _ => exact keepsShape_done fun _ h => h.admitCmd
  | announce _ => exact keepsShape_done fun _ h => h.admitCmd
  | release _ => exact keepsShape_done fun _ h => h.admitCmd
  | heartbeat _ => exact keepsShape_done fun _ h => h.admitCmd
  | ledgerLeaveConservative => exact keepsShape_done fun _ h => .ite h.updLed h
  | stepSettle _ => exact keepsShape_done fun _ h => h.updLed
  | reservationExpire _ => exact execReservationExpire_shaped _ _
  | unannHalving => exact keepsShape_done fun _ h => .ite (h.updLed.put (ports := List.length_map ..)) h
  | portStale _ => exact execPortStale_shaped _ _
  | capLevelFall _ => exact keepsShape_done fun _ h => .ite h.updPort h
  | freezeLong => exact keepsShape_done fun _ h => .ite h.updLed.occur h
  | imonInvalid _ => exact keepsShape_done fun _ h => .ite h.occur.updUnit.faultUnit h
  | preInvalid _ => exact execPreInvalid_shaped _ _
  | metrologyResult _ _ => exact execMetrologyResult_shaped _ _ _
  | refSettled => exact keepsShape_done fun _ h => .ite h.updRef h
  | vrefxFallback => exact keepsShape_done fun _ h => .ite h.newRef.occur h
  | auxStepDone => exact execAuxStepDone_shaped _
  | auxStale _ => exact keepsShape_done fun _ h => .ite (.occur (h.updAux (hf := updAt_length ..))) h
  | intmonResult _ => exact execIntmonResult_shaped _ _
  | calWindowStart => exact execCalWindowStart_shaped _
  | calTakeover => exact keepsShape_done fun _ h => .ite (.ite h.updCal (.ite h.updCal.updUnit h)) h
  | calReconnect _ => exact execCalReconnect_shaped _ _
  | calReturn => exact execCalReturn_shaped _
  | calDisconnect => exact keepsShape_done fun _ h => .ite h.updCal h
  | calWindowRestart => exact keepsShape_done fun _ h => .ite h.updCal h
  | sensCalNow _ => exact keepsShape_done fun _ h => h.calNow
  | reverseCurrentTrip _ => exact keepsShape_done fun _ h => h.updFeed
  | hotSwapFastTrip _ => exact keepsShape_done fun _ h => h.updHs
  | feedReady _ => exact keepsShape_done fun _ h => .ite h.updFeed h
  | feedInvalid _ => exact keepsShape_done fun _ h => .ite h.updFeed h
  | feedFullyOn _ => exact keepsShape_done fun _ h => .ite h.updFeed h
  | feedPowerGood _ => exact execFeedPowerGood_shaped _ _
  | feedTransfer => exact execFeedTransfer_shaped _
  | transferDeadEnd => exact execTransferDeadEnd_shaped _
  | transferInterlockFail => exact execTransferInterlockFail_shaped _
  | insTimeout _ => exact execInsTimeout_shaped _ _
  | feedReturn => exact execFeedReturn_shaped _
  | feedOv _ => exact keepsShape_done fun _ h => .ite h.feedFault h
  | feedRetryEnd _ => exact keepsShape_done fun _ h => .ite (.ite h.updFeed h.updFeed.occurC) h
  | feedRetryCountReset _ => exact keepsShape_done fun _ h => .ite h.updFeed h
  | g1JudgementResume => exact execG1JudgementResume_shaped _
  | vgdLow => exact keepsShape_done fun _ h => .ite h.updSup.occur h
  | hotSwapOnTimeout _ => exact keepsShape_done fun _ h => .ite h.hsFault h
  | hotSwapSlowTrip _ => exact keepsShape_done fun _ h => .ite h.hsTrip h
  | countInvalid _ => exact keepsShape_done fun _ h => .ite h.learnDq.updBbu.occur h
  | fullAnchor _ => exact keepsShape_done fun _ h => .ite h.updBbu h
  | emptyAnchor _ => exact keepsShape_done fun _ h => .ite h.updBbu h
  | reserveEntry _ => exact keepsShape_done fun _ h => .ite h.updBbu.occur.bbuStore h
  | bbuStatusPoll _ _ => exact execBbuStatusPoll_shaped _ _ _
  | bbuInsertion _ _ => exact execBbuInsertion_shaped _ _ _
  | bbuRemoval _ => exact keepsShape_done fun _ h => .ite h.bbuRemove h
  | firstEstimate _ => exact keepsShape_done fun _ h => .ite (.updBbu (.ite h h.occur)) h
  | compatSwap _ => exact keepsShape_done fun _ h => .ite h.bbuStart.updBbu.occur h
  | chgComm _ => exact keepsShape_done fun _ h => .ite h.updBbu.occur h
  | twinSilent _ => exact execTwinSilent_shaped _ _
  | hbPathLost _ _ => exact execHbPathLost_shaped _ _ _
  | hbPathRestored _ _ => exact execHbPathRestored_shaped _ _ _
  | twinSelfTestDone _ => exact keepsShape_done fun _ h => .ite (h.updTwin.frame (Dev.setLocks_onlyIn _ _ _) rfl) h
  | restartFail _ => exact keepsShape_done fun _ h => .ite (.occur (h.frame (Dev.twinOut_onlyIn _ _ _) rfl)) h
  | cutIn _ => exact execCutIn_shaped _ _
  | probationEnd _ => exact keepsShape_done fun _ h => .ite h.updTwin h
  | autoRestart _ => exact keepsShape_done fun _ h => .ite (h.frame (Dev.quarantine_onlyIn _ _ _) rfl) h
  | itemCompletion => exact execItemCompletion_shaped _
  | compRd _ => exact keepsShape_done fun _ h => h.moveCompRd
  | bootSelfTestDone _ _ => exact execBootSelfTestDone_shaped _ _ _
  | twinBootTimeout _ => exact keepsShape_done fun _ h => .ite h (h.frame (Dev.twinFails_onlyIn _ _) rfl)
  | memberParentMet _ => exact keepsShape_done fun _ h => .ite h.updMbr h
  | onDelayEnd _ => exact keepsShape_done fun _ h => .ite h.updFh.updMbr.outOn h
  | memberQualified _ => exact execMemberQualified_shaped _ _
  | memberQualTimeout _ => exact keepsShape_done fun _ h => .ite h.failOwn.afterFail h
  | memberLossHold _ => exact keepsShape_done fun _ h => .ite h.failOwn h
  | offDelayEnd _ => exact keepsShape_done fun _ h => .ite h.updMbr.outOff h
  | offConfirmed _ => exact keepsShape_done fun _ h => .ite h.memberStopped h
  | offFail _ => exact keepsShape_done fun _ h => .ite h.occur.memberStopped h
  | fhFailedClear _ => exact keepsShape_done fun _ h => h.fhClear
  | drainingEnd => exact keepsShape_done fun _ h => .ite h.drained h
  | offDwellEnd => exact keepsShape_done fun _ h => .ite h.powerUp h
  | shelfOn =>
    exact keepsShape_done fun _ h => h.execHead fun _ => .ite h.endItem (.ite h.endItem h.onRequest.endItem)
  | shelfOff => exact keepsShape_done fun _ h => h.execHead fun _ => h.offRequest.endItem
  | pbShortPress => exact execPbShortPress_shaped _
  | pbLongPress => exact keepsShape_done fun _ h => .ite h.updFh.occur.forcedOff h
  | safeNAssert => exact keepsShape_done fun _ h => h.updFh.outputsOff
  | mrNReset => exact keepsShape_done fun _ h => h.enterSafe.assertReset
  | vauxWarn => exact keepsShape_done fun _ h => .ite h (.crustTear (h.updSup.occur.frame (Dev.finalRecord_onlyIn _ _) rfl))
  | vauxMin _ => exact execVauxMin_shaped _ _
  | vauxReturn => exact execVauxReturn_shaped _
  | resetRelease _ _ _ => exact execResetRelease_shaped _ _ _ _
  | holdLow => exact keepsShape_done fun _ h => .ite h.updSup (.ite h h.updSup.occur)
  | autoOn => exact execAutoOn_shaped _
  | rateCheckEnable => exact keepsShape_done fun _ h => .ite h.updTherm h
  | thermalHoldEnd _ => exact keepsShape_done fun _ h => .ite h.updUnit h
  | writeHoldEnd => exact execWriteHoldEnd_shaped _
  | imagePageWriteDone _ => exact execImagePageWriteDone_shaped _ _
  | peatCtrl _ => exact keepsShape_done fun _ h => h.frame (Dev.peatTrig_onlyIn _ _) rfl
  | peatRd _ => exact keepsShape_done fun _ h => h.frame (Dev.peatRdWrite_onlyIn _ _) rfl
  | peatReadReady => exact execPeatReadReady_shaped _
  | crustProgramDone _ => exact execCrustProgramDone_shaped _ _
  | twBlock _ _ _ _ => exact execTwBlock_shaped _ _ _ _ _
  | regWrite _ _ _ _ => exact execRegWrite_shaped _ _ _ _ _
  | regRead _ _ _ _ => exact execRegRead_shaped _ _ _ _ _
  | seqItem _ _ _ _ _ => exact execSeqItem_shaped _ _ _ _ _ _
  | replyRead _ => exact keepsShape_done fun _ h => .ite h.drive h.recvBlock.windowReply
  | windowTimeout _ => exact execWindowTimeout_shaped _ _
  | sclHeldTimeout _ => exact keepsShape_done fun _ h => .ite h h.drive.occur
  | sdaReleased _ => exact keepsShape_done fun _ h => .ite h h.drive.occur
  | alertResponse _ => exact keepsShape_done fun _ h => .ite h.drive h.drive.twStop
  | pmPage _ _ => exact execPmPage_shaped _ _ _
  | pmOperation _ _ => exact execPmOperation_shaped _ _ _
  | pmClearFaults _ => exact keepsShape_done fun _ h => h.recvBlock.pmWrite h.recvBlock
  | pmWriteProtect _ _ => exact execPmWriteProtect_shaped _ _ _
  | pmCapability _ => exact keepsShape_next fun h => State.pmRead_shaped h _ _ _
  | pmVoutMode _ => exact keepsShape_next fun h => State.pmRead_shaped h _ _ _
  | pmVoutCommand _ _ => exact execPmVoutCommand_shaped _ _ _
  | pmStatusByte _ => exact keepsShape_next fun h => State.pmRead_shaped h _ _ _
  | pmStatusWord _ => exact keepsShape_next fun h => State.pmRead_shaped h _ _ _
  | pmStatusVout _ => exact keepsShape_next fun h => State.pmRead_shaped h _ _ _
  | pmStatusIout _ => exact keepsShape_next fun h => State.pmRead_shaped h _ _ _
  | pmStatusInput _ => exact keepsShape_next fun h => State.pmRead_shaped h _ _ _
  | pmStatusTemperature _ => exact keepsShape_next fun h => State.pmRead_shaped h _ _ _
  | pmStatusCml _ => exact keepsShape_next fun h => State.pmRead_shaped h _ _ _
  | pmReadVin _ => exact keepsShape_next fun h => State.pmRead_shaped h _ _ _
  | pmReadIin _ => exact keepsShape_next fun h => State.pmRead_shaped h _ _ _
  | pmReadVout _ => exact keepsShape_next fun h => State.pmRead_shaped h _ _ _
  | pmReadIout _ => exact keepsShape_next fun h => State.pmRead_shaped h _ _ _
  | pmReadTemperature1 _ => exact keepsShape_next fun h => State.pmRead_shaped h _ _ _
  | pmReadPout _ => exact keepsShape_next fun h => State.pmRead_shaped h _ _ _
  | pmRevision _ => exact keepsShape_next fun h => State.pmRead_shaped h _ _ _
  | pmMfrId _ => exact keepsShape_next fun h => State.pmRead_shaped h _ _ _
  | pmMfrModel _ => exact keepsShape_next fun h => State.pmRead_shaped h _ _ _
  | pmMfrRevision _ => exact keepsShape_next fun h => State.pmRead_shaped h _ _ _
  | pmMfrShelf _ => exact keepsShape_next fun h => State.pmRead_shaped h _ _ _
  | pmMfrBudget _ => exact keepsShape_next fun h => State.pmRead_shaped h _ _ _
  | pmMfrFaultPages _ => exact keepsShape_next fun h => State.pmRead_shaped h _ _ _
  | openItem _ _ => exact keepsShape_done fun _ h => .ite h.updUpd h.decideOpen
  | clearStatus =>
    exact keepsShape_done fun _ h => h.execHead fun _ => .ite h.startItem.clearRequest h.statusWrite.endItem
  | clearCounter => exact execClearCounter_shaped _
  | roleSwap =>
    exact keepsShape_done fun _ h => h.execHead fun _ => .ite (.ite h (h.execMark.startItem.frame (Dev.updCtl_onlyIn _ _) rfl))
      h.endItem
  | twinRestart =>
    exact keepsShape_done fun _ h => h.execHead fun _ => .ite (.endItem (h.frame (Dev.twinRestart_onlyIn _ _) rfl)) h.endItem
  | crustWrite =>
    exact keepsShape_done fun _ h => h.execHead fun _ => .ite h.crustEnd (.ite h
      (.startItem (h.execMark.frame (Dev.crustStart_onlyIn _ _ _ _ _) rfl)))
  | standby => exact keepsShape_done fun _ h => h.execHead fun _ => .ite h.updSup.endItem h.endItem
  | standbyWake _ => exact execStandbyWake_shaped _ _
  | hostNotify _ _ => exact keepsShape_done fun _ h => .ite h h.updTwT.twStop
  | hnFail _ => exact keepsShape_done fun _ h => .ite h.updTwT.occur h
  | poll _ _ _ => exact execPoll_shaped _ _ _ _
  | twRetry _ _ => exact execTwRetry_shaped _ _ _
  | arbLost _ _ _ => exact keepsShape_done fun _ h => .ite h (.ite h.occur.arbLoss h.updTwC.occur.arbLoss)
  | arbCond _ => exact keepsShape_done fun _ h => .ite h (.ite h.occur.arbLoss h.occur.arbLoss)
  | arbRetry _ => exact keepsShape_done fun _ h => .ite h.updTwT h.updTwC
  | controllerSclTimeout _ => exact keepsShape_done fun _ h => .ite h h.occur
  | busRecovery _ _ => exact execBusRecovery_shaped _ _ _
  | mienoLinkUp _ => exact keepsShape_done fun _ h => .ite h (h.frame (Dev.updMp_onlyIn _ _ _) rfl)
  | mienoLinkDown _ => exact keepsShape_done fun _ h => .ite (.occur (h.frame (Dev.updMp_onlyIn _ _ _) rfl)) h
  | linkFrame _ _ _ _ _ _ =>
    exact keepsShape_done fun _ h => .ite h (.updMie (.frame (Dev.updMp_onlyIn _ _ _) rfl
      (h.frame (Dev.sendLink_onlyIn _ _ _) rfl)))
  | duplicateWindowReset _ => exact keepsShape_done fun _ h => h.updMie
  | budget _ _ => exact execBudget_shaped _ _ _
  | advert _ _ => exact execAdvert_shaped _ _ _
  | timeFrame _ _ _ => exact execTimeFrame_shaped _ _ _ _
  | mienoHeartbeat _ _ => exact execMienoHeartbeat_shaped _ _ _
  | idConflictClear => exact keepsShape_done fun _ h => .ite h.updMie h
  | digest _ _ => exact execDigest_shaped _ _ _
  | fabCommand _ _ => exact execFabCommand_shaped _ _ _
  | commandReply _ _ => exact execCommandReply_shaped _ _ _
  | sporeChunk _ _ => exact execSporeChunk_shaped _ _ _
  | peatReq _ _ => exact execPeatReq_shaped _ _ _
  | peatData _ _ => exact execPeatData_shaped _ _ _
  | unknownFrame _ _ => exact keepsShape_done fun _ h => .ite h (h.frame (Dev.receive_onlyIn _ _ _ _) rfl)
  | mienoHeartbeatTx => exact keepsShape_done fun _ h => .ite (h.updMie.frame (Dev.broadcast_onlyIn _ _ _) rfl) h
  | timeHold => exact keepsShape_done fun _ h => .ite h.updMie.occur h
  | timeGo _ => exact keepsShape_done fun _ h => h.frame (Dev.timeGo_onlyIn _) rfl
  | tsetHoldExpiry => exact execTsetHoldExpiry_shaped _
  | digestTx => exact keepsShape_done fun _ h => .ite (h.updMie.frame (Dev.broadcast_onlyIn _ _ _) rfl) h
  | allocate => exact execAllocate_shaped _
  | shareIncrease => exact execShareIncrease_shaped _
  | memberSilent _ => exact execMemberSilent_shaped _ _
  | rowExt _ => exact keepsShape_done fun _ h => h.frame (Dev.rowExtWrite_onlyIn _ _) rfl
  | extHoldExpiry => exact keepsShape_done fun _ h => .ite (h.updMie.frame (Dev.setFld_onlyIn _ _ _ _ _ _) rfl) h
  | fabGo _ => exact keepsShape_done fun _ h => h.frame (Dev.fabGoWrite_onlyIn _) rfl
  | fabResend => exact execFabResend_shaped _
  | timedItemExecute => exact execTimedItemExecute_shaped _
  | chStart _ => exact keepsShape_done fun _ h => .ite (.chStartUp (h.frame (Dev.setFld_onlyIn _ _ _ _ _ _) rfl)) h
  | chAbort _ => exact keepsShape_done fun _ h => .ite (.chStop (h.frame (Dev.setFld_onlyIn _ _ _ _ _ _) rfl)) h
  | chPause _ => exact keepsShape_done fun _ h => .ite (.chPauseOn (h.frame (Dev.setFld_onlyIn _ _ _ _ _ _) rfl)) h
  | chResume _ => exact keepsShape_done fun _ h => .ite (.chPauseOff (h.frame (Dev.setFld_onlyIn _ _ _ _ _ _) rfl)) h
  | sessionOpen =>
    exact keepsShape_done fun _ h => h.execHead fun _ => .ite h.updUpd.endItem (.ite h.endItem h.sessionStart)
  | sessionClose => exact keepsShape_done fun _ h => h.execHead fun _ => .ite h.sessionEnd.endItem h.endItem
  | chunkCtl _ _ => exact keepsShape_done fun _ h => h.frame (Dev.chunkCtl_onlyIn _ _ _) rfl
  | sessionIdleTimeout => exact keepsShape_done fun _ h => .ite h.sessionEnd.occur h
  | sporeCommit _ => exact execSporeCommit_shaped _ _
  | activate => exact execActivate_shaped _
  | compareSuspend => exact keepsShape_done fun _ h => .ite (.updUpd (h.frame (Dev.updCtl_onlyIn _ _) rfl)) h
  | activationSwitch => exact keepsShape_done fun _ h => .ite (.ite h.switchNew (.ite h.switchOld h)) h
  | managementPauseEnd => exact execManagementPauseEnd_shaped _
  | compareResume => exact keepsShape_done fun _ h => .ite (.updUpd (h.frame (Dev.updCtl_onlyIn _ _) rfl)) h
  | confirm =>
    exact keepsShape_done fun _ h => .ite (.ite h.confirmNext h)
      (h.execHead fun _ => .ite h.endItem h.startItem.confirmNext)
  | rollback =>
    exact keepsShape_done fun _ h => h.execHead fun _ => .ite h.endItem (.ite (.endItem (.ite
      (h.frame (Dev.swapRefused_onlyIn _ _) rfl) h)) (.ite h h.execMark.startItem.rollStart))
  | confirmTimerExpiry => exact keepsShape_done fun _ h => .ite h.rollStart h
  | snapHold _ _ _ => exact execSnapHold_shaped _ _ _ _
  | holdExpired _ => exact execHoldExpired_shaped _ _
  | testenHigh => exact keepsShape_done fun _ h => .ite h.updSup.putDie h
  | supplyOutOfRange _ => exact execSupplyOutOfRange_shaped _ _
  | supplyInRange _ => exact execSupplyInRange_shaped _ _
  | safeNRelease => exact keepsShape_done fun _ h => h.updFh
  | vgdOkRise => exact keepsShape_done fun _ h => h.updSup
  | islandUnlock _ _ => exact execIslandUnlock_shaped _ _ _
  | timebaseRelock _ => exact keepsShape_done fun _ h => .ite (h.setRegion.when fun _ h => h.metRestart) h

/-- Settles O5: a step runs the command at the front of the queue, and every command keeps the shape. -/
theorem shapeIsKept : Obligations.ShapeIsKept := by
  intro s t h hstep
  unfold step at hstep
  split at hstep
  · cases hstep; exact h
  · exact Dev.shape_iff.mpr (exec_shaped _ _ t hstep (Dev.shape_iff.mp h))

end Sys2Proof.Machine
end

section
/-! PROOF. Rails by number, and what a rail that stops switching does to its page, its units and the other rails (R89, R92, R113,
R118). -/

namespace Sys2Proof.Machine

/-! ### Rails by number -/

theorem Dev.rail_congr {d e : Dev} (h : e.rails = d.rails) (r : Nat) : e.rail r = d.rail r :=
  congrArg (fun l => nth l r Rail.reset) h

theorem Dev.rail_updRail_same (d : Dev) {r : Nat} (f : Rail → Rail) (h : r < d.rails.length) :
    (d.updRail r f).rail r = f (d.rail r) := nth_updAt_same _ _ _ h

/-- The block with its fixed shape has 4 rails. -/
theorem Dev.rails_length {d : Dev} (h : d.shape = true) : d.rails.length = 4 := (Dev.shape_iff.mp h).1

theorem Dev.rail_lt {d : Dev} (h : d.shape = true) (r : Fin 4) : r.val < d.rails.length := by
  rw [Dev.rails_length h]; exact r.isLt

theorem Dev.unit_lt {d : Dev} (h : d.shape = true) {n : Nat} (hn : n < 64) : n < d.units.length := by
  rw [(Dev.array_length h).1]; exact hn

theorem Dev.isMember_congr {d e : Dev} (h : e.regs = d.regs) (r n : Nat) : e.isMember r n = d.isMember r n := by
  rw [Dev.isMember, Dev.memberOf_congr h]; rfl

theorem causeOf_railPg {r : Nat} (hr : r < 4) (bit : Nat) : causeOf (railPg r) bit = bit + 1 := by
  unfold causeOf railPg
  iterate 9 rw [if_neg (by omega)]

theorem causeOf_unitPg {n : Nat} (hn : n < 64) (bit : Nat) : causeOf (unitPg n) bit = bit + 1 := by
  unfold causeOf unitPg
  iterate 9 rw [if_neg (by omega)]

/-! ### Units in tri-state -/

@[simp] theorem PhUnit.still_tri (u : PhUnit) : u.still.tri = true := by unfold PhUnit.still; split <;> rfl

@[simp] theorem PhUnit.still_duty (u : PhUnit) : u.still.duty = 0 := by unfold PhUnit.still; split <;> rfl

@[simp] theorem PhUnit.still_ovl (u : PhUnit) : u.still.ovl = u.ovl := by unfold PhUnit.still; split <;> rfl

theorem PhUnit.still_fault {u : PhUnit} (h : u.st = .fault) : u.still.st = .fault := by
  rw [PhUnit.still, if_pos (.inl h)]; exact h

/-- The units where every member of rail `r` is put in tri-state (R89). -/
theorem Dev.unit_triAll {d : Dev} (hlen : d.units.length = 64) (r : Nat) {n : Nat} (hn : n < 64) :
    (d.triAll r).unit n = if d.isMember r n then (d.unit n).still else d.unit n := by
  refine foldN_at (π := fun n e => e.unit n) (F := fun n u => if d.isMember r n then u.still else u)
    (I := fun e => e.regs = d.regs ∧ e.units.length = 64) ⟨rfl, hlen⟩ (fun e k _ hI => ?_) (fun e k hk hI => ?_)
    (fun e k j _ _ hne _ => ?_) hn
  · split
    · exact ⟨hI.1, (updAt_length _ _ _).trans hI.2⟩
    · exact hI
  · rw [Dev.isMember_congr hI.1]
    split
    · exact e.unit_updUnit_same _ (hI.2 ▸ hk)
    · rfl
  · split
    · exact e.unit_updUnit_other _ hne
    · rfl

/-- From `d` to `e` every member unit of rail `r` goes into tri-state with duty 0, and every other unit stands (R89). -/
def Dev.UnitsRest (d e : Dev) (r : Nat) : Prop :=
  ∀ n, n < 64 → if d.isMember r n then (e.unit n).tri = true ∧ (e.unit n).duty = 0 else e.unit n = d.unit n

/-- What has the units of `triAll` on a block with the units and members of `d`. -/
theorem Dev.unitsRest_of_triAll {d e f : Dev} (hlen : d.units.length = 64) {r : Nat} (hregs : f.regs = d.regs)
    (hunits : f.units = d.units) (he : e.units = (f.triAll r).units) : d.UnitsRest e r := by
  intro n hn
  rw [Dev.unit_congr he, Dev.unit_triAll (hunits ▸ hlen) r hn, Dev.isMember_congr hregs, Dev.unit_congr hunits]
  split <;> simp

/-! ### Status words of other pages -/

theorem Dev.statOf_injLeave {d : Dev} {q : Nat} (r : Nat) (hq : q ≠ 0xE0) : (d.injLeave r).statOf q = d.statOf q := by
  have hstop : (d.injStop 3).statOf q = d.statOf q := by
    unfold Dev.injStop
    split
    · exact Dev.statOf_occur_other _ 0 hq
    · rfl
  unfold Dev.injLeave Dev.injStopRail
  split_ifs
  · exact hstop
  · rfl
  · rfl

theorem Dev.statOf_failMember {d : Dev} {q : Nat} (i cause : Nat) (keep : Bool) (hq : q ≠ 0xA4) :
    (d.failMember i cause keep).statOf q = d.statOf q :=
  (Dev.statOf_congr (Dev.stopDependants_onlyIn _ i .stat (by decide)) q).trans (Dev.statOf_occur_other _ 0 hq)

theorem Dev.statOf_memberBlockFault {d : Dev} {q : Nat} (m : Nat) (hq : q ≠ 0xA4) :
    (d.memberBlockFault m).statOf q = d.statOf q := by
  unfold Dev.memberBlockFault
  split
  case h_5 => exact Dev.statOf_occur_other _ 0 hq
  case h_6 => rfl
  all_goals exact Dev.statOf_failMember _ _ _ hq

/-! ### A rail that trips, and a rail that goes off -/

/-- A rail in FAULT_WAIT with its gate off and `delay` ticks to its retry (R118). -/
def Rail.tripped (x : Rail) (delay : Nat) : Rail := { x.quiet with st := .faultWait, gateOn := false, retryLeft := delay }

/-- RETRY_DELAY of a rail in ticks (R118). -/
def Dev.retryTicks (d : Dev) (r : Nat) : Nat := d.fld (railPg r) 0x60 15 0 * 256

theorem Dev.rails_tripRailBy (d : Dev) (r pg bit : Nat) :
    (d.tripRailBy r pg bit).rails = updAt d.rails r fun x => x.tripped (d.retryTicks r) := by
  have hblock : (d.tripRailBy r pg bit).rails = updAt ((d.injLeave r).triAll r).rails r fun x => x.tripped (d.retryTicks r) :=
    Dev.memberBlockFault_onlyIn _ r .rails (by decide)
  have htri : ((d.injLeave r).triAll r).rails = (d.injLeave r).rails := Dev.triAll_onlyIn _ r .rails (by decide)
  have hinj : (d.injLeave r).rails = d.rails := Dev.injLeave_onlyIn d r .rails (by decide)
  rw [hblock, htri, hinj]

theorem Dev.rail_tripRailBy {d : Dev} {r : Nat} (h : r < d.rails.length) (pg bit : Nat) :
    (d.tripRailBy r pg bit).rail r = (d.rail r).tripped (d.retryTicks r) := by
  rw [Dev.rail, Dev.rails_tripRailBy]
  exact nth_updAt_same _ _ _ h

theorem Dev.sameBut_tripRailBy (d : Dev) (r pg bit : Nat) : sameBut r d.rails (d.tripRailBy r pg bit).rails := by
  rw [Dev.rails_tripRailBy]; exact sameBut_updAt _ _ _

theorem Dev.unitsRest_tripRailBy {d : Dev} (hlen : d.units.length = 64) (r pg bit : Nat) :
    d.UnitsRest (d.tripRailBy r pg bit) r :=
  Dev.unitsRest_of_triAll hlen (Dev.injLeave_onlyIn d r .regs (by decide)) (Dev.injLeave_onlyIn d r .units (by decide))
    (Dev.memberBlockFault_onlyIn _ r .units (by decide))

/-- The cause of the trip is recorded; only the pages of the injections and of the members may change beside it. -/
theorem Dev.statOf_tripRailBy {d : Dev} (r : Nat) {pg : Nat} (bit : Nat) (hinj : pg ≠ 0xE0) (hfh : pg ≠ 0xA4) :
    (d.tripRailBy r pg bit).statOf pg = (d.statOf pg).occur bit (causeOf pg bit) := by
  refine (Dev.statOf_memberBlockFault r hfh).trans ((Dev.statOf_occur_same _ pg bit).trans ?_)
  have htri : (((d.injLeave r).triAll r).updRail r fun x => x.tripped (d.retryTicks r)).statOf pg = (d.injLeave r).statOf pg :=
    Dev.statOf_congr (Dev.triAll_onlyIn _ r .stat (by decide)) pg
  exact congrArg (BlkStat.occur · bit (causeOf pg bit)) (htri.trans (Dev.statOf_injLeave r hinj))

/-- The same, for a cause on the rail's own page. -/
theorem Dev.statOf_tripRail {d : Dev} {r : Nat} (hr : r < 4) (bit : Nat) :
    (d.tripRail r bit).statOf (railPg r) = (d.statOf (railPg r)).occur bit (bit + 1) := by
  have hpg := Dev.statOf_tripRailBy (d := d) r (pg := railPg r) bit (by unfold railPg; omega) (by unfold railPg; omega)
  rwa [causeOf_railPg hr] at hpg

/-- A rail in OFF that nothing requests (R92). -/
def Rail.stopped (x : Rail) : Rail := { x.quiet with st := .off, gateOn := false, wantOn := false }

theorem Dev.rails_railOff (d : Dev) (r : Nat) : (d.railOff r).rails = updAt d.rails r Rail.stopped := by
  have htri : ((d.injLeave r).triAll r).rails = (d.injLeave r).rails := Dev.triAll_onlyIn _ r .rails (by decide)
  have hinj : (d.injLeave r).rails = d.rails := Dev.injLeave_onlyIn d r .rails (by decide)
  rw [← hinj, ← htri]; rfl

theorem Dev.rail_railOff {d : Dev} {r : Nat} (h : r < d.rails.length) : (d.railOff r).rail r = (d.rail r).stopped := by
  rw [Dev.rail, Dev.rails_railOff]
  exact nth_updAt_same _ _ _ h

theorem Dev.unitsRest_railOff {d : Dev} (hlen : d.units.length = 64) (r : Nat) : d.UnitsRest (d.railOff r) r :=
  Dev.unitsRest_of_triAll hlen (Dev.injLeave_onlyIn d r .regs (by decide)) (Dev.injLeave_onlyIn d r .units (by decide)) rfl

end Sys2Proof.Machine
end

section
/-! PROOF. The ends of a soft start and a soft stop, the trips of a rail, and its retry (R91, R92, R95, R113, R116, R118). -/

namespace Sys2Proof.Machine

/-! ### The thermal sheds that wait -/

/-- One unit's step of the thermal sheds (R360). -/
def Dev.shedStep (r : Nat) (d : Dev) (n : Nat) : Dev :=
  if d.isMember r n && nth d.therm.shedWait n false then
    let d := { d with therm := { d.therm with shedWait := updAt d.therm.shedWait n fun _ => false } }
    if d.rateAbove n (d.fld 0xA8 0x50 23 16) then d.thermalMark r n else d
  else d

theorem Dev.thermalShed_eq (d : Dev) (r : Nat) : d.thermalShed r = foldN 64 (Dev.shedStep r) d := rfl

/-- Where no member's thermal shed waits, none is made. -/
theorem Dev.thermalShed_of_none {d : Dev} {r : Nat}
    (h : ∀ n, n < 64 → d.isMember r n = true → nth d.therm.shedWait n false = false) : d.thermalShed r = d := by
  rw [Dev.thermalShed_eq]
  refine foldN_induct (P := fun _ e => e = d) rfl fun e n hn he => ?_
  subst he
  rw [Dev.shedStep, if_neg]
  intro hwait
  rw [Bool.and_eq_true] at hwait
  rw [h n hn hwait.1] at hwait
  exact absurd hwait.2 (by decide)

/-- Settles O14: the end of a ramp changes the rail alone, and the thermal sheds that follow it change no rail; the end of a soft
stop is the rail's way to OFF. -/
theorem railRampEnds : Obligations.RailRampEnds := by
  refine ⟨fun s r hshape hdone => ?_, fun s r hshape hst href => ?_⟩
  · let e := s.d.updRail r fun x => { x with st := .regulate, dwell := 0, shortRun := 0 }
    have hshed : (e.thermalShed r).rails = e.rails := Dev.thermalShed_onlyIn e r .rails (by decide)
    have hrail : (e.thermalShed r).rail r = { s.d.rail r with st := .regulate, dwell := 0, shortRun := 0 } :=
      (Dev.rail_congr hshed r).trans (Dev.rail_updRail_same _ _ (Dev.rail_lt hshape r))
    refine completes_done rfl (if_pos hdone) ?_ ⟨hrail, ?_, fun hnone => ?_⟩
    · exact Dev.onlyIn_via (Dev.thermalShed_onlyIn _ _) (by decide) (Dev.onlyIn_mono (Dev.updRail_onlyIn _ _ _) (by decide))
    · rw [hshed]; exact sameBut_updAt _ _ _
    · have hid : e.thermalShed r = e := Dev.thermalShed_of_none hnone
      exact ⟨(congrArg Dev.units hid).trans rfl, (congrArg Dev.stat hid).trans rfl, (congrArg Dev.therm hid).trans rfl⟩
  · have hrail := Dev.rail_railOff (d := s.d) (r := r) (Dev.rail_lt hshape r)
    refine completes_done rfl (if_pos ⟨hst, href⟩) (Dev.onlyIn_mono (Dev.railOff_onlyIn _ _) (by decide)) ⟨?_, ?_, ?_, ?_⟩
    · rw [hrail]; rfl
    · rw [hrail]; rfl
    · rw [Dev.rails_railOff]; exact sameBut_updAt _ _ _
    · exact Dev.unitsRest_railOff (Dev.array_length hshape).1 r

/-! ### Trips -/

/-- A command that trips rail `r` for a cause on its page. -/
theorem completes_trip {s : State} {r : Fin 4} {c : Instr} {bit : Nat} {f : Dev → Dev} (hshape : s.d.shape = true)
    (hc : exec c s = done f s) (hf : f s.d = s.d.tripRail r bit) :
    Completes c s [.stat, .inj, .fh, .units, .rails] fun e =>
      e.rail r = (s.d.rail r).tripped (s.d.retryTicks r) ∧ e.statOf (railPg r) = (s.d.statOf (railPg r)).occur bit (bit + 1) ∧
      sameBut r.val s.d.rails e.rails ∧ s.d.UnitsRest e r :=
  completes_done hc hf (Dev.onlyIn_mono (Dev.tripRail_onlyIn _ _ _) (by decide))
    ⟨Dev.rail_tripRailBy (Dev.rail_lt hshape r) _ _, Dev.statOf_tripRail r.isLt bit,
      Dev.sameBut_tripRailBy _ _ _ _, Dev.unitsRest_tripRailBy (Dev.array_length hshape).1 _ _ _⟩

/-- A command that completes with one property of the block completes with what follows from it. -/
theorem Completes.imp {c : Instr} {s : State} {l : List Part} {P Q : Dev → Prop} (h : Completes c s l P)
    (k : ∀ e, P e → Q e) : Completes c s l Q := by
  obtain ⟨t, hexec, honly, hP⟩ := h
  exact ⟨t, hexec, honly, k _ hP⟩

/-- Settles O15: each of the four commands, where its condition holds, is the trip of its rail with its own bit. -/
theorem railTrips : Obligations.RailTrips := by
  intro s r c bit hshape hcause
  have htrip : ∃ f : Dev → Dev, exec c s = done f s ∧ f s.d = s.d.tripRail r bit := by
    obtain ⟨rfl, rfl, hst, hrun⟩ | ⟨rfl, rfl, hover⟩ | ⟨rfl, rfl, hunder⟩ | ⟨rfl, rfl, hst, hov⟩ := hcause
    · exact ⟨_, rfl, if_pos ⟨hst, hrun⟩⟩
    · exact ⟨_, rfl, if_pos hover⟩
    · exact ⟨_, rfl, if_pos hunder⟩
    · exact ⟨_, rfl, if_pos (by rw [hst, hov]; rfl)⟩
  obtain ⟨f, hc, hf⟩ := htrip
  refine (completes_trip hshape hc hf).imp fun e ⟨hrail, hstat, hothers, hunits⟩ => ?_
  rw [hrail]
  exact ⟨rfl, rfl, rfl, rfl, hstat, hothers, hunits⟩

/-! ### The retry -/

/-- A retry of a rail is counted (R118). -/
def Dev.countRetry (d : Dev) (r : Nat) : Dev := d.updRail r fun x => { x with retryUsed := satInc 15 x.retryUsed }

/-- A rail without a retry left is latched off (R118). -/
def Dev.latchOff (d : Dev) (r : Nat) : Dev :=
  (d.updRail r fun x => { x with st := .latchedOff, wantOn := false }).occur (railPg r) 8

/-- The end of the retry timer by its cases (R93, R118). -/
theorem Dev.retryEnd_eq (d : Dev) (r : Nat) :
    d.retryEnd r =
      if d.flag (railPg r) 4 0 = false ∨ (d.rail r).wantOn = false then d.railOff r
      else if (d.rail r).retryUsed < d.fld (railPg r) 0x40 19 16 ∨ d.fld (railPg r) 0x40 19 16 = 15 then
        if 2 ≤ (d.usableOf r).length then (d.countRetry r).gateUp r else (d.countRetry r).tripRail r 4
      else d.latchOff r := by
  unfold Dev.retryEnd
  simp only [Bool.or_eq_true, Bool.not_eq_true', decide_eq_true_eq, beq_iff_eq]
  rfl

/-- A rail whose gate is commanded on again, after its retry was counted. -/
theorem Dev.rail_gateUp_countRetry {d : Dev} {r : Nat} (hr : r < d.rails.length) :
    ((d.countRetry r).gateUp r).rail r =
      { d.rail r with st := .off, gateOn := (d.rail r).gateOn || d.judging, wantOn := true,
                      retryUsed := satInc 15 (d.rail r).retryUsed } := by
  have hcount : (d.countRetry r).rail r = { d.rail r with retryUsed := satInc 15 (d.rail r).retryUsed } :=
    d.rail_updRail_same _ hr
  refine (Dev.rail_updRail_same _ _ ?_).trans ?_
  · rw [Dev.countRetry, Dev.updRail_rails, updAt_length]; exact hr
  · rw [hcount]; rfl

/-- Settles O16: the end of the retry timer, by whether the rail is still asked for, has retries left and has two usable units. -/
theorem railRetry : Obligations.RailRetry := by
  refine ⟨fun s r hshape hst hleft => ?_, fun s r hshape hrun => ?_⟩
  · have hr : r.val < s.d.rails.length := Dev.rail_lt hshape r
    have hrc : r.val < (s.d.countRetry r).rails.length := by rw [Dev.countRetry, Dev.updRail_rails, updAt_length]; exact hr
    have hcount : sameBut r.val s.d.rails (s.d.countRetry r).rails := sameBut_updAt _ _ _
    refine completes_done rfl (if_pos ⟨hst, hleft⟩) (Dev.onlyIn_mono (Dev.retryEnd_onlyIn _ _) (by decide)) ?_
    rw [Dev.retryEnd_eq]
    dsimp only
    split_ifs with hoff hretry husable
    · refine ⟨?_, ?_⟩
      · rw [Dev.rails_railOff]; exact sameBut_updAt _ _ _
      · rw [Dev.rail_railOff hr]
        exact ⟨rfl, rfl, rfl, Dev.railOff_onlyIn _ _ .fh (by decide)⟩
    · rw [Dev.rail_gateUp_countRetry hr]
      exact ⟨sameBut_trans hcount (sameBut_updAt _ _ _), rfl, rfl, rfl, rfl, rfl, rfl⟩
    · have hused : (s.d.countRetry r).rail r = { s.d.rail r with retryUsed := satInc 15 (s.d.rail r).retryUsed } :=
        s.d.rail_updRail_same _ hr
      have hrail : ((s.d.countRetry r).tripRail r 4).rail r = _ := Dev.rail_tripRailBy hrc _ _
      rw [hrail, hused]
      exact ⟨sameBut_trans hcount (Dev.sameBut_tripRailBy _ _ _ _), rfl, rfl, rfl, rfl, Dev.statOf_tripRail r.isLt 4⟩
    · have hrail : (s.d.latchOff r).rail r = { s.d.rail r with st := .latchedOff, wantOn := false } :=
        s.d.rail_updRail_same _ hr
      exact ⟨sameBut_updAt _ _ _, by rw [hrail], Dev.recorded_occur_of rfl _ _, rfl, rfl⟩
  · exact completes_done rfl (if_pos hrun) (Dev.updRail_onlyIn _ _ _)
      ⟨s.d.rail_updRail_same _ (Dev.rail_lt hshape r), sameBut_updAt _ _ _⟩

end Sys2Proof.Machine
end

section
/-! PROOF. Shedding of a unit: the hottest active one of a rail, and its two ticks to IDLE (R102, R104). -/

namespace Sys2Proof.Machine

/-! ### Lists sorted by an order -/

theorem insertBy_eq_orderedInsert {α : Type} (le : α → α → Bool) (a : α) (l : List α) :
    insertBy le a l = l.orderedInsert (fun x y => le x y = true) a := by
  induction l with
  | nil => rfl
  | cons b l ih => rw [insertBy, List.orderedInsert, ih]

theorem sortBy_eq_insertionSort {α : Type} (le : α → α → Bool) (l : List α) :
    sortBy le l = l.insertionSort fun x y => le x y = true := by
  induction l with
  | nil => rfl
  | cons a l ih => rw [sortBy, insertBy_eq_orderedInsert, ih]; rfl

theorem mem_sortBy {α : Type} {le : α → α → Bool} {l : List α} {a : α} : a ∈ sortBy le l ↔ a ∈ l := by
  rw [sortBy_eq_insertionSort]; exact (List.perm_insertionSort _ l).mem_iff

/-- The last of a list sorted by a total order is a greatest one. -/
theorem le_getLast_sortBy {α : Type} {le : α → α → Bool} {l : List α} {a b : α}
    (htotal : ∀ a b, le a b = true ∨ le b a = true) (htrans : ∀ a b c, le a b = true → le b c = true → le a c = true)
    (hlast : (sortBy le l).getLast? = some b) (ha : a ∈ l) : le a b = true := by
  have : Std.Total fun x y => le x y = true := ⟨htotal⟩
  have : IsTrans α fun x y => le x y = true := ⟨htrans⟩
  have hsorted := List.pairwise_insertionSort (fun x y => le x y = true) l
  rw [← sortBy_eq_insertionSort] at hsorted
  rw [← mem_sortBy (le := le)] at ha
  obtain ⟨ys, hys⟩ := List.getLast?_eq_some_iff.mp hlast
  rw [hys] at ha hsorted
  obtain ha | ha := List.mem_append.mp ha
  · exact (List.pairwise_append.mp hsorted).2.2 a ha b (List.mem_singleton_self b)
  · rw [List.mem_singleton.mp ha]
    exact (htotal b b).elim id id

/-! ### The order of the stage temperatures -/

/-- Cooler, or as cool with the lower number; a unit without a reading comes last (R102). -/
def coolLe (a b : Nat × Option Int) : Bool :=
  match a.2, b.2 with
  | some x, some y => decide (x < y) || (x == y && decide (a.1 ≤ b.1))
  | some _, none => true
  | none, some _ => false
  | none, none => decide (a.1 ≤ b.1)

theorem coolOrder_eq (l : List (Nat × Option Int)) : coolOrder l = (sortBy coolLe l).map Prod.fst := rfl

theorem coolLe_total (a b : Nat × Option Int) : coolLe a b = true ∨ coolLe b a = true := by
  obtain ⟨i, x⟩ := a
  obtain ⟨j, y⟩ := b
  cases x <;> cases y <;> simp [coolLe] <;> omega

theorem coolLe_trans (a b c : Nat × Option Int) (h : coolLe a b = true) (k : coolLe b c = true) : coolLe a c = true := by
  obtain ⟨i, x⟩ := a
  obtain ⟨j, y⟩ := b
  obtain ⟨n, z⟩ := c
  cases x <;> cases y <;> cases z <;> simp [coolLe] at h k ⊢ <;> omega

/-! ### The hottest active unit -/

theorem Dev.mem_activeOf {d : Dev} {r n : Nat} : n ∈ d.activeOf r ↔ n < 64 ∧ d.isActive r n = true := by
  simp [Dev.activeOf, upto]

/-- The unit to be shed is active, and no active unit comes after it in the order of the stage temperatures. -/
theorem Dev.hottest_spec {d : Dev} {r n : Nat} (h : d.hottest r = some n) :
    n ∈ d.activeOf r ∧ ∀ m ∈ d.activeOf r, coolLe (d.rankTemp m) (d.rankTemp n) = true := by
  rw [Dev.hottest, coolOrder_eq, List.getLast?_map, Option.map_eq_some_iff] at h
  obtain ⟨p, hlast, rfl⟩ := h
  have hp : p ∈ (d.activeOf r).map d.rankTemp := mem_sortBy.mp (List.mem_of_getLast? hlast)
  obtain ⟨k, hk, rfl⟩ := List.mem_map.mp hp
  exact ⟨hk, fun m hm => le_getLast_sortBy coolLe_total coolLe_trans hlast (List.mem_map_of_mem hm)⟩

theorem Dev.exists_hottest {d : Dev} {r : Nat} (h : 0 < d.nAct r) : ∃ n, d.hottest r = some n := by
  rw [Dev.nAct, List.length_pos_iff_exists_mem] at h
  obtain ⟨n, hn⟩ := h
  have hmem : d.rankTemp n ∈ sortBy coolLe ((d.activeOf r).map d.rankTemp) := mem_sortBy.mpr (List.mem_map_of_mem hn)
  rw [Dev.hottest, coolOrder_eq, List.getLast?_map]
  exact ⟨_, congrArg (Option.map Prod.fst) (List.getLast?_eq_getLast_of_ne_nil (List.ne_nil_of_mem hmem))⟩

/-! ### The commands -/

theorem Dev.nAct_pos_of_shedDue {d : Dev} {r : Nat} (h : d.shedDue r = true) : 0 < d.nAct r := by
  simp only [Dev.shedDue, Bool.and_eq_true, decide_eq_true_eq] at h
  exact Nat.zero_lt_of_lt h.2

/-- A command that rewrites one unit alone. -/
theorem completes_updUnit {c : Instr} {s : State} {n : Fin 64} {f : Dev → Dev} {g : PhUnit → PhUnit}
    (hshape : s.d.shape = true) (hc : exec c s = done f s) (hf : f s.d = s.d.updUnit n g) :
    Completes c s [.units] fun e => e.unit n = g (s.d.unit n) ∧ sameBut n.val s.d.units e.units :=
  completes_done hc hf (Dev.updUnit_onlyIn _ _ _)
    ⟨s.d.unit_updUnit_same g (Dev.unit_lt hshape n.isLt), sameBut_updAt _ _ _⟩

/-- Unit `n` of rail `r` is marked and the dwell starts again (R104). -/
def Dev.shed (d : Dev) (r n : Nat) : Dev := (d.mark n).updRail r fun x => { x with dwell := 0 }

theorem Dev.shed_onlyIn (d : Dev) (r n : Nat) : Dev.onlyIn [.units, .rails] d (d.shed r n) :=
  Dev.onlyIn_via (Dev.updRail_onlyIn _ _ _) (by decide) (Dev.onlyIn_mono (Dev.updUnit_onlyIn _ _ _) (by decide))

theorem Dev.unit_shed {d : Dev} (r : Nat) {n : Nat} (h : n < d.units.length) :
    (d.shed r n).unit n = { (d.unit n).to .marked false with duty := 0 } := d.unit_updUnit_same _ h

theorem Dev.rail_shed {d : Dev} {r : Nat} (n : Nat) (h : r < d.rails.length) :
    (d.shed r n).rail r = { d.rail r with dwell := 0 } := (d.mark n).rail_updRail_same _ h

/-- Settles O17: the unit marked is the last in the order of the stage temperatures. -/
theorem phaseShedding : Obligations.PhaseShedding := by
  refine ⟨fun s r hshape hdue => ?_, fun s n hshape hst hsince => ?_, fun s n hshape hst hsince => ?_⟩
  · obtain ⟨n, hhot⟩ := Dev.exists_hottest (Dev.nAct_pos_of_shedDue hdue)
    obtain ⟨hn, hhottest⟩ := Dev.hottest_spec hhot
    obtain ⟨hlt, hactive⟩ := Dev.mem_activeOf.mp hn
    have hunit := Dev.unit_shed (d := s.d) r (n := n) (Dev.unit_lt hshape hlt)
    refine completes_done (e := s.d.shed r n) rfl ((if_pos hdue).trans (by rw [hhot]; rfl)) (Dev.shed_onlyIn _ _ _)
      ⟨Dev.rail_shed n (Dev.rail_lt hshape r), sameBut_updAt _ _ _, n, hlt, hactive,
        by rw [hunit]; rfl, by rw [hunit], sameBut_updAt _ _ _, fun m hm hma => ?_⟩
    have hle : coolLe (m, (s.d.rankTemp m).2) (n, (s.d.rankTemp n).2) = true :=
      hhottest m (Dev.mem_activeOf.mpr ⟨hm, hma⟩)
    cases hx : (s.d.rankTemp n).2 <;> cases hy : (s.d.rankTemp m).2 <;> simp [coolLe, hx, hy] at hle ⊢ <;> omega
  · refine (completes_updUnit hshape rfl (if_pos ⟨hst, hsince⟩)).imp fun e ⟨hunit, hothers⟩ => ?_
    rw [hunit]; exact ⟨rfl, rfl, rfl, hothers⟩
  · refine (completes_updUnit hshape rfl (if_pos ⟨hst, hsince⟩)).imp fun e ⟨hunit, hothers⟩ => ?_
    rw [hunit]; exact ⟨rfl, rfl, rfl, hothers⟩

end Sys2Proof.Machine
end

section
/-! PROOF. Bursts, the fast limit and the slow overload of a unit (R107, R108, R110, R112). -/

namespace Sys2Proof.Machine

/-! ### Bursts -/

/-- The units that a burst of rail `r` picks: the first min(XP_COUNT, N) active ones from the pointer (R107, R108). -/
def Dev.burstPick (d : Dev) (r : Nat) : List Nat :=
  (List.range (min (d.fld (railPg r) 0x4C 14 8) (d.activeOf r).length)).map fun j =>
    nth (d.activeOf r) (((d.rail r).ptr + j) % (d.activeOf r).length) 0

/-- XP of a unit is set. -/
def Dev.setXp (d : Dev) (n : Nat) : Dev := d.updUnit n fun u => { u with xp := true }

theorem Dev.unit_foldl_setXp {n : Nat} (l : List Nat) {d : Dev} (h : n < d.units.length) :
    (l.foldl Dev.setXp d).unit n = if n ∈ l then { d.unit n with xp := true } else d.unit n := by
  induction l generalizing d with
  | nil => rfl
  | cons k l ih =>
    have hlen : n < (d.setXp k).units.length := by rw [Dev.setXp, Dev.updUnit_units, updAt_length]; exact h
    rw [List.foldl_cons, ih hlen]
    by_cases hk : n = k
    · subst hk
      rw [Dev.setXp, d.unit_updUnit_same _ h]
      simp
    · rw [Dev.setXp, d.unit_updUnit_other _ hk]
      simp [hk]

/-- A burst by its pick. -/
theorem Dev.burstRail_eq (d : Dev) (r : Nat) :
    d.burstRail r =
      if min (d.fld (railPg r) 0x4C 14 8) (d.activeOf r).length = 0 then d.updRail r fun x => { x with burst := false }
      else ((d.burstPick r).foldl Dev.setXp d).updRail r fun x =>
        { x with burst := false, undoOld := x.ptr, undo := 1, ptr := (x.ptr + 1) % (d.activeOf r).length } := by
  rw [Dev.burstPick, List.foldl_map]; rfl

theorem Dev.rails_foldl_setXp (l : List Nat) (d : Dev) : (l.foldl Dev.setXp d).rails = d.rails := by
  induction l generalizing d with
  | nil => rfl
  | cons k l ih => exact ih _

theorem Dev.nth_mem_activeOf {d : Dev} {r : Nat} (h : 0 < (d.activeOf r).length) (k : Nat) :
    nth (d.activeOf r) (k % (d.activeOf r).length) 0 ∈ d.activeOf r := by
  rw [nth, List.getD_eq_getElem _ _ (Nat.mod_lt k h)]
  exact List.getElem_mem _

theorem Dev.mem_activeOf_of_burstPick {d : Dev} {r n : Nat} (h : n ∈ d.burstPick r) : n ∈ d.activeOf r := by
  obtain ⟨j, hj, rfl⟩ := List.mem_map.mp h
  exact Dev.nth_mem_activeOf (by rw [List.mem_range] at hj; omega) _

theorem Dev.burst_rail {d : Dev} {r : Nat} (hr : r < d.rails.length) :
    ((d.burstRail r).rail r).burst = false ∧
      ((d.burstRail r).rail r).ptr = if min (d.fld (railPg r) 0x4C 14 8) (d.activeOf r).length = 0 then (d.rail r).ptr
        else ((d.rail r).ptr + 1) % (d.activeOf r).length := by
  rw [Dev.burstRail_eq]
  split_ifs
  · rw [d.rail_updRail_same _ hr]; exact ⟨rfl, rfl⟩
  · have hrails := Dev.rails_foldl_setXp (d.burstPick r) d
    rw [Dev.rail_updRail_same _ _ (by rw [hrails]; exact hr), Dev.rail_congr hrails]; exact ⟨rfl, rfl⟩

theorem Dev.sameBut_burstRail (d : Dev) (r : Nat) : sameBut r d.rails (d.burstRail r).rails := by
  rw [Dev.burstRail_eq]
  split_ifs
  · exact sameBut_updAt _ _ _
  · rw [Dev.updRail_rails, Dev.rails_foldl_setXp]; exact sameBut_updAt _ _ _

theorem Dev.unit_burstRail {d : Dev} (r : Nat) {n : Nat} (hn : n < d.units.length) :
    (d.burstRail r).unit n = if n ∈ d.burstPick r then { d.unit n with xp := true } else d.unit n := by
  rw [Dev.burstRail_eq]
  split_ifs with hnone hpick hpick
  · exact absurd hpick (by rw [Dev.burstPick, hnone]; exact List.not_mem_nil)
  · rfl
  · exact (Dev.unit_foldl_setXp _ hn).trans (if_pos hpick)
  · exact (Dev.unit_foldl_setXp _ hn).trans (if_neg hpick)

/-! ### A unit that leaves service -/

theorem Dev.memberOf_lt {d : Dev} {n r : Nat} (h : d.memberOf n = some r) : r < 4 := by
  unfold Dev.memberOf at h
  split at h
  · obtain rfl := Option.some.inj h
    exact Nat.mod_lt _ (by decide)
  · exact absurd h (by simp)

/-- A unit in FAULT is left as it is, in tri-state, by the trip of a rail without a usable unit. -/
theorem Dev.unit_noPhase {d : Dev} (hlen : d.units.length = 64) (r : Nat) {n : Nat} (hn : n < 64) :
    (d.noPhase r).unit n = d.unit n ∨ (d.noPhase r).unit n = (d.unit n).still := by
  have hlen' : (d.injLeave r).units.length = 64 := by rw [Dev.injLeave_onlyIn d r .units (by decide)]; exact hlen
  have hunits : (d.tripRail r 4).units = ((d.injLeave r).triAll r).units := Dev.memberBlockFault_onlyIn _ r .units (by decide)
  have hinj : (d.injLeave r).unit n = d.unit n := Dev.unit_congr (Dev.injLeave_onlyIn d r .units (by decide)) n
  unfold Dev.noPhase
  split
  · rw [Dev.unit_congr hunits, Dev.unit_triAll hlen' r hn, hinj]
    split
    · exact .inr rfl
    · exact .inl rfl
  · exact .inl rfl

/-- A member unit that leaves service is in FAULT, or stays LOST, in tri-state with duty 0 and its overload count as it was. -/
theorem Dev.unit_faultUnit {d : Dev} (hlen : d.units.length = 64) {n : Nat} (hn : n < 64) (hm : d.memberOf n ≠ none) :
    ((d.faultUnit n).unit n).st = (if (d.unit n).st = .lost then .lost else .fault) ∧
      ((d.faultUnit n).unit n).tri = true ∧ ((d.faultUnit n).unit n).duty = 0 ∧
      ((d.faultUnit n).unit n).ovl = (d.unit n).ovl := by
  have hsame : ∀ f : PhUnit → PhUnit, (d.updUnit n f).unit n = f (d.unit n) := fun f => d.unit_updUnit_same f (hlen ▸ hn)
  unfold Dev.faultUnit
  split
  case h_1 hnone => exact absurd hnone hm
  case h_2 r hr =>
    split_ifs with hout hlost hlost
    · rw [hsame]; exact ⟨hlost, rfl, rfl, rfl⟩
    · rw [hsame]; exact ⟨hout.resolve_right hlost, rfl, rfl, rfl⟩
    · exact absurd (.inr hlost) hout
    · let faulted := d.updUnit n fun u => u.to .fault true
      let stopped := faulted.injStopRail r 5
      have hfaulted : faulted.unit n = (d.unit n).to .fault true := hsame _
      have hinj : stopped.units = faulted.units := Dev.injStopRail_onlyIn faulted r 5 .units (by decide)
      have hstopped : stopped.unit n = (d.unit n).to .fault true := (Dev.unit_congr hinj n).trans hfaulted
      have hcases := Dev.unit_noPhase (d := stopped) (by rw [hinj]; exact (updAt_length _ _ _).trans hlen) r hn
      rw [hstopped] at hcases
      obtain h | h := hcases <;> rw [h]
      · exact ⟨rfl, rfl, rfl, rfl⟩
      · exact ⟨PhUnit.still_fault rfl, PhUnit.still_tri _, PhUnit.still_duty _, PhUnit.still_ovl _⟩

/-- A unit that leaves service records nothing on the pages of the units. -/
theorem Dev.statOf_faultUnit (d : Dev) (n : Nat) {q : Nat} (hlo : 0x30 ≤ q) (hhi : q ≤ 0x70) :
    (d.faultUnit n).statOf q = d.statOf q := by
  unfold Dev.faultUnit
  split
  · rfl
  next r hr =>
    split
    · rfl
    · exact ((Dev.spared_injStopRail _ r 5).trans (Dev.spared_noPhase _ (Dev.memberOf_lt hr))).pages q hlo hhi

/-! ### The commands -/

/-- Settles O18: bursts by the units they pick, the fast limit by the one unit it changes, the slow overload by the unit's
way out of service. -/
theorem burstsAndLimits : Obligations.BurstsAndLimits := by
  refine ⟨fun s r hshape hburst => ?_, fun s n uv hshape hover => ?_, fun s n uv hbelow => ?_,
    fun s n hshape hm hcount hlimit => ?_⟩
  · have hlen := (Dev.array_length hshape).1
    obtain ⟨hoff, hptr⟩ := Dev.burst_rail (d := s.d) (r := r) (Dev.rail_lt hshape r)
    refine completes_done rfl (if_pos hburst) (Dev.onlyIn_mono (Dev.burstRail_onlyIn _ _) (by decide))
      ⟨hoff, Dev.sameBut_burstRail _ _, hptr, fun n hn => ?_⟩
    rw [Dev.unit_burstRail r.val (hlen ▸ hn)]
    split_ifs with hpick hnot hnot
    · obtain ⟨-, hactive⟩ := Dev.mem_activeOf.mp (Dev.mem_activeOf_of_burstPick hpick)
      simp only [Dev.isActive, Bool.and_eq_true, beq_iff_eq] at hactive
      exact ⟨rfl, hactive.2⟩
    · exact absurd hpick hnot
    · exact absurd hnot hpick
    · rfl
  · refine (completes_updUnit hshape rfl (if_neg (not_le.mpr hover))).imp fun e ⟨hunit, hothers⟩ => ?_
    rw [hunit]
    exact ⟨rfl, rfl, rfl, fun p => by simp, Nat.min_le_right _ _, rfl, hothers⟩
  · exact done_self (if_pos hbelow)
  · let counted := (s.d.occur (unitPg n) 0).updUnit n fun u => { u with ovl := 0 }
    have hlen : counted.units.length = 64 := (updAt_length _ _ _).trans (Dev.array_length hshape).1
    have hunit : counted.unit n = { s.d.unit n with ovl := 0 } :=
      Dev.unit_updUnit_same _ _ (Dev.unit_lt hshape n.isLt)
    obtain ⟨hst, htri, hduty, hovl⟩ := Dev.unit_faultUnit hlen n.isLt (d := counted) hm
    rw [hunit] at hst hovl
    have hstat : (counted.faultUnit n).statOf (unitPg n) = (s.d.statOf (unitPg n)).occur 0 1 := by
      have hoccur : counted.statOf (unitPg n) = (s.d.statOf (unitPg n)).occur 0 (causeOf (unitPg n) 0) :=
        s.d.statOf_occur_same (unitPg n) 0
      rw [Dev.statOf_faultUnit _ _ (by unfold unitPg; omega) (by unfold unitPg; omega), hoccur, causeOf_unitPg n.isLt]
    refine completes_done rfl (if_pos ⟨Option.isSome_iff_ne_none.mpr hm, hcount, hlimit⟩) ?_
      ⟨hst, htri, hovl, hduty, hstat⟩
    exact Dev.onlyIn_via (Dev.faultUnit_onlyIn _ _) (by decide) (Dev.onlyIn_via (Dev.updUnit_onlyIn _ _ _) (by decide)
      (Dev.onlyIn_mono (Dev.occur_onlyIn _ _ _) (by decide)))

end Sys2Proof.Machine
end

section
/-! PROOF. Members of a power-up: ON_DELAY, the output on, GOOD, and a request that the rail refuses (R90, R333, R335 to R338). -/

namespace Sys2Proof.Machine

/-! ### Members by number -/

theorem Dev.mbr_updMbr_same (d : Dev) {i : Nat} (f : Member → Member) (h : i < d.fh.members.length) :
    (d.updMbr i f).mbr i = f (d.mbr i) := nth_updAt_same _ _ _ h

theorem Dev.mbr_updMbr_other (d : Dev) {i j : Nat} (f : Member → Member) (h : j ≠ i) : (d.updMbr i f).mbr j = d.mbr j :=
  nth_updAt_other _ _ _ h

theorem Dev.mbr_congr {d e : Dev} (h : e.fh.members = d.fh.members) (i : Nat) : e.mbr i = d.mbr i :=
  congrArg (fun l => nth l i Member.reset) h

/-- The block with its fixed shape has 32 members. -/
theorem Dev.members_length {d : Dev} (h : d.shape = true) : d.fh.members.length = 32 := by
  obtain ⟨-, -, -, -, hmembers, -⟩ := Dev.shape_iff.mp h
  exact hmembers

theorem Dev.mbr_lt {d : Dev} (h : d.shape = true) (i : Fin 32) : i.val < d.fh.members.length := by
  rw [Dev.members_length h]; exact i.isLt

/-! ### A member that fails -/

/-- A member whose output is off is passed over by the stop list. -/
theorem Dev.mbr_stopNext {i : Nat} (fuel : Nat) {d : Dev} (h : (d.mbr i).out = false) : (d.stopNext fuel).mbr i = d.mbr i := by
  induction fuel generalizing d with
  | zero => rfl
  | succ fuel ih =>
    unfold Dev.stopNext
    split
    · rfl
    next k rest hstops =>
      split_ifs with hout hstopping hstopping
      · rfl
      · exact d.mbr_updMbr_other _ fun hk => by rw [hk, hout] at h; exact absurd h (by decide)
      · rfl
      · exact ih h

theorem Dev.failed_stopNext (fuel : Nat) (d : Dev) : (d.stopNext fuel).fh.failed = d.fh.failed := by
  induction fuel generalizing d with
  | zero => rfl
  | succ fuel ih =>
    unfold Dev.stopNext
    split
    · rfl
    · split_ifs
      · rfl
      · rfl
      · rfl
      · exact ih _

/-- One dependant of failed member `f` is blocked by it (R338). -/
def Dev.blockBy (f : Nat) (d : Dev) (i : Nat) : Dev :=
  d.updMbr i fun m => if m.out then { m with blk := some f } else { m.to .blocked with blk := some f }

theorem Dev.mbr_foldl_blockBy {f i : Nat} (l : List Nat) (d : Dev) (h : i ∉ l) :
    (l.foldl (Dev.blockBy f) d).mbr i = d.mbr i := by
  induction l generalizing d with
  | nil => rfl
  | cons k l ih =>
    rw [List.mem_cons, not_or] at h
    exact (ih _ h.2).trans (d.mbr_updMbr_other _ h.1)

theorem Dev.failed_foldl_blockBy (f : Nat) (l : List Nat) (d : Dev) : (l.foldl (Dev.blockBy f) d).fh.failed = d.fh.failed := by
  induction l generalizing d with
  | nil => rfl
  | cons k l ih => exact ih _

/-- The stop of its dependants leaves a failed member whose output is off as it is. -/
theorem Dev.mbr_stopDependants {d : Dev} {f : Nat} (h : (d.mbr f).out = false) : (d.stopDependants f).mbr f = d.mbr f := by
  have hblocked := Dev.mbr_foldl_blockBy (f := f) (i := f) ((d.dependants 32 [f]).filter (· != f)) d (by simp)
  exact (Dev.mbr_stopNext 33 (hblocked ▸ h)).trans hblocked

theorem Dev.failed_stopDependants (d : Dev) (f : Nat) : (d.stopDependants f).fh.failed = d.fh.failed :=
  (Dev.failed_stopNext _ _).trans (Dev.failed_foldl_blockBy f ((d.dependants 32 [f]).filter (· != f)) d)

/-- A member's failure with its output off, before its dependants are stopped (R336). -/
def Dev.failAlone (d : Dev) (i cause : Nat) : Dev :=
  ((d.updMbr i fun m => { m.to .failed with cause := cause, out := false, blk := none }).updFh fun h =>
    { h with failed := setBit h.failed i true, order := h.order.filter (· != i) }).occur 0xA4 0

theorem Dev.failMember_eq (d : Dev) (i cause : Nat) : d.failMember i cause false = (d.failAlone i cause).stopDependants i := rfl

/-- What a failure whose output goes off shows of its member (R336). -/
theorem Dev.failMember_off {d : Dev} {i : Nat} (hi : i < d.fh.members.length) (cause : Nat) :
    (d.failMember i cause false).mbr i = { (d.mbr i).to .failed with cause := cause, out := false, blk := none } ∧
    bitAt (d.failMember i cause false).fh.failed i = true ∧
    (d.failMember i cause false).statOf 0xA4 = (d.statOf 0xA4).occur 0 1 := by
  have hmbr : (d.failAlone i cause).mbr i = { (d.mbr i).to .failed with cause := cause, out := false, blk := none } :=
    d.mbr_updMbr_same _ hi
  rw [Dev.failMember_eq]
  refine ⟨?_, ?_, ?_⟩
  · rw [Dev.mbr_stopDependants (by rw [hmbr]), hmbr]
  · rw [Dev.failed_stopDependants]
    exact bitAt_putBits_same _ i true
  · exact (Dev.statOf_congr (Dev.stopDependants_onlyIn _ i .stat (by decide)) _).trans (Dev.statOf_occur_same _ 0xA4 0)

/-! ### The output of a member turns on -/

/-- The rail refuses an on request: it is latched off, or it is off with BLK_EN = 0 or fewer than two usable units (R90). -/
def Dev.refuses (d : Dev) (r : Nat) : Prop :=
  (d.rail r).st = .latchedOff ∨ ((d.rail r).st = .off ∧ ¬ (d.flag (railPg r) 4 0 = true ∧ 2 ≤ (d.usableOf r).length))

theorem Dev.railOn_of_refuses {d : Dev} {r : Nat} (h : d.refuses r) : d.railOn r = d.memberRefused r := by
  unfold Dev.railOn
  obtain hst | ⟨hst, hnot⟩ := h <;> rw [hst]
  exact if_neg (by simpa using hnot)

theorem Dev.railOn_of_off {d : Dev} {r : Nat} (hst : (d.rail r).st = .off) (h : ¬ d.refuses r) : d.railOn r = d.gateUp r := by
  have hmay : d.flag (railPg r) 4 0 = true ∧ 2 ≤ (d.usableOf r).length := not_not.mp fun hnot => h (.inr ⟨hst, hnot⟩)
  unfold Dev.railOn
  rw [hst]
  exact if_pos (by simpa using hmay)

/-- A request that is not refused changes rails alone. -/
theorem Dev.railOn_onlyIn_rails {d : Dev} {r : Nat} (h : ¬ d.refuses r) : Dev.onlyIn [.rails] d (d.railOn r) := by
  cases hst : (d.rail r).st with
  | off => rw [Dev.railOn_of_off hst h]; exact Dev.gateUp_onlyIn _ _
  | latchedOff => exact absurd (.inl hst) h
  | faultWait => rw [Dev.railOn, hst]; exact Dev.updRail_onlyIn _ _ _
  | softStart => rw [Dev.railOn, hst]; exact Dev.onlyIn_refl _ _
  | regulate => rw [Dev.railOn, hst]; exact Dev.onlyIn_refl _ _
  | softStop => rw [Dev.railOn, hst]; exact Dev.onlyIn_refl _ _

/-- A member after its ON_DELAY, before its rail answers: QUALIFYING with its output on, last in the enable order (R333). -/
def Dev.enabled (d : Dev) (i : Nat) : Dev :=
  ((d.updFh fun h => { h with order := h.order.filter (· != i) ++ [i] }).updMbr i
    fun m => { m.to .qualifying with chg := [] }).updMbr i fun m => { m with out := true }

theorem Dev.mbr_enabled {d : Dev} {i : Nat} (hi : i < d.fh.members.length) :
    (d.enabled i).mbr i = { d.mbr i with st := .qualifying, timer := 0, chg := [], out := true } := by
  have hlater : i < (updAt d.fh.members i fun m => { m.to .qualifying with chg := [] }).length := by
    rw [updAt_length]; exact hi
  exact (Dev.mbr_updMbr_same _ _ hlater).trans
    (congrArg (fun m : Member => { m with out := true }) (Dev.mbr_updMbr_same (d.updFh _) _ hi))

theorem Dev.sameBut_enabled (d : Dev) (i : Nat) : sameBut i d.fh.members (d.enabled i).fh.members :=
  sameBut_trans (sameBut_updAt _ _ _) (sameBut_updAt _ _ _)

theorem Dev.enabled_onlyIn (d : Dev) (i : Nat) : Dev.onlyIn [.fh] d (d.enabled i) :=
  Dev.onlyIn_trans (Dev.onlyIn_trans (Dev.updFh_onlyIn _ _) (Dev.updMbr_onlyIn _ _ _)) (Dev.updMbr_onlyIn _ _ _)

theorem Dev.usableOf_updFh (d : Dev) (f : Fiddle → Fiddle) (r : Nat) : (d.updFh f).usableOf r = d.usableOf r := rfl

theorem Dev.usableOf_enabled (d : Dev) (i r : Nat) : (d.enabled i).usableOf r = d.usableOf r :=
  ((Dev.usableOf_updFh _ _ r).trans (Dev.usableOf_updFh _ _ r)).trans (Dev.usableOf_updFh _ _ r)

theorem Dev.refuses_enabled {d : Dev} {i r : Nat} : (d.enabled i).refuses r ↔ d.refuses r := by
  have hrail : (d.enabled i).rail r = d.rail r := Dev.rail_congr (Dev.enabled_onlyIn d i .rails (by decide)) r
  rw [Dev.refuses, Dev.refuses, hrail, Dev.usableOf_enabled, Dev.flag_congr (Dev.enabled_onlyIn d i .regs (by decide))]

/-- The member whose rail refuses the request fails with cause REFUSED (R90, R336). -/
theorem Dev.railOn_enabled_refused {d : Dev} {i : Nat} (hi : i < d.fh.members.length) (h : d.refuses i) :
    (((d.enabled i).railOn i).mbr i).st = .failed ∧ (((d.enabled i).railOn i).mbr i).cause = 5 ∧
    (((d.enabled i).railOn i).mbr i).out = false ∧ bitAt ((d.enabled i).railOn i).fh.failed i = true ∧
    ((d.enabled i).railOn i).rails = d.rails ∧ ((d.enabled i).railOn i).statOf 0xA4 = (d.statOf 0xA4).occur 0 1 := by
  have hfail := Dev.failMember_off (d := d.enabled i) (i := i) (by rw [(Dev.sameBut_enabled d i).1]; exact hi) 5
  have hrails : ((d.enabled i).failMember i 5 false).rails = d.rails :=
    (Dev.failMember_onlyIn _ i 5 false .rails (by decide)).trans (Dev.enabled_onlyIn d i .rails (by decide))
  have hstat0 : (d.enabled i).statOf 0xA4 = d.statOf 0xA4 := Dev.statOf_congr (Dev.enabled_onlyIn d i .stat (by decide)) _
  have heq : (d.enabled i).railOn i = (d.enabled i).failMember i 5 false := by
    rw [Dev.railOn_of_refuses (Dev.refuses_enabled.mpr h), Dev.memberRefused, Dev.mbr_enabled hi]
  rw [heq]
  obtain ⟨hfailed, hbit, hstat⟩ := hfail
  rw [hfailed, hstat, hstat0]
  exact ⟨rfl, rfl, rfl, hbit, hrails, rfl⟩

/-- The gate of a rail in OFF that takes the request (R90, R572). -/
theorem Dev.rail_railOn_enabled {d : Dev} {i : Nat} (hi : i < d.rails.length) (hoff : (d.rail i).st = .off) (h : ¬ d.refuses i) :
    ((d.enabled i).railOn i).rail i = { d.rail i with gateOn := (d.rail i).gateOn || d.judging, wantOn := true } := by
  have hrail : (d.enabled i).rail i = d.rail i := Dev.rail_congr (Dev.enabled_onlyIn d i .rails (by decide)) i
  have hlen : i < (d.enabled i).rails.length := by rw [Dev.enabled_onlyIn d i .rails (by decide)]; exact hi
  rw [Dev.railOn_of_off ((congrArg Rail.st hrail).trans hoff) (Dev.refuses_enabled.not.mpr h), Dev.gateUp]
  dsimp only
  rw [Dev.rail_updRail_same _ _ hlen, hrail, ← hoff]
  rfl

/-- The end of ON_DELAY: the output turns on, and the rail of a rail's member answers (R333). -/
def Dev.turnOnMember (d : Dev) (i : Nat) : Dev := if i < 4 then (d.enabled i).railOn i else d.enabled i

theorem Dev.turnOnMember_onlyIn (d : Dev) (i : Nat) : Dev.onlyIn [.stat, .fh, .rails] d (d.turnOnMember i) := by
  have henabled : Dev.onlyIn [.stat, .fh, .rails] d (d.enabled i) := Dev.onlyIn_mono (d.enabled_onlyIn i) (by decide)
  exact Dev.onlyIn_ite (Dev.onlyIn_via (Dev.railOn_onlyIn _ _) (by decide) henabled) henabled

/-- A request that is not refused leaves the member QUALIFYING; only rails change beside the fiddlehead. -/
theorem Dev.turnOnMember_accepted {d : Dev} {i : Nat} (h : ¬ (i < 4 ∧ d.refuses i)) :
    Dev.onlyIn [.rails] (d.enabled i) (d.turnOnMember i) := by
  unfold Dev.turnOnMember
  split
  next hrail => exact Dev.railOn_onlyIn_rails (Dev.refuses_enabled.not.mpr fun hr => h ⟨hrail, hr⟩)
  · exact Dev.onlyIn_refl _ _

theorem execOnDelayEnd_eq {s : State} {i : Fin 32} (hst : (s.d.mbr i).st = .onDelay)
    (htimer : 20 * s.d.fld 0xA4 (mbrOff i + 8) 15 0 ≤ (s.d.mbr i).timer) :
    ∃ f : Dev → Dev, exec (.onDelayEnd i) s = done f s ∧ f s.d = s.d.turnOnMember i :=
  ⟨_, rfl, if_pos ⟨hst, htimer⟩⟩

/-! ### A member that is GOOD -/

/-- The shelf enters UP from POWERING_UP, and nothing else changes (R333). -/
theorem Dev.shelfUp_eq (d : Dev) :
    ∃ x, d.shelfUp = d.updFh (fun h => { h with shelf := x }) ∧
      (x = d.fh.shelf ∨ (d.fh.shelf = .poweringUp ∧ x = .up)) := by
  unfold Dev.shelfUp
  split
  next h => exact ⟨.up, rfl, .inr ⟨h.1, rfl⟩⟩
  · exact ⟨d.fh.shelf, rfl, .inl rfl⟩

/-- Members that a returned member blocked go back to WAITING, and nothing else of the fiddlehead changes (R338). -/
structure Dev.Resumed (d e : Dev) (f : Nat) : Prop where
  order : e.fh.order = d.fh.order
  shelf : e.fh.shelf = d.fh.shelf
  length : e.fh.members.length = d.fh.members.length
  members : ∀ j, e.mbr j = d.mbr j ∨ ((d.mbr j).st = .blocked ∧ (d.mbr j).blk = some f ∧ (e.mbr j).st = .waiting)

theorem Dev.resumed_resume {d : Dev} (hlen : d.fh.members.length = 32) (f : Nat) : d.Resumed (d.resume f) f := by
  refine foldN_induct (P := fun _ e => d.Resumed e f) ⟨rfl, rfl, rfl, fun _ => .inl rfl⟩ fun e k hk he => ?_
  obtain ⟨horder, hshelf, hlength, hmembers⟩ := he
  split
  case isTrue h =>
    obtain ⟨hblocked, hblk, -⟩ := h
    have hk' : k < e.fh.members.length := by rw [hlength, hlen]; exact hk
    refine ⟨horder, hshelf, (updAt_length _ _ _).trans hlength, fun j => ?_⟩
    by_cases hj : j = k
    · subst hj
      obtain hsame | ⟨-, -, hwaiting⟩ := hmembers j
      · refine .inr ⟨hsame ▸ hblocked, hsame ▸ hblk, ?_⟩
        rw [e.mbr_updMbr_same _ hk']; rfl
      · rw [hwaiting] at hblocked; exact absurd hblocked (by decide)
    · rw [e.mbr_updMbr_other _ hj]; exact hmembers j
  case isFalse => exact ⟨horder, hshelf, hlength, hmembers⟩

/-! ### The commands -/

/-- Settles O19: a member's own step by step, with the answer of its rail at the end of ON_DELAY and the members that it
resumes. -/
theorem membersPowerUp : Obligations.MembersPowerUp := by
  refine ⟨fun s i hshape hruns hst hparent haux => ?_, fun s i hshape hst htimer => ?_, fun s i hshape hshelf hst hqual => ?_,
    fun s i hshape hst hout hqual => ?_⟩
  · have hi : i.val < s.d.fh.members.length := Dev.mbr_lt hshape i
    exact completes_done rfl (if_pos (by simp [hruns, hst, hparent, haux])) (Dev.updMbr_onlyIn _ _ _)
      ⟨rfl, sameBut_updAt _ _ _, s.d.mbr_updMbr_same _ hi⟩
  · have hi : i.val < s.d.fh.members.length := Dev.mbr_lt hshape i
    obtain ⟨f, hexec, hf⟩ := execOnDelayEnd_eq hst htimer
    refine completes_done hexec hf (Dev.turnOnMember_onlyIn _ _) ?_
    dsimp only
    split
    case isTrue h =>
      rw [Dev.turnOnMember, if_pos h.1]
      exact Dev.railOn_enabled_refused hi h.2
    case isFalse h =>
      have honly := Dev.turnOnMember_accepted h
      have hfh : (s.d.turnOnMember i).fh = (s.d.enabled i).fh := honly .fh (by decide)
      have hmbr : (s.d.turnOnMember i).mbr i = _ := (Dev.mbr_congr (congrArg Fiddle.members hfh) i).trans (Dev.mbr_enabled hi)
      have hstat : (s.d.turnOnMember i).stat = s.d.stat :=
        (honly .stat (by decide)).trans (Dev.enabled_onlyIn _ _ .stat (by decide))
      rw [hmbr, hfh]
      refine ⟨rfl, rfl, rfl, rfl, Dev.sameBut_enabled _ _, hstat, fun hfour => ?_, fun hfour hoff => ?_⟩
      · rw [Dev.turnOnMember, if_neg (not_lt.mpr hfour)]; exact Dev.enabled_onlyIn _ _ .rails (by decide)
      · rw [Dev.turnOnMember, if_pos hfour]
        exact Dev.rail_railOn_enabled (by rw [Dev.rails_length hshape]; exact hfour) hoff fun hr => h ⟨hfour, hr⟩
  · have hi : i.val < s.d.fh.members.length := Dev.mbr_lt hshape i
    let good := s.d.updMbr i fun m => m.to .good
    obtain ⟨x, hup, hx⟩ := Dev.shelfUp_eq good
    have hnot : good.shelfUp.fh.shelf ≠ .draining := by
      rw [hup]
      obtain hsame | ⟨-, hisUp⟩ := hx
      · exact fun h => hshelf (hsame ▸ h)
      · exact fun h => absurd (hisUp.symm.trans h) (by decide)
    refine completes_done (e := good.shelfUp) rfl ((if_pos ⟨hst, hqual⟩).trans (if_neg fun h => hnot h.1)) ?_ ?_
    · exact Dev.onlyIn_via (Dev.shelfUp_onlyIn _) (by decide) (Dev.updMbr_onlyIn _ _ _)
    · rw [hup]
      refine ⟨s.d.mbr_updMbr_same _ hi, sameBut_updAt _ _ _, rfl, fun hno => ?_⟩
      exact hx.elim id fun h => absurd h.1 hno
  · have hi : i.val < s.d.fh.members.length := Dev.mbr_lt hshape i
    let back := s.d.updMbr i fun m => { m.to .good with cause := 0 }
    have hback : back.mbr i = { s.d.mbr i with st := .good, timer := 0, cause := 0 } := s.d.mbr_updMbr_same _ hi
    have hother : ∀ j, j ≠ i.val → back.mbr j = s.d.mbr j := fun j hj => s.d.mbr_updMbr_other _ hj
    have honly : Dev.onlyIn [.fh] s.d back := Dev.updMbr_onlyIn _ _ _
    have hcond : ¬ ((s.d.mbr i).st = .qualifying ∧ s.d.qualNow i = true) := by
      rw [hst]; exact fun h => absurd h.1 (by decide)
    refine completes_done (e := if s.d.flag 0xA4 (mbrOff i) 29 then back.resume i else back) rfl
      ((if_neg hcond).trans (if_pos ⟨hst, hout, hqual⟩)) ?_ ?_
    · exact Dev.onlyIn_ite (Dev.onlyIn_via (Dev.resume_onlyIn _ _) (by decide) honly) honly
    · split
      case isTrue hresume =>
        have hlen : back.fh.members.length = 32 := (updAt_length _ _ _).trans (Dev.members_length hshape)
        obtain ⟨horder, hshelf, -, hmembers⟩ := Dev.resumed_resume hlen i
        refine ⟨?_, horder, hshelf, fun j hj hne => ?_⟩
        · obtain hsame | ⟨hblocked, -⟩ := hmembers i
          · exact hsame.trans hback
          · rw [hback] at hblocked; exact absurd hblocked (by simp)
        · have hj := hmembers j
          rw [hother j hne] at hj
          exact hj.imp id fun ⟨hblocked, hblk, hwaiting⟩ => ⟨hblocked, hblk, hresume, hwaiting⟩
      case isFalse => exact ⟨hback, rfl, rfl, fun j _ hne => .inl (hother j hne)⟩

end Sys2Proof.Machine
end

section
/-! PROOF. Output hot-swaps, and the judgement of the switches after a loss of region G1 (R91, R257, R261 to R264, R572). -/

namespace Sys2Proof.Machine

/-! ### Hot-swaps and feeds by number -/

theorem Dev.hsw_congr {d e : Dev} (h : e.hs = d.hs) (r : Nat) : e.hsw r = d.hsw r :=
  congrArg (fun l => nth l r HotSwap.reset) h

theorem Dev.hsw_updHs_same (d : Dev) {r : Nat} (f : HotSwap → HotSwap) (h : r < d.hs.length) :
    (d.updHs r f).hsw r = f (d.hsw r) := nth_updAt_same _ _ _ h

/-- The block with its fixed shape has 4 output hot-swaps. -/
theorem Dev.hs_length {d : Dev} (h : d.shape = true) : d.hs.length = 4 := by
  obtain ⟨-, -, -, hhs, -⟩ := Dev.shape_iff.mp h
  exact hhs

theorem Dev.hs_lt {d : Dev} (h : d.shape = true) (r : Fin 4) : r.val < d.hs.length := by
  rw [Dev.hs_length h]; exact r.isLt

theorem Dev.feed_congr {d e : Dev} (ha : e.feedA = d.feedA) (hb : e.feedB = d.feedB) (f : FeedId) : e.feed f = d.feed f := by
  cases f
  · exact ha
  · exact hb

theorem Dev.feed_updFeed (d : Dev) (f g : FeedId) (u : Feed → Feed) :
    (d.updFeed f u).feed g = if g = f then u (d.feed g) else d.feed g := by
  cases f <;> cases g <;> rfl

/-! ### A hot-swap that faults -/

/-- A hot-swap whose command goes to 0 (R261, R262). -/
def HotSwap.faulted (h : HotSwap) : HotSwap := { h with on := false, onN := 0, pg := false }

/-- A hot-swap that trips, for a fast trip or another (R262, R263, R264). -/
def HotSwap.tripped (h : HotSwap) (fast : Bool) : HotSwap :=
  { h with trips := inc8 h.trips, handled := h.handled || fast }.faulted

theorem Dev.hsTrip_eq (d : Dev) (r bit : Nat) :
    d.hsTrip r bit = (d.updHs r fun h => h.tripped (bit == 0)).tripRailBy r 0x99 (bit + r) := by
  rw [Dev.hsTrip, Dev.hsFault, Dev.updHs, Dev.updHs, Dev.updHs]
  dsimp only
  rw [updAt_updAt]
  rfl

theorem Dev.hs_tripRailBy (d : Dev) (r pg bit : Nat) : (d.tripRailBy r pg bit).hs = d.hs :=
  Dev.tripRailBy_onlyIn d r pg bit .hs (by decide)

/-- A hot-swap as the latest sense frame shows it (R257, R572). -/
def HotSwap.shown (h : HotSwap) : HotSwap := { h with tripSeen := h.tripTick }

/-- A command that rewrites a hot-swap and trips its rail with a bit of page 0x099. -/
theorem completes_hsTrip {s : State} {r : Fin 4} {c : Instr} {bit : Nat} {f : Dev → Dev} {g : HotSwap → HotSwap}
    (hshape : s.d.shape = true) (hc : exec c s = done f s) (hf : f s.d = (s.d.updHs r g).tripRailBy r 0x99 bit) :
    Completes c s [.stat, .hs, .inj, .fh, .units, .rails] fun e =>
      e.rail r = (s.d.rail r).tripped (s.d.retryTicks r) ∧ sameBut r.val s.d.rails e.rails ∧ e.hsw r = g (s.d.hsw r) ∧
      sameBut r.val s.d.hs e.hs ∧ e.statOf 0x99 = (s.d.statOf 0x99).occur bit (bit + 1) ∧ s.d.UnitsRest e r := by
  have hhs := Dev.hs_tripRailBy (s.d.updHs r g) r 0x99 bit
  refine completes_done hc hf ?_ ⟨?_, Dev.sameBut_tripRailBy (s.d.updHs r g) _ _ _, ?_, ?_, ?_, ?_⟩
  · exact Dev.onlyIn_via (Dev.tripRailBy_onlyIn _ _ _ _) (by decide) (Dev.onlyIn_mono (Dev.updHs_onlyIn _ _ _) (by decide))
  · exact Dev.rail_tripRailBy (d := s.d.updHs r g) (by rw [Dev.updHs_rails, Dev.rails_length hshape]; exact r.isLt) _ _
  · rw [Dev.hsw_congr hhs]
    exact s.d.hsw_updHs_same _ (Dev.hs_lt hshape r)
  · rw [hhs]; exact sameBut_updAt _ _ _
  · exact Dev.statOf_tripRailBy (d := s.d.updHs r g) r bit (by decide) (by decide)
  · exact Dev.unitsRest_tripRailBy (d := s.d.updHs r g) (Dev.array_length hshape).1 r _ _

/-! ### The switches are judged again -/

/-- The driver status word of a feed in ON shows a trip or a gate that is off (R247, R260). -/
def Feed.dropped (x : Feed) : Prop := x.st = .on ∧ (x.revWord = true ∨ (x.fullWord = false ∧ x.cmdWord = true))

/-- A feed that enters FAULT_WAIT changes no other feed. -/
theorem Dev.feed_feedFault (d : Dev) (f g : FeedId) (bit : Nat) :
    (d.feedFault f bit).feed g =
      if g = f then { d.feed g with st := .faultWait, cmd := false, pg := false, pgRun := 0,
                                    retryLeft := 256 * d.fld 0x98 0x58 31 16, readyN := 0 }
      else d.feed g := by
  have hlost : (d.feedFault f bit).feed g = (d.feedFaultRaw f bit).feed g :=
    Dev.feed_congr (Dev.targetLost_onlyIn _ f .feedA (by decide)) (Dev.targetLost_onlyIn _ f .feedB (by decide)) g
  have hblock : (d.feedFaultRaw f bit).feed g = (d.updFeed f _).feed g :=
    Dev.feed_congr (Dev.memberBlockFault_onlyIn _ _ .feedA (by decide)) (Dev.memberBlockFault_onlyIn _ _ .feedB (by decide)) g
  rw [hlost, hblock, Dev.feed_updFeed]

theorem Dev.judge_feedFault (d : Dev) (f : FeedId) (bit : Nat) : (d.feedFault f bit).xfer.judge = d.xfer.judge := by
  have hraw : (d.feedFaultRaw f bit).xfer = d.xfer :=
    (Dev.memberBlockFault_onlyIn _ _ .xfer (by decide)).trans (Dev.updFeed_xfer _ _ _)
  rw [← hraw, Dev.feedFault, Dev.targetLost]
  split
  · rfl
  · rfl

/-- A feed is judged: it faults, or nothing changes (R247, R260). -/
theorem Dev.feedJudge_cases (d : Dev) (f : FeedId) :
    ((d.feed f).dropped ∧ ∃ bit, d.feedJudge f = d.feedFault f bit) ∨ (¬ (d.feed f).dropped ∧ d.feedJudge f = d) := by
  unfold Dev.feedJudge Feed.dropped
  dsimp only
  split_ifs with hon hrev hgate
  · exact .inl ⟨⟨hon, .inl hrev⟩, 2, rfl⟩
  · exact .inl ⟨⟨hon, .inr (by simpa using hgate)⟩, 10, rfl⟩
  · exact .inr ⟨fun h => h.2.elim hrev fun h => hgate (by simpa using h), rfl⟩
  · exact .inr ⟨fun h => hon h.1, rfl⟩

theorem Dev.feed_feedJudge_other (d : Dev) {f g : FeedId} (h : g ≠ f) : (d.feedJudge f).feed g = d.feed g := by
  obtain ⟨-, bit, heq⟩ | ⟨-, heq⟩ := d.feedJudge_cases f <;> rw [heq]
  rw [Dev.feed_feedFault, if_neg h]

theorem Dev.judge_feedJudge (d : Dev) (f : FeedId) : (d.feedJudge f).xfer.judge = d.xfer.judge := by
  obtain ⟨-, bit, heq⟩ | ⟨-, heq⟩ := d.feedJudge_cases f <;> rw [heq]
  exact d.judge_feedFault f bit

/-- What the judgement makes of feed `x`, where it is `y` afterwards. -/
def Feed.Judged (x y : Feed) : Prop := (x.dropped ∧ y.st = .faultWait ∧ y.cmd = false) ∨ (¬ x.dropped ∧ y = x)

theorem Dev.feed_feedJudge_same (d : Dev) (f : FeedId) : (d.feed f).Judged ((d.feedJudge f).feed f) := by
  obtain ⟨hdrop, bit, heq⟩ | ⟨hdrop, heq⟩ := d.feedJudge_cases f <;> rw [heq]
  · rw [Dev.feed_feedFault, if_pos rfl]; exact .inl ⟨hdrop, rfl, rfl⟩
  · exact .inr ⟨hdrop, rfl⟩

/-- Both feeds are judged, each by its own word. -/
theorem Dev.feed_feedJudge_both (d : Dev) (f : FeedId) : (d.feed f).Judged (((d.feedJudge .a).feedJudge .b).feed f) := by
  cases f with
  | a => rw [Dev.feed_feedJudge_other _ (by decide)]; exact d.feed_feedJudge_same .a
  | b => rw [← d.feed_feedJudge_other (show FeedId.b ≠ .a by decide)]; exact (d.feedJudge .a).feed_feedJudge_same .b

/-- One output switch is judged: a fast trip, or a gate that is off against its command (R262, R264, R572). -/
def Dev.judgeHs (d : Dev) (r : Nat) : Dev :=
  let h := d.hsw r
  if h.tripSeen && !h.handled then d.hsTrip r 0
  else if h.on && !h.fullWord && h.cmdWord then d.hsTrip r 8
  else d

theorem Dev.judgeSwitches_eq (d : Dev) : d.judgeSwitches = foldN 4 Dev.judgeHs ((d.feedJudge .a).feedJudge .b) := rfl

/-- A rail and its hot-swap after the judgement, `delay` ticks being the rail's RETRY_DELAY. -/
def judgedHs (delay : Nat) (x : Rail × HotSwap) : Rail × HotSwap :=
  if x.2.tripSeen && !x.2.handled then (x.1.tripped delay, x.2.tripped true)
  else if x.2.on && !x.2.fullWord && x.2.cmdWord then (x.1.tripped delay, x.2.tripped false)
  else x

/-- An output switch is found to have tripped where its trip is shown, or its gate is off against its command (R572). -/
def HotSwap.dropped (h : HotSwap) : Prop :=
  (h.tripTick = true ∧ h.handled = false) ∨ (h.on = true ∧ h.fullWord = false ∧ h.cmdWord = true)

/-- What the judgement makes of a rail and its hot-swap as the sense frame shows it. -/
theorem judgedHs_shown (delay : Nat) (x : Rail) (h : HotSwap) :
    (h.dropped ∧ ∃ fast, judgedHs delay (x, h.shown) = (x.tripped delay, h.shown.tripped fast)) ∨
    (¬ h.dropped ∧ judgedHs delay (x, h.shown) = (x, h.shown)) := by
  unfold judgedHs HotSwap.dropped
  split_ifs with htrip hgate
  · exact .inl ⟨.inl (by simpa [HotSwap.shown] using htrip), true, rfl⟩
  · exact .inl ⟨.inr (by simpa [HotSwap.shown, and_assoc] using hgate), false, rfl⟩
  · refine .inr ⟨?_, rfl⟩
    rintro (hshown | hopen)
    · exact htrip (by simpa [HotSwap.shown] using hshown)
    · exact hgate (by simpa [HotSwap.shown, and_assoc] using hopen)

theorem Dev.rails_hsTrip (d : Dev) (r bit : Nat) :
    (d.hsTrip r bit).rails = updAt d.rails r fun x => x.tripped (d.retryTicks r) := by
  rw [Dev.hsTrip_eq]; exact Dev.rails_tripRailBy _ _ _ _

theorem Dev.hs_hsTrip (d : Dev) (r bit : Nat) : (d.hsTrip r bit).hs = updAt d.hs r fun h => h.tripped (bit == 0) := by
  rw [Dev.hsTrip_eq]; exact Dev.hs_tripRailBy _ _ _ _

/-- A rail and its hot-swap after the hot-swap's trip. -/
theorem Dev.hsTrip_self {d : Dev} {r : Nat} (hr : r < d.rails.length) (hh : r < d.hs.length) (bit : Nat) :
    ((d.hsTrip r bit).rail r, (d.hsTrip r bit).hsw r) = ((d.rail r).tripped (d.retryTicks r), (d.hsw r).tripped (bit == 0)) := by
  rw [Dev.rail, Dev.hsw, Dev.rails_hsTrip, Dev.hs_hsTrip]
  exact Prod.ext (nth_updAt_same _ _ _ hr) (nth_updAt_same _ _ _ hh)

theorem Dev.judgeHs_cases (d : Dev) (r : Nat) : d.judgeHs r = d ∨ ∃ bit, d.judgeHs r = d.hsTrip r bit := by
  unfold Dev.judgeHs
  extract_lets h
  split_ifs
  · exact .inr ⟨0, rfl⟩
  · exact .inr ⟨8, rfl⟩
  · exact .inl rfl

theorem Dev.judgeHs_self {d : Dev} {r : Nat} (hr : r < d.rails.length) (hh : r < d.hs.length) :
    ((d.judgeHs r).rail r, (d.judgeHs r).hsw r) = judgedHs (d.retryTicks r) (d.rail r, d.hsw r) := by
  unfold Dev.judgeHs judgedHs
  dsimp only
  split_ifs
  · exact Dev.hsTrip_self hr hh 0
  · exact Dev.hsTrip_self hr hh 8
  · rfl

theorem Dev.judgeHs_other {d : Dev} {r q : Nat} (h : q ≠ r) :
    ((d.judgeHs r).rail q, (d.judgeHs r).hsw q) = (d.rail q, d.hsw q) := by
  obtain heq | ⟨bit, heq⟩ := d.judgeHs_cases r <;> rw [heq]
  rw [Dev.rail, Dev.hsw, Dev.rails_hsTrip, Dev.hs_hsTrip]
  exact Prod.ext (nth_updAt_other _ _ _ h) (nth_updAt_other _ _ _ h)

theorem Dev.judgeHs_onlyIn (d : Dev) (r : Nat) : Dev.onlyIn [.stat, .rails, .units, .inj, .hs, .fh] d (d.judgeHs r) := by
  obtain heq | ⟨bit, heq⟩ := d.judgeHs_cases r <;> rw [heq]
  · exact Dev.onlyIn_refl _ _
  · exact Dev.hsTrip_onlyIn _ _ _

/-- The rails and the hot-swaps after all four were judged. -/
theorem Dev.foldN_judgeHs {d : Dev} (hrails : d.rails.length = 4) (hhs : d.hs.length = 4) {r : Nat} (hr : r < 4) :
    ((foldN 4 Dev.judgeHs d).rail r, (foldN 4 Dev.judgeHs d).hsw r) = judgedHs (d.retryTicks r) (d.rail r, d.hsw r) := by
  refine foldN_at (π := fun r e => (e.rail r, e.hsw r)) (F := fun r => judgedHs (d.retryTicks r))
    (I := fun e => e.regs = d.regs ∧ e.rails.length = 4 ∧ e.hs.length = 4) ⟨rfl, hrails, hhs⟩ (fun e k _ hI => ?_)
    (fun e k hk hI => ?_) (fun e k j _ _ hne _ => Dev.judgeHs_other hne) hr
  · obtain ⟨hregs, hlr, hlh⟩ := hI
    refine ⟨(Dev.judgeHs_onlyIn e k .regs (by decide)).trans hregs, ?_⟩
    obtain heq | ⟨bit, heq⟩ := e.judgeHs_cases k <;> rw [heq]
    · exact ⟨hlr, hlh⟩
    · rw [Dev.rails_hsTrip, Dev.hs_hsTrip, updAt_length, updAt_length]; exact ⟨hlr, hlh⟩
  · obtain ⟨hregs, hlr, hlh⟩ := hI
    have hdelay : e.retryTicks k = d.retryTicks k := congrArg (· * 256) (Dev.fld_congr hregs _ _ _ _)
    rw [Dev.judgeHs_self (hlr ▸ hk) (hlh ▸ hk), hdelay]

/-! ### The commands -/

/-- The block when the judgement of region G1 resumes: the switches' bits of the sense frame are taken again (R257, R572). -/
def Dev.judgeAgain (d : Dev) : Dev :=
  { d.updXfer fun x => { x with judge := true } with
    feedA := { d.feedA with fullOn := d.feedA.fullLatch }, feedB := { d.feedB with fullOn := d.feedB.fullLatch },
    hs := d.hs.map HotSwap.shown }

theorem Dev.takeSwitches_judge {d : Dev} (h : d.die.validG1 = true) :
    (d.updXfer fun x => { x with judge := true }).takeSwitches = d.judgeAgain := by
  have hj : (d.updXfer fun x => { x with judge := true }).judging = true := by
    simp [Dev.judging, Dev.updXfer, h]
  rw [Dev.takeSwitches, if_pos hj]; rfl

theorem Dev.feed_judgeAgain (d : Dev) (f : FeedId) : d.judgeAgain.feed f = { d.feed f with fullOn := (d.feed f).fullLatch } := by
  cases f <;> rfl

theorem Dev.hsw_judgeAgain (d : Dev) (r : Nat) : d.judgeAgain.hsw r = (d.hsw r).shown :=
  List.getD_map d.hs HotSwap.reset HotSwap.shown

theorem Dev.judgeAgain_onlyIn (d : Dev) : Dev.onlyIn [.feedB, .feedA, .hs, .xfer] d d.judgeAgain := by
  intro p hp
  cases p <;> simp at hp <;> rfl

/-- What is judged when the judgement resumes: each feed by its driver status word, and each rail with its hot-swap. -/
theorem Dev.judgeSwitches_judgeAgain {d : Dev} (hshape : d.shape = true) :
    d.judgeAgain.judgeSwitches.xfer.judge = true ∧
    (∀ f, Feed.Judged { d.feed f with fullOn := (d.feed f).fullLatch } (d.judgeAgain.judgeSwitches.feed f)) ∧
    ∀ r, r < 4 → (d.judgeAgain.judgeSwitches.rail r, d.judgeAgain.judgeSwitches.hsw r) =
      judgedHs (d.retryTicks r) (d.rail r, (d.hsw r).shown) := by
  let feeds := (d.judgeAgain.feedJudge .a).feedJudge .b
  have hfeeds : Dev.onlyIn [.stat, .feedA, .feedB, .xfer, .fh] d.judgeAgain feeds :=
    Dev.onlyIn_trans (Dev.feedJudge_onlyIn _ _) (Dev.feedJudge_onlyIn _ _)
  have hhs : Dev.onlyIn [.stat, .rails, .units, .inj, .hs, .fh] feeds d.judgeAgain.judgeSwitches :=
    foldN_onlyIn _ _ _ fun e k => e.judgeHs_onlyIn k
  have hxfer : d.judgeAgain.judgeSwitches.xfer = feeds.xfer := hhs .xfer (by decide)
  refine ⟨?_, fun f => ?_, fun r hr => ?_⟩
  · rw [hxfer, Dev.judge_feedJudge, Dev.judge_feedJudge]; rfl
  · rw [Dev.feed_congr (hhs .feedA (by decide)) (hhs .feedB (by decide)), ← Dev.feed_judgeAgain]
    exact Dev.feed_feedJudge_both _ f
  · have hrails : feeds.rails = d.rails := hfeeds .rails (by decide)
    have hswitches : feeds.hs = d.judgeAgain.hs := hfeeds .hs (by decide)
    have hdelay : feeds.retryTicks r = d.retryTicks r := congrArg (· * 256) (Dev.fld_congr (hfeeds .regs (by decide)) _ _ _ _)
    rw [Dev.judgeSwitches_eq, Dev.foldN_judgeHs (by rw [hrails, Dev.rails_length hshape])
      (by rw [hswitches]; exact (List.length_map _).trans (Dev.hs_length hshape)) hr,
      hdelay, Dev.rail_congr hrails, Dev.hsw_congr hswitches, Dev.hsw_judgeAgain]

/-- G1_JUDGEMENT_RESUME where its condition holds. -/
theorem execG1JudgementResume_eq {s : State} (hvalid : s.d.die.validG1 = true) (hjudge : s.d.xfer.judge = false)
    (hgood : 2 ≤ s.d.xfer.g1Good) :
    ∃ f : Dev → Dev, exec .g1JudgementResume s = done f s ∧
      f s.d = if s.d.xfer.ran then s.d.judgeAgain.judgeSwitches else s.d.judgeAgain := by
  refine ⟨_, rfl, (if_pos (by simp [hvalid, hjudge, hgood])).trans ?_⟩
  rw [Dev.takeSwitches_judge hvalid]
  rfl

/-- HOT_SWAP_SLOW_TRIP where the current-time product has reached its limit. -/
theorem execHotSwapSlowTrip_eq {s : State} {r : Fin 4} (hran : s.d.xfer.ran = true) (hgate : (s.d.rail r).gateOn = true)
    (hacc : (s.d.fld 0x99 (0x50 + 4 * r) 15 0 : Int) * 131072000 ≤ (s.d.hsw r).acc) :
    ∃ f : Dev → Dev, exec (.hotSwapSlowTrip r) s = done f s ∧ f s.d = s.d.hsTrip r 4 :=
  ⟨_, rfl, if_pos ⟨hacc, hgate, hran⟩⟩

/-- Settles O27: hot-swap commands by the trip of their rail, the judgement of G1 feed by feed and rail by rail. -/
theorem hotSwaps : Obligations.HotSwaps := by
  refine ⟨fun s r hshape hran hgate hst hj hfull hon htrip => ?_, fun s r c bit hshape hran hgate hcause => ?_,
    fun s hran hvalid hjudge hgood => ?_, fun s hshape hran hvalid hjudge hgood => ?_⟩
  · have hr : r.val < s.d.rails.length := Dev.rail_lt hshape r
    have hh : r.val < s.d.hs.length := Dev.hs_lt hshape r
    refine completes_done rfl (if_pos (by simp [hran, hgate, hst, hj, hfull, hon, htrip])) ?_
      ⟨s.d.hsw_updHs_same _ hh, sameBut_updAt _ _ _, Dev.rail_updRail_same _ _ hr, sameBut_updAt _ _ _⟩
    exact Dev.onlyIn_via (Dev.updRail_onlyIn _ _ _) (by decide) (Dev.onlyIn_mono (Dev.updHs_onlyIn _ _ _) (by decide))
  · obtain ⟨rfl, rfl, hj, hon, htime⟩ | ⟨rfl, rfl, hacc⟩ := hcause
    · refine (completes_hsTrip hshape rfl (if_pos (by simp [hran, hj, hgate, hon, htime]))).imp
        fun e ⟨hrail, hrails, hsw, hhs, hstat, hunits⟩ => ?_
      rw [hrail, hsw]
      exact ⟨rfl, rfl, rfl, hrails, (if_neg nofun).symm, rfl, rfl, rfl, hhs, hstat, hunits⟩
    · obtain ⟨f, hexec, hf⟩ := execHotSwapSlowTrip_eq hran hgate hacc
      refine (completes_hsTrip hshape hexec (hf.trans (Dev.hsTrip_eq _ _ _))).imp
        fun e ⟨hrail, hrails, hsw, hhs, hstat, hunits⟩ => ?_
      rw [hrail, hsw]
      exact ⟨rfl, rfl, rfl, hrails, (if_pos rfl).symm, rfl, rfl, rfl, hhs, hstat, hunits⟩
  · obtain ⟨f, hexec, hf⟩ := execG1JudgementResume_eq hvalid hjudge hgood
    exact completes_done hexec (hf.trans (if_neg (by simp [hran]))) s.d.judgeAgain_onlyIn ⟨rfl, s.d.feed_judgeAgain, rfl⟩
  · obtain ⟨f, hexec, hf⟩ := execG1JudgementResume_eq hvalid hjudge hgood
    obtain ⟨hx, hfeed, hrail⟩ := Dev.judgeSwitches_judgeAgain hshape
    have honly : Dev.onlyIn [.feedB, .stat, .feedA, .hs, .xfer, .inj, .fh, .units, .rails] s.d s.d.judgeAgain.judgeSwitches :=
      Dev.onlyIn_via (Dev.judgeSwitches_onlyIn _) (by decide) (Dev.onlyIn_mono s.d.judgeAgain_onlyIn (by decide))
    refine completes_done hexec (hf.trans (if_pos hran)) honly ⟨hx, fun f => ?_, fun r hr => ?_⟩
    · obtain ⟨hdrop, hst, hcmd⟩ | ⟨hdrop, hsame⟩ := hfeed f
      · exact (if_pos hdrop).mpr ⟨hst, hcmd⟩
      · exact (if_neg hdrop).mpr hsame
    · have hpair := hrail r hr
      obtain ⟨hdrop, fast, heq⟩ | ⟨hdrop, heq⟩ := judgedHs_shown (s.d.retryTicks r) (s.d.rail r) (s.d.hsw r)
      · obtain ⟨hx, hh⟩ := Prod.mk.inj (hpair.trans heq)
        exact (if_pos hdrop).mpr (by rw [hx, hh]; exact ⟨rfl, rfl, rfl, rfl⟩)
      · obtain ⟨hx, hh⟩ := Prod.mk.inj (hpair.trans heq)
        exact (if_neg hdrop).mpr ⟨hx, hh⟩

end Sys2Proof.Machine
end

section
/-! PROOF. The end of an injection (R147), the states of a capture and its triggers (R150 to R152), and its read-out (R153, R476). -/

namespace Sys2Proof.Machine

/-! ### One register write -/

/-- Writing a register changes no other register. -/
theorem Dev.onlyReg_setReg (d : Dev) (pg off v : Nat) : d.onlyReg (d.setReg pg off v) (regAddr pg off) :=
  ⟨fun _ _ h => RegFile.setVal_other d.regs _ h, rfl, rfl, rfl⟩

/-! ### Injection -/

/-- The end of its duration stops an injection with cause 1, which is not counted as INJ_STOPPED (R157). -/
theorem Dev.injStop_durationEnd {d : Dev} (h : d.inj.running = true) :
    d.injStop 1 = { d with inj := { d.inj with running := false, stopCause := 1, silent := true } } :=
  (if_pos h).trans (if_pos (.inl rfl))

/-! ### States of a capture -/

/-- The index of CAP_TRIG is all that `capIndexed` may write. -/
theorem Dev.capIndexed_cap (d : Dev) : d.capIndexed.cap = { d.cap with trigIndex := d.capIndexed.cap.trigIndex } := by
  unfold Dev.capIndexed
  split <;> rfl

/-- An accepted trigger (R151): where the trigger sample is taken already, it is not one of the POST samples. -/
theorem Dev.capTrigger_accepted {d : Dev} (h : d.cap.st = .filling ∨ d.cap.st = .armed) :
    d.capTrigger.cap.st = .triggered ∧ d.capTrigger.cap.trigTseq = d.time.tseq ∧
      d.capTrigger.cap.post = if d.cap.took then d.capDepth - d.capPre - 1 else d.capDepth - d.capPre := by
  rw [Dev.capTrigger, if_pos h, Dev.capIndexed_cap]
  exact ⟨rfl, rfl, rfl⟩

/-- A capture that is neither filling nor armed accepts no trigger. -/
theorem Dev.capTrigger_ignored {d : Dev} (h : ¬ (d.cap.st = .filling ∨ d.cap.st = .armed)) : d.capTrigger = d := if_neg h

/-- Forcing triggers a filling or armed capture where the register trigger is enabled, and else does nothing. -/
theorem Dev.capForce_eq (d : Dev) :
    d.capForce = if d.flag 0xE0 0x80 8 = true ∧ (d.cap.st = .filling ∨ d.cap.st = .armed) then d.capTrigger else d := by
  rw [ite_and, Dev.capForce]
  refine ite_congr rfl (fun _ => ?_) fun _ => rfl
  split
  · rfl
  · exact Dev.capTrigger_ignored ‹_›

/-- ARM is refused outside tier T0, begins an empty capture from IDLE, DONE or ABORTED, and leaves a running one (R150, R152). -/
theorem completes_capArm (s : State) :
    Completes .capArm s [.cap] fun e =>
      if s.d.sched.tier ≠ 0 then e.cap = { s.d.cap with armRefused := true }
      else if s.d.cap.st = .idle ∨ s.d.cap.st = .done ∨ s.d.cap.st = .aborted then
        e.cap.st = .filling ∧ e.cap.count = 0 ∧ e.cap.wr = 0 ∧ e.cap.rdReady = false ∧ e.cap.armRefused = false
      else e.cap = { s.d.cap with armRefused := false } := by
  refine completes_done rfl rfl s.d.capArm_onlyIn ?_
  rw [Dev.capArm]
  split_ifs
  · rfl
  · exact ⟨rfl, rfl, rfl, rfl, rfl⟩
  · rfl

theorem completes_capForce (s : State) :
    Completes .capForce s [.cap] fun e =>
      if s.d.flag 0xE0 0x80 8 = true ∧ (s.d.cap.st = .filling ∨ s.d.cap.st = .armed) then
        e.cap.st = .triggered ∧ e.cap.trigTseq = s.d.time.tseq ∧
        e.cap.post = (if s.d.cap.took then s.d.capDepth - s.d.capPre - 1 else s.d.capDepth - s.d.capPre)
      else e.cap = s.d.cap := by
  refine completes_done rfl rfl s.d.capForce_onlyIn ?_
  rw [Dev.capForce_eq]
  by_cases h : s.d.flag 0xE0 0x80 8 = true ∧ (s.d.cap.st = .filling ∨ s.d.cap.st = .armed)
  · rw [if_pos h, if_pos h]
    exact Dev.capTrigger_accepted h.2
  · rw [if_neg h, if_neg h]

/-! ### Read-out -/

theorem completes_capRd (s : State) (v : Word32) :
    Completes (.capRd v) s [.cap, .regs] fun e =>
      e.cap = { s.d.cap with
        rdReady := false, rdAsked := true, copying := false, rdSig := bits v.toNat 13 12, rdBlock := bits v.toNat 11 0 } ∧
      e.reg 0xE0 0xA0 = v.toNat &&& 0x3FFF ∧ s.d.onlyReg e (regAddr 0xE0 0xA0) :=
  completes_done rfl rfl (Dev.onlyIn_mono (s.d.capRdWrite_onlyIn v.toNat) (by decide))
    ⟨rfl, s.d.setReg_same _ (by decide), s.d.onlyReg_setReg _ _ _⟩

/-- The words of a block that channel 15 has copied. -/
def Dev.capBlock (d : Dev) : List Nat := (upto 256).map fun i => memWord d.sram (dmaAddr capBlockAt + 4 * i)

theorem Dev.capBlock_length (d : Dev) : d.capBlock.length = 256 := by simp [Dev.capBlock, upto]

theorem Dev.capBlock_getElem? (d : Dev) {i : Nat} (h : i < 256) :
    d.capBlock[i]? = some (memWord d.sram (dmaAddr capBlockAt + 4 * i)) := by
  rw [Dev.capBlock, upto, List.getElem?_map, List.getElem?_range h, Option.map_some]

theorem Dev.capRuns_eq_false {d : Dev} (hfilling : d.cap.st ≠ .filling) (harmed : d.cap.st ≠ .armed)
    (htriggered : d.cap.st ≠ .triggered) : d.capRuns = false := by
  simp [Dev.capRuns, hfilling, harmed, htriggered]

/-- CAP_READ_READY once channel 15 has copied the block and no capture runs: the words of the block are given. -/
theorem completes_capReadReady {s : State} (hasked : s.d.cap.rdAsked = true) (hcopying : s.d.cap.copying = true)
    (hidle : (s.d.ch 15).st = .idle) (hruns : s.d.capRuns = false) :
    Completes .capReadReady s [.cap] fun e =>
      e.cap = { s.d.cap with rdReady := true, rdAsked := false, copying := false, data := s.d.capBlock } :=
  completes_done rfl (if_pos (by simp [hasked, hcopying, hidle, hruns])) (Dev.onlyIn_put_cap (Dev.onlyIn_refl _ _) (by decide)) rfl

/-- Before the block is asked for and copied, CAP_READ_READY does nothing. -/
theorem execCapReadReady_waits {s : State} (h : s.d.cap.rdAsked = false ∨ s.d.cap.copying = false ∨ (s.d.ch 15).st ≠ .idle) :
    exec .capReadReady s = .next s := by
  refine done_self (if_neg ?_)
  obtain hasked | hcopying | hbusy := h
  · simp [hasked]
  · simp [hcopying]
  · simp [hbusy]

/-- Settles O50: the end of an injection, then the capture's life in order: begun, triggered, filled, done, and read out block by
block. -/
theorem captureAndInjection : Obligations.CaptureAndInjection := by
  refine ⟨fun s hrun hends hleft => ?_, completes_capArm, completes_capForce, fun s hfilling hcount => ?_,
    fun s htriggered hpost => ?_, completes_capRd, fun s hasked hcopying hidle hfilling harmed htriggered => ?_,
    fun s => execCapReadReady_waits⟩
  · exact completes_done rfl ((if_pos (by simp [hrun, hends, hleft])).trans (Dev.injStop_durationEnd hrun))
      (Dev.onlyIn_put_inj (Dev.onlyIn_refl _ _) (by decide)) ⟨rfl, rfl⟩
  · exact completes_done rfl (if_pos ⟨hfilling, hcount⟩) (Dev.onlyIn_put_cap (Dev.onlyIn_refl _ _) (by decide)) rfl
  · exact completes_done rfl (if_pos ⟨htriggered, hpost⟩)
      (Dev.onlyIn_via (Dev.occur_onlyIn _ _ _) (by decide) (Dev.onlyIn_put_cap (Dev.onlyIn_refl _ _) (by decide)))
      ⟨rfl, Dev.recorded_occur_of rfl _ _⟩
  · have hruns := Dev.capRuns_eq_false hfilling harmed htriggered
    refine (completes_capReadReady hasked hcopying hidle hruns).imp fun e he => ?_
    rw [he]
    exact ⟨rfl, rfl, rfl, s.d.capBlock_length, fun i => s.d.capBlock_getElem?⟩

end Sys2Proof.Machine
end

section
/-! PROOF. Step ports by number, and what a step port receives (R159, R160, R161, R570). -/

namespace Sys2Proof.Machine

/-! ### Step ports and loads by number -/

/-- The block with its fixed shape has 16 step ports and 256 loads. -/
theorem Dev.adm_length {d : Dev} (h : d.shape = true) : d.adm.ports.length = 16 ∧ d.adm.loads.length = 256 := by
  obtain ⟨-, -, -, -, -, -, -, -, -, hports, hloads, -⟩ := Dev.shape_iff.mp h
  exact ⟨hports, hloads⟩

theorem Dev.port_lt {d : Dev} (h : d.shape = true) (n : Fin 16) : n.val < d.adm.ports.length := by
  rw [(Dev.adm_length h).1]; exact n.isLt

theorem Dev.load_lt {d : Dev} (h : d.shape = true) {i : Nat} (hi : i < 256) : i < d.adm.loads.length := by
  rw [(Dev.adm_length h).2]; exact hi

theorem Dev.port_congr {d e : Dev} (h : e.adm.ports = d.adm.ports) (n : Nat) : e.port n = d.port n :=
  congrArg (fun l => nth l n StepPort.reset) h

theorem Dev.load_congr {d e : Dev} (h : e.adm.loads = d.adm.loads) (i : Nat) : e.load i = d.load i :=
  congrArg (fun l => nth l i Load.reset) h

theorem Dev.port_updPort_same (d : Dev) {n : Nat} (f : StepPort → StepPort) (h : n < d.adm.ports.length) :
    (d.updPort n f).port n = f (d.port n) := nth_updAt_same _ _ _ h

theorem Dev.load_updLoad_same (d : Dev) {i : Nat} (f : Load → Load) (h : i < d.adm.loads.length) :
    (d.updLoad i f).load i = f (d.load i) := nth_updAt_same _ _ _ h

theorem Dev.load_updLoad_other (d : Dev) {i j : Nat} (f : Load → Load) (h : j ≠ i) : (d.updLoad i f).load j = d.load j :=
  nth_updAt_other _ _ _ h

/-! ### Commands that rewrite one step port -/

/-- A command that completes with a property, completes with it where more parts may change. -/
theorem Completes.mono {c : Instr} {s : State} {l m : List Part} {P : Dev → Prop} (h : Completes c s m P) (hs : m ⊆ l) :
    Completes c s l P := by
  obtain ⟨t, hexec, ⟨hsnap, h0, h1, hpending, hd⟩, hP⟩ := h
  exact ⟨t, hexec, ⟨hsnap, h0, h1, hpending, Dev.onlyIn_mono hd hs⟩, hP⟩

/-- Step port `n` is `p` afterwards; every other port, every load and the ledger stand. -/
def Dev.portBecomes (d e : Dev) (n : Nat) (p : StepPort) : Prop :=
  e.port n = p ∧ e.adm.led = d.adm.led ∧ e.adm.loads = d.adm.loads ∧ sameBut n d.adm.ports e.adm.ports

theorem Dev.portBecomes_updPort {d : Dev} (h : d.shape = true) (n : Fin 16) (g : StepPort → StepPort) :
    d.portBecomes (d.updPort n g) n (g (d.port n)) :=
  ⟨d.port_updPort_same g (Dev.port_lt h n), rfl, rfl, sameBut_updAt _ _ _⟩

/-- A command that rewrites one step port. -/
theorem completes_updPort {c : Instr} {s : State} {n : Fin 16} {f : Dev → Dev} {g : StepPort → StepPort}
    (hshape : s.d.shape = true) (hc : exec c s = done f s) (hf : f s.d = s.d.updPort n g) :
    Completes c s [.adm] fun e => s.d.portBecomes e n (g (s.d.port n)) ∧ e.stat = s.d.stat :=
  completes_done hc hf (Dev.updPort_onlyIn _ _ _) ⟨Dev.portBecomes_updPort hshape n g, rfl⟩

/-- A command that rewrites one step port and records a bit. -/
theorem completes_updPort_occur {c : Instr} {s : State} {n : Fin 16} {f : Dev → Dev} {g : StepPort → StepPort} {pg bit : Nat}
    (hshape : s.d.shape = true) (hc : exec c s = done f s) (hf : f s.d = (s.d.updPort n g).occur pg bit) :
    Completes c s [.adm, .stat] fun e => s.d.portBecomes e n (g (s.d.port n)) ∧ s.d.recorded e pg bit :=
  completes_done hc hf
    (Dev.onlyIn_via (Dev.occur_onlyIn _ _ _) (by decide) (Dev.onlyIn_mono (Dev.updPort_onlyIn _ _ _) (by decide)))
    ⟨Dev.portBecomes_updPort hshape n g, Dev.recorded_occur_of rfl _ _⟩

/-! ### A request frame -/

theorem requestOk_iff {f : StepFrame} {co al : Bool} :
    requestOk f co al = true ↔ co = true ∧ al = true ∧ bits f.toNat 63 56 = 0x3C ∧ frameCrcOk f = true := by
  simp [requestOk, and_assoc]

/-- The first place that is free takes a frame: its sense frame's, then the holding place; with neither it is discarded (R570). -/
theorem StepPort.receive_eq (p : StepPort) (f : StepFrame) (late : Bool) :
    p.receive f late =
      if late = false ∧ p.due1 = none then ({ p with due1 := some f }, false)
      else if late = true ∧ p.due2 = none then ({ p with due2 := some f }, false)
      else if p.place = none then ({ p with place := some f, placeIn := if late then 2 else 1 }, false)
      else ({ p with spacing := inc8 p.spacing }, true) := by
  unfold StepPort.receive
  split
  next h1 => rw [if_pos ⟨rfl, h1⟩]
  next h2 => rw [if_neg (by simp), if_pos ⟨rfl, h2⟩]
  next hplace h1 h2 => rw [if_neg (not_and.mpr h1), if_neg (not_and.mpr h2), if_pos hplace]
  next hplace h1 h2 => rw [if_neg (not_and.mpr h1), if_neg (not_and.mpr h2), if_neg (by simp [hplace])]

/-- A frame that passes its checks on a port whose link is up (R570). -/
theorem Dev.requestFrame_up {d : Dev} {n : Nat} {f : StepFrame} {co al : Bool} (late : Bool) (hup : (d.port n).linkUp = true)
    (hok : requestOk f co al = true) :
    d.requestFrame n f co al late =
      if ((d.port n).receive f late).2 then (d.updPort n fun _ => ((d.port n).receive f late).1).occur 0x74 1
      else d.updPort n fun _ => ((d.port n).receive f late).1 := by
  simp [Dev.requestFrame, hup, hok]

theorem completes_requestFrame_up {s : State} {n : Fin 16} {f : StepFrame} {co al : Bool} (late : Bool) (hshape : s.d.shape = true)
    (hup : (s.d.port n).linkUp = true) (hok : requestOk f co al = true) :
    Completes (.requestFrame n f co al late) s [.adm, .stat] fun e =>
      s.d.portBecomes e n ((s.d.port n).receive f late).1 ∧
      (((s.d.port n).receive f late).2 = false → e.stat = s.d.stat) ∧
      (((s.d.port n).receive f late).2 = true → s.d.recorded e 0x74 1) := by
  have heq := Dev.requestFrame_up late hup hok
  by_cases hdrop : ((s.d.port n).receive f late).2 = true
  · rw [if_pos hdrop] at heq
    exact (completes_updPort_occur hshape rfl heq).imp fun e ⟨hport, hrec⟩ => ⟨hport, by simp [hdrop], fun _ => hrec⟩
  · rw [if_neg hdrop] at heq
    exact Completes.mono ((completes_updPort hshape rfl heq).imp fun e ⟨hport, hstat⟩ => ⟨hport, fun _ => hstat, by simp [hdrop]⟩)
      (by decide)

theorem completes_requestFrame_bad {s : State} {n : Fin 16} {f : StepFrame} {co al : Bool} (late : Bool) (hshape : s.d.shape = true)
    (hup : (s.d.port n).linkUp = true) (hbad : requestOk f co al = false) :
    Completes (.requestFrame n f co al late) s [.adm, .stat] fun e =>
      s.d.portBecomes e n { s.d.port n with
        err1 := (s.d.port n).err1 || !late, err2 := (s.d.port n).err2 || late, lineErr := inc8 (s.d.port n).lineErr } ∧
      s.d.recorded e 0x74 0 :=
  completes_updPort_occur (g := fun p =>
    { p with err1 := p.err1 || !late, err2 := p.err2 || late, lineErr := inc8 p.lineErr }) hshape rfl
    (by simp [Dev.requestFrame, hup, hbad])

theorem completes_requestFrame_down {s : State} {n : Fin 16} {f : StepFrame} {co al : Bool} (late : Bool) (hshape : s.d.shape = true)
    (hdown : (s.d.port n).linkUp = false) (hok : requestOk f co al = true) :
    Completes (.requestFrame n f co al late) s [.adm, .stat] fun e =>
      s.d.portBecomes e n { s.d.port n with spacing := inc8 (s.d.port n).spacing } ∧ s.d.recorded e 0x74 1 :=
  completes_updPort_occur (g := fun p => { p with spacing := inc8 p.spacing }) hshape rfl
    (by simp [Dev.requestFrame, hdown, hok])

theorem execRequestFrame_noTrace {s : State} {n : Fin 16} {f : StepFrame} {co al : Bool} (late : Bool)
    (hdown : (s.d.port n).linkUp = false) (hbad : requestOk f co al = false) :
    exec (.requestFrame n f co al late) s = .next s :=
  done_self (by simp [Dev.requestFrame, hdown, hbad])

/-! ### Delivery and the link -/

theorem StepPort.unhold_of_held {p : StepPort} (h : p.place ≠ none) (hin : p.placeIn = 0) :
    p.unhold = { p with due1 := p.place, place := p.due1, placeIn := 1 } :=
  if_pos ⟨Option.isSome_iff_ne_none.mpr h, hin⟩

/-- A link that goes down drops what waits, which is counted and recorded (R161, R570). -/
theorem completes_linkDown {s : State} {n : Fin 16} (hshape : s.d.shape = true) :
    Completes (.stepPortLinkDown n) s [.adm, .stat] fun e =>
      s.d.portBecomes e n { (s.d.port n).dropWaiting with linkUp := false } ∧
      if (s.d.port n).waiting = 0 then e.stat = s.d.stat else s.d.recorded e 0x74 1 := by
  by_cases h : (s.d.port n).waiting = 0
  · exact Completes.mono ((completes_updPort (g := fun p => { p.dropWaiting with linkUp := false }) hshape rfl
      (by exact if_neg (by simp [h]))).imp fun e ⟨hport, hstat⟩ => ⟨hport, (if_pos h).mpr hstat⟩) (by decide)
  · exact (completes_updPort_occur (g := fun p => { p.dropWaiting with linkUp := false }) hshape rfl
      (by exact if_pos (decide_eq_true (Nat.pos_of_ne_zero h)))).imp fun e ⟨hport, hrec⟩ => ⟨hport, (if_neg h).mpr hrec⟩

/-- Settles O32: a frame by the checks it passes and the link of its port, then by the place that takes it; delivery and the link
each rewrite their port alone. -/
theorem stepPortFrames : Obligations.StepPortFrames := by
  refine ⟨fun s n f co al late hshape => ?_, fun s n hshape hplace hin => ?_, fun s n hshape => ?_, fun s n hshape => ?_⟩
  · cases hup : (s.d.port n).linkUp <;> cases hok : requestOk f co al
    · refine ⟨s, execRequestFrame_noTrace late hup hok, ⟨rfl, rfl, rfl, rfl, Dev.onlyIn_refl _ _⟩, rfl, rfl, sameBut_refl _ _, ?_⟩
      have hnot := fun h => Bool.false_ne_true (hok.symm.trans (requestOk_iff.mpr h))
      dsimp only
      rw [if_neg hnot, if_pos hup]
    · refine (completes_requestFrame_down late hshape hup hok).imp fun e ⟨⟨hport, hled, hloads, hrest⟩, hrec⟩ => ?_
      refine ⟨hled, hloads, hrest, ?_⟩
      dsimp only
      rw [if_pos (requestOk_iff.mp hok), if_pos hup]
      exact ⟨hport, hrec⟩
    · refine (completes_requestFrame_bad late hshape hup hok).imp fun e ⟨⟨hport, hled, hloads, hrest⟩, hrec⟩ => ?_
      have hnot := fun h => Bool.false_ne_true (hok.symm.trans (requestOk_iff.mpr h))
      refine ⟨hled, hloads, hrest, ?_⟩
      dsimp only
      rw [if_neg hnot, if_neg (by simp [hup])]
      exact ⟨hport, hrec⟩
    · refine (completes_requestFrame_up late hshape hup hok).imp fun e ⟨⟨hport, hled, hloads, hrest⟩, hkept, hdropped⟩ => ?_
      refine ⟨hled, hloads, hrest, ?_⟩
      dsimp only
      rw [if_pos (requestOk_iff.mp hok), if_neg (by simp [hup])]
      rw [StepPort.receive_eq] at hport hkept hdropped
      split_ifs at hport hkept hdropped ⊢
      · exact ⟨hport, hkept rfl⟩
      · exact ⟨hport, hkept rfl⟩
      · exact ⟨hport, hkept rfl⟩
      · exact ⟨hport, hkept rfl⟩
      · exact ⟨hport, hdropped rfl⟩
  · refine (completes_updPort (g := StepPort.unhold) hshape rfl rfl).imp fun e ⟨⟨hport, hled, hloads, hrest⟩, _⟩ => ?_
    rw [StepPort.unhold_of_held hplace hin] at hport
    exact ⟨hport, hled, hloads, hrest⟩
  · exact (completes_updPort hshape rfl rfl).imp fun e ⟨⟨hport, hled, hloads, hrest⟩, _⟩ => ⟨hport, hled, hloads, hrest⟩
  · exact (completes_linkDown hshape).imp fun e ⟨⟨hport, hled, hloads, hrest⟩, hstat⟩ => ⟨hport, hstat, hled, hloads, hrest⟩

end Sys2Proof.Machine
end

section
/-! PROOF. The ledger, reservations and cap levels (R171, R172, R183, R189, R190, R193, R194). -/

namespace Sys2Proof.Machine

/-! ### The rise of a cap level -/

/-- A step port with a cause of level `c` in tick `t` (R193). -/
def StepPort.raised (p : StepPort) (c t : Nat) : StepPort :=
  { p with level := max p.level c, last1 := if 1 ≤ c then t else p.last1, last2 := if 2 ≤ c then t else p.last2,
           last3 := if 3 ≤ c then t else p.last3 }

/-- A rise from level `old` to level `c` is recorded where it reaches level 3, and where it reaches level 2 (R198). -/
def Dev.noteRise (d : Dev) (old c : Nat) : Dev :=
  let d := if old < 3 ∧ 3 ≤ c then d.occur 0x78 0 else d
  if old < 2 ∧ 2 ≤ c then d.occur 0x78 1 else d

theorem Dev.capRaise_eq (d : Dev) (n : Nat) :
    d.capRaise n = (d.updPort n fun p => p.raised (d.capCause n) d.now).noteRise (d.port n).level (d.capCause n) := rfl

theorem Dev.noteRise_adm (d : Dev) (old c : Nat) : (d.noteRise old c).adm = d.adm := by
  unfold Dev.noteRise; split_ifs <;> rfl

theorem Dev.capRaise_adm (d : Dev) (n : Nat) :
    (d.capRaise n).adm = (d.updPort n fun p => p.raised (d.capCause n) d.now).adm := by
  rw [Dev.capRaise_eq, Dev.noteRise_adm]

theorem Dev.port_capRaise {d : Dev} {n : Nat} (h : n < d.adm.ports.length) :
    (d.capRaise n).port n = (d.port n).raised (d.capCause n) d.now :=
  (Dev.port_congr (congrArg AdmSt.ports (d.capRaise_adm n)) n).trans (d.port_updPort_same _ h)

theorem Dev.sameBut_capRaise (d : Dev) (n : Nat) : sameBut n d.adm.ports (d.capRaise n).adm.ports := by
  rw [Dev.capRaise_adm]; exact sameBut_updAt _ _ _

/-- A rise is recorded on page 0x078 alone. -/
theorem Dev.statOf_capRaise (d : Dev) (n : Nat) {q : Nat} (h : q ≠ 0x78) : (d.capRaise n).statOf q = d.statOf q := by
  rw [Dev.capRaise_eq]
  unfold Dev.noteRise
  split_ifs <;> simp only [Dev.statOf_occur_other _ _ h] <;> rfl

/-- A port that is STALE has a cause of level 3, or 2 where its page says so (R190). -/
theorem Dev.le_capCause_of_stale {d : Dev} {n : Nat} (h : (d.port n).stale = true) :
    (if d.flag 0x78 (0x40 + 4 * n) 2 then 3 else 2) ≤ d.capCause n := by
  have hlevel : (if d.flag 0x78 (0x40 + 4 * n) 2 then 3 else 2) = d.hbLevel n := (if_pos h).symm
  rw [hlevel]
  exact le_max_of_le_right (le_max_left _ _)

/-! ### Entries that become STALE -/

/-- The entries of a list become STALE. -/
def Dev.staleLoads (d : Dev) (l : List Nat) : Dev := l.foldl (fun d i => d.updLoad i fun x => { x with stale := true }) d

/-- Entries that become STALE change neither a port nor the ledger. -/
theorem Dev.staleLoads_keeps (d : Dev) (l : List Nat) :
    (d.staleLoads l).adm.ports = d.adm.ports ∧ (d.staleLoads l).adm.led = d.adm.led := by
  induction l generalizing d with
  | nil => exact ⟨rfl, rfl⟩
  | cons i l ih => exact ih _

theorem Dev.staleLoads_onlyIn (d : Dev) (l : List Nat) : Dev.onlyIn [.adm] d (d.staleLoads l) :=
  Dev.onlyIn_foldl (fun _ _ => Dev.updLoad_onlyIn _ _ _) (Dev.onlyIn_refl _ _)

theorem Dev.load_staleLoads {d : Dev} {i : Nat} (l : List Nat) (hi : i < d.adm.loads.length) :
    (d.staleLoads l).load i = if i ∈ l then { d.load i with stale := true } else d.load i := by
  induction l generalizing d with
  | nil => rfl
  | cons j l ih =>
    have htail := ih (d := d.updLoad j fun x => { x with stale := true }) ((updAt_length _ _ _).symm ▸ hi)
    refine htail.trans ?_
    by_cases hij : i = j
    · subst hij
      rw [d.load_updLoad_same _ hi, ite_self, if_pos List.mem_cons_self]
    · rw [d.load_updLoad_other _ hij]
      simp [hij]

/-- A port's heartbeat count has run out (R190): its enabled entries and the port are STALE, and its level rises. -/
def Dev.portStaled (d : Dev) (n : Nat) : Dev := ((d.staleLoads (d.portLoads n)).updPort n fun p => { p with stale := true }).occur 0x74 3

theorem Dev.portStaled_onlyIn (d : Dev) (n : Nat) : Dev.onlyIn [.adm, .stat] d (d.portStaled n) :=
  Dev.onlyIn_via (Dev.occur_onlyIn _ _ _) (by decide)
    (Dev.onlyIn_via (Dev.updPort_onlyIn _ _ _) (by decide) (Dev.onlyIn_mono (d.staleLoads_onlyIn _) (by decide)))

theorem Dev.portStaled_ports (d : Dev) (n : Nat) :
    (d.portStaled n).adm.ports = updAt d.adm.ports n fun p => { p with stale := true } :=
  congrArg (updAt · n _) (d.staleLoads_keeps _).1

theorem Dev.port_portStaled {d : Dev} {n : Nat} (h : n < d.adm.ports.length) :
    (d.portStaled n).port n = { d.port n with stale := true } := by
  rw [Dev.port, Dev.portStaled_ports]
  exact nth_updAt_same _ _ _ h

theorem execPortStale_eq {s : State} {n : Fin 16} (hfresh : (s.d.port n).stale = false) (hloads : s.d.portLoads n ≠ [])
    (hquiet : 4 * s.d.fld 0x74 0x4C 7 0 ≤ (s.d.port n).quiet) :
    ∃ f : Dev → Dev, exec (.portStale n) s = done f s ∧ f s.d = (s.d.portStaled n).capRaise n :=
  ⟨_, rfl, if_pos (by simp [hfresh, hloads, hquiet])⟩

/-- PORT_STALE where its condition holds. -/
theorem completes_portStale {s : State} {n : Fin 16} (hshape : s.d.shape = true) (hfresh : (s.d.port n).stale = false)
    (hloads : s.d.portLoads n ≠ []) (hquiet : 4 * s.d.fld 0x74 0x4C 7 0 ≤ (s.d.port n).quiet) :
    Completes (.portStale n) s [.adm, .stat] fun e =>
      (e.port n).stale = true ∧ sameBut n.val s.d.adm.ports e.adm.ports ∧ e.adm.led = s.d.adm.led ∧
      (∀ i, i < 256 → e.load i = if i ∈ s.d.portLoads n then { s.d.load i with stale := true } else s.d.load i) ∧
      (if s.d.flag 0x78 (0x40 + 4 * n) 2 then 3 else 2) ≤ (e.port n).level ∧ (s.d.port n).level ≤ (e.port n).level ∧
      e.statOf 0x74 = (s.d.statOf 0x74).occur 3 4 := by
  obtain ⟨f, hexec, hf⟩ := execPortStale_eq hfresh hloads hquiet
  have honly := s.d.portStaled_onlyIn n
  have hstaled := Dev.port_portStaled (Dev.port_lt hshape n)
  have hraised : ((s.d.portStaled n).capRaise n).port n = _ :=
    Dev.port_capRaise (by rw [Dev.portStaled_ports, updAt_length]; exact Dev.port_lt hshape n)
  have hcause := Dev.le_capCause_of_stale (d := s.d.portStaled n) (n := n) (by rw [hstaled])
  have hadm := (s.d.portStaled n).capRaise_adm n
  refine completes_done hexec hf (Dev.onlyIn_via (Dev.capRaise_onlyIn _ _) (by decide) honly)
    ⟨?_, ?_, ?_, fun i hi => ?_, ?_, ?_, ?_⟩
  · rw [hraised, hstaled]; rfl
  · exact sameBut_trans (s.d.portStaled_ports n ▸ sameBut_updAt _ _ _) (Dev.sameBut_capRaise _ _)
  · rw [hadm]; exact (s.d.staleLoads_keeps _).2
  · rw [Dev.load_congr (congrArg AdmSt.loads hadm)]
    exact Dev.load_staleLoads _ (Dev.load_lt hshape hi)
  · rw [Dev.flag_congr (honly .regs (by decide))] at hcause
    rw [hraised]
    exact le_max_of_le_right hcause
  · rw [hraised, hstaled]
    exact le_max_left _ _
  · rw [Dev.statOf_capRaise _ _ (by decide), Dev.portStaled, Dev.statOf_occur_same]
    exact congrArg (BlkStat.occur · 3 4) (Dev.statOf_congr (s.d.staleLoads_onlyIn _ .stat (by decide)) _)

/-! ### The ledger's events -/

/-- Settling a step that is settled already changes nothing, so every step of the load that is due is settled afterwards (R172). -/
theorem Dev.settle_eq (d : Dev) (i : Nat) (q : StepRec) :
    (if q.load = i ∧ d.settleDue q then { q with settled := true } else q) =
      if q.load = i ∧ q.start + 2 ^ q.cls + 16 ≤ d.now then { q with settled := true } else q := by
  cases hq : q.settled
  · simp [Dev.settleDue, hq]
  · have hsame : { q with settled := true } = q := by rw [← hq]
    rw [hsame, ite_self, ite_self]

theorem completes_stepSettle (s : State) (i : Fin 256) :
    Completes (.stepSettle i) s [.adm] fun e =>
      e.adm = { s.d.adm with led := { s.d.adm.led with steps := s.d.adm.led.steps.map fun q =>
        if q.load = i.val ∧ q.start + 2 ^ q.cls + 16 ≤ s.d.now then { q with settled := true } else q } } := by
  refine completes_done rfl rfl (Dev.updLed_onlyIn _ _) ?_
  simp only [Dev.updLed, Dev.settle_eq]

/-- Settles O35: each command where its condition holds; a port without heartbeat by its entries, its port and the rise of its level. -/
theorem ledgerAndCaps : Obligations.LedgerAndCaps := by
  refine ⟨fun s hcons hcond => ?_, completes_stepSettle, fun s i t hshape hend ht => ?_, fun s hwin => ?_,
    fun s n hshape hfresh hloads hquiet => completes_portStale hshape hfresh hloads hquiet,
    fun s n hshape hphase hdue hlevel hfell hlast => ?_, fun s hfreeze hend => ?_⟩
  · exact completes_done rfl (if_pos (by simp [Dev.led, hcons, hcond])) (Dev.updLed_onlyIn _ _) rfl
  · refine completes_done rfl ?_ (Dev.updLoad_onlyIn s.d i fun x => { x with resv := 0, resvEnd := none })
      ⟨s.d.load_updLoad_same _ (Dev.load_lt hshape i.isLt), sameBut_updAt _ _ _, rfl, rfl⟩
    simp only [hend, ht, if_true]
  · exact completes_done rfl (if_pos hwin) (Dev.onlyIn_put_adm (Dev.updLed_onlyIn _ _) (by decide)) rfl
  · refine (completes_updPort (n := n) (g := fun p => { p with level := p.level - 1, fell := true }) hshape rfl
      (by exact if_pos ⟨hphase, hdue, hlevel, by simp [hfell], hlast⟩)).imp fun e ⟨⟨hport, hled, hloads, hrest⟩, _⟩ => ?_
    exact ⟨hport, hrest, hled, hloads⟩
  · exact completes_done rfl (if_pos (by simp [Dev.led, hfreeze, hend]))
      (Dev.onlyIn_via (Dev.occur_onlyIn _ _ _) (by decide) (Dev.onlyIn_mono (Dev.updLed_onlyIn _ _) (by decide)))
      ⟨rfl, Dev.recorded_occur_of rfl _ _⟩

end Sys2Proof.Machine
end

section
/-! PROOF. What a delivered request meets before its decision (R163, R175 to R178, R190), and the invalid one (R177). -/

namespace Sys2Proof.Machine

/-! ### The request that a command takes -/

theorem Dev.kind_of_admitted {d : Dev} {n kind : Nat} {f : StepFrame} (h : d.admitted n kind = some f) :
    reqKind f = kind ∨ reqKind f = 0 ∨ 5 < reqKind f := by
  unfold Dev.admitted at h
  split at h
  · split at h
    · split_ifs at h with hkind
      rw [Option.some.injEq] at h
      exact h ▸ hkind
    · exact absurd h nofun
  · exact absurd h nofun

theorem Dev.reqValid_iff {d : Dev} {n : Nat} {f : StepFrame} :
    d.reqValid n f = true ↔ 1 ≤ reqKind f ∧ reqKind f ≤ 5 ∧ reqRamp f ≤ 8 ∧ reqRsvd f = 0 ∧ reqLoad f / 16 = n ∧
      d.gtEn (reqLoad f) = true := by
  simp [Dev.reqValid, and_assoc]

/-- A valid request is of the kind that its command names. -/
theorem Dev.kind_of_valid {d : Dev} {n kind : Nat} {f : StepFrame} (h : d.admitted n kind = some f) (hv : d.reqValid n f = true) :
    reqKind f = kind := by
  obtain ⟨hlow, hhigh, -⟩ := Dev.reqValid_iff.mp hv
  obtain hkind | hkind | hkind := Dev.kind_of_admitted h <;> omega

theorem Dev.admitCmd_eq {d : Dev} {n kind : Nat} {f : StepFrame} (h : d.admitted n kind = some f) :
    d.admitCmd n kind = d.decideReq n f := by
  rw [Dev.admitCmd, h]

/-- Whatever its kind, a request meets the same tests before its decision. -/
theorem Dev.decideReq_request (d : Dev) (n : Nat) (f : StepFrame) : ∃ cmp g, d.decideReq n f = d.request n f cmp g := by
  unfold Dev.decideReq
  split_ifs <;> exact ⟨_, _, rfl⟩

theorem reqLoad_lt (f : StepFrame) : reqLoad f < 256 := Nat.mod_lt _ (by decide)

/-! ### The end of a request -/

/-- After the last request of the tick at most the nudge of the ledger changes (R186). -/
theorem Dev.admitEnd_eq (d : Dev) : ∃ b x, d.admitEnd = d.updLed fun l => { l with nudged := b, nudge := x } := by
  unfold Dev.admitEnd Dev.nudgeTick
  dsimp only
  split_ifs
  · exact ⟨true, _, rfl⟩
  · exact ⟨d.led.nudged, d.led.nudge, rfl⟩
  · exact ⟨d.led.nudged, d.led.nudge, rfl⟩

@[simp] theorem Dev.admitEnd_ports (d : Dev) : d.admitEnd.adm.ports = d.adm.ports := by
  obtain ⟨b, x, h⟩ := d.admitEnd_eq; rw [h]; rfl

@[simp] theorem Dev.admitEnd_loads (d : Dev) : d.admitEnd.adm.loads = d.adm.loads := by
  obtain ⟨b, x, h⟩ := d.admitEnd_eq; rw [h]; rfl

@[simp] theorem Dev.admitEnd_steps (d : Dev) : d.admitEnd.adm.led.steps = d.adm.led.steps := by
  obtain ⟨b, x, h⟩ := d.admitEnd_eq; rw [h]; rfl

@[simp] theorem Dev.admitEnd_invalid (d : Dev) : d.admitEnd.adm.led.invalid = d.adm.led.invalid := by
  obtain ⟨b, x, h⟩ := d.admitEnd_eq; rw [h]; rfl

theorem Dev.port_reply {d : Dev} {n : Nat} (f : StepFrame) (x : Decision) (hn : n < d.adm.ports.length) :
    (d.reply n f x).port n =
      { d.port n with reply := some (replyFrame (reqLoad f) (reqSeq f) x.dec (d.port n).level x.ramp x.off x.mag) } :=
  d.port_updPort_same _ hn

/-! ### An invalid request -/

/-- The block in which an invalid request has been denied (R177). -/
def Dev.denyInvalid (d : Dev) (n : Nat) (f : StepFrame) : Dev :=
  (((d.updPort n fun p => { p with slot := none }).updLed fun l => { l with invalid := inc16 l.invalid }).occur 0x74 2).reply n f
    ⟨3, freeRamp f, 0, 0⟩

theorem Dev.request_invalid {d : Dev} {n : Nat} {f : StepFrame} (cmp : Bool) (g : Dev → Nat → StepFrame → Dev)
    (hn : n < d.adm.ports.length) (hbusy : (d.port n).busy ≤ d.refB) (hv : d.reqValid n f = false) :
    d.request n f cmp g = (d.denyInvalid n f).admitEnd := by
  have hfree : ¬ (d.updPort n fun p => { p with slot := none }).refB < ((d.updPort n fun p => { p with slot := none }).port n).busy := by
    rw [Dev.port_updPort_same _ _ hn]; exact not_lt.mpr hbusy
  simp only [Dev.request, hv, Bool.false_eq_true, if_false, if_neg hfree, Bool.not_false, if_true]
  rfl

theorem Dev.denyInvalid_onlyIn (d : Dev) (n : Nat) (f : StepFrame) : Dev.onlyIn [.adm, .stat] d (d.denyInvalid n f) :=
  Dev.onlyIn_via (Dev.reply_onlyIn _ _ _ _) (by decide) (Dev.onlyIn_via (Dev.occur_onlyIn _ _ _) (by decide)
    (Dev.onlyIn_via (Dev.updLed_onlyIn _ _) (by decide) (Dev.onlyIn_mono (Dev.updPort_onlyIn _ _ _) (by decide))))

theorem Dev.port_denyInvalid {d : Dev} {n : Nat} (f : StepFrame) (hn : n < d.adm.ports.length) :
    (d.denyInvalid n f).port n =
      { d.port n with slot := none, reply := some (replyFrame (reqLoad f) (reqSeq f) 3 (d.port n).level (freeRamp f) 0 0) } := by
  have htaken : (((d.updPort n fun p => { p with slot := none }).updLed fun l => { l with invalid := inc16 l.invalid }).occur
      0x74 2).port n =
      { d.port n with slot := none } := d.port_updPort_same _ hn
  rw [Dev.denyInvalid, Dev.port_reply _ _ ((updAt_length _ _ _).symm ▸ hn), htaken]

/-- Settles O33: whatever the kind, the tests before the decision deny the request. -/
theorem invalidRequests : Obligations.InvalidRequests := by
  intro s n f kind c hshape hkind hadm hbusy hbad
  have hn := Dev.port_lt hshape n
  have hv : s.d.reqValid n f = false := by
    rw [Bool.eq_false_iff, Ne, Dev.reqValid_iff]; exact hbad
  have hexec : exec c s = done (fun d => d.admitCmd n kind) s := by
    simp only [List.mem_cons, Prod.mk.injEq, List.not_mem_nil, or_false] at hkind
    obtain ⟨rfl, rfl⟩ | ⟨rfl, rfl⟩ | ⟨rfl, rfl⟩ | ⟨rfl, rfl⟩ | ⟨rfl, rfl⟩ := hkind <;> rfl
  have heq : s.d.admitCmd n kind = (s.d.denyInvalid n f).admitEnd := by
    obtain ⟨cmp, g, hreq⟩ := s.d.decideReq_request n f
    rw [Dev.admitCmd_eq hadm, hreq, Dev.request_invalid cmp g hn hbusy hv]
  have hport : (s.d.denyInvalid n f).admitEnd.port n = _ :=
    (Dev.port_congr (Dev.admitEnd_ports _) n).trans (Dev.port_denyInvalid f hn)
  refine completes_done hexec heq (Dev.onlyIn_via (Dev.admitEnd_onlyIn _) (by decide) (s.d.denyInvalid_onlyIn n f))
    ⟨⟨freeRamp f, ?_⟩, ?_, ?_, ?_, ?_, ?_, ?_⟩
  · rw [hport]
  · rw [hport]
  · rw [Dev.admitEnd_invalid]; rfl
  · rw [Dev.admitEnd_steps]; rfl
  · rw [Dev.admitEnd_loads]; rfl
  · rw [Dev.admitEnd_ports]
    exact sameBut_trans (sameBut_updAt _ _ _) (sameBut_updAt _ _ _)
  · exact Dev.recorded_congr (Dev.admitEnd_onlyIn _ .stat (by decide)) (Dev.recorded_occur_of rfl _ _)

end Sys2Proof.Machine
end

section
/-! PROOF. A valid, new request on its way to a decision, and what every decision leaves: the entry, the journal, the reply and the
step in the ledger (R163, R178, R180, R182, R190, R317). -/

namespace Sys2Proof.Machine

/-! ### The block in which a valid request is decided -/

/-- A valid request has been taken from its port, and its port and its entry have been seen (R190). -/
def Dev.asked (d : Dev) (n i : Nat) : Dev := (d.updPort n fun p => { p with slot := none }).seen n i

/-- The SEQ of a request is new for its entry (R178). -/
def Dev.newSeq (d : Dev) (f : StepFrame) : Prop :=
  (d.load (reqLoad f)).seqValid = false ∨
    (1 ≤ (reqSeq f + 256 - (d.load (reqLoad f)).lastSeq) % 256 ∧ (reqSeq f + 256 - (d.load (reqLoad f)).lastSeq) % 256 ≤ 128)

theorem Dev.asked_onlyIn (d : Dev) (n i : Nat) : Dev.onlyIn [.adm] d (d.asked n i) :=
  Dev.onlyIn_trans (Dev.updPort_onlyIn _ _ _) (Dev.seen_onlyIn _ _ _)

theorem Dev.asked_ports (d : Dev) (n i : Nat) :
    (d.asked n i).adm.ports = updAt d.adm.ports n fun p => { p with slot := none, quiet := 0, fresh := true, stale := false } :=
  updAt_updAt _ _ _ _

theorem Dev.port_asked {d : Dev} {n : Nat} (i : Nat) (hn : n < d.adm.ports.length) :
    (d.asked n i).port n = { d.port n with slot := none, quiet := 0, fresh := true, stale := false } := by
  rw [Dev.port, Dev.asked_ports]
  exact nth_updAt_same _ _ _ hn

theorem Dev.load_asked_same {d : Dev} {i : Nat} (n : Nat) (hi : i < d.adm.loads.length) :
    (d.asked n i).load i = { d.load i with stale := false } := Dev.load_updLoad_same _ _ hi

theorem Dev.load_asked_other (d : Dev) {i j : Nat} (n : Nat) (h : j ≠ i) : (d.asked n i).load j = d.load j :=
  Dev.load_updLoad_other _ _ h

/-- A valid, new request at a moment its transmitter is free is decided. -/
theorem Dev.request_valid {d : Dev} {n : Nat} {f : StepFrame} {cmp : Bool} (g : Dev → Nat → StepFrame → Dev)
    (hn : n < d.adm.ports.length) (hi : reqLoad f < d.adm.loads.length) (hbusy : (d.port n).busy ≤ d.refB)
    (hv : d.reqValid n f = true) (hseq : cmp = true → d.newSeq f) :
    d.request n f cmp g = (g (d.asked n (reqLoad f)) (reqLoad f) f).admitEnd := by
  have hfree : ¬ (d.asked n (reqLoad f)).refB < ((d.asked n (reqLoad f)).port n).busy := by
    rw [Dev.port_asked _ hn]; exact not_lt.mpr hbusy
  have hnew : (!cmp || !((d.asked n (reqLoad f)).load (reqLoad f)).seqValid ||
      (Nat.ble 1 ((reqSeq f + 256 - ((d.asked n (reqLoad f)).load (reqLoad f)).lastSeq) % 256) &&
        Nat.ble ((reqSeq f + 256 - ((d.asked n (reqLoad f)).load (reqLoad f)).lastSeq) % 256) 128)) = true := by
    rw [Dev.load_asked_same _ hi]
    cases cmp
    · rfl
    · simpa [Dev.newSeq] using hseq rfl
  simp only [Dev.request, hv, if_true, Bool.not_true, Bool.false_eq_true, if_false]
  exact congrArg Dev.admitEnd ((if_neg hfree).trans (if_pos hnew))

/-! ### From the request to the end of its decision -/

/-- Block `b` is on the way from `d` to the end of the decision on a request of load `i` at port `n`: of the entries and the ports
only theirs have changed, the port not in its level, and nothing that is stored yet. -/
structure Dev.Deciding (d b : Dev) (n i : Nat) : Prop where
  only : Dev.onlyIn [.adm, .stat, .sram, .rails, .units] d b
  loads : sameBut i d.adm.loads b.adm.loads
  ports : sameBut n d.adm.ports b.adm.ports
  level : (b.port n).level = (d.port n).level

theorem Dev.deciding_asked {d : Dev} {n : Nat} (i : Nat) (hn : n < d.adm.ports.length) : d.Deciding (d.asked n i) n i where
  only := Dev.onlyIn_mono (d.asked_onlyIn n i) (by decide)
  loads := sameBut_updAt _ _ _
  ports := by rw [Dev.asked_ports]; exact sameBut_updAt _ _ _
  level := by rw [Dev.port_asked i hn]

theorem Dev.Deciding.next {d b e : Dev} {n i : Nat} (h : d.Deciding b n i) (honly : Dev.onlyIn [.adm, .stat, .sram, .rails, .units] b e)
    (hports : e.adm.ports = b.adm.ports) (hloads : sameBut i b.adm.loads e.adm.loads) : d.Deciding e n i where
  only := Dev.onlyIn_trans h.only honly
  loads := sameBut_trans h.loads hloads
  ports := hports ▸ h.ports
  level := by rw [Dev.port_congr hports]; exact h.level

theorem Dev.Deciding.updLoad {d b : Dev} {n i : Nat} (h : d.Deciding b n i) (g : Load → Load) : d.Deciding (b.updLoad i g) n i :=
  h.next (Dev.onlyIn_mono (Dev.updLoad_onlyIn _ _ _) (by decide)) rfl (sameBut_updAt _ _ _)

theorem Dev.Deciding.updLed {d b : Dev} {n i : Nat} (h : d.Deciding b n i) (g : Ledger → Ledger) : d.Deciding (b.updLed g) n i :=
  h.next (Dev.onlyIn_mono (Dev.updLed_onlyIn _ _) (by decide)) rfl (sameBut_refl _ _)

theorem Dev.Deciding.occur {d b : Dev} {n i : Nat} (h : d.Deciding b n i) (pg bit : Nat) : d.Deciding (b.occur pg bit) n i :=
  h.next (Dev.onlyIn_mono (Dev.occur_onlyIn _ _ _) (by decide)) rfl (sameBut_refl _ _)

/-! ### A step that enters the ledger -/

/-- The step that a decision places (R182). -/
def Dev.stepRec (d : Dev) (i kind m : Nat) (neg : Bool) (c o : Nat) : StepRec :=
  let dP := if kind = 1 then d.deltaP (d.gtRail i) m else 0
  ⟨i, d.gtRail i, kind, m, neg, d.refB + 5 + o, c, dP, d.coverOf dP, false, false⟩

/-- An entry whose step of class `c` starts in tick `s` (R178, R181). -/
def Load.placed (x : Load) (kind s c : Nat) : Load :=
  { x with prevEnd := x.stepEnd, stepEnd := s + 2 ^ c, lastStart := some s, startTseq := s % 2 ^ 24, released := kind == 4 }

/-- The block with a step in the ledger, before a step up cancels the shedding of its rail. -/
def Dev.placed (d : Dev) (i kind m : Nat) (neg : Bool) (c o : Nat) : Dev :=
  let q := d.stepRec i kind m neg c o
  let add := Config.rdiv 14 (d.profile q (d.now + 2)) (256 * max 1 (d.fld 0x74 0x40 23 16 : Int))
  ((d.putFf (d.gtRail i) (nth d.led.ff (d.gtRail i) 0 + add)).updLed fun l => { l with steps := l.steps ++ [q] }).updLoad i
    fun x => x.placed kind (d.refB + 5 + o) c

theorem Dev.place_eq (d : Dev) (i kind m : Nat) (neg : Bool) (c o : Nat) :
    d.place i kind m neg c o =
      if kind = 1 then (d.placed i kind m neg c o).cancelShed (d.gtRail i) else d.placed i kind m neg c o := rfl

theorem Dev.place_adm (d : Dev) (i kind m : Nat) (neg : Bool) (c o : Nat) :
    (d.place i kind m neg c o).adm = (d.placed i kind m neg c o).adm := by
  rw [Dev.place_eq]
  split
  · exact Dev.cancelShed_onlyIn _ _ .adm (by decide)
  · rfl

theorem Dev.place_steps (d : Dev) (i kind m : Nat) (neg : Bool) (c o : Nat) :
    (d.place i kind m neg c o).adm.led.steps = d.adm.led.steps ++ [d.stepRec i kind m neg c o] := by rw [Dev.place_adm]; rfl

theorem Dev.place_ports (d : Dev) (i kind m : Nat) (neg : Bool) (c o : Nat) :
    (d.place i kind m neg c o).adm.ports = d.adm.ports := by rw [Dev.place_adm]; rfl

theorem Dev.place_loads (d : Dev) (i kind m : Nat) (neg : Bool) (c o : Nat) :
    (d.place i kind m neg c o).adm.loads = updAt d.adm.loads i fun x => x.placed kind (d.refB + 5 + o) c := by
  rw [Dev.place_adm]; rfl

theorem Dev.load_place {d : Dev} {i : Nat} (kind m : Nat) (neg : Bool) (c o : Nat) (hi : i < d.adm.loads.length) :
    (d.place i kind m neg c o).load i = (d.load i).placed kind (d.refB + 5 + o) c := by
  rw [Dev.load, Dev.place_loads]
  exact nth_updAt_same _ _ _ hi

/-- Only a step up cancels shedding. -/
theorem Dev.place_onlyIn_adm {d : Dev} {i kind : Nat} (m : Nat) (neg : Bool) (c o : Nat) (h : kind ≠ 1) :
    Dev.onlyIn [.adm, .sram] d (d.place i kind m neg c o) := by
  rw [Dev.place_eq, if_neg h]
  exact Dev.onlyIn_via (Dev.updLoad_onlyIn _ _ _) (by decide) (Dev.onlyIn_via (Dev.updLed_onlyIn _ _) (by decide)
    (Dev.onlyIn_mono (Dev.putFf_onlyIn _ _ _) (by decide)))

theorem Dev.Deciding.place {d b : Dev} {n i : Nat} (h : d.Deciding b n i) (kind m : Nat) (neg : Bool) (c o : Nat) :
    d.Deciding (b.place i kind m neg c o) n i :=
  h.next (Dev.onlyIn_mono (Dev.place_onlyIn _ _ _ _ _ _ _) (by decide)) (b.place_ports _ _ _ _ _ _)
    (by rw [Dev.place_loads]; exact sameBut_updAt _ _ _)

/-! ### The end of a decision -/

/-- An entry with the decision on a request stored (R178). -/
def Load.noted (x : Load) (f : StepFrame) (a : Decision) : Load :=
  { x with lastSeq := reqSeq f, seqValid := true, lastDec := a.dec, lastRamp := a.ramp, lastMag := a.mag, lastKind := reqKind f,
           earlier := false }

/-- The block with a decision counted and stored in its entry, before it is journaled. -/
def Dev.noted (d : Dev) (i : Nat) (f : StepFrame) (a : Decision) : Dev :=
  (d.updLed fun l => l.count a.dec).updLoad i fun x => x.noted f a

theorem Dev.record_eq (d : Dev) (i : Nat) (f : StepFrame) (a : Decision) :
    d.record i f a a.mag =
      if d.nvHeld then d.noted i f a else (d.noted i f a).journalGrant i (reqSeq f) (reqKind f) a.dec a.ramp a.mag a.off := rfl

theorem Dev.record_adm (d : Dev) (i : Nat) (f : StepFrame) (a : Decision) :
    (d.record i f a a.mag).adm = (d.noted i f a).adm := by
  rw [Dev.record_eq]
  split
  · rfl
  · exact Dev.journalGrant_onlyIn _ _ _ _ _ _ _ _ .adm (by decide)

theorem Dev.reply_congr {d e : Dev} (h : e.adm = d.adm) (n : Nat) (f : StepFrame) (a : Decision) :
    (e.reply n f a).adm = (d.reply n f a).adm := by
  simp only [Dev.reply, Dev.updPort, Dev.port, h]

theorem Dev.finish_adm (d : Dev) (n i : Nat) (f : StepFrame) (a : Decision) :
    (d.finish n i f a).adm = ((d.noted i f a).reply n f a).adm := Dev.reply_congr (d.record_adm i f a) n f a

theorem Ledger.count_steps (l : Ledger) (dec : Nat) : (l.count dec).steps = l.steps := by
  unfold Ledger.count; split <;> rfl

theorem Dev.finish_steps (d : Dev) (n i : Nat) (f : StepFrame) (a : Decision) :
    (d.finish n i f a).adm.led.steps = d.adm.led.steps := by
  rw [Dev.finish_adm]; exact Ledger.count_steps _ _

theorem Dev.finish_loads (d : Dev) (n i : Nat) (f : StepFrame) (a : Decision) :
    (d.finish n i f a).adm.loads = updAt d.adm.loads i fun x => x.noted f a := by rw [Dev.finish_adm]; rfl

theorem Dev.sameBut_finish (d : Dev) (n i : Nat) (f : StepFrame) (a : Decision) :
    sameBut n d.adm.ports (d.finish n i f a).adm.ports := by
  rw [Dev.finish_adm]; exact sameBut_updAt _ _ _

theorem Dev.port_finish {d : Dev} {n : Nat} (i : Nat) (f : StepFrame) (a : Decision) (hn : n < d.adm.ports.length) :
    (d.finish n i f a).port n =
      { d.port n with reply := some (replyFrame (reqLoad f) (reqSeq f) a.dec (d.port n).level a.ramp a.off a.mag) } := by
  rw [Dev.port, Dev.finish_adm]
  exact Dev.port_reply (d := d.noted i f a) f a hn

/-- The grant journal depends on the time, the twins' states, the journal and the MRAM alone (R317). -/
theorem Dev.journalGrant_congr {d e : Dev} (htime : e.time = d.time) (htwin : e.twin = d.twin) (hjrn : e.jrn = d.jrn)
    (hnv : e.nv = d.nv) (load seq kind dec ramp mag off : Nat) :
    (e.journalGrant load seq kind dec ramp mag off).jrn = (d.journalGrant load seq kind dec ramp mag off).jrn ∧
      (e.journalGrant load seq kind dec ramp mag off).nv = (d.journalGrant load seq kind dec ramp mag off).nv := by
  have he : e = { e with time := d.time, twin := d.twin, jrn := d.jrn, nv := d.nv } := by rw [← htime, ← htwin, ← hjrn, ← hnv]
  rw [he]
  exact ⟨rfl, rfl⟩

theorem Dev.nvHeld_congr {d e : Dev} (hsup : e.sup = d.sup) (htherm : e.therm = d.therm) : e.nvHeld = d.nvHeld := by
  rw [Dev.nvHeld, hsup, htherm]; rfl

/-- A decision is journaled but under VAUX_WARN or a write hold (R180, R347, R367). -/
theorem Dev.Deciding.journaled {d b : Dev} {n i : Nat} (h : d.Deciding b n i) (f : StepFrame) (a : Decision) :
    if d.nvHeld then (b.finish n i f a).jrn = d.jrn ∧ (b.finish n i f a).nv = d.nv
    else (b.finish n i f a).jrn = (d.journalGrant i (reqSeq f) (reqKind f) a.dec a.ramp a.mag a.off).jrn ∧
      (b.finish n i f a).nv = (d.journalGrant i (reqSeq f) (reqKind f) a.dec a.ramp a.mag a.off).nv := by
  have hfinish : b.finish n i f a = (if b.nvHeld then b.noted i f a else
      (b.noted i f a).journalGrant i (reqSeq f) (reqKind f) a.dec a.ramp a.mag a.off).reply n f a := rfl
  rw [hfinish, Dev.nvHeld_congr (h.only .sup (by decide)) (h.only .therm (by decide))]
  by_cases hheld : d.nvHeld = true
  · rw [if_pos hheld, if_pos hheld]
    exact ⟨h.only .jrn (by decide), h.only .nv (by decide)⟩
  · rw [if_neg hheld, if_neg hheld]
    exact Dev.journalGrant_congr (e := b.noted i f a) (h.only .time (by decide)) (h.only .twin (by decide)) (h.only .jrn (by decide))
      (h.only .nv (by decide)) _ _ _ _ _ _ _

/-- What a decision on request `f` of load `i` at port `n` leaves: `d` is the block before the request, `b` the block in which the
decision is stored, `e` the block after it. -/
structure Dev.Decided (d b e : Dev) (n i : Nat) (f : StepFrame) (a : Decision) : Prop where
  loads : ∀ j, j ≠ i → e.load j = d.load j
  ports : sameBut n d.adm.ports e.adm.ports
  stored : d.decided e i f a.dec a.ramp a.off a.mag
  reply : (e.port n).reply = some (replyFrame i (reqSeq f) a.dec (d.port n).level a.ramp a.off a.mag)
  load : e.load i = (b.load i).noted f a
  steps : e.adm.led.steps = b.adm.led.steps
  only : Dev.onlyIn [.adm, .jrn, .nv] b e

theorem nth_of_sameBut {α : Type} {i j : Nat} {l m : List α} (h : sameBut i l m) (hj : j ≠ i) (d : α) : nth m j d = nth l j d := by
  rw [nth, nth, List.getD_eq_getElem?_getD, List.getD_eq_getElem?_getD, h.2 j hj]

theorem Dev.Deciding.decided {d b : Dev} {n : Nat} {f : StepFrame} (h : d.Deciding b n (reqLoad f)) (hn : n < d.adm.ports.length)
    (hi : reqLoad f < d.adm.loads.length) (a : Decision) :
    d.Decided b (b.finish n (reqLoad f) f a).admitEnd n (reqLoad f) f a := by
  have hloads : (b.finish n (reqLoad f) f a).admitEnd.adm.loads = updAt b.adm.loads (reqLoad f) fun x => x.noted f a := by
    rw [Dev.admitEnd_loads, Dev.finish_loads]
  have hload : (b.finish n (reqLoad f) f a).admitEnd.load (reqLoad f) = (b.load (reqLoad f)).noted f a := by
    rw [Dev.load, hloads]
    exact nth_updAt_same _ _ _ (h.loads.1 ▸ hi)
  have hport : (b.finish n (reqLoad f) f a).admitEnd.port n = _ :=
    (Dev.port_congr (Dev.admitEnd_ports _) n).trans (Dev.port_finish _ f a (h.ports.1 ▸ hn))
  have honly := Dev.admitEnd_onlyIn (b.finish n (reqLoad f) f a)
  refine ⟨fun j hj => ?_, ?_, ?_, ?_, hload, ?_, ?_⟩
  · refine nth_of_sameBut (sameBut_trans h.loads ?_) hj _
    rw [hloads]; exact sameBut_updAt _ _ _
  · rw [Dev.admitEnd_ports]
    exact sameBut_trans h.ports (b.sameBut_finish n _ f a)
  · have hjournal := h.journaled f a
    rw [Dev.decided, hload, honly .jrn (by decide), honly .nv (by decide)]
    exact ⟨rfl, rfl, rfl, rfl, rfl, rfl, rfl, hjournal⟩
  · rw [hport, h.level]
  · rw [Dev.admitEnd_steps, Dev.finish_steps]
  · exact Dev.onlyIn_via honly (by decide) (Dev.finish_onlyIn _ _ _ _ _)

/-- A command that takes a valid, new request and stores decision `a` on it in block `b`. -/
theorem completes_decision {s : State} {n : Fin 16} {kind : Nat} {f : StepFrame} {c : Instr} {cmp : Bool} {l : List Part} {b : Dev}
    {a : Decision} {g : Dev → Nat → StepFrame → Dev} (hshape : s.d.shape = true) (hadm : s.d.admitted n kind = some f)
    (hbusy : (s.d.port n).busy ≤ s.d.refB) (hv : s.d.reqValid n f = true) (hseq : cmp = true → s.d.newSeq f)
    (hc : exec c s = done (fun d => d.admitCmd n kind) s) (hreq : s.d.decideReq n f = s.d.request n f cmp g)
    (hg : g (s.d.asked n (reqLoad f)) (reqLoad f) f = b.finish n (reqLoad f) f a) (hb : s.d.Deciding b n (reqLoad f))
    (hl : Dev.onlyIn l s.d b) (hsub : [.adm, .jrn, .nv] ⊆ l) :
    Completes c s l fun e => s.d.Decided b e n (reqLoad f) f a := by
  have hn := Dev.port_lt hshape n
  have hi := Dev.load_lt hshape (reqLoad_lt f)
  have hdone := hb.decided hn hi a
  refine completes_done hc ?_ (Dev.onlyIn_via hdone.only hsub hl) hdone
  rw [Dev.admitCmd_eq hadm, hreq, Dev.request_valid g hn hi hbusy hv hseq, hg]

end Sys2Proof.Machine
end

section
/-! PROOF. The decision on a step up (R181, R182, R183, R185): its answer, the search for its offset, and the step it places. -/

namespace Sys2Proof.Machine

/-! ### The search for an offset and for a magnitude -/

/-- An offset from `o0` to OFFSET_MAX for which `p` holds, and none earlier. -/
theorem Dev.earliest_some {d : Dev} {o0 o : Nat} {p : Nat → Bool} (h : d.earliest o0 p = some o) :
    o0 ≤ o ∧ o ≤ d.offsetMax ∧ p o = true ∧ ∀ k, o0 ≤ k → k ≤ d.offsetMax → p k = true → o ≤ k := by
  rw [Dev.earliest, upto, List.find?_filter, List.find?_range_eq_some] at h
  obtain ⟨hp, hmem, hleast⟩ := h
  simp only [Bool.decide_and, Bool.decide_eq_true, Bool.and_eq_true, decide_eq_true_eq, List.mem_range] at hp hmem
  refine ⟨hp.1, by omega, hp.2, fun k hlow _ hk => not_lt.mp fun hlt => ?_⟩
  have hnot := hleast k hlt
  simp [hlow, hk] at hnot

theorem Dev.earliest_none {d : Dev} {o0 : Nat} {p : Nat → Bool} (h : d.earliest o0 p = none) {k : Nat} (hlow : o0 ≤ k)
    (hhigh : k ≤ d.offsetMax) : p k = false := by
  rw [Dev.earliest, upto, List.find?_filter, List.find?_range_eq_none] at h
  have hnot := h k (by omega)
  simpa [hlow] using hnot

theorem Dev.earliest_zero {d : Dev} {p : Nat → Bool} (h : p 0 = true) : d.earliest 0 p = some 0 := by
  rw [Dev.earliest, upto, List.find?_filter, List.find?_range_eq_some]
  simp [h]

theorem largest_le (p : Nat → Bool) (m : Nat) : largest p m ≤ m := by
  induction m with
  | zero => exact le_rfl
  | succ m ih => unfold largest; split <;> omega

theorem largest_fits {p : Nat → Bool} {m : Nat} (h : 0 < largest p m) : p (largest p m) = true := by
  induction m with
  | zero => exact absurd h (by simp [largest])
  | succ m ih =>
    unfold largest at h ⊢
    split
    · assumption
    · exact ih (by simpa [*] using h)

/-! ### The answer to a step up -/

/-- A denial, or a reply of the cap level (R181). -/
def denial (f : StepFrame) (dec : Nat) : Decision := ⟨dec, reqRamp f, 0, 0⟩

/-- first(e) of a step up, not before the end of a freeze (R181, R194). -/
def Dev.upFrom (d : Dev) (i : Nat) : Nat := max (d.firstOff i) ((if d.led.freeze then d.led.freezeEnd else 0) - d.refB - 5)

/-- The ramp class of a step of magnitude `m` (R181). -/
def Dev.stepClass (d : Dev) (i : Nat) (f : StepFrame) (m : Nat) : Nat := d.slowest m 8 (max (reqRamp f) (d.gtMinRamp i))

/-- The answer to a step up for which the rooms leave `m` (R181). -/
def Dev.upChoice (d : Dev) (i : Nat) (f : StepFrame) (m : Nat) : Decision :=
  if m < d.minGrant then denial f 3
  else
    match d.earliest (d.upFrom i) fun o => d.stepFits (d.gtRail i) (d.stepClass i f m) o m with
    | some o => ⟨if m = reqMag f then (if o = 0 then 0 else 1) else 2, d.stepClass i f m, o, m⟩
    | none =>
      if d.offsetMax < d.upFrom i then denial f 3
      else
        let m' := largest (d.stepFits (d.gtRail i) (d.stepClass i f m) (d.upFrom i)) m
        if m' < d.minGrant then denial f 3 else ⟨2, d.stepClass i f m, d.upFrom i, m'⟩

/-- The answer to a step up (R181). -/
def Dev.upAnswer (d : Dev) (n i : Nat) (f : StepFrame) : Decision :=
  if 2 ≤ (d.port n).level then denial f 4
  else if d.upBlocked i then denial f 3
  else d.upChoice i f (d.roomOf n i f (d.load i).resv).toNat

/-- A step up is granted with magnitude and offset `a`: its share of the reservation goes, and it enters the ledger (R182, R183). -/
def Dev.grantUp (d : Dev) (i : Nat) (a : Decision) : Dev :=
  (d.updLoad i fun e => { e with resv := e.resv - a.mag }).place i 1 a.mag false a.ramp a.off

/-- The block in which the answer to a step up is stored. -/
def Dev.upBase (d : Dev) (i : Nat) (a : Decision) : Dev := if a.dec = 3 ∨ a.dec = 4 then d.noStep i else d.grantUp i a

theorem Dev.upBase_of_granted {a : Decision} (d : Dev) (i : Nat) (h3 : a.dec ≠ 3) (h4 : a.dec ≠ 4) : d.upBase i a = d.grantUp i a :=
  if_neg (not_or.mpr ⟨h3, h4⟩)

theorem Dev.decideUp_eq (d : Dev) (n i : Nat) (f : StepFrame) :
    d.decideUp n i f = (d.upBase i (d.upAnswer n i f)).finish n i f (d.upAnswer n i f) := by
  unfold Dev.decideUp Dev.upAnswer
  dsimp only
  by_cases hlevel : 2 ≤ (d.port n).level
  · simp only [if_pos hlevel]; rfl
  by_cases hblocked : d.upBlocked i = true
  · simp only [if_neg hlevel, if_pos hblocked]; rfl
  simp only [if_neg hlevel, if_neg hblocked]
  generalize (d.roomOf n i f (d.load i).resv).toNat = m
  unfold Dev.upChoice
  by_cases hmin : m < d.minGrant
  · simp only [if_pos hmin]; rfl
  simp only [if_neg hmin, Dev.upFrom, Dev.stepClass]
  generalize d.earliest _ _ = search
  cases search with
  | some o =>
    dsimp only
    rw [Dev.upBase_of_granted]
    · rfl
    · split_ifs <;> simp
    · split_ifs <;> simp
  | none =>
    dsimp only
    split_ifs <;> rfl

/-- What a grant, deferment or reduction keeps to, `m` being what the rooms leave (R181). -/
structure Dev.UpFits (d : Dev) (i : Nat) (f : StepFrame) (m : Nat) (a : Decision) : Prop where
  code : a.dec = 0 ∨ a.dec = 1 ∨ a.dec = 2
  least : d.minGrant ≤ a.mag
  most : a.mag ≤ m
  fits : 0 < a.mag → d.stepFits (d.gtRail i) a.ramp a.off a.mag = true
  granted : a.dec = 0 → a.mag = reqMag f ∧ a.off = 0
  deferred : a.dec = 1 → a.mag = reqMag f ∧ 0 < a.off

theorem Dev.upChoice_cases (d : Dev) (i : Nat) (f : StepFrame) (m : Nat) :
    d.upChoice i f m = denial f 3 ∨ d.UpFits i f m (d.upChoice i f m) := by
  unfold Dev.upChoice
  by_cases hmin : m < d.minGrant
  · exact .inl (if_pos hmin)
  rw [if_neg hmin]
  split
  next o hoffset =>
    obtain ⟨-, -, hfits, -⟩ := Dev.earliest_some hoffset
    refine .inr ⟨?_, not_lt.mp hmin, le_rfl, fun _ => hfits, fun hdec => ?_, fun hdec => ?_⟩
    · split_ifs <;> simp
    · dsimp only at hdec
      split_ifs at hdec with hfull hnow
      exact ⟨hfull, hnow⟩
    · dsimp only at hdec
      split_ifs at hdec with hfull hnow
      · exact ⟨hfull, Nat.pos_of_ne_zero hnow⟩
      · exact absurd hdec (by decide)
  next hnone =>
    dsimp only
    split_ifs with hlate hleast
    · exact .inl rfl
    · exact .inl rfl
    · exact .inr ⟨.inr (.inr rfl), not_lt.mp hleast, largest_le _ _, fun hpos => largest_fits hpos, nofun, nofun⟩

/-- A step up whose whole magnitude has room and fits at once is granted at once. -/
theorem Dev.upChoice_atOnce {d : Dev} {i : Nat} {f : StepFrame} (hmin : d.minGrant ≤ reqMag f) (hfirst : d.firstOff i = 0)
    (hfreeze : d.adm.led.freeze = false) (hfits : d.stepFits (d.gtRail i) (d.stepClass i f (reqMag f)) 0 (reqMag f) = true) :
    d.upChoice i f (reqMag f) = ⟨0, d.stepClass i f (reqMag f), 0, reqMag f⟩ := by
  have hfrom : d.upFrom i = 0 := by simp [Dev.upFrom, Dev.led, hfirst, hfreeze]
  have hoffset := Dev.earliest_zero (d := d) (p := fun o => d.stepFits (d.gtRail i) (d.stepClass i f (reqMag f)) o (reqMag f)) hfits
  rw [Dev.upChoice, if_neg (not_lt.mpr hmin), hfrom, hoffset]
  simp

theorem Dev.upAnswer_capped {d : Dev} {n : Nat} (i : Nat) (f : StepFrame) (h : 2 ≤ (d.port n).level) :
    d.upAnswer n i f = denial f 4 := if_pos h

theorem Dev.upAnswer_blocked {d : Dev} {n i : Nat} (f : StepFrame) (h : ¬ 2 ≤ (d.port n).level) (hb : d.upBlocked i = true) :
    d.upAnswer n i f = denial f 3 := (if_neg h).trans (if_pos hb)

theorem Dev.upAnswer_open {d : Dev} {n i : Nat} (f : StepFrame) (h : ¬ 2 ≤ (d.port n).level) (hb : ¬ d.upBlocked i = true) :
    d.upAnswer n i f = d.upChoice i f (d.roomOf n i f (d.load i).resv).toNat := (if_neg h).trans (if_neg hb)

/-- The answer to a step up is a denial, or one that fits. -/
theorem Dev.upAnswer_cases (d : Dev) (n i : Nat) (f : StepFrame) :
    (∃ dec, (dec = 3 ∨ dec = 4) ∧ d.upAnswer n i f = denial f dec) ∨
      d.UpFits i f (d.roomOf n i f (d.load i).resv).toNat (d.upAnswer n i f) := by
  by_cases hlevel : 2 ≤ (d.port n).level
  · exact .inl ⟨4, .inr rfl, Dev.upAnswer_capped i f hlevel⟩
  by_cases hblocked : d.upBlocked i = true
  · exact .inl ⟨3, .inl rfl, Dev.upAnswer_blocked f hlevel hblocked⟩
  rw [Dev.upAnswer_open f hlevel hblocked]
  exact (d.upChoice_cases i f _).imp_left fun h => ⟨3, .inl rfl, h⟩

/-! ### What taking a request leaves of its decision -/

@[simp] theorem Dev.led_asked (d : Dev) (n i : Nat) : (d.asked n i).led = d.led := rfl
@[simp] theorem Dev.rail_asked (d : Dev) (n i r : Nat) : (d.asked n i).rail r = d.rail r := rfl
@[simp] theorem Dev.fld_asked (d : Dev) (n i pg off hi lo : Nat) : (d.asked n i).fld pg off hi lo = d.fld pg off hi lo := rfl
@[simp] theorem Dev.gtRail_asked (d : Dev) (n i j : Nat) : (d.asked n i).gtRail j = d.gtRail j := rfl
@[simp] theorem Dev.gtMaxStep_asked (d : Dev) (n i j : Nat) : (d.asked n i).gtMaxStep j = d.gtMaxStep j := rfl
@[simp] theorem Dev.gtMinRamp_asked (d : Dev) (n i j : Nat) : (d.asked n i).gtMinRamp j = d.gtMinRamp j := rfl
@[simp] theorem Dev.refB_asked (d : Dev) (n i : Nat) : (d.asked n i).refB = d.refB := rfl
@[simp] theorem Dev.offsetMax_asked (d : Dev) (n i : Nat) : (d.asked n i).offsetMax = d.offsetMax := rfl
@[simp] theorem Dev.minGrant_asked (d : Dev) (n i : Nat) : (d.asked n i).minGrant = d.minGrant := rfl
@[simp] theorem Dev.upBlocked_asked (d : Dev) (n i j : Nat) : (d.asked n i).upBlocked j = d.upBlocked j := rfl
@[simp] theorem Dev.iMax_asked (d : Dev) (n i r : Nat) : (d.asked n i).iMax r = d.iMax r := rfl
@[simp] theorem Dev.ledgerM_asked (d : Dev) (n i r : Nat) : (d.asked n i).ledgerM r = d.ledgerM r := rfl
@[simp] theorem Dev.pSh_asked (d : Dev) (n i : Nat) : (d.asked n i).pSh = d.pSh := rfl
@[simp] theorem Dev.pRm_asked (d : Dev) (n i : Nat) : (d.asked n i).pRm = d.pRm := rfl
@[simp] theorem Dev.earliest_asked (d : Dev) (n i : Nat) : (d.asked n i).earliest = d.earliest := rfl
@[simp] theorem Dev.slewTick_asked (d : Dev) (n i : Nat) : (d.asked n i).slewTick = d.slewTick := rfl
@[simp] theorem Dev.slewFits_asked (d : Dev) (n i : Nat) : (d.asked n i).slewFits = d.slewFits := rfl
@[simp] theorem Dev.deltaP_asked (d : Dev) (n i : Nat) : (d.asked n i).deltaP = d.deltaP := rfl

@[simp] theorem Dev.slowest_asked (d : Dev) (n i m fuel c : Nat) : (d.asked n i).slowest m fuel c = d.slowest m fuel c := by
  induction fuel generalizing c with
  | zero => rfl
  | succ fuel ih => rw [Dev.slowest, Dev.slowest, ih, Dev.slewTick_asked]

theorem Dev.coverOf_asked (d : Dev) (n i : Nat) : (d.asked n i).coverOf = d.coverOf := rfl

theorem Dev.energyNum_asked (d : Dev) (n i : Nat) : (d.asked n i).energyNum = d.energyNum := rfl

theorem Dev.energyDen_asked (d : Dev) (n i : Nat) : (d.asked n i).energyDen = d.energyDen := rfl

theorem Dev.pOv_asked (d : Dev) (n i : Nat) : (d.asked n i).pOv = d.pOv := rfl

@[simp] theorem Dev.energyFits_asked (d : Dev) (n i : Nat) : (d.asked n i).energyFits = d.energyFits := by
  funext r s m
  rw [Dev.energyFits, Dev.energyNum_asked, Dev.energyDen_asked, Dev.pOv_asked, Dev.coverOf_asked, Dev.led_asked, Dev.deltaP_asked]
  rfl

@[simp] theorem Dev.stepFits_asked (d : Dev) (n i : Nat) : (d.asked n i).stepFits = d.stepFits := by
  funext r c o m
  simp only [Dev.stepFits, Dev.slewFits_asked, Dev.energyFits_asked, Dev.refB_asked]

/-- The reservations on a rail depend on the grant table and on what each entry has reserved (R183). -/
theorem Dev.ledgerV_congr {d e : Dev} (hregs : e.regs = d.regs) (h : ∀ j, (e.load j).resv = (d.load j).resv) (r : Nat) :
    e.ledgerV r = d.ledgerV r := by
  simp only [Dev.ledgerV, Dev.gtRail, Dev.fld_congr hregs, h]
  rfl

theorem Dev.resv_asked {d : Dev} {i : Nat} (n : Nat) (hi : i < d.adm.loads.length) (j : Nat) :
    ((d.asked n i).load j).resv = (d.load j).resv := by
  by_cases h : j = i
  · rw [h, Dev.load_asked_same n hi]
  · rw [Dev.load_asked_other d n h]

theorem Dev.ledgerV_asked {d : Dev} {i : Nat} (n : Nat) (hi : i < d.adm.loads.length) (r : Nat) :
    (d.asked n i).ledgerV r = d.ledgerV r :=
  Dev.ledgerV_congr (d := d) (e := d.asked n i) rfl (Dev.resv_asked n hi) r

theorem Dev.roomOf_asked {d : Dev} {n i : Nat} (f : StepFrame) (own : Nat) (hn : n < d.adm.ports.length)
    (hi : i < d.adm.loads.length) : (d.asked n i).roomOf n i f own = d.roomOf n i f own := by
  simp only [Dev.roomOf, Dev.port_asked i hn, Dev.ledgerV_asked n hi, Dev.led_asked, Dev.rail_asked, Dev.fld_asked, Dev.gtRail_asked,
    Dev.gtMaxStep_asked, Dev.iMax_asked, Dev.ledgerM_asked, Dev.pSh_asked, Dev.pRm_asked]

theorem Dev.firstOff_asked {d : Dev} {i : Nat} (n : Nat) (hi : i < d.adm.loads.length) : (d.asked n i).firstOff i = d.firstOff i := by
  rw [Dev.firstOff, Dev.load_asked_same n hi]; rfl

theorem Dev.upChoice_asked {d : Dev} {i : Nat} (n : Nat) (f : StepFrame) (m : Nat) (hi : i < d.adm.loads.length) :
    (d.asked n i).upChoice i f m = d.upChoice i f m := by
  have hfrom : (d.asked n i).upFrom i = d.upFrom i := by rw [Dev.upFrom, Dev.firstOff_asked n hi]; rfl
  have hclass : (d.asked n i).stepClass i f m = d.stepClass i f m := Dev.slowest_asked _ _ _ _ _ _
  rw [Dev.upChoice, hfrom, hclass, Dev.stepFits_asked, Dev.gtRail_asked, Dev.minGrant_asked, Dev.earliest_asked, Dev.offsetMax_asked]
  rfl

theorem Dev.upAnswer_asked {d : Dev} {n i : Nat} (f : StepFrame) (hn : n < d.adm.ports.length) (hi : i < d.adm.loads.length) :
    (d.asked n i).upAnswer n i f = d.upAnswer n i f := by
  simp only [Dev.upAnswer, Dev.upChoice_asked n f _ hi, Dev.roomOf_asked f _ hn hi, Dev.port_asked i hn, Dev.resv_asked n hi,
    Dev.upBlocked_asked]

/-! ### The command -/

theorem Dev.deciding_upBase {d : Dev} {n : Nat} (i : Nat) (a : Decision) (hn : n < d.adm.ports.length) :
    d.Deciding ((d.asked n i).upBase i a) n i := by
  unfold Dev.upBase
  split
  · exact (Dev.deciding_asked i hn).updLoad _
  · exact ((Dev.deciding_asked i hn).updLoad _).place _ _ _ _ _

theorem Dev.upBase_onlyIn (d : Dev) (i : Nat) (a : Decision) : Dev.onlyIn [.adm, .sram, .units, .rails] d (d.upBase i a) := by
  unfold Dev.upBase
  refine Dev.onlyIn_ite (Dev.onlyIn_mono (Dev.noStep_onlyIn _ _) (by decide)) ?_
  exact Dev.onlyIn_via (Dev.place_onlyIn _ _ _ _ _ _ _) (by decide) (Dev.onlyIn_mono (Dev.updLoad_onlyIn _ _ _) (by decide))

theorem Dev.grantUp_steps (d : Dev) (i : Nat) (a : Decision) :
    (d.grantUp i a).adm.led.steps = d.adm.led.steps ++ [d.stepRec i 1 a.mag false a.ramp a.off] := Dev.place_steps _ _ _ _ _ _ _

theorem Dev.load_grantUp {d : Dev} {i : Nat} (a : Decision) (hi : i < d.adm.loads.length) :
    (d.grantUp i a).load i = Load.placed { d.load i with resv := (d.load i).resv - a.mag } 1 (d.refB + 5 + a.off) a.ramp := by
  rw [Dev.grantUp, Dev.load_place _ _ _ _ _ (by rw [Dev.updLoad_adm, updAt_length]; exact hi), d.load_updLoad_same _ hi]
  rfl

theorem Dev.decideReq_up {d : Dev} {n : Nat} {f : StepFrame} (h : reqKind f = 1) :
    d.decideReq n f = d.request n f true fun d i f => d.decideUp n i f := by
  simp [Dev.decideReq, h]

/-- STEP_UP on a valid, new request. -/
theorem completes_stepUp {s : State} {n : Fin 16} {f : StepFrame} (hshape : s.d.shape = true) (hadm : s.d.admitted n 1 = some f)
    (hbusy : (s.d.port n).busy ≤ s.d.refB) (hv : s.d.reqValid n f = true) (hseq : s.d.newSeq f) :
    Completes (.stepUp n) s [.jrn, .adm, .sram, .nv, .units, .rails] fun e =>
      s.d.Decided ((s.d.asked n (reqLoad f)).upBase (reqLoad f) (s.d.upAnswer n (reqLoad f) f)) e n (reqLoad f) f
        (s.d.upAnswer n (reqLoad f) f) := by
  have hn := Dev.port_lt hshape n
  refine completes_decision hshape hadm hbusy hv (fun _ => hseq) rfl (Dev.decideReq_up (Dev.kind_of_valid hadm hv)) ?_
    (Dev.deciding_upBase _ _ hn) ?_ (by decide)
  · rw [Dev.decideUp_eq, Dev.upAnswer_asked f hn (Dev.load_lt hshape (reqLoad_lt f))]
  · exact Dev.onlyIn_via (Dev.upBase_onlyIn _ _ _) (by decide) (Dev.onlyIn_mono (s.d.asked_onlyIn n _) (by decide))

end Sys2Proof.Machine
end

section
/-! PROOF. What a step up leaves, and the decisions on step downs and announces (R180 to R183). -/

namespace Sys2Proof.Machine

/-! ### What a step up leaves -/

theorem Dev.asked_loads_length (d : Dev) (n i : Nat) : (d.asked n i).adm.loads.length = d.adm.loads.length := updAt_length _ _ _

theorem Dev.Decided.up_denied {d e : Dev} {n i : Nat} {f : StepFrame} {a : Decision}
    (h : d.Decided ((d.asked n i).upBase i a) e n i f a) (hdec : a.dec = 3 ∨ a.dec = 4) :
    e.adm.led.steps = d.adm.led.steps ∧ e.units = d.units ∧ e.rails = d.rails ∧ e.sram = d.sram := by
  have hbase : (d.asked n i).upBase i a = (d.asked n i).noStep i := if_pos hdec
  have hnone : Dev.onlyIn [.adm] d ((d.asked n i).noStep i) := Dev.onlyIn_trans (d.asked_onlyIn n i) (Dev.noStep_onlyIn _ _)
  rw [hbase] at h
  exact ⟨h.steps.trans rfl, (h.only .units (by decide)).trans (hnone .units (by decide)),
    (h.only .rails (by decide)).trans (hnone .rails (by decide)), (h.only .sram (by decide)).trans (hnone .sram (by decide))⟩

theorem Dev.Decided.up_granted {d e : Dev} {n i : Nat} {f : StepFrame} {a : Decision}
    (h : d.Decided ((d.asked n i).upBase i a) e n i f a) (h3 : a.dec ≠ 3) (h4 : a.dec ≠ 4) (hi : i < d.adm.loads.length) :
    (e.load i).stepEnd = d.refB + 5 + a.off + 2 ^ a.ramp ∧ (e.load i).resv = (d.load i).resv - a.mag ∧
      ∃ q, e.adm.led.steps = d.adm.led.steps ++ [q] ∧ q.load = i ∧ q.kind = 1 ∧ q.mag = a.mag ∧ q.start = d.refB + 5 + a.off ∧
        q.cls = a.ramp ∧ q.dP = d.deltaP (d.gtRail i) a.mag := by
  rw [Dev.upBase_of_granted _ _ h3 h4] at h
  have hload := h.load
  rw [Dev.load_grantUp a (by rw [Dev.asked_loads_length]; exact hi), Dev.load_asked_same n hi] at hload
  rw [hload]
  exact ⟨rfl, rfl, (d.asked n i).stepRec i 1 a.mag false a.ramp a.off, h.steps.trans (Dev.grantUp_steps _ _ _), rfl, rfl, rfl, rfl,
    rfl, rfl⟩

/-! ### Step downs -/

/-- The earliest offset that the slew limit leaves a step down (R181). -/
def Dev.downSearch (d : Dev) (i : Nat) (f : StepFrame) : Option Nat :=
  d.earliest (d.firstOff i) fun o => d.slewFits (d.refB + 5 + o) (d.stepClass i f (reqMag f)) (reqMag f)

/-- The answer to a step down (R181). -/
def Dev.downAnswer (d : Dev) (i : Nat) (f : StepFrame) : Decision :=
  if d.offsetMax < d.firstOff i then denial f 3
  else
    let o := (d.downSearch i f).getD (d.firstOff i)
    ⟨if o = 0 then 0 else 1, d.stepClass i f (reqMag f), o, reqMag f⟩

/-- The block in which the answer to a step down is stored; a step placed over the slew limit is recorded (R198). -/
def Dev.downBase (d : Dev) (i : Nat) (f : StepFrame) : Dev :=
  if d.offsetMax < d.firstOff i then d.noStep i
  else
    (if d.downSearch i f = none then d.occur 0x75 3 else d).place i 2 (reqMag f) true (d.stepClass i f (reqMag f))
      ((d.downSearch i f).getD (d.firstOff i))

theorem Dev.decideDown_eq (d : Dev) (n i : Nat) (f : StepFrame) :
    d.decideDown n i f = (d.downBase i f).finish n i f (d.downAnswer i f) := by
  unfold Dev.decideDown Dev.downBase Dev.downAnswer
  by_cases hlate : d.offsetMax < d.firstOff i
  · simp only [if_pos hlate]; rfl
  simp only [if_neg hlate, Dev.downSearch, Dev.stepClass]
  split
  next o hoffset => simp [hoffset]
  next hnone => simp [hnone]

theorem Dev.downSearch_asked {d : Dev} {i : Nat} (n : Nat) (f : StepFrame) (hi : i < d.adm.loads.length) :
    (d.asked n i).downSearch i f = d.downSearch i f := by
  have hclass : (d.asked n i).stepClass i f (reqMag f) = d.stepClass i f (reqMag f) := Dev.slowest_asked _ _ _ _ _ _
  rw [Dev.downSearch, hclass, Dev.firstOff_asked n hi, Dev.slewFits_asked, Dev.refB_asked, Dev.earliest_asked]
  rfl

theorem Dev.downAnswer_asked {d : Dev} {i : Nat} (n : Nat) (f : StepFrame) (hi : i < d.adm.loads.length) :
    (d.asked n i).downAnswer i f = d.downAnswer i f := by
  have hclass : (d.asked n i).stepClass i f (reqMag f) = d.stepClass i f (reqMag f) := Dev.slowest_asked _ _ _ _ _ _
  rw [Dev.downAnswer, hclass, Dev.firstOff_asked n hi, Dev.downSearch_asked n f hi, Dev.offsetMax_asked]
  rfl

theorem Dev.decideReq_down {d : Dev} {n : Nat} {f : StepFrame} (h : reqKind f = 2) :
    d.decideReq n f = d.request n f true fun d i f => d.decideDown n i f := by
  simp [Dev.decideReq, h]

theorem Dev.deciding_downBase {d : Dev} {n : Nat} (i : Nat) (f : StepFrame) (hn : n < d.adm.ports.length) :
    d.Deciding ((d.asked n i).downBase i f) n i := by
  have hasked := Dev.deciding_asked i hn
  unfold Dev.downBase
  split
  · exact hasked.updLoad _
  · refine Dev.Deciding.place ?_ _ _ _ _ _
    split
    · exact hasked.occur _ _
    · exact hasked

theorem Dev.downBase_onlyIn (d : Dev) (i : Nat) (f : StepFrame) : Dev.onlyIn [.adm, .stat, .sram] d (d.downBase i f) := by
  unfold Dev.downBase
  refine Dev.onlyIn_ite (Dev.onlyIn_mono (Dev.noStep_onlyIn _ _) (by decide)) ?_
  exact Dev.onlyIn_via (Dev.place_onlyIn_adm _ _ _ _ (by decide)) (by decide)
    (Dev.onlyIn_ite (Dev.onlyIn_mono (Dev.occur_onlyIn _ _ _) (by decide)) (Dev.onlyIn_refl _ _))

/-- STEP_DOWN on a valid, new request. -/
theorem completes_stepDown {s : State} {n : Fin 16} {f : StepFrame} (hshape : s.d.shape = true) (hadm : s.d.admitted n 2 = some f)
    (hbusy : (s.d.port n).busy ≤ s.d.refB) (hv : s.d.reqValid n f = true) (hseq : s.d.newSeq f) :
    Completes (.stepDown n) s [.jrn, .adm, .stat, .sram, .nv] fun e =>
      s.d.Decided ((s.d.asked n (reqLoad f)).downBase (reqLoad f) f) e n (reqLoad f) f (s.d.downAnswer (reqLoad f) f) := by
  refine completes_decision hshape hadm hbusy hv (fun _ => hseq) rfl (Dev.decideReq_down (Dev.kind_of_valid hadm hv)) ?_
    (Dev.deciding_downBase _ _ (Dev.port_lt hshape n)) ?_ (by decide)
  · rw [Dev.decideDown_eq, Dev.downAnswer_asked n f (Dev.load_lt hshape (reqLoad_lt f))]
  · exact Dev.onlyIn_via (Dev.downBase_onlyIn _ _ _) (by decide) (Dev.onlyIn_mono (s.d.asked_onlyIn n _) (by decide))

/-- The offset of a step down that is placed: within OFFSET_MAX, and the earliest that the slew limit leaves, where there is one. -/
theorem Dev.downOffset {d : Dev} {i : Nat} {f : StepFrame} (h : ¬ d.offsetMax < d.firstOff i) :
    let o := (d.downSearch i f).getD (d.firstOff i)
    d.firstOff i ≤ o ∧ o ≤ d.offsetMax ∧
      ∀ k, d.firstOff i ≤ k → k ≤ d.offsetMax → d.slewFits (d.refB + 5 + k) (d.stepClass i f (reqMag f)) (reqMag f) = true →
        o ≤ k ∧ d.slewFits (d.refB + 5 + o) (d.stepClass i f (reqMag f)) (reqMag f) = true := by
  dsimp only
  cases hsearch : d.downSearch i f with
  | some o =>
    obtain ⟨hlow, hhigh, hfits, hleast⟩ := Dev.earliest_some hsearch
    exact ⟨hlow, hhigh, fun k hk hk' hkfits => ⟨hleast k hk hk' hkfits, hfits⟩⟩
  | none =>
    refine ⟨le_rfl, not_lt.mp h, fun k hk hk' hkfits => ?_⟩
    rw [Dev.earliest_none hsearch hk hk'] at hkfits
    exact absurd hkfits (by decide)

theorem Dev.downBase_steps {d : Dev} {i : Nat} {f : StepFrame} (h : ¬ d.offsetMax < d.firstOff i) :
    (d.downBase i f).adm.led.steps = d.adm.led.steps ++
      [d.stepRec i 2 (reqMag f) true (d.stepClass i f (reqMag f)) ((d.downSearch i f).getD (d.firstOff i))] := by
  rw [Dev.downBase, if_neg h, Dev.place_steps]
  split <;> rfl

theorem Dev.Decided.down_denied {d e : Dev} {n i : Nat} {f : StepFrame}
    (h : d.Decided ((d.asked n i).downBase i f) e n i f (d.downAnswer i f)) (hlate : d.offsetMax < d.firstOff i)
    (hi : i < d.adm.loads.length) :
    (d.downAnswer i f).dec = 3 ∧ (d.downAnswer i f).mag = 0 ∧ e.adm.led.steps = d.adm.led.steps := by
  have hbase : (d.asked n i).downBase i f = (d.asked n i).noStep i := if_pos (by rw [Dev.firstOff_asked n hi]; exact hlate)
  have hanswer : d.downAnswer i f = denial f 3 := if_pos hlate
  have hsteps := h.steps
  rw [hbase] at hsteps
  rw [hanswer]
  exact ⟨rfl, rfl, hsteps.trans rfl⟩

/-- A step down that is placed is placed in full, within OFFSET_MAX, and at the earliest offset that the slew limit leaves, where
there is one. -/
theorem Dev.Decided.down_placed {d e : Dev} {n i : Nat} {f : StepFrame}
    (h : d.Decided ((d.asked n i).downBase i f) e n i f (d.downAnswer i f)) (hlate : ¬ d.offsetMax < d.firstOff i)
    (hi : i < d.adm.loads.length) :
    let a := d.downAnswer i f
    a.dec = (if a.off = 0 then 0 else 1) ∧ a.mag = reqMag f ∧ d.firstOff i ≤ a.off ∧ a.off ≤ d.offsetMax ∧
      ∃ q, e.adm.led.steps = d.adm.led.steps ++ [q] ∧ q.load = i ∧ q.kind = 2 ∧ q.neg = true ∧ q.mag = a.mag ∧
        q.start = d.refB + 5 + a.off ∧ q.cls = a.ramp ∧
      ∀ k, d.firstOff i ≤ k → k ≤ d.offsetMax → d.slewFits (d.refB + 5 + k) a.ramp a.mag = true →
        a.off ≤ k ∧ d.slewFits (d.refB + 5 + a.off) a.ramp a.mag = true := by
  obtain ⟨hlow, hhigh, hleast⟩ := Dev.downOffset (f := f) hlate
  have hfirst := Dev.firstOff_asked (d := d) n hi
  have hclass : (d.asked n i).stepClass i f (reqMag f) = d.stepClass i f (reqMag f) := Dev.slowest_asked _ _ _ _ _ _
  have hsteps := h.steps
  rw [Dev.downBase_steps (by rw [hfirst]; exact hlate), Dev.downSearch_asked n f hi, hfirst, hclass] at hsteps
  rw [Dev.downAnswer, if_neg hlate]
  exact ⟨rfl, rfl, hlow, hhigh, (d.asked n i).stepRec i 2 (reqMag f) true _ _, hsteps, rfl, rfl, rfl, rfl, rfl, rfl, hleast⟩

/-! ### Announces -/

/-- The answer to an announce (R181, R183). -/
def Dev.announceAnswer (d : Dev) (n i : Nat) (f : StepFrame) : Decision :=
  if 2 ≤ (d.port n).level then denial f 4
  else if d.upBlocked i then denial f 3
  else
    let m := (d.roomOf n i f 0).toNat
    if m < d.minGrant then denial f 3 else ⟨if m = reqMag f then 0 else 2, reqRamp f, 0, m⟩

/-- `m` is reserved for a load (R183). -/
def Dev.reserve (d : Dev) (i : Nat) (f : StepFrame) (m : Nat) : Dev :=
  let e := if reqHold f = 0 then none else some (d.now + 2 ^ (reqHold f + 3))
  ((d.noStep i).updLoad i fun x => { x with resv := m, resvEnd := e }).updLed fun l =>
    { l with newResv := l.newResv + d.deltaP (d.gtRail i) m }

/-- The block in which the answer to an announce is stored. -/
def Dev.announceBase (d : Dev) (i : Nat) (f : StepFrame) (a : Decision) : Dev :=
  if a.dec = 3 ∨ a.dec = 4 then d.noStep i else d.reserve i f a.mag

theorem Dev.announceBase_of_granted {a : Decision} (d : Dev) (i : Nat) (f : StepFrame) (h3 : a.dec ≠ 3) (h4 : a.dec ≠ 4) :
    d.announceBase i f a = d.reserve i f a.mag := if_neg (not_or.mpr ⟨h3, h4⟩)

theorem Dev.decideAnnounce_eq (d : Dev) (n i : Nat) (f : StepFrame) :
    d.decideAnnounce n i f = (d.announceBase i f (d.announceAnswer n i f)).finish n i f (d.announceAnswer n i f) := by
  unfold Dev.decideAnnounce Dev.announceAnswer
  dsimp only
  by_cases hlevel : 2 ≤ (d.port n).level
  · simp only [if_pos hlevel]; rfl
  by_cases hblocked : d.upBlocked i = true
  · simp only [if_neg hlevel, if_pos hblocked]; rfl
  by_cases hmin : (d.roomOf n i f 0).toNat < d.minGrant
  · simp only [if_neg hlevel, if_neg hblocked, if_pos hmin]; rfl
  simp only [if_neg hlevel, if_neg hblocked, if_neg hmin]
  rw [Dev.announceBase_of_granted]
  · rfl
  · split_ifs <;> simp
  · split_ifs <;> simp

theorem Dev.announceAnswer_capped {d : Dev} {n : Nat} (i : Nat) (f : StepFrame) (h : 2 ≤ (d.port n).level) :
    d.announceAnswer n i f = denial f 4 := if_pos h

theorem Dev.announceAnswer_blocked {d : Dev} {n i : Nat} (f : StepFrame) (h : ¬ 2 ≤ (d.port n).level) (hb : d.upBlocked i = true) :
    d.announceAnswer n i f = denial f 3 := (if_neg h).trans (if_pos hb)

theorem Dev.announceAnswer_room {d : Dev} {n i : Nat} {f : StepFrame} (h : ¬ 2 ≤ (d.port n).level) (hb : ¬ d.upBlocked i = true)
    (hm : d.minGrant ≤ (d.roomOf n i f 0).toNat) :
    d.announceAnswer n i f =
      ⟨if (d.roomOf n i f 0).toNat = reqMag f then 0 else 2, reqRamp f, 0, (d.roomOf n i f 0).toNat⟩ :=
  (if_neg h).trans ((if_neg hb).trans (if_neg (not_lt.mpr hm)))

/-- The answer to an announce is a denial, or grants what the room leaves. -/
theorem Dev.announceAnswer_cases (d : Dev) (n i : Nat) (f : StepFrame) :
    (∃ dec, (dec = 3 ∨ dec = 4) ∧ d.announceAnswer n i f = denial f dec) ∨
      d.minGrant ≤ (d.roomOf n i f 0).toNat ∧ d.announceAnswer n i f =
        ⟨if (d.roomOf n i f 0).toNat = reqMag f then 0 else 2, reqRamp f, 0, (d.roomOf n i f 0).toNat⟩ := by
  by_cases hlevel : 2 ≤ (d.port n).level
  · exact .inl ⟨4, .inr rfl, Dev.announceAnswer_capped i f hlevel⟩
  by_cases hblocked : d.upBlocked i = true
  · exact .inl ⟨3, .inl rfl, Dev.announceAnswer_blocked f hlevel hblocked⟩
  by_cases hmin : (d.roomOf n i f 0).toNat < d.minGrant
  · exact .inl ⟨3, .inl rfl, (if_neg hlevel).trans ((if_neg hblocked).trans (if_pos hmin))⟩
  · exact .inr ⟨not_lt.mp hmin, Dev.announceAnswer_room hlevel hblocked (not_lt.mp hmin)⟩

theorem Dev.announceAnswer_asked {d : Dev} {n i : Nat} (f : StepFrame) (hn : n < d.adm.ports.length) (hi : i < d.adm.loads.length) :
    (d.asked n i).announceAnswer n i f = d.announceAnswer n i f := by
  rw [Dev.announceAnswer, Dev.roomOf_asked f _ hn hi, Dev.port_asked i hn, Dev.upBlocked_asked, Dev.minGrant_asked]
  rfl

theorem Dev.decideReq_announce {d : Dev} {n : Nat} {f : StepFrame} (h : reqKind f = 3) :
    d.decideReq n f = d.request n f true fun d i f => d.decideAnnounce n i f := by
  simp [Dev.decideReq, h]

theorem Dev.deciding_announceBase {d : Dev} {n : Nat} (i : Nat) (f : StepFrame) (a : Decision) (hn : n < d.adm.ports.length) :
    d.Deciding ((d.asked n i).announceBase i f a) n i := by
  have hnone := (Dev.deciding_asked i hn).updLoad fun e => { e with lastStart := none }
  unfold Dev.announceBase
  split
  · exact hnone
  · unfold Dev.reserve
    exact (hnone.updLoad _).updLed _

theorem Dev.reserve_onlyIn (d : Dev) (i : Nat) (f : StepFrame) (m : Nat) : Dev.onlyIn [.adm] d (d.reserve i f m) :=
  Dev.onlyIn_trans (Dev.onlyIn_trans (Dev.noStep_onlyIn _ _) (Dev.updLoad_onlyIn _ _ _)) (Dev.updLed_onlyIn _ _)

theorem Dev.announceBase_onlyIn (d : Dev) (i : Nat) (f : StepFrame) (a : Decision) : Dev.onlyIn [.adm] d (d.announceBase i f a) :=
  Dev.onlyIn_ite (Dev.noStep_onlyIn _ _) (d.reserve_onlyIn i f a.mag)

/-- ANNOUNCE on a valid, new request. -/
theorem completes_announce {s : State} {n : Fin 16} {f : StepFrame} (hshape : s.d.shape = true) (hadm : s.d.admitted n 3 = some f)
    (hbusy : (s.d.port n).busy ≤ s.d.refB) (hv : s.d.reqValid n f = true) (hseq : s.d.newSeq f) :
    Completes (.announce n) s [.jrn, .adm, .nv] fun e =>
      s.d.Decided ((s.d.asked n (reqLoad f)).announceBase (reqLoad f) f (s.d.announceAnswer n (reqLoad f) f)) e n (reqLoad f) f
        (s.d.announceAnswer n (reqLoad f) f) := by
  have hn := Dev.port_lt hshape n
  refine completes_decision hshape hadm hbusy hv (fun _ => hseq) rfl (Dev.decideReq_announce (Dev.kind_of_valid hadm hv)) ?_
    (Dev.deciding_announceBase _ _ _ hn) ?_ (by decide)
  · rw [Dev.decideAnnounce_eq, Dev.announceAnswer_asked f hn (Dev.load_lt hshape (reqLoad_lt f))]
  · exact Dev.onlyIn_mono (Dev.onlyIn_trans (s.d.asked_onlyIn n _) (Dev.announceBase_onlyIn _ _ _ _)) (by decide)

/-- No announce enters the ledger. -/
theorem Dev.announceBase_steps (d : Dev) (i : Nat) (f : StepFrame) (a : Decision) :
    (d.announceBase i f a).adm.led.steps = d.adm.led.steps := by
  unfold Dev.announceBase; split <;> rfl

theorem Dev.Decided.announce_denied {d e : Dev} {n i : Nat} {f : StepFrame} {a : Decision}
    (h : d.Decided ((d.asked n i).announceBase i f a) e n i f a) (hdec : a.dec = 3 ∨ a.dec = 4) (hi : i < d.adm.loads.length) :
    (e.load i).resv = (d.load i).resv := by
  have hbase : (d.asked n i).announceBase i f a = (d.asked n i).noStep i := if_pos hdec
  have hload := h.load
  rw [hbase, Dev.noStep, Dev.load_updLoad_same _ _ (by rw [Dev.asked_loads_length]; exact hi), Dev.load_asked_same n hi] at hload
  rw [hload]; rfl

theorem Dev.Decided.announce_granted {d e : Dev} {n i : Nat} {f : StepFrame} {a : Decision}
    (h : d.Decided ((d.asked n i).announceBase i f a) e n i f a) (h3 : a.dec ≠ 3) (h4 : a.dec ≠ 4) (hi : i < d.adm.loads.length) :
    (e.load i).resv = a.mag ∧ (e.load i).resvEnd = if reqHold f = 0 then none else some (d.now + 2 ^ (reqHold f + 3)) := by
  have hload := h.load
  rw [Dev.announceBase_of_granted _ _ _ h3 h4] at hload
  have hreserved : ((d.asked n i).reserve i f a.mag).load i =
      { ((d.asked n i).noStep i).load i with
        resv := a.mag, resvEnd := if reqHold f = 0 then none else some (d.now + 2 ^ (reqHold f + 3)) } :=
    Dev.load_updLoad_same _ _ (by rw [Dev.noStep, Dev.updLoad_adm, updAt_length, Dev.asked_loads_length]; exact hi)
  rw [hload, hreserved]
  exact ⟨rfl, rfl⟩

end Sys2Proof.Machine
end

section
/-! PROOF. The decisions on releases and heartbeats (R165, R167, R181, R182, R189, R190), and on all five kinds of valid requests. -/

namespace Sys2Proof.Machine

/-! ### Releases -/

/-- The answer to a release (R181, R182). -/
def Dev.releaseAnswer (d : Dev) (i : Nat) (f : StepFrame) : Decision := ⟨0, reqRamp f, 0, min 4095 (d.load i).alloc⟩

/-- The magnitude of the step with which a load returns to BASE. -/
def Dev.releaseMag (d : Dev) (i : Nat) : Nat :=
  if d.gtBase i ≤ (d.load i).alloc then (d.load i).alloc - d.gtBase i else d.gtBase i - (d.load i).alloc

/-- The block in which the answer to a release is stored: its reservation is gone, and its step placed at once. -/
def Dev.releaseBase (d : Dev) (i : Nat) (f : StepFrame) : Dev :=
  (d.updLoad i fun e => { e with resv := 0, resvEnd := none }).place i 4 (d.releaseMag i) (d.gtBase i ≤ (d.load i).alloc) (reqRamp f) 0

theorem Dev.decideRelease_eq (d : Dev) (n i : Nat) (f : StepFrame) :
    d.decideRelease n i f = (d.releaseBase i f).finish n i f (d.releaseAnswer i f) := rfl

theorem Dev.natAbs_releaseMag (d : Dev) (i : Nat) : (d.releaseMag i : Int) = (((d.load i).alloc : Int) - d.gtBase i).natAbs := by
  unfold Dev.releaseMag
  split <;> omega

theorem Dev.releaseMag_asked {d : Dev} {i : Nat} (n : Nat) (hi : i < d.adm.loads.length) : (d.asked n i).releaseMag i = d.releaseMag i := by
  rw [Dev.releaseMag, Dev.load_asked_same n hi]; rfl

theorem Dev.releaseAnswer_asked {d : Dev} {i : Nat} (n : Nat) (f : StepFrame) (hi : i < d.adm.loads.length) :
    (d.asked n i).releaseAnswer i f = d.releaseAnswer i f := by
  rw [Dev.releaseAnswer, Dev.load_asked_same n hi]; rfl

theorem Dev.decideReq_release {d : Dev} {n : Nat} {f : StepFrame} (h : reqKind f = 4) :
    d.decideReq n f = d.request n f false fun d i f => d.decideRelease n i f := by
  simp [Dev.decideReq, h]

theorem Dev.releaseBase_onlyIn (d : Dev) (i : Nat) (f : StepFrame) : Dev.onlyIn [.adm, .sram] d (d.releaseBase i f) :=
  Dev.onlyIn_via (Dev.place_onlyIn_adm _ _ _ _ (by decide)) (by decide) (Dev.onlyIn_mono (Dev.updLoad_onlyIn _ _ _) (by decide))

theorem Dev.releaseBase_steps (d : Dev) (i : Nat) (f : StepFrame) :
    ∃ q, (d.releaseBase i f).adm.led.steps = d.adm.led.steps ++ [q] ∧ q.load = i ∧ q.kind = 4 ∧ q.start = d.refB + 5 ∧
      q.mag = d.releaseMag i :=
  ⟨_, Dev.place_steps _ _ _ _ _ _ _, rfl, rfl, rfl, rfl⟩

theorem Dev.load_releaseBase {d : Dev} {i : Nat} (f : StepFrame) (hi : i < d.adm.loads.length) :
    (d.releaseBase i f).load i = Load.placed { d.load i with resv := 0, resvEnd := none } 4 (d.refB + 5) (reqRamp f) := by
  rw [Dev.releaseBase, Dev.load_place _ _ _ _ _ (by rw [Dev.updLoad_adm, updAt_length]; exact hi), d.load_updLoad_same _ hi]
  rfl

/-- RELEASE on a valid request, whatever its SEQ. -/
theorem completes_release {s : State} {n : Fin 16} {f : StepFrame} (hshape : s.d.shape = true) (hadm : s.d.admitted n 4 = some f)
    (hbusy : (s.d.port n).busy ≤ s.d.refB) (hv : s.d.reqValid n f = true) :
    Completes (.release n) s [.jrn, .adm, .sram, .nv] fun e =>
      s.d.Decided ((s.d.asked n (reqLoad f)).releaseBase (reqLoad f) f) e n (reqLoad f) f (s.d.releaseAnswer (reqLoad f) f) := by
  refine completes_decision hshape hadm hbusy hv (fun h => absurd h Bool.false_ne_true) rfl
    (Dev.decideReq_release (Dev.kind_of_valid hadm hv)) ?_
    (((Dev.deciding_asked _ (Dev.port_lt hshape n)).updLoad _).place _ _ _ _ _) ?_ (by decide)
  · rw [Dev.decideRelease_eq, Dev.releaseAnswer_asked n f (Dev.load_lt hshape (reqLoad_lt f))]
  · exact Dev.onlyIn_via (Dev.releaseBase_onlyIn _ _ _) (by decide) (Dev.onlyIn_mono (s.d.asked_onlyIn n _) (by decide))

/-! ### Heartbeats -/

/-- One unannounced step is counted at a port (R189). -/
def Dev.drawCounted (d : Dev) (n : Nat) : Dev :=
  d.updPort n fun p => { p with unann := inc8 (d.port n).unann, unannTotal := inc16 p.unannTotal }

theorem Dev.heartbeatCount_of_announced {d : Dev} {n i : Nat} {f : StepFrame}
    (h : ¬ (d.load i).alloc + d.fld 0x74 0x48 23 16 < reqMag f) : d.heartbeatCount n i f = d := if_neg h

/-- An unannounced step is counted, and the level of its port covers every cause (R189, R193). -/
theorem Dev.heartbeatCount_of_draw {d : Dev} {n i : Nat} {f : StepFrame} (h : (d.load i).alloc + d.fld 0x74 0x48 23 16 < reqMag f) :
    ∃ b : Dev, b.adm = (d.drawCounted n).adm ∧ d.heartbeatCount n i f = b.capRaise n :=
  ⟨_, by split <;> rfl, if_pos h⟩

/-- Block `b` is `d` after the count of a heartbeat's draw at port `n`. -/
structure Dev.Counted (d b : Dev) (n : Nat) : Prop where
  loads : b.adm.loads = d.adm.loads
  steps : b.adm.led.steps = d.adm.led.steps
  ports : sameBut n d.adm.ports b.adm.ports
  quiet : (b.port n).quiet = (d.port n).quiet
  stale : (b.port n).stale = (d.port n).stale
  level : (d.port n).level ≤ (b.port n).level

theorem Dev.port_heartbeatCount {d : Dev} {n i : Nat} {f : StepFrame} (h : (d.load i).alloc + d.fld 0x74 0x48 23 16 < reqMag f)
    (hn : n < d.adm.ports.length) :
    ∃ c t, (d.heartbeatCount n i f).port n =
      { d.port n with unann := inc8 (d.port n).unann, unannTotal := inc16 (d.port n).unannTotal }.raised c t := by
  obtain ⟨b, hb, heq⟩ := Dev.heartbeatCount_of_draw h
  have hports : b.adm.ports = (d.drawCounted n).adm.ports := congrArg AdmSt.ports hb
  refine ⟨b.capCause n, b.now, ?_⟩
  rw [heq, Dev.port_capRaise (by rw [hports]; exact (updAt_length _ _ _).symm ▸ hn), Dev.port_congr hports]
  exact congrArg (StepPort.raised · _ _) (d.port_updPort_same _ hn)

theorem Dev.counted_heartbeatCount {d : Dev} {n : Nat} (i : Nat) (f : StepFrame) (hn : n < d.adm.ports.length) :
    d.Counted (d.heartbeatCount n i f) n := by
  by_cases hdraw : (d.load i).alloc + d.fld 0x74 0x48 23 16 < reqMag f
  · obtain ⟨c, t, hport⟩ := Dev.port_heartbeatCount hdraw hn
    obtain ⟨b, hb, heq⟩ := Dev.heartbeatCount_of_draw (n := n) hdraw
    have hadm : (d.heartbeatCount n i f).adm = (b.updPort n fun p => p.raised (b.capCause n) b.now).adm := by rw [heq, Dev.capRaise_adm]
    have hports : sameBut n d.adm.ports b.adm.ports := by rw [hb]; exact sameBut_updAt _ _ _
    refine ⟨?_, ?_, ?_, ?_, ?_, ?_⟩
    · rw [hadm, Dev.updPort_adm, hb]; rfl
    · rw [hadm, Dev.updPort_adm, hb]; rfl
    · rw [hadm]; exact sameBut_trans hports (sameBut_updAt _ _ _)
    · rw [hport]; rfl
    · rw [hport]; rfl
    · rw [hport]; exact le_max_left _ _
  · rw [Dev.heartbeatCount_of_announced hdraw]
    exact ⟨rfl, rfl, sameBut_refl _ _, rfl, rfl, le_rfl⟩

theorem Dev.decideReq_heartbeat {d : Dev} {n : Nat} {f : StepFrame} (h : reqKind f = 5) :
    d.decideReq n f = d.request n f false fun d i f => d.decideHeartbeat n i f := by
  simp [Dev.decideReq, h]

/-- The block after the decision on a heartbeat. -/
def Dev.beaten (d : Dev) (n i : Nat) (f : StepFrame) : Dev := (d.decideHeartbeat n i f).admitEnd

theorem Dev.beaten_onlyIn (d : Dev) (n i : Nat) (f : StepFrame) : Dev.onlyIn [.stat, .adm] d (d.beaten n i f) :=
  Dev.onlyIn_via (Dev.admitEnd_onlyIn _) (by decide) (Dev.decideHeartbeat_onlyIn _ _ _ _)

theorem Dev.beaten_loads (d : Dev) (n i : Nat) (f : StepFrame) (hn : n < d.adm.ports.length) :
    (d.beaten n i f).adm.loads = d.adm.loads := (Dev.admitEnd_loads _).trans (Dev.counted_heartbeatCount i f hn).loads

theorem Dev.beaten_steps (d : Dev) (n i : Nat) (f : StepFrame) (hn : n < d.adm.ports.length) :
    (d.beaten n i f).adm.led.steps = d.adm.led.steps :=
  (Dev.admitEnd_steps _).trans ((Ledger.count_steps _ _).trans (Dev.counted_heartbeatCount i f hn).steps)

theorem Dev.sameBut_beaten (d : Dev) (n i : Nat) (f : StepFrame) (hn : n < d.adm.ports.length) :
    sameBut n d.adm.ports (d.beaten n i f).adm.ports := by
  rw [Dev.beaten, Dev.admitEnd_ports]
  exact sameBut_trans (Dev.counted_heartbeatCount i f hn).ports (sameBut_updAt _ _ _)

theorem Dev.port_beaten {d : Dev} {n : Nat} (i : Nat) (f : StepFrame) (hn : n < d.adm.ports.length) :
    (d.beaten n i f).port n = { (d.heartbeatCount n i f).port n with
      reply := some (replyFrame (reqLoad f) (reqSeq f) 0 ((d.heartbeatCount n i f).port n).level (freeRamp f) 0
        (min 4095 (d.load i).alloc)) } := by
  have hcounted := Dev.counted_heartbeatCount i f hn
  rw [← Dev.load_congr hcounted.loads i]
  exact (Dev.port_congr (Dev.admitEnd_ports _) n).trans
    (Dev.port_reply (d := (d.heartbeatCount n i f).updLed fun l => l.count 0) f _ (hcounted.ports.1 ▸ hn))

/-- HEARTBEAT on a valid request, whatever its SEQ. -/
theorem completes_heartbeat {s : State} {n : Fin 16} {f : StepFrame} (hshape : s.d.shape = true) (hadm : s.d.admitted n 5 = some f)
    (hbusy : (s.d.port n).busy ≤ s.d.refB) (hv : s.d.reqValid n f = true) :
    Completes (.heartbeat n) s [.adm, .stat] fun e => e = (s.d.asked n (reqLoad f)).beaten n (reqLoad f) f := by
  refine completes_done (f := fun d => d.admitCmd n 5) rfl ?_ ?_ rfl
  · rw [Dev.admitCmd_eq hadm, Dev.decideReq_heartbeat (Dev.kind_of_valid hadm hv)]
    exact Dev.request_valid _ (Dev.port_lt hshape n) (Dev.load_lt hshape (reqLoad_lt f)) hbusy hv nofun
  · exact Dev.onlyIn_via (Dev.beaten_onlyIn _ _ _ _) (by decide) (Dev.onlyIn_mono (s.d.asked_onlyIn n _) (by decide))

/-! ### The five kinds -/

theorem Dev.upAnswer_denied {d : Dev} {n i : Nat} {f : StepFrame} (h : (d.upAnswer n i f).dec = 3 ∨ (d.upAnswer n i f).dec = 4) :
    (d.upAnswer n i f).mag = 0 := by
  obtain ⟨dec, -, heq⟩ | hfits := d.upAnswer_cases n i f
  · rw [heq]; rfl
  · have hcode := hfits.code
    omega

theorem Dev.upAnswer_granted {d : Dev} {n i : Nat} {f : StepFrame} (h3 : (d.upAnswer n i f).dec ≠ 3) (h4 : (d.upAnswer n i f).dec ≠ 4) :
    d.UpFits i f (d.roomOf n i f (d.load i).resv).toNat (d.upAnswer n i f) := by
  obtain ⟨dec, hdec, heq⟩ | hfits := d.upAnswer_cases n i f
  · rw [heq] at h3 h4
    exact absurd hdec (not_or.mpr ⟨h3, h4⟩)
  · exact hfits

theorem Dev.announceAnswer_denied {d : Dev} {n i : Nat} {f : StepFrame}
    (h : (d.announceAnswer n i f).dec = 3 ∨ (d.announceAnswer n i f).dec = 4) : (d.announceAnswer n i f).mag = 0 := by
  obtain ⟨dec, -, heq⟩ | ⟨-, heq⟩ := d.announceAnswer_cases n i f
  · rw [heq]; rfl
  · rw [heq] at h
    dsimp only at h
    split_ifs at h <;> exact absurd h (by decide)

theorem Dev.announceAnswer_granted {d : Dev} {n i : Nat} {f : StepFrame} (h3 : (d.announceAnswer n i f).dec ≠ 3)
    (h4 : (d.announceAnswer n i f).dec ≠ 4) :
    d.minGrant ≤ (d.roomOf n i f 0).toNat ∧ d.announceAnswer n i f =
      ⟨if (d.roomOf n i f 0).toNat = reqMag f then 0 else 2, reqRamp f, 0, (d.roomOf n i f 0).toNat⟩ := by
  obtain ⟨dec, hdec, heq⟩ | hgranted := d.announceAnswer_cases n i f
  · rw [heq] at h3 h4
    exact absurd hdec (not_or.mpr ⟨h3, h4⟩)
  · exact hgranted

/-- The answer to an announce names the ramp that was asked for, and no offset. -/
theorem Dev.announceAnswer_form (d : Dev) (n i : Nat) (f : StepFrame) :
    d.announceAnswer n i f = ⟨(d.announceAnswer n i f).dec, reqRamp f, 0, (d.announceAnswer n i f).mag⟩ := by
  obtain ⟨dec, -, heq⟩ | ⟨-, heq⟩ := d.announceAnswer_cases n i f
  · rw [heq]; rfl
  · rw [heq]

/-- Settles O34: each kind of request has an answer of its own, and `Dev.Decided` says what storing it leaves. -/
theorem stepDecisions : Obligations.StepDecisions := by
  refine ⟨fun s n f hshape hadm hbusy hv hseq => ?up, fun s n f hshape hadm hbusy hv hseq => ?down,
    fun s n f hshape hadm hbusy hv hseq => ?announce, fun s n f hshape hadm hbusy hv => ?release,
    fun s n f hshape hadm hbusy hv => ?heartbeat⟩ <;> have hi := Dev.load_lt hshape (reqLoad_lt f)
  case up =>
    refine (completes_stepUp hshape hadm hbusy hv hseq).imp fun e h => ?_
    refine ⟨h.loads, h.ports, _, _, _, _, h.stored, h.reply, fun hlevel => ?_, fun hlevel hblocked => ?_,
      fun hdec => ⟨Dev.upAnswer_denied hdec, h.up_denied hdec⟩, fun h3 h4 => ?_,
      fun hlevel hopen hroom hmin hfirst hfreeze hfits => ?_⟩
    · rw [Dev.upAnswer_capped _ _ hlevel]; rfl
    · rw [Dev.upAnswer_blocked _ (not_le.mpr hlevel) hblocked]; rfl
    · have hfits := Dev.upAnswer_granted h3 h4
      exact ⟨hfits.code, hfits.least, hfits.most, hfits.fits, hfits.granted, hfits.deferred, h.up_granted h3 h4 hi⟩
    · rw [Dev.upAnswer_open _ (not_le.mpr hlevel) (by simp [hopen]), hroom, Dev.upChoice_atOnce hmin hfirst hfreeze hfits]
      exact ⟨rfl, rfl, rfl, rfl⟩
  case down =>
    refine (completes_stepDown hshape hadm hbusy hv hseq).imp fun e h => ?_
    refine ⟨h.loads, h.ports, _, _, _, _, h.stored, h.reply, ?_⟩
    by_cases hlate : s.d.offsetMax < s.d.firstOff (reqLoad f)
    · rw [if_pos hlate]; exact h.down_denied hlate hi
    · rw [if_neg hlate]; exact h.down_placed hlate hi
  case announce =>
    refine (completes_announce hshape hadm hbusy hv hseq).imp fun e h => ?_
    have hstored := h.stored
    have hreply := h.reply
    have hform := s.d.announceAnswer_form n (reqLoad f) f
    rw [hform] at hstored hreply
    refine ⟨h.loads, h.ports, h.steps.trans (Dev.announceBase_steps _ _ _ _), _, _, hstored, hreply, fun hlevel => ?_,
      fun hlevel hblocked => ?_, fun hlevel hopen hroom => ?_,
      fun hdec => ⟨Dev.announceAnswer_denied hdec, h.announce_denied hdec hi⟩, fun h3 h4 => ?_⟩
    · rw [Dev.announceAnswer_capped _ _ hlevel]; rfl
    · rw [Dev.announceAnswer_blocked _ (not_le.mpr hlevel) hblocked]; rfl
    · rw [Dev.announceAnswer_room (not_le.mpr hlevel) (by simp [hopen]) hroom]
      constructor <;> (dsimp only; split_ifs <;> decide)
    · obtain ⟨hmin, heq⟩ := Dev.announceAnswer_granted h3 h4
      obtain ⟨hresv, hend⟩ := h.announce_granted h3 h4 hi
      refine ⟨?_, ?_, ?_, hresv, hend⟩ <;> rw [heq]
      exact hmin
  case release =>
    refine (completes_release hshape hadm hbusy hv).imp fun e h => ?_
    have hload := h.load
    rw [Dev.load_releaseBase f (by rw [Dev.asked_loads_length]; exact hi), Dev.load_asked_same n hi] at hload
    obtain ⟨q, hsteps, hq, hkind, hstart, hmag⟩ := (s.d.asked n (reqLoad f)).releaseBase_steps (reqLoad f) f
    refine ⟨h.stored, h.reply, ?_, ?_, ?_, ?_, h.loads, h.ports, q, h.steps.trans hsteps, hq, hkind, hstart, ?_⟩
    · rw [hload]; rfl
    · rw [hload]; rfl
    · rw [hload]; rfl
    · rw [hload]; rfl
    · rw [hmag, Dev.releaseMag_asked n hi, Dev.natAbs_releaseMag]
  case heartbeat =>
    refine (completes_heartbeat hshape hadm hbusy hv).imp fun e h => ?_
    have hasked := Dev.deciding_asked (reqLoad f) (Dev.port_lt hshape n)
    have hn : n.val < (s.d.asked n (reqLoad f)).adm.ports.length := hasked.ports.1 ▸ Dev.port_lt hshape n
    have hcounted := Dev.counted_heartbeatCount (reqLoad f) f hn
    have hport := Dev.port_beaten (reqLoad f) f hn
    have htaken := s.d.port_asked (reqLoad f) (Dev.port_lt hshape n)
    have hload := s.d.load_asked_same n hi
    have hloads := Dev.load_congr ((s.d.asked n (reqLoad f)).beaten_loads n (reqLoad f) f hn)
    subst h
    refine ⟨⟨_, _, by rw [hport, hload], ?_⟩, ?_, ?_, ?_, fun j hj => ?_, ?_, ?_, fun hdraw => ?_⟩
    · exact hasked.level ▸ hcounted.level
    · rw [hport]; exact hcounted.quiet.trans (by rw [htaken])
    · rw [hport]; exact hcounted.stale.trans (by rw [htaken])
    · rw [hloads, hload]
    · rw [hloads, s.d.load_asked_other n hj]
    · exact sameBut_trans hasked.ports (Dev.sameBut_beaten _ _ _ _ hn)
    · exact (Dev.beaten_steps _ _ _ _ hn).trans rfl
    · obtain ⟨c, t, hraised⟩ := Dev.port_heartbeatCount (d := s.d.asked n (reqLoad f)) (i := reqLoad f) (by rw [hload]; exact hdraw) hn
      rw [hport, hraised, htaken]; rfl

end Sys2Proof.Machine
end

section
/-! PROOF. Transfers and insertions of the feeds (R250, R251, R252, R254, R573). -/

namespace Sys2Proof.Machine

/-! ### A feed that leaves its state, and one that is turned on -/

@[simp] theorem otherFeed_ne (f : FeedId) : otherFeed f ≠ f := by cases f <;> decide

/-- A feed with its gate command 0 (R247, R250). -/
def Feed.parked (x : Feed) (valid : Bool) : Feed :=
  { x with st := if valid then .ready else .absent, cmd := false, pg := false, pgRun := 0, readyN := 0 }

theorem Dev.feed_feedPark (d : Dev) (f g : FeedId) :
    (d.feedPark f).feed g = if g = f then (d.feed g).parked (d.feedValid f) else d.feed g := d.feed_updFeed _ _ _

/-- Whether a feed is valid depends on the feed and on the registers alone. -/
theorem Dev.feedValid_congr {d e : Dev} {f : FeedId} (hfeed : e.feed f = d.feed f) (hregs : e.regs = d.regs) :
    e.feedValid f = d.feedValid f := by
  rw [Dev.feedValid, hfeed, Dev.fld_congr hregs]; rfl

theorem Dev.feed_turnOn (d : Dev) (f g : FeedId) :
    (d.turnOn f).feed g = if g = f then { d.feed g with st := .turnOn, cmd := true, onN := 0, readyN := 0 } else d.feed g :=
  (Dev.feed_congr rfl rfl g).trans (d.feed_updFeed _ _ _)

theorem Dev.turnOn_xfer (d : Dev) (f : FeedId) : (d.turnOn f).xfer = { d.xfer with dead := none, new := some f, ilock := 0 } := by
  cases f <;> rfl

/-- A feed that enters FAULT_WAIT. -/
def Feed.failed (x : Feed) (delay : Nat) : Feed :=
  { x with st := .faultWait, cmd := false, pg := false, pgRun := 0, retryLeft := delay, readyN := 0 }

theorem Dev.feed_feedFaultRaw (d : Dev) (f g : FeedId) (bit : Nat) :
    (d.feedFaultRaw f bit).feed g = if g = f then (d.feed g).failed (256 * d.fld 0x98 0x58 31 16) else d.feed g := by
  have hlost : (d.feedFault f bit).feed g = (d.feedFaultRaw f bit).feed g :=
    Dev.feed_congr (Dev.targetLost_onlyIn _ f .feedA (by decide)) (Dev.targetLost_onlyIn _ f .feedB (by decide)) g
  rw [← hlost, Dev.feed_feedFault]; rfl

theorem Dev.statOf_feedFaultRaw (d : Dev) (f : FeedId) (bit : Nat) :
    (d.feedFaultRaw f bit).statOf 0x98 = (d.statOf 0x98).occur (bit + feedIdx f) (causeOf 0x98 (bit + feedIdx f)) := by
  unfold Dev.feedFaultRaw
  rw [Dev.statOf_memberBlockFault _ (by decide), Dev.statOf_occur_same, Dev.statOf_congr (Dev.updFeed_stat _ _ _)]

/-! ### A transfer begins -/

/-- The block in which the carrying feed has left its state, and a transfer towards another feed has failed. -/
def Dev.carrierLeft (d : Dev) (c : FeedId) : Dev :=
  let b := (d.feedPark c).targetLost c
  if b.xfer.new.isSome then b.xferFail 0x13 else b

/-- A transfer from `old` that starts in tick `t` (R251). -/
def Xfer.started (x : Xfer) (old : FeedId) (dead t : Nat) : Xfer :=
  { x with dead := some dead, old := some old, new := none, insertion := false, start := t, count := inc16 x.count, ilock := 0 }

theorem Dev.startTransfer_eq {d : Dev} {c : FeedId} (h : (d.feed c).st = .turnOn ∨ (d.feed c).st = .on) :
    d.startTransfer c =
      ((d.carrierLeft c).updXfer fun x => x.started c ((d.carrierLeft c).fld 0x98 0x50 21 15) (d.carrierLeft c).now).freezeBegin := by
  rw [Dev.startTransfer, if_pos h]; rfl

theorem Dev.carrierLeft_onlyIn (d : Dev) (c : FeedId) : Dev.onlyIn [.stat, .xfer] (d.feedPark c) (d.carrierLeft c) :=
  Dev.onlyIn_ite (Dev.onlyIn_trans (Dev.targetLost_onlyIn _ _) (Dev.xferFail_onlyIn _ _)) (Dev.targetLost_onlyIn _ _)

theorem Dev.targetLost_count (d : Dev) (f : FeedId) : (d.targetLost f).xfer.count = d.xfer.count := by
  unfold Dev.targetLost; split <;> rfl

theorem Dev.carrierLeft_count (d : Dev) (c : FeedId) : (d.carrierLeft c).xfer.count = d.xfer.count := by
  have hlost : ((d.feedPark c).targetLost c).xfer.count = d.xfer.count := by
    rw [Dev.targetLost_count, Dev.feedPark_onlyIn d c .xfer (by decide)]
  unfold Dev.carrierLeft
  dsimp only
  split
  · exact hlost
  · exact hlost

/-- The estimated end of a freeze that begins or goes on (R194). -/
theorem Dev.le_freezeEnd_freezeBegin (d : Dev) :
    d.now + d.fld 0x98 0x50 21 15 + d.fld 0x74 0x4C 23 8 ≤ d.freezeBegin.adm.led.freezeEnd := by
  unfold Dev.freezeBegin Dev.updLed
  dsimp only
  split
  · exact le_max_right _ _
  · exact le_rfl

/-- A command that starts a transfer from a feed in TURN_ON or ON. -/
theorem completes_startTransfer {s : State} {cmd : Instr} {c : FeedId} {f : Dev → Dev} (hc : exec cmd s = done f s)
    (hf : f s.d = s.d.startTransfer c) (hst : (s.d.feed c).st = .turnOn ∨ (s.d.feed c).st = .on) :
    Completes cmd s [.adm, .feedB, .stat, .feedA, .xfer] fun e =>
      (e.feed c).cmd = false ∧ (e.feed c).st = (if s.d.feedValid c then .ready else .absent) ∧
      e.feed (otherFeed c) = s.d.feed (otherFeed c) ∧
      e.xfer.dead = some (s.d.fld 0x98 0x50 21 15) ∧ e.xfer.old = some c ∧ e.xfer.new = none ∧ e.xfer.insertion = false ∧
      e.xfer.count = inc16 s.d.xfer.count ∧ e.xfer.start = s.d.now ∧ e.adm.led.freeze = true ∧
      s.d.now + s.d.fld 0x98 0x50 21 15 + s.d.fld 0x74 0x4C 23 8 ≤ e.adm.led.freezeEnd := by
  have hleft := s.d.carrierLeft_onlyIn c
  have hpark := s.d.feedPark_onlyIn c
  have hregs : (s.d.carrierLeft c).regs = s.d.regs := (hleft .regs (by decide)).trans (hpark .regs (by decide))
  have htime : (s.d.carrierLeft c).time = s.d.time := (hleft .time (by decide)).trans (hpark .time (by decide))
  have hnow : (s.d.carrierLeft c).now = s.d.now := congrArg (·.ticks) htime
  have hfeed (g : FeedId) : (s.d.startTransfer c).feed g = (s.d.feedPark c).feed g := by
    rw [Dev.startTransfer_eq hst]
    exact Dev.feed_congr (hleft .feedA (by decide)) (hleft .feedB (by decide)) g
  have hxfer : (s.d.startTransfer c).xfer = (s.d.carrierLeft c).xfer.started c (s.d.fld 0x98 0x50 21 15) s.d.now := by
    rw [Dev.startTransfer_eq hst, Dev.fld_congr hregs, hnow]; rfl
  refine completes_done hc hf (Dev.onlyIn_mono (Dev.startTransfer_onlyIn _ _) (by decide)) ⟨?_, ?_, ?_, ?_, ?_, ?_, ?_, ?_, ?_, ?_, ?_⟩
  · rw [hfeed, Dev.feed_feedPark, if_pos rfl]; rfl
  · rw [hfeed, Dev.feed_feedPark, if_pos rfl]; rfl
  · rw [hfeed, Dev.feed_feedPark, if_neg (otherFeed_ne c)]
  · rw [hxfer]; rfl
  · rw [hxfer]; rfl
  · rw [hxfer]; rfl
  · rw [hxfer]; rfl
  · rw [hxfer, Xfer.started, Dev.carrierLeft_count]
  · rw [hxfer]; rfl
  · rw [Dev.startTransfer_eq hst]; rfl
  · rw [Dev.startTransfer_eq hst, ← Dev.fld_congr hregs, ← Dev.fld_congr hregs, ← hnow]
    exact Dev.le_freezeEnd_freezeBegin _

theorem execFeedTransfer_from {s : State} {c x : FeedId} (hran : s.d.xfer.ran = true) (hcarry : s.d.xfer.carry0 = some c)
    (hdead : s.d.xfer.dead = none) (hsel : s.d.selected = some x) (hne : x ≠ c)
    (hst : (s.d.feed c).st = .turnOn ∨ (s.d.feed c).st = .on) :
    ∃ f : Dev → Dev, exec .feedTransfer s = done f s ∧ f s.d = s.d.startTransfer c :=
  ⟨_, rfl, by simp [hran, hcarry, hdead, hsel, hne, hst]⟩

theorem execFeedReturn_from {s : State} {c : FeedId} (hran : s.d.xfer.ran = true) (hcarry : s.d.xfer.carry0 = some c)
    (hjudge : s.d.judging = true) (hstill : s.d.carry = some c) (hdead : s.d.xfer.dead = none) (hback : s.d.returning c = true) :
    ∃ f : Dev → Dev, exec .feedReturn s = done f s ∧ f s.d = s.d.startTransfer c :=
  ⟨_, rfl, by simp [hran, hcarry, hdead, hjudge, hstill, hback]⟩

/-! ### An insertion -/

theorem execFeedTransfer_insert {s : State} {x : FeedId} (hran : s.d.xfer.ran = true) (hcarry : s.d.xfer.carry0 = none)
    (hdead : s.d.xfer.dead = none) (hnone : s.d.carry = none) (hsel : s.d.selected = some x) (hjudge : s.d.judging = true) :
    ∃ f : Dev → Dev, exec .feedTransfer s = done f s ∧ f s.d = s.d.startInsertion x :=
  ⟨_, rfl, by simp [hran, hcarry, hdead, hnone, hsel, hjudge]⟩

/-- The block in which an insertion is counted, before the selected feed is turned on. -/
def Dev.insertionCounted (d : Dev) : Dev :=
  let b := d.updXfer fun x => { x with old := none, insertion := true, start := d.now, count := inc16 x.count }
  if b.led.freeze then b.freezeBegin else b

theorem Dev.startInsertion_eq (d : Dev) (x : FeedId) : d.startInsertion x = d.insertionCounted.turnOn x := rfl

theorem Dev.insertionCounted_onlyIn (d : Dev) : Dev.onlyIn [.adm, .xfer] d d.insertionCounted :=
  Dev.onlyIn_ite (Dev.onlyIn_via (Dev.freezeBegin_onlyIn _) (by decide) (Dev.onlyIn_mono (Dev.updXfer_onlyIn _ _) (by decide)))
    (Dev.onlyIn_mono (Dev.updXfer_onlyIn _ _) (by decide))

theorem Dev.insertionCounted_xfer (d : Dev) :
    d.insertionCounted.xfer = { d.xfer with old := none, insertion := true, start := d.now, count := inc16 d.xfer.count } := by
  unfold Dev.insertionCounted
  dsimp only
  split <;> rfl

/-! ### The interlock -/

/-- The block after TRANSFER_INTERLOCK_FAIL: the gates of feeds `n` and `o` commanded off (R252). -/
def Dev.interlocked (d : Dev) (o n : FeedId) : Dev := ((d.xferFail 3).feedPark n).feedFaultRaw o 10

theorem Dev.interlocked_onlyIn (d : Dev) (o n : FeedId) : Dev.onlyIn [.feedB, .stat, .feedA, .xfer, .fh] d (d.interlocked o n) :=
  Dev.onlyIn_via (Dev.feedFaultRaw_onlyIn _ _ _) (by decide)
    (Dev.onlyIn_via (Dev.feedPark_onlyIn _ _) (by decide) (Dev.onlyIn_mono (Dev.xferFail_onlyIn _ _) (by decide)))

theorem Dev.feed_xferFail (d : Dev) (code : Nat) (g : FeedId) : (d.xferFail code).feed g = d.feed g := Dev.feed_congr rfl rfl g

theorem Dev.feed_interlocked_old {d : Dev} {o n : FeedId} (h : o ≠ n) :
    ∃ delay, (d.interlocked o n).feed o = (d.feed o).failed delay := by
  have hfault := ((d.xferFail 3).feedPark n).feed_feedFaultRaw o o 10
  rw [if_pos rfl, Dev.feed_feedPark, if_neg h, Dev.feed_xferFail] at hfault
  exact ⟨_, hfault⟩

theorem Dev.feed_interlocked_new {d : Dev} {o n : FeedId} (h : o ≠ n) :
    (d.interlocked o n).feed n = (d.feed n).parked (d.feedValid n) := by
  rw [Dev.interlocked, Dev.feed_feedFaultRaw, if_neg h.symm, Dev.feed_feedPark, if_pos rfl,
    Dev.feedValid_congr (d.feed_xferFail 3 n) rfl, Dev.feed_xferFail]

theorem Dev.interlocked_xfer (d : Dev) (o n : FeedId) :
    (d.interlocked o n).xfer = { d.xfer with dead := none, new := none, lastDur := 0xFFFF, ilock := 0 } :=
  (Dev.feedFaultRaw_onlyIn _ _ _ .xfer (by decide)).trans (Dev.feedPark_onlyIn _ _ .xfer (by decide))

theorem Dev.statOf_interlocked (d : Dev) (o n : FeedId) :
    (d.interlocked o n).statOf 0x98 =
      ((d.statOf 0x98).occur 1 3).occur (10 + feedIdx o) (causeOf 0x98 (10 + feedIdx o)) := by
  rw [Dev.interlocked, Dev.statOf_feedFaultRaw, Dev.statOf_congr (Dev.feedPark_onlyIn _ n .stat (by decide)), Dev.xferFail,
    Dev.statOf_occurC_same]
  rfl

theorem execTransferInterlockFail_both {s : State} {o n : FeedId} (hran : s.d.xfer.ran = true) (hlock : 16 ≤ s.d.xfer.ilock)
    (hnew : s.d.xfer.new = some n) (hold : s.d.xfer.old = some o) :
    ∃ f : Dev → Dev, exec .transferInterlockFail s = done f s ∧ f s.d = s.d.interlocked o n :=
  ⟨_, rfl, by simp [hran, hlock, hnew, hold, Dev.interlocked]⟩

/-! ### The end of the dead time -/

theorem execTransferDeadEnd_eq {s : State} (hran : s.d.xfer.ran = true) (hjudge : s.d.judging = true) (hdead : s.d.xfer.dead = some 0) :
    ∃ f : Dev → Dev, exec .transferDeadEnd s = done f s ∧
      f s.d = match s.d.pick with
        | some x => s.d.turnOn x
        | none => s.d.xferFail 0x13 :=
  ⟨_, rfl, if_pos ⟨hdead, hjudge, hran⟩⟩

/-- Settles O26: a transfer parks the carrying feed, an insertion and the end of the dead time turn one on, and the interlock faults
the old feed. -/
theorem feedTransfers : Obligations.FeedTransfers := by
  refine ⟨fun s cmd c hran hcarry hcmd hst => ?transfer, fun s x hran hcarry hdead hnone hsel hjudge => ?insert,
    fun s hran hjudge hdead => ?deadEnd, fun s o n hran hlock hnew hold hne => ?interlock⟩
  case transfer =>
    obtain ⟨rfl, hdead, x, hsel, hx⟩ | ⟨rfl, hjudge, hstill, hdead, hback⟩ := hcmd
    · obtain ⟨f, hexec, hf⟩ := execFeedTransfer_from hran hcarry hdead hsel hx hst
      exact completes_startTransfer hexec hf hst
    · obtain ⟨f, hexec, hf⟩ := execFeedReturn_from hran hcarry hjudge hstill hdead hback
      exact completes_startTransfer hexec hf hst
  case insert =>
    obtain ⟨f, hexec, hf⟩ := execFeedTransfer_insert hran hcarry hdead hnone hsel hjudge
    have hcounted := s.d.insertionCounted_onlyIn
    have hfeed (g : FeedId) : s.d.insertionCounted.feed g = s.d.feed g :=
      Dev.feed_congr (hcounted .feedA (by decide)) (hcounted .feedB (by decide)) g
    rw [Dev.startInsertion_eq] at hf
    refine completes_done hexec hf (Dev.onlyIn_via (Dev.turnOn_onlyIn _ _) (by decide) (Dev.onlyIn_mono hcounted (by decide)))
      ⟨?_, ?_, ?_, ?_, ?_, ?_, ?_⟩
    · rw [Dev.feed_turnOn, if_pos rfl]
    · rw [Dev.feed_turnOn, if_pos rfl]
    · rw [Dev.feed_turnOn, if_neg (otherFeed_ne x), hfeed]
    · rw [Dev.turnOn_xfer]
    · rw [Dev.turnOn_xfer, Dev.insertionCounted_xfer]
    · rw [Dev.turnOn_xfer, Dev.insertionCounted_xfer]
    · rw [Dev.turnOn_onlyIn _ _ .stat (by decide), hcounted .stat (by decide)]
  case deadEnd =>
    obtain ⟨f, hexec, hf⟩ := execTransferDeadEnd_eq hran hjudge hdead
    cases hpick : s.d.pick with
    | some x =>
      rw [hpick] at hf
      refine completes_done hexec hf (Dev.onlyIn_mono (Dev.turnOn_onlyIn _ _) (by decide)) ⟨?_, ?_, ?_, ?_, ?_, ?_⟩
      · rw [Dev.turnOn_xfer]
      · rw [Dev.feed_turnOn, if_pos rfl]
      · rw [Dev.feed_turnOn, if_pos rfl]
      · rw [Dev.feed_turnOn, if_neg (otherFeed_ne x)]
      · rw [Dev.turnOn_xfer]
      · exact Dev.turnOn_onlyIn _ _ .stat (by decide)
    | none =>
      rw [hpick] at hf
      exact completes_done hexec hf (Dev.onlyIn_mono (Dev.xferFail_onlyIn _ _) (by decide))
        ⟨rfl, rfl, rfl, rfl, Dev.recordedC_occurC_of rfl _ _ _⟩
  case interlock =>
    obtain ⟨f, hexec, hf⟩ := execTransferInterlockFail_both hran hlock hnew hold
    obtain ⟨delay, hfailed⟩ := Dev.feed_interlocked_old (d := s.d) hne
    have hparked := Dev.feed_interlocked_new (d := s.d) hne
    refine completes_done hexec hf (s.d.interlocked_onlyIn o n)
      ⟨?_, ?_, ?_, ?_, s.d.interlocked_xfer o n, s.d.statOf_interlocked o n⟩
    · rw [hfailed]; rfl
    · rw [hfailed]; rfl
    · rw [hparked]; rfl
    · rw [hparked]; rfl

end Sys2Proof.Machine
end

section
/-! PROOF. Five invalid words of a current or of a precision channel (R207, R208, R258, R571). -/

namespace Sys2Proof.Machine

/-! ### Precision channels by number -/

theorem Dev.pre_congr {d e : Dev} (h : e.sense.pre = d.sense.pre) (c : Nat) : e.pre c = d.pre c :=
  congrArg (fun l => nth l c PreCh.reset) h

theorem Dev.pre_updPre_same (d : Dev) {c : Nat} (f : PreCh → PreCh) (h : c < d.sense.pre.length) :
    (d.updPre c f).pre c = f (d.pre c) := nth_updAt_same _ _ _ h

/-- The block with its fixed shape has 17 precision channels, 32 auxiliary inputs and 20 internal monitors. -/
theorem Dev.sense_length {d : Dev} (h : d.shape = true) :
    d.sense.pre.length = 17 ∧ d.sense.aux.inputs.length = 32 ∧ d.sense.intmon.length = 20 := by
  simp only [Dev.shape, Bool.and_eq_true, beq_iff_eq] at h
  tauto

theorem Dev.pre_lt {d : Dev} (h : d.shape = true) {c : Nat} (hc : c < 17) : c < d.sense.pre.length := by
  rw [(Dev.sense_length h).1]; exact hc

/-! ### What a trip records on the pages of sensing -/

theorem Dev.statOf_injStopRail {d : Dev} {q : Nat} (r cause : Nat) (hq : q ≠ 0xE0) :
    (d.injStopRail r cause).statOf q = d.statOf q := by
  unfold Dev.injStopRail Dev.injStop
  split_ifs
  · rfl
  · exact Dev.statOf_occur_other _ 0 hq
  · rfl
  · rfl

/-- The trip of a rail records its cause, and beside it something on the pages of the injections and of the members alone. -/
theorem Dev.statOf_tripRailBy_other {d : Dev} (r : Nat) {pg q : Nat} (bit : Nat) (hpg : q ≠ pg) (hinj : q ≠ 0xE0) (hfh : q ≠ 0xA4) :
    (d.tripRailBy r pg bit).statOf q = d.statOf q := by
  have htri : (((d.injLeave r).triAll r).updRail r fun x => x.tripped (d.retryTicks r)).statOf q = (d.injLeave r).statOf q :=
    Dev.statOf_congr (Dev.triAll_onlyIn _ r .stat (by decide)) q
  exact (Dev.statOf_memberBlockFault r hfh).trans
    ((Dev.statOf_occur_other _ bit hpg).trans (htri.trans (Dev.statOf_injLeave r hinj)))

/-- A rail that trips for a cause of its own records nothing on the page of sensing. -/
theorem Dev.statOf_tripRail_sensing {d : Dev} {r : Nat} (hr : r < 4) (bit : Nat) :
    (d.tripRail r bit).statOf 0x80 = d.statOf 0x80 :=
  Dev.statOf_tripRailBy_other r bit (by unfold railPg; omega) (by decide) (by decide)

/-- A unit that leaves service records nothing on the page of sensing. -/
theorem Dev.statOf_faultUnit_sensing (d : Dev) (n : Nat) : (d.faultUnit n).statOf 0x80 = d.statOf 0x80 := by
  unfold Dev.faultUnit
  split
  · rfl
  next r hr =>
    have hinj (e : Dev) : (e.injStopRail r 5).statOf 0x80 = e.statOf 0x80 := Dev.statOf_injStopRail r 5 (by decide)
    split
    · rfl
    · unfold Dev.noPhase
      split
      · exact (Dev.statOf_tripRail_sensing (Dev.memberOf_lt hr) 4).trans (hinj _)
      · exact hinj _

/-! ### The unit that leaves service -/

/-- What leaving service does to the unit itself: nothing, the tri-state of a unit that was out already, or FAULT (R112, R571). -/
theorem Dev.unit_faultUnit_cases {d : Dev} (hlen : d.units.length = 64) {n : Nat} (hn : n < 64) :
    (d.faultUnit n).unit n = d.unit n ∨ (d.faultUnit n).unit n = { d.unit n with tri := true, duty := 0 } ∨
      (d.faultUnit n).unit n = (d.unit n).to .fault true := by
  have hsame : ∀ f : PhUnit → PhUnit, (d.updUnit n f).unit n = f (d.unit n) := fun f => d.unit_updUnit_same f (hlen ▸ hn)
  unfold Dev.faultUnit
  split
  · exact .inl rfl
  next r hr =>
    split
    · exact .inr (.inl (hsame _))
    · let faulted := d.updUnit n fun u => u.to .fault true
      have hinj : (faulted.injStopRail r 5).units = faulted.units := Dev.injStopRail_onlyIn faulted r 5 .units (by decide)
      have hfaulted : (faulted.injStopRail r 5).unit n = (d.unit n).to .fault true := (Dev.unit_congr hinj n).trans (hsame _)
      have hlen' : (faulted.injStopRail r 5).units.length = 64 := by rw [hinj]; exact (updAt_length _ _ _).trans hlen
      obtain h | h := Dev.unit_noPhase hlen' r hn
      · exact .inr (.inr (h.trans hfaulted))
      · rw [hfaulted, PhUnit.still, if_pos (.inl rfl)] at h
        exact .inr (.inr h)

theorem Dev.imonInv_faultUnit {d : Dev} (hlen : d.units.length = 64) {n : Nat} (hn : n < 64) :
    ((d.faultUnit n).unit n).imonInv = (d.unit n).imonInv := by
  obtain h | h | h := Dev.unit_faultUnit_cases hlen hn
  · rw [h]
  · rw [h]
  · rw [h]; rfl

/-! ### The commands -/

/-- IMON_INV of a unit is recorded and kept with the unit (R208). -/
def Dev.imonLost (d : Dev) (n : Nat) : Dev := (d.occur 0x80 4).updUnit n fun u => { u with imonInv := true }

theorem Dev.imonLost_onlyIn (d : Dev) (n : Nat) : Dev.onlyIn [.stat, .units] d (d.imonLost n) :=
  Dev.onlyIn_via (Dev.updUnit_onlyIn _ _ _) (by decide) (Dev.onlyIn_mono (Dev.occur_onlyIn _ _ _) (by decide))

theorem Dev.unit_imonLost {d : Dev} {n : Nat} (h : n < d.units.length) :
    (d.imonLost n).unit n = { d.unit n with imonInv := true } := (d.occur 0x80 4).unit_updUnit_same _ h

theorem Dev.statOf_imonLost (d : Dev) (n : Nat) : (d.imonLost n).statOf 0x80 = (d.statOf 0x80).occur 4 5 :=
  d.statOf_occur_same 0x80 4

/-- A precision channel is recorded as invalid (R208). -/
def Dev.preLost (d : Dev) (c : Nat) : Dev := (d.occur 0x80 5).updPre c fun p => { p with invalid := true }

theorem Dev.preLost_onlyIn (d : Dev) (c : Nat) : Dev.onlyIn [.stat, .sense] d (d.preLost c) :=
  Dev.onlyIn_via (Dev.updPre_onlyIn _ _ _) (by decide) (Dev.onlyIn_mono (Dev.occur_onlyIn _ _ _) (by decide))

theorem Dev.statOf_preLost (d : Dev) (c : Nat) : (d.preLost c).statOf 0x80 = (d.statOf 0x80).occur 5 6 :=
  d.statOf_occur_same 0x80 5

/-- The channel that a block with the sensing of `preLost` shows, and the rest of sensing (R208). -/
theorem Dev.preLost_shown {d e : Dev} {c : Nat} (h : c < d.sense.pre.length) (he : e.sense = (d.preLost c).sense) :
    e.pre c = { d.pre c with invalid := true } ∧ sameBut c d.sense.pre e.sense.pre ∧
      e.sense = { d.sense with pre := e.sense.pre } := by
  rw [Dev.pre_congr (congrArg SenseSt.pre he), he]
  exact ⟨(d.occur 0x80 5).pre_updPre_same _ h, sameBut_updAt _ _ _, rfl⟩

theorem completes_imonInvalid {s : State} {n : Fin 64} (hbad : 5 ≤ (s.d.unit n).badRun)
    (hnew : (s.d.unit n).imonInv = false) :
    Completes (.imonInvalid n) s [.stat, .inj, .fh, .units, .rails] fun e => e = (s.d.imonLost n).faultUnit n :=
  completes_done rfl (if_pos ⟨hbad, hnew⟩)
    (Dev.onlyIn_via (Dev.faultUnit_onlyIn _ _) (by decide) (Dev.onlyIn_mono (s.d.imonLost_onlyIn n) (by decide))) rfl

theorem completes_preInvalid {s : State} {c : Fin 17} (hc : c.val < 16) (hbad : 5 ≤ (s.d.pre c).badRun)
    (hnew : (s.d.pre c).invalid = false) :
    Completes (.preInvalid c) s [.stat, .inj, .fh, .units, .sense, .rails] fun e =>
      e = if c.val < 4 ∧ (s.d.rail c).st.switching then (s.d.preLost c).tripRail c 3 else s.d.preLost c := by
  have hlost := Dev.onlyIn_mono (s.d.preLost_onlyIn c) (l := [.stat, .inj, .fh, .units, .sense, .rails]) (by decide)
  exact completes_done rfl (if_pos ⟨hc, hbad, hnew⟩)
    (Dev.onlyIn_ite (Dev.onlyIn_via (Dev.tripRail_onlyIn _ _ _) (by decide) hlost) hlost) rfl

/-- Settles O36: an invalid current by the unit's way out of service, an invalid channel by the trip of the rail that it senses. -/
theorem invalidWords : Obligations.InvalidWords := by
  refine ⟨fun s n hshape hbad hnew => ?imon, fun s c hshape hc hbad hnew => ?pre⟩
  case imon =>
    refine (completes_imonInvalid hbad hnew).imp fun e he => ?_
    have hlen : (s.d.imonLost n).units.length = 64 := (updAt_length _ _ _).trans (Dev.array_length hshape).1
    have hunit := Dev.unit_imonLost (d := s.d) (Dev.unit_lt hshape n.isLt)
    subst he
    refine ⟨?_, (Dev.statOf_faultUnit_sensing _ _).trans (s.d.statOf_imonLost n), fun hfree => ?_, fun hmember => ?_⟩
    · rw [Dev.imonInv_faultUnit hlen n.isLt, hunit]
    · have hstands : (s.d.imonLost n).faultUnit n = s.d.imonLost n := by
        have hfree' : (s.d.imonLost n).memberOf n = none := hfree
        rw [Dev.faultUnit, hfree']
      rw [hstands]
      exact ⟨hunit, rfl, sameBut_updAt _ _ _⟩
    · obtain ⟨hst, htri, hduty, -⟩ := Dev.unit_faultUnit (d := s.d.imonLost n) hlen n.isLt hmember
      rw [hunit] at hst
      exact ⟨hst, htri, hduty⟩
  case pre =>
    refine (completes_preInvalid hc hbad hnew).imp fun e he => ?_
    have hlt := Dev.pre_lt hshape c.isLt
    split_ifs at he ⊢ with htrips
    · obtain ⟨hr, -⟩ := htrips
      have hsense : e.sense = (s.d.preLost c).sense := by rw [he]; exact Dev.tripRail_onlyIn _ _ _ .sense (by decide)
      obtain ⟨hpre, hothers, hrest⟩ := Dev.preLost_shown hlt hsense
      have hrail : e.rail c = (s.d.rail c).tripped (s.d.retryTicks c) := by
        rw [he]; exact Dev.rail_tripRailBy (d := s.d.preLost c) (Dev.rail_lt hshape ⟨c, hr⟩) _ _
      have hpage : (s.d.preLost c).statOf (railPg c) = s.d.statOf (railPg c) :=
        s.d.statOf_occur_other 5 (by unfold railPg; omega)
      refine ⟨hpre, hothers, hrest, ?_, ?_, ?_, ?_, ?_⟩
      · rw [he]; exact (Dev.statOf_tripRail_sensing hr 3).trans (s.d.statOf_preLost c)
      · rw [hrail]; rfl
      · rw [hrail]; rfl
      · rw [he, Dev.statOf_tripRail hr, hpage]
      · rw [he]; exact Dev.sameBut_tripRailBy (s.d.preLost c) c (railPg c) 3
    · obtain ⟨hpre, hothers, hrest⟩ := Dev.preLost_shown hlt (congrArg Dev.sense he)
      rw [he] at hpre hothers hrest ⊢
      exact ⟨hpre, hothers, hrest, s.d.statOf_preLost c, rfl, rfl, rfl, rfl⟩

end Sys2Proof.Machine
end

section
/-! PROOF. Results of metrology and of the references, of the auxiliary sequencer and of the internal monitors (R204, R214 to R227). -/

namespace Sys2Proof.Machine

/-! ### Metrology (R204, R214, R215) -/

/-- The channel whose configuration scales a result of channel `c`: for PRE16 the one that it is connected to (R239). -/
def CalSt.scaledAs (k : CalSt) (c : Nat) : Nat := if c = 16 then k.spareFor.getD 16 else c

/-- The modulator behind a result of channel `c`: the spare of a substituted channel (R231). -/
def CalSt.modulatorOf (k : CalSt) (c : Nat) : Nat := if k.preSubst = c then 16 else c

/-- A 24-bit result of channel `c`, trimmed and scaled (R206, R214). -/
def Dev.metValue (d : Dev) (c : Nat) (raw : BitVec 24) : Int :=
  let p := d.pre (d.sense.cal.modulatorOf c)
  let q := d.sense.cal.scaledAs c
  let y := (raw.toInt + 8 * signed 16 p.offTrim) * (2 ^ 18 + signed 16 p.gainTrim)
  Config.rdiv 75 (d.preScaled d.vref q y (8 * d.preDen q)) (8 * d.preDen q)

/-- The result lies outside the range of its channel (R215). -/
def Dev.metOutside (d : Dev) (c : Nat) (raw : BitVec 24) : Bool :=
  let lim : Int := 32767 * 2 ^ preShift (d.sense.cal.scaledAs c)
  decide (lim < d.metValue c raw) || decide (d.metValue c raw < -lim)

/-- The six output periods of R215 have not passed for channel `c`. -/
def Dev.metEarly (d : Dev) (c : Nat) : Bool :=
  decide (d.now < (d.pre c).metSince + metTicks (bits (d.preReg (d.sense.cal.scaledAs c) 0x40) 11 8))

/-- Channel `c` with a result and its flags (R215). -/
def Dev.metPut (d : Dev) (c : Nat) (raw : BitVec 24) (p : PreCh) : PreCh :=
  { p with met := sat32 (d.metValue c raw), metCount := (p.metCount + 1) % 65536, metUnset := d.metEarly c,
           metRef := p.refLow || !d.sense.ref.settled, metOver := d.metOutside c raw,
           metSub := d.sense.cal.preSubst == c, refLow := !d.sense.ref.settled }

/-- A result of channel `c` is stored, and recorded where it lies outside the range. -/
def Dev.metStored (d : Dev) (c : Nat) (raw : BitVec 24) : Dev :=
  let e := d.updPre c (d.metPut c raw)
  if d.metOutside c raw then e.occur (prePg c) 1 else e

theorem execMetrologyResult_eq (c : Fin 17) (raw : BitVec 24) (s : State) :
    exec (.metrologyResult c raw) s = done (fun d => if c.val = 14 ∨ c.val = 15 then d else d.metStored c raw) s := by
  refine congrArg (done · s) (funext fun d => if_congr Iff.rfl rfl ?_)
  simp only [beq_iff_eq]
  rfl

theorem Dev.metStored_onlyIn (d : Dev) (c : Nat) (raw : BitVec 24) : Dev.onlyIn [.stat, .sense] d (d.metStored c raw) :=
  have hput := Dev.onlyIn_mono (d.updPre_onlyIn c (d.metPut c raw)) (l := [.stat, .sense]) (by decide)
  Dev.onlyIn_ite (Dev.onlyIn_via (Dev.occur_onlyIn _ _ _) (by decide) hput) hput

/-- What lies outside the range is recorded as OVERRANGE of the channel's page. -/
theorem Dev.recorded_metStored (d : Dev) (c : Nat) (raw : BitVec 24) :
    if 32767 * 2 ^ preShift (d.sense.cal.scaledAs c) < d.metValue c raw ∨
        d.metValue c raw < -(32767 * 2 ^ preShift (d.sense.cal.scaledAs c)) then
      d.metOutside c raw = true ∧ d.recorded (d.metStored c raw) (prePg c) 1
    else d.metOutside c raw = false ∧ (d.metStored c raw).stat = d.stat := by
  have hout : d.metOutside c raw = true ↔ 32767 * 2 ^ preShift (d.sense.cal.scaledAs c) < d.metValue c raw ∨
      d.metValue c raw < -(32767 * 2 ^ preShift (d.sense.cal.scaledAs c)) := by
    simp only [Dev.metOutside, Bool.or_eq_true, decide_eq_true_eq]
  rw [if_congr hout.symm rfl rfl, Dev.metStored]
  split
  next h => exact ⟨h, Dev.recorded_occur_of rfl _ _⟩
  next h => exact ⟨Bool.eq_false_iff.mpr h, rfl⟩

theorem Dev.sense_metStored (d : Dev) (c : Nat) (raw : BitVec 24) :
    (d.metStored c raw).sense = { d.sense with pre := updAt d.sense.pre c (d.metPut c raw) } := by
  unfold Dev.metStored
  split
  · rfl
  · rfl

theorem Dev.pre_metStored {d : Dev} {c : Nat} (raw : BitVec 24) (h : c < d.sense.pre.length) :
    (d.metStored c raw).pre c = d.metPut c raw (d.pre c) := by
  rw [Dev.pre, Dev.sense_metStored]
  exact nth_updAt_same _ _ _ h

/-! ### The references (R216 to R219) -/

/-- A fallback takes another reference into use and records it (R219). -/
theorem Dev.fallback_onlyIn (d : Dev) (sel : Nat) (fb : Bool) : Dev.onlyIn [.stat, .sense] d ((d.newRef sel fb).occur 0x81 1) :=
  Dev.onlyIn_via (Dev.occur_onlyIn _ _ _) (by decide) (Dev.onlyIn_mono (Dev.updRef_onlyIn _ _) (by decide))

/-! ### The auxiliary sequencer (R220 to R225) -/

/-- The input of the step in progress. -/
def Dev.auxInput (d : Dev) : Nat := bits (d.auxEntry d.sense.aux.entry) 4 0

/-- The full scale of the step in progress (R222). -/
def Dev.auxFull (d : Dev) : Int := Config.rdiv 8 d.vref (2 ^ bits (d.auxEntry d.sense.aux.entry) 9 8)

/-- The average of the step's words lies outside the range of its input (R224). -/
def Dev.auxOutside (d : Dev) : Bool :=
  let n : Int := auxWords (d.auxEntry d.sense.aux.entry)
  decide (d.sense.aux.acc1 * 1000 < -5 * n * 32768) || decide (1005 * n * 32768 < d.sense.aux.acc1 * 1000)

/-- The open-wire test of the step finds an open wire (R225). -/
def Dev.auxOpen (d : Dev) : Bool :=
  let q := d.sense.aux
  let e := d.auxEntry q.entry
  let n : Int := auxWords e
  let diff := if q.acc1 < q.acc2 then q.acc2 - q.acc1 else q.acc1 - q.acc2
  owTest e && decide ((d.fld 0x82 0x40 31 24 : Int) * n * 32768 * 65536 < diff * d.auxFull * 100)

/-- An input with the result of the step in progress. -/
def Dev.auxPut (d : Dev) (x : AuxIn) : AuxIn :=
  let q := d.sense.aux
  let e := d.auxEntry q.entry
  { x with res := Config.rdiv 9 (q.acc1 * d.auxFull) ((auxWords e : Int) * 32768), entry := q.entry, gain := bits e 9 8, age := 0,
           stale := false, overF := d.auxOutside, openWire := if owTest e then d.auxOpen else x.openWire, badWord := q.bad,
           unsettled := q.refLow, full := d.auxFull }

/-- The result of the step is stored for its input, and what it shows is recorded. -/
def Dev.auxStored (d : Dev) : Dev :=
  let stored := d.updAux fun q => { q with inputs := updAt q.inputs d.auxInput d.auxPut }
  let tested := if d.auxOpen then stored.occur 0x82 0 else stored
  if d.auxOutside then tested.occur 0x82 1 else tested

theorem execAuxStepDone_eq (s : State) :
    exec .auxStepDone s =
      done (fun d => if !d.sense.aux.due then d else if d.sense.aux.gap then d.auxNext
        else d.auxStored.auxNext.auxDone d.auxInput) s := rfl

theorem Dev.auxStored_onlyIn (d : Dev) : Dev.onlyIn [.stat, .sense] d d.auxStored := by
  unfold Dev.auxStored
  extract_lets stored tested
  have hstored : Dev.onlyIn [.stat, .sense] d stored := Dev.onlyIn_mono (Dev.updAux_onlyIn _ _) (by decide)
  have htested : Dev.onlyIn [.stat, .sense] d tested :=
    Dev.onlyIn_ite (Dev.onlyIn_via (Dev.occur_onlyIn _ _ _) (by decide) hstored) hstored
  exact Dev.onlyIn_ite (Dev.onlyIn_via (Dev.occur_onlyIn _ _ _) (by decide) htested) htested

theorem Dev.sense_auxStored (d : Dev) :
    d.auxStored.sense =
      { d.sense with aux := { d.sense.aux with inputs := updAt d.sense.aux.inputs d.auxInput d.auxPut } } := by
  unfold Dev.auxStored
  extract_lets stored tested
  have htested : tested.sense = stored.sense := by
    unfold tested
    split
    · rfl
    · rfl
  split
  · exact htested
  · exact htested

/-- The sequence after the step of entry `q.entry`, where the table has `len` entries. -/
def AuxSeq.next (q : AuxSeq) (len : Nat) : AuxSeq :=
  { q with entry := if len ≤ q.entry + 1 then 0 else q.entry + 1,
           passes := if len ≤ q.entry + 1 then satInc 65535 q.passes else q.passes, pos := 0,
           acc1 := 0, acc2 := 0, bad := false, gap := false, refLow := false, due := false }

theorem Dev.sense_auxNext (d : Dev) :
    d.auxNext.sense = { d.sense with aux := d.sense.aux.next (d.fld 0x82 0x40 8 0) } := by
  simp only [Dev.auxNext, Dev.updAux_sense, AuxSeq.next, decide_eq_true_eq]

/-- The sequence with the result of its step stored, at its next step. -/
def Dev.auxAfter (d : Dev) : AuxSeq :=
  let q := { d.sense.aux with inputs := updAt d.sense.aux.inputs d.auxInput d.auxPut }
  q.next (d.fld 0x82 0x40 8 0)

theorem Dev.sense_auxDone (d : Dev) :
    (d.auxStored.auxNext.auxDone d.auxInput).sense = { d.sense with aux := d.auxAfter } := by
  have hdone : (d.auxStored.auxNext.auxDone d.auxInput).sense = d.auxStored.auxNext.sense :=
    Dev.auxDone_onlyIn _ _ .sense (by decide)
  rw [hdone, Dev.sense_auxNext, Dev.sense_auxStored, Dev.fld_congr (d.auxStored_onlyIn .regs (by decide))]
  rfl

theorem Dev.auxIn_auxDone {d : Dev} (h : d.sense.aux.inputs.length = 32) :
    (d.auxStored.auxNext.auxDone d.auxInput).auxIn (bits (d.auxEntry d.sense.aux.entry) 4 0) = d.auxPut (d.auxIn d.auxInput) := by
  have hlt : d.auxInput < d.sense.aux.inputs.length := h ▸ Nat.mod_lt _ (by decide)
  rw [Dev.auxIn, Dev.sense_auxDone]
  exact nth_updAt_same _ _ _ hlt

theorem Dev.auxOutside_iff (d : Dev) :
    d.auxOutside = true ↔
      d.sense.aux.acc1 * 1000 < -5 * (auxWords (d.auxEntry d.sense.aux.entry) : Int) * 32768 ∨
        1005 * (auxWords (d.auxEntry d.sense.aux.entry) : Int) * 32768 < d.sense.aux.acc1 * 1000 := by
  simp only [Dev.auxOutside, Bool.or_eq_true, decide_eq_true_eq]

theorem completes_auxStep_gap {s : State} (hdue : s.d.sense.aux.due = true) (hgap : s.d.sense.aux.gap = true) :
    Completes .auxStepDone s [.stat, .bbus, .nv, .therm, .sense] fun e => e = s.d.auxNext :=
  completes_done (execAuxStepDone_eq s) ((if_neg (by rw [hdue]; decide)).trans (if_pos hgap))
    (Dev.onlyIn_mono (Dev.auxNext_onlyIn _) (by decide)) rfl

theorem completes_auxStep_result {s : State} (hdue : s.d.sense.aux.due = true) (hgap : s.d.sense.aux.gap = false) :
    Completes .auxStepDone s [.stat, .bbus, .nv, .therm, .sense] fun e => e = s.d.auxStored.auxNext.auxDone s.d.auxInput :=
  completes_done (execAuxStepDone_eq s) ((if_neg (by rw [hdue]; decide)).trans (if_neg (by rw [hgap]; decide)))
    (Dev.onlyIn_via (Dev.auxDone_onlyIn _ _) (by decide)
      (Dev.onlyIn_via (Dev.auxNext_onlyIn _) (by decide) (Dev.onlyIn_mono (Dev.auxStored_onlyIn _) (by decide)))) rfl

/-! ### Internal monitors (R227, R359) -/

/-- The conversion of monitor `i` is stored. -/
def Dev.intStored (d : Dev) (i : Nat) (sum : Int) (low : Bool) : Dev :=
  { d with sense := { d.sense with
      intDue := none, intmon := updAt d.sense.intmon i fun _ => Config.monitorScale i sum d.vref,
      intUns := updAt d.sense.intUns i fun _ => low } }

theorem Dev.intStored_onlyIn (d : Dev) (i : Nat) (sum : Int) (low : Bool) : Dev.onlyIn [.sense] d (d.intStored i sum low) :=
  Dev.onlyIn_put_sense (Dev.onlyIn_refl _ _) (by decide)

theorem execIntmonResult_due {s : State} {i : Fin 20} {sum : Int} {low : Bool} (h : s.d.sense.intDue = some (i.val, sum, low)) :
    ∃ f, exec (.intmonResult i) s = done f s ∧ f s.d = (s.d.intStored i sum low).intmonDone i := by
  refine ⟨_, rfl, ?_⟩
  dsimp only
  rw [h]
  exact if_pos rfl

theorem execIntmonResult_other {s : State} {i : Fin 20} (h : s.d.sense.intDue.map (fun w => w.1) ≠ some i.val) :
    exec (.intmonResult i) s = .next s := by
  refine done_self ?_
  split
  next k sum low hdue =>
    rw [hdue] at h
    exact if_neg fun hk => h (congrArg some hk)
  · rfl

theorem Dev.safe_enterSafe (d : Dev) (kind : Nat) : (d.enterSafe kind).die.safe = true := by
  by_cases h : d.die.safe = true
  · rw [Dev.enterSafe, if_pos h]; exact h
  · exact (Dev.enterSafe_entered (Bool.not_eq_true _ ▸ h) kind).safe

/-- The second result in a row at or above S_SHUT enters the safe state (R359). -/
theorem Dev.safe_intmonDone {d : Dev} {i : Nat} (hi : i < d.therm.sShut.length) (hdie : i < 11)
    (hsus : bitAt d.therm.susS i = false) (hhot : d.shutOf 1 ≤ nth d.sense.intmon i 0) (hfirst : 1 ≤ nth d.therm.sShut i 0)
    (hmax : nth d.therm.sShut i 0 < 3) : (d.intmonDone i).die.safe = true := by
  have hsecond : satInc 2 (nth d.therm.sShut i 0) = 2 := by unfold satInc; split <;> omega
  unfold Dev.intmonDone
  rw [if_neg (by omega)]
  dsimp only [Dev.updTherm]
  rw [hsus, nth_updAt_same _ _ _ hi, if_neg Bool.false_ne_true, if_pos hhot, hsecond, if_pos rfl]
  exact Dev.safe_enterSafe _ _

/-- Settles O37: each result by what it stores; the safe state by the second result of a die S sensor above its limit. -/
theorem measurements : Obligations.Measurements := by
  refine ⟨fun s c raw hshape h14 h15 => ?metrology, fun s c raw hc => ?none, fun s hleft => ?settled, fun s huse hbad => ?fallback,
    fun s hshape hdue => ?aux, fun s a hshape hfull hstale hage => ?stale, fun s i sum low hshape hdue => ?monitor,
    fun s i hother => execIntmonResult_other hother⟩
  case metrology =>
    have hpre := Dev.pre_metStored (d := s.d) raw (Dev.pre_lt hshape c.isLt)
    have hsense := s.d.sense_metStored c raw
    refine completes_done (execMetrologyResult_eq c raw s) (if_neg (by omega)) (s.d.metStored_onlyIn c raw) ?_
    dsimp only
    rw [hpre]
    refine ⟨rfl, rfl, decide_eq_true_iff, rfl, rfl, beq_iff_eq, rfl, ?_, ?_, s.d.recorded_metStored c raw⟩
    · rw [hsense]; exact sameBut_updAt _ _ _
    · rw [hsense]
  case none => exact done_self (if_pos hc)
  case settled => exact completes_done rfl (if_pos hleft) (Dev.updRef_onlyIn _ _) rfl
  case fallback => exact completes_done rfl (if_pos ⟨huse, hbad⟩) (Dev.fallback_onlyIn _ _ _) ⟨rfl, Dev.recorded_occur_of rfl _ _⟩
  case aux =>
    cases hgap : s.d.sense.aux.gap with
    | true =>
      refine (completes_auxStep_gap hdue hgap).imp fun e he => ?_
      have hsense : e.sense = _ := (congrArg Dev.sense he).trans s.d.sense_auxNext
      dsimp only
      rw [hsense, he, if_pos hgap]
      exact ⟨rfl, rfl, rfl, rfl, rfl, rfl, rfl, rfl, rfl, rfl, rfl⟩
    | false =>
      refine (completes_auxStep_result hdue hgap).imp fun e he => ?_
      have hsense : e.sense = _ := (congrArg Dev.sense he).trans s.d.sense_auxDone
      have hin := Dev.auxIn_auxDone (d := s.d) (Dev.sense_length hshape).2.1
      rw [← he] at hin
      dsimp only
      rw [hsense, hin, if_neg (Bool.eq_false_iff.mp hgap)]
      exact ⟨rfl, rfl, rfl, rfl, rfl, rfl, sameBut_updAt _ _ _, rfl, rfl, rfl, rfl, rfl, rfl, rfl, s.d.auxOutside_iff⟩
  case stale =>
    have hin : (s.d.updAux fun q => { q with inputs := updAt q.inputs a fun x => { x with stale := true } }).auxIn a =
        { s.d.auxIn a with stale := true } :=
      nth_updAt_same _ _ _ (by rw [(Dev.sense_length hshape).2.1]; exact a.isLt)
    refine completes_done rfl (if_pos ⟨hfull, hstale, hage⟩)
      (Dev.onlyIn_via (Dev.occur_onlyIn _ _ _) (by decide) (Dev.onlyIn_mono (Dev.updAux_onlyIn _ _) (by decide)))
      ⟨hin, ?_, sameBut_updAt _ _ _, Dev.recorded_occur_of rfl _ _⟩
    exact (congrArg AuxIn.invalid hin).trans (Bool.or_true _)
  case monitor =>
    obtain ⟨f, hexec, hf⟩ := execIntmonResult_due hdue
    have hsense : ((s.d.intStored i sum low).intmonDone i).sense = (s.d.intStored i sum low).sense :=
      Dev.intmonDone_onlyIn _ _ .sense (by decide)
    have hval : nth (s.d.intStored i sum low).sense.intmon i 0 = Config.monitorScale i sum s.d.vref :=
      nth_updAt_same _ _ _ (by rw [(Dev.sense_length hshape).2.2]; exact i.isLt)
    refine completes_done hexec hf
      (Dev.onlyIn_via (Dev.intmonDone_onlyIn _ _) (by decide) (Dev.onlyIn_mono (s.d.intStored_onlyIn _ _ _) (by decide))) ?_
    dsimp only
    rw [hsense]
    refine ⟨hval, sameBut_updAt _ _ _, rfl, rfl, fun hlen => ?_, fun hcore => ?_, fun hlen hdie hsus hhot hfirst hmax => ?_⟩
    · exact nth_updAt_same _ _ _ (by rw [hlen]; exact i.isLt)
    · rw [Dev.intmonDone, if_pos hcore]; rfl
    · exact Dev.safe_intmonDone (d := s.d.intStored i sum low) (hlen ▸ hdie) hdie hsus (by rw [hval]; exact hhot) hfirst hmax

end Sys2Proof.Machine
end

section
/-! PROOF. Calibration by spare rotation: the commands of a window in its order (R226, R228 to R234). -/

namespace Sys2Proof.Machine

/-! ### CAL_WINDOW_START (R228, R232) -/

/-- A window in progress from frond 0, without a spare. -/
def CalSt.begun (c : CalSt) : CalSt :=
  { c with due := false, running := true, frond := 0, takeover := false, idle := false, testFail := false, measured := false,
           spareOn := false, restart := false, diffAcc := 0, diffN := 0, owA := 0, owAN := 0, owB := 0, owBN := 0 }

/-- The window passes without action and is counted as deferred. -/
def Dev.calDeferred (d : Dev) (w : Nat) : Dev :=
  (d.updCal fun c => { c with idle := true, deferCount := satInc 65535 c.deferCount, deferLast := w }).occur 0x80 3

/-- The window that is due begins, with its spare or without one, or is deferred. -/
def Dev.calStarted (d : Dev) : Dev :=
  let w := d.sense.cal.window
  let b := d.updCal CalSt.begun
  if winIsSpare w then b
  else if d.sense.cal.spareFree w then b.updCal fun c => { c with spareOn := true }
  else if w < 72 ∧ d.windowOk w = true then b
  else b.calDeferred w

theorem execCalWindowStart_eq (s : State) :
    exec .calWindowStart s = done (fun d => if !d.sense.cal.due then d else d.calStarted) s := rfl

theorem Dev.calStarted_onlyIn (d : Dev) : Dev.onlyIn [.stat, .sense] d d.calStarted := by
  have hbegun : Dev.onlyIn [.stat, .sense] d (d.updCal CalSt.begun) := Dev.onlyIn_mono (Dev.updCal_onlyIn _ _) (by decide)
  refine Dev.onlyIn_ite hbegun (Dev.onlyIn_ite ?_ (Dev.onlyIn_ite hbegun ?_))
  · exact Dev.onlyIn_via (Dev.updCal_onlyIn _ _) (by decide) hbegun
  · exact Dev.onlyIn_via (Dev.occur_onlyIn _ _ _) (by decide) (Dev.onlyIn_via (Dev.updCal_onlyIn _ _) (by decide) hbegun)

/-! ### CAL_TAKEOVER (R229, R232) -/

/-- The unit of a window leaves service for it. -/
def Dev.calUnitOut (d : Dev) : Dev :=
  (d.updCal fun c => { c with unitOut := true }).updUnit (winUnit d.sense.cal.window) fun u =>
    if u.st = .active ∨ u.st = .marked ∨ u.st = .ramp then u.to .idle true else u

/-- From frond 4 the spare carries the channel, or the unit is out of service. -/
def Dev.calTaken (d : Dev) : Dev :=
  if d.sense.cal.spareOn then d.updCal fun c => { c with takeover := true }
  else if d.sense.cal.window < 72 then d.calUnitOut
  else d

theorem execCalTakeover_eq (s : State) :
    exec .calTakeover s =
      done (fun d => if d.sense.cal.running && d.sense.cal.frond == 4 && !d.sense.cal.idle && !d.sense.cal.restart &&
        !winIsSpare d.sense.cal.window then d.calTaken else d) s := rfl

theorem Dev.calTaken_onlyIn (d : Dev) : Dev.onlyIn [.units, .sense] d d.calTaken :=
  Dev.onlyIn_ite (Dev.onlyIn_mono (Dev.updCal_onlyIn _ _) (by decide))
    (Dev.onlyIn_ite
      (Dev.onlyIn_via (Dev.updUnit_onlyIn _ _ _) (by decide) (Dev.onlyIn_mono (Dev.updCal_onlyIn _ _) (by decide)))
      (Dev.onlyIn_refl _ _))

/-- A window of a unit's own modulator names the unit by its cluster and its place there. -/
theorem winUnit_place {w : Nat} (h : winIsSpare w = false) (hw : w < 72) : winUnit w / 8 * 9 + winUnit w % 8 = w ∧ winUnit w < 64 := by
  have hplace : w % 9 ≠ 8 := by
    intro h8
    simp [winIsSpare, hw, h8] at h
  unfold winUnit
  omega

theorem Dev.unit_calUnitOut_not_active {d : Dev} (h : winUnit d.sense.cal.window < d.units.length) :
    (d.calUnitOut.unit (winUnit d.sense.cal.window)).st ≠ .active := by
  have hunit : d.calUnitOut.unit (winUnit d.sense.cal.window) = _ :=
    (d.updCal fun c => { c with unitOut := true }).unit_updUnit_same _ h
  rw [hunit]
  split
  · exact PhState.noConfusion
  next hst => exact fun hactive => hst (.inl hactive)

/-- A unit out for its calibration window is not usable (R79). -/
theorem Dev.usable_eq_false_of_unitOut {d : Dev} {n : Nat} (hout : d.sense.cal.unitOut = true)
    (hwin : n / 8 * 9 + n % 8 = d.sense.cal.window) : d.usable n = false := by
  simp [Dev.usable, hout, hwin]

/-! ### CAL_RECONNECT (R226, R229, R230) -/

/-- A window whose measurements have been made, and whose comparison begins. -/
def CalSt.measuredBy (c : CalSt) (m : CalMeas) : CalSt :=
  { c with testFail := calFails m, measured := true, diffAcc := 0, diffN := 0 }

/-- A failed self-test is recorded as CAL_FAIL. -/
def Dev.calMeasured (d : Dev) (m : CalMeas) : Dev :=
  let e := d.updCal fun c => c.measuredBy m
  if calFails m then e.occur 0x80 0 else e

/-- A precision channel with the trims measured, unless the self-test failed, and the outcome of an open-wire test. -/
def PreCh.reconnected (q : PreCh) (m : CalMeas) (test found : Bool) : PreCh :=
  { q with gainTrim := if calFails m then q.gainTrim else m.gainTrim.toNat,
           offTrim := if calFails m then q.offTrim else m.offTrim.toNat,
           openWire := if test then test && found else q.openWire }

/-- Precision channel `p` reconnected, its trims from before the window kept. -/
def Dev.preReconnected (d : Dev) (m : CalMeas) (p : Nat) (found : Bool) : Dev :=
  (d.updCal fun c => { c with oldGain := (d.pre p).gainTrim, oldOff := (d.pre p).offTrim }).updPre p fun q =>
    q.reconnected m d.openTest found

/-- The phase-current modulator of the window reconnected, its trims from before the window kept. -/
def CalSt.reconnected (c : CalSt) (m : CalMeas) : CalSt :=
  { c with oldGain := nth c.phGain c.window 0, oldOff := nth c.phOff c.window 0,
           phGain := if calFails m then c.phGain else updAt c.phGain c.window fun _ => m.gainTrim.toNat,
           phOff := if calFails m then c.phOff else updAt c.phOff c.window fun _ => m.offTrim.toNat }

/-- The modulator of the window returns to its input; an open wire that the test found is recorded. -/
def Dev.calReconnected (d : Dev) (m : CalMeas) : Dev :=
  let w := d.sense.cal.window
  let found := d.sense.cal.openFound
  let e := d.calMeasured m
  if 72 ≤ w then
    let t := e.preReconnected m (w - 72) found
    if e.openTest && found then t.occur (prePg (w - 72)) 0 else t
  else e.updCal fun c => c.reconnected m

theorem execCalReconnect_eq (m : CalMeas) (s : State) :
    exec (.calReconnect m) s =
      done (fun d => if d.sense.cal.running && d.sense.cal.frond == 56 && !d.sense.cal.idle && !d.sense.cal.restart then
        d.calReconnected m else d) s := rfl

theorem Dev.calMeasured_onlyIn (d : Dev) (m : CalMeas) : Dev.onlyIn [.stat, .sense] d (d.calMeasured m) := by
  have hmeas : Dev.onlyIn [.stat, .sense] d (d.updCal fun c => c.measuredBy m) :=
    Dev.onlyIn_mono (Dev.updCal_onlyIn _ _) (by decide)
  exact Dev.onlyIn_ite (Dev.onlyIn_via (Dev.occur_onlyIn _ _ _) (by decide) hmeas) hmeas

theorem Dev.sense_calMeasured (d : Dev) (m : CalMeas) :
    (d.calMeasured m).sense = { d.sense with cal := d.sense.cal.measuredBy m } := by
  unfold Dev.calMeasured
  split
  · rfl
  · rfl

theorem Dev.statOf_calMeasured {d : Dev} {m : CalMeas} (h : calFails m = true) :
    (d.calMeasured m).statOf 0x80 = (d.statOf 0x80).occur 0 1 := by
  rw [Dev.calMeasured, if_pos h]
  exact Dev.statOf_occur_same _ 0x80 0

theorem Dev.openTest_calMeasured (d : Dev) (m : CalMeas) : (d.calMeasured m).openTest = d.openTest := by
  have hfld (pg off hi lo : Nat) : (d.calMeasured m).fld pg off hi lo = d.fld pg off hi lo :=
    Dev.fld_congr (d.calMeasured_onlyIn m .regs (by decide)) pg off hi lo
  simp only [Dev.openTest, Dev.sense_calMeasured, hfld]
  rfl

theorem Dev.calReconnected_onlyIn (d : Dev) (m : CalMeas) : Dev.onlyIn [.stat, .sense] d (d.calReconnected m) := by
  have hmeas := d.calMeasured_onlyIn m
  have hpre : Dev.onlyIn [.stat, .sense] d
      ((d.calMeasured m).preReconnected m (d.sense.cal.window - 72) d.sense.cal.openFound) :=
    Dev.onlyIn_via (Dev.updPre_onlyIn _ _ _) (by decide) (Dev.onlyIn_via (Dev.updCal_onlyIn _ _) (by decide) hmeas)
  exact Dev.onlyIn_ite (Dev.onlyIn_ite (Dev.onlyIn_via (Dev.occur_onlyIn _ _ _) (by decide) hpre) hpre)
    (Dev.onlyIn_via (Dev.updCal_onlyIn _ _) (by decide) hmeas)

/-- The sensing after the window of a precision modulator. -/
theorem Dev.sense_calReconnected_pre {d : Dev} (m : CalMeas) (h : 72 ≤ d.sense.cal.window) :
    (d.calReconnected m).sense =
      let p := d.sense.cal.window - 72
      { d.sense with
        pre := updAt d.sense.pre p fun q => q.reconnected m d.openTest d.sense.cal.openFound,
        cal := { d.sense.cal.measuredBy m with oldGain := (d.pre p).gainTrim, oldOff := (d.pre p).offTrim } } := by
  have hpre : (d.calMeasured m).sense.pre = d.sense.pre := by rw [Dev.sense_calMeasured]
  have hsense : ((d.calMeasured m).preReconnected m (d.sense.cal.window - 72) d.sense.cal.openFound).sense = _ :=
    Dev.updPre_sense _ _ _
  rw [Dev.updCal_sense, Dev.openTest_calMeasured, Dev.pre_congr hpre, Dev.sense_calMeasured] at hsense
  rw [Dev.calReconnected, if_pos h]
  split
  · exact hsense
  · exact hsense

/-- The sensing after the window of a phase-current modulator. -/
theorem Dev.sense_calReconnected_phase {d : Dev} (m : CalMeas) (h : ¬72 ≤ d.sense.cal.window) :
    (d.calReconnected m).sense =
      { d.sense with cal := (d.sense.cal.measuredBy m).reconnected m } := by
  rw [Dev.calReconnected, if_neg h, Dev.updCal_sense, Dev.sense_calMeasured]

/-- The window records on the page of sensing no more than its measurements do. -/
theorem Dev.statOf_calReconnected {d : Dev} {m : CalMeas} (h : calFails m = true) :
    (d.calReconnected m).statOf 0x80 = (d.statOf 0x80).occur 0 1 := by
  have hpre (p : Nat) (found : Bool) : ((d.calMeasured m).preReconnected m p found).statOf 0x80 = (d.calMeasured m).statOf 0x80 :=
    Dev.statOf_congr rfl _
  have hphase (f : CalSt → CalSt) : ((d.calMeasured m).updCal f).statOf 0x80 = (d.calMeasured m).statOf 0x80 :=
    Dev.statOf_congr rfl _
  rw [← Dev.statOf_calMeasured h, Dev.calReconnected]
  dsimp only
  split_ifs
  · exact (Dev.statOf_occur_other _ 0 (by unfold prePg; omega)).trans (hpre _ _)
  · exact hpre _ _
  · exact hphase _

/-- An open wire found is recorded as OPEN_WIRE of the channel's page. -/
theorem Dev.stBit_calReconnected {d : Dev} (m : CalMeas) (h : 72 ≤ d.sense.cal.window) (htest : d.openTest = true)
    (hfound : d.sense.cal.openFound = true) : (d.calReconnected m).stBit (prePg (d.sense.cal.window - 72)) 0 = true := by
  rw [Dev.calReconnected, if_pos h, if_pos (by rw [Dev.openTest_calMeasured, htest, hfound]; rfl), Dev.stBit, Dev.status,
    Dev.statOf_occur_same, BlkStat.occur_status, bitAt_or, bitAt_two_pow]
  exact Bool.or_true _

/-- An element that is replaced unless `b` holds. -/
theorem nth_updAt_ite {α : Type} {l : List α} {i : Nat} (h : i < l.length) (b : Bool) (v d : α) :
    nth (if b then l else updAt l i fun _ => v) i d = if b then nth l i d else v := by
  split
  · rfl
  · exact nth_updAt_same _ _ _ h

theorem sameBut_updAt_ite {α : Type} (l : List α) (i : Nat) (b : Bool) (f : α → α) : sameBut i l (if b then l else updAt l i f) := by
  split
  · exact sameBut_refl _ _
  · exact sameBut_updAt _ _ _

/-! ### CAL_RETURN (R229 to R232) -/

/-- The comparison of a window's own word with the spare's fails. -/
def Dev.calDiffers (d : Dev) : Bool := !winIsSpare d.sense.cal.window && !d.sense.cal.unitOut && d.cmpFails

/-- The takeover ends; a comparison that failed gives back the trims from before the window. -/
def Dev.calEnded (d : Dev) : Dev :=
  let e := if d.calDiffers && !d.sense.cal.testFail then (d.occur 0x80 0).oldTrims else d
  e.updCal fun c => { c with takeover := false, unitOut := false }

/-- The spare of window `w` has failed; one that substitutes goes on doing so (R231). -/
def CalSt.spareOut (c : CalSt) (w : Nat) : CalSt :=
  if w < 72 then { c with subst := updAt c.subst (winCluster w) fun x => if x < 8 then x else 9 } else { c with preFailed := true }

/-- The modulator of window `w` is substituted by its spare (R231). -/
def CalSt.substituted (c : CalSt) (w : Nat) : CalSt :=
  if w < 72 then { c with subst := updAt c.subst (winCluster w) fun _ => w % 9 } else { c with preSubst := w - 72 }

/-- Modulator `w` has failed: a spare itself, one that its spare, connected where `spare` holds, substitutes, or one without. -/
def Dev.calFailed (d : Dev) (w : Nat) (spare : Bool) : Dev :=
  if winIsSpare w then (d.updCal fun c => c.spareOut w).occur 0x80 2
  else if spare then (d.updCal fun c => c.substituted w).occur 0x80 1
  else if w < 72 then d.updCal fun c => { c with failed := updAt c.failed w fun _ => true }
  else (d.updPre (w - 72) fun q => { q with failed := true }).occur (prePg (w - 72)) 2

/-- The window's modulator failed its self-test or its comparison (R230). -/
def Dev.calBad (d : Dev) : Bool := d.sense.cal.testFail || d.calDiffers

/-- The window ends with its modulator good or failed. -/
def Dev.calReturned (d : Dev) : Dev :=
  if !d.calBad then d.calEnded else d.calEnded.calFailed d.sense.cal.window d.sense.cal.spareOn

theorem execCalReturn_eq (s : State) :
    exec .calReturn s =
      done (fun d => if d.sense.cal.running && d.sense.cal.frond == 62 && !d.sense.cal.idle && !d.sense.cal.restart then
        d.calReturned else d) s := rfl

theorem Dev.calReturned_good {d : Dev} (h : d.calBad = false) : d.calReturned = d.calEnded := by
  rw [Dev.calReturned, h]; rfl

theorem Dev.calReturned_bad {d : Dev} (h : d.calBad = true) :
    d.calReturned = d.calEnded.calFailed d.sense.cal.window d.sense.cal.spareOn := by
  rw [Dev.calReturned, h]; rfl

theorem Dev.calBad_of_differs {d : Dev} (h : d.calDiffers = true) : d.calBad = true := by rw [Dev.calBad, h, Bool.or_true]

theorem Dev.calDiffers_of_spare {d : Dev} (h : winIsSpare d.sense.cal.window = true) : d.calDiffers = false := by
  rw [Dev.calDiffers, h]; rfl

theorem Dev.calEnded_onlyIn (d : Dev) : Dev.onlyIn [.stat, .sense] d d.calEnded :=
  Dev.onlyIn_via (Dev.updCal_onlyIn _ _) (by decide)
    (Dev.onlyIn_ite
      (Dev.onlyIn_via (Dev.oldTrims_onlyIn _) (by decide) (Dev.onlyIn_mono (Dev.occur_onlyIn _ _ _) (by decide)))
      (Dev.onlyIn_refl _ _))

theorem Dev.calFailed_onlyIn (d : Dev) (w : Nat) (spare : Bool) : Dev.onlyIn [.stat, .sense] d (d.calFailed w spare) := by
  have hcal (f : CalSt → CalSt) : Dev.onlyIn [.stat, .sense] d (d.updCal f) := Dev.onlyIn_mono (Dev.updCal_onlyIn _ _) (by decide)
  have hrec {e : Dev} (pg bit : Nat) (h : Dev.onlyIn [.stat, .sense] d e) : Dev.onlyIn [.stat, .sense] d (e.occur pg bit) :=
    Dev.onlyIn_via (Dev.occur_onlyIn _ _ _) (by decide) h
  exact Dev.onlyIn_ite (hrec _ _ (hcal _)) (Dev.onlyIn_ite (hrec _ _ (hcal _)) (Dev.onlyIn_ite (hcal _)
    (hrec _ _ (Dev.onlyIn_mono (Dev.updPre_onlyIn _ _ _) (by decide)))))

theorem Dev.calReturned_onlyIn (d : Dev) : Dev.onlyIn [.stat, .sense] d d.calReturned :=
  Dev.onlyIn_ite d.calEnded_onlyIn (Dev.onlyIn_via (Dev.calFailed_onlyIn _ _ _) (by decide) d.calEnded_onlyIn)

/-! ### The block at the end of the takeover -/

theorem Dev.calEnded_agrees {d : Dev} (h : d.calDiffers = false) :
    d.calEnded = d.updCal fun c => { c with takeover := false, unitOut := false } := by
  rw [Dev.calEnded, h]; rfl

theorem Dev.calEnded_differs {d : Dev} (h : d.calDiffers = true) (htest : d.sense.cal.testFail = false) :
    d.calEnded = (d.occur 0x80 0).oldTrims.updCal fun c => { c with takeover := false, unitOut := false } := by
  rw [Dev.calEnded, h, htest]; rfl

/-- The old trims change neither the substitutions nor the failed modulators, and in a window of a phase current no channel. -/
theorem Dev.oldTrims_keeps (d : Dev) :
    d.oldTrims.sense.cal.subst = d.sense.cal.subst ∧ d.oldTrims.sense.cal.failed = d.sense.cal.failed ∧
      (d.sense.cal.window < 72 → d.oldTrims.sense.pre = d.sense.pre) := by
  unfold Dev.oldTrims
  extract_lets c
  split_ifs with hmeas hpre
  · exact ⟨rfl, rfl, fun _ => rfl⟩
  · exact ⟨rfl, rfl, fun hph => absurd hpre (Nat.not_le.mpr hph)⟩
  · exact ⟨rfl, rfl, fun _ => rfl⟩

theorem Dev.calEnded_keeps (d : Dev) :
    d.calEnded.sense.cal.subst = d.sense.cal.subst ∧ d.calEnded.sense.cal.failed = d.sense.cal.failed ∧
      (d.sense.cal.window < 72 → d.calEnded.sense.pre = d.sense.pre) := by
  unfold Dev.calEnded
  split
  · exact (d.occur 0x80 0).oldTrims_keeps
  · exact ⟨rfl, rfl, fun _ => rfl⟩

theorem Dev.shape_calEnded {d : Dev} (h : d.shape = true) : d.calEnded.shape = true := by
  have hshaped : d.Shaped := Dev.shape_iff.mp h
  have hold : Dev.Shaped (if d.calDiffers && !d.sense.cal.testFail then (d.occur 0x80 0).oldTrims else d) :=
    .ite hshaped.occur.oldTrims hshaped
  exact Dev.shape_iff.mpr hold.updCal

/-- A precision modulator that differs has the trims from before its window. -/
theorem Dev.pre_calEnded_differs {d : Dev} (h : d.calDiffers = true) (htest : d.sense.cal.testFail = false)
    (hmeas : d.sense.cal.measured = true) (hpre : 72 ≤ d.sense.cal.window) (hlt : d.sense.cal.window - 72 < d.sense.pre.length) :
    d.calEnded.pre (d.sense.cal.window - 72) =
      { d.pre (d.sense.cal.window - 72) with gainTrim := d.sense.cal.oldGain, offTrim := d.sense.cal.oldOff } := by
  have hnot : ¬(!d.sense.cal.measured) = true := by rw [hmeas]; decide
  have hold : (d.occur 0x80 0).oldTrims = _ := (if_neg hnot).trans (if_pos hpre)
  rw [Dev.calEnded_differs h htest, hold]
  exact (d.occur 0x80 0).pre_updPre_same _ hlt

/-- A phase-current modulator that differs has the trims from before its window. -/
theorem Dev.trims_calEnded_differs {d : Dev} (h : d.calDiffers = true) (htest : d.sense.cal.testFail = false)
    (hmeas : d.sense.cal.measured = true) (hph : d.sense.cal.window < 72) :
    d.calEnded.sense.cal.phGain = updAt d.sense.cal.phGain d.sense.cal.window (fun _ => d.sense.cal.oldGain) ∧
      d.calEnded.sense.cal.phOff = updAt d.sense.cal.phOff d.sense.cal.window fun _ => d.sense.cal.oldOff := by
  have hnot : ¬(!d.sense.cal.measured) = true := by rw [hmeas]; decide
  have hold : (d.occur 0x80 0).oldTrims = _ := (if_neg hnot).trans (if_neg (Nat.not_le.mpr hph))
  rw [Dev.calEnded_differs h htest, hold]
  exact ⟨rfl, rfl⟩

/-! ### The block with the failed modulator -/

/-- A failed modulator keeps its trims, and the window's takeover stays ended. -/
theorem Dev.cal_calFailed (d : Dev) (w : Nat) (spare : Bool) :
    (d.calFailed w spare).sense.cal.takeover = d.sense.cal.takeover ∧ (d.calFailed w spare).sense.cal.unitOut = d.sense.cal.unitOut ∧
      (d.calFailed w spare).sense.cal.phGain = d.sense.cal.phGain ∧ (d.calFailed w spare).sense.cal.phOff = d.sense.cal.phOff := by
  unfold Dev.calFailed CalSt.spareOut CalSt.substituted
  split_ifs
  all_goals exact ⟨rfl, rfl, rfl, rfl⟩

theorem Dev.pre_calFailed {d : Dev} {w : Nat} (spare : Bool) (h : w - 72 < d.sense.pre.length) :
    ((d.calFailed w spare).pre (w - 72)).gainTrim = (d.pre (w - 72)).gainTrim ∧
      ((d.calFailed w spare).pre (w - 72)).offTrim = (d.pre (w - 72)).offTrim := by
  unfold Dev.calFailed
  split_ifs
  · exact ⟨rfl, rfl⟩
  · exact ⟨rfl, rfl⟩
  · exact ⟨rfl, rfl⟩
  · have hput := d.pre_updPre_same (fun q => { q with failed := true }) h
    exact ⟨(congrArg PreCh.gainTrim hput).trans rfl, (congrArg PreCh.offTrim hput).trans rfl⟩

theorem Dev.calFailed_spare {d : Dev} {w : Nat} (spare : Bool) (h : winIsSpare w = true) :
    d.calFailed w spare = (d.updCal fun c => c.spareOut w).occur 0x80 2 := if_pos h

theorem Dev.calFailed_substituted {d : Dev} {w : Nat} (h : winIsSpare w = false) :
    d.calFailed w true = (d.updCal fun c => c.substituted w).occur 0x80 1 :=
  (if_neg (Bool.eq_false_iff.mp h)).trans (if_pos rfl)

theorem Dev.calFailed_alone {d : Dev} {w : Nat} (h : winIsSpare w = false) (hph : w < 72) :
    d.calFailed w false = d.updCal fun c => { c with failed := updAt c.failed w fun _ => true } :=
  (if_neg (Bool.eq_false_iff.mp h)).trans ((if_neg Bool.false_ne_true).trans (if_pos hph))

theorem Dev.cal_calReturned (d : Dev) :
    d.calReturned.sense.cal.takeover = false ∧ d.calReturned.sense.cal.unitOut = false := by
  unfold Dev.calReturned
  split
  · exact ⟨rfl, rfl⟩
  · obtain ⟨htakeover, hunit, -, -⟩ := d.calEnded.cal_calFailed d.sense.cal.window d.sense.cal.spareOn
    exact ⟨htakeover, hunit⟩

/-! ### The commands -/

theorem Dev.sense_calNow (d : Dev) (v : Nat) :
    (d.calNow v).sense = if bitAt v 7 = true ∧ bits v 6 0 ≤ 88
      then { d.sense with cal := { d.sense.cal with now := some (bits v 6 0) } } else d.sense := by
  unfold Dev.calNow
  split
  · rfl
  · rfl

/-- CAL_RETURN in frond 62 of a window that acts. -/
theorem completes_calReturn {s : State} (hrun : s.d.sense.cal.running = true) (hfrond : s.d.sense.cal.frond = 62)
    (hidle : s.d.sense.cal.idle = false) (hrestart : s.d.sense.cal.restart = false) :
    Completes .calReturn s [.stat, .sense] fun e => e = s.d.calReturned :=
  completes_done (execCalReturn_eq s) (if_pos (by rw [hrun, hfrond, hidle, hrestart]; rfl)) s.d.calReturned_onlyIn rfl

/-- Settles O38: each command of a window by the block that it answers; CAL_RETURN by what failed and whether a spare is connected. -/
theorem calibrationWindows : Obligations.CalibrationWindows := by
  refine ⟨fun s hdue => ?start, fun s hshape hrun hfrond hidle hrestart hown => ?takeover,
    fun s m hshape hrun hfrond hidle hrestart hwin hgain hoff => ?reconnect, fun s hshape hrun hfrond hidle hrestart => ?giveBack,
    fun s hrun hfrond => ?disconnect, fun s hrestart hready => ?restart, fun s v => ?now⟩
  case start =>
    refine completes_done (execCalWindowStart_eq s) (if_neg (by rw [hdue]; decide)) s.d.calStarted_onlyIn ?_
    unfold Dev.calStarted
    dsimp only
    split_ifs with hspare hfree hkept
    · exact ⟨rfl, rfl, rfl, rfl, rfl, rfl, rfl, rfl, rfl, rfl, rfl, rfl, rfl⟩
    · exact ⟨rfl, rfl, rfl, rfl, rfl, rfl, rfl, rfl, rfl, rfl, rfl, rfl, rfl⟩
    · exact ⟨rfl, rfl, rfl, rfl, rfl, rfl, rfl, rfl, rfl, rfl, rfl, rfl, rfl⟩
    · exact ⟨rfl, rfl, rfl, rfl, rfl, rfl, rfl, rfl, rfl, rfl, rfl, rfl, rfl, Dev.recorded_occur_of rfl _ _⟩
  case takeover =>
    refine completes_done (execCalTakeover_eq s) (if_pos (by rw [hrun, hfrond, hidle, hrestart, hown]; rfl)) s.d.calTaken_onlyIn ?_
    unfold Dev.calTaken
    dsimp only
    split_ifs with hspare hph
    · exact ⟨rfl, rfl⟩
    · obtain ⟨hplace, hlt⟩ := winUnit_place hown hph
      exact ⟨rfl, sameBut_updAt _ _ _, Dev.unit_calUnitOut_not_active (Dev.unit_lt hshape hlt),
        Dev.usable_eq_false_of_unitOut rfl hplace⟩
    · rfl
  case reconnect =>
    refine completes_done (execCalReconnect_eq m s) (if_pos (by rw [hrun, hfrond, hidle, hrestart]; rfl))
      (s.d.calReconnected_onlyIn m) ?_
    dsimp only
    by_cases hpre : 72 ≤ s.d.sense.cal.window
    · have hsense := Dev.sense_calReconnected_pre m hpre
      have hch : (s.d.calReconnected m).pre (s.d.sense.cal.window - 72) =
          (s.d.pre (s.d.sense.cal.window - 72)).reconnected m s.d.openTest s.d.sense.cal.openFound := by
        rw [Dev.pre, hsense]
        exact nth_updAt_same _ _ _ (Dev.pre_lt hshape (by omega))
      rw [if_pos hpre, hch, hsense]
      refine ⟨rfl, rfl, rfl, rfl, rfl, Dev.statOf_calReconnected, sameBut_updAt _ _ _, rfl, rfl, rfl, rfl, ?_,
        Dev.stBit_calReconnected m hpre⟩
      unfold PreCh.reconnected
      dsimp only
      cases s.d.openTest <;> rfl
    · have hsense := Dev.sense_calReconnected_phase m hpre
      have hgainLt : s.d.sense.cal.window < s.d.sense.cal.phGain.length := by omega
      have hoffLt : s.d.sense.cal.window < s.d.sense.cal.phOff.length := by omega
      rw [if_neg hpre, hsense]
      exact ⟨rfl, rfl, rfl, rfl, rfl, Dev.statOf_calReconnected, rfl, rfl, rfl, sameBut_updAt_ite _ _ _ _,
        sameBut_updAt_ite _ _ _ _, nth_updAt_ite hgainLt _ _ _, nth_updAt_ite hoffLt _ _ _⟩
  case giveBack =>
    refine (completes_calReturn hrun hfrond hidle hrestart).imp fun e he => ?_
    obtain ⟨htakeover, hunit⟩ := s.d.cal_calReturned
    obtain ⟨hsubst, hfailed, hsame⟩ := s.d.calEnded_keeps
    subst he
    refine ⟨htakeover, hunit, fun hgood => ?good, fun hbad hspare hph => ?spare, fun htest hdiff hmeas hpre hmax => ?preTrims,
      fun htest hdiff hmeas hph => ?phaseTrims, fun hbad hown hon hph => ?phaseSubst, fun hbad hown hon hpre => ?preSubst,
      fun hbad hown hon hph => ?failed⟩
    case good =>
      have hagrees : s.d.calDiffers = false := (Bool.or_eq_false_iff.mp hgood).2
      rw [Dev.calReturned_good hgood, Dev.calEnded_agrees hagrees]
      exact ⟨rfl, rfl⟩
    case spare =>
      rw [Dev.calReturned_bad hbad, Dev.calFailed_spare _ hspare, Dev.calEnded_agrees (Dev.calDiffers_of_spare hspare)]
      exact ⟨congrArg CalSt.subst (if_pos hph), Dev.statOf_occur_same _ 0x80 2⟩
    case preTrims =>
      have hp : s.d.sense.cal.window - 72 < 17 := by omega
      obtain ⟨hgain, hoff⟩ := Dev.pre_calFailed s.d.sense.cal.spareOn (Dev.pre_lt (Dev.shape_calEnded hshape) hp)
      rw [Dev.calReturned_bad (Dev.calBad_of_differs hdiff), hgain, hoff,
        Dev.pre_calEnded_differs hdiff htest hmeas hpre (Dev.pre_lt hshape hp)]
      exact ⟨rfl, rfl⟩
    case phaseTrims =>
      obtain ⟨-, -, hgain, hoff⟩ := s.d.calEnded.cal_calFailed s.d.sense.cal.window s.d.sense.cal.spareOn
      rw [Dev.calReturned_bad (Dev.calBad_of_differs hdiff), hgain, hoff]
      exact Dev.trims_calEnded_differs hdiff htest hmeas hph
    case phaseSubst =>
      rw [Dev.calReturned_bad hbad, hon, Dev.calFailed_substituted hown, ← hsubst, ← hsame hph]
      exact ⟨congrArg CalSt.subst (if_pos hph), rfl⟩
    case preSubst =>
      rw [Dev.calReturned_bad hbad, hon, Dev.calFailed_substituted hown]
      exact congrArg CalSt.preSubst (if_neg (Nat.not_lt.mpr hpre))
    case failed =>
      rw [Dev.calReturned_bad hbad, hon, Dev.calFailed_alone hown hph, ← hfailed, ← hsame hph]
      exact ⟨rfl, rfl⟩
  case disconnect =>
    exact completes_done rfl (if_pos (by rw [hrun, hfrond]; rfl)) (Dev.updCal_onlyIn _ _) rfl
  case restart =>
    exact completes_done rfl (if_pos (by rw [hrestart, hready]; rfl)) (Dev.updCal_onlyIn _ _) ⟨rfl, rfl⟩
  case now => exact completes_done rfl rfl (Dev.calNow_onlyIn _ _) (s.d.sense_calNow v.toNat)

end Sys2Proof.Machine
end

section
/-! PROOF. The events of one feed and the fast trip of an output switch (R245 to R249, R251), and a feed's faults with the end of
its retry timer (R247, R252, R255, R256). -/

namespace Sys2Proof.Machine

/-! ### Events of one feed -/

/-- A command that rewrites one feed leaves the other one. -/
theorem completes_updFeed {s : State} {c : Instr} {f : FeedId} {g : Dev → Dev} {u : Feed → Feed} (hc : exec c s = done g s)
    (hg : g s.d = s.d.updFeed f u) :
    Completes c s [.feedA, .feedB] fun e => e.feed f = u (s.d.feed f) ∧ e.feed (otherFeed f) = s.d.feed (otherFeed f) := by
  refine completes_done hc hg (Dev.updFeed_onlyIn _ _ _) ⟨?_, ?_⟩
  · rw [Dev.feed_updFeed, if_pos rfl]
  · rw [Dev.feed_updFeed, if_neg (otherFeed_ne f)]

/-- The block in which a feed has its power-good and a freeze of the ledger has ended (R194, R249). -/
def Dev.powerGood (d : Dev) (f : FeedId) : Dev :=
  (d.updFeed f fun x => { x with pg := true, pgHeld := 0 }).updLed fun l => { l with freeze := false, freezeEnd := 0 }

/-- The block in which the transfer in progress is complete, its duration stored (R251). -/
def Dev.xferDone (d : Dev) : Dev :=
  (d.updXfer fun x => { x with new := none, lastDur := min 0xFFFE (d.now - x.start) }).occur 0x98 0

theorem Dev.powerGood_onlyIn (d : Dev) (f : FeedId) : Dev.onlyIn [.adm, .feedA, .feedB] d (d.powerGood f) :=
  Dev.onlyIn_via (Dev.updLed_onlyIn _ _) (by decide) (Dev.onlyIn_mono (Dev.updFeed_onlyIn _ _ _) (by decide))

theorem Dev.xferDone_onlyIn (d : Dev) : Dev.onlyIn [.stat, .xfer] d d.xferDone :=
  Dev.onlyIn_via (Dev.occur_onlyIn _ _ _) (by decide) (Dev.onlyIn_mono (Dev.updXfer_onlyIn _ _) (by decide))

theorem Dev.feed_powerGood (d : Dev) (f g : FeedId) :
    (d.powerGood f).feed g = if g = f then { d.feed g with pg := true, pgHeld := 0 } else d.feed g :=
  (Dev.feed_congr rfl rfl g).trans (d.feed_updFeed _ _ _)

theorem Dev.powerGood_adm (d : Dev) (f : FeedId) :
    (d.powerGood f).adm = { d.adm with led := { d.adm.led with freeze := false, freezeEnd := 0 } } := by
  cases f <;> rfl

/-- Completing the transfer after the power-good of a feed: the time, the transfer and the status words are those of before. -/
theorem Dev.xferDone_powerGood (d : Dev) (f : FeedId) :
    (d.powerGood f).xferDone.xfer = { d.xfer with new := none, lastDur := min 0xFFFE (d.now - d.xfer.start) } ∧
      d.recorded (d.powerGood f).xferDone 0x98 0 := by
  have hstat : (d.powerGood f).stat = d.stat := d.powerGood_onlyIn f .stat (by decide)
  have hxfer : (d.powerGood f).xfer = d.xfer := d.powerGood_onlyIn f .xfer (by decide)
  have hnow : (d.powerGood f).now = d.now := congrArg (·.ticks) (d.powerGood_onlyIn f .time (by decide))
  refine ⟨?_, Dev.recorded_occur_of hstat 0x98 0⟩
  rw [← hxfer, ← hnow]
  rfl

/-- FEED_POWER_GOOD where its condition holds. -/
theorem execFeedPowerGood_eq {s : State} {f : FeedId} (hran : s.d.xfer.ran = true) (hst : (s.d.feed f).st = .on)
    (hpg : (s.d.feed f).pg = false) (hfail : (s.d.feed f).fail = 0) (hrun : s.d.fld 0x98 0x50 14 8 ≤ (s.d.feed f).pgRun)
    (hjudge : s.d.judging = true) :
    ∃ g : Dev → Dev, exec (.feedPowerGood f) s = done g s ∧
      g s.d = if s.d.xfer.new = some f then (s.d.powerGood f).xferDone else s.d.powerGood f := by
  refine ⟨_, rfl, (if_pos ⟨hran, hst, by rw [hpg]; rfl, hfail, hrun, hjudge⟩).trans ?_⟩
  rw [← (s.d.powerGood_onlyIn f .xfer (by decide) : (s.d.powerGood f).xfer = s.d.xfer)]
  rfl

/-- FEED_POWER_GOOD by the feed and the ledger that it leaves, and by the transfer, if one goes towards the feed. -/
theorem completes_feedPowerGood {s : State} {f : FeedId} (hran : s.d.xfer.ran = true) (hst : (s.d.feed f).st = .on)
    (hpg : (s.d.feed f).pg = false) (hfail : (s.d.feed f).fail = 0) (hrun : s.d.fld 0x98 0x50 14 8 ≤ (s.d.feed f).pgRun)
    (hjudge : s.d.judging = true) :
    Completes (.feedPowerGood f) s [.adm, .feedB, .stat, .feedA, .xfer] fun e =>
      (∀ g, e.feed g = (s.d.powerGood f).feed g) ∧ e.adm = (s.d.powerGood f).adm ∧
      if s.d.xfer.new = some f then
        e.xfer = { s.d.xfer with new := none, lastDur := min 0xFFFE (s.d.now - s.d.xfer.start) } ∧ s.d.recorded e 0x98 0
      else e.xfer = s.d.xfer ∧ e.stat = s.d.stat := by
  obtain ⟨g, hexec, hg⟩ := execFeedPowerGood_eq hran hst hpg hfail hrun hjudge
  have hgood := s.d.powerGood_onlyIn f
  have honly := Dev.onlyIn_mono hgood (l := [.adm, .feedB, .stat, .feedA, .xfer]) (by decide)
  by_cases hnew : s.d.xfer.new = some f
  · have hdone := (s.d.powerGood f).xferDone_onlyIn
    refine completes_done hexec (hg.trans (if_pos hnew)) (Dev.onlyIn_via hdone (by decide) honly) ⟨fun x => ?_, ?_, ?_⟩
    · exact Dev.feed_congr (hdone .feedA (by decide)) (hdone .feedB (by decide)) x
    · exact hdone .adm (by decide)
    · exact (if_pos hnew).mpr (s.d.xferDone_powerGood f)
  · refine completes_done hexec (hg.trans (if_neg hnew)) honly ⟨fun _ => rfl, rfl, (if_neg hnew).mpr ⟨?_, ?_⟩⟩
    · exact hgood .xfer (by decide)
    · exact hgood .stat (by decide)

/-- Settles O24: each event by the feed that it rewrites, the fast trip by the output switch, and FEED_POWER_GOOD by the freeze and
the transfer that end. -/
theorem feedEvents : Obligations.FeedEvents := by
  refine ⟨fun s f hdrive => ?reverse, fun s r hshape hdrive => ?fast, fun s f hran hg0 hst hinside hdelay => ?ready,
    fun s f hran hst hvalid => ?invalid, fun s f hran hst hfull hjudge => ?fullyOn,
    fun s f hran hst hpg hfail hrun hjudge => ?good, fun s f hran hpg hheld => ?retryReset⟩
  case reverse =>
    exact (completes_updFeed rfl rfl).imp fun e ⟨hfeed, hother⟩ => ⟨hfeed.trans (if_pos hdrive), hother⟩
  case fast =>
    exact completes_done rfl rfl (Dev.updHs_onlyIn _ _ _)
      ⟨(s.d.hsw_updHs_same _ (Dev.hs_lt hshape r)).trans (if_pos hdrive), sameBut_updAt _ _ _⟩
  case ready => exact completes_updFeed (u := fun x => { x with st := .ready, readyN := 0 }) rfl (if_pos ⟨hran, hg0, hst, hinside, hdelay⟩)
  case invalid =>
    exact completes_updFeed (u := fun x => { x with st := .absent, readyN := 0 }) rfl
      (if_pos ⟨hran, hst, by rw [hvalid]; rfl⟩)
  case fullyOn =>
    refine (completes_updFeed rfl (if_pos ⟨hran, hst, hfull, hjudge⟩)).imp fun e ⟨hfeed, hother⟩ => ?_
    rw [hfeed]
    exact ⟨rfl, rfl, rfl, hother⟩
  case good =>
    refine (completes_feedPowerGood hran hst hpg hfail hrun hjudge).imp fun e ⟨hfeed, hadm, hxfer⟩ => ?_
    rw [hfeed, hfeed, Dev.feed_powerGood, Dev.feed_powerGood, if_pos rfl, if_neg (otherFeed_ne f)]
    exact ⟨rfl, hst, rfl, hadm.trans (s.d.powerGood_adm f), hxfer⟩
  case retryReset => exact completes_updFeed (u := fun x => { x with retryUsed := 0 }) rfl (if_pos ⟨hran, hpg, hheld⟩)

/-! ### A feed that faults -/

/-- The block in which a feed has faulted with bit `bit` of Feed A's, and a transfer towards it has failed with `code` (R252). -/
def Dev.feedLost (d : Dev) (f : FeedId) (bit code : Nat) : Dev :=
  if d.xfer.new = some f then (d.feedFaultRaw f bit).xferFail code else d.feedFaultRaw f bit

theorem Dev.feedFaultRaw_xfer (d : Dev) (f : FeedId) (bit : Nat) : (d.feedFaultRaw f bit).xfer = d.xfer :=
  Dev.feedFaultRaw_onlyIn _ _ _ .xfer (by decide)

/-- A feed that leaves TURN_ON or ON with a fault fails the transfer towards it as target lost. -/
theorem Dev.feedFault_eq (d : Dev) (f : FeedId) (bit : Nat) : d.feedFault f bit = d.feedLost f bit 0x13 := by
  rw [Dev.feedFault, Dev.targetLost, Dev.feedFaultRaw_xfer, Dev.feedLost]

theorem Dev.feedLost_onlyIn (d : Dev) (f : FeedId) (bit code : Nat) :
    Dev.onlyIn [.feedB, .stat, .feedA, .xfer, .fh] d (d.feedLost f bit code) := by
  have hraw := Dev.onlyIn_mono (d.feedFaultRaw_onlyIn f bit) (l := [.feedB, .stat, .feedA, .xfer, .fh]) (by decide)
  exact Dev.onlyIn_ite (Dev.onlyIn_via (Dev.xferFail_onlyIn _ _) (by decide) hraw) hraw

theorem Dev.feed_feedLost (d : Dev) (f g : FeedId) (bit code : Nat) :
    (d.feedLost f bit code).feed g = if g = f then (d.feed g).failed (256 * d.fld 0x98 0x58 31 16) else d.feed g := by
  rw [← Dev.feed_feedFaultRaw d f g bit, Dev.feedLost]
  split
  · exact Dev.feed_xferFail _ _ _
  · rfl

theorem Dev.statOf_xferFail (d : Dev) (code : Nat) : (d.xferFail code).statOf 0x98 = (d.statOf 0x98).occur 1 code :=
  Dev.statOf_occurC_same _ _ _ _

/-- The transfer and the page of the feeds after a fault of a feed. -/
theorem Dev.feedLost_transfer (d : Dev) (f : FeedId) (bit code : Nat) :
    let st := (d.statOf 0x98).occur (bit + feedIdx f) (causeOf 0x98 (bit + feedIdx f))
    if d.xfer.new = some f then
      (d.feedLost f bit code).statOf 0x98 = st.occur 1 code ∧
        (d.feedLost f bit code).xfer = { d.xfer with dead := none, new := none, lastDur := 0xFFFF, ilock := 0 }
    else (d.feedLost f bit code).statOf 0x98 = st ∧ (d.feedLost f bit code).xfer = d.xfer := by
  unfold Dev.feedLost
  split
  · exact ⟨by rw [Dev.statOf_xferFail, Dev.statOf_feedFaultRaw], by rw [← Dev.feedFaultRaw_xfer d f bit]; rfl⟩
  · exact ⟨d.statOf_feedFaultRaw f bit, d.feedFaultRaw_xfer f bit⟩

/-- A command by which a feed faults. -/
theorem completes_feedLost {s : State} {c : Instr} {f : FeedId} {bit code : Nat} {g : Dev → Dev} (hc : exec c s = done g s)
    (hg : g s.d = s.d.feedLost f bit code) :
    Completes c s [.feedB, .stat, .feedA, .xfer, .fh] fun e =>
      (e.feed f).st = .faultWait ∧ (e.feed f).cmd = false ∧ (e.feed f).pg = false ∧
      (e.feed f).retryLeft = 256 * s.d.fld 0x98 0x58 31 16 ∧ e.feed (otherFeed f) = s.d.feed (otherFeed f) ∧
      let st := (s.d.statOf 0x98).occur (bit + feedIdx f) (causeOf 0x98 (bit + feedIdx f))
      if s.d.xfer.new = some f then
        e.statOf 0x98 = st.occur 1 code ∧ e.xfer = { s.d.xfer with dead := none, new := none, lastDur := 0xFFFF, ilock := 0 }
      else e.statOf 0x98 = st ∧ e.xfer = s.d.xfer := by
  refine completes_done hc hg (s.d.feedLost_onlyIn f bit code) ?_
  rw [Dev.feed_feedLost, Dev.feed_feedLost, if_pos rfl, if_neg (otherFeed_ne f)]
  exact ⟨rfl, rfl, rfl, rfl, rfl, s.d.feedLost_transfer f bit code⟩

/-! ### The end of a retry timer -/

theorem Dev.feed_occurC (d : Dev) (pg bit code : Nat) (f : FeedId) : (d.occurC pg bit code).feed f = d.feed f :=
  Dev.feed_congr rfl rfl f

/-- FEED_RETRY_END where its condition holds: a further try, or LATCHED_OFF (R256). -/
theorem execFeedRetryEnd_eq {s : State} {f : FeedId} (hran : s.d.xfer.ran = true) (hjudge : s.d.judging = true)
    (hst : (s.d.feed f).st = .faultWait) (hleft : (s.d.feed f).retryLeft = 0) :
    ∃ g : Dev → Dev, exec (.feedRetryEnd f) s = done g s ∧
      g s.d = if (s.d.feed f).retryUsed < s.d.fld 0x98 0x58 15 12 ∨ s.d.fld 0x98 0x58 15 12 = 15 then
          s.d.updFeed f fun x => { x with st := .absent, retryUsed := satInc 15 x.retryUsed }
        else (s.d.updFeed f fun x => { x with st := .latchedOff }).occurC 0x98 12 (0xE + feedIdx f) :=
  ⟨_, rfl, if_pos ⟨hran, hjudge, hst, hleft⟩⟩

/-- Settles O25: INS_TIMEOUT and FEED_OV are one fault with different codes; the end of the retry timer by the retries left. -/
theorem feedFaults : Obligations.FeedFaults := by
  refine ⟨fun s f c bit code hran hcause => ?fault, fun s f hran hjudge hst hleft => ?retry⟩
  case fault =>
    obtain ⟨rfl, hjudge, rfl, rfl, hst, htime⟩ | ⟨rfl, rfl, rfl, hst, hbad, hov⟩ := hcause
    · exact completes_feedLost rfl (if_pos ⟨hran, hjudge, hst, htime⟩)
    · exact completes_feedLost rfl ((if_pos ⟨hran, hst, by rw [hbad]; rfl, hov⟩).trans (s.d.feedFault_eq f 4))
  case retry =>
    obtain ⟨g, hexec, hg⟩ := execFeedRetryEnd_eq hran hjudge hst hleft
    by_cases hmore : (s.d.feed f).retryUsed < s.d.fld 0x98 0x58 15 12 ∨ s.d.fld 0x98 0x58 15 12 = 15
    · refine completes_done hexec (hg.trans (if_pos hmore)) (Dev.onlyIn_mono (Dev.updFeed_onlyIn _ _ _) (by decide))
        ⟨?_, (if_pos hmore).mpr ⟨?_, Dev.updFeed_stat _ _ _⟩⟩
      · rw [Dev.feed_updFeed, if_neg (otherFeed_ne f)]
      · rw [Dev.feed_updFeed, if_pos rfl]
    · refine completes_done hexec (hg.trans (if_neg hmore))
        (Dev.onlyIn_via (Dev.occurC_onlyIn _ _ _ _) (by decide) (Dev.onlyIn_mono (Dev.updFeed_onlyIn _ _ _) (by decide)))
        ⟨?_, (if_neg hmore).mpr ⟨?_, Dev.recordedC_occurC_of (Dev.updFeed_stat _ _ _) _ _ _⟩⟩
      · rw [Dev.feed_occurC, Dev.feed_updFeed, if_neg (otherFeed_ne f)]
      · rw [Dev.feed_occurC, Dev.feed_updFeed, if_pos rfl]

end Sys2Proof.Machine
end

section
/-! PROOF. The state after reset (R247, R297). -/

namespace Sys2Proof.Machine

/-- Every list of the block after reset has its fixed length: the long ones are repetitions of one value. -/
theorem shaped_reset : Dev.reset.Shaped :=
  ⟨List.length_replicate, List.length_replicate, List.length_replicate, List.length_replicate, List.length_replicate,
    List.length_replicate, rfl, List.length_replicate, List.length_replicate, List.length_replicate, List.length_replicate,
    List.length_replicate, List.length_replicate, List.length_replicate, List.length_replicate⟩

/-- Every memory of the block after reset is empty. -/
theorem reset_canon : State.reset.d.canon = true := by
  obtain ⟨hsram, ha, hb⟩ := reset_memories_wf
  rw [Dev.canon, hsram, ha, hb]
  rfl

theorem rail_reset {r : Nat} (hr : r < 4) : State.reset.d.rail r = Rail.reset := List.getD_replicate _ hr

theorem eq_reset_of_mem_units {u : PhUnit} (hu : u ∈ State.reset.d.units) : u = PhUnit.reset := List.eq_of_mem_replicate hu

/-- No status word is listed after reset. -/
theorem status_reset (pg : Nat) : State.reset.d.status pg = 0 := rfl

/-- No register value is listed after reset. -/
theorem reg_reset (pg off : Nat) : State.reset.d.reg pg off = resetOf pg off := rfl

/-- Settles O7: the invariants by the empty memories, lists and tables of the reset state, each other value by its part. -/
theorem resetState : Obligations.ResetState := by
  refine ⟨reset_canon, Dev.shape_iff.mpr shaped_reset, rfl, rfl, rfl, rfl, fun r hr => ?rail, fun u hu => ?unit, rfl, rfl, rfl, rfl,
    status_reset, reg_reset⟩
  case rail => rw [rail_reset hr]; exact ⟨rfl, rfl⟩
  case unit => rw [eq_reset_of_mem_units hu]; exact ⟨rfl, rfl⟩

end Sys2Proof.Machine
end

section
/-! PROOF. Events of a battery module: counts and anchors, learning and stored records, the status poll, insertion and removal, the
first estimate (R274 to R276, R282 to R287, R423, R424, R428). -/

namespace Sys2Proof.Machine

/-! ### Modules by number -/

theorem Dev.bbu_congr {d e : Dev} (h : e.bbus = d.bbus) (m : Nat) : e.bbu m = d.bbu m := congrArg (fun l => nth l m Bbu.reset) h

/-- The block with its fixed shape has 4 modules. -/
theorem Dev.bbu_lt {d : Dev} (h : d.shape = true) (m : Fin 4) : m.val < d.bbus.length := by
  have hlen : d.bbus.length = 4 := by
    simp only [Dev.shape, Bool.and_eq_true, beq_iff_eq] at h
    tauto
  rw [hlen]; exact m.isLt

/-- Controller port TW4, which the modules are read through (R423). -/
theorem Dev.tw4_lt {d : Dev} (h : d.shape = true) : 2 < d.twC.length := by
  rw [(Dev.ports_length h).1]; decide

theorem causeOf_bbuPg {m : Nat} (hm : m < 4) (bit : Nat) : causeOf (bbuPg m) bit = bit + 1 := by
  unfold causeOf bbuPg
  iterate 9 rw [if_neg (by omega)]

/-- Module `m` is `b` afterwards; every other module stands. -/
def Dev.bbuBecomes (d e : Dev) (m : Nat) (b : Bbu) : Prop := e.bbu m = b ∧ sameBut m d.bbus e.bbus

section
variable {d e x : Dev} {m : Nat} {b : Bbu}

theorem Dev.bbuBecomes_refl (d : Dev) (m : Nat) : d.bbuBecomes d m (d.bbu m) := ⟨rfl, sameBut_refl _ _⟩

theorem Dev.bbuBecomes.congr (h : d.bbuBecomes e m b) (k : x.bbus = e.bbus) : d.bbuBecomes x m b := by
  obtain ⟨hsame, hother⟩ := h
  exact ⟨(Dev.bbu_congr k m).trans hsame, by rw [k]; exact hother⟩

theorem Dev.bbuBecomes.updBbu (h : d.bbuBecomes e m b) (hm : m < d.bbus.length) (f : Bbu → Bbu) :
    d.bbuBecomes (e.updBbu m f) m (f b) := by
  obtain ⟨hsame, hother⟩ := h
  have hlt : m < e.bbus.length := by rw [hother.1]; exact hm
  exact ⟨hsame ▸ nth_updAt_same _ _ _ hlt, sameBut_trans hother (sameBut_updAt _ _ _)⟩

/-- Module `m` rewritten in a block that has the modules of `d`. -/
theorem Dev.bbuBecomes_updBbu_of (h : e.bbus = d.bbus) (hm : m < d.bbus.length) (f : Bbu → Bbu) :
    d.bbuBecomes (e.updBbu m f) m (f (d.bbu m)) := ((d.bbuBecomes_refl m).congr h).updBbu hm f

/-! ### Stored records and learning -/

/-- A stored record of the module's present identity comes first of its records (R290). -/
theorem Dev.bbuBecomes.bbuStore (h : d.bbuBecomes e m b) (hm : m < d.bbus.length) :
    ∃ ring l, d.bbuBecomes (e.bbuStore m) m { b with records := { e.bbuRec m with ring := ring } :: l } :=
  ⟨_, _, (h.updBbu hm _).congr (Dev.ringPut_onlyIn _ _ _ .bbus (by decide))⟩

theorem Dev.bbuStore_stat (d : Dev) (m : Nat) : (d.bbuStore m).stat = d.stat := Dev.bbuStore_onlyIn d m .stat (by decide)

theorem Dev.ringPut_nv_of_held (h : d.nvHeld = true) (n : Nat) (v : List Byte) : (d.ringPut n v).nv = d.nv := by
  rw [Dev.ringPut, if_pos h]

theorem Dev.ringPut_therm_of_free (h : d.nvHeld = false) (n : Nat) (v : List Byte) : (d.ringPut n v).therm = d.therm := by
  rw [Dev.ringPut, if_neg (Bool.eq_false_iff.mp h)]
  exact Dev.ringWrite_onlyIn _ _ _ .therm (by decide)

/-- While writes are held a record waits outside the memory (R347, R367). -/
theorem Dev.bbuStore_nv_of_held (h : d.nvHeld = true) (m : Nat) : (d.bbuStore m).nv = d.nv :=
  Dev.ringPut_nv_of_held (d := d.updBbu m _) h _ _

theorem Dev.bbuStore_therm_of_free (h : d.nvHeld = false) (m : Nat) : (d.bbuStore m).therm = d.therm :=
  Dev.ringPut_therm_of_free (d := d.updBbu m _) h _ _

theorem Dev.learnDq_idle (h : (d.bbu m).learning = false) (code : Nat) : d.learnDq m code = d :=
  if_neg (Bool.eq_false_iff.mp h)

/-- After a disqualification no learning cycle runs; beside it only the last result and the stored records may change (R280). -/
theorem Dev.bbuBecomes_learnDq (hm : m < d.bbus.length) (code : Nat) :
    ∃ res l, d.bbuBecomes (d.learnDq m code) m { d.bbu m with learning := false, lastResult := res, records := l } := by
  cases hlearn : (d.bbu m).learning with
  | false =>
    rw [Dev.learnDq_idle hlearn]
    exact ⟨_, _, by rw [← hlearn]; exact d.bbuBecomes_refl m⟩
  | true =>
    rw [Dev.learnDq, if_pos hlearn]
    have hended := (d.bbuBecomes_refl m).updBbu hm fun b => { b with learning := false, lastResult := code }
    obtain ⟨ring, l, hstore⟩ := (hended.congr (Dev.occur_bbus _ (bbuPg m) 4)).bbuStore hm
    exact ⟨_, _, hstore⟩

theorem Dev.learnDq_stat (d : Dev) (m code : Nat) :
    (d.learnDq m code).stat = (if (d.bbu m).learning then d.occur (bbuPg m) 4 else d).stat := by
  unfold Dev.learnDq
  split
  · exact Dev.bbuStore_stat _ _
  · rfl

/-- A bit of the module's page recorded after a disqualification, which records its own bit where a cycle ran. -/
theorem Dev.statOf_learnDq_occur (hm : m < 4) {code : Nat} (h : e.stat = (d.learnDq m code).stat) (bit : Nat) :
    (e.occur (bbuPg m) bit).statOf (bbuPg m) =
        (if (d.bbu m).learning then (d.statOf (bbuPg m)).occur 4 5 else d.statOf (bbuPg m)).occur bit (bit + 1) ∧
      ∀ q, q ≠ bbuPg m → (e.occur (bbuPg m) bit).statOf q = d.statOf q := by
  obtain ⟨hsame, hother⟩ := Dev.recorded_occur_of (h.trans (d.learnDq_stat m code)) (bbuPg m) bit
  rw [causeOf_bbuPg hm] at hsame
  cases hlearn : (d.bbu m).learning with
  | false =>
    rw [hlearn] at hsame hother
    exact ⟨hsame, hother⟩
  | true =>
    rw [hlearn] at hsame hother
    refine ⟨hsame.trans ?_, fun q hq => (hother q hq).trans (d.statOf_occur_other 4 hq)⟩
    rw [if_pos rfl, if_pos rfl, Dev.statOf_occur_same, causeOf_bbuPg hm]

/-- Identification rewrites the capacity, the cycles, the need of relearning, the last result and the stored records (R290). -/
theorem Dev.bbuBecomes.bbuIdentify (h : d.bbuBecomes e m b) (hm : m < d.bbus.length) (fresh : Bool) :
    ∃ c n r res l, d.bbuBecomes (e.bbuIdentify m fresh) m
      { b with c := c, cycles := n, relearn := r, lastResult := res, records := l } := by
  unfold Dev.bbuIdentify
  extract_lets id rated n
  split
  · extract_lets e'
    have hknown : d.bbuBecomes e' m _ := h.updBbu hm _
    split
    · obtain ⟨ring, l, hstore⟩ := (hknown.congr (Dev.occur_bbus _ (bbuPg m) 4)).bbuStore hm
      exact ⟨_, _, _, _, _, hstore⟩
    · exact ⟨_, _, _, _, _, hknown⟩
  · obtain ⟨ring, l, hstore⟩ := (h.updBbu hm fun b => { b with c := rated, cycles := n, relearn := true }).bbuStore hm
    exact ⟨_, _, _, _, _, hstore⟩

/-- Identification records at most the end of a learning cycle that the stored record shows. -/
theorem Dev.bbuIdentify_stat (d : Dev) (m : Nat) (fresh : Bool) :
    (d.bbuIdentify m fresh).stat = d.stat ∨ (d.bbuIdentify m fresh).stat = (d.occur (bbuPg m) 4).stat := by
  unfold Dev.bbuIdentify
  extract_lets id rated
  split
  · extract_lets e'
    split
    · exact .inr (Dev.bbuStore_stat _ _)
    · exact .inl rfl
  · exact .inl (Dev.bbuStore_stat _ _)

/-- A bit of the module's page recorded after an identification. -/
theorem Dev.statOf_bbuIdentify_occur (d : Dev) {m : Nat} (hm : m < 4) (fresh : Bool) (bit : Nat) :
    (((d.bbuIdentify m fresh).occur (bbuPg m) bit).statOf (bbuPg m) = (d.statOf (bbuPg m)).occur bit (bit + 1) ∨
        ((d.bbuIdentify m fresh).occur (bbuPg m) bit).statOf (bbuPg m) = ((d.statOf (bbuPg m)).occur 4 5).occur bit (bit + 1)) ∧
      ∀ q, q ≠ bbuPg m → ((d.bbuIdentify m fresh).occur (bbuPg m) bit).statOf q = d.statOf q := by
  obtain hstat | hstat := d.bbuIdentify_stat m fresh
  · obtain ⟨hsame, hother⟩ := Dev.recorded_occur_of hstat (bbuPg m) bit
    rw [causeOf_bbuPg hm] at hsame
    exact ⟨.inl hsame, hother⟩
  · obtain ⟨hsame, hother⟩ := Dev.recorded_occur_of hstat (bbuPg m) bit
    rw [Dev.statOf_occur_same (d := d), causeOf_bbuPg hm, causeOf_bbuPg hm] at hsame
    exact ⟨.inr hsame, fun q hq => (hother q hq).trans (d.statOf_occur_other 4 hq)⟩

end

/-! ### Commands that rewrite one module -/

section
variable {s : State} {m : Fin 4} {c : Instr} {f : Dev → Dev} {x : Dev} {g : Bbu → Bbu}

/-- A command that rewrites one module in a block that has the modules of the state. -/
theorem completes_updBbu {l : List Part} (hshape : s.d.shape = true) (hc : exec c s = done f s) (hf : f s.d = x.updBbu m g)
    (hx : x.bbus = s.d.bbus) (hl : Dev.onlyIn l s.d x) (hmem : .bbus ∈ l) :
    Completes c s l fun e => s.d.bbuBecomes e m (g (s.d.bbu m)) ∧ e.stat = x.stat :=
  completes_done hc hf (Dev.onlyIn_via (Dev.updBbu_onlyIn _ _ _) (fun _ h => List.mem_singleton.mp h ▸ hmem) hl)
    ⟨Dev.bbuBecomes_updBbu_of hx (Dev.bbu_lt hshape m) g, rfl⟩

/-- A command that rewrites one module and then records a bit of its page. -/
theorem completes_bbuRecorded {b : Bbu} {bit : Nat} (hc : exec c s = done f s) (hf : f s.d = x.occur (bbuPg m) bit)
    (hx : s.d.bbuBecomes x m b) (hl : Dev.onlyIn [.bbus] s.d x) :
    Completes c s [.stat, .bbus] fun e => s.d.bbuBecomes e m b ∧ s.d.recorded e (bbuPg m) bit :=
  completes_done hc hf (Dev.onlyIn_via (Dev.occur_onlyIn _ _ _) (by decide) (Dev.onlyIn_mono hl (by decide)))
    ⟨hx.congr rfl, Dev.recorded_occur_of (hl .stat (by decide)) _ _⟩

/-- A command that ends a learning cycle of the module, rewrites the module and records a bit of its page: the non-volatile memory
changes only where a cycle ran (R280, R290). -/
theorem completes_learningEnded {code bit : Nat} (hshape : s.d.shape = true) (hc : exec c s = done f s)
    (hf : f s.d = ((s.d.learnDq m code).updBbu m g).occur (bbuPg m) bit) :
    Completes c s [.stat, .bbus, .nv, .therm] fun e =>
      ((s.d.bbu m).learning = false → e.nv = s.d.nv ∧ e.therm = s.d.therm) ∧
      (∃ res l, s.d.bbuBecomes e m (g { s.d.bbu m with learning := false, lastResult := res, records := l })) ∧
      e.statOf (bbuPg m) = (if (s.d.bbu m).learning then (s.d.statOf (bbuPg m)).occur 4 5 else s.d.statOf (bbuPg m)).occur bit
        (bit + 1) ∧
      ∀ q, q ≠ bbuPg m → e.statOf q = s.d.statOf q := by
  have hm := Dev.bbu_lt hshape m
  obtain ⟨res, l, hmod⟩ := Dev.bbuBecomes_learnDq hm code
  refine completes_done hc hf
    (Dev.onlyIn_via (Dev.occur_onlyIn _ _ _) (by decide)
      (Dev.onlyIn_via (Dev.updBbu_onlyIn _ _ _) (by decide) (Dev.onlyIn_mono (Dev.learnDq_onlyIn _ _ _) (by decide))))
    ⟨fun hidle => ?_, ⟨res, l, (hmod.updBbu hm g).congr rfl⟩, Dev.statOf_learnDq_occur m.isLt rfl bit⟩
  rw [Dev.learnDq_idle hidle]
  exact ⟨rfl, rfl⟩

end

/-! ### RESERVE and the first estimate -/

/-- A module enters RESERVE and needs relearning (R276). -/
def Bbu.reserved (b : Bbu) : Bbu := { b with st := .reserve, relearn := true, low := false }

/-- The block in which module `m` has entered RESERVE, its record not yet stored. -/
def Dev.bbuReserved (d : Dev) (m : Nat) : Dev := (d.updBbu m Bbu.reserved).occur (bbuPg m) 3

/-- The stored record of a module in RESERVE says that it needs relearning. -/
theorem Dev.bbuBecomes_reserved_stored {d : Dev} {m : Nat} (hm : m < d.bbus.length) :
    ∃ r l, d.bbuBecomes ((d.bbuReserved m).bbuStore m) m { (d.bbu m).reserved with records := r :: l } ∧ r.relearn = true := by
  have hmod : d.bbuBecomes (d.bbuReserved m) m (d.bbu m).reserved := ((d.bbuBecomes_refl m).updBbu hm _).congr rfl
  obtain ⟨ring, l, hstore⟩ := hmod.bbuStore hm
  exact ⟨_, l, hstore, congrArg Bbu.relearn hmod.1⟩

/-- The block in which a class record whose points decrease has been reported for module `m` (R284). -/
def Dev.bbuClassChecked (d : Dev) (m : Nat) : Dev := if d.classOk m then d else d.occur (bbuPg m) 11

theorem Dev.bbuClassChecked_onlyIn (d : Dev) (m : Nat) : Dev.onlyIn [.stat] d (d.bbuClassChecked m) :=
  Dev.onlyIn_ite (Dev.onlyIn_refl _ _) (Dev.occur_onlyIn _ _ _)

theorem Dev.recorded_bbuClassChecked {d e : Dev} {m : Nat} (h : e.stat = (d.bbuClassChecked m).stat) :
    if d.classOk m then e.stat = d.stat else d.recorded e (bbuPg m) 11 := by
  unfold Dev.bbuClassChecked at h
  split
  · rw [if_pos ‹_›] at h; exact h
  · rw [if_neg ‹_›] at h; exact Dev.recorded_congr h (Dev.recorded_occur _ _ _)

/-! ### The status poll -/

/-- Controller port TW4 once the two reads of a status poll have been sent: no loss of arbitration stands against it (R427). -/
def TwCtl.asked (t : TwCtl) : TwCtl := { t with arbN := 0, arbFail := false }

/-- The block in which the two reads of a status poll of module `m` have been sent. -/
def Dev.bbuAsked (d : Dev) (m : Nat) : Dev :=
  ((d.sendRead 2 (d.fld (bbuPg m) 0x40 22 16) 0x79).sendRead 2 (d.fld (bbuPg m) 0x40 22 16) 0xD4).updTwC 2 TwCtl.asked

/-- A status poll that failed once is due again in the next frond (R424). -/
def Bbu.putOff (b : Bbu) : Bbu := { b with pollN := 63, pollAgain := true }

/-- The block in which the reads of a status poll stay without an answer: a NACK is recorded, a loss of arbitration is
not. -/
def Dev.bbuUnheard (d : Dev) (m : Nat) : Dev :=
  if (d.twc 2).arbFail then d.bbuAsked m else (d.bbuAsked m).occur 0xBC 0

/-- The block in which both reads of a status poll have been answered: two transactions are counted, and both answers wait for
message cells (R20, R424). -/
def Dev.bbuReplied (d : Dev) (m : Nat) (a : BitVec 16 × Byte) : Dev :=
  (((d.bbuAsked m).twDone 2 2).inBlock 0x14 (leBytes 2 a.1.toNat)).inBlock 0x14 [a.2]

/-- The block after a status poll of module `m` that could use the port. -/
def Dev.bbuPolled (d : Dev) (m : Nat) (answer : Option (BitVec 16 × Byte)) : Dev :=
  match answer with
  | some a => (d.bbuReplied m a).updBbu m fun b => b.answered a.2
  | none =>
    if (d.bbu m).pollAgain then ((d.bbuUnheard m).twGone 2 (d.fld (bbuPg m) 0x40 22 16)).updBbu m Bbu.missed
    else (d.bbuUnheard m).updBbu m Bbu.putOff

theorem Bbu.answered_st (b : Bbu) (charger : Byte) :
    (b.answered charger).st = if charger.getLsbD 2 = true ∧ b.present = true then .fault
      else if b.st = .fault then b.afterFault else b.st := by
  simp only [Bbu.answered, Bool.and_eq_true]

theorem Dev.bbuUnheard_keeps (d : Dev) (m : Nat) :
    (d.bbuUnheard m).bbus = d.bbus ∧ (d.bbuUnheard m).twC = updAt d.twC 2 TwCtl.asked ∧
      (d.bbuUnheard m).die = (d.bbuAsked m).die := by
  unfold Dev.bbuUnheard
  split
  · exact ⟨rfl, rfl, rfl⟩
  · exact ⟨rfl, rfl, rfl⟩

theorem Dev.recorded_bbuUnheard {d e : Dev} {m : Nat} (h : e.stat = (d.bbuUnheard m).stat) :
    if (d.twc 2).arbFail then e.stat = d.stat else d.recorded e 0xBC 0 := by
  unfold Dev.bbuUnheard at h
  split
  · rw [if_pos ‹_›] at h; exact h
  · rw [if_neg ‹_›] at h; exact Dev.recorded_congr h (Dev.recorded_occur_of rfl _ _)

theorem Dev.bbuAsked_onlyIn (d : Dev) (m : Nat) : Dev.onlyIn [.die, .twC] d (d.bbuAsked m) :=
  Dev.onlyIn_via (Dev.updTwC_onlyIn _ _ _) (by decide)
    (Dev.onlyIn_via (Dev.sendRead_onlyIn _ _ _ _) (by decide) (Dev.onlyIn_mono (Dev.sendRead_onlyIn _ _ _ _) (by decide)))

theorem Dev.bbuUnheard_onlyIn (d : Dev) (m : Nat) : Dev.onlyIn [.die, .stat, .twC] d (d.bbuUnheard m) :=
  Dev.onlyIn_ite (Dev.onlyIn_mono (d.bbuAsked_onlyIn m) (by decide))
    (Dev.onlyIn_via (Dev.occur_onlyIn _ _ _) (by decide) (Dev.onlyIn_mono (d.bbuAsked_onlyIn m) (by decide)))

theorem Dev.bbuReplied_onlyIn (d : Dev) (m : Nat) (a : BitVec 16 × Byte) : Dev.onlyIn [.die, .twC] d (d.bbuReplied m a) :=
  Dev.onlyIn_via (Dev.inBlock_onlyIn _ _ _) (by decide) (Dev.onlyIn_via (Dev.inBlock_onlyIn _ _ _) (by decide)
    (Dev.onlyIn_via (Dev.twDone_onlyIn _ _ _) (by decide) (d.bbuAsked_onlyIn m)))

theorem Dev.bbuPolled_onlyIn (d : Dev) (m : Nat) (answer : Option (BitVec 16 × Byte)) :
    Dev.onlyIn [.die, .stat, .bbus, .twC] d (d.bbuPolled m answer) := by
  cases answer with
  | some a =>
    exact Dev.onlyIn_via (Dev.updBbu_onlyIn _ _ _) (by decide) (Dev.onlyIn_mono (d.bbuReplied_onlyIn m a) (by decide))
  | none =>
    have hunheard := d.bbuUnheard_onlyIn m
    exact Dev.onlyIn_ite
      (Dev.onlyIn_via (Dev.updBbu_onlyIn _ _ _) (by decide) (Dev.onlyIn_via (Dev.twGone_onlyIn _ _ _) (by decide)
        (Dev.onlyIn_mono hunheard (by decide))))
      (Dev.onlyIn_via (Dev.updBbu_onlyIn _ _ _) (by decide) (Dev.onlyIn_mono hunheard (by decide)))

/-- The first attempt of a status poll stays without an answer: it is tried again, and nothing is counted (R424). -/
theorem Dev.bbuPolled_putOff {d : Dev} {m : Nat} (hm : m < d.bbus.length) (hport : 2 < d.twC.length)
    (hfirst : (d.bbu m).pollAgain = false) :
    d.bbuBecomes (d.bbuPolled m none) m (d.bbu m).putOff ∧ (d.bbuPolled m none).twc 2 = (d.twc 2).asked ∧
      sameBut 2 d.twC (d.bbuPolled m none).twC ∧ (d.bbuPolled m none).die = (d.bbuUnheard m).die ∧
      (d.bbuPolled m none).stat = (d.bbuUnheard m).stat := by
  obtain ⟨hbbus, htwC, -⟩ := d.bbuUnheard_keeps m
  have hpolled : d.bbuPolled m none = (d.bbuUnheard m).updBbu m Bbu.putOff := if_neg (Bool.eq_false_iff.mp hfirst)
  rw [hpolled]
  obtain ⟨hown, hothers⟩ := Dev.port_of_updAt (e := (d.bbuUnheard m).updBbu m Bbu.putOff) hport htwC
  exact ⟨Dev.bbuBecomes_updBbu_of hbbus hm _, hown, hothers, rfl, rfl⟩

/-- The second attempt stays without an answer: the poll has failed and the module has missed it (R282, R424). -/
theorem Dev.bbuPolled_missed {d : Dev} {m : Nat} (hm : m < d.bbus.length) (hport : 2 < d.twC.length)
    (hagain : (d.bbu m).pollAgain = true) :
    d.bbuBecomes (d.bbuPolled m none) m (d.bbu m).missed ∧
      (d.bbuPolled m none).twc 2 =
        { (d.twc 2).asked with failed := satInc 65535 (d.twc 2).failed, addr := d.fld (bbuPg m) 0x40 22 16 } ∧
      sameBut 2 d.twC (d.bbuPolled m none).twC ∧ (d.bbuPolled m none).die = (d.bbuUnheard m).die ∧
      (d.bbuPolled m none).stat = (d.bbuUnheard m).stat := by
  obtain ⟨hbbus, htwC, -⟩ := d.bbuUnheard_keeps m
  have hpolled : d.bbuPolled m none = ((d.bbuUnheard m).twGone 2 (d.fld (bbuPg m) 0x40 22 16)).updBbu m Bbu.missed := if_pos hagain
  have hports : (d.bbuPolled m none).twC = updAt d.twC 2 ((fun t => { t with
      failed := satInc 65535 t.failed, addr := d.fld (bbuPg m) 0x40 22 16 }) ∘ TwCtl.asked) := by
    rw [hpolled, Dev.updBbu_twC, Dev.twGone, Dev.updTwC_twC, htwC, updAt_updAt]
  obtain ⟨hown, hothers⟩ := Dev.port_of_updAt hport hports
  refine ⟨?_, hown, hothers, ?_, ?_⟩
  · rw [hpolled]; exact Dev.bbuBecomes_updBbu_of hbbus hm _
  · rw [hpolled]; rfl
  · rw [hpolled]; rfl

theorem Dev.bbuReplied_twC (d : Dev) (m : Nat) (a : BitVec 16 × Byte) :
    (d.bbuReplied m a).twC = updAt d.twC 2 ((fun t => { t with done := min 65535 (t.done + 2) }) ∘ TwCtl.asked) := by
  have hcells : (d.bbuReplied m a).twC = ((d.bbuAsked m).twDone 2 2).twC := rfl
  rw [hcells, Dev.twDone, Dev.updTwC_twC, Dev.bbuAsked, Dev.updTwC_twC, updAt_updAt]
  rfl

theorem Dev.bbuReplied_die (d : Dev) (m : Nat) (a : BitVec 16 × Byte) :
    (d.bbuReplied m a).die = { (d.bbuAsked m).die with
      inq := d.die.inq ++ [⟨0x14, leBytes 2 a.1.toNat, false⟩, ⟨0x14, [a.2], false⟩] } :=
  congrArg (fun q => { (d.bbuAsked m).die with inq := q }) (List.append_assoc d.die.inq [_] [_])

/-- A status poll is answered: both transactions are counted and both answers wait for message cells (R20, R282, R423). -/
theorem Dev.bbuPolled_answered {d : Dev} {m : Nat} (hm : m < d.bbus.length) (hport : 2 < d.twC.length) (a : BitVec 16 × Byte) :
    d.bbuBecomes (d.bbuPolled m (some a)) m ((d.bbu m).answered a.2) ∧
      (d.bbuPolled m (some a)).twc 2 = { (d.twc 2).asked with done := min 65535 ((d.twc 2).done + 2) } ∧
      sameBut 2 d.twC (d.bbuPolled m (some a)).twC ∧ (d.bbuPolled m (some a)).stat = d.stat ∧
      (d.bbuPolled m (some a)).die = { (d.bbuAsked m).die with
        inq := d.die.inq ++ [⟨0x14, leBytes 2 a.1.toNat, false⟩, ⟨0x14, [a.2], false⟩] } := by
  have hpolled : d.bbuPolled m (some a) = (d.bbuReplied m a).updBbu m fun b => b.answered a.2 := rfl
  obtain ⟨hown, hothers⟩ := Dev.port_of_updAt hport (d.bbuReplied_twC m a)
  have honly := d.bbuReplied_onlyIn m a
  rw [hpolled]
  exact ⟨Dev.bbuBecomes_updBbu_of (honly .bbus (by decide)) hm _, hown, hothers, honly .stat (by decide), d.bbuReplied_die m a⟩

section
variable {s : State} {m : Fin 4} {answer : Option (BitVec 16 × Byte)}

/-- BBU_STATUS_POLL where it is due: while the port is STUCK it fails at once, with nothing sent (R428), and a poll whose fourth
loss of arbitration came has no answer (R427). -/
theorem execBbuStatusPoll_due (hen : s.d.bbuEn m = true) (hcompat : s.d.bbuCompat m = false) (hdue : 64 ≤ (s.d.bbu m).pollN)
    (hbusy : s.d.twcBusy 2 = false) :
    ∃ f : Dev → Dev, exec (.bbuStatusPoll m answer) s = done f s ∧
      f s.d = if (s.d.twc 2).stuck then (s.d.twGone 2 (s.d.fld (bbuPg m) 0x40 22 16)).updBbu m Bbu.missed
        else s.d.bbuPolled m (if (s.d.twc 2).arbFail then none else answer) := by
  have hrun : ¬(s.d.twcBusy 2 || !s.d.bbuEn m || s.d.bbuCompat m || decide ((s.d.bbu m).pollN < 64)) = true := by
    simp [hen, hcompat, hbusy, hdue]
  refine ⟨_, rfl, (if_neg hrun).trans (congrArg (ite _ _) ?_)⟩
  unfold Dev.bbuPolled
  cases (if (s.d.twc 2).arbFail = true then none else answer) with
  | some a => rfl
  | none =>
    obtain ⟨hbbus, -⟩ := s.d.bbuUnheard_keeps m
    dsimp only
    rw [← Dev.bbu_congr hbbus m]
    rfl

end

/-! ### A module that has come -/

/-- The block in which the serial number of module `m` has been read (R282, R423). -/
def Dev.bbuSerialRead (d : Dev) (m : Nat) (serial : BitVec 64) : Dev :=
  ((d.sendRead 2 (d.fld (bbuPg m) 0x40 22 16) 0x9E).twDone 2 1).inBlock 0x14 (leBytes 8 serial.toNat)

theorem Dev.bbuSerialRead_onlyIn (d : Dev) (m : Nat) (serial : BitVec 64) : Dev.onlyIn [.die, .twC] d (d.bbuSerialRead m serial) :=
  Dev.onlyIn_via (Dev.inBlock_onlyIn _ _ _) (by decide)
    (Dev.onlyIn_via (Dev.twDone_onlyIn _ _ _) (by decide) (Dev.onlyIn_mono (Dev.sendRead_onlyIn _ _ _ _) (by decide)))

/-- The block in which module `m`, its serial number read, is in its first estimate (R282, R283). -/
def Dev.bbuArrived (d : Dev) (m : Nat) (serial : BitVec 64) : Dev :=
  ((d.bbuSerialRead m serial).updBbu m fun b => { b with newPresence := false, serial := serial.toNat }).bbuStart m

theorem Dev.bbuArrived_onlyIn (d : Dev) (m : Nat) (serial : BitVec 64) :
    Dev.onlyIn [.die, .bbus, .twC] d (d.bbuArrived m serial) :=
  Dev.onlyIn_via (Dev.bbuStart_onlyIn _ _) (by decide)
    (Dev.onlyIn_via (Dev.updBbu_onlyIn _ _ _) (by decide) (Dev.onlyIn_mono (d.bbuSerialRead_onlyIn m serial) (by decide)))

theorem Dev.bbuArrived_die (d : Dev) (m : Nat) (serial : BitVec 64) :
    (d.bbuArrived m serial).die = { d.die with
      sent := readBlk 2 (d.fld (bbuPg m) 0x40 22 16) 0x9E :: d.die.sent,
      inq := d.die.inq ++ [⟨0x14, leBytes 8 serial.toNat, false⟩] } := rfl

theorem Dev.bbuArrived_twC (d : Dev) (m : Nat) (serial : BitVec 64) :
    (d.bbuArrived m serial).twC = updAt d.twC 2 fun t => { t with done := min 65535 (t.done + 1) } := rfl

section
variable {s : State} {m : Fin 4}

/-- BBU_INSERTION where it is due and the port can be used. -/
theorem execBbuInsertion_comes {serial : BitVec 64} (hnew : (s.d.bbu m).newPresence = true) (habsent : (s.d.bbu m).present = false)
    (hbusy : s.d.twcBusy 2 = false) (hstuck : (s.d.twc 2).stuck = false) :
    ∃ f : Dev → Dev, exec (.bbuInsertion m serial) s = done f s ∧
      f s.d = ((s.d.bbuArrived m serial).bbuIdentify m false).occur (bbuPg m) 0 := by
  have hrun : ¬(s.d.twcBusy 2 || !(s.d.bbu m).newPresence || (s.d.bbu m).present) = true := by simp [hnew, habsent, hbusy]
  exact ⟨_, rfl, (if_neg hrun).trans (if_neg (Bool.eq_false_iff.mp hstuck))⟩

end

/-! ### The events -/

/-- Settles O40: each command by the block that it answers; a status poll by its answer and by whether it is the first attempt. -/
theorem batteryEvents : Obligations.BatteryEvents := by
  refine ⟨fun s m hshape hen hinv hcause => ?countInvalid, fun s m hshape hseen hempty _ => ?fullAnchor,
    fun s m hshape hpresent hlow hword => ?emptyAnchor, fun s m hshape hlow hempty hq hst => ?reserve,
    fun s m answer hshape hen hcompat hdue hbusy hstuck => ?poll, fun s m answer hshape hen hcompat hdue hbusy hstuck => ?pollStuck,
    fun s m serial hshape hnew habsent hbusy hstuck => ?insertion, fun s m hshape hpresent habsent => ?removal,
    fun s m hshape hst hid => ?estimate, fun s m hshape hcompat hen hswap habsent => ?swap, fun s m hshape hnaks => ?chgComm⟩
  case countInvalid =>
    have hcond : (s.d.bbuEn m && !(s.d.bbu m).countInv && (decide (5 ≤ (s.d.bbu m).gapRun) || (s.d.bbu m).uncounted)) = true := by
      simp [hen, hinv, hcause]
    refine (completes_learningEnded hshape rfl (if_pos hcond)).imp fun e => ?_
    rintro ⟨hkeeps, ⟨res, l, hmod, hothers⟩, hstat⟩
    exact ⟨hkeeps, congrArg Bbu.countInv hmod, congrArg Bbu.allow hmod, congrArg Bbu.learning hmod, hothers, hstat⟩
  case fullAnchor =>
    refine (completes_updBbu hshape rfl (if_pos (by rw [hseen, hempty]; rfl)) rfl (Dev.onlyIn_refl _ _) (by decide)).imp fun e => ?_
    rintro ⟨hmod, -⟩
    exact hmod
  case emptyAnchor =>
    have hcond : ((s.d.bbu m).present && decide (2 ≤ (s.d.bbu m).vLow) && decide (s.d.bbuWord m < -(s.d.deadband m))) = true := by
      simp [hpresent, hlow, hword]
    refine (completes_updBbu hshape rfl (if_pos hcond) rfl (Dev.onlyIn_refl _ _) (by decide)).imp fun e => ?_
    rintro ⟨hmod, -⟩
    exact hmod
  case reserve =>
    have hcond : ((s.d.bbu m).low && !(s.d.bbu m).emptyDue && (s.d.bbu m).q == 0 &&
        ((s.d.bbu m).st == .estimated || (s.d.bbu m).st == .anchored)) = true := by
      simp [hlow, hempty, hq, hst]
    obtain ⟨r, l, ⟨hmod, hothers⟩, hrelearn⟩ := Dev.bbuBecomes_reserved_stored (Dev.bbu_lt hshape m)
    refine completes_done (e := (s.d.bbuReserved m).bbuStore m) rfl (if_pos hcond)
      (Dev.onlyIn_via (Dev.bbuStore_onlyIn _ _) (by decide)
        (Dev.onlyIn_via (Dev.occur_onlyIn _ _ _) (by decide) (Dev.onlyIn_mono (Dev.updBbu_onlyIn _ _ _) (by decide))))
      ⟨?_, ?_, fun hheld => Dev.bbuStore_nv_of_held (d := s.d.bbuReserved m) hheld m,
        fun hfree => Dev.bbuStore_therm_of_free (d := s.d.bbuReserved m) hfree m, hothers,
        Dev.recorded_congr (Dev.bbuStore_stat _ _) (Dev.recorded_occur_of rfl _ _)⟩
    · rw [hmod]; rfl
    · rw [hmod]; exact congrArg some hrelearn
  case poll =>
    have hm := Dev.bbu_lt hshape m
    have hport := Dev.tw4_lt hshape
    obtain ⟨f, hexec, hf⟩ := execBbuStatusPoll_due (answer := answer) hen hcompat hdue hbusy
    refine completes_done hexec (hf.trans (if_neg (Bool.eq_false_iff.mp hstuck))) (s.d.bbuPolled_onlyIn m _) ?_
    dsimp only
    generalize (if (s.d.twc 2).arbFail = true then none else answer) = heard
    cases heard with
    | some a =>
      obtain ⟨⟨hmod, hothers⟩, hown, hports, hstat, hdie⟩ := Dev.bbuPolled_answered hm hport a
      exact ⟨hothers, hports, congrArg Bbu.pollN hmod, congrArg Bbu.pollAgain hmod, congrArg Bbu.misses hmod,
        congrArg Bbu.statusOk hmod, congrArg Bbu.term hmod, congrArg Bbu.newPresence hmod,
        (congrArg Bbu.st hmod).trans (Bbu.answered_st _ _), hown, hstat, hdie⟩
    | none =>
      obtain ⟨-, -, hsent⟩ := s.d.bbuUnheard_keeps m
      cases hagain : (s.d.bbu m).pollAgain with
      | false =>
        obtain ⟨⟨hmod, hothers⟩, hown, hports, hdie, hstat⟩ := Dev.bbuPolled_putOff hm hport hagain
        exact ⟨hothers, hports, hdie.trans hsent, Dev.recorded_bbuUnheard hstat, hmod, hown⟩
      | true =>
        obtain ⟨⟨hmod, hothers⟩, hown, hports, hdie, hstat⟩ := Dev.bbuPolled_missed hm hport hagain
        refine ⟨hothers, hports, hdie.trans hsent, Dev.recorded_bbuUnheard hstat, hmod.trans ?_, hown⟩
        rw [Bbu.missed, hagain]; rfl
  case pollStuck =>
    have hport := Dev.tw4_lt hshape
    obtain ⟨f, hexec, hf⟩ := execBbuStatusPoll_due (answer := answer) hen hcompat hdue hbusy
    have hgone := Dev.twGone_onlyIn s.d 2 (s.d.fld (bbuPg m) 0x40 22 16)
    obtain ⟨hmod, hothers⟩ := Dev.bbuBecomes_updBbu_of (hgone .bbus (by decide)) (Dev.bbu_lt hshape m) Bbu.missed
    obtain ⟨hown, hports⟩ := Dev.port_of_updAt hport (s.d.updTwC_twC 2 fun t =>
      { t with failed := satInc 65535 t.failed, addr := s.d.fld (bbuPg m) 0x40 22 16 })
    exact completes_done hexec (hf.trans (if_pos hstuck))
      (Dev.onlyIn_via (Dev.updBbu_onlyIn _ _ _) (by decide) (Dev.onlyIn_mono hgone (by decide)))
      ⟨hothers, hports, hmod, hown⟩
  case insertion =>
    have hm := Dev.bbu_lt hshape m
    have hport := Dev.tw4_lt hshape
    obtain ⟨f, hexec, hf⟩ := execBbuInsertion_comes (serial := serial) hnew habsent hbusy hstuck
    have honly := (s.d.bbuArrived m serial).bbuIdentify_onlyIn m false
    have hread := (s.d.bbuSerialRead_onlyIn m serial) .bbus (by decide)
    have harrived : s.d.bbuBecomes (s.d.bbuArrived m serial) m _ := (Dev.bbuBecomes_updBbu_of hread hm _).updBbu hm _
    obtain ⟨c, n, r, res, l, hmod, hothers⟩ := harrived.bbuIdentify hm false
    obtain ⟨hown, hports⟩ := Dev.port_of_updAt hport ((honly .twC (by decide)).trans (s.d.bbuArrived_twC m serial))
    have hrecorded := (s.d.bbuArrived m serial).statOf_bbuIdentify_occur m.isLt false 0
    have harrivedStat : (s.d.bbuArrived m serial).stat = s.d.stat := s.d.bbuArrived_onlyIn m serial .stat (by decide)
    simp only [Dev.statOf_congr harrivedStat] at hrecorded
    exact completes_done hexec hf
      (Dev.onlyIn_via (Dev.occur_onlyIn _ _ _) (by decide)
        (Dev.onlyIn_via honly (by decide) (Dev.onlyIn_mono (s.d.bbuArrived_onlyIn m serial) (by decide))))
      ⟨(honly .die (by decide)).trans (s.d.bbuArrived_die m serial), hown, hports, congrArg Bbu.st hmod,
        congrArg Bbu.present hmod, congrArg Bbu.known hmod, congrArg Bbu.serial hmod, congrArg Bbu.newPresence hmod, hothers, hrecorded⟩
  case removal =>
    have hcond : ((s.d.bbu m).present && (if s.d.bbuCompat m then decide (2 ≤ (s.d.bbu m).absRun)
        else decide (3 ≤ (s.d.bbu m).misses))) = true := by
      rw [hpresent, Bool.true_and]
      split at habsent
      · rw [if_pos ‹_›]; exact decide_eq_true habsent
      · rw [if_neg ‹_›]; exact decide_eq_true habsent
    refine (completes_learningEnded hshape rfl (if_pos hcond)).imp fun e => ?_
    rintro ⟨hkeeps, ⟨res, l, hmod, hothers⟩, hstat⟩
    exact ⟨hkeeps, congrArg Bbu.gone hmod, congrArg Bbu.chgI hmod, congrArg Bbu.idDue hmod, congrArg Bbu.sendDue hmod,
      congrArg Bbu.st hmod, congrArg Bbu.present hmod, congrArg Bbu.chgOn hmod, congrArg Bbu.allow hmod, congrArg Bbu.known hmod,
      congrArg Bbu.learning hmod, hothers, hstat⟩
  case estimate =>
    intro b rest late v hwhen
    have honly := s.d.bbuClassChecked_onlyIn m
    refine (completes_updBbu (x := s.d.bbuClassChecked m) hshape rfl (if_pos ⟨hst, hid, hwhen⟩) (honly .bbus (by decide))
      (Dev.onlyIn_mono honly (by decide)) (by decide)).imp fun e => ?_
    rintro ⟨⟨hmod, hothers⟩, hstat⟩
    exact ⟨hmod, hothers, Dev.recorded_bbuClassChecked hstat⟩
  case swap =>
    have hm := Dev.bbu_lt hshape m
    have hcond : (s.d.bbuCompat m && s.d.bbuEn m && (s.d.bbu m).swapSeen && !(s.d.bbu m).present) = true := by
      simp [hcompat, hen, hswap, habsent]
    have hstart : s.d.bbuBecomes (s.d.bbuStart m) m _ := (s.d.bbuBecomes_refl m).updBbu hm _
    refine (completes_bbuRecorded rfl (if_pos hcond) (hstart.updBbu hm _)
      (Dev.onlyIn_trans (Dev.bbuStart_onlyIn _ _) (Dev.updBbu_onlyIn _ _ _))).imp fun e => ?_
    rintro ⟨⟨hmod, hothers⟩, hrecorded⟩
    exact ⟨congrArg Bbu.st hmod, congrArg Bbu.present hmod, congrArg Bbu.swapSeen hmod, congrArg Bbu.known hmod,
      congrArg Bbu.idInvalid hmod, congrArg Bbu.idDue hmod, congrArg Bbu.chgOn hmod, hothers, hrecorded⟩
  case chgComm =>
    refine (completes_bbuRecorded rfl (if_pos hnaks) ((s.d.bbuBecomes_refl m).updBbu (Dev.bbu_lt hshape m) _)
      (Dev.updBbu_onlyIn _ _ _)).imp fun e => ?_
    rintro ⟨⟨hmod, hothers⟩, hrecorded⟩
    exact ⟨hmod, hothers, hrecorded⟩

end Sys2Proof.Machine
end

section
/-! PROOF. Twins that leave operation: the role that passes, the SRAM that stays, OUT, RESTART and quarantine (R3, R297, R303, R307). -/

namespace Sys2Proof.Machine

/-! ### The two twins of the control state -/

theorem otherTwin_ne (t : Twin) : otherTwin t ≠ t := by cases t <;> decide

theorem Dev.twinOf_updTwin_otherTwin (d : Dev) (t : Twin) (f : TwinSt → TwinSt) :
    (d.updTwin t f).twinOf (otherTwin t) = d.twinOf (otherTwin t) := d.twinOf_updTwin_other f (otherTwin_ne t)

/-- Of the control state of the twins only the twins themselves differ. -/
def Dev.sameCtl (d e : Dev) : Prop := ∃ a b, e.twin = { d.twin with a := a, b := b }

theorem Dev.sameCtl_of_eq {d e : Dev} (h : e.twin = d.twin) : d.sameCtl e := ⟨_, _, h⟩

theorem Dev.sameCtl.trans {d e f : Dev} (h : d.sameCtl e) (k : e.sameCtl f) : d.sameCtl f := by
  obtain ⟨_, _, he⟩ := h
  obtain ⟨a, b, hf⟩ := k
  exact ⟨a, b, by rw [hf, he]⟩

theorem Dev.sameCtl_updTwin (d : Dev) (t : Twin) (f : TwinSt → TwinSt) : d.sameCtl (d.updTwin t f) := by
  cases t <;> exact ⟨_, _, rfl⟩

/-! ### The SRAM that a twin keeps -/

/-- What twin `t` holds of the SRAM as it left operation (R3, R8). -/
def Dev.keptOf (d : Dev) : Twin → Option Memory
  | .a => d.sramA
  | .b => d.sramB

theorem Dev.keptOf_congr {d e : Dev} (ha : e.sramA = d.sramA) (hb : e.sramB = d.sramB) (t : Twin) : e.keptOf t = d.keptOf t := by
  cases t
  · exact ha
  · exact hb

theorem Dev.keepSram_of_idle {d : Dev} {t : Twin} (h : (d.twinOf t).st.running = false) : d.keepSram t = d := by
  simp [Dev.keepSram, h]

theorem Dev.keptOf_keepSram (d : Dev) (t : Twin) :
    (d.keepSram t).keptOf t = (if (d.twinOf t).st.running then some d.sram else d.keptOf t) ∧
      (d.keepSram t).keptOf (otherTwin t) = d.keptOf (otherTwin t) := by
  unfold Dev.keepSram
  split <;> cases t <;> exact ⟨rfl, rfl⟩

theorem Dev.keepSram_twin (d : Dev) (t : Twin) : (d.keepSram t).twin = d.twin := d.keepSram_onlyIn t .twin (by decide)

/-! ### The role of the ACTIVE twin -/

/-- Twin `t` is ACTIVE beside a twin that sends copies, which takes the role when `t` leaves (R297). -/
def Dev.passes (d : Dev) (t : Twin) : Bool := decide ((d.twinOf t).st = .active) && (d.twinOf (otherTwin t)).st.running

theorem Dev.passes_iff {d : Dev} {t : Twin} :
    d.passes t = true ↔ (d.twinOf t).st = .active ∧ (d.twinOf (otherTwin t)).st.running = true := by
  simp [Dev.passes]

theorem Dev.passes_congr {d e : Dev} (h : e.twin = d.twin) (t : Twin) : e.passes t = d.passes t := by
  simp only [Dev.passes, Dev.twinOf_congr h]

theorem Dev.passes_of_idle {d : Dev} {t : Twin} (h : (d.twinOf t).st.running = false) : d.passes t = false := by
  rw [Bool.eq_false_iff, ne_eq, Dev.passes_iff]
  rintro ⟨hact, -⟩
  rw [hact] at h
  exact Bool.noConfusion h

/-- The other twin once `t` has left: ACTIVE where `t` passes the role to it. -/
def Dev.relieved (d : Dev) (t : Twin) : TwinSt :=
  if d.passes t then { d.twinOf (otherTwin t) with st := .active, prob := 0 } else d.twinOf (otherTwin t)

theorem Dev.relieved_congr {d e : Dev} (h : e.twin = d.twin) (t : Twin) : e.relieved t = d.relieved t := by
  simp only [Dev.relieved, Dev.passes_congr h, Dev.twinOf_congr h]

theorem Dev.relieved_of_not_passes {d : Dev} {t : Twin} (h : d.passes t = false) : d.relieved t = d.twinOf (otherTwin t) := by
  simp [Dev.relieved, h]

theorem Dev.relieved_st (d : Dev) (t : Twin) : (d.relieved t).st =
    if (d.twinOf t).st = .active ∧ (d.twinOf (otherTwin t)).st.running = true then .active else (d.twinOf (otherTwin t)).st := by
  simp only [← Dev.passes_iff, Dev.relieved, apply_ite TwinSt.st]

theorem Dev.passRole_of_not_passes {d : Dev} {t : Twin} (h : d.passes t = false) : d.passRole t = d :=
  if_neg (mt Dev.passes_iff.mpr (by simp [h]))

theorem Dev.passRole_of_passes {d : Dev} {t : Twin} (h : d.passes t = true) :
    d.passRole t = (d.updTwin t fun x => { x with st := .out }).makeActive (otherTwin t) := if_pos (Dev.passes_iff.mp h)

theorem Dev.makeActive_twin (d : Dev) (t : Twin) :
    (d.makeActive t).twin = (d.updTwin t fun x => { x with st := .active, prob := 0 }).twin := Dev.roleWrite_onlyIn _ _ .twin (by decide)

/-- Twin `t` where it passes the role, and the other twin. -/
theorem Dev.passRole_twins (d : Dev) (t : Twin) :
    (d.passRole t).twinOf t = (if d.passes t then { d.twinOf t with st := .out } else d.twinOf t) ∧
      (d.passRole t).twinOf (otherTwin t) = d.relieved t ∧ d.sameCtl (d.passRole t) := by
  cases h : d.passes t with
  | false =>
    rw [Dev.passRole_of_not_passes h, Dev.relieved_of_not_passes h]
    exact ⟨rfl, rfl, Dev.sameCtl_of_eq rfl⟩
  | true =>
    have hctl := Dev.makeActive_twin (d.updTwin t fun x => { x with st := .out }) (otherTwin t)
    rw [Dev.passRole_of_passes h, Dev.relieved, h]
    refine ⟨?_, ?_, ((Dev.sameCtl_updTwin _ _ _).trans (Dev.sameCtl_updTwin _ _ _)).trans (Dev.sameCtl_of_eq hctl)⟩
    · rw [Dev.twinOf_congr hctl, Dev.twinOf_updTwin_other _ _ (otherTwin_ne t).symm, Dev.twinOf_updTwin_same]; rfl
    · rw [Dev.twinOf_congr hctl, Dev.twinOf_updTwin_same, Dev.twinOf_updTwin_otherTwin]; rfl

/-! ### A twin that leaves operation -/

/-- Twin `t` has left operation: its SRAM stays as it stood, the other twin holds the role where `t` held it, and nothing else of
the twins' control differs but `t` itself. -/
structure Dev.TwinLeft (d e : Dev) (t : Twin) : Prop where
  other : e.twinOf (otherTwin t) = d.relieved t
  kept : e.keptOf t = if (d.twinOf t).st.running then some d.sram else d.keptOf t
  keptOther : e.keptOf (otherTwin t) = d.keptOf (otherTwin t)
  ctl : d.sameCtl e

section
variable {d m e : Dev} {t : Twin}

/-- The part of the block that holds the twins differs, and no kept SRAM. -/
theorem Dev.TwinLeft.after (h : d.TwinLeft m t) (hother : e.twinOf (otherTwin t) = m.twinOf (otherTwin t)) (hctl : m.sameCtl e)
    (honly : Dev.onlyIn [.stat, .twin] m e) : d.TwinLeft e t :=
  have hkept := Dev.keptOf_congr (honly .sramA (by decide)) (honly .sramB (by decide))
  ⟨hother.trans h.other, (hkept t).trans h.kept, (hkept _).trans h.keptOther, h.ctl.trans hctl⟩

/-- A twin that has left has no role to pass. -/
theorem Dev.TwinLeft.passes (h : d.TwinLeft m t) (hst : (m.twinOf t).st = if d.passes t then .out else (d.twinOf t).st) :
    m.passes t = false := by
  cases hp : d.passes t with
  | true => rw [hp] at hst; exact Dev.passes_of_idle (by rw [hst]; rfl)
  | false =>
    rw [hp] at hst
    rw [← hp, Dev.passes, Dev.passes, hst, h.other, Dev.relieved_of_not_passes hp]; rfl

/-- A twin that leaves once more keeps what it kept when it left. -/
theorem Dev.TwinLeft.again (h : d.TwinLeft m t) (hst : (m.twinOf t).st = if d.passes t then .out else (d.twinOf t).st)
    (hsram : m.sram = d.sram) (k : m.TwinLeft e t) : d.TwinLeft e t := by
  have hpass := h.passes hst
  refine ⟨by rw [k.other, Dev.relieved_of_not_passes hpass, h.other], ?_, k.keptOther.trans h.keptOther, h.ctl.trans k.ctl⟩
  rw [k.kept, h.kept, hsram]
  cases hp : d.passes t with
  | true => rw [hp] at hst; rw [hst]; rfl
  | false =>
    rw [hp, if_neg Bool.false_ne_true] at hst
    rw [hst]
    cases (d.twinOf t).st.running <;> rfl

/-- The SRAM stays and the role passes. -/
theorem Dev.twinLeft_passRole (d : Dev) (t : Twin) : d.TwinLeft ((d.keepSram t).passRole t) t := by
  obtain ⟨-, hother, hctl⟩ := (d.keepSram t).passRole_twins t
  obtain ⟨hkept, hkeptOther⟩ := d.keptOf_keepSram t
  have honly := (d.keepSram t).passRole_onlyIn t
  have hsram := Dev.keptOf_congr (honly .sramA (by decide)) (honly .sramB (by decide))
  exact ⟨hother.trans (Dev.relieved_congr (d.keepSram_twin t) t), (hsram t).trans hkept, (hsram _).trans hkeptOther,
    (Dev.sameCtl_of_eq (d.keepSram_twin t)).trans hctl⟩

theorem Dev.TwinLeft.updTwin (h : d.TwinLeft m t) (f : TwinSt → TwinSt) : d.TwinLeft (m.updTwin t f) t :=
  h.after (m.twinOf_updTwin_otherTwin t f) (m.sameCtl_updTwin t f) (Dev.onlyIn_mono (m.updTwin_onlyIn t f) (by decide))

theorem Dev.TwinLeft.occur (h : d.TwinLeft m t) (pg bit : Nat) : d.TwinLeft (m.occur pg bit) t :=
  h.after (Dev.twinOf_congr (m.occur_onlyIn pg bit .twin (by decide)) _) (Dev.sameCtl_of_eq (m.occur_onlyIn pg bit .twin (by decide)))
    (Dev.onlyIn_mono (m.occur_onlyIn pg bit) (by decide))

end

/-! ### OUT and RESTART -/

theorem Dev.twinLeft_twinOut (d : Dev) (t : Twin) (auto : Bool) : d.TwinLeft (d.twinOut t auto) t :=
  ((d.twinLeft_passRole t).updTwin _).occur _ _

theorem Dev.twinOf_twinOut (d : Dev) (t : Twin) (auto : Bool) : (d.twinOut t auto).twinOf t =
    { d.twinOf t with st := .out, retired := !auto, outLeft := d.fld 0xA0 0x44 15 0, prob := 0 } := by
  obtain ⟨hself, -, -⟩ := (d.keepSram t).passRole_twins t
  have hregs : ((d.keepSram t).passRole t).regs = d.regs :=
    ((d.keepSram t).passRole_onlyIn t .regs (by decide)).trans (d.keepSram_onlyIn t .regs (by decide))
  have hfld : ((d.keepSram t).passRole t).fld 0xA0 0x44 15 0 = d.fld 0xA0 0x44 15 0 := by simp only [Dev.fld, Dev.reg, hregs]
  refine (Dev.twinOf_updTwin_same _ t _).trans ?_
  rw [hself, hfld, Dev.twinOf_congr (d.keepSram_twin t)]
  split <;> rfl

theorem Dev.twinLeft_twinRestart {d : Dev} {t : Twin} (h : d.passes t = false) : d.TwinLeft (d.twinRestart t) t := by
  have hleft := d.twinLeft_passRole t
  rw [Dev.passRole_of_not_passes ((Dev.passes_congr (d.keepSram_twin t) t).trans h)] at hleft
  exact hleft.updTwin _

theorem Dev.twinRestart_st (d : Dev) (t : Twin) : ((d.twinRestart t).twinOf t).st = .restart :=
  congrArg TwinSt.st (Dev.twinOf_updTwin_same _ t _)

theorem Dev.twinRestart_quar (d : Dev) (t : Twin) : ((d.twinRestart t).twinOf t).quar = (d.twinOf t).quar :=
  (congrArg TwinSt.quar (Dev.twinOf_updTwin_same _ t _)).trans
    (congrArg TwinSt.quar (Dev.twinOf_congr (d.keepSram_twin t) t) : ((d.keepSram t).twinOf t).quar = _)

/-! ### Quarantine -/

/-- A quarantine of twin `t` is counted, and which of them count is judged anew (R307). -/
def Dev.noteQuar (d : Dev) (t : Twin) (silent : Bool) : Dev :=
  d.updTwin t fun x =>
    { x with quar := inc8 x.quar, silentOut := silent,
             quarAt := d.time.epoch :: x.quarAt.filter fun e => decide (d.time.epoch < e + d.fld 0xA0 0x40 31 16) }

/-- The block once twin `t` has left and its quarantine is counted (R301, R307). -/
def Dev.quarCounted (d : Dev) (t : Twin) (silent : Bool) : Dev :=
  (((d.keepSram t).passRole t).occur 0xA0 (1 + twinIdx t)).noteQuar t silent

theorem Dev.quarantine_eq (d : Dev) (t : Twin) (silent : Bool) : d.quarantine t silent =
    let m := d.quarCounted t silent
    if m.fld 0xA0 0x40 15 8 < (m.twinOf t).quarAt.length then m.twinOut t false else m.twinRestart t := rfl

theorem Dev.twinLeft_quarCounted (d : Dev) (t : Twin) (silent : Bool) : d.TwinLeft (d.quarCounted t silent) t := by
  rw [Dev.quarCounted, Dev.noteQuar]
  exact ((d.twinLeft_passRole t).occur _ _).updTwin _

theorem Dev.quarCounted_onlyIn (d : Dev) (t : Twin) (silent : Bool) :
    Dev.onlyIn [.stat, .sramA, .sramB, .twin, .nv, .therm] d (d.quarCounted t silent) :=
  Dev.onlyIn_via (Dev.updTwin_onlyIn _ _ _) (by decide) (Dev.onlyIn_via (Dev.occur_onlyIn _ _ _) (by decide)
    (Dev.onlyIn_via (Dev.passRole_onlyIn _ _) (by decide) (Dev.onlyIn_mono (d.keepSram_onlyIn t) (by decide))))

/-- The twin in quarantine, with the times of the quarantines that count. -/
theorem Dev.twinOf_quarCounted (d : Dev) (t : Twin) (silent : Bool) : (d.quarCounted t silent).twinOf t =
    { d.twinOf t with
      st := if d.passes t then .out else (d.twinOf t).st, quar := inc8 (d.twinOf t).quar, silentOut := silent,
      quarAt := d.time.epoch :: (d.twinOf t).quarAt.filter fun e => decide (d.time.epoch < e + d.fld 0xA0 0x40 31 16) } := by
  have honly := Dev.onlyIn_via ((d.keepSram t).passRole_onlyIn t) (by decide) (Dev.onlyIn_mono (d.keepSram_onlyIn t) (by decide :
    [Part.sramA, .sramB] ⊆ [.stat, .twin, .nv, .therm, .sramA, .sramB]))
  have htime : ((d.keepSram t).passRole t).time = d.time := honly .time (by decide)
  have hregs : ((d.keepSram t).passRole t).regs = d.regs := honly .regs (by decide)
  obtain ⟨hself, -, -⟩ := (d.keepSram t).passRole_twins t
  refine (Dev.twinOf_updTwin_same _ t _).trans ?_
  rw [Dev.twinOf_congr (Dev.occur_onlyIn _ _ _ .twin (by decide)), hself, Dev.twinOf_congr (d.keepSram_twin t),
    Dev.passes_congr (d.keepSram_twin t)]
  simp only [Dev.fld, Dev.reg, Dev.occur_time, Dev.occur_regs, htime, hregs]
  split <;> rfl

/-- A quarantine leaves the other twin the role, counts, and ends in RESTART or, past QUAR_MAX, in OUT. -/
theorem Dev.quarantine_effect (d : Dev) (t : Twin) (silent : Bool) :
    d.TwinLeft (d.quarantine t silent) t ∧ d.quarantined (d.quarantine t silent) t := by
  have hcounted := d.twinLeft_quarCounted t silent
  have hself := d.twinOf_quarCounted t silent
  have honly := d.quarCounted_onlyIn t silent
  have hsram : (d.quarCounted t silent).sram = d.sram := honly .sram (by decide)
  have hregs : (d.quarCounted t silent).regs = d.regs := honly .regs (by decide)
  have hst := congrArg TwinSt.st hself
  have hquar := congrArg TwinSt.quar hself
  have hmax : (d.quarCounted t silent).fld 0xA0 0x40 15 8 = d.fld 0xA0 0x40 15 8 := by simp only [Dev.fld, Dev.reg, hregs]
  have hlen : ((d.quarCounted t silent).twinOf t).quarAt.length =
      1 + ((d.twinOf t).quarAt.filter fun k => decide (d.time.epoch < k + d.fld 0xA0 0x40 31 16)).length := by
    rw [hself, List.length_cons, Nat.add_comm]
  rw [Dev.quarantine_eq]
  dsimp only
  rw [hmax, hlen]
  split
  · have hleft := hcounted.again hst hsram (Dev.twinLeft_twinOut _ _ false)
    have hout := (d.quarCounted t silent).twinOf_twinOut t false
    refine ⟨hleft, (congrArg TwinSt.quar hout).trans hquar, ?_, (congrArg TwinSt.st hleft.other).trans (d.relieved_st t)⟩
    rw [if_pos ‹_›]
    exact congrArg TwinSt.st hout
  · have hleft := hcounted.again hst hsram (Dev.twinLeft_twinRestart (hcounted.passes hst))
    refine ⟨hleft, (Dev.twinRestart_quar _ t).trans hquar, ?_, (congrArg TwinSt.st hleft.other).trans (d.relieved_st t)⟩
    rw [if_neg ‹_›]
    exact Dev.twinRestart_st _ t

end Sys2Proof.Machine
end

section
/-! PROOF. Heartbeats of the twins: silence, lost and restored paths (R298 to R301). -/

namespace Sys2Proof.Machine

/-! ### Silence -/

theorem TwinSt.running_of_silent {x : TwinSt} (h : x.silent = true) : x.st.running = true := (Bool.and_eq_true_iff.mp h).1

/-- The rule and the twin that it names, as the last decision (R301). -/
def Dev.ruleNamed (d : Dev) (rule : Nat) (t : Twin) (field : Nat) : Dev :=
  d.updCtl fun c => { c with lastRule := rule, lastTwin := t, lastField := field, lastTseq := d.time.tseq }

/-- Rule 1 quarantines the twin that it names outside SINGLE operation. -/
theorem Dev.ruleApplies_one (d : Dev) (t : Twin) (field : Nat) :
    d.ruleApplies 1 t true field = if d.single then d.ruleNamed 1 t field else (d.ruleNamed 1 t field).quarantine t true := by
  change (if (!d.single) = true then (d.ruleNamed 1 t field).quarantine t true else d.ruleNamed 1 t field) = _
  cases d.single <;> rfl

/-- The tick of the counted copies `c` is judged, and the silence of `t` is recorded (R299). -/
def Dev.silenceNoted (c : Dev) (t : Twin) : Dev :=
  ({ c with die := { c.die with ruled := true } }.updCtl fun x => { x with loadDiffer := false }).occur 0xA0 (3 + twinIdx t)

/-- TWIN_SILENT where the twin is silent and no rule has been applied in the tick. -/
theorem execTwinSilent_silent {s : State} {t : Twin} (hsilent : (s.d.countTwins.twinOf t).silent = true)
    (hruled : s.d.countTwins.die.ruled = false) :
    ∃ f : Dev → Dev, exec (.twinSilent t) s = done f s ∧
      f s.d = (s.d.countTwins.silenceNoted t).ruleApplies 1 t true s.d.countTwins.differField :=
  ⟨_, rfl, if_pos (by rw [hsilent, hruled]; rfl)⟩

theorem Dev.silenceNoted_onlyIn (c : Dev) (t : Twin) : Dev.onlyIn [.stat, .twin, .die] c (c.silenceNoted t) :=
  Dev.onlyIn_via (Dev.occur_onlyIn _ _ _) (by decide)
    (Dev.onlyIn_via (Dev.updCtl_onlyIn _ _) (by decide) (Dev.onlyIn_put_die (Dev.onlyIn_refl _ _) (by decide)))

theorem Dev.silenceNamed_twinOf (c : Dev) (t : Twin) (field : Nat) (u : Twin) :
    ((c.silenceNoted t).ruleNamed 1 t field).twinOf u = c.twinOf u := by cases u <;> rfl

/-- What a judged silence leaves of the twins and of what they keep. -/
theorem Dev.silenceJudged_effect {c : Dev} {t : Twin} (hrun : (c.twinOf t).st.running = true) (field : Nat) :
    let e := (c.silenceNoted t).ruleApplies 1 t true field
    e.keptOf t = (if c.single then c.keptOf t else some c.sram) ∧ e.keptOf (otherTwin t) = c.keptOf (otherTwin t) ∧
      (∃ a b, e.twin = { c.twin with
        loadDiffer := false, lastRule := 1, lastTwin := t, lastField := field, lastTseq := c.time.tseq, a := a, b := b }) ∧
      if c.single then e.twinOf t = c.twinOf t ∧ e.twinOf (otherTwin t) = c.twinOf (otherTwin t) else c.quarantined e t := by
  intro e
  have he : e = if c.single then (c.silenceNoted t).ruleNamed 1 t field else ((c.silenceNoted t).ruleNamed 1 t field).quarantine t true :=
    Dev.ruleApplies_one _ t field
  clear_value e
  cases hsingle : c.single with
  | true =>
    rw [hsingle] at he
    subst he
    exact ⟨Dev.keptOf_congr rfl rfl t, Dev.keptOf_congr rfl rfl _, ⟨_, _, rfl⟩, c.silenceNamed_twinOf t field t, c.silenceNamed_twinOf t field _⟩
  | false =>
    rw [hsingle] at he
    subst he
    obtain ⟨hleft, hquar⟩ := ((c.silenceNoted t).ruleNamed 1 t field).quarantine_effect t true
    refine ⟨hleft.kept.trans (if_pos ?_), hleft.keptOther.trans (Dev.keptOf_congr rfl rfl _), hleft.ctl, ?_⟩
    · rw [c.silenceNamed_twinOf]; exact hrun
    · cases t <;> exact hquar

/-! ### Paths -/

/-- HB_PATH_LOST where it marks a path of a twin of which no path is lost (R300). -/
theorem completes_pathMarked {s : State} {t : Twin} {p : HbPath} {f : Dev → Dev} {g : TwinSt → TwinSt}
    (hc : exec (.hbPathLost t p) s = done f s) (hf : f s.d = (s.d.countTwins.updTwin t g).occur 0xA0 5) :
    Completes (.hbPathLost t p) s [.stat, .twin, .die] fun e =>
      s.d.countTwins.recorded e 0xA0 5 ∧ e.die = s.d.countTwins.die ∧
      e.twinOf (otherTwin t) = s.d.countTwins.twinOf (otherTwin t) ∧ e.twinOf t = g (s.d.countTwins.twinOf t) := by
  have hupd := s.d.countTwins.updTwin_onlyIn t g
  have hocc := (s.d.countTwins.updTwin t g).occur_onlyIn 0xA0 5
  have htwin := Dev.twinOf_congr (hocc .twin (by decide))
  exact completes_done hc hf
    (Dev.onlyIn_via hocc (by decide) (Dev.onlyIn_via hupd (by decide) (Dev.onlyIn_mono s.d.countTwins_onlyIn (by decide))))
    ⟨Dev.recorded_occur_of (hupd .stat (by decide)) _ _, (hocc .die (by decide)).trans (hupd .die (by decide)),
      (htwin _).trans (Dev.twinOf_updTwin_otherTwin _ _ _), (htwin _).trans (Dev.twinOf_updTwin_same _ _ _)⟩

/-- The block in which a path of twin `t` is lost no more (R300). -/
def Dev.pathRestored (d : Dev) (t : Twin) (g : TwinSt → TwinSt) : Dev :=
  if (d.updTwin t g).twin.a.pathLost || (d.updTwin t g).twin.b.pathLost then d.updTwin t g
  else (d.updTwin t g).updStat 0xA0 fun b => b.clear 0x20 0

/-- HB_PATH stands while a path is lost, and is the one bit that clears when none is. -/
theorem Dev.pathRestored_stat (d : Dev) (t : Twin) (g : TwinSt → TwinSt) :
    (∀ q, q ≠ 0xA0 → (d.pathRestored t g).statOf q = d.statOf q) ∧
      if (d.pathRestored t g).twin.a.pathLost = true ∨ (d.pathRestored t g).twin.b.pathLost = true then (d.pathRestored t g).stat = d.stat
      else ∀ i, (d.pathRestored t g).stBit 0xA0 i = (d.stBit 0xA0 i && decide (i ≠ 5)) := by
  have hstat : (d.updTwin t g).stat = d.stat := d.updTwin_stat t g
  have hmask : clrBits 0x20 0 = 2 ^ 5 := rfl
  have hpage : ∀ b : BlkStat, b.page = 0xA0 → (b.clear 0x20 0).page = 0xA0 := fun b h => (b.clear_page _ _).trans h
  unfold Dev.pathRestored
  cases hlost : ((d.updTwin t g).twin.a.pathLost || (d.updTwin t g).twin.b.pathLost) with
  | true =>
    rw [if_pos rfl, if_pos (Bool.or_eq_true_iff.mp hlost)]
    exact ⟨fun q _ => Dev.statOf_congr hstat q, hstat⟩
  | false =>
    have hnot : ¬ ((d.updTwin t g).twin.a.pathLost = true ∨ (d.updTwin t g).twin.b.pathLost = true) := by
      rw [← Bool.or_eq_true_iff, hlost]; exact Bool.false_ne_true
    rw [if_neg Bool.false_ne_true]
    refine ⟨fun q hq => (Dev.statOf_updStat_other _ hpage hq).trans (Dev.statOf_congr hstat q), (if_neg hnot).mpr fun i => ?_⟩
    rw [Dev.stBit, Dev.status, Dev.statOf_updStat_same _ hpage, BlkStat.clear_status, hmask, bitAt_clrBits, bitAt_two_pow, decide_not,
      Dev.statOf_congr hstat]
    rfl

theorem Dev.pathRestored_onlyIn (d : Dev) (t : Twin) (g : TwinSt → TwinSt) : Dev.onlyIn [.stat, .twin] d (d.pathRestored t g) :=
  have hupd := Dev.onlyIn_mono (d.updTwin_onlyIn t g) (by decide : [Part.twin] ⊆ [.stat, .twin])
  Dev.onlyIn_ite hupd (Dev.onlyIn_via (Dev.updStat_onlyIn _ _ _) (by decide) hupd)

theorem Dev.pathRestored_twin (d : Dev) (t : Twin) (g : TwinSt → TwinSt) : (d.pathRestored t g).twin = (d.updTwin t g).twin := by
  unfold Dev.pathRestored
  split <;> rfl

/-- HB_PATH_RESTORED where the path has delivered its heartbeats (R300). -/
theorem completes_pathRestored {s : State} {t : Twin} {p : HbPath} {f : Dev → Dev} {g : TwinSt → TwinSt}
    (hc : exec (.hbPathRestored t p) s = done f s) (hf : f s.d = s.d.pathRestored t g) :
    Completes (.hbPathRestored t p) s [.stat, .twin] fun e =>
      (∀ q, q ≠ 0xA0 → e.statOf q = s.d.statOf q) ∧
      (if e.twin.a.pathLost = true ∨ e.twin.b.pathLost = true then e.stat = s.d.stat
       else ∀ i, e.stBit 0xA0 i = (s.d.stBit 0xA0 i && decide (i ≠ 5))) ∧
      e.twinOf (otherTwin t) = s.d.twinOf (otherTwin t) ∧ e.twinOf t = g (s.d.twinOf t) := by
  obtain ⟨hothers, hbits⟩ := s.d.pathRestored_stat t g
  have htwin := Dev.twinOf_congr (s.d.pathRestored_twin t g)
  exact completes_done hc hf (s.d.pathRestored_onlyIn t g) ⟨hothers, hbits, (htwin _).trans (Dev.twinOf_updTwin_otherTwin _ _ _),
    (htwin _).trans (Dev.twinOf_updTwin_same _ _ _)⟩

/-- Settles O41: rule 1 where a twin is silent, and the mark of a path of one twin. -/
theorem twinHeartbeats : Obligations.TwinHeartbeats := by
  refine ⟨fun s t => ?silent, fun s t p => ?lost, fun s t p htick hs => ?restored⟩
  case silent =>
    intro c hsilent hruled
    obtain ⟨f, hexec, hf⟩ := execTwinSilent_silent hsilent hruled
    have hcount : Dev.onlyIn [.die, .stat, .twin] s.d c := s.d.countTwins_onlyIn
    have honly := Dev.ruleApplies_onlyIn (c.silenceNoted t) 1 t true c.differField
    obtain ⟨hkept, hother, ⟨a, b, hctl⟩, hjudged⟩ := Dev.silenceJudged_effect (TwinSt.running_of_silent hsilent) c.differField
    refine completes_done hexec hf (Dev.onlyIn_via honly (by decide) (Dev.onlyIn_via (c.silenceNoted_onlyIn t) (by decide)
      (Dev.onlyIn_mono hcount (by decide)))) ⟨?_, ?_, congrArg TwinCtl.loadDiffer hctl, congrArg TwinCtl.lastRule hctl,
        congrArg TwinCtl.lastTwin hctl, (congrArg TwinCtl.lastTseq hctl).trans ?_, hjudged⟩
    · have ha : c.sramA = s.d.sramA := hcount .sramA (by decide)
      have hb : c.sramB = s.d.sramB := hcount .sramB (by decide)
      have hsram : c.sram = s.d.sram := hcount .sram (by decide)
      rw [← ha, ← hb, ← hsram]
      cases t
      · exact ⟨hother, hkept⟩
      · exact ⟨hother, hkept⟩
    · exact congrArg DieS.ruled (honly .die (by decide) : _ = _)
    · exact congrArg TimeSt.tseq (hcount .time (by decide))
  case lost =>
    intro c hrun htick hs hmissTick hmissS
    have hfree : ¬ (!(c.twinOf t).st.running || (c.twinOf t).tickLost || (c.twinOf t).sLost) = true := by simp [hrun, htick, hs]
    cases p with
    | tick => exact completes_pathMarked (p := .tick) rfl ((if_neg hfree).trans (if_pos (hmissTick rfl)))
    | s => exact completes_pathMarked (p := .s) rfl ((if_neg hfree).trans (if_pos (hmissS rfl)))
  case restored =>
    cases p with
    | tick =>
      obtain ⟨hlost, hgood⟩ := htick rfl
      have hback : ¬ (!((s.d.twinOf t).tickLost && (s.d.twinOf t).tickGood == 64)) = true := by simp [hlost, hgood]
      exact completes_pathRestored (p := .tick) rfl (if_neg hback)
    | s =>
      obtain ⟨hlost, hgood⟩ := hs rfl
      have hback : ¬ (!((s.d.twinOf t).sLost && (s.d.twinOf t).sGood == 64)) = true := by simp [hlost, hgood]
      exact completes_pathRestored (p := .s) rfl (if_neg hback)

end Sys2Proof.Machine
end

section
/-! PROOF. The return of a twin: self-test, cut-in, PROBATION and the automatic restart (R303 to R307). -/

namespace Sys2Proof.Machine

/-! ### A twin that is not in operation leaves nothing behind -/

section
variable {d : Dev} {t : Twin}

theorem Dev.leave_of_idle (h : (d.twinOf t).st.running = false) : (d.keepSram t).passRole t = d := by
  rw [Dev.keepSram_of_idle h, Dev.passRole_of_not_passes (Dev.passes_of_idle h)]

/-- The twin in OUT (R307, R364). -/
def TwinSt.wentOut (x : TwinSt) (auto : Bool) (left : Nat) : TwinSt := { x with st := .out, retired := !auto, outLeft := left, prob := 0 }

theorem Dev.twinOut_of_idle (h : (d.twinOf t).st.running = false) (auto : Bool) :
    d.twinOut t auto = (d.updTwin t fun x => x.wentOut auto (d.fld 0xA0 0x44 15 0)).occur 0xA0 10 := by
  rw [Dev.twinOut, Dev.leave_of_idle h]; rfl

theorem Dev.twinOut_onlyIn_of_idle (h : (d.twinOf t).st.running = false) (auto : Bool) :
    Dev.onlyIn [.stat, .twin] d (d.twinOut t auto) := by
  rw [Dev.twinOut_of_idle h]
  exact Dev.onlyIn_via (Dev.occur_onlyIn _ _ _) (by decide) (Dev.onlyIn_mono (Dev.updTwin_onlyIn _ _ _) (by decide))

theorem Dev.twinRestart_onlyIn_of_idle (h : (d.twinOf t).st.running = false) : Dev.onlyIn [.stat, .twin] d (d.twinRestart t) := by
  rw [Dev.twinRestart, Dev.keepSram_of_idle h]
  exact Dev.onlyIn_mono (Dev.updTwin_onlyIn _ _ _) (by decide)

theorem Dev.quarCounted_onlyIn_of_idle (h : (d.twinOf t).st.running = false) (silent : Bool) :
    Dev.onlyIn [.stat, .twin] d (d.quarCounted t silent) := by
  rw [Dev.quarCounted, Dev.leave_of_idle h]
  exact Dev.onlyIn_via (Dev.updTwin_onlyIn _ _ _) (by decide) (Dev.onlyIn_mono (Dev.occur_onlyIn _ _ _) (by decide))

theorem Dev.quarCounted_of_idle (h : (d.twinOf t).st.running = false) (silent : Bool) :
    ((d.quarCounted t silent).twinOf t).st.running = false := by
  rw [Dev.twinOf_quarCounted, Dev.passes_of_idle h]
  exact h

theorem Dev.quarantine_onlyIn_of_idle (h : (d.twinOf t).st.running = false) (silent : Bool) :
    Dev.onlyIn [.stat, .twin] d (d.quarantine t silent) := by
  have hcounted := Dev.quarCounted_onlyIn_of_idle h silent
  have hidle := Dev.quarCounted_of_idle h silent
  rw [Dev.quarantine_eq]
  exact Dev.onlyIn_ite (Dev.onlyIn_trans hcounted (Dev.twinOut_onlyIn_of_idle hidle false))
    (Dev.onlyIn_trans hcounted (Dev.twinRestart_onlyIn_of_idle hidle))

end

/-! ### Cut-in -/

/-- A twin in PROBATION for 64 fronds, whose frames agree so far (R306). -/
def TwinSt.onProbation (x : TwinSt) : TwinSt := { x with st := .probation, prob := 64, valid := true, crcTicks := 0, missTicks := 0 }

/-- Twin `t` in PROBATION, with the pages and the ticks of its transfer (R304, R305). -/
def Dev.cutTwin (d : Dev) (t : Twin) : Dev :=
  (d.updTwin t TwinSt.onProbation).updCtl fun c =>
    { c with resPages := min 65535 (d.dirtyOf t).length, resTicks := min 65535 (d.now + 1 - (d.twinOf t).since) }

/-- Twin `t` holds the SRAM of the computing twins again. -/
def Dev.shareSram (d : Dev) : Twin → Dev
  | .a => { d with sramA := none }
  | .b => { d with sramB := none }

/-- The MRAM in which twin `t` has taken the pages that it missed (R305). -/
def Dev.pagesTaken (d : Dev) : Twin → NvSt
  | .a => { d.nv with a := copyPages d.nv.b d.nv.a d.nv.dirtyA, dirtyA := [] }
  | .b => { d.nv with b := copyPages d.nv.a d.nv.b d.nv.dirtyB, dirtyB := [] }

/-- The capture unit in IDLE, its record discarded (R304). -/
def CapSt.idled (c : CapSt) : CapSt := { CapSt.reset with rdSig := c.rdSig, rdBlock := c.rdBlock }

/-- The block at the boundary at which twin `t` is cut in (R304, R305). -/
def Dev.cutBack (d : Dev) (t : Twin) : Dev :=
  { (d.cutTwin t).shareSram t with nv := d.pagesTaken t, cap := d.cap.idled }

theorem Dev.shareSram_onlyIn (d : Dev) (t : Twin) : Dev.onlyIn [.sramA, .sramB] d (d.shareSram t) := by
  cases t
  · exact Dev.onlyIn_put_sramA (Dev.onlyIn_refl _ _) (by decide)
  · exact Dev.onlyIn_put_sramB (Dev.onlyIn_refl _ _) (by decide)

theorem Dev.cutBack_onlyIn (d : Dev) (t : Twin) : Dev.onlyIn [.cap, .twin, .nv, .sramA, .sramB] d (d.cutBack t) :=
  have htwin : Dev.onlyIn [.cap, .twin, .nv, .sramA, .sramB] d (d.cutTwin t) :=
    Dev.onlyIn_via (Dev.updCtl_onlyIn _ _) (by decide) (Dev.onlyIn_mono (Dev.updTwin_onlyIn _ _ _) (by decide))
  Dev.onlyIn_put_cap (v0 := d.cap.idled) (Dev.onlyIn_put_nv (v0 := d.pagesTaken t)
    (Dev.onlyIn_via (Dev.shareSram_onlyIn _ t) (by decide) htwin) (by decide)) (by decide)

theorem Dev.cutBack_twin (d : Dev) (t : Twin) : (d.cutBack t).twin = (d.cutTwin t).twin := by cases t <;> rfl

theorem Dev.keptOf_shareSram (d : Dev) (t : Twin) :
    (d.shareSram t).keptOf t = none ∧ (d.shareSram t).keptOf (otherTwin t) = d.keptOf (otherTwin t) := by
  cases t <;> exact ⟨rfl, rfl⟩

theorem Dev.keptOf_cutBack (d : Dev) (t : Twin) :
    (d.cutBack t).keptOf t = none ∧ (d.cutBack t).keptOf (otherTwin t) = d.keptOf (otherTwin t) := by
  obtain ⟨hself, hother⟩ := (d.cutTwin t).keptOf_shareSram t
  have hshared := fun u => Dev.keptOf_congr (d := (d.cutTwin t).shareSram t) (e := d.cutBack t) rfl rfl u
  have hcut := fun u => Dev.keptOf_congr (d := d) (e := d.cutTwin t) (by simp only [Dev.cutTwin, Dev.updCtl_sramA, Dev.updTwin_sramA])
    (by simp only [Dev.cutTwin, Dev.updCtl_sramB, Dev.updTwin_sramB]) u
  exact ⟨(hshared t).trans hself, ((hshared _).trans hother).trans (hcut _)⟩

theorem Dev.cutTwin_twinOf (d : Dev) (t u : Twin) : (d.cutTwin t).twinOf u = (d.updTwin t TwinSt.onProbation).twinOf u := by
  cases u <;> rfl

theorem Dev.cutBack_resPages (d : Dev) (t : Twin) : (d.cutBack t).twin.resPages = min 65535 (d.dirtyOf t).length := by
  rw [Dev.cutBack_twin, Dev.cutTwin, Dev.updCtl_twin]

/-- CUT_IN of a twin in RESYNC at a boundary, beside a twin that sends copies, outside the safe state. -/
theorem execCutIn_due {s : State} {t : Twin} (hst : (s.d.twinOf t).st = .resync) (hbound : s.d.atBoundary = true)
    (hother : (s.d.twinOf (otherTwin t)).st.running = true) (hsafe : s.d.die.safe = false) :
    ∃ f : Dev → Dev, exec (.cutIn t) s = done f s ∧ f s.d = s.d.cutBack t := by
  refine ⟨_, rfl, (if_pos ⟨hst, hbound, hother, by rw [hsafe]; rfl⟩).trans ?_⟩
  cases t <;> rfl

/-- Settles O42: each return by the state that the twin is in, which sends no copies and so holds no role. -/
theorem twinReturns : Obligations.TwinReturns := by
  refine ⟨fun s t hst htime => ?selfTest, fun s t hst htime => ?fails, fun s t hst hbound hother hsafe => ?cutIn,
    fun s t hst hprob => ?probation, fun s t hst hretired hleft hflag => ?auto⟩
  case selfTest =>
    have hlocks := Dev.setLocks_onlyIn (s.d.updTwin t fun x => { x with st := .resync, pages := (s.d.dirtyOf t).length }) t 0x7FF
    have htwin := Dev.twinOf_congr (hlocks .twin (by decide))
    refine completes_done rfl (if_pos ⟨hst, htime⟩)
      (Dev.onlyIn_via hlocks (by decide) (Dev.onlyIn_mono (Dev.updTwin_onlyIn _ _ _) (by decide)))
      ⟨by cases t <;> rfl, (htwin t).trans (Dev.twinOf_updTwin_same _ _ _), (htwin _).trans (Dev.twinOf_updTwin_otherTwin _ _ _)⟩
  case fails =>
    have hidle : (s.d.twinOf t).st.running = false := by rw [hst]; rfl
    have honly := Dev.onlyIn_trans (Dev.twinOut_onlyIn_of_idle hidle true)
      (Dev.onlyIn_mono (Dev.occur_onlyIn (s.d.twinOut t true) 0xA0 9) (by decide))
    have htwin := Dev.twinOf_congr ((s.d.twinOut t true).occur_onlyIn 0xA0 9 .twin (by decide))
    have hout := (htwin t).trans (s.d.twinOf_twinOut t true)
    have hleft := s.d.twinLeft_twinOut t true
    refine completes_done rfl (if_pos ⟨hst, htime⟩) (Dev.onlyIn_mono honly (by decide))
      ⟨congrArg TwinSt.st hout, congrArg TwinSt.retired hout, congrArg TwinSt.outLeft hout,
        (htwin _).trans (hleft.other.trans (Dev.relieved_of_not_passes (Dev.passes_of_idle hidle))),
        honly .nv (by decide), honly .therm (by decide), ?_⟩
    rw [Dev.twinOut_of_idle hidle, Dev.statOf_occur_same, Dev.statOf_occur_same, Dev.statOf_congr (Dev.updTwin_stat _ _ _)]
    rfl
  case cutIn =>
    obtain ⟨f, hexec, hf⟩ := execCutIn_due hst hbound hother hsafe
    have htwins := fun u => (Dev.twinOf_congr (s.d.cutBack_twin t) u).trans (s.d.cutTwin_twinOf t u)
    have hself := (htwins t).trans (Dev.twinOf_updTwin_same _ _ _)
    refine completes_done hexec hf (s.d.cutBack_onlyIn t) ⟨?_, congrArg TwinSt.st hself,
      congrArg TwinSt.prob hself, (htwins _).trans (Dev.twinOf_updTwin_otherTwin _ _ _), s.d.cutBack_resPages t, rfl, ?_⟩
    · have hkept := s.d.keptOf_cutBack t
      cases t <;> exact hkept
    · cases t <;> rfl
  case probation =>
    exact completes_done rfl (if_pos ⟨hst, hprob⟩) (Dev.updTwin_onlyIn _ _ _)
      ⟨Dev.twinOf_updTwin_same _ _ _, Dev.twinOf_updTwin_otherTwin _ _ _⟩
  case auto =>
    have hidle : (s.d.twinOf t).st.running = false := by rw [hst]; rfl
    have honly := Dev.quarantine_onlyIn_of_idle hidle (s.d.twinOf t).silentOut
    obtain ⟨hgone, hquar⟩ := s.d.quarantine_effect t (s.d.twinOf t).silentOut
    exact completes_done rfl (if_pos ⟨hst, by rw [hretired]; rfl, hleft, hflag⟩) (Dev.onlyIn_mono honly (by decide))
      ⟨hquar, hgone.other.trans (Dev.relieved_of_not_passes (Dev.passes_of_idle hidle)), honly .nv (by decide), honly .therm (by decide)⟩

end Sys2Proof.Machine
end

section
/-! PROOF. Reset release: what the boot keeps of the block before it, and what it leaves as after reset (R296, R348, R395). -/

namespace Sys2Proof.Machine

/-! ### A torn crust change -/

/-- The end of an item rewrites the queue and nothing else of the accepted work. -/
def Dev.sameWork (d e : Dev) : Prop := ∃ q, e.jrn = { d.jrn with queue := q }

theorem Dev.sameWork_of_eq {d e : Dev} (h : e.jrn = d.jrn) : d.sameWork e := ⟨_, h⟩

theorem Dev.sameWork_endItem {d e : Dev} (h : e.jrn = d.jrn) (status result : Nat) : d.sameWork (e.endItem status result) :=
  ⟨_, congrArg (fun j : JrnSt => { j with queue := updAt j.queue 0 fun w => { w with result := some (status, result) } }) h⟩

theorem Dev.sameWork_crustTorn (d : Dev) (j : CrustJob) : d.sameWork (d.crustTorn j) := by
  have hspent : ((d.occur 0xB2 2).crustSpent j.item).jrn = d.jrn := Dev.crustSpent_onlyIn _ _ .jrn (by decide)
  have hover : ((d.occur 0xB2 2).crustSpent j.item).confirmOver.jrn = d.jrn :=
    (Dev.confirmOver_onlyIn _ .jrn (by decide)).trans hspent
  unfold Dev.crustTorn
  extract_lets e
  split_ifs
  · exact Dev.sameWork_endItem hspent _ _
  · exact Dev.sameWork_endItem hover _ _
  · exact Dev.sameWork_of_eq hspent

theorem Dev.sameWork_crustTear (d : Dev) : d.sameWork d.crustTear := by
  unfold Dev.crustTear
  split
  · exact Dev.sameWork_of_eq rfl
  · exact Dev.sameWork_crustTorn _ _

/-! ### What the loss of a supply leaves of the boot -/

theorem Dev.booted_stopNext (fuel : Nat) (d : Dev) : (d.stopNext fuel).fh.booted = d.fh.booted := by
  induction fuel generalizing d with
  | zero => rfl
  | succ fuel ih =>
    unfold Dev.stopNext
    split
    · rfl
    · split_ifs
      · rfl
      · rfl
      · rfl
      · exact ih _

theorem Dev.booted_foldl_blockBy (f : Nat) (l : List Nat) (d : Dev) : (l.foldl (Dev.blockBy f) d).fh.booted = d.fh.booted := by
  induction l generalizing d with
  | nil => rfl
  | cons k l ih => exact ih _

theorem Dev.booted_failMember (d : Dev) (i cause : Nat) (keep : Bool) : (d.failMember i cause keep).fh.booted = d.fh.booted :=
  (Dev.booted_stopNext _ _).trans (Dev.booted_foldl_blockBy i _ _)

theorem Dev.booted_memberBlockFault (d : Dev) (m : Nat) : (d.memberBlockFault m).fh.booted = d.fh.booted := by
  unfold Dev.memberBlockFault
  split
  any_goals exact d.booted_failMember m 4 true
  · rfl
  · rfl

theorem Dev.booted_tripRail (d : Dev) (r bit : Nat) : (d.tripRail r bit).fh.booted = d.fh.booted :=
  (Dev.booted_memberBlockFault _ _).trans (congrArg Fiddle.booted
    ((Dev.triAll_onlyIn _ _ .fh (by decide)).trans (Dev.injLeave_onlyIn d r .fh (by decide)) : ((d.injLeave r).triAll r).fh = d.fh))

theorem Dev.booted_noPhase (d : Dev) (r : Nat) : (d.noPhase r).fh.booted = d.fh.booted := by
  unfold Dev.noPhase
  split
  · exact d.booted_tripRail r 4
  · rfl

theorem Dev.booted_derate (before : List Int) (d : Dev) (r : Nat) : (Dev.derate before d r).fh.booted = d.fh.booted := by
  unfold Dev.derate
  extract_lets c0 e f
  have hcap : e.fh = d.fh := Dev.capTick_onlyIn d r .fh (by decide)
  have hinj : (f.injStopRail r 6).fh = e.fh := Dev.injStopRail_onlyIn f r 6 .fh (by decide)
  split
  · exact (Dev.booted_noPhase _ r).trans (congrArg Fiddle.booted (hinj.trans hcap))
  · exact congrArg Fiddle.booted hcap

theorem Dev.booted_loseClusters (d : Dev) (p : Nat → Bool) : (d.loseClusters p).fh.booted = d.fh.booted := by
  rw [Dev.loseClusters_eq]
  calc _ = (foldN 4 (Dev.derate (d.rails.map Rail.cap)) (foldN 8 (Dev.restartFrond p) (foldN 64 (Dev.loseUnit p) d))).fh.booted :=
        congrArg Fiddle.booted (Dev.rebudget_onlyIn _ .fh (by decide))
    _ = (foldN 8 (Dev.restartFrond p) (foldN 64 (Dev.loseUnit p) d)).fh.booted :=
        foldN_keeps (fun e => e.fh.booted) (Dev.booted_derate _) 4 _
    _ = (foldN 64 (Dev.loseUnit p) d).fh.booted :=
        foldN_keeps (fun e => e.fh.booted) (fun e k => congrArg Fiddle.booted (Dev.onlyIn_ite (l := [.clusters])
          (Dev.updCluster_onlyIn _ _ _) (Dev.onlyIn_refl _ _) .fh (by decide))) 8 _
    _ = d.fh.booted :=
        foldN_keeps (fun e => e.fh.booted) (fun e n => congrArg Fiddle.booted (Dev.loseUnit_onlyIn p e n .fh (by decide))) 64 _

/-- What is under way at the boot: the straps, the safe state, the self-test that is still to come, and the reset. -/
def Dev.bootMarks (d : Dev) : Nat × Nat × Bool × Bool × Bool :=
  (d.die.strap0, d.die.strap1, d.die.safe, d.fh.booted, d.sup.inReset)

theorem Dev.bootMarks_of_onlyIn {d e : Dev} {l : List Part} (h : Dev.onlyIn l d e) (hdie : Part.die ∉ l) (hfh : Part.fh ∉ l)
    (hsup : Part.sup ∉ l) : e.bootMarks = d.bootMarks := by
  have hd : e.die = d.die := h .die hdie
  have hf : e.fh = d.fh := h .fh hfh
  have hs : e.sup = d.sup := h .sup hsup
  rw [Dev.bootMarks, Dev.bootMarks, hd, hf, hs]

theorem Dev.bootMarks_loseClusters (d : Dev) (p : Nat → Bool) : (d.loseClusters p).bootMarks = d.bootMarks := by
  have honly := Dev.loseClusters_onlyIn d p
  have hdie : (d.loseClusters p).die = d.die := honly .die (by decide)
  have hsup : (d.loseClusters p).sup = d.sup := honly .sup (by decide)
  rw [Dev.bootMarks, Dev.bootMarks, hdie, hsup, Dev.booted_loseClusters]

theorem Dev.bootMarks_loseRegion (d : Dev) (g : Region) : (d.loseRegion g).bootMarks = d.bootMarks := by
  unfold Dev.loseRegion
  split
  · exact (Dev.bootMarks_loseClusters _ _).trans (by cases g <;> rfl)
  · rfl

theorem Dev.bootMarks_vanaLoss (d : Dev) (g : Region) : (d.vanaLoss g).bootMarks = d.bootMarks := by
  unfold Dev.vanaLoss
  exact (Dev.bootMarks_loseRegion _ _).trans (by cases g <;> rfl)

theorem Dev.bootMarks_ite {c : Prop} [Decidable c] {d e f : Dev} (he : e.bootMarks = d.bootMarks) (hf : f.bootMarks = d.bootMarks) :
    (if c then e else f).bootMarks = d.bootMarks := by
  split
  · exact he
  · exact hf

theorem Dev.bootMarks_bootRegions (d : Dev) : d.bootRegions.bootMarks = d.bootMarks := by
  unfold Dev.bootRegions
  extract_lets e loss0 time0 f loss1 time1
  have he : e.bootMarks = d.bootMarks := Dev.bootMarks_ite rfl rfl
  have hf : f.bootMarks = d.bootMarks := Dev.bootMarks_ite he ((e.bootMarks_vanaLoss .g0).trans he)
  exact Dev.bootMarks_ite hf ((f.bootMarks_vanaLoss .g1).trans hf)

theorem Dev.bootMarks_applyTable (d : Dev) : d.applyTable.bootMarks = d.bootMarks := by
  refine foldN_keeps Dev.bootMarks (fun e i => ?_) 32 d
  exact Dev.bootMarks_ite rfl (Dev.bootMarks_ite rfl rfl)

theorem Dev.bootMarks_bootSettings (d : Dev) : d.bootSettings.bootMarks = d.bootMarks := by
  unfold Dev.bootSettings
  extract_lets e
  have hsets : Dev.onlyIn [.regs, .upd] d (e.upd.sets.foldl (fun d e => d.setReg 0xA4 (e.1 % 0x1000) e.2) e) :=
    Dev.onlyIn_foldl (fun x _ => Dev.onlyIn_mono (x.setReg_onlyIn _ _ _) (by decide)) (Dev.onlyIn_mono (d.updUpd_onlyIn _) (by decide))
  exact (Dev.bootMarks_applyTable _).trans (Dev.bootMarks_of_onlyIn hsets (by decide) (by decide) (by decide))

/-! ### The block after reset release -/

/-- An image that both twins check with the same result leaves the twins as they are. -/
theorem Dev.loadInto_twin (d : Dev) (b : Bool) (l : List Byte) : (d.loadInto b l none).twin = d.twin := by
  unfold Dev.loadInto
  extract_lets r rB bad ver e f g
  have hsame : rB = r := ite_self _
  have hg : g = f := if_pos hsame
  rw [hg]
  split
  · exact Dev.writeSegments_onlyIn f _ .twin (by decide)
  · rfl

theorem Dev.loadInto_alone_onlyIn (d : Dev) (b : Bool) (l : List Byte) : Dev.onlyIn [.sched, .stat, .sram] d (d.loadInto b l none) := by
  intro p hp
  by_cases h : p = .twin
  · subst h; exact d.loadInto_twin b l
  · exact d.loadInto_onlyIn b l none p (by simp only [List.mem_cons, List.not_mem_nil] at hp ⊢; tauto)

/-- The parts that the boot at reset release writes over what a reset keeps (R348, R350, R390, R405, R540); the image of the running
slot is loaded with one result. -/
def Part.releaseParts : List Part :=
  [.time, .die, .stat, .sup, .rails, .units, .clusters, .inj, .adm, .xfer, .fh, .therm, .regs, .upd, .twT, .sched, .sram, .crust]

/-- From what a reset keeps of `d` to the block after it. -/
theorem Dev.afterReset_effect (d : Dev) (strap0 strap1 votes : Nat) :
    Dev.onlyIn Part.releaseParts (d.crustTear.kept strap0 strap1) (d.afterReset strap0 strap1 votes) ∧
      (d.afterReset strap0 strap1 votes).bootMarks = (d.crustTear.kept strap0 strap1).bootMarks := by
  unfold Dev.afterReset
  extract_lets job old voted torn booted ports loaded
  have hvoted : Dev.onlyIn [.stat, .crust] (old.kept strap0 strap1) voted :=
    Dev.onlyIn_via (Dev.crustVote_onlyIn _ _) (by decide) (Dev.onlyIn_via (Dev.crustFrond_onlyIn _) (by decide)
      (Dev.onlyIn_mono (Dev.crustRead_onlyIn _) (by decide)))
  have htorn : Dev.onlyIn [.stat, .crust] (old.kept strap0 strap1) torn := by
    dsimp only [torn]
    clear_value job
    cases job with
    | none => exact hvoted
    | some j => exact Dev.onlyIn_via (Dev.crustSpent_onlyIn _ _) (by decide) (Dev.onlyIn_via (Dev.occur_onlyIn _ _ _) (by decide) hvoted)
  have hports : Dev.onlyIn [.twT] booted ports := foldN_onlyIn 2 _ booted fun _ _ => Dev.updTwT_onlyIn _ _ _
  have hloaded : Dev.onlyIn [.sched, .stat, .sram] ports loaded := Dev.onlyIn_ite (Dev.onlyIn_refl _ _) (ports.loadInto_alone_onlyIn _ _)
  have hend : Dev.onlyIn [.sched, .stat, .sram] ports (if old.upd.unsettled then loaded.occurC updPg 3 6 else loaded) :=
    Dev.onlyIn_ite (Dev.onlyIn_via (Dev.occurC_onlyIn _ _ _ _) (by decide) hloaded) hloaded
  have hbooted : Dev.onlyIn Part.releaseParts torn booted :=
    Dev.onlyIn_via (Dev.bootRegions_onlyIn _) (by decide) (Dev.onlyIn_via (Dev.bootFw_onlyIn _) (by decide)
      (Dev.onlyIn_mono (Dev.bootSettings_onlyIn _) (by decide)))
  refine ⟨Dev.onlyIn_via hend (by decide) (Dev.onlyIn_via hports (by decide) (Dev.onlyIn_trans (Dev.onlyIn_mono htorn (by decide)) hbooted)), ?_⟩
  calc _ = ports.bootMarks := Dev.bootMarks_of_onlyIn hend (by decide) (by decide) (by decide)
    _ = booted.bootMarks := Dev.bootMarks_of_onlyIn hports (by decide) (by decide) (by decide)
    _ = torn.bootSettings.bootFw.bootMarks := Dev.bootMarks_bootRegions _
    _ = torn.bootSettings.bootMarks := Dev.bootMarks_of_onlyIn (Dev.bootFw_onlyIn _) (by decide) (by decide) (by decide)
    _ = torn.bootMarks := Dev.bootMarks_bootSettings _
    _ = (old.kept strap0 strap1).bootMarks := Dev.bootMarks_of_onlyIn htorn (by decide) (by decide) (by decide)

/-- RESET_RELEASE where it may come (R348): the block after it, without snapshot holds. -/
theorem execResetRelease_may {s : State} (h : s.d.mayRelease = true) (a b : Fin 8) (votes : Nat) :
    exec (.resetRelease a b votes) s = .next { s with
      d := s.d.afterReset a.val b.val votes, snap := (s.d.afterReset a.val b.val votes).atReset, held0 := none, held1 := none } :=
  congrArg Host.Outcome.next (if_pos h)

end Sys2Proof.Machine
end

section
/-! PROOF. The boot of the twins: roles, reconciliation and the boot count of wear ring 0 (R296, R318, R373, R379, R539). -/

namespace Sys2Proof.Machine

/-! ### A twin that fails its self-test -/

theorem Dev.twinFails_of_out {d : Dev} {t : Twin} (h : (d.twinOf t).st = .out) : d.twinFails t = d := if_pos h

theorem Dev.twinFails_of_in {d : Dev} {t : Twin} (h : (d.twinOf t).st ≠ .out) : d.twinFails t =
    (((d.keepSram t).updTwin t fun x => { x with st := .out, retired := true, prob := 0 }).occur 0xA5 3).occur 0xA0 10 := if_neg h

theorem Dev.twinFails_twins (d : Dev) (t : Twin) : ((d.twinFails t).twinOf t).st = .out ∧
    ((d.twinOf t).st ≠ .out → ((d.twinFails t).twinOf t).retired = true) ∧
    (d.twinFails t).twinOf (otherTwin t) = d.twinOf (otherTwin t) := by
  by_cases h : (d.twinOf t).st = .out
  · rw [Dev.twinFails_of_out h]
    exact ⟨h, fun hin => absurd h hin, rfl⟩
  · rw [Dev.twinFails_of_in h]
    generalize hleft : (d.keepSram t).updTwin t _ = e
    have hself : (((e.occur 0xA5 3).occur 0xA0 10).twinOf t) = e.twinOf t := Dev.twinOf_congr rfl t
    have hother : (((e.occur 0xA5 3).occur 0xA0 10).twinOf (otherTwin t)) = e.twinOf (otherTwin t) := Dev.twinOf_congr rfl _
    rw [hself, hother, ← hleft, Dev.twinOf_updTwin_same, Dev.twinOf_updTwin_otherTwin]
    exact ⟨rfl, fun _ => rfl, Dev.twinOf_congr (d.keepSram_twin t) _⟩

theorem Dev.twinFails_stat {d : Dev} {t : Twin} (h : (d.twinOf t).st ≠ .out) :
    (d.twinFails t).statOf 0xA5 = (d.statOf 0xA5).occur 3 (causeOf 0xA5 3) ∧
      (d.twinFails t).statOf 0xA0 = (d.statOf 0xA0).occur 10 (causeOf 0xA0 10) := by
  rw [Dev.twinFails_of_in h]
  generalize hleft : (d.keepSram t).updTwin t _ = e
  have hstat : e.stat = d.stat := by rw [← hleft, Dev.updTwin_stat]; exact d.keepSram_onlyIn t .stat (by decide)
  rw [Dev.statOf_occur_same, Dev.statOf_occur_other _ _ (by decide), Dev.statOf_occur_same, Dev.statOf_occur_other _ _ (by decide),
    Dev.statOf_congr hstat, Dev.statOf_congr hstat]
  exact ⟨rfl, rfl⟩

/-! ### Roles -/

theorem Dev.bootRoles_st (d : Dev) (pa pb : Bool) :
    (d.bootRoles pa pb).twin.a.st = (if pa then .active else .out) ∧
      (d.bootRoles pa pb).twin.b.st = (if pb then if pa then .standby else .active else .out) := by
  unfold Dev.bootRoles
  extract_lets e
  have he : e.twin.a.st = if pa then .active else .out := by
    cases pa with
    | true => rfl
    | false => exact (d.twinFails_twins .a).1
  cases pb with
  | true => exact ⟨he, rfl⟩
  | false => exact ⟨(congrArg TwinSt.st (e.twinFails_twins .b).2.2).trans he, (e.twinFails_twins .b).1⟩

/-! ### Reconciliation does not depend on the fiddlehead -/

theorem Dev.rewritePlace_updFh (d : Dev) (f : Fiddle → Fiddle) (addr : Nat) (w : List Byte) (tied : Bool) :
    (d.updFh f).rewritePlace addr w tied = (d.rewritePlace addr w tied).updFh f := by cases tied <;> rfl

theorem Dev.ite_updFh {c : Prop} [Decidable c] (d e : Dev) (f : Fiddle → Fiddle) :
    (if c then d.updFh f else e.updFh f) = (if c then d else e).updFh f := (apply_ite (Dev.updFh · f) c d e).symm

theorem Dev.reconcileAt_updFh (d : Dev) (f : Fiddle → Fiddle) (p : Place) : (d.updFh f).reconcileAt p = (d.reconcileAt p).updFh f :=
  (congrArg (ite _ (d.updFh f)) (Dev.rewritePlace_updFh d f _ _ _)).trans (Dev.ite_updFh d _ f)

theorem Dev.reconcileSet_updFh (d : Dev) (f : Fiddle → Fiddle) (b group o : Nat) :
    (d.updFh f).reconcileSet b group o = (d.reconcileSet b group o).updFh f := by
  unfold Dev.reconcileSet
  have hcopy : ∀ t, (d.updFh f).nvCopy t = d.nvCopy t := fun t => by cases t <;> rfl
  simp only [hcopy]
  split
  · rfl
  · exact d.rewritePlace_updFh f _ _ _
  · exact d.rewritePlace_updFh f _ _ _
  · exact (congrArg (ite _ (d.updFh f)) (Dev.rewritePlace_updFh d f _ _ _)).trans (Dev.ite_updFh d _ f)

theorem Dev.foldl_updFh {α : Type} {g : Dev → α → Dev} {f : Fiddle → Fiddle} (h : ∀ d a, g (d.updFh f) a = (g d a).updFh f) (l : List α)
    (d : Dev) : l.foldl g (d.updFh f) = (l.foldl g d).updFh f := by
  induction l generalizing d with
  | nil => rfl
  | cons a l ih => rw [List.foldl_cons, h]; exact ih _

/-- Reconciliation of the two record places of a group (R381). -/
def Dev.reconcileGroup (b : Nat) (d : Dev) (g : SetGroup) : Dev := (d.reconcileSet b g.group g.place0).reconcileSet b g.group g.place1

theorem Dev.reconcileGroup_updFh (b : Nat) (d : Dev) (f : Fiddle → Fiddle) (g : SetGroup) :
    Dev.reconcileGroup b (d.updFh f) g = (Dev.reconcileGroup b d g).updFh f := by
  rw [Dev.reconcileGroup, Dev.reconcileSet_updFh, Dev.reconcileSet_updFh]; rfl

theorem Dev.reconcileBank_updFh (d : Dev) (f : Fiddle → Fiddle) (b : Nat) :
    (d.updFh f).reconcileBank b = (d.reconcileBank b).updFh f := by
  have hgroups : ∀ (l : List SetGroup) (e : Dev), l.foldl (Dev.reconcileGroup b) (e.updFh f) = (l.foldl (Dev.reconcileGroup b) e).updFh f :=
    fun l e => Dev.foldl_updFh (fun e g => Dev.reconcileGroup_updFh b e f g) l e
  refine Eq.trans ?_ (hgroups _ _)
  rw [← Dev.ite_updFh]
  rfl

/-- No page of either twin is waiting for its return. -/
def Dev.pagesAgree (d : Dev) : Dev := { d with nv := { d.nv with dirtyA := [], dirtyB := [] } }

theorem Dev.pagesAgree_updFh (d : Dev) (f : Fiddle → Fiddle) : (d.updFh f).pagesAgree = d.pagesAgree.updFh f := rfl

theorem Dev.reconcile_eq (d : Dev) :
    d.reconcile = (((allPlaces.foldl Dev.reconcileAt d).reconcileBank 0).reconcileBank 1).pagesAgree := rfl

theorem Dev.reconcile_updFh (d : Dev) (f : Fiddle → Fiddle) : (d.updFh f).reconcile = d.reconcile.updFh f := by
  rw [Dev.reconcile_eq, Dev.reconcile_eq, Dev.foldl_updFh (fun e p => e.reconcileAt_updFh f p), Dev.reconcileBank_updFh,
    Dev.reconcileBank_updFh, Dev.pagesAgree_updFh]

/-! ### The boot count of wear ring 0 -/

theorem Dev.ringCount_congr {d e : Dev} (hnv : e.nv = d.nv) (htwin : e.twin = d.twin) : e.ringCount = d.ringCount := by
  have hget : ∀ addr k, e.nvGet addr k = d.nvGet addr k := fun addr k => by
    unfold Dev.nvGet Dev.activeTwin; rw [hnv, htwin]
  simp only [Dev.ringCount, Dev.ringSlots, hget]

/-- A step of the search for the latest slot for which `ok` holds (R379). -/
def laterOf (l : List (Option (List Byte))) (ok : Nat → List Byte → Bool) (best : Option (Nat × List Byte)) (s : Nat) :
    Option (Nat × List Byte) :=
  match nth l s none with
  | none => best
  | some x =>
    if !ok s x then best
    else match best with
      | none => some (s, x)
      | some b => if laterGen (slotGen x) (slotGen b.2) then some (s, x) else best

theorem latestSlot_eq (l : List (Option (List Byte))) (ok : Nat → List Byte → Bool) :
    latestSlot l ok = (upto 64).foldl (laterOf l ok) none := rfl

theorem laterOf_isSome (l : List (Option (List Byte))) (ok : Nat → List Byte → Bool) (b : Nat × List Byte) (s : Nat) :
    (laterOf l ok (some b) s).isSome = true := by
  unfold laterOf
  split
  · rfl
  · split
    · rfl
    · dsimp only; split <;> rfl

theorem foldl_laterOf_isSome (l : List (Option (List Byte))) (ok : Nat → List Byte → Bool) (xs : List Nat)
    {best : Option (Nat × List Byte)} (h : best.isSome = true) : (xs.foldl (laterOf l ok) best).isSome = true := by
  induction xs generalizing best with
  | nil => exact h
  | cons s xs ih =>
    obtain ⟨b, rfl⟩ := Option.isSome_iff_exists.mp h
    exact ih (laterOf_isSome l ok b s)

/-- Where no slot is valid, no slot ends a value. -/
theorem latestSlot_of_none {l : List (Option (List Byte))} (h : (latestSlot l fun _ _ => true) = none)
    (ok : Nat → List Byte → Bool) : latestSlot l ok = none := by
  rw [latestSlot_eq] at h ⊢
  generalize upto 64 = slots at h ⊢
  induction slots with
  | nil => rfl
  | cons s xs ih =>
    cases hslot : nth l s none with
    | none =>
      have hskip : ∀ ok, laterOf l ok none s = none := fun ok => by rw [laterOf, hslot]
      rw [List.foldl_cons, hskip] at h ⊢
      exact ih h
    | some x =>
      have htaken : laterOf l (fun _ _ => true) none s = some (s, x) := by rw [laterOf, hslot]; rfl
      have hsome := foldl_laterOf_isSome l (fun _ _ => true) xs (best := some (s, x)) rfl
      rw [List.foldl_cons, htaken] at h
      rw [h] at hsome
      exact Bool.noConfusion hsome

theorem Dev.ringPut_jrn (d : Dev) (n : Nat) (v : List Byte) : (d.ringPut n v).jrn = d.jrn := d.ringPut_onlyIn n v .jrn (by decide)

/-- Wear ring 0 at boot gives the boot count (R318, R379). -/
theorem Dev.bootRing_zero (d : Dev) : (d.bootRing 0).jrn = { d.jrn with boot := d.ringCount } := by
  unfold Dev.bootRing Dev.ringCount
  extract_lets l note
  split
  next hnone =>
    rw [latestSlot_of_none hnone]
    exact Dev.ringPut_jrn _ 0 _
  next x hlatest =>
    split
    next f hforce => rw [hforce]; rfl
    next hforce => rw [hforce]; rfl

theorem Dev.ringTaken_jrn (d : Dev) {n : Nat} (hn : n ≠ 0) (v : List Byte) (roles : List (Nat × Nat × Nat)) :
    (d.ringTaken n v roles).jrn = d.jrn := by
  unfold Dev.ringTaken
  rw [if_neg hn]
  split_ifs <;> rfl

theorem Dev.bootRing_other (d : Dev) {n : Nat} (hn : n ≠ 0) : (d.bootRing n).jrn = d.jrn := by
  unfold Dev.bootRing
  extract_lets l note
  split
  · exact (Dev.ringPut_jrn _ n _).trans (Dev.ringTaken_jrn _ hn _ _)
  · split
    · exact Dev.ringTaken_jrn _ hn _ _
    · exact Dev.ringTaken_jrn _ hn _ _

theorem Dev.bootRings_jrn (d : Dev) : d.bootRings.jrn = { d.jrn with boot := d.ringCount } := by
  refine (foldN_induct (P := fun k e => (k = 0 → e = d) ∧ (k ≠ 0 → e.jrn = { d.jrn with boot := d.ringCount })) (g := Dev.bootRing)
    (N := 128) (d := d) ⟨fun _ => rfl, fun h => absurd rfl h⟩ fun e k _ ⟨hfirst, hlater⟩ => ⟨fun h => absurd h k.succ_ne_zero, fun _ => ?_⟩).2
    (by decide)
  by_cases hk : k = 0
  · rw [hk, hfirst hk]; exact d.bootRing_zero
  · exact (e.bootRing_other hk).trans (hlater hk)

/-! ### The boot after the self-tests -/

theorem Dev.skipLost_queue (d : Dev) (n : Nat) : (d.skipLost n).jrn.queue = d.jrn.queue := by
  induction n generalizing d with
  | zero => rfl
  | succ n ih =>
    unfold Dev.skipLost
    split
    · exact ih _
    · rfl

theorem Dev.restoreGrant_jrn (d : Dev) (l : Nat) :
    (d.restoreGrant l).jrn.boot = d.jrn.boot ∧ (d.restoreGrant l).jrn.queue = d.jrn.queue := by
  unfold Dev.restoreGrant
  split <;> exact ⟨rfl, rfl⟩

/-- The records of the boot: places and rings, the peat log, the boot count, the replay and the grants (R318 to R323, R373). -/
def Dev.bootRecords (d : Dev) : Dev :=
  foldN 256 Dev.restoreGrant ((d.placeErrors.skipLost 128).bootRings.peatScan.mergeFinal.countBoot).startReplay

/-- The island PLLs of the twins that passed are locked, and the safe state of the boot ends (R296). -/
def Dev.bootEnded (d : Dev) (pa pb : Bool) : Dev :=
  { d with
    time := { d.time with lockA := if pa then 0x7FF else d.time.lockA, lockB := if pb then 0x7FF else d.time.lockB },
    die := { d.die with safe := false, noneRun := 0, fltLow := false } }

/-- The end of the boot leaves all else as the records left it. -/
theorem Dev.bootEnded_rest (d : Dev) (pa pb : Bool) :
    (d.bootEnded pa pb).jrn = d.jrn ∧ (d.bootEnded pa pb).hs = d.hs ∧ (d.bootEnded pa pb).units = d.units := ⟨rfl, rfl, rfl⟩

/-- The twins' copies reconciled where both twins pass (R373). -/
def Dev.reconciled (d : Dev) (pa pb : Bool) : Dev := if pa && pb then d.reconcile else d

theorem Dev.bootWork_eq (d : Dev) (pa pb : Bool) : d.bootWork pa pb = (d.reconciled pa pb).bootRecords.bootEnded pa pb := by
  unfold Dev.bootWork Dev.reconciled
  generalize (if pa && pb then d.reconcile else d) = e
  unfold Dev.bootRecords Dev.bootEnded
  rfl

theorem Dev.bootRecords_onlyIn (d : Dev) : Dev.onlyIn [.stat, .adm, .jrn, .nv, .peat, .bbus, .therm] d d.bootRecords := by
  have hskip : Dev.onlyIn [.stat, .jrn] d (d.placeErrors.skipLost 128) :=
    Dev.onlyIn_via (Dev.skipLost_onlyIn d.placeErrors 128) (by decide) (Dev.onlyIn_mono d.placeErrors_onlyIn (by decide))
  unfold Dev.bootRecords
  generalize d.placeErrors.skipLost 128 = e at hskip ⊢
  exact Dev.onlyIn_via (foldN_onlyIn 256 _ _ fun _ _ => Dev.restoreGrant_onlyIn _ _) (by decide)
    (Dev.onlyIn_via (Dev.startReplay_onlyIn _) (by decide) (Dev.onlyIn_via (Dev.countBoot_onlyIn _) (by decide)
      (Dev.onlyIn_via (Dev.mergeFinal_onlyIn _) (by decide) (Dev.onlyIn_via (Dev.peatScan_onlyIn _) (by decide)
        (Dev.onlyIn_via (Dev.bootRings_onlyIn e) (by decide) (Dev.onlyIn_mono hskip (by decide)))))))

/-- The boot counts on from the count of wear ring 0, and every item that waits stays in the queue. -/
theorem Dev.bootRecords_jrn (d : Dev) : d.bootRecords.jrn.boot = (d.ringCount + 1) % 2 ^ 32 ∧
    d.bootRecords.jrn.queue.length = d.jrn.queue.length := by
  have hskip : Dev.onlyIn [.stat, .jrn] d (d.placeErrors.skipLost 128) :=
    Dev.onlyIn_via (Dev.skipLost_onlyIn d.placeErrors 128) (by decide) (Dev.onlyIn_mono d.placeErrors_onlyIn (by decide))
  have hqueue : (d.placeErrors.skipLost 128).jrn.queue = d.jrn.queue :=
    (d.placeErrors.skipLost_queue 128).trans (congrArg JrnSt.queue (d.placeErrors_onlyIn .jrn (by decide)))
  unfold Dev.bootRecords
  generalize d.placeErrors.skipLost 128 = e at hskip hqueue ⊢
  have hcount : e.ringCount = d.ringCount := Dev.ringCount_congr (hskip .nv (by decide)) (hskip .twin (by decide))
  have hmerged : e.bootRings.peatScan.mergeFinal.jrn = { e.jrn with boot := e.ringCount } :=
    ((Dev.mergeFinal_onlyIn _ .jrn (by decide)).trans (Dev.peatScan_onlyIn _ .jrn (by decide))).trans e.bootRings_jrn
  generalize e.bootRings.peatScan.mergeFinal = m at hmerged ⊢
  have hcounted : m.countBoot.jrn = { m.jrn with boot := (m.jrn.boot + 1) % 2 ^ 32 } := Dev.ringPut_jrn _ 0 _
  have hboot : (foldN 256 Dev.restoreGrant m.countBoot.startReplay).jrn.boot = m.countBoot.jrn.boot :=
    foldN_keeps (fun x => x.jrn.boot) (fun x l => (x.restoreGrant_jrn l).1) 256 m.countBoot.startReplay
  have hlength : (foldN 256 Dev.restoreGrant m.countBoot.startReplay).jrn.queue = m.countBoot.startReplay.jrn.queue :=
    foldN_keeps (fun x => x.jrn.queue) (fun x l => (x.restoreGrant_jrn l).2) 256 m.countBoot.startReplay
  rw [hboot, hlength, hcounted, hmerged, hcount]
  refine ⟨rfl, List.length_map _ |>.trans ?_⟩
  rw [hcounted, hmerged, hqueue]

end Sys2Proof.Machine
end

section
/-! PROOF. Reset release, the boot self-test and the slow writes of image pages (R296, R318, R348, R375, R376, R521, R539). -/

namespace Sys2Proof.Machine

/-! ### Slow writes of image pages -/

/-- The bytes of both copies stand. -/
def NvSt.sameBytes (n m : NvSt) : Prop := m.a = n.a ∧ m.b = n.b

theorem Dev.pageStart_nv (d : Dev) : d.nv.sameBytes d.pageStart.nv := by
  unfold Dev.pageStart
  split
  · exact ⟨rfl, rfl⟩
  · split
    · exact ⟨rfl, rfl⟩
    · exact ⟨rfl, rfl⟩

/-- The next page begins once both twins have made the first write; no byte of either copy differs before it is made. -/
theorem Dev.pageNext_effect (d : Dev) : d.nv.sameBytes d.pageNext.nv ∧ d.pageNext.upd.staging =
    if (d.upd.doneA || !d.twin.a.st.running) && (d.upd.doneB || !d.twin.b.st.running) && (d.upd.doneA || d.upd.doneB)
    then d.upd.staging.drop 1 else d.upd.staging := by
  unfold Dev.pageNext
  extract_lets u a b w miss n e
  split
  · exact ⟨(e.updUpd _).pageStart_nv, congrArg UpdSt.staging (Dev.pageStart_onlyIn _ .upd (by decide) : _ = _)⟩
  · exact ⟨⟨rfl, rfl⟩, rfl⟩

/-- Twin `t` has written the bytes of its slow write, and the page is no longer busy. -/
def Dev.pageWritten (d : Dev) (a : Nat) (bytes : List Byte) : Twin → Dev
  | .a => ({ d with nv := { d.nv with a := memWriteBytes d.nv.a a bytes, busyA := none } }).updUpd fun u => { u with doneA := true }
  | .b => ({ d with nv := { d.nv with b := memWriteBytes d.nv.b a bytes, busyB := none } }).updUpd fun u => { u with doneB := true }

theorem Dev.pageWritten_onlyIn (d : Dev) (a : Nat) (bytes : List Byte) (t : Twin) : Dev.onlyIn [.upd, .nv] d (d.pageWritten a bytes t) := by
  cases t <;> exact Dev.onlyIn_via (Dev.updUpd_onlyIn _ _) (by decide) (Dev.onlyIn_put_nv (Dev.onlyIn_refl _ _) (by decide))

theorem execImagePageWriteDone_busy {s : State} {t : Twin} {pg a : Nat} {bytes : List Byte} {rest : List (Nat × List Byte)}
    (hstaging : s.d.upd.staging = (a, bytes) :: rest) (hbusy : (match t with | .a => s.d.nv.busyA | .b => s.d.nv.busyB) = some pg) :
    ∃ f : Dev → Dev, exec (.imagePageWriteDone t) s = done f s ∧ f s.d = (s.d.pageWritten a bytes t).pageNext := by
  refine ⟨_, rfl, ?_⟩
  cases t with
  | a => dsimp only at hbusy ⊢; rw [hstaging, hbusy]; rfl
  | b =>
    unfold Dev.pageWritten
    dsimp only at hbusy ⊢
    rw [hstaging, hbusy]

/-! ### The end of the boot self-test -/

/-- The block with the roles of the twins that pass, the self-test taken (R296). -/
def Dev.rolesTaken (d : Dev) (pa pb : Bool) : Dev :=
  (d.bootRoles pa pb).updFh fun h => { h with booted := true, passA := pa, passB := pb }

/-- The block that has booted: with a twin the work of the boot, with none the safe state (R296). -/
def Dev.bootDone (d : Dev) (pa pb : Bool) : Dev :=
  if pa || pb then (d.rolesTaken pa pb).bootWork pa pb
  else { d.rolesTaken pa pb with die := { (d.rolesTaken pa pb).die with safe := true, fltLow := true } }.outputsOff

theorem execBootSelfTestDone_due {s : State} (hbooted : s.d.fh.booted = false) (hreset : s.d.sup.inReset = false) (passA passB : Bool) :
    ∃ f : Dev → Dev, exec (.bootSelfTestDone passA passB) s = done f s ∧
      f s.d = s.d.bootDone (s.d.twinPasses .a passA) (s.d.twinPasses .b passB) :=
  ⟨_, rfl, if_neg (by simp [hbooted, hreset])⟩

section
variable (d : Dev) (pa pb : Bool)

theorem Dev.rolesTaken_onlyIn : Dev.onlyIn [.stat, .sramA, .sramB, .twin, .fh] d (d.rolesTaken pa pb) :=
  Dev.onlyIn_via (Dev.updFh_onlyIn _ _) (by decide) (Dev.onlyIn_mono (d.bootRoles_onlyIn pa pb) (by decide))

theorem Dev.reconciled_onlyIn : Dev.onlyIn [.stat, .nv] d (d.reconciled pa pb) :=
  Dev.onlyIn_ite d.reconcile_onlyIn (Dev.onlyIn_refl _ _)

theorem Dev.reconciled_rolesTaken_ringCount :
    ((d.rolesTaken pa pb).reconciled pa pb).ringCount = ((d.bootRoles pa pb).reconciled pa pb).ringCount := by
  unfold Dev.rolesTaken Dev.reconciled
  rw [Dev.reconcile_updFh, Dev.ite_updFh]
  exact Dev.ringCount_congr rfl rfl

theorem Dev.bootDone_onlyIn :
    Dev.onlyIn [.jrn, .adm, .stat, .time, .twin, .hs, .nv, .fh, .die, .units, .therm, .sramA, .sramB, .bbus, .peat] d (d.bootDone pa pb) := by
  have hroles := Dev.onlyIn_mono (d.rolesTaken_onlyIn pa pb)
    (by decide : _ ⊆ [Part.jrn, .adm, .stat, .time, .twin, .hs, .nv, .fh, .die, .units, .therm, .sramA, .sramB, .bbus, .peat])
  exact Dev.onlyIn_ite (Dev.onlyIn_via (Dev.bootWork_onlyIn _ pa pb) (by decide) hroles)
    (Dev.onlyIn_via (Dev.outputsOff_onlyIn _) (by decide) (Dev.onlyIn_put_die hroles (by decide)))

/-- What the records and the end of the boot leave, from a block `r` in which only the twins and their copies differ from `d`. -/
theorem Dev.bootEnded_bootRecords (r : Dev) (h : Dev.onlyIn [.stat, .sramA, .sramB, .twin, .fh, .nv] d r) :
    (r.bootRecords.bootEnded pa pb).die = { d.die with safe := false, noneRun := 0, fltLow := false } ∧
      (r.bootRecords.bootEnded pa pb).jrn.boot = (r.ringCount + 1) % 2 ^ 32 ∧
      (r.bootRecords.bootEnded pa pb).time =
        { d.time with lockA := if pa then 0x7FF else d.time.lockA, lockB := if pb then 0x7FF else d.time.lockB } ∧
      (r.bootRecords.bootEnded pa pb).jrn.queue.length = d.jrn.queue.length ∧ (r.bootRecords.bootEnded pa pb).hs = d.hs ∧
      (r.bootRecords.bootEnded pa pb).units = d.units := by
  have honly := Dev.onlyIn_trans (Dev.onlyIn_mono h (by decide))
    (Dev.onlyIn_mono r.bootRecords_onlyIn (by decide : _ ⊆ [Part.stat, .sramA, .sramB, .twin, .fh, .adm, .jrn, .nv, .peat, .bbus, .therm]))
  obtain ⟨hboot, hqueue⟩ := r.bootRecords_jrn
  have hwork : r.jrn = d.jrn := h .jrn (by decide)
  rw [hwork] at hqueue
  generalize r.bootRecords = x at honly hboot hqueue ⊢
  have hdie : x.die = d.die := honly .die (by decide)
  have htime : x.time = d.time := honly .time (by decide)
  obtain ⟨hjrn, hhs, hunits⟩ := x.bootEnded_rest pa pb
  rw [hjrn, hhs, hunits]
  refine ⟨?_, hboot, ?_, hqueue, honly .hs (by decide), honly .units (by decide)⟩
  · rw [Dev.bootEnded, hdie]
  · rw [Dev.bootEnded, htime]

/-- What the boot leaves where a twin passes. -/
theorem Dev.bootWork_rolesTaken (e : Dev) (he : (d.rolesTaken pa pb).bootWork pa pb = e) :
    e.die = { d.die with safe := false, noneRun := 0, fltLow := false } ∧
      e.jrn.boot = (((d.bootRoles pa pb).reconciled pa pb).ringCount + 1) % 2 ^ 32 ∧
      e.time = { d.time with lockA := if pa then 0x7FF else d.time.lockA, lockB := if pb then 0x7FF else d.time.lockB } ∧
      e.jrn.queue.length = d.jrn.queue.length ∧ e.hs = d.hs ∧ e.units = d.units := by
  rw [Dev.bootWork_eq] at he
  rw [← he, ← Dev.reconciled_rolesTaken_ringCount]
  exact Dev.bootEnded_bootRecords d pa pb _ (Dev.onlyIn_via (Dev.reconciled_onlyIn _ pa pb) (by decide)
    (Dev.onlyIn_mono (d.rolesTaken_onlyIn pa pb) (by decide)))

/-- What the boot leaves where no twin passes. -/
theorem Dev.bootDone_none :
    (d.bootDone false false).die = { d.die with safe := true, fltLow := true } ∧ (d.bootDone false false).outputsStopped ∧
      (d.bootDone false false).jrn = d.jrn ∧ (d.bootDone false false).nv = d.nv ∧ (d.bootDone false false).time = d.time := by
  have hroles := d.rolesTaken_onlyIn false false
  have hdie : (d.rolesTaken false false).die = d.die := hroles .die (by decide)
  have honly : Dev.onlyIn _ d (d.bootDone false false) := Dev.onlyIn_via (Dev.outputsOff_onlyIn _) (by decide)
    (Dev.onlyIn_put_die (Dev.onlyIn_mono hroles (by decide :
      _ ⊆ [Part.stat, .sramA, .sramB, .twin, .fh, .die, .units, .hs])) (by decide))
  refine ⟨(Dev.outputsOff_onlyIn _ .die (by decide)).trans ?_, Dev.outputsOff_stopped _, honly .jrn (by decide), honly .nv (by decide),
    honly .time (by decide)⟩
  rw [← hdie]

/-- The roles the twins have after the boot, and the self-test taken. -/
theorem Dev.bootDone_roles : (d.bootDone pa pb).fh = { d.fh with booted := true, passA := pa, passB := pb } ∧
    (d.bootDone pa pb).twin = (d.bootRoles pa pb).twin := by
  have hfh : (d.rolesTaken pa pb).fh = { d.fh with booted := true, passA := pa, passB := pb } := by
    have h : (d.bootRoles pa pb).fh = d.fh := d.bootRoles_onlyIn pa pb .fh (by decide)
    rw [← h]; rfl
  have hwork := (d.rolesTaken pa pb).bootWork_onlyIn pa pb
  unfold Dev.bootDone
  split
  · exact ⟨(hwork .fh (by decide)).trans hfh, hwork .twin (by decide)⟩
  · exact ⟨(Dev.outputsOff_onlyIn _ .fh (by decide)).trans hfh, Dev.outputsOff_onlyIn _ .twin (by decide)⟩

end

/-- Settles O43: reset release by what it keeps and what the boot writes, the boot by the twins that pass, and a page by its twin. -/
theorem resetAndBoot : Obligations.ResetAndBoot := by
  refine ⟨fun s a b votes hmay => ?release, fun s passA passB hbooted hreset => ?boot, fun s t hbooted hreset => ?timeout,
    fun s t pg a bytes rest hstaging hbusy => ?page⟩
  case release =>
    obtain ⟨honly, hmarks⟩ := s.d.afterReset_effect a.val b.val votes
    obtain ⟨q, hq⟩ := s.d.sameWork_crustTear
    have hjrn : (s.d.afterReset a.val b.val votes).jrn = (s.d.crustTear.kept a.val b.val).jrn := honly .jrn (by decide)
    have hboot : s.d.crustTear.jrn.boot = s.d.jrn.boot := by rw [hq]
    have hnext : s.d.crustTear.jrn.next = s.d.jrn.next := by rw [hq]
    have hqueue : (s.d.afterReset a.val b.val votes).jrn.queue = s.d.crustTear.jrn.queue := by rw [hjrn]; rfl
    refine ⟨_, execResetRelease_may hmay a b votes, rfl, rfl, rfl, rfl, congrArg (fun x => x.2.2.2.2) hmarks, honly .sramA (by decide),
      honly .sramB (by decide), congrArg (fun x => x.1) hmarks, congrArg (fun x => x.2.1) hmarks, congrArg (fun x => x.2.2.1) hmarks,
      congrArg (fun x => x.2.2.2.1) hmarks, (congrArg JrnSt.boot hjrn).trans hboot,
      (congrArg JrnSt.next hjrn).trans hnext, hqueue, honly .twin (by decide),
      honly .mie (by decide), honly .dma (by decide), honly .cap (by decide)⟩
  case boot =>
    obtain ⟨f, hexec, hf⟩ := execBootSelfTestDone_due hbooted hreset passA passB
    refine completes_done hexec hf (s.d.bootDone_onlyIn _ _) ?_
    generalize s.d.twinPasses .a passA = pa
    generalize s.d.twinPasses .b passB = pb
    obtain ⟨hfh, htwin⟩ := s.d.bootDone_roles pa pb
    obtain ⟨hsta, hstb⟩ := s.d.bootRoles_st pa pb
    refine ⟨hfh, (congrArg (fun x : TwinCtl => x.a.st) htwin).trans hsta, (congrArg (fun x : TwinCtl => x.b.st) htwin).trans hstb, ?_⟩
    split
    next hany => exact s.d.bootWork_rolesTaken pa pb _ (if_pos (by simpa using hany)).symm
    next hnone =>
      obtain ⟨rfl, rfl⟩ : pa = false ∧ pb = false := by simpa using hnone
      exact s.d.bootDone_none
  case timeout =>
    obtain ⟨hout, hretired, hother⟩ := s.d.twinFails_twins t
    have hrun : ¬ (s.d.fh.booted || s.d.sup.inReset) = true := by simp [hbooted, hreset]
    refine completes_done rfl (if_neg hrun) (Dev.onlyIn_mono (s.d.twinFails_onlyIn t) (by decide)) ⟨hout, hother, fun hin => ?_⟩
    exact ⟨hretired hin, Dev.twinFails_stat hin⟩
  case page =>
    obtain ⟨f, hexec, hf⟩ := execImagePageWriteDone_busy hstaging hbusy
    obtain ⟨⟨hna, hnb⟩, hnext⟩ := (s.d.pageWritten a bytes t).pageNext_effect
    refine completes_done hexec hf (Dev.onlyIn_trans (s.d.pageWritten_onlyIn a bytes t) (Dev.onlyIn_mono (Dev.pageNext_onlyIn _) (by decide)))
      ⟨?_, hnext.trans ?_⟩
    · cases t
      · exact ⟨hna, hnb⟩
      · exact ⟨hnb, hna⟩
    · cases t with
      | a => simp [Dev.pageWritten, hstaging]
      | b => simp [Dev.pageWritten, hstaging]

end Sys2Proof.Machine
end

section
/-! PROOF. The table of sources, the acceptance of an OPEN and the completion of an item (R311 to R313, R319). -/

namespace Sys2Proof.Machine

/-! ### The table of sources -/

/-- Slot `i` of the table `l` is that of source `id`. -/
def slotOf (l : List (Option Source)) (id i : Nat) : Bool := (nth l i none).any fun x => x.id == id

theorem Dev.srcSlot_eq (d : Dev) (id : Nat) : d.srcSlot id = (upto 32).find? (slotOf d.jrn.sources id) := by
  unfold Dev.srcSlot firstN
  congr 1
  funext i
  rw [slotOf]
  cases nth d.jrn.sources i none <;> rfl

theorem Dev.srcSlot_congr {d e : Dev} (h : e.jrn.sources = d.jrn.sources) (id : Nat) : e.srcSlot id = d.srcSlot id := by
  rw [Dev.srcSlot_eq, Dev.srcSlot_eq, h]

theorem Dev.source_congr {d e : Dev} (h : e.jrn.sources = d.jrn.sources) (id : Nat) : e.source id = d.source id := by
  rw [Dev.source, Dev.source, Dev.srcSlot_congr h, h]

theorem Dev.source_of_srcSlot {d : Dev} {id i : Nat} (h : d.srcSlot id = some i) :
    i < 32 ∧ ∃ x, x.id = id ∧ nth d.jrn.sources i none = some x ∧ d.source id = some x := by
  have hfind := h
  rw [Dev.srcSlot_eq] at hfind
  have hof : slotOf d.jrn.sources id i = true := List.find?_some hfind
  obtain ⟨x, hx, hid⟩ := (Option.any_eq_true _ _).mp hof
  refine ⟨mem_upto.mp (List.mem_of_find?_eq_some hfind), x, by simpa using hid, hx, ?_⟩
  rw [Dev.source, h]
  exact hx

/-- A source that is not in the table has no slot there. -/
theorem Dev.slotOf_of_source_none {d : Dev} {id : Nat} (h : d.source id = none) {i : Nat} (hi : i < 32) :
    slotOf d.jrn.sources id i = false := by
  cases hslot : d.srcSlot id with
  | some j =>
    obtain ⟨_, x, _, _, hx⟩ := Dev.source_of_srcSlot hslot
    rw [h] at hx
    cases hx
  | none =>
    rw [Dev.srcSlot_eq, List.find?_eq_none] at hslot
    exact Bool.eq_false_iff.mpr (hslot i (mem_upto.mpr hi))

/-- A source put into slot `i` is found there, where the table did not hold it. -/
theorem Dev.srcSlot_of_put {d e : Dev} {x : Source} {i : Nat} (hnone : d.source x.id = none) (hi : i < 32)
    (hlen : i < d.jrn.sources.length) (h : e.jrn.sources = updAt d.jrn.sources i fun _ => some x) : e.srcSlot x.id = some i := by
  rw [Dev.srcSlot_eq, h, upto, List.find?_range_eq_some]
  refine ⟨?_, List.mem_range.mpr hi, fun j hj => ?_⟩
  · simp [slotOf, nth_updAt_same _ _ _ hlen]
  · have hj' := Dev.slotOf_of_source_none hnone (hj.trans hi)
    rw [slotOf] at hj' ⊢
    rw [nth_updAt_other _ _ _ hj.ne, hj', Bool.not_false]

theorem Dev.source_of_put {d e : Dev} {x : Source} {i : Nat} (hnone : d.source x.id = none) (hi : i < 32)
    (hlen : i < d.jrn.sources.length) (h : e.jrn.sources = updAt d.jrn.sources i fun _ => some x) : e.source x.id = some x := by
  rw [Dev.source, Dev.srcSlot_of_put hnone hi hlen h, Option.bind_some, h, nth_updAt_same _ _ _ hlen]

theorem nth_updAt_map {α : Type} (l : List (Option α)) (i j : Nat) (f : α → α) :
    nth (updAt l i (Option.map f)) j none = if j = i then (nth l j none).map f else nth l j none := by
  split
  next hj =>
    subst hj
    simp only [nth, List.getD_eq_getElem?_getD, updAt_getElem?_same]
    cases l[j]? <;> rfl
  next hj => exact nth_updAt_other _ _ _ hj

/-- A change of an entry that keeps its number leaves every source in its slot. -/
theorem slotOf_updAt_map {f : Source → Source} (hf : ∀ x, (f x).id = x.id) (l : List (Option Source)) (i : Nat) :
    slotOf (updAt l i (Option.map f)) = slotOf l := by
  funext id j
  rw [slotOf, slotOf, nth_updAt_map]
  split
  · simp [Option.any_map, hf]
  · rfl

/-! ### A change of a source's entry -/

section
variable {d : Dev} {id i : Nat} {f : Source → Source}

theorem Dev.updSource_absent (h : d.srcSlot id = none) (f : Source → Source) : d.updSource id f = d := by rw [Dev.updSource, h]

theorem Dev.putSource_jrn (d : Dev) (i : Nat) : (d.putSource i).jrn = d.jrn := d.putSource_onlyIn i .jrn (by decide)

theorem Dev.updSource_at (h : d.srcSlot id = some i) (f : Source → Source) :
    d.updSource id f = (d.updJrn fun j => { j with sources := updAt j.sources i (Option.map f) }).putSource i := by
  rw [Dev.updSource, h]

theorem Dev.updSource_jrn (h : d.srcSlot id = some i) (f : Source → Source) :
    (d.updSource id f).jrn = { d.jrn with sources := updAt d.jrn.sources i (Option.map f) } := by
  rw [Dev.updSource_at h, Dev.putSource_jrn]; rfl

/-- The entry of the source itself. -/
theorem Dev.source_updSource (d : Dev) (id : Nat) (hf : ∀ x, (f x).id = x.id) : (d.updSource id f).source id = (d.source id).map f := by
  cases h : d.srcSlot id with
  | none =>
    rw [Dev.updSource_absent h, Dev.source, h]
    rfl
  | some i =>
    obtain ⟨_, x, _, hx, hsource⟩ := Dev.source_of_srcSlot h
    have hslot : (d.updSource id f).srcSlot id = some i := by
      rw [Dev.srcSlot_eq, Dev.updSource_jrn h, slotOf_updAt_map hf, ← Dev.srcSlot_eq, h]
    rw [Dev.source, hslot, hsource, Dev.updSource_jrn h]
    change nth (updAt d.jrn.sources i (Option.map f)) i none = _
    rw [nth_updAt_map, if_pos rfl, hx]

theorem Source.bytes_length (x : Source) (next act : Nat) : (x.bytes next act).length = 1280 := by
  simp [Source.bytes, with32]

/-- Outside its 1,280 bytes of the source table an entry writes nothing. -/
theorem Dev.memRead_putSource (d : Dev) {i a : Nat} (ha : a < 0x324000 + 1280 * i ∨ 0x324000 + 1280 * i + 1280 ≤ a) :
    memRead (d.putSource i).nv.a a = memRead d.nv.a a ∧ memRead (d.putSource i).nv.b a = memRead d.nv.b a := by
  have hread : ∀ (run : Bool) (m : Memory) (x : Source) (next act : Nat),
      memRead (if run then memWriteBytes m (0x324000 + 1280 * i) (x.bytes next act) else m) a = memRead m a := fun run m x next act => by
    split
    · exact memRead_memWriteBytes_outside m _ (by rw [Source.bytes_length]; exact ha)
    · rfl
  unfold Dev.putSource
  split
  · exact ⟨rfl, rfl⟩
  · exact ⟨hread _ _ _ _ _, hread _ _ _ _ _⟩

end

/-! ### An OPEN -/

theorem Dev.sources_length {d : Dev} (h : d.shape = true) : d.jrn.sources.length = 32 := by
  obtain ⟨-, -, -, -, -, -, -, -, -, -, -, -, -, -, hsources⟩ := Dev.shape_iff.mp h
  exact hsources

theorem Dev.openSlot_lt {d : Dev} {i : Nat} (h : d.openSlot = some i) : i < 32 := by
  unfold Dev.openSlot at h
  dsimp only at h
  split at h
  next j hfree =>
    cases h
    exact mem_upto.mp (List.mem_of_find?_eq_some hfree)
  next =>
    generalize hold : List.foldl _ _ _ = old at h
    have hlt : old < 32 := by
      rw [← hold]
      refine List.foldlRecOn (motive := (· < 32)) _ _ (by decide) fun k hk j hj => ?_
      split
      · exact mem_upto.mp hj
      · exact hk
    split at h
    · split at h
      · cases h; exact hlt
      · cases h
    · cases h; exact hlt

/-- The item of an OPEN, which is executed when it is accepted (R312). -/
def Dev.openItem (d : Dev) (src seq : Nat) (fabric : Bool) : WorkItem :=
  { jseq := d.jrn.next, src := src, seq := seq, code := 0, args := [], slot := (d.jrn.compWr + d.pendingItems) % 128, tick := d.now,
    fabric := fabric, exec := false, started := false, replay := false, timed := none, result := some (1, 0) }

/-- The accepted work after an OPEN of the source in slot `i`. -/
theorem Dev.acceptItem_open {d : Dev} {src i : Nat} (h : d.srcSlot src = some i) (seq : Nat) (fabric : Bool) :
    (d.acceptItem src seq 0 [] fabric).1.jrn =
      { d.jrn with
        next := (d.jrn.next + 1) % 2 ^ 32
        queue := d.jrn.queue ++ [d.openItem src seq fabric]
        accepted := inc16 d.jrn.accepted
        sources := updAt d.jrn.sources i (Option.map fun x => { x with h := seq, flight := x.flight ++ [seq], last := d.now }) } := by
  unfold Dev.acceptItem
  extract_lets slot staged item kind journalled queued
  have hqueued : queued.jrn =
      { d.jrn with
        next := (d.jrn.next + 1) % 2 ^ 32
        queue := d.jrn.queue ++ [d.openItem src seq fabric]
        accepted := inc16 d.jrn.accepted } := rfl
  have hslot : queued.srcSlot src = some i := (Dev.srcSlot_congr (by rw [hqueued]) src).trans h
  have hnow : queued.now = d.now := rfl
  rw [Dev.updSource_jrn hslot, hqueued, hnow]

/-- The entry of a source that has just been opened, in slot `i` (R312). -/
def Dev.sourceOpened (d : Dev) (src seq i : Nat) : Dev :=
  d.updJrn fun j => { j with sources := updAt j.sources i fun _ => some ⟨src, seq, [], [], d.now⟩ }

/-- An OPEN of a source that is not in the table takes the slot `i` (R312). -/
theorem Dev.decideOpen_new {d : Dev} {src i : Nat} (hclosed : d.closed = none) (hsource : d.source src = none)
    (hslot : d.openSlot = some i) (seq : Nat) (fabric : Bool) :
    (d.decideOpen src seq fabric).1 = ((d.sourceOpened src seq i).acceptItem src seq 0 [] fabric).1 := by
  rw [Dev.decideOpen, hclosed, hsource, hslot]
  rfl

/-- The accepted work after an OPEN of a source that was not in the table. -/
theorem Dev.acceptItem_sourceOpened {d : Dev} {src i : Nat} (hsource : d.source src = none) (hi : i < 32) (hlen : i < d.jrn.sources.length)
    (seq : Nat) (fabric : Bool) :
    ((d.sourceOpened src seq i).acceptItem src seq 0 [] fabric).1.jrn =
      { d.jrn with
        next := (d.jrn.next + 1) % 2 ^ 32
        queue := d.jrn.queue ++ [d.openItem src seq fabric]
        accepted := inc16 d.jrn.accepted
        sources := updAt d.jrn.sources i fun _ => some ⟨src, seq, [], [seq], d.now⟩ } := by
  have hslot : (d.sourceOpened src seq i).srcSlot src = some i :=
    Dev.srcSlot_of_put (x := ⟨src, seq, [], [], d.now⟩) hsource hi hlen rfl
  have htable : (d.sourceOpened src seq i).jrn.sources = updAt d.jrn.sources i fun _ => some ⟨src, seq, [], [], d.now⟩ := rfl
  rw [Dev.acceptItem_open hslot, htable, updAt_updAt]
  rfl

theorem Dev.decideOpen_closed {d : Dev} {c : Nat} (h : d.closed = some c) (src seq : Nat) (fabric : Bool) :
    (d.decideOpen src seq fabric).1 = d.refuseItem c := by
  rw [Dev.decideOpen, h]

theorem Dev.refuseItem_jrn (d : Dev) (c : Nat) : (d.refuseItem c).jrn = { d.jrn with refused := inc16 d.jrn.refused, lastCode := c } := by
  unfold Dev.refuseItem
  dsimp only
  split_ifs <;> rfl

theorem execOpenItem_now {s : State} (hpause : s.d.upd.pause = false) (hreplay : s.d.replaying = false) (src seq : Nat) :
    ∃ f : Dev → Dev, exec (.openItem src seq) s = done f s ∧ f s.d = (s.d.decideOpen src seq (decide (src / 4096 = 3))).1 :=
  ⟨_, rfl, if_neg (by simp [hpause, hreplay])⟩

theorem execOpenItem_waits {s : State} (h : s.d.upd.pause = true ∨ s.d.replaying = true) (src seq : Nat) :
    ∃ f : Dev → Dev, exec (.openItem src seq) s = done f s ∧
      f s.d = s.d.updUpd fun u => { u with held := u.held ++ [.opening src seq] } :=
  ⟨_, rfl, if_pos (by simpa using h)⟩

/-! ### The completion of an item -/

theorem Dev.completeHead_held {d : Dev} (h : d.nvHeld = true) : d.completeHead = d := if_pos h

/-- The completion entry of item `w` written and held, and `w` out of the queue (R319). -/
def Dev.entryDone (d : Dev) (w : WorkItem) (st res : Nat) : Dev :=
  (d.nvPut (0x322000 + 16 * w.slot) (d.compEntry w st res)).updJrn fun j =>
    { j with queue := j.queue.drop 1, compWr := (w.slot + 1) % 128, held := j.held + 1,
             itemsFailed := if st = 4 then inc16 j.itemsFailed else j.itemsFailed,
             replayDone := j.replayDone || (w.replay && !(j.queue.drop 1).any WorkItem.replay) }

/-- The completion stored for its sequence in the entry of its source (R311). -/
def Source.completed (w : WorkItem) (st res : Nat) (x : Source) : Source :=
  { x with flight := x.flight.filter (· != w.seq), done := ((w.seq, st, res) :: x.done).take 256 }

/-- The status bit of a failed completion (R326). -/
def Dev.failTold (d : Dev) (st : Nat) : Dev := if st = 3 ∨ st = 4 then d.occur 0xA1 1 else d

/-- The Host Notify bit of a completion for a target port's source (R421). -/
def Dev.portTold (d : Dev) (port : Nat) : Dev :=
  if port = 1 ∨ port = 2 then
    d.updTwT (port - 1) fun t => if d.flag (0xB7 + port) 0x40 1 then { t with hnPend := t.hnPend ||| 2 } else t
  else d

theorem Dev.completeHead_eq {d : Dev} {w : WorkItem} {st0 res : Nat} (hheld : d.nvHeld = false) (hhead : d.head = some w)
    (hres : w.result = some (st0, res)) :
    d.completeHead = (((d.entryDone w (w.finalStatus st0) res).updSource w.src (.completed w (w.finalStatus st0) res)).failTold
      (w.finalStatus st0)).portTold (w.src / 4096) := by
  unfold Dev.completeHead
  rw [hheld, hhead]
  simp only [hres]
  rfl

theorem Dev.failTold_onlyIn (d : Dev) (st : Nat) : Dev.onlyIn [.stat] d (d.failTold st) :=
  Dev.onlyIn_ite (Dev.occur_onlyIn _ _ _) (Dev.onlyIn_refl _ _)

theorem Dev.portTold_onlyIn (d : Dev) (port : Nat) : Dev.onlyIn [.twT] d (d.portTold port) :=
  Dev.onlyIn_ite (Dev.updTwT_onlyIn _ _ _) (Dev.onlyIn_refl _ _)

/-- A change of a source's entry leaves the rest of the accepted work. -/
theorem Dev.updSource_rest (d : Dev) (id : Nat) (f : Source → Source) : ∃ l, (d.updSource id f).jrn = { d.jrn with sources := l } := by
  cases h : d.srcSlot id with
  | none => exact ⟨d.jrn.sources, by rw [Dev.updSource_absent h]⟩
  | some i => exact ⟨_, Dev.updSource_jrn h f⟩

end Sys2Proof.Machine
end

section
/-! PROOF. What waited for the replay is processed without waiting again and without a new item of the replay (R321, R350, R507). -/

namespace Sys2Proof.Machine

/-- The replay is over, and nothing waits in die S. -/
def Dev.ReplayOver (d : Dev) : Prop := d.replaying = false ∧ d.jrn.replayDone = true ∧ d.upd.held = []

namespace Dev.ReplayOver

variable {d e : Dev}

theorem keep (h : d.ReplayOver) (hqueue : e.jrn.queue = d.jrn.queue) (hdone : e.jrn.replayDone = d.jrn.replayDone)
    (hheld : e.upd.held = d.upd.held) : e.ReplayOver := by
  obtain ⟨hreplay, hdone', hheld'⟩ := h
  exact ⟨(congrArg (List.any · WorkItem.replay) hqueue).trans hreplay, hdone.trans hdone', hheld.trans hheld'⟩

/-- An effect on other parts. -/
theorem frame {l : List Part} (h : d.ReplayOver) (hl : Dev.onlyIn l d e) (hparts : Part.jrn ∉ l ∧ Part.upd ∉ l) : e.ReplayOver := by
  have hjrn : e.jrn = d.jrn := hl .jrn hparts.1
  have hupd : e.upd = d.upd := hl .upd hparts.2
  exact h.keep (by rw [hjrn]) (by rw [hjrn]) (by rw [hupd])

theorem ite {c : Prop} [Decidable c] (h : d.ReplayOver) (k : e.ReplayOver) : (if c then d else e).ReplayOver := by
  split
  · exact h
  · exact k

theorem iteFst {α : Type} {c : Prop} [Decidable c] {x y : Dev × α} (h : x.1.ReplayOver) (k : y.1.ReplayOver) :
    (if c then x else y).1.ReplayOver := by
  split
  · exact h
  · exact k

/-! ### Accepted work -/

theorem refuseItem (h : d.ReplayOver) (c : Nat) : (d.refuseItem c).ReplayOver :=
  h.keep (by rw [Dev.refuseItem_jrn]) (by rw [Dev.refuseItem_jrn])
    (congrArg UpdSt.held (Dev.refuseItem_onlyIn d c .upd (by decide) : (d.refuseItem c).upd = d.upd))

theorem updSource (h : d.ReplayOver) (id : Nat) (f : Source → Source) : (d.updSource id f).ReplayOver := by
  obtain ⟨l, hl⟩ := d.updSource_rest id f
  exact h.keep (by rw [hl]) (by rw [hl]) (congrArg UpdSt.held (Dev.updSource_onlyIn d id f .upd (by decide) : (d.updSource id f).upd = d.upd))

/-- A new item is not one of the replay. -/
theorem queued {f : JrnSt → JrnSt} {w : WorkItem} (h : d.ReplayOver) (hqueue : (f d.jrn).queue = d.jrn.queue ++ [w]) (hw : w.replay = false)
    (hdone : (f d.jrn).replayDone = d.jrn.replayDone) : (d.updJrn f).ReplayOver := by
  obtain ⟨hreplay, hdone', hheld⟩ := h
  refine ⟨?_, hdone.trans hdone', hheld⟩
  unfold Dev.replaying at hreplay ⊢
  change (f d.jrn).queue.any _ = false
  rw [hqueue, List.any_append, hreplay, List.any_cons, hw]
  rfl

theorem acceptItem (h : d.ReplayOver) (src seq code : Nat) (args : List Byte) (fabric : Bool) :
    (d.acceptItem src seq code args fabric).1.ReplayOver := by
  unfold Dev.acceptItem
  extract_lets slot staged item kind journalled queued
  have hstaged : staged.ReplayOver := .ite (h.frame (Dev.nvPut_onlyIn _ _ _) (by decide)) h
  have hjournalled : journalled.ReplayOver := by
    clear_value staged
    exact hstaged.keep rfl rfl rfl
  clear_value journalled
  exact (hjournalled.queued (w := item) rfl rfl rfl).updSource _ _

theorem decideItem (h : d.ReplayOver) (src seq code : Nat) (args : List Byte) (fabric : Bool) :
    (d.decideItem src seq code args fabric).1.ReplayOver := by
  unfold Dev.decideItem
  extract_lets no dup
  have hno : ∀ c, (no c).1.ReplayOver := h.refuseItem
  have hdup : dup.ReplayOver := h.keep rfl rfl rfl
  split
  · exact hno _
  · refine iteFst ?_ (iteFst ?_ (iteFst (hno _) (hno _)))
    · split
      · exact hdup
      · exact iteFst hdup (hno _)
    · split
      · exact hno _
      · exact h.acceptItem _ _ _ _ _

theorem decideOpen (h : d.ReplayOver) (src seq : Nat) (fabric : Bool) : (d.decideOpen src seq fabric).1.ReplayOver := by
  unfold Dev.decideOpen
  extract_lets no fresh
  have hno : ∀ c, (no c).1.ReplayOver := h.refuseItem
  have hput : ∀ i, (d.updJrn fun j => { j with sources := updAt j.sources i fun _ => some fresh }).ReplayOver := fun _ => h.keep rfl rfl rfl
  split
  · exact hno _
  · split
    · exact iteFst ((h.updSource _ _).acceptItem _ _ _ _ _) (hno _)
    · split
      · exact hno _
      · exact (hput _).acceptItem _ _ _ _ _

theorem decideAny (h : d.ReplayOver) (src seq code : Nat) (args : List Byte) (fabric : Bool) :
    (d.decideAny src seq code args fabric).1.ReplayOver := iteFst (h.decideOpen _ _ _) (h.decideItem _ _ _ _ _)

theorem windowSeq (h : d.ReplayOver) (n tag seq code : Nat) (args : List Byte) : (d.windowSeq n tag seq code args).ReplayOver := by
  have hcells : ∀ data, (d.blockCells n 0x10 data).ReplayOver := fun data => h.frame (Dev.blockCells_onlyIn _ _ _ data) (by decide)
  exact ite ((hcells _).frame (Dev.keepReply_onlyIn _ _ _ _) (by decide))
    (((hcells _).decideAny _ _ _ _ _).frame (Dev.keepReply_onlyIn _ _ _ _) (by decide))

/-! ### Writes of registers -/

theorem moveCompRd (h : d.ReplayOver) (v : Nat) : (d.moveCompRd v).ReplayOver := by
  unfold Dev.moveCompRd
  exact ite (h.keep rfl rfl rfl) h

/-- A chunk leaves what waits in die S. -/
theorem held_chunk (d : Dev) (off : Nat) (l : List Byte) : (d.chunk off l).1.upd.held = d.upd.held := by
  have hstart : ∀ e : Dev, e.pageStart.upd = e.upd := fun e => e.pageStart_onlyIn .upd (by decide)
  unfold Dev.chunk
  extract_lets u k us old differs
  split
  · rfl
  · split
    · rfl
    · split
      · rfl
      · split
        · rfl
        · dsimp only
          rw [hstart]
          rfl

theorem chunkCtl (h : d.ReplayOver) (p : Path) (v : Nat) : (d.chunkCtl p v).ReplayOver := by
  have hjrn : (d.chunkCtl p v).jrn = d.jrn := Dev.chunkCtl_onlyIn d p v .jrn (by decide)
  refine h.keep (by rw [hjrn]) (by rw [hjrn]) ?_
  unfold Dev.chunkCtl
  split_ifs
  · rfl
  · rfl
  · exact held_chunk d _ _
  · rfl

theorem blockWrite (h : d.ReplayOver) (p : Path) (pg off v : Nat) (r : RegRow) : (d.blockWrite p pg off v r).ReplayOver := by
  have hplain : ∀ mask, (d.plainWrite pg off v mask).ReplayOver := fun mask => h.frame (Dev.plainWrite_onlyIn _ _ _ _ _) (by decide)
  have harm : (if bitAt v 0 then d.capArm else d).ReplayOver := ite (h.frame (Dev.capArm_onlyIn _) (by decide)) h
  unfold Dev.blockWrite
  refine ite (h.frame (Dev.calNow_onlyIn _ _) (by decide)) (ite ?_ (ite ((hplain _).frame (Dev.capRdWrite_onlyIn _ _) (by decide))
    (ite (h.moveCompRd v) (ite (h.frame (Dev.fhClear_onlyIn _ _) (by decide)) (ite (h.frame (Dev.stageClear_onlyIn _ _ _) (by decide))
    (ite (h.frame (Dev.stageClear_onlyIn _ _ _) (by decide)) (ite (h.frame (Dev.peatTrig_onlyIn _ _) (by decide))
    (ite ((hplain _).frame (Dev.peatRdWrite_onlyIn _ _) (by decide)) (ite (h.frame (Dev.fabGoWrite_onlyIn _) (by decide))
    (ite (h.frame (Dev.rowExtWrite_onlyIn _ _) (by decide)) (ite (h.frame (Dev.timeGo_onlyIn _) (by decide)) (ite h (ite h
    (ite (h.chunkCtl p v) ((hplain _).frame (Dev.shadowWrite_onlyIn _ _ _ _ _) (by decide))))))))))))))))
  exact ite (harm.frame (Dev.capForce_onlyIn _) (by decide)) harm

end Dev.ReplayOver

/-! ### What waited in die S -/

section
variable {s : State}

theorem State.snapFrom_onlyIn (s : State) (p : Path) (n v : Nat) : Dev.onlyIn [.ident] s.d (s.snapFrom p n v).d := by
  unfold State.snapFrom State.snapWrite
  dsimp only
  split_ifs
  all_goals exact Dev.onlyIn_put_ident (Dev.onlyIn_refl _ _) (by decide)

theorem State.applyWrite_replayOver (h : s.d.ReplayOver) (p : Path) (pg off v : Nat) : (s.applyWrite p pg off v).1.d.ReplayOver := by
  have hlock : ∀ {e : Dev}, e.ReplayOver → (e.closeLock p pg).ReplayOver := fun he => he.frame (Dev.closeLock_onlyIn _ _ _) (by decide)
  unfold State.applyWrite
  split
  · exact h
  · split
    · exact hlock h
    next r hr =>
      split
      · exact hlock (h.frame (s.snapFrom_onlyIn p _ v) (by decide))
      · split
        · exact hlock h
        · have hwritten : (if off < 0x40 then s.d.commonWrite p pg off v r else s.d.blockWrite p pg off v r).ReplayOver :=
            .ite (h.frame (Dev.commonWrite_onlyIn _ _ _ _ _ _) (by decide)) (h.blockWrite p pg off v r)
          have htold := Dev.ReplayOver.ite (c := s.rwcDiff r pg off v != 0)
            (hwritten.frame (Dev.occurC_onlyIn _ 0xB2 1 2) (by decide)) hwritten
          exact .ite htold (hlock htold)

theorem State.writeWords_replayOver (h : s.d.ReplayOver) (p : Path) (pg off : Nat) (ws : List Word32) :
    (s.writeWords p pg off ws).1.d.ReplayOver := by
  induction ws generalizing s off with
  | nil => exact h
  | cons w ws ih => exact ih (State.applyWrite_replayOver h p pg off w.toNat) (off + 4)

theorem State.windowWrite_replayOver (h : s.d.ReplayOver) (n pg off : Nat) (ws : List Word32) :
    (s.windowWrite n pg off ws).d.ReplayOver := by
  unfold State.windowWrite
  extract_lets t st r
  have ht : t.d.ReplayOver := h.frame (Dev.blockCells_onlyIn _ _ _ _) (by decide)
  split
  · exact ht.frame (Dev.keepReply_onlyIn _ _ _ _) (by decide)
  · exact (State.writeWords_replayOver ht _ _ _ _).frame (Dev.keepReply_onlyIn _ _ _ _) (by decide)

theorem State.windowRead_replayOver (h : s.d.ReplayOver) (n pg off k : Nat) : (s.windowRead n pg off k).d.ReplayOver := by
  unfold State.windowRead
  extract_lets t st offs st' body
  have ht : t.d.ReplayOver := h.frame (Dev.blockCells_onlyIn _ _ _ _) (by decide)
  split
  · exact ht.frame (Dev.keepReply_onlyIn _ _ _ _) (by decide)
  · exact ht.frame (Dev.keepReply_onlyIn _ _ _ _) (by decide)

theorem State.runHeld_replayOver (h : s.d.ReplayOver) (b : HeldBlk) : (s.runHeld b).d.ReplayOver := by
  unfold State.runHeld
  extract_lets late
  have hlate : ∀ (n : Nat) (f : State → State), (f s).d.ReplayOver → (late n f).d.ReplayOver := fun n f hf =>
    .ite (hf.frame (Dev.updTwT_onlyIn _ _ _) (by decide)) (hf.frame (Dev.replyReady_onlyIn _ _) (by decide))
  clear_value late
  cases b with
  | regWrite n pg off ws => exact hlate n _ (State.windowWrite_replayOver h n pg off ws)
  | regRead n pg off k => exact hlate n _ (State.windowRead_replayOver h n pg off k)
  | seq n tag sq code args => exact hlate n _ (h.windowSeq n tag sq code args)
  | opening src sq => exact h.decideOpen src sq _
  | vout r v =>
    exact Dev.ReplayOver.frame (l := [.regs]) h
      (Dev.onlyIn_via (Dev.commitPage_onlyIn _ _) (by decide) (Dev.onlyIn_put_regs (Dev.onlyIn_refl _ _) (by decide))) (by decide)

theorem State.runHeld_list_replayOver (h : s.d.ReplayOver) (l : List HeldBlk) : (l.foldl State.runHeld s).d.ReplayOver := by
  induction l generalizing s with
  | nil => exact h
  | cons b l ih => exact ih (State.runHeld_replayOver h b)

/-- During a management pause all that waits waits on (R507). -/
theorem State.release_paused (h : s.d.upd.pause = true) : s.release = s := by
  have hall : ∀ b ∈ s.d.upd.held, s.d.holds b = true := fun b _ => by rw [Dev.holds, h, Bool.true_or]
  unfold State.release
  extract_lets l t
  have hl : l.filter s.d.holds = l := List.filter_eq_self.mpr hall
  have ht : t = s := by
    dsimp only [t]
    rw [State.upd, hl]
    rfl
  rw [ht, List.filter_eq_nil_iff.mpr fun b hb => by simp [hall b hb]]
  rfl

/-- Outside a pause nothing waits after the replay. -/
theorem State.release_replayOver (hpause : s.d.upd.pause = false) (hreplay : s.d.replaying = false) (hdone : s.d.jrn.replayDone = true) :
    s.release.d.ReplayOver := by
  have hnone : ∀ b, ¬ s.d.holds b = true := fun b => by simp [Dev.holds, hpause, hreplay]
  unfold State.release
  extract_lets l t
  have ht : t.d.ReplayOver := ⟨hreplay, hdone, List.filter_eq_nil_iff.mpr fun b _ => hnone b⟩
  exact State.runHeld_list_replayOver ht _

theorem State.release_of_empty (h : s.d.upd.held = []) : s.release = s := by
  unfold State.release
  extract_lets l t
  have ht : t = s := by
    dsimp only [t, l]
    rw [State.upd, h]
    change { s with d := s.d.updUpd fun u => { u with held := [] } } = s
    rw [← h]
    rfl
  have hl : l = [] := h
  rw [ht, hl]
  rfl

end

end Sys2Proof.Machine
end

section
/-! PROOF. Accepted work: OPEN, the completion of an item, the end of the replay and COMP_RD (R312, R313, R315, R319, R326). -/

namespace Sys2Proof.Machine

/-! ### An item leaves the queue -/

section
variable {d : Dev} {w : WorkItem} {st0 res : Nat} (hheld : d.nvHeld = false) (hhead : d.head = some w)
  (hres : w.result = some (st0, res))

include hheld hhead hres

theorem Dev.completeHead_jrn : ∃ l, d.completeHead.jrn = { (d.entryDone w (w.finalStatus st0) res).jrn with sources := l } := by
  obtain ⟨l, hl⟩ := (d.entryDone w (w.finalStatus st0) res).updSource_rest w.src (.completed w (w.finalStatus st0) res)
  rw [Dev.completeHead_eq hheld hhead hres]
  exact ⟨l, (Dev.portTold_onlyIn _ _ .jrn (by decide)).trans ((Dev.failTold_onlyIn _ _ .jrn (by decide)).trans hl)⟩

theorem Dev.completeHead_nv : d.completeHead.nv =
    ((d.entryDone w (w.finalStatus st0) res).updSource w.src (.completed w (w.finalStatus st0) res)).nv := by
  rw [Dev.completeHead_eq hheld hhead hres]
  exact (Dev.portTold_onlyIn _ _ .nv (by decide)).trans (Dev.failTold_onlyIn _ _ .nv (by decide))

/-- The completion is stored for its sequence (R311). -/
theorem Dev.completeHead_source : d.completeHead.source w.src =
    (d.source w.src).map (.completed w (w.finalStatus st0) res) := by
  rw [Dev.completeHead_eq hheld hhead hres]
  generalize hentry : d.entryDone w (w.finalStatus st0) res = e
  have htable : e.jrn.sources = d.jrn.sources := by rw [← hentry]; rfl
  have hjrn : ((((e.updSource w.src (.completed w (w.finalStatus st0) res)).failTold (w.finalStatus st0)).portTold (w.src / 4096)).jrn =
      (e.updSource w.src (.completed w (w.finalStatus st0) res)).jrn) :=
    (Dev.portTold_onlyIn _ _ .jrn (by decide)).trans (Dev.failTold_onlyIn _ _ .jrn (by decide))
  rw [Dev.source_congr (congrArg JrnSt.sources hjrn), Dev.source_updSource e w.src (f := .completed w _ res) fun _ => rfl, Dev.source_congr htable]

/-- A failed completion is recorded, another leaves the status words (R326). -/
theorem Dev.completeHead_stat :
    if w.finalStatus st0 = 3 ∨ w.finalStatus st0 = 4 then d.recorded d.completeHead 0xA1 1 else d.completeHead.stat = d.stat := by
  rw [Dev.completeHead_eq hheld hhead hres]
  generalize hentry : (d.entryDone w (w.finalStatus st0) res).updSource w.src _ = e
  have hstat : e.stat = d.stat := by
    rw [← hentry]; exact Dev.updSource_onlyIn _ _ _ .stat (by decide)
  have hport : ((e.failTold (w.finalStatus st0)).portTold (w.src / 4096)).stat = (e.failTold (w.finalStatus st0)).stat :=
    Dev.portTold_onlyIn _ _ .stat (by decide)
  unfold Dev.failTold at hport ⊢
  split
  next hfail =>
    rw [if_pos hfail] at hport
    exact Dev.recorded_congr hport (Dev.recorded_occur_of hstat _ _)
  next hfail =>
    rw [if_neg hfail] at hport
    exact hport.trans hstat

/-- Only a completion for a source of a target port sets a Host Notify bit (R421). -/
theorem Dev.completeHead_twT (h1 : w.src / 4096 ≠ 1) (h2 : w.src / 4096 ≠ 2) : d.completeHead.twT = d.twT := by
  rw [Dev.completeHead_eq hheld hhead hres, Dev.portTold, if_neg (not_or.mpr ⟨h1, h2⟩)]
  exact (Dev.failTold_onlyIn _ _ .twT (by decide)).trans (Dev.updSource_onlyIn _ _ _ .twT (by decide))

theorem Dev.completeHead_replaying : d.completeHead.replaying = (d.jrn.queue.drop 1).any WorkItem.replay := by
  obtain ⟨l, hl⟩ := Dev.completeHead_jrn hheld hhead hres
  rw [Dev.replaying, hl]
  rfl

end

theorem Dev.replaying_of_head {d : Dev} {w : WorkItem} (h : d.head = some w) :
    d.replaying = (w.replay || (d.jrn.queue.drop 1).any WorkItem.replay) := by
  obtain ⟨l, hl⟩ := List.head?_eq_some_iff.mp h
  rw [Dev.replaying, hl]
  rfl

/-! ### The command -/

/-- Nothing is processed after a completion that does not end the replay, or where nothing waits. -/
theorem execItemCompletion_stays {s : State} (h : s.d.completeHead.replaying = s.d.replaying ∨ s.d.upd.held = []) :
    exec .itemCompletion s = done Dev.completeHead s := by
  have hheld : s.d.completeHead.upd = s.d.upd := Dev.completeHead_onlyIn _ .upd (by decide)
  change Host.Outcome.next (if s.d.replaying && !s.d.completeHead.replaying then (s.upd Dev.completeHead).release else s.upd Dev.completeHead) = _
  split
  next hover =>
    have hempty : (s.upd Dev.completeHead).d.upd.held = [] := by
      rw [State.upd_d, hheld]
      refine h.resolve_left fun hsame => ?_
      rw [hsame, Bool.and_not_self] at hover
      exact Bool.noConfusion hover
    rw [State.release_of_empty hempty]
    rfl
  next => rfl

/-- With the last item of the replay what waited is processed. -/
theorem execItemCompletion_over {s : State} (hreplay : s.d.replaying = true) (hover : s.d.completeHead.replaying = false) :
    exec .itemCompletion s = .next (s.upd Dev.completeHead).release :=
  congrArg Host.Outcome.next (if_pos (by simp [hreplay, hover]))

/-- Settles O44: an OPEN by its outcome, a completion by the item at the head, the end of the replay by what waited for it. -/
theorem acceptedWork : Obligations.AcceptedWork := by
  refine ⟨fun s src seq i hshape hpause hreplay hclosed hsource hslot => ?accepted, fun s src seq h => ?waits,
    fun s src seq c hpause hreplay hclosed => ?refused, fun s w st0 res _ hheld hhead hres hstays => ?completed,
    fun s hheld => ?held, fun s w hheld hhead hres hw hlast => ?ended, fun s v => ?compRd⟩
  case accepted =>
    obtain ⟨f, hexec, hf⟩ := execOpenItem_now hpause hreplay src seq
    have honly := Dev.onlyIn_mono (Dev.decideOpen_onlyIn s.d src seq (decide (src / 4096 = 3)))
      (by decide : _ ⊆ [Part.jrn, .stat, .upd, .nv])
    have hi := Dev.openSlot_lt hslot
    have hlen : i < s.d.jrn.sources.length := by rw [Dev.sources_length hshape]; exact hi
    have hopened := Dev.decideOpen_new hclosed hsource hslot seq (decide (src / 4096 = 3))
    have hjrn : (s.d.decideOpen src seq (decide (src / 4096 = 3))).1.jrn = _ :=
      (congrArg Dev.jrn hopened).trans (Dev.acceptItem_sourceOpened hsource hi hlen seq _)
    have hkept := Dev.acceptItem_onlyIn (s.d.sourceOpened src seq i) src seq 0 [] (decide (src / 4096 = 3))
    rw [← hopened] at hkept
    refine completes_done hexec hf honly ⟨Dev.source_of_put (x := ⟨src, seq, [], [seq], s.d.now⟩) hsource hi hlen (by rw [hjrn]), ?_,
      ⟨s.d.openItem src seq _, congrArg JrnSt.queue hjrn, rfl, rfl, rfl, rfl, rfl, rfl⟩, congrArg JrnSt.next hjrn,
      congrArg JrnSt.accepted hjrn, hkept .stat (by decide), hkept .upd (by decide)⟩
    rw [hjrn]
    exact sameBut_updAt _ _ _
  case waits =>
    obtain ⟨f, hexec, hf⟩ := execOpenItem_waits h src seq
    exact completes_done hexec hf (Dev.updUpd_onlyIn _ _) rfl
  case refused =>
    obtain ⟨f, hexec, hf⟩ := execOpenItem_now hpause hreplay src seq
    rw [Dev.decideOpen_closed hclosed] at hf
    have honly := Dev.refuseItem_onlyIn s.d c
    refine completes_done hexec hf (Dev.onlyIn_mono honly (by decide))
      ⟨s.d.refuseItem_jrn c, honly .nv (by decide), honly .upd (by decide), fun hc => ?_, fun hc => ?_⟩
    · subst hc; exact Dev.recorded_occur_of rfl _ _
    · subst hc; exact Dev.recorded_occur_of rfl _ _
  case completed =>
    have hsame : s.d.completeHead.replaying = s.d.replaying ∨ s.d.upd.held = [] := by
      rw [Dev.completeHead_replaying hheld hhead hres, Dev.replaying_of_head hhead]
      rcases hstays with hw | hmore | hempty
      · exact .inl (by rw [hw, Bool.false_or])
      · exact .inl (by rw [hmore, Bool.or_true])
      · exact .inr hempty
    obtain ⟨l, hl⟩ := Dev.completeHead_jrn hheld hhead hres
    have hnv := Dev.completeHead_nv hheld hhead hres
    refine completes_done (execItemCompletion_stays hsame) rfl (Dev.onlyIn_mono (Dev.completeHead_onlyIn _) (by decide))
      ⟨congrArg JrnSt.queue hl, congrArg JrnSt.compWr hl, congrArg JrnSt.held hl, by rw [hl]; rfl, by rw [hl]; rfl, ?_,
        Dev.completeHead_source hheld hhead hres, Dev.completeHead_stat hheld hhead hres, Dev.completeHead_twT hheld hhead hres⟩
    have htable : (s.d.entryDone w (w.finalStatus st0) res).srcSlot w.src = s.d.srcSlot w.src := Dev.srcSlot_congr rfl _
    rw [hnv]
    extract_lets n
    split
    next hnone =>
      rw [Dev.updSource_absent (htable.trans hnone)]
      rfl
    next i hi =>
      intro a ha
      rw [Dev.updSource_at (htable.trans hi)]
      exact Dev.memRead_putSource _ ha
  case held =>
    have hsame : s.d.completeHead = s.d := Dev.completeHead_held hheld
    exact (execItemCompletion_stays (.inl (by rw [hsame]))).trans (done_self hsame)
  case ended =>
    obtain ⟨⟨st0, res⟩, hres⟩ := Option.isSome_iff_exists.mp hres
    have hafter : s.d.completeHead.replaying = false := (Dev.completeHead_replaying hheld hhead hres).trans hlast
    have hupd : s.d.completeHead.upd = s.d.upd := Dev.completeHead_onlyIn _ .upd (by decide)
    have hdone : s.d.completeHead.jrn.replayDone = true := by
      obtain ⟨l, hl⟩ := Dev.completeHead_jrn hheld hhead hres
      rw [hl]
      change (s.d.jrn.replayDone || (w.replay && !(s.d.jrn.queue.drop 1).any WorkItem.replay)) = true
      rw [hw, hlast, Bool.not_false, Bool.and_true, Bool.or_true]
    refine ⟨_, execItemCompletion_over (by rw [Dev.replaying_of_head hhead, hw, Bool.true_or]) hafter, ?_⟩
    split
    next hpause =>
      rw [State.release_paused (by rw [State.upd_d, hupd]; exact hpause)]
      exact ⟨hafter, hdone, congrArg UpdSt.held hupd⟩
    next hpause =>
      exact State.release_replayOver (by rw [State.upd_d, hupd]; simpa using hpause) hafter hdone
  case compRd =>
    refine completes_done rfl rfl (Dev.moveCompRd_onlyIn _ _) ?_
    unfold Dev.moveCompRd
    dsimp only
    split_ifs <;> rfl

end Sys2Proof.Machine
end
